-- ==== Sys2Proof/Word.lean ====
section
/-! DEFINITION. The words of the H8840: the 32-bit register word and the byte (00_scope.md, Numbers and units;
02_register_model.md R43: BAR0 takes single 32-bit words). -/
namespace Sys2Proof

/-- One register word (one DW of R43). -/
abbrev Word := BitVec 32

/-- One byte of a frame or of a memory. -/
abbrev Byte := BitVec 8

/-- The word that holds a natural number, reduced modulo 2^32. -/
abbrev Word.ofN (n : Nat) : Word := BitVec.ofNat 32 n

end Sys2Proof
end

