-- ==== Sys2Proof/Syntax.lean ====
section
/-! DEFINITION. The commands and events of the block, one constructor per row of spec/opcode_table.json, with the
data types of their operands. A command that is a register access carries its initiator and its word; an event of the
outside carries what the outside decides (a frame, a level, whether a check of the line passed). -/
namespace Sys2Proof

/-- The initiators of R45 and, on the bridge, the Kykel die (03_xanpel_link.md, INIT). -/
inductive Initiator
  | host
  | laurel
  | dma
  | kykel
  deriving DecidableEq, Repr

/-- INIT code of an initiator (ERR_LAST_INFO.INIT, register slot INIT). -/
def Initiator.code : Initiator → Nat
  | .host => 0
  | .laurel => 1
  | .dma => 2
  | .kykel => 3

/-- One message of the register slot of the Xanpel frame (03_xanpel_link.md, register slot layout). -/
structure BMsg where
  typ : Nat
  seq : Nat
  ackv : Bool
  ackseq : Nat
  init : Nat
  lock : Bool
  waddr : Nat
  data : Word
  ecode : Nat
  deriving DecidableEq, Repr

/-- The direction of a link message: toward the Kykel die or toward the Yatric die. -/
inductive LinkDir
  | toKykel
  | toYatric
  deriving DecidableEq, Repr

/-- The islands that can be clock-gated (R35). -/
inductive Island
  | drc
  | hif
  | cry
  | can
  deriving DecidableEq, Repr

/-- The three CAN frame formats. -/
inductive CanFmt
  | cc
  | fd
  | xl
  deriving DecidableEq, Repr

/-- A CAN frame as a controller hands it over or sends it (R115). ident: the 29-bit identifier field of R136, a
standard or CAN XL priority identifier in [28:18]; dlc for Classical CAN and CAN FD; the XL fields are 0 otherwise. -/
structure CanFrame where
  fmt : CanFmt
  ide : Bool
  ident : Nat
  rtr : Bool
  brs : Bool
  esi : Bool
  dlc : Nat
  rrs : Bool
  sec : Bool
  sdt : Nat
  vcid : Nat
  af : Nat
  data : List Byte
  deriving DecidableEq, Repr

/-- The errors CANCn_LEC.CODE distinguishes (04_can_controllers.md). -/
inductive CanErr
  | stuff
  | form
  | ack
  | bitRec
  | bitDom
  | crc
  | xlFormat
  deriving DecidableEq, Repr

/-- Where an error stands: in a frame, a CAN XL frame or another, or in or after the error or overload flag under way (R107, R118). -/
inductive ErrAt
  | frame (xl : Bool)
  | flag
  deriving DecidableEq, Repr

/-- What comes with the bytes of a frame that enters at a port: how long ago its SFD came, in ns, and the class that Laurel sets at MGMT
(R254, R323). -/
structure EthNote where
  age : Nat
  cls : Fin 8
  deriving DecidableEq, Repr

/-- The commands and events of the block: one constructor per row of spec/opcode_table.json, in the table's order. -/
inductive Instr
  /-- REGISTER_WRITE (R5): A write to a register that has no row of its own takes effect under its access code. -/
  | registerWrite (init : Initiator) (off : Nat) (words : Nat) (allBytes : Bool) (v : Word)
  /-- SHADOW_WRITE (R58): A write to an RWS register loads its shadow and sets PG_CSTAT.PEND, or is refused while SHLOCK = 1. -/
  | shadowWrite (init : Initiator) (off : Nat) (v : Word)
  /-- UNLOCK_KEY_WRITE (R61): A write to PG_UNLK unlocks the page for the writing initiator, or relocks it and raises BADKEY. -/
  | unlockKeyWrite (init : Initiator) (page : Nat) (v : Word)
  /-- GUARDED_WRITE (R61): A write to an RWG register takes effect only as the first write after an unlock; otherwise it is a LOCKED bus error. -/
  | guardedWrite (init : Initiator) (off : Nat) (v : Word)
  /-- INTERRUPT_SET (R47): A write of 1 to a PG_ISET bit sets the corresponding PG_IST bit as if its event had occurred. -/
  | interruptSet (init : Initiator) (page : Nat) (v : Word)
  /-- INTERRUPT_STATUS_CLEAR (R47): A W1C write to PG_IST clears status bits and can withdraw the page's interrupt request. -/
  | interruptStatusClear (init : Initiator) (page : Nat) (v : Word)
  /-- LOW_WORD_READ_LATCH (R44): A read of the low word of a 64-bit register latches the high word for the reading initiator. -/
  | lowWordReadLatch (init : Initiator) (off : Nat) (words : Nat) (allBytes : Bool)
  /-- LOW_WORD_WRITE_HOLD (R44): A write of the low word of a 64-bit register is held for the writing initiator. -/
  | lowWordWriteHold (init : Initiator) (off : Nat) (v : Word)
  /-- HIGH_WORD_WRITE (R44): A write of the high word applies the held low word and the high word as one change. -/
  | highWordWrite (init : Initiator) (off : Nat) (v : Word)
  /-- ERR_COUNT_READ (R53): A read of ERR_COUNT returns the bus-error count and clears it. -/
  | errCountRead (init : Initiator)
  /-- ERR_LAST_ADDR_READ (R54): A read of ERR_LAST_ADDR latches ERR_LAST_INFO and ERR_LAST_TS for the reading initiator. -/
  | errLastAddrRead (init : Initiator)
  /-- ERR_CLR (R54): A write of ERR_CLR bit 0 clears ERR_FIRST_INFO.VALID so that the next error is captured as first. -/
  | errClr (init : Initiator) (v : Word)
  /-- COUNTER_CLEAR (R130): A write to a page's CNTCLR register clears the counters that it names. -/
  | counterClear (init : Initiator) (page : Nat) (v : Word)
  /-- COMMIT_IMMEDIATE_REQUEST (R55): A write of CMT_GO requests an immediate commit, which is judged and then held or applied. -/
  | commitImmediateRequest (init : Initiator) (v : Word)
  /-- TIMED_COMMIT_ARM (R57): A write of CMT_TCTL.ARM requests a timed commit at CMT_TIME. -/
  | timedCommitArm (init : Initiator) (v : Word)
  /-- TIMED_COMMIT_CANCEL (R57): A write of CMT_TCTL.CANCEL withdraws a timed commit that has not yet been applied. -/
  | timedCommitCancel (init : Initiator) (v : Word)
  /-- TIMED_COMMIT_DUE (R57): Full time reaches the target of a pending timed commit. -/
  | timedCommitDue
  /-- COMMIT_APPLY (R58): A pending commit, once no job of the previous epoch remains in its window, copies the shadows of its groups into force and advances the epoch. -/
  | commitApply
  /-- TABLE_STAGED_WRITE (R68): A BAR2 write to a non-VALID word is staged for the initiator, and any staged words of another entry are discarded. -/
  | tableStagedWrite (init : Initiator) (off : Nat) (ws : List Word) (allBytes : Bool)
  /-- TABLE_VALID_WRITE (R68): A BAR2 write to the VALID word writes that word and every staged word into the entry as one change. -/
  | tableValidWrite (init : Initiator) (off : Nat) (ws : List Word) (allBytes : Bool)
  /-- TABLE_WORD0_READ (R69): A BAR2 read of word 0 latches the entry's other words for the reading initiator. -/
  | tableWord0Read (init : Initiator) (off : Nat) (n : Nat) (allBytes : Bool)
  /-- KYKEL_SUMMARY_WORD (R50): A Kykel interrupt summary word received over the bridge updates the IRQ summary bits for Kykel pages. -/
  | kykelSummaryWord
  /-- K_INT_CHANGE (R88): The K_INT side-band wire changes level, which IRQ_KSTAT.KINT shows. -/
  | kIntChange
  /-- ISLAND_CLOCK_GATE (R35): With AUTO = 1, an island that holds no job and serves no enabled function is clock-gated. -/
  | islandClockGate (island : Island)
  /-- ISLAND_CLOCK_RESTART (R35): A gated island's clock restarts within 200 ns of a new job. -/
  | islandClockRestart (island : Island)
  /-- DRAM_SELF_REFRESH_ENTRY (R36): After 100 us with no Thicket cells, no session and no DRAM job, the DRAM enters self-refresh. -/
  | dramSelfRefreshEntry
  /-- DRAM_SELF_REFRESH_EXIT (R36): The DRAM leaves self-refresh within 2 us of the first new request. -/
  | dramSelfRefreshExit
  /-- XANPEL_FRAME (R72): A 256-bit link frame is received whole, checked by CRC, and its CAN edge, T1S, register and event slots are delivered. -/
  | xanpelFrame (dir : LinkDir) (f : BitVec 256) (crcOk busHeld : Bool)
  /-- READ_REQUEST_MSG (R79): A read request message arrives at the far side and is served, waited or answered with RETRY. -/
  | readRequestMsg (dir : LinkDir) (m : BMsg) (busHeld : Bool)
  /-- POSTED_WRITE_MSG (R82): A posted write message arrives at the Kykel die and is applied or refused. -/
  | postedWriteMsg (dir : LinkDir) (m : BMsg) (busHeld : Bool)
  /-- NON_POSTED_WRITE_MSG (R82): A non-posted write message arrives and is applied and acknowledged. -/
  | nonPostedWriteMsg (dir : LinkDir) (m : BMsg) (busHeld : Bool)
  /-- READ_DATA_MSG (R80): Read data arrives at the requesting bridge and the initiator's read completes. -/
  | readDataMsg (dir : LinkDir) (m : BMsg)
  /-- WRITE_ACKNOWLEDGEMENT_MSG (R82): A write acknowledgement arrives and completes the non-posted write to its initiator. -/
  | writeAcknowledgementMsg (dir : LinkDir) (m : BMsg)
  /-- RETRY_MSG (R79): A RETRY answer arrives and the bridge schedules a repeat of the request. -/
  | retryMsg (dir : LinkDir) (m : BMsg)
  /-- ERROR_MSG (R79): An error message arrives and the access ends as a BRIDGE bus error. -/
  | errorMsg (dir : LinkDir) (m : BMsg)
  /-- LOCK_REQUEST_MSG (R84): A lock request message asks for the far register bus. -/
  | lockRequestMsg (dir : LinkDir) (m : BMsg) (busHeld : Bool)
  /-- LOCK_GRANT_MSG (R84): A lock grant message gives the requester the far register bus. -/
  | lockGrantMsg (dir : LinkDir) (m : BMsg)
  /-- LOCK_RELEASE_MSG (R84): A lock release message frees the far register bus. -/
  | lockReleaseMsg (dir : LinkDir) (m : BMsg)
  /-- LOCK_BREAK_MSG (R85): A lock break message tells a Kykel-side holder that its lock has broken. -/
  | lockBreakMsg (dir : LinkDir) (m : BMsg)
  /-- REGISTER_MESSAGE_RESEND (R78): A register message not acknowledged within 16 frames is resent with the same SEQ. -/
  | registerMessageResend (dir : LinkDir)
  /-- RETRY_INTERVAL_EXPIRY (R79): After RTINT x 250 ns the bridge repeats a request that met RETRY, or fails it after RTMAX repetitions. -/
  | retryIntervalExpiry
  /-- LOCK_REQ (R84): A write of XPL_LOCK.REQ requests the Kykel bus lock for the writing initiator. -/
  | lockReq (init : Initiator) (v : Word)
  /-- LOCK_REL (R84): A write of XPL_LOCK.REL releases the initiator's lock or withdraws its waiting request. -/
  | lockRel (init : Initiator) (v : Word)
  /-- LOCK_BREAK (R85): A lock still held 64 us after its grant breaks, and the next waiting request is granted. -/
  | lockBreak
  /-- RETRY_RESERVATION_EXPIRY (R87): The 2 us reservation of the Yatric bus for a repeated Kykel request ends. -/
  | retryReservationExpiry
  /-- LINK_TRAINING_START (R89): With the Yatric supply good and XREF_CLK present, the link leaves OFF and starts training. -/
  | linkTrainingStart
  /-- TRAINING_SUCCESS (R89): Deskew and trim within tolerance take the link UP; frames start and held events are delivered. -/
  | trainingSuccess (loopDly : Nat)
  /-- TRAINING_ATTEMPT_TIMEOUT (R89): A training attempt that has not succeeded in 20 us is counted, and the link retries or goes DOWN. -/
  | trainingAttemptTimeout
  /-- LINK_LOST (R89): CRC failures, loss of alignment or the resend limit take the link to LOST and then into retraining. -/
  | linkLost
  /-- XPL_TRAIN (R91): A write of XPL_CTL.TRAIN restarts training from UP or DOWN, and is ignored in OFF and TRAIN. -/
  | xplTrain (init : Initiator) (v : Word)
  /-- PF_WARN (R429): The power-fail warning asserts, and the device enters SAVE, sheds load and starts the save. -/
  | pfWarn
  /-- TAMP_ALM (R364): The tamper alarm wire aborts every key-using crypto job and Yew operation. -/
  | tampAlm
  /-- K_RSTREQ (R88): The Kykel die requests a reset of the Yatric die over its side-band wire. -/
  | kRstreq
  /-- CAN_CONFIG_TAKE_EFFECT (R96): At the next frame boundary, or at once when idle, a controller takes committed mode and bit-timing values into use. -/
  | canConfigTakeEffect (n : Fin 24)
  /-- BUS_INTEGRATION_COMPLETE (R96): Eleven consecutive recessive bits complete bus integration and the controller takes part in frames. -/
  | busIntegrationComplete (n : Fin 24)
  /-- CAN_FRAME_VALID (R114): A received or self-transmitted frame becomes valid and is handed to Privet, or waits in the receive buffer. -/
  | canFrameValid (n : Fin 24) (self : Bool) (f : CanFrame) (sofAge : Nat)
  /-- TRANSMIT_SELECTION (R110): At SOF the controller selects the highest-priority pending frame and starts an attempt. -/
  | transmitSelection (n : Fin 24) (rxDom : Nat)
  /-- TRANSMISSION_SUCCESS (R108): An acknowledged transmission frees its buffer and returns its credits. -/
  | transmissionSuccess (n : Fin 24) (sofAge : Nat)
  /-- ARBITRATION_LOST (R110): A lost arbitration leaves the frame pending for the next selection and decides any pending cancel. -/
  | arbitrationLost (n : Fin 24)
  /-- CAN_ERROR (R118): A detected bit, stuff, form, CRC or acknowledgement error updates TEC, REC and LEC and the confinement state. -/
  | canError (n : Fin 24) (e : CanErr) (tx : Bool) (dataPhase : Bool) (exempt : Bool) (at_ : ErrAt)
  /-- PROTOCOL_EXCEPTION_EVENT (R95): With PXE = 1, a frame format the controller does not accept is counted and the controller waits for bus integration. -/
  | protocolExceptionEvent (n : Fin 24)
  /-- OVERLOAD_FRAME (R130): An overload frame detected on the bus is counted in OVLDCNT. -/
  | overloadFrame (n : Fin 24)
  /-- SUSPEND_TRANSMISSION_END (R120): The 8-bit suspend time after an error-passive transmission ends. -/
  | suspendTransmissionEnd (n : Fin 24)
  /-- TX_DEADLINE_DROP (R111): A pending frame whose residence deadline passes is dropped within 10 us and its credits are freed. -/
  | txDeadlineDrop (n : Fin 24)
  /-- TX_CANCEL (R113): A write to CANCn_TXCAN cancels the head or indexed buffer, or waits for the outcome of an attempt in progress. -/
  | txCancel (init : Initiator) (n : Fin 24) (v : Word)
  /-- RECOVERY_REQUEST (R123): A write of CANCn_RECOV.GO by the owner starts recovery from BUS_OFF, or is refused with RECREF. -/
  | recoveryRequest (init : Initiator) (n : Fin 24) (v : Word)
  /-- RECOVERY_COMPLETE (R125): The 128th sequence of 11 recessive bits makes the controller error active with cleared counters. -/
  | recoveryComplete (n : Fin 24)
  /-- PRIVET_JOB_ACCEPT (R144): A waiting job is accepted into a free Privet slot, tagged with the epoch and searched against its route window. -/
  | privetJobAccept (src : Nat) (laurel : Option CanFrame)
  /-- COPY_ENQUEUE (R146): A copy is enqueued at its egress once every earlier copy of its flow has been enqueued or dropped, or it enters the hold queue. -/
  | copyEnqueue (job : Nat) (k : Nat)
  /-- HELD_COPY_PLACEMENT (R148): As credits return, the held copy of highest arbitration priority is placed into the controller. -/
  | heldCopyPlacement (n : Fin 24)
  /-- HELD_COPY_DEADLINE_DROP (R152): A held copy whose deadline passes is dropped within 10 us and its cells are freed. -/
  | heldCopyDeadlineDrop (n : Fin 24)
  /-- CYCLE_WINDOW_EXPIRY (R153): A cycle-time window that ends without a matching job counts a miss and starts a new window. -/
  | cycleWindowExpiry (route : Nat)
  /-- ROUTE_COUNTER_LATCH (R165): A write to PRV_RTE_CIDX latches the three counters of the named route. -/
  | routeCounterLatch (init : Initiator) (v : Word)
  /-- ROUTE_COUNTER_CLEAR (R165): A write to PRV_RTE_CCLR clears the counters of one route, or of every route. -/
  | routeCounterClear (init : Initiator) (v : Word)
  /-- AGGREGATION_TIMER_EXPIRY (R158): AGGT us after the first message of an aggregate, the stream sends the aggregate. -/
  | aggregationTimerExpiry (stream : Fin 64)
  /-- TUNNEL_FRAME_RECEIVE (R159): A frame from PRIV is checked, sequence-checked and turned into one Privet job per ACF message. -/
  | tunnelFrameReceive
  /-- STREAM_SILENCE_TIMEOUT (R162): A receive stream silent for TOUT ms sets STRTOUT and clears SYNC. -/
  | streamSilenceTimeout (stream : Fin 64)
  /-- SIGNAL_HANDOFF (R174): The signal engine unpacks a hand-off's sources, converts them for their sinks and writes the PDU buffers as one change. -/
  | signalHandoff
  /-- STALE_MARK (R186): The age sweep marks a source stale when its age exceeds its maximum age by more than 2 us. -/
  | staleMark (src : Fin 65536)
  /-- STALE_MARK_PASS (R187): A queued stale mark is passed to the source's sinks. -/
  | staleMarkPass
  /-- PERIODIC_SCHEDULE_INSTANT (R189): A periodic schedule instant of a transmit layout fires its trigger. -/
  | periodicScheduleInstant (layout : Fin 16384)
  /-- MINIV_DEFERRED_SEND (R190): At the end of MINIV, a deferred send is released to formation. -/
  | minivDeferredSend (layout : Fin 16384)
  /-- PDU_FRAME_FORMATION (R193): The formation unit forms a frame from a layout's buffer and sends it as a frame-route copy, or suppresses or discards it. -/
  | pduFrameFormation
  /-- SIGNAL_SLOT_LATCH (R197): A write to PRV_SIG_RIDX latches the named value-store slot. -/
  | signalSlotLatch (init : Initiator) (v : Word)
  /-- PDU_COUNTER_LATCH (R198): A write to PRV_PDU_CIDX latches a layout's counters and VCOUNT. -/
  | pduCounterLatch (init : Initiator) (v : Word)
  /-- PDU_COUNTER_CLEAR (R198): A write to PRV_PDU_CCLR clears the counters of one layout, or of every layout. -/
  | pduCounterClear (init : Initiator) (v : Word)
  /-- ADDRESS_CLAIMED (R205): An Address Claimed handed to the ledger updates the claimant's entry and any holders, and counts contention. -/
  | addressClaimed
  /-- REQUEST_FOR_ADDRESS_CLAIM (R210): A Request for Address Claim is answered by the PROXY and LOCAL entries that it concerns. -/
  | requestForAddressClaim
  /-- CLAIM_FRAME_SENT (R207): The controller reports the transmission of a ledger claim frame and the 250 ms claim wait starts. -/
  | claimFrameSent
  /-- CLAIM_WAIT_EXPIRY (R207): At the end of the claim wait, an entry that has not been displaced becomes CLAIMED. -/
  | claimWaitExpiry (e : Fin 2048)
  /-- CLAIM_RETRY (R207): 250 ms after a claim frame was dropped, the ledger forms the Address Claimed again. -/
  | claimRetry (e : Fin 2048)
  /-- CANNOT_CLAIM_SEND (R208): After a random delay, a displaced PROXY or LOCAL entry sends a cannot-claim and counts PXLOST. -/
  | cannotClaimSend (e : Fin 2048)
  /-- CLM_REQ (R210): A write of CLM_REQ.GO sends a Request for Address Claim on the named segment. -/
  | clmReq (init : Initiator) (v : Word)
  /-- LEDGER_FLUSH (R211): A write of CLM_FLUSH.GO clears every NATIVE entry of the named segment. -/
  | ledgerFlush (init : Initiator) (v : Word)
  /-- CLAIM_WINDOW_OPEN (R212): A first error-active entry or a write to CLM_ISOSTART opens a segment's claim window, flushes, claims and requests. -/
  | claimWindowOpen (n : Fin 24) (start : Option (Initiator × Word))
  /-- CLAIM_WINDOW_END (R212): A segment's claim window expires after WIN x 10 ms and its isolation ends. -/
  | claimWindowEnd (n : Fin 24)
  /-- TP_CM_RTS (R218): A TP or ETP request to send opens a relay or host session, or is refused with an Abort. -/
  | tpCmRts
  /-- TP_CM_BAM (R218): A broadcast announce opens a BAM session toward its configured destinations, or is refused. -/
  | tpCmBam
  /-- TP_DT (R225): A TP or ETP data packet is reassembled into its session, or answered as a violation. -/
  | tpDt
  /-- ETP_CM_DPO (R220): An ETP data packet offset sets the offset of the next packets of a session. -/
  | etpCmDpo
  /-- TP_CM_CTS (R222): A clear to send received on a relay part lets it send the requested packets. -/
  | tpCmCts
  /-- TP_CM_EOMA (R222): An end of message acknowledgement received on a relay part ends that part. -/
  | tpCmEoma
  /-- CONN_ABORT (R225): An Abort received on a session part ends that part and is counted. -/
  | connAbort
  /-- T1_TIMEOUT (R224): No next packet within 750 ms ends an ingress part with an Abort or discards a BAM. -/
  | t1Timeout (session : Fin 128)
  /-- T2_TIMEOUT (R224): No first packet within 1,250 ms of a CTS aborts an RTS session. -/
  | t2Timeout (session : Fin 128)
  /-- T3_TIMEOUT (R224): No CTS or end of message acknowledgement within 1,250 ms aborts a relay part. -/
  | t3Timeout (session : Fin 128) (part : Nat)
  /-- T4_TIMEOUT (R224): No CTS within 1,050 ms of a zero-packet CTS aborts a relay part. -/
  | t4Timeout (session : Fin 128) (part : Nat)
  /-- BAM_PACKET_GAP (R222): After BAMGAP ms, the next packet of a BAM delivery part is sent. -/
  | bamPacketGap (session : Fin 128) (part : Nat)
  /-- POOL_CHANGE_EFFECT (R226): A committed transport pool takes effect when the last open session ends. -/
  | poolChangeEffect
  /-- SESSION_LATCH (R228): A write to TPE_SIDX latches the state of the named session. -/
  | sessionLatch (init : Initiator) (v : Word)
  /-- ETHERNET_FRAME_RECEIVE (R236): A frame received at an Ethernet MAC is checked, stamped and passed to switch ingress, or discarded and counted. -/
  | ethernetFrameReceive (port : Fin 18) (bytes : List Byte) (fcsOk symErr : Bool) (note : EthNote)
  /-- PAUSE_RECEIVE (R244): A received PAUSE stops the port from starting frames for its quanta. -/
  | pauseReceive (port : Fin 14) (quanta : Fin 65536)
  /-- PFC_RECEIVE (R244): A received PFC stops the named classes for their quanta. -/
  | pfcReceive (port : Fin 14) (vector : Fin 256) (quanta : List (Fin 65536))
  /-- PAUSE_EXPIRY (R244): A class's or port's pause time runs out and transmission resumes. -/
  | pauseExpiry (port : Fin 14) (cls : Fin 9)
  /-- PAUSE_REQUEST_SEND (R245): A pause request or its end causes a PAUSE or PFC frame to be sent ahead of queued frames. -/
  | pauseRequestSend (port : Fin 14)
  /-- PAUSE_REPEAT (R245): While a pause request stands, the pause frame is repeated every QUANTA / 2 quanta. -/
  | pauseRepeat (port : Fin 14)
  /-- PAUSE_WATCHDOG_TRIP (R246): A pause lasting PWDLIM with a frame waiting is released and further pauses are ignored. -/
  | pauseWatchdogTrip (port : Fin 14) (cls : Fin 9)
  /-- PAUSE_IGNORE_END (R246): The watchdog's ignore period ends and pauses are honoured again. -/
  | pauseIgnoreEnd (port : Fin 14) (cls : Fin 9)
  /-- LOSS_OF_LINK (R248): A port's link goes down, the frame in transmission is aborted, and the port enters HOLD or DOWN. -/
  | lossOfLink (port : Fin 14)
  /-- LINK_UP (R248): A port's link comes up and transmission resumes. -/
  | linkUp (port : Fin 14) (speed : Fin 7) (half : Bool)
  /-- LINK_HOLD_EXPIRY (R248): The hold timer reaches LINK_HOLD and every queued frame of the port is flushed. -/
  | linkHoldExpiry (port : Fin 14)
  /-- AUTO_NEGOTIATION_COMPLETE (R233): Auto-negotiation completes and its results are reported in EMACn_STAT. -/
  | autoNegotiationComplete (port : Fin 14) (lpPause : Fin 4)
  /-- AUTO_NEGOTIATION_RESTART (R233): A write of EMACn_ANCTL.RESTART restarts auto-negotiation. -/
  | autoNegotiationRestart (init : Initiator) (port : Fin 14) (v : Word)
  /-- PHYSICAL_COLLISION (R235): A collision on a 10BASE-T1S segment is counted, and the frame is backed off or dropped after 16 attempts. -/
  | physicalCollision (m : Fin 2)
  /-- BACKOFF_EXPIRY (R235): The collision backoff time of a frame ends and the frame is retried. -/
  | backoffExpiry (m : Fin 2)
  /-- BEACON (R234): A PLCA BEACON sent or received takes pending PLCA settings into use. -/
  | beacon (m : Fin 2)
  /-- PLCA_STATUS_CHANGE (R232): The PLCA status changes, which changes the T1S link state. -/
  | plcaStatusChange (m : Fin 2) (ok : Bool)
  /-- EGRESS_SELECTION (R274): At a frame boundary the port selects the highest eligible class head, checks its deadline and starts it. -/
  | egressSelection (port : Fin 18) (agree : Bool)
  /-- FRAME_TRANSMITTED (R256): A frame's transmission ends and its cells are freed when its last copy is gone. -/
  | frameTransmitted (port : Fin 14)
  /-- POLICER_WRITE (R262): A write of POL_PCMD.WR loads the staged parameters into the indexed policer and fills its buckets. -/
  | policerWrite (init : Initiator) (v : Word)
  /-- POLICER_READ (R288): A write of POL_PCMD.RD loads the indexed policer and its colour counters into the staging registers. -/
  | policerRead (init : Initiator) (v : Word)
  /-- FILTER_WRITE (R288): A write of POL_FCMD.WR writes the staged words into the indexed stream filter. -/
  | filterWrite (init : Initiator) (v : Word)
  /-- FILTER_READ (R288): A write of POL_FCMD.RD loads the indexed filter and its match counter. -/
  | filterRead (init : Initiator) (v : Word)
  /-- THICKET_SPILL (R269): The mover spills an eligible queued frame into DRAM and frees its on-chip cells. -/
  | thicketSpill (port : Fin 18) (cls : Fin 8)
  /-- THICKET_READ_BACK (R271): A spilled frame that becomes second in its queue is read back into the egress transmit buffer. -/
  | thicketReadBack (port : Fin 18) (cls : Fin 8)
  /-- READ_BACK_COMPLETE (R271): A read-back completes, or its CRC failure drops the frame. -/
  | readBackComplete (port : Fin 18) (cls : Fin 8) (crcOk : Bool)
  /-- THICKET_REGION_EFFECT (R273): A committed Thicket region takes effect once Thicket is empty. -/
  | thicketRegionEffect
  /-- INTERNAL_STALL_DROP (R281): An internal-port head frame that has not left within ISTALL ms is dropped. -/
  | internalStallDrop (port : Fin 18) (cls : Fin 8)
  /-- QUEUE_FLUSH (R282): A write of QMG_FLUSH.GO flushes the named classes of a port, or is refused while busy. -/
  | queueFlush (init : Initiator) (v : Word)
  /-- QUEUE_FLUSH_DONE (R282): A queue flush completes and FLDONE is set. -/
  | queueFlushDone
  /-- INGRESS_COUNTER_LATCH (R285): A write to SWC_IIDX latches the counters of an ingress port. -/
  | ingressCounterLatch (init : Initiator) (v : Word)
  /-- DROP_COUNTER_LATCH (R286): A write to QMG_DIDX latches the drop counters of an egress port. -/
  | dropCounterLatch (init : Initiator) (v : Word)
  /-- VLAN_WRITE (R290): A write of MACT_VCMD.WR loads the staged values into the indexed VLAN entry. -/
  | vlanWrite (init : Initiator) (v : Word)
  /-- VLAN_READ (R290): A write of MACT_VCMD.RD loads the indexed VLAN entry into the staging registers. -/
  | vlanRead (init : Initiator) (v : Word)
  /-- LEARNING_REQUEST (R297): A queued learning request refreshes, moves or inserts the source's MAC entry. -/
  | learningRequest
  /-- AGEING_SWEEP (R301): Every TICK seconds the sweep ages dynamic entries and removes those at AGE 7. -/
  | ageingSweep
  /-- MAC_FLUSH (R302): A write of MACT_FLUSH.GO, or a port going DOWN with LDFLUSH, clears the matching MAC entries. -/
  | macFlush (init : Initiator) (v : Word)
  /-- MAC_FLUSH_DONE (R302): A MAC flush completes and FLDONE is set. -/
  | macFlushDone
  /-- OVERFLOW_WRITE (R303): A write of MACT_OCMD.WR writes the staged words into the indexed overflow entry as one change. -/
  | overflowWrite (init : Initiator) (v : Word)
  /-- OVERFLOW_READ (R303): A write of MACT_OCMD.RD loads the indexed overflow entry into the staging registers. -/
  | overflowRead (init : Initiator) (v : Word)
  /-- LPM_MOVE (R309): A write of LPM_MOVE.GO copies a row or group to its destination and then clears the source, or is refused. -/
  | lpmMove (init : Initiator) (v : Word)
  /-- LPM_MOVE_DONE (R309): An LPM move completes and MVDONE is set. -/
  | lpmMoveDone
  /-- LPM_CHECK (R307): A write of LPM_CHECK.GO starts a scan of both regions for order and format breaks. -/
  | lpmCheck (init : Initiator) (v : Word)
  /-- LPM_CHECK_DONE (R307): The LPM scan completes, loads LPM_CHKSTAT and sets CHKDONE. -/
  | lpmCheckDone
  /-- RATE_WRITE (R314): An owner's write of TSY_RATE changes the rate of both time counts, saturating at the limits. -/
  | rateWrite (init : Initiator) (v : Word)
  /-- TIME_ADD (R318): TSY_ADJCTL.OP = add steps full time forward by the operand. -/
  | timeAdd (init : Initiator)
  /-- TIME_SUBTRACT (R318): TSY_ADJCTL.OP = subtract steps full time back by the operand. -/
  | timeSubtract (init : Initiator)
  /-- TIME_SET (R318): TSY_ADJCTL.OP = set sets full time to the operand. -/
  | timeSet (init : Initiator)
  /-- SYNC_LOCK (R321): An owner's write of TSY_SYNC.LOCK enters LOCKED or restarts the watchdog. -/
  | syncLock (init : Initiator)
  /-- SYNC_HOLD (R321): An owner's write of TSY_SYNC.HOLD enters HOLDOVER with CAUSE SOFTWARE. -/
  | syncHold (init : Initiator) (lock : Bool)
  /-- SYNC_WATCHDOG_EXPIRY (R321): The synchronisation watchdog reaches LIMIT and the time unit enters HOLDOVER. -/
  | syncWatchdogExpiry
  /-- NOW_READ (R325): A read of TSY_NOW_NS latches the seconds and stamp32 of the same instant. -/
  | nowRead (init : Initiator)
  /-- TOUT_ARM (R328): A write of TOUTn_CTL.ARM = 1 samples the start, period and width and arms the output, or is refused. -/
  | toutArm (init : Initiator) (n : Fin 4) (periodic : Bool) (pol : Bool)
  /-- TOUT_DISARM (R328): A write of TOUTn_CTL.ARM = 0 disarms the output and ends any pulse. -/
  | toutDisarm (init : Initiator) (n : Fin 4) (periodic : Bool) (pol : Bool)
  /-- TOUT_PULSE_START (R328): Full time reaches a scheduled instant and a pulse starts on TOUTn. -/
  | toutPulseStart (n : Fin 4)
  /-- TOUT_PULSE_END (R328): A pulse's width elapses and the output returns to idle; a one-shot disarms. -/
  | toutPulseEnd (n : Fin 4)
  /-- CAPTURE_EDGE (R331): A selected edge on TCAPn is captured with full time, or counted as missed. -/
  | captureEdge (n : Fin 4) (rising : Bool)
  /-- CAPTURE_READ (R331): A read of TCAPn_NS latches the capture's seconds registers. -/
  | captureRead (init : Initiator) (n : Fin 4)
  /-- CAPTURE_CLEAR (R334): A write of 1 to TCAPn_CTL.VALID clears VALID and MISSED. -/
  | captureClear (init : Initiator) (n : Fin 4) (v : Word)
  /-- CORRELATION_REQUEST (R332): A write of TSY_KCORR.GO requests a correlation pair, or fails while the link is down. -/
  | correlationRequest (init : Initiator) (v : Word)
  /-- CORRELATION_LATCH (R332): At the next real-time counter tick, the counter value and its full time are latched. -/
  | correlationLatch
  /-- MACSEC_VERIFY_JOB (R348): A gated frame taken from the CRYP queue is judged by the SecTAG rules and verified. -/
  | macsecVerifyJob
  /-- CRYPTO_VERIFY_COMPLETE (R350): A verification completes and the frame is released in ingress order or dropped. -/
  | cryptoVerifyComplete (job : Nat) (agree : Bool)
  /-- KNOWN_ANSWER_TEST_COMPLETE (R340): A pipe's known-answer test ends, putting it ONLINE or in FAULT. -/
  | knownAnswerTestComplete (pipe : Fin 2) (pass : Bool)
  /-- PIPE_RESTART (R340): A write of CRY_PIPECTL.RESTARTp clears MISS and starts the test. -/
  | pipeRestart (init : Initiator) (v : Word)
  /-- SC_WRITE (R344): A write of MSEC_SCCMD.WR writes the staged words into the indexed SC. -/
  | scWrite (init : Initiator) (v : Word)
  /-- SC_READ (R344): A write of MSEC_SCCMD.RD loads the indexed SC into the staging registers. -/
  | scRead (init : Initiator) (v : Word)
  /-- SA_WRITE (R351): A write of MSEC_SACMD.WR applies the staged SA words, refusing a lower NEXTPN on an in-use transmit SA. -/
  | saWrite (init : Initiator) (v : Word)
  /-- SA_READ (R366): A write of MSEC_SACMD.RD loads the SA words and latches its counters. -/
  | saRead (init : Initiator) (v : Word)
  /-- PORT_COUNTER_LATCH (R366): A write to MSEC_PIDX latches the MACsec counters of a port. -/
  | portCounterLatch (init : Initiator) (v : Word)
  /-- CAN_SECURE_JOB (R355): A controller copy matching a transmit association takes a freshness value and gets its CMAC. -/
  | canSecureJob (slot : Nat) (k : Nat)
  /-- CAN_VERIFY_JOB (R356): A job matching a verify association has its freshness and MAC checked before its window search. -/
  | canVerifyJob (slot : Nat)
  /-- CAN_JOB_COMPLETE (R357): A CAN authentication job completes and its copy or job continues, or it is dropped. -/
  | canJobComplete (job : Nat) (agree : Bool)
  /-- ASSOCIATION_WRITE (R353): A write of CAUTH_ACMD.WR stores the staged association words. -/
  | associationWrite (init : Initiator) (v : Word)
  /-- ASSOCIATION_READ (R353): A write of CAUTH_ACMD.RD loads the indexed association. -/
  | associationRead (init : Initiator) (v : Word)
  /-- FRESHNESS_WRITE (R358): A write of CAUTH_FCMD.WR sets a freshness counter; a lower value needs FORCE. -/
  | freshnessWrite (init : Initiator) (v : Word)
  /-- FRESHNESS_READ (R358): A write of CAUTH_FCMD.RD loads the indexed freshness counter. -/
  | freshnessRead (init : Initiator) (v : Word)
  /-- MARK_WRITE (R433): Laurel writes a posted mark into the MRAM mark area. -/
  | markWrite
  /-- RING_TAIL_WRITE (R360): A write of CRY_RTAILk posts memory jobs, or is refused with RINGREF. -/
  | ringTailWrite (init : Initiator) (ring : Fin 4) (v : Word)
  /-- MEMORY_JOB_FETCH (R360): The engine fetches a memory-job descriptor when the MEM class has a slot, or halts at OWN = 0. -/
  | memoryJobFetch (ring : Fin 4) (host : List (Nat × List Byte)) (ok : Bool)
  /-- MEMORY_JOB_COMPLETE (R362): A memory job completes, writing its outputs, result and OWN = 0 in order. -/
  | memoryJobComplete (job : Nat) (host : List (Nat × List Byte)) (busOk agree invOk : Bool) (wrote : Nat)
  /-- RING_RESET (R363): A write of CRY_RCTLk.RESET abandons the ring's jobs and resets its indices. -/
  | ringReset (init : Initiator) (ring : Fin 4) (v : Word)
  /-- SLOT_LOAD_COMPLETE (R373): Yew finishes loading slot records and deriving keys and sets READY. -/
  | slotLoadComplete
  /-- MESSAGE_WORD_WRITE (R380): A write to YEW_UMSGk loads a message word, or is discarded with UREF while BUSY. -/
  | messageWordWrite (init : Initiator) (k : Fin 21) (v : Word)
  /-- UPDATE_GO (R380): A write of YEW_UCMD.GO submits the update message for processing. -/
  | updateGo (init : Initiator) (v : Word)
  /-- UPDATE_COMPLETE (R380): An update completes or fails, with counter and slot records written and the confirmation loaded. -/
  | updateComplete (cntOk recOk : Bool)
  /-- REKEY (R383): A write of YEW_REKEY.GO zeroes the root, generates a new one and empties every slot, or is refused. -/
  | rekey (init : Initiator) (v : Word)
  /-- REKEY_COMPLETE (R383): A rekey completes and UDONE is set. -/
  | rekeyComplete
  /-- TAMPER_DECISION (R386): A tamper sensor decides an alarm, zeroing the root and writing an event. -/
  | tamperDecision (sensor : Fin 7)
  /-- TAMPER_CONTROL_WRITE (R389): A write to TMP_CTL sets sensor enables, and under LOCK cannot clear them. -/
  | tamperControlWrite (init : Initiator) (v : Word)
  /-- EVENT_RING_CLEAR (R388): A write of TMP_EVCLR clears the tamper event ring and its count. -/
  | eventRingClear (init : Initiator) (v : Word)
  /-- RTC_READ (R391): A read of TMP_RTC_LO latches the high word of the live counter. -/
  | rtcRead (init : Initiator)
  /-- VBAT_RESET (R368): The VBAT supply falls below 1.5 V, zeroing the root with cause VBATLOSS and initialising TMP. -/
  | vbatReset
  /-- PCIE_LINK_LOSS (R393): A loss of the PCIe link halts every channel with host access outstanding, with cause LINK. -/
  | pcieLinkLoss
  /-- BUS_MASTER_ENABLE (R393): A change of Bus Master Enable makes queues and channels wait or resume their host accesses. -/
  | busMasterEnable (on : Bool)
  /-- FUNCTION_LEVEL_RESET (R392): A PCIe Function Level Reset performs the host-interface reset. -/
  | functionLevelReset
  /-- HIF_EOI (R394): A write of a vector number to HIF_EOI resends its message if its level is still 1. -/
  | hifEoi (init : Initiator) (v : Word)
  /-- MSIX_UNMASK (R394): Unmasking a vector with its PBA bit set sends one message. -/
  | msixUnmask (v : Fin 128) (ctl : Word)
  /-- TX_TAIL_WRITE (R396): A write of HQ_TXTAILq posts transmit descriptors, or is refused with QREF. -/
  | txTailWrite (init : Initiator) (q : Fin 64) (v : Word)
  /-- RX_TAIL_WRITE (R396): A write of HQ_RXTAILq posts receive buffers, or is refused with QREF. -/
  | rxTailWrite (init : Initiator) (q : Fin 64) (v : Word)
  /-- QUEUE_DESCRIPTOR_FETCH (R397): The serving channel fetches a transmit descriptor and sends its frame to the switch or Privet, or marks it BADDESC. -/
  | queueDescriptorFetch (q : Fin 64) (host : List (Nat × List Byte))
  /-- TX_DESCRIPTOR_COMPLETE (R398): A transmit descriptor completes in ring order with its code and stamp. -/
  | txDescriptorComplete (q : Fin 64)
  /-- RX_ITEM_WRITE (R401): A received item is written into posted buffers and written back with OWN = 0. -/
  | rxItemWrite (q : Fin 64) (host : List (Nat × List Byte))
  /-- QUEUE_HOLDOFF_EXPIRY (R402): HOLDOFF us after the first unsignalled completion, the queue raises its interrupt. -/
  | queueHoldoffExpiry (q : Fin 128)
  /-- QUEUE_RESET (R403): A write of HQ_QRESET.GO abandons a queue's frames, frees their resources and resets its indices. -/
  | queueReset (init : Initiator) (v : Word)
  /-- QUEUE_RESET_DONE (R403): A queue reset completes. -/
  | queueResetDone
  /-- QUEUE_CONFIG_WRITE (R415): A write of HQ_QCMD.WR writes the staged queue configuration, limited to EN and QIRQ while live. -/
  | queueConfigWrite (init : Initiator) (v : Word)
  /-- QUEUE_CONFIG_READ (R415): A write of HQ_QCMD.RD loads the queue configuration and latches its counters. -/
  | queueConfigRead (init : Initiator) (v : Word)
  /-- COPY_RING_TAIL_WRITE (R405): A write of DMACHn_RTAIL posts copy descriptors. -/
  | copyRingTailWrite (init : Initiator) (n : Fin 52) (v : Word)
  /-- COPY_DESCRIPTOR_FETCH (R405): A channel fetches and starts a copy descriptor, or completes it as BADDESC. -/
  | copyDescriptorFetch (n : Fin 52) (host : List (Nat × List Byte))
  /-- COPY_DESCRIPTOR_COMPLETE (R406): A copy descriptor completes after all its destination writes, in ring order. -/
  | copyDescriptorComplete (n : Fin 52) (host : List (Nat × List Byte))
  /-- BURST_START (R412): A rate-limited channel starts its next burst when the spacing has elapsed. -/
  | burstStart (n : Fin 52) (host : List (Nat × List Byte))
  /-- CHANNEL_PAUSE (R408): A write of DMACHn_CTL.PAUSE = 1 stops new reads and drains outstanding ones. -/
  | channelPause (init : Initiator) (n : Fin 52) (v : Word)
  /-- CHANNEL_PAUSED (R408): The drain ends and the channel sets PAUSED. -/
  | channelPaused (n : Fin 52) (drain : Nat) (host : List (Nat × List Byte))
  /-- CHANNEL_RESUME (R408): A write of PAUSE = 0 resumes the channel from the byte where it paused. -/
  | channelResume (init : Initiator) (n : Fin 52) (v : Word)
  /-- CHANNEL_HALT (R409): A failed access halts a channel and latches its address and cause. -/
  | channelHalt (n : Fin 52) (poison write : Bool) (addr : Nat) (index : Fin 4096)
  /-- COMPLETION_TIMEOUT (R409): A read without completion within the CTO time fails and halts its channel. -/
  | completionTimeout (n : Fin 52) (addr : Nat) (index : Fin 4096)
  /-- CHANNEL_RESET (R411): A write of DMACHn_CTL.RESET or DMA_RESET abandons the channel's accesses and frees its resources. -/
  | channelReset (init : Initiator) (t : Fin 54) (v : Word)
  /-- CHANNEL_RESET_DONE (R411): A channel reset completes and DONE is set. -/
  | channelResetDone (n : Fin 52)
  /-- START_CONDITION (R424): VSUP stays above 35 V for 1 ms and the power-up sequence starts. -/
  | startCondition
  /-- BUCK_SOFT_START_COMPLETE (R421): VMAIN reaches tolerance and the CORE_EN delay starts. -/
  | buckSoftStartComplete
  /-- CORE_ENABLE_DELAY (R421): After D1 x 100 us, CORE_EN is asserted. -/
  | coreEnableDelay
  /-- CORE_PG_RISE (R421): CORE_PG rises and the DRAM_EN delay starts. -/
  | corePgRise
  /-- DRAM_ENABLE_DELAY (R421): After D2 x 100 us, DRAM_EN is asserted. -/
  | dramEnableDelay
  /-- DRAM_PG_RISE (R421): DRAM_PG rises and the Yatric die is released from reset. -/
  | dramPgRise
  /-- POWER_GOOD_TIMEOUT (R421): A power-good that does not rise in time powers down and sets SEQFAIL. -/
  | powerGoodTimeout
  /-- SEQUENCE_RETRY (R421): 100 ms after a sequence failure, power-up is retried, at most three times. -/
  | sequenceRetry
  /-- POWER_DOWN_CORE_DISABLE (R422): 100 us after DRAM_EN falls, CORE_EN is deasserted. -/
  | powerDownCoreDisable
  /-- POWER_DOWN_BUCK_STOP (R422): 100 us later the buck stops and INH is deasserted unless held. -/
  | powerDownBuckStop
  /-- RAIL_FAILURE (R422): A fall of CORE_PG or DRAM_PG lasting 10 us resets the Yatric die. -/
  | railFailure (src : Fin 2)
  /-- FAST_UNDERVOLTAGE (R424): VSUP below 24 V for 1 us asserts PF_WARN at once. -/
  | fastUndervoltage
  /-- POWER_FAIL_WARNING (R424): VSUP below the warning level for 20 us asserts PF_WARN. -/
  | powerFailWarning
  /-- SUPPLY_RESET (R424): VSUP and VHOLD both below 18 V reset the whole device except the VBAT domain. -/
  | supplyReset
  /-- OVERVOLTAGE (R424): VSUP above 76 V for 10 us sets OV. -/
  | overvoltage
  /-- OVERVOLTAGE_CLEAR (R424): VSUP below 74 V for 10 us clears OV. -/
  | overvoltageClear
  /-- SAVE_COMPLETE (R434): The save finishes writing its record, sets SAVEDONE and loads PWR_LASTSAVE. -/
  | saveComplete
  /-- RIDE_THROUGH (R435): VSUP above the resume level for 2 ms resumes the device without reset. -/
  | rideThrough (vhmin : Fin 65536)
  /-- HOLD_UP_OK (R427): VHOLD reaching 43 V sets HOLDOK; falling below 42 V clears it. -/
  | holdUpOk (up : Bool)
  /-- CHARGER_TIMEOUT (R427): HOLDOK not reached within 600 ms sets CHGFAIL. -/
  | chargerTimeout
  /-- CAPACITANCE_MEASUREMENT (R428): VHOLD passing 40 V completes a capacitance estimate, which may set CAPLOW. -/
  | capacitanceMeasurement (t : Nat)
  /-- DOMAIN_SLEEP (R441): A domain quiet for DSLEEP x 10 ms goes ASLEEP with its transceivers in LOWPWR. -/
  | domainSleep (k : Fin 8)
  /-- DOMAIN_WAKE (R441): A wake source naming an ASLEEP domain wakes it and its propagation domains. -/
  | domainWake (doms : Fin 256)
  /-- KEEP_ALIVE_FRAME (R442): A decoded keep-alive frame is counted and restarts its segment's keep-alive time. -/
  | keepAliveFrame (n : Fin 16) (f : CanFrame)
  /-- ROUTE_DEMAND (R444): A ROUTE_DEMAND event restarts a domain's DSLEEP timer or wakes an ASLEEP domain with RWAKE. -/
  | routeDemand
  /-- WAKE_REQUEST (R449): A write of WKN_WREQ wakes the named domains. -/
  | wakeRequest (init : Initiator) (v : Word)
  /-- TXD_DOMINANT_TIMEOUT (R447): TXD dominant for 2.5 ms turns the transmitter off and sets RXONLY. -/
  | txdDominantTimeout (n : Fin 16)
  /-- THERMAL_SHUTDOWN (R447): A transceiver junction above 175 C turns the transmitter off and sets RXONLY. -/
  | thermalShutdown (n : Fin 16)
  /-- TRANSCEIVER_FAULT_CLEAR (R447): TXD returning recessive or the junction cooling clears TXDTO or TSD. -/
  | transceiverFaultClear (n : Fin 16) (tsd : Bool)
  /-- FAIL_SAFE (R448): A link not UP for FSTIME ms sets every domain ASLEEP. -/
  | failSafe
  /-- LWAKE_EVENT (R450): An LWAKE input's filtered edge or active level wakes its domains or the device. -/
  | lwakeEvent (i : Fin 6) (level : Bool)
  /-- WAKE_LN_ASSERT (R450): WAKE_LN seen active for its filter time wakes the device in SLEEP. -/
  | wakeLnAssert
  /-- WAKE_LN_RELEASE_WAIT_END (R450): WLREL ms after the device releases WAKE_LN, it judges the line again. -/
  | wakeLnReleaseWaitEnd (held : Bool)
  /-- WAKE_UP_PATTERN (R452): A wake-up pattern on an armed segment wakes its domain or the device. -/
  | wakeUpPattern (n : Fin 16)
  /-- DECODER_FRAME (R451): A frame decoded by the transceiver is matched as a wake-up frame, or counted in FECNT. -/
  | decoderFrame (n : Fin 16) (err : Bool) (f : CanFrame)
  /-- RTC_ALARM (R449): The real-time counter reaching WKN_RTCALM wakes the device and the named domains. -/
  | rtcAlarm
  /-- MINIMUM_AWAKE_EXPIRY (R453): The MINAWAKE time after a wake ends and no longer blocks the agreement. -/
  | minimumAwakeExpiry
  /-- SLEEP_REQUEST (R454): A write of WKN_SLEEP.GO from the owner latches SLEEP_COMMIT, or is refused and recorded. -/
  | sleepRequest (init : Initiator) (v : Word)
  /-- LATE_WAKE (R455): A wake event after SLEEP_COMMIT is latched without stopping the entry. -/
  | lateWake (src : Fin 16) (index : Fin 32)
  /-- WAKE_DWELL_END (R455): After the 2 ms dwell following a latched late wake, power-up starts. -/
  | wakeDwellEnd
  /-- STAY_LIMIT (R458): A domain kept awake only by keep-alive frames for STAYLIM x 10 s is reported and may be forced asleep. -/
  | stayLimit (k : Fin 8)
  /-- EVENT_ACK (R459): An event-slot ACK with an ESEQ ends repetition of that message. -/
  | eventAck (dir : LinkDir) (eseq : Fin 8)
  /-- WAKE_EVENT_MSG (R459): A WAKE event message reaches the Yatric die with its source and index. -/
  | wakeEventMsg
  /-- DOMAIN_EVENT_MSG (R459): A DOMAIN event message reports that a domain woke or slept. -/
  | domainEventMsg
  /-- SLEEPABORT_MSG (R459): A SLEEPABORT event message reports a refused sleep request. -/
  | sleepabortMsg
  /-- AGREE_MSG (R459): An AGREE event message reports a change of the sleep agreement. -/
  | agreeMsg
  /-- FAILSAFE_MSG (R459): A FAILSAFE event message reports a fail-safe entry. -/
  | failsafeMsg
  /-- STAY_MSG (R459): A STAY event message reports a domain kept awake by a node. -/
  | stayMsg
  /-- TRXFAULT_MSG (R459): A TRXFAULT event message reports a transceiver fault. -/
  | trxfaultMsg
  /-- TAMPER_EVENT_MSG (R388): A TAMPER event message carries a tamper event to the Yatric die for logging. -/
  | tamperEventMsg
  /-- COLD_RESET_REQUEST (R466): A guarded CHIP_RSTCTL write with GO and TYPE COLD requests a COLD reset. -/
  | coldResetRequest (init : Initiator) (v : Word)
  /-- WARM_RESET_REQUEST (R466): A guarded CHIP_RSTCTL write with GO and TYPE WARM requests a WARM reset. -/
  | warmResetRequest (init : Initiator) (v : Word)
  /-- HIF_RESET_REQUEST (R466): A guarded CHIP_RSTCTL write with GO and TYPE HIF requests a host-interface reset. -/
  | hifResetRequest (init : Initiator) (v : Word)
  /-- COLD_RESET (R462): A COLD reset initialises the Yatric pages. -/
  | coldReset
  /-- WARM_RESET (R465): A WARM reset puts the DRAM in self-refresh, resets the Yatric die and keeps the DRAM content. -/
  | warmReset
  /-- HIF_RESET (R462): A host-interface reset initialises the HIF, HQ, DMA and DMACH pages. -/
  | hifReset
  /-- WATCHDOG_KICK (R467): A Laurel write of CHIP_WDKICK.KICK restarts the watchdog. -/
  | watchdogKick (init : Initiator) (v : Word)
  /-- WATCHDOG_EXPIRY (R467): The watchdog reaching LIMIT causes a WARM reset. -/
  | watchdogExpiry
  /-- BOOT_RESTORE (R469): The loader restores time, counters and ledger from the chosen save record and sets ARMED. -/
  | bootRestore
  /-- COLD_ROUTE_VERIFY (R471): The loader reads and checks every block and record of the cold-route image. -/
  | coldRouteVerify (qspiBad : Option Nat)
  /-- COLD_ROUTE_APPLY (R468): The loader writes the image's registers, shadows and table entries. -/
  | coldRouteApply
  /-- COLD_COMMIT (R472): The loader releases the TRXREL transceivers and requests the commit of GMASK, or sets NOIMAGE. -/
  | coldCommit
  /-- FIRMWARE_START (R468): The loader verifies and starts the Laurel firmware, continues an overwrite, or enters loader mode. -/
  | firmwareStart
  /-- MAILBOX_DOORBELL (R477): A write of LRL_DOORBELL.GO submits the request, or is refused with REQREF. -/
  | mailboxDoorbell (init : Initiator) (v : Word)
  /-- PING (R479): Mailbox PING returns the firmware and loader versions. -/
  | ping
  /-- SENSOR_READ (R479): Mailbox SENSOR_READ returns a sensor's value, extremes and stamp. -/
  | sensorRead
  /-- SENSOR_LIMIT (R481): Mailbox SENSOR_LIMIT sets a sensor's low and high limits. -/
  | sensorLimit
  /-- SENSOR_CLR (R480): Mailbox SENSOR_CLR resets a sensor's minimum and maximum. -/
  | sensorClr
  /-- LOG_INFO (R479): Mailbox LOG_INFO returns the log's extent and loss counts. -/
  | logInfo
  /-- LOG_READ (R479): Mailbox LOG_READ returns one log record and the next RSEQ. -/
  | logRead
  /-- LOG_FLUSH (R484): Mailbox LOG_FLUSH writes the log tail to MRAM. -/
  | logFlush
  /-- RECLAIM (R489): Mailbox RECLAIM writes the reclaim register of the named class and reports the result. -/
  | reclaim
  /-- BOFF_STAT (R479): Mailbox BOFF_STAT returns a controller's bus-off policy counts. -/
  | boffStat
  /-- RESPONSE_ACK (R477): A write of LRL_RSPACK.ACK releases the response and clears RSPV. -/
  | responseAck (init : Initiator) (v : Word)
  /-- EVENT_POP (R485): A read of LRL_EVPOP returns and removes the oldest event word. -/
  | eventPop (init : Initiator)
  /-- SENSOR_SAMPLE (R480): Every millisecond Laurel samples the sensors and writes a record on a limit crossing. -/
  | sensorSample (vals : List Int)
  /-- LOG_TAIL_WRITE (R484): The log tail is written to MRAM when full or 1 s after its oldest record. -/
  | logTailWrite
  /-- BUS_OFF_POLICY (R486): Laurel sees a bus-off entry, logs it, hands over, or waits LDELAY to recover. -/
  | busOffPolicy (n : Fin 24)
  /-- LAUREL_RECOVERY_DELAY (R486): After LDELAY x 100 us Laurel writes CANCn_RECOV.GO if it still owns a controller in BUS_OFF. -/
  | laurelRecoveryDelay (n : Fin 24)
  /-- WATCH_POLL (R490): Every POLL ms Laurel reads the watched counters and logs their changes. -/
  | watchPoll
  /-- FW_STATUS (R498): Mailbox FW_STATUS returns the update session's state and floors. -/
  | fwStatus
  /-- STAGE (R497): Mailbox STAGE starts a session and background verification of an image in DRAM. -/
  | stage
  /-- ACTIVATE (R500): Mailbox ACTIVATE starts the copy at once or arms it for a time. -/
  | activate
  /-- CANCEL (R498): Mailbox CANCEL ends a verifying, staged or armed session as CANCELLED. -/
  | cancel
  /-- STAGE_VERIFICATION_COMPLETE (R497): Background verification ends in STAGED or FAILED and is logged. -/
  | stageVerificationComplete
  /-- ACTIVATION_START (R500): Full time reaches an armed activation's target and the loader takes control to copy. -/
  | activationStart
  /-- BLOCK_COPY (R502): The loader checks, writes, reads back and journals one image block. -/
  | blockCopy (bad : Nat)
  /-- JOIN_ACT (R511): PAIR_CMD.JOIN_ACT makes a SOLO unit ACTIVE. -/
  | joinAct (init : Initiator) (v : Word)
  /-- JOIN_STBY (R511): PAIR_CMD.JOIN_STBY makes a SOLO unit STANDBY and requests bulk sync. -/
  | joinStby (init : Initiator) (v : Word)
  /-- PROMOTE (R511): PAIR_CMD.PROMOTE promotes a standby to ACTIVE. -/
  | promote (init : Initiator) (v : Word)
  /-- DEMOTE (R511): PAIR_CMD.DEMOTE hands over to a synced standby, or is refused. -/
  | demote (init : Initiator) (v : Word)
  /-- HEARTBEAT_TOGGLE (R510): PAIR_HB_OUT toggles every HBPER ms while the role is ACTIVE or STANDBY. -/
  | heartbeatToggle
  /-- HEARTBEAT_LOST (R511): No heartbeat edge for HBTO ms promotes the standby or sets HBFAULT. -/
  | heartbeatLost (edge : Bool)
  /-- MIRRORED_FRAME (R513): A mirrored frame from the pair link enters the standby at its named port. -/
  | mirroredFrame (port : Fin 14) (stamp : Nat) (bytes : List Byte)
  /-- MARK_MSG (R514): A pair-link mark message stores the active's mark for promotion and completes bulk sync. -/
  | markMsg (mark : Option (Nat × Nat))
  /-- DIGEST_MSG (R517): A pair-link digest message is stored, and a completed interval is judged for mismatches. -/
  | digestMsg (k : Nat) (plan : Fin 4) (ds : List (Fin 38 × (Nat × Nat)))
  /-- HANDOVER_MSG (R511): A pair-link handover message promotes the standby. -/
  | handoverMsg
  /-- ROLE_MSG (R511): A pair-link role message updates the peer's role and resolves dual active. -/
  | roleMsg (role : Fin 3) (synced : Bool)
  /-- ROLE_MESSAGE_TIMER (R514): Every 10 ms the unit sends its role on the pair link. -/
  | roleMessageTimer
  /-- DIGEST_INTERVAL_END (R516): At the end of each 100 ms interval the unit sends its digests. -/
  | digestIntervalEnd
  /-- OBS_ENABLE (R522): A guarded write of OBS_CTL.EN = 1 starts the trace stream and brings the test root into force. -/
  | obsEnable (init : Initiator) (v : Word)
  /-- OBS_DISABLE (R522): A write of OBS_CTL.EN = 0 stops the stream at the next unit boundary. -/
  | obsDisable (init : Initiator) (v : Word)
  /-- SYNC_RECORD (R521): Every 1 ms a SYNC record is sent on the observation port. -/
  | syncRecord
  /-- COUNT_RECORD (R525): Every OBS_CNTPER us a COUNT record of each hidden counter is formed. -/
  | countRecord
  /-- PCIE_LINK_UP (R414): The PCIe link reaches L0 again after a reset or loss, and HIF PG_IST.LINKUP is set. -/
  | pcieLinkUp (speed : Fin 4) (width : Fin 16)
  /-- D3HOT_TRANSITION (R392): The host moves the function into or out of D3hot, so queues and channels stop or resume issuing requests. -/
  | d3hotTransition (on : Bool)
  /-- TAMPER_ALARM_CLEAR (R386): The last enabled tamper sensor leaves alarm, so TAMP_ALM and TMP_STAT.ALARM clear and rekey is no longer refused. -/
  | tamperAlarmClear
  /-- WAKE_LN_RELEASE_SEEN (R453): Another unit releases WAKE_LN, so WLSEEN clears and the sleep agreement may become 1, raising an AGREE event. -/
  | wakeLnReleaseSeen
  /-- LWAKE_LEVEL_END (R450): An LWAKE input in a level mode leaves its active level after its filter, so it stops holding the sleep agreement. -/
  | lwakeLevelEnd (i : Fin 6)
  /-- AUTONOMOUS_BIAS_TIMEOUT (R445): After 1.0 s of bus silence in LOWPWR, a transceiver biases its bus to ground and TRXn_STAT.BIAS clears. -/
  | autonomousBiasTimeout (n : Fin 16)
  deriving DecidableEq, Repr

end Sys2Proof
end

