-- ==== Sys2Proof/Decode.lean ====
section
/-! DEFINITION. The command table as words. spec/opcode_table.json gives no row any bits: the commands of this block are accesses and
events, and no word spells one. -/
namespace Sys2Proof

/-- The command that a word of nbits bits spells by the table's bits: none, since no row of the table has bits. -/
def decodeTableWord (_nbits _w : Nat) : Option Instr := none

end Sys2Proof
end

