-- ==== Sys2Proof/Config.lean ====
section
/-! DEFINITION. What an implementation fixes and the spec leaves open: free values and per-device identity. None has a
body, so nothing can be proved from a number chosen for it. -/
namespace Sys2Proof

/-- The k-th free value (log entry 1): a value the spec leaves open, drawn by a step that advances State.freeN. -/
opaque Config.freeValue : Nat → Word

/-- What the measuring register at BAR0 address a reads in millisecond t of the device's run (R438, log entry 28). -/
opaque Config.measured : Nat → Nat → Word

/-- What the bus of CAN controller n shows at local time t between the events that reach the block as commands: bit 0 a frame is being
received, which CANCn_ESTAT.RXACT reports (R131, log entry 44). -/
opaque Config.busSeen : Nat → Nat → Word

/-- Whether the i-th stretch of 11 nominal bit times from the start at local time t of a recovery of CAN controller n was recessive, an
occurrence that RECSEQ counts (R125, log entry 44). -/
opaque Config.recessive : Nat → Nat → Nat → Bool

/-- Word k of the device identity YEW_ID0-YEW_ID3 (R370, reset column "per device", log entry 2). -/
opaque Config.deviceId : Nat → Word

/-- Word k of the 256-bit root the device left manufacture with (R368, log entry 2). -/
opaque Config.deviceRoot : Nat → Word

/-- Version of the resident loader, which PING answers (R479, log entry 2). -/
opaque Config.loaderVersion : Word

/-- The body of the default settings of a format, which the firmware defines (R506, R507). -/
opaque Config.settingsBody : Nat → List Byte

/-- How long a mirrored frame may wait for the pair link, in ns of line time: the room on E3 that the spec does not give (R17, R513, log
entry 75). -/
opaque Config.pairRoom : Nat

/-- Whether copies A and B of the pipe agree on job k of the key operation that ends when n free values were drawn (R338, R339, log entry
78). -/
opaque Config.copiesAgree : Nat → Nat → Bool

/-- The CRC-16 of the Xanpel frame bits [255:16] (R72), whose polynomial the spec does not give (log entry 69). -/
opaque Config.linkCrc : Nat → BitVec 16

end Sys2Proof
end

