-- ==== Sys2Proof/Machine/Bits.lean ====
section
/-! DEFINITION. Bit fields [msb:lsb] of words and numbers, byte order helpers, two's complement
(00_scope.md, Numbers and units). -/
namespace Sys2Proof.Machine

/-- The value of bits [hi:lo] of the number n. -/
def nfld (n hi lo : Nat) : Nat := (n >>> lo) % 2 ^ (hi + 1 - lo)

/-- Bit i of the number n. -/
def nbit (n i : Nat) : Bool := (n >>> i) % 2 == 1

/-- n with bits [hi:lo] replaced by v (v reduced to the field). -/
def nset (n hi lo v : Nat) : Nat :=
  n - (nfld n hi lo) <<< lo + (v % 2 ^ (hi + 1 - lo)) <<< lo

/-- n with bit i set to b. -/
def nsetBit (n i : Nat) (b : Bool) : Nat := nset n i i b.toNat

/-- The value of bits [hi:lo] of a word. -/
def fld (w : Word) (hi lo : Nat) : Nat := nfld w.toNat hi lo

/-- Bit i of a word. -/
def bitOf (w : Word) (i : Nat) : Bool := nbit w.toNat i

/-- A word with bits [hi:lo] replaced by v. -/
def setFld (w : Word) (hi lo v : Nat) : Word := BitVec.ofNat 32 (nset w.toNat hi lo v)

/-- A word with bit i set to b. -/
def setBit (w : Word) (i : Nat) (b : Bool) : Word := BitVec.ofNat 32 (nsetBit w.toNat i b)

/-- The two's-complement value of the low k bits of n. -/
def signed (k n : Nat) : Int :=
  let m := n % 2 ^ k
  if m ≥ 2 ^ (k - 1) then (m : Int) - (2 ^ k : Nat) else (m : Int)

/-- The low k bits of an integer, as a number. -/
def unsigned (k : Nat) (i : Int) : Nat := (i % ((2 ^ k : Nat) : Int)).toNat

/-- The numbers 0 … k−1 whose bit is set in n, ascending. -/
def setBits (n k : Nat) : List Nat := (List.range k).filter (nbit n)

/-- Little-endian value of a byte list. -/
def leNat : List Byte → Nat
  | [] => 0
  | b :: r => b.toNat + 256 * leNat r

/-- Big-endian value of a byte list. -/
def beNat (l : List Byte) : Nat := l.foldl (fun a b => 256 * a + b.toNat) 0

/-- k little-endian bytes of n. -/
def leBytes : Nat → Nat → List Byte
  | 0, _ => []
  | k + 1, n => BitVec.ofNat 8 n :: leBytes k (n / 256)

/-- k big-endian bytes of n. -/
def beBytes (k n : Nat) : List Byte := (leBytes k n).reverse

/-- Byte i of a list, 0 beyond its end. -/
def byteAt (l : List Byte) (i : Nat) : Nat := match l[i]? with | some b => b.toNat | none => 0

/-- The big-endian number in bytes [i, i+k) of a list (zeros beyond the end). -/
def beAt (l : List Byte) (i k : Nat) : Nat :=
  beNat ((List.range k).map (fun j => BitVec.ofNat 8 (byteAt l (i + j))))

/-- The little-endian number in bytes [i, i+k) of a list (zeros beyond the end). -/
def leAt (l : List Byte) (i k : Nat) : Nat :=
  leNat ((List.range k).map (fun j => BitVec.ofNat 8 (byteAt l (i + j))))

/-- Overwrite list l from position i by the bytes bs, inside its length. -/
def overwrite : List Byte → Nat → List Byte → List Byte
  | [], _, _ => []
  | l, _, [] => l
  | _ :: r, 0, c :: cs => c :: overwrite r 0 cs
  | b :: r, i + 1, cs => b :: overwrite r i cs

/-- Saturating decrement-free maximum of two numbers under a cap. -/
def capAt (cap n : Nat) : Nat := if n > cap then cap else n

/-- A value forced into [lo, hi]. -/
def clampN (lo hi n : Nat) : Nat := if n < lo then lo else if n > hi then hi else n

end Sys2Proof.Machine
end

