-- ==== Sys2Proof/Machine/Map.lean ====
section
/-! DEFINITION. Sparse maps as plain data: a list of (key, value) pairs with strictly rising keys. With a
default function the list is canonical: no entry equals what an unlisted key reads as. Registers, tables,
memories and the indexed objects of the block are kept in this form. -/
namespace Sys2Proof.Machine

/-- The value listed for key k. -/
def amGet {β : Type} : List (Nat × β) → Nat → Option β
  | [], _ => none
  | (a, v) :: r, k => if a = k then some v else amGet r k

/-- The list with key k bound to v, in key order. -/
def amPut {β : Type} : List (Nat × β) → Nat → β → List (Nat × β)
  | [], k, v => [(k, v)]
  | (a, w) :: r, k, v =>
    if a = k then (k, v) :: r else if k < a then (k, v) :: (a, w) :: r else (a, w) :: amPut r k v

/-- The list without key k. -/
def amDel {β : Type} (m : List (Nat × β)) (k : Nat) : List (Nat × β) := m.filter (fun p => p.1 != k)

/-- The list without the keys in [lo, hi). -/
def amDelRange {β : Type} (m : List (Nat × β)) (lo hi : Nat) : List (Nat × β) :=
  m.filter (fun p => !(lo ≤ p.1 && p.1 < hi))

/-- The value at key k, d where the key is not listed. -/
def amGetD {β : Type} (d : β) (m : List (Nat × β)) (k : Nat) : β := (amGet m k).getD d

/-- Write v at key k, where an unlisted key k reads as d: writing d removes the entry. -/
def amSet {β : Type} [DecidableEq β] (d : β) (m : List (Nat × β)) (k : Nat) (v : β) : List (Nat × β) :=
  if v = d then amDel m k else amPut m k v

/-- The keys rise strictly and are all above lo. -/
def amSortedFrom {β : Type} : Option Nat → List (Nat × β) → Bool
  | _, [] => true
  | lo, (a, _) :: r => (match lo with | none => true | some l => decide (l < a)) && amSortedFrom (some a) r

/-- The keys of the list rise strictly. -/
def amSorted {β : Type} (m : List (Nat × β)) : Bool := amSortedFrom none m

/-- The canonical form: keys strictly rising, no entry equal to its default. -/
def amWf {β : Type} [DecidableEq β] (d : Nat → β) (m : List (Nat × β)) : Bool :=
  amSorted m && m.all (fun p => decide (p.2 ≠ d p.1))

/-- Set membership in a sorted list of numbers. -/
def nsMem (l : List Nat) (k : Nat) : Bool := l.any (· == k)

/-- Insert into a sorted list of numbers without repeats. -/
def nsAdd : List Nat → Nat → List Nat
  | [], k => [k]
  | a :: r, k => if a = k then a :: r else if k < a then k :: a :: r else a :: nsAdd r k

/-- Remove from a list of numbers. -/
def nsDel (l : List Nat) (k : Nat) : List Nat := l.filter (· != k)

/-- Replace element i of a list. -/
def lset {β : Type} : List β → Nat → β → List β
  | [], _, _ => []
  | _ :: r, 0, v => v :: r
  | b :: r, i + 1, v => b :: lset r i v

end Sys2Proof.Machine
end

