-- ==== Sys2Proof/Machine/Regs.lean ====
section
/-! DEFINITION. The page map of BAR0 and every register of every page: offset, access code, writable bits and reset
value, from the register and field tables of the chapters (02_register_model.md R41, R46, R546 and each chapter's page
rules). Addresses are byte offsets in BAR0; a register n of an instance page is a function of n. -/
namespace Sys2Proof.Machine

/-- The kinds of page of R41; CANC16-CANC23 hold two registers more than CANC0-CANC15 (R131). -/
inductive PageClass
  | chip | cmt | err | irq | obs | pair | lrl | canc | cancx | prvctl | prvrte | prvsig | prvpdu | brm | clm | tpe | emac | swc | qmg | tkt | pol | mact | lpm | tsy | cry | msec | cauth | yew | hif | hq | dma | dmach | xpl | pwr | wkn | trx | t1sp | tmp
  deriving DecidableEq, Repr

/-- The access codes of R5. -/
inductive Acc
  | ro | rw | rws | rwg | wo | rc
  deriving DecidableEq, Repr

/-- One row of a register table: registers at off + s1*i + s2*j, i < n1, j < n2. wm: bits a write replaces under the
access code; w1: W1C bits; rst: reset word; w64: the low word of a 64-bit register (R44). -/
structure RegRow where
  off : Nat
  s1 : Nat
  n1 : Nat
  s2 : Nat
  n2 : Nat
  acc : Acc
  wm : Nat
  w1 : Nat
  rst : Nat
  w64 : Bool
  deriving DecidableEq, Repr

/-- One run of equal pages of R41: base of the first, number of pages, page index of the first (R50), first instance
number, block code, PG_CAP bits and LAST. -/
structure PageRun where
  cls : PageClass
  base : Nat
  count : Nat
  idx : Nat
  inst : Nat
  block : Nat
  sidefx : Bool
  shadow : Bool
  guard : Bool
  kykel : Bool
  last : Nat
  deriving DecidableEq, Repr

/-- The page map of R41 with the PG_CAP values of R546 and of each chapter. -/
def pageRuns : List PageRun := [
  ⟨.chip, 0x000000, 1, 0, 0, 0x1, false, true, true, false, 0x19B⟩,
  ⟨.cmt, 0x001000, 1, 1, 0, 0x2, false, false, false, false, 0x12F⟩,
  ⟨.err, 0x002000, 1, 2, 0, 0x3, true, false, false, false, 0x11F⟩,
  ⟨.irq, 0x003000, 1, 3, 0, 0x4, false, false, false, false, 0x143⟩,
  ⟨.obs, 0x004000, 1, 4, 0, 0x5, false, false, true, false, 0x12B⟩,
  ⟨.pair, 0x005000, 1, 5, 0, 0x6, false, false, true, false, 0x127⟩,
  ⟨.lrl, 0x006000, 1, 6, 0, 0x7, true, false, false, false, 0x1BF⟩,
  ⟨.canc, 0x100000, 16, 7, 0, 0x10, false, true, true, false, 0x183⟩,
  ⟨.cancx, 0x110000, 8, 23, 16, 0x10, false, true, true, false, 0x183⟩,
  ⟨.prvctl, 0x120000, 1, 31, 0, 0x20, false, true, false, false, 0x66B⟩,
  ⟨.prvrte, 0x121000, 1, 32, 0, 0x21, false, true, false, false, 0x703⟩,
  ⟨.prvsig, 0x122000, 1, 33, 0, 0x22, false, true, false, false, 0x13B⟩,
  ⟨.prvpdu, 0x123000, 1, 34, 0, 0x23, false, true, false, false, 0x127⟩,
  ⟨.brm, 0x124000, 1, 35, 0, 0x24, false, true, false, false, 0xFFF⟩,
  ⟨.clm, 0x125000, 1, 36, 0, 0x25, false, true, false, false, 0x307⟩,
  ⟨.tpe, 0x126000, 1, 37, 0, 0x26, false, true, false, false, 0x213⟩,
  ⟨.emac, 0x200000, 14, 38, 0, 0x30, false, true, false, false, 0x297⟩,
  ⟨.swc, 0x210000, 1, 52, 0, 0x31, false, true, false, false, 0x3BF⟩,
  ⟨.qmg, 0x211000, 1, 53, 0, 0x32, false, true, false, false, 0x7FF⟩,
  ⟨.tkt, 0x212000, 1, 54, 0, 0x33, false, true, false, false, 0x12F⟩,
  ⟨.pol, 0x213000, 1, 55, 0, 0x34, false, true, false, false, 0x15F⟩,
  ⟨.mact, 0x214000, 1, 56, 0, 0x35, false, true, false, false, 0x2C7⟩,
  ⟨.lpm, 0x215000, 1, 57, 0, 0x36, false, true, false, false, 0x133⟩,
  ⟨.tsy, 0x300000, 1, 58, 0, 0x40, false, false, true, false, 0x3CF⟩,
  ⟨.cry, 0x400000, 1, 59, 0, 0x50, false, true, false, false, 0x27B⟩,
  ⟨.msec, 0x401000, 1, 60, 0, 0x51, false, true, false, false, 0x1D7⟩,
  ⟨.cauth, 0x402000, 1, 61, 0, 0x52, false, true, false, false, 0x153⟩,
  ⟨.yew, 0x403000, 1, 62, 0, 0x53, false, false, true, false, 0x1EF⟩,
  ⟨.hif, 0x500000, 1, 63, 0, 0x60, false, false, false, false, 0x133⟩,
  ⟨.hq, 0x501000, 1, 64, 0, 0x61, false, false, false, false, 0x5FF⟩,
  ⟨.dma, 0x502000, 1, 65, 0, 0x62, false, false, false, false, 0x11B⟩,
  ⟨.dmach, 0x503000, 52, 66, 0, 0x63, false, false, false, false, 0x147⟩,
  ⟨.xpl, 0x600000, 1, 118, 0, 0x70, false, false, false, false, 0x133⟩,
  ⟨.pwr, 0x800000, 1, 119, 0, 0x80, false, false, true, true, 0x133⟩,
  ⟨.wkn, 0x801000, 1, 120, 0, 0x81, false, false, true, true, 0x1B7⟩,
  ⟨.trx, 0x810000, 16, 121, 0, 0x82, false, false, true, true, 0x13B⟩,
  ⟨.t1sp, 0x820000, 2, 137, 0, 0x83, false, false, false, true, 0x11B⟩,
  ⟨.tmp, 0x830000, 1, 139, 0, 0x84, false, false, true, true, 0x157⟩]

/-- The registers above the common header of each page. -/
def pageRows : PageClass → List RegRow
  | .chip => [
      ⟨0x140, 4, 1, 4, 1, .rws, 0x3, 0x100, 0x10001, false⟩ /- CHIP_MODE -/,
      ⟨0x144, 4, 1, 4, 1, .rws, 0x7F, 0x0, 0x0, false⟩ /- CHIP_MODE_OVR -/,
      ⟨0x148, 4, 1, 4, 1, .rws, 0x3, 0x0, 0x0, false⟩ /- CHIP_PLAN -/,
      ⟨0x14C, 4, 1, 4, 1, .rws, 0x1, 0x0, 0x0, false⟩ /- CHIP_CLKGATE -/,
      ⟨0x180, 4, 1, 4, 1, .rwg, 0x3, 0x0, 0x0, false⟩ /- CHIP_RSTCTL -/,
      ⟨0x184, 4, 1, 4, 1, .ro, 0x0, 0x0, 0x0, false⟩ /- CHIP_RSTCAUSE -/,
      ⟨0x188, 4, 1, 4, 1, .ro, 0x0, 0x0, 0x0, false⟩ /- CHIP_BOOTSTAT -/,
      ⟨0x18C, 4, 1, 4, 1, .ro, 0x0, 0x0, 0x0, false⟩ /- CHIP_BOOTERR -/,
      ⟨0x190, 4, 1, 4, 1, .ro, 0x0, 0x0, 0x0, false⟩ /- CHIP_BOOTTIME -/,
      ⟨0x194, 4, 1, 4, 1, .rwg, 0xFFFF, 0x0, 0x3E8, false⟩ /- CHIP_WDT -/,
      ⟨0x198, 4, 1, 4, 1, .wo, 0x0, 0x0, 0x0, false⟩ /- CHIP_WDKICK -/]
  | .cmt => [
      ⟨0x100, 4, 1, 4, 1, .rw, 0xFFFF, 0x0, 0x0, false⟩ /- CMT_ARM -/,
      ⟨0x104, 4, 1, 4, 1, .wo, 0x0, 0x0, 0x0, false⟩ /- CMT_GO -/,
      ⟨0x108, 4, 1, 4, 1, .rw, 0xFFFFFFFF, 0x0, 0x0, false⟩ /- CMT_TIME_NS -/,
      ⟨0x10C, 4, 1, 4, 1, .rw, 0xFFFFFFFF, 0x0, 0x0, false⟩ /- CMT_TIME_SL -/,
      ⟨0x110, 4, 1, 4, 1, .rw, 0xFFFF, 0x0, 0x0, false⟩ /- CMT_TIME_SH -/,
      ⟨0x114, 4, 1, 4, 1, .rw, 0x0, 0x0, 0x0, false⟩ /- CMT_TCTL -/,
      ⟨0x118, 4, 1, 4, 1, .rw, 0x0, 0xF00, 0x0, false⟩ /- CMT_STAT -/,
      ⟨0x11C, 4, 1, 4, 1, .ro, 0x0, 0x0, 0x0, false⟩ /- CMT_SEQ -/,
      ⟨0x120, 4, 1, 4, 1, .ro, 0x0, 0x0, 0x0, false⟩ /- CMT_LAST_GRP -/,
      ⟨0x124, 4, 1, 4, 1, .ro, 0x0, 0x0, 0x0, false⟩ /- CMT_LAST_NS -/,
      ⟨0x128, 4, 1, 4, 1, .ro, 0x0, 0x0, 0x0, false⟩ /- CMT_LAST_SL -/,
      ⟨0x12C, 4, 1, 4, 1, .ro, 0x0, 0x0, 0x0, false⟩ /- CMT_LAST_SH -/]
  | .err => [
      ⟨0x100, 4, 1, 4, 1, .ro, 0x0, 0x0, 0x0, false⟩ /- ERR_FIRST_ADDR -/,
      ⟨0x104, 4, 1, 4, 1, .ro, 0x0, 0x0, 0x0, false⟩ /- ERR_FIRST_INFO -/,
      ⟨0x108, 4, 1, 4, 1, .ro, 0x0, 0x0, 0x0, false⟩ /- ERR_FIRST_TS -/,
      ⟨0x10C, 4, 1, 4, 1, .ro, 0x0, 0x0, 0x0, false⟩ /- ERR_LAST_ADDR -/,
      ⟨0x110, 4, 1, 4, 1, .ro, 0x0, 0x0, 0x0, false⟩ /- ERR_LAST_INFO -/,
      ⟨0x114, 4, 1, 4, 1, .ro, 0x0, 0x0, 0x0, false⟩ /- ERR_LAST_TS -/,
      ⟨0x118, 4, 1, 4, 1, .rc, 0x0, 0x0, 0x0, false⟩ /- ERR_COUNT -/,
      ⟨0x11C, 4, 1, 4, 1, .wo, 0x0, 0x0, 0x0, false⟩ /- ERR_CLR -/]
  | .irq => [
      ⟨0x100, 4, 5, 4, 1, .ro, 0x0, 0x0, 0x0, false⟩ /- IRQ_HSUMk -/,
      ⟨0x120, 4, 5, 4, 1, .ro, 0x0, 0x0, 0x0, false⟩ /- IRQ_LSUMk -/,
      ⟨0x140, 4, 1, 4, 1, .ro, 0x0, 0x0, 0x0, false⟩ /- IRQ_KSTAT -/]
  | .obs => [
      ⟨0x100, 4, 1, 4, 1, .rwg, 0x1, 0x0, 0x0, false⟩ /- OBS_CTL -/,
      ⟨0x104, 4, 1, 4, 1, .ro, 0x0, 0x0, 0x0, false⟩ /- OBS_STAT -/,
      ⟨0x108, 4, 1, 4, 1, .rw, 0xFFFF, 0x0, 0x0, false⟩ /- OBS_SRC -/,
      ⟨0x10C, 4, 1, 4, 1, .rw, 0xFFFFFF, 0x0, 0x0, false⟩ /- OBS_CANMASK -/,
      ⟨0x110, 4, 1, 4, 1, .rw, 0x3FFF, 0x0, 0x0, false⟩ /- OBS_ETHMASK -/,
      ⟨0x114, 4, 1, 4, 1, .rw, 0x3FFFFFFF, 0x0, 0x0, false⟩ /- OBS_IDV -/,
      ⟨0x118, 4, 1, 4, 1, .rw, 0x5FFFFFFF, 0x0, 0x0, false⟩ /- OBS_IDM -/,
      ⟨0x11C, 4, 1, 4, 1, .rw, 0xFFFF, 0x0, 0x0, false⟩ /- OBS_CNTPER -/,
      ⟨0x120, 4, 1, 4, 1, .ro, 0x0, 0x0, 0x0, false⟩ /- OBS_LOST -/,
      ⟨0x124, 4, 1, 4, 1, .ro, 0x0, 0x0, 0x0, false⟩ /- OBS_SENT -/,
      ⟨0x128, 4, 1, 4, 1, .wo, 0x0, 0x0, 0x0, false⟩ /- OBS_CNTCLR -/]
  | .pair => [
      ⟨0x100, 4, 1, 4, 1, .rwg, 0x3FFFFFF7, 0x0, 0x514, false⟩ /- PAIR_CTL -/,
      ⟨0x104, 4, 1, 4, 1, .ro, 0x0, 0x0, 0x0, false⟩ /- PAIR_STAT -/,
      ⟨0x108, 4, 1, 4, 1, .wo, 0x0, 0x0, 0x0, false⟩ /- PAIR_CMD -/,
      ⟨0x10C, 4, 1, 4, 1, .ro, 0x0, 0x0, 0x0, false⟩ /- PAIR_DIGMIS -/,
      ⟨0x110, 4, 1, 4, 1, .ro, 0x0, 0x0, 0x0, false⟩ /- PAIR_LASTMIS -/,
      ⟨0x114, 4, 1, 4, 1, .ro, 0x0, 0x0, 0x0, false⟩ /- PAIR_MIRDROP -/,
      ⟨0x118, 4, 1, 4, 1, .ro, 0x0, 0x0, 0x0, false⟩ /- PAIR_OWNDISC -/,
      ⟨0x11C, 4, 1, 4, 1, .ro, 0x0, 0x0, 0x0, false⟩ /- PAIR_SWOVER -/,
      ⟨0x120, 4, 1, 4, 1, .ro, 0x0, 0x0, 0x0, false⟩ /- PAIR_LASTSW -/,
      ⟨0x124, 4, 1, 4, 1, .wo, 0x0, 0x0, 0x0, false⟩ /- PAIR_CNTCLR -/]
  | .lrl => [
      ⟨0x100, 4, 1, 4, 1, .rw, 0xFF000301, 0x0, 0xA000101, false⟩ /- LRL_CTL -/,
      ⟨0x104, 4, 1, 4, 1, .ro, 0x0, 0x0, 0x0, false⟩ /- LRL_STAT -/,
      ⟨0x108, 4, 1, 4, 1, .wo, 0x0, 0x0, 0x0, false⟩ /- LRL_DOORBELL -/,
      ⟨0x10C, 4, 1, 4, 1, .wo, 0x0, 0x0, 0x0, false⟩ /- LRL_RSPACK -/,
      ⟨0x110, 4, 1, 4, 1, .rc, 0x0, 0x0, 0x0, false⟩ /- LRL_EVPOP -/,
      ⟨0x140, 4, 16, 4, 1, .rw, 0xFFFFFFFF, 0x0, 0x0, false⟩ /- LRL_REQk -/,
      ⟨0x180, 4, 16, 4, 1, .ro, 0x0, 0x0, 0x0, false⟩ /- LRL_RSPk -/]
  | .canc => [
      ⟨0x140, 4, 1, 4, 1, .ro, 0x0, 0x0, 0x0, false⟩ /- CANCn_RXOK -/,
      ⟨0x144, 4, 1, 4, 1, .ro, 0x0, 0x0, 0x0, false⟩ /- CANCn_TXOK -/,
      ⟨0x148, 4, 1, 4, 1, .ro, 0x0, 0x0, 0x0, false⟩ /- CANCn_ARBLOST -/,
      ⟨0x14C, 4, 1, 4, 1, .ro, 0x0, 0x0, 0x0, false⟩ /- CANCn_BITERR -/,
      ⟨0x150, 4, 1, 4, 1, .ro, 0x0, 0x0, 0x0, false⟩ /- CANCn_STUFFERR -/,
      ⟨0x154, 4, 1, 4, 1, .ro, 0x0, 0x0, 0x0, false⟩ /- CANCn_FORMERR -/,
      ⟨0x158, 4, 1, 4, 1, .ro, 0x0, 0x0, 0x0, false⟩ /- CANCn_CRCERR -/,
      ⟨0x15C, 4, 1, 4, 1, .ro, 0x0, 0x0, 0x0, false⟩ /- CANCn_ACKERR -/,
      ⟨0x160, 4, 1, 4, 1, .ro, 0x0, 0x0, 0x0, false⟩ /- CANCn_BOFFCNT -/,
      ⟨0x164, 4, 1, 4, 1, .ro, 0x0, 0x0, 0x0, false⟩ /- CANCn_EPASSCNT -/,
      ⟨0x168, 4, 1, 4, 1, .ro, 0x0, 0x0, 0x0, false⟩ /- CANCn_TXCANCEL -/,
      ⟨0x16C, 4, 1, 4, 1, .ro, 0x0, 0x0, 0x0, false⟩ /- CANCn_TXFLUSH -/,
      ⟨0x170, 4, 1, 4, 1, .ro, 0x0, 0x0, 0x0, false⟩ /- CANCn_TXDEADL -/,
      ⟨0x174, 4, 1, 4, 1, .ro, 0x0, 0x0, 0x0, false⟩ /- CANCn_RXDISC -/,
      ⟨0x178, 4, 1, 4, 1, .ro, 0x0, 0x0, 0x0, false⟩ /- CANCn_PXECNT -/,
      ⟨0x17C, 4, 1, 4, 1, .ro, 0x0, 0x0, 0x0, false⟩ /- CANCn_OVLDCNT -/,
      ⟨0x100, 4, 1, 4, 1, .rws, 0x1B7, 0x0, 0x30, false⟩ /- CANCn_MODE -/,
      ⟨0x104, 4, 1, 4, 1, .rws, 0xFFFFFFFF, 0x0, 0x264D1403, false⟩ /- CANCn_BTN -/,
      ⟨0x108, 4, 1, 4, 1, .rws, 0x1F3FFF3F, 0x0, 0x133A13, false⟩ /- CANCn_BTD -/,
      ⟨0x10C, 4, 1, 4, 1, .rws, 0xFF7F01, 0x0, 0x3C01, false⟩ /- CANCn_TDC -/,
      ⟨0x110, 4, 1, 4, 1, .ro, 0x0, 0x0, 0x0, false⟩ /- CANCn_TDCSTAT -/,
      ⟨0x11C, 4, 1, 4, 1, .rwg, 0xFF0F03, 0x0, 0x0, false⟩ /- CANCn_BOFFPOL -/,
      ⟨0x120, 4, 1, 4, 1, .wo, 0x0, 0x0, 0x0, false⟩ /- CANCn_RECOV -/,
      ⟨0x124, 4, 1, 4, 1, .ro, 0x0, 0x0, 0x0, false⟩ /- CANCn_ESTAT -/,
      ⟨0x128, 4, 1, 4, 1, .ro, 0x0, 0x0, 0x0, false⟩ /- CANCn_ECNT -/,
      ⟨0x12C, 4, 1, 4, 1, .ro, 0x0, 0x0, 0x0, false⟩ /- CANCn_LEC -/,
      ⟨0x130, 4, 1, 4, 1, .ro, 0x0, 0x0, 0x0, false⟩ /- CANCn_TXOCC -/,
      ⟨0x134, 4, 1, 4, 1, .ro, 0x0, 0x0, 0x0, false⟩ /- CANCn_TXHEAD -/,
      ⟨0x138, 4, 1, 4, 1, .rw, 0x13F, 0x0, 0x0, false⟩ /- CANCn_TXCAN -/,
      ⟨0x180, 4, 1, 4, 1, .wo, 0x0, 0x0, 0x0, false⟩ /- CANCn_CNTCLR -/]
  | .cancx => [
      ⟨0x140, 4, 1, 4, 1, .ro, 0x0, 0x0, 0x0, false⟩ /- CANCn_RXOK -/,
      ⟨0x144, 4, 1, 4, 1, .ro, 0x0, 0x0, 0x0, false⟩ /- CANCn_TXOK -/,
      ⟨0x148, 4, 1, 4, 1, .ro, 0x0, 0x0, 0x0, false⟩ /- CANCn_ARBLOST -/,
      ⟨0x14C, 4, 1, 4, 1, .ro, 0x0, 0x0, 0x0, false⟩ /- CANCn_BITERR -/,
      ⟨0x150, 4, 1, 4, 1, .ro, 0x0, 0x0, 0x0, false⟩ /- CANCn_STUFFERR -/,
      ⟨0x154, 4, 1, 4, 1, .ro, 0x0, 0x0, 0x0, false⟩ /- CANCn_FORMERR -/,
      ⟨0x158, 4, 1, 4, 1, .ro, 0x0, 0x0, 0x0, false⟩ /- CANCn_CRCERR -/,
      ⟨0x15C, 4, 1, 4, 1, .ro, 0x0, 0x0, 0x0, false⟩ /- CANCn_ACKERR -/,
      ⟨0x160, 4, 1, 4, 1, .ro, 0x0, 0x0, 0x0, false⟩ /- CANCn_BOFFCNT -/,
      ⟨0x164, 4, 1, 4, 1, .ro, 0x0, 0x0, 0x0, false⟩ /- CANCn_EPASSCNT -/,
      ⟨0x168, 4, 1, 4, 1, .ro, 0x0, 0x0, 0x0, false⟩ /- CANCn_TXCANCEL -/,
      ⟨0x16C, 4, 1, 4, 1, .ro, 0x0, 0x0, 0x0, false⟩ /- CANCn_TXFLUSH -/,
      ⟨0x170, 4, 1, 4, 1, .ro, 0x0, 0x0, 0x0, false⟩ /- CANCn_TXDEADL -/,
      ⟨0x174, 4, 1, 4, 1, .ro, 0x0, 0x0, 0x0, false⟩ /- CANCn_RXDISC -/,
      ⟨0x178, 4, 1, 4, 1, .ro, 0x0, 0x0, 0x0, false⟩ /- CANCn_PXECNT -/,
      ⟨0x17C, 4, 1, 4, 1, .ro, 0x0, 0x0, 0x0, false⟩ /- CANCn_OVLDCNT -/,
      ⟨0x100, 4, 1, 4, 1, .rws, 0x1F7, 0x0, 0x30, false⟩ /- CANCn_MODE -/,
      ⟨0x104, 4, 1, 4, 1, .rws, 0xFFFFFFFF, 0x0, 0x264D1403, false⟩ /- CANCn_BTN -/,
      ⟨0x108, 4, 1, 4, 1, .rws, 0x1F3FFF3F, 0x0, 0x133A13, false⟩ /- CANCn_BTD -/,
      ⟨0x10C, 4, 1, 4, 1, .rws, 0xFF7F01, 0x0, 0x3C01, false⟩ /- CANCn_TDC -/,
      ⟨0x110, 4, 1, 4, 1, .ro, 0x0, 0x0, 0x0, false⟩ /- CANCn_TDCSTAT -/,
      ⟨0x114, 4, 1, 4, 1, .rws, 0x3, 0x0, 0x2, false⟩ /- CANCn_XLCTL -/,
      ⟨0x118, 4, 1, 4, 1, .rws, 0x3F3F3F, 0x0, 0x3B13, false⟩ /- CANCn_XLPWM -/,
      ⟨0x11C, 4, 1, 4, 1, .rwg, 0xFF0F03, 0x0, 0x0, false⟩ /- CANCn_BOFFPOL -/,
      ⟨0x120, 4, 1, 4, 1, .wo, 0x0, 0x0, 0x0, false⟩ /- CANCn_RECOV -/,
      ⟨0x124, 4, 1, 4, 1, .ro, 0x0, 0x0, 0x0, false⟩ /- CANCn_ESTAT -/,
      ⟨0x128, 4, 1, 4, 1, .ro, 0x0, 0x0, 0x0, false⟩ /- CANCn_ECNT -/,
      ⟨0x12C, 4, 1, 4, 1, .ro, 0x0, 0x0, 0x0, false⟩ /- CANCn_LEC -/,
      ⟨0x130, 4, 1, 4, 1, .ro, 0x0, 0x0, 0x80000000, false⟩ /- CANCn_TXOCC -/,
      ⟨0x134, 4, 1, 4, 1, .ro, 0x0, 0x0, 0x0, false⟩ /- CANCn_TXHEAD -/,
      ⟨0x138, 4, 1, 4, 1, .rw, 0x13F, 0x0, 0x0, false⟩ /- CANCn_TXCAN -/,
      ⟨0x180, 4, 1, 4, 1, .wo, 0x0, 0x0, 0x0, false⟩ /- CANCn_CNTCLR -/]
  | .prvctl => [
      ⟨0x100, 4, 1, 4, 1, .rws, 0x1, 0x0, 0x0, false⟩ /- PRV_CTL_EN -/,
      ⟨0x104, 4, 1, 4, 1, .rws, 0xFFFF0001, 0x0, 0x27100001, false⟩ /- PRV_CTL_DLCTL -/,
      ⟨0x108, 4, 1, 4, 1, .rws, 0x8000003F, 0x0, 0x0, false⟩ /- PRV_CTL_DEFACT -/,
      ⟨0x10C, 4, 1, 4, 1, .ro, 0x0, 0x0, 0x0, false⟩ /- PRV_CTL_JOBS -/,
      ⟨0x110, 4, 1, 4, 1, .ro, 0x0, 0x0, 0xF00, false⟩ /- PRV_CTL_STORE -/,
      ⟨0x114, 4, 1, 4, 1, .ro, 0x0, 0x0, 0x0, false⟩ /- PRV_CTL_LATMAX -/,
      ⟨0x180, 4, 24, 4, 1, .rws, 0x3FF, 0x0, 0x40, false⟩ /- PRV_CTL_HOLDLIMn -/,
      ⟨0x200, 4, 24, 4, 1, .ro, 0x0, 0x0, 0x0, false⟩ /- PRV_CTL_HELDn -/,
      ⟨0x400, 16, 24, 4, 1, .ro, 0x0, 0x0, 0x0, false⟩ /- PRV_CTL_EDROPn_DEADLINE -/,
      ⟨0x404, 16, 24, 4, 1, .ro, 0x0, 0x0, 0x0, false⟩ /- PRV_CTL_EDROPn_FORMAT -/,
      ⟨0x408, 16, 24, 4, 1, .ro, 0x0, 0x0, 0x0, false⟩ /- PRV_CTL_EDROPn_HOLDFULL -/,
      ⟨0x40C, 16, 24, 4, 1, .ro, 0x0, 0x0, 0x0, false⟩ /- PRV_CTL_EDROPn_DISABLED -/,
      ⟨0x600, 4, 24, 4, 1, .ro, 0x0, 0x0, 0x0, false⟩ /- PRV_CTL_NOMATCHn -/,
      ⟨0x660, 4, 1, 4, 1, .ro, 0x0, 0x0, 0x0, false⟩ /- PRV_CTL_NOMATCHO -/,
      ⟨0x664, 4, 1, 4, 1, .ro, 0x0, 0x0, 0x0, false⟩ /- PRV_CTL_MATCHOVF -/,
      ⟨0x668, 4, 1, 4, 1, .wo, 0x0, 0x0, 0x0, false⟩ /- PRV_CTL_CNTCLR -/]
  | .prvrte => [
      ⟨0x100, 4, 1, 4, 1, .rw, 0x7FFF, 0x0, 0x0, false⟩ /- PRV_RTE_CIDX -/,
      ⟨0x104, 4, 1, 4, 1, .ro, 0x0, 0x0, 0x0, false⟩ /- PRV_RTE_CMATCH -/,
      ⟨0x108, 4, 1, 4, 1, .ro, 0x0, 0x0, 0x0, false⟩ /- PRV_RTE_CDLDROP -/,
      ⟨0x10C, 4, 1, 4, 1, .ro, 0x0, 0x0, 0x0, false⟩ /- PRV_RTE_CCYCMISS -/,
      ⟨0x110, 4, 1, 4, 1, .wo, 0x0, 0x0, 0x0, false⟩ /- PRV_RTE_CCLR -/,
      ⟨0x114, 4, 1, 4, 1, .ro, 0x0, 0x0, 0x0, false⟩ /- PRV_RTE_LASTCYC -/,
      ⟨0x400, 4, 24, 4, 1, .rws, 0x1FFF7FFF, 0x0, 0x0, false⟩ /- PRV_RTE_WINs -/,
      ⟨0x500, 4, 129, 4, 1, .rws, 0x1FFF7FFF, 0x0, 0x0, false⟩ /- PRV_RTE_WINs -/]
  | .prvsig => [
      ⟨0x100, 4, 1, 4, 1, .rws, 0x3, 0x0, 0x3, false⟩ /- PRV_SIG_CTL -/,
      ⟨0x104, 4, 1, 4, 1, .rw, 0xFFFF, 0x0, 0x0, false⟩ /- PRV_SIG_RIDX -/,
      ⟨0x108, 4, 1, 4, 1, .ro, 0x0, 0x0, 0x0, false⟩ /- PRV_SIG_RLO -/,
      ⟨0x10C, 4, 1, 4, 1, .ro, 0x0, 0x0, 0x0, false⟩ /- PRV_SIG_RHI -/,
      ⟨0x110, 4, 1, 4, 1, .ro, 0x0, 0x0, 0x0, false⟩ /- PRV_SIG_RAGE -/,
      ⟨0x114, 4, 1, 4, 1, .ro, 0x0, 0x0, 0x0, false⟩ /- PRV_SIG_EXTR -/,
      ⟨0x118, 4, 1, 4, 1, .ro, 0x0, 0x0, 0x0, false⟩ /- PRV_SIG_SHORT -/,
      ⟨0x11C, 4, 1, 4, 1, .ro, 0x0, 0x0, 0x0, false⟩ /- PRV_SIG_STALE -/,
      ⟨0x120, 4, 1, 4, 1, .ro, 0x0, 0x0, 0x0, false⟩ /- PRV_SIG_SAT -/,
      ⟨0x124, 4, 1, 4, 1, .ro, 0x0, 0x0, 0x0, false⟩ /- PRV_SIG_LAYERR -/,
      ⟨0x128, 4, 1, 4, 1, .ro, 0x0, 0x0, 0x0, false⟩ /- PRV_SIG_DISC -/,
      ⟨0x12C, 4, 1, 4, 1, .wo, 0x0, 0x0, 0x0, false⟩ /- PRV_SIG_CNTCLR -/,
      ⟨0x130, 4, 1, 4, 1, .ro, 0x0, 0x0, 0x0, false⟩ /- PRV_SIG_LASTSTALE -/,
      ⟨0x134, 4, 1, 4, 1, .ro, 0x0, 0x0, 0x0, false⟩ /- PRV_SIG_LASTSAT -/,
      ⟨0x138, 4, 1, 4, 1, .ro, 0x0, 0x0, 0x0, false⟩ /- PRV_SIG_LASTLERR -/]
  | .prvpdu => [
      ⟨0x100, 4, 1, 4, 1, .rws, 0x1, 0x0, 0x1, false⟩ /- PRV_PDU_CTL -/,
      ⟨0x104, 4, 1, 4, 1, .rw, 0x3FFF, 0x0, 0x0, false⟩ /- PRV_PDU_CIDX -/,
      ⟨0x108, 4, 1, 4, 1, .ro, 0x0, 0x0, 0x0, false⟩ /- PRV_PDU_CSENT -/,
      ⟨0x10C, 4, 1, 4, 1, .ro, 0x0, 0x0, 0x0, false⟩ /- PRV_PDU_CINHIB -/,
      ⟨0x110, 4, 1, 4, 1, .ro, 0x0, 0x0, 0x0, false⟩ /- PRV_PDU_CSUPP -/,
      ⟨0x114, 4, 1, 4, 1, .ro, 0x0, 0x0, 0x0, false⟩ /- PRV_PDU_CDLDROP -/,
      ⟨0x118, 4, 1, 4, 1, .wo, 0x0, 0x0, 0x0, false⟩ /- PRV_PDU_CCLR -/,
      ⟨0x11C, 4, 1, 4, 1, .ro, 0x0, 0x0, 0x0, false⟩ /- PRV_PDU_VSTAT -/,
      ⟨0x120, 4, 1, 4, 1, .rw, 0x1FF3FFF, 0x0, 0x0, false⟩ /- PRV_PDU_DIDX -/,
      ⟨0x124, 4, 1, 4, 1, .ro, 0x0, 0x0, 0x0, false⟩ /- PRV_PDU_DATA -/]
  | .brm => [
      ⟨0x100, 4, 1, 4, 1, .rws, 0x3, 0x0, 0x0, false⟩ /- BRM_CTL -/,
      ⟨0x104, 4, 1, 4, 1, .rws, 0xFFFFFFFF, 0x0, 0x0, false⟩ /- BRM_SMAC_LO -/,
      ⟨0x108, 4, 1, 4, 1, .rws, 0xFFFF, 0x0, 0x0, false⟩ /- BRM_SMAC_HI -/,
      ⟨0x110, 4, 1, 4, 1, .ro, 0x0, 0x0, 0x0, false⟩ /- BRM_BADHDR -/,
      ⟨0x114, 4, 1, 4, 1, .ro, 0x0, 0x0, 0x0, false⟩ /- BRM_UNKSTR -/,
      ⟨0x118, 4, 1, 4, 1, .ro, 0x0, 0x0, 0x0, false⟩ /- BRM_ACFSKIP -/,
      ⟨0x11C, 4, 1, 4, 1, .ro, 0x0, 0x0, 0x0, false⟩ /- BRM_ACFERR -/,
      ⟨0x120, 4, 1, 4, 1, .ro, 0x0, 0x0, 0x0, false⟩ /- BRM_TXDROP -/,
      ⟨0x124, 4, 1, 4, 1, .wo, 0x0, 0x0, 0x0, false⟩ /- BRM_CNTCLR -/,
      ⟨0x128, 4, 1, 4, 1, .ro, 0x0, 0x0, 0x0, false⟩ /- BRM_LASTTO -/,
      ⟨0x400, 16, 64, 4, 1, .rws, 0xFFFFFFFF, 0x0, 0x0, false⟩ /- BRM_TXSs_W0 -/,
      ⟨0x404, 16, 64, 4, 1, .rws, 0xFFFFFFFF, 0x0, 0x0, false⟩ /- BRM_TXSs_W1 -/,
      ⟨0x408, 16, 64, 4, 1, .rws, 0xFFFFFFF0, 0x0, 0x0, false⟩ /- BRM_TXSs_W2 -/,
      ⟨0x40C, 16, 64, 4, 1, .rws, 0xFFFFFFFF, 0x0, 0x0, false⟩ /- BRM_TXSs_W3 -/,
      ⟨0x800, 16, 64, 4, 1, .rws, 0xFFFFFFFF, 0x0, 0x0, false⟩ /- BRM_RXSs_W0 -/,
      ⟨0x804, 16, 64, 4, 1, .rws, 0xFFFFFFFF, 0x0, 0x0, false⟩ /- BRM_RXSs_W1 -/,
      ⟨0x808, 16, 64, 4, 1, .rws, 0xC000FFFF, 0x0, 0x0, false⟩ /- BRM_RXSs_W2 -/,
      ⟨0x80C, 16, 64, 4, 1, .ro, 0x0, 0x0, 0x0, false⟩ /- BRM_RXSs_W3 -/,
      ⟨0xC00, 12, 64, 4, 1, .ro, 0x0, 0x0, 0x0, false⟩ /- BRM_RXFRMs -/,
      ⟨0xC04, 12, 64, 4, 1, .ro, 0x0, 0x0, 0x0, false⟩ /- BRM_RXLOSTs -/,
      ⟨0xC08, 12, 64, 4, 1, .ro, 0x0, 0x0, 0x0, false⟩ /- BRM_RXSEQOLDs -/,
      ⟨0xF00, 4, 64, 4, 1, .ro, 0x0, 0x0, 0x0, false⟩ /- BRM_TXFRMs -/]
  | .clm => [
      ⟨0x100, 4, 1, 4, 1, .rws, 0xFFE0FF3D, 0x0, 0xA15, false⟩ /- CLM_CTL -/,
      ⟨0x104, 4, 1, 4, 1, .ro, 0x0, 0x0, 0x0, false⟩ /- CLM_OCC -/,
      ⟨0x108, 4, 1, 4, 1, .ro, 0x0, 0x0, 0x0, false⟩ /- CLM_LAST -/,
      ⟨0x10C, 4, 1, 4, 1, .wo, 0x0, 0x0, 0x0, false⟩ /- CLM_FLUSH -/,
      ⟨0x110, 4, 1, 4, 1, .wo, 0x0, 0x0, 0x0, false⟩ /- CLM_REQ -/,
      ⟨0x120, 4, 1, 4, 1, .ro, 0x0, 0x0, 0x0, false⟩ /- CLM_LEARNED -/,
      ⟨0x124, 4, 1, 4, 1, .ro, 0x0, 0x0, 0x0, false⟩ /- CLM_FULL -/,
      ⟨0x128, 4, 1, 4, 1, .ro, 0x0, 0x0, 0x0, false⟩ /- CLM_CONTEND -/,
      ⟨0x12C, 4, 1, 4, 1, .ro, 0x0, 0x0, 0x0, false⟩ /- CLM_ROGUE -/,
      ⟨0x130, 4, 1, 4, 1, .ro, 0x0, 0x0, 0x0, false⟩ /- CLM_BADCLM -/,
      ⟨0x134, 4, 1, 4, 1, .ro, 0x0, 0x0, 0x0, false⟩ /- CLM_PXLOST -/,
      ⟨0x138, 4, 1, 4, 1, .wo, 0x0, 0x0, 0x0, false⟩ /- CLM_CNTCLR -/,
      ⟨0x180, 4, 24, 4, 1, .ro, 0x0, 0x0, 0x0, false⟩ /- CLM_XLDROPn -/,
      ⟨0x200, 4, 24, 4, 1, .rws, 0x1FF, 0x0, 0x119, false⟩ /- CLM_ISOn -/,
      ⟨0x280, 4, 24, 4, 1, .ro, 0x0, 0x0, 0x0, false⟩ /- CLM_ISODROPn -/,
      ⟨0x300, 4, 1, 4, 1, .wo, 0x0, 0x0, 0x0, false⟩ /- CLM_ISOSTART -/,
      ⟨0x304, 4, 1, 4, 1, .ro, 0x0, 0x0, 0x0, false⟩ /- CLM_ISOSTAT -/]
  | .tpe => [
      ⟨0x100, 4, 1, 4, 1, .rws, 0xFFFFFF01, 0x0, 0x32108001, false⟩ /- TPE_CTL -/,
      ⟨0x104, 4, 1, 4, 1, .rws, 0xFFF07FF, 0x0, 0xF000040, false⟩ /- TPE_POOL -/,
      ⟨0x108, 4, 1, 4, 1, .ro, 0x0, 0x0, 0x0, false⟩ /- TPE_STAT -/,
      ⟨0x10C, 4, 1, 4, 1, .ro, 0x0, 0x0, 0x4000, false⟩ /- TPE_PFREE -/,
      ⟨0x110, 4, 1, 4, 1, .ro, 0x0, 0x0, 0x0, false⟩ /- TPE_LASTAB -/,
      ⟨0x120, 4, 1, 4, 1, .ro, 0x0, 0x0, 0x0, false⟩ /- TPE_OPENED -/,
      ⟨0x124, 4, 1, 4, 1, .ro, 0x0, 0x0, 0x0, false⟩ /- TPE_DONE -/,
      ⟨0x128, 4, 1, 4, 1, .ro, 0x0, 0x0, 0x0, false⟩ /- TPE_REFUSED -/,
      ⟨0x12C, 4, 1, 4, 1, .ro, 0x0, 0x0, 0x0, false⟩ /- TPE_ABTX -/,
      ⟨0x130, 4, 1, 4, 1, .ro, 0x0, 0x0, 0x0, false⟩ /- TPE_ABRX -/,
      ⟨0x134, 4, 1, 4, 1, .ro, 0x0, 0x0, 0x0, false⟩ /- TPE_TMO -/,
      ⟨0x138, 4, 1, 4, 1, .ro, 0x0, 0x0, 0x0, false⟩ /- TPE_EGFAIL -/,
      ⟨0x13C, 4, 1, 4, 1, .ro, 0x0, 0x0, 0x0, false⟩ /- TPE_BAMDISC -/,
      ⟨0x140, 4, 1, 4, 1, .ro, 0x0, 0x0, 0x0, false⟩ /- TPE_IGN -/,
      ⟨0x144, 4, 1, 4, 1, .wo, 0x0, 0x0, 0x0, false⟩ /- TPE_CNTCLR -/,
      ⟨0x180, 4, 24, 4, 1, .rws, 0xFFFFFFFF, 0x0, 0x0, false⟩ /- TPE_BAMn -/,
      ⟨0x1E0, 4, 1, 4, 1, .rws, 0xFFFFFF, 0x0, 0x0, false⟩ /- TPE_BAMXL -/,
      ⟨0x200, 4, 1, 4, 1, .rw, 0x7F, 0x0, 0x0, false⟩ /- TPE_SIDX -/,
      ⟨0x204, 4, 1, 4, 1, .ro, 0x0, 0x0, 0x0, false⟩ /- TPE_SST -/,
      ⟨0x208, 4, 1, 4, 1, .ro, 0x0, 0x0, 0x0, false⟩ /- TPE_SSIZE -/,
      ⟨0x20C, 4, 1, 4, 1, .ro, 0x0, 0x0, 0x0, false⟩ /- TPE_SRCV -/,
      ⟨0x210, 4, 1, 4, 1, .ro, 0x0, 0x0, 0x0, false⟩ /- TPE_SPGN -/]
  | .emac => [
      ⟨0x200, 4, 1, 4, 1, .ro, 0x0, 0x0, 0x0, false⟩ /- EMACn_RXOK -/,
      ⟨0x24C, 4, 1, 4, 1, .ro, 0x0, 0x0, 0x0, false⟩ /- EMACn_RX1519_MAX -/,
      ⟨0x204, 4, 1, 4, 1, .ro, 0x0, 0x0, 0x0, false⟩ /- EMACn_RXOCT -/,
      ⟨0x250, 4, 1, 4, 1, .ro, 0x0, 0x0, 0x0, false⟩ /- EMACn_TXOK -/,
      ⟨0x208, 4, 1, 4, 1, .ro, 0x0, 0x0, 0x0, false⟩ /- EMACn_RXBCAST -/,
      ⟨0x254, 4, 1, 4, 1, .ro, 0x0, 0x0, 0x0, false⟩ /- EMACn_TXOCT -/,
      ⟨0x20C, 4, 1, 4, 1, .ro, 0x0, 0x0, 0x0, false⟩ /- EMACn_RXMCAST -/,
      ⟨0x258, 4, 1, 4, 1, .ro, 0x0, 0x0, 0x0, false⟩ /- EMACn_TXBCAST -/,
      ⟨0x210, 4, 1, 4, 1, .ro, 0x0, 0x0, 0x0, false⟩ /- EMACn_RXFCSERR -/,
      ⟨0x25C, 4, 1, 4, 1, .ro, 0x0, 0x0, 0x0, false⟩ /- EMACn_TXMCAST -/,
      ⟨0x214, 4, 1, 4, 1, .ro, 0x0, 0x0, 0x0, false⟩ /- EMACn_RXRUNT -/,
      ⟨0x260, 4, 1, 4, 1, .ro, 0x0, 0x0, 0x0, false⟩ /- EMACn_TXPAUSE -/,
      ⟨0x218, 4, 1, 4, 1, .ro, 0x0, 0x0, 0x0, false⟩ /- EMACn_RXFRAG -/,
      ⟨0x264, 4, 1, 4, 1, .ro, 0x0, 0x0, 0x0, false⟩ /- EMACn_TXPFC -/,
      ⟨0x21C, 4, 1, 4, 1, .ro, 0x0, 0x0, 0x0, false⟩ /- EMACn_RXLONG -/,
      ⟨0x268, 4, 1, 4, 1, .ro, 0x0, 0x0, 0x0, false⟩ /- EMACn_TXSTOMP -/,
      ⟨0x220, 4, 1, 4, 1, .ro, 0x0, 0x0, 0x0, false⟩ /- EMACn_RXJABBER -/,
      ⟨0x26C, 4, 1, 4, 1, .ro, 0x0, 0x0, 0x0, false⟩ /- EMACn_TXABORT -/,
      ⟨0x224, 4, 1, 4, 1, .ro, 0x0, 0x0, 0x0, false⟩ /- EMACn_RXSYMERR -/,
      ⟨0x270, 4, 1, 4, 1, .ro, 0x0, 0x0, 0x0, false⟩ /- EMACn_TXLSO -/,
      ⟨0x228, 4, 1, 4, 1, .ro, 0x0, 0x0, 0x0, false⟩ /- EMACn_RXOVF -/,
      ⟨0x274, 4, 1, 4, 1, .ro, 0x0, 0x0, 0x0, false⟩ /- EMACn_TXLSOSEG -/,
      ⟨0x22C, 4, 1, 4, 1, .ro, 0x0, 0x0, 0x0, false⟩ /- EMACn_RXPAUSE -/,
      ⟨0x278, 4, 1, 4, 1, .ro, 0x0, 0x0, 0x0, false⟩ /- EMACn_TXOFFERR -/,
      ⟨0x230, 4, 1, 4, 1, .ro, 0x0, 0x0, 0x0, false⟩ /- EMACn_RXPFC -/,
      ⟨0x27C, 4, 1, 4, 1, .ro, 0x0, 0x0, 0x0, false⟩ /- EMACn_TXCOLL -/,
      ⟨0x234, 4, 1, 4, 1, .ro, 0x0, 0x0, 0x0, false⟩ /- EMACn_RXCTLIGN -/,
      ⟨0x280, 4, 1, 4, 1, .ro, 0x0, 0x0, 0x0, false⟩ /- EMACn_TXEXCOLL -/,
      ⟨0x238, 4, 1, 4, 1, .ro, 0x0, 0x0, 0x0, false⟩ /- EMACn_RX64 -/,
      ⟨0x284, 4, 1, 4, 1, .ro, 0x0, 0x0, 0x0, false⟩ /- EMACn_LDFLUSH -/,
      ⟨0x23C, 4, 1, 4, 1, .ro, 0x0, 0x0, 0x0, false⟩ /- EMACn_RX65_127 -/,
      ⟨0x288, 4, 1, 4, 1, .ro, 0x0, 0x0, 0x0, false⟩ /- EMACn_LDDROP -/,
      ⟨0x240, 4, 1, 4, 1, .ro, 0x0, 0x0, 0x0, false⟩ /- EMACn_RX128_255 -/,
      ⟨0x28C, 4, 1, 4, 1, .ro, 0x0, 0x0, 0x0, false⟩ /- EMACn_PWDTRIP -/,
      ⟨0x244, 4, 1, 4, 1, .ro, 0x0, 0x0, 0x0, false⟩ /- EMACn_RX256_511 -/,
      ⟨0x290, 4, 1, 4, 1, .ro, 0x0, 0x0, 0x0, false⟩ /- EMACn_LINKDN -/,
      ⟨0x248, 4, 1, 4, 1, .ro, 0x0, 0x0, 0x0, false⟩ /- EMACn_RX512_1023 -/,
      ⟨0x294, 4, 1, 4, 1, .ro, 0x0, 0x0, 0x0, false⟩ /- EMACn_RX1024_1518 -/,
      ⟨0x100, 4, 1, 4, 1, .rws, 0xFF0F07, 0x0, 0x0, false⟩ /- EMACn_CFG -/,
      ⟨0x104, 4, 1, 4, 1, .rws, 0x3FFF, 0x0, 0x5F2, false⟩ /- EMACn_MAXFRM -/,
      ⟨0x108, 4, 1, 4, 1, .rws, 0x3FFFF03, 0x0, 0x640000, false⟩ /- EMACn_FC -/,
      ⟨0x10C, 4, 1, 4, 1, .rws, 0xFFFF, 0x0, 0xFFFF, false⟩ /- EMACn_PQ -/,
      ⟨0x110, 4, 1, 4, 1, .rws, 0x3, 0x0, 0x3, false⟩ /- EMACn_OFFLD -/,
      ⟨0x114, 4, 1, 4, 1, .rws, 0xFFFFFFFF, 0x0, 0x0, false⟩ /- EMACn_SMAC_LO -/,
      ⟨0x118, 4, 1, 4, 1, .rws, 0xFFFF, 0x0, 0x0, false⟩ /- EMACn_SMAC_HI -/,
      ⟨0x11C, 4, 1, 4, 1, .rw, 0x31, 0x0, 0x31, false⟩ /- EMACn_ANCTL -/,
      ⟨0x120, 4, 1, 4, 1, .ro, 0x0, 0x0, 0x0, false⟩ /- EMACn_STAT -/,
      ⟨0x124, 4, 1, 4, 1, .ro, 0x0, 0x0, 0x0, false⟩ /- EMACn_PWDSTAT -/,
      ⟨0x128, 4, 1, 4, 1, .ro, 0x0, 0x0, 0x0, false⟩ /- EMACn_OFFSTAT -/,
      ⟨0x12C, 4, 1, 4, 1, .wo, 0x0, 0x0, 0x0, false⟩ /- EMACn_CNTCLR -/]
  | .swc => [
      ⟨0x100, 4, 1, 4, 1, .rws, 0x1, 0x0, 0x1, false⟩ /- SWC_CTL -/,
      ⟨0x104, 4, 1, 4, 1, .rws, 0x3FFF, 0x0, 0x0, false⟩ /- SWC_FWDCTL -/,
      ⟨0x108, 4, 1, 4, 1, .rw, 0x1F, 0x0, 0x0, false⟩ /- SWC_IIDX -/,
      ⟨0x10C, 4, 1, 4, 1, .ro, 0x0, 0x0, 0x0, false⟩ /- SWC_ISDU -/,
      ⟨0x110, 4, 1, 4, 1, .ro, 0x0, 0x0, 0x0, false⟩ /- SWC_IPOLRED -/,
      ⟨0x114, 4, 1, 4, 1, .ro, 0x0, 0x0, 0x0, false⟩ /- SWC_IGATE -/,
      ⟨0x118, 4, 1, 4, 1, .ro, 0x0, 0x0, 0x0, false⟩ /- SWC_ICT -/,
      ⟨0x11C, 4, 1, 4, 1, .wo, 0x0, 0x0, 0x0, false⟩ /- SWC_CNTCLR -/,
      ⟨0x140, 4, 14, 4, 1, .rws, 0x7FFFFFF, 0x0, 0xFAC688, false⟩ /- SWC_PCPMAPp -/,
      ⟨0x180, 4, 14, 4, 1, .rws, 0xFF, 0x0, 0x0, false⟩ /- SWC_CBSENp -/,
      ⟨0x200, 32, 14, 4, 8, .rws, 0xFFFFFF, 0x0, 0x0, false⟩ /- SWC_ISLOPEp_c -/]
  | .qmg => [
      ⟨0x100, 4, 1, 4, 1, .rws, 0x3FFFFFFF, 0x0, 0x4004020, false⟩ /- QMG_IRSV -/,
      ⟨0x104, 4, 1, 4, 1, .rws, 0xFFFF, 0x0, 0x0, false⟩ /- QMG_HDRM -/,
      ⟨0x108, 4, 1, 4, 1, .rws, 0x3FF, 0x0, 0xA, false⟩ /- QMG_ISTALL -/,
      ⟨0x10C, 4, 1, 4, 1, .ro, 0x0, 0x0, 0x0, false⟩ /- QMG_OCC -/,
      ⟨0x110, 4, 1, 4, 1, .ro, 0x0, 0x0, 0xB000, false⟩ /- QMG_SFREE -/,
      ⟨0x114, 4, 1, 4, 1, .wo, 0x0, 0x0, 0x0, false⟩ /- QMG_FLUSH -/,
      ⟨0x118, 4, 1, 4, 1, .ro, 0x0, 0x0, 0x0, false⟩ /- QMG_FLSTAT -/,
      ⟨0x11C, 4, 1, 4, 1, .rw, 0x1F, 0x0, 0x0, false⟩ /- QMG_DIDX -/,
      ⟨0x120, 4, 1, 4, 1, .ro, 0x0, 0x0, 0x0, false⟩ /- QMG_DADMIT -/,
      ⟨0x124, 4, 1, 4, 1, .ro, 0x0, 0x0, 0x0, false⟩ /- QMG_DWRED -/,
      ⟨0x128, 4, 1, 4, 1, .ro, 0x0, 0x0, 0x0, false⟩ /- QMG_DFLUSH -/,
      ⟨0x12C, 4, 1, 4, 1, .ro, 0x0, 0x0, 0x0, false⟩ /- QMG_DSTALL -/,
      ⟨0x130, 4, 1, 4, 1, .ro, 0x0, 0x0, 0x0, false⟩ /- QMG_DTKT -/,
      ⟨0x140, 4, 8, 4, 1, .ro, 0x0, 0x0, 0x0, false⟩ /- QMG_DDLc -/,
      ⟨0x160, 4, 1, 4, 1, .wo, 0x0, 0x0, 0x0, false⟩ /- QMG_CNTCLR -/,
      ⟨0x200, 4, 18, 4, 1, .rws, 0xF00003FF, 0x0, 0x60000010, false⟩ /- QMG_QLIMp -/,
      ⟨0x280, 4, 18, 4, 1, .rws, 0xFFFFFFFF, 0x0, 0x0, false⟩ /- QMG_WMAPp -/,
      ⟨0x300, 4, 12, 4, 1, .rws, 0xFFFFFFFF, 0x0, 0x4000200, false⟩ /- QMG_PFCp -/,
      ⟨0x400, 16, 18, 4, 4, .rws, 0xFFFFFFFF, 0x0, 0x0, false⟩ /- QMG_DLp_k -/,
      ⟨0x600, 32, 16, 4, 1, .rws, 0xF, 0x0, 0x0, false⟩ /- WRED profile j, word 0 -/,
      ⟨0x604, 32, 16, 8, 3, .rws, 0xFFFFFFFF, 0x0, 0x0, false⟩ /- words 1, 3, 5 -/,
      ⟨0x608, 32, 16, 8, 3, .rws, 0xFF, 0x0, 0x0, false⟩ /- words 2, 4, 6 -/,
      ⟨0x61C, 32, 16, 4, 1, .rws, 0x0, 0x0, 0x0, false⟩ /- word 7 -/]
  | .tkt => [
      ⟨0x100, 4, 1, 4, 1, .rws, 0xFF01, 0x0, 0xF00, false⟩ /- TKT_CTL -/,
      ⟨0x104, 4, 1, 4, 1, .rws, 0xFFF0FFF, 0x0, 0x800, false⟩ /- TKT_REGION -/,
      ⟨0x108, 4, 1, 4, 1, .rws, 0xFFFFFFFF, 0x0, 0x20000100, false⟩ /- TKT_THR -/,
      ⟨0x10C, 4, 1, 4, 1, .rws, 0xFFF, 0x0, 0x40, false⟩ /- TKT_QLIM -/,
      ⟨0x110, 4, 1, 4, 1, .rws, 0x3F, 0x0, 0x14, false⟩ /- TKT_WRES -/,
      ⟨0x114, 4, 1, 4, 1, .rws, 0x1, 0x0, 0x0, false⟩ /- TKT_SRCTL -/,
      ⟨0x118, 4, 1, 4, 1, .ro, 0x0, 0x0, 0x0, false⟩ /- TKT_USED -/,
      ⟨0x11C, 4, 1, 4, 1, .ro, 0x0, 0x0, 0x0, false⟩ /- TKT_PEAK -/,
      ⟨0x120, 4, 1, 4, 1, .ro, 0x0, 0x0, 0x0, false⟩ /- TKT_SPILLED -/,
      ⟨0x124, 4, 1, 4, 1, .ro, 0x0, 0x0, 0x0, false⟩ /- TKT_CRCERR -/,
      ⟨0x128, 4, 1, 4, 1, .ro, 0x0, 0x0, 0x0, false⟩ /- TKT_FULL -/,
      ⟨0x12C, 4, 1, 4, 1, .wo, 0x0, 0x0, 0x0, false⟩ /- TKT_CNTCLR -/]
  | .pol => [
      ⟨0x100, 4, 1, 4, 1, .rws, 0xF, 0x0, 0x3, false⟩ /- POL_CTL -/,
      ⟨0x104, 4, 1, 4, 1, .rws, 0x3FFFF, 0x0, 0x0, false⟩ /- POL_CAWARE -/,
      ⟨0x110, 4, 1, 4, 1, .rw, 0x3FF, 0x0, 0x0, false⟩ /- POL_PIDX -/,
      ⟨0x114, 4, 1, 4, 1, .rw, 0xFFFFFF, 0x0, 0x0, false⟩ /- POL_PCIR -/,
      ⟨0x118, 4, 1, 4, 1, .rw, 0xFFFFFF, 0x0, 0x0, false⟩ /- POL_PPIR -/,
      ⟨0x11C, 4, 1, 4, 1, .rw, 0xFFFFFF, 0x0, 0x0, false⟩ /- POL_PCBS -/,
      ⟨0x120, 4, 1, 4, 1, .rw, 0xFFFFFF, 0x0, 0x0, false⟩ /- POL_PPBS -/,
      ⟨0x124, 4, 1, 4, 1, .rw, 0x1, 0x0, 0x1, false⟩ /- POL_PMODE -/,
      ⟨0x128, 4, 1, 4, 1, .wo, 0x0, 0x0, 0x0, false⟩ /- POL_PCMD -/,
      ⟨0x12C, 4, 1, 4, 1, .ro, 0x0, 0x0, 0x0, false⟩ /- POL_CGREEN -/,
      ⟨0x130, 4, 1, 4, 1, .ro, 0x0, 0x0, 0x0, false⟩ /- POL_CYELLOW -/,
      ⟨0x134, 4, 1, 4, 1, .ro, 0x0, 0x0, 0x0, false⟩ /- POL_CRED -/,
      ⟨0x140, 4, 1, 4, 1, .rw, 0x3FF, 0x0, 0x0, false⟩ /- POL_FIDX -/,
      ⟨0x144, 4, 1, 4, 1, .rw, 0xFFFFFFFF, 0x0, 0x0, false⟩ /- POL_FW0 -/,
      ⟨0x148, 4, 1, 4, 1, .rw, 0x0FFFFFFF, 0x0, 0x0, false⟩ /- POL_FW1 -/,
      ⟨0x14C, 4, 1, 4, 1, .rw, 0xEFF3FFFF, 0x0, 0x0, false⟩ /- POL_FW2 -/,
      ⟨0x150, 4, 1, 4, 1, .rw, 0xFFFFE3FF, 0x0, 0x0, false⟩ /- POL_FW3 -/,
      ⟨0x154, 4, 1, 4, 1, .wo, 0x0, 0x0, 0x0, false⟩ /- POL_FCMD -/,
      ⟨0x158, 4, 1, 4, 1, .ro, 0x0, 0x0, 0x0, false⟩ /- POL_FMATCH -/,
      ⟨0x15C, 4, 1, 4, 1, .wo, 0x0, 0x0, 0x0, false⟩ /- POL_CNTCLR -/]
  | .mact => [
      ⟨0x100, 4, 1, 4, 1, .rws, 0x3, 0x0, 0x1, false⟩ /- MACT_CTL -/,
      ⟨0x104, 4, 1, 4, 1, .rws, 0xFF, 0x0, 0x28, false⟩ /- MACT_AGE -/,
      ⟨0x108, 4, 1, 4, 1, .ro, 0x0, 0x0, 0x0, false⟩ /- MACT_OCC -/,
      ⟨0x10C, 4, 1, 4, 1, .ro, 0x0, 0x0, 0x0, false⟩ /- MACT_OVOCC -/,
      ⟨0x110, 4, 1, 4, 1, .ro, 0x0, 0x0, 0xFFFFFFFF, false⟩ /- MACT_SEED0 -/,
      ⟨0x114, 4, 1, 4, 1, .ro, 0x0, 0x0, 0x0, false⟩ /- MACT_SEED1 -/,
      ⟨0x118, 4, 1, 4, 1, .ro, 0x0, 0x0, 0xA5A5A5A5, false⟩ /- MACT_SEED2 -/,
      ⟨0x11C, 4, 1, 4, 1, .ro, 0x0, 0x0, 0x5A5A5A5A, false⟩ /- MACT_SEED3 -/,
      ⟨0x120, 4, 1, 4, 1, .rw, 0xFF, 0x0, 0x0, false⟩ /- MACT_OIDX -/,
      ⟨0x124, 4, 1, 4, 1, .rw, 0xFFFFFFFF, 0x0, 0x0, false⟩ /- MACT_OW0 -/,
      ⟨0x128, 4, 1, 4, 1, .rw, 0x0FFFFFFF, 0x0, 0x0, false⟩ /- MACT_OW1 -/,
      ⟨0x12C, 4, 1, 4, 1, .rw, 0xEE03FFFF, 0x0, 0x0, false⟩ /- MACT_OW2 -/,
      ⟨0x130, 4, 1, 4, 1, .rw, 0x80000000, 0x0, 0x0, false⟩ /- MACT_OW3 -/,
      ⟨0x134, 4, 1, 4, 1, .wo, 0x0, 0x0, 0x0, false⟩ /- MACT_OCMD -/,
      ⟨0x138, 4, 1, 4, 1, .wo, 0x0, 0x0, 0x0, false⟩ /- MACT_FLUSH -/,
      ⟨0x13C, 4, 1, 4, 1, .ro, 0x0, 0x0, 0x0, false⟩ /- MACT_FLSTAT -/,
      ⟨0x140, 4, 1, 4, 1, .rw, 0xFFF, 0x0, 0x0, false⟩ /- MACT_VIDX -/,
      ⟨0x144, 4, 1, 4, 1, .rw, 0x3FFFF, 0x0, 0x0, false⟩ /- MACT_VMEM -/,
      ⟨0x148, 4, 1, 4, 1, .rw, 0x3FFFF, 0x0, 0x0, false⟩ /- MACT_VUNTAG -/,
      ⟨0x14C, 4, 1, 4, 1, .rw, 0x80003FFF, 0x0, 0x0, false⟩ /- MACT_VCFG -/,
      ⟨0x150, 4, 1, 4, 1, .wo, 0x0, 0x0, 0x0, false⟩ /- MACT_VCMD -/,
      ⟨0x160, 4, 1, 4, 1, .ro, 0x0, 0x0, 0x0, false⟩ /- MACT_LEARNED -/,
      ⟨0x164, 4, 1, 4, 1, .ro, 0x0, 0x0, 0x0, false⟩ /- MACT_LRNFAIL -/,
      ⟨0x168, 4, 1, 4, 1, .ro, 0x0, 0x0, 0x0, false⟩ /- MACT_LRNDROP -/,
      ⟨0x16C, 4, 1, 4, 1, .ro, 0x0, 0x0, 0x0, false⟩ /- MACT_LRNLIM -/,
      ⟨0x170, 4, 1, 4, 1, .ro, 0x0, 0x0, 0x0, false⟩ /- MACT_MOVES -/,
      ⟨0x174, 4, 1, 4, 1, .ro, 0x0, 0x0, 0x0, false⟩ /- MACT_SAVIOL -/,
      ⟨0x178, 4, 1, 4, 1, .ro, 0x0, 0x0, 0x0, false⟩ /- MACT_AGED -/,
      ⟨0x17C, 4, 1, 4, 1, .ro, 0x0, 0x0, 0x0, false⟩ /- MACT_RELOC -/,
      ⟨0x180, 4, 1, 4, 1, .ro, 0x0, 0x0, 0x0, false⟩ /- MACT_UNKFLOOD -/,
      ⟨0x184, 4, 1, 4, 1, .ro, 0x0, 0x0, 0x0, false⟩ /- MACT_VDROP -/,
      ⟨0x188, 4, 1, 4, 1, .ro, 0x0, 0x0, 0x0, false⟩ /- MACT_NODEST -/,
      ⟨0x18C, 4, 1, 4, 1, .ro, 0x0, 0x0, 0x0, false⟩ /- MACT_EGLEN -/,
      ⟨0x190, 4, 1, 4, 1, .wo, 0x0, 0x0, 0x0, false⟩ /- MACT_CNTCLR -/,
      ⟨0x194, 4, 1, 4, 1, .ro, 0x0, 0x0, 0x0, false⟩ /- MACT_LFAIL_LO -/,
      ⟨0x198, 4, 1, 4, 1, .ro, 0x0, 0x0, 0x0, false⟩ /- MACT_LFAIL_HI -/,
      ⟨0x200, 4, 18, 4, 1, .rws, 0xFFF1FFFF, 0x0, 0xC001, false⟩ /- MACT_PCFGp -/,
      ⟨0x280, 4, 18, 4, 1, .ro, 0x0, 0x0, 0x0, false⟩ /- MACT_PLRNp -/]
  | .lpm => [
      ⟨0x100, 4, 1, 4, 1, .rws, 0xFFF0007, 0x0, 0x8000000, false⟩ /- LPM_CTL -/,
      ⟨0x104, 4, 1, 4, 1, .rws, 0xFFFFFFFF, 0x0, 0x0, false⟩ /- LPM_RMAC_LO -/,
      ⟨0x108, 4, 1, 4, 1, .rws, 0xFFFF, 0x0, 0x0, false⟩ /- LPM_RMAC_HI -/,
      ⟨0x10C, 4, 1, 4, 1, .wo, 0x0, 0x0, 0x0, false⟩ /- LPM_MOVE -/,
      ⟨0x110, 4, 1, 4, 1, .ro, 0x0, 0x0, 0x0, false⟩ /- LPM_MVSTAT -/,
      ⟨0x114, 4, 1, 4, 1, .wo, 0x0, 0x0, 0x0, false⟩ /- LPM_CHECK -/,
      ⟨0x118, 4, 1, 4, 1, .ro, 0x0, 0x0, 0x0, false⟩ /- LPM_CHKSTAT -/,
      ⟨0x120, 4, 1, 4, 1, .ro, 0x0, 0x0, 0x0, false⟩ /- LPM_ROUTED -/,
      ⟨0x124, 4, 1, 4, 1, .ro, 0x0, 0x0, 0x0, false⟩ /- LPM_MISS -/,
      ⟨0x128, 4, 1, 4, 1, .ro, 0x0, 0x0, 0x0, false⟩ /- LPM_EXC -/,
      ⟨0x12C, 4, 1, 4, 1, .ro, 0x0, 0x0, 0x0, false⟩ /- LPM_NHMISS -/,
      ⟨0x130, 4, 1, 4, 1, .wo, 0x0, 0x0, 0x0, false⟩ /- LPM_CNTCLR -/]
  | .tsy => [
      ⟨0x100, 4, 1, 4, 1, .rw, 0x7, 0x0, 0x6, false⟩ /- TSY_CTL -/,
      ⟨0x104, 4, 1, 4, 1, .rwg, 0x1, 0x0, 0x0, false⟩ /- TSY_OWN -/,
      ⟨0x108, 4, 1, 4, 1, .ro, 0x0, 0x0, 0x0, false⟩ /- TSY_STAT -/,
      ⟨0x10C, 4, 1, 4, 1, .ro, 0x0, 0x0, 0x0, false⟩ /- TSY_NOW_NS -/,
      ⟨0x110, 4, 1, 4, 1, .ro, 0x0, 0x0, 0x0, false⟩ /- TSY_NOW_SL -/,
      ⟨0x114, 4, 1, 4, 1, .ro, 0x0, 0x0, 0x0, false⟩ /- TSY_NOW_SH -/,
      ⟨0x118, 4, 1, 4, 1, .ro, 0x0, 0x0, 0x0, false⟩ /- TSY_NOW32 -/,
      ⟨0x11C, 4, 1, 4, 1, .rw, 0x0, 0x0, 0x0, false⟩ /- TSY_RATE -/,
      ⟨0x120, 4, 1, 4, 1, .rw, 0xFFFFFFFF, 0x0, 0x0, false⟩ /- TSY_ADJ_NS -/,
      ⟨0x124, 4, 1, 4, 1, .rw, 0xFFFFFFFF, 0x0, 0x0, false⟩ /- TSY_ADJ_SL -/,
      ⟨0x128, 4, 1, 4, 1, .rw, 0xFFFF, 0x0, 0x0, false⟩ /- TSY_ADJ_SH -/,
      ⟨0x12C, 4, 1, 4, 1, .wo, 0x0, 0x0, 0x0, false⟩ /- TSY_ADJCTL -/,
      ⟨0x130, 4, 1, 4, 1, .wo, 0x0, 0x0, 0x0, false⟩ /- TSY_SYNC -/,
      ⟨0x134, 4, 1, 4, 1, .rw, 0xFFFF, 0x0, 0x0, false⟩ /- TSY_SYNCWD -/,
      ⟨0x138, 4, 1, 4, 1, .ro, 0x0, 0x0, 0x0, false⟩ /- TSY_TCCNT -/,
      ⟨0x13C, 4, 1, 4, 1, .ro, 0x0, 0x0, 0x0, false⟩ /- TSY_TCSKIP -/,
      ⟨0x140, 4, 1, 4, 1, .wo, 0x0, 0x0, 0x0, false⟩ /- TSY_CNTCLR -/,
      ⟨0x180, 4, 14, 4, 1, .rw, 0xFFFFFFFF, 0x0, 0x0, false⟩ /- TSY_PLATp -/,
      ⟨0x200, 32, 4, 4, 1, .rw, 0xFFFFFFFF, 0x0, 0x0, false⟩ /- TOUTn_NS -/,
      ⟨0x204, 32, 4, 4, 1, .rw, 0xFFFFFFFF, 0x0, 0x0, false⟩ /- TOUTn_SL -/,
      ⟨0x208, 32, 4, 4, 1, .rw, 0xFFFF, 0x0, 0x0, false⟩ /- TOUTn_SH -/,
      ⟨0x20C, 32, 4, 4, 1, .rw, 0xFFFFFFFF, 0x0, 0x0, false⟩ /- TOUTn_PER -/,
      ⟨0x210, 32, 4, 4, 1, .rw, 0xFFFFFFFF, 0x0, 0x0, false⟩ /- TOUTn_WID -/,
      ⟨0x214, 32, 4, 4, 1, .rw, 0x6, 0x0, 0x0, false⟩ /- TOUTn_CTL -/,
      ⟨0x218, 32, 4, 4, 1, .ro, 0x0, 0x0, 0x0, false⟩ /- TOUTn_SKIP -/,
      ⟨0x300, 16, 4, 4, 1, .ro, 0x0, 0x0, 0x0, false⟩ /- TCAPn_NS -/,
      ⟨0x304, 16, 4, 4, 1, .ro, 0x0, 0x0, 0x0, false⟩ /- TCAPn_SL -/,
      ⟨0x308, 16, 4, 4, 1, .ro, 0x0, 0x0, 0x0, false⟩ /- TCAPn_SH -/,
      ⟨0x340, 4, 1, 4, 1, .wo, 0x0, 0x0, 0x0, false⟩ /- TSY_KCORR -/,
      ⟨0x344, 4, 1, 4, 1, .ro, 0x0, 0x0, 0x0, true⟩ /- TSY_KRTC_LO -/,
      ⟨0x348, 4, 1, 4, 1, .ro, 0x0, 0x0, 0x0, false⟩ /- TSY_KRTC_HI -/,
      ⟨0x34C, 4, 1, 4, 1, .ro, 0x0, 0x0, 0x0, false⟩ /- TSY_KC_NS -/,
      ⟨0x350, 4, 1, 4, 1, .ro, 0x0, 0x0, 0x0, false⟩ /- TSY_KC_SL -/,
      ⟨0x354, 4, 1, 4, 1, .ro, 0x0, 0x0, 0x0, false⟩ /- TSY_KC_SH -/,
      ⟨0x358, 4, 1, 4, 1, .ro, 0x0, 0x0, 0x0, false⟩ /- TSY_KCSTAT -/,
      ⟨0x3C0, 4, 4, 4, 1, .rw, 0x3, 0x80000000, 0x0, false⟩ /- TCAPn_CTL -/]
  | .cry => [
      ⟨0x100, 4, 1, 4, 1, .rws, 0xF01, 0x0, 0x301, false⟩ /- CRY_CTL -/,
      ⟨0x104, 4, 1, 4, 1, .rws, 0x1, 0x0, 0x1, false⟩ /- CRY_CHKCTL -/,
      ⟨0x108, 4, 1, 4, 1, .rws, 0x1, 0x0, 0x0, false⟩ /- CRY_CLKCTL -/,
      ⟨0x10C, 4, 1, 4, 1, .ro, 0x0, 0x0, 0x0, false⟩ /- CRY_PIPESTAT -/,
      ⟨0x110, 4, 1, 4, 1, .wo, 0x0, 0x0, 0x0, false⟩ /- CRY_PIPECTL -/,
      ⟨0x114, 4, 1, 4, 1, .ro, 0x0, 0x0, 0x0, false⟩ /- CRY_JOBS -/,
      ⟨0x118, 4, 1, 4, 1, .ro, 0x0, 0x0, 0x0, false⟩ /- CRY_LASTERR -/,
      ⟨0x11C, 4, 1, 4, 1, .wo, 0x0, 0x0, 0x0, false⟩ /- CRY_CNTCLR -/,
      ⟨0x120, 4, 1, 4, 1, .ro, 0x0, 0x0, 0x0, false⟩ /- CRY_CMPERR -/,
      ⟨0x124, 4, 1, 4, 1, .ro, 0x0, 0x0, 0x0, false⟩ /- CRY_INVERR -/,
      ⟨0x128, 4, 1, 4, 1, .ro, 0x0, 0x0, 0x0, false⟩ /- CRY_KEYERR -/,
      ⟨0x12C, 4, 1, 4, 1, .ro, 0x0, 0x0, 0x0, false⟩ /- CRY_NOKEY -/,
      ⟨0x130, 4, 1, 4, 1, .ro, 0x0, 0x0, 0x0, false⟩ /- CRY_TAMPAB -/,
      ⟨0x134, 4, 1, 4, 1, .ro, 0x0, 0x0, 0x0, false⟩ /- CRY_MEMFAIL -/,
      ⟨0x200, 32, 4, 4, 1, .rw, 0xFFFFFFC0, 0x0, 0x0, true⟩ /- CRY_RBLOk -/,
      ⟨0x204, 32, 4, 4, 1, .rw, 0xFFFFFFFF, 0x0, 0x0, false⟩ /- CRY_RBHIk -/,
      ⟨0x208, 32, 4, 4, 1, .rw, 0x1FFF, 0x0, 0x2, false⟩ /- CRY_RSIZEk -/,
      ⟨0x20C, 32, 4, 4, 1, .ro, 0x0, 0x0, 0x0, false⟩ /- CRY_RHEADk -/,
      ⟨0x210, 32, 4, 4, 1, .rw, 0xFFF, 0x0, 0x0, false⟩ /- CRY_RTAILk -/,
      ⟨0x214, 32, 4, 4, 1, .rw, 0x1, 0x0, 0x0, false⟩ /- CRY_RCTLk -/,
      ⟨0x218, 32, 4, 4, 1, .ro, 0x0, 0x0, 0x0, false⟩ /- CRY_RDONEk -/]
  | .msec => [
      ⟨0x100, 4, 1, 4, 1, .rws, 0x1F01, 0x0, 0x1401, false⟩ /- MSEC_CTL -/,
      ⟨0x104, 4, 1, 4, 1, .rws, 0xFFFFFFFF, 0x0, 0xFFFF0000, false⟩ /- MSEC_PNWARN -/,
      ⟨0x108, 4, 1, 4, 1, .rw, 0xF, 0x0, 0x0, false⟩ /- MSEC_PIDX -/,
      ⟨0x10C, 4, 1, 4, 1, .ro, 0x0, 0x0, 0x0, false⟩ /- MSEC_PNOTAG -/,
      ⟨0x110, 4, 1, 4, 1, .ro, 0x0, 0x0, 0x0, false⟩ /- MSEC_PBADTAG -/,
      ⟨0x114, 4, 1, 4, 1, .ro, 0x0, 0x0, 0x0, false⟩ /- MSEC_PNOSCI -/,
      ⟨0x118, 4, 1, 4, 1, .ro, 0x0, 0x0, 0x0, false⟩ /- MSEC_PUNKSCI -/,
      ⟨0x11C, 4, 1, 4, 1, .ro, 0x0, 0x0, 0x0, false⟩ /- MSEC_PNOSA -/,
      ⟨0x120, 4, 1, 4, 1, .ro, 0x0, 0x0, 0x0, false⟩ /- MSEC_PUNCHK -/,
      ⟨0x124, 4, 1, 4, 1, .ro, 0x0, 0x0, 0x0, false⟩ /- MSEC_PUNTAG -/,
      ⟨0x128, 4, 1, 4, 1, .ro, 0x0, 0x0, 0x0, false⟩ /- MSEC_PTXLEN -/,
      ⟨0x12C, 4, 1, 4, 1, .ro, 0x0, 0x0, 0x0, false⟩ /- MSEC_PTXNOSA -/,
      ⟨0x130, 4, 1, 4, 1, .wo, 0x0, 0x0, 0x0, false⟩ /- MSEC_CNTCLR -/,
      ⟨0x134, 4, 1, 4, 1, .ro, 0x0, 0x0, 0x0, false⟩ /- MSEC_LASTWARN -/,
      ⟨0x140, 4, 14, 4, 1, .rws, 0x7, 0x0, 0x4, false⟩ /- MSEC_PCFGp -/,
      ⟨0x180, 4, 1, 4, 1, .rw, 0x7F, 0x0, 0x0, false⟩ /- MSEC_SCIDX -/,
      ⟨0x184, 4, 2, 4, 1, .rw, 0xFFFFFFFF, 0x0, 0x0, false⟩ /- MSEC_SCW0, SCW1 -/,
      ⟨0x18C, 4, 1, 4, 1, .rw, 0xFFC30000, 0x0, 0x0, false⟩ /- MSEC_SCW2 -/,
      ⟨0x190, 4, 2, 4, 1, .rw, 0xFFFFFFFF, 0x0, 0x0, false⟩ /- MSEC_SCW3, SCW4 -/,
      ⟨0x198, 4, 1, 4, 1, .wo, 0x0, 0x0, 0x0, false⟩ /- MSEC_SCCMD -/,
      ⟨0x1A0, 4, 1, 4, 1, .rw, 0xFF, 0x0, 0x0, false⟩ /- MSEC_SAIDX -/,
      ⟨0x1A4, 4, 1, 4, 1, .rw, 0x800001FF, 0x0, 0x0, false⟩ /- MSEC_SAW0 -/,
      ⟨0x1A8, 4, 6, 4, 1, .rw, 0xFFFFFFFF, 0x0, 0x0, false⟩ /- MSEC_SAW1-SAW6 -/,
      ⟨0x1C0, 4, 1, 4, 1, .rw, 0x0, 0x0, 0x0, false⟩ /- MSEC_SAW7 -/,
      ⟨0x1C4, 4, 1, 4, 1, .wo, 0x0, 0x0, 0x0, false⟩ /- MSEC_SACMD -/,
      ⟨0x1C8, 4, 4, 4, 1, .ro, 0x0, 0x0, 0x0, false⟩ /- MSEC_SACNTk -/]
  | .cauth => [
      ⟨0x100, 4, 1, 4, 1, .rws, 0xBF001F01, 0x0, 0x1401, false⟩ /- CAUTH_CTL -/,
      ⟨0x104, 4, 1, 4, 1, .rw, 0x1FF, 0x0, 0x0, false⟩ /- CAUTH_AIDX -/,
      ⟨0x108, 4, 1, 4, 1, .rw, 0xFFFFFFFF, 0x0, 0x0, false⟩ /- CAUTH_AW0 -/,
      ⟨0x10C, 4, 1, 4, 1, .rw, 0xFDFFFF00, 0x0, 0x0, false⟩ /- CAUTH_AW1 -/,
      ⟨0x110, 4, 2, 4, 1, .rw, 0xFFFFFFFF, 0x0, 0x0, false⟩ /- CAUTH_AW2, AW3 -/,
      ⟨0x118, 4, 1, 4, 1, .wo, 0x0, 0x0, 0x0, false⟩ /- CAUTH_ACMD -/,
      ⟨0x120, 4, 1, 4, 1, .rw, 0xFFF, 0x0, 0x0, false⟩ /- CAUTH_FIDX -/,
      ⟨0x124, 4, 1, 4, 1, .rw, 0xFFFFFFFF, 0x0, 0x0, true⟩ /- CAUTH_FLO -/,
      ⟨0x128, 4, 1, 4, 1, .rw, 0xFFFFFFFF, 0x0, 0x0, false⟩ /- CAUTH_FHI -/,
      ⟨0x12C, 4, 1, 4, 1, .wo, 0x0, 0x0, 0x0, false⟩ /- CAUTH_FCMD -/,
      ⟨0x130, 4, 1, 4, 1, .ro, 0x0, 0x0, 0x0, false⟩ /- CAUTH_TXOK -/,
      ⟨0x134, 4, 1, 4, 1, .ro, 0x0, 0x0, 0x0, false⟩ /- CAUTH_RXOK -/,
      ⟨0x138, 4, 1, 4, 1, .ro, 0x0, 0x0, 0x0, false⟩ /- CAUTH_MACFAIL -/,
      ⟨0x13C, 4, 1, 4, 1, .ro, 0x0, 0x0, 0x0, false⟩ /- CAUTH_FRESHFAIL -/,
      ⟨0x140, 4, 1, 4, 1, .ro, 0x0, 0x0, 0x0, false⟩ /- CAUTH_SHORT -/,
      ⟨0x144, 4, 1, 4, 1, .ro, 0x0, 0x0, 0x0, false⟩ /- CAUTH_TXLEN -/,
      ⟨0x148, 4, 1, 4, 1, .ro, 0x0, 0x0, 0x0, false⟩ /- CAUTH_FVEXH -/,
      ⟨0x14C, 4, 1, 4, 1, .wo, 0x0, 0x0, 0x0, false⟩ /- CAUTH_CNTCLR -/,
      ⟨0x150, 4, 1, 4, 1, .ro, 0x0, 0x0, 0x0, false⟩ /- CAUTH_LASTFAIL -/]
  | .yew => [
      ⟨0x100, 4, 1, 4, 1, .ro, 0x0, 0x0, 0x0, false⟩ /- YEW_STAT -/,
      ⟨0x104, 4, 4, 4, 1, .ro, 0x0, 0x0, 0x0, false⟩ /- YEW_IDk -/,
      ⟨0x114, 4, 1, 4, 1, .ro, 0x0, 0x0, 0x0, true⟩ /- YEW_UCNT_LO -/,
      ⟨0x118, 4, 1, 4, 1, .ro, 0x0, 0x0, 0x0, false⟩ /- YEW_UCNT_HI -/,
      ⟨0x11C, 4, 1, 4, 1, .wo, 0x0, 0x0, 0x0, false⟩ /- YEW_UCMD -/,
      ⟨0x120, 4, 1, 4, 1, .ro, 0x0, 0x0, 0x0, false⟩ /- YEW_URES -/,
      ⟨0x124, 4, 1, 4, 1, .rwg, 0x0, 0x0, 0x0, false⟩ /- YEW_REKEY -/,
      ⟨0x128, 4, 1, 4, 1, .rw, 0x1FF, 0x0, 0x0, false⟩ /- YEW_SIDX -/,
      ⟨0x12C, 4, 1, 4, 1, .ro, 0x0, 0x0, 0x0, false⟩ /- YEW_SATTR -/,
      ⟨0x130, 4, 1, 4, 1, .ro, 0x0, 0x0, 0x0, false⟩ /- YEW_SLABEL -/,
      ⟨0x134, 4, 1, 4, 1, .ro, 0x0, 0x0, 0x0, false⟩ /- YEW_RECERR -/,
      ⟨0x138, 4, 1, 4, 1, .ro, 0x0, 0x0, 0x0, false⟩ /- YEW_UPDOK -/,
      ⟨0x13C, 4, 1, 4, 1, .ro, 0x0, 0x0, 0x0, false⟩ /- YEW_UPDFAIL -/,
      ⟨0x140, 4, 1, 4, 1, .wo, 0x0, 0x0, 0x0, false⟩ /- YEW_CNTCLR -/,
      ⟨0x180, 4, 21, 4, 1, .rw, 0xFFFFFFFF, 0x0, 0x0, false⟩ /- YEW_UMSGk -/,
      ⟨0x1E0, 4, 4, 4, 1, .ro, 0x0, 0x0, 0x0, false⟩ /- YEW_CONFk -/]
  | .hif => [
      ⟨0x100, 4, 1, 4, 1, .rw, 0xF, 0x0, 0x5, false⟩ /- HIF_CTL -/,
      ⟨0x104, 4, 1, 4, 1, .ro, 0x0, 0x0, 0x0, false⟩ /- HIF_STAT -/,
      ⟨0x108, 4, 1, 4, 1, .wo, 0x0, 0x0, 0x0, false⟩ /- HIF_EOI -/,
      ⟨0x10C, 4, 4, 4, 1, .ro, 0x0, 0x0, 0x0, false⟩ /- HIF_VLEVELk -/,
      ⟨0x11C, 4, 1, 4, 1, .rw, 0x3F3F3F3F, 0x0, 0x0, false⟩ /- HIF_SWQ0 -/,
      ⟨0x120, 4, 1, 4, 1, .rw, 0x3F3F3F3F, 0x0, 0x0, false⟩ /- HIF_SWQ1 -/,
      ⟨0x124, 4, 1, 4, 1, .ro, 0x0, 0x0, 0x0, false⟩ /- HIF_CPLTO -/,
      ⟨0x128, 4, 1, 4, 1, .ro, 0x0, 0x0, 0x0, false⟩ /- HIF_RXERR -/,
      ⟨0x12C, 4, 1, 4, 1, .ro, 0x0, 0x0, 0x0, false⟩ /- HIF_LINKDN -/,
      ⟨0x130, 4, 1, 4, 1, .wo, 0x0, 0x0, 0x0, false⟩ /- HIF_CNTCLR -/]
  | .hq => [
      ⟨0x100, 4, 1, 4, 1, .rw, 0x7F, 0x0, 0x0, false⟩ /- HQ_QIDX -/,
      ⟨0x104, 4, 1, 4, 1, .rw, 0xFFFFFFE0, 0x0, 0x0, true⟩ /- HQ_QBLO -/,
      ⟨0x108, 4, 1, 4, 1, .rw, 0xFFFFFFFF, 0x0, 0x0, false⟩ /- HQ_QBHI -/,
      ⟨0x10C, 4, 1, 4, 1, .rw, 0x1FFF, 0x0, 0x2, false⟩ /- HQ_QSIZE -/,
      ⟨0x110, 4, 1, 4, 1, .rw, 0x803F33FF, 0x0, 0x10, false⟩ /- HQ_QCFG -/,
      ⟨0x114, 4, 1, 4, 1, .rw, 0xFFFFFFFF, 0x0, 0x0, false⟩ /- HQ_QIRQ -/,
      ⟨0x118, 4, 1, 4, 1, .wo, 0x0, 0x0, 0x0, false⟩ /- HQ_QCMD -/,
      ⟨0x11C, 4, 1, 4, 1, .wo, 0x0, 0x0, 0x0, false⟩ /- HQ_QRESET -/,
      ⟨0x120, 4, 1, 4, 1, .ro, 0x0, 0x0, 0x0, false⟩ /- HQ_QDONE -/,
      ⟨0x124, 4, 1, 4, 1, .ro, 0x0, 0x0, 0x0, false⟩ /- HQ_QBAD -/,
      ⟨0x128, 4, 1, 4, 1, .ro, 0x0, 0x0, 0x0, false⟩ /- HQ_RXNOBUF -/,
      ⟨0x200, 8, 64, 4, 1, .rw, 0xFFF, 0x0, 0x0, false⟩ /- HQ_TXTAILq -/,
      ⟨0x204, 8, 64, 4, 1, .ro, 0x0, 0x0, 0x0, false⟩ /- HQ_TXHEADq -/,
      ⟨0x400, 8, 64, 4, 1, .rw, 0xFFF, 0x0, 0x0, false⟩ /- HQ_RXTAILq -/,
      ⟨0x404, 8, 64, 4, 1, .ro, 0x0, 0x0, 0x0, false⟩ /- HQ_RXHEADq -/]
  | .dma => [
      ⟨0x100, 4, 1, 4, 1, .rw, 0x1, 0x0, 0x1, false⟩ /- DMA_CTL -/,
      ⟨0x104, 4, 1, 4, 1, .ro, 0x0, 0x0, 0x0, false⟩ /- DMA_HALT0 -/,
      ⟨0x108, 4, 1, 4, 1, .ro, 0x0, 0x0, 0x0, false⟩ /- DMA_HALT1 -/,
      ⟨0x10C, 4, 1, 4, 1, .wo, 0x0, 0x0, 0x0, false⟩ /- DMA_RESET0 -/,
      ⟨0x110, 4, 1, 4, 1, .wo, 0x0, 0x0, 0x0, false⟩ /- DMA_RESET1 -/,
      ⟨0x114, 4, 1, 4, 1, .ro, 0x0, 0x0, 0x0, false⟩ /- DMA_GRP -/,
      ⟨0x118, 4, 1, 4, 1, .ro, 0x0, 0x0, 0x0, false⟩ /- DMA_OUTST -/]
  | .dmach => [
      ⟨0x100, 4, 1, 4, 1, .rw, 0x0, 0x0, 0x0, false⟩ /- DMACHn_CTL -/,
      ⟨0x104, 4, 1, 4, 1, .ro, 0x0, 0x0, 0x0, false⟩ /- DMACHn_STAT -/,
      ⟨0x108, 4, 1, 4, 1, .rw, 0xFFFFFFE0, 0x0, 0x0, true⟩ /- DMACHn_RBLO -/,
      ⟨0x10C, 4, 1, 4, 1, .rw, 0xFFFFFFFF, 0x0, 0x0, false⟩ /- DMACHn_RBHI -/,
      ⟨0x110, 4, 1, 4, 1, .rw, 0x1FFF, 0x0, 0x2, false⟩ /- DMACHn_RSIZE -/,
      ⟨0x114, 4, 1, 4, 1, .ro, 0x0, 0x0, 0x0, false⟩ /- DMACHn_RHEAD -/,
      ⟨0x118, 4, 1, 4, 1, .rw, 0xFFF, 0x0, 0x0, false⟩ /- DMACHn_RTAIL -/,
      ⟨0x11C, 4, 1, 4, 1, .rw, 0x3FFFFFFF, 0x0, 0x1010100, false⟩ /- DMACHn_RATE -/,
      ⟨0x120, 4, 1, 4, 1, .ro, 0x0, 0x0, 0x0, true⟩ /- DMACHn_ERRADDR_LO -/,
      ⟨0x124, 4, 1, 4, 1, .ro, 0x0, 0x0, 0x0, false⟩ /- DMACHn_ERRADDR_HI -/,
      ⟨0x128, 4, 1, 4, 1, .ro, 0x0, 0x0, 0x0, false⟩ /- DMACHn_ERRINFO -/,
      ⟨0x12C, 4, 1, 4, 1, .ro, 0x0, 0x0, 0x0, false⟩ /- DMACHn_HOLD -/,
      ⟨0x130, 4, 1, 4, 1, .ro, 0x0, 0x0, 0x0, false⟩ /- DMACHn_REM -/,
      ⟨0x134, 4, 1, 4, 1, .ro, 0x0, 0x0, 0x0, false⟩ /- DMACHn_DONE -/,
      ⟨0x138, 4, 1, 4, 1, .ro, 0x0, 0x0, 0x0, false⟩ /- DMACHn_BYTES -/,
      ⟨0x13C, 4, 1, 4, 1, .wo, 0x0, 0x0, 0x0, false⟩ /- DMACHn_CNTCLR -/,
      ⟨0x140, 4, 1, 4, 1, .ro, 0x0, 0x0, 0x0, false⟩ /- DMACHn_OUTST -/,
      ⟨0x144, 4, 1, 4, 1, .ro, 0x0, 0x0, 0x0, false⟩ /- DMACHn_CUR -/]
  | .xpl => [
      ⟨0x100, 4, 1, 4, 1, .rw, 0xF00, 0x0, 0x800, false⟩ /- XPL_CTL -/,
      ⟨0x104, 4, 1, 4, 1, .ro, 0x0, 0x0, 0x0, false⟩ /- XPL_STAT -/,
      ⟨0x108, 4, 1, 4, 1, .rw, 0x1FFFF, 0x0, 0x2004, false⟩ /- XPL_BRCTL -/,
      ⟨0x10C, 4, 1, 4, 1, .rw, 0x0, 0x0, 0xC, false⟩ /- XPL_LOCK -/,
      ⟨0x110, 4, 1, 4, 1, .ro, 0x0, 0x0, 0x0, false⟩ /- XPL_TRTIME -/,
      ⟨0x114, 4, 1, 4, 1, .ro, 0x0, 0x0, 0x0, false⟩ /- XPL_CRCERR -/,
      ⟨0x118, 4, 1, 4, 1, .ro, 0x0, 0x0, 0x0, false⟩ /- XPL_RESEND -/,
      ⟨0x11C, 4, 1, 4, 1, .ro, 0x0, 0x0, 0x0, false⟩ /- XPL_RETRY -/,
      ⟨0x120, 4, 1, 4, 1, .ro, 0x0, 0x0, 0x0, false⟩ /- XPL_COLL -/,
      ⟨0x124, 4, 1, 4, 1, .ro, 0x0, 0x0, 0x0, false⟩ /- XPL_LKBRK -/,
      ⟨0x128, 4, 1, 4, 1, .ro, 0x0, 0x0, 0x0, false⟩ /- XPL_LOSS -/,
      ⟨0x12C, 4, 1, 4, 1, .ro, 0x0, 0x0, 0x0, false⟩ /- XPL_PWLOST -/,
      ⟨0x130, 4, 1, 4, 1, .wo, 0x0, 0x0, 0x0, false⟩ /- XPL_CNTCLR -/]
  | .pwr => [
      ⟨0x100, 4, 1, 4, 1, .rwg, 0xF, 0x0, 0xA, false⟩ /- PWR_PFCFG -/,
      ⟨0x104, 4, 1, 4, 1, .rw, 0x101, 0x0, 0x1, false⟩ /- PWR_SAVECTL -/,
      ⟨0x108, 4, 1, 4, 1, .ro, 0x0, 0x0, 0x0, false⟩ /- PWR_STAT -/,
      ⟨0x10C, 4, 1, 4, 1, .ro, 0x0, 0x0, 0x0, false⟩ /- PWR_VMEAS -/,
      ⟨0x110, 4, 1, 4, 1, .rwg, 0x13, 0x0, 0x1, false⟩ /- PWR_BUCK -/,
      ⟨0x114, 4, 1, 4, 1, .rwg, 0xF0F, 0x0, 0x102, false⟩ /- PWR_SEQ -/,
      ⟨0x118, 4, 1, 4, 1, .rw, 0x1, 0x0, 0x0, false⟩ /- PWR_INH -/,
      ⟨0x11C, 4, 1, 4, 1, .ro, 0x0, 0x0, 0x0, false⟩ /- PWR_CAPEST -/,
      ⟨0x120, 4, 1, 4, 1, .ro, 0x0, 0x0, 0x0, false⟩ /- PWR_LASTSAVE -/,
      ⟨0x124, 4, 1, 4, 1, .ro, 0x0, 0x0, 0x0, false⟩ /- PWR_VHMIN -/,
      ⟨0x128, 4, 1, 4, 1, .ro, 0x0, 0x0, 0x0, false⟩ /- PWR_RIDECNT -/,
      ⟨0x12C, 4, 1, 4, 1, .ro, 0x0, 0x0, 0x0, false⟩ /- PWR_PFCNT -/,
      ⟨0x130, 4, 1, 4, 1, .wo, 0x0, 0x0, 0x0, false⟩ /- PWR_CNTCLR -/]
  | .wkn => [
      ⟨0x100, 4, 1, 4, 1, .rwg, 0xFFFFFF7B, 0x0, 0x1EC80A39, false⟩ /- WKN_CTL -/,
      ⟨0x104, 4, 1, 4, 1, .ro, 0x0, 0x0, 0x0, false⟩ /- WKN_STAT -/,
      ⟨0x108, 4, 1, 4, 1, .wo, 0x0, 0x0, 0x0, false⟩ /- WKN_SLEEP -/,
      ⟨0x10C, 4, 1, 4, 1, .rw, 0xFFFFFF, 0x0, 0x0, false⟩ /- WKN_HOLD -/,
      ⟨0x110, 4, 1, 4, 1, .wo, 0x0, 0x0, 0x0, false⟩ /- WKN_WREQ -/,
      ⟨0x114, 4, 1, 4, 1, .ro, 0x0, 0x0, 0x0, false⟩ /- WKN_WCAUSE -/,
      ⟨0x118, 4, 1, 4, 1, .ro, 0x0, 0x0, 0x0, true⟩ /- WKN_WRTC_LO -/,
      ⟨0x11C, 4, 1, 4, 1, .ro, 0x0, 0x0, 0x0, false⟩ /- WKN_WRTC_HI -/,
      ⟨0x120, 4, 1, 4, 1, .ro, 0x0, 0x0, 0x0, false⟩ /- WKN_ABORT -/,
      ⟨0x124, 4, 1, 4, 1, .ro, 0x0, 0x0, 0x0, false⟩ /- WKN_STAYREC -/,
      ⟨0x128, 4, 1, 4, 1, .ro, 0x0, 0x0, 0x0, false⟩ /- WKN_STAYID -/,
      ⟨0x12C, 4, 1, 4, 1, .rw, 0xFFFFFFFF, 0x0, 0x0, true⟩ /- WKN_RTCALM_LO -/,
      ⟨0x130, 4, 1, 4, 1, .rw, 0x80FFFFFF, 0x0, 0x0, false⟩ /- WKN_RTCALM_HI -/,
      ⟨0x134, 4, 1, 4, 1, .rw, 0xFFFFFF, 0x0, 0x6405FF, false⟩ /- WKN_WLCFG -/,
      ⟨0x140, 4, 6, 4, 1, .rw, 0xF0FF00FF, 0x0, 0x0, false⟩ /- WKN_LWCFGi -/,
      ⟨0x160, 4, 1, 4, 1, .rw, 0xFFFFFF, 0x0, 0xFFFFFF, false⟩ /- WKN_DOMk_MEM -/,
      ⟨0x168, 8, 7, 4, 1, .rw, 0xFFFFFF, 0x0, 0x0, false⟩ /- WKN_DOMk_MEM -/,
      ⟨0x164, 4, 1, 4, 1, .rw, 0xC3FF00FF, 0x0, 0x80640000, false⟩ /- WKN_DOMk_CFG -/,
      ⟨0x16C, 8, 7, 4, 1, .rw, 0xC3FF00FF, 0x0, 0x0, false⟩ /- WKN_DOMk_CFG -/,
      ⟨0x1A0, 4, 1, 4, 1, .ro, 0x0, 0x0, 0x0, false⟩ /- WKN_WAKECNT -/,
      ⟨0x1A4, 4, 1, 4, 1, .ro, 0x0, 0x0, 0x0, false⟩ /- WKN_LATECNT -/,
      ⟨0x1A8, 4, 1, 4, 1, .ro, 0x0, 0x0, 0x0, false⟩ /- WKN_ABORTCNT -/,
      ⟨0x1AC, 4, 1, 4, 1, .ro, 0x0, 0x0, 0x0, false⟩ /- WKN_FSCNT -/,
      ⟨0x1B0, 4, 1, 4, 1, .ro, 0x0, 0x0, 0x0, false⟩ /- WKN_STAYCNT -/,
      ⟨0x1B4, 4, 1, 4, 1, .wo, 0x0, 0x0, 0x0, false⟩ /- WKN_CNTCLR -/]
  | .trx => [
      ⟨0x100, 4, 1, 4, 1, .rw, 0x3, 0x0, 0x0, false⟩ /- TRXn_CTL -/,
      ⟨0x104, 4, 1, 4, 1, .rwg, 0xFFFF0000, 0x0, 0x35320000, false⟩ /- TRXn_CFG -/,
      ⟨0x108, 4, 1, 4, 1, .rwg, 0x3FFFFFFF, 0x0, 0x0, false⟩ /- TRXn_SWID -/,
      ⟨0x10C, 4, 1, 4, 1, .rwg, 0x1FFFFFFF, 0x0, 0x0, false⟩ /- TRXn_SWIDM -/,
      ⟨0x110, 4, 1, 4, 1, .rwg, 0x1F, 0x0, 0x0, false⟩ /- TRXn_SWDLC -/,
      ⟨0x114, 4, 1, 4, 1, .rwg, 0xFFFFFFFF, 0x0, 0x0, false⟩ /- TRXn_SWDM0 -/,
      ⟨0x118, 4, 1, 4, 1, .rwg, 0xFFFFFFFF, 0x0, 0x0, false⟩ /- TRXn_SWDM1 -/,
      ⟨0x11C, 4, 1, 4, 1, .rw, 0x3FFFFFFF, 0x0, 0x0, false⟩ /- TRXn_KAID -/,
      ⟨0x120, 4, 1, 4, 1, .rw, 0x1FFFFFFF, 0x0, 0x0, false⟩ /- TRXn_KAMASK -/,
      ⟨0x124, 4, 1, 4, 1, .ro, 0x0, 0x0, 0x0, false⟩ /- TRXn_STAT -/,
      ⟨0x128, 4, 1, 4, 1, .ro, 0x0, 0x0, 0x0, false⟩ /- TRXn_KALAST -/,
      ⟨0x12C, 4, 1, 4, 1, .ro, 0x0, 0x0, 0x0, false⟩ /- TRXn_KACNT -/,
      ⟨0x130, 4, 1, 4, 1, .ro, 0x0, 0x0, 0x0, false⟩ /- TRXn_WUFCNT -/,
      ⟨0x134, 4, 1, 4, 1, .ro, 0x0, 0x0, 0x0, false⟩ /- TRXn_FEOVF -/,
      ⟨0x138, 4, 1, 4, 1, .wo, 0x0, 0x0, 0x0, false⟩ /- TRXn_CNTCLR -/]
  | .t1sp => [
      ⟨0x100, 4, 1, 4, 1, .rw, 0x3, 0x0, 0x0, false⟩ /- T1SPm_CTL -/,
      ⟨0x104, 4, 1, 4, 1, .rw, 0xFFFFFF, 0x0, 0x8FF, false⟩ /- T1SPm_PLCA -/,
      ⟨0x108, 4, 1, 4, 1, .rw, 0xFFFF, 0x0, 0x8020, false⟩ /- T1SPm_PTIME -/,
      ⟨0x10C, 4, 1, 4, 1, .ro, 0x0, 0x0, 0x0, false⟩ /- T1SPm_STAT -/,
      ⟨0x110, 4, 1, 4, 1, .ro, 0x0, 0x0, 0x0, false⟩ /- T1SPm_COLL -/,
      ⟨0x114, 4, 1, 4, 1, .ro, 0x0, 0x0, 0x0, false⟩ /- T1SPm_BCNLOSS -/,
      ⟨0x118, 4, 1, 4, 1, .wo, 0x0, 0x0, 0x0, false⟩ /- T1SPm_CNTCLR -/]
  | .tmp => [
      ⟨0x100, 4, 1, 4, 1, .rwg, 0x0, 0x0, 0x40, false⟩ /- TMP_CTL -/,
      ⟨0x104, 4, 1, 4, 1, .rwg, 0x3C3, 0x0, 0x0, false⟩ /- TMP_SWCFG -/,
      ⟨0x108, 4, 1, 4, 1, .rwg, 0x3, 0x0, 0x2, false⟩ /- TMP_MESHCFG -/,
      ⟨0x10C, 4, 1, 4, 1, .ro, 0x0, 0x0, 0x0, false⟩ /- TMP_STAT -/,
      ⟨0x110, 4, 1, 4, 1, .ro, 0x0, 0x0, 0x0, false⟩ /- TMP_EVCNT -/,
      ⟨0x114, 4, 1, 4, 1, .wo, 0x0, 0x0, 0x0, false⟩ /- TMP_EVCLR -/,
      ⟨0x120, 12, 4, 4, 1, .ro, 0x0, 0x0, 0x0, false⟩ /- TMP_EVk_SRC -/,
      ⟨0x124, 12, 4, 4, 1, .ro, 0x0, 0x0, 0x0, false⟩ /- TMP_EVk_RTCLO -/,
      ⟨0x128, 12, 4, 4, 1, .ro, 0x0, 0x0, 0x0, false⟩ /- TMP_EVk_RTCHI -/,
      ⟨0x150, 4, 1, 4, 1, .ro, 0x0, 0x0, 0x0, true⟩ /- TMP_RTC_LO -/,
      ⟨0x154, 4, 1, 4, 1, .ro, 0x0, 0x0, 0x0, false⟩ /- TMP_RTC_HI -/]

namespace Reg

/-- PG_ID of the page at base b (R46). -/
abbrev PG_ID (b : Nat) : Nat := b + 0x0
/-- PG_CAP of the page at base b (R46). -/
abbrev PG_CAP (b : Nat) : Nat := b + 0x4
/-- PG_CTL of the page at base b (R46). -/
abbrev PG_CTL (b : Nat) : Nat := b + 0x8
/-- PG_STAT of the page at base b (R46). -/
abbrev PG_STAT (b : Nat) : Nat := b + 0xC
/-- PG_IST of the page at base b (R46). -/
abbrev PG_IST (b : Nat) : Nat := b + 0x10
/-- PG_IEN of the page at base b (R46). -/
abbrev PG_IEN (b : Nat) : Nat := b + 0x14
/-- PG_ISET of the page at base b (R46). -/
abbrev PG_ISET (b : Nat) : Nat := b + 0x18
/-- PG_IMAP of the page at base b (R46). -/
abbrev PG_IMAP (b : Nat) : Nat := b + 0x1C
/-- PG_CGRP of the page at base b (R46). -/
abbrev PG_CGRP (b : Nat) : Nat := b + 0x20
/-- PG_CSTAT of the page at base b (R46). -/
abbrev PG_CSTAT (b : Nat) : Nat := b + 0x24
/-- PG_UNLK of the page at base b (R46). -/
abbrev PG_UNLK (b : Nat) : Nat := b + 0x28
/-- PG_ERRADDR of the page at base b (R46). -/
abbrev PG_ERRADDR (b : Nat) : Nat := b + 0x2C
/-- Base of page CHIP (R41). -/
abbrev pgCHIP : Nat := 0x0
/-- Base of page CMT (R41). -/
abbrev pgCMT : Nat := 0x1000
/-- Base of page ERR (R41). -/
abbrev pgERR : Nat := 0x2000
/-- Base of page IRQ (R41). -/
abbrev pgIRQ : Nat := 0x3000
/-- Base of page OBS (R41). -/
abbrev pgOBS : Nat := 0x4000
/-- Base of page PAIR (R41). -/
abbrev pgPAIR : Nat := 0x5000
/-- Base of page LRL (R41). -/
abbrev pgLRL : Nat := 0x6000
/-- Base of page CANCn (R41). -/
abbrev pgCANC (n : Nat) : Nat := 0x100000 + 0x1000 * n
/-- Base of page PRV_CTL (R41). -/
abbrev pgPRV_CTL : Nat := 0x120000
/-- Base of page PRV_RTE (R41). -/
abbrev pgPRV_RTE : Nat := 0x121000
/-- Base of page PRV_SIG (R41). -/
abbrev pgPRV_SIG : Nat := 0x122000
/-- Base of page PRV_PDU (R41). -/
abbrev pgPRV_PDU : Nat := 0x123000
/-- Base of page BRM (R41). -/
abbrev pgBRM : Nat := 0x124000
/-- Base of page CLM (R41). -/
abbrev pgCLM : Nat := 0x125000
/-- Base of page TPE (R41). -/
abbrev pgTPE : Nat := 0x126000
/-- Base of page EMACn (R41). -/
abbrev pgEMAC (n : Nat) : Nat := 0x200000 + 0x1000 * n
/-- Base of page SWC (R41). -/
abbrev pgSWC : Nat := 0x210000
/-- Base of page QMG (R41). -/
abbrev pgQMG : Nat := 0x211000
/-- Base of page TKT (R41). -/
abbrev pgTKT : Nat := 0x212000
/-- Base of page POL (R41). -/
abbrev pgPOL : Nat := 0x213000
/-- Base of page MACT (R41). -/
abbrev pgMACT : Nat := 0x214000
/-- Base of page LPM (R41). -/
abbrev pgLPM : Nat := 0x215000
/-- Base of page TSY (R41). -/
abbrev pgTSY : Nat := 0x300000
/-- Base of page CRY (R41). -/
abbrev pgCRY : Nat := 0x400000
/-- Base of page MSEC (R41). -/
abbrev pgMSEC : Nat := 0x401000
/-- Base of page CAUTH (R41). -/
abbrev pgCAUTH : Nat := 0x402000
/-- Base of page YEW (R41). -/
abbrev pgYEW : Nat := 0x403000
/-- Base of page HIF (R41). -/
abbrev pgHIF : Nat := 0x500000
/-- Base of page HQ (R41). -/
abbrev pgHQ : Nat := 0x501000
/-- Base of page DMA (R41). -/
abbrev pgDMA : Nat := 0x502000
/-- Base of page DMACHn (R41). -/
abbrev pgDMACH (n : Nat) : Nat := 0x503000 + 0x1000 * n
/-- Base of page XPL (R41). -/
abbrev pgXPL : Nat := 0x600000
/-- Base of page PWR (R41). -/
abbrev pgPWR : Nat := 0x800000
/-- Base of page WKN (R41). -/
abbrev pgWKN : Nat := 0x801000
/-- Base of page TRXn (R41). -/
abbrev pgTRX (n : Nat) : Nat := 0x810000 + 0x1000 * n
/-- Base of page T1SPn (R41). -/
abbrev pgT1SP (n : Nat) : Nat := 0x820000 + 0x1000 * n
/-- Base of page TMP (R41). -/
abbrev pgTMP : Nat := 0x830000
/-- RWS. Global performance mode -/
abbrev CHIP_MODE : Nat := 0x140
/-- RWS. Per-block override enables -/
abbrev CHIP_MODE_OVR : Nat := 0x144
/-- RWS. Active table plan -/
abbrev CHIP_PLAN : Nat := 0x148
/-- RWS. Island clock gating and gated status -/
abbrev CHIP_CLKGATE : Nat := 0x14C
/-- RO. Host summary of page indices 32k to 32k + 31, k = 0–4 -/
abbrev IRQ_HSUM (i : Nat) : Nat := 0x3100 + 4 * i
/-- RO. Laurel summary of page indices 32k to 32k + 31, k = 0–4 -/
abbrev IRQ_LSUM (i : Nat) : Nat := 0x3120 + 4 * i
/-- RO. [31] KSYNC: 0x1 while the link is UP and the last Kykel summary word has been applied; [0] -/
abbrev IRQ_KSTAT : Nat := 0x3140
/-- RO. BAR offset of the first bus error since ERR_FIRST_INFO was cleared -/
abbrev ERR_FIRST_ADDR : Nat := 0x2100
/-- RO. Details of that error; layout as ERR_LAST_INFO -/
abbrev ERR_FIRST_INFO : Nat := 0x2104
/-- RO. stamp32 of that error -/
abbrev ERR_FIRST_TS : Nat := 0x2108
/-- RO. BAR offset of the most recent bus error -/
abbrev ERR_LAST_ADDR : Nat := 0x210C
/-- RO. Details of that error -/
abbrev ERR_LAST_INFO : Nat := 0x2110
/-- RO. stamp32 of that error -/
abbrev ERR_LAST_TS : Nat := 0x2114
/-- RC. Bus errors since the last read; saturates at 0xFFFF_FFFF -/
abbrev ERR_COUNT : Nat := 0x2118
/-- WO. Bit 0 = 1 clears ERR_FIRST_INFO.VALID so that the next error is captured as first -/
abbrev ERR_CLR : Nat := 0x211C
/-- RW. [15:0] MASK: groups included in the next requested commit -/
abbrev CMT_ARM : Nat := 0x1100
/-- WO. Bit 0 = 1 requests an immediate commit -/
abbrev CMT_GO : Nat := 0x1104
/-- RW. Target time, nanoseconds, 0–999,999,999 -/
abbrev CMT_TIME_NS : Nat := 0x1108
/-- RW. Target time, seconds [31:0] -/
abbrev CMT_TIME_SL : Nat := 0x110C
/-- RW. [15:0]: target time, seconds [47:32] -/
abbrev CMT_TIME_SH : Nat := 0x1110
/-- RW. Timed-commit control -/
abbrev CMT_TCTL : Nat := 0x1114
/-- RW. Commit status -/
abbrev CMT_STAT : Nat := 0x1118
/-- RO. Commit sequence number; wraps -/
abbrev CMT_SEQ : Nat := 0x111C
/-- RO. [15:0]: group mask of the last applied commit -/
abbrev CMT_LAST_GRP : Nat := 0x1120
/-- RO. Application time of the last commit, nanoseconds -/
abbrev CMT_LAST_NS : Nat := 0x1124
/-- RO. Application time, seconds [31:0] -/
abbrev CMT_LAST_SL : Nat := 0x1128
/-- RO. [15:0]: application time, seconds [47:32] -/
abbrev CMT_LAST_SH : Nat := 0x112C
/-- RW. Link control -/
abbrev XPL_CTL : Nat := 0x600100
/-- RO. Link state and measured delay -/
abbrev XPL_STAT : Nat := 0x600104
/-- RW. Bridge control -/
abbrev XPL_BRCTL : Nat := 0x600108
/-- RW. Locked-sequence control -/
abbrev XPL_LOCK : Nat := 0x60010C
/-- RO. Time from the last entry to TRAIN to the following entry to UP, in ns, failed attempts inc -/
abbrev XPL_TRTIME : Nat := 0x600110
/-- RO. Discarded frames, both directions -/
abbrev XPL_CRCERR : Nat := 0x600114
/-- RO. Register messages resent -/
abbrev XPL_RESEND : Nat := 0x600118
/-- RO. RETRY answers received by the Yatric bridge -/
abbrev XPL_RETRY : Nat := 0x60011C
/-- RO. Collisions under R86 -/
abbrev XPL_COLL : Nat := 0x600120
/-- RO. Locks broken under R85 -/
abbrev XPL_LKBRK : Nat := 0x600124
/-- RO. Transitions from UP to LOST -/
abbrev XPL_LOSS : Nat := 0x600128
/-- RO. Posted writes refused or lost -/
abbrev XPL_PWLOST : Nat := 0x60012C
/-- WO. Bit 0 = 1 clears 0x114–0x12C -/
abbrev XPL_CNTCLR : Nat := 0x600130
/-- RO. Valid frames received, self-received frames excluded -/
abbrev CANC_RXOK (n : Nat) : Nat := 0x100140 + 0x1000 * n
/-- RO. Frames sent and acknowledged -/
abbrev CANC_TXOK (n : Nat) : Nat := 0x100144 + 0x1000 * n
/-- RO. Arbitrations lost -/
abbrev CANC_ARBLOST (n : Nat) : Nat := 0x100148 + 0x1000 * n
/-- RO. Bit errors, both polarities, TDC failures included -/
abbrev CANC_BITERR (n : Nat) : Nat := 0x10014C + 0x1000 * n
/-- RO. Stuff errors -/
abbrev CANC_STUFFERR (n : Nat) : Nat := 0x100150 + 0x1000 * n
/-- RO. Form errors, XL format checks included -/
abbrev CANC_FORMERR (n : Nat) : Nat := 0x100154 + 0x1000 * n
/-- RO. CRC errors, PCRC and FCRC included -/
abbrev CANC_CRCERR (n : Nat) : Nat := 0x100158 + 0x1000 * n
/-- RO. Acknowledgement errors -/
abbrev CANC_ACKERR (n : Nat) : Nat := 0x10015C + 0x1000 * n
/-- RO. Entries to BUS_OFF -/
abbrev CANC_BOFFCNT (n : Nat) : Nat := 0x100160 + 0x1000 * n
/-- RO. Entries to ERROR_PASSIVE -/
abbrev CANC_EPASSCNT (n : Nat) : Nat := 0x100164 + 0x1000 * n
/-- RO. Frames freed by cancellation -/
abbrev CANC_TXCANCEL (n : Nat) : Nat := 0x100168 + 0x1000 * n
/-- RO. Frames discarded under R96 and R97 -/
abbrev CANC_TXFLUSH (n : Nat) : Nat := 0x10016C + 0x1000 * n
/-- RO. Frames dropped under R111 -/
abbrev CANC_TXDEADL (n : Nat) : Nat := 0x100170 + 0x1000 * n
/-- RO. Frames discarded under R117 -/
abbrev CANC_RXDISC (n : Nat) : Nat := 0x100174 + 0x1000 * n
/-- RO. Protocol exception events -/
abbrev CANC_PXECNT (n : Nat) : Nat := 0x100178 + 0x1000 * n
/-- RO. Overload frames detected on the bus -/
abbrev CANC_OVLDCNT (n : Nat) : Nat := 0x10017C + 0x1000 * n
/-- RWS. Operating mode and formats -/
abbrev CANC_MODE (n : Nat) : Nat := 0x100100 + 0x1000 * n
/-- RWS. Nominal bit timing: 250 kbit/s, 87.5 % -/
abbrev CANC_BTN (n : Nat) : Nat := 0x100104 + 0x1000 * n
/-- RWS. Data bit timing: 2 Mbit/s, 75 % -/
abbrev CANC_BTD (n : Nat) : Nat := 0x100108 + 0x1000 * n
/-- RWS. Transmitter delay compensation -/
abbrev CANC_TDC (n : Nat) : Nat := 0x10010C + 0x1000 * n
/-- RO. Measured delay and SSP -/
abbrev CANC_TDCSTAT (n : Nat) : Nat := 0x100110 + 0x1000 * n
/-- RWS. CAN XL control; CANC16–CANC23 only -/
abbrev CANC_XLCTL (n : Nat) : Nat := 0x100114 + 0x1000 * n
/-- RWS. PWM coding; CANC16–CANC23 only -/
abbrev CANC_XLPWM (n : Nat) : Nat := 0x100118 + 0x1000 * n
/-- RWG. Bus-off recovery policy -/
abbrev CANC_BOFFPOL (n : Nat) : Nat := 0x10011C + 0x1000 * n
/-- WO. Recovery request -/
abbrev CANC_RECOV (n : Nat) : Nat := 0x100120 + 0x1000 * n
/-- RO. Confinement and activity status -/
abbrev CANC_ESTAT (n : Nat) : Nat := 0x100124 + 0x1000 * n
/-- RO. TEC and REC -/
abbrev CANC_ECNT (n : Nat) : Nat := 0x100128 + 0x1000 * n
/-- RO. Last error -/
abbrev CANC_LEC (n : Nat) : Nat := 0x10012C + 0x1000 * n
/-- RO. Transmit buffer occupancy -/
abbrev CANC_TXOCC (n : Nat) : Nat := 0x100130 + 0x1000 * n
/-- RO. Head frame -/
abbrev CANC_TXHEAD (n : Nat) : Nat := 0x100134 + 0x1000 * n
/-- RW. Cancel request and result -/
abbrev CANC_TXCAN (n : Nat) : Nat := 0x100138 + 0x1000 * n
/-- WO. Counter clear mask -/
abbrev CANC_CNTCLR (n : Nat) : Nat := 0x100180 + 0x1000 * n
/-- RWS. [0] EN: 0x1 = Privet accepts jobs -/
abbrev PRV_CTL_EN : Nat := 0x120100
/-- RWS. Deadline supervision -/
abbrev PRV_CTL_DLCTL : Nat := 0x120104
/-- RWS. No-match action -/
abbrev PRV_CTL_DEFACT : Nat := 0x120108
/-- RO. Jobs in flight -/
abbrev PRV_CTL_JOBS : Nat := 0x12010C
/-- RO. Hold-pool cells -/
abbrev PRV_CTL_STORE : Nat := 0x120110
/-- RO. [15:0]: largest frame-route latency from controller ingress, ns; saturates at 0xFFFF -/
abbrev PRV_CTL_LATMAX : Nat := 0x120114
/-- RWS. [9:0] MAX: held copies for CANCn, 0–1,023 -/
abbrev PRV_CTL_HOLDLIM (i : Nat) : Nat := 0x120180 + 4 * i
/-- RO. [9:0]: copies held for CANCn -/
abbrev PRV_CTL_HELD (i : Nat) : Nat := 0x120200 + 4 * i
/-- RO. DEADLINE drops in Privet for CANCn -/
abbrev PRV_CTL_EDROP_DEADLINE (i : Nat) : Nat := 0x120400 + 16 * i
/-- RO. FORMAT drops -/
abbrev PRV_CTL_EDROP_FORMAT (i : Nat) : Nat := 0x120404 + 16 * i
/-- RO. HOLDFULL drops -/
abbrev PRV_CTL_EDROP_HOLDFULL (i : Nat) : Nat := 0x120408 + 16 * i
/-- RO. DISABLED drops -/
abbrev PRV_CTL_EDROP_DISABLED (i : Nat) : Nat := 0x12040C + 16 * i
/-- RO. Unmatched jobs from CANCn -/
abbrev PRV_CTL_NOMATCH (i : Nat) : Nat := 0x120600 + 4 * i
/-- RO. Unmatched jobs from other sources -/
abbrev PRV_CTL_NOMATCHO : Nat := 0x120660
/-- RO. Jobs with a match beyond the eighth -/
abbrev PRV_CTL_MATCHOVF : Nat := 0x120664
/-- WO. Bit 0 = 1 clears every counter of the page, PEAK and LATMAX -/
abbrev PRV_CTL_CNTCLR : Nat := 0x120668
/-- RW. [14:0] INDEX: route whose counters are latched -/
abbrev PRV_RTE_CIDX : Nat := 0x121100
/-- RO. Latched CMATCH -/
abbrev PRV_RTE_CMATCH : Nat := 0x121104
/-- RO. Latched CDLDROP -/
abbrev PRV_RTE_CDLDROP : Nat := 0x121108
/-- RO. Latched CCYCMISS -/
abbrev PRV_RTE_CCYCMISS : Nat := 0x12110C
/-- WO. [31] ALL = 1 clears the counters of every route and PRV_RTE_LASTCYC; otherwise [14:0] name -/
abbrev PRV_RTE_CCLR : Nat := 0x121110
/-- RO. [31] VALID; [14:0] route of the last cycle miss -/
abbrev PRV_RTE_LASTCYC : Nat := 0x121114
/-- RWS. Route window of source code s -/
abbrev PRV_RTE_WIN (i : Nat) : Nat := 0x121400 + 4 * i
/-- RWS. [1] RXEN; [0] TXEN -/
abbrev BRM_CTL : Nat := 0x124100
/-- RWS. Source address, bytes c to f -/
abbrev BRM_SMAC_LO : Nat := 0x124104
/-- RWS. [15:0]: source address, bytes a and b -/
abbrev BRM_SMAC_HI : Nat := 0x124108
/-- RO. Frames dropped under R159 -/
abbrev BRM_BADHDR : Nat := 0x124110
/-- RO. Frames with an unknown stream -/
abbrev BRM_UNKSTR : Nat := 0x124114
/-- RO. ACF messages skipped -/
abbrev BRM_ACFSKIP : Nat := 0x124118
/-- RO. Frames cut short at a malformed message -/
abbrev BRM_ACFERR : Nat := 0x12411C
/-- RO. Tunnel copies not encapsulated -/
abbrev BRM_TXDROP : Nat := 0x124120
/-- WO. Bit 0 = 1 clears every counter of the page -/
abbrev BRM_CNTCLR : Nat := 0x124124
/-- RO. [31] VALID; [5:0] stream of the last silence timeout -/
abbrev BRM_LASTTO : Nat := 0x124128
/-- RWS. DMAC bytes c to f -/
abbrev BRM_TXS_W0 (i : Nat) : Nat := 0x124400 + 16 * i
/-- RWS. [31:16] UID; [15:0] DMAC bytes a and b -/
abbrev BRM_TXS_W1 (i : Nat) : Nat := 0x124404 + 16 * i
/-- RWS. Transmit stream settings -/
abbrev BRM_TXS_W2 (i : Nat) : Nat := 0x124408 + 16 * i
/-- RWS. Aggregation and timing -/
abbrev BRM_TXS_W3 (i : Nat) : Nat := 0x12440C + 16 * i
/-- RWS. stream_id [31:0] -/
abbrev BRM_RXS_W0 (i : Nat) : Nat := 0x124800 + 16 * i
/-- RWS. stream_id [63:32] -/
abbrev BRM_RXS_W1 (i : Nat) : Nat := 0x124804 + 16 * i
/-- RWS. Receive stream settings -/
abbrev BRM_RXS_W2 (i : Nat) : Nat := 0x124808 + 16 * i
/-- RO. Receive stream status -/
abbrev BRM_RXS_W3 (i : Nat) : Nat := 0x12480C + 16 * i
/-- RO. Frames accepted on receive stream s -/
abbrev BRM_RXFRM (i : Nat) : Nat := 0x124C00 + 12 * i
/-- RO. Frames lost under R160 -/
abbrev BRM_RXLOST (i : Nat) : Nat := 0x124C04 + 12 * i
/-- RO. Frames dropped as late or repeated -/
abbrev BRM_RXSEQOLD (i : Nat) : Nat := 0x124C08 + 12 * i
/-- RO. Ethernet frames sent on transmit stream s -/
abbrev BRM_TXFRM (i : Nat) : Nat := 0x124F00 + 4 * i
/-- RWS. Engine control -/
abbrev PRV_SIG_CTL : Nat := 0x122100
/-- RW. [15:0] INDEX: slot latched -/
abbrev PRV_SIG_RIDX : Nat := 0x122104
/-- RO. Latched low word and flags -/
abbrev PRV_SIG_RLO : Nat := 0x122108
/-- RO. [19:0]: latched high word -/
abbrev PRV_SIG_RHI : Nat := 0x12210C
/-- RO. Latched age in µs; saturates at 0xFFFF_FFFF -/
abbrev PRV_SIG_RAGE : Nat := 0x122110
/-- RO. Source updates applied -/
abbrev PRV_SIG_EXTR : Nat := 0x122114
/-- RO. Sources not updated under R175 -/
abbrev PRV_SIG_SHORT : Nat := 0x122118
/-- RO. Stale marks -/
abbrev PRV_SIG_STALE : Nat := 0x12211C
/-- RO. Saturations -/
abbrev PRV_SIG_SAT : Nat := 0x122120
/-- RO. Layout errors -/
abbrev PRV_SIG_LAYERR : Nat := 0x122124
/-- RO. Hand-offs discarded while EN = 0 -/
abbrev PRV_SIG_DISC : Nat := 0x122128
/-- WO. Bit 0 = 1 clears 0x114–0x128 and the three LAST registers -/
abbrev PRV_SIG_CNTCLR : Nat := 0x12212C
/-- RO. [31] VALID; [15:0] source of the last stale mark -/
abbrev PRV_SIG_LASTSTALE : Nat := 0x122130
/-- RO. [31] VALID; [15:0] sink of the last saturation -/
abbrev PRV_SIG_LASTSAT : Nat := 0x122134
/-- RO. [31] VALID; [18:16] cause (R196); [15:0] index -/
abbrev PRV_SIG_LASTLERR : Nat := 0x122138
/-- RWS. [0] TXEN: 0x1 = triggers form frames -/
abbrev PRV_PDU_CTL : Nat := 0x123100
/-- RW. [13:0] INDEX: layout latched -/
abbrev PRV_PDU_CIDX : Nat := 0x123104
/-- RO. Latched CSENT -/
abbrev PRV_PDU_CSENT : Nat := 0x123108
/-- RO. Latched CINHIB -/
abbrev PRV_PDU_CINHIB : Nat := 0x12310C
/-- RO. Latched CSUPP -/
abbrev PRV_PDU_CSUPP : Nat := 0x123110
/-- RO. Latched CDLDROP -/
abbrev PRV_PDU_CDLDROP : Nat := 0x123114
/-- WO. [31] ALL = 1 clears the counters of every layout; otherwise [13:0] names the layout cleare -/
abbrev PRV_PDU_CCLR : Nat := 0x123118
/-- RO. [16:0]: latched VCOUNT -/
abbrev PRV_PDU_VSTAT : Nat := 0x12311C
/-- RW. Buffer word selected for PRV_PDU_DATA -/
abbrev PRV_PDU_DIDX : Nat := 0x123120
/-- RO. Live buffer word -/
abbrev PRV_PDU_DATA : Nat := 0x123124
/-- RWS. Ledger control -/
abbrev CLM_CTL : Nat := 0x125100
/-- RO. [27:16] PEAK: largest USED since CLM_CNTCLR; [11:0] USED: valid entries, 0–2,048 -/
abbrev CLM_OCC : Nat := 0x125104
/-- RO. Last ledger event -/
abbrev CLM_LAST : Nat := 0x125108
/-- WO. [31] GO; [4:0] SEG, 0–23; 24–31 do nothing (R211) -/
abbrev CLM_FLUSH : Nat := 0x12510C
/-- WO. [31] GO; [4:0] SEG, 0–23; 24–31 do nothing (R210) -/
abbrev CLM_REQ : Nat := 0x125110
/-- RO. Claims applied under R205 -/
abbrev CLM_LEARNED : Nat := 0x125120
/-- RO. Entries not created under R203 -/
abbrev CLM_FULL : Nat := 0x125124
/-- RO. Contentions -/
abbrev CLM_CONTEND : Nat := 0x125128
/-- RO. Events under R206 -/
abbrev CLM_ROGUE : Nat := 0x12512C
/-- RO. Claims ignored under R204 -/
abbrev CLM_BADCLM : Nat := 0x125130
/-- RO. PROXY and LOCAL entries displaced -/
abbrev CLM_PXLOST : Nat := 0x125134
/-- WO. Bit 0 = 1 clears every counter of the page, PEAK and CLM_LAST -/
abbrev CLM_CNTCLR : Nat := 0x125138
/-- RO. XLATE drops of copies to CANCn -/
abbrev CLM_XLDROP (i : Nat) : Nat := 0x125180 + 4 * i
/-- RWS. Claim window of segment n -/
abbrev CLM_ISO (i : Nat) : Nat := 0x125200 + 4 * i
/-- RO. Jobs and copies counted under R213 -/
abbrev CLM_ISODROP (i : Nat) : Nat := 0x125280 + 4 * i
/-- WO. [23:0]: bit n = 1 opens the window of segment n -/
abbrev CLM_ISOSTART : Nat := 0x125300
/-- RO. [23:0]: bit n = 1 while segment n is isolated -/
abbrev CLM_ISOSTAT : Nat := 0x125304
/-- RWS. Engine control -/
abbrev TPE_CTL : Nat := 0x126100
/-- RWS. [27:16] PBASE: pool base in MiB of DRAM, 0–4,095; [10:0] PSIZE: pool size in MiB, 0–1,024 -/
abbrev TPE_POOL : Nat := 0x126104
/-- RO. [15:8] PEAK: largest OPEN since TPE_CNTCLR; [7:0] OPEN: sessions open, 0–128 -/
abbrev TPE_STAT : Nat := 0x126108
/-- RO. [18:0]: free pool pages -/
abbrev TPE_PFREE : Nat := 0x12610C
/-- RO. [31] VALID; [30] DIR: 0x0 = sent, 0x1 = received; [28:24] SEG; [23:16] reason; [15:8] SA;  -/
abbrev TPE_LASTAB : Nat := 0x126110
/-- RO. Sessions opened -/
abbrev TPE_OPENED : Nat := 0x126120
/-- RO. Sessions ended with every part delivered -/
abbrev TPE_DONE : Nat := 0x126124
/-- RO. Openings refused -/
abbrev TPE_REFUSED : Nat := 0x126128
/-- RO. Aborts sent -/
abbrev TPE_ABTX : Nat := 0x12612C
/-- RO. Aborts received -/
abbrev TPE_ABRX : Nat := 0x126130
/-- RO. Timer expiries -/
abbrev TPE_TMO : Nat := 0x126134
/-- RO. Delivery parts failed or not started -/
abbrev TPE_EGFAIL : Nat := 0x126138
/-- RO. BAM sessions discarded -/
abbrev TPE_BAMDISC : Nat := 0x12613C
/-- RO. Jobs ignored under R217 and R225 -/
abbrev TPE_IGN : Nat := 0x126140
/-- WO. Bit 0 = 1 clears every counter of the page, PEAK and TPE_LASTAB -/
abbrev TPE_CNTCLR : Nat := 0x126144
/-- RWS. BAM destinations for ingress segment n -/
abbrev TPE_BAM (i : Nat) : Nat := 0x126180 + 4 * i
/-- RWS. [23:0]: bit n = 1 translates SA of BAMs sent to CANCn -/
abbrev TPE_BAMXL : Nat := 0x1261E0
/-- RW. [6:0] INDEX: session latched -/
abbrev TPE_SIDX : Nat := 0x126200
/-- RO. Latched session state -/
abbrev TPE_SST : Nat := 0x126204
/-- RO. [26:0]: message size in bytes -/
abbrev TPE_SSIZE : Nat := 0x126208
/-- RO. [26:0]: bytes reassembled -/
abbrev TPE_SRCV : Nat := 0x12620C
/-- RO. [17:0]: PGN of the transported message -/
abbrev TPE_SPGN : Nat := 0x126210
/-- RO. Frames passed to the switch -/
abbrev EMAC_RXOK (n : Nat) : Nat := 0x200200 + 0x1000 * n
/-- RO. 1,519 B to MAXLEN -/
abbrev EMAC_RX1519_MAX (n : Nat) : Nat := 0x20024C + 0x1000 * n
/-- RO. Octets of RXOK frames -/
abbrev EMAC_RXOCT (n : Nat) : Nat := 0x200204 + 0x1000 * n
/-- RO. Frames sent, stomped frames excluded -/
abbrev EMAC_TXOK (n : Nat) : Nat := 0x200250 + 0x1000 * n
/-- RO. Broadcast frames in RXOK -/
abbrev EMAC_RXBCAST (n : Nat) : Nat := 0x200208 + 0x1000 * n
/-- RO. Octets of TXOK frames -/
abbrev EMAC_TXOCT (n : Nat) : Nat := 0x200254 + 0x1000 * n
/-- RO. Multicast frames in RXOK -/
abbrev EMAC_RXMCAST (n : Nat) : Nat := 0x20020C + 0x1000 * n
/-- RO. Broadcast frames sent -/
abbrev EMAC_TXBCAST (n : Nat) : Nat := 0x200258 + 0x1000 * n
/-- RO. R236 row 7 -/
abbrev EMAC_RXFCSERR (n : Nat) : Nat := 0x200210 + 0x1000 * n
/-- RO. Multicast frames sent -/
abbrev EMAC_TXMCAST (n : Nat) : Nat := 0x20025C + 0x1000 * n
/-- RO. R236 row 3 -/
abbrev EMAC_RXRUNT (n : Nat) : Nat := 0x200214 + 0x1000 * n
/-- RO. PAUSE frames sent -/
abbrev EMAC_TXPAUSE (n : Nat) : Nat := 0x200260 + 0x1000 * n
/-- RO. R236 row 4 -/
abbrev EMAC_RXFRAG (n : Nat) : Nat := 0x200218 + 0x1000 * n
/-- RO. PFC frames sent -/
abbrev EMAC_TXPFC (n : Nat) : Nat := 0x200264 + 0x1000 * n
/-- RO. R236 row 5 -/
abbrev EMAC_RXLONG (n : Nat) : Nat := 0x20021C + 0x1000 * n
/-- RO. R238 -/
abbrev EMAC_TXSTOMP (n : Nat) : Nat := 0x200268 + 0x1000 * n
/-- RO. R236 row 6 -/
abbrev EMAC_RXJABBER (n : Nat) : Nat := 0x200220 + 0x1000 * n
/-- RO. R248 -/
abbrev EMAC_TXABORT (n : Nat) : Nat := 0x20026C + 0x1000 * n
/-- RO. R236 row 2 -/
abbrev EMAC_RXSYMERR (n : Nat) : Nat := 0x200224 + 0x1000 * n
/-- RO. Large sends segmented -/
abbrev EMAC_TXLSO (n : Nat) : Nat := 0x200270 + 0x1000 * n
/-- RO. R236 row 1 -/
abbrev EMAC_RXOVF (n : Nat) : Nat := 0x200228 + 0x1000 * n
/-- RO. Segments sent -/
abbrev EMAC_TXLSOSEG (n : Nat) : Nat := 0x200274 + 0x1000 * n
/-- RO. PAUSE frames received -/
abbrev EMAC_RXPAUSE (n : Nat) : Nat := 0x20022C + 0x1000 * n
/-- RO. R243 -/
abbrev EMAC_TXOFFERR (n : Nat) : Nat := 0x200278 + 0x1000 * n
/-- RO. PFC frames received -/
abbrev EMAC_RXPFC (n : Nat) : Nat := 0x200230 + 0x1000 * n
/-- RO. Collisions; E12–E13 only -/
abbrev EMAC_TXCOLL (n : Nat) : Nat := 0x20027C + 0x1000 * n
/-- RO. R239 -/
abbrev EMAC_RXCTLIGN (n : Nat) : Nat := 0x200234 + 0x1000 * n
/-- RO. R235 -/
abbrev EMAC_TXEXCOLL (n : Nat) : Nat := 0x200280 + 0x1000 * n
/-- RO. 64 B frames -/
abbrev EMAC_RX64 (n : Nat) : Nat := 0x200238 + 0x1000 * n
/-- RO. R248 -/
abbrev EMAC_LDFLUSH (n : Nat) : Nat := 0x200284 + 0x1000 * n
/-- RO. 65–127 B -/
abbrev EMAC_RX65_127 (n : Nat) : Nat := 0x20023C + 0x1000 * n
/-- RO. R249 -/
abbrev EMAC_LDDROP (n : Nat) : Nat := 0x200288 + 0x1000 * n
/-- RO. 128–255 B -/
abbrev EMAC_RX128_255 (n : Nat) : Nat := 0x200240 + 0x1000 * n
/-- RO. R246 -/
abbrev EMAC_PWDTRIP (n : Nat) : Nat := 0x20028C + 0x1000 * n
/-- RO. 256–511 B -/
abbrev EMAC_RX256_511 (n : Nat) : Nat := 0x200244 + 0x1000 * n
/-- RO. Losses of link -/
abbrev EMAC_LINKDN (n : Nat) : Nat := 0x200290 + 0x1000 * n
/-- RO. 512–1,023 B -/
abbrev EMAC_RX512_1023 (n : Nat) : Nat := 0x200248 + 0x1000 * n
/-- RO. 1,024–1,518 B -/
abbrev EMAC_RX1024_1518 (n : Nat) : Nat := 0x200294 + 0x1000 * n
/-- RWS. Mode, speed, link hold -/
abbrev EMAC_CFG (n : Nat) : Nat := 0x200100 + 0x1000 * n
/-- RWS. Maximum frame length -/
abbrev EMAC_MAXFRM (n : Nat) : Nat := 0x200104 + 0x1000 * n
/-- RWS. Flow control and pause watchdog -/
abbrev EMAC_FC (n : Nat) : Nat := 0x200108 + 0x1000 * n
/-- RWS. Pause quanta sent -/
abbrev EMAC_PQ (n : Nat) : Nat := 0x20010C + 0x1000 * n
/-- RWS. Offload enables -/
abbrev EMAC_OFFLD (n : Nat) : Nat := 0x200110 + 0x1000 * n
/-- RWS. Port address, bytes c to f -/
abbrev EMAC_SMAC_LO (n : Nat) : Nat := 0x200114 + 0x1000 * n
/-- RWS. [15:0]: port address, bytes a and b -/
abbrev EMAC_SMAC_HI (n : Nat) : Nat := 0x200118 + 0x1000 * n
/-- RW. Auto-negotiation control -/
abbrev EMAC_ANCTL (n : Nat) : Nat := 0x20011C + 0x1000 * n
/-- RO. Link and pause status -/
abbrev EMAC_STAT (n : Nat) : Nat := 0x200120 + 0x1000 * n
/-- RO. Pause watchdog ignore status -/
abbrev EMAC_PWDSTAT (n : Nat) : Nat := 0x200124 + 0x1000 * n
/-- RO. [31] VALID; [3:0] CAUSE of the last refusal (R243) -/
abbrev EMAC_OFFSTAT (n : Nat) : Nat := 0x200128 + 0x1000 * n
/-- WO. Bit 0 = 1 clears every counter and OFFSTAT -/
abbrev EMAC_CNTCLR (n : Nat) : Nat := 0x20012C + 0x1000 * n
/-- RW. PHY and PLCA enables -/
abbrev T1SP_CTL (n : Nat) : Nat := 0x820100 + 0x1000 * n
/-- RW. PLCA node settings -/
abbrev T1SP_PLCA (n : Nat) : Nat := 0x820104 + 0x1000 * n
/-- RW. PLCA timers -/
abbrev T1SP_PTIME (n : Nat) : Nat := 0x820108 + 0x1000 * n
/-- RO. PHY and PLCA status -/
abbrev T1SP_STAT (n : Nat) : Nat := 0x82010C + 0x1000 * n
/-- RO. Physical collisions (R235) -/
abbrev T1SP_COLL (n : Nat) : Nat := 0x820110 + 0x1000 * n
/-- RO. Changes of PLCA status from OK to not OK -/
abbrev T1SP_BCNLOSS (n : Nat) : Nat := 0x820114 + 0x1000 * n
/-- WO. Bit 0 = 1 clears 0x110–0x114 -/
abbrev T1SP_CNTCLR (n : Nat) : Nat := 0x820118 + 0x1000 * n
/-- RWS. [0] EN: 0x1 = switch forwards; 0x0 = every ingress frame dropped uncounted -/
abbrev SWC_CTL : Nat := 0x210100
/-- RWS. [13:0] CT: cut-through eligibility of E0–E13; controlled under R31 -/
abbrev SWC_FWDCTL : Nat := 0x210104
/-- RW. [4:0] PORT: ingress port latched, 0–17 -/
abbrev SWC_IIDX : Nat := 0x210108
/-- RO. Latched: frames dropped by MAXSDU -/
abbrev SWC_ISDU : Nat := 0x21010C
/-- RO. Latched: red frames dropped -/
abbrev SWC_IPOLRED : Nat := 0x210110
/-- RO. Latched: frames held by the release gate -/
abbrev SWC_IGATE : Nat := 0x210114
/-- RO. Latched: frames with at least one cut-through copy -/
abbrev SWC_ICT : Nat := 0x210118
/-- WO. Bit 0 = 1 clears every counter of the page -/
abbrev SWC_CNTCLR : Nat := 0x21011C
/-- RWS. PCP-to-class map of port p -/
abbrev SWC_PCPMAP (i : Nat) : Nat := 0x210140 + 4 * i
/-- RWS. [7:0]: bit c = 1 shapes class c by CBS -/
abbrev SWC_CBSEN (i : Nat) : Nat := 0x210180 + 4 * i
/-- RWS. [23:0]: idleSlope in kb/s -/
abbrev SWC_ISLOPE (i j : Nat) : Nat := 0x210200 + 32 * i + 4 * j
/-- RWS. Internal port reserves, units of 16 cells -/
abbrev QMG_IRSV : Nat := 0x211100
/-- RWS. [15:0]: headroom pool, cells -/
abbrev QMG_HDRM : Nat := 0x211104
/-- RWS. [9:0]: internal stall limit, 1–1,000 ms; 0 acts as 1 -/
abbrev QMG_ISTALL : Nat := 0x211108
/-- RO. [31:16] PEAK since QMG_CNTCLR; [15:0] USED: cells in use -/
abbrev QMG_OCC : Nat := 0x21110C
/-- RO. [15:0]: free shared cells -/
abbrev QMG_SFREE : Nat := 0x211110
/-- WO. [31] GO; [20:16] PORT; [7:0] CMASK (R282) -/
abbrev QMG_FLUSH : Nat := 0x211114
/-- RO. [31] BUSY -/
abbrev QMG_FLSTAT : Nat := 0x211118
/-- RW. [4:0] PORT: egress port latched -/
abbrev QMG_DIDX : Nat := 0x21111C
/-- RO. Latched: ADMIT drops -/
abbrev QMG_DADMIT : Nat := 0x211120
/-- RO. Latched: WRED drops -/
abbrev QMG_DWRED : Nat := 0x211124
/-- RO. Latched: flushed frames -/
abbrev QMG_DFLUSH : Nat := 0x211128
/-- RO. Latched: STALL drops -/
abbrev QMG_DSTALL : Nat := 0x21112C
/-- RO. Latched: Thicket CRC drops -/
abbrev QMG_DTKT : Nat := 0x211130
/-- RO. Latched: deadline drops of class c -/
abbrev QMG_DDL (i : Nat) : Nat := 0x211140 + 4 * i
/-- WO. Bit 0 = 1 clears every counter of the page and PEAK -/
abbrev QMG_CNTCLR : Nat := 0x211160
/-- RWS. Admission limits of port p -/
abbrev QMG_QLIM (i : Nat) : Nat := 0x211200 + 4 * i
/-- RWS. [4c+3:4c]: WRED profile of class c -/
abbrev QMG_WMAP (i : Nat) : Nat := 0x211280 + 4 * i
/-- RWS. [31:16] XOFF; [15:0] XON, cells -/
abbrev QMG_PFC (i : Nat) : Nat := 0x211300 + 4 * i
/-- RWS. [15:0] class 2k; [31:16] class 2k+1: deadline in µs -/
abbrev QMG_DL (i j : Nat) : Nat := 0x211400 + 16 * i + 4 * j
/-- RWS. j = 0–15; layout below -/
abbrev QMG_WRED (i j : Nat) : Nat := 0x211600 + 32 * i + 4 * j
/-- RWS. [15:8] ELIG: spill-eligible classes; [0] EN -/
abbrev TKT_CTL : Nat := 0x212100
/-- RWS. [27:16] BASE, MiB; [11:0] SIZE, MiB, 0–3,072 -/
abbrev TKT_REGION : Nat := 0x212104
/-- RWS. [31:16] SPILLON, cells; [15:0] QTHR, cells -/
abbrev TKT_THR : Nat := 0x212108
/-- RWS. [11:0]: Thicket limit per queue, MiB -/
abbrev TKT_QLIM : Nat := 0x21210C
/-- RWS. [5:0]: reserved write share, 0–50 %; higher values act as 50 -/
abbrev TKT_WRES : Nat := 0x212110
/-- RWS. [31] INSR (RO): DRAM in self-refresh; [0] AUTO: controlled under R31 -/
abbrev TKT_SRCTL : Nat := 0x212114
/-- RO. [24:0]: Thicket use in 128 B units -/
abbrev TKT_USED : Nat := 0x212118
/-- RO. [24:0]: largest USED since TKT_CNTCLR -/
abbrev TKT_PEAK : Nat := 0x21211C
/-- RO. Frames spilled -/
abbrev TKT_SPILLED : Nat := 0x212120
/-- RO. Frames dropped under R271 -/
abbrev TKT_CRCERR : Nat := 0x212124
/-- RO. Frames kept on chip under R269 -/
abbrev TKT_FULL : Nat := 0x212128
/-- WO. Bit 0 = 1 clears 0x11C–0x128 -/
abbrev TKT_CNTCLR : Nat := 0x21212C
/-- RWS. [3] DEIMARK; [2] OVH; [1] FEN; [0] PEN -/
abbrev POL_CTL : Nat := 0x213100
/-- RWS. [17:0]: bit p = 1 makes port p colour-aware -/
abbrev POL_CAWARE : Nat := 0x213104
/-- RW. [9:0] INDEX: policer -/
abbrev POL_PIDX : Nat := 0x213110
/-- RW. [23:0]: CIR in kb/s -/
abbrev POL_PCIR : Nat := 0x213114
/-- RW. [23:0]: PIR in kb/s -/
abbrev POL_PPIR : Nat := 0x213118
/-- RW. [23:0]: CBS in bytes -/
abbrev POL_PCBS : Nat := 0x21311C
/-- RW. [23:0]: PBS in bytes -/
abbrev POL_PPBS : Nat := 0x213120
/-- RW. [0] REDDROP -/
abbrev POL_PMODE : Nat := 0x213124
/-- WO. [1] RD; [0] WR -/
abbrev POL_PCMD : Nat := 0x213128
/-- RO. Green frames of the latched policer -/
abbrev POL_CGREEN : Nat := 0x21312C
/-- RO. Yellow frames -/
abbrev POL_CYELLOW : Nat := 0x213130
/-- RO. Red frames -/
abbrev POL_CRED : Nat := 0x213134
/-- RW. [9:0] INDEX: stream filter -/
abbrev POL_FIDX : Nat := 0x213140
/-- RW. Staged filter words 0–3 (R260) -/
abbrev POL_FW (i : Nat) : Nat := 0x213144 + 4 * i
/-- WO. [1] RD; [0] WR -/
abbrev POL_FCMD : Nat := 0x213154
/-- RO. Matches of the latched filter -/
abbrev POL_FMATCH : Nat := 0x213158
/-- WO. Bit 0 = 1 clears every policer and filter counter -/
abbrev POL_CNTCLR : Nat := 0x21315C
/-- RWS. [1] LLDEST: 0x0 = MGMT, 0x1 = HOST; [0] LRNEN -/
abbrev MACT_CTL : Nat := 0x214100
/-- RWS. [7:0] TICK: ageing tick in s; 0x00 = no ageing -/
abbrev MACT_AGE : Nat := 0x214104
/-- RO. [16:0]: valid MAC table and overflow entries -/
abbrev MACT_OCC : Nat := 0x214108
/-- RO. [8:0]: valid overflow entries, 0–256 -/
abbrev MACT_OVOCC : Nat := 0x21410C
/-- RO. Hash seed, way 0 -/
abbrev MACT_SEED0 : Nat := 0x214110
/-- RO. Hash seed, way 1 -/
abbrev MACT_SEED1 : Nat := 0x214114
/-- RO. Hash seed, way 2 -/
abbrev MACT_SEED2 : Nat := 0x214118
/-- RO. Hash seed, way 3 -/
abbrev MACT_SEED3 : Nat := 0x21411C
/-- RW. [7:0] INDEX: overflow entry -/
abbrev MACT_OIDX : Nat := 0x214120
/-- RW. Staged overflow entry words (R294) -/
abbrev MACT_OW (i : Nat) : Nat := 0x214124 + 4 * i
/-- WO. [1] RD; [0] WR (R303) -/
abbrev MACT_OCMD : Nat := 0x214134
/-- WO. [31] GO; [30] ALSOST; [29] BYPORT; [28] BYFID; [20:16] PORT; [11:0] FID -/
abbrev MACT_FLUSH : Nat := 0x214138
/-- RO. [31] BUSY -/
abbrev MACT_FLSTAT : Nat := 0x21413C
/-- RW. [11:0] VID: VLAN entry -/
abbrev MACT_VIDX : Nat := 0x214140
/-- RW. [17:0] MEMBER: bit p = 1 makes port p a member -/
abbrev MACT_VMEM : Nat := 0x214144
/-- RW. [17:0] UNTAG: bit p = 1 sends untagged at port p -/
abbrev MACT_VUNTAG : Nat := 0x214148
/-- RW. [31] VALID; [13] ROUTE; [12] LRN; [11:0] FID -/
abbrev MACT_VCFG : Nat := 0x21414C
/-- WO. [1] RD; [0] WR (R290) -/
abbrev MACT_VCMD : Nat := 0x214150
/-- RO. Entries created by learning -/
abbrev MACT_LEARNED : Nat := 0x214160
/-- RO. Insertions failed (R298) -/
abbrev MACT_LRNFAIL : Nat := 0x214164
/-- RO. Learning requests discarded -/
abbrev MACT_LRNDROP : Nat := 0x214168
/-- RO. Refusals under R299 -/
abbrev MACT_LRNLIM : Nat := 0x21416C
/-- RO. Station moves -/
abbrev MACT_MOVES : Nat := 0x214170
/-- RO. Sources seen against a static entry -/
abbrev MACT_SAVIOL : Nat := 0x214174
/-- RO. Entries aged out -/
abbrev MACT_AGED : Nat := 0x214178
/-- RO. Relocations -/
abbrev MACT_RELOC : Nat := 0x21417C
/-- RO. Unknown unicast frames flooded -/
abbrev MACT_UNKFLOOD : Nat := 0x214180
/-- RO. Frames dropped under R289 -/
abbrev MACT_VDROP : Nat := 0x214184
/-- RO. Frames with no egress, DROP hits and bad DEST included -/
abbrev MACT_NODEST : Nat := 0x214188
/-- RO. Copies dropped under R292 -/
abbrev MACT_EGLEN : Nat := 0x21418C
/-- WO. Bit 0 = 1 clears 0x160–0x18C and MACT_LFAIL_HI.VALID -/
abbrev MACT_CNTCLR : Nat := 0x214190
/-- RO. MAC bytes c to f of the last failed insertion -/
abbrev MACT_LFAIL_LO : Nat := 0x214194
/-- RO. [31] VALID; [27:16] FID; [15:0] MAC bytes a and b -/
abbrev MACT_LFAIL_HI : Nat := 0x214198
/-- RWS. VLAN and learning settings of port p -/
abbrev MACT_PCFG (i : Nat) : Nat := 0x214200 + 4 * i
/-- RO. [16:0]: entries counted under R299 -/
abbrev MACT_PLRN (i : Nat) : Nat := 0x214280 + 4 * i
/-- RWS. Routing control -/
abbrev LPM_CTL : Nat := 0x215100
/-- RWS. Router address, bytes c to f -/
abbrev LPM_RMAC_LO : Nat := 0x215104
/-- RWS. [15:0]: router address, bytes a and b -/
abbrev LPM_RMAC_HI : Nat := 0x215108
/-- WO. [31] GO; [27:16] DST; [11:0] SRC (R309) -/
abbrev LPM_MOVE : Nat := 0x21510C
/-- RO. [31] BUSY -/
abbrev LPM_MVSTAT : Nat := 0x215110
/-- WO. [0] GO: scan both regions under R307 -/
abbrev LPM_CHECK : Nat := 0x215114
/-- RO. Result of the last scan -/
abbrev LPM_CHKSTAT : Nat := 0x215118
/-- RO. Frames forwarded by a FORWARD row -/
abbrev LPM_ROUTED : Nat := 0x215120
/-- RO. Lookups with no match -/
abbrev LPM_MISS : Nat := 0x215124
/-- RO. Frames sent to the exception port under R305 -/
abbrev LPM_EXC : Nat := 0x215128
/-- RO. Next hops not found (R308) -/
abbrev LPM_NHMISS : Nat := 0x21512C
/-- WO. Bit 0 = 1 clears 0x120–0x12C -/
abbrev LPM_CNTCLR : Nat := 0x215130
/-- RW. Residence correction control -/
abbrev TSY_CTL : Nat := 0x300100
/-- RWG. [0] OWNER: 0x0 = host; 0x1 = Laurel -/
abbrev TSY_OWN : Nat := 0x300104
/-- RO. State, cause, step count -/
abbrev TSY_STAT : Nat := 0x300108
/-- RO. Full time, nanoseconds; read latches 0x110–0x118 -/
abbrev TSY_NOW_NS : Nat := 0x30010C
/-- RO. Seconds [31:0] -/
abbrev TSY_NOW_SL : Nat := 0x300110
/-- RO. [15:0]: seconds [47:32] -/
abbrev TSY_NOW_SH : Nat := 0x300114
/-- RO. stamp32 of the same instant -/
abbrev TSY_NOW32 : Nat := 0x300118
/-- RW. Rate adjustment, 2^−32 ns per ns, two's complement (R314) -/
abbrev TSY_RATE : Nat := 0x30011C
/-- RW. Step operand, nanoseconds -/
abbrev TSY_ADJ_NS : Nat := 0x300120
/-- RW. Step operand, seconds [31:0] -/
abbrev TSY_ADJ_SL : Nat := 0x300124
/-- RW. [15:0]: step operand, seconds [47:32] -/
abbrev TSY_ADJ_SH : Nat := 0x300128
/-- WO. Step command -/
abbrev TSY_ADJCTL : Nat := 0x30012C
/-- WO. Lock and holdover requests -/
abbrev TSY_SYNC : Nat := 0x300130
/-- RW. [15:0] LIMIT: watchdog in ms; 0x0000 = none -/
abbrev TSY_SYNCWD : Nat := 0x300134
/-- RO. Copies corrected (R326) -/
abbrev TSY_TCCNT : Nat := 0x300138
/-- RO. Messages not corrected (R326) -/
abbrev TSY_TCSKIP : Nat := 0x30013C
/-- WO. Bit 0 = 1 clears 0x138–0x13C -/
abbrev TSY_CNTCLR : Nat := 0x300140
/-- RW. [31:16] ELAT; [15:0] ILAT: latency of port Ep in ns -/
abbrev TSY_PLAT (i : Nat) : Nat := 0x300180 + 4 * i
/-- RW. Start, nanoseconds -/
abbrev TOUT_NS (i : Nat) : Nat := 0x300200 + 32 * i
/-- RW. Start, seconds [31:0] -/
abbrev TOUT_SL (i : Nat) : Nat := 0x300204 + 32 * i
/-- RW. [15:0]: start, seconds [47:32] -/
abbrev TOUT_SH (i : Nat) : Nat := 0x300208 + 32 * i
/-- RW. Period in ns -/
abbrev TOUT_PER (i : Nat) : Nat := 0x30020C + 32 * i
/-- RW. Width in ns -/
abbrev TOUT_WID (i : Nat) : Nat := 0x300210 + 32 * i
/-- RW. Output control -/
abbrev TOUT_CTL (i : Nat) : Nat := 0x300214 + 32 * i
/-- RO. Periods skipped; saturates at 0xFFFF_FFFF; cleared by each arm -/
abbrev TOUT_SKIP (i : Nat) : Nat := 0x300218 + 32 * i
/-- RO. Capture, nanoseconds; read latches SL and SH -/
abbrev TCAP_NS (i : Nat) : Nat := 0x300300 + 16 * i
/-- RO. Capture, seconds [31:0] -/
abbrev TCAP_SL (i : Nat) : Nat := 0x300304 + 16 * i
/-- RO. [15:0]: capture, seconds [47:32] -/
abbrev TCAP_SH (i : Nat) : Nat := 0x300308 + 16 * i
/-- WO. [0] GO (R332) -/
abbrev TSY_KCORR : Nat := 0x300340
/-- RO. Real-time counter [31:0] -/
abbrev TSY_KRTC_LO : Nat := 0x300344
/-- RO. [15:0]: real-time counter [47:32] -/
abbrev TSY_KRTC_HI : Nat := 0x300348
/-- RO. Full time of the tick, nanoseconds -/
abbrev TSY_KC_NS : Nat := 0x30034C
/-- RO. Seconds [31:0] -/
abbrev TSY_KC_SL : Nat := 0x300350
/-- RO. [15:0]: seconds [47:32] -/
abbrev TSY_KC_SH : Nat := 0x300354
/-- RO. [31] VALID; [30] FAIL -/
abbrev TSY_KCSTAT : Nat := 0x300358
/-- RW. Capture control and status (R331) -/
abbrev TCAP_CTL (i : Nat) : Nat := 0x3003C0 + 4 * i
/-- RWS. [11:8] CMPLIM, 1–15, 0x0 acts as 0x1; [0] EN: 0x0 = no new job starts -/
abbrev CRY_CTL : Nat := 0x400100
/-- RWS. [0] INVMEM; controlled under R31 by CRYCHK; reset as in force in ASSURE -/
abbrev CRY_CHKCTL : Nat := 0x400104
/-- RWS. [0] HALF; controlled under R31 by CRYRATE -/
abbrev CRY_CLKCTL : Nat := 0x400108
/-- RO. Pipe states -/
abbrev CRY_PIPESTAT : Nat := 0x40010C
/-- WO. [1] RESTART1; [0] RESTART0 (R340) -/
abbrev CRY_PIPECTL : Nat := 0x400110
/-- RO. [23:16] PEAK since CRY_CNTCLR; [7:0] INFL, 0–128 -/
abbrev CRY_JOBS : Nat := 0x400114
/-- RO. Last job ended other than OK -/
abbrev CRY_LASTERR : Nat := 0x400118
/-- WO. Bit 0 = 1 clears 0x120–0x134, PEAK and CRY_LASTERR -/
abbrev CRY_CNTCLR : Nat := 0x40011C
/-- RO. Comparison failures -/
abbrev CRY_CMPERR : Nat := 0x400120
/-- RO. Inverse pass failures -/
abbrev CRY_INVERR : Nat := 0x400124
/-- RO. Jobs ended KEYSLOT -/
abbrev CRY_KEYERR : Nat := 0x400128
/-- RO. Jobs ended NO_KEYS -/
abbrev CRY_NOKEY : Nat := 0x40012C
/-- RO. Jobs ended TAMPER_ABORT -/
abbrev CRY_TAMPAB : Nat := 0x400130
/-- RO. Memory jobs ended other than OK -/
abbrev CRY_MEMFAIL : Nat := 0x400134
/-- RW. [31:6]: ring base [31:6]; [5:0] read 0 -/
abbrev CRY_RBLO (i : Nat) : Nat := 0x400200 + 32 * i
/-- RW. Ring base [63:32] -/
abbrev CRY_RBHI (i : Nat) : Nat := 0x400204 + 32 * i
/-- RW. [12:0] SIZE: entries, 2–4,096; values outside act as 2 -/
abbrev CRY_RSIZE (i : Nat) : Nat := 0x400208 + 32 * i
/-- RO. [27:16] FETCH; [11:0] CPL -/
abbrev CRY_RHEAD (i : Nat) : Nat := 0x40020C + 32 * i
/-- RW. [11:0] TAIL -/
abbrev CRY_RTAIL (i : Nat) : Nat := 0x400210 + 32 * i
/-- RW. Ring control -/
abbrev CRY_RCTL (i : Nat) : Nat := 0x400214 + 32 * i
/-- RO. Descriptors completed -/
abbrev CRY_RDONE (i : Nat) : Nat := 0x400218 + 32 * i
/-- RWS. [12:8] RSV, 8–31, lower values act as 8; [0] EN: 0x0 = every MACsec port drops all frames -/
abbrev MSEC_CTL : Nat := 0x401100
/-- RWS. Warning level for NEXTPN[63:32] (R347) -/
abbrev MSEC_PNWARN : Nat := 0x401104
/-- RW. [3:0] PORT: port counters latched -/
abbrev MSEC_PIDX : Nat := 0x401108
/-- RO. R348 row 2, dropped -/
abbrev MSEC_PNOTAG : Nat := 0x40110C
/-- RO. Row 3 -/
abbrev MSEC_PBADTAG : Nat := 0x401110
/-- RO. Row 5, dropped -/
abbrev MSEC_PNOSCI : Nat := 0x401114
/-- RO. Row 5, released -/
abbrev MSEC_PUNKSCI : Nat := 0x401118
/-- RO. Row 6 -/
abbrev MSEC_PNOSA : Nat := 0x40111C
/-- RO. Row 4 -/
abbrev MSEC_PUNCHK : Nat := 0x401120
/-- RO. Rows 1 and 2, released -/
abbrev MSEC_PUNTAG : Nat := 0x401124
/-- RO. R346, length -/
abbrev MSEC_PTXLEN : Nat := 0x401128
/-- RO. R346, no SC or SA -/
abbrev MSEC_PTXNOSA : Nat := 0x40112C
/-- WO. Bit 0 = 1 clears every counter of every port and SA, and MSEC_LASTWARN -/
abbrev MSEC_CNTCLR : Nat := 0x401130
/-- RO. [31] VALID; [30] EXH: 0x0 = warning, 0x1 = exhausted; [7:0] SA -/
abbrev MSEC_LASTWARN : Nat := 0x401134
/-- RWS. SecY of port Ep -/
abbrev MSEC_PCFG (i : Nat) : Nat := 0x401140 + 4 * i
/-- RW. [6:0] INDEX: SC -/
abbrev MSEC_SCIDX : Nat := 0x401180
/-- RW. Staged SC words (R344) -/
abbrev MSEC_SCW (i : Nat) : Nat := 0x401184 + 4 * i
/-- WO. [1] RD; [0] WR -/
abbrev MSEC_SCCMD : Nat := 0x401198
/-- RW. [7:0] INDEX: SA -/
abbrev MSEC_SAIDX : Nat := 0x4011A0
/-- RW. Staged SA words (R345) -/
abbrev MSEC_SAW (i : Nat) : Nat := 0x4011A4 + 4 * i
/-- WO. [1] RD; [0] WR -/
abbrev MSEC_SACMD : Nat := 0x4011C4
/-- RO. Latched SA counters -/
abbrev MSEC_SACNT (i : Nat) : Nat := 0x4011C8 + 4 * i
/-- RWS. Control -/
abbrev CAUTH_CTL : Nat := 0x402100
/-- RW. [8:0] INDEX: association -/
abbrev CAUTH_AIDX : Nat := 0x402104
/-- RW. Staged association words (R353) -/
abbrev CAUTH_AW (i : Nat) : Nat := 0x402108 + 4 * i
/-- WO. [1] RD; [0] WR -/
abbrev CAUTH_ACMD : Nat := 0x402118
/-- RW. [11:0] INDEX: freshness counter -/
abbrev CAUTH_FIDX : Nat := 0x402120
/-- RW. Staged counter [31:0] -/
abbrev CAUTH_FLO : Nat := 0x402124
/-- RW. Staged counter [63:32] -/
abbrev CAUTH_FHI : Nat := 0x402128
/-- WO. [2] FORCE; [1] RD; [0] WR -/
abbrev CAUTH_FCMD : Nat := 0x40212C
/-- RO. Copies secured -/
abbrev CAUTH_TXOK : Nat := 0x402130
/-- RO. Frames verified -/
abbrev CAUTH_RXOK : Nat := 0x402134
/-- RO. MAC failures -/
abbrev CAUTH_MACFAIL : Nat := 0x402138
/-- RO. Freshness failures -/
abbrev CAUTH_FRESHFAIL : Nat := 0x40213C
/-- RO. Frames too short -/
abbrev CAUTH_SHORT : Nat := 0x402140
/-- RO. Copies dropped for length -/
abbrev CAUTH_TXLEN : Nat := 0x402144
/-- RO. Copies dropped at counter exhaustion -/
abbrev CAUTH_FVEXH : Nat := 0x402148
/-- WO. Bit 0 = 1 clears 0x130–0x148 and CAUTH_LASTFAIL -/
abbrev CAUTH_CNTCLR : Nat := 0x40214C
/-- RO. Last failure -/
abbrev CAUTH_LASTFAIL : Nat := 0x402150
/-- RO. Root and engine status -/
abbrev YEW_STAT : Nat := 0x403100
/-- RO. Device identity (R370) -/
abbrev YEW_ID (i : Nat) : Nat := 0x403104 + 4 * i
/-- RO. Update counter [31:0]; read latches HI -/
abbrev YEW_UCNT_LO : Nat := 0x403114
/-- RO. Update counter [63:32] -/
abbrev YEW_UCNT_HI : Nat := 0x403118
/-- WO. [0] GO (R379) -/
abbrev YEW_UCMD : Nat := 0x40311C
/-- RO. [31] VALID; [23:16] CODE (R380); [8:0] SLOT -/
abbrev YEW_URES : Nat := 0x403120
/-- RWG. [0] GO (R383) -/
abbrev YEW_REKEY : Nat := 0x403124
/-- RW. [8:0]: slot shown in SATTR and SLABEL -/
abbrev YEW_SIDX : Nat := 0x403128
/-- RO. Attribute word of the slot (R374) -/
abbrev YEW_SATTR : Nat := 0x40312C
/-- RO. Label of a DERIVED slot; 0 otherwise -/
abbrev YEW_SLABEL : Nat := 0x403130
/-- RO. Slots lost under R373 -/
abbrev YEW_RECERR : Nat := 0x403134
/-- RO. Updates completed -/
abbrev YEW_UPDOK : Nat := 0x403138
/-- RO. Updates failed -/
abbrev YEW_UPDFAIL : Nat := 0x40313C
/-- WO. Bit 0 = 1 clears 0x134–0x13C -/
abbrev YEW_CNTCLR : Nat := 0x403140
/-- RW. Message word k, 0–20 -/
abbrev YEW_UMSG (i : Nat) : Nat := 0x403180 + 4 * i
/-- RO. Confirmation (R382) -/
abbrev YEW_CONF (i : Nat) : Nat := 0x4031E0 + 4 * i
/-- RWG. Sensor enables and lock -/
abbrev TMP_CTL : Nat := 0x830100
/-- RWG. [9:6] DEB, 0–15 ticks; [1] LVL1; [0] LVL0: active level of TAMP_SWn, 0x0 = low -/
abbrev TMP_SWCFG : Nat := 0x830104
/-- RWG. [1:0] MISMAX − 1: 1–4 consecutive mismatches -/
abbrev TMP_MESHCFG : Nat := 0x830108
/-- RO. [31] ALARM; [6:0]: sensors in alarm, bit order of TMP_CTL -/
abbrev TMP_STAT : Nat := 0x83010C
/-- RO. [9:8] NEXT: ring entry written next; [7:0] COUNT, saturating -/
abbrev TMP_EVCNT : Nat := 0x830110
/-- WO. Bit 0 = 1 clears the ring and TMP_EVCNT -/
abbrev TMP_EVCLR : Nat := 0x830114
/-- RO. Event k source -/
abbrev TMP_EV_SRC (i : Nat) : Nat := 0x830120 + 12 * i
/-- RO. Real-time counter [31:0] -/
abbrev TMP_EV_RTCLO (i : Nat) : Nat := 0x830124 + 12 * i
/-- RO. [15:0]: real-time counter [47:32] -/
abbrev TMP_EV_RTCHI (i : Nat) : Nat := 0x830128 + 12 * i
/-- RO. Live counter [31:0]; read latches HI -/
abbrev TMP_RTC_LO : Nat := 0x830150
/-- RO. [15:0]: live counter [47:32] -/
abbrev TMP_RTC_HI : Nat := 0x830154
/-- RW. [3:0] CTO: completion timeout for the device's own reads; encoding below -/
abbrev HIF_CTL : Nat := 0x500100
/-- RO. [31] LINKUP; [30] BME; [29] D3; [19:16] WIDTH: lanes; [3:0] SPEED: 0x1 = 2.5, 0x2 = 5.0, 0 -/
abbrev HIF_STAT : Nat := 0x500104
/-- WO. [6:0]: vector serviced (R394) -/
abbrev HIF_EOI : Nat := 0x500108
/-- RO. Levels of vectors 32k to 32k + 31 -/
abbrev HIF_VLEVEL (i : Nat) : Nat := 0x50010C + 4 * i
/-- RW. [8k+5:8k]: receive queue for class k, k = 0–3 -/
abbrev HIF_SWQ0 : Nat := 0x50011C
/-- RW. [8k+5:8k]: receive queue for class 4 + k -/
abbrev HIF_SWQ1 : Nat := 0x500120
/-- RO. Completion timeouts -/
abbrev HIF_CPLTO : Nat := 0x500124
/-- RO. Completions received with UR, CA or poison -/
abbrev HIF_RXERR : Nat := 0x500128
/-- RO. Link losses (R393) -/
abbrev HIF_LINKDN : Nat := 0x50012C
/-- WO. Bit 0 = 1 clears 0x124–0x12C -/
abbrev HIF_CNTCLR : Nat := 0x500130
/-- RW. [6:0] INDEX: queue staged -/
abbrev HQ_QIDX : Nat := 0x501100
/-- RW. [31:5]: ring base [31:5]; [4:0] read 0 -/
abbrev HQ_QBLO : Nat := 0x501104
/-- RW. Ring base [63:32] -/
abbrev HQ_QBHI : Nat := 0x501108
/-- RW. [12:0] SIZE, 2–4,096; values outside act as 2 -/
abbrev HQ_QSIZE : Nat := 0x50110C
/-- RW. Queue configuration -/
abbrev HQ_QCFG : Nat := 0x501110
/-- RW. Interrupt moderation (R402) -/
abbrev HQ_QIRQ : Nat := 0x501114
/-- WO. [1] RD, which also latches the counters; [0] WR -/
abbrev HQ_QCMD : Nat := 0x501118
/-- WO. [31] GO; [6:0] INDEX (R403) -/
abbrev HQ_QRESET : Nat := 0x50111C
/-- RO. Latched: entries completed -/
abbrev HQ_QDONE : Nat := 0x501120
/-- RO. Latched: BADDESC entries -/
abbrev HQ_QBAD : Nat := 0x501124
/-- RO. Latched: items dropped under R400 -/
abbrev HQ_RXNOBUF : Nat := 0x501128
/-- RW. [11:0] TAIL of TXQq -/
abbrev HQ_TXTAIL (i : Nat) : Nat := 0x501200 + 8 * i
/-- RO. [27:16] FETCH; [11:0] CPL -/
abbrev HQ_TXHEAD (i : Nat) : Nat := 0x501204 + 8 * i
/-- RW. [11:0] TAIL of RXQq -/
abbrev HQ_RXTAIL (i : Nat) : Nat := 0x501400 + 8 * i
/-- RO. [27:16] FETCH; [11:0] CPL -/
abbrev HQ_RXHEAD (i : Nat) : Nat := 0x501404 + 8 * i
/-- RW. [0] EN: 0x0 = no channel starts a new access -/
abbrev DMA_CTL : Nat := 0x502100
/-- RO. Bit n = 1: channel n halted, n = 0–31 -/
abbrev DMA_HALT0 : Nat := 0x502104
/-- RO. [19:0]: channels 32–51 -/
abbrev DMA_HALT1 : Nat := 0x502108
/-- WO. Bit n = 1 resets channel n under R411 -/
abbrev DMA_RESET0 : Nat := 0x50210C
/-- WO. [19:0]: channels 32–51 -/
abbrev DMA_RESET1 : Nat := 0x502110
/-- RO. [31] STOP (R410); [1:0] FIRST: bulk channel that failed, minus 48 -/
abbrev DMA_GRP : Nat := 0x502114
/-- RO. [7:0]: PCIe reads outstanding, 0–128 -/
abbrev DMA_OUTST : Nat := 0x502118
/-- RW. Channel control -/
abbrev DMACH_CTL (n : Nat) : Nat := 0x503100 + 0x1000 * n
/-- RO. Channel status -/
abbrev DMACH_STAT (n : Nat) : Nat := 0x503104 + 0x1000 * n
/-- RW. [31:5]: copy ring base [31:5] -/
abbrev DMACH_RBLO (n : Nat) : Nat := 0x503108 + 0x1000 * n
/-- RW. Copy ring base [63:32] -/
abbrev DMACH_RBHI (n : Nat) : Nat := 0x50310C + 0x1000 * n
/-- RW. [12:0] SIZE, 2–4,096; values outside act as 2 -/
abbrev DMACH_RSIZE (n : Nat) : Nat := 0x503110 + 0x1000 * n
/-- RO. [27:16] FETCH; [11:0] CPL -/
abbrev DMACH_RHEAD (n : Nat) : Nat := 0x503114 + 0x1000 * n
/-- RW. [11:0] TAIL -/
abbrev DMACH_RTAIL (n : Nat) : Nat := 0x503118 + 0x1000 * n
/-- RW. Rate limiter, burst size and weight -/
abbrev DMACH_RATE (n : Nat) : Nat := 0x50311C + 0x1000 * n
/-- RO. Failing address [31:0] -/
abbrev DMACH_ERRADDR_LO (n : Nat) : Nat := 0x503120 + 0x1000 * n
/-- RO. Failing address [63:32] -/
abbrev DMACH_ERRADDR_HI (n : Nat) : Nat := 0x503124 + 0x1000 * n
/-- RO. Halt details -/
abbrev DMACH_ERRINFO (n : Nat) : Nat := 0x503128 + 0x1000 * n
/-- RO. SIDEFX word kept under R407 -/
abbrev DMACH_HOLD (n : Nat) : Nat := 0x50312C + 0x1000 * n
/-- RO. Bytes remaining in the current descriptor -/
abbrev DMACH_REM (n : Nat) : Nat := 0x503130 + 0x1000 * n
/-- RO. Descriptors completed -/
abbrev DMACH_DONE (n : Nat) : Nat := 0x503134 + 0x1000 * n
/-- RO. Bytes moved, in units of 64 B -/
abbrev DMACH_BYTES (n : Nat) : Nat := 0x503138 + 0x1000 * n
/-- WO. Bit 0 = 1 clears 0x134–0x138 -/
abbrev DMACH_CNTCLR (n : Nat) : Nat := 0x50313C + 0x1000 * n
/-- RO. [5:0]: reads outstanding, 0–32 -/
abbrev DMACH_OUTST (n : Nat) : Nat := 0x503140 + 0x1000 * n
/-- RO. [15:0]: TAG of the current descriptor -/
abbrev DMACH_CUR (n : Nat) : Nat := 0x503144 + 0x1000 * n
/-- RWG. Warning threshold -/
abbrev PWR_PFCFG : Nat := 0x800100
/-- RW. Save set and arming -/
abbrev PWR_SAVECTL : Nat := 0x800104
/-- RO. Supply status -/
abbrev PWR_STAT : Nat := 0x800108
/-- RO. [31:16] VHOLD; [15:0] VSUP -/
abbrev PWR_VMEAS : Nat := 0x80010C
/-- RWG. [4] SSEN; [1:0] FSW: 0x0 = 300 kHz; 0x1 = 400 kHz; 0x2 = 500 kHz; 0x3 acts as 0x1 -/
abbrev PWR_BUCK : Nat := 0x800110
/-- RWG. [11:8] D2; [3:0] D1: delays in units of 100 µs (R421) -/
abbrev PWR_SEQ : Nat := 0x800114
/-- RW. [0] SLP (R423) -/
abbrev PWR_INH : Nat := 0x800118
/-- RO. [31] VALID; [15:0]: capacitance in µF (R428) -/
abbrev PWR_CAPEST : Nat := 0x80011C
/-- RO. Last save -/
abbrev PWR_LASTSAVE : Nat := 0x800120
/-- RO. [15:0]: lowest VHOLD in the last SAVE -/
abbrev PWR_VHMIN : Nat := 0x800124
/-- RO. Ride-throughs -/
abbrev PWR_RIDECNT : Nat := 0x800128
/-- RO. PF_WARN assertions -/
abbrev PWR_PFCNT : Nat := 0x80012C
/-- WO. Bit 0 = 1 clears 0x128–0x12C -/
abbrev PWR_CNTCLR : Nat := 0x800130
/-- RWG. Sleep control -/
abbrev WKN_CTL : Nat := 0x801100
/-- RO. Agreement status -/
abbrev WKN_STAT : Nat := 0x801104
/-- WO. [31] GO (R454) -/
abbrev WKN_SLEEP : Nat := 0x801108
/-- RW. [23:0]: bit n = 1 holds segment n awake (R443) -/
abbrev WKN_HOLD : Nat := 0x80110C
/-- WO. [7:0]: bit k = 1 wakes domain k -/
abbrev WKN_WREQ : Nat := 0x801110
/-- RO. Last wake of the device -/
abbrev WKN_WCAUSE : Nat := 0x801114
/-- RO. Real-time counter at that wake, [31:0]; read latches HI -/
abbrev WKN_WRTC_LO : Nat := 0x801118
/-- RO. [15:0]: counter [47:32] -/
abbrev WKN_WRTC_HI : Nat := 0x80111C
/-- RO. [31] VALID; [3:0] cause of the last refusal (R454) -/
abbrev WKN_ABORT : Nat := 0x801120
/-- RO. [31] VALID; [29] IDE; [20:16] segment; [2:0] domain (R458) -/
abbrev WKN_STAYREC : Nat := 0x801124
/-- RO. [28:0]: identifier of the recorded keep-alive frame -/
abbrev WKN_STAYID : Nat := 0x801128
/-- RW. Alarm value of the real-time counter, [31:0] -/
abbrev WKN_RTCALM_LO : Nat := 0x80112C
/-- RW. [31] EN; [23:16] DOM: domains woken; [15:0]: alarm [47:32] -/
abbrev WKN_RTCALM_HI : Nat := 0x801130
/-- RW. [23:16] WLREL, ms; [15:8] FILT, units of 10 µs; [7:0] DOM -/
abbrev WKN_WLCFG : Nat := 0x801134
/-- RW. Local wake input i -/
abbrev WKN_LWCFG (i : Nat) : Nat := 0x801140 + 4 * i
/-- RW. [23:0]: member segments -/
abbrev WKN_DOM_MEM (i : Nat) : Nat := 0x801160 + 8 * i
/-- RW. Domain settings -/
abbrev WKN_DOM_CFG (i : Nat) : Nat := 0x801164 + 8 * i
/-- RO. Wakes of the device -/
abbrev WKN_WAKECNT : Nat := 0x8011A0
/-- RO. Late wakes (R455) -/
abbrev WKN_LATECNT : Nat := 0x8011A4
/-- RO. Refused sleep requests -/
abbrev WKN_ABORTCNT : Nat := 0x8011A8
/-- RO. Fail-safe entries (R448) -/
abbrev WKN_FSCNT : Nat := 0x8011AC
/-- RO. Reports under R458 -/
abbrev WKN_STAYCNT : Nat := 0x8011B0
/-- WO. Bit 0 = 1 clears 0x1A0–0x1B0 -/
abbrev WKN_CNTCLR : Nat := 0x8011B4
/-- RW. [1:0] MODE: 0x0 = FOLLOW; 0x1 = RXONLY; 0x2 = OFF; 0x3 = reserved, acts as RXONLY -/
abbrev TRX_CTL (n : Nat) : Nat := 0x810100 + 0x1000 * n
/-- RWG. Transceiver configuration -/
abbrev TRX_CFG (n : Nat) : Nat := 0x810104 + 0x1000 * n
/-- RWG. [29] IDE; [28:0] ID: wake-up frame identifier -/
abbrev TRX_SWID (n : Nat) : Nat := 0x810108 + 0x1000 * n
/-- RWG. [28:0]: bit = 1 compares the identifier bit -/
abbrev TRX_SWIDM (n : Nat) : Nat := 0x81010C + 0x1000 * n
/-- RWG. [4] DLCCHK; [3:0] DLC -/
abbrev TRX_SWDLC (n : Nat) : Nat := 0x810110 + 0x1000 * n
/-- RWG. Data mask bytes 0–3, byte j in [8j+7:8j] -/
abbrev TRX_SWDM0 (n : Nat) : Nat := 0x810114 + 0x1000 * n
/-- RWG. Data mask bytes 4–7, byte 4 + j in [8j+7:8j] -/
abbrev TRX_SWDM1 (n : Nat) : Nat := 0x810118 + 0x1000 * n
/-- RW. [29] IDE; [28:0] ID: keep-alive identifier (R442) -/
abbrev TRX_KAID (n : Nat) : Nat := 0x81011C + 0x1000 * n
/-- RW. [28:0]: bit = 1 compares the identifier bit -/
abbrev TRX_KAMASK (n : Nat) : Nat := 0x810120 + 0x1000 * n
/-- RO. Transceiver status -/
abbrev TRX_STAT (n : Nat) : Nat := 0x810124 + 0x1000 * n
/-- RO. [31] VALID; [29] IDE; [28:0]: last keep-alive identifier -/
abbrev TRX_KALAST (n : Nat) : Nat := 0x810128 + 0x1000 * n
/-- RO. Keep-alive frames seen -/
abbrev TRX_KACNT (n : Nat) : Nat := 0x81012C + 0x1000 * n
/-- RO. Matching wake-up frames -/
abbrev TRX_WUFCNT (n : Nat) : Nat := 0x810130 + 0x1000 * n
/-- RO. Decoder error overflows -/
abbrev TRX_FEOVF (n : Nat) : Nat := 0x810134 + 0x1000 * n
/-- WO. Bit 0 = 1 clears 0x12C–0x134 and KALAST.VALID -/
abbrev TRX_CNTCLR (n : Nat) : Nat := 0x810138 + 0x1000 * n
/-- RWG. Guarded as a whole (R466). [31] GO: a 1 in a write that takes effect requests the reset; r -/
abbrev CHIP_RSTCTL : Nat := 0x180
/-- RO. Cause of the last Yatric reset -/
abbrev CHIP_RSTCAUSE : Nat := 0x184
/-- RO. Boot progress -/
abbrev CHIP_BOOTSTAT : Nat := 0x188
/-- RO. [31] VALID; [23:16] CODE; [15:0] BLOCK: block in error -/
abbrev CHIP_BOOTERR : Nat := 0x18C
/-- RO. [15:0]: release to cold commit, units of 10 µs; saturates at 0xFFFF -/
abbrev CHIP_BOOTTIME : Nat := 0x190
/-- RWG. [15:0] LIMIT: watchdog in ms; 0x0000 = stopped (R467) -/
abbrev CHIP_WDT : Nat := 0x194
/-- WO. [0] KICK -/
abbrev CHIP_WDKICK : Nat := 0x198
/-- RW. Laurel service control -/
abbrev LRL_CTL : Nat := 0x6100
/-- RO. Mailbox and FIFO status -/
abbrev LRL_STAT : Nat := 0x6104
/-- WO. [0] GO (R477) -/
abbrev LRL_DOORBELL : Nat := 0x6108
/-- WO. [0] ACK -/
abbrev LRL_RSPACK : Nat := 0x610C
/-- RC. Oldest event word, removed by the read (R485) -/
abbrev LRL_EVPOP : Nat := 0x6110
/-- RW. Request word k, 0–15 -/
abbrev LRL_REQ (i : Nat) : Nat := 0x6140 + 4 * i
/-- RO. Response word k, 0–15 -/
abbrev LRL_RSP (i : Nat) : Nat := 0x6180 + 4 * i
/-- RWG. Pair control -/
abbrev PAIR_CTL : Nat := 0x5100
/-- RO. Role and link status -/
abbrev PAIR_STAT : Nat := 0x5104
/-- WO. [3] PROMOTE; [2] DEMOTE; [1] JOIN_STBY; [0] JOIN_ACT -/
abbrev PAIR_CMD : Nat := 0x5108
/-- RO. Digest mismatches -/
abbrev PAIR_DIGMIS : Nat := 0x510C
/-- RO. [31] VALID; [29:24] egress 0–38; [15:0] k[15:0] -/
abbrev PAIR_LASTMIS : Nat := 0x5110
/-- RO. Mirrored frames dropped -/
abbrev PAIR_MIRDROP : Nat := 0x5114
/-- RO. Own ingress discarded in STANDBY -/
abbrev PAIR_OWNDISC : Nat := 0x5118
/-- RO. Promotions -/
abbrev PAIR_SWOVER : Nat := 0x511C
/-- RO. [31] VALID; [1:0] cause: 0x0 = heartbeat; 0x1 = handover; 0x2 = command; 0x3 = dual active -/
abbrev PAIR_LASTSW : Nat := 0x5120
/-- WO. Bit 0 = 1 clears 0x10C–0x11C and the VALID bits of 0x110 and 0x120 -/
abbrev PAIR_CNTCLR : Nat := 0x5124
/-- RWG. [0] EN (R522) -/
abbrev OBS_CTL : Nat := 0x4100
/-- RO. [31] TESTROOT; [30] RUN: stream active; [6:0] FIFO records, 0–64 -/
abbrev OBS_STAT : Nat := 0x4104
/-- RW. [15:0]: bit t = 1 enables TYPE t; bits 0, 1 and 11 ignored -/
abbrev OBS_SRC : Nat := 0x4108
/-- RW. [23:0]: bit n = 1 traces CANCn -/
abbrev OBS_CANMASK : Nat := 0x410C
/-- RW. [13:0]: bit p = 1 traces Ep -/
abbrev OBS_ETHMASK : Nat := 0x4110
/-- RW. [29] IDE; [28:0] ID -/
abbrev OBS_IDV : Nat := 0x4114
/-- RW. [30] IDEX: 0x1 = IDE not compared; [28:0]: bit = 1 compares the identifier bit -/
abbrev OBS_IDM : Nat := 0x4118
/-- RW. [15:0]: COUNT period in µs; 0x0000 = none -/
abbrev OBS_CNTPER : Nat := 0x411C
/-- RO. Records dropped (R524) -/
abbrev OBS_LOST : Nat := 0x4120
/-- RO. Records sent, SYNC and LOST included -/
abbrev OBS_SENT : Nat := 0x4124
/-- WO. Bit 0 = 1 clears 0x120–0x124 -/
abbrev OBS_CNTCLR : Nat := 0x4128

end Reg

end Sys2Proof.Machine
end

