-- ==== Sys2Proof/Machine/State.lean ====
section
/-! DEFINITION. The state of the block as plain data: every register (sparse, keyed by BAR0 address, an unlisted
register reads its Reset column), shadow, table, buffer, queue, timer and pin the chapters name, the queue of waiting
commands, and the state after reset. -/
namespace Sys2Proof.Machine

/-- Why a run would stop. No meaning of this model raises one: every command of the table has an effect in the
spec, and an access the spec forbids is its own bus error (R51, R52), a next state. -/
inductive Fault
  /-- Raised by no meaning; reserved for a stop the spec would call a stuck state. Safe. -/
  | stuck
  deriving DecidableEq, Repr

/-- Why the model would answer no meaning. -/
inductive Refusal
  /-- Raised by Dispatch for a command whose meaning is not written; names the command. Safe. -/
  | notModelled (mnemonic : String)
  deriving DecidableEq, Repr

/-- What the block sends out, oldest first: the model's own record of everything an outside party receives. -/
inductive Out
  /-- A read completed to its initiator with these words (BAR 0 or 2). -/
  | readData (init : Initiator) (bar off : Nat) (ws : List Word)
  /-- An access ended as a bus error of this cause (R52): Completer Abort, exception or error response. -/
  | busError (init : Initiator) (write : Bool) (bar off cause : Nat)
  /-- An MSI-X message of a vector (R394). -/
  | msix (vec : Nat)
  /-- A register-slot message entered the link in this frame (R72, R79-R87). -/
  | linkMsg (dir : LinkDir) (m : BMsg) (frame : BitVec 256)
  /-- CANCn starts to send this frame (R110). -/
  | canStart (n : Nat) (f : CanFrame)
  /-- An Ethernet frame enters the switch from Bramble at PRIV in a traffic class (R156). -/
  | bramble (tc : Nat) (bytes : List Byte)
  /-- An item was handed to a receive host queue (R140, R400). -/
  | toHost (q : Nat) (f : CanFrame)
  /-- A frame left port En, FCS good or inverted (R238). -/
  | eth (port : Nat) (bytes : List Byte) (good : Bool)
  /-- A frame reached Laurel at port MGMT. -/
  | toLaurel (bytes : List Byte)
  /-- A frame left the pair link (R509). -/
  | pairLink (bytes : List Byte)
  /-- TRXn sends a wake-up pattern on its segment (R452). -/
  | wakePattern (n : Nat)
  /-- TOUTn drives this level (R328, R330). -/
  | tout (n : Nat) (level : Bool)
  /-- A unit of 16 bytes that is not idle left OBS_D (R520, R521). -/
  | obs (rec : List Byte)
  deriving DecidableEq, Repr

/-- The register bus state of 02_register_model.md: what each initiator holds (R44, R45, R61, R68, R69). Keys of
the per-initiator maps are init * 2^32 + address. -/
structure BusState where
  /-- (initiator, page base) pairs whose page is unlocked (R61). -/
  unlocked : List Nat
  /-- Latched high words and R54, R325 latches, per initiator. -/
  latch : List (Nat × Word)
  /-- Held low words of 64-bit registers, per initiator and register. -/
  low : List (Nat × Word)
  /-- BAR2 staged words, per initiator. -/
  stage : List (Nat × Word)
  /-- BAR2 word-0 latches, per initiator. -/
  entry : List (Nat × Word)
  deriving DecidableEq, Repr

/-- The sampled part of the pending commit (R55-R57): mask, target N and origin code. -/
structure CommitUnit where
  mask : Nat
  target : Nat
  src : Nat
  deriving DecidableEq, Repr

/-- A sampled and armed pulse output (R328): start N, period, width, periodic, number of the next instant, and the
end of the pulse in progress. -/
structure PulseOut where
  start : Nat
  per : Nat
  wid : Nat
  periodic : Bool
  next : Nat
  pulse : Option Nat
  deriving DecidableEq, Repr

/-- The time unit (11_time_sync.md): full time N in ns, the common fraction in 2^-32 ns, the local count, the
watchdog's last restart on the local count, the outputs, the counter value a correlation request waits for (R332), the full time that the
last step set (R319), and STEPCNT when each event of the tamper ring was recorded (R483). -/
structure TimeUnit where
  full : Nat
  frac : Nat
  loc : Nat
  wdStart : Nat
  touts : List PulseOut
  corr : Option Nat
  stepTo : Nat
  evSteps : List (Nat × Nat)
  deriving DecidableEq, Repr

/-- A register message sent and not yet acknowledged: when it was last sent and how often it was resent (R78). -/
structure Unacked where
  msg : BMsg
  sentAt : Nat
  resends : Nat
  deriving DecidableEq, Repr

/-- One end of the register slot: next SEQ sent, next SEQ expected, sent and not acknowledged (R78); FSEQ of the last frame received
(R72); consecutive frames received with a CRC failure (R89). -/
structure LinkSide where
  txSeq : Nat
  rxSeq : Nat
  unacked : List Unacked
  fseq : Nat := 0
  bad : Nat := 0
  deriving DecidableEq, Repr

/-- Where a Kykel-window access of the Yatric bridge stands: held at the bridge (R82, R84, R87), on the link, or
waiting RTINT before a repetition (R79); acked: a posted write that the Kykel die has received, complete unless a refusal or a RETRY
comes back. -/
inductive BPhase
  | held
  | sent
  | retryWait (due : Nat)
  | acked
  deriving DecidableEq, Repr

/-- One Kykel-window access in the Yatric bridge (R79-R83). np: non-posted write or read; chan: the DMA channel it is for. -/
structure BReq where
  init : Initiator
  off : Nat
  write : Bool
  np : Bool
  val : Word
  phase : BPhase
  tries : Nat
  chan : Option (Fin 52) := none
  deriving DecidableEq, Repr

/-- One side of the event slot (R459): messages not yet acknowledged, oldest first (ESEQ, TYPE, DETAIL), the next ESEQ,
and the last ESEQ accepted from the other side. -/
structure EvSide where
  q : List (Nat × Nat × Nat) := []
  seq : Nat := 0
  lastRx : Option Nat := none
  deriving DecidableEq, Repr

/-- The Xanpel link (03_xanpel_link.md) beyond its registers. -/
structure Xpl where
  /-- Local time of the last entry to TRAIN from another state, and of the current attempt's start (R89, XPL_TRTIME). -/
  trainAt : Nat
  attemptAt : Nat
  /-- Attempts since the entry to TRAIN (R89). -/
  attempts : Nat
  /-- The link became UP at this instant on mono: the frames of both directions are numbered from it (R71, R72). -/
  upAt : Nat
  yat : LinkSide
  kyk : LinkSide
  reqs : List BReq
  /-- Grant time of the held lock (R85) and the initiators waiting (R84), oldest first. -/
  lockAt : Nat
  lockWait : List Initiator
  /-- A lock request message is under way for the first waiter; it was answered RETRY and is repeated at this local time; repetitions
  made (R79). -/
  lockAsked : Bool
  lockDue : Option Nat
  lockTries : Nat
  /-- Initiators whose next access reports a broken lock (R85). -/
  broken : List Initiator
  /-- Kykel side: its bus is held by a Yatric lock since this instant on mono (R84, R85). -/
  kykLock : Option Nat
  /-- The Kykel die holds a lock on the Yatric bus since this local time (R85, R86). -/
  yatLock : Option Nat
  /-- Kykel side: its bus is held by its own transfer toward the Yatric die (R79, R87); the requests that wait for it, oldest first; the
  writes (INIT, WADDR) it answered RETRY and has not seen again (R83). -/
  kykHold : Bool
  kykWait : List BMsg
  kykOrder : List (Nat × Nat)
  /-- End of the 2 us reservation of R87. -/
  resv : Option Nat
  /-- RXD levels CANC0-CANC15 see and TXD levels the transceivers see, true = recessive (R75). -/
  rxd : List Bool
  txd : List Bool
  /-- Last carried T1S field of PHYs 0 and 1 toward the Yatric die, and toward the Kykel die (R76). -/
  t1sRx : List Nat
  t1sTx : List Nat
  /-- A nibble of the frame that PHY 0 or 1 receives was lost or came with RX_ER (R76). -/
  t1sErr : List Bool
  /-- Level of K_INT as the Yatric die sees it (R88), and the last summary word applied (R50): page index to PG_IMAP. -/
  kInt : Bool
  kSum : List (Nat × Word)
  kSync : Bool
  /-- Event slot: the Yatric side and the Kykel side (R459). -/
  evY : EvSide
  evK : EvSide
  deriving DecidableEq, Repr

/-- Where a copy or a waiting job came from, for what is counted or reported when it ends. -/
inductive Origin
  /-- A copy made by route entry i (R140). -/
  | route (i : Nat)
  /-- A PDU frame of transmit layout i (R193). -/
  | layout (i : Nat)
  /-- A claim, request or answer frame of the claim ledger, for entry e; claim: the number of the claim it makes (R207). -/
  | ledger (e : Nat) (claim : Option Nat)
  /-- A frame of transport session s, delivery part p (R222); final: its last frame. -/
  | tpe (s p : Nat) (final : Bool)
  /-- Frame d of transmit host queue q, which names its controller directly; ts: it asks for a stamp (R134, R397). -/
  | hostq (q d : Nat) (ts : Bool)
  /-- None of these. -/
  | other
  deriving DecidableEq, Repr

/-- The egress of a copy (R140). -/
inductive Egress
  | ctl (n : Nat)
  | host (q : Nat)
  | tun (s : Nat)
  deriving DecidableEq, Repr

/-- How far CAN authentication is with a controller copy (R355): none applies, association a is needed, the job is with
the crypto engine, or the secured data is in place. -/
inductive SecState
  | none
  | needed (a : Nat)
  | running (j : Nat)
  | done
  deriving DecidableEq, Repr

/-- One copy of a frame on its way to its egress (R140-R152). valid: local instant residence is measured from; deadline:
local instant, none = unsupervised; rid: received identifier with IDE (R14); stamp: full time N of the frame;
bin: full time the digest bins it by (R516); flags: bit 0 AUTHF, bit 1 DEF of a host item (R399); made: copies its route entry made (R521);
max: MAX of its controller's hold queue in its epoch (R19, R149). -/
structure Copy where
  eg : Egress
  frame : CanFrame
  pclass : Nat
  deadline : Option Nat
  valid : Nat
  bin : Nat
  src : Nat
  rid : Nat
  self : Bool
  sub : Nat
  stamp : Nat
  flags : Nat
  origin : Origin
  epoch : Nat
  job : Nat
  made : Nat
  sec : SecState
  digest : Bool
  max : Nat := 0
  deriving DecidableEq, Repr

/-- A frame pending in a transmit buffer: the copy and its placement number (R109). -/
structure CanTx where
  copy : Copy
  order : Nat
  deriving DecidableEq, Repr

/-- A job at its source or in a Privet slot (R115, R133, R161). stamp: full time N of the SOF edge, the message time or
the acceptance at PRIV; valid, validN: local and full time of the instant residence and age are measured from; hq: transmit
queue and frame number of a host descriptor with its TSREQ; direct: controller, priority class and RDL it names (R397). -/
structure Job where
  src : Nat
  self : Bool
  frame : CanFrame
  sub : Nat
  stamp : Nat
  valid : Nat
  validN : Nat
  hq : Option (Nat × Nat × Bool)
  direct : Option (Nat × Nat × Nat)
  deriving DecidableEq, Repr

/-- A CAN controller beyond its registers (04_can_controllers.md). -/
structure CanCtl where
  /-- Occupied transmit buffers by index 0-63 (R108). -/
  bufs : List (Nat × CanTx)
  /-- Placements made so far. -/
  seq : Nat
  /-- Buffer in transmission (R110). -/
  txNow : Option Nat
  /-- Buffer whose cancel request is undecided (R113). -/
  cancel : Option Nat
  /-- Receive buffer, oldest first (R117). -/
  rx : List Job
  /-- In the suspend transmission time (R120). -/
  suspend : Bool
  /-- An error or overload flag is under way or has just ended, and the controller was the transmitter of its frame (R118). -/
  flag : Option Bool
  /-- The last frame on the bus was its own. -/
  sentLast : Bool
  /-- A committed change waits to be taken into use (R96). -/
  cfgPend : Bool
  /-- MODE, BTN, BTD, TDC, XLCTL and XLPWM in use (R96, R99). -/
  mode : Word
  btn : Word
  btd : Word
  tdc : Word
  xlctl : Word
  xlpwm : Word
  /-- In BUS_OFF or RECOVERING when it was disabled (R98). -/
  wasOff : Bool
  /-- A frame this controller sent that is to become valid at the end of EOF (R114, R116). -/
  selfDue : Option CanFrame
  /-- It left DISABLED and has not been error active since (R212); its claim window is due. -/
  fromDis : Bool
  openDue : Bool
  /-- Local time of the last entry to BUS_OFF, and of the start or restart of RECSEQ (R125). -/
  boffAt : Nat
  recAt : Nat
  deriving DecidableEq, Repr

/-- A controller after reset: DISABLED, registers at their Reset column in use. -/
def canReset : CanCtl :=
  ⟨[], 0, none, none, [], false, none, false, false, 0x30, 0x264D1403, 0x00133A13, 0x00003C01, 0x2, 0x3B13, false, none, false, false, 0, 0⟩

/-- Where a Privet slot stands: waiting for its verification (R356), with the crypto engine under a job number, waiting for an earlier
job's use of the claim ledger (R201), or routed. -/
inductive SlotPhase
  | waitVerify (a : Nat) (ws : List Word)
  | verifying (j : Nat) (ws : List Word)
  | waitOrder
  | routed
  deriving DecidableEq, Repr

/-- A job in flight in Privet (R144, R147): the job, its epoch tag, the copies not yet past their window, in creation
order; formed: a frame formed by the signal engine, the ledger or the transport protocol engine. -/
structure Slot where
  job : Job
  epoch : Nat
  phase : SlotPhase
  copies : List Copy
  reserved : Bool
  formed : Bool
  deriving DecidableEq, Repr

/-- The cells of a stored frame (R147): how many, whether charged to the hold pool, copies still to leave. -/
structure Cells where
  n : Nat
  charged : Bool
  refs : Nat
  deriving DecidableEq, Repr

/-- A hand-off of a frame to the signal engine, the transport protocol engine or the claim ledger (R140). ix: PDU
layout for SIG, route index otherwise. -/
structure Handoff where
  job : Job
  epoch : Nat
  ix : Nat
  deriving DecidableEq, Repr

/-- An item for the signal engine: a hand-off, or a stale mark of a source with its slot's write number (R187). -/
inductive SigItem
  | job (h : Handoff)
  | mark (src gen : Nat)
  deriving DecidableEq, Repr

/-- A value-store slot (R169): value bits [35:0], qualifier, update time (local), UPD, CNTD, and the number of the last
write. -/
structure SigSlot where
  val : Nat
  qual : Nat
  upAt : Nat
  upd : Bool
  cntd : Bool
  gen : Nat
  deriving DecidableEq, Repr

/-- A transmit layout beside its words (R189-R191): VCOUNT, local time of the last send instant, a deferred send (due,
whether an event trigger is among its triggers), and the last schedule instant fired with TSY_STAT.STEPCNT. -/
structure PduSt where
  vcount : Nat := 0
  last : Option Nat := none
  defer : Option (Nat × Bool) := none
  tick : Option (Nat × Nat) := none
  deriving DecidableEq, Repr

/-- A Bramble transmit stream (R155-R158): next sequence_num, messages of the aggregate oldest first with their bytes,
the local time the first was enqueued. -/
structure TxStream where
  seq : Nat
  agg : List (List Byte)
  since : Nat
  deriving DecidableEq, Repr

/-- A running cycle-time supervision window (R153): start and length in ns on the local count. -/
structure CycWin where
  start : Nat
  len : Nat
  deriving DecidableEq, Repr

/-- Privet's frame routing and Bramble beyond their registers (05_frame_routing.md). -/
structure Privet where
  nextJob : Nat
  /-- Jobs waiting at Bramble, host queues and Laurel, oldest first (R16, R19). -/
  wait : List Job
  slots : List (Nat × Slot)
  cells : List (Nat × Cells)
  /-- Hold queue of each controller, in order of arrival (R148). -/
  hold : List (Nat × List Copy)
  sigQ : List SigItem
  /-- Value-store slots that were written since the page's reset, which was at the local time resetAt. -/
  slotv : List (Nat × SigSlot)
  resetAt : Nat
  /-- Transmit layouts, triggers that wait for the formation unit (local time, layout, event) in their order, and the PDU data
  store. -/
  pdu : List (Nat × PduSt)
  trigQ : List (Nat × Nat × Bool)
  pdata : List Host.Cell
  tpeQ : List Handoff
  clmQ : List Handoff
  /-- Route counters, key 4 * route + (0 CMATCH, 1 CDLDROP, 2 CCYCMISS) (R154). -/
  rcnt : List (Nat × Nat)
  cyc : List (Nat × CycWin)
  tx : List (Nat × TxStream)
  /-- Local time of the last accepted frame of each receive stream (R162). -/
  rxAt : List (Nat × Nat)
  /-- Local time of the last ROUTE_DEMAND of each segment (R444). -/
  demand : List (Nat × Nat)
  /-- Entries whose claim frame was sent, with the number of the claim, which the ledger has to hear of (R207). -/
  reports : List (Nat × Nat)
  /-- Layout counters, key 4 * layout + (0 CSENT, 1 CINHIB, 2 CSUPP, 3 CDLDROP) (R198). -/
  pcnt : List (Nat × Nat)
  /-- Ethernet frames that left the switch at PRIV and wait for Bramble, with full and local arrival time. -/
  ethIn : List (List Byte)
  deriving DecidableEq, Repr

/-- A Bramble stream after reset. -/
def txStreamReset : TxStream := ⟨0, [], 0⟩

/-- Claim-ledger state beside the entries of BAR2 (07_isobus_services.md), by entry index or segment. Times are local. -/
structure Ledger where
  /-- The number of an entry's last claim, and of the next one (R207). -/
  claim : List (Nat × Nat) := []
  nextClaim : Nat := 0
  /-- NAME and SA with which an own entry was displaced: it is not claimed again with them (R208). -/
  lost : List (Nat × (Nat × Nat)) := []
  /-- End of the 250 ms claim wait of an entry (R207). -/
  wait : List (Nat × Nat) := []
  /-- When an entry's dropped claim is formed again (R207). -/
  retry : List (Nat × Nat) := []
  /-- When an entry's cannot-claim is sent (R208). -/
  cannot : List (Nat × Nat) := []
  /-- Last defence of an entry (R209). -/
  defence : List (Nat × Nat) := []
  /-- Second of full time and claims of a NAME's entry in it (R206). -/
  storm : List (Nat × (Nat × Nat)) := []
  /-- End of the open claim window of a segment (R212). -/
  win : List (Nat × Nat) := []
  deriving DecidableEq, Repr

/-- Where a delivery part of a session goes (R222). -/
inductive TpeDest
  | relay (n sa da : Nat)
  | host (q : Nat)
  | bamCan (n sa : Nat)
  | bamTun (str : Nat)
  deriving DecidableEq, Repr

/-- What a delivery part waits for (R222, R224): its start, the end of a window in transmission, a CTS (T3), a CTS after
a CTS for 0 packets (T4), the End of Message Acknowledgement (T3), or the next BAM packet. -/
inductive TpeWait
  | start
  | window
  | cts
  | ctsHold
  | eoma
  | gap
  deriving DecidableEq, Repr

/-- A delivery part: destination, packets sent in order so far, last packet of the window, what it waits for since when. -/
structure TpePart where
  id : Nat
  dest : TpeDest
  sent : Nat
  winEnd : Nat
  wait : TpeWait
  since : Nat
  deriving DecidableEq, Repr

/-- A transport session (R217-R225): kind 0 TP RTS, 1 BAM, 2 ETP. got: packets received in order; winEnd: last packet the
last CTS asked for; dpo: offset and count of the ETP DPO in force; ctsM: limit of R220; any: a packet arrived since the
last CTS; since: instant the ingress timer runs from; failed: a part was not delivered. -/
structure TpeSession where
  kind : Nat
  hostd : Bool
  seg : Nat
  sa : Nat
  da : Nat
  pgn : Nat
  size : Nat
  stamp : Nat
  pages : List Nat
  got : Nat
  winStart : Nat
  winEnd : Nat
  dpo : Option (Nat × Nat)
  ctsM : Nat
  any : Bool
  since : Nat
  delivering : Bool
  failed : Bool
  parts : List TpePart
  deriving DecidableEq, Repr

/-- The transport protocol engine: sessions by index, the pool in use (base and size in MiB), and a committed pool that
waits for the last session (R226), and the number of the next delivery part. -/
structure Tpe where
  ses : List (Nat × TpeSession) := []
  pool : Nat × Nat := (0xF00, 0x40)
  next : Option (Nat × Nat) := none
  nextPart : Nat := 0
  deriving DecidableEq, Repr

/-- A frame that waits to enter the switch at an internal port (14 HOST, 15 PRIV, 16 MGMT by R254): its bytes without FCS,
class, full time of acceptance, the transmit host queue and frame number it comes from, its DIRECT port, TSREQ, the checksum
request and the MSS of a large send (R397). -/
structure EthIn where
  port : Nat
  tc : Nat
  bytes : List Byte
  stamp : Nat
  hq : Option (Nat × Nat) := none
  direct : Option Nat := none
  tsreq : Bool := false
  csum : Bool := false
  lso : Option Nat := none
  deriving DecidableEq, Repr

/-- The pool a frame's cells are drawn from (R263). -/
inductive Pool
  | reserve
  | port
  | shared
  | headroom
  deriving DecidableEq, Repr

/-- A frame stored in the switch (R255-R264). bytes: without FCS; port: ingress port; pcp, dei, vid as used; tagged: it
arrived with a tag; colour: 0 green, 1 yellow, 2 red; epoch: its tag (R257); at: local time of its SFD or acceptance; stamp:
full time of the same; bin: full time it became valid; filt: it matched a stream filter; direct: HOST frame without lookup;
gated: it waits for its verification; wasGated: it came through the gate; only: ports it may reach; untag: UNTAG of its VLAN entry as
step 6 read it (R290); charge: queue 8p + c and pool its cells are charged to; spilled: its data is in DRAM, in the numbered units of
Thicket, each with its CRC-32; tkt: TKT_CTL, TKT_THR and TKT_QLIM of its epoch (R277); flushed: it is flushed when its verification ends;
skipped: it was counted in TSY_TCSKIP. -/
structure SwFrame where
  bytes : List Byte
  port : Nat
  tc : Nat
  pcp : Nat := 0
  dei : Bool := false
  vid : Nat := 0
  tagged : Bool := false
  colour : Nat := 0
  epoch : Nat := 0
  at_ : Nat := 0
  stamp : Nat := 0
  bin : Nat := 0
  filt : Bool := false
  routed : Bool := false
  direct : Option Nat := none
  msec : Bool := false
  gated : Bool := false
  wasGated : Bool := false
  only : Nat := 0x3FFFF
  untag : Nat := 0
  csum : Bool := false
  lso : Option Nat := none
  hq : Option (Nat × Nat) := none
  tsreq : Bool := false
  cells : Nat := 0
  refs : Nat := 0
  charge : Option (Nat × Pool) := none
  spilled : Bool := false
  units : List (Nat × Nat) := []
  tkt : Word × Word × Word := (0, 0, 0)
  flushed : Bool := false
  skipped : Bool := false
  deriving DecidableEq, Repr

/-- Where a queued copy's data is (R269-R271). -/
inductive ThPhase
  | chip
  | dram
  | reading
  | back
  deriving DecidableEq, Repr

/-- A copy in an egress queue: the stored frame, cut-through (R278), next segment of a large send, counted in TKT_FULL. -/
structure SwCopy where
  fid : Nat
  ct : Bool := false
  th : ThPhase := .chip
  seg : Nat := 0
  full : Bool := false
  deriving DecidableEq, Repr

/-- A policer (R261, R262): CIR, PIR in kb/s, CBS, PBS in bytes, buckets in 1/8,000,000 byte, local time of the last
filling, green, yellow and red frames. -/
structure Policer where
  cir : Nat := 0
  pir : Nat := 0
  cbs : Nat := 0
  pbs : Nat := 0
  red : Bool := true
  tc : Nat := 0
  tp : Nat := 0
  at_ : Nat := 0
  cnt : List Nat := [0, 0, 0]
  deriving DecidableEq, Repr

/-- A VLAN entry (R290): MEMBER, UNTAG and the MACT_VCFG word. -/
structure Vlan where
  member : Nat := 0
  untag : Nat := 0
  cfg : Word := 0
  deriving DecidableEq, Repr

/-- The switch core, its buffer and the forwarding tables beyond registers and BAR2 words. Queues are numbered 8p + c. -/
structure Switch where
  nextFid : Nat := 0
  frames : List (Nat × SwFrame) := []
  queues : List (Nat × List SwCopy) := []
  /-- Local time since which the head of an internal queue is its head (R281). -/
  headAt : List (Nat × Nat) := []
  /-- Average of a queue in 1/256 cell (R266). -/
  avg : List (Nat × Nat) := []
  /-- Ingress counters, key 4p + (0 ISDU, 1 IPOLRED, 2 IGATE, 3 ICT), and egress drop counters, key 16p + (0 ADMIT, 1 WRED,
  2 FLUSH, 3 STALL, 4 TKT, 8 + c deadline of class c). -/
  icnt : List (Nat × Nat) := []
  dcnt : List (Nat × Nat) := []
  pol : List (Nat × Policer) := []
  filt : List (Nat × List Word) := []
  fmatch : List (Nat × Nat) := []
  vlan : List (Nat × Vlan) := []
  /-- Overflow store words, key 4 * entry + word (R293). -/
  ovf : List (Nat × Word) := []
  /-- Learning requests (ingress port, FID, source address) (R297). -/
  lrn : List (Nat × Nat × Nat) := []
  /-- Local time of the last ageing sweep (R301). -/
  ageAt : Nat := 0
  /-- Ports whose DOWN flush waits for the running MAC flush (R302). -/
  mfl : List Nat := []
  /-- Result of the LPM scan that runs (R309). -/
  lpmChk : Option Word := none
  /-- Thicket region in use, and a committed one that waits (R273). -/
  region : Word := 0x800
  nextRegion : Option Word := none
  /-- The three conditions of R36 hold at every clock edge since this local time. -/
  quietAt : Option Nat := none
  /-- Gated frames in order of reception with the result of their verification (R350): none while it is open. -/
  gate : List (Nat × Option Bool) := []
  deriving DecidableEq, Repr

/-- The frame, or the segment of a large send, a port is sending: stored frame, queue, bytes without FCS, whether it frees
its copy at its end, whether it ends with the inverse FCS, its crypto job, whether it is a segment, and the bytes of the port's transmit
buffer it takes (R271). -/
structure TxNow where
  fid : Nat
  key : Nat
  bytes : List Byte
  last : Bool
  bad : Bool
  job : Option Nat
  seg : Bool := false
  buf : Nat := 0
  deriving DecidableEq, Repr

/-- A port's EMAC beyond its registers (08_ethernet_ports.md). Classes 0-7, 8 = the whole port under PAUSE. Times are local. -/
structure Emac where
  tx : Option TxNow := none
  /-- End of the pause of a class, start of its continuous pause with a frame waiting, end of its ignore period. -/
  pause : List (Nat × Nat) := []
  wd : List (Nat × Nat) := []
  ign : List (Nat × Nat) := []
  /-- Classes that ask to pause, classes the partner was last told of, and when (R245). -/
  ask : List Nat := []
  told : List Nat := []
  toldAt : Nat := 0
  /-- Loss of link that started the hold (R248). -/
  holdAt : Nat := 0
  /-- CBS credit in 10^-6 bit and its time, by class (R276). -/
  credit : List (Nat × (Int × Nat)) := []
  /-- Collisions of the frame in transmission, and whether it backs off (R235). -/
  tries : Nat := 0
  backoff : Bool := false
  /-- PLCA settings written and not yet in use; those in use (R234). -/
  plcaPend : Bool := false
  plca : Word := 0x8FF
  ptime : Word := 0x8020
  /-- A PLCA cycle runs; the opportunity T1SPm_STAT.CURID ends at this instant on mono unless a frame is sent in it; frames the port may
  still send in it (R234). -/
  plcaRun : Bool := false
  toEnd : Nat := 0
  toLeft : Nat := 0
  /-- Bytes the receive FIFO held at this local time (R237). -/
  fifo : Nat × Nat := (0, 0)
  deriving DecidableEq, Repr

/-- The root of R368: zeroed, the one the device left manufacture with (log entry 2), or the one a rekey drew as the free
values from number k on (R383). -/
inductive Root
  | zeroed
  | factory
  | drawn (k : Nat)
  deriving DecidableEq, Repr

/-- A slot that is not EMPTY or is CORRUPT (R374): attribute word, label, key of an INSTALLED slot. -/
structure SlotKey where
  attr : Word
  label : Word
  key : List Byte
  deriving DecidableEq, Repr

/-- The key operation that runs (R380, R383). -/
inductive YewOp
  | update
  | rekey
  deriving DecidableEq, Repr

/-- Yew (13_key_store_tamper.md): root and cause of its last zeroisation, slots, update counter, running operation, and the
alarm levels of the sensors (bit order of TMP_CTL). -/
structure Yew where
  root : Root := .factory
  cause : Nat := 0
  slots : List (Nat × SlotKey) := []
  ucnt : Nat := 0
  op : Option YewOp := none
  deriving DecidableEq, Repr

/-- A job of the crypto engine (R336): class (0 EGR, 1 CAN, 2 ING, 3 YEW, 4 MEM), pipe, blocks, the object it works for (port,
Privet slot, stored frame, ring entry), the association, SA or counter it uses, its result so far (R342), its output, its PN
or freshness value, and the key (R375). -/
structure CryJob where
  cls : Nat
  pipe : Nat
  blocks : Nat
  ref : Nat
  ix : Nat
  code : Nat
  out : List Byte
  val : Nat
  key : List Byte
  deriving DecidableEq, Repr

/-- A secure association (R345). -/
structure Sa where
  inuse : Bool := false
  exh : Bool := false
  slot : Nat := 0
  ssci : Nat := 0
  salt : Nat := 0
  pn : Nat := 0
  warned : Bool := false
  deriving DecidableEq, Repr

/-- A memory job that was fetched (R360-R362): ring, entry, descriptor words, crypto job, and its result once decided. -/
structure MemJob where
  ring : Nat
  entry : Nat
  words : List Nat
  job : Option Nat
  res : Option Nat
  deriving DecidableEq, Repr

/-- The crypto engine beyond its registers (12_crypto_engine.md). Port counters: key 16p + k in the order of MSEC_PNOTAG
upward; SA counters: key 4 * SA + k. -/
structure Cry where
  next : Nat := 0
  jobs : List (Nat × CryJob) := []
  sc : List (Nat × List Word) := []
  sa : List (Nat × Sa) := []
  pcnt : List (Nat × Nat) := []
  scnt : List (Nat × Nat) := []
  /-- Marks posted to Laurel and not yet written: freshness counter i, or 2^16 + SA (R359). -/
  marks : List (Nat × Nat) := []
  /-- The last mark of each. -/
  lastMark : List (Nat × Nat) := []
  mem : List MemJob := []
  /-- Writes of freshness counters and of SAs that a job uses, oldest first: they take effect when it ends (R351, R358). Counter, value,
  FORCE; SA, its staged words. -/
  fpend : List (Nat × Nat × Bool) := []
  saPend : List (Nat × List Nat) := []
  deriving DecidableEq, Repr

/-- A transmit frame fetched from a host queue and not yet completed (R397, R398): its number, its ring entries, and its
result once decided (code, stamp). -/
structure TxFrame where
  id : Nat
  first : Nat
  n : Nat
  res : Option (Nat × Option Nat)
  deriving DecidableEq, Repr

/-- An item accepted by a receive queue (R399, R400): KIND, words 1-6, data, ring entries taken. -/
structure RxItem where
  kind : Nat
  words : List Word
  data : List Byte
  first : Nat
  n : Nat
  deriving DecidableEq, Repr

/-- A host queue (R395-R403, R415): 0-63 transmit, 64-127 receive. base: ring base; fetch, cpl: indices (TAIL is in its
register); stopped: an entry with OWN = 0 was fetched; fence for resets; unsig: completions not signalled, firstAt: local
time of the first of them; done, bad, nobuf: counters. -/
structure HQueue where
  base : Nat := 0
  size : Nat := 2
  cfg : Word := 0x10
  irq : Word := 0
  fetch : Nat := 0
  cpl : Nat := 0
  stopped : Bool := false
  nextId : Nat := 0
  frames : List TxFrame := []
  items : List RxItem := []
  unsig : Nat := 0
  firstAt : Nat := 0
  done : Nat := 0
  bad : Nat := 0
  nobuf : Nat := 0
  deriving DecidableEq, Repr
/-- Where the device stands in power (R421, R422, R437, R456): unpowered; OFF; SLEEP; power-up with the step of R421 it has
reached (2 rails, 3 VMAIN good, 4 CORE_EN, 5 CORE_PG, 6 DRAM_EN); the 100 ms wait after a failed sequence; ACTIVE (SAVE is in
PWR_STAT); power-down (1 DRAM_EN low, 2 CORE_EN low). -/
inductive PwrMode
  | unpowered
  | off
  | sleep
  | up (stage : Nat)
  | retry
  | active
  | down (stage : Nat)
  deriving DecidableEq, Repr

/-- The sequencer's supply side (15_power_holdup.md). Times are on mono. at_: entry to the stage; fails: failed sequences since
the start; failing: the power-down follows a failed sequence; pfAt, pfFast, pfSet, pfFull, pfRtc: PF_WARN, the SET its save
writes, full time and real-time counter then; chgAt:
charger start; low, ok: the charger has not reached HOLDOK; cause: TYPE and SRC of the reset now asserted or last released
(R475); boots: Yatric releases since the last SUPPLY reset; held: the Yatric die is in reset; relAt: its last release; req: a
COLD or WARM request (R466); coreEn, dramEn, inh: outputs;
setw: PWR_SAVECTL.SET as last written, used while its override is 1 (R31, R439). -/
structure Pwr where
  mode : PwrMode := .active
  at_ : Nat := 0
  fails : Nat := 0
  failing : Bool := false
  pfAt : Nat := 0
  pfFast : Bool := false
  pfSet : Nat := 2
  pfFull : Nat := 0
  pfRtc : Nat := 0
  chgAt : Nat := 0
  charging : Bool := true
  cause : Nat × Nat := (0, 0)
  boots : Nat := 1
  held : Bool := false
  relAt : Nat := 0
  req : Option (Nat × Nat) := none
  coreEn : Bool := true
  dramEn : Bool := true
  inh : Bool := true
  setw : Bool := true
  deriving DecidableEq, Repr

/-- A sleep domain (R441, R458): awake; the instant of its wake, route demand or WKN_WREQ that its DSLEEP time runs from; the instant of
its wake; since that wake it had a route demand, was named by WKN_WREQ or was woken by propagation; reported since its wake; last
keep-alive frame of a member (segment, IDE, identifier). -/
structure Dom where
  awake : Bool := true
  quietAt : Nat := 0
  wokeAt : Nat := 0
  asked : Bool := false
  reported : Bool := false
  lastKa : Nat × Nat := (0, 0)
  deriving DecidableEq, Repr

/-- The wake sequencer (16_sleep_wake.md). Times are on mono. dom: domains that differ from awake since reset; ka: last
keep-alive frame of a segment; held: WKN_HOLD as last written, holdEnd: when a segment's hold bit was cleared; lnRel: the device released WAKE_LN at this instant and has not judged it yet; commit:
SLEEP_COMMIT latched; late: wakes latched since (SRC, INDEX, domains); wakeAt: last wake of the device; agree: AGREE as last
reported; cause: wake that powers the device up; downAt: the Xanpel link left UP, or the Yatric die was released without it; fsDone: the
fail-safe was entered since; wup: the end of the wake-up pattern that a transceiver sends (R452); rxWait: transceivers whose MODE = RXONLY write waits for the Kykel bus (R84, R447), oldest first. -/
structure Wkn where
  dom : List (Nat × Dom) := []
  ka : List (Nat × Nat) := []
  held : Nat := 0
  holdEnd : List (Nat × Nat) := []
  lnDrv : Bool := true
  wup : List (Nat × Nat) := []
  lnRel : Option Nat := none
  commit : Bool := false
  late : List (Nat × Nat × Nat) := []
  wakeAt : Nat := 0
  agree : Bool := false
  cause : Option (Nat × Nat × Nat) := none
  downAt : Nat := 0
  fsDone : Bool := false
  rxWait : List Nat := []
  deriving DecidableEq, Repr
/-- The boot and its loader (17_startup_reset.md). stage: 0 released, 1 restored, 2 image verified, 3 image applied, 4 committed or
no image, 5 done; stream: the image's records; KSLOT of block 0 is not kept. wdAt: last restart of the watchdog (R315). -/
structure Boot where
  stage : Nat := 0
  stream : List Byte := []
  plan : Nat := 0
  gmask : Nat := 0
  trxrel : Nat := 0
  wdAt : Nat := 0
  fwVer : Nat := 0
  deriving DecidableEq, Repr

/-- A sensor of Laurel (R480, R481): last sample and its stamp32, extremes since the last clear; limits; consecutive samples outside
the limit on side hiSide, or back inside; a record stands. -/
structure Sensor where
  val : Option (Int × Nat) := none
  ext : Option (Int × Int) := none
  lo : Int := -2147483648
  hi : Int := 2147483647
  run : Nat := 0
  hiSide : Bool := false
  out : Bool := false
  deriving DecidableEq, Repr

/-- The bus-off policy of one controller (R486, R487): run, TXOK at the last recovery, recoveries, hand-overs, waiting since; the
entry to BUS_OFF (its local time) that was dealt with; the ownership left Laurel. -/
structure BoffPol where
  run : Nat := 0
  txok : Nat := 0
  recov : Nat := 0
  hand : Nat := 0
  wait : Option Nat := none
  seen : Option Nat := none
  gone : Bool := false
  deriving DecidableEq, Repr

/-- An event to be logged (R483): class, code and severity (none where they are open), time converted from the real-time counter (1),
full time, STEPCNT at the event, DATA. -/
structure LogEvent where
  cls : Nat
  code : Option Nat
  sev : Option Nat
  tsrc : Nat
  full : Nat
  step : Nat
  data : List Byte
  deriving DecidableEq, Repr

/-- Laurel's services (18_management.md). Times are local. early: events before the restore of this boot; rseq: next RSEQ; tail: records in SRAM oldest first, tailAt: when the
oldest was built; lost, lostAt: records not built since the last LOG record and the RSEQ of the first, lostAll: all of them;
sector, slot, sseq: where the last record of the log area stands; ev: event FIFO; watch: watched counts as last recorded, watchAt:
local time of a source's last record; reclaim: the reclaim that waits for its completion. -/
structure Lrl where
  sens : List (Nat × Sensor) := []
  sampleAt : Nat := 0
  early : List LogEvent := []
  rseq : Nat := 0
  tail : List (List Byte) := []
  tailAt : Nat := 0
  lost : Nat := 0
  lostAt : Nat := 0
  lostAll : Nat := 0
  sector : Nat := 255
  slot : Nat := 127
  sseq : Nat := 4294967295
  ev : List Word := []
  pol : List (Nat × BoffPol) := []
  watch : List (Nat × Nat) := []
  watchAt : List (Nat × Nat) := []
  pollAt : Nat := 0
  reclaim : Option (Nat × Nat) := none
  deriving DecidableEq, Repr

/-- The update session (R496-R504): STATE, CODE, component, IMGID, version, blocks copied, NBLK, DRAM offset and length of the
staged image, QOFF, image in QSPI, target of an armed activation (full time). qspi: blocks written to QSPI flash. -/
structure Fwu where
  st : Nat := 0
  code : Nat := 0
  comp : Nat := 0
  imgid : Nat := 0
  ver : Nat := 0
  copied : Nat := 0
  nblk : Nat := 0
  doff : Nat := 0
  len : Nat := 0
  qoff : Nat := 0
  target : Option Nat := none
  deriving DecidableEq, Repr

/-- The frame or item a channel in queue mode has begun (R408, R412): its queue, the bytes of it still to move, and the words of its ring
entries as they were read. -/
structure ChanJob where
  queue : Nat
  left : Nat
  words : List (List Nat)
  deriving DecidableEq, Repr

/-- A DMA channel beyond its registers (R404-R412): the copy descriptor in progress (entry, words) and the bytes of it that were
moved; the byte its reads were issued up to and the byte where the burst in progress ends; an access of it is with the Kykel bridge, it
is a read; the word read from there that is still to be written; an entry with OWN = 0 was fetched; start of the last burst; local time
of the read issued last; bytes moved short of 64 (DMACHn_BYTES); the host queue served last, and the one whose frame or item is begun with
the bytes left to move. -/
structure Chan where
  cur : Option (Nat × List Nat) := none
  moved : Nat := 0
  readTo : Nat := 0
  goal : Nat := 0
  wait : Bool := false
  asked : Bool := false
  got : Option Word := none
  stopped : Bool := false
  burst : Option Nat := none
  readAt : Nat := 0
  frac : Nat := 0
  turn : Nat := 127
  job : Option ChanJob := none
  deriving DecidableEq, Repr

/-- Deficit round robin over the sharers of one bus (R413): the sharer whose turn it is, and what each may still move, in bytes. -/
structure DmaArb where
  cur : Nat := 49
  deficit : List (Nat × Nat) := []
  deriving DecidableEq, Repr

/-- Active and standby pairing beyond its registers (20_redundancy.md). Digest keys: interval * 64 + egress. -/
structure Pair where
  /-- Own and peer digests: count, CRC sum (R516). -/
  own : List (Nat × (Nat × Nat)) := []
  peer : List (Nat × (Nat × Nat)) := []
  /-- Intervals whose digest message the peer sent, with its plan; own intervals closed, with the plan in force. -/
  peerK : List (Nat × Nat) := []
  ownK : List (Nat × Nat) := []
  /-- Intervals below this one have been judged. -/
  judged : Nat := 0
  /-- Last marks received: freshness counters, transmit SAs (R514). -/
  fmark : List (Nat × Nat) := []
  smark : List (Nat × Nat) := []
  /-- Heartbeat output level, local time of its last toggle, of the last edge seen, of the last pair-link frame and of
  the last role message. -/
  hbOut : Bool := false
  hbAt : Nat := 0
  edgeAt : Nat := 0
  frameAt : Option Nat := none
  roleAt : Nat := 0
  /-- Local time at which the pair link has sent what it was given (R513). -/
  lineTo : Nat := 0
  /-- Role and SYNCED of the peer as its last role message gave them. -/
  peerRole : Nat := 0
  peerSync : Bool := false
  deriving DecidableEq, Repr

/-- The observation port (21_observation.md): records in the output FIFO, SYNC records that wait for room, records
dropped since the last LOST record, idle ticks since the last unit, and the counters of R525 the model keeps. -/
structure Obs where
  run : Bool := false
  fifo : List (List Byte) := []
  sync : List (List Byte) := []
  lost : Nat := 0
  phase : Nat := 0
  syncAt : Nat := 0
  cntAt : Nat := 0
  hidden : List (Nat × Nat) := []
  deriving DecidableEq, Repr

/-- The whole state of the block. -/
structure State where
  /-- The commands that wait, first in, first out. -/
  pending : List Instr
  /-- The model's own: how many free values have been drawn (Config.freeValue). -/
  freeN : Nat
  /-- The model's own: everything sent out of the block, oldest first. -/
  outbox : List Out
  /-- Registers in force, by BAR0 address; an unlisted register reads its Reset column (R7). -/
  regs : List (Nat × Word)
  /-- Shadows of RWS registers that differ from their reset value (R5, R58). -/
  shadow : List (Nat × Word)
  /-- The previous register set of the islands (R21): regs as they stood before the last commit. -/
  prev : List (Nat × Word)
  /-- BAR2 words by BAR2 address; an unlisted word reads 0 (R65). -/
  tab : List (Nat × Word)
  /-- What each initiator holds on the register bus. -/
  bus : BusState
  /-- The sampled commit request. -/
  cmt : CommitUnit
  /-- The time unit. -/
  tsy : TimeUnit
  /-- The Xanpel link. -/
  xpl : Xpl
  /-- LPDDR4X bytes by address (4 GiB). -/
  dram : List Host.Cell
  /-- MRAM bytes by address. -/
  mram : List Host.Cell
  /-- Laurel SRAM bytes by address (bridge target of Kykel transfers). -/
  lsram : List Host.Cell
  /-- Host memory bytes by PCIe address. -/
  hmem : List Host.Cell
  /-- Vectors whose level is 1, rising (R394). -/
  levels : List Nat
  /-- Vectors masked in the MSI-X table, rising (BAR4; masked after reset). -/
  vecMask : List Nat
  /-- Vectors with their PBA bit set, rising (R394). -/
  pba : List Nat
  /-- CAN controllers that differ from reset, by number. -/
  can : List (Nat × CanCtl)
  /-- Privet and Bramble. -/
  prv : Privet
  /-- The claim ledger's timers and windows. -/
  clm : Ledger
  /-- The transport protocol engine. -/
  tpe : Tpe
  /-- Frames formed inside the device that wait to enter the switch, oldest first. -/
  swIn : List EthIn
  /-- The switch core and its tables. -/
  sw : Switch
  /-- EMACs that differ from reset, by port. -/
  emac : List (Nat × Emac)
  /-- The 48-bit real-time counter of the VBAT domain (32.768 kHz). -/
  rtc : Nat
  /-- The fraction of the current real-time tick, in 1/(10^9) ticks. -/
  rtcAcc : Nat
  /-- CAN associations that were written, by index: words AW0-AW3 (R353). -/
  cauth : List (Nat × List Word)
  /-- Freshness counters that are not 0 (R354). -/
  fresh : List (Nat × Nat)
  /-- The crypto engine. -/
  cry : Cry
  /-- Yew and the root of the VBAT domain. -/
  yew : Yew
  /-- Host queues that differ from reset: 0-63 transmit, 64-127 receive (R415). -/
  hq : List (Nat × HQueue)
  /-- The queue reset that is running (R403). -/
  hqReset : Option Nat
  /-- Bus Master Enable of the PCIe function (R393). -/
  bme : Bool
  /-- The function is in D3hot (R392). -/
  d3 : Bool
  /-- Active and standby pairing. -/
  pair : Pair
  /-- The observation port. -/
  obs : Obs
  /-- The model's own: nanoseconds elapsed, which no reset touches; the Kykel sequencer's times run on it (log entry 22). -/
  mono : Nat
  /-- The supply sequencer. -/
  pwr : Pwr
  /-- The wake sequencer. -/
  wkn : Wkn
  /-- The boot. -/
  boot : Boot
  /-- Laurel's services. -/
  lrl : Lrl
  /-- The firmware update session. -/
  fwu : Fwu
  /-- QSPI flash bytes by address. -/
  qspi : List Host.Cell
  /-- DMA channels that differ from reset. -/
  chan : List (Nat × Chan)
  /-- The round robin of PCIe reads (0), PCIe writes (1) and DRAM (2), where it differs from reset (R413). -/
  arb : List (Nat × DmaArb)
  deriving DecidableEq, Repr

/-- Every register at its Reset column, every memory empty, every unit as its reset leaves it, the root as the device left manufacture
(R7, R462; log entry 8): what the reset operations take each unit's values from. -/
def State.base : State :=
  { pending := [],
    freeN := 0,
    outbox := [],
    regs := [],
    shadow := [],
    prev := [],
    tab := [],
    bus := ⟨[], [], [], [], []⟩,
    cmt := ⟨0, 0, 0⟩,
    tsy := ⟨0, 0, 0, 0, [⟨0, 0, 0, false, 0, none⟩, ⟨0, 0, 0, false, 0, none⟩, ⟨0, 0, 0, false, 0, none⟩, ⟨0, 0, 0, false, 0, none⟩], none, 0, []⟩,
    xpl := {
      trainAt := 0, attemptAt := 0, attempts := 0, upAt := 0, yat := ⟨0, 0, [], 0, 0⟩, kyk := ⟨0, 0, [], 0, 0⟩, reqs := [], lockAt := 0,
      lockWait := [], lockAsked := false, lockDue := none, lockTries := 0, broken := [], kykLock := none, yatLock := none, kykHold := false,
      kykWait := [], kykOrder := [], resv := none, rxd := List.replicate 16 true, txd := List.replicate 16 true, t1sRx := [0, 0],
      t1sTx := [0, 0], t1sErr := [false, false], kInt := false, kSum := [], kSync := false, evY := {}, evK := {} },
    dram := [],
    mram := [],
    lsram := [],
    hmem := [],
    levels := [],
    vecMask := List.range 128,
    pba := [],
    can := [],
    prv := ⟨0, [], [], [], [], [], [], 0, [], [], [], [], [], [], [], [], [], [], [], [], []⟩,
    clm := {},
    tpe := {},
    swIn := [],
    sw := {},
    emac := [],
    rtc := 0,
    rtcAcc := 0,
    cauth := [],
    fresh := [],
    cry := {},
    yew := {},
    hq := [],
    hqReset := none,
    bme := false,
    d3 := false,
    pair := {},
    obs := {},
    mono := 0,
    pwr := {},
    wkn := {},
    boot := {},
    lrl := {},
    fwu := {},
    qspi := [],
    chan := [],
    arb := [] }

/-- The block after the SUPPLY reset of its first power-up, its Yatric die just released (R421, R462; log entry 40): `State.base` with
what that power-up writes: the wake of source 0xA that starts it, in PG_IST.WAKE, WKN_WCAUSE and WKN_WAKECNT, with its WAKE event not yet
sent (R449); MODE = RXONLY in every TRXn_CTL by ISOBOOT (R446). -/
def State.reset : State :=
  { State.base with
    regs := [(0x801010, 4), (0x801114, 0x828000FF), (0x8011A0, 1)] ++ (List.range 16).map (fun n => (0x810100 + 0x1000 * n, 1)),
    xpl := { State.base.xpl with evK := { q := [(0, 2, 320)], seq := 1, lastRx := none } } }

end Sys2Proof.Machine
end

