-- ==== Sys2Proof/Machine/Ops.lean ====
section
/-! DEFINITION. The named operations over registers, memories and the outbox that every meaning is written with:
page and row lookup (R41, R46), reading and writing a register in force, fields, counters (R8), PG_IST and interrupt
vectors (R47, R50, R394), bus errors (R51-R54), memory bytes, and time (R314-R316). -/
namespace Sys2Proof.Machine

/-! Pages and rows. -/

/-- The page run that holds a BAR0 byte address. -/
def runOf (a : Nat) : Option PageRun :=
  pageRuns.find? (fun r => decide (r.base ≤ a) && decide (a < r.base + r.count * 0x1000))

/-- The base address of the page of a BAR0 address. -/
def pageBase (a : Nat) : Nat := a - a % 0x1000

/-- The page index of R50, for an address inside a page. -/
def pageIdx (r : PageRun) (a : Nat) : Nat := r.idx + (a - r.base) / 0x1000

/-- The row holds the register at page offset o. -/
def RegRow.holds (r : RegRow) (o : Nat) : Bool :=
  decide (r.off ≤ o) && decide ((o - r.off) / r.s1 < r.n1) && decide ((o - r.off) % r.s1 / r.s2 < r.n2)
    && decide ((o - r.off) % r.s1 % r.s2 = 0)

/-- The bits of PG_IST that a page defines (each chapter's page rule; bit 31 is BERR everywhere, R46). -/
def istMask : PageClass → Nat
  | .chip => 0x80000000 | .cmt => 0x80000007 | .err => 0x80000001 | .irq => 0x80000000
  | .obs => 0x80000007 | .pair => 0x800001FF | .lrl => 0x8000001F
  | .canc => 0x80001FFF | .cancx => 0x80001FFF
  | .prvctl => 0x8000007F | .prvrte => 0x80000003 | .prvsig => 0x8000003F | .prvpdu => 0x80000000
  | .brm => 0x8000003F | .clm => 0x800000FF | .tpe => 0x8000007F | .emac => 0x800000FF
  | .swc => 0x80000003 | .qmg => 0x800000FF | .tkt => 0x8000000F | .pol => 0x80000001
  | .mact => 0x8000007F | .lpm => 0x8000001F | .tsy => 0x800007FF | .cry => 0x800007FF
  | .msec => 0x8000000F | .cauth => 0x8000001F | .yew => 0x8000007F | .hif => 0x80000007
  | .hq => 0x8000000F | .dma => 0x80000003 | .dmach => 0x8000003F | .xpl => 0x8000001F
  | .pwr => 0x800000FF | .wkn => 0x800001FF | .trx => 0x8000003F | .t1sp => 0x8000000F
  | .tmp => 0x80000003

/-- The register row of the common header at offset o (R46). Kykel pages read 0 in PG_CGRP and PG_CSTAT and ignore
writes (R42); PG_CTL and PG_STAT have no fields in any chapter and read 0. -/
def hdrRow (k : PageRun) (o : Nat) : Option RegRow :=
  if o = 0x000 ∨ o = 0x004 ∨ o = 0x008 ∨ o = 0x00C ∨ o = 0x024 then some ⟨o, 4, 1, 4, 1, .ro, 0, 0, 0, false⟩
  else if o = 0x010 then some ⟨o, 4, 1, 4, 1, .rw, 0, istMask k.cls, 0, false⟩
  else if o = 0x014 then some ⟨o, 4, 1, 4, 1, .rw, istMask k.cls, 0, 0, false⟩
  else if o = 0x018 ∨ o = 0x028 then some ⟨o, 4, 1, 4, 1, .wo, 0, 0, 0, false⟩
  else if o = 0x01C then some ⟨o, 4, 1, 4, 1, .rw, 0x37F, 0, 0, false⟩
  else if o = 0x020 then
    if k.kykel then some ⟨o, 4, 1, 4, 1, .ro, 0, 0, 0, false⟩ else some ⟨o, 4, 1, 4, 1, .rw, 0x10F, 0, 1, false⟩
  else if o = 0x02C then some ⟨o, 4, 1, 4, 1, .rw, 0, 0x80000000, 0, false⟩
  else none

/-- The register row at BAR0 address a, none where the offset is reserved, above LAST or unmapped (R51). -/
def rowAt (a : Nat) : Option RegRow :=
  match runOf a with
  | none => none
  | some k =>
    let o := a % 0x1000
    if o > k.last then none
    else if o < 0x100 then hdrRow k o
    else (pageRows k.cls).find? (fun r => r.holds o)

/-- The word a register holds after a reset that initialises its page (R7, R46). -/
def resetWord (a : Nat) : Word :=
  match runOf a with
  | none => 0
  | some k =>
    let o := a % 0x1000
    if o = 0 then BitVec.ofNat 32 (k.block * 0x10000 + (k.inst + (a - k.base) / 0x1000) * 0x100 + 1)
    else if o = 4 then
      BitVec.ofNat 32 (k.sidefx.toNat * 0x80000000 + k.shadow.toNat * 0x40000000 + k.guard.toNat * 0x20000000
        + k.kykel.toNat * 0x10000000 + k.last)
    else match rowAt a with
      | none => 0
      | some r => BitVec.ofNat 32 r.rst

/-! Registers in force. -/

/-- The word in force at BAR0 address a. -/
def State.rd (s : State) (a : Nat) : Word := amGetD (resetWord a) s.regs a

/-- The state with word w in force at address a. -/
def State.wr (s : State) (a : Nat) (w : Word) : State :=
  { s with regs := amSet (resetWord a) s.regs a w }

/-- The shadow at address a (R5). -/
def State.rdSh (s : State) (a : Nat) : Word := amGetD (resetWord a) s.shadow a

/-- The state with the shadow at address a set. -/
def State.wrSh (s : State) (a : Nat) (w : Word) : State :=
  { s with shadow := amSet (resetWord a) s.shadow a w }

/-- The word in the previous register set (R21). -/
def State.rdPrev (s : State) (a : Nat) : Word := amGetD (resetWord a) s.prev a

/-- Field [hi:lo] in force. -/
def State.rf (s : State) (a hi lo : Nat) : Nat := fld (s.rd a) hi lo

/-- Bit i in force. -/
def State.rb (s : State) (a i : Nat) : Bool := bitOf (s.rd a) i

/-- Set field [hi:lo]. -/
def State.wf (s : State) (a hi lo v : Nat) : State := s.wr a (setFld (s.rd a) hi lo v)

/-- Set bit i. -/
def State.wb (s : State) (a i : Nat) (b : Bool) : State := s.wr a (setBit (s.rd a) i b)

/-- Append to the outbox. -/
def State.emit (s : State) (o : Out) : State := { s with outbox := s.outbox ++ [o] }

/-- The device epoch (R18, R59). -/
def State.epoch (s : State) : Nat := (s.rd Reg.CMT_SEQ).toNat % 0x10000

/-- A shadowed setting for a job tagged with epoch e: from the current set, or from the previous one for the epoch
before the current (R21). -/
def State.cfg (s : State) (e a : Nat) : Word := if e = s.epoch then s.rd a else s.rdPrev a

/-- Field of a shadowed setting under epoch e. -/
def State.cf (s : State) (e a hi lo : Nat) : Nat := fld (s.cfg e a) hi lo

/-- Draw a free value (log entry 1). -/
def State.draw (s : State) : Word × State := (Config.freeValue s.freeN, { s with freeN := s.freeN + 1 })

/-! Interrupts (R47, R50, R394). -/

/-- The page with base b requests an interrupt: PG_IST AND PG_IEN is not zero. -/
def State.requests (s : State) (b : Nat) : Bool :=
  (s.rd (Reg.PG_IST b)).toNat &&& (s.rd (Reg.PG_IEN b)).toNat != 0

/-- PG_IMAP names the host (DEST 0x0 or 0x2) and vector v. -/
def mapsHost (imap : Word) (v : Nat) : Bool :=
  (fld imap 9 8 == 0 || fld imap 9 8 == 2) && fld imap 6 0 == v

/-- Bases of the pages whose PG_IST is not zero, from the registers listed in force. -/
def State.istPages (s : State) : List Nat :=
  (s.regs.filter (fun p => p.1 % 0x1000 == 0x10)).map (fun p => p.1 - 0x10)

/-- A page on the Kykel die (R42). -/
def isKykel (a : Nat) : Bool := decide (0x800000 ≤ a)

/-- The Kykel pages that request, with their PG_IMAP: what a summary word carries (R50), and K_INT while there is one (R88). -/
def State.kykelReqs (s : State) : List (Nat × Word) :=
  s.istPages.filterMap (fun b =>
    match runOf b with
    | none => none
    | some r => if r.kykel && s.requests b then some (pageIdx r b, s.rd (Reg.PG_IMAP b)) else none)

/-- Some Yatric page, or some Kykel page by the last summary word, requests vector v (R394). -/
def State.vecLevel (s : State) (v : Nat) : Bool :=
  s.istPages.any (fun b => !isKykel b && s.requests b && mapsHost (s.rd (Reg.PG_IMAP b)) v)
    || s.xpl.kSum.any (fun p => mapsHost p.2 v)

/-- Vector v sends its message, or sets its PBA bit while it is masked (R394) and in D3hot, where the device issues no request (R392;
DEDUCED, log entry 71). -/
def State.vecMessage (s : State) (v : Nat) : State :=
  if s.d3 || nsMem s.vecMask v then { s with pba := nsAdd s.pba v } else s.emit (.msix v)

/-- Recompute the level of vector v; a rise from 0 to 1 sends its message (R394). -/
def State.syncVec (s : State) (v : Nat) : State :=
  if s.vecLevel v then
    if nsMem s.levels v then s
    else
      { s with levels := nsAdd s.levels v }.vecMessage v
  else { s with levels := nsDel s.levels v }

/-- Recompute the level of every vector whose level is 1, as a reset or the loss of the link leaves it (R47, R394). -/
def State.syncLevels (s : State) : State :=
  (List.range 128).foldl (fun t v => if nsMem t.levels v then t.syncVec v else t) s

/-- Recompute the level that page base b drives. -/
def State.syncPage (s : State) (b : Nat) : State :=
  if isKykel b then s else s.syncVec (fld (s.rd (Reg.PG_IMAP b)) 6 0)

/-- Set PG_IST bit i of the page with base b, as its event does (R47). -/
def State.ist (s : State) (b i : Nat) : State := (s.wb (Reg.PG_IST b) i true).syncPage b

/-- Set a PG_IST bit where a condition holds. -/
def State.istIf (s : State) (c : Bool) (b i : Nat) : State := if c then s.ist b i else s

/-! Counters (R8). -/

/-- Add n to a 32-bit wrapping counter; bit 31 going from 0 to 1 sets PG_IST bit cnt of its page. -/
def State.bump (s : State) (a : Nat) (n : Nat) (cnt : Nat) : State :=
  let old := (s.rd a).toNat
  let new := (old + n) % 2 ^ 32
  (s.wr a (BitVec.ofNat 32 new)).istIf (decide (old < 2 ^ 31) && decide (2 ^ 31 ≤ new)) (pageBase a) cnt

/-- Add n to a 32-bit counter that saturates at 0xFFFF_FFFF; bit 31 becoming 1 sets PG_IST bit cnt. -/
def State.bumpSat (s : State) (a : Nat) (n : Nat) (cnt : Nat) : State :=
  let old := (s.rd a).toNat
  let new := capAt 0xFFFFFFFF (old + n)
  (s.wr a (BitVec.ofNat 32 new)).istIf (decide (old < 2 ^ 31) && decide (2 ^ 31 ≤ new)) (pageBase a) cnt

/-- Clear the registers at the given addresses. -/
def State.clear (s : State) (as : List Nat) : State := as.foldl (fun s a => s.wr a 0) s

/-! Time (R314-R316). -/

/-- stamp32 of this instant (R316). -/
def State.stamp32 (s : State) : Nat := s.tsy.full % 2 ^ 32

/-- The local count now, on which every residence time, age, watchdog and timeout runs (R315). -/
def State.now (s : State) : Nat := s.tsy.loc

/-! Bus errors (R51-R54). -/

/-- The causes of R51. -/
def cUNMAPPED : Nat := 1
def cSIZE : Nat := 2
def cLOCKED : Nat := 3
def cBADKEY : Nat := 4
def cSHADOW_OFF : Nat := 5
def cBRIDGE : Nat := 6
def cSTAGE : Nat := 7
def cTABLE : Nat := 8

/-- ERR_LAST_INFO of an error. -/
def errInfo (init : Initiator) (write : Bool) (bar cause : Nat) : Word :=
  BitVec.ofNat 32 (0x80000000 + write.toNat * 0x40000000 + bar * 0x20000000 + init.code * 0x8000000
    + cause * 0x100000)

/-- ERR_FIRST keeps the first error since it was cleared (R54). -/
def State.errFirst (s : State) (off : Nat) (info ts : Word) : State :=
  if s.rb Reg.ERR_FIRST_INFO 31 then s
  else ((s.wr Reg.ERR_FIRST_ADDR (BitVec.ofNat 32 off)).wr Reg.ERR_FIRST_INFO info).wr Reg.ERR_FIRST_TS ts

/-- ERR_LAST and ERR_COUNT take every error (R53, R54). -/
def State.errLast (s : State) (off : Nat) (info ts : Word) : State :=
  (((s.wr Reg.ERR_LAST_ADDR (BitVec.ofNat 32 off)).wr Reg.ERR_LAST_INFO info).wr Reg.ERR_LAST_TS ts).wr Reg.ERR_COUNT
    (BitVec.ofNat 32 (capAt 0xFFFFFFFF ((s.rd Reg.ERR_COUNT).toNat + 1)))

/-- PG_ERRADDR and PG_IST.BERR of the addressed page, when it exists (R53). -/
def State.errPage (s : State) (bar off : Nat) : State :=
  if bar = 0 ∧ (runOf off).isSome then
    (s.wr (Reg.PG_ERRADDR (pageBase off)) (BitVec.ofNat 32 (0x80000000 + off % 0x1000))).ist (pageBase off) 31
  else s

/-- Log a bus error (R53, R54): the ERR page, the addressed page, and ERR PG_IST.ANY; the initiator's error response (R52). -/
def State.busError (s : State) (init : Initiator) (write : Bool) (bar off cause : Nat) : State :=
  let info := errInfo init write bar cause
  let ts := BitVec.ofNat 32 s.stamp32
  ((((s.errFirst off info ts).errLast off info ts).errPage bar off).ist Reg.pgERR 0).emit (.busError init write bar off cause)

/-! Memories: canonical lists of (address, byte), an unlisted byte reads 0 (log entry 3). -/

/-- Read one byte. -/
def memRd (m : List Host.Cell) (a : Nat) : Byte := amGetD 0 m a

/-- Write one byte, keeping the canonical form. -/
def memWr (m : List Host.Cell) (a : Nat) (b : Byte) : List Host.Cell := amSet 0 m a b

/-- k bytes from address a upward. -/
def memRdN (m : List Host.Cell) (a k : Nat) : List Byte := (List.range k).map (fun i => memRd m (a + i))

/-- Write bytes from address a upward, lowest first. -/
def memWrN (m : List Host.Cell) (a : Nat) : List Byte → List Host.Cell
  | [] => m
  | b :: r => memWrN (memWr m a b) (a + 1) r

/-- The 32-bit little-endian word at address a. -/
def memRd32 (m : List Host.Cell) (a : Nat) : Nat := leNat (memRdN m a 4)

/-- Write MRAM bytes. -/
def State.mramWrite (s : State) (a : Nat) (b : List Byte) : State := { s with mram := memWrN s.mram a b }

/-- The canonical form of a memory: addresses strictly rising, no entry equal to what an unlisted address reads as. -/
abbrev Memory.wf (m : List Host.Cell) : Bool := amWf (fun _ => 0) m

end Sys2Proof.Machine
end

