-- ==== Sys2Proof/Machine/Rings.lean ====
section
/-! DEFINITION. Rings of descriptors and DMA channels (14_host_dma.md R396-R418): what a ring holds, how far the burst of a channel has
got, the rate limiter, and the share of the PCIe directions and of DRAM by deficit round robin. -/
namespace Sys2Proof.Machine

/-! Host queues. -/

/-- Host queue q (0-63 transmit, 64-127 receive). -/
def State.hqOf (s : State) (q : Nat) : HQueue := amGetD {} s.hq q

/-- The state with host queue q replaced. -/
def State.setHq (s : State) (q : Nat) (h : HQueue) : State := { s with hq := amSet {} s.hq q h }

/-- The TAIL register of host queue q. -/
def hqTailReg (q : Nat) : Nat := if q < 64 then Reg.HQ_TXTAIL q else Reg.HQ_RXTAIL (q - 64)

/-- TAIL of queue q. -/
def State.hqTail (s : State) (q : Nat) : Nat := s.rf (hqTailReg q) 11 0

/-- EN of a queue. -/
def HQueue.en (h : HQueue) : Bool := bitOf h.cfg 31

/-- The serving channel: values above 47 act as 0. -/
def HQueue.chan (h : HQueue) : Nat := let c := fld h.cfg 21 16; if c > 47 then 0 else c

/-- Receive buffer size in bytes; 0 acts as 1. -/
def HQueue.buf (h : HQueue) : Nat := 64 * (let b := fld h.cfg 9 0; if b = 0 then 1 else b)

/-- Address of entry i of a ring with 32-byte entries. -/
def HQueue.entryAt (h : HQueue) (i : Nat) : Nat := h.base + 32 * (i % h.size)

/-- Little-endian 32-bit words of bytes. -/
def leWords : Nat → List Byte → List Nat
  | 0, _ => []
  | k + 1, b => leNat (b.take 4) :: leWords k (b.drop 4)

/-- Word k of a descriptor. -/
def dw (ws : List Nat) (k : Nat) : Nat := match ws[k]? with | some w => w | none => 0

/-- The posted entries of transmit queue q from FETCH on, at most 32, as word lists. -/
def State.txEntries (s : State) (q : Nat) : List (List Nat) :=
  let h := s.hqOf q
  let n := min 32 ((s.hqTail q + h.size - h.fetch) % h.size)
  (List.range n).map (fun i => leWords 8 (memRdN s.hmem (h.entryAt (h.fetch + i)) 32))

/-- What the entries of a transmit ring from FETCH on hold: an entry with OWN = 0 before the frame ends, which stops the fetching (R396);
a frame of n entries, up to its EOP, before the next SOP, or 32 (R397); or a frame whose end is not posted yet. -/
inductive TxScan
  | stop
  | frame (n : Nat)
  | more
  deriving DecidableEq, Repr

/-- Scan the entries, k of the frame already seen. -/
def scanFrame : Nat → List (List Nat) → TxScan
  | k, [] => if 32 ≤ k then .frame k else .more
  | k, w :: r =>
    if !nbit (dw w 0) 31 then .stop
    else if k ≠ 0 ∧ nbit (dw w 0) 27 then .frame k
    else if nbit (dw w 0) 26 then .frame (k + 1)
    else scanFrame (k + 1) r

/-- Bytes of the buffers of the first n entries. -/
def txBytes (es : List (List Nat)) (n : Nat) : Nat := ((es.take n).map (fun w => nfld (dw w 0) 15 0)).sum

/-! Channels. -/

/-- Channel n. -/
def State.chanOf (s : State) (n : Nat) : Chan := amGetD {} s.chan n

/-- Set channel n. -/
def State.setChan (s : State) (n : Nat) (c : Chan) : State := { s with chan := amSet {} s.chan n c }

/-- SIZE of a copy ring: values outside 2-4,096 act as 2 (R405). -/
def ringSize (n : Nat) : Nat := if n < 2 ∨ 4096 < n then 2 else n

/-- Channel n, enabled, in the given mode and neither halted nor in reset nor paused, serves its work: the DMA engine is on, and of the bulk
group none runs while STOP = 1 (R404, R408-R410, R416). -/
def State.chanServes (s : State) (n : Nat) (queue : Bool) : Bool :=
  let c := s.rd (Reg.DMACH_CTL n)
  let t := s.rd (Reg.DMACH_STAT n)
  s.rb Reg.DMA_CTL 0 && bitOf c 0 && (decide (n < 48) && bitOf c 1) == queue && !bitOf t 31 && !bitOf t 30 && !bitOf t 29
    && (decide (n < 48) || !s.rb Reg.DMA_GRP 31)

/-- Channel n may start new work: it serves, and PAUSE is not written (R408). -/
def State.chanRuns (s : State) (n : Nat) (queue : Bool) : Bool := s.chanServes n queue && !s.rb (Reg.DMACH_CTL n) 30

/-- The device is in SAVE (R429). -/
def State.inSave (s : State) : Bool := s.rf Reg.PWR_STAT 1 0 != 0

/-- Requests to host memory are issued: link up, Bus Master Enable, not in D3hot (R392, R393). -/
def State.hostMay (s : State) : Bool := s.rb Reg.HIF_STAT 31 && s.bme && !s.d3

/-- Requests to host memory (host) or to DRAM are served now: DRAM requests wait throughout SAVE (R430) and in self-refresh (R36). -/
def State.spaceMay (s : State) (host : Bool) : Bool := if host then s.hostMay else !s.inSave && !s.rb Reg.TKT_SRCTL 31

/-- The fields of a copy descriptor (R405). -/
def cpFill (w : List Nat) : Bool := nfld (dw w 0) 30 28 == 1
def cpSsp (w : List Nat) : Nat := nfld (dw w 0) 27 26
def cpDsp (w : List Nat) : Nat := nfld (dw w 0) 25 24
def cpSfix (w : List Nat) : Bool := nbit (dw w 0) 23
def cpDfix (w : List Nat) : Bool := nbit (dw w 0) 22

/-- Source and destination address of a copy descriptor after m bytes (R406). -/
def copySrc (w : List Nat) (m : Nat) : Nat := dw w 2 + dw w 3 * 2 ^ 32 + (if cpSfix w then 0 else m)
def copyDst (w : List Nat) (m : Nat) : Nat := dw w 4 + dw w 5 * 2 ^ 32 + (if cpDfix w then 0 else m)

/-- The source is read ahead of the destination (R407): host memory or DRAM. A FILL reads nothing, and a word of a register page or a
table is read when its destination takes it. -/
def cpAhead (w : List Nat) : Bool := !cpFill w && decide (cpSsp w < 2)

/-- The spaces of a descriptor are served now (R392, R430). -/
def State.cpMay (s : State) (w : List Nat) : Bool :=
  let ok := fun (sp : Nat) => decide (2 ≤ sp) || s.spaceMay (sp == 0)
  (cpFill w || ok (cpSsp w)) && ok (cpDsp w)

/-- Bytes of one read of a source: at most 512, a word at a fixed address (R406, R407). -/
def cpReadSize (w : List Nat) : Nat := if cpSfix w then 4 else 512

/-- Reads that channel n has outstanding (R407, R417): of its source, or the one word it asked a Kykel page for. -/
def State.chanReads (s : State) (n : Nat) : Nat :=
  let c := s.chanOf n
  match c.cur with
  | none => 0
  | some (_, w) => if cpAhead w then (c.readTo - c.moved + cpReadSize w - 1) / cpReadSize w else (c.wait && c.asked).toNat

/-- PCIe reads that channel n has outstanding. -/
def State.chanHostReads (s : State) (n : Nat) : Nat :=
  match (s.chanOf n).cur with
  | some (_, w) => if cpAhead w && cpSsp w == 0 then s.chanReads n else 0
  | none => 0

/-- PCIe reads outstanding (R392, R416). -/
def State.hostReads (s : State) : Nat := (s.chan.map (fun p => s.chanHostReads p.1)).sum

/-- Burst size of channel n in bytes (R412, R418). -/
def State.burstMax (s : State) (n : Nat) : Nat := 64 * max 1 (s.rf (Reg.DMACH_RATE n) 29 20)

/-- The limiter of channel n lets a burst of b bytes start: b x 8 / MBPS us have passed since the start of the previous one (R412). -/
def State.limOk (s : State) (n b : Nat) : Bool :=
  match (s.chanOf n).burst with
  | none => true
  | some t => s.rf (Reg.DMACH_RATE n) 15 0 == 0 || decide (b * 8000 ≤ (s.now - t) * s.rf (Reg.DMACH_RATE n) 15 0)

/-- The PCIe directions and DRAM, which channels share (R413). -/
inductive DmaBus
  | pcieRead
  | pcieWrite
  | dram
  | none
  deriving DecidableEq, Repr

/-- Key of a bus in State.arb. -/
def DmaBus.key : DmaBus → Nat
  | .pcieRead => 0
  | .pcieWrite => 1
  | .dram => 2
  | .none => 3

/-- What a copy is arbitrated on: its source, or its destination where it reads no memory (log entry 54). -/
def cpBus (w : List Nat) : DmaBus :=
  let of := fun (sp : Nat) (wr : Bool) => if sp = 0 then (if wr then DmaBus.pcieWrite else .pcieRead) else if sp = 1 then .dram else .none
  if cpAhead w then of (cpSsp w) false else of (cpDsp w) true

/-! Privet slots (R16, R144). -/

/-- Slots of source src that are its reserved ones, and slots of the shared part. -/
def State.reservedUsed (s : State) (src : Nat) : Nat :=
  (s.prv.slots.filter (fun p => !p.2.formed && p.2.reserved && p.2.job.src == src)).length

/-- Shared slots in use. -/
def State.sharedUsed (s : State) : Nat := (s.prv.slots.filter (fun p => !p.2.formed && !p.2.reserved)).length

/-- The slot a job of source src may take (R144): some true a reserved one, some false a shared one. -/
def State.slotFor (s : State) (src : Nat) : Option Bool :=
  if src < 24 ∧ s.reservedUsed src < 2 then some true
  else if s.sharedUsed < 208 then some false
  else none

/-- Privet takes the next CAN frame of transmit queue q; else it waits in its queue (R16, R144). -/
def State.hostCanRoom (s : State) (q : Nat) : Bool :=
  s.rb Reg.PRV_CTL_EN 0 && (s.slotFor (0x40 + q)).isSome && !s.prv.wait.any (fun j => j.src == 0x40 + q)

/-- Transmit queue h is bound to Privet (R395). -/
def HQueue.can (h : HQueue) : Bool := fld h.cfg 13 12 == 1

/-- Queue q has work for its channel: an entry to fetch, or an item to write. -/
def State.queueWork (s : State) (q : Nat) : Bool :=
  let h := s.hqOf q
  h.en && !h.stopped
    && (if q < 64 then
        (match scanFrame 0 (s.txEntries q) with
          | .more => false
          | .stop => true
          | .frame _ => !h.can || s.hostCanRoom q)
      else !h.items.isEmpty)

/-- The queue that channel n serves next: the first with work after the one it served last (R395). -/
def State.queueTurn (s : State) (n : Nat) : Option Nat :=
  ((List.range 128).map (fun i => ((s.chanOf n).turn + 1 + i) % 128)).find? (fun q => (s.hqOf q).chan == n && s.queueWork q)

/-- The time of HIF_CTL.CTO in ns (R414). -/
def ctoNs (c : Nat) : Nat :=
  match c with
  | 1 => 100000
  | 2 => 1000000
  | 3 => 5000000
  | 4 => 10000000
  | 6 => 250000000
  | _ => 50000000

/-- The next burst of channel n that has not started, and what it is arbitrated on: the rest of its descriptor, of the frame or item it
has begun, or of the next one of the queue whose turn it is. -/
def State.burstNext (s : State) (n : Nat) : Option (DmaBus × Nat) :=
  let c := s.chanOf n
  let cap := fun (b : Nat) => if s.rf (Reg.DMACH_RATE n) 15 0 = 0 then b else min b (s.burstMax n)
  if s.chanServes n true then
    if !s.hostMay then none
    else match c.job with
      | some j => some (if j.queue < 64 then .pcieRead else .pcieWrite, cap j.left)
      | none =>
        match (if s.chanRuns n true then s.queueTurn n else none) with
        | none => none
        | some q =>
          if q < 64 then
            (match scanFrame 0 (s.txEntries q) with
              | .frame k => some (.pcieRead, cap (txBytes (s.txEntries q) k))
              | _ => none)
          else (s.hqOf q).items.head?.map (fun x => (.pcieWrite, cap x.data.length))
  else match c.cur with
    | none => none
    | some (_, w) =>
      if s.chanRuns n false && !c.wait && s.cpMay w && c.readTo == c.goal && decide (c.goal < dw w 1) then
        some (cpBus w, min (s.burstMax n) (dw w 1 - c.goal))
      else none

/-- Channel n waits on its limiter with data to move (R417 LIMWAIT). -/
def State.limWaits (s : State) (n : Nat) : Bool :=
  match s.burstNext n with
  | some (_, b) => !s.limOk n b
  | none => false

/-! Deficit round robin (R413). Sharers are channels 0-47, and 48 for the bulk group. -/

/-- The sharer that channel n belongs to. -/
def sharer (n : Nat) : Nat := min n 48

/-- The quantum of a sharer in bytes: the bulk group has the weight of channel 48. -/
def State.quantum (s : State) (e : Nat) : Nat := 512 * max 1 (s.rf (Reg.DMACH_RATE e) 19 16)

/-- The sharers that have data to move on bus r and do not wait on their limiter, ascending, with the bytes of their next burst; the burst
of channel n stands for its sharer. -/
def State.sharers (s : State) (r : DmaBus) (n : Nat) : List (Nat × Nat) :=
  let want := fun (m : Nat) => match s.burstNext m with
    | some (x, b) => if x = r ∧ s.limOk m b then some b else none
    | none => none
  let one := fun (m : Nat) => (want m).map (fun b => (m, b))
  let grp := if 48 ≤ n ∧ (want n).isSome then want n else ((List.range 4).findSome? (fun i => want (48 + i)))
  (List.range 48).filterMap one ++ (grp.map (fun b => (48, b))).toList

/-- Deficit round robin: the sharer at the head is served while its deficit covers its burst; else the next one gets its quantum. The
answer is the sharer served and the deficits then. -/
def drrPick (quantum : Nat → Nat) : Nat → List (Nat × Nat) → List (Nat × Nat) → Option (Nat × List (Nat × Nat))
  | 0, _, _ => none
  | _, [], _ => none
  | k + 1, (e, b) :: rest, d =>
    if b ≤ amGetD 0 d e then some (e, amPut d e (amGetD 0 d e - b))
    else
      let l := rest ++ [(e, b)]
      match l with
      | [] => none
      | (f, _) :: _ => drrPick quantum k l (amPut d f (amGetD 0 d f + quantum f))

/-- The sharer that bus r serves next, for a burst of channel n's sharer with that of channel n, and the deficits then. A sharer that has
nothing to move keeps no deficit; at the start of its turn a sharer gets its quantum. -/
def State.arbPick (s : State) (r : DmaBus) (n : Nat) : Option (Nat × List (Nat × Nat)) :=
  let a := amGetD {} s.arb r.key
  let l := s.sharers r n
  let l := l.filter (fun p => decide (a.cur ≤ p.1)) ++ l.filter (fun p => decide (p.1 < a.cur))
  let d := a.deficit.filter (fun p => l.any (fun x => x.1 == p.1))
  match l with
  | [] => none
  | (e, _) :: _ =>
    let d := if e = a.cur then d else amPut d e (amGetD 0 d e + s.quantum e)
    drrPick s.quantum (129 * (l.length + 1)) l d

/-- Channel n may start its next burst on bus r: the round robin serves its sharer (R413). -/
def State.arbMay (s : State) (r : DmaBus) (n : Nat) : Bool :=
  r == .none || (match s.arbPick r n with
    | some (e, _) => e == sharer n
    | none => false)

/-- Bus r serves the sharer of channel n. -/
def State.arbServe (s : State) (r : DmaBus) (n : Nat) : State :=
  match s.arbPick r n with
  | some (e, d) => if r = .none then s else { s with arb := amSet {} s.arb r.key ⟨e, d⟩ }
  | none => s

/-- A burst starts now on channel n (R412): the spacing of the next one runs from here. -/
def State.burstStart (s : State) (n : Nat) : State := s.setChan n { s.chanOf n with burst := some s.now, readAt := s.now }

/-- Channel n may start its next burst, of b bytes on bus r, by its limiter and the round robin. -/
def State.burstMay (s : State) (n : Nat) : Option (DmaBus × Nat) :=
  match s.burstNext n with
  | some (r, b) => if s.limOk n b && s.arbMay r n then some (r, b) else none
  | none => none

/-! Halts (R409, R410). -/

/-- Causes of a halt. -/
def hBUS : Nat := 1
def hLINK : Nat := 5
def hGROUP : Nat := 6

/-- Set HALTED of channel n with its bits and interrupts; what it had under way is abandoned. -/
def State.setHalted (s : State) (n : Nat) : State :=
  let s := (s.wb (Reg.DMACH_STAT n) 31 true).wb (Reg.DMACH_STAT n) 30 false
  let s := if n < 32 then s.wb Reg.DMA_HALT0 n true else s.wb Reg.DMA_HALT1 (n - 32) true
  let c := s.chanOf n
  let s := s.setChan n { c with readTo := c.moved, goal := c.moved, wait := false, asked := false, got := none }
  (s.ist (Reg.pgDMACH n) 1).ist Reg.pgDMA 0

/-- Channel n halts: address, direction, space, cause and ring index; hold: the SIDEFX word kept (R407). -/
def State.chanHalt (s : State) (n cause : Nat) (write : Bool) (space addr index : Nat) (hold : Option Word) : State :=
  if s.rb (Reg.DMACH_STAT n) 31 then s
  else
    let s := (s.wr (Reg.DMACH_ERRADDR_LO n) (BitVec.ofNat 32 addr)).wr (Reg.DMACH_ERRADDR_HI n) (BitVec.ofNat 32 (addr / 2 ^ 32))
    let s := s.wr (Reg.DMACH_ERRINFO n) (BitVec.ofNat 32 (2 ^ 31 + write.toNat * 2 ^ 30 + space % 4 * 2 ^ 28
      + hold.isSome.toNat * 2 ^ 27 + cause * 2 ^ 24 + index % 4096))
    let s := match hold with
      | some w => s.wr (Reg.DMACH_HOLD n) w
      | none => s
    let s := s.setHalted n
    if n < 48 then s
    else
      let s := (s.wr Reg.DMA_GRP (BitVec.ofNat 32 (2 ^ 31 + (n - 48)))).ist Reg.pgDMA 1
      [48, 49, 50, 51].foldl (fun t m =>
        if t.rb (Reg.DMACH_STAT m) 31 then t
        else (t.wr (Reg.DMACH_ERRINFO m) (BitVec.ofNat 32 (2 ^ 31 + hGROUP * 2 ^ 24))).setHalted m) s

/-! Bytes moved. -/

/-- b bytes were moved by channel n (R417). -/
def State.countBytes (s : State) (n b : Nat) : State :=
  let c := s.chanOf n
  (s.setChan n { c with frac := (c.frac + b) % 64 }).bump (Reg.DMACH_BYTES n) ((c.frac + b) / 64) 4

/-- m bytes of the descriptor in progress were moved, and REM follows (R408). -/
def State.moveTo (s : State) (n m : Nat) : State :=
  let c := s.chanOf n
  let s := (s.setChan n { c with moved := m, readTo := max c.readTo m, goal := max c.goal m }).countBytes n (m - c.moved)
  match c.cur with
  | some (_, w) => s.wr (Reg.DMACH_REM n) (BitVec.ofNat 32 (dw w 1 - m))
  | none => s

/-- Bytes b of the frame or item begun on channel n are moved in one burst. -/
def State.jobBurst (s : State) (n b : Nat) (j : ChanJob) : State :=
  let s := s.burstStart n
  (s.setChan n { s.chanOf n with job := some { j with left := j.left - b } }).countBytes n b

/-- The source is a page whose reads have side effects: a word it gave up is kept where its write fails (R407). -/
def sideSource (w : List Nat) (a : Nat) : Bool :=
  cpSsp w == 2 && !cpFill w && (match runOf a with | some r => r.sidefx | none => false)

/-! Accesses of a channel that the Kykel bridge carries (R404, R42): the channel waits for their end. -/

/-- The word that channel n asked a Kykel page for arrived. -/
def State.chanGot (s : State) (n : Nat) (v : Word) : State :=
  let c := s.chanOf n
  if c.wait then s.setChan n { c with wait := false, asked := false, got := some v } else s

/-- The word that channel n writes to a Kykel page is written (R82). -/
def State.chanPut (s : State) (n : Nat) : State :=
  let c := s.chanOf n
  if c.wait then (s.setChan n { c with wait := false, got := none }).moveTo n (c.moved + 4) else s

/-- The access of channel n at BAR0 address a ended as a bus error: the channel halts (R409); v: the word it was to write. -/
def State.chanFail (s : State) (n : Nat) (write : Bool) (a : Nat) (v : Word) : State :=
  let c := s.chanOf n
  match c.cur with
  | none => s
  | some (i, w) => s.chanHalt n hBUS write 2 a i (if write && sideSource w (copySrc w c.moved) then some v else none)

end Sys2Proof.Machine
end

