-- ==== Sys2Proof/Machine/View.lean ====
section
/-! DEFINITION. Registers whose read value is a view of structured state, and the view functions the meanings share:
transmit order of a CAN controller (R109), credits (R108), the hold R94, host queue indices (R396). -/
namespace Sys2Proof.Machine

/-- Controller n. -/
def State.canOf (s : State) (n : Nat) : CanCtl := amGetD canReset s.can n

/-- The state with controller n replaced. -/
def State.setCan (s : State) (n : Nat) (c : CanCtl) : State := { s with can := amSet canReset s.can n c }

/-- Order of arbitration (R109): the 11-bit base, then the rank at equal base, then the extension and the rank at equal
extended identifier. A lower key wins. -/
def arbKey (f : CanFrame) : Nat :=
  let base := f.ident / 2 ^ 18 % 2 ^ 11
  let low := if f.ide then
      5 * 2 ^ 20 + (f.ident % 2 ^ 18) * 4 + (match f.fmt with | .cc => if f.rtr then 2 else 0 | .fd => 1 | .xl => 3)
    else match f.fmt with
      | .cc => if f.rtr then 4 * 2 ^ 20 else 1 * 2 ^ 20
      | .fd => 2 * 2 ^ 20
      | .xl => 3 * 2 ^ 20
  base * 2 ^ 23 + low

/-- Buffer a is sent before buffer b: by arbitration priority, then by placement (R109). -/
def txBefore (a b : Nat × CanTx) : Bool :=
  decide (arbKey a.2.copy.frame < arbKey b.2.copy.frame)
    || (arbKey a.2.copy.frame == arbKey b.2.copy.frame && decide (a.2.order < b.2.order))

/-- The head of a list of occupied buffers. -/
def headTx : List (Nat × CanTx) → Option (Nat × CanTx)
  | [] => none
  | p :: r => match headTx r with
    | none => some p
    | some q => if txBefore q p then some q else some p

/-- Transmit data RAM a frame takes on CANC16-CANC23 (R108). -/
def ramOf (n : Nat) (f : CanFrame) : Nat := if n < 16 then 0 else (f.data.length + 15) / 16 * 16

/-- Transmit data RAM in use. -/
def CanCtl.ramUsed (c : CanCtl) (n : Nat) : Nat := (c.bufs.map (fun p => ramOf n p.2.copy.frame)).sum

/-- A routing credit, and on CANC16-CANC23 a byte credit, is free for frame f (R108). -/
def CanCtl.credit (c : CanCtl) (n : Nat) (f : CanFrame) : Bool :=
  decide (c.bufs.length < 64) && decide (c.ramUsed n + ramOf n f ≤ 32768)

/-- The unit is in STANDBY (R511). -/
def State.standby (s : State) : Bool := s.rf Reg.PAIR_STAT 1 0 == 2

/-- OP in use; in STANDBY NORMAL, RESTRICTED and LOOP_EXT act as MONITOR (R95, R512); 6-7 apply DISABLED. -/
def State.canOp (s : State) (n : Nat) : Nat :=
  let op := fld (s.canOf n).mode 2 0
  if op ≥ 6 then 0
  else if s.standby && (op == 1 || op == 2 || op == 5) then 3 else op

/-! Sleep domains and transceivers (R440, R445). -/

/-- Members of domain k. -/
def State.domMem (s : State) (k : Nat) : Nat := s.rf (Reg.WKN_DOM_MEM k) 23 0

/-- The domain of segment n: the lowest-numbered one that names it (R440). -/
def State.domainOf (s : State) (n : Nat) : Option Nat := (List.range 8).find? (fun k => nbit (s.domMem k) n)

/-- Domain k. -/
def State.domOf (s : State) (k : Nat) : Dom := amGetD {} s.wkn.dom k

/-- Set domain k. -/
def State.setDom (s : State) (k : Nat) (d : Dom) : State := { s with wkn := { s.wkn with dom := amSet {} s.wkn.dom k d } }

/-- Domain k is AWAKE; a domain without members counts as ASLEEP (R440). -/
def State.domAwake (s : State) (k : Nat) : Bool := (s.domOf k).awake && s.domMem k != 0

/-- MODE of transceiver n; 0x3 acts as RXONLY. -/
def State.trxMode (s : State) (n : Nat) : Nat := let m := s.rf (Reg.TRX_CTL n) 1 0; if m = 3 then 1 else m

/-- Wake detection of transceiver n: 0x3 acts as 0x1. -/
def State.trxWake (s : State) (n : Nat) : Nat := let w := s.rf (Reg.TRX_CFG n) 30 29; if w = 3 then 1 else w

/-- STATE of transceiver n (R445): the SLEEP column from SLEEP_COMMIT until the device is ACTIVE again. FOLLOW with TXDTO or TSD
set is RXONLY until both have cleared (R447, log entry 27). While a transceiver sends the wake-up pattern of R452 it reads LOWPWR (log
entry 56). -/
def State.trxState (s : State) (n : Nat) : Nat :=
  if s.trxMode n = 2 ∨ s.pwr.mode = .unpowered then 0
  else if s.pwr.mode ≠ .active ∨ s.wkn.commit then (if s.trxWake n = 0 then 0 else 1)
  else
    let awake := match s.domainOf n with
      | some k => s.domAwake k
      | none => true
    if !awake then 1
    else if s.trxMode n = 1 ∨ s.rf (Reg.TRX_STAT n) 31 30 ≠ 0 then 2
    else if s.mono < amGetD 0 s.wkn.wup n then 1
    else 3

/-- TRXn_STAT as read. Bit 29 of the register itself notes a bus biased to ground in LOWPWR (R445). -/
def State.trxStatView (s : State) (n : Nat) : Word :=
  let t := s.trxState n
  setFld (setBit (s.rd (Reg.TRX_STAT n)) 29 (t ≥ 2 || (t == 1 && !s.rb (Reg.TRX_STAT n) 29))) 2 0 t

/-- The controller's path to its bus is open: CANC0-CANC15 need the link UP and TRXn in NORMAL (R94). -/
def State.txPath (s : State) (n : Nat) : Bool :=
  decide (16 ≤ n) || (s.rf Reg.XPL_STAT 2 0 == 2 && s.trxState n == 3)

/-- OP starts frames from its transmit buffers (R95). -/
def opSends (op : Nat) : Bool := op == 1 || op == 4 || op == 5

/-- LINKHOLD (R94). -/
def State.linkHold (s : State) (n : Nat) : Bool :=
  let op := s.canOp n
  op != 4 && opSends op && !s.txPath n

/-- STATE of R118. -/
def State.canState (s : State) (n : Nat) : Nat := s.rf (Reg.CANC_ESTAT n) 2 0

/-- A class-0 frame is the head in BUS_OFF or RECOVERING (R127). -/
def State.boffPrio (s : State) (n : Nat) : Bool :=
  decide (4 ≤ s.canState n) && (match headTx (s.canOf n).bufs with | some h => h.2.copy.pclass == 0 | none => false)

/-- Nominal bit time in clock periods. -/
def bitTimeN (btn : Word) : Nat := (fld btn 8 0 + 1) * (1 + (fld btn 17 9 + 1) + (fld btn 31 25 + 1))

/-- RECSEQ as read (R125): in RECOVERING a count, which only rises, of the recessive ones among the stretches of 11 nominal bit times
since it started, below 128 (log entry 44). -/
def State.recSeq (s : State) (n : Nat) : Nat :=
  let c := s.canOf n
  if s.canState n = 5 then
    min 127 ((List.range ((s.now - c.recAt) * 160 / (11000 * bitTimeN c.btn))).countP (Config.recessive n c.recAt))
  else s.rf (Reg.CANC_ESTAT n) 31 24

/-- RXACT: a controller that takes part in bus activity is receiving a frame (R95, R118, log entry 44). -/
def State.rxAct (s : State) (n : Nat) : Bool :=
  let c := s.canOf n
  (s.canState n == 2 || s.canState n == 3) && s.canOp n != 0 && s.canOp n != 4 && c.txNow.isNone
    && (decide (16 ≤ n) || s.rf Reg.XPL_STAT 2 0 == 2) && bitOf (Config.busSeen n s.now) 0

/-- CANCn_ESTAT as read. -/
def State.estatView (s : State) (n : Nat) : Word :=
  let w := setBit (setFld (s.rd (Reg.CANC_ESTAT n)) 31 24 (s.recSeq n)) 7 (s.rxAct n)
  setBit (setBit (setBit w 9 (s.linkHold n)) 8 (s.canOf n).txNow.isSome) 6 (s.boffPrio n)

/-- CANCn_TXOCC as read. -/
def State.txoccView (s : State) (n : Nat) : Word :=
  let c := s.canOf n
  let h := match headTx c.bufs with | some h => h.1 | none => 0
  let free := if n < 16 then 0 else 32768 - c.ramUsed n
  BitVec.ofNat 32 (free * 65536 + h * 256 + c.bufs.length)

/-- CANCn_TXHEAD as read. -/
def State.txheadView (s : State) (n : Nat) : Word :=
  match headTx (s.canOf n).bufs with
  | none => 0
  | some h => BitVec.ofNat 32 (h.2.copy.pclass * 2 ^ 30 + h.2.copy.frame.ide.toNat * 2 ^ 29 + h.2.copy.frame.ident)

/-- Cells of the hold pool that are free (R147). -/
def State.holdFree (s : State) : Nat :=
  3840 - ((s.prv.cells.filter (fun p => p.2.charged)).map (fun p => p.2.n)).sum

/-- Copies held for CANCn. -/
def State.heldOf (s : State) (n : Nat) : List Copy := amGetD [] s.prv.hold n

/-- Jobs in flight in Privet (R144). -/
def State.inflight (s : State) : Nat := (s.prv.slots.filter (fun p => !p.2.formed)).length

/-- PRV_PDU_DATA as read (R198). -/
def State.pduDataView (s : State) : Word :=
  let d := s.rd Reg.PRV_PDU_DIDX
  let w := fun k => amGetD 0 s.tab (0x200000 + 64 * fld d 13 0 + 4 * k)
  let o := 4 * fld d 24 16
  let a := fld (w 5) 13 0 * 64 + o
  if bitOf (w 15) 31 && bitOf (w 1) 31 && decide (o < (fld (w 1) 11 0 + 63) / 64 * 64) && decide (a + 4 ≤ 2 ^ 20) then
    BitVec.ofNat 32 (memRd32 s.prv.pdata a)
  else 0

/-- Valid ledger entries (CLM_OCC.USED). -/
def State.clmCount (s : State) : Nat :=
  (s.tab.filter (fun p => decide (0x420000 ≤ p.1) && decide (p.1 < 0x428000) && p.1 % 16 == 12 && bitOf p.2 31)).length

/-- Pool pages held by sessions (R221). -/
def State.tpeUsed (s : State) : List Nat := (s.tpe.ses.map (fun p => p.2.pages)).flatten

/-- Free pages of the transport pool. -/
def State.tpeFree (s : State) : Nat := s.tpe.pool.2 * 256 - s.tpeUsed.length

/-- EMAC n. -/
def State.emacOf (s : State) (n : Nat) : Emac := amGetD {} s.emac n

/-- Set EMAC n. -/
def State.setEmac (s : State) (n : Nat) (e : Emac) : State := { s with emac := amSet {} s.emac n e }

/-- Class c of port p is paused now. -/
def State.pausedNow (s : State) (p c : Nat) : Bool :=
  match amGet (s.emacOf p).pause c with
  | some t => decide (s.now < t)
  | none => false

/-- Cells on chip of the stored frames that satisfy q. -/
def State.cellSum (s : State) (q : SwFrame → Bool) : Nat :=
  ((s.sw.frames.filter (fun p => !p.2.spilled && q p.2)).map (fun p => p.2.cells)).sum

/-- Cells drawn from a pool over all queues. -/
def State.poolUsed (s : State) (o : Pool) : Nat :=
  s.cellSum (fun f => match f.charge with | some (_, p) => p == o | none => false)

/-- Cells in use on chip. -/
def State.cellsUsed (s : State) : Nat := s.cellSum (fun _ => true)

/-- Cells reserved by QMIN, IRSV and HDRM words (R265). -/
def State.cellsReserved (s : State) : Nat :=
  8 * ((List.range 18).map (fun p => s.rf (Reg.QMG_QLIM p) 9 0)).sum
    + 16 * (s.rf Reg.QMG_IRSV 29 20 + s.rf Reg.QMG_IRSV 19 10 + s.rf Reg.QMG_IRSV 9 0) + s.rf Reg.QMG_HDRM 15 0

/-- QMG_SFREE. -/
def State.sfree (s : State) : Nat := 49152 - s.cellsReserved - s.poolUsed .shared

/-- Thicket units in use. -/
def State.tktUsed (s : State) : Nat := ((s.sw.frames.filter (fun p => p.2.spilled)).map (fun p => p.2.cells)).sum

/-- The T1S link of PHY m under R232. -/
def State.t1Up (s : State) (m : Nat) : Bool :=
  s.rb (Reg.T1SP_CTL m) 0 && (!s.rb (Reg.T1SP_CTL m) 1 || s.rb (Reg.T1SP_STAT m) 31)

/-- EMACn_STAT as read. -/
def State.emacStatView (s : State) (p : Nat) : Word :=
  let m := s.rf (Reg.EMAC_CFG p) 2 0
  let ps := ((List.range 8).map (fun c => if s.pausedNow p c then 2 ^ c else 0)).sum
  setFld (setBit (setFld (s.rd (Reg.EMAC_STAT p)) 2 0 m) 15 (s.pausedNow p 8)) 23 16 ps

/-- An ignore period of class c of port p runs (R246). -/
def State.pauseIgn (s : State) (p c : Nat) : Bool :=
  match amGet (s.emacOf p).ign c with
  | some t => decide (s.now < t)
  | none => false

/-- EMACn_PWDSTAT as read. -/
def State.pwdView (s : State) (p : Nat) : Word :=
  let ps := ((List.range 8).map (fun c => if s.pauseIgn p c then 2 ^ c else 0)).sum
  setFld (setBit 0 15 (s.pauseIgn p 8)) 23 16 ps

/-- The wrap of full time in ns (R314). -/
def fullSpan : Nat := 2 ^ 48 * 1000000000

/-- The full time this long ago. -/
def State.fullBack (s : State) (back : Nat) : Nat := (s.tsy.full + fullSpan - back % fullSpan) % fullSpan

/-- Half the trained link loop in ns (R115, R323); an odd loop is rounded down (log entry 73). -/
def State.linkHalf (s : State) : Nat := s.rf Reg.XPL_STAT 23 16 / 2

/-- A transmit opportunity of PHY m without a frame, in ns (R234). -/
def State.toNs (s : State) (m : Nat) : Nat := max 1 (fld (s.emacOf (12 + m)).ptime 7 0) * 100

/-- Opportunities of PHY m that ended by instant t since CURID was written; none while the port sends. -/
def State.toGone (s : State) (m t : Nat) : Nat :=
  let e := s.emacOf (12 + m)
  if !e.plcaRun || (e.tx.isSome && !e.backoff) || decide (t < e.toEnd) then 0 else 1 + (t - e.toEnd) / s.toNs m

/-- The last opportunity of a cycle: the coordinator's node count, where 0 acts as 1; another node counts up to 255. -/
def State.toLast (s : State) (m : Nat) : Nat :=
  let w := (s.emacOf (12 + m)).plca
  if fld w 7 0 = 0 then max 1 (fld w 15 8) else 255

/-- The transmit opportunity in progress at PHY m (R234, R253). -/
def State.curId (s : State) (m : Nat) : Nat := min (s.toLast m) (s.rf (Reg.T1SP_STAT m) 7 0 + s.toGone m s.mono)

/-- T1SPm_STAT as read. -/
def State.t1spView (s : State) (m : Nat) : Word :=
  setFld (setBit (setBit (s.rd (Reg.T1SP_STAT m)) 29 (s.t1Up m)) 30
    (s.rb (Reg.T1SP_CTL m) 1 && fld (s.emacOf (12 + m)).plca 7 0 == 0)) 7 0 (s.curId m)

/-- Bytes b go to the pair link: at 10 Gb/s the line is busy with them (R513). -/
def State.pairLine (s : State) (b : List Byte) : State :=
  { s.emit (.pairLink b) with pair := { s.pair with lineTo := max s.now s.pair.lineTo + b.length * 8 / 10 } }

/-- A frame of the pair link: its header (R509) and what follows it; nothing leaves while the link is down. -/
def State.pairSend (s : State) (typ port : Nat) (data : List Byte) : State :=
  if s.rb (Reg.EMAC_STAT 3) 31 then
    s.pairLine ([BitVec.ofNat 8 typ, BitVec.ofNat 8 port] ++ beBytes 2 data.length ++ beBytes 4 s.stamp32 ++ data)
  else s

/-- HBPER in ns; 0 acts as 1. -/
def State.hbPer (s : State) : Nat := max 1 (s.rf Reg.PAIR_CTL 7 4) * 1000000

/-- HBTO in ns; values below 2 x HBPER act as that. -/
def State.hbTo (s : State) : Nat := max (s.rf Reg.PAIR_CTL 15 8 * 1000000) (2 * s.hbPer)

/-- A pair-link frame was received within HBTO. -/
def State.pairAlive (s : State) : Bool :=
  match s.pair.frameAt with
  | none => false
  | some t => decide (s.now < t + s.hbTo)

/-! Table words. -/

/-- The BAR2 word at address a. -/
def State.tw (s : State) (a : Nat) : Word := amGetD 0 s.tab a

/-- Set a BAR2 word. -/
def State.setTw (s : State) (a : Nat) (w : Word) : State := { s with tab := amSet 0 s.tab a w }

/-! MAC table entries (R293); indices 65536-65791 are the overflow store. -/

/-- Word w of entry i. -/
def State.mtw (s : State) (i w : Nat) : Word :=
  if i < 65536 then s.tw (0x300000 + 16 * i + 4 * w) else amGetD 0 s.sw.ovf (4 * (i - 65536) + w)

/-- Entry i is valid, static; its MC and DROP bits and DEST. -/
def State.mtValid (s : State) (i : Nat) : Bool := bitOf (s.mtw i 3) 31
def State.mtStatic (s : State) (i : Nat) : Bool := bitOf (s.mtw i 2) 31
def State.mtMc (s : State) (i : Nat) : Bool := bitOf (s.mtw i 2) 30
def State.mtDrop (s : State) (i : Nat) : Bool := bitOf (s.mtw i 2) 29
def State.mtDest (s : State) (i : Nat) : Nat := fld (s.mtw i 2) 17 0

/-- The valid entries of the MAC table, then of the overflow store, ascending. -/
def State.mtListed (s : State) : List Nat :=
  (s.tab.filter (fun p => decide (0x300000 ≤ p.1) && decide (p.1 < 0x400000) && p.1 % 16 == 12 && bitOf p.2 31)).map
    (fun p => (p.1 - 0x300000) / 16)
    ++ (s.sw.ovf.filter (fun p => p.1 % 4 == 3 && bitOf p.2 31)).map (fun p => 65536 + p.1 / 4)

/-- Entries counted by MACT_PLRNp (R299). -/
def State.plrn (s : State) (p : Nat) : Nat :=
  (s.mtListed.filter (fun i => !s.mtStatic i && !s.mtMc i && s.mtDest i == p)).length

/-! Yew (R369, R374, R384). -/

/-- The test root is in force (R384). -/
def State.testRoot (s : State) : Bool := s.rb Reg.YEW_STAT 29

/-- The root reads ZEROED (R369). -/
def State.rootZeroed (s : State) : Bool := s.yew.root == .zeroed

/-- Slot n. -/
def State.keySlot (s : State) (n : Nat) : SlotKey := amGetD ⟨0, 0, []⟩ s.yew.slots n

/-- ORIGIN of slot n as it reads: EMPTY while the root is ZEROED (R369, R522), an INSTALLED slot under the test root (R384). -/
def State.slotOrigin (s : State) (n : Nat) : Nat :=
  if s.rootZeroed then 0
  else
    let o := fld (s.keySlot n).attr 31 30
    if s.testRoot && o == 1 then 0 else o

/-- The attribute word of slot n as it reads. -/
def State.slotAttr (s : State) (n : Nat) : Word :=
  if s.slotOrigin n = 0 then setFld 0 29 29 (fld (s.keySlot n).attr 29 29) else (s.keySlot n).attr

/-- YEW_STAT as read: READY and TEST stand in the register. -/
def State.yewStatView (s : State) : Word :=
  let n := if s.rootZeroed then 0 else (s.yew.slots.filter (fun p => s.slotOrigin p.1 != 0)).length
  let w := setBit (setBit (s.rd Reg.YEW_STAT) 30 s.yew.op.isSome) 28 s.rootZeroed
  setFld (setFld w 27 26 s.yew.cause) 9 0 n

/-! DMA (R417). -/

/-- DMACHn_STAT as read. -/
def State.dmachStatView (s : State) (n : Nat) : Word :=
  setBit (s.rd (Reg.DMACH_STAT n)) 28 (s.limWaits n)

/-! Writes that a condition of the chapters discards. -/

/-- The write of v to address a by init is discarded under a condition of its chapter; the register keeps its value: ring
registers of the crypto engine (R360), message words of Yew (R380), tamper settings under LOCK (R389), request words of the mailbox while BUSY (R477), a reset request by another party (R466), TAIL writes of SIZE or above
(R396, R405), copy ring registers while EN = 1 (R417), a cancel request while one is undecided (R113). -/
def State.discards (s : State) (init : Initiator) (a : Nat) (v : Word) : Bool :=
  let o := a % 0x1000
  if pageBase a = Reg.pgCRY ∧ 0x200 ≤ o ∧ o < 0x280 then
    let k := (o - 0x200) / 32
    let r := o % 32
    (k == 3 && init != .laurel)
      || ((r == 0 || r == 4 || r == 8) && s.rb (Reg.CRY_RCTL k) 0)
      || (r == 16 && decide (ringSize (s.rf (Reg.CRY_RSIZE k) 12 0) ≤ fld v 11 0))
  else if pageBase a = Reg.pgYEW then decide (0x180 ≤ o) && decide (o < 0x1D4) && s.yew.op.isSome
  else if Reg.LRL_REQ 0 ≤ a ∧ a ≤ Reg.LRL_REQ 15 then s.rb Reg.LRL_STAT 30
  else if a = Reg.CHIP_RSTCTL then !(init == .host || init == .laurel)
  else if a = Reg.TMP_SWCFG ∨ a = Reg.TMP_MESHCFG then s.rb Reg.TMP_CTL 15
  else if pageBase a = Reg.pgHQ then
    decide (0x200 ≤ o) && o % 8 == 0 && decide ((s.hqOf ((o - 0x200) / 8)).size ≤ fld v 11 0)
  else if Reg.pgDMACH 0 ≤ a ∧ a < Reg.pgDMACH 52 then
    let n := (a - Reg.pgDMACH 0) / 0x1000
    ((o == 0x108 || o == 0x10C || o == 0x110) && s.rb (Reg.DMACH_CTL n) 0)
      || (o == 0x118 && decide (ringSize (s.rf (Reg.DMACH_RSIZE n) 12 0) ≤ fld v 11 0))
  else if Reg.pgCANC 0 ≤ a ∧ a < Reg.pgCANC 24 ∧ o = 0x138 then s.rf a 31 30 == 1
  else false

/-! The sleep agreement (R453). -/

/-- The H8840 drives WAKE_LN (R450). -/
def State.wlDrives (s : State) : Bool :=
  s.rb Reg.WKN_CTL 4 && (List.range 8).any s.domAwake && !s.wkn.commit
    && s.pwr.mode != .off && s.pwr.mode != .sleep && s.pwr.mode != .unpowered

/-- MODE of LWAKEi as it is judged, 0 disabled. -/
def State.lwMode (s : State) (i : Nat) : Nat :=
  let m := s.rf (Reg.WKN_LWCFG i) 30 28
  if !s.rb (Reg.WKN_LWCFG i) 31 || decide (5 < m) then 0 else m

/-- BLOCK (R453). -/
def State.wkBlock (s : State) : Nat :=
  let free := ((List.range 24).filter (fun n => (s.domainOf n).isNone)).any (fun n => s.rb Reg.WKN_HOLD n)
  if (List.range 8).any s.domAwake || free then 1
  else if (List.range 6).any (fun i => (s.lwMode i == 4 || s.lwMode i == 5) && s.rb Reg.WKN_STAT (8 + i)) then 2
  else if s.rb Reg.WKN_CTL 3 && s.rb Reg.WKN_STAT 30 then 3
  else if s.mono < s.wkn.wakeAt + s.rf Reg.WKN_CTL 15 8 * 100000000 then 4
  else if s.xpl.evK.q.any (fun m => m.2.1 == 2) || s.xpl.evY.q.any (fun m => m.2.1 == 9) then 5
  else if s.rb Reg.PWR_STAT 31 || s.inSave then 6
  else if s.wkn.lnRel.isSome then 7
  else 0

/-- WKN_STAT as read; LWACT and WLSEEN stand in the register. -/
def State.wknStatView (s : State) : Word :=
  let b := s.wkBlock
  let aw := ((List.range 8).map (fun k => if s.domAwake k then 2 ^ k else 0)).sum
  setFld (setFld (setBit (setBit (s.rd Reg.WKN_STAT) 31 (b == 0)) 29 s.wlDrives) 23 16 aw) 3 0 b

/-- CHIP_RSTCAUSE (R475). -/
def State.rstCauseView (s : State) : Word :=
  BitVec.ofNat 32 (2 ^ 31 + s.pwr.cause.1 * 2 ^ 28 + s.pwr.cause.2 * 2 ^ 24 + s.pwr.boots % 65536)

/-- PWR_STAT as read: QUAL, the comparison of VSUP with the resume level, is a measured bit while PF_WARN is asserted. -/
def State.pwrStatView (s : State) : Word :=
  setBit (s.rd Reg.PWR_STAT) 4 (s.rb Reg.PWR_STAT 31 && bitOf (Config.measured Reg.PWR_STAT (s.mono / 1000000)) 0)

/-- Read values of registers that show structured state. -/
def State.view (s : State) (a : Nat) : Option Word :=
  let o := a % 0x1000
  let n := (a - 0x100000) / 0x1000
  if 0x100000 ≤ a ∧ a < 0x118000 then
    if o = 0x124 then some (s.estatView n)
    else if o = 0x130 then some (s.txoccView n)
    else if o = 0x134 then some (s.txheadView n)
    else none
  else if 0x200000 ≤ a ∧ a < 0x20E000 then
    if o = 0x120 then some (s.emacStatView ((a - 0x200000) / 0x1000))
    else if o = 0x124 then some (s.pwdView ((a - 0x200000) / 0x1000))
    else none
  else if a = Reg.T1SP_STAT 0 then some (s.t1spView 0)
  else if a = Reg.T1SP_STAT 1 then some (s.t1spView 1)
  else if a = Reg.QMG_OCC then some (setFld (s.rd a) 15 0 s.cellsUsed)
  else if a = Reg.QMG_SFREE then some (BitVec.ofNat 32 s.sfree)
  else if a = Reg.TKT_USED then some (BitVec.ofNat 32 s.tktUsed)
  else if a = Reg.MACT_OCC then some (BitVec.ofNat 32 s.mtListed.length)
  else if a = Reg.MACT_OVOCC then some (BitVec.ofNat 32 (s.mtListed.filter (fun i => decide (65536 ≤ i))).length)
  else if Reg.MACT_PLRN 0 ≤ a ∧ a ≤ Reg.MACT_PLRN 17 then some (BitVec.ofNat 32 (s.plrn ((a - Reg.MACT_PLRN 0) / 4)))
  else if a = Reg.CRY_JOBS then some (setFld (s.rd a) 7 0 s.cry.jobs.length)
  else if a = Reg.PRV_CTL_JOBS then some (setFld (s.rd a) 8 0 s.inflight)
  else if a = Reg.PRV_CTL_STORE then some (BitVec.ofNat 32 s.holdFree)
  else if pageBase a = Reg.pgPRV_CTL ∧ 0x200 ≤ o ∧ o < 0x260 then
    some (BitVec.ofNat 32 (s.heldOf ((o - 0x200) / 4)).length)
  else if a = Reg.PRV_PDU_DATA then some s.pduDataView
  else if a = Reg.CLM_OCC then some (setFld (s.rd a) 11 0 s.clmCount)
  else if a = Reg.TPE_STAT then some (setFld (s.rd a) 7 0 s.tpe.ses.length)
  else if a = Reg.TPE_PFREE then some (BitVec.ofNat 32 s.tpeFree)
  else if a = Reg.YEW_STAT then some s.yewStatView
  else if a = Reg.YEW_UCNT_LO then some (BitVec.ofNat 32 s.yew.ucnt)
  else if a = Reg.YEW_UCNT_HI then some (BitVec.ofNat 32 (s.yew.ucnt / 2 ^ 32))
  else if a = Reg.YEW_SATTR then some (s.slotAttr (s.rf Reg.YEW_SIDX 8 0))
  else if a = Reg.YEW_SLABEL then
    some (if s.slotOrigin (s.rf Reg.YEW_SIDX 8 0) = 2 then (s.keySlot (s.rf Reg.YEW_SIDX 8 0)).label else 0)
  else if a = Reg.TMP_RTC_LO then some (BitVec.ofNat 32 s.rtc)
  else if a = Reg.TMP_RTC_HI then some (BitVec.ofNat 32 (s.rtc / 2 ^ 32 % 0x10000))
  else if a = Reg.WKN_STAT then some s.wknStatView
  else if a = Reg.CHIP_RSTCAUSE then some s.rstCauseView
  else if a = Reg.PWR_STAT then some s.pwrStatView
  else if a = Reg.PWR_VMEAS then some (Config.measured a (s.mono / 1000000))
  else if Reg.pgTRX 0 ≤ a ∧ a < Reg.pgTRX 16 ∧ o = 0x124 then some (s.trxStatView ((a - Reg.pgTRX 0) / 0x1000))
  else if a = Reg.HIF_STAT then some (setBit (setBit (s.rd a) 30 s.bme) 29 s.d3)
  else if Reg.pgDMACH 0 ≤ a ∧ a < Reg.pgDMACH 52 ∧ o = 0x104 then some (s.dmachStatView ((a - Reg.pgDMACH 0) / 0x1000))
  else if Reg.pgDMACH 0 ≤ a ∧ a < Reg.pgDMACH 52 ∧ o = 0x140 then
    some (BitVec.ofNat 32 (s.chanReads ((a - Reg.pgDMACH 0) / 0x1000)))
  else if a = Reg.DMA_OUTST then some (BitVec.ofNat 32 s.hostReads)
  else if a = Reg.PAIR_STAT then some (setBit (s.rd a) 9 s.pairAlive)
  else if a = Reg.LRL_STAT then
    some (setFld (setBit (s.rd a) 31 (decide (5 ≤ s.boot.stage))) 22 16 s.lrl.ev.length)
  else if a = Reg.LRL_EVPOP then some (match s.lrl.ev with | [] => 0 | w :: _ => w)
  else if a = Reg.OBS_STAT then
    some (setFld (setBit (s.rd a) 30 s.obs.run) 6 0 s.obs.fifo.length)
  else if pageBase a = Reg.pgHQ ∧ 0x200 ≤ o ∧ o < 0x600 ∧ o % 8 = 4 then
    let h := s.hqOf ((o - 0x200) / 8)
    some (BitVec.ofNat 32 (h.fetch * 65536 + h.cpl))
  else none

end Sys2Proof.Machine
end

