-- ==== Sys2Proof/Machine/Bus.lean ====
section
/-! DEFINITION. Register accesses: what a read composes (R5, R31, R44), the latches a read loads (R44, R54, R325), and a
write at a page with its bus errors, unlock, shadow and access codes (R5, R6, R44, R45, R51, R58, R61). -/
namespace Sys2Proof.Machine

/-! Mode-controlled fields (R31). -/

/-- A controlled field: register, bits, override bit of CHIP_MODE_OVR, mode values SPEED, ASSURE, ECONOMY. -/
structure CtlField where
  addr : Nat
  hi : Nat
  ovr : Nat
  speed : Nat
  assure : Nat
  economy : Nat
  deriving DecidableEq, Repr

/-- The mode table of R31 (every field starts at bit 0). -/
def ctlFields : List CtlField :=
  [⟨Reg.SWC_FWDCTL, 13, 0, 0x3FFF, 0, 0⟩, ⟨Reg.CRY_CHKCTL, 0, 1, 0, 1, 0⟩, ⟨Reg.CRY_CLKCTL, 0, 2, 0, 0, 1⟩,
   ⟨Reg.PWR_SAVECTL, 0, 3, 0, 1, 0⟩, ⟨Reg.PRV_CTL_DLCTL, 0, 4, 0, 1, 0⟩, ⟨Reg.CHIP_CLKGATE, 0, 5, 0, 0, 1⟩,
   ⟨Reg.TKT_SRCTL, 0, 6, 0, 0, 1⟩]

/-- The mode value of a controlled field under the applied mode (0 SPEED, 2 ECONOMY, else ASSURE). -/
def modeValue (f : CtlField) (mode : Nat) : Nat :=
  if mode = 0 then f.speed else if mode = 2 then f.economy else f.assure

/-- The word w of register a with its controlled field at its value in force, given CHIP_MODE and CHIP_MODE_OVR. -/
def applyCtl (a : Nat) (chipMode ovr w : Word) : Word :=
  match ctlFields.find? (fun f => f.addr == a) with
  | none => w
  | some f => if bitOf ovr f.ovr then w else setFld w f.hi 0 (modeValue f (fld chipMode 17 16))

/-- The word in force at a, controlled fields included (R31). -/
def State.force (s : State) (a : Nat) : Word :=
  applyCtl a (s.rd Reg.CHIP_MODE) (s.rd Reg.CHIP_MODE_OVR) (s.rd a)

/-- The word in force for a job of epoch e, controlled fields included (R19, R31). -/
def State.forceAt (s : State) (e a : Nat) : Word :=
  applyCtl a (s.cfg e Reg.CHIP_MODE) (s.cfg e Reg.CHIP_MODE_OVR) (s.cfg e a)

/-! Reading. -/

/-- The bits wm of new, the other bits of old. -/
def nmerge (old new wm : Nat) : Nat := (old - (old &&& wm)) + (new &&& wm)

/-- Key of what initiator i holds for address a. -/
def ikey (i : Initiator) (a : Nat) : Nat := i.code * 2 ^ 32 + a

/-- The IRQ summary word k: pages whose request names the host (laurel = false) or Laurel (R50). -/
def State.irqSum (s : State) (laurel : Bool) (k : Nat) : Word :=
  let names := fun (imap : Word) => fld imap 9 8 == 2 || fld imap 9 8 == (if laurel then 1 else 0)
  let yat := s.istPages.filterMap (fun b =>
    match runOf b with
    | none => none
    | some r => if !r.kykel && s.requests b && names (s.rd (Reg.PG_IMAP b)) then some (pageIdx r b) else none)
  let kyk := if s.rf Reg.XPL_STAT 2 0 = 2 then (s.xpl.kSum.filter (fun p => names p.2)).map (·.1) else []
  BitVec.ofNat 32 (((yat ++ kyk).filter (fun i => i / 32 == k)).foldl (fun n i => n ||| 2 ^ (i % 32)) 0)

/-- Registers whose read value is computed from other state. -/
def State.derived (s : State) (init : Initiator) (a : Nat) : Option Word :=
  let o := a % 0x1000
  if pageBase a = Reg.pgIRQ then
    if 0x100 ≤ o ∧ o < 0x114 then some (s.irqSum false ((o - 0x100) / 4))
    else if 0x120 ≤ o ∧ o < 0x134 then some (s.irqSum true ((o - 0x120) / 4))
    else if o = 0x140 then some (BitVec.ofNat 32 (s.xpl.kSync.toNat * 0x80000000 + s.xpl.kInt.toNat))
    else none
  else if a = Reg.TSY_NOW_NS then some (BitVec.ofNat 32 (s.tsy.full % 1000000000))
  else if a = Reg.TSY_NOW_SL then some (BitVec.ofNat 32 (s.tsy.full / 1000000000))
  else if a = Reg.TSY_NOW_SH then some (BitVec.ofNat 32 (s.tsy.full / 1000000000 / 2 ^ 32 % 0x10000))
  else if a = Reg.TSY_NOW32 then some (BitVec.ofNat 32 s.stamp32)
  else if a = Reg.XPL_LOCK then
    let own := s.rf Reg.XPL_LOCK 3 2
    some (BitVec.ofNat 32 (own * 4 + (if own = init.code then 1 else 0)))
  else if pageBase a = Reg.pgHIF ∧ 0x10C ≤ o ∧ o < 0x11C then
    let k := (o - 0x10C) / 4
    some (BitVec.ofNat 32 ((s.levels.filter (fun v => v / 32 == k)).foldl (fun n v => n ||| 2 ^ (v % 32)) 0))
  else if pageBase a = Reg.pgYEW ∧ 0x104 ≤ o ∧ o < 0x114 then some (Config.deviceId ((o - 0x104) / 4))
  else s.view a

/-- The value a read of the register at a returns, latches aside (R5, R6, R31). -/
def State.readReg (s : State) (init : Initiator) (r : RegRow) (a : Nat) : Word :=
  match s.derived init a with
  | some w => w
  | none =>
    match r.acc with
    | .wo => 0
    | .rws =>
      let live := s.force a
      let sh := s.rdSh a
      let w := BitVec.ofNat 32 (nmerge live.toNat sh.toNat r.wm)
      match ctlFields.find? (fun f => f.addr == a) with
      | none => w
      | some f => setFld w f.hi 0 (fld live f.hi 0)
    | _ => s.rd a

/-- The registers that a read of a latches for the reading initiator: the high word of a 64-bit register (R44), the
ERR_LAST details (R54), the time registers of R325 and R331. -/
def latchedBy (r : RegRow) (a : Nat) : List Nat :=
  if a = Reg.ERR_LAST_ADDR then [Reg.ERR_LAST_INFO, Reg.ERR_LAST_TS]
  else if a = Reg.TSY_NOW_NS then [Reg.TSY_NOW_SL, Reg.TSY_NOW_SH, Reg.TSY_NOW32]
  else if pageBase a = Reg.pgTSY ∧ 0x300 ≤ a % 0x1000 ∧ a % 0x1000 < 0x340 ∧ a % 16 = 0 then [a + 4, a + 8]
  else if r.w64 then [a + 4]
  else []

/-- The value the reader sees: its latch where it holds one (R44). -/
def State.readSeen (s : State) (init : Initiator) (r : RegRow) (a : Nat) : Word :=
  match amGet s.bus.latch (ikey init a) with
  | some w => w
  | none => s.readReg init r a

/-- The latches a read of a loads. -/
def State.loadLatches (s : State) (init : Initiator) (r : RegRow) (a : Nat) : State :=
  (latchedBy r a).foldl (fun t b =>
    let w := match rowAt b with
      | some rb => t.readReg init rb b
      | none => 0
    { t with bus := { t.bus with latch := amPut t.bus.latch (ikey init b) w } }) s

/-- A read of LRL_EVPOP removes the oldest event word; PG_IST.EVT ends with the last one (R485). -/
def State.evPop (s : State) : State :=
  let r := s.lrl.ev.drop 1
  let s := { s with lrl := { s.lrl with ev := r } }
  if r.isEmpty then (s.wb (Reg.PG_IST Reg.pgLRL) 1 false).syncPage Reg.pgLRL else s

/-- A read at a page (either die): the word and the state after it, or the cause of the bus error. RC registers are
cleared by the read (R5); LRL_EVPOP gives up its word. -/
def State.readAt (s : State) (init : Initiator) (a : Nat) : Except Nat (Word × State) :=
  match rowAt a with
  | none => .error cUNMAPPED
  | some r =>
    let w := s.readSeen init r a
    let s := s.loadLatches init r a
    let s := if a = Reg.LRL_EVPOP then s.evPop else if r.acc = .rc then s.wr a 0 else s
    .ok (w, s)

/-! Writing. -/

/-- Refresh interrupt vectors after a write of a header register of a page (R47, R50). -/
def State.syncHdr (t s : State) (a : Nat) : State :=
  let o := a % 0x1000
  if o = 0x10 ∨ o = 0x14 ∨ o = 0x18 ∨ o = 0x1C then
    let b := pageBase a
    let old := fld (s.rd (Reg.PG_IMAP b)) 6 0
    let t := t.syncPage b
    if isKykel b then t else t.syncVec old
  else t

/-- The high word of a writable 64-bit register (R44). -/
def isHigh (a : Nat) : Bool :=
  match rowAt (a - 4) with
  | some r => r.w64 && (r.acc == .rw || r.acc == .rwg)
  | none => false

/-- Store v under the access code of the row (R5, R6, R44); writes of PG_ISET set PG_IST (R47). -/
def State.store (s : State) (init : Initiator) (r : RegRow) (a : Nat) (v : Word) : State :=
  let merge := fun (old : Word) =>
    BitVec.ofNat 32 (nmerge old.toNat v.toNat r.wm)
  let w1c := fun (old : Word) => BitVec.ofNat 32 (old.toNat - (old.toNat &&& (v.toNat &&& r.w1)))
  if a % 0x1000 = 0x18 then
    let b := pageBase a
    match runOf a with
    | none => s
    | some k => s.wr (Reg.PG_IST b)
        (BitVec.ofNat 32 ((s.rd (Reg.PG_IST b)).toNat ||| (v.toNat &&& istMask k.cls)))
  else match r.acc with
  | .ro | .rc | .wo => s
  | .rws =>
    let s := if r.w1 = 0 then s else s.wr a (w1c (s.rd a))
    let s := s.wrSh a (merge (s.rdSh a))
    s.wb (Reg.PG_CSTAT (pageBase a)) 31 true
  | .rw | .rwg =>
    if r.w64 then { s with bus := { s.bus with low := amPut s.bus.low (ikey init a) v } }
    else if isHigh a then
      match amGet s.bus.low (ikey init (a - 4)) with
      | none => s.wr a (merge (s.rd a))
      | some lo =>
        let s := match rowAt (a - 4) with
          | some rl => s.wr (a - 4) (BitVec.ofNat 32 (nmerge (s.rd (a - 4)).toNat lo.toNat rl.wm))
          | none => s
        let s := { s with bus := { s.bus with low := amDel s.bus.low (ikey init (a - 4)) } }
        s.wr a (merge (s.rd a))
    else s.wr a (w1c (merge (s.rd a)))

/-- The unlock key (R61). -/
def unlockKey : Nat := 0x5E117A5C

/-- The page of address a is unlocked for the initiator (R61). -/
def State.isUnlocked (s : State) (init : Initiator) (a : Nat) : Bool :=
  nsMem s.bus.unlocked (ikey init (pageBase a))

/-- Set or end the unlock of the page of a for the initiator. -/
def State.setUnlock (s : State) (init : Initiator) (a : Nat) (u : Bool) : State :=
  let k := ikey init (pageBase a)
  { s with bus := { s.bus with unlocked := if u then nsAdd s.bus.unlocked k else nsDel s.bus.unlocked k } }

/-- A write at a page on its own die. Any write but one to PG_UNLK consumes the initiator's unlock (R61), one that is a
bus error included (log entry 4). eff is the effect the chapters give the register beyond its access code. -/
def State.writeAt (eff : Initiator → Nat → Word → State → State) (s : State) (init : Initiator) (a : Nat) (v : Word) :
    State × Nat :=
  let u := s.isUnlocked init a
  let s1 := if a % 0x1000 = 0x28 then s else s.setUnlock init a false
  match rowAt a with
  | none => (s1, cUNMAPPED)
  | some r =>
    if a % 0x1000 = 0x28 then
      if v.toNat = unlockKey then (s1.setUnlock init a true, 0) else (s1.setUnlock init a false, cBADKEY)
    else if r.acc = .rwg ∧ ¬ u then (s1, cLOCKED)
    else if r.acc = .rws ∧ s1.rb (Reg.PG_CGRP (pageBase a)) 8 then (s1, cSHADOW_OFF)
    else (eff init a v ((if s1.discards init a v then s1 else s1.store init r a v).syncHdr s1 a), 0)

/-- No effect beyond the access code. -/
def noEff (_ : Initiator) (_ : Nat) (_ : Word) (s : State) : State := s

/-- The page of a is on a die that is held in reset: no access reaches it (R464). -/
def State.unreached (s : State) (a : Nat) : Bool := s.pwr.held && !isKykel a

/-- A write at a page, its refusal logged with its cause (R51-R53). -/
def State.pageWrite (eff : Initiator → Nat → Word → State → State) (s : State) (init : Initiator) (a : Nat) (v : Word) :
    State :=
  if s.unreached a then s
  else
    let (t, c) := s.writeAt eff init a v
    if c = 0 then t else t.busError init true 0 a c

/-- A write of one named register whose effect is f. -/
def State.cmdWrite (s : State) (init : Initiator) (a : Nat) (v : Word) (f : State → State) : State :=
  s.pageWrite (fun _ _ _ t => f t) init a v

/-- A read at a page, answered to its initiator or logged as a bus error (R51-R53). -/
def State.pageRead (s : State) (init : Initiator) (a : Nat) : State :=
  if s.unreached a then s
  else match s.readAt init a with
  | .error c => s.busError init false 0 a c
  | .ok (w, t) => t.emit (.readData init 0 a [w])

/-! Resets of pages (R7, R62, R547). -/

/-- Initialise the pages in [lo, hi): registers, shadows and previous set to the Reset column, unlocks, 64-bit latches
and held low words ended (R7, R62, R547). -/
def State.resetPages (s : State) (lo hi : Nat) : State :=
  let keep := fun (k : Nat) => !(decide (lo ≤ k % 2 ^ 32) && decide (k % 2 ^ 32 < hi))
  { s with
    regs := amDelRange s.regs lo hi
    shadow := amDelRange s.shadow lo hi
    prev := amDelRange s.prev lo hi
    bus := { s.bus with
      unlocked := s.bus.unlocked.filter keep
      latch := s.bus.latch.filter (fun p => keep p.1)
      low := s.bus.low.filter (fun p => keep p.1) } }

end Sys2Proof.Machine
end

