-- ==== Sys2Proof/Machine/Obs.lean ====
section
/-! DEFINITION. The observation port's records (21_observation.md R520-R525): forming, filtering, the output FIFO and its
drain. -/
namespace Sys2Proof.Machine

/-- Set the port's record. -/
def State.setObs (s : State) (o : Obs) : State := { s with obs := o }

/-- The first k bytes of l, zeros beyond its end. -/
def padTo (k : Nat) (l : List Byte) : List Byte := (List.range k).map (fun i => BitVec.ofNat 8 (byteAt l i))

/-- The 16 bytes of a record (R521). -/
def obsRec (typ src stamp : Nat) (body : List Byte) : List Byte :=
  [BitVec.ofNat 8 typ, BitVec.ofNat 8 src] ++ beBytes 4 (stamp % 2 ^ 32) ++ padTo 10 body

/-- The block whose event a record shows, in the order of R524: 1 CAN, 2 Privet, 3 switch, 4 EMAC, 5 crypto, 6 commit; 0 for records
of no block. A DROP record names its block. -/
def obsBlock (r : List Byte) : Nat :=
  match byteAt r 0 with
  | 2 | 3 | 4 => 1
  | 5 => 2
  | 6 => 4
  | 7 => byteAt r 6 + 1
  | 8 => 6
  | _ => 0

/-- A record takes its place: behind every other, but ahead of the records of later blocks at the FIFO's end that share its STAMP
(R524). -/
def obsInsert (fifo : List (List Byte)) (r : List Byte) : List (List Byte) :=
  let b := obsBlock r
  let k := (fifo.reverse.takeWhile (fun x => b != 0 && beAt x 2 4 == beAt r 2 4 && decide (b < obsBlock x))).length
  fifo.take (fifo.length - k) ++ r :: fifo.drop (fifo.length - k)

/-- A record enters the FIFO, or is dropped and counted where the FIFO is full (R524). -/
def State.obsPush (s : State) (r : List Byte) : State :=
  if s.obs.fifo.length < 64 then s.setObs { s.obs with fifo := obsInsert s.obs.fifo r }
  else ((s.setObs { s.obs with lost := s.obs.lost + 1 }).bumpSat Reg.OBS_LOST 1 2).ist Reg.pgOBS 1

/-- An event of an enabled TYPE forms a record (R523). -/
def State.trace (s : State) (typ src : Nat) (body : List Byte) : State :=
  if s.obs.run && s.rb Reg.OBS_SRC typ then s.obsPush (obsRec typ src s.stamp32 body) else s

/-- The SYNC record of this instant (R521). -/
def State.syncRec (s : State) : List Byte :=
  obsRec 1 0 s.stamp32 (beBytes 6 (s.tsy.full / 1000000000 % 2 ^ 48) ++ beBytes 4 0x5A5A5A5A)

/-- A SYNC record is formed; it waits while the FIFO is full and is never dropped (R524). -/
def State.obsSync (s : State) : State :=
  let s := s.setObs { s.obs with syncAt := s.now }
  if s.obs.fifo.length < 64 then s.setObs { s.obs with fifo := s.obs.fifo ++ [s.syncRec] }
  else s.setObs { s.obs with sync := s.obs.sync ++ [s.syncRec] }

/-- A record leaves the port. -/
def State.obsSend (s : State) (r : List Byte) : State := (s.emit (.obs r)).bumpSat Reg.OBS_SENT 1 2

/-- A SYNC record that waits enters the FIFO as room returns. -/
def State.obsRefill (s : State) : State :=
  match s.obs.sync with
  | [] => s
  | r :: rest =>
    if s.obs.fifo.length < 64 then s.setObs { s.obs with fifo := s.obs.fifo ++ [r], sync := rest } else s

/-- One unit of 16 bytes of the port: a LOST record when room has returned after drops, else the oldest record, else
nothing but idle bytes (R520, R524). -/
def State.obsUnit (s : State) : State :=
  if s.obs.lost ≠ 0 ∧ s.obs.fifo.length < 64 then
    ((s.setObs { s.obs with lost := 0 }).obsSend (obsRec 11 0 s.stamp32 (beBytes 4 (s.obs.lost % 2 ^ 32))))
  else match s.obs.fifo with
    | [] => s
    | r :: rest => ((s.setObs { s.obs with fifo := rest }).obsSend r).obsRefill

/-- 4 ns of the port: a unit leaves every 40 ns while the stream runs (R520). -/
def State.obsTick (s : State) : State :=
  if !s.obs.run then s
  else if s.obs.phase + 1 < 10 then s.setObs { s.obs with phase := s.obs.phase + 1 }
  else (s.setObs { s.obs with phase := 0 }).obsUnit

/-- Count n in hidden counter i (R525). -/
def State.obsHidden (s : State) (i n : Nat) : State :=
  s.setObs { s.obs with hidden := amSet 0 s.obs.hidden i ((amGetD 0 s.obs.hidden i + n) % 2 ^ 32) }

/-- CANRX and CANTX filters (R523): the controller and the identifier. -/
def State.traceCanOk (s : State) (n : Nat) (f : CanFrame) : Bool :=
  let m := s.rf Reg.OBS_IDM 28 0
  s.rb Reg.OBS_CANMASK n && ((f.ident &&& m) == (s.rf Reg.OBS_IDV 28 0 &&& m))
    && (s.rb Reg.OBS_IDM 30 || s.rb Reg.OBS_IDV 29 == f.ide)

/-- Format code of R136 and R397. -/
def fmtCode : CanFmt → Nat
  | .cc => 0
  | .fd => 1
  | .xl => 2

/-- A CANRX (2) or CANTX (3) record. -/
def State.traceCan (s : State) (typ n : Nat) (f : CanFrame) : State :=
  if s.traceCanOk n f then
    s.trace typ n ([BitVec.ofNat 8 (fmtCode f.fmt * 64 + f.ide.toNat * 32 + f.rtr.toNat * 16 + f.brs.toNat * 8)]
      ++ beBytes 4 f.ident ++ beBytes 2 f.data.length ++ padTo 3 f.data)
  else s

/-- A CANERR record (R521). -/
def State.traceCanErr (s : State) (n : Nat) : State :=
  if s.rb Reg.OBS_CANMASK n then
    s.trace 4 n ([BitVec.ofNat 8 (s.rf (Reg.CANC_LEC n) 2 0), BitVec.ofNat 8 (s.rf (Reg.CANC_ESTAT n) 2 0)]
      ++ beBytes 2 (s.rf (Reg.CANC_ECNT n) 8 0) ++ [BitVec.ofNat 8 (s.rf (Reg.CANC_ECNT n) 23 16)])
  else s

/-- A DROP record of block b (1 Privet, 2 switch, 3 EMAC, 4 crypto) with cause and index (R521). -/
def State.traceDrop (s : State) (src b cause ix : Nat) : State :=
  s.trace 7 src ([BitVec.ofNat 8 b, BitVec.ofNat 8 cause] ++ beBytes 2 ix)

end Sys2Proof.Machine
end

