-- ==== Sys2Proof/Machine/HostQ.lean ====
section
/-! DEFINITION. Host queues (14_host_dma.md R395-R403): indices, acceptance of an item by a receive queue, results of
transmit frames, counters and interrupt moderation. -/
namespace Sys2Proof.Machine

/-- Add to one counter of a queue; PG_IST.CNT of HQ is set when its bit 31 rises (R415). -/
def State.hqCount (s : State) (old : Nat) (set : Nat → State) : State :=
  let new := (old + 1) % 2 ^ 32
  (set new).istIf (decide (old < 2 ^ 31) && decide (2 ^ 31 ≤ new)) Reg.pgHQ 3

/-- Channel c is halted (R409). -/
def State.chHalted (s : State) (c : Nat) : Bool := s.rb (Reg.DMACH_STAT c) 31

/-- A receive queue counts an item dropped for want of buffers (R400). -/
def State.rxNoBuf (s : State) (q : Nat) : State :=
  let h := s.hqOf (64 + q)
  (s.hqCount h.nobuf (fun n => s.setHq (64 + q) { h with nobuf := n })).ist Reg.pgHQ 1

/-- Ring entries an item of L bytes takes (R399); an item without data takes one (log entry 12). -/
def HQueue.entries (h : HQueue) (l : Nat) : Nat := let n := (l + h.buf - 1) / h.buf; if n = 0 then 1 else n

/-- The next free entry of a receive queue: behind FETCH, those of the items it has accepted and not begun to write. -/
def HQueue.nextFree (h : HQueue) : Nat := (h.fetch + (h.items.map (·.n)).sum) % h.size

/-- Receive queue q starts an item when the entries lie between its next free entry and TAIL; the queue is enabled and
its channel is not halted (R393, R400). -/
def State.rxRoom (s : State) (q l : Nat) : Bool :=
  let h := s.hqOf (64 + q)
  h.en && !s.chHalted h.chan
    && decide (h.entries l ≤ (s.hqTail (64 + q) + h.size - h.nextFree) % h.size)

/-- Offer an item to receive queue q: accepted (true), or dropped and counted (R400). -/
def State.rxOffer (s : State) (q kind : Nat) (words : List Word) (data : List Byte) : State × Bool :=
  if s.rxRoom q data.length then
    let h := s.hqOf (64 + q)
    (s.setHq (64 + q) { h with items := h.items ++ [⟨kind, words, data, h.nextFree, h.entries data.length⟩] }, true)
  else (s.rxNoBuf q, false)

/-- Words 1-6 of a CAN item (R399). -/
def canItemWords (f : CanFrame) (src sub stamp flags : Nat) (self : Bool) : List Word :=
  [BitVec.ofNat 32 stamp,
   BitVec.ofNat 32 (src * 2 ^ 24 + fmtCode f.fmt * 2 ^ 22 + f.ide.toNat * 2 ^ 21 + f.rtr.toNat * 2 ^ 20 + f.brs.toNat * 2 ^ 19
     + f.esi.toNat * 2 ^ 18 + self.toNat * 2 ^ 17 + sub * 2 ^ 12 + flags % 2 * 2 ^ 11 + flags / 2 % 2 * 2 ^ 10),
   BitVec.ofNat 32 f.ident, BitVec.ofNat 32 f.data.length,
   BitVec.ofNat 32 (f.sdt * 2 ^ 24 + f.vcid * 2 ^ 16 + f.sec.toNat * 2 ^ 15 + f.rrs.toNat * 2 ^ 14),
   BitVec.ofNat 32 f.af]

/-- Decide the result of transmit frame d of queue q (R398): code, and the stamp where one was taken. -/
def State.txResult (s : State) (q d code : Nat) (stamp : Option Nat) : State :=
  let h := s.hqOf q
  s.setHq q { h with frames := h.frames.map (fun f => if f.id = d ∧ f.res.isNone then { f with res := some (code, stamp) } else f) }

/-- Raise the interrupt of queue q: a message of vector VEC, or its PBA bit while it is masked (R394, R402). -/
def State.queueIrq (s : State) (q : Nat) : State :=
  let h := s.hqOf q
  let v := fld h.irq 6 0
  let s := s.setHq q { h with unsig := 0 }
  if bitOf h.irq 7 then s.vecMessage v else s

/-- One entry of queue q completes: CPL advances, and the interrupt is raised when CNT completions are unsignalled (R401, R402). -/
def State.entryDone (s : State) (q : Nat) : State :=
  let h := s.hqOf q
  let cnt := let c := fld h.irq 15 8; if c = 0 then 1 else c
  let s := s.hqCount h.done (fun d => s.setHq q { h with
    cpl := (h.cpl + 1) % h.size, done := d, unsig := h.unsig + 1
    firstAt := if h.unsig = 0 then s.now else h.firstAt })
  if cnt ≤ h.unsig + 1 ∧ bitOf h.irq 7 then s.queueIrq q else s

/-- n entries of queue q complete, one after the other (R401). -/
def State.hqCompleted (s : State) (q n : Nat) : State := (List.range n).foldl (fun t _ => t.entryDone q) s

end Sys2Proof.Machine
end

