-- ==== Sys2Proof/Machine/Frames.lean ====
section
/-! DEFINITION. What every frame on its way to a CAN controller shares: the ledger's lookups (R200, R215), isolation
(R213), the judged drop causes (R548), cells (R147), slots, transmit buffers (R108, R127), route demands (R444), frames
the device forms itself (R207, R223), the end of a delivery part (R223), and what the end of a copy means to its origin. -/
namespace Sys2Proof.Machine

/-! Claim-ledger entries (R199, R200). -/

/-- Address of word w of ledger entry i. -/
def clmA (i w : Nat) : Nat := 0x420000 + 16 * i + 4 * w

/-- NAME of entry i. -/
def State.clmName (s : State) (i : Nat) : Nat := (s.tw (clmA i 0)).toNat + (s.tw (clmA i 1)).toNat * 2 ^ 32

/-- TYPE, SEG, STATE, SA of entry i. -/
def State.clmType (s : State) (i : Nat) : Nat := fld (s.tw (clmA i 2)) 31 30
def State.clmSeg (s : State) (i : Nat) : Nat := fld (s.tw (clmA i 2)) 24 20
def State.clmState (s : State) (i : Nat) : Nat := fld (s.tw (clmA i 2)) 19 17
def State.clmSa (s : State) (i : Nat) : Nat := fld (s.tw (clmA i 2)) 15 8

/-- VALID and ROGUE of entry i. -/
def State.clmValid (s : State) (i : Nat) : Bool := bitOf (s.tw (clmA i 3)) 31
def State.clmRogue (s : State) (i : Nat) : Bool := bitOf (s.tw (clmA i 3)) 30

/-- Entry i is in use (R200). -/
def State.clmUse (s : State) (i : Nat) : Bool :=
  s.clmValid i && s.clmType i != 3 && decide (s.clmSeg i ≤ 23) && decide (s.clmState i ≤ 3)

/-- Indices of the entries whose word 3 is listed, ascending. -/
def State.clmListed (s : State) : List Nat :=
  (s.tab.filter (fun p => decide (0x420000 ≤ p.1) && decide (p.1 < 0x428000) && p.1 % 16 == 12)).map
    (fun p => (p.1 - 0x420000) / 16)

/-- Entries in use on segment g, ascending. -/
def State.clmOn (s : State) (g : Nat) : List Nat := s.clmListed.filter (fun i => s.clmUse i && s.clmSeg i == g)

/-- The entry of NAME on segment g; of two the lower index (R200). -/
def State.clmFind (s : State) (g name : Nat) : Option Nat := (s.clmOn g).find? (fun i => s.clmName i == name)

/-- Entry i holds its address (R200). -/
def State.clmHolds (s : State) (i : Nat) : Bool := s.clmState i == 0 || s.clmState i == 3

/-- The entry is ignored since a lower entry has its NAME and SEG (R200). -/
def State.clmShadowed (s : State) (i : Nat) : Bool := s.clmFind (s.clmSeg i) (s.clmName i) != some i

/-- CLAIMED entries of segment g that translation may use; ROGUE ones count as absent with RGBLK (R206, R215). -/
def State.clmXl (s : State) (e g : Nat) : List Nat :=
  (s.clmOn g).filter (fun i => s.clmState i == 0 && !s.clmShadowed i
    && !(bitOf (s.cfg e Reg.CLM_CTL) 3 && s.clmRogue i))

/-- name(g, a) of R215. -/
def State.nameAt (s : State) (e g a : Nat) : Option Nat := ((s.clmXl e g).find? (fun i => s.clmSa i == a)).map s.clmName

/-- addr(g, N) of R215. -/
def State.addrOf (s : State) (e g name : Nat) : Option Nat :=
  ((s.clmXl e g).find? (fun i => s.clmName i == name)).map s.clmSa

/-- addr(n, name(i, a)). -/
def State.xlAddr (s : State) (e i n a : Nat) : Option Nat := (s.nameAt e i a).bind (s.addrOf e n)

/-- Translation of R215 of a frame from segment i to segment n; none is an XLATE drop. -/
def State.translate (s : State) (e i n : Nat) (f : CanFrame) : Option CanFrame :=
  let pf := nfld f.ident 23 16
  if pf = 0xEE then none
  else match s.xlAddr e i n (nfld f.ident 7 0) with
    | none => none
    | some sa =>
      let id1 := nset f.ident 7 0 sa
      let idr := if pf < 0xF0 ∧ nfld f.ident 15 8 ≠ 0xFF then
          (s.xlAddr e i n (nfld f.ident 15 8)).map (nset id1 15 8)
        else some id1
      match idr with
      | none => none
      | some id2 =>
        if pf = 0xE8 ∧ 4 < f.data.length ∧ byteAt f.data 4 ≠ 0xFF then
          (s.xlAddr e i n (byteAt f.data 4)).map (fun x => { f with ident := id2, data := lset f.data 4 (BitVec.ofNat 8 x) })
        else some { f with ident := id2 }

/-! Drop causes (R548). -/

/-- The drop causes of a controller copy, in the order of R548. -/
inductive Cause
  | isolated
  | disabled
  | format
  | xlate
  | auth
  | holdfull
  | deadline
  deriving DecidableEq, Repr

/-- MAX of the hold queue of CANCn in epoch e (R149), which a copy takes with it out of its window (R19). -/
def State.holdMax (s : State) (e n : Nat) : Nat := s.cf e (Reg.PRV_CTL_HOLDLIM n) 9 0

/-- Segment n is isolated (R213). -/
def State.isolated (s : State) (n : Nat) : Bool := s.rb Reg.CLM_ISOSTAT n

/-- Copies that pass an isolated segment: from host queues, Laurel and the ledger (R213). -/
def Copy.isoExempt (c : Copy) : Bool :=
  match c.origin with
  | .ledger _ _ => true
  | .hostq _ _ _ => true
  | _ => (decide (0x40 ≤ c.src) && decide (c.src ≤ 0x7F)) || c.src == 0xC0

/-- CANCn accepts the format under the settings of epoch e (R143). -/
def State.fmtOk (s : State) (e n : Nat) (f : CanFrame) : Bool :=
  match f.fmt with
  | .cc => true
  | .fd => bitOf (s.cfg e (Reg.CANC_MODE n)) 4
  | .xl => decide (16 ≤ n) && bitOf (s.cfg e (Reg.CANC_MODE n)) 6

/-- Causes 1 to 3 of R548. -/
def State.judge (s : State) (c : Copy) (n : Nat) (efmtOk : Bool) : Option Cause :=
  if s.isolated n && !c.isoExempt then some .isolated
  else if s.canState n = 0 then some .disabled
  else if !efmtOk || !s.fmtOk c.epoch n c.frame then some .format
  else none

/-- Count k of route r (0 CMATCH, 1 CDLDROP, 2 CCYCMISS), wrapping (R154). -/
def State.routeCount (s : State) (r k : Nat) : State :=
  { s with prv := { s.prv with
    rcnt := amSet 0 s.prv.rcnt (4 * r + k) ((amGetD 0 s.prv.rcnt (4 * r + k) + 1) % 2 ^ 32) } }

/-- k supervision windows of route r ended without a job (R153). -/
def State.cycMiss (s : State) (r k : Nat) : State :=
  let s := { s with prv := { s.prv with
    rcnt := amSet 0 s.prv.rcnt (4 * r + 2) ((amGetD 0 s.prv.rcnt (4 * r + 2) + k) % 2 ^ 32) } }
  (s.wr Reg.PRV_RTE_LASTCYC (BitVec.ofNat 32 (2 ^ 31 + r))).ist Reg.pgPRV_RTE 1

/-- Count k of layout l (0 CSENT, 1 CINHIB, 2 CSUPP, 3 CDLDROP), wrapping (R198). -/
def State.pduCount (s : State) (l k : Nat) : State :=
  { s with prv := { s.prv with
    pcnt := amSet 0 s.prv.pcnt (4 * l + k) ((amGetD 0 s.prv.pcnt (4 * l + k) + 1) % 2 ^ 32) } }

/-- A DEADLINE drop in the counters of the copy's route or layout, with PRV_CTL PG_IST.DLDROP (R111, R152, R192). -/
def State.deadlineCount (s : State) (c : Copy) : State :=
  (match c.origin with
    | .route r => s.routeCount r 1
    | .layout l => s.pduCount l 3
    | _ => s).ist Reg.pgPRV_CTL 0

/-- The route or layout index a DROP record names. -/
def Copy.dropIx (c : Copy) : Nat :=
  match c.origin with
  | .route r => r
  | .layout l => l
  | _ => 0

/-- Count a drop of a copy to CANCn under its cause (R151, R213, R215, R548); the cause code of the DROP record is a free
value (log entry 1). -/
def State.dropCount (s : State) (n : Nat) (c : Copy) (k : Cause) : State :=
  let s := match k with
    | .isolated => (s.bump (Reg.CLM_ISODROP n) 1 7).ist Reg.pgCLM 6
    | .disabled => (s.bump (Reg.PRV_CTL_EDROP_DISABLED n) 1 6).ist Reg.pgPRV_CTL 3
    | .format => (s.bump (Reg.PRV_CTL_EDROP_FORMAT n) 1 6).ist Reg.pgPRV_CTL 1
    | .xlate => (s.bump (Reg.CLM_XLDROP n) 1 7).ist Reg.pgCLM 5
    | .auth => s
    | .holdfull => (s.bump (Reg.PRV_CTL_EDROP_HOLDFULL n) 1 6).ist Reg.pgPRV_CTL 2
    | .deadline => (s.bump (Reg.PRV_CTL_EDROP_DEADLINE n) 1 6).deadlineCount c
  let (w, s) := s.draw
  s.traceDrop n 1 (w.toNat % 256) c.dropIx

/-! Cells and slots (R144, R147). -/

/-- Cells of a frame with d data bytes. -/
def cellsOf (d : Nat) : Nat := (16 + d + 127) / 128

/-- One copy of job j has been enqueued or dropped: the cells are freed with the last one. -/
def State.freeCell (s : State) (j : Nat) : State :=
  match amGet s.prv.cells j with
  | none => s
  | some c =>
    { s with prv := { s.prv with
      cells := if c.refs ≤ 1 then amDel s.prv.cells j else amPut s.prv.cells j { c with refs := c.refs - 1 } } }

/-- Remove copy k from slot j: its window has passed. The slot is freed with its last copy. -/
def State.leaveSlot (s : State) (j k : Nat) : State :=
  match amGet s.prv.slots j with
  | none => s
  | some sl =>
    let cs := sl.copies.eraseIdx k
    { s with prv := { s.prv with
      slots := if cs.isEmpty then amDel s.prv.slots j else amPut s.prv.slots j { sl with copies := cs } } }

/-! Transmit buffers. -/

/-- PG_IST.BOFFPRIO when a class-0 frame becomes the head in BUS_OFF or RECOVERING (R127); old: placement number of the
head before. -/
def State.headCheck (s : State) (n : Nat) (old : Option Nat) : State :=
  match headTx (s.canOf n).bufs with
  | none => s
  | some h => s.istIf (s.boffPrio n && old != some h.2.order) (Reg.pgCANC n) 3

/-- Placement number of the head. -/
def State.headOrder (s : State) (n : Nat) : Option Nat := (headTx (s.canOf n).bufs).map (fun h => h.2.order)

/-- Place a copy in the lowest free transmit buffer of CANCn (R108). -/
def State.placeCan (s : State) (n : Nat) (c : Copy) : State :=
  let k := s.canOf n
  match (List.range 64).find? (fun i => (amGet k.bufs i).isNone) with
  | none => s
  | some i => (s.setCan n { k with bufs := amPut k.bufs i ⟨c, k.seq⟩, seq := k.seq + 1 }).headCheck n (s.headOrder n)

/-- Free transmit buffer i of CANCn; its credits return (R108). -/
def State.freeBuf (s : State) (n i : Nat) : State :=
  let k := s.canOf n
  (s.setCan n { k with bufs := amDel k.bufs i }).headCheck n (s.headOrder n)

/-! Events toward the Kykel die (R444, R459). -/

/-- The Yatric side queues an event message. -/
def State.evToKykel (s : State) (typ detail : Nat) : State :=
  let e := s.xpl.evY
  { s with xpl := { s.xpl with evY := { e with q := e.q ++ [(e.seq, typ, detail)], seq := (e.seq + 1) % 8 } } }

/-- The Kykel side queues an event message. -/
def State.evToYatric (s : State) (typ detail : Nat) : State :=
  let e := s.xpl.evK
  { s with xpl := { s.xpl with evK := { e with q := e.q ++ [(e.seq, typ, detail)], seq := (e.seq + 1) % 8 } } }

/-- The wake sequencer's record. -/
def State.setWkn (s : State) (w : Wkn) : State := { s with wkn := w }

/-- The device is ACTIVE and no sleep commit is latched. -/
def State.awakeDev (s : State) : Bool := s.pwr.mode == .active && !s.wkn.commit

/-- A change of AGREE is reported (R453). A ROUTE_DEMAND clears it from when it is queued until its acknowledgement (log entry 56). -/
def State.agreeSync (s : State) : State :=
  let a := s.wkBlock == 0
  if a = s.wkn.agree ∨ !s.awakeDev then s
  else ((s.setWkn { s.wkn with agree := a }).ist Reg.pgWKN 0).evToYatric 5 a.toNat

/-- A copy to CANCn passed causes 1 to 4: a ROUTE_DEMAND event, unless one was sent within the previous 5 ms (R444). -/
def State.demand (s : State) (n : Nat) : State :=
  match amGet s.prv.demand n with
  | some t => if s.now < t + 5000000 then s
    else ({ s with prv := { s.prv with demand := amPut s.prv.demand n s.now } }).evToKykel 9 n |>.agreeSync
  | none => ({ s with prv := { s.prv with demand := amPut s.prv.demand n s.now } }).evToKykel 9 n |>.agreeSync

/-! CAN authentication of a copy (R353, R355). -/

/-- Association words a and b match identifier and controller; EN, DIR and the ranges of R353. -/
def assocOk (dir : Bool) (n : Nat) (f : CanFrame) (ws : List Word) : Bool :=
  match ws with
  | [w0, w1, w2, _] =>
    bitOf w0 31 && bitOf w0 30 == dir && bitOf w0 29 == f.ide && fld w0 28 0 == f.ident && fld w1 31 27 == n
      && decide (1 ≤ fld w2 19 16) && decide (fld w2 19 16 ≤ 8) && decide (3 ≤ fld w2 15 11) && decide (fld w2 15 11 ≤ 16)
      && decide (1 ≤ fld w2 10 0) && decide (fld w2 10 0 ≤ 2044)
  | _ => false

/-- The lowest association of direction dir for frame f on CANCn, while CAUTH_CTL.EN = 1. -/
def State.assocFor (s : State) (ctl : Word) (dir : Bool) (n : Nat) (f : CanFrame) : Option Nat :=
  if bitOf ctl 0 then (s.cauth.find? (fun p => assocOk dir n f p.2)).map (·.1) else none

/-- What authentication a controller copy needs; a unit in STANDBY runs no transmit job (R355, R512). -/
def State.secFor (s : State) (e n : Nat) (f : CanFrame) : SecState :=
  if s.standby then .none
  else match s.assocFor (s.cfg e Reg.CAUTH_CTL) true n f with
    | some a => .needed a
    | none => .none

/-! Deadlines (R152). -/

/-- The deadline of a copy: RDL, or DEFAULT while ALL = 1, from the local instant v; none is unsupervised. -/
def State.deadlineOf (s : State) (e v rdl : Nat) : Option Nat :=
  if rdl ≠ 0 then some (v + rdl * 1000)
  else
    let w := s.forceAt e Reg.PRV_CTL_DLCTL
    if bitOf w 0 && fld w 31 16 != 0 then some (v + fld w 31 16 * 1000) else none

/-- The deadline of a copy has passed. -/
def State.overdue (s : State) (c : Copy) : Bool :=
  match c.deadline with
  | none => false
  | some d => decide (d < s.now)

/-! Frames the device forms (R207, R193, R223). -/

/-- A Classical CAN data frame with a 29-bit identifier. -/
def ccFrame (ident : Nat) (data : List Byte) : CanFrame :=
  ⟨.cc, true, ident, false, false, false, data.length, false, false, 0, 0, 0, data⟩

/-- Source code the model gives frames the device forms: none of R133. -/
def srcFormed : Nat := 0x100

/-- A copy of a formed frame toward CANCn, of priority class pc and residence deadline dl (local). -/
def State.mkFormed (s : State) (n pc : Nat) (f : CanFrame) (o : Origin) (dl : Option Nat) (dig : Bool) : Copy :=
  { eg := .ctl n, frame := f, pclass := pc, deadline := dl, valid := s.now, bin := s.tsy.full, src := srcFormed, rid := f.ident,
    self := false, sub := 0, stamp := s.tsy.full, flags := 0, origin := o, epoch := s.epoch, job := s.prv.nextJob, made := 1,
    sec := s.secFor s.epoch n f, digest := dig, max := s.holdMax s.epoch n }

/-- Form a frame as a frame-route copy to CANCn: judged under causes 1 to 3 (R143, R213); true when it entered Privet. -/
def State.formCopy (s : State) (n pc : Nat) (f : CanFrame) (o : Origin) (dl : Option Nat) (dig : Bool) : State × Bool :=
  let c := s.mkFormed n pc f o dl dig
  match s.judge c n true with
  | some k => (s.dropCount n c k, false)
  | none =>
    let j : Job := ⟨srcFormed, false, f, 0, s.tsy.full, s.now, s.tsy.full, none, none⟩
    let sl : Slot := ⟨j, s.epoch, .routed, [c], false, true⟩
    let s := { s with prv := { s.prv with
      nextJob := s.prv.nextJob + 1
      slots := amPut s.prv.slots s.prv.nextJob sl
      cells := amPut s.prv.cells s.prv.nextJob ⟨cellsOf f.data.length, false, 1⟩ } }
    (s.demand n, true)

/-! The transport protocol engine's frames and ends (R220-R226). -/

/-- Session i. -/
def State.ses (s : State) (i : Nat) : Option TpeSession := amGet s.tpe.ses i

/-- Store session i. -/
def State.setSes (s : State) (i : Nat) (t : TpeSession) : State := { s with tpe := { s.tpe with ses := amPut s.tpe.ses i t } }

/-- Identifier of an engine frame: priority 7 (R220). -/
def tpeId (pf da sa : Nat) : Nat := 7 * 2 ^ 26 + pf * 2 ^ 16 + da * 2 ^ 8 + sa

/-- PF of connection management: ETP.CM or TP.CM (R217). -/
def cmPf (etp : Bool) : Nat := if etp then 0xC8 else 0xEC

/-- PF of data transfer. -/
def dtPf (etp : Bool) : Nat := if etp then 0xC7 else 0xEB

/-- The engine's priority class and frames' deadline (R223: RDL = 0). -/
def State.tpeForm (s : State) (n : Nat) (f : CanFrame) (o : Origin) : State × Bool :=
  s.formCopy n (s.rf Reg.TPE_CTL 15 14) f o (s.deadlineOf s.epoch s.now 0) false

/-- Send an Abort from sa to da on segment n (R225). -/
def State.tpeAbort (s : State) (etp : Bool) (n sa da pgn reason : Nat) : State :=
  let f := ccFrame (tpeId (cmPf etp) da sa) ([0xFF, BitVec.ofNat 8 reason, 0xFF, 0xFF, 0xFF] ++ leBytes 3 pgn)
  let s := (s.tpeForm n f .other).1
  let s := (s.bump Reg.TPE_ABTX 1 6).ist Reg.pgTPE 2
  s.wr Reg.TPE_LASTAB (BitVec.ofNat 32 (2 ^ 31 + n * 2 ^ 24 + reason * 2 ^ 16 + sa * 2 ^ 8 + da))

/-- A session ends: its pages are free (R221). -/
def State.sesEnd (s : State) (i : Nat) : State := { s with tpe := { s.tpe with ses := amDel s.tpe.ses i } }

/-- Part p of session i ends, delivered or not; the session ends with its last part (R223, R228 TPE_DONE). -/
def State.partEnd (s : State) (i p : Nat) (ok : Bool) : State :=
  match s.ses i with
  | none => s
  | some t =>
    let t := { t with parts := t.parts.filter (fun q => q.id != p), failed := t.failed || !ok }
    let s := s.setSes i t
    if t.parts.isEmpty && t.delivering then
      (if t.failed then s else s.bump Reg.TPE_DONE 1 6).sesEnd i
    else s

/-- A delivery part fails for a dropped copy: EGFAIL, and on a relay an Abort of reason 2 (R223). -/
def State.partFail (s : State) (i p : Nat) : State :=
  match (s.ses i).bind (fun t => (t.parts.find? (fun q => q.id == p)).map (fun q => (t, q))) with
  | none => s
  | some (t, q) =>
    let s := (s.bump Reg.TPE_EGFAIL 1 6).ist Reg.pgTPE 4
    let s := match q.dest with
      | .relay n sa da => s.tpeAbort (t.kind == 2) n sa da t.pgn 2
      | _ => s
    s.partEnd i p false

/-- The last frame of a window of part p left: wait for the next CTS or the End of Message Acknowledgement on T3; a BAM
part waits for its next packet or has delivered its last (R222, R224). -/
def State.partSent (s : State) (i p : Nat) : State :=
  match s.ses i with
  | none => s
  | some t =>
    let npk := (t.size + 6) / 7
    let up := fun (q : TpePart) =>
      if q.id != p then q
      else match q.dest with
        | .relay _ _ _ =>
          { q with wait := if q.wait == .window && decide (npk ≤ q.sent) then .eoma else .cts, since := s.now }
        | _ => { q with wait := .gap, since := s.now }
    let s := s.setSes i { t with parts := t.parts.map up }
    match t.parts.find? (fun q => q.id == p) with
    | some q => (match q.dest with
      | .bamCan _ _ => if npk ≤ q.sent then s.partEnd i p true else s
      | .bamTun _ => s.partEnd i p true
      | _ => s)
    | none => s

/-! Ends of copies. -/

/-- How a copy ended: enqueued at its controller, sent there (with the stamp of its SOF), or dropped. -/
inductive CopyEnd
  | enqueued
  | sent (stamp : Nat)
  | dropped
  deriving DecidableEq, Repr

/-- What the end of a copy means to its origin: the ledger hears of its claims (R207), a delivery part goes on or fails
(R223), a host descriptor gets its result (R398). -/
def State.endCopy (s : State) (c : Copy) (e : CopyEnd) : State :=
  match c.origin, e with
  | .ledger i (some n), .sent _ => { s with prv := { s.prv with reports := s.prv.reports ++ [(i, n)] } }
  | .ledger i (some n), .dropped =>
    if amGet s.clm.claim i = some n then { s with clm := { s.clm with retry := amPut s.clm.retry i (s.now + 250000000) } } else s
  | .tpe i p true, .sent _ => s.partSent i p
  | .tpe i p _, .dropped => s.partFail i p
  | .hostq q d ts, .enqueued => if ts then s else s.txResult q d 0x00 none
  | .hostq q d _, .sent t => s.txResult q d 0x00 (some t)
  | .hostq q d _, .dropped => s.txResult q d 0x21 none
  | _, _ => s

/-- Drop a copy to CANCn that is in Privet, under its cause (R151): counted, its cell reference freed. -/
def State.dropCopy (s : State) (n : Nat) (c : Copy) (k : Cause) : State :=
  ((s.dropCount n c k).freeCell c.job).endCopy c .dropped

/-- CANCn enters DISABLED: every copy held for it is a DISABLED drop (R150). -/
def State.dropHeld (s : State) (n : Nat) : State :=
  let h := s.heldOf n
  let s := { s with prv := { s.prv with hold := amDel s.prv.hold n } }
  h.foldl (fun t c => t.dropCopy n c .disabled) s

end Sys2Proof.Machine
end

