-- ==== Sys2Proof/Machine/Can.lean ====
section
/-! DEFINITION. The CAN controllers (04_can_controllers.md): modes and configuration, bus integration, receive hand-off,
transmit selection, results of attempts, error confinement, bus-off and recovery, deadlines and cancels. -/
namespace Sys2Proof.Machine

/-! Register fields of a controller. -/

/-- Set STATE of CANCn. -/
def State.setCanState (s : State) (n v : Nat) : State := s.wf (Reg.CANC_ESTAT n) 2 0 v

/-- TEC and REC. -/
def State.tec (s : State) (n : Nat) : Nat := s.rf (Reg.CANC_ECNT n) 8 0
def State.canRec (s : State) (n : Nat) : Nat := s.rf (Reg.CANC_ECNT n) 23 16

/-- Set TEC and REC; REC saturates at 255 (R121). -/
def State.setTecRec (s : State) (n t r : Nat) : State :=
  s.wr (Reg.CANC_ECNT n) (BitVec.ofNat 32 (capAt 255 r * 65536 + t % 512))

/-- EWARN and its PG_IST bit when TEC or REC reaches 96; cleared when both are below (R119). -/
def State.ewarnCheck (s : State) (n : Nat) : State :=
  let hi := decide (96 ≤ s.tec n) || decide (96 ≤ s.canRec n)
  let was := s.rb (Reg.CANC_ESTAT n) 4
  (s.wb (Reg.CANC_ESTAT n) 4 hi).istIf (hi && !was) (Reg.pgCANC n) 2

/-- The controller takes part in frames: ERROR_ACTIVE or ERROR_PASSIVE. -/
def State.canOn (s : State) (n : Nat) : Bool := s.canState n == 2 || s.canState n == 3

/-- The controller is error active for the first time since it left DISABLED: its claim window is due (R212). -/
def State.firstActive (s : State) (n : Nat) : State :=
  let c := s.canOf n
  if c.fromDis then s.setCan n { c with fromDis := false, openDue := true } else s

/-- Enter BUS_OFF (R122, R127). -/
def State.busOff (s : State) (n : Nat) : State :=
  let s := (s.setTecRec n 256 (s.canRec n)).setCanState n 4
  let s := s.setCan n { s.canOf n with boffAt := s.now, suspend := false, flag := none }
  let s := (s.bump (Reg.CANC_BOFFCNT n) 1 12).ist (Reg.pgCANC n) 0
  s.istIf (s.boffPrio n) (Reg.pgCANC n) 3

/-- The confinement state of R118 from the counters, while the controller takes part in frames (R119, R122). -/
def State.confine (s : State) (n : Nat) : State :=
  if !s.canOn n then s.ewarnCheck n
  else if 255 < s.tec n then (s.busOff n).ewarnCheck n
  else if 127 < s.tec n ∨ 127 < s.canRec n then
    let s := if s.canState n = 3 then s
      else ((s.setCanState n 3).bump (Reg.CANC_EPASSCNT n) 1 12).ist (Reg.pgCANC n) 1
    s.ewarnCheck n
  else (s.setCanState n 2).ewarnCheck n

/-- Wait for bus integration (R95, R96). -/
def State.integrate (s : State) (n : Nat) : State :=
  (s.setCan n { s.canOf n with suspend := false, flag := none }).setCanState n 1

/-! Configuration (R96-R99, R106). -/

/-- Data bit time in clock periods. -/
def bitTimeD (btd : Word) : Nat := (fld btd 28 24 + 1) * (1 + (fld btd 15 8 + 1) + (fld btd 21 16 + 1))

/-- The bit-timing rules of R99 for CANCn. -/
def timingOk (n : Nat) (btn btd : Word) : Bool :=
  let nb := bitTimeN btn
  let db := bitTimeD btd
  let lo := if n < 16 then 20 else 8
  decide (160 ≤ nb) && decide (lo ≤ db) && decide (db ≤ nb)
    && decide (2 ≤ fld btn 17 9 + 1) && decide (2 ≤ fld btd 15 8 + 1)
    && decide (fld btn 24 18 ≤ fld btn 17 9) && decide (fld btn 24 18 ≤ fld btn 31 25)
    && decide (fld btd 5 0 ≤ fld btd 15 8) && decide (fld btd 5 0 ≤ fld btd 21 16)
    && decide (2 ≤ (fld btd 28 24 + 1) * (fld btd 21 16 + 1))

/-- The CAN XL rules of R106, checked with TMS = 1 on CANC16-CANC23. -/
def xlOk (n : Nat) (btd xlctl xlpwm : Word) : Bool :=
  if n < 16 ∨ !bitOf xlctl 0 then true
  else
    let sym := (fld xlpwm 5 0 + 1) + (fld xlpwm 13 8 + 1)
    !bitOf xlctl 1 && sym == bitTimeD btd && decide (fld xlpwm 21 16 < sym)

/-- Discard pending frames of a format no longer enabled, counted in TXFLUSH (R96). -/
def State.flushFmt (s : State) (n : Nat) (all : Bool) : State :=
  let c := s.canOf n
  let drop := fun (f : CanFrame) => all || (match f.fmt with
    | .cc => false
    | .fd => !bitOf c.mode 4
    | .xl => decide (n < 16) || !bitOf c.mode 6)
  (c.bufs.filter (fun p => drop p.2.copy.frame)).foldl
    (fun t p => (((t.freeBuf n p.1).bump (Reg.CANC_TXFLUSH n) 1 12).endCopy p.2.copy .dropped)) s

/-- Enter DISABLED (R97, R150). -/
def State.enterDisabled (s : State) (n : Nat) : State :=
  let was := s.canState n
  let s := s.setCan n { s.canOf n with wasOff := decide (4 ≤ was), rx := [], suspend := false, flag := none, selfDue := none, openDue := false }
  let s := s.wr (Reg.CANC_ESTAT n) (setFld (setBit (setFld (s.rd (Reg.CANC_ESTAT n)) 20 16 0) 5 false) 2 0 0)
  (s.flushFmt n true).dropHeld n

/-- Leave DISABLED (R98): into BUS_OFF where it was disabled in bus-off, else into INTEGRATING with cleared counters. The return to BUS_OFF
is no entry of R122: BOFFCNT, PG_IST.BOFF and Laurel's delay do not see it (DESIGN CHOICE, log entry 73). -/
def State.leaveDisabled (s : State) (n : Nat) : State :=
  let c := s.canOf n
  let s := (s.setCan n { c with fromDis := true }).wr (Reg.CANC_LEC n) 0
  if c.wasOff then (((s.setTecRec n 256 (s.canRec n)).wf (Reg.CANC_ESTAT n) 31 24 0).setCanState n 4).ewarnCheck n
  else ((s.setTecRec n 0 0).setCanState n 1).ewarnCheck n

/-- Take the committed values into use (R96-R99): MODE always, bit timing only when it passes; OP 6-7 act as DISABLED
with BTERR (R95). -/
def State.takeConfig (s : State) (n : Nat) : State :=
  let c := s.canOf n
  let btn := s.rd (Reg.CANC_BTN n)
  let btd := s.rd (Reg.CANC_BTD n)
  let xlctl := if n < 16 then c.xlctl else s.rd (Reg.CANC_XLCTL n)
  let xlpwm := if n < 16 then c.xlpwm else s.rd (Reg.CANC_XLPWM n)
  let mode := s.rd (Reg.CANC_MODE n)
  let ok := timingOk n btn btd && xlOk n btd xlctl xlpwm
  let c' := { c with mode := mode, cfgPend := false }
  let c' := if ok then
      { c' with btn := btn, btd := btd, tdc := s.rd (Reg.CANC_TDC n), xlctl := xlctl, xlpwm := xlpwm }
    else c'
  let st := s.canState n
  let s := (s.setCan n c').istIf (!ok || decide (6 ≤ fld mode 2 0)) (Reg.pgCANC n) 7
  let s := s.flushFmt n false
  if s.canOp n = 0 then (if st = 0 then s else s.enterDisabled n)
  else if st = 0 then s.leaveDisabled n
  else if st = 5 then (s.wf (Reg.CANC_ESTAT n) 31 24 0).setCan n { s.canOf n with recAt := s.now }
  else if st = 4 then s
  else s.integrate n

/-- CAN_CONFIG_TAKE_EFFECT (R96): at a frame boundary, never with a frame in transmission. -/
def execCanConfigTakeEffect (n : Fin 24) (s : State) : Host.Outcome State Fault Refusal :=
  let c := s.canOf n
  if c.cfgPend && c.txNow.isNone then .next (s.takeConfig n) else .next s

/-- BUS_INTEGRATION_COMPLETE (R96, R118): the state of the counters; a controller that was error passive is so still, which
is no new entry. -/
def execBusIntegrationComplete (n : Fin 24) (s : State) : Host.Outcome State Fault Refusal :=
  if s.canState n = 1 then
    if 127 < s.tec n ∨ 127 < s.canRec n then .next (s.setCanState n 3)
    else .next ((s.setCanState n 2).firstActive n)
  else .next s

/-! Receive hand-off (R114-R117). -/

/-- The controller takes frames of format f from its bus (R95, R105). -/
def State.accepts (s : State) (n : Nat) (f : CanFrame) : Bool :=
  match f.fmt with
  | .cc => true
  | .fd => bitOf (s.canOf n).mode 4
  | .xl => decide (16 ≤ n) && bitOf (s.canOf n).mode 6

/-- Full time of a SOF edge seen sofAge ns ago, the link delay removed on CANC0-CANC15 (R115, R323). Half of an odd LOOPDLY rounds down
(DESIGN CHOICE, log entry 73). -/
def State.sofStamp (s : State) (n sofAge : Nat) : Nat := s.fullBack (sofAge + (if n < 16 then s.linkHalf else 0))

/-- A valid frame waits in the receive buffer for Privet, or is discarded where 8 frames wait (R115, R117). -/
def State.rxHandOff (s : State) (n : Nat) (self : Bool) (f : CanFrame) (sofAge : Nat) : State :=
  let c := s.canOf n
  if c.rx.length < 8 then
    s.setCan n { c with rx := c.rx ++ [⟨n, self, f, 0, s.sofStamp n sofAge, s.now, s.tsy.full, none, none⟩] }
  else (s.bump (Reg.CANC_RXDISC n) 1 12).ist (Reg.pgCANC n) 9

/-- REC after a good reception: one less; above 127 a free value of 119 to 127 (ISO 11898-1, log entry 9). -/
def State.recGood (s : State) (n : Nat) : State :=
  let r := s.canRec n
  if r = 0 then s
  else if r ≤ 127 then s.setTecRec n (s.tec n) (r - 1)
  else
    let (w, s) := s.draw
    s.setTecRec n (s.tec n) (119 + w.toNat % 9)

/-- CAN_FRAME_VALID (R114): a frame of the bus, or a frame of its own at the end of EOF (R116). -/
def execCanFrameValid (n : Fin 24) (self : Bool) (f : CanFrame) (sofAge : Nat) (s : State) :
    Host.Outcome State Fault Refusal :=
  if self then
    match (s.canOf n).selfDue with
    | none => .next s
    | some g => .next ((s.setCan n { s.canOf n with selfDue := none }).rxHandOff n true g sofAge)
  else if s.canOn n && s.canOp n != 4 && s.accepts n f && (s.canOf n).txNow.isNone then
    let s := s.setCan n { s.canOf n with flag := none, sentLast := false }
    let s := ((s.bump (Reg.CANC_RXOK n) 1 12).recGood n).confine n
    .next ((s.rxHandOff n false f sofAge).traceCan 2 n f)
  else .next s

/-! Transmission (R109-R113, R120). -/

/-- Drop an overdue frame of a transmit buffer (R111). -/
def State.txDrop (s : State) (n : Nat) (p : Nat × CanTx) : State :=
  (((s.freeBuf n p.1).bump (Reg.CANC_TXDEADL n) 1 12).deadlineCount p.2.copy).endCopy p.2.copy .dropped

/-- Select the head, of the frames whose format is enabled, whose deadline has not passed, dropping overdue heads (R110, R111). A frame
placed while its format is not enabled is not sent (MODE.FDEN, XLEN) and holds no other frame back (DESIGN CHOICE, log entry 73). -/
def State.selectTx (s : State) (n : Nat) : Nat → State × Option (Nat × CanTx)
  | 0 => (s, none)
  | k + 1 =>
    match headTx ((s.canOf n).bufs.filter (fun p => s.accepts n p.2.copy.frame)) with
    | none => (s, none)
    | some p => if s.overdue p.2.copy then (s.txDrop n p).selectTx n k else (s, some p)

/-- The frame as the controller sends it: its own ESI, no BRS with BRSEN = 0 (R112, MODE.BRSEN). -/
def State.asSent (s : State) (n : Nat) (f : CanFrame) : CanFrame :=
  match f.fmt with
  | .fd => { f with esi := s.canState n == 3, brs := f.brs && bitOf (s.canOf n).mode 5 }
  | _ => f

/-- A request to cancel the buffer in transmission is decided (R113). -/
def State.cancelDecide (s : State) (n i : Nat) (sent : Bool) : State :=
  let c := s.canOf n
  if c.cancel = some i then
    let s := (s.setCan n { c with cancel := none }).wf (Reg.CANC_TXCAN n) 31 30 (if sent then 3 else 2)
    let s := s.ist (Reg.pgCANC n) 10
    if sent then s
    else match amGet (s.canOf n).bufs i with
      | none => s
      | some t => ((s.freeBuf n i).bump (Reg.CANC_TXCANCEL n) 1 12).endCopy t.copy .dropped
  else s

/-- The attempt in progress ends without success: the frame stays pending, or is freed by its cancel. -/
def State.attemptFailed (s : State) (n : Nat) : State :=
  match (s.canOf n).txNow with
  | none => s
  | some i => (s.setCan n { s.canOf n with txNow := none }).cancelDecide n i false

/-- Statistics counter of an error (R130). -/
def errCounter (n : Nat) : CanErr → Nat
  | .stuff => Reg.CANC_STUFFERR n
  | .form => Reg.CANC_FORMERR n
  | .xlFormat => Reg.CANC_FORMERR n
  | .ack => Reg.CANC_ACKERR n
  | .bitRec => Reg.CANC_BITERR n
  | .bitDom => Reg.CANC_BITERR n
  | .crc => Reg.CANC_CRCERR n

/-- CODE of CANCn_LEC. -/
def errCode : CanErr → Nat
  | .stuff => 1
  | .form => 2
  | .ack => 3
  | .bitRec => 4
  | .bitDom => 5
  | .crc => 6
  | .xlFormat => 7

/-- ACKRUN and ALONE at a transmit error (R129). -/
def State.ackRun (s : State) (n : Nat) (e : CanErr) : State :=
  let a := Reg.CANC_ESTAT n
  if e = .ack then
    if s.canState n = 3 then
      let r := capAt 31 (s.rf a 20 16 + 1)
      let was := s.rb a 5
      (s.wr a (setBit (setFld (s.rd a) 20 16 r) 5 (was || decide (16 ≤ r)))).istIf (!was && decide (16 ≤ r)) (Reg.pgCANC n) 4
    else s
  else s.wf a 20 16 0

/-- An error is recorded in CANCn_LEC and the statistics (R107, R130, R131). -/
def State.errSeen (s : State) (n : Nat) (e : CanErr) (tx dataPhase : Bool) : State :=
  (s.wr (Reg.CANC_LEC n) (BitVec.ofNat 32 (tx.toNat * 32 + dataPhase.toNat * 16 + errCode e))).bump (errCounter n e) 1 12

/-- Error signalling is disabled for XL frames (R107). -/
def State.xlSilent (s : State) (n : Nat) (xl : Bool) : Bool := xl && decide (16 ≤ n) && !bitOf (s.canOf n).xlctl 1

/-- An error the controller detects (R95, R107, R118-R122, R128, R129). exempt: one of the standard's exceptions leaves TEC as it is.
With error signalling disabled a node leaves its counters and waits for bus integration, as ISO 11898-1 has it (PRESUMED, log entry
73). -/
def State.canError (s : State) (n : Nat) (e : CanErr) (tx dataPhase exempt xl : Bool) : State :=
  let s := s.errSeen n e tx dataPhase
  let op := s.canOp n
  if s.xlSilent n xl then
    let s := if tx then (s.ackRun n e).attemptFailed n else s
    (s.integrate n).traceCanErr n
  else if tx then
    let s := s.setCan n { s.canOf n with flag := some true, sentLast := true }
    let passive := s.canState n == 3
    let keep := exempt && ((e == .ack && passive) || e == .stuff)
    let s := s.ackRun n e
    let s := if keep then s else s.setTecRec n (s.tec n + 8) (s.canRec n)
    let s := (s.attemptFailed n).confine n
    let s := if s.canState n = 3 then s.setCan n { s.canOf n with suspend := true } else s
    s.traceCanErr n
  else if op = 2 ∨ op = 3 then (s.integrate n).traceCanErr n
  else
    let s := s.setCan n { s.canOf n with flag := some false, sentLast := false }
    ((s.setTecRec n (s.tec n) (s.canRec n + 1)).confine n).traceCanErr n

/-- In or after an error or overload flag the counter of the controller's role rises by 8: at a bit error in its flag, which is
recorded, or at dominant bits that follow it as ISO 11898-1 counts them (R118). -/
def State.flagError (s : State) (n : Nat) (e : CanErr) (dataPhase role : Bool) : State :=
  let s := if e = .bitDom then s.errSeen n e role dataPhase else s
  ((if role then s.setTecRec n (s.tec n + 8) (s.canRec n) else s.setTecRec n (s.tec n) (s.canRec n + 8)).confine n).traceCanErr n

/-- The delay measurement of R101, R102: rxDom is the first clock after the TXD edge at which RXD is seen dominant, of a
level that still stands at TDCF where it began earlier. True when it failed. -/
def State.tdcMeasure (s : State) (n : Nat) (f : CanFrame) (rxDom : Nat) : State × Bool :=
  let tdc := (s.canOf n).tdc
  let wants := bitOf tdc 0 && (match f.fmt with | .fd => f.brs | .xl => true | .cc => false)
  if !wants then (s, false)
  else
    let v := max rxDom (fld tdc 23 16)
    if 255 < v then ((s.wb (Reg.CANC_TDCSTAT n) 31 true).ist (Reg.pgCANC n) 11, true)
    else (s.wr (Reg.CANC_TDCSTAT n) (BitVec.ofNat 32 ((v + fld tdc 14 8) * 65536 + v)), false)

/-- The controller may start a frame at this SOF (R94-R96, R110, R120). -/
def State.maySend1 (s : State) (n : Nat) : Bool :=
  let c := s.canOf n
  s.canOn n && opSends (s.canOp n) && c.txNow.isNone && !c.suspend && !c.cfgPend && (s.canOp n == 4 || s.txPath n)

/-- TRANSMISSION_SELECTION at SOF (R110-R112), with the measurement of the frame it starts (R101); a failure is a bit error at the nominal
rate, at which the FDF-to-res and XLF-to-resXL edges are sent (R102). -/
def execTransmitSelection (n : Fin 24) (rxDom : Nat) (s : State) : Host.Outcome State Fault Refusal :=
  if s.maySend1 n then
    match s.selectTx n 64 with
    | (s, none) => .next s
    | (s, some p) =>
      let f := s.asSent n p.2.copy.frame
      let s := s.setCan n { s.canOf n with txNow := some p.1, flag := none }
      let s := if s.canOp n = 4 then s else s.emit (.canStart n f)
      let (s, fail) := s.tdcMeasure n f rxDom
      .next (if fail then s.canError n .bitDom true false false (p.2.copy.frame.fmt == .xl) else s)
  else .next s

/-- TRANSMISSION_SUCCESS (R108, R113, R116, R120, R129): the frame was acknowledged. -/
def execTransmissionSuccess (n : Fin 24) (sofAge : Nat) (s : State) : Host.Outcome State Fault Refusal :=
  match (s.canOf n).txNow with
  | none => .next s
  | some i =>
    match amGet (s.canOf n).bufs i with
    | none => .next (s.setCan n { s.canOf n with txNow := none })
    | some t =>
      let f := s.asSent n t.copy.frame
      let keep := bitOf (s.canOf n).mode 8 || s.canOp n == 4 || s.canOp n == 5
      let s := s.setCan n { s.canOf n with txNow := none, sentLast := true, selfDue := if keep then some f else none }
      let s := (s.cancelDecide n i true).freeBuf n i
      let s := s.bump (Reg.CANC_TXOK n) 1 12
      let s := s.setTecRec n (s.tec n - 1) (s.canRec n)
      let s := s.wr (Reg.CANC_ESTAT n) (setBit (setFld (s.rd (Reg.CANC_ESTAT n)) 20 16 0) 5 false)
      let s := s.confine n
      let s := if s.canState n = 3 then s.setCan n { s.canOf n with suspend := true } else s
      .next ((s.traceCan 3 n f).endCopy t.copy (.sent (s.sofStamp n sofAge)))

/-- ARBITRATION_LOST (R110, R113, R130). -/
def execArbitrationLost (n : Fin 24) (s : State) : Host.Outcome State Fault Refusal :=
  if (s.canOf n).txNow.isSome then .next ((s.bump (Reg.CANC_ARBLOST n) 1 12).attemptFailed n) else .next s

/-- CAN_ERROR (R118). A transmit error needs a frame in transmission; an error is detected only by a controller that takes part in frames.
An error in or after a flag needs the flag under way. -/
def execCanError (n : Fin 24) (e : CanErr) (tx dataPhase exempt : Bool) (place : ErrAt) (s : State) :
    Host.Outcome State Fault Refusal :=
  .next (match place with
  | .flag =>
    match (s.canOf n).flag with
    | some role => if s.canOn n then s.flagError n e dataPhase role else s
    | none => s
  | .frame xl =>
    if s.canOn n && (tx == (s.canOf n).txNow.isSome) && (tx || s.canOp n != 4) then s.canError n e tx dataPhase exempt xl else s)

/-- PROTOCOL_EXCEPTION_EVENT (MODE.PXE). -/
def execProtocolExceptionEvent (n : Fin 24) (s : State) : Host.Outcome State Fault Refusal :=
  if s.canOn n && bitOf (s.canOf n).mode 7 && (s.canOf n).txNow.isNone then
    .next (((s.bump (Reg.CANC_PXECNT n) 1 12).ist (Reg.pgCANC n) 8).integrate n)
  else .next s

/-- OVERLOAD_FRAME (R130): in NORMAL and the loopback modes the controller sends its own overload flag (R95). -/
def execOverloadFrame (n : Fin 24) (s : State) : Host.Outcome State Fault Refusal :=
  if s.canOn n then
    let s := s.bump (Reg.CANC_OVLDCNT n) 1 12
    .next (if opSends (s.canOp n) then s.setCan n { s.canOf n with flag := some (s.canOf n).sentLast } else s)
  else .next s

/-- SUSPEND_TRANSMISSION_END (R120). -/
def execSuspendTransmissionEnd (n : Fin 24) (s : State) : Host.Outcome State Fault Refusal :=
  .next (s.setCan n { s.canOf n with suspend := false })

/-- TX_DEADLINE_DROP (R111): every pending frame that is overdue and not in transmission is dropped. -/
def execTxDeadlineDrop (n : Fin 24) (s : State) : Host.Outcome State Fault Refusal :=
  let c := s.canOf n
  .next ((c.bufs.filter (fun p => c.txNow != some p.1 && s.overdue p.2.copy)).foldl (fun t p => t.txDrop n p) s)

/-- The effect of a write of CANCn_TXCAN (R113): INDEX and HEAD are stored before; a request while RESULT = 1 is
discarded. -/
def txcanWrite (n : Nat) (v : Word) (s : State) : State :=
  if s.rf (Reg.CANC_TXCAN n) 31 30 = 1 then s
  else
    let c := s.canOf n
    let i := if bitOf v 8 then (match headTx c.bufs with | some h => h.1 | none => 64) else fld v 5 0
    match amGet c.bufs i with
    | none => (s.wf (Reg.CANC_TXCAN n) 31 30 3).ist (Reg.pgCANC n) 10
    | some t =>
      if c.txNow = some i then (s.setCan n { c with cancel := some i }).wf (Reg.CANC_TXCAN n) 31 30 1
      else
        let s := (s.wf (Reg.CANC_TXCAN n) 31 30 2).ist (Reg.pgCANC n) 10
        ((s.freeBuf n i).bump (Reg.CANC_TXCANCEL n) 1 12).endCopy t.copy .dropped

/-- TX_CANCEL (R113). -/
def execTxCancel (init : Initiator) (n : Fin 24) (v : Word) (s : State) : Host.Outcome State Fault Refusal :=
  .next (s.cmdWrite init (Reg.CANC_TXCAN n) v (txcanWrite n v))

/-- The effect of a write of CANCn_RECOV (R123-R125): a DMA write counts as a host write; the owner is read now. A write with GO = 0
requests nothing, whoever writes it (DESIGN CHOICE, log entry 73). -/
def recovWrite (init : Initiator) (n : Nat) (v : Word) (s : State) : State :=
  if !bitOf v 0 then s
  else
    let byLaurel := s.rf (Reg.CANC_BOFFPOL n) 1 0 = 1
    if (init == .laurel) = byLaurel ∧ s.canState n = 4 ∧ s.canOp n ≠ 0 then
      ((s.wf (Reg.CANC_ESTAT n) 31 24 0).setCan n { s.canOf n with recAt := s.now }).setCanState n 5
    else s.ist (Reg.pgCANC n) 6

/-- RECOVERY_REQUEST (R123). -/
def execRecoveryRequest (init : Initiator) (n : Fin 24) (v : Word) (s : State) : Host.Outcome State Fault Refusal :=
  .next (s.cmdWrite init (Reg.CANC_RECOV n) v (recovWrite init n v))

/-- RECOVERY_COMPLETE (R125): the 128th sequence of 11 recessive bits, 1,408 nominal bit times after the start at the earliest. RECSEQ then
reads 128 until the next accepted RECOV write (DESIGN CHOICE, log entry 73). -/
def execRecoveryComplete (n : Fin 24) (s : State) : Host.Outcome State Fault Refusal :=
  if s.canState n = 5 ∧ 1408000 * bitTimeN (s.canOf n).btn ≤ (s.now - (s.canOf n).recAt) * 160 then
    let s := (s.setTecRec n 0 0).wf (Reg.CANC_ESTAT n) 31 24 128
    .next ((((s.setCanState n 2).ewarnCheck n).ist (Reg.pgCANC n) 5).firstActive n)
  else .next s

end Sys2Proof.Machine
end

