-- ==== Sys2Proof/Machine/Bramble.lean ====
section
/-! DEFINITION. Bramble (05_frame_routing.md R155-R162): encapsulation of copies into IEEE 1722 ACF messages and aggregates,
and decapsulation of received frames into Privet jobs. -/
namespace Sys2Proof.Machine

/-- Bytes c to f and a, b of a MAC address pair (R166): a:b in the high register. -/
def macOf (lo hi : Word) : List Byte := beBytes 2 (fld hi 15 0) ++ beBytes 4 lo.toNat

/-- The transmit stream t. -/
def State.txs (s : State) (t : Nat) : TxStream := amGetD txStreamReset s.prv.tx t

/-- Set transmit stream t. -/
def State.setTxs (s : State) (t : Nat) (x : TxStream) : State :=
  { s with prv := { s.prv with tx := amSet txStreamReset s.prv.tx t x } }

/-- Zero bytes to the quadlet boundary. -/
def padQ (n : Nat) : Nat := (4 - n % 4) % 4

/-- One ACF message of a copy (R157). -/
def acfMsg (brief : Bool) (bus : Nat) (f : CanFrame) (stamp : Nat) : List Byte :=
  let p := padQ f.data.length
  let len := (if brief then 8 else 16) + f.data.length + p
  let fd := f.fmt == .fd
  let hd := (if brief then 2 else 1) * 512 + len / 4
  let fl := p * 64 + (!brief).toNat * 32 + (f.fmt == .cc && f.rtr).toNat * 16 + f.ide.toNat * 8 + (fd && f.brs).toNat * 4
    + fd.toNat * 2 + (fd && f.esi).toNat
  beBytes 2 hd ++ [BitVec.ofNat 8 fl, BitVec.ofNat 8 bus] ++ (if brief then [] else beBytes 8 (stamp % 2 ^ 64))
    ++ beBytes 4 (if f.ide then f.ident else f.ident / 2 ^ 18) ++ f.data ++ List.replicate p 0

/-- The Ethernet frame of an aggregate (R156), without FCS and padding. -/
def State.avtpFrame (s : State) (t : Nat) (msgs : List Byte) : List Byte :=
  let w1 := s.rd (Reg.BRM_TXS_W1 t)
  let w2 := s.rd (Reg.BRM_TXS_W2 t)
  let w3 := s.rd (Reg.BRM_TXS_W3 t)
  let smac := macOf (s.rd Reg.BRM_SMAC_LO) (s.rd Reg.BRM_SMAC_HI)
  let tag := if bitOf w2 30 then beBytes 2 0x8100 ++ beBytes 2 (fld w2 29 27 * 8192 + fld w2 23 12) else []
  let seq := BitVec.ofNat 8 (s.txs t).seq
  let sid := smac ++ beBytes 2 (fld w1 31 16)
  let avtp := if bitOf w2 11 then
      [0x05, 0x81, seq, (if s.rb Reg.TSY_STAT 31 then 0 else 1)] ++ sid
        ++ beBytes 4 ((s.tsy.full + fld w3 7 0 * 10000) % 2 ^ 32) ++ beBytes 4 0 ++ beBytes 2 msgs.length ++ beBytes 2 0
    else [0x82] ++ beBytes 2 (0x8000 + msgs.length % 2048) ++ [seq] ++ sid
  macOf (s.rd (Reg.BRM_TXS_W0 t)) w1 ++ smac ++ tag ++ beBytes 2 0x22F0 ++ avtp ++ msgs

/-- Send messages of stream t as one Ethernet frame into the switch at PRIV (R156, R158). -/
def State.bramSend (s : State) (t : Nat) (ms : List (List Byte)) : State :=
  let fr := s.avtpFrame t ms.flatten
  let x := s.txs t
  let tc := s.rf (Reg.BRM_TXS_W2 t) 26 24
  let s := s.setTxs t { x with seq := (x.seq + 1) % 256 }
  let s := s.bump (Reg.BRM_TXFRM t) 1 5
  { s.emit (.bramble tc fr) with swIn := s.swIn ++ [{ port := 15, tc := tc, bytes := fr, stamp := s.tsy.full }] }

/-- Send the aggregate of stream t, where it holds messages. -/
def State.bramFlush (s : State) (t : Nat) : State :=
  let x := s.txs t
  if x.agg.isEmpty then s else (s.setTxs t { x with agg := [], since := 0 }).bramSend t x.agg

/-- The limit of an aggregate (R158). -/
def State.bramLimit (s : State) (t : Nat) : Nat :=
  min (s.rf (Reg.BRM_TXS_W3 t) 19 8) (1500 - (if s.rb (Reg.BRM_TXS_W2 t) 11 then 24 else 12))

/-- Enqueue a message of class pc at stream t (R158). -/
def State.bramEnqueue (s : State) (t pc : Nat) (m : List Byte) : State :=
  let lim := s.bramLimit t
  let s := if lim < ((s.txs t).agg.flatten.length + m.length) then s.bramFlush t else s
  if lim < m.length ∨ s.rf (Reg.BRM_TXS_W3 t) 31 20 = 0 then (s.bramFlush t).bramSend t [m]
  else
    let x := s.txs t
    let s := s.setTxs t { x with agg := x.agg ++ [m], since := if x.agg.isEmpty then s.now else x.since }
    if pc = 0 ∧ s.rb (Reg.BRM_TXS_W2 t) 4 then s.bramFlush t else s

/-- Transmit stream t is on under the epoch of copy c (R155). -/
def State.bramOn (s : State) (c : Copy) (t : Nat) : Bool :=
  bitOf (s.cfg c.epoch Reg.BRM_CTL) 0 && bitOf (s.cfg c.epoch (Reg.BRM_TXS_W2 t)) 31

/-- Stream t takes copy c (R155). -/
def State.bramTakes (s : State) (c : Copy) (t : Nat) : Bool := s.bramOn c t && c.frame.fmt != .xl

/-- A tunnel copy is encapsulated into stream t with the settings of its epoch (R19), or dropped and counted (R155). -/
def State.bramCopy (s : State) (c : Copy) (t : Nat) : State :=
  let on := s.bramOn c t
  if c.frame.fmt = .xl then (s.bump Reg.BRM_TXDROP 1 5).ist Reg.pgBRM 4
  else if !on then s.bump Reg.BRM_TXDROP 1 5
  else
    let w2 := s.cfg c.epoch (Reg.BRM_TXS_W2 t)
    let bus := if c.src < 24 then c.src else fld w2 9 5
    s.bramEnqueue t c.pclass (acfMsg (bitOf w2 10) bus c.frame c.stamp)

/-- AGGREGATION_TIMER_EXPIRY (R158). -/
def execAggregationTimerExpiry (stream : Fin 64) (s : State) : Host.Outcome State Fault Refusal :=
  let x := s.txs stream
  if !x.agg.isEmpty && decide (x.since + s.rf (Reg.BRM_TXS_W3 stream) 31 20 * 1000 ≤ s.now) then .next (s.bramFlush stream)
  else .next s

/-! Decapsulation. -/

/-- CAN FD data lengths. -/
def fdLen (n : Nat) : Bool :=
  decide (n ≤ 8) || n == 12 || n == 16 || n == 20 || n == 24 || n == 32 || n == 48 || n == 64

/-- DLC of a data length. -/
def dlcOf (n : Nat) : Nat :=
  if n ≤ 8 then n else if n ≤ 12 then 9 else if n ≤ 16 then 10 else if n ≤ 20 then 11 else if n ≤ 24 then 12
  else if n ≤ 32 then 13 else if n ≤ 48 then 14 else 15

/-- A job waits for Privet. -/
def State.waitJob (s : State) (j : Job) : State := { s with prv := { s.prv with wait := s.prv.wait ++ [j] } }

/-- One ACF_CAN or ACF_CAN_BRIEF message m of stream t as a job, none where it is malformed (R161). A message shorter than its header
and padding counts as malformed (DESIGN CHOICE: it is none of the cases R161 lists, log entry 72). -/
def acfJob (t : Nat) (m : List Byte) (full : Nat) : Option Job :=
  let brief := byteAt m 0 / 2 == 2
  let hl := if brief then 8 else 16
  let fl := byteAt m 2
  let pad := fl / 64
  if m.length < hl + pad then none
  else
    let n := m.length - hl - pad
    let fd := nbit fl 1
    if (!fd && decide (8 < n)) || (fd && !fdLen n) then none
    else
      let eff := nbit fl 3
      let cid := beAt m (hl - 4) 4 % 2 ^ 29
      let f : CanFrame :=
        { fmt := if fd then .fd else .cc, ide := eff, ident := if eff then cid else (cid % 2 ^ 11) * 2 ^ 18,
          rtr := !fd && nbit fl 4, brs := fd && nbit fl 2, esi := fd && nbit fl 0, dlc := dlcOf n, rrs := false, sec := false,
          sdt := 0, vcid := 0, af := 0, data := (m.drop hl).take n }
      let stamp := if nbit fl 5 && !brief then beAt m 4 8 else full
      some ⟨0x80 + t, false, f, byteAt m 3 % 32, stamp, 0, 0, none, none⟩

/-- The messages of an accepted frame, in order (R161). -/
def State.acfMessages (s : State) (t : Nat) : Nat → List Byte → State
  | 0, _ => s
  | k + 1, l =>
    if l.isEmpty then s
    else
      let typ := byteAt l 0 / 2
      let len := 4 * (beAt l 0 2 % 512)
      if len = 0 ∨ l.length < len then (s.bump Reg.BRM_ACFERR 1 5).ist Reg.pgBRM 1
      else if typ = 1 ∨ typ = 2 then
        match acfJob t (l.take len) s.tsy.full with
        | none => (s.bump Reg.BRM_ACFERR 1 5).ist Reg.pgBRM 1
        | some j => (s.waitJob j).acfMessages t k (l.drop len)
      else (s.bump Reg.BRM_ACFSKIP 1 5).acfMessages t k (l.drop len)

/-- The AVTP part of a frame that meets R159: stream_id, sequence_num, messages. -/
def avtpParse (b : List Byte) : Option (Nat × Nat × List Byte) :=
  let o := if beAt b 12 2 = 0x8100 then 16 else 12
  let sub := byteAt b (o + 2)
  let tscf := sub == 0x05
  let hl := if tscf then 24 else 12
  if b.length < o + 2 + hl ∨ beAt b o 2 ≠ 0x22F0 then none
  else
    let p := b.drop (o + 2)
    let len := if tscf then beAt p 20 2 else beAt p 1 2 % 2048
    if (tscf || sub == 0x82) && decide (byteAt p 1 / 16 = 8) && decide (len ≤ p.length - hl) then
      some (beAt p 4 8, (if tscf then byteAt p 2 else byteAt p 3), (p.drop hl).take len)
    else none

/-- The receive stream with EN = 1 that has a stream_id. -/
def State.rxStream (s : State) (sid : Nat) : Option Nat :=
  (List.range 64).find? (fun t => s.rb (Reg.BRM_RXS_W2 t) 31
    && (s.rd (Reg.BRM_RXS_W1 t)).toNat * 2 ^ 32 + (s.rd (Reg.BRM_RXS_W0 t)).toNat == sid)

/-- The sequence check of R160: the state after its counts, and whether the frame is accepted. -/
def State.seqCheck (s : State) (t q : Nat) : State × Bool :=
  let w3 := Reg.BRM_RXS_W3 t
  if !s.rb (Reg.BRM_RXS_W2 t) 30 then (s, true)
  else if !s.rb w3 31 then (s.wb w3 31 true, true)
  else
    let d := (q + 512 - (s.rf w3 23 16 + 1)) % 256
    if d = 0 then (s, true)
    else if d ≤ 127 then ((s.bump (Reg.BRM_RXLOST t) d 5).ist Reg.pgBRM 2, true)
    else (s.bump (Reg.BRM_RXSEQOLD t) 1 5, false)

/-- TUNNEL_FRAME_RECEIVE (R159-R161): the oldest frame that left the switch at PRIV; it waits there while jobs of an earlier
one still wait for Privet (R16). -/
def execTunnelFrameReceive (s : State) : Host.Outcome State Fault Refusal :=
  match s.prv.ethIn with
  | [] => .next s
  | b :: rest =>
    if s.prv.wait.any (fun j => decide (0x80 ≤ j.src) && decide (j.src ≤ 0xBF)) then .next s
    else
      let s := { s with prv := { s.prv with ethIn := rest } }
      if !s.rb Reg.BRM_CTL 1 then .next (s.bump Reg.BRM_BADHDR 1 5)
      else match avtpParse b with
        | none => .next (s.bump Reg.BRM_BADHDR 1 5)
        | some (sid, q, msgs) =>
          match s.rxStream sid with
          | none => .next ((s.bump Reg.BRM_UNKSTR 1 5).ist Reg.pgBRM 0)
          | some t =>
            let (s, ok) := s.seqCheck t q
            if ok then
              let s := (s.bump (Reg.BRM_RXFRM t) 1 5).wf (Reg.BRM_RXS_W3 t) 23 16 q
              let s := { s with prv := { s.prv with rxAt := amPut s.prv.rxAt t s.now } }
              .next (s.acfMessages t msgs.length msgs)
            else .next s

/-- STREAM_SILENCE_TIMEOUT (R162). -/
def execStreamSilenceTimeout (stream : Fin 64) (s : State) : Host.Outcome State Fault Refusal :=
  let lim := s.rf (Reg.BRM_RXS_W2 stream) 15 0
  match amGet s.prv.rxAt stream with
  | none => .next s
  | some t =>
    if lim ≠ 0 ∧ t + lim * 1000000 ≤ s.now then
      let s := { s with prv := { s.prv with rxAt := amDel s.prv.rxAt stream } }
      let s := (s.wb (Reg.BRM_RXS_W3 stream) 31 false).wr Reg.BRM_LASTTO (BitVec.ofNat 32 (2 ^ 31 + stream))
      .next (s.ist Reg.pgBRM 3)
    else .next s

end Sys2Proof.Machine
end

