-- ==== Sys2Proof/Machine/Privet.lean ====
section
/-! DEFINITION. Privet's frame routing (05_frame_routing.md R133-R154): acceptance and tagging of jobs, the window search,
copies and hand-offs, enqueue in flow order, hold queues, deadlines and cycle-time supervision. -/
namespace Sys2Proof.Machine

/-! Route entries (R136, R137). -/

/-- Word w of route entry r. -/
def State.rte (s : State) (r w : Nat) : Word := s.tw (0x100000 + 32 * r + 4 * w)

/-- Entry r is matchable under a plan (R23, R137). -/
def State.rteOn (s : State) (r plan : Nat) : Bool := bitOf (s.rte r 7) 31 && bitOf (s.rte r 7) (16 + plan)

/-- Entry r matches a job (R137). -/
def State.rteMatch (s : State) (r plan : Nat) (j : Job) : Bool :=
  let w0 := s.rte r 0
  let w1 := s.rte r 1
  let w2 := s.rte r 2
  let f := j.frame
  s.rteOn r plan && fld w0 31 30 != 3
    && ((fmtCode f.fmt ^^^ fld w0 31 30) &&& fld w1 31 30) == 0
    && (!bitOf w1 29 || bitOf w0 29 == f.ide)
    && ((f.ident ^^^ fld w0 28 0) &&& fld w1 28 0) == 0
    && (!bitOf w2 30 || bitOf w2 31 == (f.fmt == .cc && f.rtr))
    && (j.sub &&& fld w2 24 20) == fld w2 29 25
    && (byteAt f.data 0 &&& fld w2 7 0) == fld w2 15 8 && (!f.data.isEmpty || fld w2 7 0 == 0)

/-- Search a window of k entries from r on (R138): the acting entries in order, and whether a match beyond the eighth
exists. -/
def State.searchWin (s : State) (plan : Nat) (j : Job) : Nat → Nat → List Nat → List Nat × Bool
  | 0, _, acc => (acc, false)
  | k + 1, r, acc =>
    if s.rteMatch r plan j then
      if acc.length = 8 then (acc, true)
      else if bitOf (s.rte r 3) 25 then (acc ++ [r], false)
      else s.searchWin plan j k (r + 1) (acc ++ [r])
    else s.searchWin plan j k (r + 1) acc

/-! Copies (R140-R143, R548). -/

/-- The egress format of R141; none is a FORMAT drop. -/
def efmtConv (e : Nat) (f : CanFrame) : Option CanFrame :=
  if e = 0 then some f
  else if e = 1 then
    match f.fmt with
    | .cc => some f
    | .fd => if f.data.length ≤ 8 then some { f with fmt := .cc, brs := false, esi := false } else none
    | .xl => none
  else
    match f.fmt with
    | .cc => if f.rtr then none else some { f with fmt := .fd, dlc := min f.dlc 8, brs := e == 3, esi := false }
    | .fd => some { f with brs := e == 3 }
    | .xl => none

/-- The identifier rewrite of R142; a standard identifier keeps [17:0] at 0 (R136). -/
def idRewrite (mid rwid : Nat) (f : CanFrame) : CanFrame :=
  let x := (f.ident - (f.ident &&& mid)) + (rwid &&& mid)
  { f with ident := if f.ide then x % 2 ^ 29 else x % 2 ^ 29 / 2 ^ 18 * 2 ^ 18 }

/-- The received identifier of a flow (R14), with its IDE. -/
def ridOf (f : CanFrame) : Nat := f.ident + f.ide.toNat * 2 ^ 29

/-- A copy of job j by entry r under epoch e, before its frame is transformed. -/
def State.baseCopy (s : State) (id e r : Nat) (j : Job) (eg : Egress) (f : CanFrame) (made : Nat) : Copy :=
  { eg := eg, frame := f, pclass := fld (s.rte r 4) 15 14, deadline := s.deadlineOf e j.valid (fld (s.rte r 6) 31 16),
    valid := j.valid, bin := j.validN, src := j.src, rid := ridOf j.frame, self := j.self, sub := j.sub, stamp := j.stamp,
    flags := 0, origin := .route r, epoch := e, job := id, made := made, sec := .none,
    digest := decide (j.src < 24) || (decide (0x80 ≤ j.src) && decide (j.src ≤ 0xBF)) }

/-- The copy of entry r to CANCn: judged in the order of R548, rewritten, translated; none where it is dropped. -/
def State.makeCan (s : State) (id e r made : Nat) (j : Job) (n : Nat) : State × Option Copy :=
  let w1 := s.rte r 1
  let w5 := s.rte r 5
  let conv := efmtConv (fld w5 31 30) j.frame
  let f := conv.getD j.frame
  let c := s.baseCopy id e r j (.ctl n) f made
  match s.judge c n conv.isSome with
  | some k => (s.dropCount n c k, none)
  | none =>
    let f := if bitOf w5 29 then idRewrite (fld w1 28 0) (fld w5 28 0) f else f
    let xl := bitOf (s.rte r 3) 26 && decide (j.src < 24) && f.ide && f.fmt != .xl
    match (if xl then s.translate e j.src n f else some f) with
    | none => (s.dropCount n c .xlate, none)
    | some f =>
      let c := { c with frame := f, sec := s.secFor e n f, max := s.holdMax e n }
      (s.demand n, some c)

/-- The copy of entry r to a host queue or tunnel stream: format as received, identifier rewritten (R141, R142). -/
def State.makeOther (s : State) (id e r made : Nat) (j : Job) (eg : Egress) : Copy :=
  let w5 := s.rte r 5
  let f := if bitOf w5 29 then idRewrite (fld (s.rte r 1) 28 0) (fld w5 28 0) j.frame else j.frame
  s.baseCopy id e r j eg f made

/-- The controller copies of entry r, in ascending number (R140). -/
def State.makeCans (s : State) (id e r made : Nat) (j : Job) : List Nat → List Copy → State × List Copy
  | [], acc => (s, acc)
  | n :: rest, acc =>
    match s.makeCan id e r made j n with
    | (s, none) => s.makeCans id e r made j rest acc
    | (s, some c) => s.makeCans id e r made j rest (acc ++ [c])

/-- Hand a job to the signal engine, the transport protocol engine or the ledger (R140). Jobs the latter two do not act on
are ignored as R204 and R217 say. -/
def State.handTpe (s : State) (j : Job) (e r : Nat) : State :=
  let pf := nfld j.frame.ident 23 16
  let f := j.frame
  if decide (j.src < 24) && f.ide && f.data.length == 8 && !(f.fmt == .cc && f.rtr)
      && (pf == 0xEC || pf == 0xEB || pf == 0xC8 || pf == 0xC7) && bitOf (s.rd Reg.TPE_CTL) 0 then
    { s with prv := { s.prv with tpeQ := s.prv.tpeQ ++ [⟨j, e, r⟩] } }
  else s.bump Reg.TPE_IGN 1 6

/-- The ledger's hand-off (R204): Address Claimed and Request for Address Claim frames of controllers, while EN = 1. -/
def State.handClm (s : State) (j : Job) (e r : Nat) : State :=
  let f := j.frame
  let pf := nfld f.ident 23 16
  let req := pf == 0xEA && f.data.take 3 == [0x00, 0xEE, 0x00]
  if decide (j.src < 24) && f.ide && s.rb Reg.CLM_CTL 0 && !(f.fmt == .cc && f.rtr) && (pf == 0xEE || req) then
    { s with prv := { s.prv with clmQ := s.prv.clmQ ++ [⟨j, e, r⟩] } }
  else s

/-- The length in ns of a supervision window of route r that starts now (R153); 0 without supervision. -/
def State.cycLen (s : State) (r : Nat) : Nat :=
  let per := fld (s.rte r 6) 15 0
  if per = 0 then 0 else (per + fld (s.rte r 7) 15 8) * 100000

/-- A job matches route r (R153): the windows that ended before it are misses, and its own window starts, or supervision rests while CYCP
is 0. -/
def State.cycJob (s : State) (r : Nat) : State :=
  let len := s.cycLen r
  let miss := match amGet s.prv.cyc r with
    | none => 0
    | some w => if w.start + w.len ≤ s.now then (if len = 0 then 1 else 1 + (s.now - (w.start + w.len)) / len) else 0
  let s := if miss = 0 then s else s.cycMiss r miss
  { s with prv := { s.prv with
    cyc := if len = 0 then amDel s.prv.cyc r else amPut s.prv.cyc r ⟨s.now, len⟩ } }

/-- One acting entry (R140, R153, R154, R213): its copies appended, its hand-offs made; the flag says that an action was
skipped for the isolation of the ingress segment. -/
def State.actEntry (s : State) (id e r : Nat) (j : Job) (iso : Bool) (acc : List Copy) : State × List Copy × Bool :=
  let w3 := s.rte r 3
  let w4 := s.rte r 4
  let s := (s.routeCount r 0).cycJob r
  let ns := if iso then [] else setBits (fld w3 23 0) 24
  let host := bitOf w3 31
  let tun := bitOf w3 30 && !iso
  let made := ns.length + host.toNat + tun.toNat
  let (s, acc) := s.makeCans id e r made j ns acc
  let acc := if host then acc ++ [s.makeOther id e r made j (.host (fld w4 31 26))] else acc
  let acc := if tun then acc ++ [s.makeOther id e r made j (.tun (fld w4 25 20))] else acc
  let s := if bitOf w3 29 && !iso then
      { s with prv := { s.prv with sigQ := s.prv.sigQ ++ [.job ⟨j, e, fld w4 13 0⟩] } } else s
  let s := if bitOf w3 28 && !iso then s.handTpe j e r else s
  let s := if bitOf w3 27 then s.handClm j e r else s
  (s, acc, iso && (fld w3 23 0 != 0 || bitOf w3 30 || bitOf w3 29 || bitOf w3 28))

/-- The acting entries in order. -/
def State.actAll (s : State) (id e : Nat) (j : Job) (iso : Bool) : List Nat → List Copy → Bool → State × List Copy × Bool
  | [], acc, k => (s, acc, k)
  | r :: rest, acc, k =>
    let (s, acc, k') := s.actEntry id e r j iso acc
    s.actAll id e j iso rest acc (k || k')

/-- A copy of a job to receive host queue q that no route made (R139, R356): flags as in R399. -/
def State.plainHost (s : State) (id e : Nat) (j : Job) (q flags : Nat) : Copy :=
  { s.baseCopy id e 0 j (.host q) j.frame 1 with pclass := 3, deadline := none, origin := .other, flags := flags, digest := false }

/-- Job without a matching entry (R139). -/
def State.noMatch (s : State) (id e : Nat) (j : Job) : State × List Copy :=
  let s := (s.bump (if j.src < 24 then Reg.PRV_CTL_NOMATCH j.src else Reg.PRV_CTL_NOMATCHO) 1 6).ist Reg.pgPRV_CTL 4
  let w := s.cfg e Reg.PRV_CTL_DEFACT
  if bitOf w 31 then (s, [s.plainHost id e j (fld w 5 0) 2]) else (s, [])

/-- The copy of a host descriptor that names its controller (R134, R397). -/
def State.directCopy (s : State) (id e : Nat) (j : Job) (n pc rdl : Nat) : State × List Copy :=
  let o := match j.hq with
    | some (q, d, ts) => Origin.hostq q d ts
    | none => Origin.other
  let c := { s.baseCopy id e 0 j (.ctl n) j.frame 1 with
    pclass := pc, deadline := if rdl = 0 then none else some (j.valid + rdl * 1000), origin := o, digest := false }
  match s.judge c n true with
  | some k => ((s.dropCount n c k).endCopy c .dropped, [])
  | none => (s.demand n, [{ c with sec := s.secFor e n c.frame, max := s.holdMax e n }])

/-- Route the job in slot id: search its window in its epoch and make its copies (R138-R140); the slot holds them, or is
freed where there are none. -/
def State.routeJob (s : State) (id : Nat) : State :=
  match amGet s.prv.slots id with
  | none => s
  | some sl =>
    let j := sl.job
    let e := sl.epoch
    let (s, cs) := match j.direct with
      | some (n, pc, rdl) => s.directCopy id e j n pc rdl
      | none =>
        let win := s.cfg e (Reg.PRV_RTE_WIN j.src)
        let plan := s.cf e Reg.CHIP_PLAN 1 0
        let (acts, ovf) := s.searchWin plan j (fld win 28 16) (fld win 14 0) []
        let s := if ovf then (s.bump Reg.PRV_CTL_MATCHOVF 1 6).ist Reg.pgPRV_CTL 5 else s
        if acts.isEmpty then s.noMatch id e j
        else
          let iso := decide (j.src < 24) && s.isolated j.src
          let (s, cs, skipped) := s.actAll id e j iso acts [] false
          ((if skipped then (s.bump (Reg.CLM_ISODROP j.src) 1 7).ist Reg.pgCLM 6 else s), cs)
    if cs.isEmpty then { s with prv := { s.prv with slots := amDel s.prv.slots id } }
    else { s with prv := { s.prv with
      slots := amPut s.prv.slots id { sl with phase := .routed, copies := cs }
      cells := amPut s.prv.cells id ⟨cellsOf j.frame.data.length, false, cs.length⟩ } }

/-! Acceptance (R16, R19, R144, R356). -/

/-- Port PRIV hands its head to Bramble: Bramble holds no frame and no job of an earlier one, and Privet has a slot for a job of it or
the frame would only be dropped. Until then the jobs wait in the PRIV queue (R16). -/
def State.privTakes (s : State) : Bool :=
  s.prv.ethIn.isEmpty && !s.prv.wait.any (fun j => decide (0x80 ≤ j.src) && decide (j.src ≤ 0xBF))
    && (!s.rb Reg.BRM_CTL 1 || (s.rb Reg.PRV_CTL_EN 0 && (s.slotFor 0x80).isSome))

/-- Job j of epoch e uses the claim ledger: an entry that acts on it hands it to the ledger or the transport protocol engine, or
translates its copies (R201). -/
def State.usesLedger (s : State) (j : Job) (e : Nat) : Bool :=
  let win := s.cfg e (Reg.PRV_RTE_WIN j.src)
  decide (j.src < 24) && j.direct.isNone
    && (s.searchWin (s.cf e Reg.CHIP_PLAN 1 0) j (fld win 28 16) (fld win 14 0) []).1.any (fun r => fld (s.rte r 3) 28 26 != 0)

/-- The job of slot id may be routed: it does not use the ledger, or no job accepted before it has still to use it (R201). -/
def State.mayRoute (s : State) (id : Nat) (j : Job) (e : Nat) : Bool :=
  !s.usesLedger j e
    || (s.prv.clmQ.isEmpty && (s.prv.tpeQ.isEmpty || s.inSave)
      && !s.prv.slots.any (fun p => decide (p.1 < id) && p.2.phase != .routed && s.usesLedger p.2.job s.epoch))

/-- Route the job in slot id, or let it wait for its turn (R201). -/
def State.routeOrdered (s : State) (id : Nat) : State :=
  match amGet s.prv.slots id with
  | none => s
  | some sl =>
    if s.mayRoute id sl.job sl.epoch then s.routeJob id
    else { s with prv := { s.prv with slots := amPut s.prv.slots id { sl with phase := .waitOrder } } }

/-- The jobs that waited for their turn at the ledger are routed, as far as it has come (R201). -/
def State.routeWaiting (s : State) : State :=
  (s.prv.slots.map (·.1)).foldl (fun t id =>
    match amGet t.prv.slots id with
    | some sl => if sl.phase == .waitOrder then t.routeOrdered id else t
    | none => t) s

/-- Take the first waiting job of a source, and the state without it. Laurel hands its frame over with the command. -/
def State.takeJob (s : State) (src : Nat) (laurel : Option CanFrame) : Option (Job × State) :=
  if src < 24 then
    match (s.canOf src).rx with
    | [] => none
    | j :: rest => some (j, s.setCan src { s.canOf src with rx := rest })
  else if src = 0xC0 then
    laurel.map (fun f => (⟨0xC0, false, f, 0, s.tsy.full, s.now, s.tsy.full, none, none⟩, s))
  else
    match s.prv.wait.find? (fun j => j.src == src) with
    | none => none
    | some j => some ({ j with valid := s.now, validN := s.tsy.full }, { s with prv := { s.prv with wait := s.prv.wait.erase j } })

/-- PRIVET_JOB_ACCEPT (R144): the first waiting job of a source enters a slot, is tagged and routed; a job that a verify
association names waits for its verification first (R356). While a claim or a transport frame of an earlier job is still to
be applied, a controller's job waits (R201, log entry 11). -/
def execPrivetJobAccept (src : Nat) (laurel : Option CanFrame) (s : State) : Host.Outcome State Fault Refusal :=
  let held := decide (src < 24) && !(s.prv.clmQ.isEmpty && (s.prv.tpeQ.isEmpty || s.inSave))
  if !s.rb Reg.PRV_CTL_EN 0 || held then .next s
  else match s.slotFor src with
    | none => .next s
    | some res =>
      match s.takeJob src laurel with
      | none => .next s
      | some (j, s) =>
        let id := s.prv.nextJob
        let ver := if decide (src < 24) && !j.self then s.assocFor (s.rd Reg.CAUTH_CTL) false src j.frame else none
        let ph := match ver with
          | some a => SlotPhase.waitVerify a (s.rd Reg.CAUTH_CTL :: amGetD [0, 0, 0, 0] s.cauth a)
          | none => SlotPhase.routed
        let s := { s with prv := { s.prv with
          nextJob := id + 1
          slots := amPut s.prv.slots id ⟨j, s.epoch, ph, [], res, false⟩ } }
        let s := s.wf Reg.PRV_CTL_JOBS 24 16 (max (s.rf Reg.PRV_CTL_JOBS 24 16) s.inflight)
        let s := match j.hq, j.direct with
          | some (q, d, _), none => s.txResult q d 0x00 none
          | _, _ => s
        .next (if ver.isSome then s else s.routeOrdered id)

/-! Enqueue (R146-R152). -/

/-- Two copies are of one flow toward one egress (R14, R146): at a controller the ingress, the received identifier and the
identifier of the copy are the same. -/
def sameFlow (a b : Copy) : Bool :=
  a.eg == b.eg && (match a.eg with
    | .ctl _ => a.src == b.src && a.rid == b.rid && ridOf a.frame == ridOf b.frame
    | .host _ => true
    | .tun _ => a.src == b.src && a.rid == b.rid)

/-- An earlier-accepted copy of the flow of c is neither enqueued nor dropped; a job that still waits for its verification
counts as one where it has the same ingress and identifier. c is copy k of slot id. -/
def State.flowBlocked (s : State) (id k : Nat) (c : Copy) : Bool :=
  s.prv.slots.any (fun p =>
    if p.1 < id then p.2.copies.any (sameFlow c) || (p.2.phase != .routed && p.2.job.src == c.src && ridOf p.2.job.frame == c.rid)
    else if p.1 = id then (p.2.copies.take k).any (sameFlow c)
    else false)

/-- Digest a copy to egress e (0-23 controllers, 24-37 ports) of the interval of full time bin (R516), while the unit has a
role. -/
def State.digest (s : State) (e bin : Nat) (bytes : List Byte) : State :=
  if s.rf Reg.PAIR_STAT 1 0 = 0 then s
  else
    let k := bin / 100000000 * 64 + e
    let d := amGetD (0, 0) s.pair.own k
    { s with pair := { s.pair with own := amPut s.pair.own k ((d.1 + 1) % 2 ^ 16, (d.2 + crc32 bytes) % 2 ^ 32) } }

/-- Digest a controller copy: its identifier (4 bytes, as placed) and its data, before authentication (log entry 14). -/
def State.digestCan (s : State) (n : Nat) (c : Copy) : State :=
  if c.digest then s.digest n c.bin (beBytes 4 c.frame.ident ++ c.frame.data) else s

/-- The latency of a frame-route copy from controller ingress at its enqueue (R40, R164 LATMAX). -/
def State.latency (s : State) (c : Copy) : State :=
  if c.src < 24 then
    let l := capAt 0xFFFF (s.now - c.valid)
    if s.rf Reg.PRV_CTL_LATMAX 15 0 < l then s.wr Reg.PRV_CTL_LATMAX (BitVec.ofNat 32 l) else s
  else s

/-- A ROUTE record when the last copy of a route entry of slot id leaves its window (R521). -/
def State.traceRoute (s : State) (id : Nat) (c : Copy) : State :=
  match c.origin with
  | .route r =>
    let left : Bool := match amGet s.prv.slots id with
      | none => false
      | some sl => sl.copies.any (fun d => d.origin == .route r)
    if left then s
    else s.trace 5 (if c.src < 24 then c.src else 0)
      (beBytes 2 r ++ beBytes 2 (capAt 0xFFFF (s.now - c.valid)) ++ [BitVec.ofNat 8 c.made])
  | _ => s

/-- Copies held for CANCn replaced. -/
def State.setHeld (s : State) (n : Nat) (h : List Copy) : State :=
  { s with prv := { s.prv with hold := amSet [] s.prv.hold n h } }

/-- Hold-pool cells a copy still needs: none where its frame is charged (R147, R149). -/
def State.holdNeed (s : State) (c : Copy) : Nat :=
  match amGet s.prv.cells c.job with
  | none => 0
  | some x => if x.charged then 0 else x.n

/-- The hold queue cannot take the copy (R149). -/
def State.holdFull (s : State) (n : Nat) (c : Copy) : Bool :=
  decide (c.max ≤ (s.heldOf n).length) || decide (s.holdFree < s.holdNeed c)

/-- Charge a frame's cells to the hold pool (R147). -/
def State.chargeCells (s : State) (j : Nat) : State :=
  match amGet s.prv.cells j with
  | none => s
  | some x => { s with prv := { s.prv with cells := amPut s.prv.cells j { x with charged := true } } }

/-- A copy is placed into CANCn: enqueued (R108, R147). -/
def State.enqueueCan (s : State) (n : Nat) (c : Copy) : State :=
  ((((s.digestCan n c).placeCan n c).freeCell c.job).latency c).endCopy c .enqueued

/-- Copy k of slot id, c, goes to CANCn (R148, R149, R152, R512): in the order of R548. A copy that finds its controller DISABLED here,
though it passed cause 2 at its creation, is a DISABLED drop as a held copy is (DESIGN CHOICE: R150 and R548 do not speak of it, log
entry 72). -/
def State.enqueueAt (s : State) (n : Nat) (c : Copy) : State :=
  if s.canState n = 0 then s.dropCopy n c .disabled
  else if s.standby then ((s.digestCan n c).freeCell c.job).endCopy c .dropped
  else
    let hold := !(s.heldOf n).isEmpty || !(s.canOf n).credit n c.frame
    if hold && s.holdFull n c then s.dropCopy n c .holdfull
    else if s.overdue c then s.dropCopy n c .deadline
    else if hold then (s.chargeCells c.job).setHeld n (s.heldOf n ++ [c])
    else s.enqueueCan n c

/-- A drop of a host or tunnel copy is counted by its receive queue or in BRM_TXDROP (R151). -/
def State.otherDrop (s : State) (c : Copy) : State :=
  match c.eg with
  | .host q => s.rxNoBuf q
  | .tun _ => s.bump Reg.BRM_TXDROP 1 5
  | .ctl _ => s

/-- A host or tunnel copy whose residence exceeds its deadline is a DEADLINE drop of its route (R151, R152). The SRC of a host
item of a frame the device formed is a free value: R133 names none. -/
def State.enqueueOther (s : State) (c : Copy) : State :=
  let s := s.freeCell c.job
  if s.overdue c then ((s.deadlineCount c).otherDrop c).endCopy c .dropped
  else match c.eg with
    | .host q =>
      let (w, s) := if c.src < 0x100 then (BitVec.ofNat 32 c.src, s) else s.draw
      let (s, ok) := s.rxOffer q 1 (canItemWords c.frame (w.toNat % 0x100) c.sub c.stamp c.flags c.self) c.frame.data
      if ok then (s.latency c).emit (.toHost q c.frame)
      else s.endCopy c .dropped
    | .tun t =>
      let ok := s.bramTakes c t
      if ok then ((s.bramCopy c t).latency c).endCopy c (.sent s.stamp32) else (s.bramCopy c t).endCopy c .dropped
    | .ctl _ => s

/-- The copy may be enqueued: no authentication is open for it and its flow is not blocked. -/
def State.ready (s : State) (id k : Nat) (c : Copy) : Bool :=
  (match c.sec with
    | .none => true
    | .done => true
    | .needed _ => s.standby
    | .running _ => false) && !s.flowBlocked id k c

/-- COPY_ENQUEUE (R146): copy k of slot job. -/
def execCopyEnqueue (job : Nat) (k : Nat) (s : State) : Host.Outcome State Fault Refusal :=
  match amGet s.prv.slots job with
  | none => .next s
  | some sl =>
    match sl.copies[k]? with
    | none => .next s
    | some c =>
      if s.ready job k c then
        let s := s.leaveSlot job k
        let s := match c.eg with
          | .ctl n => s.enqueueAt n c
          | _ => s.enqueueOther c
        .next (s.traceRoute job c)
      else .next s

/-- Held copy a is placed before held copy b: the order of R109, then arrival. -/
def bestHeld : List Copy → Option Copy
  | [] => none
  | c :: r => match bestHeld r with
    | none => some c
    | some d => if arbKey d.frame < arbKey c.frame then some d else some c

/-- HELD_COPY_PLACEMENT (R148): the held copy of highest priority, once it finds its credits; checked for its deadline. -/
def execHeldCopyPlacement (n : Fin 24) (s : State) : Host.Outcome State Fault Refusal :=
  match bestHeld (s.heldOf n) with
  | none => .next s
  | some c =>
    if s.overdue c then .next ((s.setHeld n ((s.heldOf n).erase c)).dropCopy n c .deadline)
    else if (s.canOf n).credit n c.frame then .next ((s.setHeld n ((s.heldOf n).erase c)).enqueueCan n c)
    else .next s

/-- HELD_COPY_DEADLINE_DROP (R152): every overdue held copy. -/
def execHeldCopyDeadlineDrop (n : Fin 24) (s : State) : Host.Outcome State Fault Refusal :=
  let late := (s.heldOf n).filter s.overdue
  .next (late.foldl (fun t c => t.dropCopy n c .deadline) (s.setHeld n ((s.heldOf n).filter (fun c => !s.overdue c))))

/-! Cycle-time supervision and route counters (R153, R154, R165). -/

/-- CYCLE_WINDOW_EXPIRY (R153): the miss is counted and a window of the entry's present length starts at its end. -/
def execCycleWindowExpiry (route : Nat) (s : State) : Host.Outcome State Fault Refusal :=
  match amGet s.prv.cyc route with
  | none => .next s
  | some w =>
    if w.start + w.len ≤ s.now then
      let len := s.cycLen route
      let s := s.cycMiss route 1
      .next { s with prv := { s.prv with
        cyc := if len = 0 then amDel s.prv.cyc route else amPut s.prv.cyc route ⟨w.start + w.len, len⟩ } }
    else .next s

/-- Supervision of entries that are not matchable under the plan in force ends (R153). -/
def State.cycPrune (s : State) : State :=
  let plan := s.rf Reg.CHIP_PLAN 1 0
  { s with prv := { s.prv with cyc := s.prv.cyc.filter (fun p => s.rteOn p.1 plan) } }

/-- A write of PRV_RTE_CIDX latches the counters of route INDEX (R165). -/
def cidxWrite (v : Word) (s : State) : State :=
  let g := fun k => BitVec.ofNat 32 (amGetD 0 s.prv.rcnt (4 * fld v 14 0 + k))
  ((s.wr Reg.PRV_RTE_CMATCH (g 0)).wr Reg.PRV_RTE_CDLDROP (g 1)).wr Reg.PRV_RTE_CCYCMISS (g 2)

/-- ROUTE_COUNTER_LATCH (R165). -/
def execRouteCounterLatch (init : Initiator) (v : Word) (s : State) : Host.Outcome State Fault Refusal :=
  .next (s.cmdWrite init Reg.PRV_RTE_CIDX v (cidxWrite v))

/-- A write of PRV_RTE_CCLR (R165). -/
def cclrWrite (v : Word) (s : State) : State :=
  if bitOf v 31 then ({ s with prv := { s.prv with rcnt := [] } }).wr Reg.PRV_RTE_LASTCYC 0
  else
    let r := 4 * fld v 14 0
    { s with prv := { s.prv with rcnt := amDelRange s.prv.rcnt r (r + 3) } }

/-- ROUTE_COUNTER_CLEAR (R165). -/
def execRouteCounterClear (init : Initiator) (v : Word) (s : State) : Host.Outcome State Fault Refusal :=
  .next (s.cmdWrite init Reg.PRV_RTE_CCLR v (cclrWrite v))

end Sys2Proof.Machine
end

