-- ==== Sys2Proof/Machine/Signal.lean ====
section
/-! DEFINITION. The signal engine (06_signal_engine.md R167-R198): unpacking, conversion and substitution, ageing, transmit
buffers, triggers and frame formation. -/
namespace Sys2Proof.Machine

/-! Descriptors and layouts (R170, R171, R173). -/

/-- Word w of signal descriptor i, of PDU layout l. -/
def State.sigw (s : State) (i w : Nat) : Word := s.tw (16 * i + 4 * w)
def State.pduw (s : State) (l w : Nat) : Word := s.tw (0x200000 + 64 * l + 4 * w)

/-- Descriptor i is valid and in a plan (R174, R183). -/
def State.sigOn (s : State) (i plan : Nat) : Bool := bitOf (s.sigw i 3) 31 && bitOf (s.sigw i 3) (24 + plan)

/-- Layout l is valid and in a plan. -/
def State.pduOn (s : State) (l plan : Nat) : Bool := bitOf (s.pduw l 15) 31 && bitOf (s.pduw l 15) (16 + plan)

/-- Slot i of the value store (R169). -/
def State.slotOf (s : State) (i : Nat) : SigSlot :=
  match amGet s.prv.slotv i with
  | some x => x
  | none => ⟨0, 2, s.prv.resetAt, false, false, 0⟩

/-- Set slot i. -/
def State.setSig (s : State) (i : Nat) (x : SigSlot) : State :=
  { s with prv := { s.prv with slotv := amPut s.prv.slotv i x } }

/-- Layout state. -/
def State.pduSt (s : State) (l : Nat) : PduSt := amGetD {} s.prv.pdu l
def State.setPdu (s : State) (l : Nat) (x : PduSt) : State :=
  { s with prv := { s.prv with pdu := amSet {} s.prv.pdu l x } }

/-- A layout error (R196). -/
def State.layErr (s : State) (cause ix : Nat) : State :=
  ((s.bump Reg.PRV_SIG_LAYERR 1 5).wr Reg.PRV_SIG_LASTLERR (BitVec.ofNat 32 (2 ^ 31 + cause * 2 ^ 16 + ix))).ist
    Reg.pgPRV_SIG 2

/-! Fields of a PDU (R172). -/

/-- The PDU position after p, none below bit 0 of byte 0. -/
def nextPos (ord : Bool) (p : Nat) : Option Nat :=
  if !ord || p % 8 != 7 then some (p + 1) else if 15 ≤ p then some (p - 15) else none

/-- Positions of the bits of a field of w bits from p, none where it leaves byte 0 downward. -/
def fieldPos (ord : Bool) : Nat → Nat → Option (List Nat)
  | 0, _ => some []
  | 1, p => some [p]
  | w + 1, p => match nextPos ord p with
    | none => none
    | some q => (fieldPos ord w q).map (p :: ·)

/-- The positions lie inside the first len bytes. -/
def posInside (ps : Option (List Nat)) (len : Nat) : Option (List Nat) :=
  match ps with
  | none => none
  | some l => if l.all (fun p => decide (p / 8 < len)) then some l else none

/-- Bit p of a PDU (R172). -/
def pduBit (data : List Byte) (p : Nat) : Bool := nbit (byteAt data (p / 8)) (p % 8)

/-- The raw field at positions ps, least significant first. -/
def rawField (data : List Byte) : List Nat → Nat
  | [] => 0
  | p :: r => (pduBit data p).toNat + 2 * rawField data r

/-- The qualifier of a raw field under the J1939 ranges (R176). -/
def rngQual (w raw : Nat) (rsvna : Bool) : Nat :=
  if w = 1 then 0
  else if w ≤ 7 then (if raw = 2 ^ w - 1 then 2 else if raw = 2 ^ w - 2 then 1 else 0)
  else
    let t := raw / 2 ^ (w - 8)
    if t = 0xFF then 2 else if t = 0xFE then 1 else if 0xFB ≤ t ∧ rsvna then 2 else 0

/-- Valid maximum, error code and not-available code of a target (R179). -/
def rngCodes (w : Nat) : Nat × Nat × Nat :=
  if w = 1 then (1, 0, 0)
  else if w ≤ 7 then (2 ^ w - 3, 2 ^ w - 2, 2 ^ w - 1)
  else (0xFA * 2 ^ (w - 8) + (2 ^ (w - 8) - 1), 0xFE * 2 ^ (w - 8) + (2 ^ (w - 8) - 1), 2 ^ w - 1)

/-! Sinks (R177-R184). -/

/-- A field write a hand-off or stale mark makes: layout, positions, raw value. -/
structure SinkWrite where
  lay : Nat
  pos : List Nat
  raw : Nat
  deriving DecidableEq, Repr

/-- The default value of a sink (R180, R181), before it is cut to the target width. -/
def sinkDefault (w1 w3 : Word) (twin sgn : Bool) : Nat :=
  let d := fld w3 17 0
  if twin then fld w1 17 0 * 2 ^ 18 + d
  else if sgn && bitOf w3 17 then (2 ^ 18 - 1) * 2 ^ 18 + d else d

/-- The exact result of a sink for a valid word (R177, R180). -/
def sinkValue (w0 w1 w2 : Word) (swidth : Nat) (ssgn : Bool) (val : Nat) : Int :=
  if 18 < swidth then (if ssgn then signed 36 val else (val : Int))
  else
    let x : Int := if ssgn then signed swidth val else ((val % 2 ^ swidth : Nat) : Int)
    (signed 18 (fld w1 17 0) * x + signed 20 (fld w2 19 0)) / ((2 ^ fld w0 28 24 : Nat) : Int)

/-- The target range of R178. -/
def sinkRange (w : Nat) (sgn ern : Bool) : Int × Int :=
  if sgn then (-((2 ^ (w - 1) : Nat) : Int), ((2 ^ (w - 1) : Nat) : Int) - 1)
  else (0, if ern then ((rngCodes w).1 : Int) else ((2 ^ w : Nat) : Int) - 1)

/-- VCOUNT of a layout changes by one (R191). -/
def State.vcountAdd (s : State) (l : Nat) (up : Bool) : State :=
  let x := s.pduSt l
  s.setPdu l { x with vcount := if up then x.vcount + 1 else x.vcount - 1 }

/-- A sink writes its slot (R182, R191): raw none under HOLD. -/
def State.sinkSlot (s : State) (i lay w : Nat) (sgn : Bool) (raw : Option Nat) (qual : Nat) : State :=
  let t := s.slotOf i
  let val := match raw with
    | none => t.val
    | some r => if sgn then unsigned 36 (signed w r) else r
  let s := s.setSig i ⟨val, qual, s.now, true, qual == 0, t.gen + 1⟩
  if qual = 0 ∧ !t.cntd then s.vcountAdd lay true
  else if qual ≠ 0 ∧ t.cntd then s.vcountAdd lay false
  else s

/-- What a sink writes for a source word: some raw value, none for an unchanged field; and whether it saturated. -/
def sinkOut (w0 w1 w2 w3 : Word) (swidth : Nat) (ssgn : Bool) (val qual : Nat) : Option Nat × Bool :=
  let w := fld w0 19 14
  let sgn := bitOf w0 21
  let ern := bitOf w0 22 && !sgn
  if qual = 0 then
    let y := sinkValue w0 w1 w2 swidth ssgn val
    let r := sinkRange w sgn ern
    let z := if y < r.1 then r.1 else if r.2 < y then r.2 else y
    (some (unsigned w z), z != y)
  else
    let q := fld w0 30 29
    let d := sinkDefault w1 w3 (decide (18 < swidth)) sgn % 2 ^ w
    let c := rngCodes w
    if q = 1 then (none, false)
    else if ern && decide (1 < w) && (q == 0 || (q == 3 && qual != 3)) then
      (some (if qual = 1 then c.2.1 else c.2.2), false)
    else (some d, false)

/-- One sink i of a source (R177-R183, R196): the state and the write it makes. -/
def State.sink (s : State) (i plan swidth : Nat) (ssgn : Bool) (val qual : Nat) : State × Option SinkWrite :=
  let w0 := s.sigw i 0
  let w1 := s.sigw i 1
  let w3 := s.sigw i 3
  let w := fld w0 19 14
  let sgn := bitOf w0 21
  let lay := fld w1 31 18
  let ern := bitOf w0 22 && !sgn
  if !s.sigOn i plan then (s, none)
  else if fld w3 30 29 ≠ 1 ∨ w = 0 ∨ 36 < w ∨ !s.pduOn lay plan ∨ !bitOf (s.pduw lay 1) 31
      ∨ (18 < swidth ∧ w < 19 ∧ ern) then (s.layErr 5 i, none)
  else match posInside (fieldPos (bitOf w0 20) w (fld w0 13 0)) (fld (s.pduw lay 1) 11 0) with
    | none => (s.layErr 6 i, none)
    | some ps =>
      let (raw, sat) := sinkOut w0 w1 (s.sigw i 2) w3 swidth ssgn val qual
      let s := if sat then ((s.bump Reg.PRV_SIG_SAT 1 5).wr Reg.PRV_SIG_LASTSAT (BitVec.ofNat 32 (2 ^ 31 + i))).ist Reg.pgPRV_SIG 1
        else s
      (s.sinkSlot i lay w sgn raw qual, raw.map (fun r => ⟨lay, ps, r⟩))

/-- The sinks from index i on, ascending (R183). -/
def State.sinks (s : State) (plan swidth : Nat) (ssgn : Bool) (val qual : Nat) : Nat → Nat → List SinkWrite →
    State × List SinkWrite
  | 0, _, acc => (s, acc)
  | k + 1, i, acc =>
    match s.sink i plan swidth ssgn val qual with
    | (s, none) => s.sinks plan swidth ssgn val qual k (i + 1) acc
    | (s, some w) => s.sinks plan swidth ssgn val qual k (i + 1) (acc ++ [w])

/-- A source's word goes to its sinks (R183, R196 cause 0x4). -/
def State.fanOut (s : State) (i plan : Nat) (acc : List SinkWrite) : State × List SinkWrite :=
  let w0 := s.sigw i 0
  let w1 := s.sigw i 1
  let want := fld w1 19 16
  let n := min (min want 8) (65536 - fld w1 15 0)
  let s := if n < want then s.layErr 4 i else s
  let x := s.slotOf i
  s.sinks plan (fld w0 19 14) (bitOf w0 21) x.val x.qual n (fld w1 15 0) acc

/-! Buffers and triggers (R184, R188-R194). -/

/-- Blocks of a layout's buffer. -/
def State.pduBlocks (s : State) (l : Nat) : Nat := (fld (s.pduw l 1) 11 0 + 63) / 64

/-- First byte of a layout's buffer in the data store. -/
def State.pduBase (s : State) (l : Nat) : Nat := fld (s.pduw l 5) 13 0 * 64

/-- Write one bit of the data store; positions beyond 1 MiB do not exist. -/
def State.pdataBit (s : State) (base p : Nat) (v : Bool) : State :=
  let a := base + p / 8
  if 2 ^ 20 ≤ a then s
  else { s with prv := { s.prv with
    pdata := memWr s.prv.pdata a (BitVec.ofNat 8 (nsetBit (memRd s.prv.pdata a).toNat (p % 8) v)) } }

/-- Write a raw value at positions. -/
def State.pdataField (s : State) (base : Nat) : List Nat → Nat → State
  | [], _ => s
  | p :: r, raw => (s.pdataBit base p (raw % 2 == 1)).pdataField base r (raw / 2)

/-- A transmit layout that fails R196 cause 0x7. -/
def State.pduBad (s : State) (l : Nat) : Bool :=
  let len := fld (s.pduw l 1) 11 0
  let fmt := fld (s.pduw l 0) 31 30
  fmt == 3 || (fmt == 0 && decide (8 < len)) || (fmt == 1 && !fdLen len) || (fmt == 2 && (len == 0 || decide (2048 < len)))
    || decide (16384 < fld (s.pduw l 5) 13 0 + s.pduBlocks l) || decide (6 ≤ fld (s.pduw l 4) 14 12)

/-- Trigger x comes after trigger y: a later instant, or the same and no lower layout (R193). -/
def trigAfter (x y : Nat × Nat × Bool) : Bool := decide (y.1 < x.1) || (y.1 == x.1 && decide (y.2.1 ≤ x.2.1))

/-- Place a trigger into the formation unit's queue (R193). -/
def placeTrig (x : Nat × Nat × Bool) : List (Nat × Nat × Bool) → List (Nat × Nat × Bool)
  | [] => [x]
  | y :: r => if trigAfter x y then y :: placeTrig x r else x :: y :: r

/-- A trigger of the instant t of local time enters the formation unit's queue. -/
def State.queueTrig (s : State) (t l : Nat) (event : Bool) : State :=
  { s with prv := { s.prv with trigQ := placeTrig (t, l, event) s.prv.trigQ } }

/-- A trigger of layout l of the instant at fires (R190, R193, R194): discarded while TXEN = 0, deferred or merged within MINIV, else
queued. A layout that fails cause 0x7 is judged at formation; a periodic instant of one whose PLAN bit is clear counts nowhere. -/
def State.trigger (s : State) (at_ l : Nat) (event : Bool) : State :=
  if !event && !s.pduOn l (s.rf Reg.CHIP_PLAN 1 0) then s
  else if !s.rb Reg.PRV_PDU_CTL 0 then (if s.pduBad l then s.layErr 7 l else s.pduCount l 2)
  else if s.pduBad l then s.queueTrig at_ l event
  else
    let x := s.pduSt l
    match x.defer with
    | some (due, ev) => (s.setPdu l { x with defer := some (due, ev || event) }).pduCount l 1
    | none =>
      let min := fld (s.pduw l 4) 31 16 * 100000
      match x.last with
      | none => s.queueTrig at_ l event
      | some t =>
        if s.now < t + min then (s.setPdu l { x with defer := some (t + min, event) }).pduCount l 1
        else s.queueTrig at_ l event

/-- The event trigger of a layout whose field was written (R188). -/
def State.eventTrigger (s : State) (l : Nat) (changed : Bool) : State :=
  let t := fld (s.pduw l 4) 14 12
  if t = 3 ∨ t = 5 ∨ 6 ≤ t ∨ ((t = 2 ∨ t = 4) ∧ changed) then s.trigger s.now l true else s

/-- Apply the writes of one layout as one change and fire its trigger (R184, R188). -/
def State.applyLayout (s : State) (l : Nat) (ws : List SinkWrite) : State :=
  let old := s.prv.pdata
  let s := ws.foldl (fun t w => t.pdataField (t.pduBase l) w.pos w.raw) s
  s.eventTrigger l (s.prv.pdata != old)

/-- Apply all writes, layout by layout in order of first write. -/
def State.applyWrites (s : State) : Nat → List SinkWrite → State
  | 0, _ => s
  | _, [] => s
  | k + 1, w :: r =>
    (s.applyLayout w.lay ((w :: r).filter (fun x => x.lay == w.lay))).applyWrites k (r.filter (fun x => x.lay != w.lay))

/-! Hand-offs (R174-R176). -/

/-- One source of a hand-off (R174, R175, R196 cause 0x3). -/
def State.source (s : State) (i plan : Nat) (j : Job) (acc : List SinkWrite) : State × List SinkWrite :=
  let w0 := s.sigw i 0
  let w := fld w0 19 14
  if !s.sigOn i plan then (s, acc)
  else if fld (s.sigw i 3) 30 29 ≠ 0 ∨ w = 0 ∨ 36 < w then (s.layErr 3 i, acc)
  else match posInside (fieldPos (bitOf w0 20) w (fld w0 13 0)) j.frame.data.length with
    | none => ((s.bump Reg.PRV_SIG_SHORT 1 5).ist Reg.pgPRV_SIG 3, acc)
    | some ps =>
      let raw := rawField j.frame.data ps
      let sgn := bitOf w0 21
      let q := if bitOf w0 22 && !sgn then rngQual w raw (bitOf w0 23) else 0
      let x := s.slotOf i
      let s := s.setSig i { x with
        val := if sgn then unsigned 36 (signed w raw) else raw, qual := q, upAt := j.valid, upd := true, gen := x.gen + 1 }
      (s.bump Reg.PRV_SIG_EXTR 1 5).fanOut i plan acc

/-- The sources from index i on, ascending. -/
def State.sources (s : State) (plan : Nat) (j : Job) : Nat → Nat → List SinkWrite → State × List SinkWrite
  | 0, _, acc => (s, acc)
  | k + 1, i, acc =>
    let (s, acc) := s.source i plan j acc
    s.sources plan j k (i + 1) acc

/-- A hand-off (R174, R184, R196, R197 EN). -/
def State.sigJob (s : State) (h : Handoff) : State :=
  if !bitOf (s.cfg h.epoch Reg.PRV_SIG_CTL) 0 then (s.bump Reg.PRV_SIG_DISC 1 5).ist Reg.pgPRV_SIG 4
  else
    let plan := s.cf h.epoch Reg.CHIP_PLAN 1 0
    let w6 := s.pduw h.ix 6
    if !s.pduOn h.ix plan || bitOf (s.pduw h.ix 1) 31 then s.layErr 1 h.ix
    else
      let want := fld w6 21 16
      let n := min (min want 32) (65536 - fld w6 15 0)
      let s := if n < want then s.layErr 2 h.ix else s
      let (s, ws) := s.sources plan h.job n (fld w6 15 0) []
      s.applyWrites ws.length ws

/-- A stale mark goes to its source's sinks unless an update replaced it (R187). -/
def State.sigMark (s : State) (i gen : Nat) : State :=
  if (s.slotOf i).gen = gen ∧ bitOf (s.sigw i 3) 31 ∧ fld (s.sigw i 3) 30 29 = 0 then
    let (s, ws) := s.fanOut i (s.rf Reg.CHIP_PLAN 1 0) []
    s.applyWrites ws.length ws
  else s

/-- Items ahead of every hand-off of other sources: controller hand-offs and stale marks (R187, R195). -/
def SigItem.first : SigItem → Bool
  | .job h => decide (h.job.src < 24)
  | .mark _ _ => true

/-- The engine's next item. -/
def sigNext (q : List SigItem) : Option SigItem :=
  match q.find? SigItem.first with
  | some x => some x
  | none => q.head?

/-- SIGNAL_HANDOFF (R174): the engine's next item, where it is a hand-off. -/
def execSignalHandoff (s : State) : Host.Outcome State Fault Refusal :=
  match sigNext s.prv.sigQ with
  | some (.job h) => .next ({ s with prv := { s.prv with sigQ := s.prv.sigQ.erase (.job h) } }.sigJob h)
  | _ => .next s

/-- STALE_MARK_PASS (R187): the engine's next item, where it is a stale mark. -/
def execStaleMarkPass (s : State) : Host.Outcome State Fault Refusal :=
  match sigNext s.prv.sigQ with
  | some (.mark i g) => .next ({ s with prv := { s.prv with sigQ := s.prv.sigQ.erase (.mark i g) } }.sigMark i g)
  | _ => .next s

/-- A source is to be marked stale (R185, R186). -/
def State.staleDue (s : State) (i : Nat) : Bool :=
  let w2 := s.sigw i 2
  let lim := fld w2 15 0 * (if bitOf w2 16 then 10000000 else 100000)
  let x := s.slotOf i
  s.rb Reg.PRV_SIG_CTL 1 && s.sigOn i (s.rf Reg.CHIP_PLAN 1 0) && fld (s.sigw i 3) 30 29 == 0 && lim != 0 && x.qual != 3
    && decide (x.upAt + lim + 2000 < s.now)

/-- STALE_MARK (R186). -/
def execStaleMark (src : Fin 65536) (s : State) : Host.Outcome State Fault Refusal :=
  if s.staleDue src then
    let x := s.slotOf src
    let s := s.setSig src { x with qual := 3, gen := x.gen + 1 }
    let s := ((s.bump Reg.PRV_SIG_STALE 1 5).wr Reg.PRV_SIG_LASTSTALE (BitVec.ofNat 32 (2 ^ 31 + src))).ist Reg.pgPRV_SIG 0
    .next { s with prv := { s.prv with sigQ := s.prv.sigQ ++ [.mark src (x.gen + 1)] } }
  else .next s

/-! Schedule, deferral and formation (R189-R193). -/

/-- PERIODIC_SCHEDULE_INSTANT (R189): once for each instant that full time reaches in its advance; a step skips instants and lets them
recur (R319). -/
def execPeriodicScheduleInstant (layout : Fin 16384) (s : State) : Host.Outcome State Fault Refusal :=
  let l : Nat := layout
  let per := fld (s.pduw l 3) 15 0
  let t := fld (s.pduw l 4) 14 12
  let tick := s.tsy.full / 100000
  let key := (tick, s.rf Reg.TSY_STAT 15 8)
  let x := s.pduSt l
  if bitOf (s.pduw l 15) 31 && bitOf (s.pduw l 1) 31 && (t == 1 || t == 4 || t == 5) && per != 0
      && tick % per == fld (s.pduw l 5) 31 16 % per && x.tick != some key
      && decide (s.tsy.stepTo ≤ tick * 100000) then
    .next ((s.setPdu l { x with tick := some key }).trigger (s.now - s.tsy.full % 100000) l false)
  else .next s

/-- MINIV_DEFERRED_SEND (R190). -/
def execMinivDeferredSend (layout : Fin 16384) (s : State) : Host.Outcome State Fault Refusal :=
  let x := s.pduSt layout
  match x.defer with
  | none => .next s
  | some (due, ev) => if due ≤ s.now then .next ((s.setPdu layout { x with defer := none }).queueTrig due layout ev) else .next s

/-- The frame of a layout (R173, R192). -/
def State.pduFrame (s : State) (l : Nat) : CanFrame :=
  let w0 := s.pduw l 0
  let len := fld (s.pduw l 1) 11 0
  let data := memRdN s.prv.pdata (s.pduBase l) len
  let fmt := if fld w0 31 30 = 0 then CanFmt.cc else if fld w0 31 30 = 1 then CanFmt.fd else CanFmt.xl
  let xl := fmt == .xl
  let ide := bitOf w0 29 && !xl
  { fmt := fmt, ide := ide, ident := if ide then fld w0 28 0 else fld w0 28 18 * 2 ^ 18, rtr := false,
    brs := fmt == .fd && bitOf (s.pduw l 1) 30, esi := false, dlc := if xl then 0 else dlcOf len, rrs := false, sec := false,
    sdt := if xl then fld (s.pduw l 7) 31 24 else 0, vcid := if xl then fld (s.pduw l 7) 23 16 else 0,
    af := if xl then (s.pduw l 8).toNat else 0, data := data }

/-- The copies of a layout's frame to controllers, judged (R143, R548). -/
def State.pduCopies (s : State) (l id : Nat) (f : CanFrame) : List Nat → List Copy → State × List Copy
  | [], acc => (s, acc)
  | n :: rest, acc =>
    let dl := s.deadlineOf s.epoch s.now (fld (s.pduw l 3) 31 16)
    let c := { s.mkFormed n (fld (s.pduw l 1) 22 21) f (.layout l) dl true with src := 0x1000 + l, job := id }
    match s.judge c n true with
    | some k => (s.dropCount n c k).pduCopies l id f rest acc
    | none => (s.demand n).pduCopies l id f rest (acc ++ [c])

/-- Form the frame of layout l and send it as frame-route copies (R192). -/
def State.pduForm (s : State) (l : Nat) : State :=
  let f := s.pduFrame l
  let id := s.prv.nextJob
  let s := (s.setPdu l { s.pduSt l with last := some s.now }).pduCount l 0
  let (s, cs) := s.pduCopies l id f (setBits (fld (s.pduw l 2) 23 0) 24) []
  let w1 := s.pduw l 1
  let cs := if bitOf w1 29 then
      cs ++ [{ s.mkFormed 0 (fld w1 22 21) f (.layout l) (s.deadlineOf s.epoch s.now (fld (s.pduw l 3) 31 16)) false with
        eg := .host (fld w1 28 23), src := 0x1000 + l, job := id, sec := .none }]
    else cs
  let s := { s with prv := { s.prv with nextJob := id + 1 } }
  if cs.isEmpty then s
  else
    let j : Job := ⟨0x1000 + l, false, f, 0, s.tsy.full, s.now, s.tsy.full, none, none⟩
    { s with prv := { s.prv with
      slots := amPut s.prv.slots id ⟨j, s.epoch, .routed, cs, false, true⟩
      cells := amPut s.prv.cells id ⟨cellsOf f.data.length, false, cs.length⟩ } }

/-- PDU_FRAME_FORMATION (R193): the oldest trigger. -/
def execPduFrameFormation (s : State) : Host.Outcome State Fault Refusal :=
  match s.prv.trigQ with
  | [] => .next s
  | (_, l, ev) :: rest =>
    let s := { s with prv := { s.prv with trigQ := rest } }
    if !s.pduOn l (s.rf Reg.CHIP_PLAN 1 0) || !bitOf (s.pduw l 1) 31 then .next s
    else if s.pduBad l then .next (s.layErr 7 l)
    else if !ev && bitOf (s.pduw l 4) 15 && (s.pduSt l).vcount == 0 then .next (s.pduCount l 2)
    else .next (s.pduForm l)

/-! Writes of VALID words and registers (R169, R188, R191, R197, R198). -/

/-- The value store after a write of descriptor i's VALID word: o1, o3 are its words 1 and 3 before (R169, R191). A sink that ends with
CNTD = 1 leaves CNTD 0, so that VCOUNT stays the number of sinks with CNTD = 1 (DESIGN CHOICE, log entry 74). -/
def State.sigValid (s : State) (i : Nat) (o1 o3 : Word) : State :=
  let was := bitOf o3 31
  let is := bitOf (s.sigw i 3) 31
  let x := s.slotOf i
  if was && !is && fld o3 30 29 == 1 && x.cntd then
    (s.setSig i { x with cntd := false }).vcountAdd (fld o1 31 18) false
  else if !was && is then s.setSig i ⟨0, 2, s.now, false, false, x.gen + 1⟩
  else s

/-- Fill k bytes of the data store from a with byte b. -/
def State.pdataFill (s : State) (a : Nat) (b : Byte) (k : Nat) : State :=
  { s with prv := { s.prv with pdata := memWrN s.prv.pdata a (List.replicate k b) } }

/-- A layout after a write of its VALID word: filled with FILL and VCOUNT 0 when it became valid (R188, R191). -/
def State.pduValid (s : State) (l : Nat) (o15 : Word) : State :=
  if !bitOf o15 31 && bitOf (s.pduw l 15) 31 then
    let s := s.setPdu l { s.pduSt l with vcount := 0 }
    if bitOf (s.pduw l 1) 31 then
      s.pdataFill (s.pduBase l) (BitVec.ofNat 8 (fld (s.pduw l 2) 31 24)) (min (64 * s.pduBlocks l) (2 ^ 20 - s.pduBase l))
    else s
  else s

/-- A write of PRV_SIG_RIDX latches slot INDEX (R197). Of a signal of 18 bits or fewer the high word shows the bits above, sign- or
zero-extended, and the qualifier, as that of twin words does (DESIGN CHOICE, log entry 74). -/
def ridxWrite (v : Word) (s : State) : State :=
  let x := s.slotOf (fld v 15 0)
  let s := s.wr Reg.PRV_SIG_RLO (BitVec.ofNat 32 (x.upd.toNat * 2 ^ 31 + x.cntd.toNat * 2 ^ 30 + x.qual * 2 ^ 18 + x.val % 2 ^ 18))
  let s := s.wr Reg.PRV_SIG_RHI (BitVec.ofNat 32 (x.qual * 2 ^ 18 + x.val / 2 ^ 18 % 2 ^ 18))
  s.wr Reg.PRV_SIG_RAGE (BitVec.ofNat 32 (capAt 0xFFFFFFFF ((s.now - x.upAt) / 1000)))

/-- SIGNAL_SLOT_LATCH (R197). -/
def execSignalSlotLatch (init : Initiator) (v : Word) (s : State) : Host.Outcome State Fault Refusal :=
  .next (s.cmdWrite init Reg.PRV_SIG_RIDX v (ridxWrite v))

/-- A write of PRV_PDU_CIDX latches the counters and VCOUNT of layout INDEX (R198). -/
def pduCidxWrite (v : Word) (s : State) : State :=
  let l := fld v 13 0
  let g := fun k => BitVec.ofNat 32 (amGetD 0 s.prv.pcnt (4 * l + k))
  let s := ((s.wr Reg.PRV_PDU_CSENT (g 0)).wr Reg.PRV_PDU_CINHIB (g 1)).wr Reg.PRV_PDU_CSUPP (g 2)
  (s.wr Reg.PRV_PDU_CDLDROP (g 3)).wr Reg.PRV_PDU_VSTAT (BitVec.ofNat 32 (s.pduSt l).vcount)

/-- PDU_COUNTER_LATCH (R198). -/
def execPduCounterLatch (init : Initiator) (v : Word) (s : State) : Host.Outcome State Fault Refusal :=
  .next (s.cmdWrite init Reg.PRV_PDU_CIDX v (pduCidxWrite v))

/-- A write of PRV_PDU_CCLR (R198). -/
def pduCclrWrite (v : Word) (s : State) : State :=
  if bitOf v 31 then { s with prv := { s.prv with pcnt := [] } }
  else { s with prv := { s.prv with pcnt := amDelRange s.prv.pcnt (4 * fld v 13 0) (4 * fld v 13 0 + 4) } }

/-- PDU_COUNTER_CLEAR (R198). -/
def execPduCounterClear (init : Initiator) (v : Word) (s : State) : Host.Outcome State Fault Refusal :=
  .next (s.cmdWrite init Reg.PRV_PDU_CCLR v (pduCclrWrite v))

end Sys2Proof.Machine
end

