-- ==== Sys2Proof/Machine/Isobus.lean ====
section
/-! DEFINITION. The claim ledger (07_isobus_services.md R199-R213): learning from claims, misbehaving claimants, the claims
the device makes, flushes, and claim windows. -/
namespace Sys2Proof.Machine

/-- Set the ledger's record. -/
def State.setClm (s : State) (c : Ledger) : State := { s with clm := c }

/-- LTIME now (R199). -/
def State.ltime (s : State) : Nat := s.tsy.full / 1000000 % 2 ^ 24

/-- CLM_LAST (event 0 FULL, 1 CONTEND, 2 ROGUE, 3 PXLOST). -/
def State.clmLast (s : State) (ev g i : Nat) : State :=
  s.wr Reg.CLM_LAST (BitVec.ofNat 32 (2 ^ 31 + ev * 2 ^ 29 + g * 2 ^ 24 + i))

/-- Set STATE of entry i, and LTIME with the change. -/
def State.clmSetState (s : State) (i st : Nat) : State :=
  let s := s.setTw (clmA i 2) (setFld (s.tw (clmA i 2)) 19 17 st)
  s.setTw (clmA i 3) (setFld (s.tw (clmA i 3)) 23 0 s.ltime)

/-- The entry is PROXY or LOCAL: the H8840's own. -/
def State.clmOwn (s : State) (i : Nat) : Bool := s.clmType i == 1 || s.clmType i == 2

/-- The claim of entry i that is under way ends; a cannot-claim in its delay stays to be sent (R208). -/
def State.clmCancel (s : State) (i : Nat) : State :=
  s.setClm { s.clm with wait := amDel s.clm.wait i, retry := amDel s.clm.retry i, claim := amDel s.clm.claim i }

/-- Own entry i is not claimed: it was displaced with the NAME and SA it holds (R208). -/
def State.clmSilent (s : State) (i : Nat) : Bool := amGet s.clm.lost i == some (s.clmName i, s.clmSa i)

/-- The ledger forms frames: EN = 1, and the unit is not in STANDBY (R207, R512). -/
def State.clmForms (s : State) : Bool := s.rb Reg.CLM_CTL 0 && !s.standby

/-- Form a ledger frame on segment g (R207); false where it was dropped at its formation. -/
def State.clmSend (s : State) (g ident : Nat) (data : List Byte) (o : Origin) : State × Bool :=
  if s.clmForms ∧ g ≤ 23 then
    s.formCopy g (s.rf Reg.CLM_CTL 5 4) (ccFrame ident data) o (s.deadlineOf s.epoch s.now 0) false
  else (s, true)

/-- Send an Address Claimed of entry i that answers or defends (R209, R210). -/
def State.clmAnswerClaim (s : State) (i : Nat) : State :=
  (s.clmSend (s.clmSeg i) (0x18EEFF00 + s.clmSa i) (leBytes 8 (s.clmName i)) (.ledger i none)).1

/-- Send the cannot-claim of entry i (R208, R210). -/
def State.clmCannot (s : State) (i : Nat) : State :=
  (s.clmSend (s.clmSeg i) 0x18EEFFFE (leBytes 8 (s.clmName i)) (.ledger i none)).1

/-- Form the Address Claimed that claims entry i's address; a drop at formation is tried again 250 ms later (R207). -/
def State.clmClaimFrame (s : State) (i : Nat) : State :=
  let n := (amGet s.clm.claim i).getD 0
  let (s, ok) := s.clmSend (s.clmSeg i) (0x18EEFF00 + s.clmSa i) (leBytes 8 (s.clmName i)) (.ledger i (some n))
  if ok then s else s.setClm { s.clm with retry := amPut s.clm.retry i (s.now + 250000000) }

/-- Start a claim of entry i (R207). -/
def State.clmStart (s : State) (i : Nat) : State :=
  if s.clmForms then
    let s := (s.clmCancel i).clmSetState i 3
    (s.setClm { s.clm with
      claim := amPut s.clm.claim i s.clm.nextClaim, nextClaim := s.clm.nextClaim + 1, lost := amDel s.clm.lost i }).clmClaimFrame i
  else s

/-- A Request for Address Claim from the null address on segment g (R210): a frame of the ledger (R213), of no entry. -/
def State.clmRequest (s : State) (g : Nat) : State := (s.clmSend g 0x18EAFFFE [0x00, 0xEE, 0x00] (.ledger 2048 none)).1

/-- A holder becomes DISPLACED; one of the H8840's own sends its cannot-claim after a free delay of at most 153 ms
(R205, R208). -/
def State.clmDisplace (s : State) (i : Nat) : State :=
  let s := (s.clmCancel i).clmSetState i 2
  if s.clmOwn i then
    let (w, s) := s.draw
    s.setClm { s.clm with
      cannot := amPut s.clm.cannot i (s.now + w.toNat % 153001 * 1000), lost := amPut s.clm.lost i (s.clmName i, s.clmSa i) }
  else s

/-- A holder defends its address, at most once in 10 ms (R209). -/
def State.clmDefend (s : State) (i : Nat) : State :=
  let recent := match amGet s.clm.defence i with
    | none => false
    | some t => decide (s.now < t + 10000000)
  if recent then s else (s.setClm { s.clm with defence := amPut s.clm.defence i s.now }).clmAnswerClaim i

/-- Entries valid in the ledger. -/
def State.clmUsed (s : State) : Nat := (s.clmListed.filter s.clmValid).length

/-- PEAK follows USED. -/
def State.clmPeak (s : State) : State := s.wf Reg.CLM_OCC 27 16 (max (s.rf Reg.CLM_OCC 27 16) s.clmUsed)

/-- Create a NATIVE entry for a NAME on segment g at the lowest free index from LBASE on (R203). -/
def State.clmCreate (s : State) (e g name : Nat) : State × Option Nat :=
  let lb := s.cf e Reg.CLM_CTL 31 21
  match (List.range (2048 - lb)).find? (fun k => !s.clmValid (lb + k)) with
  | some k =>
    let i := lb + k
    let s := (s.setTw (clmA i 0) (BitVec.ofNat 32 name)).setTw (clmA i 1) (BitVec.ofNat 32 (name / 2 ^ 32))
    let s := (s.setTw (clmA i 2) (BitVec.ofNat 32 (g * 2 ^ 20))).setTw (clmA i 3) (BitVec.ofNat 32 (2 ^ 31))
    (s.clmPeak, some i)
  | none => (((s.bump Reg.CLM_FULL 1 7).ist Reg.pgCLM 0).clmLast 0 g 0, none)

/-- Set E under a row of R205: STATE, SA, NCLAIM, LTIME. -/
def State.clmSetE (s : State) (i st x : Nat) : State :=
  let w := s.tw (clmA i 2)
  let s := s.setTw (clmA i 2) (setFld (setFld w 15 8 x) 7 0 (capAt 255 (fld w 7 0 + 1)))
  s.clmSetState i st

/-- The rows of R205 for E (where it exists), with the holders hs of x: state, whether claims met. -/
def State.clmRows (s : State) (e : Option Nat) (hs : List Nat) (name x : Nat) : State :=
  let setE := fun (t : State) (st sa : Nat) => match e with
    | some i => t.clmSetE i st sa
    | none => t
  if x = 0xFE then setE s 1 0xFE
  else if hs.all (fun h => decide (name < s.clmName h)) then setE (hs.foldl State.clmDisplace s) 0 x
  else
    setE ((hs.filter (fun h => s.clmOwn h && decide (s.clmName h < name))).foldl State.clmDefend s) 2 x

/-- Claims of a NAME on segment g in this second of full time, this one included, and the state that counts it (R206). -/
def State.clmStorm (s : State) (g name : Nat) : State × Nat :=
  let k := name * 32 + g
  let sec := s.tsy.full / 1000000000
  let c := amGetD (sec, 0) s.clm.storm k
  let n := if c.1 = sec then c.2 + 1 else 1
  (s.setClm { s.clm with storm := amPut s.clm.storm k (sec, n) }, n)

/-- An event of R206 for entry e. -/
def State.clmRogueEvent (s : State) (e : Option Nat) (g : Nat) : State :=
  let s := match e with
    | some i => s.setTw (clmA i 3) (setBit (s.tw (clmA i 3)) 30 true)
    | none => s
  ((s.bump Reg.CLM_ROGUE 1 7).ist Reg.pgCLM 2).clmLast 2 g (e.getD 0)

/-- An Address Claimed with NAME and SA x on segment g, from a job of epoch ep (R205, R206, R512). -/
def State.clmLearn (s : State) (ep g name x : Nat) : State :=
  let e := s.clmFind g name
  let own : Bool := match e with | some i => s.clmOwn i | none => false
  let hs := if x = 0xFE then [] else
    (s.clmOn g).filter (fun i => s.clmHolds i && s.clmSa i == x && some i != e && !s.clmShadowed i)
  let again : Bool := match e with
    | some i => !own && s.clmState i == 2 && s.clmSa i == x && hs.any (fun h => decide (s.clmName h < name))
    | none => false
  if own ∧ s.standby then
    match e with
    | some i =>
      let s := s.setTw (clmA i 2) (setFld (s.tw (clmA i 2)) 15 8 x)
      s.clmSetState i (if x = 0xFE then 1 else 0)
    | none => s
  else
    let (s, n) := s.clmStorm g name
    let lim := s.cf ep Reg.CLM_CTL 15 8
    let rogue := own || again || (lim != 0 && n == lim + 1)
    if own then (if rogue then s.clmRogueEvent e g else s)
    else
      let (s, e) := match e with
        | some i => (s, some i)
        | none => s.clmCreate ep g name
      let s := (s.bump Reg.CLM_LEARNED 1 7).clmRows e hs name x
      let s := if hs.isEmpty then s else ((s.bump Reg.CLM_CONTEND 1 7).ist Reg.pgCLM 1).clmLast 1 g (e.getD 0)
      if rogue then s.clmRogueEvent e g else s

/-- ADDRESS_CLAIMED (R204, R205): the oldest job handed to the ledger, where it is an Address Claimed. -/
def execAddressClaimed (s : State) : Host.Outcome State Fault Refusal :=
  match s.prv.clmQ with
  | [] => .next s
  | h :: rest =>
    let f := h.job.frame
    if nfld f.ident 23 16 ≠ 0xEE then .next s
    else
      let s := { s with prv := { s.prv with clmQ := rest } }
      let x := nfld f.ident 7 0
      if f.data.length ≠ 8 ∨ x = 0xFF then .next ((s.bump Reg.CLM_BADCLM 1 7).ist Reg.pgCLM 4).routeWaiting
      else
        let name := leNat f.data
        let own : Bool := match s.clmFind h.job.src name with | some i => s.clmOwn i | none => false
        if h.job.self && own then .next s.routeWaiting else .next (s.clmLearn h.epoch h.job.src name x).routeWaiting

/-- Answers to a request to address da on segment g, in ascending index order (R210). -/
def State.clmAnswers (s : State) (g da : Nat) : State :=
  ((s.clmOn g).filter (fun i => s.clmOwn i && !s.clmShadowed i)).foldl
    (fun t i => if t.clmHolds i then (if da = 0xFF ∨ t.clmSa i = da then t.clmAnswerClaim i else t)
      else if da = 0xFF then t.clmCannot i else t) s

/-- REQUEST_FOR_ADDRESS_CLAIM (R210): the oldest job handed to the ledger, where it is such a request. -/
def execRequestForAddressClaim (s : State) : Host.Outcome State Fault Refusal :=
  match s.prv.clmQ with
  | [] => .next s
  | h :: rest =>
    if nfld h.job.frame.ident 23 16 = 0xEE then .next s
    else
      let s := { s with prv := { s.prv with clmQ := rest } }
      if bitOf (s.cfg h.epoch Reg.CLM_CTL) 2 then .next (s.clmAnswers h.job.src (nfld h.job.frame.ident 15 8)).routeWaiting
      else .next s.routeWaiting

/-- Entry i has a claim under way. -/
def State.clmPending (s : State) (i : Nat) : Bool := s.clmUse i && s.clmOwn i && !s.clmShadowed i && s.clmState i == 3

/-- CLAIM_FRAME_SENT (R207): the oldest report of a sent claim starts its entry's wait, where the entry has not been claimed anew since. -/
def execClaimFrameSent (s : State) : Host.Outcome State Fault Refusal :=
  match s.prv.reports with
  | [] => .next s
  | (i, n) :: rest =>
    let s := { s with prv := { s.prv with reports := rest } }
    if s.clmPending i && amGet s.clm.claim i == some n then .next (s.setClm { s.clm with wait := amPut s.clm.wait i (s.now + 250000000) }) else .next s

/-- The local instant t of a timer map at key k has come. -/
def timerDue (m : List (Nat × Nat)) (k now : Nat) : Bool :=
  match amGet m k with
  | none => false
  | some t => decide (t ≤ now)

/-- CLAIM_WAIT_EXPIRY (R207). -/
def execClaimWaitExpiry (e : Fin 2048) (s : State) : Host.Outcome State Fault Refusal :=
  if timerDue s.clm.wait e s.now then
    let s := s.setClm { s.clm with wait := amDel s.clm.wait e }
    if s.clmPending e then .next (s.clmSetState e 0) else .next s
  else .next s

/-- CLAIM_RETRY (R207). -/
def execClaimRetry (e : Fin 2048) (s : State) : Host.Outcome State Fault Refusal :=
  if timerDue s.clm.retry e s.now then
    let s := s.setClm { s.clm with retry := amDel s.clm.retry e }
    if s.clmPending e then .next (s.clmClaimFrame e) else .next s
  else .next s

/-- CANNOT_CLAIM_SEND (R208). -/
def execCannotClaimSend (e : Fin 2048) (s : State) : Host.Outcome State Fault Refusal :=
  if timerDue s.clm.cannot e s.now then
    let s := (s.setClm { s.clm with cannot := amDel s.clm.cannot e }).clmCannot e
    .next (((s.bump Reg.CLM_PXLOST 1 7).ist Reg.pgCLM 3).clmLast 3 (s.clmSeg e) e)
  else .next s

/-- The effect of a write of CLM_REQ (R210). -/
def clmReqWrite (v : Word) (s : State) : State := if bitOf v 31 ∧ fld v 4 0 ≤ 23 then s.clmRequest (fld v 4 0) else s

/-- CLM_REQ (R210). -/
def execClmReq (init : Initiator) (v : Word) (s : State) : Host.Outcome State Fault Refusal :=
  .next (s.cmdWrite init Reg.CLM_REQ v (clmReqWrite v))

/-- Clear VALID in every NATIVE entry of segment g (R211). -/
def State.clmFlushSeg (s : State) (g : Nat) : State :=
  (s.clmListed.filter (fun i => s.clmValid i && s.clmType i == 0 && s.clmSeg i == g)).foldl
    (fun t i => (t.clmCancel i).setTw (clmA i 3) (setBit (t.tw (clmA i 3)) 31 false)) s

/-- The effect of a write of CLM_FLUSH (R211). -/
def clmFlushWrite (v : Word) (s : State) : State := if bitOf v 31 ∧ fld v 4 0 ≤ 23 then s.clmFlushSeg (fld v 4 0) else s

/-- LEDGER_FLUSH (R211). -/
def execLedgerFlush (init : Initiator) (v : Word) (s : State) : Host.Outcome State Fault Refusal :=
  .next (s.cmdWrite init Reg.CLM_FLUSH v (clmFlushWrite v))

/-- Open the claim window of segment n (R212, R213). A DISPLACED entry is not claimed again: R208 keeps it silent until host
software writes a new SA (log entry 15). -/
def State.clmOpen (s : State) (n : Nat) : State :=
  let s := if s.rb (Reg.CLM_ISO n) 8 then s.clmFlushSeg n else s
  let s := ((s.clmOn n).filter (fun i => s.clmOwn i && !s.clmShadowed i && s.clmState i != 2 && !s.clmSilent i)).foldl State.clmStart s
  let s := s.clmRequest n
  let win := s.rf (Reg.CLM_ISO n) 7 0
  if win = 0 then (s.setClm { s.clm with win := amDel s.clm.win n }).wb Reg.CLM_ISOSTAT n false
  else (s.setClm { s.clm with win := amPut s.clm.win n (s.now + win * 10000000) }).wb Reg.CLM_ISOSTAT n true

/-- The effect of a write of CLM_ISOSTART (R212): the segments of its set bits, ascending. -/
def isoStartWrite (v : Word) (s : State) : State := (setBits (fld v 23 0) 24).foldl State.clmOpen s

/-- CLAIM_WINDOW_OPEN (R212): a controller's first error-active state since it left DISABLED, or a write of CLM_ISOSTART. -/
def execClaimWindowOpen (n : Fin 24) (start : Option (Initiator × Word)) (s : State) : Host.Outcome State Fault Refusal :=
  match start with
  | some (init, v) => .next (s.cmdWrite init Reg.CLM_ISOSTART v (isoStartWrite v))
  | none =>
    let c := s.canOf n
    if c.openDue then .next ((s.setCan n { c with openDue := false }).clmOpen n) else .next s

/-- CLAIM_WINDOW_END (R212). -/
def execClaimWindowEnd (n : Fin 24) (s : State) : Host.Outcome State Fault Refusal :=
  if timerDue s.clm.win n s.now then
    .next ((s.setClm { s.clm with win := amDel s.clm.win n }).wb Reg.CLM_ISOSTAT n false)
  else .next s

/-- A write of entry i's VALID word (R207): a PROXY or LOCAL entry left in use starts a claim, unless one of a lower index with its NAME
and SEG stands for it (R200), or it was displaced and no new SA was written (R208). -/
def State.clmWritten (s : State) (i : Nat) : State :=
  let s := s.clmPeak
  if s.clmUse i && s.clmOwn i then (if s.clmShadowed i || s.clmSilent i then s else s.clmStart i)
  else
    let s := s.clmCancel i
    s.setClm { s.clm with cannot := amDel s.clm.cannot i, lost := amDel s.clm.lost i }

end Sys2Proof.Machine
end

