-- ==== Sys2Proof/Machine/Aes.lean ====
section
/-! DEFINITION. AES-256 (FIPS 197), GCM (NIST SP 800-38D), CMAC (SP 800-38B) and the counter-mode KDF of SP 800-108 that
12_crypto_engine.md R335 and 13_key_store_tamper.md R371 name. The algorithms are PRESUMED from those standards (log entry
16). -/
namespace Sys2Proof.Machine

/-- Rows of the AES substitution table, byte j of row k in bits [8j+7:8j]. -/
def sboxRows : List Nat := [
   0x76abd7fe2b670130c56f6bf27b777c63, 0xc072a49cafa2d4adf04759fa7dc982ca,
   0x1531d871f1e5a534ccf73f362693fdb7, 0x75b227ebe28012079a059618c323c704,
   0x842fe329b3d63b52a05a6e1b1a2c8309, 0xcf584c4a39becb6a5bb1fc20ed00d153,
   0xa89f3c507f02f94585334d43fbaaefd0, 0xd2f3ff1021dab6bcf5389d928f40a351,
   0x73195d643d7ea7c41744975fec130ccd, 0xdb0b5ede14b8ee4688902a22dc4f8160,
   0x79e4959162acd3c25c2406490a3a32e0, 0x08ae7a65eaf4566ca94ed58d6d37c8e7,
   0x8a8bbd4b1f74dde8c6b4a61c2e2578ba, 0x9e1dc186b95735610ef6034866b53e70,
   0xdf2855cee9871e9b948ed9691198f8e1, 0x16bb54b00f2d99416842e6bf0d89a18c]

/-- The AES substitution of a byte. -/
def sbox (b : Nat) : Nat := ((match sboxRows[b / 16]? with | some r => r | none => 0) >>> (8 * (b % 16))) % 256

/-- Multiplication by x in GF(2^8). -/
def xtime (b : Nat) : Nat := (if 128 ≤ b then (2 * b) ^^^ 0x11B else 2 * b)

/-- Byte-wise exclusive or of two lists of byte values. -/
def xorL (a b : List Nat) : List Nat := List.zipWith (· ^^^ ·) a b

/-- Element i of a list of numbers, 0 beyond its end. -/
def natAt (l : List Nat) (i : Nat) : Nat := match l[i]? with | some x => x | none => 0

/-- Round constant of expansion step i. -/
def rcon (i : Nat) : Nat := 2 ^ (i - 1)

/-- The key schedule: words newest first, from i words on, n more words. -/
def expandKey : Nat → Nat → List (List Nat) → List (List Nat)
  | 0, _, ws => ws
  | n + 1, i, ws =>
    let t := match ws with | w :: _ => w | [] => []
    let p := match ws[7]? with | some w => w | none => []
    let t := if i % 8 = 0 then
        xorL ([natAt t 1, natAt t 2, natAt t 3, natAt t 0].map sbox) [rcon (i / 8), 0, 0, 0]
      else if i % 8 = 4 then t.map sbox
      else t
    expandKey n (i + 1) (xorL p t :: ws)

/-- Cut a list into words of 4, newest first on acc. -/
def words4 : Nat → List Nat → List (List Nat) → List (List Nat)
  | 0, _, acc => acc
  | n + 1, l, acc => words4 n (l.drop 4) (l.take 4 :: acc)

/-- The 15 round keys of a 256-bit key. -/
def roundKeys (key : List Nat) : List (List Nat) :=
  let ws := (expandKey 52 8 (words4 8 key [])).reverse
  (List.range 15).map (fun r => ((ws.drop (4 * r)).take 4).flatten)

/-- ShiftRows and SubBytes. -/
def subShift (s : List Nat) : List Nat :=
  (List.range 16).map (fun i => sbox (natAt s (i % 4 + 4 * ((i / 4 + i % 4) % 4))))

/-- MixColumns. -/
def mixCols (s : List Nat) : List Nat :=
  (List.range 16).map (fun i =>
    let c := 4 * (i / 4)
    let b := fun k => natAt s (c + (i + k) % 4)
    xtime (b 0) ^^^ (xtime (b 1) ^^^ b 1) ^^^ b 2 ^^^ b 3)

/-- The rounds after the first key addition. -/
def aesRounds : List (List Nat) → List Nat → List Nat
  | [], s => s
  | [k], s => xorL (subShift s) k
  | k :: ks, s => aesRounds ks (xorL (mixCols (subShift s)) k)

/-- AES-256 encryption of a 16-byte block. -/
def aesEnc (rk : List (List Nat)) (b : List Nat) : List Nat :=
  match rk with
  | [] => b
  | k :: ks => aesRounds ks (xorL b k)

/-- Byte values of a byte list, and back. -/
def toNats (l : List Byte) : List Nat := l.map (fun b => b.toNat)
def ofNats (l : List Nat) : List Byte := l.map (BitVec.ofNat 8)

/-- A number as k byte values, big-endian. -/
def natBytes (k n : Nat) : List Nat := toNats (beBytes k n)

/-- The number of a big-endian list of byte values. -/
def bytesNat (l : List Nat) : Nat := l.foldl (fun a b => 256 * a + b) 0

/-- A list padded with zeros to 16 bytes. -/
def pad16 (l : List Nat) : List Nat := l ++ List.replicate (16 - l.length) 0

/-- Cut a list into blocks of at most 16. -/
def blocks16 : Nat → List Nat → List (List Nat)
  | 0, _ => []
  | n + 1, l => if l.isEmpty then [] else l.take 16 :: blocks16 n (l.drop 16)

/-- The blocks of a whole list. -/
def blocksOf (l : List Nat) : List (List Nat) := blocks16 ((l.length + 15) / 16) l

/-! GCM. -/

/-- Multiplication in GF(2^128) of SP 800-38D, on big-endian numbers: n bits of x from bit n-1 down remain. -/
def gmul : Nat → Nat → Nat → Nat → Nat
  | 0, _, _, z => z
  | n + 1, x, v, z =>
    gmul n x (if v % 2 = 1 then (v / 2) ^^^ (0xE1 <<< 120) else v / 2) (if nbit x n then z ^^^ v else z)

/-- GHASH over blocks. -/
def ghash (h : Nat) (bs : List (List Nat)) : Nat := bs.foldl (fun y b => gmul 128 (y ^^^ bytesNat (pad16 b)) h 0) 0

/-- Counter-mode key stream applied to blocks, counter block c first. -/
def gctr (rk : List (List Nat)) : Nat → List (List Nat) → List Nat
  | _, [] => []
  | c, b :: r =>
    xorL b (aesEnc rk (natBytes 16 c)) ++ gctr rk (c - c % 2 ^ 32 + (c % 2 ^ 32 + 1) % 2 ^ 32) r

/-- The tag (16 bytes) of ciphertext ct and additional data aad under a 12-byte IV. -/
def gcmTag (rk : List (List Nat)) (iv aad ct : List Nat) : List Nat :=
  let h := bytesNat (aesEnc rk (List.replicate 16 0))
  let s := ghash h (blocksOf aad ++ blocksOf ct ++ [natBytes 8 (8 * aad.length) ++ natBytes 8 (8 * ct.length)])
  xorL (natBytes 16 s) (aesEnc rk (iv ++ [0, 0, 0, 1]))

/-- GCM counter-mode transformation of a text (encryption and decryption). -/
def gcmText (rk : List (List Nat)) (iv t : List Nat) : List Nat := gctr rk (bytesNat (iv ++ [0, 0, 0, 2])) (blocksOf t)

/-- GCM encryption of byte lists: ciphertext and 16-byte tag. -/
def gcmEnc (key iv aad pt : List Byte) : List Byte × List Byte :=
  let rk := roundKeys (toNats key)
  let ct := gcmText rk (toNats iv) (toNats pt)
  (ofNats ct, ofNats (gcmTag rk (toNats iv) (toNats aad) ct))

/-- GCM decryption: plaintext, and the tag the data should carry. -/
def gcmDec (key iv aad ct : List Byte) : List Byte × List Byte :=
  let rk := roundKeys (toNats key)
  (ofNats (gcmText rk (toNats iv) (toNats ct)), ofNats (gcmTag rk (toNats iv) (toNats aad) (toNats ct)))

/-! CMAC and KDF. -/

/-- Doubling in GF(2^128) of SP 800-38B. -/
def dbl (n : Nat) : Nat := if 2 ^ 127 ≤ n then ((2 * n) % 2 ^ 128) ^^^ 0x87 else 2 * n

/-- CBC over blocks but the last, which is masked with its subkey. -/
def cmacBlocks (rk : List (List Nat)) (k1 k2 : Nat) : List Nat → List (List Nat) → List Nat
  | c, [] => aesEnc rk (xorL c (xorL (pad16 [0x80]) (natBytes 16 k2)))
  | c, [b] =>
    if b.length = 16 then aesEnc rk (xorL c (xorL b (natBytes 16 k1)))
    else aesEnc rk (xorL c (xorL (pad16 (b ++ [0x80])) (natBytes 16 k2)))
  | c, b :: r => cmacBlocks rk k1 k2 (aesEnc rk (xorL c b)) r

/-- AES-256 CMAC, 16 bytes. -/
def cmac (key msg : List Byte) : List Byte :=
  let rk := roundKeys (toNats key)
  let k1 := dbl (bytesNat (aesEnc rk (List.replicate 16 0)))
  ofNats (cmacBlocks rk k1 (dbl k1) (List.replicate 16 0) (blocksOf (toNats msg)))

/-- KDF of R371: label 4 bytes, context 18 bytes, 256 bits. -/
def kdf (p label ctx : List Byte) : List Byte :=
  let inp := fun (i : Nat) => BitVec.ofNat 8 i :: (label ++ [0x00] ++ ctx ++ [0x01, 0x00])
  cmac p (inp 1) ++ cmac p (inp 2)

end Sys2Proof.Machine
end

