-- ==== Sys2Proof/Machine/Log.lean ====
section
/-! DEFINITION. The MRAM log of Laurel (18_management.md R482-R485): forming a record, the tail in SRAM, the event FIFO, the ring of
sectors in MRAM. -/
namespace Sys2Proof.Machine

/-- Set the record of Laurel's services. -/
def State.setLrl (s : State) (l : Lrl) : State := { s with lrl := l }

/-- One bit of CRC-16-CCITT, polynomial 0x1021, most significant bit first. -/
def crc16Step (c : Nat) : Nat := if 0x8000 ≤ c then (c * 2 ^^^ 0x1021) % 65536 else c * 2

/-- One byte. -/
def crc16Byte (c : Nat) (b : Byte) : Nat :=
  crc16Step (crc16Step (crc16Step (crc16Step (crc16Step (crc16Step (crc16Step (crc16Step (c ^^^ b.toNat * 256))))))))

/-- CRC-16-CCITT with initial value 0xFFFF (R483). -/
def crc16 (l : List Byte) : Nat := l.foldl crc16Byte 0xFFFF

/-- The 32 bytes of a record (R483). -/
def logBytes (rseq typ sev flags full : Nat) (data : List Byte) : List Byte :=
  let b := beBytes 4 rseq ++ beBytes 2 typ ++ [BitVec.ofNat 8 sev, BitVec.ofNat 8 flags] ++ beBytes 6 (full / 1000000000)
    ++ beBytes 4 (full % 1000000000) ++ (List.range 12).map (fun i => BitVec.ofNat 8 (byteAt data i))
  b ++ beBytes 2 (crc16 b)

/-- A word enters the event FIFO (R485). -/
def State.evPush (s : State) (w : Word) : State :=
  if s.lrl.ev.length < 64 then (s.setLrl { s.lrl with ev := s.lrl.ev ++ [w] }).ist Reg.pgLRL 1
  else s.ist Reg.pgLRL 2

/-- Room in the tail (R484). -/
def State.tailRoom (s : State) : Bool := decide (s.lrl.tail.length < 512)

/-- STEPCNT (R318). -/
def State.stepCnt (s : State) : Nat := s.rf Reg.TSY_STAT 15 8

/-- A record is built in the tail, with its word in the event FIFO (R484, R485); FLAGS bit 1 is set while the time unit is in
HOLDOVER, or where a step fell since the event, whose STEPCNT was step (R483). -/
def State.logBuild (s : State) (typ sev tsrc full step : Nat) (data : List Byte) : State :=
  let l := s.lrl
  let tunc := if s.rb Reg.TSY_STAT 31 && s.stepCnt == step then 0 else 2
  let r := logBytes l.rseq typ sev (tsrc + tunc) full data
  let s := s.setLrl { l with
    tail := l.tail ++ [r], rseq := (l.rseq + 1) % 2 ^ 32, tailAt := if l.tail.isEmpty then s.now else l.tailAt }
  if s.rf Reg.LRL_CTL 9 8 ≤ sev then s.evPush (BitVec.ofNat 32 (typ % 65536 * 65536 + l.rseq % 65536)) else s

/-- A code of twelve bits, or a severity of two, free where the spec gives none (log entry 33). -/
def State.orFree (s : State) (v : Option Nat) (m : Nat) : Nat × State :=
  match v with
  | some n => (n, s)
  | none => let (w, s) := s.draw; (w.toNat % m, s)

/-- The LOG record of class 0xB, first once room has returned (R484). -/
def State.logLost (s : State) : State :=
  if s.lrl.lost = 0 then s
  else
    let (code, s) := s.orFree none 4096
    let (sev, s) := s.orFree none 4
    let d := beBytes 4 s.lrl.lost ++ beBytes 4 s.lrl.lostAt
    (s.logBuild (0xB000 + code) sev 0 s.tsy.full s.stepCnt d).setLrl
      { (s.logBuild (0xB000 + code) sev 0 s.tsy.full s.stepCnt d).lrl with lost := 0 }

/-- The record of an event is built, or counted as lost while the tail is full (R483, R484). -/
def State.logEvent (s : State) (e : LogEvent) : State :=
  let s := if s.tailRoom then s.logLost else s
  if s.tailRoom then
    let (c, s) := s.orFree e.code 4096
    let (v, s) := s.orFree e.sev 4
    s.logBuild (e.cls * 4096 + c) v e.tsrc e.full e.step e.data
  else
    let l := s.lrl
    s.setLrl { l with lost := l.lost + 1, lostAt := if l.lost = 0 then l.rseq else l.lostAt, lostAll := (l.lostAll + 1) % 2 ^ 32 }

/-- An event of class cls at full time, when STEPCNT was step, is logged; before the loader has found the end of the log and restored the tail its record
waits, since a restored tail comes ahead of every newer record (R484, log entry 60). -/
def State.logAt (s : State) (cls : Nat) (code sev : Option Nat) (tsrc full step : Nat) (data : List Byte) : State :=
  let e : LogEvent := { cls := cls, code := code, sev := sev, tsrc := tsrc, full := full, step := step, data := data }
  if s.pwr.held then s
  else if s.boot.stage = 0 then s.setLrl { s.lrl with early := s.lrl.early ++ [e] }
  else s.logEvent e

/-- The records that waited for the restore are built (R484). -/
def State.logEarly (s : State) : State :=
  s.lrl.early.foldl (fun t e => t.logEvent e) (s.setLrl { s.lrl with early := [] })

/-- An event of this instant. -/
def State.logNow (s : State) (cls : Nat) (code sev : Option Nat) (data : List Byte) : State :=
  s.logAt cls code sev 0 s.tsy.full s.stepCnt data

/-- The four bytes of a register, big-endian. -/
def State.rdBytes (s : State) (a : Nat) : List Byte := beBytes 4 (s.rd a).toNat

/-- A POWER record: save, ride-through, CAPLOW, CHGFAIL (R483). -/
def State.logPower (s : State) : State :=
  s.logNow 2 none none (s.rdBytes Reg.PWR_LASTSAVE ++ s.rdBytes Reg.PWR_VHMIN ++ s.rdBytes Reg.PWR_CAPEST)

/-! The log area (R482). -/

/-- The log area of MRAM (log entry 17). -/
def logBase : Nat := 0x300000

/-- Address of sector i. -/
def logSector (i : Nat) : Nat := logBase + i * 4096

/-- The header of a sector. -/
def logHeader (sseq rseq : Nat) : List Byte :=
  let b := [0x4C, 0x4F, 0x47, 0x31] ++ beBytes 4 sseq ++ beBytes 4 rseq ++ List.replicate 16 0
  b ++ beBytes 4 (crc32 b)

/-- The log moves to the next sector of the ring, whose first record will be of RSEQ q, and its header is written (R482). -/
def State.logSectorNext (s : State) (q : Nat) : State :=
  let l := s.lrl
  let i := (l.sector + 1) % 256
  let n := (l.sseq + 1) % 2 ^ 32
  (s.mramWrite (logSector i) (logHeader n (q % 2 ^ 32))).setLrl { l with sector := i, slot := 0, sseq := n }

/-- One record goes to the next slot; a sector that it fills makes place for the next one (R482). A new device has no sector yet. -/
def State.logPut (s : State) (r : List Byte) : State :=
  let s := if s.lrl.slot < 127 then s else s.logSectorNext (beAt r 0 4)
  let l := s.lrl
  let s := (s.mramWrite (logSector l.sector + 32 + 32 * l.slot) r).setLrl { l with slot := l.slot + 1 }
  if s.lrl.slot < 127 then s else s.logSectorNext (beAt r 0 4 + 1)

/-- The tail is written to MRAM; in SAVE it waits (R436, R484). A LOG record that was owed follows. -/
def State.logFlush (s : State) : State :=
  if s.inSave then s
  else
    let t := s.lrl.tail
    (t.foldl (fun s r => s.logPut r) (s.setLrl { s.lrl with tail := [] })).logLost

/-- The sector header at i is valid. -/
def State.sectorOk (s : State) (i : Nat) : Bool :=
  let h := memRdN s.mram (logSector i) 32
  beAt h 0 4 == 0x4C4F4731 && beAt h 28 4 == crc32 (h.take 28)

/-- SSEQ and first RSEQ of sector i. -/
def State.sectorSeq (s : State) (i : Nat) : Nat := beNat (memRdN s.mram (logSector i + 4) 4)
def State.sectorFirst (s : State) (i : Nat) : Nat := beNat (memRdN s.mram (logSector i + 8) 4)

/-- The record in slot k of sector i. -/
def State.logSlot (s : State) (i k : Nat) : List Byte := memRdN s.mram (logSector i + 32 + 32 * k) 32

/-- A record's CRC is right. -/
def recOk (r : List Byte) : Bool := beAt r 30 2 == crc16 (r.take 30)

/-- Records of sector i in order: slots whose CRC holds and whose RSEQ follows, from slot k on; n bounds the slots. -/
def State.slotCount (s : State) (i : Nat) : Nat → Nat → Nat → Nat
  | 0, k, _ => k
  | n + 1, k, q =>
    let r := s.logSlot i k
    if recOk r && beAt r 0 4 == q then s.slotCount i n (k + 1) ((q + 1) % 2 ^ 32) else k

/-- The valid sectors. -/
def State.sectors (s : State) : List Nat := (List.range 256).filter s.sectorOk

/-- The loader finds the end of the log (R482). -/
def State.logScan (s : State) : State :=
  match s.sectors with
  | [] => s
  | i :: r =>
    let top := r.foldl (fun b j => if s.sectorSeq b < s.sectorSeq j then j else b) i
    let n := s.slotCount top 127 0 (s.sectorFirst top)
    s.setLrl { s.lrl with
      sector := top, slot := n, sseq := s.sectorSeq top, rseq := (s.sectorFirst top + n) % 2 ^ 32 }

/-- The oldest sector of the ring. -/
def State.oldestSector (s : State) : Option Nat :=
  match s.sectors with
  | [] => none
  | i :: r => some (r.foldl (fun b j => if s.sectorSeq j < s.sectorSeq b then j else b) i)

/-- Completed passes of the ring: sectors filled, by 256. -/
def Lrl.passes (l : Lrl) : Nat := (l.sseq + (if l.slot < 127 then 0 else 1)) % 2 ^ 32 / 256

/-- The record of sequence q in the tail or in MRAM. -/
def State.logFind (s : State) (q : Nat) : Option (List Byte) :=
  match s.lrl.tail.find? (fun r => beAt r 0 4 == q) with
  | some r => some r
  | none =>
    let hit := fun (i : Nat) =>
      let k := (q + 2 ^ 32 - s.sectorFirst i) % 2 ^ 32
      if k < 127 ∧ recOk (s.logSlot i k) ∧ beAt (s.logSlot i k) 0 4 = q then some (s.logSlot i k) else none
    s.sectors.findSome? hit

end Sys2Proof.Machine
end

