-- ==== Sys2Proof/Machine/Keys.lean ====
section
/-! DEFINITION. Yew's keys (13_key_store_tamper.md R368-R375): the root in force, derived keys, key slots and the check a job
makes at its start (R374); and the crypto engine's job slots, pipes and result codes (12_crypto_engine.md R335-R342). -/
namespace Sys2Proof.Machine

/-- Four bytes of a word, most significant first. -/
def wordBytes (w : Word) : List Byte := beBytes 4 w.toNat

/-- The 16 bytes of the device identity (R370). -/
def deviceIdBytes : List Byte := ((List.range 4).map (fun k => wordBytes (Config.deviceId k))).flatten

/-- The bytes of a root; a zeroed root has none. -/
def Root.bytes : Root → List Byte
  | .zeroed => []
  | .factory => ((List.range 8).map (fun k => wordBytes (Config.deviceRoot k))).flatten
  | .drawn n => ((List.range 8).map (fun k => wordBytes (Config.freeValue (n + k)))).flatten

/-- The root in force: the test root while it is substituted (R384). -/
def State.rootBytes (s : State) : List Byte := if s.testRoot then List.replicate 32 0xA5 else s.yew.root.bytes

/-- The context of R371: the identity and a 16-bit number. -/
def kctx (n : Nat) : List Byte := deviceIdBytes ++ beBytes 2 n

/-- KSTORE (R372). -/
def State.kstore (s : State) : List Byte := kdf s.rootBytes [0x53, 0x54, 0x4F, 0x52] (kctx 0xFFFF)

/-- Set slot n. -/
def State.setSlot (s : State) (n : Nat) (k : SlotKey) : State :=
  { s with yew := { s.yew with slots := amSet ⟨0, 0, []⟩ s.yew.slots n k } }

/-- The key of slot n, which is not EMPTY. -/
def State.slotKeyBytes (s : State) (n : Nat) : List Byte :=
  let k := s.keySlot n
  if s.slotOrigin n = 2 then kdf s.rootBytes (wordBytes k.label) (kctx n) else k.key

/-- Result codes of R342. -/
def kOK : Nat := 0
def kAUTHFAIL : Nat := 1
def kCMPFAIL : Nat := 2
def kINVFAIL : Nat := 3
def kLENGTH : Nat := 4
def kBADPARAM : Nat := 5
def kKEYSLOT : Nat := 6
def kNOKEYS : Nat := 7
def kTAMPER : Nat := 8
def kBUSERR : Nat := 9
def kFRESH : Nat := 10

/-- The key check at the start of a job (R369, R374): slot n for usage bit u; 0 OK, KEYSLOT or NO_KEYS. -/
def State.keyCheck (s : State) (n u : Nat) : Nat :=
  if s.rootZeroed then kNOKEYS
  else if s.slotOrigin n = 0 ∨ ¬ bitOf (s.slotAttr n) u then kKEYSLOT
  else kOK

/-- Yew has loaded its slots: until then jobs that need a key wait (R373). -/
def State.keysReady (s : State) : Bool := s.rb Reg.YEW_STAT 31

/-! Results. -/

/-- A job of class c on object ix ended with a code other than OK (R342, R365). -/
def State.cryFail (s : State) (c code ix : Nat) : State :=
  let s := s.wr Reg.CRY_LASTERR (BitVec.ofNat 32 (2 ^ 31 + c * 2 ^ 28 + code * 2 ^ 16 + ix % 2 ^ 16))
  if code = kKEYSLOT then s.bump Reg.CRY_KEYERR 1 10
  else if code = kNOKEYS then s.bump Reg.CRY_NOKEY 1 10
  else s

/-! Pipes and job slots (R336, R337, R340). -/

/-- State of pipe p: 0 TEST, 1 ONLINE, 2 FAULT. -/
def State.pipeState (s : State) (p : Nat) : Nat := s.rf Reg.CRY_PIPESTAT (16 * p + 9) (16 * p + 8)

/-- MISSp. -/
def State.pipeMiss (s : State) (p : Nat) : Nat := s.rf Reg.CRY_PIPESTAT (16 * p + 3) (16 * p)

/-- Reserved slots of a class (R336). -/
def cryReserved (c : Nat) : Nat := if c ≤ 2 then 32 else if c = 3 then 8 else 16

/-- Jobs of class c in flight. -/
def State.cryUsed (s : State) (c : Nat) : Nat := (s.cry.jobs.filter (fun p => p.2.cls == c)).length

/-- Shared slots in use. -/
def State.cryShared (s : State) : Nat := ((List.range 5).map (fun c => s.cryUsed c - cryReserved c)).sum

/-- A job of class c finds a slot (R336). -/
def State.crySlot (s : State) (c : Nat) : Bool := decide (s.cryUsed c < cryReserved c) || decide (s.cryShared < 8)

/-- Blocks of the jobs in flight on pipe p. -/
def State.pipeLoad (s : State) (p : Nat) : Nat := ((s.cry.jobs.filter (fun q => q.2.pipe == p)).map (fun q => q.2.blocks)).sum

/-- The pipe of a job that may choose (R337), where a pipe is ONLINE; with equal blocks waiting it is a free value. -/
def State.choosePipe (s : State) : Option (Nat × State) :=
  let a := s.pipeState 0 == 1
  let b := s.pipeState 1 == 1
  if a && b then
    if s.pipeLoad 0 < s.pipeLoad 1 then some (0, s)
    else if s.pipeLoad 1 < s.pipeLoad 0 then some (1, s)
    else
      let (w, s) := s.draw
      some (w.toNat % 2, s)
  else if a then some (0, s)
  else if b then some (1, s)
  else none

/-- The pipe of an EGR job of port p (R337). -/
def State.egrPipe (s : State) (p : Nat) : Option Nat :=
  if s.pipeState (p % 2) = 1 then some (p % 2)
  else if s.pipeState (p % 2) = 2 ∧ s.pipeState (1 - p % 2) = 1 then some (1 - p % 2)
  else none

/-- Add a job; PEAK follows. -/
def State.addJob (s : State) (j : CryJob) : State :=
  let s := { s with cry := { s.cry with next := s.cry.next + 1, jobs := amPut s.cry.jobs s.cry.next j } }
  let s := s.obsHidden (5 + j.pipe) j.blocks
  s.wf Reg.CRY_JOBS 23 16 (max (s.rf Reg.CRY_JOBS 23 16) s.cry.jobs.length)

/-- Remove job k. -/
def State.delJob (s : State) (k : Nat) : State := { s with cry := { s.cry with jobs := amDel s.cry.jobs k } }

/-- Job k. -/
def State.jobOf (s : State) (k : Nat) : Option CryJob := amGet s.cry.jobs k

/-- Set MISSp. -/
def State.setMiss (s : State) (p n : Nat) : State := s.wf Reg.CRY_PIPESTAT (16 * p + 3) (16 * p) n

/-- Every open job of pipe p ends CMPFAIL (R340). -/
def State.failPipe (s : State) (p : Nat) : State :=
  { s with cry := { s.cry with
    jobs := s.cry.jobs.map (fun q => if q.2.pipe = p then (q.1, { q.2 with code := kCMPFAIL }) else q) } }

/-- Pipe p goes to FAULT (R340). -/
def State.pipeFault (s : State) (p : Nat) : State :=
  let s := ((s.wf Reg.CRY_PIPESTAT (16 * p + 9) (16 * p + 8) 2).failPipe p).ist Reg.pgCRY 2
  s.logNow 10 none none (s.rdBytes Reg.CRY_PIPESTAT ++ s.rdBytes Reg.CRY_LASTERR)

/-- A job of pipe p was compared (R338, R339): agreement clears MISSp; a disagreement is counted and may put the pipe in
FAULT (R340). -/
def State.compare (s : State) (p : Nat) (agree : Bool) : State :=
  if agree then s.setMiss p 0
  else
    let s := (s.bump Reg.CRY_CMPERR 1 10).ist Reg.pgCRY 0
    let n := capAt 15 (s.pipeMiss p + 1)
    let s := s.setMiss p n
    if max 1 (s.rf Reg.CRY_CTL 11 8) ≤ n ∧ s.pipeState p = 1 then s.pipeFault p else s

/-- The bytes of an egress frame that left before its job ended early: no block leaves unless the copies agree on it (R338, R364); how many
did is a free value (log entry 1). -/
def State.cutOut (s : State) (b : List Byte) : State × List Byte :=
  let (w, s) := s.draw
  (s, b.take (w.toNat % (b.length + 1)))

/-- New jobs may start (CRY_CTL.EN). -/
def State.cryOn (s : State) : Bool := s.rb Reg.CRY_CTL 0

/-- SA i is named by an enabled transmit SC. -/
def State.saTransmit (s : State) (i : Nat) : Bool :=
  s.cry.sc.any (fun e =>
    match e.2 with
    | [_, _, w2, w3, _] => bitOf w2 31 && bitOf w2 30 && (List.range 4).any (fun an => fld w3 (8 * an + 7) (8 * an) == i)
    | _ => false)

/-- Word k of a list of words, 0 beyond its end. -/
def wat (ws : List Word) (k : Nat) : Word := match ws[k]? with | some w => w | none => 0

/-- Counter or SA (from 2^16) i serves transmission: a transmit association or a transmit SC names it. -/
def State.markTx (s : State) (i : Nat) : Bool :=
  if i < 65536 then
    s.cauth.any (fun p => bitOf (wat p.2 0) 31 && bitOf (wat p.2 0) 30 && fld (wat p.2 2) 31 20 == i)
  else s.saTransmit (i - 65536)

/-- A mark message of the pair link: index and value (R514). -/
def State.pairMark (s : State) (i v : Nat) : State := s.pairSend 2 0 (beBytes 4 i ++ beBytes 8 v)

/-- Post a mark of counter index i (2^16 + SA for an SA) to Laurel (R359); the active sends those of transmission (R514). -/
def State.postMark (s : State) (i v : Nat) : State :=
  let s := { s with cry := { s.cry with marks := s.cry.marks ++ [(i, v)], lastMark := amPut s.cry.lastMark i v } }
  if s.rf Reg.PAIR_STAT 1 0 = 1 ∧ s.markTx i then s.pairMark i v else s

/-- A value moved from old to new: a crossed multiple of 2^rsv is posted as the mark (R359). -/
def State.markCross (s : State) (i rsv old new : Nat) : State :=
  let m := 2 ^ (if rsv < 8 then 8 else rsv)
  if old / m < new / m then s.postMark i (new / m * m) else s

end Sys2Proof.Machine
end

