-- ==== Sys2Proof/Machine/Macsec.lean ====
section
/-! DEFINITION. MACsec (12_crypto_engine.md R343-R352, R366): secure channels and associations, their staged commands, and the
protection of frames that leave a port. -/
namespace Sys2Proof.Machine

/-! Channels, associations, counters. -/

/-- SC entry i. -/
def State.scOf (s : State) (i : Nat) : List Word := amGetD [0, 0, 0, 0, 0] s.cry.sc i

/-- Word k of SC entry i. -/
def State.scw (s : State) (i k : Nat) : Word := match (s.scOf i)[k]? with | some w => w | none => 0

/-- SA entry i. -/
def State.saOf (s : State) (i : Nat) : Sa := amGetD {} s.cry.sa i

/-- Set SA entry i. -/
def State.setSa (s : State) (i : Nat) (a : Sa) : State := { s with cry := { s.cry with sa := amSet {} s.cry.sa i a } }

/-- A MACsec counter moves from old by n; PG_IST.CNT when its bit 31 rises (R366). -/
def State.msecRise (s : State) (old n : Nat) : State :=
  s.istIf (decide (old < 2 ^ 31) && decide (2 ^ 31 ≤ (old + n) % 2 ^ 32)) Reg.pgMSEC 3

/-- Port counter k of port p (order of MSEC_PNOTAG upward). -/
def State.msecPort (s : State) (p k : Nat) : State :=
  let old := amGetD 0 s.cry.pcnt (16 * p + k)
  ({ s with cry := { s.cry with pcnt := amSet 0 s.cry.pcnt (16 * p + k) ((old + 1) % 2 ^ 32) } }).msecRise old 1

/-- Counter k of SA i. -/
def State.msecSa (s : State) (i k : Nat) : State :=
  let old := amGetD 0 s.cry.scnt (4 * i + k)
  ({ s with cry := { s.cry with scnt := amSet 0 s.cry.scnt (4 * i + k) ((old + 1) % 2 ^ 32) } }).msecRise old 1

/-- MACsec is enabled on port p (R343). -/
def State.msecOn (s : State) (p : Nat) : Bool := decide (p < 14) && s.rb (Reg.MSEC_PCFG p) 0

/-- The lowest enabled SC of direction dir of port p that satisfies q (R344). -/
def State.scFind (s : State) (p : Nat) (dir : Bool) (q : List Word → Bool) : Option Nat :=
  (s.cry.sc.find? (fun e =>
    match e.2 with
    | [_, _, w2, _, _] => bitOf w2 31 && bitOf w2 30 == dir && fld w2 29 26 == p && q e.2
    | _ => false)).map (·.1)

/-- The SA that SAMAP of SC i names for an association number. -/
def State.scSa (s : State) (i an : Nat) : Nat := fld (s.scw i 3) (8 * an + 7) (8 * an)

/-- SCI of SC i as 8 bytes. -/
def State.sciBytes (s : State) (i : Nat) : List Byte := wordBytes (s.scw i 1) ++ wordBytes (s.scw i 0)

/-- The warning of R347, once while the SA is in use. -/
def State.pnWarn (s : State) (i : Nat) : State :=
  let a := s.saOf i
  if a.inuse && !a.warned && decide ((s.rd Reg.MSEC_PNWARN).toNat ≤ a.pn / 2 ^ 32) then
    ((s.setSa i { a with warned := true }).ist Reg.pgMSEC 0).wr Reg.MSEC_LASTWARN (BitVec.ofNat 32 (2 ^ 31 + i))
  else s

/-- SA i takes a PN (R346, R347). -/
def State.takePn (s : State) (i : Nat) : State :=
  let a := s.saOf i
  if a.pn = 2 ^ 64 - 1 then
    ((s.setSa i { a with exh := true }).ist Reg.pgMSEC 1).wr Reg.MSEC_LASTWARN (BitVec.ofNat 32 (2 ^ 31 + 2 ^ 30 + i))
  else
    ((s.setSa i { a with pn := a.pn + 1 }).markCross (2 ^ 16 + i) (s.rf Reg.MSEC_CTL 12 8) a.pn (a.pn + 1)).pnWarn i

/-- The IV of GCM-AES-XPN: salt XOR (SSCI ‖ PN) (R343). -/
def xpnIv (a : Sa) (pn : Nat) : List Byte := beBytes 12 (a.salt ^^^ (a.ssci * 2 ^ 64 + pn))

/-- The SecTAG without its EtherType (R343): TCI and AN, SL, PN, SCI. -/
def secTag (w2 : Word) (sci : List Byte) (an pn dlen : Nat) : List Byte :=
  let conf := bitOf w2 25
  let sc := bitOf w2 23
  let tci := (bitOf w2 24).toNat * 64 + sc.toNat * 32 + conf.toNat * 8 + conf.toNat * 4 + an
  [BitVec.ofNat 8 tci, BitVec.ofNat 8 (if dlen < 48 then dlen else 0)] ++ beBytes 4 (pn % 2 ^ 32) ++ (if sc then sci else [])

/-- A frame protected with SA a, key key and packet number pn under SC words w2 and sci (R343, R346). -/
def protectBytes (key : List Byte) (a : Sa) (w2 : Word) (sci : List Byte) (pn : Nat) (f : List Byte) : List Byte :=
  let data := f.drop 12
  let hd := f.take 12 ++ [0x88, 0xE5] ++ secTag w2 sci (fld w2 17 16) pn data.length
  if bitOf w2 25 then
    let r := gcmEnc key (xpnIv a pn) hd data
    hd ++ r.1 ++ r.2
  else hd ++ data ++ (gcmEnc key (xpnIv a pn) (hd ++ data) []).2

/-- What the MACsec stage makes of a frame: sent (with its crypto job, and whether it ends with the inverse FCS), dropped, or
waiting at the head of its queue (R337, R346). -/
inductive Prot
  | send (bytes : List Byte) (bad : Bool) (job : Option Nat)
  | drop
  | wait
  deriving DecidableEq, Repr

/-- The job of port p protects frame f with SA i of SC c (R346); agree: the copies of the pipe agreed (R339). -/
def State.protectJob (s : State) (p c i pipe : Nat) (f : List Byte) (agree : Bool) : State × Prot :=
  let a := s.saOf i
  let code := s.keyCheck a.slot 0
  if code ≠ 0 then (s.cryFail 0 code i, .drop)
  else
    let key := s.slotKeyBytes a.slot
    let w2 := s.scw c 2
    let out := protectBytes key a w2 (s.sciBytes c) a.pn f
    let k := s.cry.next
    let s := (s.takePn i).addJob ⟨0, pipe, (f.length + 15) / 16, p, i, 0, [], a.pn, []⟩
    let s := s.compare pipe agree
    if agree then (s.msecSa i (if bitOf w2 25 then 1 else 0), .send out false (some k))
    else
      let (s, cut) := (s.cryFail 0 kCMPFAIL i).cutOut out
      (s, .send cut true (some k))

/-- The MACsec stage of port p (R346). -/
def State.protect (s : State) (p : Nat) (f : List Byte) (agree : Bool) : State × Prot :=
  if !s.msecOn p then (s, .send f false none)
  else if !s.rb Reg.MSEC_CTL 0 then (s, .drop)
  else if beAt f 12 2 = 0x888E then (s, .send f false none)
  else match s.scFind p true (fun _ => true) with
    | none => (s.msecPort p 8, .drop)
    | some c =>
      let i := s.scSa c (fld (s.scw c 2) 17 16)
      let a := s.saOf i
      let len := f.length + 4 + (if bitOf (s.scw c 2) 23 then 32 else 24)
      if !a.inuse then (s.msecPort p 8, .drop)
      else if a.exh then ((s.msecSa i 2).cryFail 0 kFRESH i, .drop)
      else if 9216 < len ∨ s.rf (Reg.EMAC_MAXFRM p) 13 0 < len then ((s.msecPort p 7).cryFail 0 kLENGTH i, .drop)
      else match s.egrPipe p with
        | none => (s, .wait)
        | some pipe =>
          if s.cryOn && s.crySlot 0 && s.keysReady then s.protectJob p c i pipe f agree else (s, .wait)

/-! Staged commands (R290 for R344, R345). -/

/-- Words of an SC entry with their reserved bits 0. -/
def scClean (ws : List Word) : List Word :=
  match ws with
  | [a, b, c, d, e] => [a, b, c &&& 0xFFC30000, d, e]
  | _ => [0, 0, 0, 0, 0]

/-- A write of MSEC_SCCMD: WR first, then RD (R290, R344). -/
def sccmdWrite (v : Word) (s : State) : State :=
  let i := s.rf Reg.MSEC_SCIDX 6 0
  let s := if bitOf v 0 then
      { s with cry := { s.cry with
        sc := amSet [0, 0, 0, 0, 0] s.cry.sc i (scClean ((List.range 5).map (fun k => s.rd (Reg.MSEC_SCW k)))) } }
    else s
  if bitOf v 1 then (List.range 5).foldl (fun t k => t.wr (Reg.MSEC_SCW k) (s.scw i k)) s else s

/-- The words of an SA entry (R345). -/
def Sa.words (a : Sa) : List Word :=
  [BitVec.ofNat 32 (a.inuse.toNat * 2 ^ 31 + a.exh.toNat * 2 ^ 30 + a.slot), BitVec.ofNat 32 a.ssci,
   BitVec.ofNat 32 a.salt, BitVec.ofNat 32 (a.salt / 2 ^ 32), BitVec.ofNat 32 (a.salt / 2 ^ 64),
   BitVec.ofNat 32 a.pn, BitVec.ofNat 32 (a.pn / 2 ^ 32), 0]

/-- SA i is in use by a job in flight. -/
def State.saBusy (s : State) (i : Nat) : Bool := s.cry.jobs.any (fun q => (q.2.cls == 0 || q.2.cls == 2) && q.2.ix == i)

/-- The written SA words w are applied to entry i (R347, R351, R359): the warning is a transmit SA's. -/
def State.saApply (s : State) (i : Nat) (w : List Nat) : State :=
  let a := s.saOf i
  let use := nbit (dw w 0) 31
  let rise := use && !a.inuse
  let pn := let x := dw w 5 + dw w 6 * 2 ^ 32; if x = 0 then 1 else x
  let low := a.inuse && use && s.saTransmit i && decide (pn < a.pn)
  let b : Sa :=
    { inuse := use, exh := a.exh && !rise, slot := dw w 0 % 512, ssci := dw w 1, salt := dw w 2 + dw w 3 * 2 ^ 32 + dw w 4 * 2 ^ 64,
      pn := if low then a.pn else pn, warned := a.warned && !rise }
  let s := s.setSa i b
  let s := s.istIf low Reg.pgMSEC 2
  let s := if rise then s.postMark (2 ^ 16 + i) b.pn
    else if use && s.saTransmit i then s.markCross (2 ^ 16 + i) (s.rf Reg.MSEC_CTL 12 8) a.pn b.pn
    else s
  if s.saTransmit i then s.pnWarn i else s

/-- The staged SA words. -/
def State.saStaged (s : State) : List Nat := (List.range 8).map (fun k => (s.rd (Reg.MSEC_SAW k)).toNat)

/-- A write of SA i takes effect between jobs (R351): while one uses it, it waits for its end. -/
def State.saWrite (s : State) (i : Nat) : State :=
  if s.saBusy i then { s with cry := { s.cry with saPend := s.cry.saPend ++ [(i, s.saStaged)] } } else s.saApply i s.saStaged

/-- The writes of SA i that waited for its jobs take effect, in order. -/
def State.saSettle (s : State) (i : Nat) : State :=
  if s.saBusy i then s
  else
    let ws := s.cry.saPend.filter (fun p => p.1 == i)
    ws.foldl (fun t p => t.saApply i p.2) { s with cry := { s.cry with saPend := s.cry.saPend.filter (fun p => p.1 != i) } }

/-- RD: the staged words and the SA's counters (R366). -/
def State.saRead (s : State) (i : Nat) : State :=
  let ws := (s.saOf i).words
  let s := (List.range 8).foldl (fun t k => t.wr (Reg.MSEC_SAW k) (match ws[k]? with | some w => w | none => 0)) s
  (List.range 4).foldl (fun t k => t.wr (Reg.MSEC_SACNT k) (BitVec.ofNat 32 (amGetD 0 s.cry.scnt (4 * i + k)))) s

/-- A write of MSEC_SACMD: WR first, then RD. -/
def sacmdWrite (v : Word) (s : State) : State :=
  let i := s.rf Reg.MSEC_SAIDX 7 0
  let s := if bitOf v 0 then s.saWrite i else s
  if bitOf v 1 then s.saRead i else s

/-- A write of MSEC_PIDX latches the port's counters (R366). -/
def msecPidxWrite (s : State) : State :=
  let p := s.rf Reg.MSEC_PIDX 3 0
  (List.range 9).foldl (fun t k => t.wr (Reg.MSEC_PNOTAG + 4 * k) (BitVec.ofNat 32 (amGetD 0 s.cry.pcnt (16 * p + k)))) s

/-- MSEC_CNTCLR. -/
def msecCclrWrite (v : Word) (s : State) : State :=
  if bitOf v 0 then
    ({ s with cry := { s.cry with pcnt := [], scnt := [] } }).clear
      (Reg.MSEC_LASTWARN :: ((List.range 9).map (fun k => Reg.MSEC_PNOTAG + 4 * k) ++ (List.range 4).map Reg.MSEC_SACNT))
  else s

def execScWrite (init : Initiator) (v : Word) (s : State) : Host.Outcome State Fault Refusal :=
  .next (s.cmdWrite init Reg.MSEC_SCCMD v (sccmdWrite v))

def execScRead (init : Initiator) (v : Word) (s : State) : Host.Outcome State Fault Refusal :=
  .next (s.cmdWrite init Reg.MSEC_SCCMD v (sccmdWrite v))

def execSaWrite (init : Initiator) (v : Word) (s : State) : Host.Outcome State Fault Refusal :=
  .next (s.cmdWrite init Reg.MSEC_SACMD v (sacmdWrite v))

def execSaRead (init : Initiator) (v : Word) (s : State) : Host.Outcome State Fault Refusal :=
  .next (s.cmdWrite init Reg.MSEC_SACMD v (sacmdWrite v))

def execPortCounterLatch (init : Initiator) (v : Word) (s : State) : Host.Outcome State Fault Refusal :=
  .next (s.cmdWrite init Reg.MSEC_PIDX v msecPidxWrite)

end Sys2Proof.Machine
end

