-- ==== Sys2Proof/Machine/Tables.lean ====
section
/-! DEFINITION. The forwarding tables (10_forwarding_tables.md R289-R313): VLAN entries, the MAC table with its overflow store,
learning, ageing and flushes, and the LPM table. -/
namespace Sys2Proof.Machine

/-- Set the switch record. -/
def State.setSw (s : State) (w : Switch) : State := { s with sw := w }

/-- A staged word list of k registers from address a on. -/
def State.words (s : State) (a k : Nat) : List Word := (List.range k).map (fun i => s.rd (a + 4 * i))

/-- Load words into registers from address a on. -/
def State.loadWords (s : State) (a : Nat) : List Word → State
  | [] => s
  | w :: r => (s.wr a w).loadWords (a + 4) r

/-! VLAN entries (R289, R290, R311). -/

/-- VLAN entry v after a reset that initialises the MACT page (R311). -/
def vlanReset (v : Nat) : Vlan := if v = 1 then ⟨0x3FFFF, 0x3FFFF, 0x80001001⟩ else {}

/-- VLAN entry v. -/
def State.vlanOf (s : State) (v : Nat) : Vlan := amGetD (vlanReset v) s.sw.vlan v

/-- The entry is valid, learned on, routed; its FID. -/
def Vlan.valid (v : Vlan) : Bool := bitOf v.cfg 31
def Vlan.learn (v : Vlan) : Bool := bitOf v.cfg 12
def Vlan.route (v : Vlan) : Bool := bitOf v.cfg 13
def Vlan.fid (v : Vlan) : Nat := fld v.cfg 11 0

/-- A write of MACT_VCMD (R290): WR first, then RD. -/
def vcmdWrite (v : Word) (s : State) : State :=
  let i := s.rf Reg.MACT_VIDX 11 0
  let s := if bitOf v 0 then
      let e : Vlan := ⟨s.rf Reg.MACT_VMEM 17 0, s.rf Reg.MACT_VUNTAG 17 0, s.rd Reg.MACT_VCFG &&& 0x80003FFF⟩
      s.setSw { s.sw with vlan := amSet (vlanReset i) s.sw.vlan i e }
    else s
  if bitOf v 1 then
    let e := s.vlanOf i
    ((s.wr Reg.MACT_VMEM (BitVec.ofNat 32 e.member)).wr Reg.MACT_VUNTAG (BitVec.ofNat 32 e.untag)).wr Reg.MACT_VCFG e.cfg
  else s

/-! MAC table and overflow store (R293-R295). Entry indices 65536-65791 are the overflow store. -/

/-- Set word w of entry i. -/
def State.setMtw (s : State) (i w : Nat) (x : Word) : State :=
  if i < 65536 then s.setTw (0x300000 + 16 * i + 4 * w) x
  else s.setSw { s.sw with ovf := amSet 0 s.sw.ovf (4 * (i - 65536) + w) x }

/-- Set the four words of entry i. -/
def State.setMt (s : State) (i : Nat) (a b c d : Word) : State := (((s.setMtw i 0 a).setMtw i 1 b).setMtw i 2 c).setMtw i 3 d

/-- The key of entry i: FID * 2^48 + MAC. -/
def State.mtKey (s : State) (i : Nat) : Nat :=
  fld (s.mtw i 1) 27 16 * 2 ^ 48 + fld (s.mtw i 1) 15 0 * 2 ^ 32 + (s.mtw i 0).toNat

/-- MACT_SEEDw. -/
def mactSeed (w : Nat) : Nat :=
  if w = 0 then 0xFFFFFFFF else if w = 1 then 0 else if w = 2 then 0xA5A5A5A5 else 0x5A5A5A5A

/-- The candidate entry of a key in way w (R293). -/
def mtCand (key w : Nat) : Nat := 16384 * w + ((beBytes 8 key).foldl crcByte (mactSeed w)) % 2 ^ 14

/-- The entry a key hits: lowest way, then the lowest overflow entry (R295). -/
def State.mtFind (s : State) (key : Nat) : Option Nat :=
  match (List.range 4).find? (fun w => s.mtValid (mtCand key w) && s.mtKey (mtCand key w) == key) with
  | some w => some (mtCand key w)
  | none => s.mtListed.find? (fun i => decide (65536 ≤ i) && s.mtKey i == key)

/-- Store a learned entry for a key with DEST p at index i (R298). -/
def State.mtLearn (s : State) (i key p : Nat) : State :=
  s.setMt i (BitVec.ofNat 32 key) (BitVec.ofNat 32 (key / 2 ^ 48 * 2 ^ 16 + key / 2 ^ 32 % 2 ^ 16)) (BitVec.ofNat 32 p) 0x80000000

/-- Copy entry i to the free place j and clear i (R298, R300). -/
def State.mtMove (s : State) (i j : Nat) : State :=
  (s.setMt j (s.mtw i 0) (s.mtw i 1) (s.mtw i 2) (s.mtw i 3)).setMtw i 3 0

/-- The relocation of R298 step 2: the resident of a candidate that can move, and its free candidate. -/
def State.mtReloc (s : State) (key : Nat) : Option (Nat × Nat) :=
  (List.range 4).findSome? (fun w =>
    let i := mtCand key w
    if s.mtStatic i then none
    else ((List.range 4).find? (fun v => v != w && !s.mtValid (mtCand (s.mtKey i) v))).map
      (fun v => (i, mtCand (s.mtKey i) v)))

/-- The insertion of R298. -/
def State.mtInsert (s : State) (key p : Nat) : State :=
  let lrn := fun (t : State) => t.bump Reg.MACT_LEARNED 1 5
  match (List.range 4).find? (fun w => !s.mtValid (mtCand key w)) with
  | some w => lrn (s.mtLearn (mtCand key w) key p)
  | none =>
    match s.mtReloc key with
    | some (i, j) => lrn (((s.mtMove i j).mtLearn i key p).bump Reg.MACT_RELOC 1 5)
    | none =>
      match (List.range 256).find? (fun k => !s.mtValid (65536 + k)) with
      | some k => lrn (s.mtLearn (65536 + k) key p)
      | none =>
        let s := (s.bump Reg.MACT_LRNFAIL 1 5).ist Reg.pgMACT 0
        (s.wr Reg.MACT_LFAIL_LO (BitVec.ofNat 32 key)).wr Reg.MACT_LFAIL_HI
          (BitVec.ofNat 32 (2 ^ 31 + key / 2 ^ 48 * 2 ^ 16 + key / 2 ^ 32 % 2 ^ 16))

/-- Port p has reached its learning limit (R299). -/
def State.lrnLimit (s : State) (p : Nat) : Bool :=
  let lim := s.rf (Reg.MACT_PCFG p) 31 20
  lim != 0 && decide (lim ≤ s.plrn p)

/-- A refusal under R299. -/
def State.lrnRefuse (s : State) : State := (s.bump Reg.MACT_LRNLIM 1 5).ist Reg.pgMACT 3

/-- Entry i names port p: DEST[4:0] where it is one port, the whole mask word where MC = 1 (R294). -/
def State.mtIs (s : State) (i p : Nat) : Bool := if s.mtMc i then s.mtDest i == p else s.mtDest i % 32 == p

/-- One learning request: port p, FID fid, source mac (R297-R299). -/
def State.learnOne (s : State) (p fid mac : Nat) : State :=
  let key := fid * 2 ^ 48 + mac
  match s.mtFind key with
  | none => if s.lrnLimit p then s.lrnRefuse else s.mtInsert key p
  | some i =>
    if s.mtStatic i then
      if s.mtMc i || s.mtIs i p then s else (s.bump Reg.MACT_SAVIOL 1 5).ist Reg.pgMACT 2
    else if s.mtIs i p then s.setMtw i 2 (setFld (s.mtw i 2) 27 25 0)
    else if s.lrnLimit p then s.lrnRefuse
    else
      let w := setFld (setFld (s.mtw i 2) 17 0 p) 27 25 0
      ((s.setMtw i 2 w).bump Reg.MACT_MOVES 1 5).ist Reg.pgMACT 1

/-- LEARNING_REQUEST (R297): the oldest queued request. -/
def execLearningRequest (s : State) : Host.Outcome State Fault Refusal :=
  match s.sw.lrn with
  | [] => .next s
  | (p, fid, mac) :: rest => .next ((s.setSw { s.sw with lrn := rest }).learnOne p fid mac)

/-- A request enters the queue of 64, merged with one of the same key; a full queue drops it (R297). -/
def State.learnPush (s : State) (p fid mac : Nat) : State :=
  if s.sw.lrn.any (fun q => q.2.1 == fid && q.2.2 == mac) then
    s.setSw { s.sw with lrn := s.sw.lrn.map (fun q => if q.2.1 == fid && q.2.2 == mac then (p, fid, mac) else q) }
  else if s.sw.lrn.length < 64 then s.setSw { s.sw with lrn := s.sw.lrn ++ [(p, fid, mac)] }
  else s.bump Reg.MACT_LRNDROP 1 5

/-- One entry of the ageing sweep (R301). -/
def State.ageOne (s : State) (i : Nat) : State :=
  if s.mtStatic i then s
  else
    let a := fld (s.mtw i 2) 27 25
    if a < 7 then s.setMtw i 2 (setFld (s.mtw i 2) 27 25 (a + 1))
    else (s.setMtw i 3 0).bump Reg.MACT_AGED 1 5

/-- AGEING_SWEEP (R301). -/
def execAgeingSweep (s : State) : Host.Outcome State Fault Refusal :=
  let t := s.rf Reg.MACT_AGE 7 0
  if t ≠ 0 ∧ s.sw.ageAt + t * 1000000000 ≤ s.now then
    .next (s.mtListed.foldl State.ageOne (s.setSw { s.sw with ageAt := s.now }))
  else .next s

/-- Clear the entries a flush word names (R302). -/
def State.macClear (s : State) (v : Word) : State :=
  s.mtListed.foldl (fun t i =>
    if (!t.mtStatic i || bitOf v 30) && (!bitOf v 29 || (!t.mtMc i && t.mtIs i (fld v 20 16)))
        && (!bitOf v 28 || fld (t.mtw i 1) 27 16 == fld v 11 0) then t.setMtw i 3 0 else t) s

/-- The MAC flush runs. -/
def State.macBusy (s : State) : Bool := s.rb Reg.MACT_FLSTAT 31

/-- Start a MAC flush; while one runs a write is discarded, a DOWN flush waits (R302). -/
def macFlushWrite (v : Word) (s : State) : State :=
  if bitOf v 31 && !s.macBusy then (s.macClear v).wb Reg.MACT_FLSTAT 31 true else s

/-- The flush word of port p going DOWN. -/
def downFlush (p : Nat) : Word := BitVec.ofNat 32 (2 ^ 31 + 2 ^ 29 + p * 2 ^ 16)

/-- Port p goes DOWN with LDFLUSH = 1 (R302). -/
def State.macDown (s : State) (p : Nat) : State :=
  if s.rb (Reg.MACT_PCFG p) 16 then
    if s.macBusy then s.setSw { s.sw with mfl := s.sw.mfl ++ [p] } else macFlushWrite (downFlush p) s
  else s

/-- MAC_FLUSH (R302): a write of MACT_FLUSH. A port going DOWN flushes within LOSS_OF_LINK and LINK_HOLD_EXPIRY. -/
def execMacFlush (init : Initiator) (v : Word) (s : State) : Host.Outcome State Fault Refusal :=
  .next (s.cmdWrite init Reg.MACT_FLUSH v (macFlushWrite v))

/-- MAC_FLUSH_DONE (R302). -/
def execMacFlushDone (s : State) : Host.Outcome State Fault Refusal :=
  if s.macBusy then
    let s := (s.wb Reg.MACT_FLSTAT 31 false).ist Reg.pgMACT 4
    match s.sw.mfl with
    | [] => .next s
    | p :: rest => .next (macFlushWrite (downFlush p) (s.setSw { s.sw with mfl := rest }))
  else .next s

/-- A write of MACT_OCMD (R303): WR first, then RD. -/
def ocmdWrite (v : Word) (s : State) : State :=
  let i := 65536 + s.rf Reg.MACT_OIDX 7 0
  let s := if bitOf v 0 then
      s.setMt i (s.rd (Reg.MACT_OW 0)) (s.rd (Reg.MACT_OW 1) &&& 0x0FFFFFFF) (s.rd (Reg.MACT_OW 2) &&& 0xEE03FFFF)
        (s.rd (Reg.MACT_OW 3) &&& 0x80000000)
    else s
  if bitOf v 1 then s.loadWords (Reg.MACT_OW 0) ((List.range 4).map (s.mtw i)) else s

/-- MACT_CNTCLR (R312). -/
def mactCclrWrite (v : Word) (s : State) : State :=
  if bitOf v 0 then
    (s.clear ((List.range 12).map (fun k => Reg.MACT_LEARNED + 4 * k))).wb Reg.MACT_LFAIL_HI 31 false
  else s

def execVlanWrite (init : Initiator) (v : Word) (s : State) : Host.Outcome State Fault Refusal :=
  .next (s.cmdWrite init Reg.MACT_VCMD v (vcmdWrite v))

def execVlanRead (init : Initiator) (v : Word) (s : State) : Host.Outcome State Fault Refusal :=
  .next (s.cmdWrite init Reg.MACT_VCMD v (vcmdWrite v))

def execOverflowWrite (init : Initiator) (v : Word) (s : State) : Host.Outcome State Fault Refusal :=
  .next (s.cmdWrite init Reg.MACT_OCMD v (ocmdWrite v))

def execOverflowRead (init : Initiator) (v : Word) (s : State) : Host.Outcome State Fault Refusal :=
  .next (s.cmdWrite init Reg.MACT_OCMD v (ocmdWrite v))

/-! The LPM table (R304-R310). -/

/-- Word w of LPM row r. -/
def State.lpw (s : State) (r w : Nat) : Word := s.tw (0x400000 + 32 * r + 4 * w)

/-- Row r is valid; its KIND, PLAN and LEN. -/
def State.lpValid (s : State) (r : Nat) : Bool := bitOf (s.lpw r 7) 31
def State.lpKind (s : State) (r : Nat) : Nat := fld (s.lpw r 7) 30 29
def State.lpLen (s : State) (r : Nat) : Nat := fld (s.lpw r 3) 7 0

/-- Rows that are valid, ascending. -/
def State.lpListed (s : State) : List Nat :=
  (s.tab.filter (fun p => decide (0x400000 ≤ p.1) && decide (p.1 < 0x420000) && p.1 % 32 == 28 && bitOf p.2 31)).map
    (fun p => (p.1 - 0x400000) / 32)

/-- a and b agree in their top len of n bits. -/
def topEq (n len a b : Nat) : Bool := a / 2 ^ (n - len) == b / 2 ^ (n - len)

/-- The row an IPv4 address matches under a plan (R306). -/
def State.lpm4 (s : State) (split plan addr : Nat) : Option Nat :=
  s.lpListed.find? (fun r => decide (r < split) && s.lpKind r == 0 && bitOf (s.lpw r 7) (16 + plan)
    && decide (s.lpLen r ≤ 32) && topEq 32 (s.lpLen r) (s.lpw r 0).toNat addr)

/-- The 128-bit KEY of group g. -/
def State.lpKey6 (s : State) (g : Nat) : Nat :=
  (((s.lpw g 0).toNat * 2 ^ 32 + (s.lpw (g + 1) 0).toNat) * 2 ^ 32 + (s.lpw (g + 2) 0).toNat) * 2 ^ 32 + (s.lpw (g + 3) 0).toNat

/-- The four rows of group g are valid with their KINDs. -/
def State.lpGroup (s : State) (g : Nat) : Bool :=
  s.lpValid g && s.lpKind g == 1 && (List.range 3).all (fun k => s.lpValid (g + 1 + k) && s.lpKind (g + 1 + k) == 2)

/-- The head row an IPv6 address matches under a plan (R306). -/
def State.lpm6 (s : State) (split plan addr : Nat) : Option Nat :=
  s.lpListed.find? (fun g => decide (split ≤ g) && g % 4 == 0 && s.lpGroup g && bitOf (s.lpw g 7) (16 + plan)
    && decide (s.lpLen g ≤ 128) && topEq 128 (s.lpLen g) (s.lpKey6 g) addr)

/-- Copy the eight words of row a to row b, the VALID word last. -/
def State.lpCopy (s : State) (a b : Nat) : State :=
  (List.range 8).foldl (fun t w => t.setTw (0x400000 + 32 * b + 4 * w) (t.lpw a w)) s

/-- Clear the VALID word of row a. -/
def State.lpClear (s : State) (a : Nat) : State := s.setTw (0x400000 + 32 * a + 28) 0

/-- A move is refused (R309). -/
def State.lpRefused (s : State) (src dst : Nat) : Bool :=
  let split := s.rf Reg.LPM_CTL 27 16
  let six := decide (split ≤ src)
  let k := if six then 4 else 1
  s.rb Reg.LPM_MVSTAT 31 || (decide (src < split) != decide (dst < split))
    || (six && (src % 4 != 0 || dst % 4 != 0))
    || !(List.range k).all (fun i => s.lpValid (src + i))
    || (List.range k).any (fun i => s.lpValid (dst + i))

/-- A write of LPM_MOVE (R309). -/
def lpmMoveWrite (v : Word) (s : State) : State :=
  let dst := fld v 27 16
  let src := fld v 11 0
  if !bitOf v 31 then s
  else if s.lpRefused src dst then s.ist Reg.pgLPM 1
  else
    let k := if s.rf Reg.LPM_CTL 27 16 ≤ src then 4 else 1
    let rows := (List.range k).reverse
    let s := rows.foldl (fun t i => t.lpCopy (src + i) (dst + i)) s
    ((List.range k).foldl (fun t i => t.lpClear (src + i)) s).wb Reg.LPM_MVSTAT 31 true

/-- The first break of the order or format in a region, over its rows (R307): code and row. prev: the last valid length. -/
def State.lpScan (s : State) (six : Bool) : List Nat → Option Nat → Option (Nat × Nat)
  | [], _ => none
  | r :: rest, prev =>
    if six && r % 4 != 0 then
      let h := r - r % 4
      if s.lpValid r && s.lpKind r != 2 then some (1, r)
      else if s.lpValid r && !s.lpValid h then some (3, r)
      else s.lpScan six rest prev
    else if !s.lpValid r then s.lpScan six rest prev
    else if s.lpKind r != (if six then 1 else 0) then some (1, r)
    else if (if six then 128 else 32) < s.lpLen r then some (2, r)
    else if six && !(List.range 3).all (fun k => s.lpValid (r + 1 + k)) then some (3, r)
    else if (match prev with | some l => decide (l < s.lpLen r) | none => false) then some (0, r)
    else s.lpScan six rest (some (s.lpLen r))

/-- The result of a scan of both regions as LPM_CHKSTAT holds it. -/
def State.lpCheck (s : State) : Word :=
  let split := s.rf Reg.LPM_CTL 27 16
  let rows := s.lpListed
  match (s.lpScan false (rows.filter (· < split)) none).orElse
      (fun _ => s.lpScan true (rows.filter (fun r => decide (split ≤ r))) none) with
  | none => 0
  | some (c, r) => BitVec.ofNat 32 (2 ^ 30 + c * 2 ^ 28 + r)

/-- A write of LPM_CHECK (R307). -/
def lpmCheckWrite (v : Word) (s : State) : State :=
  if bitOf v 0 then (s.setSw { s.sw with lpmChk := some s.lpCheck }).wb Reg.LPM_CHKSTAT 31 true else s

def execLpmMove (init : Initiator) (v : Word) (s : State) : Host.Outcome State Fault Refusal :=
  .next (s.cmdWrite init Reg.LPM_MOVE v (lpmMoveWrite v))

/-- LPM_MOVE_DONE (R309). -/
def execLpmMoveDone (s : State) : Host.Outcome State Fault Refusal :=
  .next (if s.rb Reg.LPM_MVSTAT 31 then (s.wb Reg.LPM_MVSTAT 31 false).ist Reg.pgLPM 0 else s)

def execLpmCheck (init : Initiator) (v : Word) (s : State) : Host.Outcome State Fault Refusal :=
  .next (s.cmdWrite init Reg.LPM_CHECK v (lpmCheckWrite v))

/-- LPM_CHECK_DONE (R307). -/
def execLpmCheckDone (s : State) : Host.Outcome State Fault Refusal :=
  match s.sw.lpmChk with
  | none => .next s
  | some w => .next (((s.setSw { s.sw with lpmChk := none }).wr Reg.LPM_CHKSTAT w).ist Reg.pgLPM 2)

end Sys2Proof.Machine
end

