-- ==== Sys2Proof/Machine/Switch.lean ====
section
/-! DEFINITION. The switch core (09_switch_core.md R254-R268, R278, R280-R286): the buffer and its pools, ingress processing,
stream filters, policers, forwarding (10_forwarding_tables.md R289-R308), drop profiles, admission and enqueue. -/
namespace Sys2Proof.Machine

/-! Ports. -/

/-- The link of port p is up. -/
def State.ethLink (s : State) (p : Nat) : Bool := s.rb (Reg.EMAC_STAT p) 31

/-- Port p is in HOLD (R248). -/
def State.ethHold (s : State) (p : Nat) : Bool := !s.ethLink p && s.rf (Reg.EMAC_STAT p) 30 29 == 1

/-- Port p takes no frame: DOWN, or no link since reset (R249, log entry 18). -/
def State.ethDown (s : State) (p : Nat) : Bool := !s.ethLink p && !s.ethHold p

/-- Speed of a SPEED code in Mb/s. -/
def speedMb (c : Nat) : Nat :=
  match c with
  | 1 => 10
  | 2 => 100
  | 3 => 1000
  | 4 => 2500
  | 5 => 5000
  | 6 => 10000
  | _ => 0

/-- Rate in use of port p in Mb/s. -/
def State.ethRate (s : State) (p : Nat) : Nat := speedMb (s.rf (Reg.EMAC_STAT p) 7 4)

/-- E3 is the pair link (R509). -/
def State.pairOn (s : State) : Bool := s.rb Reg.PAIR_CTL 0 && s.rf (Reg.EMAC_CFG 3) 2 0 == 1

/-! Counters. -/

/-- Ingress counter k of port p (R285). -/
def State.swIngCount (s : State) (p k : Nat) : State :=
  let old := amGetD 0 s.sw.icnt (4 * p + k)
  (s.setSw { s.sw with icnt := amSet 0 s.sw.icnt (4 * p + k) ((old + 1) % 2 ^ 32) }).istIf
    (decide (old + 1 = 2 ^ 31)) Reg.pgSWC 1

/-- Drop counter k of egress port p (R286); the DROP record's cause code is a free value (log entry 1). -/
def State.swDrop (s : State) (p k n : Nat) : State :=
  let old := amGetD 0 s.sw.dcnt (16 * p + k)
  let s := (s.setSw { s.sw with dcnt := amSet 0 s.sw.dcnt (16 * p + k) ((old + n) % 2 ^ 32) }).istIf
    (decide (old < 2 ^ 31) && decide (2 ^ 31 ≤ old + n)) Reg.pgQMG 7
  let (w, s) := s.draw
  s.traceDrop p 2 (w.toNat % 256) p

/-! Cells and pools (R255, R263, R264). -/

/-- Cells of a frame of b bytes without FCS. -/
def swCells (b : Nat) : Nat := (b + 4 + 127) / 128

/-- Stored frame f. -/
def State.frameOf (s : State) (f : Nat) : Option SwFrame := amGet s.sw.frames f

/-- Store a frame. -/
def State.setFrame (s : State) (i : Nat) (f : SwFrame) : State := s.setSw { s.sw with frames := amPut s.sw.frames i f }

/-- used(q) of queue k. -/
def State.qUsed (s : State) (k : Nat) : Nat := s.cellSum (fun f => match f.charge with | some (q, _) => q == k | none => false)

/-- shr(q) of queue k. -/
def State.qShr (s : State) (k : Nat) : Nat := s.cellSum (fun f => f.charge == some (k, .shared))

/-- rsv_used of port p. -/
def State.rsvUsed (s : State) (p : Nat) : Nat :=
  s.cellSum (fun f => match f.charge with | some (q, .port) => q / 8 == p | _ => false)

/-- PEAK of QMG_OCC follows. -/
def State.occPeak (s : State) : State := s.wf Reg.QMG_OCC 31 16 (max (s.rf Reg.QMG_OCC 31 16) s.cellsUsed)

/-- Queue k. -/
def State.queueOf (s : State) (k : Nat) : List SwCopy := amGetD [] s.sw.queues k

/-- Replace queue k; the time its head became the head is kept, restarted or ended (R281). -/
def State.setQueue (s : State) (k : Nat) (l : List SwCopy) : State :=
  let old := (s.queueOf k).head?.map (fun c => c.fid)
  let new : Option Nat := l.head?.map (fun c => c.fid)
  let h := if new.isNone then amDel s.sw.headAt k else if new = old then s.sw.headAt else amPut s.sw.headAt k s.now
  s.setSw { s.sw with queues := amSet [] s.sw.queues k l, headAt := h }

/-- The queues, lowest port first, that hold a copy of frame f. -/
def State.holders (s : State) (f : Nat) : List Nat :=
  (s.sw.queues.filter (fun p => p.2.any (fun c => c.fid == f))).map (·.1)

/-- Port p sends the copy of frame i that it took from queue k. -/
def State.sends (s : State) (i k : Nat) : Bool :=
  match (s.emacOf (k / 8)).tx with
  | some t => t.fid == i && t.key == k
  | none => false

/-- The queue of the remaining copy of frame i, of class c, with the lowest egress port: queued or in transmission (R264). -/
def State.firstCopy (s : State) (i c : Nat) : Option Nat :=
  ((List.range 18).find? (fun p => (s.queueOf (8 * p + c)).any (fun d => d.fid == i) || s.sends i (8 * p + c))).map
    (fun p => 8 * p + c)

/-! Pause requests (R267). -/

/-- On-chip cells of frames received on port p in class c; c = 8: in all classes. -/
def State.pauseCells (s : State) (p c : Nat) : Nat := s.cellSum (fun f => f.port == p && (c == 8 || f.tc == c))

/-- The requests of port p after its counts changed. -/
def State.pauseAsk (s : State) (p : Nat) : State :=
  let m := s.rf (Reg.EMAC_FC p) 1 0
  let cs := if m = 1 then [8] else if m = 2 then List.range 8 else []
  if 11 < p then s
  else
    let e := s.emacOf p
    let xoff := s.rf (Reg.QMG_PFC p) 31 16
    let xon := s.rf (Reg.QMG_PFC p) 15 0
    let ask := cs.filter (fun c =>
      let n := s.pauseCells p c
      decide (xoff < n) || (e.ask.contains c && decide (xon < n)))
    s.setEmac p { e with ask := ask }

/-- The request of the ingress port for class c stands (R263, R268). -/
def State.pauseStands (s : State) (p c : Nat) : Bool :=
  decide (p ≤ 11) && ((s.emacOf p).ask.contains c || (s.emacOf p).ask.contains 8)

/-! Pause watchdog (R246). -/

/-- Frames wait in class c of port p; c = 8: in any class. -/
def State.waiting (s : State) (p c : Nat) : Bool :=
  if c = 8 then (List.range 8).any (fun k => !(s.queueOf (8 * p + k)).isEmpty) else !(s.queueOf (8 * p + c)).isEmpty

/-- The watchdogs of port p run while a class is paused and holds a frame. -/
def State.wdSync (s : State) (p : Nat) : State :=
  if 13 < p then s
  else
    let e := s.emacOf p
    let wd := (List.range 9).filterMap (fun c =>
      if s.pausedNow p c && s.waiting p c then some (c, (amGet e.wd c).getD s.now) else none)
    s.setEmac p { e with wd := wd }

/-! Credit-based shaper (R276). -/

/-- idleSlope of class c at port p in kb/s. -/
def State.idleSlope (s : State) (p c : Nat) : Nat := s.rf (Reg.SWC_ISLOPE p c) 23 0

/-- Class c of port p is shaped. -/
def State.cbsOn (s : State) (p c : Nat) : Bool := decide (p < 14) && s.rb (Reg.SWC_CBSEN p) c

/-- hiCredit of class c in 10^-6 bit (log entry 19). -/
def State.hiCredit (s : State) (p c : Nat) : Int :=
  let hs := (List.range 8).filter (fun k => decide (c < k) && s.cbsOn p k)
  let r := s.ethRate p * 1000
  let ih := (hs.map (s.idleSlope p)).sum
  let m := s.rf (Reg.EMAC_MAXFRM p) 13 0 * 8 * 1000000
  let i := s.idleSlope p c
  if r ≤ ih then 0 else ((i * m / (r - ih) + (if hs.isEmpty then 0 else i * m / r) : Nat) : Int)

/-- loCredit of class c in 10^-6 bit. -/
def State.loCredit (s : State) (p c : Nat) : Int :=
  let r := s.ethRate p * 1000
  if r = 0 then 0
  else -(((s.rf (Reg.EMAC_MAXFRM p) 13 0 * 8 * 1000000 * (r - s.idleSlope p c) / r : Nat)) : Int)

/-- Bring the credit of class c at port p up to now. -/
def State.cbsSync (s : State) (p c : Nat) : State :=
  if !s.cbsOn p c then s
  else
    let e := s.emacOf p
    let cr := (amGet e.credit c).getD (0, s.now)
    let dt : Int := ((s.now - cr.2 : Nat) : Int)
    let idle : Int := (s.idleSlope p c : Nat)
    let sending : Bool := match e.tx with
      | some t => t.key == 8 * p + c
      | none => false
    let x := if sending then max (s.loCredit p c) (cr.1 + (idle - ((s.ethRate p * 1000 : Nat) : Int)) * dt)
      else if s.waiting p c then min (s.hiCredit p c) (cr.1 + idle * dt)
      else min 0 (cr.1 + idle * dt)
    s.setEmac p { e with credit := amPut e.credit c (x, s.now) }

/-- The credit of class c. -/
def State.cbsCredit (s : State) (p c : Nat) : Int := ((amGet (s.emacOf p).credit c).getD (0, 0)).1

/-! Ends of copies. -/

/-- The result of a host frame's descriptor (R398). -/
def State.ethResult (s : State) (f : SwFrame) (code : Nat) (stamp : Option Nat) : State :=
  match f.hq with
  | some (q, d) => s.txResult q d code stamp
  | none => s

/-- One copy of frame i is gone: the cells are freed with the last one, else the charge moves where it was this queue's
(R256, R264). k: the queue the copy was in. -/
def State.freeCopy (s : State) (i k : Nat) : State :=
  match s.frameOf i with
  | none => s
  | some f =>
    let s := if f.refs ≤ 1 then s.setSw { s.sw with frames := amDel s.sw.frames i }
      else
        let ch := match f.charge with
          | some (q, o) => if q = k then some ((s.firstCopy i f.tc).getD q, o) else some (q, o)
          | none => none
        s.setFrame i { f with refs := f.refs - 1, charge := ch }
    s.pauseAsk f.port

/-- Copy c of queue k is dropped: removed and freed; a DIRECT frame that asked for a stamp reports DROP (R398). -/
def State.dropQueued (s : State) (k : Nat) (c : SwCopy) : State :=
  let s := match s.frameOf c.fid with
    | some f => if f.tsreq then s.ethResult f 0x21 none else s
    | none => s
  ((s.setQueue k ((s.queueOf k).filter (fun d => d.fid != c.fid))).freeCopy c.fid k).wdSync (k / 8)

/-! Fields of a frame. -/

/-- The frame bytes carry an 802.1Q tag. -/
def hasTag (b : List Byte) : Bool := beAt b 12 2 == 0x8100

/-- Position of the EtherType after at most one tag. -/
def typeAt (b : List Byte) : Nat := if hasTag b then 16 else 12

/-- The frame without its tag. -/
def untagged (b : List Byte) : List Byte := if hasTag b then b.take 12 ++ b.drop 16 else b

/-- The frame with a tag of the given fields. -/
def withTag (b : List Byte) (pcp : Nat) (dei : Bool) (vid : Nat) : List Byte :=
  b.take 12 ++ [0x81, 0x00] ++ beBytes 2 (pcp * 8192 + dei.toNat * 4096 + vid) ++ (untagged b).drop 12

/-- A copy of frame f as it leaves external port p (R292); a DIRECT frame leaves as it is. -/
def egressBytes (f : SwFrame) (p : Nat) : List Byte :=
  if f.direct.isSome then f.bytes
  else if nbit f.untag p then untagged f.bytes
  else withTag f.bytes f.pcp f.dei f.vid

/-- A copy for an internal port: its tag as received, or one with its VID (R292). -/
def internalBytes (f : SwFrame) : List Byte :=
  if f.tagged then (if f.routed then withTag f.bytes f.pcp f.dei f.vid else f.bytes) else withTag f.bytes f.pcp f.dei f.vid

/-! Stream filters and policers (R260, R261). -/

/-- Filter words ws match frame f. -/
def filterMatch (f : SwFrame) (ws : List Word) : Bool :=
  match ws with
  | [w0, w1, w2, _] =>
    bitOf w2 31 && bitOf w2 f.port && bitOf w2 (20 + f.pcp)
      && (!bitOf w2 30 || beAt f.bytes 0 6 == fld w1 15 0 * 2 ^ 32 + w0.toNat)
      && (!bitOf w2 29 || f.vid == fld w1 27 16)
  | _ => false

/-- Policer i. -/
def State.polOf (s : State) (i : Nat) : Policer := amGetD {} s.sw.pol i

/-- Set policer i. -/
def State.setPol (s : State) (i : Nat) (p : Policer) : State := s.setSw { s.sw with pol := amSet {} s.sw.pol i p }

/-- Buckets filled up to now. -/
def Policer.fill (p : Policer) (now : Nat) : Policer :=
  { p with
    tc := min (p.cbs * 8000000) (p.tc + p.cir * (now - p.at_))
    tp := min (p.pbs * 8000000) (p.tp + p.pir * (now - p.at_))
    at_ := now }

/-- Colour b bytes: 0 green, 1 yellow, 2 red, and the policer charged (R261); aware: colour-aware with DEI = 1. -/
def Policer.colour (p : Policer) (b : Nat) (aware : Bool) : Nat × Policer :=
  let n := b * 8000000
  if p.tp < n then (2, p)
  else if aware || decide (p.tc < n) then (1, { p with tp := p.tp - n })
  else (0, { p with tp := p.tp - n, tc := p.tc - n })

/-- Police a frame at policer i: the state with its counts, the colour, and whether the frame is dropped (R261). -/
def State.police (s : State) (i : Nat) (f : SwFrame) : State × Nat × Bool :=
  let ctl := s.cfg f.epoch Reg.POL_CTL
  if !bitOf ctl 0 then (s, 0, false)
  else
    let b := f.bytes.length + 4 + (if bitOf ctl 2 then 20 else 0)
    let aware := f.dei && bitOf (s.cfg f.epoch Reg.POL_CAWARE) f.port
    let r := ((s.polOf i).fill s.now).colour b aware
    let old := natAt_ r.2.cnt r.1
    let p := { r.2 with cnt := lset r.2.cnt r.1 ((old + 1) % 2 ^ 32) }
    ((s.setPol i p).istIf (decide (old + 1 = 2 ^ 31)) Reg.pgPOL 0, r.1, r.1 == 2 && p.red)
where
  natAt_ (l : List Nat) (i : Nat) : Nat := match l[i]? with | some x => x | none => 0

/-- Steps 4 and 5 of R258; none: the frame is dropped. -/
def State.filterStep (s : State) (f : SwFrame) : State × Option SwFrame :=
  if !bitOf (s.cfg f.epoch Reg.POL_CTL) 1 then (s, some f)
  else match s.sw.filt.find? (fun e => filterMatch f e.2) with
    | none => (s, some f)
    | some (i, ws) =>
      let w3 := match ws[3]? with | some w => w | none => 0
      let old := amGetD 0 s.sw.fmatch i
      let s := (s.setSw { s.sw with fmatch := amSet 0 s.sw.fmatch i ((old + 1) % 2 ^ 32) }).istIf
        (decide (old + 1 = 2 ^ 31)) Reg.pgPOL 0
      if fld w3 31 18 ≠ 0 ∧ fld w3 31 18 < f.bytes.length + 4 then (s.swIngCount f.port 0, none)
      else
        let f := { f with filt := true, tc := if bitOf w3 16 then fld w3 15 13 else f.tc }
        if bitOf w3 17 then
          let (s, col, drop) := s.police (fld w3 9 0) f
          if drop then (s.swIngCount f.port 1, none)
          else
            let mark := bitOf (s.cfg f.epoch Reg.POL_CTL) 3 && col != 0
            (s, some { f with colour := col, dei := f.dei || mark })
        else (s, some f)

/-! Lookup (R289-R291, R296, R305-R308). -/

/-- The mask with the ports of R291 kept. -/
def State.reduce (s : State) (f : SwFrame) (mask : Nat) (bridged : Bool) : Nat :=
  let m := mask &&& (s.vlanOf f.vid).member &&& 0x1FFFF &&& f.only
  let m := if bridged then nsetBit m f.port false else m
  if s.pairOn then nsetBit m 3 false else m

/-- An egress set after R291; an empty one is counted. -/
def State.fwdSet (s : State) (f : SwFrame) (mask : Nat) (bridged : Bool) : State × Option (SwFrame × Nat) :=
  let m := s.reduce f mask bridged
  if m = 0 then (s.bump Reg.MACT_NODEST 1 5, none) else (s, some (f, m))

/-- The frame goes to the exception port (R305, R308). -/
def State.fwdExc (s : State) (f : SwFrame) : State × Option (SwFrame × Nat) :=
  s.fwdSet f (if bitOf (s.cfg f.epoch Reg.LPM_CTL) 2 then 2 ^ 14 else 2 ^ 16) false

/-- One's-complement sum of the 16-bit words of bytes. -/
def onesSum : List Byte → Nat
  | [] => 0
  | [a] => a.toNat * 256
  | a :: b :: r =>
    let x := a.toNat * 256 + b.toNat + onesSum r
    if x < 65536 then x else x - 65535

/-- Incremental update of a checksum field when a 16-bit word changes from m to m'. -/
def csumUpdate (hc m m' : Nat) : Nat :=
  let x := (0xFFFF - hc) + (0xFFFF - m) + m'
  let x := x % 65536 + x / 65536
  let x := x % 65536 + x / 65536
  0xFFFF - x

/-- The frame rewritten for its next hop (R308). -/
def State.routedFrame (s : State) (f : SwFrame) (row : Nat) (o : Nat) (four : Bool) : SwFrame :=
  let w2 := s.lpw row 2
  let da := beBytes 2 (fld w2 15 0) ++ beBytes 4 (s.lpw row 1).toNat
  let sa := beBytes 2 (fld (s.cfg f.epoch Reg.LPM_RMAC_HI) 15 0) ++ beBytes 4 (s.cfg f.epoch Reg.LPM_RMAC_LO).toNat
  let b := overwrite f.bytes 0 (da ++ sa)
  let b := if four then
      let m := beAt b (o + 8) 2
      overwrite (overwrite b (o + 8) (beBytes 2 (m - 256))) (o + 10) (beBytes 2 (csumUpdate (beAt b (o + 10) 2) m (m - 256)))
    else overwrite b (o + 7) [BitVec.ofNat 8 (byteAt b (o + 7) - 1)]
  { f with bytes := b, vid := fld w2 27 16, routed := true }

/-- A frame to the router address (R305-R308). -/
def State.route (s : State) (f : SwFrame) : State × Option (SwFrame × Nat) :=
  let o := typeAt f.bytes + 2
  let et := beAt f.bytes (o - 2) 2
  let v := byteAt f.bytes o / 16
  let four := et == 0x0800 && v == 4
  let six := et == 0x86DD && v == 6
  let exc := fun (t : State) => (t.bump Reg.LPM_EXC 1 4).fwdExc f
  if !four && !six then exc s
  else
    let ihl := byteAt f.bytes o % 16
    if four && (decide (byteAt f.bytes (o + 8) ≤ 1) || decide (ihl < 5) || onesSum ((f.bytes.drop o).take (4 * ihl)) != 0xFFFF)
    then exc s
    else if six && decide (byteAt f.bytes (o + 7) ≤ 1) then exc s
    else
      let ctl := s.cfg f.epoch Reg.LPM_CTL
      let plan := s.cf f.epoch Reg.CHIP_PLAN 1 0
      let hit := if four then s.lpm4 (fld ctl 27 16) plan (beAt f.bytes (o + 16) 4)
        else s.lpm6 (fld ctl 27 16) plan (beAt f.bytes (o + 24) 16)
      match hit with
      | none =>
        let s := s.bump Reg.LPM_MISS 1 4
        if bitOf ctl 1 then s.fwdExc f else (s, none)
      | some row =>
        match fld (s.lpw row 2) 31 30 with
        | 0 =>
          let g := s.routedFrame f row o four
          let vl := s.vlanOf g.vid
          match (if vl.valid then s.mtFind (vl.fid * 2 ^ 48 + beAt g.bytes 0 6) else none) with
          | some i =>
            if s.mtDrop i then (s.bump Reg.MACT_NODEST 1 5, none)
            else if s.mtMc i then (s.bump Reg.LPM_NHMISS 1 4).fwdExc f
            else
              let d := s.mtDest i % 32
              let r := s.fwdSet g (if d ≤ 16 then 2 ^ d else 0) false
              match r.2 with
              | some _ => (r.1.bump Reg.LPM_ROUTED 1 4, r.2)
              | none => r
          | none => (s.bump Reg.LPM_NHMISS 1 4).fwdExc f
        | 1 => s.fwdExc f
        | _ => (s, none)

/-- The VLAN checks of R289. -/
def State.vlanOk (s : State) (f : SwFrame) : Bool :=
  let w := s.cfg f.epoch (Reg.MACT_PCFG f.port)
  let tv := beAt f.bytes 14 2 % 4096
  let vt := f.tagged && tv != 0
  let acc := fld w 13 12
  let e := s.vlanOf f.vid
  !(f.tagged && tv == 4095) && e.valid && !(acc == 1 && !vt) && !(acc == 2 && vt) && (!bitOf w 14 || nbit e.member f.port)

/-- Step 6 of R258: the frame, rewritten where it is routed, and its egress set; none where it is dropped. -/
def State.lookup (s : State) (f : SwFrame) : State × Option (SwFrame × Nat) :=
  let da := beAt f.bytes 0 6
  let e := s.vlanOf f.vid
  let rmac := fld (s.cfg f.epoch Reg.LPM_RMAC_HI) 15 0 * 2 ^ 32 + (s.cfg f.epoch Reg.LPM_RMAC_LO).toNat
  if da / 16 = 0x0180C200000 then
    s.fwdSet f (if bitOf (s.cfg f.epoch Reg.MACT_CTL) 1 then 2 ^ 14 else 2 ^ 16) true
  else if da = rmac ∧ bitOf (s.cfg f.epoch Reg.LPM_CTL) 0 ∧ e.route then s.route f
  else match s.mtFind (e.fid * 2 ^ 48 + da) with
    | some i =>
      if s.mtDrop i then (s.bump Reg.MACT_NODEST 1 5, none)
      else if s.mtMc i then s.fwdSet f (s.mtDest i) true
      else
        let d := s.mtDest i % 32
        s.fwdSet f (if d ≤ 16 then 2 ^ d else 0) true
    | none => (if nbit da 40 then s else s.bump Reg.MACT_UNKFLOOD 1 5).fwdSet f 0x1FFFF true

/-! Drop profiles and admission (R263, R266). -/

/-- P of R266 for colour col of the profile at words base, average a. -/
def State.wredP (s : State) (e j col a : Nat) : Nat :=
  let mx := s.cf e (Reg.QMG_WRED j (1 + 2 * col)) 31 16
  let mn := s.cf e (Reg.QMG_WRED j (1 + 2 * col)) 15 0
  let mp := s.cf e (Reg.QMG_WRED j (2 + 2 * col)) 7 0
  if mx = 0 then 0 else if a < mn then 0 else if mx ≤ a then 65536 else mp * 256 * (a - mn) / (mx - mn)

/-- The average of queue k updated for an admission, and whether the copy is dropped (R266). -/
def State.wred (s : State) (f : SwFrame) (k : Nat) : State × Bool :=
  let j := s.cf f.epoch (Reg.QMG_WMAP (k / 8)) (4 * (k % 8) + 3) (4 * (k % 8))
  let w := s.cf f.epoch (Reg.QMG_WRED j 0) 3 0
  let th := ((s.queueOf k).map (fun c => match s.frameOf c.fid with | some g => if g.spilled then g.cells else 0 | none => 0)).sum
  let depth := s.qUsed k + th
  let avg := amGetD 0 s.sw.avg k
  let new := ((avg : Int) + Int.fdiv (((depth * 256 : Nat) : Int) - (avg : Int)) ((2 ^ w : Nat) : Int)).toNat
  let s := s.setSw { s.sw with avg := amSet 0 s.sw.avg k new }
  let p := s.wredP f.epoch j f.colour (new / 256)
  if p = 0 then (s, false)
  else if 65536 ≤ p then (s, true)
  else
    let (r, s) := s.draw
    (s, decide (r.toNat % 65536 < p))

/-- The internal reserve of port p in cells. -/
def State.irsv (s : State) (e p : Nat) : Nat :=
  if p = 14 then 16 * s.cf e Reg.QMG_IRSV 9 0 else if p = 16 then 16 * s.cf e Reg.QMG_IRSV 19 10
  else if p = 17 then 16 * s.cf e Reg.QMG_IRSV 29 20 else 0

/-- The total of R263: shared and headroom cells in use with Thicket use, and n more. -/
def State.totalFits (s : State) (n : Nat) : Bool :=
  decide (s.poolUsed .shared + s.poolUsed .headroom + s.tktUsed + n ≤ 49152)

/-- The pool that admits need n of frame f to queue k (R263). -/
def State.admitTo (s : State) (f : SwFrame) (k n : Nat) : Option Pool :=
  let p := k / 8
  let lim := s.cfg f.epoch (Reg.QMG_QLIM p)
  let sf := s.sfree
  if s.qUsed k + n ≤ fld lim 9 0 then some .reserve
  else if (p = 14 ∨ p = 16 ∨ p = 17) ∧ s.rsvUsed p + n ≤ s.irsv f.epoch p then some .port
  else if !s.totalFits n then none
  else if n ≤ sf ∧ (s.qShr k + n) * 64 ≤ 2 ^ (min 9 (fld lim 31 28)) * sf then some .shared
  else if s.pauseStands f.port f.tc && decide (n + s.poolUsed .headroom ≤ s.cf f.epoch Reg.QMG_HDRM 15 0) then some .headroom
  else none

/-- The need of a frame (R263). -/
def State.need (s : State) (f : SwFrame) : Nat :=
  if f.port < 14 then (s.cf f.epoch (Reg.EMAC_MAXFRM f.port) 13 0 + 127) / 128 else swCells f.bytes.length

/-- Frame i enters queue k from pool o: the first admitted copy is charged (R264). -/
def State.enqueueEth (s : State) (i k : Nat) (o : Pool) (ct : Bool) : State :=
  match s.frameOf i with
  | none => s
  | some f =>
    let s := s.cbsSync (k / 8) (k % 8)
    let s := s.setFrame i { f with refs := f.refs + 1, charge := if f.charge.isNone then some (k, o) else f.charge }
    ((s.setQueue k (s.queueOf k ++ [{ fid := i, ct := ct }])).wdSync (k / 8)).occPeak

/-- Copies that are digested come from external ports or Bramble (R516). -/
def State.digestEth (s : State) (f : SwFrame) (p : Nat) (b : List Byte) : State :=
  if p < 14 ∧ p ≠ 3 ∧ (f.port < 14 ∨ f.port = 15) then s.digest (24 + p) f.bin b else s

/-- Cut-through of a copy to queue k (R278). -/
def State.cutThrough (s : State) (f : SwFrame) (k : Nat) : Bool :=
  let ct := s.force Reg.SWC_FWDCTL
  decide (f.port < 14) && decide (k / 8 < 14) && bitOf ct f.port && bitOf ct (k / 8) && !f.filt && !f.wasGated
    && decide (s.ethRate (k / 8) ≤ s.ethRate f.port) && (s.queueOf k).isEmpty

/-- Step 7 and 8 of R258 for one egress port p: link state, length, drop profile, admission, enqueue; the flag says the copy
was admitted. In STANDBY a copy to an external port is digested and dropped (R512). -/
def State.copyEth (s : State) (i p : Nat) : State × Bool :=
  match s.frameOf i with
  | none => (s, false)
  | some f =>
    let k := 8 * p + f.tc
    let b := if p < 14 then egressBytes f p else internalBytes f
    if p < 14 ∧ s.ethDown p then (s.bump (Reg.EMAC_LDDROP p) 1 7, false)
    else if p < 14 ∧ f.lso.isNone ∧ s.rf (Reg.EMAC_MAXFRM p) 13 0 < b.length + 4 then (s.bump Reg.MACT_EGLEN 1 5, false)
    else
      let (s, drop) := s.wred f k
      if drop then ((s.swDrop p 1 1).ist Reg.pgQMG 1, false)
      else match s.admitTo f k (s.need f) with
        | none => ((s.swDrop p 0 1).ist Reg.pgQMG 0, false)
        | some o =>
          let s := s.digestEth f p b
          if p < 14 ∧ s.standby then (s, false)
          else (s.enqueueEth i k o (s.cutThrough f k), true)

/-- All copies of frame i in ascending egress port number; the flag says that one was admitted. -/
def State.copiesEth (s : State) (i : Nat) : List Nat → Bool → State × Bool
  | [], a => (s, a)
  | p :: r, a =>
    let (s, b) := s.copyEth i p
    s.copiesEth i r (a || b)

/-! Ingress (R258, R259). -/

/-- Learning at the end of a frame (R297). -/
def State.learnFrame (s : State) (f : SwFrame) : State :=
  let sa := beAt f.bytes 6 6
  let e := s.vlanOf f.vid
  if bitOf (s.cfg f.epoch Reg.MACT_CTL) 0 && bitOf (s.cfg f.epoch (Reg.MACT_PCFG f.port)) 15 && e.learn && !nbit sa 40 && sa != 0
  then s.learnPush f.port e.fid sa else s

/-- VID, PCP and DEI of a frame with its class (R254, R258 step 3, R289). An untagged frame of an internal port has a free
PCP. -/
def State.classify (s : State) (f : SwFrame) : State × SwFrame :=
  let tci := beAt f.bytes 14 2
  let tg := hasTag f.bytes
  let map := s.cfg f.epoch (Reg.SWC_PCPMAP f.port)
  let (s, pcp) := if tg then (s, tci / 8192)
    else if f.port < 14 then (s, fld map 26 24)
    else
      let (w, s) := s.draw
      (s, w.toNat % 8)
  let vid := if tg && tci % 4096 != 0 then tci % 4096 else s.cf f.epoch (Reg.MACT_PCFG f.port) 11 0
  let tc := if f.port < 14 then fld map (3 * pcp + 2) (3 * pcp) else f.tc
  (s, { f with tagged := tg, pcp := pcp, dei := tg && nbit tci 12, vid := vid, tc := tc })

/-- The Thicket conditions of an epoch. -/
def State.tktSet (s : State) (e : Nat) : Word × Word × Word := (s.cfg e Reg.TKT_CTL, s.cfg e Reg.TKT_THR, s.cfg e Reg.TKT_QLIM)

/-- Steps 3 to 8 of R258 for a frame stored under i; learn: it passed its receive checks. Host frames get their result
(R398). The frame's cells are freed where no copy was admitted. -/
def State.forwardEth (s : State) (i : Nat) (learn : Bool) : State :=
  match s.frameOf i with
  | none => s
  | some f0 =>
    let (s, f1) := s.classify f0
    let drop := fun (t : State) => (t.setSw { t.sw with frames := amDel t.sw.frames i }).ethResult f0 0x21 none
    match s.filterStep f1 with
    | (s, none) => (drop s).pauseAsk f0.port
    | (s, some f) =>
      let vok := f.direct.isSome || s.vlanOk f
      let s := if vok then s else s.bump Reg.MACT_VDROP 1 5
      let (s, r) : State × Option (SwFrame × Nat) := match f.direct with
        | some p => (s, some (f, 2 ^ p))
        | none => if vok then s.lookup f else (s, none)
      let s := if learn && vok && f.direct.isNone then s.learnFrame f else s
      match r with
      | none => (drop s).pauseAsk f0.port
      | some (g, m) =>
        let g := { g with untag := (s.vlanOf g.vid).untag, tkt := s.tktSet g.epoch }
        let s := s.setFrame i g
        let (s, a) := s.copiesEth i (setBits m 18) false
        let s := if a then s else s.setSw { s.sw with frames := amDel s.sw.frames i }
        let s := if g.tsreq && a then s else s.ethResult g (if a then 0 else 0x21) none
        let ct := (setBits m 18).any (fun p => (s.queueOf (8 * p + g.tc)).any (fun c => c.fid == i && c.ct))
        (if ct then s.swIngCount g.port 3 else s).pauseAsk g.port

/-- Store a frame that enters the switch: its number and the state. -/
def State.storeEth (s : State) (f : SwFrame) : State × Nat :=
  let i := s.sw.nextFid
  ((s.setSw { s.sw with nextFid := i + 1 }).setFrame i { f with cells := swCells f.bytes.length }, i)

/-- A gated frame is admitted whole to the CRYP queue of the class DEFPCP gives its port (R259). -/
def State.gateEth (s : State) (f : SwFrame) : State :=
  let map := s.cfg f.epoch (Reg.SWC_PCPMAP f.port)
  let d := fld map 26 24
  let f := { f with tc := fld map (3 * d + 2) (3 * d), gated := true }
  let k := 8 * 17 + f.tc
  let (s, i) := s.storeEth f
  let (s, drop) := s.wred f k
  if drop then
    ((s.setSw { s.sw with frames := amDel s.sw.frames i }).swDrop 17 1 1).ist Reg.pgQMG 1
  else match s.admitTo f k (s.need f) with
    | none => ((s.setSw { s.sw with frames := amDel s.sw.frames i }).swDrop 17 0 1).ist Reg.pgQMG 0
    | some o =>
      let s := (s.enqueueEth i k o false).swIngCount f.port 2
      (s.setSw { s.sw with gate := s.sw.gate ++ [(i, none)] }).pauseAsk f.port

/-- A frame enters the switch after its receive checks (R258); SWC_CTL.EN = 0 drops it uncounted. -/
def State.enterEth (s : State) (f : SwFrame) : State :=
  let s := if s.rb Reg.OBS_ETHMASK f.port then
      s.trace 6 f.port (f.bytes.take 6 ++ beBytes 2 (f.bytes.length + 4)
        ++ [BitVec.ofNat 8 (if f.port < 14 then
            fld (s.cfg f.epoch (Reg.SWC_PCPMAP f.port)) (3 * (if hasTag f.bytes then beAt f.bytes 14 2 / 8192 else
              s.cf f.epoch (Reg.SWC_PCPMAP f.port) 26 24) + 2) (3 * (if hasTag f.bytes then beAt f.bytes 14 2 / 8192 else
              s.cf f.epoch (Reg.SWC_PCPMAP f.port) 26 24))
          else f.tc), BitVec.ofNat 8 (s.msecOn f.port).toNat])
    else s
  if !bitOf (s.cfg f.epoch Reg.SWC_CTL) 0 then s.ethResult f 0x21 none
  else if s.msecOn f.port then s.gateEth f
  else
    let (s, i) := s.storeEth f
    s.forwardEth i true

end Sys2Proof.Machine
end

