-- ==== Sys2Proof/Machine/Offload.lean ====
section
/-! DEFINITION. The egress offload unit (08_ethernet_ports.md R240-R243) and residence-time correction (11_time_sync.md
R326, R327). -/
namespace Sys2Proof.Machine

/-! Headers. -/

/-- The parsed headers of a frame: IPv4 or IPv6, start of the IP header, protocol, start of the transport header, bytes of
the IP packet after its header. -/
structure IpHdr where
  four : Bool
  ip : Nat
  proto : Nat
  l4 : Nat
  len : Nat
  deriving DecidableEq, Repr

/-- Parse at most one tag and an IP header, whatever its length field says; none where that fails. -/
def ipHead (b : List Byte) : Option IpHdr :=
  let o := typeAt b + 2
  let et := beAt b (o - 2) 2
  let v := byteAt b o / 16
  if et = 0x0800 ∧ v = 4 then
    let ihl := 4 * (byteAt b o % 16)
    if 20 ≤ ihl ∧ o + ihl ≤ b.length then some ⟨true, o, byteAt b (o + 9), o + ihl, beAt b (o + 2) 2 - ihl⟩ else none
  else if et = 0x86DD ∧ v = 6 ∧ o + 40 ≤ b.length then some ⟨false, o, byteAt b (o + 6), o + 40, beAt b (o + 4) 2⟩
  else none

/-- Parse headers whose total length covers the IPv4 header. -/
def ipParse (b : List Byte) : Option IpHdr :=
  (ipHead b).filter (fun h => !h.four || decide (h.l4 - h.ip ≤ beAt b (h.ip + 2) 2))

/-- One's-complement addition. -/
def onesAdd (a b : Nat) : Nat := let x := a + b; if x < 65536 then x else x - 65535

/-- The IPv4 header checksum of the header at o. -/
def ipCsum (b : List Byte) (o : Nat) : Nat :=
  0xFFFF - onesSum (overwrite ((b.drop o).take (4 * (byteAt b o % 16))) 10 [0, 0])

/-- The transport checksum over pseudo-header and n bytes from l4 on, with the field at offset f taken as 0. -/
def l4Csum (b : List Byte) (h : IpHdr) (n f : Nat) : Nat :=
  let addr := if h.four then (b.drop (h.ip + 12)).take 8 else (b.drop (h.ip + 8)).take 32
  let seg := overwrite ((b.drop h.l4).take n) f [0, 0]
  0xFFFF - onesAdd (onesAdd (onesSum addr) (onesAdd (n % 65536) h.proto)) (onesSum seg)

/-- The frame with its checksums inserted (R241); none where the request cannot be parsed. An IPv4 packet of another protocol
gets its header checksum alone. -/
def csumInsert (b : List Byte) : Option (List Byte) :=
  match ipParse b with
  | none => none
  | some h =>
    let b := if h.four then overwrite b (h.ip + 10) (beBytes 2 (ipCsum b h.ip)) else b
    let f := if h.proto = 6 then some 16 else if h.proto = 17 then some 6 else none
    match f with
    | none => if h.four then some b else none
    | some f =>
      if b.length < h.l4 + h.len ∨ h.len < f + 2 then none
      else
        let c := l4Csum b h h.len f
        let c := if h.proto = 17 ∧ c = 0 then 0xFFFF else c
        some (overwrite b (h.l4 + f) (beBytes 2 c))

/-! Large sends (R242). -/

/-- Length of the header template of a large send: through the TCP header; none where it is not parseable. Its length fields are set
per segment and are not read. -/
def lsoTemplate (b : List Byte) : Option (IpHdr × Nat) :=
  match ipHead b with
  | none => none
  | some h =>
    let t := h.l4 + 4 * (byteAt b (h.l4 + 12) / 16)
    if h.proto = 6 ∧ 5 ≤ byteAt b (h.l4 + 12) / 16 ∧ t ≤ b.length then some (h, t) else none

/-- Segment k of n of a large send with template length t and MSS m (R242). -/
def lsoSegment (b : List Byte) (h : IpHdr) (t m k n : Nat) : List Byte :=
  let pay := (b.drop (t + k * m)).take m
  let x := b.take t ++ pay
  let len := x.length - h.ip
  let x := if h.four then
      overwrite (overwrite x (h.ip + 2) (beBytes 2 len)) (h.ip + 4) (beBytes 2 ((beAt b (h.ip + 4) 2 + k) % 65536))
    else overwrite x (h.ip + 4) (beBytes 2 (len - 40))
  let x := if h.four then overwrite x (h.ip + 10) (beBytes 2 (ipCsum x h.ip)) else x
  let fl := byteAt b (h.l4 + 13)
  let fl := if k + 1 = n then fl else nsetBit (nsetBit fl 0 false) 3 false
  let fl := if k = 0 then fl else nsetBit fl 7 false
  let x := overwrite x (h.l4 + 4) (beBytes 4 ((beAt b (h.l4 + 4) 4 + k * m) % 2 ^ 32))
  let x := overwrite x (h.l4 + 13) [BitVec.ofNat 8 fl]
  overwrite x (h.l4 + 16) (beBytes 2 (l4Csum x h (x.length - h.l4) 16))

/-- The refusal cause of a large send, none where it is accepted (R243). -/
def lsoRefusal (b : List Byte) (m maxlen : Nat) (en : Bool) : Option Nat :=
  match lsoTemplate b with
  | none => some 1
  | some (_, t) =>
    let pay := b.length - t
    if 256 < t ∨ pay = 0 ∨ 65535 < pay then some 2
    else if m < 64 ∨ 9000 < m then some 3
    else if maxlen < t + m + 4 then some 4
    else if !en then some 5
    else none

/-- A refusal is counted (R243). -/
def State.offRefuse (s : State) (p cause : Nat) : State :=
  ((s.bump (Reg.EMAC_TXOFFERR p) 1 7).wr (Reg.EMAC_OFFSTAT p) (BitVec.ofNat 32 (2 ^ 31 + cause))).ist (Reg.pgEMAC p) 5

/-- The frame or segment port p starts for frame f at segment k: its bytes and whether it is the last; none where a large send
is refused and dropped whole. -/
def State.offload (s : State) (f : SwFrame) (p k : Nat) : State × Option (List Byte × Bool) :=
  let b := egressBytes f p
  match f.lso with
  | some m =>
    let ref := if k = 0 then lsoRefusal b m (s.rf (Reg.EMAC_MAXFRM p) 13 0) (s.rb (Reg.EMAC_OFFLD p) 1) else none
    match ref, lsoTemplate b with
    | some c, _ => (s.offRefuse p c, none)
    | none, none => (s, none)
    | none, some (h, t) =>
      let n := (b.length - t + m - 1) / m
      let s := if k = 0 then s.bump (Reg.EMAC_TXLSO p) 1 7 else s
      (s, some (lsoSegment b h t m k n, decide (n ≤ k + 1)))
  | none =>
    if f.csum then
      match csumInsert b with
      | none => (s.offRefuse p 1, some (b, true))
      | some c => if s.rb (Reg.EMAC_OFFLD p) 0 then (s, some (c, true)) else (s.offRefuse p 5, some (b, true))
    else (s, some (b, true))

/-! Residence correction. -/

/-- The start of an IEEE 1588 message in a frame, and the position of its UDP checksum where it has one (R326). -/
def State.ptpAt (s : State) (b : List Byte) : Option (Nat × Option Nat) :=
  let o := typeAt b + 2
  if s.rb Reg.TSY_CTL 1 ∧ beAt b (o - 2) 2 = 0x88F7 then some (o, none)
  else if s.rb Reg.TSY_CTL 2 then
    match ipParse b with
    | some h => if h.proto = 17 ∧ beAt b (h.l4 + 2) 2 = 319 then some (h.l4 + 8, some (h.l4 + 6)) else none
    | none => none
  else none

/-- The checksum field c updated for 16-bit words from position i on that change from old to new. -/
def csumWords (old new : List Byte) (i : Nat) : Nat → Nat → Nat
  | 0, c => c
  | n + 1, c => csumWords old new (i + 2) n (csumUpdate c (beAt old i 2) (beAt new i 2))

/-- A Sync or Delay_Req that cannot be corrected is counted once, whatever copies it has (R326). -/
def State.tcSkip (s : State) (i : Nat) (f : SwFrame) : State :=
  if f.skipped then s else (s.bump Reg.TSY_TCSKIP 1 10).setFrame i { f with skipped := true }

/-- Frame f, stored under i, as port p sends it now, its residence added where R326 and R327 say so. Frames of the device's own internal
ports are not forwarded frames. -/
def State.correct (s : State) (i : Nat) (f : SwFrame) (p : Nat) (b : List Byte) : State × List Byte :=
  if !s.rb Reg.TSY_CTL 0 || decide (14 ≤ f.port) || s.standby then (s, b)
  else match s.ptpAt b with
    | none => (s, b)
    | some (o, cs) =>
      let mt := byteAt b o % 16
      if 1 < mt then (s, b)
      else if nbit (byteAt b (o + 6)) 1 || decide (128 < o + 16) then (s.tcSkip i f, b)
      else
        let out := s.now + (if s.msecOn p then 96 else 0) + s.rf (Reg.TSY_PLAT p) 31 16
        let back := s.rf (Reg.TSY_PLAT f.port) 15 0 + (if f.port < 12 then 0 else s.linkHalf)
        let res := (out + back - f.at_) * 65536
        let c := overwrite b (o + 8) (beBytes 8 ((beAt b (o + 8) 8 + res) % 2 ^ 64))
        let c := match cs with
          | none => c
          | some q =>
            if beAt b q 2 = 0 then c else overwrite c q (beBytes 2 (csumWords b c (o + 8) 4 (beAt b q 2)))
        (s.bump Reg.TSY_TCCNT 1 10, c)

/-- The MAC pads a frame to 60 bytes (R240). -/
def padFrame (b : List Byte) : List Byte := b ++ List.replicate (60 - b.length) 0

end Sys2Proof.Machine
end

