-- ==== Sys2Proof/Machine/Egress.lean ====
section
/-! DEFINITION. Egress of the switch: selection and transmission (09_switch_core.md R256, R274-R278), internal ports and their
stall (R281), queue flushes (R282), Thicket (R269-R273), the staged commands of POL (R288) and the latched counters (R285,
R286). -/
namespace Sys2Proof.Machine

/-! Releases of gated frames (R350). -/

/-- Set the result of a gated frame. -/
def State.gateSet (s : State) (i : Nat) (ok : Bool) : State :=
  s.setSw { s.sw with gate := s.sw.gate.map (fun g => if g.1 = i then (i, some ok) else g) }

/-- The frame leaves the list of gated frames. -/
def State.gateDel (s : State) (i : Nat) : State := s.setSw { s.sw with gate := s.sw.gate.filter (fun g => g.1 != i) }

/-- Gated frame i, verified, enters step 3 as a frame of its ingress port, tagged again (R257, R259); its cells leave the CRYP
charge. -/
def State.gateEnter (s : State) (i : Nat) : State :=
  match s.frameOf i with
  | none => s
  | some f => (s.setFrame i { f with gated := false, wasGated := true, refs := 0, charge := none, epoch := s.epoch }).forwardEth i true

/-- The first gated frame of the list, port by port, whose result stands and that no earlier frame of its port precedes. -/
def State.gateReady (s : State) : List (Nat × Option Bool) → List Nat → Option (Nat × Bool)
  | [], _ => none
  | (i, r) :: rest, seen =>
    let p := match s.frameOf i with | some f => f.port | none => 18
    match r with
    | some ok => if seen.contains p then s.gateReady rest seen else some (i, ok)
    | none => s.gateReady rest (p :: seen)

/-- Release what may be released, in the order each port received it; at most n frames. -/
def State.gatePump : Nat → State → State
  | 0, s => s
  | n + 1, s =>
    match s.gateReady s.sw.gate [] with
    | none => s
    | some (i, ok) =>
      let s := s.gateDel i
      gatePump n (if ok then s.gateEnter i else s.freeCopy i (8 * 17))

/-- A gated frame ends without release: dropped, its successors released (R350). -/
def State.gateDrop (s : State) (i : Nat) : State :=
  let s := s.gateSet i false
  State.gatePump s.sw.gate.length s

/-! Selection (R274). -/

/-- The deadline of class c at port p in ns, 0 = none (R275). -/
def State.ethDeadline (s : State) (p c : Nat) : Nat :=
  s.rf (Reg.QMG_DL p (c / 2)) (16 * (c % 2) + 15) (16 * (c % 2)) * 1000

/-- The deadline of the head copy has passed; a large send is checked at its first segment alone. -/
def State.ethLate (s : State) (k : Nat) (c : SwCopy) (f : SwFrame) : Bool :=
  let d := s.ethDeadline (k / 8) (k % 8)
  d != 0 && c.seg == 0 && decide (f.at_ + d < s.now)

/-- A head whose deadline has passed is dropped (R274). -/
def State.dropLate (s : State) (k : Nat) (c : SwCopy) : State :=
  ((s.dropQueued k c).swDrop (k / 8) (8 + k % 8) 1).ist Reg.pgQMG 2

/-- The copy can be read at once (R271). -/
def SwCopy.ready (c : SwCopy) : Bool := c.th == .chip || c.th == .back

/-- Class c of port p may start its head (R244, R271, R276). -/
def State.classReady (s : State) (p c : Nat) : Bool :=
  match s.queueOf (8 * p + c) with
  | [] => false
  | h :: _ => h.ready && !(decide (p < 14) && (s.pausedNow p c || s.pausedNow p 8))
      && (!s.cbsOn p c || decide (0 ≤ s.cbsCredit p c))

/-- The highest class of port p that may start (R274). -/
def State.pickClass (s : State) (p : Nat) : Option Nat := [7, 6, 5, 4, 3, 2, 1, 0].find? (s.classReady p)

/-- The head of queue k leaves it; a new head whose read-back is open is counted in the hidden counter of R525. -/
def State.popHead (s : State) (k : Nat) : State :=
  let q := (s.queueOf k).drop 1
  let s := match q with
    | c :: _ => if c.ready then s else s.obsHidden 4 1
    | [] => s
  (s.setQueue k q).wdSync (k / 8)

/-- The stamp a transmit descriptor gets when its SFD leaves (R323, R398): behind the MACsec stage of 96 ns (R352), and on E12 and E13
behind the Xanpel link. -/
def State.ethStamp (s : State) (f : SwFrame) (p : Nat) : State :=
  let late := (if s.msecOn p then 96 else 0) + (if p < 12 then 0 else s.linkHalf) + s.rf (Reg.TSY_PLAT p) 31 16
  if f.tsreq then s.ethResult f 0x00 (some ((s.tsy.full + late) % 2 ^ 32)) else s

/-! PLCA (R234). -/

/-- CURID of PHY m and the end of its opportunity follow the opportunities that ended by instant t. -/
def State.plcaSync (s : State) (m t : Nat) : State :=
  let g := s.toGone m t
  if g = 0 then s
  else
    let e := s.emacOf (12 + m)
    let n := min (s.toLast m) (s.rf (Reg.T1SP_STAT m) 7 0 + g)
    (s.wf (Reg.T1SP_STAT m) 7 0 n).setEmac (12 + m)
      { e with toEnd := e.toEnd + g * s.toNs m, toLeft := fld e.plca 23 16 + 1 }

/-- The opportunity in progress at PHY m ends now and the next begins. -/
def State.plcaNext (s : State) (m : Nat) : State :=
  let e := s.emacOf (12 + m)
  if !e.plcaRun then s
  else
    (s.wf (Reg.T1SP_STAT m) 7 0 (min (s.toLast m) (s.rf (Reg.T1SP_STAT m) 7 0 + 1))).setEmac (12 + m)
      { e with toEnd := s.mono + s.toNs m, toLeft := fld e.plca 23 16 + 1 }

/-- Port p has sent a frame: of its burst, while the burst lasts, the next may start within the burst timer. -/
def State.plcaSent (s : State) (p : Nat) : State :=
  let e := s.emacOf p
  if p < 12 || !e.plcaRun then s
  else if e.toLeft ≤ 1 then s.plcaNext (p - 12)
  else s.setEmac p { e with toLeft := e.toLeft - 1, toEnd := s.mono + fld e.ptime 15 8 * 100 }

/-- Port p may start a frame on its line: under PLCA in its own transmit opportunity alone; NODEID 0xFF has none (R234). -/
def State.t1sMay (s : State) (p : Nat) : Bool :=
  let m := p - 12
  let e := s.emacOf p
  let id := fld e.plca 7 0
  decide (p < 12) || !s.rb (Reg.T1SP_CTL m) 1
    || (e.plcaRun && s.rb (Reg.T1SP_STAT m) 31 && id != 255 && s.curId m == id && (s.toGone m s.mono != 0 || e.toLeft != 0))

/-! Pause frames go ahead of every queued frame (R245). -/

/-- Nanoseconds of q quanta at port p. -/
def State.quantaNs (s : State) (p q : Nat) : Nat :=
  let r := s.ethRate p
  if r = 0 then 0 else q * 512 * 1000 / r

/-- Port p may send a pause frame now: its link up, no frame in transmission, not in STANDBY (R512). -/
def State.pauseMay (s : State) (p : Nat) : Bool :=
  s.ethLink p && (s.emacOf p).tx.isNone && !s.standby && decide (p ≤ 11)

/-- A request of port p has changed since the partner was told. -/
def State.pauseNew (s : State) (p : Nat) : Bool := s.pauseMay p && decide ((s.emacOf p).ask ≠ (s.emacOf p).told)

/-- A standing request of port p is due to be repeated. -/
def State.pauseAgain (s : State) (p : Nat) : Bool :=
  let e := s.emacOf p
  let half := s.quantaNs p (max 1 (s.rf (Reg.EMAC_PQ p) 15 0)) / 2
  s.pauseMay p && decide (e.ask ≠ []) && decide (e.ask = e.told) && decide (e.toldAt + half ≤ s.now)

/-- Port p may start a queued frame: at a frame boundary, its link up, in its transmit opportunity, no pause frame before it. -/
def State.portMay (s : State) (p : Nat) : Bool :=
  s.ethLink p && (s.emacOf p).tx.isNone && s.t1sMay p && !s.pauseNew p && !s.pauseAgain p

/-- Port p starts bytes b of copy c of frame f in queue k. -/
def State.startTx (s : State) (p k : Nat) (c : SwCopy) (f : SwFrame) (b : List Byte) (last bad : Bool) (job : Option Nat) :
    State :=
  let s := if c.seg = 0 then s.ethStamp f p else s
  let s := if p < 12 then s else s.plcaSync (p - 12) s.mono
  let s := if last then s.popHead k
    else s.setQueue k ((s.queueOf k).map (fun d => if d.fid = c.fid then { d with seg := c.seg + 1 } else d))
  s.setEmac p { s.emacOf p with 
    tx := some { fid := c.fid, key := k, bytes := b, last := last, bad := bad, job := job, seg := f.lso.isSome,
                 buf := if c.th == .back then f.bytes.length + 4 else 0 }
    tries := 0
    backoff := false }

/-- Select and start a frame at external port p: heads that are late, refused or dropped by MACsec make the selection repeat
(R274); at most n times. -/
def State.ethSelect (p : Nat) (agree : Bool) : Nat → State → State
  | 0, s => s
  | n + 1, s =>
    match s.pickClass p with
    | none => s
    | some cl =>
      let k := 8 * p + cl
      match s.queueOf k with
      | [] => s
      | c :: _ =>
        match s.frameOf c.fid with
        | none => s
        | some f =>
          if s.ethLate k c f then State.ethSelect p agree n (s.dropLate k c)
          else
            match s.offload f p c.seg with
            | (t, none) => State.ethSelect p agree n (t.dropQueued k c)
            | (t, some (b, last)) =>
              let (t, b) := t.correct c.fid f p b
              match t.protect p b agree with
              | (_, .wait) => s
              | (t, .drop) => State.ethSelect p agree n (t.dropQueued k c)
              | (t, .send b bad job) => t.startTx p k c f (if bad then b else padFrame b) last bad job

/-! Internal ports (R274, R281, R395, R399). -/

/-- The receive queue of class c at port HOST. -/
def State.swQueue (s : State) (c : Nat) : Nat :=
  if c < 4 then s.rf Reg.HIF_SWQ0 (8 * c + 5) (8 * c) else s.rf Reg.HIF_SWQ1 (8 * (c - 4) + 5) (8 * (c - 4))

/-- The item words of an Ethernet frame (R399). -/
def ethItem (f : SwFrame) (len : Nat) : List Word :=
  [BitVec.ofNat 32 f.stamp, BitVec.ofNat 32 (f.port * 2 ^ 24 + f.tc * 2 ^ 21 + f.msec.toNat * 2 ^ 20 + f.vid * 2 ^ 8), 0,
   BitVec.ofNat 32 len, 0, 0]

/-- Copy c of frame f leaves queue k of an internal port. -/
def State.leaveInternal (s : State) (k : Nat) (c : SwCopy) : State := (s.popHead k).freeCopy c.fid k

/-- The head of queue k of an internal port leaves, where its consumer takes it: a receive queue with room (R400), Bramble when
it is free (R16), Laurel. -/
def State.internalOut (s : State) (k : Nat) (c : SwCopy) (f : SwFrame) : State :=
  let b := internalBytes f
  if k / 8 = 14 then
    let q := s.swQueue (k % 8)
    let h := s.hqOf (64 + q)
    if h.size < h.entries b.length + 1 then (s.rxNoBuf q).dropQueued k c
    else if s.rxRoom q b.length then ((s.rxOffer q 0 (ethItem f b.length) b).1).leaveInternal k c
    else s
  else if k / 8 = 15 then
    if s.privTakes then ({ s with prv := { s.prv with ethIn := [b] } }).leaveInternal k c else s
  else if k / 8 = 16 then (s.emit (.toLaurel b)).leaveInternal k c
  else s

/-- Selection at an internal port: strict priority with deadlines. -/
def State.selectInternal (p : Nat) : Nat → State → State
  | 0, s => s
  | n + 1, s =>
    match s.pickClass p with
    | none => s
    | some cl =>
      let k := 8 * p + cl
      match s.queueOf k with
      | [] => s
      | c :: _ =>
        match s.frameOf c.fid with
        | none => s
        | some f => if s.ethLate k c f then selectInternal p n (s.dropLate k c) else s.internalOut k c f

/-- Copies queued at port p. -/
def State.portCopies (s : State) (p : Nat) : Nat := ((List.range 8).map (fun c => (s.queueOf (8 * p + c)).length)).sum

/-- EGRESS_SELECTION (R274): external ports at a frame boundary with their link up, where no pause frame goes first (R245) and, under
PLCA, in their transmit opportunity (R234); agree: the copies of the crypto pipe
agree on a protected frame (R339). -/
def execEgressSelection (port : Fin 18) (agree : Bool) (s : State) : Host.Outcome State Fault Refusal :=
  let p := port.val
  if p = 17 then .next s
  else if 14 ≤ p then .next (State.selectInternal p (s.portCopies p + 1) s)
  else
    let s1 := (List.range 8).foldl (fun t c => t.cbsSync p c) s
    if s.portMay p then .next (State.ethSelect p agree (s.portCopies p + 1) s1) else .next s1

/-- Statistics of a frame of b bytes without FCS sent by port p (R251). -/
def State.txStats (s : State) (p : Nat) (b : List Byte) : State :=
  let da := beAt b 0 6
  let s := (s.bump (Reg.EMAC_TXOK p) 1 7).bump (Reg.EMAC_TXOCT p) (b.length + 4) 7
  if da = 2 ^ 48 - 1 then s.bump (Reg.EMAC_TXBCAST p) 1 7
  else if nbit da 40 then s.bump (Reg.EMAC_TXMCAST p) 1 7 else s

/-- The crypto job of a transmission ends; writes of its SA that waited for it take effect (R351). -/
def State.endTxJob (s : State) (t : TxNow) : State :=
  match t.job with
  | some k =>
    match s.jobOf k with
    | some j => (s.delJob k).saSettle j.ix
    | none => s
  | none => s

/-- FRAME_TRANSMITTED (R256): the frame or segment port p sends has left; a frame that ends with the inverse FCS counts in
TXSTOMP (R238, R339). -/
def execFrameTransmitted (port : Fin 14) (s : State) : Host.Outcome State Fault Refusal :=
  let p := port.val
  let s := s.cbsSync p (match (s.emacOf p).tx with | some t => t.key % 8 | none => 0)
  let e := s.emacOf p
  match e.tx with
  | none => .next s
  | some t =>
    if e.backoff then .next s
    else
      let job : Option CryJob := match t.job with
        | some k => s.jobOf k
        | none => none
      let aborted := match job with
        | some j => j.code != 0
        | none => false
      let s := match job with
        | some j => if j.code = kCMPFAIL && !t.bad then s.cryFail 0 kCMPFAIL j.ix else s
        | none => s
      let bad := t.bad || aborted
      let (s, out) := if aborted && !t.bad then s.cutOut t.bytes else (s, t.bytes)
      let s := s.emit (.eth p out (!bad))
      let s := if bad then s.bump (Reg.EMAC_TXSTOMP p) 1 7
        else if t.seg then (s.txStats p t.bytes).bump (Reg.EMAC_TXLSOSEG p) 1 7
        else s.txStats p t.bytes
      let s := ((s.endTxJob t).setEmac p { e with tx := none, tries := 0 }).plcaSent p
      .next (if t.last then s.freeCopy t.fid t.key else s)

/-! Flushes of queues. -/

/-- Every copy of the named classes of port p is flushed; what counts each is given by cnt. -/
def State.flushQueues (s : State) (p : Nat) (cs : List Nat) (cnt : State → State) : State :=
  cs.foldl (fun t c => (t.queueOf (8 * p + c)).foldl (fun u d =>
    let u := cnt (u.dropQueued (8 * p + c) d)
    if p = 17 then u.gateDrop d.fid else u) t) s

/-- A write of QMG_FLUSH (R282). -/
def qmgFlushWrite (v : Word) (s : State) : State :=
  if !bitOf v 31 then s
  else if s.rb Reg.QMG_FLSTAT 31 then s.ist Reg.pgQMG 5
  else
    let p := fld v 20 16
    let cs := setBits (fld v 7 0) 8
    let s := s.wb Reg.QMG_FLSTAT 31 true
    if 17 < p then s
    else
      let s := s.flushQueues p cs (fun t => t.swDrop p 2 1)
      if p = 17 then
        s.setSw { s.sw with frames := s.sw.frames.map (fun e =>
          if e.2.gated && cs.contains e.2.tc then (e.1, { e.2 with flushed := true }) else e) }
      else s

def execQueueFlush (init : Initiator) (v : Word) (s : State) : Host.Outcome State Fault Refusal :=
  .next (s.cmdWrite init Reg.QMG_FLUSH v (qmgFlushWrite v))

/-- QUEUE_FLUSH_DONE (R282). -/
def execQueueFlushDone (s : State) : Host.Outcome State Fault Refusal :=
  .next (if s.rb Reg.QMG_FLSTAT 31 then (s.wb Reg.QMG_FLSTAT 31 false).ist Reg.pgQMG 4 else s)

/-- INTERNAL_STALL_DROP (R281): the head of an internal queue that has been its head for ISTALL ms. -/
def execInternalStallDrop (port : Fin 18) (cls : Fin 8) (s : State) : Host.Outcome State Fault Refusal :=
  let k := 8 * port.val + cls.val
  if port.val < 14 then .next s
  else match s.queueOf k, amGet s.sw.headAt k with
    | c :: _, some t =>
      let lim := clampN 1 1000 (s.rf Reg.QMG_ISTALL 9 0)
      if t + lim * 1000000 ≤ s.now then
        let s := ((s.dropQueued k c).swDrop port 3 1).ist Reg.pgQMG 3
        .next (if port.val = 17 then s.gateDrop c.fid else s)
      else .next s
    | _, _ => .next s

/-! Thicket (R269-R273). -/

/-- Thicket units of queue k. -/
def State.tktQueue (s : State) (k : Nat) : Nat :=
  ((s.queueOf k).map (fun c => match s.frameOf c.fid with | some f => if f.spilled then f.cells else 0 | none => 0)).sum

/-- Copy c at position i of queue k may be spilled but for the size limits (R269). -/
def State.spillWants (s : State) (k i : Nat) (c : SwCopy) : Bool :=
  match s.frameOf c.fid with
  | none => false
  | some f =>
    let ctl := f.tkt.1
    let thr := f.tkt.2.1
    bitOf ctl 0 && bitOf ctl (8 + k % 8) && decide (s.sfree < fld thr 31 16) && decide (fld thr 15 0 < s.qUsed k)
      && decide (2 ≤ i) && c.th == .chip && !f.gated && decide (k / 8 ≠ 17) && f.refs == 1 && c.seg == 0
      && s.sw.nextRegion.isNone

/-- A frame that may spill now: not while the DRAM is in self-refresh or leaves it (R36). -/
def State.spillable (s : State) (k i : Nat) (c : SwCopy) : Bool := s.spillWants k i c && !s.rb Reg.TKT_SRCTL 31

/-- The size limits of R269. -/
def State.tktFits (s : State) (k : Nat) (f : SwFrame) : Bool :=
  decide (s.tktQueue k + f.cells ≤ fld f.tkt.2.2 11 0 * 8192)
    && decide (s.tktUsed + f.cells ≤ fld s.sw.region 11 0 * 8192)

/-- The stored frame of copy c fits the size limits. -/
def State.copyFits (s : State) (k : Nat) (c : SwCopy) : Bool := (s.frameOf c.fid).any (fun f => s.tktFits k f)

/-- The last spillable copy of queue k that the mover has something to do with: it fits, or was not counted in TKT_FULL yet. -/
def State.spillPick (s : State) (k : Nat) : Option SwCopy :=
  ((((s.queueOf k).zipIdx).filter (fun p => s.spillable k p.2 p.1 && (s.copyFits k p.1 || !p.1.full))).reverse.head?).map (·.1)

/-- The lowest n free units of Thicket (log entry 76). -/
def State.freeUnits (s : State) (n : Nat) : List Nat :=
  let used := (s.sw.frames.map (fun p => p.2.units.map (·.1))).flatten
  ((List.range (used.length + n)).filter (fun u => !used.contains u)).take n

/-- DRAM address of unit u of the region in use. -/
def State.unitAt (s : State) (u : Nat) : Nat := fld s.sw.region 27 16 * 2 ^ 20 + 128 * u

/-- A frame with its FCS, cut into the bytes of its cells. -/
def cellBytes (b : List Byte) : Nat → List (List Byte)
  | 0 => []
  | n + 1 => b.take 128 :: cellBytes (b.drop 128) n

/-- Frame i goes to DRAM: each unit is written with its CRC-32 (R269). -/
def State.spillFrame (s : State) (i : Nat) (f : SwFrame) : State :=
  let us := (s.freeUnits f.cells).zip (cellBytes (f.bytes ++ leBytes 4 (crc32 f.bytes)) f.cells)
  let s := us.foldl (fun t u => { t with dram := memWrN t.dram (t.unitAt u.1) u.2 }) s
  s.setFrame i { f with spilled := true, units := us.map (fun u => (u.1, crc32 u.2)) }

/-- The bytes of frame f as its units hold them, with the FCS; none where the CRC of a unit fails (R271). -/
def State.unitsRead (s : State) (f : SwFrame) : Option (List Byte) :=
  let cs := (f.units.zip (cellBytes (f.bytes ++ List.replicate 4 0) f.cells)).map
    (fun u => (u.1.2, memRdN s.dram (s.unitAt u.1.1) u.2.length))
  if cs.all (fun c => crc32 c.2 == c.1) then some (cs.map (·.2)).flatten else none

/-- Bytes of the transmit buffer of port p in use: frames that are read back, were read back or are sent from it (R271). -/
def State.bufUsed (s : State) (p : Nat) : Nat :=
  (match (s.emacOf p).tx with | some t => t.buf | none => 0)
    + ((List.range 8).map (fun c => ((s.queueOf (8 * p + c)).map (fun d =>
        if d.th == .reading || d.th == .back then (match s.frameOf d.fid with | some f => f.bytes.length + 4 | none => 0) else 0)).sum)).sum

/-- Size of that buffer: two frames of MAXLEN; an internal port has no MAXLEN and takes two of the largest (log entry 76). -/
def State.bufSize (s : State) (p : Nat) : Nat := 2 * (if p < 14 then s.rf (Reg.EMAC_MAXFRM p) 13 0 else 9216)

/-- Replace the record of copy c in queue k. -/
def State.setCopy (s : State) (k : Nat) (c : SwCopy) : State :=
  s.setQueue k ((s.queueOf k).map (fun d => if d.fid = c.fid then c else d))

/-- THICKET_SPILL (R269): outside SAVE (R430) the mover takes the last eligible frame of a queue; one kept for the size limits is counted once. -/
def execThicketSpill (port : Fin 18) (cls : Fin 8) (s : State) : Host.Outcome State Fault Refusal :=
  let k := 8 * port.val + cls.val
  match (if s.inSave then none else s.spillPick k) with
  | none => .next s
  | some c =>
    match s.frameOf c.fid with
    | none => .next s
    | some f =>
      if s.tktFits k f then
        let s := (s.setCopy k { c with th := .dram }).spillFrame c.fid f
        let s := s.bump Reg.TKT_SPILLED 1 3
        let s := s.wr Reg.TKT_PEAK (BitVec.ofNat 32 (max (s.rd Reg.TKT_PEAK).toNat s.tktUsed))
        .next (s.pauseAsk f.port)
      else .next (((s.setCopy k { c with full := true }).bump Reg.TKT_FULL 1 3).ist Reg.pgTKT 1)

/-- THICKET_READ_BACK (R271): a spilled frame that is first or second in its queue is read back, where the port's transmit buffer has
room for it. -/
def execThicketReadBack (port : Fin 18) (cls : Fin 8) (s : State) : Host.Outcome State Fault Refusal :=
  let k := 8 * port.val + cls.val
  match ((s.queueOf k).take 2).find? (fun c => c.th == .dram && !s.inSave) with
  | none => .next s
  | some c =>
    let n := match s.frameOf c.fid with | some f => f.bytes.length + 4 | none => 0
    .next (if s.bufUsed port + n ≤ s.bufSize port then s.setCopy k { c with th := .reading } else s)

/-- A committed region takes effect when Thicket is empty (R273). -/
def State.regionSync (s : State) : State :=
  match s.sw.nextRegion with
  | some w => if s.tktUsed = 0 then s.setSw { s.sw with region := w, nextRegion := none } else s
  | none => s

/-- READ_BACK_COMPLETE (R271): the frame is in the egress port's buffer, or the CRC of a unit fails and drops it; crcOk: the DRAM gave the
units as it holds them. -/
def execReadBackComplete (port : Fin 18) (cls : Fin 8) (crcOk : Bool) (s : State) : Host.Outcome State Fault Refusal :=
  let k := 8 * port.val + cls.val
  match (s.queueOf k).find? (fun c => c.th == .reading && !s.inSave) with
  | none => .next s
  | some c =>
    match s.frameOf c.fid with
    | none => .next s
    | some f =>
      match (if crcOk then s.unitsRead f else none) with
      | some b =>
        let g := { f with bytes := b.take f.bytes.length, spilled := false, cells := 0, units := [] }
        .next ((s.setCopy k { c with th := .back }).setFrame c.fid g)
      | none =>
        let s := (s.dropQueued k c).swDrop port 4 1
        .next ((s.bump Reg.TKT_CRCERR 1 3).ist Reg.pgTKT 0)

/-- THICKET_REGION_EFFECT (R273). -/
def execThicketRegionEffect (s : State) : Host.Outcome State Fault Refusal := .next s.regionSync

/-! Staged commands of POL (R262, R288). -/

/-- A write of POL_PCMD: WR first, then RD. -/
def pcmdWrite (v : Word) (s : State) : State :=
  let i := s.rf Reg.POL_PIDX 9 0
  let s := if bitOf v 0 then
      let p := s.polOf i
      let cbs := s.rf Reg.POL_PCBS 23 0
      let pbs := s.rf Reg.POL_PPBS 23 0
      s.setPol i { cir := s.rf Reg.POL_PCIR 23 0, pir := s.rf Reg.POL_PPIR 23 0, cbs := cbs, pbs := pbs, red := s.rb Reg.POL_PMODE 0,
                   tc := cbs * 8000000, tp := pbs * 8000000, at_ := s.now, cnt := p.cnt }
    else s
  if bitOf v 1 then
    let p := s.polOf i
    let s := s.loadWords Reg.POL_PCIR [BitVec.ofNat 32 p.cir, BitVec.ofNat 32 p.pir, BitVec.ofNat 32 p.cbs, BitVec.ofNat 32 p.pbs,
      BitVec.ofNat 32 p.red.toNat]
    s.loadWords Reg.POL_CGREEN (p.cnt.map (BitVec.ofNat 32))
  else s

/-- Filter i as it reads: four words. -/
def State.filtOf (s : State) (i : Nat) : List Word := amGetD [0, 0, 0, 0] s.sw.filt i

/-- A write of POL_FCMD: WR first, then RD. -/
def fcmdWrite (v : Word) (s : State) : State :=
  let i := s.rf Reg.POL_FIDX 9 0
  let s := if bitOf v 0 then
      let ws := [s.rd (Reg.POL_FW 0), s.rd (Reg.POL_FW 1) &&& 0x0FFFFFFF, s.rd (Reg.POL_FW 2) &&& 0xEFF3FFFF,
        s.rd (Reg.POL_FW 3) &&& 0xFFFFE3FF]
      s.setSw { s.sw with filt := amSet [0, 0, 0, 0] s.sw.filt i ws }
    else s
  if bitOf v 1 then
    (s.loadWords (Reg.POL_FW 0) (s.filtOf i)).wr Reg.POL_FMATCH (BitVec.ofNat 32 (amGetD 0 s.sw.fmatch i))
  else s

/-- POL_CNTCLR. -/
def polCclrWrite (v : Word) (s : State) : State :=
  if bitOf v 0 then
    (s.setSw { s.sw with
      fmatch := []
      pol := s.sw.pol.map (fun e => (e.1, { e.2 with cnt := [0, 0, 0] })) }).clear
        [Reg.POL_CGREEN, Reg.POL_CYELLOW, Reg.POL_CRED, Reg.POL_FMATCH]
  else s

def execPolicerWrite (init : Initiator) (v : Word) (s : State) : Host.Outcome State Fault Refusal :=
  .next (s.cmdWrite init Reg.POL_PCMD v (pcmdWrite v))

def execPolicerRead (init : Initiator) (v : Word) (s : State) : Host.Outcome State Fault Refusal :=
  .next (s.cmdWrite init Reg.POL_PCMD v (pcmdWrite v))

def execFilterWrite (init : Initiator) (v : Word) (s : State) : Host.Outcome State Fault Refusal :=
  .next (s.cmdWrite init Reg.POL_FCMD v (fcmdWrite v))

def execFilterRead (init : Initiator) (v : Word) (s : State) : Host.Outcome State Fault Refusal :=
  .next (s.cmdWrite init Reg.POL_FCMD v (fcmdWrite v))

/-! Latched counters (R285, R286). -/

/-- A write of SWC_IIDX; a port above 17 latches zeros. -/
def iidxWrite (s : State) : State :=
  let p := s.rf Reg.SWC_IIDX 4 0
  s.loadWords Reg.SWC_ISDU ((List.range 4).map (fun k => BitVec.ofNat 32 (if p ≤ 17 then amGetD 0 s.sw.icnt (4 * p + k) else 0)))

/-- A write of QMG_DIDX. -/
def didxWrite (s : State) : State :=
  let p := s.rf Reg.QMG_DIDX 4 0
  let g := fun k => BitVec.ofNat 32 (if p ≤ 17 then amGetD 0 s.sw.dcnt (16 * p + k) else 0)
  (s.loadWords Reg.QMG_DADMIT ((List.range 5).map g)).loadWords (Reg.QMG_DDL 0) ((List.range 8).map (fun c => g (8 + c)))

/-- SWC_CNTCLR. -/
def swcCclrWrite (v : Word) (s : State) : State :=
  if bitOf v 0 then (s.setSw { s.sw with icnt := [] }).loadWords Reg.SWC_ISDU [0, 0, 0, 0] else s

/-- QMG_CNTCLR. -/
def qmgCclrWrite (v : Word) (s : State) : State :=
  if bitOf v 0 then
    ((((s.setSw { s.sw with dcnt := [] }).loadWords Reg.QMG_DADMIT (List.replicate 5 0)).loadWords (Reg.QMG_DDL 0)
      (List.replicate 8 0))).wf Reg.QMG_OCC 31 16 0
  else s

def execIngressCounterLatch (init : Initiator) (v : Word) (s : State) : Host.Outcome State Fault Refusal :=
  .next (s.cmdWrite init Reg.SWC_IIDX v iidxWrite)

def execDropCounterLatch (init : Initiator) (v : Word) (s : State) : Host.Outcome State Fault Refusal :=
  .next (s.cmdWrite init Reg.QMG_DIDX v didxWrite)

end Sys2Proof.Machine
end

