-- ==== Sys2Proof/Machine/Emac.lean ====
section
/-! DEFINITION. The Ethernet ports (08_ethernet_ports.md R229-R253): reception and its checks, pause and priority flow control
with their watchdog, link states, auto-negotiation, and the 10BASE-T1S PHYs; the mirror of R513. -/
namespace Sys2Proof.Machine

/-! Links (R232, R247-R250). -/

/-- End the transmission of port p without its end on the line: counted in TXABORT; the copy is freed, but for a large send
that has more segments. -/
def State.abortTx (s : State) (p : Nat) : State :=
  match (s.emacOf p).tx with
  | none => s
  | some t =>
    let s := (((s.bump (Reg.EMAC_TXABORT p) 1 7).endTxJob t).setEmac p
      { s.emacOf p with tx := none, tries := 0, backoff := false }).plcaSent p
    if t.last then s.freeCopy t.fid t.key else s

/-- Every queued frame of port p is flushed and the port is DOWN. -/
def State.goDown (s : State) (p : Nat) : State :=
  let s := (s.flushQueues p (List.range 8) (fun t => t.bump (Reg.EMAC_LDFLUSH p) 1 7)).ist (Reg.pgEMAC p) 2
  (s.wf (Reg.EMAC_STAT p) 30 29 2).macDown p

/-- LINK_HOLD of port p in ns. -/
def State.linkHoldNs (s : State) (p : Nat) : Nat := s.rf (Reg.EMAC_CFG p) 23 16 * 1000000

/-- A loss of link of port p (R247, R248). -/
def State.linkLoss (s : State) (p : Nat) : State :=
  if !s.ethLink p then s
  else
    let s := (s.abortTx p).bump (Reg.EMAC_LINKDN p) 1 7
    let s := (s.ist (Reg.pgEMAC p) 1).wf (Reg.EMAC_STAT p) 31 29 1
    let s := s.wf (Reg.EMAC_STAT p) 7 4 0
    let s := s.setEmac p { s.emacOf p with pause := [], wd := [], ign := [], holdAt := s.now }
    if s.linkHoldNs p = 0 then s.goDown p else s

/-- The link of port p comes up at a speed code. -/
def State.ethLinkUp (s : State) (p code : Nat) : State :=
  let s := if s.ethHold p && decide ((s.emacOf p).holdAt + s.linkHoldNs p + 1000000 ≤ s.now) then s.goDown p else s
  if s.ethLink p then s
  else (((s.wf (Reg.EMAC_STAT p) 31 29 4).wf (Reg.EMAC_STAT p) 7 4 code).ist (Reg.pgEMAC p) 0).wdSync p

/-- Speed code in use of port p: fixed by its mode, SPEED where it is not 0, else the negotiated code (R229, R233). -/
def State.speedCode (s : State) (p neg : Nat) : Nat :=
  match s.rf (Reg.EMAC_CFG p) 2 0 with
  | 1 => 6
  | 3 => 4
  | 4 => 3
  | 6 => 1
  | _ => let c := s.rf (Reg.EMAC_CFG p) 11 8; if c = 0 then neg else c

/-- The T1S link of PHY m follows R232 (E12, E13). -/
def State.t1Sync (s : State) (m : Nat) : State :=
  let p := 12 + m
  if s.rf (Reg.EMAC_CFG p) 2 0 ≠ 6 then s
  else if s.t1Up m then (if s.ethLink p then s else s.ethLinkUp p 1) else s.linkLoss p

/-- A commit applied the EMAC settings of port p; old: its previous CFG word (R232, R248). -/
def State.emacCommit (s : State) (p : Nat) (old : Word) : State :=
  let cfg := s.rd (Reg.EMAC_CFG p)
  let s := if fld cfg 2 0 = 0 then
      if s.rf (Reg.EMAC_STAT p) 30 29 = 2 then s
      else
        let s := if s.ethLink p then (s.bump (Reg.EMAC_LINKDN p) 1 7).ist (Reg.pgEMAC p) 1 else s
        let s := ((s.abortTx p).wf (Reg.EMAC_STAT p) 31 31 0).wf (Reg.EMAC_STAT p) 7 4 0
        (s.setEmac p { s.emacOf p with pause := [], wd := [], ign := [] }).goDown p
    else if (fld old 2 0 ≠ fld cfg 2 0 ∨ fld old 11 8 ≠ fld cfg 11 8) then s.linkLoss p
    else s
  s.pauseAsk p

/-- A port takes part in MODE m (R229). -/
def modeOk (p m : Nat) : Bool :=
  if m = 0 then true
  else if p < 4 then decide (m ≤ 5)
  else if p < 12 then m == 4 || m == 5
  else m == 6

/-- The settings a commit would apply to port p are accepted (R230). -/
def emacCfgOk (p : Nat) (cfg maxf fc : Word) : Bool :=
  let m := fld cfg 2 0
  let sp := fld cfg 11 8
  let l := fld maxf 13 0
  let f := fld fc 1 0
  modeOk p m
    && (if m = 2 then decide (sp ≤ 6) else if m = 5 then decide (sp ≤ 3) else true)
    && decide (64 ≤ l) && decide (l ≤ if p < 12 then 9216 else 1522)
    && (if p < 12 then decide (f ≤ 2) else f == 0)

/-- LOSS_OF_LINK (R248). -/
def execLossOfLink (port : Fin 14) (s : State) : Host.Outcome State Fault Refusal := .next (s.linkLoss port)

/-- LINK_UP (R231, R248): the PCS link of a SerDes port is good, or the condition of R232 holds for E12 and E13. A partner
that reports half duplex on SGMII or USXGMII keeps the link down. -/
def execLinkUp (port : Fin 14) (speed : Fin 7) (half : Bool) (s : State) : Host.Outcome State Fault Refusal :=
  let p := port.val
  let m := s.rf (Reg.EMAC_CFG p) 2 0
  .next (if m = 0 ∨ s.ethLink p ∨ (p < 12 ∧ s.inSave) then s
  else if m = 6 ∧ !s.t1Up (p - 12) then s
  else if half ∧ (m = 2 ∨ m = 5) then s.ist (Reg.pgEMAC p) 6
  else s.ethLinkUp p (s.speedCode p speed))

/-- LINK_HOLD_EXPIRY (R248, R250). -/
def execLinkHoldExpiry (port : Fin 14) (s : State) : Host.Outcome State Fault Refusal :=
  let p := port.val
  .next (if s.ethHold p && decide ((s.emacOf p).holdAt + s.linkHoldNs p ≤ s.now) then s.goDown p else s)

/-- Auto-negotiation runs on port p: ANCTL.EN in a mode that has it. -/
def State.anOn (s : State) (p : Nat) : Bool :=
  let m := s.rf (Reg.EMAC_CFG p) 2 0
  s.rb (Reg.EMAC_ANCTL p) 0 && (m == 2 || m == 4 || m == 5)

/-- AUTO_NEGOTIATION_COMPLETE (R233): the results are reported and not applied. -/
def execAutoNegotiationComplete (port : Fin 14) (lpPause : Fin 4) (s : State) : Host.Outcome State Fault Refusal :=
  .next (if s.anOn port then s.wf (Reg.EMAC_STAT port) 28 26 (4 + lpPause) else s)

/-- A write of EMACn_ANCTL: RESTART ends the completed state. -/
def anctlWrite (p : Nat) (v : Word) (s : State) : State :=
  if bitOf v 8 then s.wb (Reg.EMAC_STAT p) 28 false else s

def execAutoNegotiationRestart (init : Initiator) (port : Fin 14) (v : Word) (s : State) : Host.Outcome State Fault Refusal :=
  .next (s.cmdWrite init (Reg.EMAC_ANCTL port) v (anctlWrite port v))

/-- EMACn_CNTCLR. -/
def emacCclrWrite (p : Nat) (v : Word) (s : State) : State :=
  if bitOf v 0 then s.clear (Reg.EMAC_OFFSTAT p :: (List.range 38).map (fun k => Reg.EMAC_RXOK p + 4 * k)) else s

/-! Pause (R239, R244, R246). -/

/-- Class c of port p is paused for q quanta; 0 releases. -/
def State.pauseSet (s : State) (p c q : Nat) : State :=
  let s := s.wdSync p
  let e := s.emacOf p
  let pa := if q = 0 then amDel e.pause c else amPut e.pause c (s.now + s.quantaNs p q)
  (s.setEmac p { e with pause := pa }).wdSync p

/-- A PAUSE of q quanta is received. -/
def State.pauseRx (s : State) (p q : Nat) : State :=
  let s := s.bump (Reg.EMAC_RXPAUSE p) 1 7
  if s.rf (Reg.EMAC_FC p) 1 0 = 1 ∧ !s.standby ∧ !s.pauseIgn p 8 then s.pauseSet p 8 q
  else s.bump (Reg.EMAC_RXCTLIGN p) 1 7

/-- A PFC is received: class vector and quanta of each class. It counts as not acted on where no class is acted on. -/
def State.pfcRx (s : State) (p vec : Nat) (q : Nat → Nat) : State :=
  let s := s.bump (Reg.EMAC_RXPFC p) 1 7
  let cs := (setBits (vec &&& s.rf (Reg.EMAC_FC p) 15 8) 8).filter (fun c => !s.pauseIgn p c)
  if s.rf (Reg.EMAC_FC p) 1 0 = 2 ∧ !s.standby ∧ cs ≠ [] then cs.foldl (fun t c => t.pauseSet p c (q c)) s
  else s.bump (Reg.EMAC_RXCTLIGN p) 1 7

def execPauseReceive (port : Fin 14) (quanta : Fin 65536) (s : State) : Host.Outcome State Fault Refusal :=
  .next (if s.ethLink port then s.pauseRx port quanta else s)

def execPfcReceive (port : Fin 14) (vector : Fin 256) (quanta : List (Fin 65536)) (s : State) : Host.Outcome State Fault Refusal :=
  .next (if s.ethLink port then
    s.pfcRx port vector (fun c => match quanta[c]? with | some q => q.val | none => 0) else s)

/-- PAUSE_EXPIRY: class 8 is the whole port. -/
def execPauseExpiry (port : Fin 14) (cls : Fin 9) (s : State) : Host.Outcome State Fault Refusal :=
  let e := s.emacOf port
  match amGet e.pause cls with
  | none => .next s
  | some t => .next (if t ≤ s.now then (s.setEmac port { e with pause := amDel e.pause cls }).wdSync port else s)

/-- PWDLIM of port p in ns. -/
def State.pwdNs (s : State) (p : Nat) : Nat := clampN 1 1000 (s.rf (Reg.EMAC_FC p) 25 16) * 1000000

/-- PAUSE_WATCHDOG_TRIP (R246). -/
def execPauseWatchdogTrip (port : Fin 14) (cls : Fin 9) (s : State) : Host.Outcome State Fault Refusal :=
  let p := port.val
  let s := s.wdSync p
  let e := s.emacOf p
  match amGet e.wd cls with
  | none => .next s
  | some t =>
    if t + s.pwdNs p ≤ s.now then
      let s := s.setEmac p { e with pause := amDel e.pause cls, wd := amDel e.wd cls, ign := amPut e.ign cls (s.now + s.pwdNs p) }
      .next ((s.bump (Reg.EMAC_PWDTRIP p) 1 7).ist (Reg.pgEMAC p) 3)
    else .next s

def execPauseIgnoreEnd (port : Fin 14) (cls : Fin 9) (s : State) : Host.Outcome State Fault Refusal :=
  let e := s.emacOf port
  match amGet e.ign cls with
  | none => .next s
  | some t => .next (if t ≤ s.now then s.setEmac port { e with ign := amDel e.ign cls } else s)

/-! Pause frames sent (R245). -/

/-- The pause frame of port p: a PAUSE or a PFC whose vector names the classes that ask and those whose request ended. -/
def State.pauseFrame (s : State) (p : Nat) (ask ended : List Nat) : List Byte :=
  let q := max 1 (s.rf (Reg.EMAC_PQ p) 15 0)
  let hd : List Byte := [0x01, 0x80, 0xC2, 0x00, 0x00, 0x01] ++ beBytes 2 (s.rf (Reg.EMAC_SMAC_HI p) 15 0)
    ++ beBytes 4 (s.rd (Reg.EMAC_SMAC_LO p)).toNat ++ [0x88, 0x08]
  let body := if ask.contains 8 || ended.contains 8 then beBytes 2 1 ++ beBytes 2 (if ask.contains 8 then q else 0)
    else
      let vec := ((List.range 8).map (fun c => if ask.contains c || ended.contains c then 2 ^ c else 0)).sum
      beBytes 2 0x0101 ++ beBytes 2 vec ++ ((List.range 8).map (fun c => beBytes 2 (if ask.contains c then q else 0))).flatten
  padFrame (hd ++ body)

/-- Port p tells its partner which classes ask to pause. A PAUSE and a PFC are two frames: where the mode has changed, the requests made
under the other mode are ended first. -/
def State.pauseTell (s : State) (p : Nat) : State :=
  let e := s.emacOf p
  let other := e.told.filter (fun c => (c == 8) != (s.rf (Reg.EMAC_FC p) 1 0 == 1))
  let ask := if other = [] then e.ask else []
  let ended := e.told.filter (fun c => !ask.contains c)
  let port := ask.contains 8 || ended.contains 8
  let b := s.pauseFrame p ask ended
  let s := (s.emit (.eth p b true)).txStats p b
  let s := s.bump (if port then Reg.EMAC_TXPAUSE p else Reg.EMAC_TXPFC p) 1 7
  s.setEmac p { e with told := ask, toldAt := s.now }

/-- PAUSE_REQUEST_SEND (R245). -/
def execPauseRequestSend (port : Fin 14) (s : State) : Host.Outcome State Fault Refusal :=
  .next (if s.pauseNew port then s.pauseTell port else s)

/-- PAUSE_REPEAT (R245). -/
def execPauseRepeat (port : Fin 14) (s : State) : Host.Outcome State Fault Refusal :=
  .next (if s.pauseAgain port then s.pauseTell port else s)

/-! Reception (R236-R239, R513). -/

/-- Bytes of the receive FIFO of port p. -/
def fifoSize (p : Nat) : Nat := if p < 4 then 32768 else if p < 12 then 16384 else 4096

/-- The counter of the first row of R236 that a frame of len bytes meets. -/
def rxRow (p len maxlen held : Nat) (fcsOk symErr : Bool) : Option Nat :=
  if fifoSize p < held + maxlen + 32 then some (Reg.EMAC_RXOVF p)
  else if symErr then some (Reg.EMAC_RXSYMERR p)
  else if len < 64 then some (if fcsOk then Reg.EMAC_RXRUNT p else Reg.EMAC_RXFRAG p)
  else if maxlen < len then some (if fcsOk then Reg.EMAC_RXLONG p else Reg.EMAC_RXJABBER p)
  else if fcsOk then none
  else some (Reg.EMAC_RXFCSERR p)

/-- The size counter of a frame of len bytes. -/
def sizeReg (p len : Nat) : Nat :=
  if len ≤ 64 then Reg.EMAC_RX64 p else if len ≤ 127 then Reg.EMAC_RX65_127 p else if len ≤ 255 then Reg.EMAC_RX128_255 p
  else if len ≤ 511 then Reg.EMAC_RX256_511 p else if len ≤ 1023 then Reg.EMAC_RX512_1023 p
  else if len ≤ 1518 then Reg.EMAC_RX1024_1518 p else Reg.EMAC_RX1519_MAX p

/-- Statistics of a frame port p passes to the switch (R251). -/
def State.rxStats (s : State) (p : Nat) (b : List Byte) : State :=
  let da := beAt b 0 6
  let s := (s.bump (Reg.EMAC_RXOK p) 1 7).bump (Reg.EMAC_RXOCT p) (b.length + 4) 7
  let s := s.bump (sizeReg p (b.length + 4)) 1 7
  if da = 2 ^ 48 - 1 then s.bump (Reg.EMAC_RXBCAST p) 1 7
  else if nbit da 40 then s.bump (Reg.EMAC_RXMCAST p) 1 7 else s

/-- Rate in Mb/s at which the receive FIFO of port p drains into the switch: its write share (R255). -/
def fifoRate (p : Nat) : Nat := if p < 4 then 10000 else if p < 12 then 1000 else 10

/-- Bytes in the receive FIFO of port p at local time t (R237): admission never waits (R263), so it drains all the time (log entry 77). -/
def State.fifoHeld (s : State) (p t : Nat) : Nat :=
  let q := (s.emacOf p).fifo
  q.1 - fifoRate p * (t - q.2) / 8000

/-- A frame of n bytes whose SFD came age ns ago has gone through the receive FIFO of port p. -/
def State.fifoFill (s : State) (p n age : Nat) : State :=
  s.setEmac p { s.emacOf p with fifo := (s.fifoHeld p (s.now - age) + n - fifoRate p * age / 8000, s.now) }

/-- The frame as it enters the switch at external port p with a receive stamp; its SFD came age ns ago. -/
def State.portFrame (s : State) (p : Nat) (b : List Byte) (stamp age : Nat) : SwFrame :=
  { bytes := b, port := p, tc := 0, epoch := s.epoch, at_ := s.now - age, stamp := stamp, bin := s.tsy.full }

/-- The receive stamp at port p of an SFD that reached its MAC age ns ago (R323). -/
def State.rxStamp (s : State) (p age : Nat) : Nat :=
  s.fullBack (age + s.rf (Reg.TSY_PLAT p) 15 0 + (if p < 12 then 0 else s.linkHalf)) % 2 ^ 32

/-- A frame that passed its checks is mirrored by the active; one that finds no room on the pair link is dropped (R17, R513). -/
def State.mirror (s : State) (p stamp : Nat) (b : List Byte) : State :=
  if s.rf Reg.PAIR_STAT 1 0 = 1 ∧ p ≠ 3 ∧ s.rb Reg.PAIR_CTL (16 + p) then
    if s.ethLink 3 && decide (s.pair.lineTo ≤ s.now + Config.pairRoom) then
      s.pairLine ([0x01, BitVec.ofNat 8 p] ++ beBytes 2 (b.length + 4) ++ beBytes 4 stamp ++ b ++ leBytes 4 (crc32 b))
    else (s.bump Reg.PAIR_MIRDROP 1 8).ist Reg.pgPAIR 4
  else s

/-- The copy of frame i in queue k, released by cut-through, is being sent when its ingress check fails: its port selected it (R274) and
ends it with the inverse FCS (R238). -/
def State.stompStart (s : State) (i k : Nat) : State :=
  let p := k / 8
  let s := (List.range 8).foldl (fun t c => t.cbsSync p c) s
  if s.portMay p && s.pickClass p == some (k % 8) && (s.queueOf k).head?.any (fun c => c.fid == i && c.ct) then
    let s := State.ethSelect p true 1 s
    match (s.emacOf p).tx with
    | some t => if t.fid = i then s.setEmac p { s.emacOf p with tx := some { t with bad := true } } else s
    | none => s
  else s

/-- A copy of frame i that queue k still holds leaves it uncounted. -/
def State.stompRest (s : State) (i k : Nat) : State :=
  if (s.queueOf k).any (fun d => d.fid == i) then
    ((s.setQueue k ((s.queueOf k).filter (fun d => d.fid != i))).freeCopy i k).wdSync (k / 8)
  else s

/-- A frame that fails its checks never reaches the switch (R236), unless a copy was released by cut-through (R278, R34): then each port
that is sending it stomps it, and its other copies leave uncounted. -/
def State.badFrame (s : State) (f : SwFrame) : State :=
  if bitOf (s.force Reg.SWC_FWDCTL) f.port && !s.msecOn f.port && bitOf (s.cfg f.epoch Reg.SWC_CTL) 0
      && decide (128 ≤ f.bytes.length) && !s.standby then
    let (t, i) := s.storeEth f
    let t := t.forwardEth i false
    let ks := t.holders i
    if ks.any (fun k => (t.queueOf k).any (fun c => c.fid == i && c.ct)) then
      let t := ks.foldl (fun u k => u.stompStart i k) t
      ks.foldl (fun u k => u.stompRest i k) t
    else s
  else s

/-- A discard at an EMAC is traced with a free cause code. -/
def State.emacDrop (s : State) (p a : Nat) : State :=
  let s := s.bump a 1 7
  let (w, s) := s.draw
  s.traceDrop p 3 (w.toNat % 256) p

/-- A MAC control frame (R239). -/
def State.macControl (s : State) (p : Nat) (b : List Byte) : State :=
  let op := beAt b 14 2
  if op = 1 then s.pauseRx p (beAt b 16 2)
  else if op = 0x0101 then s.pfcRx p (byteAt b 17) (fun c => beAt b (18 + 2 * c) 2)
  else s.bump (Reg.EMAC_RXCTLIGN p) 1 7

/-- A frame received at external port p. -/
def State.rxEth (s : State) (p : Nat) (b : List Byte) (fcsOk symErr : Bool) (age : Nat) : State :=
  let pair := p == 3 && s.pairOn
  let ml := if pair then 9260 else s.rf (Reg.EMAC_MAXFRM p) 13 0
  let row := rxRow p (b.length + 4) ml (s.fifoHeld p (s.now - age)) fcsOk symErr
  let s := if row = some (Reg.EMAC_RXOVF p) then s else s.fifoFill p (min (b.length + 4) (ml + 1)) age
  match row with
  | some a =>
    let s := (s.emacDrop p a).istIf (a == Reg.EMAC_RXOVF p) (Reg.pgEMAC p) 4
    if a = Reg.EMAC_RXOVF p ∨ pair ∨ beAt b 12 2 = 0x8808 then s
    else s.badFrame (s.portFrame p (b.take (ml + 1)) (s.rxStamp p age) age)
  | none =>
    if beAt b 12 2 = 0x8808 then s.macControl p b
    else if pair then s
    else if s.standby ∧ p ≠ 3 then s.bump Reg.PAIR_OWNDISC 1 8
    else
      let st := s.rxStamp p age
      let s := (s.rxStats p b).mirror p st b
      s.enterEth (s.portFrame p b st age)

/-- The receive fault of PHY m is taken by the frame that ends (R76). -/
def State.setT1sErr (s : State) (m : Nat) : State := { s with xpl := { s.xpl with t1sErr := lset s.xpl.t1sErr m false } }

/-- A frame of another node was received by PHY m, its first bit age ns ago: its opportunity is over (R234; log entry 77). -/
def State.plcaHeard (s : State) (p age : Nat) : State := if p < 12 then s else (s.plcaSync (p - 12) (s.mono - age)).plcaNext (p - 12)

/-- A frame formed inside the device enters the switch: it has been written whole. -/
def State.swEnter (s : State) (e : EthIn) : State :=
  s.enterEth { bytes := e.bytes, port := e.port, tc := e.tc, epoch := s.epoch, at_ := s.now, stamp := e.stamp, bin := s.tsy.full,
               direct := e.direct, csum := e.csum, lso := e.lso, hq := e.hq, tsreq := e.tsreq }

/-- ETHERNET_FRAME_RECEIVE (R236, R254, R258): external ports 0-13 have received the bytes given, whose SFD came note.age ns ago (without FCS;
the FCS good or bad; an error code or loss of link within it, or on E12 and E13 a nibble lost on the Xanpel link (R76)); at 14 and 15 the
oldest frame formed inside the device for that port has been written whole; at 16 Laurel has written a frame of these bytes with the class
it sets. -/
def execEthernetFrameReceive (port : Fin 18) (bytes : List Byte) (fcsOk symErr : Bool) (note : EthNote) (s : State) :
    Host.Outcome State Fault Refusal :=
  let p := port.val
  if p < 14 then
    let lost := decide (12 ≤ p) && s.xpl.t1sErr[p - 12]?.getD false
    let s := if p < 12 then s else s.setT1sErr (p - 12)
    .next (if s.ethLink p && s.rf (Reg.EMAC_CFG p) 2 0 != 0 then (s.plcaHeard p note.age).rxEth p bytes fcsOk (symErr || lost) note.age else s)
  else if p = 16 then .next (s.swEnter { port := 16, tc := note.cls, bytes := bytes, stamp := s.stamp32 })
  else
    match s.swIn.find? (fun e => e.port == p) with
    | none => .next s
    | some e => .next (State.swEnter { s with swIn := s.swIn.erase e } e)

/-! 10BASE-T1S (R234, R235, R253). -/

/-- A physical collision on the segment of PHY m (R235): counted, under PLCA with PG_IST.COLL; the frame on the line backs off, or is
dropped after its 16th attempt. A frame that waits in backoff is not on the line and met no collision. -/
def State.collision (s : State) (m : Fin 2) : State :=
  let p := 12 + m.val
  let s := (s.bump (Reg.T1SP_COLL m) 1 3).istIf (s.rb (Reg.T1SP_CTL m) 1) (Reg.pgT1SP m) 2
  let e := s.emacOf p
  match e.tx with
  | none => s
  | some t =>
    if e.backoff then s
    else
      let s := s.bump (Reg.EMAC_TXCOLL p) 1 7
      if 16 ≤ e.tries + 1 then
        let s := (((s.bump (Reg.EMAC_TXEXCOLL p) 1 7).endTxJob t).setEmac p
          { e with tx := none, tries := 0, backoff := false }).plcaSent p
        if t.last then s.freeCopy t.fid t.key else s
      else s.setEmac p { e with tries := e.tries + 1, backoff := true }

/-- PHYSICAL_COLLISION (R235). -/
def execPhysicalCollision (m : Fin 2) (s : State) : Host.Outcome State Fault Refusal := .next (s.collision m)

/-- BACKOFF_EXPIRY (R235): the frame is sent again. -/
def execBackoffExpiry (m : Fin 2) (s : State) : Host.Outcome State Fault Refusal :=
  .next (s.setEmac (12 + m.val) { s.emacOf (12 + m.val) with backoff := false })

/-- PHY m and its PLCA are enabled. -/
def State.plcaOn (s : State) (m : Nat) : Bool := s.rb (Reg.T1SP_CTL m) 0 && s.rb (Reg.T1SP_CTL m) 1

/-- A BEACON may be on the segment of PHY m: the coordinator sends the next one when its node count of opportunities is over. -/
def State.beaconDue (s : State) (m : Nat) : Bool :=
  let e := s.emacOf (12 + m)
  s.plcaOn m && (!e.plcaRun || fld e.plca 7 0 != 0 || decide (s.toLast m ≤ s.curId m))

/-- BEACON (R234): sent or received; settings written since the last one are taken into use, and opportunity 0 begins. -/
def execBeacon (m : Fin 2) (s : State) : Host.Outcome State Fault Refusal :=
  let p := 12 + m.val
  let w := s.rd (Reg.T1SP_PLCA m)
  let x := s.rd (Reg.T1SP_PTIME m)
  .next (if s.beaconDue m then
    (s.wf (Reg.T1SP_STAT m) 7 0 0).setEmac p
      { s.emacOf p with plcaPend := false, plca := w, ptime := x, plcaRun := true, toEnd := s.mono + max 1 (fld x 7 0) * 100,
                        toLeft := fld w 23 16 + 1 }
  else s)

/-- The PLCA status of PHY m is now ok (R232, R253): it is OK only while the PHY and PLCA are enabled, and a change to not OK is
counted. -/
def State.plcaStatus (s : State) (m : Nat) (ok : Bool) : State :=
  let ok := ok && s.plcaOn m
  if s.rb (Reg.T1SP_STAT m) 31 == ok then s
  else
    let s := s.wb (Reg.T1SP_STAT m) 31 ok
    let s := if ok then s.ist (Reg.pgT1SP m) 0 else (s.bump (Reg.T1SP_BCNLOSS m) 1 3).ist (Reg.pgT1SP m) 1
    s.t1Sync m

/-- A write of T1SPm_CTL: with the PHY or PLCA off its cycle ends and its status is not OK. -/
def t1spCtlWrite (m : Nat) (s : State) : State :=
  (if s.plcaOn m then s
  else ((s.setEmac (12 + m) { s.emacOf (12 + m) with plcaRun := false }).wf (Reg.T1SP_STAT m) 7 0 0).plcaStatus m false).t1Sync m

/-- PLCA_STATUS_CHANGE (R232, R253). -/
def execPlcaStatusChange (m : Fin 2) (ok : Bool) (s : State) : Host.Outcome State Fault Refusal := .next (s.plcaStatus m ok)

/-- A write of T1SPm_PLCA or PTIME waits for the next BEACON. -/
def plcaWrite (m : Nat) (s : State) : State := s.setEmac (12 + m) { s.emacOf (12 + m) with plcaPend := true }

/-- T1SPm_CNTCLR. -/
def t1spCclrWrite (m : Nat) (v : Word) (s : State) : State :=
  if bitOf v 0 then s.clear [Reg.T1SP_COLL m, Reg.T1SP_BCNLOSS m] else s

end Sys2Proof.Machine
end

