-- ==== Sys2Proof/Machine/Verify.lean ====
section
/-! DEFINITION. Verification of gated frames (12_crypto_engine.md R348-R350) and the states of the pipes (R340). -/
namespace Sys2Proof.Machine

/-- The parts of a received SecTAG (R343): TCI and AN byte, SL, PN, explicit SCI, length of header and SecTAG, secure data. -/
structure SecIn where
  tci : Nat
  sl : Nat
  pn : Nat
  sci : List Byte
  hd : Nat
  data : List Byte
  icv : List Byte
  deriving DecidableEq, Repr

/-- The SecTAG of frame b. -/
def secIn (b : List Byte) : SecIn :=
  let tci := byteAt b 14
  let sc := nbit tci 5
  let hd := if sc then 28 else 20
  let sl := byteAt b 15
  let rest := b.drop hd
  let dl := if sl = 0 then rest.length - 16 else sl
  { tci := tci, sl := sl, pn := beAt b 16 4, sci := if sc then (b.drop 20).take 8 else (b.drop 6).take 6 ++ [0x00, 0x01], hd := hd,
    data := rest.take dl, icv := (rest.drop dl).take 16 }

/-- Row 3 of R348. SL matches the frame where it is 0 and the secure data has 48 bytes or more, or where it is the length of the
secure data of a frame that is padded to 60 bytes at most. -/
def secBad (b : List Byte) : Bool :=
  let t := secIn b
  let rest := b.length - t.hd
  nbit t.tci 7 || (nbit t.tci 6 && nbit t.tci 5) || (nbit t.tci 5 && nbit t.tci 4) || decide (48 ≤ t.sl) || t.pn == 0
    || decide (b.length < t.hd + 16)
    || (if t.sl = 0 then decide (rest < 64)
        else decide (rest < t.sl + 16) || (decide (t.sl + 16 < rest) && decide (60 < b.length)))

/-- The frame without SecTAG and ICV, over secure data d. -/
def stripped (b d : List Byte) : List Byte := b.take 12 ++ d

/-- PN recovery (R349), modulo 2^64, and the lowest acceptable PN: SA a, replay window of its SC. -/
def pnRecover (a : Sa) (replay : Bool) (window r : Nat) : Nat × Nat :=
  let l := if replay then max (a.pn - window) 1 else a.pn
  let hi := l / 2 ^ 32
  (((if l % 2 ^ 32 ≤ r then hi else hi + 1) * 2 ^ 32 + r) % 2 ^ 64, l)

/-- A gated frame is released as bytes b, reduced to the ports of mask; ver: verified. -/
def State.gateRelease (s : State) (i : Nat) (b : List Byte) (mask : Nat) (ver : Bool) : State :=
  match s.frameOf i with
  | none => s
  | some f =>
    let s := (s.setFrame i { f with bytes := b, only := mask, msec := ver }).gateSet i true
    State.gatePump s.sw.gate.length s

/-- A gated frame is dropped. -/
def State.gateLose (s : State) (i : Nat) : State := s.gateDrop i

/-- All ports. -/
def allPorts : Nat := 0x3FFFF

/-- The frame at the head of CRYP is taken: it leaves the queue and keeps its cells. -/
def State.takeGated (s : State) (k : Nat) : State := s.popHead k

/-- Start the verification of frame i, bytes b, with SA a of SC c (R348 rows 7-9); keep: an ICV that fails drops it. -/
def State.startVerify (s : State) (k i c a : Nat) (b : List Byte) (keep : Bool) : State :=
  let t := secIn b
  let sa := s.saOf a
  let replay := bitOf (s.scw c 2) 22
  let (pn, l) := pnRecover sa replay (s.scw c 4).toNat t.pn
  if replay ∧ pn < l then (((s.takeGated k).msecSa a 3).cryFail 2 kFRESH a).gateLose i
  else if !s.cryOn || !s.crySlot 2 || !s.keysReady then s
  else
    let code := s.keyCheck sa.slot 0
    if code ≠ 0 then ((s.takeGated k).cryFail 2 code a).gateLose i
    else match s.choosePipe with
      | none => s
      | some (pipe, s) =>
        let key := s.slotKeyBytes sa.slot
        let hd := b.take t.hd
        let conf := nbit t.tci 2
        let r := if conf then gcmDec key (xpnIv sa pn) hd t.data else gcmDec key (xpnIv sa pn) (hd ++ t.data) []
        let ok := r.2 == t.icv
        let out := if ok then stripped b (if conf then r.1 else t.data) else if keep then [] else stripped b t.data
        (s.takeGated k).addJob ⟨2, pipe, (b.length + 15) / 16, i, a, if ok then kOK else kAUTHFAIL, out, pn, key⟩

/-- The rows of R348 for frame i with bytes b at the head of queue k of CRYP, from port p. -/
def State.judgeGated (s : State) (k i p : Nat) (b : List Byte) : State :=
  let val := s.rf (Reg.MSEC_PCFG p) 2 1
  let strict := decide (2 ≤ val)
  let et := beAt b 12 2
  if et = 0x888E then ((s.takeGated k).msecPort p 6).gateRelease i b (2 ^ 14 + 2 ^ 16) false
  else if et ≠ 0x88E5 then
    if strict then ((s.takeGated k).msecPort p 0).gateLose i
    else ((s.takeGated k).msecPort p 6).gateRelease i b allPorts false
  else if secBad b then ((s.takeGated k).msecPort p 1).gateLose i
  else
    let t := secIn b
    let conf := nbit t.tci 2
    let plain := stripped b t.data
    if val = 0 then
      let s := (s.takeGated k).msecPort p 5
      if conf then s.gateLose i else s.gateRelease i plain allPorts false
    else match s.scFind p false (fun ws => match ws with
        | w0 :: w1 :: _ => wordBytes w1 ++ wordBytes w0 == t.sci
        | _ => false) with
      | none =>
        if strict || conf then ((s.takeGated k).msecPort p 2).gateLose i
        else ((s.takeGated k).msecPort p 3).gateRelease i plain allPorts false
      | some c =>
        let a := s.scSa c (t.tci % 4)
        if !(s.saOf a).inuse then
          let s := (s.takeGated k).msecPort p 4
          if strict || conf then s.gateLose i else s.gateRelease i plain allPorts false
        else s.startVerify k i c a b (strict || conf)

/-- Another frame of port p is being verified: the checks of R349 use its result first. -/
def State.verifying (s : State) (p : Nat) : Bool :=
  s.cry.jobs.any (fun q => q.2.cls == 2 && (match s.frameOf q.2.ref with | some f => f.port == p | none => false))

/-- The head of CRYP class c is judged; a head past its deadline is dropped first. At most n frames. -/
def State.verifyHead (k : Nat) : Nat → State → State
  | 0, s => s
  | n + 1, s =>
    match s.queueOf k with
    | [] => s
    | c :: _ =>
      match s.frameOf c.fid with
      | none => s
      | some f =>
        if s.ethLate k c f then State.verifyHead k n ((s.dropLate k c).gateDrop c.fid)
        else if s.verifying f.port then s
        else if !s.rb Reg.MSEC_CTL 0 then (s.takeGated k).gateLose c.fid
        else s.judgeGated k c.fid f.port f.bytes

/-- MACSEC_VERIFY_JOB (R348): the head of the highest class of CRYP that holds a frame. -/
def execMacsecVerifyJob (s : State) : Host.Outcome State Fault Refusal :=
  match [7, 6, 5, 4, 3, 2, 1, 0].find? (fun c => !(s.queueOf (8 * 17 + c)).isEmpty) with
  | none => .next s
  | some c => .next (State.verifyHead (8 * 17 + c) (s.queueOf (8 * 17 + c)).length s)

/-- A verification job j has ended with a code: the frame is released or dropped (R348 rows 8 and 9, R339, R364). -/
def State.verifyEnd (s : State) (j : CryJob) (code : Nat) : State :=
  let i := j.ref
  let s := if code = kOK then s else s.cryFail 2 code j.ix
  match s.frameOf i with
  | none => s
  | some f =>
    if f.flushed then (s.swDrop 17 2 1).gateLose i
    else if code = kOK then
      let a := s.saOf j.ix
      let s := (s.setSa j.ix { a with pn := min (2 ^ 64 - 1) (max a.pn (j.val + 1)) }).msecSa j.ix 0
      s.gateRelease i j.out allPorts true
    else if code = kAUTHFAIL then
      if j.out.isEmpty then (s.msecSa j.ix 2).gateLose i
      else (s.msecSa j.ix 1).gateRelease i j.out allPorts false
    else s.gateLose i

/-- CRYPTO_VERIFY_COMPLETE (R350): agree: copies A and B agree on the output (R338, R339). A job that was already ended keeps its
code. -/
def execCryptoVerifyComplete (job : Nat) (agree : Bool) (s : State) : Host.Outcome State Fault Refusal :=
  match s.jobOf job with
  | none => .next s
  | some j =>
    if j.cls ≠ 2 then .next s
    else
      let s := s.delJob job
      if j.code = kOK ∨ j.code = kAUTHFAIL then
        .next (((s.compare j.pipe agree).verifyEnd j (if agree then j.code else kCMPFAIL)).saSettle j.ix)
      else .next ((s.verifyEnd j j.code).saSettle j.ix)

/-- KNOWN_ANSWER_TEST_COMPLETE (R340). -/
def execKnownAnswerTestComplete (pipe : Fin 2) (pass : Bool) (s : State) : Host.Outcome State Fault Refusal :=
  let p := pipe.val
  .next (if s.pipeState p ≠ 0 then s
  else if pass then s.wf Reg.CRY_PIPESTAT (16 * p + 9) (16 * p + 8) 1
  else s.pipeFault p)

/-- A write of CRY_PIPECTL: a pipe in FAULT clears MISS and starts its test (R340). -/
def pipectlWrite (v : Word) (s : State) : State :=
  [0, 1].foldl (fun t p =>
    if bitOf v p && t.pipeState p == 2 then (t.setMiss p 0).wf Reg.CRY_PIPESTAT (16 * p + 9) (16 * p + 8) 0 else t) s

def execPipeRestart (init : Initiator) (v : Word) (s : State) : Host.Outcome State Fault Refusal :=
  .next (s.cmdWrite init Reg.CRY_PIPECTL v (pipectlWrite v))

/-- CRY_CNTCLR. -/
def cryCclrWrite (v : Word) (s : State) : State :=
  if bitOf v 0 then
    (s.clear [Reg.CRY_CMPERR, Reg.CRY_INVERR, Reg.CRY_KEYERR, Reg.CRY_NOKEY, Reg.CRY_TAMPAB, Reg.CRY_MEMFAIL, Reg.CRY_LASTERR]).wf
      Reg.CRY_JOBS 23 16 0
  else s

end Sys2Proof.Machine
end

