-- ==== Sys2Proof/Machine/Cauth.lean ====
section
/-! DEFINITION. Authenticated CAN PDUs (12_crypto_engine.md R353-R358, R367) and the marks of the counter reserves (R359, R433). -/
namespace Sys2Proof.Machine

/-- Freshness counter i. -/
def State.freshOf (s : State) (i : Nat) : Nat := amGetD 0 s.fresh i

/-- Set freshness counter i; crossing a multiple of 2^RSV posts a mark (R359). -/
def State.setFresh (s : State) (i v : Nat) : State :=
  ({ s with fresh := amSet 0 s.fresh i v }).markCross i (s.rf Reg.CAUTH_CTL 12 8) (s.freshOf i) v

/-- The words of an association: key slot, padding byte, counter, FVB, MACB, PLEN, acceptance window, data ID, STRIP (R353). -/
structure AssocIn where
  slot : Nat
  padb : Nat
  fc : Nat
  fvb : Nat
  macb : Nat
  plen : Nat
  win : Nat
  dataid : Nat
  strip : Bool
  deriving DecidableEq, Repr

/-- The fields of four association words. -/
def assocIn (ws : List Word) : AssocIn :=
  { slot := fld (wat ws 1) 24 16, padb := fld (wat ws 1) 15 8, fc := fld (wat ws 2) 31 20, fvb := fld (wat ws 2) 19 16,
    macb := fld (wat ws 2) 15 11, plen := fld (wat ws 2) 10 0, win := fld (wat ws 3) 31 16, dataid := fld (wat ws 3) 15 0,
    strip := bitOf (wat ws 1) 26 }

/-- Association i as it stands. -/
def State.assoc (s : State) (i : Nat) : List Word := amGetD [0, 0, 0, 0] s.cauth i

/-- The message a MAC covers (R355, R356): data ID, payload, freshness value. -/
def macMsg (a : AssocIn) (payload : List Byte) (f : Nat) : List Byte := beBytes 2 a.dataid ++ payload ++ beBytes 8 f

/-- The counters in use by CAN jobs in flight: a job's counter stands in its ref beside its slot. -/
def State.fcBusy (s : State) (i : Nat) : Bool := s.cry.jobs.any (fun q => q.2.cls == 1 && q.2.ref / 2 ^ 32 == i)

/-- A job of counter i was accepted before copy k of slot id and has not started (R354). -/
def State.fcAhead (s : State) (i id k : Nat) : Bool :=
  s.prv.slots.any (fun p =>
    (decide (p.1 < id) && (match p.2.phase with
      | .waitVerify _ ws => (assocIn (ws.drop 1)).fc == i
      | _ => false))
    || (p.2.copies.zipIdx).any (fun q => (decide (p.1 < id) || (p.1 == id && decide (q.2 < k)))
        && (match q.1.sec with
          | .needed a => (assocIn (s.assoc a)).fc == i
          | _ => false)))

/-- A failure is recorded in CAUTH_LASTFAIL (R367). -/
def State.caFail (s : State) (a cause : Nat) : State :=
  s.wr Reg.CAUTH_LASTFAIL (BitVec.ofNat 32 (2 ^ 31 + cause * 2 ^ 24 + a))

/-- Copy k of slot id, c, is dropped by its CAN job. -/
def State.caDrop (s : State) (id k : Nat) (c : Copy) : State := ((s.leaveSlot id k).freeCell c.job).endCopy c .dropped

/-- Replace copy k of slot id. -/
def State.setCopyAt (s : State) (id k : Nat) (c : Copy) : State :=
  match amGet s.prv.slots id with
  | none => s
  | some sl => { s with prv := { s.prv with slots := amPut s.prv.slots id { sl with copies := lset sl.copies k c } } }

/-- The smallest data length of the frame's format that holds n bytes (R355). -/
def secLen (f : CanFmt) (n : Nat) : Nat :=
  match f with
  | .fd => if n ≤ 8 then n else if n ≤ 12 then 12 else if n ≤ 16 then 16 else if n ≤ 20 then 20 else if n ≤ 24 then 24
      else if n ≤ 32 then 32 else if n ≤ 48 then 48 else 64
  | _ => n

/-- The secured data (R355). -/
def securedData (fmt : CanFmt) (a : AssocIn) (key payload : List Byte) (f : Nat) : List Byte :=
  let t := cmac key (macMsg a payload f)
  let d := payload ++ (beBytes 8 f).drop (8 - a.fvb) ++ t.take a.macb
  d ++ List.replicate (secLen fmt d.length - d.length) (BitVec.ofNat 8 a.padb)

/-- Blocks of the CMAC of an association (R357). -/
def AssocIn.blocks (a : AssocIn) : Nat := (10 + a.plen + 15) / 16

/-- A CAN job may start: the engine takes jobs, the class has a slot, keys are loaded. -/
def State.caMay (s : State) : Bool := s.cryOn && s.crySlot 1 && s.keysReady

/-- The frame with data d. -/
def canWith (f : CanFrame) (d : List Byte) : CanFrame :=
  { f with data := d, dlc := match f.fmt with
    | .cc => d.length
    | .fd => dlcOf d.length
    | .xl => f.dlc }

/-- Start the CAN job of copy k of slot id, c, under association ix (R355). -/
def State.secureCopy (s : State) (id k ix : Nat) (c : Copy) : State :=
  let a := assocIn (s.assoc ix)
  if s.fcBusy a.fc || s.fcAhead a.fc id k || !s.caMay then s
  else
    let code := s.keyCheck a.slot 1
    let total := a.plen + a.fvb + a.macb
    if code ≠ 0 then ((s.cryFail 1 code ix).caFail ix 6).caDrop id k c
    else if c.frame.data.length ≠ a.plen ∨ (c.frame.fmt = .cc ∧ 8 < total) ∨ (c.frame.fmt = .fd ∧ 64 < total) then
      (((s.bump Reg.CAUTH_TXLEN 1 4).caFail ix 4).cryFail 1 kLENGTH ix).caDrop id k c
    else if s.freshOf a.fc = 2 ^ 64 - 1 then
      ((((s.bump Reg.CAUTH_FVEXH 1 4).ist Reg.pgCAUTH 1).caFail ix 5).cryFail 1 kFRESH ix).caDrop id k c
    else match s.choosePipe with
      | none => s
      | some (pipe, s) =>
        let f := s.freshOf a.fc + 1
        let key := s.slotKeyBytes a.slot
        let out := securedData c.frame.fmt a key c.frame.data f
        let j := s.cry.next
        (((s.setFresh a.fc f).setCopyAt id k { c with sec := .running j }).addJob
          ⟨1, pipe, a.blocks, a.fc * 2 ^ 32 + id, ix, kOK, out, f, key⟩)

/-- CAN_SECURE_JOB (R355): copy k of slot. -/
def execCanSecureJob (slot : Nat) (k : Nat) (s : State) : Host.Outcome State Fault Refusal :=
  match amGet s.prv.slots slot with
  | none => .next s
  | some sl =>
    match sl.copies[k]? with
    | none => .next s
    | some c =>
      match c.sec with
      | .needed a => .next (if s.standby then s else s.secureCopy slot k a c)
      | _ => .next s

/-! Verification (R356). -/

/-- The freshness value of r against counter l (R356), without the check of the window. -/
def freshRecover (l r fvb : Nat) : Nat :=
  let m := 2 ^ (8 * fvb)
  if fvb = 8 then r
  else
    let c := l - l % m + r
    if c ≤ l then c + m else c

/-- A job in slot id that failed its verification is delivered as received to FAILHQ, or discarded (R356). -/
def State.caRefuse (s : State) (id : Nat) (ctl : Word) (host : Bool) : State :=
  match amGet s.prv.slots id with
  | none => s
  | some sl =>
    if host && bitOf ctl 31 then
      let c := s.plainHost id s.epoch sl.job (fld ctl 29 24) 1
      { s with prv := { s.prv with
        slots := amPut s.prv.slots id { sl with phase := .routed, epoch := s.epoch, copies := [c] }
        cells := amPut s.prv.cells id ⟨cellsOf sl.job.frame.data.length, false, 1⟩ } }
    else { s with prv := { s.prv with slots := amDel s.prv.slots id } }

/-- A counted failure of association ix. -/
def State.caCount (s : State) (reg ix cause : Nat) : State := ((s.bump reg 1 4).caFail ix cause).ist Reg.pgCAUTH 0

/-- The verification of the job in slot id starts (R356); ws: CAUTH_CTL and the association's words as they matched. -/
def State.startCanVerify (s : State) (id ix : Nat) (ws : List Word) (sl : Slot) : State :=
  let ctl := wat ws 0
  let a := assocIn (ws.drop 1)
  if s.fcBusy a.fc || s.fcAhead a.fc id 0 || !s.caMay then s
  else
    let d := sl.job.frame.data
    let code := s.keyCheck a.slot 2
    if code ≠ 0 then (((s.cryFail 1 code ix).caFail ix 6).ist Reg.pgCAUTH 0).caRefuse id ctl false
    else if d.length < a.plen + a.fvb + a.macb then ((s.caCount Reg.CAUTH_SHORT ix 3).cryFail 1 kLENGTH ix).caRefuse id ctl true
    else
      let l := s.freshOf a.fc
      let c := freshRecover l (beAt d a.plen a.fvb) a.fvb
      if c ≤ l ∨ 2 ^ 64 ≤ c ∨ (a.win ≠ 0 ∧ a.win < c - l) then
        ((s.caCount Reg.CAUTH_FRESHFAIL ix 2).cryFail 1 kFRESH ix).caRefuse id ctl true
      else match s.choosePipe with
        | none => s
        | some (pipe, s) =>
          let key := s.slotKeyBytes a.slot
          let t := cmac key (macMsg a (d.take a.plen) c)
          let ok := t.take a.macb == (d.drop (a.plen + a.fvb)).take a.macb
          let j := s.cry.next
          let s := { s with prv := { s.prv with slots := amPut s.prv.slots id { sl with phase := .verifying j ws } } }
          s.addJob ⟨1, pipe, a.blocks, a.fc * 2 ^ 32 + id, ix, if ok then kOK else kAUTHFAIL, [], c, key⟩

/-- CAN_VERIFY_JOB (R356): the job in a Privet slot. -/
def execCanVerifyJob (slot : Nat) (s : State) : Host.Outcome State Fault Refusal :=
  match amGet s.prv.slots slot with
  | none => .next s
  | some sl =>
    match sl.phase with
    | .waitVerify a ws => .next (s.startCanVerify slot a ws sl).routeWaiting
    | _ => .next s

/-! Ends of CAN jobs (R339, R355-R357). -/

/-- A write of counter i takes effect (R358): a lower value needs FORCE. -/
def State.freshApply (s : State) (i v : Nat) (force : Bool) : State :=
  if v < s.freshOf i ∧ !force then s.ist Reg.pgCAUTH 2 else s.setFresh i v

/-- The writes of counter i that waited for its job take effect, in order. -/
def State.freshSettle (s : State) (i : Nat) : State :=
  let ws := s.cry.fpend.filter (fun p => p.1 == i)
  ws.foldl (fun t p => t.freshApply i p.2.1 p.2.2) { s with cry := { s.cry with fpend := s.cry.fpend.filter (fun p => p.1 != i) } }

/-- A verified job continues: counter, STRIP, its tag, its routing (R356). -/
def State.caAccept (s : State) (id : Nat) (ws : List Word) (sl : Slot) (c : Nat) : State :=
  let a := assocIn (ws.drop 1)
  let f := sl.job.frame
  let strip := a.strip && (f.fmt != .fd || fdLen a.plen)
  let f := if strip then canWith f (f.data.take a.plen) else f
  let s := (s.setFresh a.fc c).bump Reg.CAUTH_RXOK 1 4
  let sl := { sl with job := { sl.job with frame := f }, phase := .routed, epoch := s.epoch }
  ({ s with prv := { s.prv with slots := amPut s.prv.slots id sl } }).routeOrdered id

/-- A CAN job n with record j ended with a code. -/
def State.caEnd (s : State) (n : Nat) (j : CryJob) (code : Nat) : State :=
  let id := j.ref % 2 ^ 32
  let s := if code = kOK then s else s.cryFail 1 code j.ix
  match amGet s.prv.slots id with
  | none => s
  | some sl =>
    match sl.phase with
    | .verifying m ws =>
      if m ≠ n then s
      else if code = kOK then s.caAccept id ws sl j.val
      else if code = kAUTHFAIL then (s.caCount Reg.CAUTH_MACFAIL j.ix 1).caRefuse id (wat ws 0) true
      else s.caRefuse id (wat ws 0) false
    | _ =>
      match (sl.copies.zipIdx).find? (fun q => q.1.sec == .running n) with
      | none => s
      | some (c, k) =>
        if code = kOK then (s.setCopyAt id k { c with frame := canWith c.frame j.out, sec := .done }).bump Reg.CAUTH_TXOK 1 4
        else s.caDrop id k c

/-- CAN_JOB_COMPLETE (R357): agree: the copies of the pipe agreed. -/
def execCanJobComplete (job : Nat) (agree : Bool) (s : State) : Host.Outcome State Fault Refusal :=
  match s.jobOf job with
  | none => .next s
  | some j =>
    if j.cls ≠ 1 then .next s
    else
      let s := s.delJob job
      let s := if j.code = kOK ∨ j.code = kAUTHFAIL then (s.compare j.pipe agree).caEnd job j (if agree then j.code else kCMPFAIL)
        else s.caEnd job j j.code
      .next (s.freshSettle (j.ref / 2 ^ 32)).routeWaiting

/-! Staged commands (R290 for R353, R358). -/

/-- A write of CAUTH_ACMD: WR first, then RD. -/
def acmdWrite (v : Word) (s : State) : State :=
  let i := s.rf Reg.CAUTH_AIDX 8 0
  let s := if bitOf v 0 then
      let ws := [s.rd (Reg.CAUTH_AW 0), s.rd (Reg.CAUTH_AW 1) &&& 0xFDFFFF00, s.rd (Reg.CAUTH_AW 2), s.rd (Reg.CAUTH_AW 3)]
      let a := assocIn ws
      let bad := bitOf (wat ws 0) 31 && (a.fvb == 0 || decide (8 < a.fvb) || decide (a.macb < 3) || decide (16 < a.macb)
        || a.plen == 0 || decide (2044 < a.plen))
      ({ s with cauth := amSet [0, 0, 0, 0] s.cauth i ws }).istIf bad Reg.pgCAUTH 3
    else s
  if bitOf v 1 then (List.range 4).foldl (fun t k => t.wr (Reg.CAUTH_AW k) (wat (s.assoc i) k)) s else s

/-- A counter write (R358): a lower value needs FORCE; while a job uses the counter the write waits for its end, where it is judged
again. -/
def State.freshWrite (s : State) (i v : Nat) (force : Bool) : State :=
  if s.fcBusy i && (force || decide (s.freshOf i ≤ v)) then
    { s with cry := { s.cry with fpend := s.cry.fpend ++ [(i, v, force)] } }
  else s.freshApply i v force

/-- A write of CAUTH_FCMD: WR first, then RD. -/
def authFcmdWrite (v : Word) (s : State) : State :=
  let i := s.rf Reg.CAUTH_FIDX 11 0
  let s := if bitOf v 0 then s.freshWrite i ((s.rd Reg.CAUTH_FLO).toNat + (s.rd Reg.CAUTH_FHI).toNat * 2 ^ 32) (bitOf v 2) else s
  if bitOf v 1 then
    (s.wr Reg.CAUTH_FLO (BitVec.ofNat 32 (s.freshOf i))).wr Reg.CAUTH_FHI (BitVec.ofNat 32 (s.freshOf i / 2 ^ 32))
  else s

/-- CAUTH_CNTCLR. -/
def cauthCclrWrite (v : Word) (s : State) : State :=
  if bitOf v 0 then
    s.clear [Reg.CAUTH_TXOK, Reg.CAUTH_RXOK, Reg.CAUTH_MACFAIL, Reg.CAUTH_FRESHFAIL, Reg.CAUTH_SHORT, Reg.CAUTH_TXLEN,
      Reg.CAUTH_FVEXH, Reg.CAUTH_LASTFAIL]
  else s

def execAssociationWrite (init : Initiator) (v : Word) (s : State) : Host.Outcome State Fault Refusal :=
  .next (s.cmdWrite init Reg.CAUTH_ACMD v (acmdWrite v))

def execAssociationRead (init : Initiator) (v : Word) (s : State) : Host.Outcome State Fault Refusal :=
  .next (s.cmdWrite init Reg.CAUTH_ACMD v (acmdWrite v))

def execFreshnessWrite (init : Initiator) (v : Word) (s : State) : Host.Outcome State Fault Refusal :=
  .next (s.cmdWrite init Reg.CAUTH_FCMD v (authFcmdWrite v))

def execFreshnessRead (init : Initiator) (v : Word) (s : State) : Host.Outcome State Fault Refusal :=
  .next (s.cmdWrite init Reg.CAUTH_FCMD v (authFcmdWrite v))

/-! Marks in MRAM (R433). -/

/-- MRAM address of the save area (log entry 17), of its mark area, and offsets in it. -/
def saveBase : Nat := 0x2C0000
def markBase : Nat := saveBase + 0x34000

/-- The header of the mark area (R433). -/
def State.markHeader (s : State) : List Byte :=
  let h : List Byte := [0x4D, 0x52, 0x4B, 0x31, BitVec.ofNat 8 (s.rf Reg.CAUTH_CTL 12 8), BitVec.ofNat 8 (s.rf Reg.MSEC_CTL 12 8)]
    ++ List.replicate 54 0
  h ++ beBytes 4 (crc32 h)

/-- Mark index i (2^16 + SA for an SA): its use bit's byte and bit, and the address of its word. -/
def markPlace (i : Nat) : Nat × Nat × Nat :=
  if i < 65536 then (markBase + 0x40 + i / 8, i % 8, markBase + 0x280 + 8 * i)
  else (markBase + 0x240 + (i - 65536) / 8, (i - 65536) % 8, markBase + 0x8280 + 8 * (i - 65536))

/-- MARK_WRITE (R359, R433): Laurel writes the oldest posted mark, with header and use bit before it. Laurel's MRAM writes
are suspended in SAVE (R436). -/
def execMarkWrite (s : State) : Host.Outcome State Fault Refusal :=
  match (if s.inSave then [] else s.cry.marks) with
  | [] => .next s
  | (i, v) :: rest =>
    let s := { s with cry := { s.cry with marks := rest } }
    let h := s.markHeader
    let s := if memRdN s.mram markBase 64 = h then s else s.mramWrite markBase h
    let (bA, bit, wA) := markPlace i
    let s := if s.markTx i then s.mramWrite bA [BitVec.ofNat 8 (nsetBit (memRd s.mram bA).toNat bit true)] else s
    .next (if beNat (memRdN s.mram wA 8) < v then s.mramWrite wA (beBytes 8 v) else s)

end Sys2Proof.Machine
end

