-- ==== Sys2Proof/Machine/Space.lean ====
section
/-! DEFINITION. Accesses of the device's own engines to memory: host memory over PCIe (R392, R393) and DRAM (R404). Host software
writes its memory freely; a command that reads it carries what the host has written since (log entry 20). -/
namespace Sys2Proof.Machine

/-- What the host has written to its memory: addresses with bytes, in order. -/
def State.hostWrites (s : State) : List (Nat × List Byte) → State
  | [] => s
  | (a, b) :: r => ({ s with hmem := memWrN s.hmem a b }).hostWrites r

/-- Size of DRAM in bytes. -/
def dramSize : Nat := 2 ^ 32

/-- n bytes at address a of host memory, or of DRAM; none outside DRAM. -/
def State.memSpaceRd (s : State) (host : Bool) (a n : Nat) : Option (List Byte) :=
  if host then some (memRdN s.hmem a n)
  else if a + n ≤ dramSize then some (memRdN s.dram a n) else none

/-- Write bytes at address a of host memory or DRAM; none outside DRAM. -/
def State.memSpaceWr (s : State) (host : Bool) (a : Nat) (b : List Byte) : Option State :=
  if host then some { s with hmem := memWrN s.hmem a b }
  else if a + b.length ≤ dramSize then some { s with dram := memWrN s.dram a b } else none

/-- Write, or leave the state where the address does not exist. -/
def State.memPut (s : State) (host : Bool) (a : Nat) (b : List Byte) : State := (s.memSpaceWr host a b).getD s

end Sys2Proof.Machine
end

