-- ==== Sys2Proof/Machine/MemJobs.lean ====
section
/-! DEFINITION. Memory jobs of the crypto engine (12_crypto_engine.md R341, R360-R363) and the abort of R364. Rings 0-2 address
host memory, ring 3 DRAM (log entry 21). -/
namespace Sys2Proof.Machine

/-- SIZE of ring k: values outside 2-4,096 act as 2. -/
def State.rSize (s : State) (k : Nat) : Nat :=
  ringSize (s.rf (Reg.CRY_RSIZE k) 12 0)

/-- FETCH, CPL and TAIL of ring k. -/
def State.rFetch (s : State) (k : Nat) : Nat := s.rf (Reg.CRY_RHEAD k) 27 16
def State.rCpl (s : State) (k : Nat) : Nat := s.rf (Reg.CRY_RHEAD k) 11 0
def State.rTail (s : State) (k : Nat) : Nat := s.rf (Reg.CRY_RTAIL k) 11 0

/-- Address of entry i of ring k. -/
def State.rEntry (s : State) (k i : Nat) : Nat :=
  (s.rd (Reg.CRY_RBLO k)).toNat + (s.rd (Reg.CRY_RBHI k)).toNat * 2 ^ 32 + 64 * i

/-- Ring k addresses host memory. -/
def ringHost (k : Nat) : Bool := decide (k < 3)

/-- A register of ring k is written by init: ring 3 takes Laurel alone (R360); f is the effect. -/
def State.ringWrite (s : State) (init : Initiator) (k : Nat) (f : State → State) : State :=
  if k = 3 ∧ init ≠ .laurel then s.ist Reg.pgCRY 5 else f s

/-- A write of CRY_RTAILk of SIZE or above is refused; the store discards it (State.discards). -/
def rtailWrite (init : Initiator) (k : Nat) (v : Word) (s : State) : State :=
  s.ringWrite init k (fun s => s.istIf (decide (s.rSize k ≤ fld v 11 0)) Reg.pgCRY 5)

/-- A write of CRY_RBLOk, RBHIk or RSIZEk is refused while EN = 1. -/
def rcfgWrite (init : Initiator) (k : Nat) (s : State) : State :=
  s.ringWrite init k (fun s => s.istIf (s.rb (Reg.CRY_RCTL k) 0) Reg.pgCRY 5)

/-- Every job of ring k is abandoned (R363). -/
def State.ringAbandon (s : State) (k : Nat) : State :=
  let js := s.cry.mem.filterMap (fun m => if m.ring = k then m.job else none)
  let s := js.foldl (fun t j => t.delJob j) s
  { s with cry := { s.cry with mem := s.cry.mem.filter (fun m => m.ring != k) } }

/-- A write of CRY_RCTLk: RESET abandons the ring; else EN is written. -/
def rctlWrite (init : Initiator) (k : Nat) (v : Word) (s : State) : State :=
  s.ringWrite init k (fun s =>
    if bitOf v 30 then
      (((s.ringAbandon k).wr (Reg.CRY_RHEAD k) 0).wr (Reg.CRY_RTAIL k) 0).wr (Reg.CRY_RCTL k) 0
    else s.wb (Reg.CRY_RCTL k) 0 (bitOf v 0))

def execRingTailWrite (init : Initiator) (ring : Fin 4) (v : Word) (s : State) : Host.Outcome State Fault Refusal :=
  .next (s.cmdWrite init (Reg.CRY_RTAIL ring) v (rtailWrite init ring v))

def execRingReset (init : Initiator) (ring : Fin 4) (v : Word) (s : State) : Host.Outcome State Fault Refusal :=
  .next (s.cmdWrite init (Reg.CRY_RCTL ring) v (rctlWrite init ring v))

/-! Descriptors (R361, R362). -/

/-- The fields of a job descriptor. -/
structure MemIn where
  op : Nat
  taglen : Nat
  slot : Nat
  aadlen : Nat
  len : Nat
  src : Nat
  dst : Nat
  tagaddr : Nat
  iv : List Byte
  deriving DecidableEq, Repr

/-- Descriptor words to fields. -/
def memIn (w : List Nat) : MemIn :=
  { op := nfld (dw w 0) 27 24, taglen := nfld (dw w 1) 20 16, slot := nfld (dw w 1) 8 0, aadlen := nfld (dw w 2) 15 0,
    len := nfld (dw w 3) 26 0, src := dw w 4 + dw w 5 * 2 ^ 32, dst := dw w 6 + dw w 7 * 2 ^ 32,
    tagaddr := dw w 8 + dw w 9 * 2 ^ 32, iv := beBytes 4 (dw w 10) ++ beBytes 4 (dw w 11) ++ beBytes 4 (dw w 12) }

/-- Two address ranges overlap. -/
def overlaps (a n b m : Nat) : Bool := decide (0 < n) && decide (0 < m) && decide (a < b + m) && decide (b < a + n)

/-- The job is GCM. -/
def MemIn.gcm (d : MemIn) : Bool := d.op == 1 || d.op == 2

/-- Bytes of additional data: none for CMAC. -/
def MemIn.aad (d : MemIn) : Nat := if d.gcm then d.aadlen else 0

/-- Output bytes at DST. -/
def MemIn.outLen (d : MemIn) : Nat := if d.gcm then d.len else 0

/-- The result a descriptor ends with before any data is read: BADPARAM, LENGTH, or OK (R361, R362). -/
def MemIn.check (d : MemIn) : Nat :=
  if d.op = 0 ∨ 4 < d.op then kBADPARAM
  else if (if d.gcm then !(d.taglen == 4 || d.taglen == 8 || (decide (12 ≤ d.taglen) && decide (d.taglen ≤ 16)))
      else decide (d.taglen < 4) || decide (16 < d.taglen)) then kBADPARAM
  else if (if d.gcm then decide (67108864 < d.len) else decide (4096 < d.len)) then kLENGTH
  else
    let n := d.aad + d.len
    let place := d.dst == d.src + d.aad
    if (!place && overlaps d.dst d.outLen d.src n) || (place && overlaps d.dst d.outLen d.src d.aad)
      || overlaps d.tagaddr d.taglen d.src n || overlaps d.tagaddr d.taglen d.dst d.outLen then kBADPARAM
    else kOK

/-- The key check of a memory job of ring k (R374): usage bit and INIT. -/
def State.memKey (s : State) (d : MemIn) (k : Nat) : Nat :=
  let c := s.keyCheck d.slot (if d.op = 1 then 3 else if d.op = 2 then 4 else 5)
  if c ≠ kOK then c
  else
    let ini := fld (s.slotAttr d.slot) 13 12
    if ini = 3 ∨ (ini = 1 ∧ k = 3) ∨ (ini = 2 ∧ k ≠ 3) then kKEYSLOT else kOK

/-- Ring k halts (R360, R363). -/
def State.ringHalt (s : State) (k : Nat) : State := (s.wb (Reg.CRY_RCTL k) 31 true).ist Reg.pgCRY 4

/-- MEMORY_JOB_FETCH (R360): host: what the host wrote to its memory since; ok: the fetch did not fail. -/
def execMemoryJobFetch (ring : Fin 4) (host : List (Nat × List Byte)) (ok : Bool) (s : State) : Host.Outcome State Fault Refusal :=
  let k := ring.val
  let s := s.hostWrites host
  if !s.rb (Reg.CRY_RCTL k) 0 || s.rb (Reg.CRY_RCTL k) 31 || s.rFetch k == s.rTail k || !s.crySlot 4 || !s.cryOn || !s.keysReady
      || !s.spaceMay (ringHost k) then .next s
  else match (if ok then s.memSpaceRd (ringHost k) (s.rEntry k (s.rFetch k)) 64 else none) with
    | none => .next (s.ringHalt k)
    | some b =>
      let w := leWords 16 b
      if !nbit (dw w 0) 31 then .next (s.ringHalt k)
      else
        let d := memIn w
        let i := s.rFetch k
        let c := d.check
        let c := if c = kOK then s.memKey d k else c
        let key := if c = kOK then s.slotKeyBytes d.slot else []
        let j := s.cry.next
        match s.choosePipe with
        | none => .next s
        | some (pipe, s) =>
          let s := s.wf (Reg.CRY_RHEAD k) 27 16 ((i + 1) % s.rSize k)
          let s := s.addJob ⟨4, pipe, (d.aad + d.len + 15) / 16, k, k * 4096 + i, c, [], 0, key⟩
          .next { s with cry := { s.cry with mem := s.cry.mem ++ [⟨k, i, w, some j, none⟩] } }

/-- The outputs of a job over its data: bytes at DST and at TAGADDR, and whether it verifies. -/
def memCompute (d : MemIn) (key src tag : List Byte) : List Byte × List Byte × Bool :=
  let aad := src.take d.aad
  let pay := src.drop d.aad
  match d.op with
  | 1 => let r := gcmEnc key d.iv aad pay; (r.1, r.2.take d.taglen, true)
  | 2 => let r := gcmDec key d.iv aad pay; (r.1, [], r.2.take d.taglen == tag)
  | 3 => ([], (cmac key pay).take d.taglen, true)
  | _ => ([], [], (cmac key pay).take d.taglen == tag)

/-- The result of job m is written back where it is the oldest open entry of its ring (R362); at most n entries. -/
def State.ringDone (k : Nat) : Nat → State → State
  | 0, s => s
  | n + 1, s =>
    match s.cry.mem.find? (fun m => m.ring == k) with
    | none => s
    | some m =>
      match m.res with
      | none => s
      | some c =>
        let s := { s with cry := { s.cry with mem := s.cry.mem.erase m } }
        let a := s.rEntry k m.entry
        let pipe := dw m.words 14 / 2 ^ 23 % 2
        let s := s.memPut (ringHost k) (a + 56) (leBytes 4 (c * 2 ^ 24 + pipe * 2 ^ 23) ++ leBytes 4 s.stamp32)
        let s := s.memPut (ringHost k) a (leBytes 4 (nsetBit (dw m.words 0) 31 false))
        let s := s.wf (Reg.CRY_RHEAD k) 11 0 ((m.entry + 1) % s.rSize k)
        State.ringDone k n ((s.bump (Reg.CRY_RDONE k) 1 10).ist Reg.pgCRY (6 + k))

/-- Tag bytes a job writes at TAGADDR. -/
def MemIn.tagOut (d : MemIn) : Nat := if d.op = 1 ∨ d.op = 3 then d.taglen else 0

/-- Zeros go over the first n output bytes of a job, the data at DST and then the tag (R362). -/
def State.memZero (s : State) (k : Nat) (d : MemIn) (n : Nat) : State :=
  (s.memPut (ringHost k) d.dst (List.replicate (min n d.outLen) 0)).memPut (ringHost k) d.tagaddr
    (List.replicate (min (n - d.outLen) d.tagOut) 0)

/-- Job m with crypto record j ends with a code: failures are counted, zeros go over the output bytes it wrote. -/
def State.memEnd (s : State) (m : MemJob) (j : CryJob) (code wrote : Nat) : State :=
  let d := memIn m.words
  let k := m.ring
  let s := if code = kOK then s
    else
      let s := (s.cryFail 4 code j.ix).bump Reg.CRY_MEMFAIL 1 10
      s.memZero k d wrote
  let w := List.range 16
  let words := w.map (fun i => if i = 14 then j.pipe * 2 ^ 23 else dw m.words i)
  let s := { s with cry := { s.cry with
    mem := s.cry.mem.map (fun x => if x.job = m.job then { x with words := words, job := none, res := some code } else x) } }
  State.ringDone k s.cry.mem.length s

/-- MEMORY_JOB_COMPLETE (R362): busOk: its data accesses did not fail; agree: the copies agreed; invOk: the inverse pass matched;
wrote: output bytes written before a failure. -/
def execMemoryJobComplete (job : Nat) (host : List (Nat × List Byte)) (busOk agree invOk : Bool) (wrote : Nat) (s : State) :
    Host.Outcome State Fault Refusal :=
  let s := s.hostWrites host
  match s.jobOf job, s.cry.mem.find? (fun m => m.job == some job) with
  | some j, some m =>
    let k := m.ring
    let d := memIn m.words
    if !s.spaceMay (ringHost k) then .next s
    else
      let s := s.delJob job
      if j.code ≠ kOK then .next (s.memEnd m j j.code (if j.code = kCMPFAIL ∨ j.code = kTAMPER then wrote else 0))
      else
        let src := s.memSpaceRd (ringHost k) d.src (d.aad + d.len)
        let tag := if d.op = 2 ∨ d.op = 4 then s.memSpaceRd (ringHost k) d.tagaddr d.taglen else some []
        match busOk, src, tag with
        | true, some b, some t =>
          let s := s.compare j.pipe agree
          if !agree then .next (s.memEnd m j kCMPFAIL wrote)
          else
            let (out, tg, ok) := memCompute d j.key b t
            if !ok then .next (s.memEnd m j kAUTHFAIL d.outLen)
            else if d.gcm && bitOf (s.force Reg.CRY_CHKCTL) 0 && !invOk then
              .next (((s.bump Reg.CRY_INVERR 1 10).ist Reg.pgCRY 1).memEnd m j kINVFAIL d.outLen)
            else match (s.memSpaceWr (ringHost k) d.dst out).bind (fun t => t.memSpaceWr (ringHost k) d.tagaddr tg) with
              | some t => .next (t.memEnd m j kOK 0)
              | none => .next ((s.ringHalt k).memEnd m j kBUSERR wrote)
        | _, _, _ => .next ((s.ringHalt k).memEnd m j kBUSERR wrote)
  | _, _ => .next s

/-! Tamper abort (R364). -/

/-- Every job in flight that uses key material ends TAMPER_ABORT. -/
def State.tamperAbort (s : State) : State :=
  s.cry.jobs.foldl (fun t p =>
    if p.2.code = kOK ∨ p.2.code = kAUTHFAIL then
      let t := { t with cry := { t.cry with jobs := amPut t.cry.jobs p.1 { p.2 with code := kTAMPER } } }
      let t := if p.2.cls = 0 ∨ p.2.cls = 3 then t.cryFail p.2.cls kTAMPER p.2.ix else t
      (t.bump Reg.CRY_TAMPAB 1 10).ist Reg.pgCRY 3
    else t) s

end Sys2Proof.Machine
end

