-- ==== Sys2Proof/Machine/Yew.lean ====
section
/-! DEFINITION. Yew (13_key_store_tamper.md R373-R383): slot records and the update counter in MRAM, slot loading, update messages and
rekey. -/
namespace Sys2Proof.Machine

/-- Start of the MRAM settings area, whose first 68 KiB are the Yew region (R376, log entry 17). -/
def yewBase : Nat := 0x2A0000

/-- Address of copy b (false A, true B) of slot n's record, and of the update counter (n = 512; R376, R377). -/
def recAddr (n : Nat) (b : Bool) : Nat := yewBase + (if n < 512 then 128 * n else 0x10000) + (if b then 64 else 0)

/-- a stands before b in modulo 2^32 comparison (R376); equal numbers stand (log entry 24). -/
def seqGe (a b : Nat) : Bool := decide ((a + 2 ^ 32 - b) % 2 ^ 32 < 2 ^ 31)

/-- Which copy stands, given whether each is good and its SEQ (R376). -/
def standing (ga gb : Bool) (sa sb : Nat) : Option Bool :=
  if ga && gb then some (!seqGe sa sb) else if ga then some false else if gb then some true else none

/-- The tag of a slot record copy verifies and its slot number is n (R376). -/
def recGoodCopy (ks : List Byte) (n : Nat) (c : List Byte) : Bool :=
  (gcmDec ks (c.take 12) (c.take 16) ((c.drop 16).take 32)).2 == (c.drop 48).take 16 && beAt c 4 2 == n

/-- A counter copy is good (R377). -/
def cntGood (c : List Byte) : Bool := beBytes 4 (crc32 (c.take 60)) == (c.drop 60).take 4

/-- One 64-byte record copy. -/
def State.recCopy (s : State) (n : Nat) (b : Bool) : List Byte := memRdN s.mram (recAddr n b) 64

/-- The copy of slot n's record that stands. -/
def State.slotStands (s : State) (ks : List Byte) (n : Nat) : Option Bool :=
  let a := s.recCopy n false
  let b := s.recCopy n true
  standing (recGoodCopy ks n a) (recGoodCopy ks n b) (beAt a 0 4) (beAt b 0 4)

/-- The copy of the counter that stands. -/
def State.cntStands (s : State) : Option Bool :=
  let a := s.recCopy 512 false
  let b := s.recCopy 512 true
  standing (cntGood a) (cntGood b) (beAt a 0 4) (beAt b 0 4)

/-- The bytes of a slot record (R376). -/
def slotRecord (ks : List Byte) (sq n : Nat) (attr label : Word) (key : List Byte) : List Byte :=
  let h := beBytes 4 sq ++ beBytes 2 n ++ [0, 0] ++ wordBytes attr ++ wordBytes label
  let r := gcmEnc ks (h.take 12) h (if key.isEmpty then List.replicate 32 0 else key)
  h ++ r.1 ++ r.2

/-- The bytes of a counter record (R377). -/
def cntRecord (sq cnt : Nat) : List Byte :=
  let b := beBytes 4 sq ++ beBytes 8 cnt ++ List.replicate 48 0
  b ++ beBytes 4 (crc32 b)

/-- The copy the next write of a record goes to, and its SEQ (R378); where neither stands, copy A with SEQ 1 (log entry 24). -/
def State.nextCopy (s : State) (n : Nat) (st : Option Bool) : Bool × Nat :=
  match st with
  | none => (false, 1)
  | some b => (!b, (beAt (s.recCopy n b) 0 4 + 1) % 2 ^ 32)

/-! Slot loading (R373). -/

/-- Load slot n from its record. -/
def State.loadSlot (s : State) (ks : List Byte) (n : Nat) : State :=
  match s.slotStands ks n with
  | none => ((s.setSlot n ⟨0x20000000, 0, []⟩).bump Reg.YEW_RECERR 1 6).ist Reg.pgYEW 4
  | some b =>
    let c := s.recCopy n b
    let attr := BitVec.ofNat 32 (beAt c 8 4)
    let o := fld attr 31 30
    if o = 1 then s.setSlot n ⟨attr, 0, (gcmDec ks (c.take 12) (c.take 16) ((c.drop 16).take 32)).1⟩
    else if o = 2 then s.setSlot n ⟨attr, BitVec.ofNat 32 (beAt c 12 4), []⟩
    else s.setSlot n ⟨0, 0, []⟩

/-- The copies of a pipe disagreed on the job that loads slot n (R338, R339): no verdict or key of it leaves the engine, so the slot is as
one whose record fails its check (log entry 78). -/
def State.loadCut (s : State) (pipe n : Nat) : State :=
  (((((s.compare pipe false).cryFail 3 kCMPFAIL n).setSlot n ⟨0x20000000, 0, []⟩).bump Reg.YEW_RECERR 1 6).ist Reg.pgYEW 4)

/-- READY (R373, R387). -/
def State.yewReady (s : State) : State := (s.wb Reg.YEW_STAT 31 true).ist Reg.pgYEW 3

/-- The copies of the pipe agree on job k of the key operation that ends now: a free value, which `agreeDrawn` uses up (R338, log entries 1
and 78). -/
def State.yewAgrees (s : State) (k : Nat) : Bool := Config.copiesAgree s.freeN k
def State.agreeDrawn (s : State) : State := { s with freeN := s.freeN + 1 }

/-- SLOT_LOAD_COMPLETE: not while READY. The counter takes its record's value; with none good it keeps its value. With a root in force the
slots are loaded through YEW-class jobs, which need an engine that takes jobs and a pipe ONLINE (R336, R373); on which slots' jobs the
copies of the pipe agree is a free value (log entry 78). -/
def execSlotLoadComplete (s : State) : Host.Outcome State Fault Refusal :=
  .next (
    if s.rb Reg.YEW_STAT 31 || s.pwr.held then s
    else
      let c := match s.cntStands with
        | some b => { s with yew := { s.yew with ucnt := beAt (s.recCopy 512 b) 4 8 } }
        | none => s
      if s.rootZeroed then c.yewReady
      else if !s.cryOn then s
      else match c.choosePipe with
        | none => s
        | some (pipe, c) =>
          let ks := c.kstore
          let c := c.compare pipe true
          ((List.range 512).foldl (fun t n => if s.yewAgrees n then t.loadSlot ks n else t.loadCut pipe n) c).yewReady.agreeDrawn)

/-! Update messages (R379-R382). -/

/-- The 84 bytes of the message buffer. -/
def State.umsg (s : State) : List Byte := ((List.range 21).map (fun k => wordBytes (s.rd (Reg.YEW_UMSG k)))).flatten

/-- Zero the message buffer. -/
def State.umsgClear (s : State) : State := s.clear ((List.range 21).map Reg.YEW_UMSG)

/-- Zero the confirmation. -/
def State.confClear (s : State) : State := s.clear ((List.range 4).map Reg.YEW_CONF)

/-- Codes of R380 beside those of R342. -/
def uBADID : Nat := 0x10
def uCOUNTER : Nat := 0x11
def uWPROT : Nat := 0x12
def uTESTROOT : Nat := 0x13
def uMRAMERR : Nat := 0x14
def uBUSY : Nat := 0x15

/-- YEW_URES reports a code for a slot. -/
def State.ures (s : State) (code slot : Nat) : State :=
  s.wr Reg.YEW_URES (BitVec.ofNat 32 (2 ^ 31 + code * 2 ^ 16 + slot % 512))

/-- An update fails (R380): the confirmation is zeroed. -/
def State.updFail (s : State) (code slot : Nat) : State :=
  ((((s.ures code slot).confClear).bump Reg.YEW_UPDFAIL 1 6)).ist Reg.pgYEW 1

/-! Key operations are jobs of class YEW (R336). -/

/-- The job of the key operation in progress, where it has started. -/
def State.yewJob (s : State) : Option (Nat × CryJob) := s.cry.jobs.find? (fun q => q.2.cls == 3)

/-- 16-byte blocks of a key operation: those of the message, or of the records a rekey writes (log entry 78). -/
def YewOp.blocks : YewOp → Nat
  | .update => 6
  | .rekey => 4096

/-- The waiting key operation takes a slot where one is free: an update, which needs a key, not before READY (R373). Else it waits in
Yew. -/
def State.yewStart (s : State) : State :=
  match s.yew.op, s.yewJob with
  | some o, none =>
    if s.cryOn && s.crySlot 3 && (o == .rekey || s.keysReady) then
      match s.choosePipe with
      | some (pipe, s) =>
        let t := if o = .update then beAt s.umsg 16 2 else 0
        s.addJob ⟨3, pipe, o.blocks, t, t, kOK, [], 0, []⟩
      | none => s
    else s
  | _, _ => s

/-- The key operation is over: its job, where it has started, leaves the engine. -/
def State.yewOver (s : State) : State :=
  let s := match s.yewJob with
    | some (n, _) => s.delJob n
    | none => s
  { s with yew := { s.yew with op := none } }

/-- A write of YEW_UMSGk: discarded with UREF while BUSY (the store discards it). -/
def umsgWrite (s : State) : State := s.istIf s.yew.op.isSome Reg.pgYEW 5

/-- A write of YEW_UCMD (R379, R380 step 1). -/
def ucmdWrite (v : Word) (s : State) : State :=
  if !bitOf v 0 then s
  else if s.yew.op.isSome then s.updFail uBUSY (beAt s.umsg 16 2)
  else State.yewStart { s.confClear with yew := { s.confClear.yew with op := some .update } }

def execMessageWordWrite (init : Initiator) (k : Fin 21) (v : Word) (s : State) : Host.Outcome State Fault Refusal :=
  .next (s.cmdWrite init (Reg.YEW_UMSG k) v umsgWrite)

def execUpdateGo (init : Initiator) (v : Word) (s : State) : Host.Outcome State Fault Refusal :=
  .next (s.cmdWrite init Reg.YEW_UCMD v (ucmdWrite v))

/-- The authorising key of message m for slot t, where AUTH is permitted (R379). -/
def State.authKey (s : State) (auth t : Nat) : Option (List Byte) :=
  if auth = 0xFFFF then (if t = 0 ∧ s.slotOrigin 0 = 0 then some (List.replicate 32 0) else none)
  else if auth = 0 then (if fld (s.slotAttr 0) 7 0 = 0x40 then some (s.slotKeyBytes 0) else none)
  else if auth = t ∧ t < 512 then
    (if s.slotOrigin t = 1 ∧ bitOf (s.slotAttr t) 6 then some (s.slotKeyBytes t) else none)
  else none

/-- Format faults of step 5 (R380): SLOT, OP, reserved bits of ATTR, USAGE of slot 0. -/
def updFormatBad (t op : Nat) (attr : Word) : Bool :=
  decide (511 < t) || op == 0 || decide (3 < op) || fld attr 28 16 != 0 || bitOf attr 14 || fld attr 11 8 != 0
    || (t == 0 && op != 2 && fld attr 7 0 != 0x40)

/-- Free bytes: what a record copy holds whose write failed (R378, log entry 1). -/
def State.freeBytes (s : State) (words : Nat) : List Byte × State :=
  (((List.range words).map (fun k => wordBytes (Config.freeValue (s.freeN + k)))).flatten, { s with freeN := s.freeN + words })

/-- Bytes that are no good copy of record n: where they would be, their last byte differs (R378). -/
def State.spoilt (s : State) (n : Nat) (x : List Byte) : List Byte :=
  let good := if n < 512 then recGoodCopy s.kstore n x else cntGood x
  if good then overwrite x 63 [BitVec.ofNat 8 (255 - byteAt x 63)] else x

/-- Write a record copy; a write that fails, or is cut off, leaves a copy that is not good, of no known bytes. -/
def State.recWrite (s : State) (n : Nat) (b ok : Bool) (bytes : List Byte) : State :=
  if ok then s.mramWrite (recAddr n b) bytes
  else
    let (x, s) := s.freeBytes 16
    s.mramWrite (recAddr n b) (s.spoilt n x)

/-- The attribute word a slot takes: ORIGIN by OP, CORRUPT 0 (R374). -/
def newAttr (op : Nat) (attr : Word) : Word :=
  if op = 2 then 0 else setFld (setFld attr 31 29 0) 31 30 (if op = 1 then 1 else 2)

/-- What an accepted update does: slot, counter, attribute word, label, key, and KU. -/
structure UpdPlan where
  t : Nat
  cnt : Nat
  attr : Word
  label : Word
  key : List Byte
  ku : List Byte
  deriving DecidableEq, Repr

/-- Steps 2-6 of R380 over the message buffer: the failure code, or the update to make. -/
def State.updCheck (s : State) : Nat ⊕ UpdPlan :=
  let m := s.umsg
  let t := beAt m 16 2
  let auth := beAt m 18 2
  let cnt := beAt m 20 8
  let attr := BitVec.ofNat 32 (beAt m 28 4)
  let op := byteAt m 32
  if s.rootZeroed then .inl kNOKEYS
  else if s.testRoot then .inl uTESTROOT
  else if m.take 16 != deviceIdBytes then .inl uBADID
  else if cnt ≤ s.yew.ucnt then .inl uCOUNTER
  else match s.authKey auth t with
    | none => .inl kKEYSLOT
    | some ak =>
      if updFormatBad t op attr then .inl kBADPARAM
      else
        let ku := kdf ak [0x55, 0x50, 0x44, 0x54] (kctx t)
        let (pt, tag) := gcmDec ku ((m.drop 16).take 12) (m.take 36) ((m.drop 36).take 32)
        if tag != (m.drop 68).take 16 then .inl kAUTHFAIL
        else if bitOf (s.slotAttr t) 15 then .inl uWPROT
        else .inr ⟨t, cnt, newAttr op attr, if op = 3 then BitVec.ofNat 32 (beAt pt 0 4) else 0, if op = 1 then pt else [], ku⟩

/-- The job of an update ends with a code; codes of R342 are loaded in CRY_LASTERR as class YEW. -/
def State.updEnd (s : State) (code : Nat) : State :=
  let t := beAt s.umsg 16 2
  (if code ≤ kFRESH then s.cryFail 3 code t else s).updFail code t

/-- Step 7: the counter record is written; the counter follows where its read-back is good. -/
def State.cntWrite (s : State) (cnt : Nat) (ok : Bool) : State :=
  let (b, q) := s.nextCopy 512 s.cntStands
  let s := s.recWrite 512 b ok (cntRecord q cnt)
  if ok then { s with yew := { s.yew with ucnt := cnt } } else s

/-- Step 8: the slot record is written. -/
def State.slotWrite (s : State) (p : UpdPlan) (ok : Bool) : State :=
  let ks := s.kstore
  let (b, q) := s.nextCopy p.t (s.slotStands ks p.t)
  s.recWrite p.t b ok (slotRecord ks q p.t p.attr p.label p.key)

/-- Steps 2-10 of R380; cntOk, recOk: the counter and slot record writes were read back good. -/
def State.update (s : State) (cntOk recOk : Bool) : State :=
  match s.updCheck with
  | .inl c => s.updEnd c
  | .inr p =>
    let s := s.cntWrite p.cnt cntOk
    if !cntOk then s.updFail uMRAMERR p.t
    else
      let s := s.slotWrite p recOk
      if !recOk then s.updFail uMRAMERR p.t
      else
        let s := s.setSlot p.t ⟨p.attr, p.label, p.key⟩
        let conf := cmac p.ku (s.umsg.take 18 ++ (s.umsg.drop 20).take 8 ++ [0x44, 0x4F, 0x4E, 0x45])
        let s := (List.range 4).foldl (fun u k => u.wr (Reg.YEW_CONF k) (BitVec.ofNat 32 (beAt conf (4 * k) 4))) s
        ((s.ures 0 p.t).bump Reg.YEW_UPDOK 1 6).ist Reg.pgYEW 0

/-- The update that runs is cut off (R378, R381): k 0 before step 7, 1 within the write of the counter record, 2 after it, 3 within the
write of the slot record. -/
def State.updCut (s : State) (k : Nat) : State :=
  match s.updCheck with
  | .inl _ => s
  | .inr p =>
    if k = 0 then s
    else if k = 1 then s.cntWrite p.cnt false
    else
      let s := s.cntWrite p.cnt true
      if k = 2 then s else s.slotWrite p false

/-- UPDATE_COMPLETE: the message buffer is zeroed. In SAVE the steps wait until resumption (R436), and in Yew until the job has a slot of
the engine (R336); where the copies of its pipe disagree it ends CMPFAIL with nothing written (R339, log entry 78). -/
def execUpdateComplete (cntOk recOk : Bool) (s : State) : Host.Outcome State Fault Refusal :=
  .next (if s.yew.op = some .update ∧ !s.inSave then
    let t := s.yewStart
    match t.yewJob with
    | none => s
    | some (_, j) =>
      let t := if j.code ≠ kOK then t.updEnd j.code
        else if s.yewAgrees 0 then (t.compare j.pipe true).update cntOk recOk
        else (t.compare j.pipe false).updEnd kCMPFAIL
      t.umsgClear.yewOver.agreeDrawn
  else s)

/-! Rekey (R383). -/

/-- A rekey is refused with a code; the report is an update's (log entry 25). -/
def State.rekeyRefuse (s : State) (code : Nat) : State := (s.ures code 0).ist Reg.pgYEW 1

/-- A write of YEW_REKEY. -/
def rekeyWrite (v : Word) (s : State) : State :=
  if !bitOf v 0 then s
  else if s.yew.op.isSome then s.rekeyRefuse uBUSY
  else if s.testRoot then s.rekeyRefuse uTESTROOT
  else if s.rb Reg.TMP_STAT 31 then s.rekeyRefuse kTAMPER
  else State.yewStart { s with yew := { s.yew with root := .zeroed, cause := 3, op := some .rekey } }

def execRekey (init : Initiator) (v : Word) (s : State) : Host.Outcome State Fault Refusal :=
  .next (s.cmdWrite init Reg.YEW_REKEY v (rekeyWrite v))

/-- Copy b of slot n as EMPTY: copy A with SEQ 1, copy B with SEQ 0. -/
def State.emptyRecord (s : State) (ks : List Byte) (n : Nat) (b : Bool) : State :=
  s.mramWrite (recAddr n b) (slotRecord ks (if b then 0 else 1) n 0 0 [])

/-- Step 2 of R383: the new root is drawn from the entropy source as eight free values (log entry 1). -/
def State.newRoot (s : State) : State := { s with freeN := s.freeN + 8, yew := { s.yew with root := .drawn s.freeN, slots := [] } }

/-- Steps 2-4 of R383 as far as the first n record copies, slot by slot. -/
def State.rekeyTo (s : State) (n : Nat) : State :=
  let s := s.newRoot
  let ks := s.kstore
  (List.range n).foldl (fun t i => t.emptyRecord ks (i / 2) (i % 2 == 1)) s

/-- The rekey that runs is cut off: k 0 in step 1 or 2, where the root stays zeroed; else in step 4 within the write of copy k - 1, which
is left not good (R378, R383). -/
def State.rekeyCut (s : State) (k : Nat) : State :=
  if k = 0 then s else (s.rekeyTo (k - 1)).recWrite ((k - 1) / 2) ((k - 1) % 2 == 1) false []

/-- A reset or an alarm cuts off the key operation whose job runs; how far it had come is a free value (log entry 1). -/
def State.keyopCut (s : State) : State :=
  match s.yew.op, s.yewJob with
  | some o, some _ =>
    let (w, s) := s.draw
    match o with
    | .update => s.updCut (w.toNat % 4)
    | .rekey => s.rekeyCut (w.toNat % 1025)
  | _, _ => s

/-- REKEY_COMPLETE: where the copies of the pipe of its job disagree, or where its pipe failed, the rekey ends with the code of its
job and the root stays zeroed (R339, log entry 78). -/
def execRekeyComplete (s : State) : Host.Outcome State Fault Refusal :=
  .next (if s.yew.op = some .rekey ∧ !s.inSave then
    let t := s.yewStart
    match t.yewJob with
    | none => s
    | some (_, j) =>
      if j.code ≠ kOK then ((t.cryFail 3 j.code 0).rekeyRefuse j.code).yewOver
      else if s.yewAgrees 0 then (((t.compare j.pipe true).rekeyTo 1024).ist Reg.pgYEW 0).yewOver
      else (((t.compare j.pipe false).cryFail 3 kCMPFAIL 0).rekeyRefuse kCMPFAIL).yewOver.agreeDrawn
  else s)

/-- A write of YEW_CNTCLR. -/
def yewCclrWrite (v : Word) (s : State) : State :=
  if bitOf v 0 then s.clear [Reg.YEW_RECERR, Reg.YEW_UPDOK, Reg.YEW_UPDFAIL] else s

end Sys2Proof.Machine
end

