-- ==== Sys2Proof/Machine/Queues.lean ====
section
/-! DEFINITION. Host queues served (14_host_dma.md R395-R403, R415), interrupts of the host interface (R394), PCIe events (R392, R393,
R409), and the control and descriptors of DMA channels (R404-R411); and what keeps DRAM out of self-refresh (R36). -/
namespace Sys2Proof.Machine

/-- Reads of channel n that are now issued are timed from here (R409, R414). -/
def State.readFrom (s : State) (n : Nat) : State := s.setChan n { s.chanOf n with readAt := s.now }

/-! Registers (R396, R403, R415). -/

/-- A TAIL write: fetching resumes, or the write was discarded with QREF. q: 0-63 transmit, 64-127 receive. -/
def hqTailWrite (q : Nat) (v : Word) (s : State) : State :=
  let h := s.hqOf q
  if h.size ≤ fld v 11 0 then s.ist Reg.pgHQ 0 else (s.setHq q { h with stopped := false }).readFrom h.chan

def execTxTailWrite (init : Initiator) (q : Fin 64) (v : Word) (s : State) : Host.Outcome State Fault Refusal :=
  .next (s.cmdWrite init (Reg.HQ_TXTAIL q) v (hqTailWrite q v))

def execRxTailWrite (init : Initiator) (q : Fin 64) (v : Word) (s : State) : Host.Outcome State Fault Refusal :=
  .next (s.cmdWrite init (Reg.HQ_RXTAIL q) v (hqTailWrite (64 + q.val) v))

/-- Frame d of queue q is still with the device. -/
def HQueue.holds (h : HQueue) (d : Nat) : Bool := h.frames.any (fun f => f.id == d && f.res.isNone)

/-- Queue q gives up the switch cells and Privet slots of its frames in flight (R403). -/
def State.hqAbandon (s : State) (q : Nat) : State :=
  let h := s.hqOf q
  let mine := fun (x : Option (Nat × Nat)) => match x with
    | some (p, d) => p == q && h.holds d
    | none => false
  let s := { s with swIn := s.swIn.filter (fun e => !mine e.hq) }
  let ids := (s.sw.frames.filter (fun p => mine p.2.hq)).map (·.1)
  let s := s.sw.queues.foldl (fun t p => t.setQueue p.1 ((t.queueOf p.1).filter (fun c => !nsMem ids c.fid))) s
  let s := { s with sw := { s.sw with frames := s.sw.frames.filter (fun p => !mine p.2.hq) } }
  let job := fun (j : Job) => mine (j.hq.map (fun x => (x.1, x.2.1)))
  let gone := (s.prv.slots.filter (fun p => job p.2.job)).map (·.1)
  { s with prv := { s.prv with
      wait := s.prv.wait.filter (fun j => !job j)
      slots := s.prv.slots.filter (fun p => !nsMem gone p.1)
      cells := s.prv.cells.filter (fun p => !nsMem gone p.1) } }

/-- Reset of queue q (R403). -/
def State.hqReset1 (s : State) (q : Nat) : State :=
  let s := s.hqAbandon q
  let h := s.hqOf q
  let c := s.chanOf h.chan
  let s := if c.job.any (fun j => j.queue == q) then s.setChan h.chan { c with job := none } else s
  (s.setHq q { h with
    fetch := 0, cpl := 0, stopped := false, frames := [], items := [], unsig := 0, cfg := setBit h.cfg 31 false }).wr (hqTailReg q) 0

/-- A write of HQ_QRESET: discarded with QREF while a reset runs. -/
def qresetWrite (v : Word) (s : State) : State :=
  if !bitOf v 31 then s
  else if s.hqReset.isSome then s.ist Reg.pgHQ 0
  else { s.hqReset1 (fld v 6 0) with hqReset := some (fld v 6 0) }

def execQueueReset (init : Initiator) (v : Word) (s : State) : Host.Outcome State Fault Refusal :=
  .next (s.cmdWrite init Reg.HQ_QRESET v (qresetWrite v))

def execQueueResetDone (s : State) : Host.Outcome State Fault Refusal := .next { s with hqReset := none }

/-- A write of HQ_QCMD (R415): WR first, then RD, which also latches the counters. -/
def qcmdWrite (v : Word) (s : State) : State :=
  let q := s.rf Reg.HQ_QIDX 6 0
  let h := s.hqOf q
  let s := if bitOf v 0 then
      let cfg := s.rd Reg.HQ_QCFG
      let irq := s.rd Reg.HQ_QIRQ
      if h.en then (s.setHq q { h with irq := irq, cfg := setBit h.cfg 31 (bitOf cfg 31) }).ist Reg.pgHQ 0
      else s.setHq q { h with
        base := (s.rd Reg.HQ_QBLO).toNat + (s.rd Reg.HQ_QBHI).toNat * 2 ^ 32, size := ringSize (s.rf Reg.HQ_QSIZE 12 0),
        cfg := cfg, irq := irq }
    else s
  if bitOf v 1 then
    let h := s.hqOf q
    let w := fun (a x : Nat) (t : State) => t.wr a (BitVec.ofNat 32 x)
    (w Reg.HQ_QBLO h.base ∘ w Reg.HQ_QBHI (h.base / 2 ^ 32) ∘ w Reg.HQ_QSIZE h.size ∘ w Reg.HQ_QCFG h.cfg.toNat
      ∘ w Reg.HQ_QIRQ h.irq.toNat ∘ w Reg.HQ_QDONE h.done ∘ w Reg.HQ_QBAD h.bad ∘ w Reg.HQ_RXNOBUF h.nobuf) s
  else s

def execQueueConfigWrite (init : Initiator) (v : Word) (s : State) : Host.Outcome State Fault Refusal :=
  .next (s.cmdWrite init Reg.HQ_QCMD v (qcmdWrite v))

def execQueueConfigRead (init : Initiator) (v : Word) (s : State) : Host.Outcome State Fault Refusal :=
  .next (s.cmdWrite init Reg.HQ_QCMD v (qcmdWrite v))

/-- HOLDOFF us after the first unsignalled completion (R402). -/
def execQueueHoldoffExpiry (q : Fin 128) (s : State) : Host.Outcome State Fault Refusal :=
  let h := s.hqOf q
  .next (if h.unsig ≠ 0 ∧ bitOf h.irq 7 ∧ h.firstAt + fld h.irq 31 16 * 1000 ≤ s.now then s.queueIrq q else s)

/-! Transmit descriptors (R397). -/

/-- Bits no kind names are 0, in the words of entry w; sop: it is the first (R397, log entry 26). -/
def txReserved (can sop : Bool) (w : List Nat) : Bool :=
  nfld (dw w 0) 19 16 == 0 && nfld (dw w 7) 22 0 == 0
    && (!sop || (if can then !nbit (dw w 4) 16 && nfld (dw w 5) 15 0 == 0 && nfld (dw w 0) 24 20 == 0
      else nfld (dw w 3) 30 29 == 0 && nfld (dw w 3) 23 14 == 0 && dw w 4 == 0 && dw w 5 == 0))

/-- The format a CAN descriptor names. -/
def txFmt (w : List Nat) : CanFmt := match nfld (dw w 3) 31 30 with | 0 => .cc | 1 => .fd | _ => .xl

/-- The frame of entries ws on a queue for CAN frames or not is good (R397). -/
def txGood (can : Bool) (ws : List (List Nat)) : Bool :=
  match ws with
  | [] => false
  | w :: r =>
    nbit (dw w 0) 27 && nbit (dw (ws.getLast?.getD w) 0) 26
      && ws.all (fun x => nfld (dw x 0) 30 28 == (if can then 1 else 0)) && txReserved can true w && r.all (txReserved can false)
      && (if can then
          let l := nfld (dw w 0) 15 0
          let fm := nfld (dw w 3) 31 30
          r.isEmpty && fm != 3 && (!nbit (dw w 4) 31 || fm == 0) && (!nbit (dw w 4) 30 || fm == 1)
            && (if fm = 0 then decide (l ≤ 8) else if fm = 1 then fdLen l else decide (1 ≤ l) && decide (l ≤ 2048))
            && decide (nfld (dw w 4) 28 24 ≤ 23)
        else ws.all (fun x => nfld (dw x 0) 15 0 != 0) && decide (nfld (dw w 3) 28 24 ≤ 13))

/-- The buffer bytes of entry w. -/
def State.txBuffer (s : State) (w : List Nat) : List Byte := memRdN s.hmem (dw w 1 + dw w 2 * 2 ^ 32) (nfld (dw w 0) 15 0)

/-- The CAN frame of a descriptor. -/
def txCanFrame (w : List Nat) (data : List Byte) : CanFrame :=
  let f := txFmt w
  let rtr := nbit (dw w 4) 31
  let xl := fun (x : Nat) => if f = .xl then x else 0
  let dlc := if f = .xl then 0 else if f = .fd then dlcOf data.length else data.length
  ⟨f, nbit (dw w 3) 29, nfld (dw w 3) 28 0, rtr, nbit (dw w 4) 30, false, dlc, false, false, xl (nfld (dw w 5) 31 24),
    xl (nfld (dw w 5) 23 16), xl (dw w 6), if rtr then [] else data⟩

/-- The frame of entries ws enters the switch at HOST or waits for Privet as source 0x40 + q. -/
def State.txSend (s : State) (q d : Nat) (can : Bool) (ws : List (List Nat)) : State :=
  let w := ws.headD []
  let b := (ws.map s.txBuffer).flatten
  let ts := nbit (dw w 0) 25
  if can then
    let dir := nbit (dw w 4) 29
    let tgt := if dir then some (nfld (dw w 4) 28 24, nfld (dw w 4) 23 22, nfld (dw w 4) 15 0) else none
    s.waitJob ⟨0x40 + q, false, txCanFrame w b, nfld (dw w 4) 21 17, s.tsy.full, s.now, s.tsy.full, some (q, d, ts && dir), tgt⟩
  else
    let dir := nbit (dw w 3) 31
    let tgt := if dir then some (nfld (dw w 3) 28 24) else none
    let lso := if nbit (dw w 0) 23 then some (nfld (dw w 3) 13 0) else none
    { s with swIn := s.swIn ++
        [⟨14, nfld (dw w 0) 22 20, b, s.tsy.full, some (q, d), tgt, ts && dir, nbit (dw w 0) 24, lso⟩] }

/-- The fetched frame of entries ws of queue q is BADDESC: none of its entries moves data (R397). -/
def State.txBad (s : State) (q n : Nat) : State :=
  let h := s.hqOf q
  let bad := (h.bad + n) % 2 ^ 32
  let s := s.setHq q { h with
    fetch := (h.fetch + n) % h.size, nextId := h.nextId + 1, bad := bad
    frames := h.frames ++ [⟨h.nextId, h.fetch, n, some (0x20, none)⟩] }
  (s.istIf (decide (h.bad < 2 ^ 31) && decide (2 ^ 31 ≤ bad)) Reg.pgHQ 3).ist Reg.pgHQ 2

/-- The fetch of the frame of entries ws of queue q begins on channel n. -/
def State.txBegin (s : State) (q n : Nat) (ws : List (List Nat)) : State :=
  let h := s.hqOf q
  let s := s.setHq q { h with
    fetch := (h.fetch + ws.length) % h.size, nextId := h.nextId + 1
    frames := h.frames ++ [⟨h.nextId, h.fetch, ws.length, none⟩] }
  s.setChan n { s.chanOf n with job := some ⟨q, txBytes ws ws.length, ws⟩, turn := q }

/-- The frame of entries ws, the last fetched of queue q, was read whole and goes to its destination (R397). -/
def State.txFetched (s : State) (q : Nat) (ws : List (List Nat)) : State :=
  match (s.hqOf q).frames.getLast? with
  | none => s
  | some f => s.txSend q f.id (s.hqOf q).can ws

/-! Write-back (R398, R401). -/

/-- Write word k of entry i of queue q. -/
def State.entryWord (s : State) (q i k v : Nat) : State :=
  { s with hmem := memWrN s.hmem ((s.hqOf q).entryAt i + 4 * k) (leBytes 4 v) }

/-- Word 6 of entry i where it is stamped, and word 7 (R397). -/
def State.txWriteBack (s : State) (q i code : Nat) (stamp : Option Nat) : State :=
  let s := match stamp with
    | some t => s.entryWord q i 6 t
    | none => s
  s.entryWord q i 7 (code * 2 ^ 24 + stamp.isSome.toNat * 2 ^ 23)

/-- Word 0 of entry i with OWN = 0. -/
def State.txRelease (s : State) (q i : Nat) : State :=
  s.entryWord q i 0 (nsetBit (memRd32 s.hmem ((s.hqOf q).entryAt i)) 31 false)

/-- TX_DESCRIPTOR_COMPLETE (R398): the oldest frame of the queue, once its result is decided; a frame begun before a pause completes
(R408). -/
def execTxDescriptorComplete (q : Fin 64) (s : State) : Host.Outcome State Fault Refusal :=
  let h := s.hqOf q
  .next (match h.frames with
    | [] => s
    | f :: r =>
      match f.res with
      | none => s
      | some (code, st) =>
        if !s.chanServes h.chan true || !s.hostMay then s
        else
          let is := (List.range f.n).map (fun i => f.first + i)
          let s := is.foldl (fun t i => t.txWriteBack q i code st) s
          let s := is.foldl (fun t i => t.txRelease q i) s
          (s.setHq q { h with frames := r }).hqCompleted q f.n)

/-! Receive items (R399-R401). -/

/-- Bytes of the buffer of piece k of item x. -/
def HQueue.piece (h : HQueue) (x : RxItem) (k : Nat) : List Byte := (x.data.drop (k * h.buf)).take h.buf

/-- Write the data of piece k of item x to the buffer that its entry w names. -/
def State.rxWriteData (s : State) (h : HQueue) (x : RxItem) (p : List Nat × Nat) : State :=
  { s with hmem := memWrN s.hmem (dw p.1 1 + dw p.1 2 * 2 ^ 32) (h.piece x p.2) }

/-- Write words 1-7 of piece k of item x. -/
def State.rxWriteWords (s : State) (h : HQueue) (x : RxItem) (k : Nat) : State :=
  let ws := if k = 0 then x.words.map (fun w => w.toNat) else List.replicate 6 0
  { s with hmem := memWrN s.hmem (h.entryAt (x.first + k) + 4) ((ws.map (leBytes 4)).flatten ++ leBytes 4 0) }

/-- Write word 0 of piece k of item x, with OWN = 0. -/
def State.rxRelease (s : State) (q : Nat) (x : RxItem) (k : Nat) : State :=
  s.entryWord q (x.first + k) 0 (x.kind * 2 ^ 28 + (k == 0).toNat * 2 ^ 27 + (k + 1 == x.n).toNat * 2 ^ 26 + ((s.hqOf q).piece x k).length)

/-- The oldest item of receive queue q is written whole: the data of every entry, then words 1-7 of each, then word 0 of each (R401). -/
def State.rxWritten (s : State) (q : Nat) (ws : List (List Nat)) : State :=
  let h := s.hqOf q
  match h.items with
  | [] => s
  | x :: r =>
    let s := ws.zipIdx.foldl (fun t p => t.rxWriteData h x p) s
    let s := (List.range x.n).foldl (fun t k => t.rxWriteWords h x k) s
    let s := (List.range x.n).foldl (fun t k => t.rxRelease q x k) s
    (s.setHq q { h with items := r, fetch := (h.fetch + x.n) % h.size }).hqCompleted q x.n

/-! Frames and items in bursts (R395, R408, R412). -/

/-- The frame or item begun on channel n moves its next burst, where the limiter and the round robin let it; with its last byte it is
done. -/
def State.jobMove (s : State) (n : Nat) : State :=
  match (s.chanOf n).job, s.burstMay n with
  | some j, some (r, b) =>
    let s := (s.arbServe r n).jobBurst n b j
    if b < j.left then s
    else
      let s := s.setChan n { s.chanOf n with job := none }
      if j.queue < 64 then s.txFetched j.queue j.words else s.rxWritten j.queue j.words
  | _, _ => s

/-- Channel n, which has begun no frame or item, takes queue q: it is the queue's turn (R395). -/
def State.queueServed (s : State) (q n : Nat) : Bool := s.chanRuns n true && s.hostMay && s.queueTurn n == some q

/-- QUEUE_DESCRIPTOR_FETCH (R397): host: what the host wrote to its memory since. An entry with OWN = 0 stops the queue (R396). -/
def execQueueDescriptorFetch (q : Fin 64) (host : List (Nat × List Byte)) (s : State) : Host.Outcome State Fault Refusal :=
  let s := s.hostWrites host
  let n := (s.hqOf q).chan
  .next (match (s.chanOf n).job with
  | some j => if j.queue = q.val then s.jobMove n else s
  | none =>
    if !s.queueServed q n then s
    else match scanFrame 0 (s.txEntries q) with
      | .more => s
      | .stop => s.setHq q { s.hqOf q with stopped := true }
      | .frame k =>
        let ws := (s.txEntries q).take k
        if !txGood (s.hqOf q).can ws then (s.setChan n { s.chanOf n with turn := q }).txBad q k
        else if (s.burstMay n).isSome then (s.txBegin q n ws).jobMove n
        else s)

/-- RX_ITEM_WRITE: the oldest accepted item of receive queue q; an entry with OWN = 0 stops the queue (R396). -/
def execRxItemWrite (q : Fin 64) (host : List (Nat × List Byte)) (s : State) : Host.Outcome State Fault Refusal :=
  let s := s.hostWrites host
  let k := 64 + q.val
  let h := s.hqOf k
  let n := h.chan
  .next (match (s.chanOf n).job with
  | some j => if j.queue = k then s.jobMove n else s
  | none =>
    if !s.queueServed k n then s
    else match h.items with
      | [] => s
      | x :: _ =>
        let ws := (List.range x.n).map (fun i => leWords 8 (memRdN s.hmem (h.entryAt (x.first + i)) 32))
        if ws.any (fun w => !nbit (dw w 0) 31) then s.setHq k { h with stopped := true }
        else if (s.burstMay n).isSome then
          (s.setChan n { s.chanOf n with job := some ⟨k, x.data.length, ws⟩, turn := k }).jobMove n
        else s)

/-! Interrupts of the host interface (R394). -/

/-- A write of HIF_EOI. -/
def eoiWrite (v : Word) (s : State) : State := if s.vecLevel (fld v 6 0) then s.vecMessage (fld v 6 0) else s

def execHifEoi (init : Initiator) (v : Word) (s : State) : Host.Outcome State Fault Refusal :=
  .next (s.cmdWrite init Reg.HIF_EOI v (eoiWrite v))

/-- MSIX_UNMASK: the host writes the Vector Control word of vector v in BAR4, bit 0 the mask. -/
def execMsixUnmask (v : Fin 128) (ctl : Word) (s : State) : Host.Outcome State Fault Refusal :=
  .next (
    if bitOf ctl 0 then { s with vecMask := nsAdd s.vecMask v }
    else
      let s := { s with vecMask := nsDel s.vecMask v }
      if nsMem s.pba v then { s with pba := nsDel s.pba v }.vecMessage v else s)

/-! The endpoint (R392). -/

/-- What configuration space shows of the function: Device ID and Vendor ID, class code, and the size of each BAR in bytes (BAR3
absent, BAR5 the upper half of BAR4). -/
def pcieIds : Word := 0x88401C5E
def pcieClass : BitVec 24 := 0x028000
def barSize (bar : Nat) : Nat :=
  match bar with
  | 0 => 32 * 2 ^ 20
  | 2 => 16 * 2 ^ 20
  | 4 => 16 * 2 ^ 10
  | _ => 0

/-- The Device Serial Number capability: YEW_ID0 and YEW_ID1. -/
def pcieSerial : List Word := [Config.deviceId 0, Config.deviceId 1]

/-- The word of BAR4 at byte offset off: Vector Control of the 128 vectors, the PBA, and 0 elsewhere. Message address and data of a
vector, which the host writes there for its own use, read 0: no command writes them (log entry 71). -/
def State.bar4Word (s : State) (off : Nat) : Word :=
  if off < 0x800 then (if off % 16 / 4 = 3 ∧ nsMem s.vecMask (off / 16) then 1 else 0)
  else if 0x2000 ≤ off ∧ off < 0x2010 then
    BitVec.ofNat 32 (((List.range 32).map (fun k => if nsMem s.pba ((off - 0x2000) / 4 * 32 + k) then 2 ^ k else 0)).sum)
  else 0

/-- A write of HIF_CNTCLR. -/
def hifCclrWrite (v : Word) (s : State) : State :=
  if bitOf v 0 then s.clear [Reg.HIF_CPLTO, Reg.HIF_RXERR, Reg.HIF_LINKDN] else s

/-- Base and size of the copy ring of channel n, and the address of entry i (R405). -/
def State.copySize (s : State) (n : Nat) : Nat := ringSize (s.rf (Reg.DMACH_RSIZE n) 12 0)
def State.copyEntry (s : State) (n i : Nat) : Nat :=
  (s.rd (Reg.DMACH_RBLO n)).toNat + (s.rd (Reg.DMACH_RBHI n)).toNat * 2 ^ 32 + 32 * i

/-- The copy ring of channel n is in host memory; RSP 0x2-0x3 act as 0x0. -/
def State.copyHost (s : State) (n : Nat) : Bool := s.rf (Reg.DMACH_CTL n) 5 4 != 1

/-- Indices of the copy ring. -/
def State.copyFetch (s : State) (n : Nat) : Nat := s.rf (Reg.DMACH_RHEAD n) 27 16
def State.copyCpl (s : State) (n : Nat) : Nat := s.rf (Reg.DMACH_RHEAD n) 11 0
def State.copyTail (s : State) (n : Nat) : Nat := s.rf (Reg.DMACH_RTAIL n) 11 0

/-- The next access of channel n to host memory (R393): write, address, ring index; none where it has none. -/
def State.hostNext (s : State) (n : Nat) : Option (Bool × Nat × Nat) :=
  if !bitOf (s.rd (Reg.DMACH_CTL n)) 0 then none
  else if n < 48 && s.rb (Reg.DMACH_CTL n) 1 then
    ((List.range 128).find? (fun q =>
      let h := s.hqOf q
      h.en && h.chan == n && (!h.frames.isEmpty || (!h.stopped && (!h.items.isEmpty || (q < 64 && s.hqTail q != h.fetch)))))).map (fun q =>
        let h := s.hqOf q
        (decide (q < 64) && !h.frames.isEmpty, h.entryAt h.cpl, q))
  else match (s.chanOf n).cur with
    | some (i, w) =>
      let m := (s.chanOf n).moved
      if m < dw w 1 && cpAhead w && cpSsp w == 0 then some (false, copySrc w m, i)
      else if m < dw w 1 && cpDsp w == 0 then some (true, copyDst w m, i)
      else if s.copyHost n then some (true, s.copyEntry n i, i)
      else none
    | none =>
      if s.copyHost n && !(s.chanOf n).stopped && s.copyFetch n != s.copyTail n then some (false, s.copyEntry n (s.copyFetch n), s.copyFetch n) else none

/-- PCIE_LINK_LOSS (R393): every channel with a host-space access outstanding or next halts with cause LINK. -/
def execPcieLinkLoss (s : State) : Host.Outcome State Fault Refusal :=
  .next (if !s.rb Reg.HIF_STAT 31 then s
  else
    let s := (((s.wb Reg.HIF_STAT 31 false).bump Reg.HIF_LINKDN 1 2)).ist Reg.pgHIF 0
    (List.range 52).foldl (fun t n =>
      match s.hostNext n with
      | some (wr, a, i) => t.chanHalt n hLINK wr 0 a i none
      | none => t) s)

/-- PCIE_LINK_UP (R414): the link reaches L0 at a speed code and lane count. -/
def execPcieLinkUp (speed : Fin 4) (width : Fin 16) (s : State) : Host.Outcome State Fault Refusal :=
  .next (((s.wb Reg.HIF_STAT 31 true).wf Reg.HIF_STAT 3 0 speed).wf Reg.HIF_STAT 19 16 width |>.ist Reg.pgHIF 1)

def execBusMasterEnable (on : Bool) (s : State) : Host.Outcome State Fault Refusal := .next { s with bme := on }

/-- D3HOT_TRANSITION (R392): back in D0, each vector that is not masked sends the message its PBA bit holds. -/
def execD3hotTransition (on : Bool) (s : State) : Host.Outcome State Fault Refusal :=
  let s := { s with d3 := on }
  .next (if on then s
  else (s.pba.filter (fun v => !nsMem s.vecMask v)).foldl (fun t v => { t with pba := nsDel t.pba v }.vecMessage v) s)

/-- The channel has an access under way that can fail: it runs and is not halted. -/
def State.chanBusy (s : State) (n : Nat) : Bool := s.rb (Reg.DMACH_CTL n) 0 && !s.rb (Reg.DMACH_STAT n) 31

/-- CHANNEL_HALT (R409): an access of channel n to host memory ended with UR or CA (poison false) or a poisoned payload. -/
def execChannelHalt (n : Fin 52) (poison write : Bool) (addr : Nat) (index : Fin 4096) (s : State) :
    Host.Outcome State Fault Refusal :=
  .next (if s.chanBusy n then
    (s.bump Reg.HIF_RXERR 1 2).chanHalt n (if poison then 3 else 2) write 0 addr index none
  else s)

/-- Channel n has a read of host memory under way: of a source, of descriptors, or of the buffers of a frame. -/
def State.hostReading (s : State) (n : Nat) : Bool :=
  s.hostMay && (s.chanHostReads n != 0 || (s.chanOf n).job.isSome || (match s.hostNext n with
    | some (wr, _, _) => !wr && (s.chanOf n).cur.isNone
    | none => false))

/-- COMPLETION_TIMEOUT (R409): a read of host memory got no completion within the time of HIF_CTL.CTO (R414). -/
def execCompletionTimeout (n : Fin 52) (addr : Nat) (index : Fin 4096) (s : State) : Host.Outcome State Fault Refusal :=
  .next (if s.chanBusy n && s.hostReading n && decide ((s.chanOf n).readAt + ctoNs (s.rf Reg.HIF_CTL 3 0) ≤ s.now) then
    (s.bump Reg.HIF_CPLTO 1 2).chanHalt n 4 false 0 addr index none
  else s)

/-! Channel control (R405, R408, R411, R417). -/

/-- Reset of channel n (R411): every queue it serves is reset, its indices return to 0. -/
def State.chanReset (s : State) (n : Nat) : State :=
  let s := (List.range 128).foldl (fun t q => if (t.hqOf q).chan = n ∧ n < 48 then t.hqReset1 q else t) s
  let s := (s.wr (Reg.DMACH_RHEAD n) 0).wr (Reg.DMACH_RTAIL n) 0
  let s := s.wr (Reg.DMACH_STAT n) (BitVec.ofNat 32 (2 ^ 29))
  let s := (s.wb (Reg.DMACH_CTL n) 0 false).clear [Reg.DMACH_ERRINFO n, Reg.DMACH_HOLD n]
  let s := if n < 32 then s.wb Reg.DMA_HALT0 n false else s.wb Reg.DMA_HALT1 (n - 32) false
  let s := if 48 ≤ n ∧ s.rf Reg.DMA_HALT1 19 16 = 0 then s.wr Reg.DMA_GRP 0 else s
  let s := { s with xpl := { s.xpl with reqs := s.xpl.reqs.map (fun (r : BReq) => if r.chan.any (fun (c : Fin 52) => c.val == n) then { r with chan := none } else r) } }
  s.setChan n { frac := (s.chanOf n).frac, turn := (s.chanOf n).turn }

/-- A write of DMACHn_CTL. -/
def chctlWrite (n : Nat) (v : Word) (s : State) : State :=
  if bitOf v 31 then s.chanReset n
  else
    let c := s.rd (Reg.DMACH_CTL n)
    let mode := bitOf v 1 && decide (n < 48)
    let on := bitOf c 0
    let refuse := on && (mode != bitOf c 1 || fld v 5 4 != fld c 5 4)
    let c' := if on then c else setFld (setBit c 1 mode) 5 4 (fld v 5 4)
    let c' := setBit c' 30 (bitOf v 30)
    let c' := if s.rb (Reg.DMACH_STAT n) 31 && bitOf v 0 then c' else setBit c' 0 (bitOf v 0)
    let s := ((s.wr (Reg.DMACH_CTL n) c').istIf refuse (Reg.pgDMACH n) 5).readFrom n
    if bitOf v 30 then s else s.wb (Reg.DMACH_STAT n) 30 false

/-- A write of DMA_RESET0 or DMA_RESET1: channels base + i for the bits of v. -/
def dmaResetWrite (base k : Nat) (v : Word) (s : State) : State :=
  (setBits v.toNat k).foldl (fun t i => t.chanReset (base + i)) s

/-- A write of DMACHn_RTAIL: fetching resumes, or the write was discarded with RINGREF. -/
def chTailWrite (n : Nat) (v : Word) (s : State) : State :=
  if s.copySize n ≤ fld v 11 0 then s.ist (Reg.pgDMACH n) 5 else s.setChan n { s.chanOf n with stopped := false, readAt := s.now }

/-- A write of DMACHn_RBLO, RBHI or RSIZE: discarded with RINGREF while EN = 1. -/
def chRingWrite (n : Nat) (s : State) : State := s.istIf (s.rb (Reg.DMACH_CTL n) 0) (Reg.pgDMACH n) 5

/-- A write of DMACHn_CNTCLR. -/
def chCclrWrite (n : Nat) (v : Word) (s : State) : State :=
  if bitOf v 0 then s.clear [Reg.DMACH_DONE n, Reg.DMACH_BYTES n] else s

def execCopyRingTailWrite (init : Initiator) (n : Fin 52) (v : Word) (s : State) : Host.Outcome State Fault Refusal :=
  .next (s.cmdWrite init (Reg.DMACH_RTAIL n) v (chTailWrite n v))

def execChannelPause (init : Initiator) (n : Fin 52) (v : Word) (s : State) : Host.Outcome State Fault Refusal :=
  .next (s.cmdWrite init (Reg.DMACH_CTL n) v (chctlWrite n v))

def execChannelResume (init : Initiator) (n : Fin 52) (v : Word) (s : State) : Host.Outcome State Fault Refusal :=
  .next (s.cmdWrite init (Reg.DMACH_CTL n) v (chctlWrite n v))

/-- CHANNEL_RESET: a write of DMACHn_CTL for t = n, of DMA_RESET0 for 52, of DMA_RESET1 for 53. -/
def execChannelReset (init : Initiator) (t : Fin 54) (v : Word) (s : State) : Host.Outcome State Fault Refusal :=
  .next (if t.val = 52 then s.cmdWrite init Reg.DMA_RESET0 v (dmaResetWrite 0 32 v)
    else if t.val = 53 then s.cmdWrite init Reg.DMA_RESET1 v (dmaResetWrite 32 20 v)
    else s.cmdWrite init (Reg.DMACH_CTL t) v (chctlWrite t v))

def execChannelResetDone (n : Fin 52) (s : State) : Host.Outcome State Fault Refusal :=
  .next (if s.rb (Reg.DMACH_STAT n) 29 then (s.wb (Reg.DMACH_STAT n) 29 false).ist (Reg.pgDMACH n) 0 else s)

/-! Copy descriptors (R405). -/

/-- The descriptor breaks R405. -/
def copyBad (w : List Nat) : Bool :=
  let op := nfld (dw w 0) 30 28
  let ssp := nfld (dw w 0) 27 26
  let dsp := nfld (dw w 0) 25 24
  let fill := op == 1
  let sword := !fill && (decide (2 ≤ ssp) || nbit (dw w 0) 23)
  let dword := decide (2 ≤ dsp) || nbit (dw w 0) 22
  decide (1 < op) || dw w 1 == 0 || ((sword || dword) && dw w 1 % 4 != 0) || (sword && dw w 2 % 4 != 0) || (dword && dw w 4 % 4 != 0)

/-- Write back entry i of channel n's ring with a code, and complete it (R406). -/
def State.copyDone (s : State) (n i code : Nat) : State :=
  let h := s.copyHost n
  let a := s.copyEntry n i
  let s := s.memPut h (a + 24) (leBytes 4 s.stamp32 ++ leBytes 4 (code * 2 ^ 24))
  let w0 := leNat ((s.memSpaceRd h a 4).getD [])
  let s := s.memPut h a (leBytes 4 (nsetBit w0 31 false))
  let s := s.wf (Reg.DMACH_RHEAD n) 11 0 ((i + 1) % s.copySize n)
  (s.setChan n { s.chanOf n with cur := none, moved := 0, readTo := 0, goal := 0, readAt := s.now }).bump (Reg.DMACH_DONE n) 1 4

/-- COPY_DESCRIPTOR_FETCH: one descriptor of a channel is in progress at a time. -/
def execCopyDescriptorFetch (n : Fin 52) (host : List (Nat × List Byte)) (s : State) : Host.Outcome State Fault Refusal :=
  let s := s.hostWrites host
  let c := s.chanOf n
  let i := s.copyFetch n
  let h := s.copyHost n
  .next (
    if !s.chanRuns n false || c.cur.isSome || c.stopped || i == s.copyTail n || !s.spaceMay h then s
    else match s.memSpaceRd h (s.copyEntry n i) 32 with
      | none => s.chanHalt n hBUS false 1 (s.copyEntry n i) i none
      | some b =>
        let w := leWords 8 b
        if !nbit (dw w 0) 31 then s.setChan n { c with stopped := true }
        else
          let s := (s.wf (Reg.DMACH_RHEAD n) 27 16 ((i + 1) % s.copySize n)).wr (Reg.DMACH_CUR n) (BitVec.ofNat 32 (nfld (dw w 0) 15 0))
          if copyBad w then ((s.copyDone n i 0x20).ist (Reg.pgDMACH n) 3).istIf (nbit (dw w 0) 21) (Reg.pgDMACH n) 0
          else (s.setChan n { c with cur := some (i, w), moved := 0, readTo := 0, goal := 0 }).wr (Reg.DMACH_REM n) (BitVec.ofNat 32 (dw w 1)))

/-! DRAM and its self-refresh (R36). -/

/-- Channel n addresses DRAM: its descriptor in progress does, or its ring there holds entries it has not fetched. -/
def State.chanDram (s : State) (n : Nat) : Bool :=
  match (s.chanOf n).cur with
  | some (_, w) => (!cpFill w && cpSsp w == 1) || cpDsp w == 1 || !s.copyHost n
  | none => !s.copyHost n && s.chanRuns n false && !(s.chanOf n).stopped && s.copyFetch n != s.copyTail n

/-- The three conditions of R36 hold. -/
def State.dramQuiet (s : State) : Bool := s.tktUsed == 0 && s.tpe.ses.isEmpty && (List.range 52).all (fun n => !s.chanDram n)

/-- A request for DRAM stands: what R36 names, a frame to spill, or a memory job of a ring there. -/
def State.dramAsked (s : State) : Bool :=
  !s.dramQuiet || s.cry.mem.any (fun m => !ringHost m.ring)
    || [0, 1, 2, 3].any (fun k => !ringHost k && s.rb (Reg.CRY_RCTL k) 0 && !s.rb (Reg.CRY_RCTL k) 31 && s.rFetch k != s.rTail k)
    || s.sw.queues.any (fun p => p.2.zipIdx.any (fun c => s.spillWants p.1 c.2 c.1))

/-- Since when the three conditions of R36 have held, seen at each cycle of the clock. -/
def State.dramTick (s : State) : State :=
  let q := if s.dramQuiet then some (s.sw.quietAt.getD s.now) else none
  if s.sw.quietAt = q then s else { s with sw := { s.sw with quietAt := q } }

end Sys2Proof.Machine
end

