-- ==== Sys2Proof/Machine/Xanpel.lean ====
section
/-! DEFINITION. The Xanpel link (03_xanpel_link.md): the register bridge with its sequence numbers, retries and locks,
the collision rule, and the link state table. -/
namespace Sys2Proof.Machine

/-- XPL_STAT.STATE values (R89). -/
def xOFF : Nat := 0
def xTRAIN : Nat := 1
def xUP : Nat := 2
def xLOST : Nat := 3
def xDOWN : Nat := 4

/-- The link state (XPL_STAT.STATE). -/
def State.linkState (s : State) : Nat := s.rf Reg.XPL_STAT 2 0

/-- The link enters a state, which forms a LINK record (R521). -/
def State.setLink (s : State) (x : Nat) : State :=
  let s := s.wf Reg.XPL_STAT 2 0 x
  s.trace 9 0 [BitVec.ofNat 8 x, BitVec.ofNat 8 (s.rf Reg.XPL_STAT 23 16)]

/-- The link is UP. -/
def State.linkUp (s : State) : Bool := s.linkState == xUP

/-- Update the link record. -/
def State.setXpl (s : State) (x : Xpl) : State := { s with xpl := x }

/-! Sending and receiving register messages (R78). -/

/-- The sending side of a direction. -/
def State.sender (s : State) : LinkDir → LinkSide
  | .toKykel => s.xpl.yat
  | .toYatric => s.xpl.kyk

/-- Replace the sending side of a direction. -/
def State.setSender (s : State) (d : LinkDir) (l : LinkSide) : State :=
  match d with
  | .toKykel => s.setXpl { s.xpl with yat := l }
  | .toYatric => s.setXpl { s.xpl with kyk := l }

/-- The opposite direction. -/
def oppDir : LinkDir → LinkDir
  | .toKykel => .toYatric
  | .toYatric => .toKykel

/-! Frames (R71, R72). -/

/-- FSEQ of the frame that is sent now: both directions send one frame every 8 ns from the instant the link became UP. -/
def State.fseqNow (s : State) : Nat := (s.mono - s.xpl.upAt) / 8 % 16

/-- A register-slot message as bits. -/
def msgBits (m : BMsg) : Nat :=
  m.typ % 16 * 2 ^ 92 + m.seq % 16 * 2 ^ 88 + m.ackv.toNat * 2 ^ 87 + m.ackseq % 16 * 2 ^ 83 + m.init % 4 * 2 ^ 81
    + m.lock.toNat * 2 ^ 80 + m.waddr % 65536 * 2 ^ 64 + m.data.toNat * 2 ^ 32 + m.ecode % 16 * 2 ^ 28

/-- The event slot: the oldest event message of the sending die (R459), TYPE, ESEQ and DETAIL. -/
def State.eventBits (s : State) (d : LinkDir) : Nat :=
  match (match d with | .toKykel => s.xpl.evY.q | .toYatric => s.xpl.evK.q) with
  | [] => 0
  | (q, t, x) :: _ => t % 16 * 2 ^ 12 + q % 8 * 2 ^ 9 + x % 512

/-- The frame that carries register-slot message m in direction d (R72): FSEQ, no CAN edge, the T1S signals as they stand, the event slot
and the CRC. -/
def State.frameOut (s : State) (d : LinkDir) (m : BMsg) : BitVec 256 :=
  let t := fun (k : Nat) => ((match d with | .toKykel => s.xpl.t1sTx | .toYatric => s.xpl.t1sRx)[k]?.getD 0) % 4096
  let b := s.fseqNow * 2 ^ 236 + t 0 * 2 ^ 140 + t 1 * 2 ^ 128 + msgBits m * 2 ^ 32 + s.eventBits d * 2 ^ 16
  BitVec.ofNat 256 (b * 2 ^ 16 + (Config.linkCrc b).toNat)

/-- A register-slot message enters the link in direction d. -/
def State.emitMsg (s : State) (d : LinkDir) (m : BMsg) : State := s.emit (.linkMsg d m (s.frameOut d m))

/-- Send a register message: it takes the side's next SEQ, acknowledges the last message received in order, and stays
unacknowledged until the far side acknowledges it (R78). -/
def State.sendMsg (s : State) (d : LinkDir) (typ init : Nat) (lock : Bool) (waddr : Nat) (data : Word) (ecode : Nat) :
    State :=
  let l := s.sender d
  let m : BMsg := ⟨typ, l.txSeq, true, (l.rxSeq + 15) % 16, init, lock, waddr, data, ecode⟩
  let l := { l with txSeq := (l.txSeq + 1) % 16, unacked := l.unacked ++ [⟨m, s.now, 0⟩] }
  (s.setSender d l).emitMsg d m

/-- ACKSEQ a arrived for messages sent in direction d: it and every earlier message are acknowledged. -/
def State.ackMsgs (s : State) (d : LinkDir) (a : Nat) : State :=
  let l := s.sender d
  let rest := l.unacked.filter (fun u => decide (8 ≤ (a + 16 - u.msg.seq) % 16))
  s.setSender d { l with unacked := rest }

/-- The acknowledgement that message m, received in direction d, carries is taken. -/
def State.takeAcks (s : State) (d : LinkDir) (m : BMsg) : State := if m.ackv then s.ackMsgs (oppDir d) m.ackseq else s

/-- Receive message m in direction d: the state with the acknowledgement it carried taken and its SEQ accepted where it is the next one in
order, none otherwise (R78). -/
def State.accept (s : State) (d : LinkDir) (m : BMsg) : Option State :=
  let s := s.takeAcks d m
  let l := s.sender (oppDir d)
  if m.seq = l.rxSeq then some (s.setSender (oppDir d) { l with rxSeq := (m.seq + 1) % 16 }) else none

/-- A message that is not accepted is discarded: one whose SEQ was already accepted is acknowledged again, in an idle message; one that
follows a gap waits for the resend of what is missing, as it is not acknowledged (R78). -/
def State.discardMsg (s : State) (d : LinkDir) (m : BMsg) : State :=
  let s := s.takeAcks d m
  let l := s.sender (oppDir d)
  if decide ((l.rxSeq + 15 - m.seq) % 16 < 8) then
    s.emitMsg (oppDir d) ⟨0, l.txSeq, true, (l.rxSeq + 15) % 16, 0, false, 0, 0, 0⟩
  else s

/-! The Yatric bridge (R79-R84). -/

/-- A write is sent non-posted: PWR and TMP pages, PG_UNLK, RWG registers, or NPALL (R81). -/
def State.isNonPosted (s : State) (a : Nat) : Bool :=
  pageBase a == Reg.pgPWR || pageBase a == Reg.pgTMP || a % 0x1000 == 0x28 || s.rb Reg.XPL_BRCTL 16 ||
    (match rowAt a with
     | some r => r.acc == .rwg
     | none => false)

/-- The XPL lock owner code, 3 = none. -/
def State.lockOwner (s : State) : Nat := s.rf Reg.XPL_LOCK 3 2

/-- A request that waits RTINT before its repetition may be repeated (R79). -/
def State.phaseReady (s : State) (r : BReq) : Bool :=
  match r.phase with
  | .held => s.xpl.resv.isNone
  | .retryWait d => decide (d ≤ s.now)
  | _ => false

/-- Request r may enter the link now: link UP, no reservation for a new request (R87), no other initiator's lock (R84), and no earlier
access of its initiator unfinished (R82, R83). -/
def State.maySend (s : State) (earlier : List BReq) (r : BReq) : Bool :=
  s.linkUp && s.phaseReady r && (s.lockOwner == 3 || s.lockOwner == r.init.code)
    && !earlier.any (fun q => q.init == r.init && q.phase != .acked)

/-- Send one bridge request. -/
def State.sendReq (s : State) (r : BReq) : State :=
  s.sendMsg .toKykel (if r.write then (if r.np then 3 else 2) else 1) r.init.code (s.lockOwner == r.init.code)
    ((r.off - 0x800000) / 4) r.val 0

/-- A posted write of a DMA channel completes to it when it first enters the link (R82). -/
def State.postDone (s : State) (r : BReq) : State :=
  match r.chan with
  | some n => if !r.np && r.phase == .held then s.chanPut n else s
  | none => s

/-- The request on the link: a repetition is counted (R79). -/
def BReq.onLink (r : BReq) : BReq := { r with phase := .sent, tries := if r.phase == .held then r.tries else r.tries + 1 }

/-- Walk the requests in issue order and send each that may enter the link. -/
def State.pumpFrom (s : State) (earlier : List BReq) : List BReq → State
  | [] => s.setXpl { s.xpl with reqs := earlier }
  | r :: rest =>
    if s.maySend earlier r then ((s.sendReq r).postDone r).pumpFrom (earlier ++ [r.onLink]) rest
    else s.pumpFrom (earlier ++ [r]) rest

/-- The lock request of the first waiting initiator may enter the link: none is under way, or the one that was answered RETRY has waited
(R79, R84). -/
def State.lockReady (s : State) : Bool :=
  !s.xpl.lockAsked && (match s.xpl.lockDue with
    | none => true
    | some d => decide (d ≤ s.now))

/-- Ask for the Kykel bus for the first waiting initiator, when no lock is held and none is asked for (R84). -/
def State.pumpLock (s : State) : State :=
  match s.xpl.lockWait with
  | [] => s
  | i :: _ =>
    if s.linkUp && s.lockOwner == 3 && s.lockReady then
      let t := s.sendMsg .toKykel 8 i.code true 0 0 0
      t.setXpl { t.xpl with lockAsked := true, lockDue := none, lockTries := t.xpl.lockTries + s.xpl.lockDue.isSome.toNat }
    else s

/-- Send whatever may be sent. -/
def State.pump (s : State) : State := (s.pumpFrom [] s.xpl.reqs).pumpLock

/-- An access of a Yatric initiator ends at the bridge as a bus error of cause BRIDGE; a DMA channel halts (R52, R409). -/
def State.bridgeRefuse (s : State) (init : Initiator) (write : Bool) (a : Nat) (v : Word) (chan : Option (Fin 52)) : State :=
  let s := s.busError init write 0 a cBRIDGE
  match chan with
  | some n => s.chanFail n write a v
  | none => s

/-- A Kykel-window access of a Yatric initiator reaches the bridge: BRIDGE while the link is not UP (R90) or for the
first access after a broken lock (R85); otherwise it joins the requests. While the link is not UP the error is that of R90 and reports
no break, so the break stays to be reported (DESIGN CHOICE, log entry 69). -/
def State.bridgeAsk (s : State) (init : Initiator) (write : Bool) (a : Nat) (v : Word) (chan : Option (Fin 52)) : State :=
  if !s.linkUp then s.bridgeRefuse init write a v chan
  else if s.xpl.broken.contains init then
    (s.setXpl { s.xpl with broken := s.xpl.broken.filter (· != init) }).bridgeRefuse init write a v chan
  else
    let r : BReq := ⟨init, a, write, !write || s.isNonPosted a, v, .held, 0, chan⟩
    (s.setXpl { s.xpl with reqs := s.xpl.reqs ++ [r] }).pump

/-- A Kykel-window access of host software or Laurel. -/
def State.bridgeSubmit (s : State) (init : Initiator) (write : Bool) (a : Nat) (v : Word) : State := s.bridgeAsk init write a v none

/-- DMA channel n reads or writes one word at a Kykel page (R404): it waits for the end of the access. -/
def State.bridgeChan (s : State) (n : Nat) (write : Bool) (a : Nat) (v : Word) : State :=
  (s.setChan n { s.chanOf n with wait := true, asked := !write, got := none }).bridgeAsk .dma write a v
    (some ⟨n % 52, Nat.mod_lt n (by decide)⟩)

/-- Take the first request that satisfies p. The Kykel die serves an initiator in issue order (R83), so an earlier posted write of its
initiator that it has received is done. -/
def takeReq (p : BReq → Bool) : List BReq → Option (BReq × List BReq)
  | [] => none
  | r :: rest =>
    if p r then some (r, rest)
    else match takeReq p rest with
      | none => none
      | some (q, l) => some (q, if q.init == r.init && r.phase == .acked then l else r :: l)

/-- The outstanding request of initiator code c. -/
def outstanding (c : Nat) (r : BReq) : Bool := r.init.code == c && r.phase == .sent

/-- The request that a RETRY or error message m answers: of its initiator and word, on the link or a received posted write. -/
def refusable (m : BMsg) (r : BReq) : Bool :=
  r.init.code == m.init && r.off == 0x800000 + 4 * m.waddr && (r.phase == .sent || r.phase == .acked)

/-- A failed bridge access (R82): a posted write counts in XPL_PWLOST and is logged with BRIDGE. The DMA channel that waits for it halts;
a posted write that has entered the link was complete for its channel (R82, R409). The Kykel die holds nothing back for it any more. -/
def State.failReq (s : State) (r : BReq) (cause : Nat) : State :=
  let s := s.setXpl { s.xpl with kykOrder := s.xpl.kykOrder.filter (fun p => p != (r.init.code, (r.off - 0x800000) / 4)) }
  let s := if r.np then s.busError r.init r.write 0 r.off cause
    else (s.busError r.init r.write 0 r.off cBRIDGE).bumpSat Reg.XPL_PWLOST 1 4
  match r.chan with
  | some n => if r.np || r.phase == .held then s.chanFail n r.write r.off r.val else s
  | none => s

/-- The access r ended with its answer: a read gives its word, to its initiator or to the DMA channel that asked for it; a write of a
channel is done. What a channel reset has abandoned is discarded (R411). -/
def State.reqDone (s : State) (r : BReq) (v : Word) : State :=
  match r.chan with
  | some n => if r.write then s.chanPut n else s.chanGot n v
  | none => if r.write || r.init == .dma then s else s.emit (.readData r.init 0 r.off [v])

/-- The cause a Kykel refusal reports: its ECODE for reads and non-posted writes (log entry 7). -/
def ecodeCause (e : Nat) : Nat := if e = 1 then cUNMAPPED else if e = 2 then cLOCKED else if e = 3 then cBADKEY else cBRIDGE

/-- ECODE of a page's refusal. -/
def causeEcode (c : Nat) : Nat := if c = cUNMAPPED then 1 else if c = cLOCKED then 2 else if c = cBADKEY then 3 else 0

/-- Drop the oldest received posted writes, so that at most k are kept. -/
def keepAcked (k : Nat) : List BReq → List BReq
  | [] => []
  | r :: rest =>
    if r.phase == .acked && decide (k ≤ (rest.filter (fun q => q.phase == .acked)).length) then keepAcked k rest
    else r :: keepAcked k rest

/-- Posted writes whose message is acknowledged have been received (R82); the last 16 are kept for a refusal or a RETRY (log entry 68). -/
def State.reapPosted (s : State) : State :=
  let got := fun (r : BReq) => !r.np && r.phase == .sent &&
    !s.xpl.yat.unacked.any (fun u => u.msg.typ == 2 && u.msg.init == r.init.code)
  s.setXpl { s.xpl with reqs := keepAcked 16 (s.xpl.reqs.map (fun r => if got r then { r with phase := .acked } else r)) }

/-! The link state table (R89-R91). -/

/-- Enter TRAIN from another state with attempt count 0. -/
def State.enterTrain (s : State) : State :=
  let s := s.setLink xTRAIN
  s.setXpl { s.xpl with trainAt := s.now, attemptAt := s.now, attempts := 0 }

/-- The UP-to-LOST actions of R89: R75 levels, outstanding accesses failed with BRIDGE, LOST, XPL_LOSS; waiting lock
requests withdrawn (R84), the Kykel summary bits read 0 (R50). -/
def State.linkDown (s : State) : State :=
  let rs := s.xpl.reqs
  let s := s.setXpl { s.xpl with
    reqs := [], lockWait := [], lockAsked := false, lockDue := none, lockTries := 0, resv := none
    kykHold := false, kykWait := [], kykOrder := []
    yat := { s.xpl.yat with unacked := [], bad := 0 }, kyk := { s.xpl.kyk with unacked := [], bad := 0 }
    rxd := List.replicate 16 true, txd := List.replicate 16 true, kSum := [], kSync := false }
  let s := (rs.filter (fun r => r.phase != .acked)).foldl (fun t r => t.failReq r cBRIDGE) s
  s.syncLevels

/-- Loss of the link from UP (R89): into LOST and, with RTRMAX not 0 or where the loss is a TRAIN write (R91), at once
into TRAIN; else DOWN. -/
def State.linkLost (s : State) (byTrain : Bool) : State :=
  if !s.linkUp then s
  else
    let s := { s.setLink xLOST with wkn := { s.wkn with downAt := s.mono, fsDone := false } }
    let s := (s.linkDown.ist Reg.pgXPL 1).bumpSat Reg.XPL_LOSS 1 4
    if byTrain || s.rf Reg.XPL_CTL 11 8 != 0 then s.enterTrain
    else (s.setLink xDOWN).ist Reg.pgXPL 2

/-- The link goes OFF: Yatric supply lost or Yatric reset (R89). -/
def State.linkOff (s : State) : State :=
  let s := s.setXpl { s.xpl with
    reqs := [], lockWait := [], lockAsked := false, lockDue := none, lockTries := 0, resv := none, attempts := 0, broken := []
    kykHold := false, kykWait := [], kykOrder := []
    yat := ⟨0, 0, [], 0, 0⟩, kyk := ⟨0, 0, [], 0, 0⟩
    rxd := List.replicate 16 true, txd := List.replicate 16 true, kSum := [], kSync := false }
  s.setLink xOFF

/-! Locks (R84, R85). -/

/-- Release the XPL lock or withdraw the waiting request of an initiator. -/
def State.lockRelease (s : State) (init : Initiator) : State :=
  if s.lockOwner = init.code then
    let s := s.wf Reg.XPL_LOCK 3 2 3
    let s := if s.linkUp then s.sendMsg .toKykel 0xA init.code true 0 0 0 else s
    s.pump
  else
    let head := s.xpl.lockWait.head? == some init
    s.setXpl { s.xpl with
      lockWait := s.xpl.lockWait.filter (· != init)
      lockDue := if head then none else s.xpl.lockDue, lockTries := if head then 0 else s.xpl.lockTries }

/-- Request the XPL lock (R84): BRIDGE while the link is not UP. -/
def State.lockRequest (s : State) (init : Initiator) : State :=
  if !s.linkUp then s.busError init true 0 Reg.XPL_LOCK cBRIDGE
  else if s.lockOwner = init.code ∨ s.xpl.lockWait.contains init then s
  else (s.setXpl { s.xpl with lockWait := s.xpl.lockWait ++ [init] }).pump

/-- A write of XPL_LOCK: REL first, then REQ (R84). -/
def lockWrite (init : Initiator) (v : Word) (s : State) : State :=
  let s := if bitOf v 1 then s.lockRelease init else s
  if bitOf v 0 then s.lockRequest init else s

/-- The initiator of a code. -/
def initOf (c : Nat) : Initiator := if c = 0 then .host else if c = 1 then .laurel else if c = 2 then .dma else .kykel

/-- A write of XPL_CTL: TRAIN acts in UP and DOWN (R89, R91). -/
def xplCtlWrite (v : Word) (s : State) : State :=
  if !bitOf v 0 then s
  else if s.linkUp then s.linkLost true
  else if s.linkState = xDOWN then s.enterTrain
  else s

/-! Messages at the Kykel die (toKykel) and at the Yatric die (toYatric). -/

/-- A request is served at the Kykel page (R79-R82). -/
def kykelPage (eff : Initiator → Nat → Word → State → State) (m : BMsg) (s : State) : State :=
  let a := 0x800000 + 4 * m.waddr
  let i := initOf m.init
  if m.typ = 1 then
    match s.readAt i a with
    | .error c => s.sendMsg .toYatric 7 m.init m.lock m.waddr 0 (causeEcode c)
    | .ok (w, t) => t.sendMsg .toYatric 4 m.init m.lock m.waddr w 0
  else
    let s := s.setXpl { s.xpl with kykOrder := s.xpl.kykOrder.filter (fun p => p != (m.init, m.waddr)) }
    let (t, c) := s.writeAt eff i a m.data
    if c ≠ 0 then t.sendMsg .toYatric 7 m.init m.lock m.waddr 0 (causeEcode c)
    else if m.typ = 3 then t.sendMsg .toYatric 5 m.init m.lock m.waddr 0 0
    else t

/-- An earlier write of the initiator of m was answered RETRY and has not come again: m is not served before it (R83). -/
def State.outOfOrder (s : State) (m : BMsg) : Bool :=
  match s.xpl.kykOrder.find? (fun p => p.1 == m.init) with
  | none => false
  | some p => m.typ == 1 || p.2 != m.waddr

/-- A request arrives at the Kykel die. busHeld: its bus is held by a locked sequence of the wake sequencer or tamper logic, which answers
RETRY (R79); while its own transfer toward the Yatric die holds the bus, the request waits there (R79, R87). -/
def kykelServe (eff : Initiator → Nat → Word → State → State) (m : BMsg) (busHeld : Bool) (s : State) : State :=
  if busHeld || s.outOfOrder m then
    let o := s.xpl.kykOrder
    let s := if m.typ = 1 ∨ o.contains (m.init, m.waddr) then s else s.setXpl { s.xpl with kykOrder := o ++ [(m.init, m.waddr)] }
    s.sendMsg .toYatric 6 m.init m.lock m.waddr 0 0
  else if s.xpl.kykHold then s.setXpl { s.xpl with kykWait := s.xpl.kykWait ++ [m] }
  else kykelPage eff m s

/-- The transfer of the Kykel die ended or was answered RETRY: its bus is free, and what waited for it is served (R79, R87). -/
def State.kykBusFree (eff : Initiator → Nat → Word → State → State) (s : State) : State :=
  s.xpl.kykWait.foldl (fun t m => kykelPage eff m t) (s.setXpl { s.xpl with kykHold := false, kykWait := [] })

/-- A Kykel-initiated request meets a collision (R86): a Yatric request is outstanding and the Kykel bus is held. The grant reserved for a
request that was answered RETRY serves it at its second attempt (R87). -/
def State.collides (s : State) (busHeld : Bool) : Bool :=
  busHeld && s.xpl.reqs.any (fun r => r.phase == .sent) && !s.xpl.resv.any (fun e => decide (s.now < e))

/-- The Yatric side wins a collision (R86, R87): RETRY, the Kykel die's lock on the Yatric bus ends, and the next grant is reserved. -/
def State.collide (s : State) (m : BMsg) : State :=
  let s := s.sendMsg .toKykel 6 m.init m.lock m.waddr 0 0
  let s := s.setXpl { s.xpl with yatLock := none, resv := some (s.now + 2000), kykHold := true }
  s.bumpSat Reg.XPL_COLL 1 4

/-- A Kykel-initiated request at the Yatric die: a collision is answered RETRY (R86); otherwise Laurel SRAM is read or written at word
address WADDR. A transfer that waits for an answer holds the Kykel bus until then where it was held. -/
def yatricServe (m : BMsg) (busHeld : Bool) (s : State) : State :=
  if s.collides busHeld then s.collide m
  else
    let s := s.setXpl { s.xpl with resv := none, kykHold := s.xpl.kykHold || (busHeld && m.typ != 2) }
    let s :=
      if m.typ = 1 then
        s.sendMsg .toKykel 4 m.init m.lock m.waddr (BitVec.ofNat 32 (memRd32 s.lsram (4 * m.waddr))) 0
      else
        let s := { s with lsram := memWrN s.lsram (4 * m.waddr) (leBytes 4 m.data.toNat) }
        if m.typ = 3 then s.sendMsg .toKykel 5 m.init m.lock m.waddr 0 0 else s
    s.pump

/-- A request message (read, posted or non-posted write) arrives (R79-R83, R86). -/
def requestMsg (eff : Initiator → Nat → Word → State → State) (d : LinkDir) (m : BMsg) (busHeld : Bool) (s : State) :
    State :=
  if !s.linkUp then s
  else match s.accept d m with
    | none => s.discardMsg d m
    | some t =>
      match d with
      | .toKykel => kykelServe eff m busHeld t.reapPosted
      | .toYatric => yatricServe m busHeld t.reapPosted

/-- Read data arrives at the requesting bridge: the initiator's read completes (R80). -/
def readDataMsg (eff : Initiator → Nat → Word → State → State) (d : LinkDir) (m : BMsg) (s : State) : State :=
  if !s.linkUp then s
  else match s.accept d m with
    | none => s.discardMsg d m
    | some t =>
      match d with
      | .toKykel => (t.kykBusFree eff).reapPosted
      | .toYatric =>
        match takeReq (fun r => outstanding m.init r && !r.write) t.xpl.reqs with
        | none => t.reapPosted.pump
        | some (r, l) => ((t.setXpl { t.xpl with reqs := l }).reqDone r m.data).reapPosted.pump

/-- A write acknowledgement completes the non-posted write (R82). -/
def writeAckMsg (eff : Initiator → Nat → Word → State → State) (d : LinkDir) (m : BMsg) (s : State) : State :=
  if !s.linkUp then s
  else match s.accept d m with
    | none => s.discardMsg d m
    | some t =>
      match d with
      | .toKykel => (t.kykBusFree eff).reapPosted
      | .toYatric =>
        match takeReq (fun r => outstanding m.init r && r.write && r.np) t.xpl.reqs with
        | none => t.reapPosted.pump
        | some (r, l) => ((t.setXpl { t.xpl with reqs := l }).reqDone r 0).reapPosted.pump

/-- Replace the first element that satisfies p. -/
def mapFirst {α : Type} (p : α → Bool) (f : α → α) : List α → List α
  | [] => []
  | x :: r => if p x then f x :: r else x :: mapFirst p f r

/-- A lock request was answered RETRY (R79): it waits RTINT, or after RTMAX repetitions it ends with BRIDGE and waits no more. -/
def State.lockRetry (s : State) (wait : Nat) : State :=
  if s.rf Reg.XPL_BRCTL 15 8 ≤ s.xpl.lockTries then
    let i := s.xpl.lockWait.head?
    let s := s.setXpl { s.xpl with lockWait := s.xpl.lockWait.drop 1, lockAsked := false, lockDue := none, lockTries := 0 }
    match i with
    | some i => s.busError i true 0 Reg.XPL_LOCK cBRIDGE
    | none => s
  else s.setXpl { s.xpl with lockAsked := false, lockDue := some (s.now + wait) }

/-- RETRY arrives (R79): the request waits RTINT, or fails with BRIDGE after RTMAX repetitions; a lock request as well. At the Kykel die
the bus is released before the sequence is repeated (R87). -/
def retryMsg (eff : Initiator → Nat → Word → State → State) (d : LinkDir) (m : BMsg) (s : State) : State :=
  if !s.linkUp then s
  else match s.accept d m with
    | none => s.discardMsg d m
    | some t =>
      match d with
      | .toKykel => (t.kykBusFree eff).reapPosted
      | .toYatric =>
        let t := t.bumpSat Reg.XPL_RETRY 1 4
        let wait := 250 * max 1 (t.rf Reg.XPL_BRCTL 7 0)
        if m.lock && t.xpl.lockAsked && m.waddr == 0 then (t.lockRetry wait).reapPosted.pump
        else match takeReq (refusable m) t.xpl.reqs with
        | none => t.reapPosted.pump
        | some (r, l) =>
          if t.rf Reg.XPL_BRCTL 15 8 ≤ r.tries then ((t.setXpl { t.xpl with reqs := l }).failReq r cBRIDGE).reapPosted.pump
          else (t.setXpl { t.xpl with
            reqs := mapFirst (refusable m) (fun q => { q with phase := .retryWait (t.now + wait) }) t.xpl.reqs }).reapPosted

/-- An error message ends the access: the Kykel refusal's cause, BRIDGE and XPL_PWLOST for a posted write (R79,
R82). -/
def errorMsg (d : LinkDir) (m : BMsg) (s : State) : State :=
  if !s.linkUp then s
  else match s.accept d m with
    | none => s.discardMsg d m
    | some t =>
      match d with
      | .toKykel => t.reapPosted
      | .toYatric =>
        match takeReq (refusable m) t.xpl.reqs with
        | none => t.reapPosted.pump
        | some (r, l) => ((t.setXpl { t.xpl with reqs := l }).failReq r (ecodeCause m.ecode)).reapPosted.pump

/-- A lock request asks for the far register bus (R84): granted, or RETRY while a sequence holds that bus (R79); one of the Kykel die meets
a collision as its other requests do (R86). -/
def lockRequestMsg (d : LinkDir) (m : BMsg) (busHeld : Bool) (s : State) : State :=
  if !s.linkUp then s
  else match s.accept d m with
    | none => s.discardMsg d m
    | some t =>
      match d with
      | .toKykel =>
        if busHeld then t.sendMsg .toYatric 6 m.init true 0 0 0
        else (t.setXpl { t.xpl with kykLock := some t.mono }).sendMsg .toYatric 9 m.init true 0 0 0
      | .toYatric =>
        if t.collides busHeld then t.collide { m with lock := true, waddr := 0 }
        else (t.setXpl { t.xpl with yatLock := some t.now, resv := none }).sendMsg .toKykel 9 m.init true 0 0 0

/-- A lock grant gives the requester the far bus (R84); a grant for a withdrawn request is released at once. -/
def lockGrantMsg (d : LinkDir) (m : BMsg) (s : State) : State :=
  if !s.linkUp then s
  else match s.accept d m with
    | none => s.discardMsg d m
    | some t =>
      match d with
      | .toKykel => t
      | .toYatric =>
        match t.xpl.lockWait with
        | i :: rest =>
          if i.code = m.init then
            (t.wf Reg.XPL_LOCK 3 2 i.code).setXpl
              { (t.wf Reg.XPL_LOCK 3 2 i.code).xpl with
                lockWait := rest, lockAsked := false, lockDue := none, lockTries := 0, lockAt := t.now }
          else ((t.setXpl { t.xpl with lockAsked := false, lockDue := none }).sendMsg .toKykel 0xA m.init true 0 0 0).pump
        | [] => (t.setXpl { t.xpl with lockAsked := false, lockDue := none }).sendMsg .toKykel 0xA m.init true 0 0 0

/-- The wake sequencer writes MODE = RXONLY in transceiver n; while a Yatric lock holds the Kykel bus the write waits (R84, R446,
R447). -/
def State.seqRxonly (s : State) (n : Nat) : State :=
  if s.xpl.kykLock.isSome then
    if s.wkn.rxWait.contains n then s else { s with wkn := { s.wkn with rxWait := s.wkn.rxWait ++ [n] } }
  else s.wf (Reg.TRX_CTL n) 1 0 1

/-- The Yatric lock on the Kykel bus ends, and the writes of the wake sequencer that waited for the bus are made (R84). -/
def State.kykFree (s : State) : State :=
  let t := { (s.setXpl { s.xpl with kykLock := none }) with wkn := { s.wkn with rxWait := [] } }
  s.wkn.rxWait.foldl (fun u n => u.wf (Reg.TRX_CTL n) 1 0 1) t

/-- A lock release frees the far bus (R84). -/
def lockReleaseMsg (d : LinkDir) (m : BMsg) (s : State) : State :=
  if !s.linkUp then s
  else match s.accept d m with
    | none => s.discardMsg d m
    | some t =>
      match d with
      | .toKykel => t.kykFree
      | .toYatric => (t.setXpl { t.xpl with yatLock := none }).pump

/-- A lock break tells a Kykel-side holder that its lock has broken (R85). -/
def lockBreakMsg (d : LinkDir) (m : BMsg) (s : State) : State :=
  if !s.linkUp then s
  else match s.accept d m with
    | none => s.discardMsg d m
    | some t =>
      match d with
      | .toKykel => t.setXpl { t.xpl with yatLock := none }
      | .toYatric => t

/-- Deliver one register-slot message by its TYPE. -/
def deliverMsg (eff : Initiator → Nat → Word → State → State) (d : LinkDir) (m : BMsg) (busHeld : Bool) (s : State) :
    State :=
  match m.typ with
  | 0 => if m.ackv then (s.ackMsgs (oppDir d) m.ackseq).reapPosted.pump else s
  | 1 | 2 | 3 => requestMsg eff d m busHeld s
  | 4 => readDataMsg eff d m s
  | 5 => writeAckMsg eff d m s
  | 6 => retryMsg eff d m s
  | 7 => errorMsg d m s
  | 8 => lockRequestMsg d m busHeld s
  | 9 => lockGrantMsg d m s
  | 10 => lockReleaseMsg d m s
  | 11 => lockBreakMsg d m s
  | _ => s

/-! The commands of the link that need no register effects. -/

/-- A register message not acknowledged within 128 ns is resent with the same SEQ; a fifth unacknowledged send takes the
link to LOST (R78). -/
def execRegisterMessageResend (dir : LinkDir) (s : State) : Host.Outcome State Fault Refusal :=
  .next (match (s.sender dir).unacked with
    | [] => s
    | u :: rest =>
      if !s.linkUp || decide (s.now < u.sentAt + 128) then s
      else if u.resends ≥ 4 then s.linkLost false
      else
        let s := s.setSender dir
          { s.sender dir with unacked := { u with sentAt := s.now, resends := u.resends + 1 } :: rest }
        (s.bumpSat Reg.XPL_RESEND 1 4).emitMsg dir u.msg)

/-- The retry interval of a request has ended: it is repeated, in the issue order of its initiator and under a lock that is held now (R79,
R83, R84). -/
def execRetryIntervalExpiry (s : State) : Host.Outcome State Fault Refusal := .next s.pump

def execLockReq (init : Initiator) (v : Word) (s : State) : Host.Outcome State Fault Refusal :=
  .next (s.cmdWrite init Reg.XPL_LOCK v (lockWrite init v))

def execLockRel (init : Initiator) (v : Word) (s : State) : Host.Outcome State Fault Refusal :=
  .next (s.cmdWrite init Reg.XPL_LOCK v (lockWrite init v))

/-- The Kykel die's own timer of the lock on its bus (R85). -/
def State.kykLockBreak (s : State) : State :=
  match s.xpl.kykLock with
  | none => s
  | some g => if g + 64000 ≤ s.mono then s.kykFree else s

/-- A lock still held 64 us after its grant breaks, in either direction; each die runs its own timer from the grant (R85). -/
def execLockBreak (s : State) : Host.Outcome State Fault Refusal :=
  let s := s.kykLockBreak
  let s1 := if s.lockOwner ≠ 3 ∧ s.xpl.lockAt + 64000 ≤ s.now then
      let i := initOf s.lockOwner
      let t := s.wf Reg.XPL_LOCK 3 2 3
      let t := t.setXpl { t.xpl with broken := t.xpl.broken ++ [i] }
      ((t.bumpSat Reg.XPL_LKBRK 1 4).ist Reg.pgXPL 3).pump
    else s
  .next (match s1.xpl.yatLock with
    | none => s1
    | some g =>
      if g + 64000 ≤ s1.now then
        let t := s1.setXpl { s1.xpl with yatLock := none }
        let t := (t.bumpSat Reg.XPL_LKBRK 1 4).ist Reg.pgXPL 3
        if t.linkUp then t.sendMsg .toKykel 0xB 3 true 0 0 4 else t
      else s1)

/-- The 2 us reservation of the Yatric bus ends (R87). -/
def execRetryReservationExpiry (s : State) : Host.Outcome State Fault Refusal :=
  .next (match s.xpl.resv with
    | none => s
    | some e => if e ≤ s.now then (s.setXpl { s.xpl with resv := none }).pump else s)

/-- A training attempt of 20 us without success is counted; the link retries or goes DOWN (R89). -/
def execTrainingAttemptTimeout (s : State) : Host.Outcome State Fault Refusal :=
  .next (if s.linkState = xTRAIN ∧ s.xpl.attemptAt + 20000 ≤ s.now then
    let n := s.xpl.attempts + 1
    let s := s.setXpl { s.xpl with attempts := n, attemptAt := s.now }
    let s := s.wf Reg.XPL_STAT 7 4 (capAt 15 (s.rf Reg.XPL_STAT 7 4 + 1))
    if n < s.rf Reg.XPL_CTL 11 8 then s else (s.setLink xDOWN).ist Reg.pgXPL 2
  else s)

def execLinkLost (s : State) : Host.Outcome State Fault Refusal := .next (s.linkLost false)

def execXplTrain (init : Initiator) (v : Word) (s : State) : Host.Outcome State Fault Refusal :=
  .next (s.cmdWrite init Reg.XPL_CTL v (xplCtlWrite v))

end Sys2Proof.Machine
end

