-- ==== Sys2Proof/Machine/Reset.lean ====
section
/-! DEFINITION. Resets (17_startup_reset.md R462-R467): what each type initialises and preserves, the release of the Yatric die,
reset requests and the Laurel watchdog. -/
namespace Sys2Proof.Machine

/-- Registers of the Kykel pages that a Yatric reset leaves alone: all but the T1SP pages (R462). -/
def keptReg (a : Nat) : Bool := isKykel a && !(decide (Reg.pgT1SP 0 ≤ a) && decide (a < Reg.pgT1SP 2))

/-- The word at BAR2 address a is the VALID word of its entry (R65, R66). -/
def validWord (a : Nat) : Bool :=
  if a < 0x100000 then a % 16 == 12
  else if a < 0x200000 then a % 32 == 28
  else if a < 0x300000 then a % 64 == 60
  else if a < 0x400000 then a % 16 == 12
  else if a < 0x420000 then a % 32 == 28
  else decide (a < 0x428000) && a % 16 == 12

/-- A word list with VALID cleared in the words that isV names; the other words keep their value (R7). -/
def invalidate (isV : Nat → Bool) (m : List (Nat × Word)) : List (Nat × Word) :=
  m.foldl (fun t p => let w := amGetD 0 m p.1; amSet 0 t p.1 (if isV p.1 then setBit w 31 false else w)) []

/-- K_INT as a Yatric reset leaves it: a Kykel page that the reset does not initialise requests (R88). -/
def State.kIntKept (s : State) : Bool := s.istPages.any (fun b => keptReg b && s.requests b)

/-- The pulse outputs that are high: a reset takes them to their idle level, which is low (R330). -/
def State.toutLevels (s : State) : List Nat :=
  [0, 1, 2, 3].filter (fun n => (match s.tsy.touts[n]? with | some p => p.pulse.isSome | none => false) != s.rb (Reg.TOUT_CTL n) 2)

/-- A reset of the Yatric die is asserted (R462-R464): its pages, buffers, jobs and timers start anew, and every table
entry is invalid, its other words as they are (R7, R311, R463; log entry 41); MRAM, the VBAT
domain, the PWR, WKN and TRX pages and the supply and wake sequencers stay. DRAM keeps its content in a WARM reset alone; a
content that is lost or undefined is not listed any more (log entry 3). ARMED is cleared (R431). Messages the Kykel side has not
yet seen acknowledged stay in its event queue (R77), and a lock on its bus runs on to its break (R85). A key operation is cut off where it
stands (R378, R383). -/
def State.yatricReset (s : State) (keepDram : Bool) : State :=
  let s := s.keyopCut
  let r := State.base
  let w := if s.linkUp then { s.wkn with downAt := s.mono, fsDone := false } else s.wkn
  let k := { s.xpl.evK with lastRx := none }
  let t := { r with
    pending := s.pending
    freeN := s.freeN
    outbox := s.outbox
    regs := s.regs.filter (fun p => keptReg p.1)
    tab := invalidate validWord s.tab
    sw := { r.sw with ovf := invalidate (fun k => k % 4 == 3) s.sw.ovf }
    bus := { r.bus with
      unlocked := s.bus.unlocked.filter (fun u => keptReg (u % 2 ^ 32))
      latch := s.bus.latch.filter (fun p => keptReg (p.1 % 2 ^ 32))
      low := s.bus.low.filter (fun p => keptReg (p.1 % 2 ^ 32)) }
    xpl := { r.xpl with evK := k, kykLock := s.xpl.kykLock, kInt := s.kIntKept }
    dram := if keepDram then s.dram else []
    mram := s.mram
    hmem := s.hmem
    rtc := s.rtc
    rtcAcc := s.rtcAcc
    yew := { r.yew with root := s.yew.root, cause := s.yew.cause, ucnt := s.yew.ucnt }
    mono := s.mono
    pwr := { s.pwr with held := true, req := none }
    wkn := w
    qspi := s.qspi }
  (s.toutLevels).foldl (fun u n => u.emit (.tout n false)) (t.wb Reg.PWR_SAVECTL 8 false)

/-- The Yatric die is released (R421 step 8, R468 step 2): BOOTS counts, the watchdog runs. -/
def State.release (s : State) : State :=
  { s with pwr := { s.pwr with held := false, mode := .active, boots := s.pwr.boots + 1, relAt := s.mono },
           boot := { s.boot with wdAt := s.now } }

/-- TYPE and SRC of the reset are recorded for CHIP_RSTCAUSE (R475). -/
def State.setCause (s : State) (ty src : Nat) : State := { s with pwr := { s.pwr with cause := (ty, src) } }

/-- Types of CHIP_RSTCAUSE. -/
def rSUPPLY : Nat := 0
def rSLEEP : Nat := 1
def rRAIL : Nat := 2
def rCOLD : Nat := 3
def rWARM : Nat := 4

/-- A COLD or WARM reset with its release (R462, R465). -/
def State.coldWarm (s : State) (ty src : Nat) : State := ((s.setCause ty src).yatricReset (ty == rWARM)).release

/-- The host-interface reset (R462): HIF, HQ, DMA and DMACH pages, queues and channels; the frames they hold are given up. The link
itself stays, the function returns to D0 without Bus Master Enable and with every vector masked (log entry 29). The DMA engine's staging
buffers and latches of the tables end (R547), and a level that only these pages raised ends with their requests (R47). -/
def State.hifReset (s : State) : State :=
  let st := (s.rd Reg.HIF_STAT).toNat
  let s := (List.range 128).foldl (fun t q => t.hqAbandon q) s
  let s := ((s.resetPages Reg.pgHIF (Reg.pgHIF + 0x1000)).resetPages Reg.pgHQ (Reg.pgHQ + 0x1000)).resetPages Reg.pgDMA (Reg.pgDMA + 0x1000)
  let s := s.resetPages (Reg.pgDMACH 0) (Reg.pgDMACH 52)
  let s := { s.wr Reg.HIF_STAT (BitVec.ofNat 32 st) with
    bus := { s.bus with
      stage := s.bus.stage.filter (fun p => p.1 / 2 ^ 32 != Initiator.dma.code)
      entry := s.bus.entry.filter (fun p => p.1 / 2 ^ 32 != Initiator.dma.code) }
    hq := [], hqReset := none, chan := [], arb := [], bme := false, d3 := false, vecMask := List.range 128, pba := [] }
  (s.setXpl { s.xpl with reqs := s.xpl.reqs.map (fun r => { r with chan := none }) }).syncLevels

/-- A write of CHIP_RSTCTL that takes effect (R466): GO by host software or Laurel requests the reset of the TYPE written; TYPE was
stored. A request while one of the same or a wider type is under way is ignored; a HIF request takes effect at once. -/
def rstctlWrite (init : Initiator) (v : Word) (s : State) : State :=
  let src := if init = .laurel then 1 else 0
  if !bitOf v 31 || !(init == .host || init == .laurel) then s
  else match fld v 1 0 with
    | 1 => if s.pwr.req.any (fun r => r.1 == rCOLD) then s else { s with pwr := { s.pwr with req := some (rCOLD, src) } }
    | 2 => if s.pwr.req.isSome then s else { s with pwr := { s.pwr with req := some (rWARM, src) } }
    | 3 => if s.pwr.req.isSome then s else s.hifReset
    | _ => s

def execColdResetRequest (init : Initiator) (v : Word) (s : State) : Host.Outcome State Fault Refusal :=
  .next (s.cmdWrite init Reg.CHIP_RSTCTL v (rstctlWrite init v))

def execWarmResetRequest (init : Initiator) (v : Word) (s : State) : Host.Outcome State Fault Refusal :=
  .next (s.cmdWrite init Reg.CHIP_RSTCTL v (rstctlWrite init v))

def execHifResetRequest (init : Initiator) (v : Word) (s : State) : Host.Outcome State Fault Refusal :=
  .next (s.cmdWrite init Reg.CHIP_RSTCTL v (rstctlWrite init v))

/-- The requested reset of type ty takes effect, after a running save (R466). -/
def State.doReset (s : State) (ty : Nat) : State :=
  match s.pwr.req with
  | none => s
  | some (t, src) => if t ≠ ty ∨ s.pwr.held ∨ s.rf Reg.PWR_STAT 1 0 = 1 then s else s.coldWarm ty src

def execColdReset (s : State) : Host.Outcome State Fault Refusal := .next (s.doReset rCOLD)

def execWarmReset (s : State) : Host.Outcome State Fault Refusal := .next (s.doReset rWARM)

def execHifReset (s : State) : Host.Outcome State Fault Refusal := .next s.hifReset

def execFunctionLevelReset (s : State) : Host.Outcome State Fault Refusal := .next (if s.pwr.held then s else s.hifReset)

/-- A write of CHIP_WDKICK: Laurel's kick restarts the watchdog (R467). -/
def wdkickWrite (init : Initiator) (v : Word) (s : State) : State :=
  if init = .laurel ∧ bitOf v 0 then { s with boot := { s.boot with wdAt := s.now } } else s

def execWatchdogKick (init : Initiator) (v : Word) (s : State) : Host.Outcome State Fault Refusal :=
  .next (s.cmdWrite init Reg.CHIP_WDKICK v (wdkickWrite init v))

/-- WATCHDOG_EXPIRY (R467): LIMIT ms since the last restart cause a WARM reset of source watchdog. -/
def execWatchdogExpiry (s : State) : Host.Outcome State Fault Refusal :=
  let l := s.rf Reg.CHIP_WDT 15 0
  .next (if l = 0 ∨ s.pwr.held ∨ s.now < s.boot.wdAt + l * 1000000 ∨ s.rf Reg.PWR_STAT 1 0 = 1 then s else s.coldWarm rWARM 2)

end Sys2Proof.Machine
end

