-- ==== Sys2Proof/Machine/Supply.lean ====
section
/-! DEFINITION. Supply, hold-up and the power sequencer (15_power_holdup.md R419-R439): power-up and power-down, PF_WARN, the save and its
record, ride-through, the charger and the monitors. Times run on State.mono (log entry 22). -/
namespace Sys2Proof.Machine

/-- The supply record. -/
def State.setPwr (s : State) (p : Pwr) : State := { s with pwr := p }

/-- Enter a mode of the sequencer now. -/
def State.setMode (s : State) (m : PwrMode) : State := s.setPwr { s.pwr with mode := m, at_ := s.mono }

/-- t ns have passed since the entry to the mode. -/
def State.modeFor (s : State) (t : Nat) : Bool := decide (s.pwr.at_ + t ≤ s.mono)

/-- The charger starts (R427). -/
def State.chargerStart (s : State) : State := s.setPwr { s.pwr with charging := true, chgAt := s.mono }

/-- Power-up starts (R421 steps 1 and 2): rails, INH, charger. -/
def State.powerUp (s : State) : State :=
  let s := (s.setMode (.up 2)).chargerStart
  s.setPwr { s.pwr with inh := true, failing := false }

def execBuckSoftStartComplete (s : State) : Host.Outcome State Fault Refusal :=
  .next (if s.pwr.mode = .up 2 then s.setMode (.up 3) else s)

/-- CORE_EN_ENABLE after D1 x 100 us (R421 step 4). -/
def execCoreEnableDelay (s : State) : Host.Outcome State Fault Refusal :=
  .next (if s.pwr.mode = .up 3 ∧ s.modeFor (s.rf Reg.PWR_SEQ 3 0 * 100000) then
    let s := s.setMode (.up 4)
    s.setPwr { s.pwr with coreEn := true }
  else s)

def execCorePgRise (s : State) : Host.Outcome State Fault Refusal :=
  .next (if s.pwr.mode = .up 4 then s.setMode (.up 5) else s)

/-- DRAM_EN after D2 x 100 us (R421 step 6). -/
def execDramEnableDelay (s : State) : Host.Outcome State Fault Refusal :=
  .next (if s.pwr.mode = .up 5 ∧ s.modeFor (s.rf Reg.PWR_SEQ 11 8 * 100000) then
    let s := s.setMode (.up 6)
    s.setPwr { s.pwr with dramEn := true }
  else s)

/-- ISOBOOT (R446): every FOLLOW becomes RXONLY. -/
def State.isoBoot (s : State) : State :=
  if s.rb Reg.WKN_CTL 5 then
    (List.range 16).foldl (fun t n => if t.trxMode n = 0 then t.seqRxonly n else t) s
  else s

/-- DRAM_PG_RISE: the Yatric die is released, ISOBOOT is applied and MINAWAKE starts (R421 step 8, R456). A RAIL reset is no
power-up from SLEEP, OFF or a supply start. -/
def execDramPgRise (s : State) : Host.Outcome State Fault Refusal :=
  .next (if s.pwr.mode = .up 6 then
    let s := s.release
    let s := { s with wkn := { s.wkn with downAt := s.mono, fsDone := false } }
    let s := s.setPwr { s.pwr with fails := 0 }
    if s.pwr.cause.1 = rRAIL then s
    else { s.isoBoot with wkn := { s.isoBoot.wkn with wakeAt := s.mono } }
  else s)

/-- The power-down order starts (R422): DRAM_EN low. -/
def State.powerDown (s : State) : State :=
  let s := s.setMode (.down 1)
  s.setPwr { s.pwr with dramEn := false }

/-- POWER_GOOD_TIMEOUT (R421): a power-good that has not risen 5 ms after its enable. -/
def execPowerGoodTimeout (s : State) : Host.Outcome State Fault Refusal :=
  .next (if (s.pwr.mode = .up 4 ∨ s.pwr.mode = .up 6) ∧ s.modeFor 5000000 then
    let s := s.powerDown
    (s.setPwr { s.pwr with failing := true, fails := s.pwr.fails + 1 }).wb Reg.PWR_STAT 26 true
  else s)

/-- POWER_DOWN_CORE_DISABLE: 100 us after DRAM_EN (R422). -/
def execPowerDownCoreDisable (s : State) : Host.Outcome State Fault Refusal :=
  .next (if s.pwr.mode = .down 1 ∧ s.modeFor 100000 then
    let s := s.setMode (.down 2)
    s.setPwr { s.pwr with coreEn := false }
  else s)

/-- Where a power-down ends: the retry wait or OFF after a failed sequence, else OFF or SLEEP under R455. -/
def State.downEnd (s : State) : PwrMode :=
  if s.pwr.failing then (if s.pwr.fails < 3 then .retry else .off)
  else if (List.range 16).all (fun n => s.trxState n != 1) && !s.rb Reg.WKN_CTL 3 && !s.rb Reg.PWR_INH 0 then .off
  else .sleep

/-- POWER_DOWN_BUCK_STOP: 100 us later the buck stops and INH follows R423; the entry ends, unless a wake was latched. -/
def execPowerDownBuckStop (s : State) : Host.Outcome State Fault Refusal :=
  .next (if s.pwr.mode = .down 2 ∧ s.modeFor 100000 then
    let m := s.downEnd
    let s := s.setMode m
    let s := s.setPwr { s.pwr with inh := m == .sleep && s.rb Reg.PWR_INH 0, charging := false }
    if s.wkn.late.isEmpty then { s with wkn := { s.wkn with commit := false } } else s
  else s)

/-- SEQUENCE_RETRY: 100 ms after a sequence failure (R421). -/
def execSequenceRetry (s : State) : Host.Outcome State Fault Refusal :=
  .next (if s.pwr.mode = .retry ∧ s.modeFor 100000000 then s.powerUp else s)

/-- RAIL_FAILURE (R422, R462): src 0 CORE_PG, 1 DRAM_PG. The rails come up again from step 4 of R421 (log entry 30); a running save
writes the reset-cause record alone, since the counters it would save are gone. -/
def execRailFailure (src : Fin 2) (s : State) : Host.Outcome State Fault Refusal :=
  .next (if s.pwr.mode = .active ∧ !s.wkn.commit then
    let s := (s.setCause rRAIL src).yatricReset false
    let s := s.setMode (.up 3)
    s.setPwr { s.pwr with coreEn := false, dramEn := false, pfSet := if s.rf Reg.PWR_STAT 1 0 = 1 then 2 else s.pwr.pfSet }
  else s)

/-! The save record (R431, R432, R474). -/

/-- Address of save slot i. -/
def saveSlot (i : Nat) : Nat := saveBase + i * 0x1A000

/-- SEQ and STATE of a save slot. -/
def State.saveSeq (s : State) (i : Nat) : Nat := beNat (memRdN s.mram (saveSlot i) 4)
def State.saveState (s : State) (i : Nat) : Nat := beNat (memRdN s.mram (saveSlot i + 4) 4)

/-- The slot that holds the record with the higher SEQ, by modulo 2^32 comparison. -/
def State.saveTop (s : State) : Nat := if seqGe (s.saveSeq 0) (s.saveSeq 1) then 0 else 1

/-- Seconds, nanoseconds of a full time, big-endian, 6 and 4 bytes. -/
def timeBytes (n : Nat) : List Byte := beBytes 6 (n / 1000000000) ++ beBytes 4 (n % 1000000000)

/-- The header of a record (R432) with its STATE. -/
def saveHeader (sq st set full len crc : Nat) : List Byte :=
  let tail := [BitVec.ofNat 8 set, 0, 0, 0] ++ timeBytes full ++ [0, 0] ++ beBytes 4 len ++ beBytes 4 crc ++ List.replicate 28 0
  beBytes 4 sq ++ beBytes 4 st ++ tail ++ beBytes 4 (crc32 (beBytes 4 sq ++ tail))

/-- The reset-cause record (R474) of an event at a full time and real-time counter value. -/
def State.causeRecord (s : State) (cause set detail full rtc : Nat) : List Byte :=
  let b := [BitVec.ofNat 8 cause, BitVec.ofNat 8 set] ++ beBytes 2 detail ++ timeBytes full ++ beBytes 6 rtc
    ++ beBytes 4 (s.rd Reg.CMT_SEQ).toNat ++ beBytes 2 (s.pwr.boots % 65536) ++ [0, 0] ++ beBytes 4 (s.rd Reg.WKN_WCAUSE).toNat
    ++ beBytes 4 (s.rd Reg.PWR_STAT).toNat ++ List.replicate 24 0
  b ++ beBytes 4 (crc32 b)

/-- The time item (R431): full time, local count, TSY_RATE, TSY_STAT, correlation pair and zeros (log entry 31). -/
def State.timeItem (s : State) : List Byte :=
  let kc := (s.rd Reg.TSY_KC_NS).toNat + ((s.rd Reg.TSY_KC_SL).toNat + (s.rd Reg.TSY_KC_SH).toNat * 2 ^ 32) * 1000000000
  timeBytes s.tsy.full ++ beBytes 8 s.tsy.loc ++ beBytes 4 (s.rd Reg.TSY_RATE).toNat ++ beBytes 4 (s.rd Reg.TSY_STAT).toNat
    ++ timeBytes kc ++ beBytes 6 ((s.rd Reg.TSY_KRTC_LO).toNat + (s.rd Reg.TSY_KRTC_HI).toNat * 2 ^ 32) ++ List.replicate 22 0

/-- An item with its header; types number the rows of the save-set table from 1 (log entry 31). -/
def saveItem (ty : Nat) (b : List Byte) : List Byte := beBytes 2 ty ++ beBytes 4 b.length ++ [0, 0] ++ b

/-- The body of a record for a set: 0 minimum, 1 full, 2 reset cause only. -/
def State.saveBody (s : State) (cause : List Byte) (set : Nat) : List Byte :=
  let c := saveItem 1 cause
  if set = 2 then c
  else
    let fr := ((List.range 4096).map (fun i => beBytes 8 (amGetD 0 s.fresh i))).flatten
    let pn := ((List.range 256).map (fun i => beBytes 8 (s.saOf i).pn)).flatten
    let m := c ++ saveItem 2 s.timeItem ++ saveItem 3 fr ++ saveItem 4 pn
    if set = 0 then m
    else
      let lg := ((List.range 8192).map (fun k => beBytes 4 (s.tw (0x420000 + 4 * k)).toNat)).flatten
      m ++ saveItem 5 lg ++ saveItem 6 s.lrl.tail.flatten

/-- A save starts: the header of the other slot with STATE = WRITING (R432). -/
def State.saveStart (s : State) : State :=
  let i := 1 - s.saveTop
  s.mramWrite (saveSlot i) (beBytes 4 ((s.saveSeq s.saveTop + 1) % 2 ^ 32) ++ beBytes 4 1 ++ List.replicate 56 0)

/-- The slot that is being written, and its SEQ. -/
def State.saveCur (s : State) : Nat := s.saveTop

/-- Body, CRCs and STATE = COMPLETE (R432). -/
def State.saveFinish (s : State) : State :=
  let i := s.saveCur
  let set := s.pwr.pfSet
  let body := s.saveBody (s.causeRecord 1 set s.pwr.pfFast.toNat s.pwr.pfFull s.pwr.pfRtc) set
  let s := s.mramWrite (saveSlot i + 64) body
  s.mramWrite (saveSlot i) (saveHeader (s.saveSeq i) 3 set s.pwr.pfFull body.length (crc32 body))

/-! PF_WARN, save and ride-through (R424, R429-R436). -/

/-- PF_WARN asserts: counted, and the charger stops (R427); in ACTIVE before a sleep commit the device enters SAVE, sheds E0-E11 and starts the save of the set in
force (R38); otherwise nothing is saved (R436, R455). -/
def State.pfWarn (s : State) (fast : Bool) : State :=
  if s.rb Reg.PWR_STAT 31 ∨ s.pwr.mode = .unpowered then s
  else
    let s := ((s.wb Reg.PWR_STAT 31 true).bumpSat Reg.PWR_PFCNT 1 7).ist Reg.pgPWR 0
    let s := s.setPwr { s.pwr with charging := false }
    if s.pwr.mode = .active ∧ !s.wkn.commit then
      let set := if s.rb Reg.PWR_SAVECTL 8 then s.rf Reg.PWR_SAVECTL 0 0 else 2
      let s := s.setPwr { s.pwr with
        pfAt := s.mono, pfFast := fast, pfSet := set, pfFull := s.tsy.full, pfRtc := s.rtc }
      let s := (List.range 12).foldl (fun t p => t.linkLoss p) s
      ((s.wf Reg.PWR_STAT 1 0 1).wb Reg.TKT_SRCTL 31 true).saveStart.agreeSync
    else s.agreeSync

def execFastUndervoltage (s : State) : Host.Outcome State Fault Refusal := .next (s.pfWarn true)

def execPowerFailWarning (s : State) : Host.Outcome State Fault Refusal := .next (s.pfWarn false)

/-- SAVE_COMPLETE (R434). -/
def execSaveComplete (s : State) : Host.Outcome State Fault Refusal :=
  .next (if s.rf Reg.PWR_STAT 1 0 = 1 then
    let s := (s.saveFinish).wf Reg.PWR_STAT 1 0 2
    let dur := capAt 0xFFFF ((s.mono - s.pwr.pfAt) / 10000)
    ((s.wr Reg.PWR_LASTSAVE (BitVec.ofNat 32 (2 ^ 31 + s.pwr.pfSet * 2 ^ 29 + s.pwr.pfFast.toNat * 2 ^ 27 + dur))).ist Reg.pgPWR 2).logPower
  else s)

/-- RIDE_THROUGH (R435): VSUP stood above the resume level for 2 ms; a running save completes first. Outside SAVE PF_WARN is released
and the charger of a device that is powered or powering up or down restarts (R427). vhmin: the lowest VHOLD of this
SAVE (R428). -/
def execRideThrough (vhmin : Fin 65536) (s : State) : Host.Outcome State Fault Refusal :=
  .next (
    if !s.rb Reg.PWR_STAT 31 || s.rf Reg.PWR_STAT 1 0 == 1 then s
    else if s.rf Reg.PWR_STAT 1 0 = 0 then
      let s := s.wb Reg.PWR_STAT 31 false
      (if s.pwr.inh ∧ s.pwr.mode ≠ .sleep then s.chargerStart else s).agreeSync
    else
      let s := s.mramWrite (saveSlot s.saveCur + 4) (beBytes 4 7)
      let s := (s.bumpSat Reg.PWR_RIDECNT 1 7).ist Reg.pgPWR 1
      let s := (s.wb Reg.PWR_STAT 31 false).wf Reg.PWR_STAT 1 0 0
      let s := ((s.wb Reg.PWR_LASTSAVE 28 true).wr Reg.PWR_VHMIN (BitVec.ofNat 32 vhmin)).wb Reg.TKT_SRCTL 31 false
      s.chargerStart.logPower.agreeSync)

/-- SUPPLY_RESET (R424, R425, R462): every page but TMP; the device is unpowered. -/
def execSupplyReset (s : State) : Host.Outcome State Fault Refusal :=
  let t := s.yatricReset false
  .next { t with
    regs := t.regs.filter (fun p => pageBase p.1 == Reg.pgTMP)
    bus := { t.bus with
      unlocked := t.bus.unlocked.filter (fun u => pageBase (u % 2 ^ 32) == Reg.pgTMP)
      latch := t.bus.latch.filter (fun p => pageBase (p.1 % 2 ^ 32) == Reg.pgTMP)
      low := t.bus.low.filter (fun p => pageBase (p.1 % 2 ^ 32) == Reg.pgTMP) }
    xpl := { State.base.xpl with kInt := s.requests Reg.pgTMP }
    wkn := State.base.wkn
    pwr := { mode := .unpowered, held := true, boots := 0, charging := false, coreEn := false, dramEn := false, inh := false } }

/-! Monitors and charger (R424, R427, R428). -/

def execOvervoltage (s : State) : Host.Outcome State Fault Refusal :=
  .next (if s.pwr.mode = .unpowered then s else (s.wb Reg.PWR_STAT 29 true).ist Reg.pgPWR 4)

def execOvervoltageClear (s : State) : Host.Outcome State Fault Refusal := .next (s.wb Reg.PWR_STAT 29 false)

/-- HOLD_UP_OK: VHOLD reaches 43 V, or falls below 42 V outside SAVE. -/
def execHoldUpOk (up : Bool) (s : State) : Host.Outcome State Fault Refusal :=
  .next (if s.pwr.mode = .unpowered then s
    else if up then (s.wb Reg.PWR_STAT 30 true).ist Reg.pgPWR 3
    else if s.inSave then s
    else s.wb Reg.PWR_STAT 30 false)

/-- CHARGER_TIMEOUT: HOLDOK not reached within 600 ms of a charger start. -/
def execChargerTimeout (s : State) : Host.Outcome State Fault Refusal :=
  .next (if s.pwr.charging ∧ !s.rb Reg.PWR_STAT 30 ∧ s.pwr.chgAt + 600000000 ≤ s.mono then
    ((s.wb Reg.PWR_STAT 27 true).ist Reg.pgPWR 5).logPower
  else s)

/-- CAPACITANCE_MEASUREMENT: t is the rise time from 20 V to 40 V in us; 50 mA x t / 20 V is t / 400 uF. -/
def execCapacitanceMeasurement (t : Nat) (s : State) : Host.Outcome State Fault Refusal :=
  let c := capAt 0xFFFF (t / 400)
  .next (if s.pwr.charging then
    let s := s.wr Reg.PWR_CAPEST (BitVec.ofNat 32 (2 ^ 31 + c))
    if c < 176 then ((s.wb Reg.PWR_STAT 28 true).ist Reg.pgPWR 6).logPower else s
  else s)

/-- A write of PWR_CNTCLR. -/
def pwrCclrWrite (v : Word) (s : State) : State := if bitOf v 0 then s.clear [Reg.PWR_RIDECNT, Reg.PWR_PFCNT] else s

end Sys2Proof.Machine
end

