-- ==== Sys2Proof/Machine/Wake.lean ====
section
/-! DEFINITION. Network sleep and wake (16_sleep_wake.md R440-R461): domains, transceivers, wake sources, the sleep agreement, sleep entry
and the event slot. Times run on State.mono (log entry 22). -/
namespace Sys2Proof.Machine

/-- WAKE_LN follows the domains: a release starts the WLREL wait (R450). -/
def State.wlSync (s : State) : State :=
  let d := s.wlDrives
  if d = s.wkn.lnDrv then s
  else
    let s := s.setWkn { s.wkn with lnDrv := d, lnRel := if d then none else some s.mono }
    if d then s.wb Reg.WKN_STAT 30 false else s

/-- Everything that follows a change of the sequencer's inputs. -/
def State.wknSync (s : State) : State := s.wlSync.agreeSync

/-! Domains (R441). -/

/-- Members of domain k that an integrated transceiver serves. -/
def State.domTrx (s : State) (k : Nat) : List Nat := (List.range 16).filter (fun n => s.domainOf n == some k)

/-- The bus of transceiver n is biased to 2.5 V again (R445). -/
def State.biasBack (s : State) (n : Nat) : State := s.wb (Reg.TRX_STAT n) 29 false

/-- A transceiver that enters NORMAL sends a wake-up pattern first: 5 us each dominant, recessive, dominant (R452). -/
def State.wupSend (s : State) (n : Nat) : State :=
  if s.trxState n = 3 then { s.setWkn { s.wkn with wup := amPut s.wkn.wup n (s.mono + 15000) } with outbox := s.outbox ++ [.wakePattern n] }
  else s

/-- Domain k wakes; prop: through another domain's PROP. With WUPTX = 1 its transceivers send a wake-up pattern. -/
def State.domUp (s : State) (k : Nat) (prop : Bool) : State :=
  let was := s.domAwake k
  if (s.domOf k).awake then s
  else
    let s := s.setDom k { s.domOf k with
      awake := true, quietAt := s.mono, wokeAt := s.mono, asked := prop, reported := false }
    if was || s.domMem k == 0 then s
    else
      let s := (s.domTrx k).foldl (fun t n => t.biasBack n) s
      let s := if s.rb (Reg.WKN_DOM_CFG k) 30 && s.awakeDev then (s.domTrx k).foldl (fun t n => t.wupSend n) s else s
      (s.ist Reg.pgWKN 5).evToYatric 3 (256 + k)

/-- The named domains wake, each with the domains of its PROP (R441); propagation goes one step. -/
def State.wakeDoms (s : State) (doms : Nat) : State :=
  let up := (setBits doms 8).filter (fun k => !(s.domOf k).awake && s.domMem k != 0)
  let s := (setBits doms 8).foldl (fun t k => t.domUp k false) s
  up.foldl (fun t k => (setBits (t.rf (Reg.WKN_DOM_CFG k) 7 0) 8).foldl (fun u j => u.domUp j true) t) s

/-- Domain k goes ASLEEP. -/
def State.domDown (s : State) (k : Nat) : State :=
  let s := s.setDom k { s.domOf k with awake := false }
  (s.domTrx k).foldl (fun t n => t.biasBack n) s

/-- A route demand or request restarts the DSLEEP time of domain k, and until it wakes again it is not kept awake by keep-alive frames
alone (R441, R458, log entry 66). -/
def State.domTouch (s : State) (k : Nat) : State := s.setDom k { s.domOf k with quietAt := s.mono, asked := true }

/-- KATIME of transceiver n in ns. -/
def State.kaTime (s : State) (n : Nat) : Nat := s.rf (Reg.TRX_CFG n) 23 16 * 10000000

/-- Segment n is quiet (R443). -/
def State.segQuiet (s : State) (n : Nat) : Bool :=
  !s.rb Reg.WKN_HOLD n && (decide (16 ≤ n) || s.kaTime n == 0 || (match amGet s.wkn.ka n with
    | some t => decide (t + s.kaTime n ≤ s.mono)
    | none => true))

/-- The instant since which a segment that is quiet has been quiet (R443): its hold bit cleared, its keep-alive time passed. -/
def State.quietFrom (s : State) (n : Nat) : Nat :=
  max (amGetD 0 s.wkn.holdEnd n) (match amGet s.wkn.ka n with
    | some t => if n < 16 ∧ s.kaTime n ≠ 0 then t + s.kaTime n else 0
    | none => 0)

/-- Segments of domain k. -/
def State.domSegs (s : State) (k : Nat) : List Nat := (List.range 24).filter (fun n => s.domainOf n == some k)

/-- DOMAIN_SLEEP (R441). -/
def execDomainSleep (k : Fin 8) (s : State) : Host.Outcome State Fault Refusal :=
  let since := (s.domSegs k).foldl (fun m n => max m (s.quietFrom n)) (s.domOf k).quietAt
  .next (if s.awakeDev && s.domAwake k && (s.domSegs k).all s.segQuiet
      && decide (since + s.rf (Reg.WKN_DOM_CFG k) 25 16 * 10000000 ≤ s.mono) then
    (((s.domDown k).ist Reg.pgWKN 4).evToYatric 3 k).wknSync
  else s)

/-- DOMAIN_WAKE (R441): a wake source names the domains while the device is ACTIVE. -/
def execDomainWake (doms : Fin 256) (s : State) : Host.Outcome State Fault Refusal :=
  .next (if s.awakeDev then (s.wakeDoms doms).wknSync else s)

/-! Wakes of the device (R449, R455, R456). -/

/-- The mask of the domain of segment n. -/
def State.segDom (s : State) (n : Nat) : Nat := match s.domainOf n with | some k => 2 ^ k | none => 0

/-- Domains that source src with an index names (R449). -/
def State.srcDoms (s : State) (src ix : Nat) : Nat :=
  match src with
  | 1 => s.rf (Reg.WKN_LWCFG ix) 7 0
  | 2 => s.rf Reg.WKN_WLCFG 7 0
  | 3 | 4 | 5 | 6 => s.segDom ix
  | 7 => 2 ^ (ix % 8)
  | 8 => s.rf Reg.WKN_RTCALM_HI 23 16
  | 10 => 255
  | _ => 0

/-- The device wakes by a source: WKN_WCAUSE, WKN_WRTC, WAKECNT, a WAKE event, the domains named are AWAKE, power-up starts with all its
retries before it (R421, R449, R456). -/
def State.wakeDevice (s : State) (src ix doms : Nat) (late : Bool) : State :=
  let s := s.setWkn { s.wkn with commit := false, late := [], agree := false }
  let s := s.wakeDoms doms
  let aw := ((List.range 8).map (fun k => if (s.domOf k).awake && (s.domMem k != 0 || src == 10) then 2 ^ k else 0)).sum
  let s := s.wr Reg.WKN_WCAUSE (BitVec.ofNat 32 (2 ^ 31 + late.toNat * 2 ^ 30 + src * 2 ^ 22 + ix * 2 ^ 16 + aw))
  let s := (s.wr Reg.WKN_WRTC_LO (BitVec.ofNat 32 s.rtc)).wr Reg.WKN_WRTC_HI (BitVec.ofNat 32 (s.rtc / 2 ^ 32))
  let s := ((s.bumpSat Reg.WKN_WAKECNT 1 8).ist Reg.pgWKN 2).evToYatric 2 (src * 32 + ix)
  let s := if late then (s.bumpSat Reg.WKN_LATECNT 1 8).ist Reg.pgWKN 3 else s
  let s := s.setPwr { s.pwr with fails := 0 }
  s.powerUp.wlSync

/-- Source src wakes the device from the mode m (R449). -/
def wakesFrom (m : PwrMode) (src : Nat) : Bool :=
  match m with
  | .sleep => src == 1 || src == 2 || src == 3 || src == 4 || src == 5 || src == 8 || src == 9
  | .off => src == 1 || src == 8 || src == 9
  | _ => false

/-- A wake event: domains wake in ACTIVE and while powering up; after SLEEP_COMMIT it is latched; in SLEEP or OFF it wakes the
device. -/
def State.wakeEvent (s : State) (src ix doms : Nat) : State :=
  if s.wkn.commit then s.setWkn { s.wkn with late := s.wkn.late ++ [(src, ix, doms)] }
  else match s.pwr.mode with
    | .active | .up _ | .retry => (s.wakeDoms doms).wknSync
    | m => if wakesFrom m src then s.wakeDevice src ix doms false else s

/-- START_CONDITION (R424, R449 source 0xA): VSUP above 35 V for 1 ms, unpowered or in OFF after three failed sequences. -/
def execStartCondition (s : State) : Host.Outcome State Fault Refusal :=
  .next (if s.pwr.mode = .unpowered ∨ (s.pwr.mode = .off ∧ 3 ≤ s.pwr.fails) then
    let s := s.setPwr { s.pwr with fails := 0 }
    s.wakeDevice 10 0 255 false
  else s)

/-- LATE_WAKE (R455): a wake of any source after SLEEP_COMMIT. -/
def execLateWake (src : Fin 16) (index : Fin 32) (s : State) : Host.Outcome State Fault Refusal :=
  .next (if s.wkn.commit && decide (1 ≤ src.val) && decide (src.val ≤ 9) then s.wakeEvent src index (s.srcDoms src index) else s)

/-- WAKE_DWELL_END (R455): 2 ms unpowered after a latched wake; every latched wake names its domains, the first is recorded. -/
def execWakeDwellEnd (s : State) : Host.Outcome State Fault Refusal :=
  .next (match s.wkn.late with
    | [] => s
    | (src, ix, _) :: _ =>
      if (s.pwr.mode = .sleep ∨ s.pwr.mode = .off) ∧ s.modeFor 2000000 then
        let req := s.wkn.late.foldl (fun m l => if l.1 = 6 ∨ l.1 = 7 then m ||| l.2.2 else m) 0
        (setBits req 8).foldl (fun t k => t.domTouch k) (s.wakeDevice src ix (s.wkn.late.foldl (fun m l => m ||| l.2.2) 0) true)
      else s)

/-- MINIMUM_AWAKE_EXPIRY (R453). -/
def execMinimumAwakeExpiry (s : State) : Host.Outcome State Fault Refusal := .next s.wknSync

/-! Sources (R444, R449-R452). -/

/-- The oldest message of the Yatric event queue, a ROUTE_DEMAND, reaches the sequencer (R444). -/
def State.takeDemand (s : State) : State :=
  match s.xpl.evY.q with
  | [] => s
  | (sq, ty, n) :: _ =>
    if !s.linkUp || ty != 9 || s.xpl.evK.lastRx == some sq then s
    else
      let s := s.setXpl { s.xpl with evK := { s.xpl.evK with lastRx := some sq } }
      if s.wkn.commit then s.wakeEvent 6 n (s.segDom n)
      else match s.domainOf n with
        | none => s
        | some k =>
          if s.domAwake k then (s.domTouch k).wknSync
          else if s.rb (Reg.WKN_DOM_CFG k) 31 then (s.wakeEvent 6 n (2 ^ k)).domTouch k else s

/-- The acknowledgement eseq arrives in direction dir (R459): the oldest message of that side leaves its queue once the other side
has it. -/
def State.takeAck (s : State) (dir : LinkDir) (eseq : Nat) : State :=
  if !s.linkUp then s
  else match dir with
    | .toYatric =>
      match s.xpl.evY.q with
      | (sq, _, _) :: r =>
        if sq = eseq ∧ s.xpl.evK.lastRx = some sq then
          (s.setXpl { s.xpl with evY := { s.xpl.evY with q := r } }).wknSync
        else s
      | [] => s
    | .toKykel =>
      match s.xpl.evK.q with
      | (sq, _, _) :: r =>
        if sq = eseq ∧ s.xpl.evY.lastRx = some sq then
          (s.setXpl { s.xpl with evK := { s.xpl.evK with q := r } }).wknSync
        else s
      | [] => s

def execRouteDemand (s : State) : Host.Outcome State Fault Refusal := .next s.takeDemand

def execEventAck (dir : LinkDir) (eseq : Fin 8) (s : State) : Host.Outcome State Fault Refusal := .next (s.takeAck dir eseq)

/-- A write of WKN_WREQ (R441): named domains that are AWAKE restart their time, the others wake. -/
def wreqWrite (v : Word) (s : State) : State :=
  let d := fld v 7 0
  match setBits d 8 with
  | [] => s
  | k :: _ =>
    if s.wkn.commit then s.wakeEvent 7 k d
    else
      let s := ((setBits d 8).filter s.domAwake).foldl (fun t j => t.domTouch j) s
      let s := s.wakeDoms d
      ((setBits d 8).foldl (fun t j => t.domTouch j) s).wknSync

def execWakeRequest (init : Initiator) (v : Word) (s : State) : Host.Outcome State Fault Refusal :=
  .next (s.cmdWrite init Reg.WKN_WREQ v (wreqWrite v))

/-- A write of WKN_HOLD: a segment whose bit it clears may be quiet from here (R443). -/
def holdWrite (s : State) : State :=
  let w := s.rf Reg.WKN_HOLD 23 0
  let ended := (setBits s.wkn.held 24).filter (fun n => !nbit w n)
  (s.setWkn { s.wkn with held := w, holdEnd := ended.foldl (fun m n => amPut m n s.mono) s.wkn.holdEnd }).wknSync

/-- LWAKE_EVENT (R450): LWAKEi reaches a level after its filter. LWACT reads 1 at the level that the mode selects, for both edges at
high. -/
def execLwakeEvent (i : Fin 6) (level : Bool) (s : State) : Host.Outcome State Fault Refusal :=
  let m := s.lwMode i
  let act := if m = 2 ∨ m = 5 then !level else level
  .next (if m = 0 then s
  else
    let s := s.wb Reg.WKN_STAT (8 + i) act
    if m = 3 ∨ act then (s.wakeEvent 1 i (s.srcDoms 1 i)).wknSync else s.wknSync)

/-- LWAKE_LEVEL_END (R450): the active level of a level mode ends. -/
def execLwakeLevelEnd (i : Fin 6) (s : State) : Host.Outcome State Fault Refusal :=
  .next (s.wb Reg.WKN_STAT (8 + i) false).wknSync

/-- WAKE_LN is seen active by the sequencer. -/
def State.lnSeen (s : State) : State :=
  let s := s.wb Reg.WKN_STAT 30 true
  if s.rb Reg.WKN_CTL 3 then (s.wakeEvent 2 0 (s.srcDoms 2 0)).wknSync else s.wknSync

/-- WAKE_LN_ASSERT (R450): another unit holds the line active for the filter time; it is not seen while the H8840 drives the line or
waits WLREL. -/
def execWakeLnAssert (s : State) : Host.Outcome State Fault Refusal :=
  .next (if s.wlDrives || s.wkn.lnRel.isSome || s.pwr.mode == .unpowered || s.pwr.mode == .off then s else s.lnSeen)

/-- WAKE_LN_RELEASE_WAIT_END (R450): WLREL ms after the release the line is judged; held: another unit holds it. -/
def execWakeLnReleaseWaitEnd (held : Bool) (s : State) : Host.Outcome State Fault Refusal :=
  .next (match s.wkn.lnRel with
    | none => s
    | some t =>
      if s.mono < t + s.rf Reg.WKN_WLCFG 23 16 * 1000000 then s
      else
        let s := s.setWkn { s.wkn with lnRel := none }
        if held then s.lnSeen else (s.wb Reg.WKN_STAT 30 false).wknSync)

/-- WAKE_LN_RELEASE_SEEN (R453): the other unit releases the line. -/
def execWakeLnReleaseSeen (s : State) : Host.Outcome State Fault Refusal :=
  .next (s.wb Reg.WKN_STAT 30 false).wknSync

/-- WAKE_UP_PATTERN (R452): a pattern on segment n in LOWPWR. -/
def execWakeUpPattern (n : Fin 16) (s : State) : Host.Outcome State Fault Refusal :=
  .next (if s.trxState n ≠ 1 then s
  else
    let s := s.biasBack n
    if s.trxWake n = 1 then (s.ist (Reg.pgTRX n) 0).wakeEvent 3 n (s.segDom n) else s)

/-- Frame f matches the wake-up frame of transceiver n (R451). -/
def State.wufMatch (s : State) (n : Nat) (f : CanFrame) : Bool :=
  let id := s.rd (Reg.TRX_SWID n)
  let m := s.rf (Reg.TRX_SWIDM n) 28 0
  let dl := s.rd (Reg.TRX_SWDLC n)
  let m0 := (s.rd (Reg.TRX_SWDM0 n)).toNat
  let m1 := (s.rd (Reg.TRX_SWDM1 n)).toNat
  let mask := fun (j : Nat) => if j < 4 then nfld m0 (8 * j + 7) (8 * j) else nfld m1 (8 * (j - 4) + 7) (8 * (j - 4))
  !f.rtr && f.ide == bitOf id 29 && (f.ident &&& m) == (fld id 28 0 &&& m) && (!bitOf dl 4 || f.dlc == fld dl 3 0)
    && ((m0 == 0 && m1 == 0) || (List.range (min f.dlc 8)).any (fun j => (mask j &&& byteAt f.data j) != 0))

/-- The decoder of transceiver n counts an error; more than 31 wake with SRC 0x5 (R451). -/
def State.decError (s : State) (n : Nat) : State :=
  let c := s.rf (Reg.TRX_STAT n) 12 8
  if c < 31 then s.wf (Reg.TRX_STAT n) 12 8 (c + 1)
  else
    let s := ((s.wf (Reg.TRX_STAT n) 12 8 0).bump (Reg.TRX_FEOVF n) 1 5).ist (Reg.pgTRX n) 2
    s.wakeEvent 5 n (s.segDom n)

/-- DECODER_FRAME (R451): a frame on segment n while its transceiver is in LOWPWR: err: it has a stuff, form or CRC error at RATE.
FECNT and the match run while wake-up frame detection is armed. -/
def execDecoderFrame (n : Fin 16) (err : Bool) (f : CanFrame) (s : State) : Host.Outcome State Fault Refusal :=
  .next (if s.trxState n ≠ 1 then s
  else
    let s := s.biasBack n
    if s.trxWake n ≠ 2 then s
    else if f.fmt != .cc && s.rb (Reg.TRX_CFG n) 28 then s
    else if err || f.fmt != .cc then s.decError n
    else
      let c := s.rf (Reg.TRX_STAT n) 12 8
      let s := s.wf (Reg.TRX_STAT n) 12 8 (c - 1)
      if s.wufMatch n f then
        ((s.bump (Reg.TRX_WUFCNT n) 1 5).ist (Reg.pgTRX n) 1).wakeEvent 4 n (s.segDom n)
      else s)

/-- KEEP_ALIVE_FRAME (R442, R443): a Classical data frame of another node, decoded without error on segment n. -/
def execKeepAliveFrame (n : Fin 16) (f : CanFrame) (s : State) : Host.Outcome State Fault Refusal :=
  let m := s.rf (Reg.TRX_KAMASK n) 28 0
  let id := s.rd (Reg.TRX_KAID n)
  .next (if s.trxState n == 0 || f.rtr || f.fmt != .cc
      || !(s.rb (Reg.TRX_CFG n) 24 || (f.ide == bitOf id 29 && (f.ident &&& m) == (fld id 28 0 &&& m))) then s
  else
    let s := s.bump (Reg.TRX_KACNT n) 1 5
    let s := s.wr (Reg.TRX_KALAST n) (BitVec.ofNat 32 (2 ^ 31 + f.ide.toNat * 2 ^ 29 + f.ident))
    let s := s.setWkn { s.wkn with ka := amPut s.wkn.ka n s.mono }
    match s.domainOf n with
    | some k =>
      if s.kaTime n = 0 then s else s.setDom k { s.domOf k with lastKa := (n.val, f.ident + f.ide.toNat * 2 ^ 29) }
    | none => s)

/-- RTC_ALARM: the real-time counter stands at WKN_RTCALM. -/
def execRtcAlarm (s : State) : Host.Outcome State Fault Refusal :=
  let alm := (s.rd Reg.WKN_RTCALM_LO).toNat + s.rf Reg.WKN_RTCALM_HI 15 0 * 2 ^ 32
  .next (if s.rb Reg.WKN_RTCALM_HI 31 && s.rtc == alm then (s.wakeEvent 8 0 (s.srcDoms 8 0)).wknSync else s)

/-! Transceiver faults (R445, R447). -/

/-- A transmitter fault: MODE = RXONLY (under a Yatric lock when the lock ends, R84), its bit and interrupt, a TRXFAULT event. -/
def State.trxFault (s : State) (n : Nat) (tsd : Bool) : State :=
  let s := (s.seqRxonly n).wb (Reg.TRX_STAT n) (if tsd then 30 else 31) true
  (s.ist (Reg.pgTRX n) (if tsd then 4 else 3)).evToYatric 8 (tsd.toNat * 32 + n)

def execTxdDominantTimeout (n : Fin 16) (s : State) : Host.Outcome State Fault Refusal :=
  .next (if s.trxState n = 0 then s else s.trxFault n false)

def execThermalShutdown (n : Fin 16) (s : State) : Host.Outcome State Fault Refusal :=
  .next (if s.trxState n = 0 then s else s.trxFault n true)

def execTransceiverFaultClear (n : Fin 16) (tsd : Bool) (s : State) : Host.Outcome State Fault Refusal :=
  .next (s.wb (Reg.TRX_STAT n) (if tsd then 30 else 31) false)

/-- AUTONOMOUS_BIAS_TIMEOUT (R445): 1.0 s of bus silence in LOWPWR. -/
def execAutonomousBiasTimeout (n : Fin 16) (s : State) : Host.Outcome State Fault Refusal :=
  .next (if s.trxState n = 1 then s.wb (Reg.TRX_STAT n) 29 true else s)

/-- A write of TRXn_CTL: a bus note of LOWPWR starts anew. -/
def trxctlWrite (n : Nat) (s : State) : State := s.biasBack n

/-- A write of TRXn_CNTCLR. -/
def trxCclrWrite (n : Nat) (v : Word) (s : State) : State :=
  if bitOf v 0 then (s.clear [Reg.TRX_KACNT n, Reg.TRX_WUFCNT n, Reg.TRX_FEOVF n]).wb (Reg.TRX_KALAST n) 31 false else s

/-- FAIL_SAFE (R448). -/
def execFailSafe (s : State) : Host.Outcome State Fault Refusal :=
  let t := s.rf Reg.WKN_CTL 23 16
  .next (if !s.awakeDev || t == 0 || s.linkUp || s.wkn.fsDone || decide (s.mono < s.wkn.downAt + t * 1000000) then s
  else
    let s := (List.range 8).foldl (fun u k => u.domDown k) s
    let s := s.setWkn { s.wkn with fsDone := true }
    (((s.bumpSat Reg.WKN_FSCNT 1 8).ist Reg.pgWKN 6).evToYatric 6 0).wknSync)

/-- STAY_LIMIT (R458): the time runs from the domain's wake, and from the last hold bit of a member that was cleared. -/
def execStayLimit (k : Fin 8) (s : State) : Host.Outcome State Fault Refusal :=
  let d := s.domOf k
  let lim := s.rf Reg.WKN_CTL 31 24
  let since := (s.domSegs k).foldl (fun m n => max m (amGetD 0 s.wkn.holdEnd n)) d.wokeAt
  let ka := (s.domTrx k).any (fun n => match amGet s.wkn.ka n with | some t => decide (since ≤ t) | none => false)
  .next (if !s.awakeDev || !s.domAwake k || d.asked || d.reported || lim == 0 || !ka
      || (s.domSegs k).any (fun n => s.rb Reg.WKN_HOLD n) || decide (s.mono < since + lim * 10000000000) then s
  else
    let (seg, id) := d.lastKa
    let s := s.wr Reg.WKN_STAYREC (BitVec.ofNat 32 (2 ^ 31 + id / 2 ^ 29 * 2 ^ 29 + seg * 2 ^ 16 + k))
    let s := (s.wr Reg.WKN_STAYID (BitVec.ofNat 32 (id % 2 ^ 29))).setDom k { d with reported := true }
    let s := ((s.bumpSat Reg.WKN_STAYCNT 1 8).ist Reg.pgWKN 7).evToYatric 7 (seg * 16 + k)
    if s.rb Reg.WKN_CTL 6 then (((s.domDown k).ist Reg.pgWKN 4).evToYatric 3 k).wknSync else s)

/-! Device sleep (R453-R456). -/

/-- A sleep request is refused and recorded (R454). -/
def State.sleepRefuse (s : State) (cause : Nat) : State :=
  (((s.wr Reg.WKN_ABORT (BitVec.ofNat 32 (2 ^ 31 + cause))).bumpSat Reg.WKN_ABORTCNT 1 8).ist Reg.pgWKN 1).evToYatric 4 cause

/-- A write of WKN_SLEEP (R454): SLEEP_COMMIT latches, transceivers take their sleep states, WAKE_LN is released and the power-down
starts; the Yatric die is held from here on. -/
def sleepWrite (init : Initiator) (v : Word) (s : State) : State :=
  let host := s.rf Reg.WKN_CTL 1 0 == 0
  let owner := if host then init == .host || init == .dma else init == .laurel
  if !bitOf v 31 ∨ s.wkn.commit ∨ s.pwr.mode ≠ .active then s
  else if !owner then s.sleepRefuse 8
  else if s.wkBlock ≠ 0 then s.sleepRefuse s.wkBlock
  else
    let s := s.setWkn { s.wkn with commit := true, late := [] }
    ((s.setCause rSLEEP 0).yatricReset false).powerDown.wlSync

/-- Laurel, as the owner and with AGREE = 1, prepares the device before its GO (R454, R474, R484): the log is flushed and the save set
in force is written with CAUSE = SLEEP. -/
def State.sleepPrepare (s : State) : State :=
  let s := s.logFlush
  let set := if s.rb Reg.PWR_SAVECTL 8 then s.rf Reg.PWR_SAVECTL 0 0 else 2
  let s := s.saveStart
  let i := s.saveCur
  let body := s.saveBody (s.causeRecord 2 255 0 s.tsy.full s.rtc) set
  let s := s.mramWrite (saveSlot i + 64) body
  s.mramWrite (saveSlot i) (saveHeader (s.saveSeq i) 3 set s.tsy.full body.length (crc32 body))

def execSleepRequest (init : Initiator) (v : Word) (s : State) : Host.Outcome State Fault Refusal :=
  let ready := init == .laurel && bitOf v 31 && s.awakeDev && s.rf Reg.WKN_CTL 1 0 != 0 && s.wkBlock == 0
  .next ((if ready then s.sleepPrepare else s).cmdWrite init Reg.WKN_SLEEP v (sleepWrite init v))

/-- A write of WKN_CNTCLR. -/
def wknCclrWrite (v : Word) (s : State) : State :=
  if bitOf v 0 then s.clear [Reg.WKN_WAKECNT, Reg.WKN_LATECNT, Reg.WKN_ABORTCNT, Reg.WKN_FSCNT, Reg.WKN_STAYCNT] else s

end Sys2Proof.Machine
end

