-- ==== Sys2Proof/Machine/Tamper.lean ====
section
/-! DEFINITION. Tamper sensors, the response to an alarm and the TMP page (13_key_store_tamper.md R368, R385-R391). -/
namespace Sys2Proof.Machine

/-- The device state an event records (R388): 0 active, 1 start-up, 2 SLEEP, 3 OFF. Powering up counts as start-up, an unpowered
device as OFF (log entry 32). -/
def State.tmpState (s : State) : Nat :=
  match s.pwr.mode with
  | .active => if s.rb Reg.YEW_STAT 31 ∨ s.pwr.held then 0 else 1
  | .up _ | .retry => 1
  | .sleep => 2
  | _ => 3

/-- An event enters the ring (R388). -/
def State.tmpEvent (s : State) : State :=
  let k := s.rf Reg.TMP_EVCNT 9 8
  let src := 2 ^ 31 + s.tmpState * 2 ^ 24 + s.yew.op.isSome.toNat * 2 ^ 16 + s.rf Reg.TMP_STAT 6 0
  let s := s.wr (Reg.TMP_EV_SRC k) (BitVec.ofNat 32 src)
  let s := (s.wr (Reg.TMP_EV_RTCLO k) (BitVec.ofNat 32 s.rtc)).wr (Reg.TMP_EV_RTCHI k) (BitVec.ofNat 32 (s.rtc / 2 ^ 32))
  let c := capAt 255 (s.rf Reg.TMP_EVCNT 7 0 + 1)
  let s := s.wr Reg.TMP_EVCNT (BitVec.ofNat 32 ((k + 1) % 4 * 256 + c))
  let s := { s with tsy := { s.tsy with evSteps := amPut s.tsy.evSteps k (s.rf Reg.TSY_STAT 15 8) } }
  (s.ist Reg.pgTMP 1).evToYatric 14 (s.rf Reg.TMP_STAT 6 0)

/-- A key operation, whose job has already been cut off (R378), aborts (R387): its buffer and confirmation are zeroed, URES reports TAMPER_ABORT. -/
def State.keyopAbort (s : State) : State :=
  match s.yew.op with
  | none => s
  | some o =>
    let slot := beAt s.umsg 16 2
    let s := match o with
      | .update => s.updFail kTAMPER slot
      | .rekey => s.rekeyRefuse kTAMPER
    s.umsgClear.confClear.yewOver

/-- The root is zeroed with CAUSE = TAMPER and the response for the device state follows (R386, R387). -/
def State.tamperZero (s : State) : State :=
  if s.rootZeroed ∧ s.yew.op.isNone then s
  else
    let on := s.pwr.mode == .active && !s.pwr.held
    let ready := s.rb Reg.YEW_STAT 31
    let s := if on then s.keyopCut else s
    let s := if on && ready then s.tamperAbort else s
    let s := if on then s.keyopAbort else s
    let s := { s with yew := { s.yew with root := .zeroed, cause := 1, slots := [] } }
    if !on then s
    else if !ready then s.yewReady
    else s.ist Reg.pgYEW 2

/-- The level of one sensor turns to alarm; a disabled sensor does nothing. -/
def execTamperDecision (sensor : Fin 7) (s : State) : Host.Outcome State Fault Refusal :=
  .next (if !s.rb Reg.TMP_CTL sensor then s
  else
    let s := (((s.wb Reg.TMP_STAT sensor true).wb Reg.TMP_STAT 31 true).ist Reg.pgTMP 0).tmpEvent
    let s := s.tamperZero
    let low := s.pwr.mode == .sleep || s.pwr.mode == .off || s.wkn.commit
    if low && s.rb Reg.TMP_CTL 8 then s.wakeEvent 9 0 0 else s)

/-- The alarm stands while an enabled sensor is in alarm (R386). -/
def State.alarmSync (s : State) : State :=
  s.wb Reg.TMP_STAT 31 ((s.rf Reg.TMP_STAT 6 0 &&& s.rf Reg.TMP_CTL 6 0) != 0)

/-- TAMPER_ALARM_CLEAR: the sensors leave alarm. -/
def execTamperAlarmClear (s : State) : Host.Outcome State Fault Refusal :=
  .next ((s.wf Reg.TMP_STAT 6 0 0).wb Reg.TMP_STAT 31 false)

/-- A write of TMP_CTL (R389): under LOCK bits can only be set. A sensor that is no longer enabled leaves alarm. -/
def tmpctlWrite (v : Word) (s : State) : State :=
  let old := (s.rd Reg.TMP_CTL).toNat
  let new := (v.toNat &&& 0x813F) ||| 0x40
  let s := s.wr Reg.TMP_CTL (BitVec.ofNat 32 (if nbit old 15 then old ||| new else new))
  (s.wf Reg.TMP_STAT 6 0 (s.rf Reg.TMP_STAT 6 0 &&& s.rf Reg.TMP_CTL 6 0)).alarmSync

def execTamperControlWrite (init : Initiator) (v : Word) (s : State) : Host.Outcome State Fault Refusal :=
  .next (s.cmdWrite init Reg.TMP_CTL v (tmpctlWrite v))

/-- A write of TMP_EVCLR: the ring and its count are cleared. -/
def evclrWrite (v : Word) (s : State) : State :=
  if bitOf v 0 then
    (s.clear ((List.range 4).map Reg.TMP_EV_SRC ++ (List.range 4).map Reg.TMP_EV_RTCLO ++ (List.range 4).map Reg.TMP_EV_RTCHI)).wr
      Reg.TMP_EVCNT 0
  else s

def execEventRingClear (init : Initiator) (v : Word) (s : State) : Host.Outcome State Fault Refusal :=
  .next (s.cmdWrite init Reg.TMP_EVCLR v (evclrWrite v))

def execRtcRead (init : Initiator) (s : State) : Host.Outcome State Fault Refusal :=
  .next (s.pageRead init Reg.TMP_RTC_LO)

/-- VBAT_RESET (R368, R462): TMP page, root ZEROED with cause VBATLOSS, real-time counter 0. -/
def execVbatReset (s : State) : Host.Outcome State Fault Refusal :=
  let s := s.resetPages Reg.pgTMP (Reg.pgTMP + 0x1000)
  .next { s with rtc := 0, rtcAcc := 0, yew := { s.yew with root := .zeroed, cause := 2, slots := [] } }

end Sys2Proof.Machine
end

