-- ==== Sys2Proof/Machine/Laurel.lean ====
section
/-! DEFINITION. Laurel's services (18_management.md R476-R492): the mailbox, sensors, log operations, event messages of the Kykel
die (R388, R459). The bus-off policy, RECLAIM and the watched sources stand in Services. -/
namespace Sys2Proof.Machine

/-- The loader or the firmware serves the mailbox: from boot step 8 on (R476). -/
def State.srv (s : State) : Bool := decide (5 ≤ s.boot.stage) && !s.pwr.held

/-- The Laurel firmware runs. -/
def State.fwRun (s : State) : Bool := s.rb Reg.CHIP_BOOTSTAT 30

/-! Event messages (R388, R459). -/

/-- The Yatric die takes the oldest message of the Kykel side, where it is of this TYPE and new: its ESEQ and DETAIL. -/
def State.evTake (s : State) (typ : Nat) : Option (Nat × Nat × State) :=
  match s.xpl.evK.q with
  | [] => none
  | (sq, ty, d) :: _ =>
    if !s.linkUp || ty != typ || s.xpl.evY.lastRx == some sq then none
    else some (sq, d, s.setXpl { s.xpl with evY := { s.xpl.evY with lastRx := some sq } })

/-- A message that Laurel logs as class WAKE: the message and WKN_WCAUSE. -/
def State.evWake (s : State) (typ : Nat) : State :=
  match s.evTake typ with
  | none => s
  | some (sq, d, t) =>
    t.logNow 3 none none (beBytes 2 (typ * 4096 + sq * 512 + d % 512) ++ t.rdBytes Reg.WKN_WCAUSE)

/-- A message that is only received. -/
def State.evPlain (s : State) (typ : Nat) : State :=
  match s.evTake typ with
  | none => s
  | some (_, _, t) => t

def execWakeEventMsg (s : State) : Host.Outcome State Fault Refusal := .next (s.evWake 2)
def execDomainEventMsg (s : State) : Host.Outcome State Fault Refusal := .next (s.evPlain 3)
def execSleepabortMsg (s : State) : Host.Outcome State Fault Refusal := .next (s.evWake 4)
def execAgreeMsg (s : State) : Host.Outcome State Fault Refusal := .next (s.evPlain 5)
def execFailsafeMsg (s : State) : Host.Outcome State Fault Refusal := .next (s.evWake 6)
def execStayMsg (s : State) : Host.Outcome State Fault Refusal := .next (s.evWake 7)
def execTrxfaultMsg (s : State) : Host.Outcome State Fault Refusal := .next (s.evPlain 8)

/-- Full time of real-time counter value c under a correlation pair (R332). -/
def corrTime (kc krtc c : Nat) : Nat :=
  ((kc : Int) + ((c : Int) - (krtc : Int)) * 1000000000 / 32768).toNat

/-- The correlation pair in the time registers: KC and KRTC (R332). -/
def State.corrPair (s : State) : Nat × Nat :=
  ((s.rd Reg.TSY_KC_NS).toNat + ((s.rd Reg.TSY_KC_SL).toNat + (s.rd Reg.TSY_KC_SH).toNat * 2 ^ 32) * 1000000000,
   (s.rd Reg.TSY_KRTC_LO).toNat + (s.rd Reg.TSY_KRTC_HI).toNat * 2 ^ 32)

/-- TAMPER message (R388): Laurel reads the event of the ring, converts its counter under R332 and logs it; without a pair the time
is free. An event of before the last Yatric reset counts as one that a step has followed. -/
def State.evTamper (s : State) : State :=
  match s.evTake 14 with
  | none => s
  | some (_, _, t) =>
    let later := ((s.xpl.evK.q.drop 1).filter (fun m => m.2.1 == 14)).length
    let k := (t.rf Reg.TMP_EVCNT 9 8 + 11 - later % 4) % 4
    let rtc := (t.rd (Reg.TMP_EV_RTCLO k)).toNat + (t.rd (Reg.TMP_EV_RTCHI k)).toNat * 2 ^ 32
    let (kc, kr) := t.corrPair
    let (full, t) := if t.rb Reg.TSY_KCSTAT 31 then (corrTime kc kr rtc, t) else t.orFree none (2 ^ 32)
    t.logAt 4 none none 1 full (amGetD 256 s.tsy.evSteps k) (t.rdBytes (Reg.TMP_EV_SRC k) ++ beBytes 6 rtc)

def execTamperEventMsg (s : State) : Host.Outcome State Fault Refusal := .next s.evTamper

/-! The mailbox (R477-R479). -/

/-- Request word k. -/
def State.mailReq (s : State) (k : Nat) : Nat := (s.rd (Reg.LRL_REQ k)).toNat

/-- OP of the request. -/
def State.mailOp (s : State) : Nat := s.rf (Reg.LRL_REQ 0) 31 24

/-- The response words, zeros above NRES. -/
def State.rspWords (s : State) (ws : List Nat) : State :=
  (List.range 15).foldl (fun t k => t.wr (Reg.LRL_RSP (k + 1)) (BitVec.ofNat 32 (dw ws k))) s

/-- Laurel answers the request: STATUS, SEQ, OP, NRES and the results; RSPV and PG_IST.RSP (R477, R478). -/
def State.answer (s : State) (st : Nat) (ws : List Nat) : State :=
  let sq := s.rf (Reg.LRL_REQ 0) 23 16
  let s := s.wr (Reg.LRL_RSP 0) (BitVec.ofNat 32 (st * 2 ^ 24 + sq * 2 ^ 16 + s.mailOp * 256 + ws.length))
  ((((s.rspWords ws).wb Reg.LRL_STAT 30 false).wb Reg.LRL_STAT 29 true).wf Reg.LRL_STAT 7 0 sq).ist Reg.pgLRL 0

/-- STATUS values. -/
def mOK : Nat := 0
def mBADOP : Nat := 1
def mBADLEN : Nat := 2
def mBADARG : Nat := 3
def mBUSY : Nat := 4
def mNOTFOUND : Nat := 5

/-- The operations of R479. -/
def mailKnown (op : Nat) : Bool := (decide (1 ≤ op) && decide (op ≤ 9)) || (decide (0x20 ≤ op) && decide (op ≤ 0x23))

/-- An accepted request waits for Laurel. -/
def State.mailWaits (s : State) (op : Nat) : Bool := s.srv && s.rb Reg.LRL_STAT 30 && s.mailOp == op

/-- A request of OP op: fw, it needs the firmware; need, the arguments it takes; f serves it. -/
def State.mail (s : State) (op : Nat) (fw : Bool) (need : Nat) (f : State → State) : State :=
  if !s.mailWaits op then s
  else if fw && !s.fwRun then s.answer mBADOP []
  else if s.rf (Reg.LRL_REQ 0) 3 0 < need then s.answer mBADLEN []
  else f s

/-- A request of an unknown OP is answered at once. -/
def State.mailUnknown (s : State) : State :=
  if s.srv && s.rb Reg.LRL_STAT 30 && !mailKnown s.mailOp then s.answer mBADOP [] else s

/-- A write of LRL_DOORBELL (R477): GO submits the request, or sets REQREF. -/
def doorbellWrite (v : Word) (s : State) : State :=
  if !bitOf v 0 then s
  else if s.rb Reg.LRL_STAT 30 || s.rb Reg.LRL_STAT 29 then s.ist Reg.pgLRL 3
  else (s.wb Reg.LRL_STAT 30 true).mailUnknown

def execMailboxDoorbell (init : Initiator) (v : Word) (s : State) : Host.Outcome State Fault Refusal :=
  .next (s.cmdWrite init Reg.LRL_DOORBELL v (doorbellWrite v))

/-- A write of LRL_RSPACK: ACK clears RSPV. -/
def rspackWrite (v : Word) (s : State) : State := if bitOf v 0 then s.wb Reg.LRL_STAT 29 false else s

def execResponseAck (init : Initiator) (v : Word) (s : State) : Host.Outcome State Fault Refusal :=
  .next (s.cmdWrite init Reg.LRL_RSPACK v (rspackWrite v))

/-- A write of LRL_REQk while BUSY sets REQREF; the word was discarded (R477). -/
def reqWrite (s : State) : State := if s.rb Reg.LRL_STAT 30 then s.ist Reg.pgLRL 3 else s

/-- EVENT_POP (R485): the read itself removes the word (State.evPop). -/
def execEventPop (init : Initiator) (s : State) : Host.Outcome State Fault Refusal :=
  .next (s.pageRead init Reg.LRL_EVPOP)

/-- PG_IST.EVT is set while the FIFO is not empty (R485): a clear of it does not last. -/
def lrlIstWrite (s : State) : State := if s.lrl.ev.isEmpty then s else s.ist Reg.pgLRL 1

/-! Operations (R479-R484). -/

def execPing (s : State) : Host.Outcome State Fault Refusal :=
  .next (s.mail 1 false 0 (fun t => t.answer mOK [if t.fwRun then t.boot.fwVer else 0, Config.loaderVersion.toNat]))

/-- Sensor i. -/
def State.sensor (s : State) (i : Nat) : Sensor := amGetD {} s.lrl.sens i

/-- Set sensor i. -/
def State.setSensor (s : State) (i : Nat) (x : Sensor) : State := s.setLrl { s.lrl with sens := amSet {} s.lrl.sens i x }

/-- A 32-bit word of an integer. -/
def i32 (i : Int) : Nat := unsigned 32 i

/-- A word that is open, drawn as a free value where there is none. -/
def State.orDraw (s : State) (v : Option Nat) : Nat × State := s.orFree v (2 ^ 32)

/-- SENSOR_READ: before the first sample, and extremes before the first sample since a clear, are free (log entry 34). -/
def State.sensorRead (s : State) (i : Nat) : State :=
  let x := s.sensor i
  let (a, s) := s.orDraw (x.val.map (fun p => i32 p.1))
  let (b, s) := s.orDraw (x.ext.map (fun p => i32 p.1))
  let (c, s) := s.orDraw (x.ext.map (fun p => i32 p.2))
  let (d, s) := s.orDraw (x.val.map (·.2))
  s.answer mOK [a, b, c, d]

def execSensorRead (s : State) : Host.Outcome State Fault Refusal :=
  .next (s.mail 2 false 1 (fun t =>
    let i := t.mailReq 1 % 256
    if 6 < i then t.answer mBADARG [] else t.sensorRead i))

def execSensorLimit (s : State) : Host.Outcome State Fault Refusal :=
  .next (s.mail 3 true 3 (fun t =>
    let i := t.mailReq 1 % 256
    if 6 < i then t.answer mBADARG []
    else (t.setSensor i { t.sensor i with lo := signed 32 (t.mailReq 2), hi := signed 32 (t.mailReq 3) }).answer mOK []))

def execSensorClr (s : State) : Host.Outcome State Fault Refusal :=
  .next (s.mail 4 true 1 (fun t =>
    let i := t.mailReq 1 % 256
    if 6 < i then t.answer mBADARG [] else (t.setSensor i { t.sensor i with ext := none }).answer mOK []))

/-- RSEQ of the newest record in MRAM. -/
def State.newestRseq (s : State) : Option Nat :=
  if s.sectors.isEmpty then none else some ((s.lrl.rseq + 2 ^ 32 - s.lrl.tail.length - 1) % 2 ^ 32)

def execLogInfo (s : State) : Host.Outcome State Fault Refusal :=
  .next (s.mail 5 false 0 (fun t =>
    let (a, t) := t.orDraw (t.oldestSector.map t.sectorFirst)
    let (b, t) := t.orDraw t.newestRseq
    t.answer mOK [a, b, t.lrl.tail.length, t.lrl.lostAll, t.lrl.passes]))

/-- LOG_READ: the record's eight words and the RSEQ after it. -/
def execLogRead (s : State) : Host.Outcome State Fault Refusal :=
  .next (s.mail 6 false 1 (fun t =>
    match t.logFind (t.mailReq 1) with
    | none => t.answer mNOTFOUND []
    | some r => t.answer mOK ((List.range 8).map (fun k => beAt r (4 * k) 4) ++ [(t.mailReq 1 + 1) % 2 ^ 32])))

/-- LOG_FLUSH: answered once the tail is in MRAM; in SAVE it waits (R436). -/
def execLogFlush (s : State) : Host.Outcome State Fault Refusal :=
  .next (s.mail 7 false 0 (fun t =>
    if t.inSave then t
    else
      let t := t.logFlush
      let (b, t) := t.orDraw t.newestRseq
      t.answer mOK [b]))

/-- LOG_TAIL_WRITE (R484): the tail holds 127 records, or its oldest was built 1 s ago. -/
def execLogTailWrite (s : State) : Host.Outcome State Fault Refusal :=
  let l := s.lrl
  .next (if decide (127 ≤ l.tail.length) || (!l.tail.isEmpty && decide (l.tailAt + 1000000000 ≤ s.now)) then s.logFlush else s)

/-! Sensors (R480, R481). -/

/-- What a value must return inside its limits by: 2 °C, 0.5 V, 50 mA. -/
def sensorHyst (i : Nat) : Int := if i < 2 then 20 else 50

/-- A SENSOR record of severity sev. -/
def State.logSensor (s : State) (i : Nat) (v lim : Int) (sev : Nat) : State :=
  s.logNow 9 none (some sev) ([BitVec.ofNat 8 i] ++ beBytes 4 (i32 v) ++ beBytes 4 (i32 lim))

/-- One sample v of sensor i: value, extremes, and the records of R481. -/
def State.sample (s : State) (i : Nat) (v : Int) : State :=
  let x := s.sensor i
  let x := { x with
    val := some (v, s.stamp32)
    ext := match x.ext with
      | none => some (v, v)
      | some (a, b) => some (min a v, max b v) }
  let lim := if x.hiSide then x.hi else x.lo
  if x.out then
    if x.lo + sensorHyst i ≤ v ∧ v ≤ x.hi - sensorHyst i then
      if 2 ≤ x.run then (s.setSensor i { x with run := 0, out := false }).logSensor i v lim 0
      else s.setSensor i { x with run := x.run + 1 }
    else s.setSensor i { x with run := 0 }
  else if v < x.lo ∨ x.hi < v then
    let side := decide (x.hi < v)
    let n := if side = x.hiSide then x.run + 1 else 1
    if 3 ≤ n then
      (s.setSensor i { x with run := 0, hiSide := side, out := true }).logSensor i v (if side then x.hi else x.lo) 2
    else s.setSensor i { x with run := n, hiSide := side }
  else s.setSensor i { x with run := 0 }

/-- SENSOR_SAMPLE: once per millisecond. vals: the quantities of sensors 0, 1, 4, 5 and 6; VSUP and VHOLD come from PWR_VMEAS. -/
def execSensorSample (vals : List Int) (s : State) : Host.Outcome State Fault Refusal :=
  let m := Config.measured Reg.PWR_VMEAS (s.mono / 1000000)
  let val := fun (k : Nat) => match vals[k]? with
    | some v => signed 32 (unsigned 32 v)
    | none => 0
  let all : List Int := [val 0, val 1, fld m 15 0, fld m 31 16, val 2, val 3, val 4]
  .next (if !s.srv ∨ s.now < s.lrl.sampleAt + 1000000 then s
  else
    let s := s.setLrl { s.lrl with sampleAt := s.now }
    (all.zipIdx).foldl (fun t p => t.sample p.2 p.1) s)

end Sys2Proof.Machine
end

