-- ==== Sys2Proof/Machine/Pair.lean ====
section
/-! DEFINITION. Active and standby pairing (20_redundancy.md R509-R519): roles, heartbeat, marks, promotion, digests and mirrored
frames. What follows the 8-byte header of a pair-link message is the model's (log entry 35). -/
namespace Sys2Proof.Machine

/-- Set the pairing record. -/
def State.setPair (s : State) (p : Pair) : State := { s with pair := p }

/-- ROLE: 0 SOLO, 1 ACTIVE, 2 STANDBY. -/
def State.role (s : State) : Nat := s.rf Reg.PAIR_STAT 1 0

/-- A role message: ROLE and SYNCED (R514). -/
def State.roleMsg (s : State) : State :=
  (s.setPair { s.pair with roleAt := s.now }).pairSend 5 0
    [BitVec.ofNat 8 (s.role + 16 * (s.rb Reg.PAIR_STAT 4).toNat)]

/-- Controllers whose OP in force a change between STANDBY and another role alters (R95, R512). -/
def State.standbyCtls (s : State) : List Nat :=
  (List.range 24).filter (fun n =>
    let op := fld (s.canOf n).mode 2 0
    op == 1 || op == 2 || op == 5)

/-- Standby behaviour begins: the controllers act as MONITOR with TEC and REC 0 (R512). -/
def State.standbyBegin (s : State) : State :=
  s.standbyCtls.foldl (fun t n => if t.canOn n then (t.setTecRec n 0 0).setCanState n 2 else t) s

/-- Standby behaviour ends: controllers take their committed OP after bus integration (R515). -/
def State.standbyEnd (s : State) : State :=
  s.standbyCtls.foldl (fun t n => if t.canOn n then t.integrate n else t) s

/-- The role changes (R511): ROLECHG and a role message. -/
def State.setRole (s : State) (r : Nat) : State :=
  let was := s.role
  if r = was then s
  else
    let s := if was = 2 then s.standbyEnd else s
    let s := s.wf Reg.PAIR_STAT 1 0 r
    let s := if r = 2 then s.standbyBegin.wb Reg.PAIR_STAT 4 false else s
    let s := if was = 0 then s.setPair { s.pair with hbAt := s.now, edgeAt := s.now } else s
    (s.ist Reg.pgPAIR 0).roleMsg

/-- LASTSW is loaded with a cause. -/
def State.lastSw (s : State) (cause : Nat) : State := s.wr Reg.PAIR_LASTSW (BitVec.ofNat 32 (2 ^ 31 + cause))

/-- RSV of a reserve register: lower values act as 8 (R359). -/
def rsvOf (n : Nat) : Nat := if n < 8 then 8 else n

/-- PROMOTION (R515): transmit counters and the NEXTPN of transmit SAs in use rise to the last mark plus 2^(RSV+1). -/
def State.promote (s : State) (cause : Nat) : State :=
  let fr := 2 ^ (rsvOf (s.rf Reg.CAUTH_CTL 12 8) + 1)
  let sr := 2 ^ (rsvOf (s.rf Reg.MSEC_CTL 12 8) + 1)
  let s := s.setRole 1
  let s := s.pair.fmark.foldl (fun t p => if t.markTx p.1 then t.setFresh p.1 (max (t.freshOf p.1) (min (2 ^ 64 - 1) (p.2 + fr))) else t) s
  let s := s.pair.smark.foldl (fun t p =>
    let i := p.1 - 65536
    let a := t.saOf i
    if a.inuse && t.saTransmit i then
      let v := max a.pn (min (2 ^ 64 - 1) (p.2 + sr))
      (t.setSa i { a with pn := v }).markCross p.1 (t.rf Reg.MSEC_CTL 12 8) a.pn v
    else t) s
  (s.bump Reg.PAIR_SWOVER 1 8).lastSw cause

/-- E3 serves as the pair link; a MODE other than 0x1 sets CFGERR (R509). -/
def State.pairCheck (s : State) : State :=
  s.istIf (s.rb Reg.PAIR_CTL 0 && s.rf (Reg.EMAC_CFG 3) 2 0 != 1) Reg.pgPAIR 7

/-- A SOLO unit may join: EN = 1 and the pair link up. -/
def State.mayJoin (s : State) : Bool := s.role == 0 && s.pairOn && s.rb (Reg.EMAC_STAT 3) 31

/-- JOIN_ACT. -/
def State.joinAct (s : State) : State := if s.mayJoin then s.setRole 1 else s.pairCheck

/-- JOIN_STBY: the role message of the change asks for the bulk sync (R514). -/
def State.joinStby (s : State) : State := if s.mayJoin then s.setRole 2 else s.pairCheck

/-- DEMOTE: a handover to a synced standby, or CMDREF. -/
def State.demote (s : State) : State :=
  if s.role ≠ 1 then s
  else if s.pair.peerRole = 2 ∧ s.pair.peerSync then (s.pairSend 4 0 []).setRole 2
  else s.ist Reg.pgPAIR 6

/-- A write of PAIR_CMD, its bits in ascending order. -/
def pairCmdWrite (v : Word) (s : State) : State :=
  let s := if bitOf v 0 then s.joinAct else s
  let s := if bitOf v 1 then s.joinStby else s
  let s := if bitOf v 2 then s.demote else s
  if bitOf v 3 ∧ s.role = 2 then s.promote 2 else s

/-- A write of PAIR_CTL that took effect: EN = 0 leads to SOLO with the heartbeat low (R511). -/
def pairCtlWrite (s : State) : State :=
  if s.rb Reg.PAIR_CTL 0 then s.pairCheck
  else
    let s := s.setRole 0
    (s.wr Reg.PAIR_STAT 0).setPair {}

/-- A write of PAIR_CNTCLR. -/
def pairCclrWrite (v : Word) (s : State) : State :=
  if bitOf v 0 then
    ((s.clear [Reg.PAIR_DIGMIS, Reg.PAIR_MIRDROP, Reg.PAIR_OWNDISC, Reg.PAIR_SWOVER]).wb Reg.PAIR_LASTMIS 31 false).wb
      Reg.PAIR_LASTSW 31 false
  else s

def execJoinAct (init : Initiator) (v : Word) (s : State) : Host.Outcome State Fault Refusal :=
  .next (s.cmdWrite init Reg.PAIR_CMD v (pairCmdWrite v))

def execJoinStby (init : Initiator) (v : Word) (s : State) : Host.Outcome State Fault Refusal :=
  .next (s.cmdWrite init Reg.PAIR_CMD v (pairCmdWrite v))

def execPromote (init : Initiator) (v : Word) (s : State) : Host.Outcome State Fault Refusal :=
  .next (s.cmdWrite init Reg.PAIR_CMD v (pairCmdWrite v))

def execDemote (init : Initiator) (v : Word) (s : State) : Host.Outcome State Fault Refusal :=
  .next (s.cmdWrite init Reg.PAIR_CMD v (pairCmdWrite v))

/-! Heartbeat (R510, R511). -/

/-- HEARTBEAT_TOGGLE. -/
def execHeartbeatToggle (s : State) : Host.Outcome State Fault Refusal :=
  .next (if s.role = 0 ∨ s.now < s.pair.hbAt + s.hbPer then s
    else s.setPair { s.pair with hbOut := !s.pair.hbOut, hbAt := s.now })

/-- The heartbeat has been absent for HBTO: HBLOST, and promotion or HBFAULT in STANDBY. -/
def State.hbLost (s : State) : State :=
  if s.role = 0 ∨ s.now < s.pair.edgeAt + s.hbTo then s
  else
    let s := if s.rb Reg.PAIR_STAT 8 then (s.wb Reg.PAIR_STAT 8 false).ist Reg.pgPAIR 2 else s
    if s.role ≠ 2 then s
    else if s.pairAlive then (if s.rb Reg.PAIR_STAT 11 then s else (s.wb Reg.PAIR_STAT 11 true).ist Reg.pgPAIR 3)
    else if s.rb Reg.PAIR_CTL 2 && s.rb Reg.PAIR_STAT 4 then s.promote 0
    else s

/-- HEARTBEAT_LOST (R510, R511). edge: an edge at PAIR_HB_IN, which the table gives no row of its own; it restarts the time. -/
def execHeartbeatLost (edge : Bool) (s : State) : Host.Outcome State Fault Refusal :=
  .next (if edge then
      ((s.setPair { s.pair with edgeAt := s.now }).wb Reg.PAIR_STAT 8 (s.role != 0)).wb Reg.PAIR_STAT 11 false
    else s.hbLost)

/-! Messages of the pair link. -/

/-- A frame of the pair link arrives: only while E3 serves as the pair link and is up. -/
def State.pairRx (s : State) (f : State → State) : State :=
  if s.pairOn && s.rb (Reg.EMAC_STAT 3) 31 then f (s.setPair { s.pair with frameAt := some s.now }) else s

/-- MIRRORED_FRAME (R513): bytes without FCS enter the standby at the named port with the stamp they carry. -/
def execMirroredFrame (port : Fin 14) (stamp : Nat) (bytes : List Byte) (s : State) : Host.Outcome State Fault Refusal :=
  .next (s.pairRx (fun t => if t.role = 2 ∧ port.val ≠ 3 then t.enterEth (t.portFrame port bytes (stamp % 2 ^ 32) 0) else t))

/-- MARK_MSG (R514): a mark of freshness counter i, or of SA i - 2^16; none: the end of the bulk sync. -/
def execMarkMsg (mark : Option (Nat × Nat)) (s : State) : Host.Outcome State Fault Refusal :=
  .next (s.pairRx (fun t =>
    if t.role ≠ 2 then t
    else match mark with
      | some (i, v) =>
        if i < 65536 then t.setPair { t.pair with fmark := amPut t.pair.fmark i v }
        else t.setPair { t.pair with smark := amPut t.pair.smark i v }
      | none => if t.rb Reg.PAIR_STAT 4 then t else ((t.wb Reg.PAIR_STAT 4 true).ist Reg.pgPAIR 5).roleMsg))

/-- The bulk sync: every mark of transmission once, then the end (R514). -/
def State.bulkSync (s : State) : State :=
  ((s.cry.lastMark.filter (fun p => s.markTx p.1)).foldl (fun t p => t.pairMark p.1 p.2) s).pairSend 2 0 []

/-- ROLE_MSG (R511, R514). -/
def execRoleMsg (role : Fin 3) (synced : Bool) (s : State) : Host.Outcome State Fault Refusal :=
  .next (s.pairRx (fun t =>
    let fresh := t.pair.peerRole != 2
    let t := t.setPair { t.pair with peerRole := role, peerSync := synced }
    let t := t.wb Reg.PAIR_STAT 10 (role.val == 1)
    if t.role = 1 ∧ role.val = 1 ∧ t.rb Reg.PAIR_CTL 1 then (t.setRole 2).lastSw 3
    else if t.role = 1 ∧ role.val = 2 ∧ !synced ∧ fresh then t.bulkSync
    else t))

/-- HANDOVER_MSG (R511). -/
def execHandoverMsg (s : State) : Host.Outcome State Fault Refusal :=
  .next (s.pairRx (fun t => if t.role = 2 then t.promote 1 else t))

/-- ROLE_MESSAGE_TIMER (R514). -/
def execRoleMessageTimer (s : State) : Host.Outcome State Fault Refusal :=
  .next (if s.role = 0 ∨ s.now < s.pair.roleAt + 10000000 then s else s.roleMsg)

/-! Digests (R516, R517). -/

/-- The egresses: 0-23 CANC0-CANC23, 24-37 E0-E13 without E3. -/
def digestEgresses : List Nat := (List.range 38).filter (fun e => e != 27)

/-- D(e, k) of a digest map. -/
def digestOf (m : List (Nat × (Nat × Nat))) (e k : Nat) : Nat × Nat := amGetD (0, 0) m (k * 64 + e)

/-- Sum of two digests. -/
def digestAdd (a b : Nat × Nat) : Nat × Nat := ((a.1 + b.1) % 2 ^ 16, (a.2 + b.2) % 2 ^ 32)

/-- agree(e, k); prev: both units hold k - 1. -/
def State.agree (s : State) (e k : Nat) (prev : Bool) : Bool :=
  let a := digestOf s.pair.own e
  let b := digestOf s.pair.peer e
  a k == b k || (prev && digestAdd (a (k - 1)) (a k) == digestAdd (b (k - 1)) (b k))
    || digestAdd (a k) (a (k + 1)) == digestAdd (b k) (b (k + 1))

/-- A mismatch of egress e in interval k. -/
def State.mismatch (s : State) (e k : Nat) : State :=
  ((s.bump Reg.PAIR_DIGMIS 1 8).wr Reg.PAIR_LASTMIS (BitVec.ofNat 32 (2 ^ 31 + e * 2 ^ 24 + k % 65536))).ist Reg.pgPAIR 1

/-- Interval k is judged: every egress, and the plans as egress 38. -/
def State.judgeInterval (s : State) (k : Nat) : State :=
  let prev := decide (0 < k) && (amGet s.pair.ownK (k - 1)).isSome && (amGet s.pair.peerK (k - 1)).isSome
  let s := digestEgresses.foldl (fun t e => if t.agree e k prev then t else t.mismatch e k) s
  let s := if amGet s.pair.ownK k = amGet s.pair.peerK k then s else s.mismatch 38 k
  let old := fun (j : Nat) => decide (k ≤ j)
  s.setPair { s.pair with
    judged := k + 1
    own := s.pair.own.filter (fun p => old (p.1 / 64)), peer := s.pair.peer.filter (fun p => old (p.1 / 64))
    ownK := s.pair.ownK.filter (fun p => old p.1), peerK := s.pair.peerK.filter (fun p => old p.1) }

/-- The intervals both units hold with the one after them are judged, while the pair link is up. -/
def State.judgeAll (s : State) : State :=
  if !s.rb (Reg.EMAC_STAT 3) 31 then s
  else
    let both := fun (k : Nat) => (amGet s.pair.ownK k).isSome && (amGet s.pair.peerK k).isSome
    ((s.pair.ownK.map (·.1)).filter (fun k => decide (s.pair.judged ≤ k) && both k && both (k + 1))).foldl State.judgeInterval s

/-- DIGEST_MSG (R517): the peer's digests (egress, count, sum) and plan of interval k. -/
def execDigestMsg (k : Nat) (plan : Fin 4) (ds : List (Fin 38 × (Nat × Nat))) (s : State) :
    Host.Outcome State Fault Refusal :=
  .next (s.pairRx (fun t =>
    if t.role = 0 then t
    else
      let m := ds.foldl (fun m d => amPut m (k * 64 + d.1.val) (d.2.1 % 2 ^ 16, d.2.2 % 2 ^ 32)) t.pair.peer
      (t.setPair { t.pair with peer := m, peerK := amPut t.pair.peerK k plan }).judgeAll))

/-- The data of a digest message: k, plan, count and sum of each egress. -/
def State.digestData (s : State) (k plan : Nat) : List Byte :=
  beBytes 8 k ++ [BitVec.ofNat 8 plan]
    ++ (digestEgresses.map (fun e => let d := digestOf s.pair.own e k; beBytes 2 d.1 ++ beBytes 4 d.2)).flatten

/-- DIGEST_INTERVAL_END (R516): the interval before the one that runs is closed and sent, once. -/
def execDigestIntervalEnd (s : State) : Host.Outcome State Fault Refusal :=
  let cur := s.tsy.full / 100000000
  let k := cur - 1
  .next (if s.role = 0 ∨ cur = 0 ∨ k < s.pair.judged ∨ (amGet s.pair.ownK k).isSome then s
    else
      let plan := s.rf Reg.CHIP_PLAN 1 0
      ((s.setPair { s.pair with ownK := amPut s.pair.ownK k plan }).pairSend 3 0 (s.digestData k plan)).judgeAll)

end Sys2Proof.Machine
end

