-- ==== Sys2Proof/Machine/ObsCmd.lean ====
section
/-! DEFINITION. The observation port's commands (21_observation.md R522, R525) and the test root (R384). -/
namespace Sys2Proof.Machine

/-- TEST_ROOT_SUBSTITUTION (R384): key jobs end TAMPER_ABORT, a running key operation ends TESTROOT, the keys of INSTALLED slots go,
TEST reads 1. The root of the VBAT domain stays. -/
def State.testSubst (s : State) : State :=
  let s := s.keyopCut.tamperAbort
  let s := match s.yew.op with
    | none => s
    | some .update => s.updFail uTESTROOT (beAt s.umsg 16 2)
    | some .rekey => s.rekeyRefuse uTESTROOT
  let s := if s.yew.op.isSome then s.umsgClear.confClear else s
  let slots := s.yew.slots.filter (fun p => fld p.2.attr 31 30 != 1)
  (State.yewOver { s with yew := { s.yew with slots := slots } }).wb Reg.YEW_STAT 29 true

/-- A write of OBS_CTL that took effect (R522). -/
def obsCtlWrite (s : State) : State :=
  if s.rb Reg.OBS_CTL 0 then
    if s.obs.run then s
    else
      let s := s.setObs { s.obs with run := true, phase := 0, cntAt := s.now }
      let s := s.obsSync
      ((s.wb Reg.OBS_STAT 31 true).ist Reg.pgOBS 0).testSubst
  else s.setObs { s.obs with run := false, phase := 0 }

def execObsEnable (init : Initiator) (v : Word) (s : State) : Host.Outcome State Fault Refusal :=
  .next (s.pageWrite (fun _ _ _ t => obsCtlWrite t) init Reg.OBS_CTL v)

def execObsDisable (init : Initiator) (v : Word) (s : State) : Host.Outcome State Fault Refusal :=
  .next (s.cmdWrite init Reg.OBS_CTL v obsCtlWrite)

/-- SYNC_RECORD: 1 ms since the last one. -/
def execSyncRecord (s : State) : Host.Outcome State Fault Refusal :=
  .next (if !s.obs.run ∨ s.now < s.obs.syncAt + 1000000 then s else s.obsSync)

/-- The counters of R525 that the model keeps; the others count cycles of units, which the model has no time for (log entry 36). -/
def obsKept (i : Nat) : Bool := i == 4 || i == 5 || i == 6 || i == 8 || i == 9

/-- COUNT_RECORD (R525): a record of each hidden counter in index order. -/
def execCountRecord (s : State) : Host.Outcome State Fault Refusal :=
  let per := s.rf Reg.OBS_CNTPER 15 0 * 1000
  .next (if !s.obs.run ∨ per = 0 ∨ s.now < s.obs.cntAt + per then s
  else
    let s := s.setObs { s.obs with cntAt := s.now }
    (List.range 10).foldl (fun t i =>
      let (w, t) := t.orFree (if obsKept i then some (amGetD 0 t.obs.hidden i) else none) (2 ^ 32)
      t.trace 10 0 ([BitVec.ofNat 8 i] ++ beBytes 4 w)) s)

/-- A write of OBS_CNTCLR. -/
def obsCclrWrite (v : Word) (s : State) : State := if bitOf v 0 then s.clear [Reg.OBS_LOST, Reg.OBS_SENT] else s

end Sys2Proof.Machine
end

