-- ==== Sys2Proof/Machine/Time.lean ====
section
/-! DEFINITION. The time unit (11_time_sync.md): the advance of both counts, rate, steps, ownership and holdover,
pulse outputs, captures and the correlation pair. -/
namespace Sys2Proof.Machine

/-- Seconds wrap of full time: 2^48 s in ns (R314). -/
def fullWrap : Nat := 2 ^ 48 * 1000000000

/-- The numeric limit of TSY_RATE (R314). -/
def rateLimit : Int := 4294967

/-- A rate forced into the accepted range (R314). -/
def clampRate (r : Int) : Int := if r > rateLimit then rateLimit else if r < -rateLimit then -rateLimit else r

/-- One 4 ns cycle of the time unit's clock: both counts advance by 4 * (1 + TSY_RATE * 2^-32) ns (R314), the local
count modulo 2^64, full time modulo 2^48 s; the real-time counter of the VBAT domain advances at 32.768 kHz (log
entry 5). While the Yatric die is held in reset its time unit stands still. -/
def State.tick (s : State) : State :=
  let rate := clampRate (signed 32 (s.rd Reg.TSY_RATE).toNat)
  let acc := s.tsy.frac + (4 * (4294967296 + rate)).toNat
  let n := acc / 4294967296
  let r := s.rtcAcc + 4 * 32768
  { s with
    tsy := if s.pwr.held then s.tsy else { s.tsy with
      full := (s.tsy.full + n) % fullWrap
      loc := (s.tsy.loc + n) % 2 ^ 64
      frac := acc % 4294967296
      stepTo := if s.tsy.full + n < fullWrap then s.tsy.stepTo else 0 }
    mono := s.mono + 4
    rtc := (s.rtc + r / 1000000000) % 2 ^ 48
    rtcAcc := r % 1000000000 }

/-- The writer is the owner named by TSY_OWN (R320); a DMA write counts as a host write. -/
def State.tsyOwner (s : State) (init : Initiator) : Bool :=
  if s.rf Reg.TSY_OWN 0 0 = 0 then init == .host || init == .dma else init == .laurel

/-- LOCKED restarts the watchdog at an accepted rate write or step (R321). -/
def State.tsyTouch (s : State) : State :=
  if s.rb Reg.TSY_STAT 31 then { s with tsy := { s.tsy with wdStart := s.now } } else s

/-- A write of TSY_RATE: refused for a non-owner (ADJREF); the register reads the value written (R5), the clock applies
it at the nearest limit when it is out of range, and RATESAT is set (R314, R320). -/
def rateWrite (init : Initiator) (v : Word) (s : State) : State :=
  if !s.tsyOwner init then s.ist Reg.pgTSY 2
  else
    let r := signed 32 v.toNat
    ((s.wr Reg.TSY_RATE v).istIf (decide (clampRate r ≠ r)) Reg.pgTSY 3).tsyTouch

/-- The first k with start + k * per at or after t. -/
def firstInstant (start per t : Nat) : Nat :=
  if t ≤ start then 0 else if per = 0 then 0 else (t - start + per - 1) / per

/-- Drive TOUTn: a pulse in progress is the level opposite to idle (R330). -/
def State.driveTout (s : State) (n : Nat) (pulse : Bool) : State :=
  s.emit (.tout n (pulse != s.rb (Reg.TOUT_CTL n) 2))

/-- Output n's record. -/
def State.toutOf (s : State) (n : Nat) : PulseOut :=
  match s.tsy.touts[n]? with
  | some p => p
  | none => ⟨0, 0, 0, false, 0, none⟩

/-- Set output n's record. -/
def State.setTout (s : State) (n : Nat) (p : PulseOut) : State :=
  { s with tsy := { s.tsy with touts := lset s.tsy.touts n p } }

/-- Start a pulse on output n now (R328): it ends WID ns later on the local count. -/
def State.startPulse (s : State) (n : Nat) : State :=
  let p := s.toutOf n
  (s.setTout n { p with pulse := some (s.now + p.wid), next := p.next + 1 }).driveTout n true

/-- Output n after a step of full time from old to the new time (R319). -/
def State.stepTout (s : State) (old : Nat) (n : Nat) : State :=
  let p := s.toutOf n
  if !s.rb (Reg.TOUT_CTL n) 0 then s
  else if p.periodic then
    let k := firstInstant p.start p.per (if s.tsy.full < old then s.tsy.full + 1 else s.tsy.full)
    let s := s.setTout n { p with next := k }
    if old < s.tsy.full ∧ p.next < k then
      s.wr (Reg.TOUT_SKIP n) (BitVec.ofNat 32 (capAt 0xFFFFFFFF ((s.rd (Reg.TOUT_SKIP n)).toNat + (k - p.next))))
    else s
  else if p.pulse.isNone ∧ old < p.start ∧ p.start < s.tsy.full then
    (s.startPulse n).ist Reg.pgTSY 4
  else s

/-- The operand of a step and the new full time, none where the step is refused (R318): op 1 adds, 2 subtracts, 3
sets. -/
def State.stepTarget (s : State) (op : Nat) : Option Nat :=
  let ns := (s.rd Reg.TSY_ADJ_NS).toNat
  let x := ((s.rd Reg.TSY_ADJ_SL).toNat + (s.rd Reg.TSY_ADJ_SH).toNat % 0x10000 * 2 ^ 32) * 1000000000 + ns
  if ns > 999999999 then none
  else if op = 1 then (if s.tsy.full + x < fullWrap then some (s.tsy.full + x) else none)
  else if op = 2 then (if x ≤ s.tsy.full then some (s.tsy.full - x) else none)
  else some x

/-- A write of TSY_ADJCTL.OP (R318-R321). -/
def adjWrite (init : Initiator) (op : Nat) (s : State) : State :=
  if !s.tsyOwner init then s.ist Reg.pgTSY 2
  else if op = 0 then s
  else match s.stepTarget op with
    | none => s.ist Reg.pgTSY 2
    | some x =>
      let old := s.tsy.full
      let s := { s with tsy := { s.tsy with full := x, stepTo := x } }
      let s := s.wf Reg.TSY_STAT 15 8 (s.rf Reg.TSY_STAT 15 8 + 1)
      let s := [0, 1, 2, 3].foldl (fun t n => t.stepTout old n) s
      s.tsyTouch

/-- A write of TSY_SYNC (R320, R321): HOLD alone counts when both are written. -/
def syncWrite (init : Initiator) (v : Word) (s : State) : State :=
  if !s.tsyOwner init then s.ist Reg.pgTSY 2
  else if v.toNat % 4 = 0 then s
  else if bitOf v 1 then
    if s.rb Reg.TSY_STAT 31 then ((s.wb Reg.TSY_STAT 31 false).wf Reg.TSY_STAT 27 26 2).ist Reg.pgTSY 1 else s
  else
    let was := s.rb Reg.TSY_STAT 31
    let s := s.wb Reg.TSY_STAT 31 true
    let s := { s with tsy := { s.tsy with wdStart := s.now } }
    s.istIf (!was) Reg.pgTSY 0

/-- The watchdog reached LIMIT ms (R321). -/
def State.wdExpired (s : State) : Bool :=
  let lim := s.rf Reg.TSY_SYNCWD 15 0
  s.rb Reg.TSY_STAT 31 && lim != 0 && decide (s.tsy.wdStart + lim * 1000000 ≤ s.now)

/-- TOUTn_CTL written (R328, R329): MODE and POL are stored by the access code before this effect. -/
def toutWrite (n : Nat) (v : Word) (s : State) : State :=
  if bitOf v 0 then
    let ns := (s.rd (Reg.TOUT_NS n)).toNat
    let per := (s.rd (Reg.TOUT_PER n)).toNat
    let wid := (s.rd (Reg.TOUT_WID n)).toNat
    let mode := bitOf v 1
    if decide (ns > 999999999) || decide (wid < 4) || (mode && (decide (per < 16) || decide (wid > per - 4))) then
      (s.driveTout n (s.toutOf n).pulse.isSome).ist Reg.pgTSY 9
    else
      let start := ((s.rd (Reg.TOUT_SL n)).toNat + (s.rd (Reg.TOUT_SH n)).toNat % 0x10000 * 2 ^ 32) * 1000000000 + ns
      let k := if mode then firstInstant start per s.tsy.full else 0
      let s := s.wb (Reg.TOUT_CTL n) 0 true
      let s := s.wr (Reg.TOUT_SKIP n) (BitVec.ofNat 32 (capAt 0xFFFFFFFF k))
      let s := s.setTout n ⟨start, per, wid, mode, k, none⟩
      if !mode && decide (start < s.tsy.full) then (s.startPulse n).ist Reg.pgTSY 4 else s.driveTout n false
  else
    let s := s.wb (Reg.TOUT_CTL n) 0 false
    (s.setTout n { s.toutOf n with pulse := none }).driveTout n false

/-- TCAPn_CTL written: a 1 in VALID also clears MISSED (R331). -/
def tcapWrite (n : Nat) (v : Word) (s : State) : State :=
  if bitOf v 31 then s.wf (Reg.TCAP_CTL n) 15 8 0 else s

/-- TSY_KCORR written (R332). -/
def kcorrWrite (v : Word) (s : State) : State :=
  if !bitOf v 0 then s
  else if s.rf Reg.XPL_STAT 2 0 = 2 then { s with tsy := { s.tsy with corr := some ((s.rtc + 1) % 2 ^ 48) } }
  else s.wb Reg.TSY_KCSTAT 30 true

/-- Load a full time N into a nanoseconds, low-seconds and high-seconds register triple. -/
def State.loadTime (s : State) (a n : Nat) : State :=
  ((s.wr a (BitVec.ofNat 32 (n % 1000000000))).wr (a + 4) (BitVec.ofNat 32 (n / 1000000000))).wr (a + 8)
    (BitVec.ofNat 32 (n / 1000000000 / 2 ^ 32 % 0x10000))

/-! The commands of the time family. -/

def execRateWrite (init : Initiator) (v : Word) (s : State) : Host.Outcome State Fault Refusal :=
  .next (s.cmdWrite init Reg.TSY_RATE v (rateWrite init v))

def execTimeAdd (init : Initiator) (s : State) : Host.Outcome State Fault Refusal :=
  .next (s.cmdWrite init Reg.TSY_ADJCTL 1 (adjWrite init 1))

def execTimeSubtract (init : Initiator) (s : State) : Host.Outcome State Fault Refusal :=
  .next (s.cmdWrite init Reg.TSY_ADJCTL 2 (adjWrite init 2))

def execTimeSet (init : Initiator) (s : State) : Host.Outcome State Fault Refusal :=
  .next (s.cmdWrite init Reg.TSY_ADJCTL 3 (adjWrite init 3))

def execSyncLock (init : Initiator) (s : State) : Host.Outcome State Fault Refusal :=
  .next (s.cmdWrite init Reg.TSY_SYNC 1 (syncWrite init 1))

def execSyncHold (init : Initiator) (lock : Bool) (s : State) : Host.Outcome State Fault Refusal :=
  let v : Word := if lock then 3 else 2
  .next (s.cmdWrite init Reg.TSY_SYNC v (syncWrite init v))

/-- CAUSE = WATCHDOG and HOLDOVER when the watchdog has reached its limit (R321); not due: no effect (log entry 6). -/
def execSyncWatchdogExpiry (s : State) : Host.Outcome State Fault Refusal :=
  .next (if s.wdExpired then ((s.wb Reg.TSY_STAT 31 false).wf Reg.TSY_STAT 27 26 1).ist Reg.pgTSY 1 else s)

def execNowRead (init : Initiator) (s : State) : Host.Outcome State Fault Refusal :=
  .next (s.pageRead init Reg.TSY_NOW_NS)

/-- TOUTn_CTL word with ARM as given. -/
def toutWord (arm periodic pol : Bool) : Word := BitVec.ofNat 32 (arm.toNat + 2 * periodic.toNat + 4 * pol.toNat)

def execToutArm (init : Initiator) (n : Fin 4) (periodic pol : Bool) (s : State) : Host.Outcome State Fault Refusal :=
  let v := toutWord true periodic pol
  .next (s.cmdWrite init (Reg.TOUT_CTL n) v (toutWrite n v))

def execToutDisarm (init : Initiator) (n : Fin 4) (periodic pol : Bool) (s : State) :
    Host.Outcome State Fault Refusal :=
  let v := toutWord false periodic pol
  .next (s.cmdWrite init (Reg.TOUT_CTL n) v (toutWrite n v))

/-- Full time has reached the next instant of armed output n: a pulse starts (R328). -/
def execToutPulseStart (n : Fin 4) (s : State) : Host.Outcome State Fault Refusal :=
  let p := s.toutOf n
  let at_ := if p.periodic then p.start + p.next * p.per else p.start
  .next (if s.rb (Reg.TOUT_CTL n) 0 && p.pulse.isNone && decide (at_ ≤ s.tsy.full) then s.startPulse n else s)

/-- The width has elapsed: the output returns to idle; a one-shot disarms and sets TOUTDONE (R328). -/
def execToutPulseEnd (n : Fin 4) (s : State) : Host.Outcome State Fault Refusal :=
  let p := s.toutOf n
  .next (match p.pulse with
    | none => s
    | some e =>
      if s.now < e then s
      else
        let s := (s.setTout n { p with pulse := none }).driveTout n false
        if p.periodic then s else (s.wb (Reg.TOUT_CTL n) 0 false).ist Reg.pgTSY 5)

/-- An edge on TCAPn (R331, R334): captured, or counted as missed while VALID = 1; not selected by EDGE: ignored. -/
def execCaptureEdge (n : Fin 4) (rising : Bool) (s : State) : Host.Outcome State Fault Refusal :=
  let e := s.rf (Reg.TCAP_CTL n) 1 0
  .next (if (rising && nbit e 0) || (!rising && nbit e 1) then
    if s.rb (Reg.TCAP_CTL n) 31 then
      (s.wf (Reg.TCAP_CTL n) 15 8 (capAt 255 (s.rf (Reg.TCAP_CTL n) 15 8 + 1))).ist Reg.pgTSY 7
    else
      ((((s.loadTime (Reg.TCAP_NS n) s.tsy.full).wb (Reg.TCAP_CTL n) 31 true).wb (Reg.TCAP_CTL n) 30 rising)).ist
        Reg.pgTSY 6
  else s)

def execCaptureRead (init : Initiator) (n : Fin 4) (s : State) : Host.Outcome State Fault Refusal :=
  .next (s.pageRead init (Reg.TCAP_NS n))

def execCaptureClear (init : Initiator) (n : Fin 4) (v : Word) (s : State) : Host.Outcome State Fault Refusal :=
  .next (s.cmdWrite init (Reg.TCAP_CTL n) v (tcapWrite n v))

def execCorrelationRequest (init : Initiator) (v : Word) (s : State) : Host.Outcome State Fault Refusal :=
  .next (s.cmdWrite init Reg.TSY_KCORR v (kcorrWrite v))

/-- Time since the real-time counter took the value c, in ns, where it has taken it less than 2^47 ticks ago. -/
def State.sinceTick (s : State) (c : Nat) : Option Nat :=
  let d := (s.rtc + 2 ^ 48 - c) % 2 ^ 48
  if d < 2 ^ 47 then some ((d * 1000000000 + s.rtcAcc) / 32768) else none

/-- The next real-time tick after a correlation request has come: its counter value and its full time at the Kykel die, the link delay
taken off, are latched (R332). -/
def execCorrelationLatch (s : State) : Host.Outcome State Fault Refusal :=
  .next (match s.tsy.corr with
  | none => s
  | some c =>
    match s.sinceTick c with
    | none => s
    | some d =>
      let s := (s.wr Reg.TSY_KRTC_LO (BitVec.ofNat 32 c)).wr Reg.TSY_KRTC_HI (BitVec.ofNat 32 (c / 2 ^ 32 % 0x10000))
      let s := (s.loadTime Reg.TSY_KC_NS ((s.tsy.full + fullWrap - d % fullWrap) % fullWrap)).wb Reg.TSY_KCSTAT 31 true
      ({ s with tsy := { s.tsy with corr := none } }).ist Reg.pgTSY 8)

end Sys2Proof.Machine
end

