-- ==== Sys2Proof/Machine/Tpe.lean ====
section
/-! DEFINITION. The transport protocol engine (07_isobus_services.md R217-R226, R228): openings and refusals, reassembly in
the DRAM pool, violations, delivery to relays, the host, CAN segments and Bramble streams, and the supervised times. -/
namespace Sys2Proof.Machine

/-! Messages in the pool (R221). -/

/-- The first k page numbers of a pool of n pages from base b on that are not used, searched from page p. -/
def freePages (used : List Nat) (b n : Nat) : Nat → Nat → Nat → List Nat
  | 0, _, _ => []
  | fuel + 1, k, p =>
    if k = 0 ∨ n ≤ p then []
    else if nsMem used (b + p) then freePages used b n fuel k (p + 1)
    else (b + p) :: freePages used b n fuel (k - 1) (p + 1)

/-- Pages of a message of n bytes. -/
def tpePages (n : Nat) : Nat := (n + 4095) / 4096

/-- The DRAM address of byte x of a session's message. -/
def TpeSession.addr (t : TpeSession) (x : Nat) : Nat := (match t.pages[x / 4096]? with | some p => p | none => 0) * 4096 + x % 4096

/-- k bytes of a session's message from byte x on. -/
def State.tpeBytes (s : State) (t : TpeSession) (x k : Nat) : List Byte :=
  (List.range k).map (fun i => memRd s.dram (t.addr (x + i)))

/-- Store bytes of a session's message from byte x on, inside its size. -/
def State.tpeStore (s : State) (t : TpeSession) : Nat → List Byte → State
  | _, [] => s
  | x, b :: r => if x < t.size then ({ s with dram := memWr s.dram (t.addr x) b }).tpeStore t (x + 1) r else s

/-- Packets of a message. -/
def TpeSession.npk (t : TpeSession) : Nat := (t.size + 6) / 7

/-- The session is an ETP session. -/
def TpeSession.etp (t : TpeSession) : Bool := t.kind == 2

/-- Packet number k of the message: its sequence number and 7 bytes, 0xFF beyond the end. -/
def State.tpePacket (s : State) (t : TpeSession) (seq k : Nat) : List Byte :=
  let n := min 7 (t.size - 7 * (k - 1))
  BitVec.ofNat 8 seq :: (s.tpeBytes t (7 * (k - 1)) n ++ List.replicate (7 - n) 0xFF)

/-! Lookups. -/

/-- The session of a key (R217). -/
def State.tpeKey (s : State) (g sa da : Nat) : Option (Nat × TpeSession) :=
  s.tpe.ses.find? (fun p => p.2.seg == g && p.2.sa == sa && p.2.da == da)

/-- The session whose ingress part a frame of protocol etp from sa to da on segment g belongs to. -/
def State.tpeIngress (s : State) (etp : Bool) (g sa da : Nat) : Option (Nat × TpeSession) :=
  (s.tpeKey g sa da).filter (fun p => p.2.etp == etp && !p.2.delivering)

/-- A relay part that receives frames of protocol etp from sa to da on segment g. -/
def TpeSession.relayPart (t : TpeSession) (etp : Bool) (g sa da : Nat) : Option TpePart :=
  if t.etp == etp && t.delivering then
    t.parts.find? (fun q => q.wait != .start && (match q.dest with
      | .relay n a d => n == g && a == da && d == sa
      | _ => false))
  else none

/-- The session and relay part that receive a frame. -/
def State.tpeRelay (s : State) (etp : Bool) (g sa da : Nat) : Option (Nat × TpeSession × TpePart) :=
  s.tpe.ses.findSome? (fun p => (p.2.relayPart etp g sa da).map (fun q => (p.1, p.2, q)))

/-! Frames of the engine (R220). -/

/-- An engine frame from sa to da. -/
def tpeFrame (pf da sa : Nat) (data : List Byte) : CanFrame := ccFrame (tpeId pf da sa) data

/-- The engine asks for the next window (R220): the CTS is formed, T2 starts. -/
def State.tpeCts (s : State) (i : Nat) (t : TpeSession) : State :=
  let c := max 1 (s.rf Reg.TPE_CTL 23 16)
  let n := min (min c (if t.etp then 255 else max 1 t.ctsM)) (t.npk - t.got)
  let nx := t.got + 1
  let d := (if t.etp then [0x15, BitVec.ofNat 8 n] ++ leBytes 3 nx
    else [0x11, BitVec.ofNat 8 n, BitVec.ofNat 8 nx, 0xFF, 0xFF]) ++ leBytes 3 t.pgn
  let s := (s.tpeForm t.seg (tpeFrame (cmPf t.etp) t.sa t.da d) .other).1
  s.setSes i { t with winStart := nx, winEnd := t.got + n, dpo := none, any := false, since := s.now }

/-- The End of Message Acknowledgement (R220). -/
def State.tpeEoma (s : State) (t : TpeSession) : State :=
  let d := (if t.etp then 0x17 :: leBytes 4 t.size
    else [0x13] ++ leBytes 2 t.size ++ [BitVec.ofNat 8 t.npk, 0xFF]) ++ leBytes 3 t.pgn
  (s.tpeForm t.seg (tpeFrame (cmPf t.etp) t.sa t.da d) .other).1

/-- Update a part of session i. -/
def State.setPart (s : State) (i : Nat) (q : TpePart) : State :=
  match s.ses i with
  | none => s
  | some t => s.setSes i { t with parts := t.parts.map (fun r => if r.id = q.id then q else r) }

/-- Form the frames of part p of session i toward CANCn in order, the last one final; a dropped copy ends the part (R223). -/
def State.tpeSendAll (s : State) (i p n : Nat) : List CanFrame → State
  | [] => s
  | f :: rest =>
    let (s, ok) := s.tpeForm n f (.tpe i p rest.isEmpty)
    if ok then s.tpeSendAll i p n rest else s.partFail i p

/-- Form tunnel copies of part p into stream t with can_bus_id g (R222). -/
def State.tpeTunAll (s : State) (i p str g : Nat) : List CanFrame → State
  | [] => s
  | f :: rest =>
    let c := { s.mkFormed 0 (s.rf Reg.TPE_CTL 15 14) f (.tpe i p rest.isEmpty) (s.deadlineOf s.epoch s.now 0) false with
      eg := .tun str, src := g, sec := .none }
    let j : Job := ⟨srcFormed, false, f, 0, s.tsy.full, s.now, s.tsy.full, none, none⟩
    let s := { s with prv := { s.prv with
      nextJob := s.prv.nextJob + 1
      slots := amPut s.prv.slots s.prv.nextJob ⟨j, s.epoch, .routed, [c], false, true⟩
      cells := amPut s.prv.cells s.prv.nextJob ⟨cellsOf f.data.length, false, 1⟩ } }
    s.tpeTunAll i p str g rest

/-- Packets first … first + n − 1, numbered from seq on, from sa to da. -/
def State.tpePackets (s : State) (t : TpeSession) (sa da first n seq : Nat) : List CanFrame :=
  (List.range n).map (fun k => tpeFrame (dtPf t.etp) da sa (s.tpePacket t (seq + k) (first + k)))

/-- The BAM of a message sent under sa. -/
def tpeBam (t : TpeSession) (sa : Nat) : CanFrame :=
  tpeFrame 0xEC 0xFF sa ([0x20] ++ leBytes 2 t.size ++ [BitVec.ofNat 8 t.npk, 0xFF] ++ leBytes 3 t.pgn)

/-- The RTS of a relayed message. -/
def tpeRts (t : TpeSession) (sa da : Nat) : CanFrame :=
  tpeFrame (cmPf t.etp) da sa ((if t.etp then 0x14 :: leBytes 4 t.size
    else [0x10] ++ leBytes 2 t.size ++ [BitVec.ofNat 8 t.npk, 0xFF]) ++ leBytes 3 t.pgn)

/-- The item words of a transport message (R399). -/
def tpeItem (t : TpeSession) : List Word :=
  [BitVec.ofNat 32 t.stamp, BitVec.ofNat 32 (t.seg * 2 ^ 24),
   BitVec.ofNat 32 (t.sa * 2 ^ 24 + t.da * 2 ^ 16) ||| BitVec.ofNat 32 (t.pgn % 2 ^ 18), BitVec.ofNat 32 t.size, 0, 0]

/-- Start the delivery of one part (R222). -/
def State.tpeStartPart (s : State) (i : Nat) (t : TpeSession) (q : TpePart) : State :=
  match q.dest with
  | .relay n sa da => s.tpeSendAll i q.id n [tpeRts t sa da]
  | .host h =>
    let (s, ok) := s.rxOffer h 2 (tpeItem t) (s.tpeBytes t 0 t.size)
    if ok then s.partEnd i q.id true else s.partFail i q.id
  | .bamCan n sa => s.tpeSendAll i q.id n [tpeBam t sa]
  | .bamTun str => s.tpeTunAll i q.id str t.seg (tpeBam t t.sa :: s.tpePackets t t.sa 0xFF 1 t.npk 1)

/-- Reassembly is complete: the delivery parts start; a session without one ends (R222). -/
def State.tpeDeliver (s : State) (i : Nat) (t : TpeSession) : State :=
  let t := { t with delivering := true }
  if t.parts.isEmpty then s.sesEnd i
  else t.parts.foldl (fun u q => u.tpeStartPart i t q) (s.setSes i t)

/-! Openings (R218, R219). -/

/-- A job the engine does not act on (R217, R225). -/
def State.tpeIgn (s : State) : State := s.bump Reg.TPE_IGN 1 6

/-- An opening is refused (R219). -/
def State.tpeRefused (s : State) : State := (s.bump Reg.TPE_REFUSED 1 6).ist Reg.pgTPE 0

/-- Where an RTS to address da on segment g goes (R218); epoch e. -/
inductive TpeWhere
  | nowhere
  | relay (name : Nat)
  | host
  deriving DecidableEq, Repr

/-- The row of R218 an RTS meets. -/
def State.tpeWhere (s : State) (e g da : Nat) : TpeWhere :=
  match (s.clmXl e g).find? (fun i => s.clmSa i == da && (s.clmType i == 1 || s.clmType i == 2)) with
  | none => .nowhere
  | some i => if s.clmType i = 1 then .relay (s.clmName i) else .host

/-- The segment and address of the NATIVE CLAIMED entry of a NAME (R218). -/
def State.tpeNative (s : State) (e name : Nat) : Option (Nat × Nat) :=
  (List.range 24).findSome? (fun n =>
    ((s.clmXl e n).find? (fun i => s.clmType i == 0 && s.clmName i == name)).map (fun i => (n, s.clmSa i)))

/-- The relay destination of an RTS from sa on g to the control function name (R218); none: the last row of R219. -/
def State.tpeRelayDest (s : State) (e g sa name : Nat) : Option TpeDest :=
  match s.nameAt e g sa, s.tpeNative e name with
  | some o, some (n, a) => (s.addrOf e n o).map (fun x => .relay n x a)
  | _, _ => none

/-- Number the parts of a new session. -/
def numParts (k : Nat) (now : Nat) : List TpeDest → List TpePart
  | [] => []
  | d :: r => ⟨k, d, 0, 0, .start, now⟩ :: numParts (k + 1) now r

/-- The lowest free session index. -/
def State.tpeFreeIx (s : State) : Option Nat := (List.range 128).find? (fun i => (amGet s.tpe.ses i).isNone)

/-- The reason an opening is refused (R219, R226), in the order of the table; key: a session of this key is open. -/
def State.tpeReason (s : State) (key : Bool) (sizeOk : Bool) (size : Nat) (destOk : Bool) : Option Nat :=
  if 128 ≤ s.tpe.ses.length then some 1
  else if key then some 1
  else if !sizeOk then some 2
  else if decide (s.tpeFree < tpePages size) || s.tpe.next.isSome then some 2
  else if !destOk then some 2
  else none

/-- Open a session in the lowest free index; failed: a part did not start. -/
def State.tpeOpen (s : State) (t : TpeSession) (ds : List TpeDest) : State :=
  match s.tpeFreeIx with
  | none => s
  | some i =>
    let used := s.tpeUsed
    let n := tpePages t.size
    let t := { t with
      pages := freePages used (s.tpe.pool.1 * 256) (s.tpe.pool.2 * 256) (n + used.length) n 0
      parts := numParts s.tpe.nextPart s.now ds }
    let s := { s with tpe := { s.tpe with nextPart := s.tpe.nextPart + ds.length } }
    let s := (s.setSes i t).bump Reg.TPE_OPENED 1 6
    let s := s.wf Reg.TPE_STAT 15 8 (max (s.rf Reg.TPE_STAT 15 8) s.tpe.ses.length)
    if t.kind = 1 then s else s.tpeCts i t

/-- The TP size rule of R219. -/
def tpSizeOk (size cnt : Nat) : Bool := decide (9 ≤ size) && decide (size ≤ 1785) && cnt == (size + 6) / 7

/-- The ETP size rule of R219. -/
def etpSizeOk (size : Nat) : Bool := decide (1786 ≤ size) && decide (size ≤ 117440505)

/-- A job's PF, DA, SA and control byte. -/
def jPf (j : Job) : Nat := nfld j.frame.ident 23 16
def jDa (j : Job) : Nat := nfld j.frame.ident 15 8
def jSa (j : Job) : Nat := nfld j.frame.ident 7 0
def jCb (j : Job) : Nat := byteAt j.frame.data 0

/-- The job is connection management, ETP when true (R217). -/
def jCm (j : Job) : Option Bool := if jPf j = 0xEC then some false else if jPf j = 0xC8 then some true else none

/-- The job is connection management with control byte tp in TP or etp in ETP. -/
def jIs (j : Job) (tp etp : Nat) : Bool :=
  match jCm j with
  | some false => jCb j == tp
  | some true => jCb j == etp
  | none => false

/-- A request to send (R218, R219). -/
def State.tpeRtsIn (s : State) (h : Handoff) : State :=
  let j := h.job
  let etp := jPf j == 0xC8
  let g := j.src
  let sa := jSa j
  let da := jDa j
  let d := j.frame.data
  let size := if etp then leAt d 1 4 else leAt d 1 2
  let pgn := leAt d 5 3
  match (if s.standby then .nowhere else s.tpeWhere h.epoch g da) with
  | .nowhere => s.tpeIgn
  | w =>
    let dest := match w with
      | .relay name => s.tpeRelayDest h.epoch g sa name
      | _ => some (.host (fld (s.cfg h.epoch Reg.TPE_CTL) 13 8))
    let sizeOk := if etp then etpSizeOk size else tpSizeOk size (byteAt d 3)
    match s.tpeReason (s.tpeKey g sa da).isSome sizeOk size dest.isSome with
    | some r => s.tpeRefused.tpeAbort etp g da sa pgn r
    | none =>
      s.tpeOpen
        { kind := if etp then 2 else 0, hostd := w == .host, seg := g, sa := sa, da := da, pgn := pgn, size := size,
          stamp := j.stamp, pages := [], got := 0, winStart := 1, winEnd := 0, dpo := none, ctsM := byteAt d 4, any := false,
          since := s.now, delivering := false, failed := false, parts := [] } dest.toList

/-- A BAM session is discarded (R219, R224, R225). -/
def State.bamDisc (s : State) (i : Nat) : State := (s.bump Reg.TPE_BAMDISC 1 6).sesEnd i

/-- The destinations of a BAM on segment g (R222): a translated part whose lookup fails does not start; the flag says
that one did not. -/
def State.bamDests (s : State) (e g sa : Nat) : List TpeDest × Nat :=
  let w := s.cfg e (Reg.TPE_BAM g)
  let ns := (setBits (fld w 23 0) 24).filter (· != g)
  let xl := s.cfg e Reg.TPE_BAMXL
  let cans := ns.map (fun n => if bitOf xl n then (s.xlAddr e g n sa).map (TpeDest.bamCan n) else some (TpeDest.bamCan n sa))
  (cans.filterMap id ++ (if bitOf w 30 then [.bamTun (fld w 29 24)] else [])
    ++ (if bitOf w 31 then [.host (fld (s.cfg e Reg.TPE_CTL) 13 8)] else []), (cans.filter Option.isNone).length)

/-- A broadcast announce (R218, R219). -/
def State.tpeBamIn (s : State) (h : Handoff) : State :=
  let j := h.job
  let g := j.src
  let sa := jSa j
  let d := j.frame.data
  let size := leAt d 1 2
  let (ds, bad) := s.bamDests h.epoch g sa
  if s.standby || jDa j != 0xFF || (ds.isEmpty && bad == 0) then s.tpeIgn
  else
    let s := match s.tpeKey g sa 0xFF with
      | some (i, _) => s.bamDisc i
      | none => s
    match s.tpeReason false (tpSizeOk size (byteAt d 3)) size true with
    | some _ => s.tpeRefused
    | none =>
      (s.bump Reg.TPE_EGFAIL bad 6).tpeOpen
        { kind := 1, hostd := false, seg := g, sa := sa, da := 0xFF, pgn := leAt d 5 3, size := size, stamp := j.stamp,
          pages := [], got := 0, winStart := 1, winEnd := (size + 6) / 7, dpo := none, ctsM := 255, any := true, since := s.now,
          delivering := false, failed := decide (bad ≠ 0), parts := [] } ds

/-! Data packets (R220, R225). -/

/-- The engine aborts the ingress part: the whole session ends (R225). -/
def State.tpeAbortIn (s : State) (i : Nat) (t : TpeSession) (r : Nat) : State :=
  (s.tpeAbort t.etp t.seg t.da t.sa t.pgn r).sesEnd i

/-- The next packet is taken into the message. -/
def State.tpeTake (s : State) (i : Nat) (t : TpeSession) (d : List Byte) : State :=
  let s := s.tpeStore t (7 * t.got) (d.drop 1)
  let t := { t with got := t.got + 1, any := true, since := s.now }
  if t.npk ≤ t.got then
    if t.kind = 1 then s.tpeDeliver i t else (s.tpeEoma t).tpeDeliver i t
  else if t.kind ≠ 1 ∧ t.winEnd ≤ t.got then s.tpeCts i t
  else s.setSes i t

/-- The rows of R225 for a packet of sequence number q of an RTS session: base, the packets before the numbering in force,
and lim, the highest number requested. -/
def packetFault (q got lim : Nat) : Option Nat :=
  if lim < q then some 6 else if q = got + 1 then none else if 1 ≤ q ∧ q ≤ got then some 8 else some 7

/-- A data packet (R225). -/
def State.tpeDt (s : State) (j : Job) : State :=
  let etp := jPf j == 0xC7
  let q := jCb j
  match s.tpeIngress etp j.src (jSa j) (jDa j) with
  | none => s.tpeIgn
  | some (i, t) =>
    if t.kind = 1 then
      if q = t.got + 1 then s.tpeTake i t j.frame.data else s.bamDisc i
    else
      let flt := if t.etp then
          match t.dpo with
          | none => some 6
          | some (off, n) => packetFault q (t.got - off) n
        else packetFault q t.got t.winEnd
      match flt with
      | some r => s.tpeAbortIn i t r
      | none => s.tpeTake i t j.frame.data

/-- An ETP data packet offset, checked against the last CTS (R220, R225). -/
def State.tpeDpo (s : State) (j : Job) : State :=
  let n := byteAt j.frame.data 1
  let off := leAt j.frame.data 2 3
  match s.tpeIngress true j.src (jSa j) (jDa j) with
  | none => s.tpeIgn
  | some (i, t) =>
    if off + 1 = t.winStart ∧ t.got = off ∧ 1 ≤ n ∧ off + n ≤ t.winEnd then
      s.setSes i { t with dpo := some (off, n), winEnd := off + n }
    else s.tpeAbortIn i t 6

/-! Relay parts (R222-R225). -/

/-- A clear to send (R222, R224, R225). -/
def State.tpeCtsIn (s : State) (j : Job) : State :=
  let etp := jPf j == 0xC8
  match s.tpeRelay etp j.src (jSa j) (jDa j) with
  | none => s.tpeIgn
  | some (i, t, q) =>
    let n := byteAt j.frame.data 1
    let k := if etp then leAt j.frame.data 2 3 else byteAt j.frame.data 2
    match q.dest with
    | .relay g sa da =>
      if q.wait = .window then (s.tpeAbort etp g sa da t.pgn 4).partEnd i q.id false
      else if n = 0 then s.setPart i { q with wait := .ctsHold, since := s.now }
      else if k = 0 ∨ t.npk < k then s.tpeIgn
      else
        let n := min n (t.npk + 1 - k)
        let s := s.setPart i { q with wait := .window, sent := k + n - 1, winEnd := k + n - 1 }
        let dpo := if etp then
            [tpeFrame 0xC8 da sa ([0x16, BitVec.ofNat 8 n] ++ leBytes 3 (k - 1) ++ leBytes 3 t.pgn)] else []
        s.tpeSendAll i q.id g (dpo ++ s.tpePackets t sa da k n (if etp then 1 else k))
    | _ => s

/-- An Abort received on a part (R225). -/
def State.tpeAbortRx (s : State) (j : Job) : State :=
  let s := (s.bump Reg.TPE_ABRX 1 6).ist Reg.pgTPE 1
  s.wr Reg.TPE_LASTAB (BitVec.ofNat 32
    (2 ^ 31 + 2 ^ 30 + j.src * 2 ^ 24 + byteAt j.frame.data 1 * 2 ^ 16 + jSa j * 2 ^ 8 + jDa j))

/-- A connection abort (R225). -/
def State.tpeAbortFrame (s : State) (j : Job) : State :=
  let etp := jPf j == 0xC8
  match s.tpeIngress etp j.src (jSa j) (jDa j) with
  | some (i, _) => (s.tpeAbortRx j).sesEnd i
  | none =>
    match s.tpeRelay etp j.src (jSa j) (jDa j) with
    | some (i, _, q) => (s.tpeAbortRx j).partEnd i q.id false
    | none => s.tpeIgn

/-! The commands. -/

/-- Take the oldest job handed to the engine, where it satisfies p. -/
def State.tpeFront (s : State) (p : Job → Bool) (f : Handoff → State → State) : State :=
  match s.prv.tpeQ with
  | [] => s
  | h :: rest => if p h.job then (f h { s with prv := { s.prv with tpeQ := rest } }).routeWaiting else s

/-- The control bytes of R218 and R225 that are not openings. -/
def jKnown (j : Job) : Bool :=
  jIs j 16 20 || jIs j 32 256 || jIs j 17 21 || jIs j 19 23 || jIs j 256 22 || jIs j 255 255 || (jCm j).isNone

/-- TP_CM_RTS (R218, R219); a connection-management frame of an unknown control byte is ignored with it (R217). -/
def execTpCmRts (s : State) : Host.Outcome State Fault Refusal :=
  .next (s.tpeFront (fun j => jIs j 16 20 || !jKnown j) (fun h t => if jIs h.job 16 20 then t.tpeRtsIn h else t.tpeIgn))

/-- TP_CM_BAM (R218, R219). -/
def execTpCmBam (s : State) : Host.Outcome State Fault Refusal :=
  .next (s.tpeFront (fun j => jIs j 32 256) (fun h t => t.tpeBamIn h))

/-- TP_DT (R220, R225); in SAVE its DRAM write waits (R430). -/
def execTpDt (s : State) : Host.Outcome State Fault Refusal :=
  .next (if s.inSave then s else s.tpeFront (fun j => (jCm j).isNone) (fun h t => t.tpeDt h.job))

/-- ETP_CM_DPO (R220). -/
def execEtpCmDpo (s : State) : Host.Outcome State Fault Refusal :=
  .next (s.tpeFront (fun j => jIs j 256 22) (fun h t => t.tpeDpo h.job))

/-- TP_CM_CTS (R222). -/
def execTpCmCts (s : State) : Host.Outcome State Fault Refusal :=
  .next (s.tpeFront (fun j => jIs j 17 21) (fun h t => t.tpeCtsIn h.job))

/-- TP_CM_EOMA (R222): the relay part is delivered. -/
def execTpCmEoma (s : State) : Host.Outcome State Fault Refusal :=
  .next (s.tpeFront (fun j => jIs j 19 23) (fun h t =>
    match t.tpeRelay (jPf h.job == 0xC8) h.job.src (jSa h.job) (jDa h.job) with
    | none => t.tpeIgn
    | some (i, _, q) => t.partEnd i q.id true))

/-- CONN_ABORT (R225). -/
def execConnAbort (s : State) : Host.Outcome State Fault Refusal :=
  .next (s.tpeFront (fun j => jIs j 255 255) (fun h t => t.tpeAbortFrame h.job))

/-- A supervised time has expired (R224). -/
def State.tpeTmo (s : State) : State := (s.bump Reg.TPE_TMO 1 6).ist Reg.pgTPE 3

/-- T1_TIMEOUT (R224). -/
def execT1Timeout (session : Fin 128) (s : State) : Host.Outcome State Fault Refusal :=
  match s.ses session with
  | none => .next s
  | some t =>
    if !t.delivering && t.any && decide (t.since + 750000000 ≤ s.now) then
      .next (if t.kind = 1 then s.tpeTmo.bamDisc session else s.tpeTmo.tpeAbortIn session t 3)
    else .next s

/-- T2_TIMEOUT (R224). -/
def execT2Timeout (session : Fin 128) (s : State) : Host.Outcome State Fault Refusal :=
  match s.ses session with
  | none => .next s
  | some t =>
    if !t.delivering && !t.any && t.kind != 1 && decide (t.since + 1250000000 ≤ s.now) then
      .next (s.tpeTmo.tpeAbortIn session t 3)
    else .next s

/-- Part p of session i whose wait satisfies w since at least lim ns aborts with reason 3 and ends (R224). -/
def State.tpePartTmo (s : State) (i p lim : Nat) (w : TpeWait → Bool) : State :=
  match s.ses i with
  | none => s
  | some t =>
    match t.parts.find? (fun q => q.id == p) with
    | none => s
    | some q =>
      match q.dest with
      | .relay n sa da =>
        if w q.wait && decide (q.since + lim ≤ s.now) then
          (s.tpeTmo.tpeAbort t.etp n sa da t.pgn 3).partEnd i p false
        else s
      | _ => s

/-- T3_TIMEOUT (R224). -/
def execT3Timeout (session : Fin 128) (part : Nat) (s : State) : Host.Outcome State Fault Refusal :=
  .next (s.tpePartTmo session part 1250000000 (fun w => w == .cts || w == .eoma))

/-- T4_TIMEOUT (R224). -/
def execT4Timeout (session : Fin 128) (part : Nat) (s : State) : Host.Outcome State Fault Refusal :=
  .next (s.tpePartTmo session part 1050000000 (fun w => w == .ctsHold))

/-- BAM_PACKET_GAP (R222): the next packet of a BAM part, BAMGAP after the one before. -/
def execBamPacketGap (session : Fin 128) (part : Nat) (s : State) : Host.Outcome State Fault Refusal :=
  match (if s.inSave then none else s.ses session) with
  | none => .next s
  | some t =>
    match t.parts.find? (fun q => q.id == part) with
    | none => .next s
    | some q =>
      match q.dest with
      | .bamCan n sa =>
        if q.wait = .gap ∧ q.since + clampN 50 200 (s.rf Reg.TPE_CTL 31 24) * 1000000 ≤ s.now then
          let k := q.sent + 1
          .next ((s.setPart session { q with sent := k, wait := .window }).tpeSendAll session part n
            (s.tpePackets t sa 0xFF k 1 k))
        else .next s
      | _ => .next s

/-- POOL_CHANGE_EFFECT (R226). -/
def execPoolChangeEffect (s : State) : Host.Outcome State Fault Refusal :=
  match s.tpe.next with
  | none => .next s
  | some p => .next (if s.tpe.ses.isEmpty then { s with tpe := { s.tpe with pool := p, next := none } } else s)

/-- A commit would apply a new TPE_POOL (R226): none where it is not accepted. -/
def poolOf (w : Word) : Option (Nat × Nat) :=
  if fld w 27 16 + fld w 10 0 ≤ 4096 then some (fld w 27 16, fld w 10 0) else none

/-- TPE_SST of a session (R228). -/
def TpeSession.sst (t : TpeSession) : Nat :=
  2 ^ 31 + t.kind * 2 ^ 29 + t.hostd.toNat * 2 ^ 28 + t.delivering.toNat * 2 ^ 27 + t.parts.length * 2 ^ 21 + t.seg * 2 ^ 16
    + t.sa * 2 ^ 8 + t.da

/-- A write of TPE_SIDX latches the state of the session (R228); a session that is not open reads 0. -/
def sidxWrite (s : State) : State :=
  match s.ses (s.rf Reg.TPE_SIDX 6 0) with
  | none => [Reg.TPE_SST, Reg.TPE_SSIZE, Reg.TPE_SRCV, Reg.TPE_SPGN].foldl (fun u a => u.wr a 0) s
  | some t =>
    (((s.wr Reg.TPE_SST (BitVec.ofNat 32 t.sst)).wr Reg.TPE_SSIZE (BitVec.ofNat 32 t.size)).wr Reg.TPE_SRCV
      (BitVec.ofNat 32 (min t.size (7 * t.got)))).wr Reg.TPE_SPGN (BitVec.ofNat 32 (t.pgn % 2 ^ 18))

def execSessionLatch (init : Initiator) (v : Word) (s : State) : Host.Outcome State Fault Refusal :=
  .next (s.cmdWrite init Reg.TPE_SIDX v sidxWrite)

end Sys2Proof.Machine
end

