-- ==== Sys2Proof/Machine/Commit.lean ====
section
/-! DEFINITION. Commits (02_register_model.md R55-R60): the request and its refusals, the hold of R22, and the application with the
checks and consequences the chapters give it (R96, R135, R153, R158, R160, R226, R230, R232, R265, R273, R276, R312, R313, R439). -/
namespace Sys2Proof.Machine

/-! The hold (R19, R22). -/

/-- The copy is inside its processing window: it has not been handed to the crypto engine (R19). A secured copy's window ended at that
hand-off. -/
def Copy.inWindow (c : Copy) : Bool := c.sec == .none

/-- A slot holds a job of epoch e's past that is inside its window. -/
def Slot.inWindow (sl : Slot) : Bool := sl.phase == .waitOrder || (sl.phase == .routed && sl.copies.any Copy.inWindow)

/-- A job tagged with an epoch before the current one is inside its processing window (R22). -/
def State.oldJobs (s : State) : Bool :=
  let old := fun (h : Handoff) => h.epoch != s.epoch
  s.prv.slots.any (fun p => p.2.epoch != s.epoch && p.2.inWindow)
    || s.prv.sigQ.any (fun i => match i with
      | .job h => old h
      | .mark _ _ => false)
    || s.prv.tpeQ.any old || s.prv.clmQ.any old

/-! Pages and shadows (R58). -/

/-- Bases of the Yatric pages. -/
def yatricPages : List Nat :=
  (pageRuns.filter (fun r => !r.kykel)).flatMap (fun r => (List.range r.count).map (fun i => r.base + 0x1000 * i))

/-- The pages that a commit of a group mask applies to. -/
def State.commitPages (s : State) (mask : Nat) : List Nat :=
  yatricPages.filter (fun b => nbit mask (s.rf (Reg.PG_CGRP b) 3 0))

/-- The shadow of register a goes into force, where the register is shadowed. -/
def State.copyShadow (s : State) (a : Nat) : State :=
  match rowAt a with
  | none => s
  | some r =>
    if r.acc = .rws then s.wr a (BitVec.ofNat 32 (nmerge (s.rd a).toNat (s.rdSh a).toNat r.wm)) else s

/-- Every shadow of the given pages goes into force; the other registers read their reset word in both sets. -/
def State.copyShadows (s : State) (pages : List Nat) : State :=
  let keys := (s.shadow.map (·.1) ++ s.regs.map (·.1)).filter (fun a => pages.contains (pageBase a) && decide (0x100 ≤ a % 0x1000))
  keys.foldl State.copyShadow s

/-- The word register a would hold after the commit. -/
def State.afterCopy (s : State) (a : Nat) : Word := (s.copyShadow a).rd a

/-- Registers as keep their value of state o in t, and the refusal is reported at PG_IST bit i of page b. -/
def State.keepOld (t o : State) (as : List Nat) (b i : Nat) : State :=
  (as.foldl (fun t a => t.wr a (o.rd a)) t).ist b i

/-! Checks. t: the state with the shadows copied; o: the one before. -/

/-- Windows of the route table (R135): COUNT in [28:16], BASE in [14:0]. -/
def State.chkWin (o t : State) (i : Nat) : State :=
  let a := Reg.PRV_RTE_WIN i
  let w := t.rd a
  if w ≠ o.rd a ∧ (4096 < fld w 28 16 ∨ 32768 < fld w 14 0 + fld w 28 16) then t.keepOld o [a] Reg.pgPRV_RTE 0 else t

/-- EMAC settings (R230). -/
def State.chkEmac (o t : State) (p : Nat) : State :=
  if emacCfgOk p (t.rd (Reg.EMAC_CFG p)) (t.rd (Reg.EMAC_MAXFRM p)) (t.rd (Reg.EMAC_FC p)) then t
  else t.keepOld o [Reg.EMAC_CFG p, Reg.EMAC_MAXFRM p, Reg.EMAC_FC p] (Reg.pgEMAC p) 6

/-- Reserved cells (R265). -/
def State.reserved (t : State) : Nat :=
  8 * ((List.range 18).map (fun p => t.rf (Reg.QMG_QLIM p) 9 0)).sum
    + 16 * (t.rf Reg.QMG_IRSV 9 0 + t.rf Reg.QMG_IRSV 19 10 + t.rf Reg.QMG_IRSV 29 20) + t.rf Reg.QMG_HDRM 15 0

/-- QMG reserves (R265). -/
def State.chkQmg (o t : State) : State :=
  if t.reserved ≤ 45056 then t
  else t.keepOld o (Reg.QMG_IRSV :: Reg.QMG_HDRM :: (List.range 18).map Reg.QMG_QLIM) Reg.pgQMG 6

/-- The highest rate of port p in kb/s (R229). -/
def topRate (p : Nat) : Nat := if p < 4 then 10000000 else if p < 12 then 1000000 else 10000

/-- Idle slopes of port p are accepted (R276). -/
def State.cbsOk (t : State) (p : Nat) : Bool :=
  let cs := setBits (t.rf (Reg.SWC_CBSEN p) 7 0) 8
  let sl := fun (c : Nat) => t.rf (Reg.SWC_ISLOPE p c) 23 0
  cs.all (fun c => decide (1000 ≤ sl c)) && decide ((cs.map sl).sum ≤ topRate p)

/-- CBS settings (R276). -/
def State.chkSwc (o t : State) : State :=
  if (List.range 14).all t.cbsOk then t
  else t.keepOld o ((List.range 14).flatMap (fun p => Reg.SWC_CBSEN p :: (List.range 8).map (Reg.SWC_ISLOPE p))) Reg.pgSWC 0

/-- Port VID (R312). -/
def State.chkPvid (o t : State) (p : Nat) : State :=
  let a := Reg.MACT_PCFG p
  let v := t.rf a 11 0
  if v = 0 ∨ v = 4095 then (t.wf a 11 0 (o.rf a 11 0)).ist Reg.pgMACT 6 else t

/-- SPLIT of the LPM table (R313). -/
def State.chkLpm (o t : State) : State :=
  let v := t.rf Reg.LPM_CTL 27 16
  if v % 4 ≠ 0 ∨ 4096 < v then (t.wf Reg.LPM_CTL 27 16 (o.rf Reg.LPM_CTL 27 16)).ist Reg.pgLPM 3 else t

/-- The pool of the transport protocol engine (R226). -/
def State.chkPool (o t : State) : State :=
  match poolOf (t.rd Reg.TPE_POOL) with
  | none => t.keepOld o [Reg.TPE_POOL] Reg.pgTPE 5
  | some p =>
    if p = t.tpe.pool then { t with tpe := { t.tpe with next := none } }
    else if t.tpe.ses.isEmpty then { t with tpe := { t.tpe with pool := p, next := none } }
    else { t with tpe := { t.tpe with next := some p } }

/-- The Thicket region (R273). -/
def State.chkRegion (o t : State) : State :=
  let w := t.rd Reg.TKT_REGION
  let b := fld w 27 16
  let n := fld w 11 0
  let (pb, pn) := t.tpe.pool
  if 4096 < b + n ∨ 3072 < n ∨ (b < pb + pn ∧ pb < b + n) then t.keepOld o [Reg.TKT_REGION] Reg.pgTKT 2
  else if w = t.sw.region then t.setSw { t.sw with nextRegion := none }
  else if t.tktUsed = 0 then t.setSw { t.sw with region := w, nextRegion := none }
  else t.setSw { t.sw with nextRegion := some w }

/-- The checks of the pages in the commit. -/
def State.commitChecks (o t : State) (pages : List Nat) : State :=
  let on := fun (b : Nat) => pages.contains b
  let t := if on Reg.pgPRV_RTE then ((List.range 24) ++ (List.range 129).map (· + 64)).foldl (fun t i => o.chkWin t i) t else t
  let t := (List.range 14).foldl (fun t p => if on (Reg.pgEMAC p) then o.chkEmac t p else t) t
  let t := if on Reg.pgQMG then o.chkQmg t else t
  let t := if on Reg.pgSWC then o.chkSwc t else t
  let t := if on Reg.pgMACT then (List.range 18).foldl (fun t p => o.chkPvid t p) t else t
  let t := if on Reg.pgLPM then o.chkLpm t else t
  let t := if on Reg.pgTPE then o.chkPool t else t
  if on Reg.pgTKT then o.chkRegion t else t

/-! Consequences. -/

/-- The six registers of R96. -/
def canCfgRegs (n : Nat) : List Nat :=
  [Reg.CANC_MODE n, Reg.CANC_BTN n, Reg.CANC_BTD n, Reg.CANC_TDC n, Reg.CANC_XLCTL n, Reg.CANC_XLPWM n]

/-- A change of a controller's settings waits to be taken into use (R96). -/
def State.canPend (o t : State) (n : Nat) : State :=
  if (canCfgRegs n).any (fun a => o.rd a != t.rd a) then t.setCan n { t.canOf n with cfgPend := true } else t

/-- Transmit stream i loses its aggregate: its settings change, or TXEN or EN becomes 0 (R158). -/
def State.txsChanges (s : State) (i : Nat) : Bool :=
  [Reg.BRM_TXS_W0 i, Reg.BRM_TXS_W1 i, Reg.BRM_TXS_W2 i, Reg.BRM_TXS_W3 i].any (fun a => s.afterCopy a != s.rd a)
    || (bitOf (s.rd Reg.BRM_CTL) 0 && !bitOf (s.afterCopy Reg.BRM_CTL) 0)

/-- The aggregates of R158 are sent before the new settings stand. -/
def State.flushStreams (s : State) : State :=
  (List.range 64).foldl (fun t i => if s.txsChanges i then t.bramFlush i else t) s

/-- Receive stream i: SYNC ends with EN, the silence time starts with it (R160, R162). The end of EN leaves the silence time running, and
its expiry still raises STRTOUT (DESIGN CHOICE, log entry 72). -/
def State.rxsChange (o t : State) (i : Nat) : State :=
  let was := bitOf (o.rd (Reg.BRM_RXS_W2 i)) 31
  let is := bitOf (t.rd (Reg.BRM_RXS_W2 i)) 31
  if was && !is then t.wb (Reg.BRM_RXS_W3 i) 31 false
  else if !was && is then { t with prv := { t.prv with rxAt := amPut t.prv.rxAt i t.now } }
  else t

/-- The set of PWR_SAVECTL in force reaches the Kykel die while the link is UP (R31, R439). -/
def State.saveDeliver (s : State) : State :=
  if !s.linkUp then s
  else
    let v := if s.rb Reg.CHIP_MODE_OVR 3 then s.pwr.setw else s.rf Reg.CHIP_MODE 17 16 != 0 && s.rf Reg.CHIP_MODE 17 16 != 2
    s.wb Reg.PWR_SAVECTL 0 v

/-- CHIP_MODE.APPLIED is the mode in force; MODE = 0x3 is applied as ASSURE and sets MERR (R30). -/
def State.modeCommit (s : State) : State :=
  let m := s.rf Reg.CHIP_MODE 1 0
  if m = 3 then (s.wf Reg.CHIP_MODE 17 16 1).wb Reg.CHIP_MODE 8 true else s.wf Reg.CHIP_MODE 17 16 m

/-- What follows the settings of the pages that were committed. -/
def State.commitAfter (o t : State) (pages : List Nat) : State :=
  let on := fun (b : Nat) => pages.contains b
  let t := (List.range 24).foldl (fun t n => if on (Reg.pgCANC n) then o.canPend t n else t) t
  let t := if on Reg.pgBRM then (List.range 64).foldl (fun t i => o.rxsChange t i) t else t
  let t := if on Reg.pgCHIP then t.modeCommit.cycPrune.saveDeliver else t
  let t := (List.range 14).foldl (fun t p => if on (Reg.pgEMAC p) then t.emacCommit p (o.rd (Reg.EMAC_CFG p)) else t) t
  let t := if on Reg.pgQMG then (List.range 14).foldl (fun t p => t.pauseAsk p) t else t
  if on (Reg.pgEMAC 3) then t.pairCheck else t

/-! Application (R58, R59). -/

/-- PHASE of CHIP_BOOTSTAT, with HOSTOK set in READY, NOIMAGE and LOADMODE (R475). -/
def State.setPhase (s : State) (p : Nat) : State :=
  (s.wf Reg.CHIP_BOOTSTAT 27 24 p).wb Reg.CHIP_BOOTSTAT 31 (decide (3 ≤ p) && decide (p ≤ 5))

/-- The boot's own commit has applied: PHASE = READY, CHIP_BOOTTIME in 10 us since the release, the services start (R468 step 8). -/
def State.bootReady (s : State) : State :=
  if s.boot.stage ≠ 4 then s
  else
    let s := { s with boot := { s.boot with stage := 5 } }
    let s := s.wr Reg.CHIP_BOOTTIME (BitVec.ofNat 32 (capAt 0xFFFF ((s.mono - s.pwr.relAt) / 10000)))
    ((s.setPhase 3).wf Reg.CHIP_BOOTSTAT 29 28 s.boot.plan).mailUnknown

/-- The commit that is pending applies to the pages of its groups as one change. -/
def State.commitApply (s : State) : State :=
  let mask := s.cmt.mask
  let timed := s.rb Reg.CMT_STAT 1
  let late := timed && (s.rb Reg.CMT_STAT 2 || decide (s.cmt.target + 40 < s.tsy.full))
  let pages := s.commitPages mask
  let s := if pages.contains Reg.pgBRM then s.flushStreams else s
  let sq := ((s.rd Reg.CMT_SEQ).toNat + 1) % 2 ^ 32
  let t := { s.copyShadows pages with prev := s.regs }
  let t := t.wr Reg.CMT_SEQ (BitVec.ofNat 32 sq)
  let t := pages.foldl (fun t b => t.wr (Reg.PG_CSTAT b) (BitVec.ofNat 32 (sq % 65536))) t
  let t := s.commitChecks t pages
  let t := s.commitAfter t pages
  let t := (t.wr Reg.CMT_LAST_GRP (BitVec.ofNat 32 mask)).loadTime Reg.CMT_LAST_NS t.tsy.full
  let t := ((t.wf Reg.CMT_STAT 2 0 0).wf Reg.CMT_STAT 13 12 s.cmt.src).wb Reg.CMT_TCTL 0 false
  let t := t.ist Reg.pgCMT 0
  let t := if late then (t.wb Reg.CMT_STAT 8 true).ist Reg.pgCMT 1 else t
  let t := t.trace 8 0 (beBytes 4 sq ++ beBytes 2 mask ++ [BitVec.ofNat 8 s.cmt.src])
  t.bootReady

/-- A commit whose instant has come applies, or is held (R22). -/
def State.commitDue (s : State) : State := if s.oldJobs then s.wb Reg.CMT_STAT 2 true else s.commitApply

/-- A refusal: a bit of CMT_STAT and PG_IST.REFUSED. -/
def State.commitRefuse (s : State) (bit : Nat) : State := (s.wb Reg.CMT_STAT bit true).ist Reg.pgCMT 2

/-- The target time in the CMT_TIME registers. -/
def State.commitTarget (s : State) : Nat :=
  ((s.rd Reg.CMT_TIME_SL).toNat + s.rf Reg.CMT_TIME_SH 15 0 * 2 ^ 32) * 1000000000 + (s.rd Reg.CMT_TIME_NS).toNat

/-- A commit is requested (R55-R57). -/
def State.commitRequest (s : State) (init : Initiator) (timed : Bool) : State :=
  let mask := s.rf Reg.CMT_ARM 15 0
  if s.rb Reg.CMT_STAT 0 then s.commitRefuse 9
  else if mask = 0 then s.commitRefuse 10
  else if timed ∧ 999999999 < (s.rd Reg.CMT_TIME_NS).toNat then s.commitRefuse 11
  else
    let src := 2 * timed.toNat + (init == .laurel).toNat
    let s := { s with cmt := ⟨mask, s.commitTarget, src⟩ }
    let s := s.wf Reg.CMT_STAT 2 0 (1 + 2 * timed.toNat)
    if timed then
      let s := s.wb Reg.CMT_TCTL 0 true
      if s.cmt.target ≤ s.tsy.full then s.commitDue else s
    else s.commitDue

/-- A write of CMT_GO. -/
def cmtGoWrite (init : Initiator) (v : Word) (s : State) : State := if bitOf v 0 then s.commitRequest init false else s

/-- CANCEL withdraws the timed commit whose instant has not arrived, a held one included (log entry 37). -/
def State.commitCancel (s : State) : State :=
  if s.rb Reg.CMT_STAT 0 && s.rb Reg.CMT_STAT 1 && (s.rb Reg.CMT_STAT 2 || decide (s.tsy.full < s.cmt.target)) then
    (s.wf Reg.CMT_STAT 2 0 0).wb Reg.CMT_TCTL 0 false
  else s

/-- A write of CMT_TCTL: CANCEL first, then ARM (R57). -/
def cmtTctlWrite (init : Initiator) (v : Word) (s : State) : State :=
  let s := if bitOf v 1 then s.commitCancel else s
  if bitOf v 0 then s.commitRequest init true else s

def execCommitImmediateRequest (init : Initiator) (v : Word) (s : State) : Host.Outcome State Fault Refusal :=
  .next (s.cmdWrite init Reg.CMT_GO v (cmtGoWrite init v))

def execTimedCommitArm (init : Initiator) (v : Word) (s : State) : Host.Outcome State Fault Refusal :=
  .next (s.cmdWrite init Reg.CMT_TCTL v (cmtTctlWrite init v))

def execTimedCommitCancel (init : Initiator) (v : Word) (s : State) : Host.Outcome State Fault Refusal :=
  .next (s.cmdWrite init Reg.CMT_TCTL v (cmtTctlWrite init v))

/-- TIMED_COMMIT_DUE (R57): full time is at or after the target. -/
def execTimedCommitDue (s : State) : Host.Outcome State Fault Refusal :=
  .next (if s.rb Reg.CMT_STAT 0 && s.rb Reg.CMT_STAT 1 && decide (s.cmt.target ≤ s.tsy.full) then s.commitDue else s)

/-- COMMIT_APPLY (R22, R58): the hold of a pending commit has ended. -/
def execCommitApply (s : State) : Host.Outcome State Fault Refusal :=
  .next (if s.rb Reg.CMT_STAT 0 && s.rb Reg.CMT_STAT 2 && !s.oldJobs then s.commitApply else s)

end Sys2Proof.Machine
end

