-- ==== Sys2Proof/Machine/Apply.lean ====
section
/-! DEFINITION. What a write of a register does beyond its access code, page by page: the one dispatcher that a write of any
initiator, over PCIe, by Laurel, by a DMA channel or over the bridge, goes through. -/
namespace Sys2Proof.Machine

/-! The special registers of each page. o: page offset; each gives v's effect after the store of the access code. -/

/-- A bit-0 counter clear of the registers as. -/
def clr0 (v : Word) (as : List Nat) (s : State) : State := if bitOf v 0 then s.clear as else s

/-- Addresses a, a + 4, ... of k registers. -/
def regsFrom (a k : Nat) : List Nat := (List.range k).map (fun i => a + 4 * i)

/-- CHIP. -/
def effChip (i : Initiator) (o : Nat) (v : Word) (s : State) : State :=
  if o = 0x180 then rstctlWrite i v s else if o = 0x198 then wdkickWrite i v s else s

/-- CMT. -/
def effCmt (i : Initiator) (o : Nat) (v : Word) (s : State) : State :=
  if o = 0x104 then cmtGoWrite i v s else if o = 0x114 then cmtTctlWrite i v s else s

/-- ERR_CLR (R54). -/
def errClrWrite (v : Word) (s : State) : State := if bitOf v 0 then s.wb Reg.ERR_FIRST_INFO 31 false else s

/-- ERR. -/
def effErr (o : Nat) (v : Word) (s : State) : State := if o = 0x11C then errClrWrite v s else s

/-- OBS. -/
def effObs (o : Nat) (v : Word) (s : State) : State :=
  if o = 0x100 then obsCtlWrite s else if o = 0x128 then obsCclrWrite v s else s

/-- PAIR. -/
def effPair (o : Nat) (v : Word) (s : State) : State :=
  if o = 0x100 then pairCtlWrite s else if o = 0x108 then pairCmdWrite v s else if o = 0x124 then pairCclrWrite v s else s

/-- LRL. -/
def effLrl (o : Nat) (v : Word) (s : State) : State :=
  if o = 0x10 then lrlIstWrite s
  else if o = 0x108 then doorbellWrite v s
  else if o = 0x10C then rspackWrite v s
  else if 0x140 ≤ o ∧ o < 0x180 then reqWrite s
  else s

/-- CANCn_CNTCLR: bit k clears the counter at 0x140 + 4k (R130). -/
def canCclrWrite (n : Nat) (v : Word) (s : State) : State :=
  s.clear ((setBits v.toNat 16).map (fun k => Reg.CANC_RXOK n + 4 * k))

/-- A write of CANCn_BOFFPOL: Laurel's run of recoveries starts anew when the ownership comes back to it (R487). -/
def boffpolWrite (n : Nat) (s : State) : State :=
  let p := amGetD {} s.lrl.pol n
  let q : BoffPol :=
    if s.rf (Reg.CANC_BOFFPOL n) 1 0 ≠ 1 then { p with gone := true }
    else if p.gone then { p with run := 0, gone := false } else p
  { s with lrl := { s.lrl with pol := amSet {} s.lrl.pol n q } }

/-- CANC. -/
def effCanc (i : Initiator) (n o : Nat) (v : Word) (s : State) : State :=
  if o = 0x11C then boffpolWrite n s
  else if o = 0x120 then recovWrite i n v s
  else if o = 0x138 then txcanWrite n v s
  else if o = 0x180 then canCclrWrite n v s
  else s

/-- PRV_CTL_CNTCLR: every counter of the page, PEAK and LATMAX. -/
def prvCclrWrite (v : Word) (s : State) : State :=
  if bitOf v 0 then
    (s.clear (Reg.PRV_CTL_LATMAX :: Reg.PRV_CTL_NOMATCHO :: Reg.PRV_CTL_MATCHOVF :: (List.range 24).flatMap (fun n =>
      [Reg.PRV_CTL_EDROP_DEADLINE n, Reg.PRV_CTL_EDROP_FORMAT n, Reg.PRV_CTL_EDROP_HOLDFULL n, Reg.PRV_CTL_EDROP_DISABLED n,
       Reg.PRV_CTL_NOMATCH n]))).wr Reg.PRV_CTL_JOBS 0
  else s

/-- PRV_CTL. -/
def effPrvctl (o : Nat) (v : Word) (s : State) : State := if o = 0x668 then prvCclrWrite v s else s

/-- PRV_RTE. -/
def effPrvrte (o : Nat) (v : Word) (s : State) : State :=
  if o = 0x100 then cidxWrite v s else if o = 0x110 then cclrWrite v s else s

/-- PRV_SIG_CNTCLR. -/
def sigCclrWrite (v : Word) (s : State) : State :=
  clr0 v (regsFrom Reg.PRV_SIG_EXTR 6 ++ [Reg.PRV_SIG_LASTSTALE, Reg.PRV_SIG_LASTSAT, Reg.PRV_SIG_LASTLERR]) s

/-- PRV_SIG. -/
def effPrvsig (o : Nat) (v : Word) (s : State) : State :=
  if o = 0x104 then ridxWrite v s else if o = 0x12C then sigCclrWrite v s else s

/-- PRV_PDU. -/
def effPrvpdu (o : Nat) (v : Word) (s : State) : State :=
  if o = 0x104 then pduCidxWrite v s else if o = 0x118 then pduCclrWrite v s else s

/-- BRM_CNTCLR. -/
def brmCclrWrite (v : Word) (s : State) : State :=
  clr0 v (regsFrom Reg.BRM_BADHDR 5 ++ (List.range 64).flatMap (fun i =>
    [Reg.BRM_RXFRM i, Reg.BRM_RXLOST i, Reg.BRM_RXSEQOLD i, Reg.BRM_TXFRM i])) s

/-- BRM. -/
def effBrm (o : Nat) (v : Word) (s : State) : State := if o = 0x124 then brmCclrWrite v s else s

/-- CLM_CNTCLR: every counter of the page, PEAK and CLM_LAST. -/
def clmCclrWrite (v : Word) (s : State) : State :=
  clr0 v (Reg.CLM_OCC :: Reg.CLM_LAST :: regsFrom Reg.CLM_LEARNED 6
    ++ (List.range 24).flatMap (fun n => [Reg.CLM_XLDROP n, Reg.CLM_ISODROP n])) s

/-- CLM. -/
def effClm (o : Nat) (v : Word) (s : State) : State :=
  if o = 0x10C then clmFlushWrite v s
  else if o = 0x110 then clmReqWrite v s
  else if o = 0x138 then clmCclrWrite v s
  else if o = 0x300 then isoStartWrite v s
  else s

/-- TPE_CNTCLR: every counter of the page, PEAK and TPE_LASTAB. -/
def tpeCclrWrite (v : Word) (s : State) : State :=
  clr0 v (Reg.TPE_STAT :: Reg.TPE_LASTAB :: regsFrom Reg.TPE_OPENED 9) s

/-- TPE. -/
def effTpe (o : Nat) (v : Word) (s : State) : State :=
  if o = 0x144 then tpeCclrWrite v s else if o = 0x200 then sidxWrite s else s

/-- EMACp. -/
def effEmac (p o : Nat) (v : Word) (s : State) : State :=
  if o = Reg.EMAC_ANCTL 0 % 0x1000 then anctlWrite p v s else if o = 0x12C then emacCclrWrite p v s else s

/-- SWC. -/
def effSwc (o : Nat) (v : Word) (s : State) : State :=
  if o = 0x108 then iidxWrite s else if o = 0x11C then swcCclrWrite v s else s

/-- QMG. -/
def effQmg (o : Nat) (v : Word) (s : State) : State :=
  if o = 0x114 then qmgFlushWrite v s
  else if o = 0x11C then didxWrite s
  else if o = 0x160 then qmgCclrWrite v s
  else s

/-- TKT. -/
def effTkt (o : Nat) (v : Word) (s : State) : State := if o = 0x12C then clr0 v (regsFrom Reg.TKT_PEAK 4) s else s

/-- POL. -/
def effPol (o : Nat) (v : Word) (s : State) : State :=
  if o = 0x128 then pcmdWrite v s else if o = 0x154 then fcmdWrite v s else if o = 0x15C then polCclrWrite v s else s

/-- MACT. -/
def effMact (o : Nat) (v : Word) (s : State) : State :=
  if o = 0x134 then ocmdWrite v s
  else if o = 0x138 then macFlushWrite v s
  else if o = 0x150 then vcmdWrite v s
  else if o = 0x190 then mactCclrWrite v s
  else s

/-- LPM. -/
def effLpm (o : Nat) (v : Word) (s : State) : State :=
  if o = 0x10C then lpmMoveWrite v s
  else if o = 0x114 then lpmCheckWrite v s
  else if o = 0x130 then clr0 v (regsFrom Reg.LPM_ROUTED 4) s
  else s

/-- TSY. -/
def effTsy (i : Initiator) (o : Nat) (v : Word) (s : State) : State :=
  if o = 0x11C then rateWrite i v s
  else if o = 0x12C then adjWrite i (fld v 1 0) s
  else if o = 0x130 then syncWrite i v s
  else if o = 0x140 then clr0 v (regsFrom Reg.TSY_TCCNT 2) s
  else if 0x200 ≤ o ∧ o < 0x280 ∧ o % 32 = 0x14 then toutWrite ((o - 0x200) / 32) v s
  else if o = 0x340 then kcorrWrite v s
  else if 0x3C0 ≤ o ∧ o < 0x3D0 then tcapWrite ((o - 0x3C0) / 4) v s
  else s

/-- CRY. -/
def effCry (i : Initiator) (o : Nat) (v : Word) (s : State) : State :=
  if o = 0x110 then pipectlWrite v s
  else if o = 0x11C then cryCclrWrite v s
  else if 0x200 ≤ o ∧ o < 0x280 then
    let k := (o - 0x200) / 32
    let r := o % 32
    if r = 0 ∨ r = 4 ∨ r = 8 then rcfgWrite i k s
    else if r = 0x10 then rtailWrite i k v s
    else if r = 0x14 then rctlWrite i k v s
    else s
  else s

/-- MSEC. -/
def effMsec (o : Nat) (v : Word) (s : State) : State :=
  if o = 0x108 then msecPidxWrite s
  else if o = 0x130 then msecCclrWrite v s
  else if o = 0x198 then sccmdWrite v s
  else if o = 0x1C4 then sacmdWrite v s
  else s

/-- CAUTH. -/
def effCauth (o : Nat) (v : Word) (s : State) : State :=
  if o = 0x118 then acmdWrite v s else if o = 0x12C then authFcmdWrite v s else if o = 0x14C then cauthCclrWrite v s else s

/-- YEW. -/
def effYew (o : Nat) (v : Word) (s : State) : State :=
  if o = 0x11C then ucmdWrite v s
  else if o = 0x124 then rekeyWrite v s
  else if o = 0x140 then yewCclrWrite v s
  else if 0x180 ≤ o ∧ o < 0x1D4 then umsgWrite s
  else s

/-- HIF. -/
def effHif (o : Nat) (v : Word) (s : State) : State :=
  if o = 0x108 then eoiWrite v s else if o = 0x130 then hifCclrWrite v s else s

/-- HQ. -/
def effHq (o : Nat) (v : Word) (s : State) : State :=
  if o = 0x118 then qcmdWrite v s
  else if o = 0x11C then qresetWrite v s
  else if 0x200 ≤ o ∧ o < 0x600 ∧ o % 8 = 0 then hqTailWrite ((o - 0x200) / 8) v s
  else s

/-- DMA. -/
def effDma (o : Nat) (v : Word) (s : State) : State :=
  if o = 0x10C then dmaResetWrite 0 32 v s else if o = 0x110 then dmaResetWrite 32 20 v s else s

/-- DMACHn. -/
def effDmach (n o : Nat) (v : Word) (s : State) : State :=
  if o = 0x100 then chctlWrite n v s
  else if o = 0x108 ∨ o = 0x10C ∨ o = 0x110 then chRingWrite n s
  else if o = 0x118 then chTailWrite n v s
  else if o = 0x13C then chCclrWrite n v s
  else s

/-- XPL. -/
def effXpl (i : Initiator) (o : Nat) (v : Word) (s : State) : State :=
  if o = 0x100 then xplCtlWrite v s
  else if o = 0x10C then lockWrite i v s
  else if o = 0x130 then clr0 v (regsFrom Reg.XPL_CRCERR 7) s
  else s

/-- A write of PWR_SAVECTL: SET is kept as written and comes into force where its override is 1 (R31, R439). -/
def savectlWrite (v : Word) (s : State) : State := { s with pwr := { s.pwr with setw := bitOf v 0 } }.saveDeliver

/-- PWR. -/
def effPwr (o : Nat) (v : Word) (s : State) : State :=
  if o = 0x104 then savectlWrite v s else if o = 0x130 then pwrCclrWrite v s else s

/-- WKN: a write of a setting of the sequencer is followed by what depends on it. -/
def effWkn (i : Initiator) (o : Nat) (v : Word) (s : State) : State :=
  if o = 0x108 then sleepWrite i v s
  else if o = 0x10C then holdWrite s
  else if o = 0x110 then wreqWrite v s
  else if o = 0x1B4 then wknCclrWrite v s
  else if 0x100 ≤ o then s.wknSync
  else s

/-- TRXn. -/
def effTrx (n o : Nat) (v : Word) (s : State) : State :=
  if o = 0x100 then (trxctlWrite n s).wknSync else if o = 0x138 then trxCclrWrite n v s else s

/-- T1SPm. -/
def effT1sp (m o : Nat) (v : Word) (s : State) : State :=
  if o = 0x100 then t1spCtlWrite m s
  else if o = 0x104 ∨ o = 0x108 then plcaWrite m s
  else if o = 0x118 then t1spCclrWrite m v s
  else s

/-- TMP. -/
def effTmp (o : Nat) (v : Word) (s : State) : State :=
  if o = 0x100 then (tmpctlWrite v s).wknSync else if o = 0x114 then evclrWrite v s else s

/-- The effect of v written by initiator i at BAR0 address a, by the kind of its page; n is the page's number in its run. -/
def regEffect (i : Initiator) (a : Nat) (v : Word) (s : State) : State :=
  let o := a % 0x1000
  match runOf a with
  | none => s
  | some r =>
    let n := (a - r.base) / 0x1000
    match r.cls with
    | .chip => effChip i o v s
    | .cmt => effCmt i o v s
    | .err => effErr o v s
    | .irq => s
    | .obs => effObs o v s
    | .pair => effPair o v s
    | .lrl => effLrl o v s
    | .canc => effCanc i n o v s
    | .cancx => effCanc i (16 + n) o v s
    | .prvctl => effPrvctl o v s
    | .prvrte => effPrvrte o v s
    | .prvsig => effPrvsig o v s
    | .prvpdu => effPrvpdu o v s
    | .brm => effBrm o v s
    | .clm => effClm o v s
    | .tpe => effTpe o v s
    | .emac => effEmac n o v s
    | .swc => effSwc o v s
    | .qmg => effQmg o v s
    | .tkt => effTkt o v s
    | .pol => effPol o v s
    | .mact => effMact o v s
    | .lpm => effLpm o v s
    | .tsy => effTsy i o v s
    | .cry => effCry i o v s
    | .msec => effMsec o v s
    | .cauth => effCauth o v s
    | .yew => effYew o v s
    | .hif => effHif o v s
    | .hq => effHq o v s
    | .dma => effDma o v s
    | .dmach => effDmach n o v s
    | .xpl => effXpl i o v s
    | .pwr => effPwr o v s
    | .wkn => effWkn i o v s
    | .trx => effTrx n o v s
    | .t1sp => effT1sp n o v s
    | .tmp => effTmp o v s

/-- The register bus as every initiator of the Yatric die sees it: one word to a page of the Yatric die, or over the bridge to a
page of the Kykel die (R43, R51). -/
def State.busWrite (s : State) (i : Initiator) (a : Nat) (v : Word) : State :=
  if isKykel a && (runOf a).isSome then s.bridgeSubmit i true a v else s.pageWrite regEffect i a v

/-- A read of one register. -/
def State.busRead (s : State) (i : Initiator) (a : Nat) : State :=
  if isKykel a && (runOf a).isSome then s.bridgeSubmit i false a 0 else s.pageRead i a

/-- A BAR0 request of several words, without all byte enables or at an unaligned address is a SIZE error (R43). -/
def sizeBad (a words : Nat) (allBytes : Bool) : Bool := words != 1 || !allBytes || a % 4 != 0

end Sys2Proof.Machine
end

