-- ==== Sys2Proof/Machine/Access.lean ====
section
/-! DEFINITION. The register commands of the bus and of BAR2 (R41-R70): every write and read an initiator makes, one command for each
kind of effect the chapters name. -/
namespace Sys2Proof.Machine

/-! BAR0 requests (R43-R47, R51-R54, R58, R61). -/

/-- A request that breaks R43: a SIZE error. A refused write still ends the initiator's unlock of the page (log entry 4). -/
def State.sizeError (s : State) (i : Initiator) (write : Bool) (a : Nat) : State :=
  if s.unreached 0 then s
  else ((if write then s.setUnlock i a false else s).busError i write 0 a cSIZE)

/-- A BAR0 write of any register (R5). -/
def execRegisterWrite (init : Initiator) (off : Nat) (words : Nat) (allBytes : Bool) (v : Word) (s : State) :
    Host.Outcome State Fault Refusal :=
  .next (if sizeBad off words allBytes then s.sizeError init true off else s.busWrite init off v)

/-- A write of an RWS register (R58). -/
def execShadowWrite (init : Initiator) (off : Nat) (v : Word) (s : State) : Host.Outcome State Fault Refusal :=
  .next (if sizeBad off 1 true then s.sizeError init true off else s.busWrite init off v)

/-- A write of PG_UNLK of the page that holds the address page (R61). -/
def execUnlockKeyWrite (init : Initiator) (page : Nat) (v : Word) (s : State) : Host.Outcome State Fault Refusal :=
  .next (s.busWrite init (Reg.PG_UNLK (pageBase page)) v)

/-- A write of an RWG register (R61). -/
def execGuardedWrite (init : Initiator) (off : Nat) (v : Word) (s : State) : Host.Outcome State Fault Refusal :=
  .next (if sizeBad off 1 true then s.sizeError init true off else s.busWrite init off v)

/-- A write of PG_ISET (R47). -/
def execInterruptSet (init : Initiator) (page : Nat) (v : Word) (s : State) : Host.Outcome State Fault Refusal :=
  .next (s.busWrite init (Reg.PG_ISET (pageBase page)) v)

/-- A W1C write of PG_IST (R47). -/
def execInterruptStatusClear (init : Initiator) (page : Nat) (v : Word) (s : State) : Host.Outcome State Fault Refusal :=
  .next (s.busWrite init (Reg.PG_IST (pageBase page)) v)

/-- A BAR0 read; the low word of a 64-bit register latches the high one (R44). -/
def execLowWordReadLatch (init : Initiator) (off : Nat) (words : Nat) (allBytes : Bool) (s : State) :
    Host.Outcome State Fault Refusal :=
  .next (if sizeBad off words allBytes then s.sizeError init false off else s.busRead init off)

/-- A write of the low word of a 64-bit register (R44). -/
def execLowWordWriteHold (init : Initiator) (off : Nat) (v : Word) (s : State) : Host.Outcome State Fault Refusal :=
  .next (if sizeBad off 1 true then s.sizeError init true off else s.busWrite init off v)

/-- A write of the high word of a 64-bit register (R44). -/
def execHighWordWrite (init : Initiator) (off : Nat) (v : Word) (s : State) : Host.Outcome State Fault Refusal :=
  .next (if sizeBad off 1 true then s.sizeError init true off else s.busWrite init off v)

/-- A read of ERR_COUNT clears it (R53). -/
def execErrCountRead (init : Initiator) (s : State) : Host.Outcome State Fault Refusal := .next (s.busRead init Reg.ERR_COUNT)

/-- A read of ERR_LAST_ADDR latches the details (R54). -/
def execErrLastAddrRead (init : Initiator) (s : State) : Host.Outcome State Fault Refusal :=
  .next (s.busRead init Reg.ERR_LAST_ADDR)

/-- A write of ERR_CLR (R54). -/
def execErrClr (init : Initiator) (v : Word) (s : State) : Host.Outcome State Fault Refusal :=
  .next (s.busWrite init Reg.ERR_CLR v)

/-- The offset of the CNTCLR register of a page, where the page has one. -/
def cntclrOff : PageClass → Option Nat
  | .xpl => some 0x130
  | .tkt => some 0x12C
  | .chip => none
  | .cmt => none
  | .err => none
  | .irq => none
  | .lrl => none
  | .hq => none
  | .dma => none
  | .tmp => none
  | .canc => some 0x180
  | .cancx => some 0x180
  | .prvctl => some 0x668
  | .prvrte => some 0x110
  | .brm => some 0x124
  | .prvsig => some 0x12C
  | .prvpdu => some 0x118
  | .clm => some 0x138
  | .tpe => some 0x144
  | .emac => some 0x12C
  | .t1sp => some 0x118
  | .swc => some 0x11C
  | .qmg => some 0x160
  | .pol => some 0x15C
  | .mact => some 0x190
  | .lpm => some 0x130
  | .tsy => some 0x140
  | .cry => some 0x11C
  | .msec => some 0x130
  | .cauth => some 0x14C
  | .yew => some 0x140
  | .hif => some 0x130
  | .dmach => some 0x13C
  | .pwr => some 0x130
  | .wkn => some 0x1B4
  | .trx => some 0x138
  | .pair => some 0x124
  | .obs => some 0x128

/-- A write of the CNTCLR register of the page that holds the address page (R92, R130 and each chapter's page). A page without one
has no such command. -/
def execCounterClear (init : Initiator) (page : Nat) (v : Word) (s : State) : Host.Outcome State Fault Refusal :=
  .next (match runOf page with
    | none => s
    | some r => match cntclrOff r.cls with
      | none => s
      | some o => s.busWrite init (pageBase page + o) v)

/-! BAR2 (R65-R70). -/

/-- The tables of R65: base, end, bytes of an entry. -/
def bar2Tables : List (Nat × Nat × Nat) :=
  [(0x000000, 0x100000, 16), (0x100000, 0x200000, 32), (0x200000, 0x300000, 64), (0x300000, 0x400000, 16),
   (0x400000, 0x420000, 32), (0x420000, 0x428000, 16)]

/-- The table of a BAR2 address. -/
def tableOf (a : Nat) : Option (Nat × Nat × Nat) := bar2Tables.find? (fun t => decide (t.1 ≤ a) && decide (a < t.2.1))

/-- The cause of the bus error of a BAR2 request of n words at a, 0 for none (R51, R67). -/
def bar2Cause (a n : Nat) (allBytes : Bool) : Nat :=
  match tableOf a with
  | none => cTABLE
  | some t => if !allBytes || a % 4 != 0 || n == 0 || decide (16 < n) || decide (t.2.1 < a + 4 * n) then cSIZE else 0

/-- The bits of each word of an entry that its layout names, from the base of its table and its VALID word; a reserved bit is not
stored (R6, R65, R136, R170, R171, R173, R199, R294, R304). A descriptor of KIND 0x2 or 0x3 has no layout and keeps every bit. -/
def entryMasks (base : Nat) (valid : Word) : List Nat :=
  if base = 0x000000 then
    (match fld valid 30 29 with
      | 0 => [0x00FFFFFF, 0x000FFFFF, 0x0001FFFF, 0xEF000000]
      | 1 => [0x7F7FFFFF, 0xFFFFFFFF, 0x000FFFFF, 0xEF03FFFF]
      | _ => [0xFFFFFFFF, 0xFFFFFFFF, 0xFFFFFFFF, 0xFFFFFFFF])
  else if base = 0x100000 then
    [0xFFFFFFFF, 0xFFFFFFFF, 0xFFF0FFFF, 0xFEFFFFFF, 0xFFF0FFFF, 0xFFFFFFFF, 0xFFFFFFFF, 0x800FFF00]
  else if base = 0x200000 then
    [0xFFFFFFFF, 0xFFE00FFF, 0xFFFFFFFF, 0xFFFFFFFF, 0xFFFFF000, 0xFFFF3FFF, 0x003FFFFF, 0xFFFF0000, 0xFFFFFFFF,
     0, 0, 0, 0, 0, 0, 0x800F0000]
  else if base = 0x300000 then [0xFFFFFFFF, 0x0FFFFFFF, 0xEE03FFFF, 0x80000000]
  else if base = 0x400000 then [0xFFFFFFFF, 0xFFFFFFFF, 0xCFFFFFFF, 0x000000FF, 0, 0, 0, 0xE00F0000]
  else [0xFFFFFFFF, 0xFFFFFFFF, 0xC1FEFFFF, 0xC0FFFFFF]

/-- The words of the entry at e of the table at base, without the reserved bits of its layout (R6). -/
def State.trimEntry (s : State) (base e : Nat) (valid : Word) : State :=
  ((entryMasks base valid).zipIdx).foldl (fun u p =>
    let a := e + 4 * p.2
    u.setTw a (BitVec.ofNat 32 ((u.tw a).toNat &&& p.1))) s

/-- What follows a change of the VALID word of the entry at e: its value-store slot, its PDU buffer, its cycle supervision, its claim
(R153, R169, R188, R191, R207). o: the state before. -/
def State.entryWritten (o t : State) (e : Nat) : State :=
  if e < 0x100000 then t.sigValid (e / 16) (o.tw (e + 4)) (o.tw (e + 12))
  else if e < 0x200000 then t.cycPrune
  else if e < 0x300000 then t.pduValid ((e - 0x200000) / 64) (o.tw (e + 60))
  else if 0x420000 ≤ e then t.clmWritten ((e - 0x420000) / 16)
  else t

/-- The staged words of an initiator that lie in table t. -/
def State.staged (s : State) (i : Initiator) (t : Nat × Nat × Nat) : List (Nat × Word) :=
  s.bus.stage.filter (fun p => decide (ikey i t.1 ≤ p.1) && decide (p.1 < ikey i t.2.1))

/-- Empty an initiator's staging buffer for table t. -/
def State.unstage (s : State) (i : Initiator) (t : Nat × Nat × Nat) : State :=
  { s with bus := { s.bus with stage := amDelRange s.bus.stage (ikey i t.1) (ikey i t.2.1) } }

/-- A write to a of table t finds words of another entry staged (R68). -/
def State.stageOther (s : State) (i : Initiator) (t : Nat × Nat × Nat) (a : Nat) : Bool :=
  let e := a - (a - t.1) % t.2.2
  (s.staged i t).any (fun p => decide (p.1 < ikey i e) || decide (ikey i e + t.2.2 ≤ p.1))

/-- One word written to BAR2 address a (R68). A write that discards words staged for another entry logs STAGE with its own offset, as a
write (DESIGN CHOICE: R68 does not say whether that write or the discarded words are named, log entry 70). -/
def State.bar2Word (s : State) (i : Initiator) (t : Nat × Nat × Nat) (a : Nat) (v : Word) : State :=
  let e := a - (a - t.1) % t.2.2
  let s := if s.stageOther i t a then (s.unstage i t).busError i true 1 a cSTAGE else s
  if a - e + 4 = t.2.2 then
    let ws := s.staged i t
    let o := s
    let s := ws.foldl (fun u p => u.setTw (p.1 - ikey i 0) p.2) s
    o.entryWritten (((s.setTw a v).trimEntry t.1 e v).unstage i t) e
  else { s with bus := { s.bus with stage := amPut s.bus.stage (ikey i a) v } }

/-- The words of a request, in ascending order. -/
def State.bar2Words (s : State) (i : Initiator) (t : Nat × Nat × Nat) (a : Nat) : List Word → State
  | [] => s
  | v :: r => (s.bar2Word i t a v).bar2Words i t (a + 4) r

/-- A BAR2 write request (R67, R68). -/
def State.bar2Write (s : State) (i : Initiator) (a : Nat) (ws : List Word) (allBytes : Bool) : State :=
  if s.unreached 0 then s
  else
    let c := bar2Cause a ws.length allBytes
    match tableOf a with
    | none => s.busError i true 1 a c
    | some t => if c = 0 then s.bar2Words i t a ws else s.busError i true 1 a c

/-- The word a read of BAR2 address a returns (R69). -/
def State.bar2Seen (s : State) (i : Initiator) (a : Nat) : Word :=
  match amGet s.bus.entry (ikey i a) with
  | some w => w
  | none => s.tw a

/-- A read of word 0 of the entry at e latches its other words for the initiator, ending its latch in that table. -/
def State.latchEntry (s : State) (i : Initiator) (t : Nat × Nat × Nat) (e : Nat) : State :=
  let m := amDelRange s.bus.entry (ikey i t.1) (ikey i t.2.1)
  let m := (List.range (t.2.2 / 4 - 1)).foldl (fun m k => amPut m (ikey i (e + 4 * k + 4)) (s.tw (e + 4 * k + 4))) m
  { s with bus := { s.bus with entry := m } }

/-- The words of a BAR2 read from a upward, and the state with the latches they load. -/
def State.bar2Reads (s : State) (i : Initiator) (t : Nat × Nat × Nat) (a : Nat) : Nat → List Word × State
  | 0 => ([], s)
  | k + 1 =>
    let w := s.bar2Seen i a
    let s := if (a - t.1) % t.2.2 = 0 then s.latchEntry i t a else s
    let (ws, s) := s.bar2Reads i t (a + 4) k
    (w :: ws, s)

/-- A BAR2 read request of n words (R67, R69). -/
def State.bar2Read (s : State) (i : Initiator) (a n : Nat) (allBytes : Bool) : State :=
  if s.unreached 0 then s
  else
    let c := bar2Cause a n allBytes
    match tableOf a with
    | none => s.busError i false 1 a c
    | some t =>
      if c = 0 then
        let (ws, s) := s.bar2Reads i t a n
        s.emit (.readData i 1 a ws)
      else s.busError i false 1 a c

def execTableStagedWrite (init : Initiator) (off : Nat) (ws : List Word) (allBytes : Bool) (s : State) :
    Host.Outcome State Fault Refusal :=
  .next (s.bar2Write init off ws allBytes)

def execTableValidWrite (init : Initiator) (off : Nat) (ws : List Word) (allBytes : Bool) (s : State) :
    Host.Outcome State Fault Refusal :=
  .next (s.bar2Write init off ws allBytes)

def execTableWord0Read (init : Initiator) (off : Nat) (n : Nat) (allBytes : Bool) (s : State) :
    Host.Outcome State Fault Refusal :=
  .next (s.bar2Read init off n allBytes)

end Sys2Proof.Machine
end

