-- ==== Sys2Proof/Machine/Link.lean ====
section
/-! DEFINITION. What the Xanpel link and its side-band wires bring in (R50, R71-R91): frames, register messages, the interrupt summary of
the Kykel die, training; and the clock gates and DRAM self-refresh of R35 and R36. -/
namespace Sys2Proof.Machine

/-! Interrupts of the Kykel pages (R50, R88). -/

/-- A summary word received over the bridge: the summary bits and the vectors of the Kykel pages follow it (R50, R394). -/
def State.kykelSummary (s : State) : State :=
  if !s.linkUp then s
  else
    let new := s.kykelReqs
    let vs := (s.xpl.kSum ++ new).map (fun p => fld p.2 6 0)
    let s := s.setXpl { s.xpl with kSum := new, kSync := true }
    vs.foldl (fun t v => t.syncVec v) s

def execKykelSummaryWord (s : State) : Host.Outcome State Fault Refusal := .next s.kykelSummary

/-- K_INT_CHANGE (R88): the wire shows whether some Kykel page requests. -/
def execKIntChange (s : State) : Host.Outcome State Fault Refusal :=
  .next (s.setXpl { s.xpl with kInt := !s.kykelReqs.isEmpty })

/-! Clock gates and self-refresh (R35, R36). -/

/-- An island holds no job, and no enabled function needs its clock (R35, log entry 38). -/
def State.islandIdle (s : State) : Island → Bool
  | .drc => s.tktUsed == 0 && s.tpe.ses.isEmpty && (List.range 52).all (fun n => !s.chanDram n) && s.cry.mem.isEmpty
  | .hif => s.hq.all (fun p => !p.2.en && p.2.frames.isEmpty && p.2.items.isEmpty)
      && (List.range 52).all (fun n => !s.rb (Reg.DMACH_CTL n) 0)
  | .cry => s.cry.jobs.isEmpty && s.cry.mem.isEmpty && s.yew.op.isNone
  | .can => (List.range 24).all (fun n => s.canOp n == 0 && (s.canOf n).bufs.isEmpty)

/-- The status bit of an island in CHIP_CLKGATE. -/
def gateBit : Island → Nat
  | .drc => 11
  | .hif => 10
  | .cry => 9
  | .can => 8

def execIslandClockGate (island : Island) (s : State) : Host.Outcome State Fault Refusal :=
  .next (if bitOf (s.force Reg.CHIP_CLKGATE) 0 && s.islandIdle island then s.wb Reg.CHIP_CLKGATE (gateBit island) true else s)

/-- ISLAND_CLOCK_RESTART (R35): a gated island's clock runs again, which the port counts (R525). -/
def execIslandClockRestart (island : Island) (s : State) : Host.Outcome State Fault Refusal :=
  .next (if s.rb Reg.CHIP_CLKGATE (gateBit island) then (s.wb Reg.CHIP_CLKGATE (gateBit island) false).obsHidden 9 1 else s)

/-- DRAM_SELF_REFRESH_ENTRY (R36): AUTO = 1 in force, and the three conditions have held for 100 us. -/
def execDramSelfRefreshEntry (s : State) : Host.Outcome State Fault Refusal :=
  .next (if bitOf (s.force Reg.TKT_SRCTL) 0 && s.dramQuiet && s.sw.quietAt.any (fun t => decide (t + 100000 ≤ s.now)) then
    s.wb Reg.TKT_SRCTL 31 true
  else s)

/-- DRAM_SELF_REFRESH_EXIT (R36): a request for DRAM stands, or AUTO is no longer in force; in SAVE the DRAM stays in self-refresh
(R429). -/
def execDramSelfRefreshExit (s : State) : Host.Outcome State Fault Refusal :=
  .next (if s.inSave || (bitOf (s.force Reg.TKT_SRCTL) 0 && !s.dramAsked) then s else s.wb Reg.TKT_SRCTL 31 false)

/-! Frames (R71-R77). -/

/-- The register slot of a frame. -/
def slotMsg (n : Nat) : BMsg :=
  ⟨nfld n 143 140, nfld n 139 136, nbit n 135, nfld n 134 131, nfld n 130 129, nbit n 128, nfld n 127 112,
   BitVec.ofNat 32 (nfld n 111 80), nfld n 79 76⟩

/-- The levels of the CAN pins after the edges of a frame (R73-R75). -/
def edgeLevels (n : Nat) (old : List Bool) : List Bool :=
  (old.zipIdx).map (fun p => let f := nfld n (247 - 5 * p.2) (243 - 5 * p.2); if nbit f 4 then nbit f 3 else p.1)

/-- The T1S fields of a frame, PHY 0 and PHY 1 (R76). -/
def t1sFields (n : Nat) : List Nat := [nfld n 167 156, nfld n 155 144]

/-- Where a receive field shows RX_DV with RX_ER, the frame that the PHY receives has an error (R76). -/
def t1sFaults (fs : List Nat) (old : List Bool) : List Bool := (old.zip fs).map (fun p => p.1 || (nbit p.2 6 && nbit p.2 5))

/-- The CAN edge and T1S slots are delivered to the pins. -/
def State.pinSlots (s : State) (d : LinkDir) (n : Nat) : State :=
  match d with
  | .toKykel => s.setXpl { s.xpl with txd := edgeLevels n s.xpl.txd, t1sTx := t1sFields n }
  | .toYatric => s.setXpl { s.xpl with
      rxd := edgeLevels n s.xpl.rxd, t1sRx := t1sFields n, t1sErr := t1sFaults (t1sFields n) s.xpl.t1sErr }

/-- PLCA and collision status of PHY m as this frame brings them, old as the frame before did (R72, R76). -/
def State.t1sStatus (s : State) (m : Fin 2) (old new : Nat) : State :=
  let s := if nbit new 2 ≠ nbit old 2 then s.plcaStatus m (nbit new 2) else s
  if nbit new 3 && !nbit old 3 then s.collision m else s

/-- The status of both PHYs. -/
def State.t1sStatuses (s : State) (old : List Nat) : State :=
  let f := fun (l : List Nat) (k : Nat) => l[k]?.getD 0
  (s.t1sStatus 0 (f old 0) (f s.xpl.t1sRx 0)).t1sStatus 1 (f old 1) (f s.xpl.t1sRx 1)

/-- The event slot is delivered: an acknowledgement, or the oldest message of the other side (R77, R459). -/
def State.eventSlot (s : State) (d : LinkDir) (ev : Nat) : State :=
  let typ := nfld ev 15 12
  let sq := nfld ev 11 9
  let det := nfld ev 8 0
  if typ = 1 then s.takeAck d sq
  else match d with
    | .toKykel => if typ = 9 ∧ s.xpl.evY.q.head? = some (sq, typ, det) then s.takeDemand else s
    | .toYatric =>
      if s.xpl.evK.q.head? ≠ some (sq, typ, det) then s
      else if typ = 14 then s.evTamper
      else if typ = 2 ∨ typ = 4 ∨ typ = 6 ∨ typ = 7 then s.evWake typ
      else if typ = 3 ∨ typ = 5 ∨ typ = 8 then s.evPlain typ
      else s

/-- The end that receives frames of a direction. -/
def State.receiver (s : State) (d : LinkDir) : LinkSide := s.sender (oppDir d)

/-- Set the end that receives frames of a direction. -/
def State.setReceiver (s : State) (d : LinkDir) (l : LinkSide) : State := s.setSender (oppDir d) l

/-- A frame of direction d is discarded: the pins keep their levels, the nibbles it carried become errors, and the fourth discard in a row
is a loss of the link (R72, R75, R76, R89). Discards are counted in a row for each direction by itself (DEDUCED, log entry 69). -/
def State.frameBad (s : State) (d : LinkDir) : State :=
  let s := s.setReceiver d { s.receiver d with bad := (s.receiver d).bad + 1 }
  let x := s.xpl
  let er := fun (l : List Nat) => l.map (fun f => nsetBit f 5 true)
  let s := match d with
    | .toKykel => s.setXpl { x with t1sTx := er x.t1sTx }
    | .toYatric => s.setXpl { x with t1sRx := er x.t1sRx, t1sErr := t1sFaults (er x.t1sRx) x.t1sErr }
  let s := s.bumpSat Reg.XPL_CRCERR 1 4
  if 4 ≤ (s.receiver d).bad then s.linkLost false else s

/-- A good frame (R72): its four slots are delivered. -/
def State.frameGood (s : State) (d : LinkDir) (n : Nat) (busHeld : Bool) : State :=
  let old := s.xpl.t1sRx
  let s := (s.setReceiver d { s.receiver d with bad := 0, fseq := nfld n 255 252 }).pinSlots d n
  let s := if d = .toYatric then s.t1sStatuses old else s
  let m := slotMsg n
  let s := if m.typ = 0 then s else s.obsHidden 8 1
  let s := deliverMsg regEffect d m busHeld s
  if s.linkUp then s.eventSlot d (nfld n 47 32) else s

/-- XANPEL_FRAME (R72): one 256-bit frame arrives in direction dir; crcOk: its CRC matches, which is an operand as R72 gives no
polynomial (log entry 69); busHeld: the far bus is held by a locked
sequence there. A reserved message type counts as a CRC failure. -/
def execXanpelFrame (dir : LinkDir) (f : BitVec 256) (crcOk busHeld : Bool) (s : State) : Host.Outcome State Fault Refusal :=
  let n := f.toNat
  .next (if !s.linkUp then s
  else if !crcOk || decide (12 ≤ (slotMsg n).typ) then s.frameBad dir
  else s.frameGood dir n busHeld)

/-! Register messages (R78-R87). -/

def execReadRequestMsg (dir : LinkDir) (m : BMsg) (busHeld : Bool) (s : State) : Host.Outcome State Fault Refusal :=
  .next (requestMsg regEffect dir { m with typ := 1 } busHeld s)

def execPostedWriteMsg (dir : LinkDir) (m : BMsg) (busHeld : Bool) (s : State) : Host.Outcome State Fault Refusal :=
  .next (requestMsg regEffect dir { m with typ := 2 } busHeld s)

def execNonPostedWriteMsg (dir : LinkDir) (m : BMsg) (busHeld : Bool) (s : State) : Host.Outcome State Fault Refusal :=
  .next (requestMsg regEffect dir { m with typ := 3 } busHeld s)

def execReadDataMsg (dir : LinkDir) (m : BMsg) (s : State) : Host.Outcome State Fault Refusal := .next (readDataMsg regEffect dir m s)

def execWriteAcknowledgementMsg (dir : LinkDir) (m : BMsg) (s : State) : Host.Outcome State Fault Refusal :=
  .next (writeAckMsg regEffect dir m s)

def execRetryMsg (dir : LinkDir) (m : BMsg) (s : State) : Host.Outcome State Fault Refusal := .next (retryMsg regEffect dir m s)

def execErrorMsg (dir : LinkDir) (m : BMsg) (s : State) : Host.Outcome State Fault Refusal := .next (errorMsg dir m s)

def execLockRequestMsg (dir : LinkDir) (m : BMsg) (busHeld : Bool) (s : State) : Host.Outcome State Fault Refusal :=
  .next (lockRequestMsg dir m busHeld s)

def execLockGrantMsg (dir : LinkDir) (m : BMsg) (s : State) : Host.Outcome State Fault Refusal := .next (lockGrantMsg dir m s)

def execLockReleaseMsg (dir : LinkDir) (m : BMsg) (s : State) : Host.Outcome State Fault Refusal := .next (lockReleaseMsg dir m s)

def execLockBreakMsg (dir : LinkDir) (m : BMsg) (s : State) : Host.Outcome State Fault Refusal := .next (lockBreakMsg dir m s)

/-! Training (R89). -/

/-- LINK_TRAINING_START: the Yatric supply is good and the die drives XREF_CLK. -/
def execLinkTrainingStart (s : State) : Host.Outcome State Fault Refusal :=
  .next (if s.linkState = xOFF ∧ s.pwr.mode = .active ∧ !s.pwr.held then s.enterTrain else s)

/-- TRAINING_SUCCESS: the link is UP; the loader runs with PHASE = RESTORE (R468 step 3); the save set is delivered (R439). loopDly: the
trained loop delay, which lies within 78-82 ns. -/
def execTrainingSuccess (loopDly : Nat) (s : State) : Host.Outcome State Fault Refusal :=
  .next (if s.linkState = xTRAIN then
    let s := (s.wf Reg.XPL_STAT 23 16 (clampN 78 82 loopDly)).wf Reg.XPL_STAT 7 4 0
    let s := s.setXpl { s.xpl with
      attempts := 0, upAt := s.mono, yat := { s.xpl.yat with bad := 0 }, kyk := { s.xpl.kyk with bad := 0 } }
    let s := s.wr Reg.XPL_TRTIME (BitVec.ofNat 32 (capAt 0xFFFFFFFF (s.now - s.xpl.trainAt)))
    let s := (s.setLink xUP).ist Reg.pgXPL 0
    let s := if s.rf Reg.CHIP_BOOTSTAT 27 24 = 0 then s.setPhase 1 else s
    s.saveDeliver.pump
  else s)

/-! Side-band wires (R88). -/

/-- PF_WARN (R88, R429). -/
def execPfWarn (s : State) : Host.Outcome State Fault Refusal := .next (s.pfWarn false)

/-- TAMP_ALM (R88, R364, R387): the alarm stands, and what it aborts on the Yatric die is aborted. -/
def execTampAlm (s : State) : Host.Outcome State Fault Refusal :=
  .next (if !s.rb Reg.TMP_STAT 31 then s
  else
    let s := s.tamperZero
    if s.pwr.mode == .active && !s.pwr.held then s.tamperAbort else s)

/-- K_RSTREQ (R88): the Kykel die resets the Yatric die: a requested COLD or WARM reset takes effect, otherwise the reset is the
sequencer's own, a RAIL reset whose SRC the spec leaves open here (log entry 39). -/
def execKRstreq (s : State) : Host.Outcome State Fault Refusal :=
  .next (if s.pwr.held ∨ s.pwr.mode ≠ .active ∨ s.rf Reg.PWR_STAT 1 0 = 1 then s
  else match s.pwr.req with
    | some (t, src) => s.coldWarm t src
    | none =>
      let (w, s) := s.draw
      let s := (s.setCause rRAIL (w.toNat % 2)).yatricReset false
      let s := s.setMode (.up 3)
      s.setPwr { s.pwr with coreEn := false, dramEn := false })

end Sys2Proof.Machine
end

