-- ==== Sys2Proof/Machine/Services.lean ====
section
/-! DEFINITION. Laurel's services that write registers (18_management.md R479, R486-R491): the bus-off policy, RECLAIM, and the watched
sources. Every register write goes over the bus as Laurel's. -/
namespace Sys2Proof.Machine

/-! Bus-off policy (R126, R486, R487). -/

/-- The policy record of controller n. -/
def State.boffOf (s : State) (n : Nat) : BoffPol := amGetD {} s.lrl.pol n

/-- Set the policy record of controller n. -/
def State.setBoff (s : State) (n : Nat) (p : BoffPol) : State := s.setLrl { s.lrl with pol := amSet {} s.lrl.pol n p }

/-- A class 0x5 record: controller, run, BOFFCNT. -/
def State.logCan (s : State) (n : Nat) (code sev : Option Nat) : State :=
  s.logNow 5 code sev ([BitVec.ofNat 8 n, BitVec.ofNat 8 (s.boffOf n).run] ++ s.rdBytes (Reg.CANC_BOFFCNT n))

/-- The owner of recovery is Laurel. -/
def State.boffLaurel (s : State) (n : Nat) : Bool := s.rf (Reg.CANC_BOFFPOL n) 1 0 == 1

/-- Hand-over (R487): a guarded write gives recovery to the host. -/
def State.handOver (s : State) (n : Nat) : State :=
  let a := Reg.CANC_BOFFPOL n
  let s := s.busWrite .laurel (Reg.PG_UNLK (Reg.pgCANC n)) (BitVec.ofNat 32 unlockKey)
  let s := s.busWrite .laurel a (setFld (s.rd a) 1 0 0)
  let s := (s.setBoff n { s.boffOf n with hand := (s.boffOf n).hand + 1 }).ist Reg.pgLRL 4
  s.logCan n (some 2) (some 2)

/-- BUS_OFF_POLICY (R486): an entry of CANCn into BUS_OFF that was not dealt with. -/
def execBusOffPolicy (n : Fin 24) (s : State) : Host.Outcome State Fault Refusal :=
  let p := s.boffOf n
  let at_ := (s.canOf n).boffAt
  .next (if !s.srv || s.canState n != 4 || p.seen == some at_ then s
  else
    let tx := (s.rd (Reg.CANC_TXOK n)).toNat
    let p := { p with seen := some at_, run := if tx = p.txok then p.run else 0 }
    let s := s.setBoff n p
    let lmax := s.rf (Reg.CANC_BOFFPOL n) 23 16
    if !s.boffLaurel n then s.logCan n none none
    else if lmax ≠ 0 ∧ lmax ≤ p.run then s.handOver n
    else s.setBoff n { p with wait := some s.now })

/-- LAUREL_RECOVERY_DELAY (R486): LDELAY x 100 us after the entry Laurel recovers a controller that is still in BUS_OFF and its own. -/
def execLaurelRecoveryDelay (n : Fin 24) (s : State) : Host.Outcome State Fault Refusal :=
  let p := s.boffOf n
  .next (match p.wait with
  | none => s
  | some t =>
    if s.now < t + min 9 (s.rf (Reg.CANC_BOFFPOL n) 11 8) * 100000 then s
    else
      let s := s.setBoff n { p with wait := none }
      if s.canState n = 4 ∧ s.boffLaurel n then
        let s := s.busWrite .laurel (Reg.CANC_RECOV n) 1
        let s := s.setBoff n { s.boffOf n with
          run := p.run + 1, txok := (s.rd (Reg.CANC_TXOK n)).toNat, recov := p.recov + 1 }
        s.logCan n (some 1) none
      else s)

/-- BOFF_STAT (R479). -/
def execBoffStat (s : State) : Host.Outcome State Fault Refusal :=
  .next (s.mail 9 true 1 (fun t =>
    let n := t.mailReq 1
    if 23 < n then t.answer mBADARG []
    else t.answer mOK [(t.boffOf n).recov % 2 ^ 32, (t.boffOf n).run % 2 ^ 32, (t.boffOf n).hand % 2 ^ 32]))

/-! RECLAIM (R488, R489). -/

/-- The index is in the range of its class. -/
def reclaimOk (cls ix : Nat) : Bool :=
  (cls == 1 && decide (ix < 52)) || (cls == 2 && decide (ix < 128)) || (cls == 3 && decide (ix < 3))
    || (cls == 4 && decide (ix < 18)) || (cls == 5 && decide (ix < 24))

/-- The action of class cls runs for resource ix. -/
def State.reclaimRuns (s : State) (cls ix : Nat) : Bool :=
  if cls = 1 then s.rb (Reg.DMACH_STAT ix) 29
  else if cls = 2 then s.hqReset.isSome
  else if cls = 4 then s.rb Reg.QMG_FLSTAT 31
  else if cls = 5 then s.rb Reg.CMT_STAT 0
  else false

/-- Laurel writes the register of the class; a class 0x5 request disables the controller and commits its group. -/
def State.reclaimWrite (s : State) (cls ix mask : Nat) : State :=
  if cls = 1 then s.busWrite .laurel (Reg.DMACH_CTL ix) (BitVec.ofNat 32 (2 ^ 31))
  else if cls = 2 then s.busWrite .laurel Reg.HQ_QRESET (BitVec.ofNat 32 (2 ^ 31 + ix))
  else if cls = 3 then s.busWrite .laurel (Reg.CRY_RCTL ix) (BitVec.ofNat 32 (2 ^ 30))
  else if cls = 4 then s.busWrite .laurel Reg.QMG_FLUSH (BitVec.ofNat 32 (2 ^ 31 + ix * 2 ^ 16 + mask % 256))
  else
    let a := Reg.CANC_MODE ix
    let s := s.busWrite .laurel a (setFld (s.rdSh a) 2 0 0)
    let s := s.busWrite .laurel Reg.CMT_ARM (BitVec.ofNat 32 (2 ^ s.rf (Reg.PG_CGRP (Reg.pgCANC ix)) 3 0))
    s.busWrite .laurel Reg.CMT_GO 1

/-- The reclaim ends with STATUS st: the answer and the RECLAIM record. -/
def State.reclaimEnd (s : State) (st : Nat) : State :=
  let cls := s.mailReq 1 / 2 ^ 24
  let ix := s.mailReq 1 % 65536
  let d := [BitVec.ofNat 8 cls] ++ beBytes 2 ix ++ beBytes 4 (s.mailReq 2) ++ [BitVec.ofNat 8 st]
  let s := s.setLrl { s.lrl with reclaim := none }
  (s.answer st []).logNow 8 none none d

/-- RECLAIM (R489): the write, and, once its action is complete, the answer; a register that refuses gives BUSY. -/
def execReclaim (s : State) : Host.Outcome State Fault Refusal :=
  .next (match s.lrl.reclaim with
    | some (cls, ix) => if s.reclaimRuns cls ix then s else s.reclaimEnd mOK
    | none =>
      s.mail 8 true 2 (fun t =>
        let cls := t.mailReq 1 / 2 ^ 24
        let ix := t.mailReq 1 % 65536
        if !reclaimOk cls ix then t.answer mBADARG []
        else
          let busy := t.reclaimRuns cls ix || (cls == 5 && t.rb (Reg.PG_CGRP (Reg.pgCANC ix)) 8)
          let t := t.reclaimWrite cls ix (t.mailReq 2)
          if busy then t.reclaimEnd mBUSY
          else if t.reclaimRuns cls ix then t.setLrl { t.lrl with reclaim := some (cls, ix) }
          else t.reclaimEnd mOK))

/-! Watched sources (R490, R491). -/

/-- A watched count: its register, the LAST register read with it, and the class of its records. -/
structure Watch where
  cnt : Nat
  last : Nat
  cls : Nat
  deriving DecidableEq, Repr

/-- The table of R490, its counts. -/
def watches : List Watch :=
  [Reg.CLM_ROGUE, Reg.CLM_CONTEND, Reg.CLM_PXLOST, Reg.CLM_FULL, Reg.CLM_BADCLM].map (fun a => ⟨a, Reg.CLM_LAST, 6⟩)
    ++ [Reg.TPE_ABRX, Reg.TPE_ABTX, Reg.TPE_TMO, Reg.TPE_REFUSED].map (fun a => ⟨a, Reg.TPE_LASTAB, 6⟩)
    ++ [Reg.BRM_BADHDR, Reg.BRM_UNKSTR, Reg.BRM_ACFERR].map (fun a => ⟨a, Reg.BRM_LASTTO, 7⟩)
    ++ [Reg.CAUTH_MACFAIL, Reg.CAUTH_FRESHFAIL, Reg.CAUTH_SHORT].map (fun a => ⟨a, Reg.CAUTH_LASTFAIL, 7⟩)
    ++ [Reg.CRY_CMPERR, Reg.CRY_INVERR].map (fun a => ⟨a, Reg.CRY_LASTERR, 10⟩)

/-- The source keyed k may write a record now: none within the last second. -/
def State.watchFree (s : State) (k : Nat) : Bool :=
  match amGet s.lrl.watchAt k with
  | none => true
  | some t => decide (t + 1000000000 ≤ s.now)

/-- The value of source k is taken as recorded. -/
def State.watchTake (s : State) (k v : Nat) : State :=
  s.setLrl { s.lrl with watch := amSet 0 s.lrl.watch k v, watchAt := amPut s.lrl.watchAt k s.now }

/-- One record of class cls: the source of a PROTO record is free (log entry 33), LAST, delta; a CRYPTO record holds CRY_PIPESTAT and
CRY_LASTERR. -/
def State.watchLog (s : State) (cls last delta : Nat) : State :=
  if cls = 10 then s.logNow 10 none none (s.rdBytes Reg.CRY_PIPESTAT ++ s.rdBytes last)
  else if cls = 7 then
    let (b, s) := s.orFree none 256
    s.logNow 7 none none ([BitVec.ofNat 8 b] ++ s.rdBytes last ++ beBytes 4 delta)
  else s.logNow cls none none (s.rdBytes last ++ beBytes 4 delta)

/-- One watched count. -/
def State.watchOne (s : State) (w : Watch) : State :=
  let v := (s.rd w.cnt).toNat
  let old := amGetD 0 s.lrl.watch w.cnt
  if v = old ∨ !s.watchFree w.cnt then s
  else (s.watchTake w.cnt v).watchLog w.cls w.last ((v + 2 ^ 32 - old) % 2 ^ 32)

/-- MSEC_LASTWARN.VALID changed. -/
def State.watchMsec (s : State) : State :=
  let v := (s.rb Reg.MSEC_LASTWARN 31).toNat
  if v = amGetD 0 s.lrl.watch Reg.MSEC_LASTWARN ∨ !s.watchFree Reg.MSEC_LASTWARN then s
  else (s.watchTake Reg.MSEC_LASTWARN v).watchLog 7 Reg.MSEC_LASTWARN 0

/-- CANCn_ESTAT.ALONE rose. -/
def State.watchAlone (s : State) (n : Nat) : State :=
  let k := Reg.CANC_ESTAT n
  let v := s.rb k 5
  let old := amGetD 0 s.lrl.watch k != 0
  if v = old then s
  else if !v then s.setLrl { s.lrl with watch := amSet 0 s.lrl.watch k 0 }
  else if !s.watchFree k then s
  else (s.watchTake k 1).logCan n (some 3) none

/-- WATCH_POLL (R490): every POLL ms while WATCH = 1 and the firmware runs. -/
def execWatchPoll (s : State) : Host.Outcome State Fault Refusal :=
  .next (if !s.srv || !s.fwRun || !s.rb Reg.LRL_CTL 0
      || decide (s.now < s.lrl.pollAt + max 1 (s.rf Reg.LRL_CTL 31 24) * 1000000) then s
  else
    let s := s.setLrl { s.lrl with pollAt := s.now }
    let s := watches.foldl (fun t w => t.watchOne w) s
    (List.range 24).foldl (fun t n => t.watchAlone n) s.watchMsec)

end Sys2Proof.Machine
end

