-- ==== Sys2Proof/Machine/Copy.lean ====
section
/-! DEFINITION. Copy descriptors in execution (14_host_dma.md R404-R413): the four spaces, bursts, halts, the drain of a pause, and
completion. -/
namespace Sys2Proof.Machine

/-! Accesses of a channel, one word (R404, R52). -/

/-- A BAR0 word of a Kykel page, which the bridge reads and writes for the channel (R42, R81, R84). -/
def viaBridge (sp a : Nat) : Bool := sp == 2 && isKykel a && (runOf a).isSome

/-- A BAR0 read by the DMA engine. -/
def State.dmaReg (s : State) (a : Nat) : Option Word × State :=
  match s.readAt .dma a with
    | .error c => (none, s.busError .dma false 0 a c)
    | .ok (w, t) => (some w, t)

/-- A BAR2 read of one word by the DMA engine. -/
def State.dmaTab (s : State) (a : Nat) : Option Word × State :=
  let c := bar2Cause a 1 true
  match tableOf a with
  | none => (none, s.busError .dma false 1 a c)
  | some t =>
    if c ≠ 0 then (none, s.busError .dma false 1 a c)
    else match s.bar2Reads .dma t a 1 with
      | (w :: _, u) => (some w, u)
      | ([], u) => (none, u)

/-- A read of one word in space sp: none where it fails. -/
def State.dmaRead (s : State) (sp a : Nat) : Option Word × State :=
  match sp with
  | 0 => (some (BitVec.ofNat 32 (memRd32 s.hmem a)), s)
  | 1 => if a + 4 ≤ dramSize then (some (BitVec.ofNat 32 (memRd32 s.dram a)), s) else (none, s)
  | 2 => s.dmaReg a
  | _ => s.dmaTab a

/-- A write of one word in space sp: false where it fails. A write that discards staged words of another entry takes effect and is a bus
error (R68). -/
def State.dmaWrite (s : State) (sp a : Nat) (v : Word) : Bool × State :=
  match sp with
  | 0 => (true, { s with hmem := memWrN s.hmem a (leBytes 4 v.toNat) })
  | 1 => if a + 4 ≤ dramSize then (true, { s with dram := memWrN s.dram a (leBytes 4 v.toNat) }) else (false, s)
  | 2 =>
    let (t, c) := s.writeAt regEffect .dma a v
    if c = 0 then (true, t) else (false, t.busError .dma true 0 a c)
  | _ =>
    let c := bar2Cause a 1 true
    match tableOf a with
    | none => (false, s.busError .dma true 1 a c)
    | some t =>
      if c ≠ 0 then (false, s.busError .dma true 1 a c)
      else (!s.stageOther .dma t a, s.bar2Word .dma t a v)

/-! Moving data (R405-R409). -/

/-- Source and destination overlap in one space: the result is undefined (R405). -/
def cpOverlap (w : List Nat) : Bool :=
  let sl := if cpSfix w then 4 else dw w 1
  let dl := if cpDfix w then 4 else dw w 1
  !cpFill w && cpSsp w == cpDsp w && decide (copySrc w 0 < copyDst w 0 + dl) && decide (copyDst w 0 < copySrc w 0 + sl)

/-- k free bytes (log entry 1). -/
def State.drawBytes (s : State) : Nat → List Byte × State
  | 0 => ([], s)
  | k + 1 =>
    let (w, s) := s.draw
    let (r, s) := s.drawBytes k
    (BitVec.ofNat 8 w.toNat :: r, s)

/-- Channel n goes on: it neither waits for the bridge nor is halted. -/
def State.chanGoes (s : State) (n : Nat) : Bool := !(s.chanOf n).wait && !s.rb (Reg.DMACH_STAT n) 31

/-- The next source word of the descriptor w of entry i: a FILL pattern, the word a Kykel page answered, or a read; none where the channel
waits for the bridge or is halted. -/
def State.copyTake (s : State) (n i : Nat) (w : List Nat) : Option Word × State :=
  let a := copySrc w (s.chanOf n).moved
  match (s.chanOf n).got with
  | some v => (some v, s.setChan n { s.chanOf n with got := none })
  | none =>
    if cpFill w then (some (BitVec.ofNat 32 (dw w 2)), s)
    else if viaBridge (cpSsp w) a then (none, s.bridgeChan n false a 0)
    else match s.dmaRead (cpSsp w) a with
      | (none, t) => (none, t.chanHalt n hBUS false (cpSsp w) a i none)
      | r => r

/-- Write one word of the descriptor w of entry i to its destination. -/
def State.copyGive (s : State) (n i : Nat) (w : List Nat) (v : Word) : State :=
  let m := (s.chanOf n).moved
  let b := copyDst w m
  if viaBridge (cpDsp w) b then s.bridgeChan n true b v
  else
    let (ok, s) := s.dmaWrite (cpDsp w) b v
    if ok then s.moveTo n (m + 4)
    else s.chanHalt n hBUS true (cpDsp w) b i (if sideSource w (copySrc w m) then some v else none)

/-- k words of the descriptor w of entry i, one access at a time, in ascending order, until the channel waits for the bridge. -/
def State.copyWords (s : State) (n i : Nat) (w : List Nat) : Nat → State
  | 0 => s
  | k + 1 =>
    match s.copyTake n i w with
    | (none, s) => s
    | (some v, s) =>
      let (v, s) := if cpOverlap w then s.draw else (v, s)
      let s := s.copyGive n i w v
      if s.chanGoes n then s.copyWords n i w k else s

/-- Bytes of a memory space that can be reached from address a, at most k. -/
def reach (sp a k : Nat) : Nat := if sp = 1 then min k (dramSize - a) else k

/-- k bytes of the descriptor w of entry i between host memory and DRAM. -/
def State.copyBlock (s : State) (n i : Nat) (w : List Nat) (k : Nat) : State :=
  let m := (s.chanOf n).moved
  let a := copySrc w m
  let b := copyDst w m
  let rk := if cpFill w then k else reach (cpSsp w) a k
  let wk := reach (cpDsp w) b k
  let kk := min rk wk
  let data := if cpFill w then (List.range kk).map (fun j => BitVec.ofNat 8 (dw w 2 / 2 ^ (8 * ((m + j) % 4))))
    else memRdN (if cpSsp w = 0 then s.hmem else s.dram) a kk
  let (data, s) := if cpOverlap w then s.drawBytes kk else (data, s)
  let s := (s.memPut (cpDsp w == 0) b data).moveTo n (m + kk)
  if kk = k then s
  else if rk ≤ wk then s.chanHalt n hBUS false (cpSsp w) (a + kk) i none
  else s.chanHalt n hBUS true (cpDsp w) (b + kk) i none

/-- The bytes of the descriptor in progress up to m are moved (R406, R408). -/
def State.copyMove (s : State) (n m : Nat) : State :=
  match (s.chanOf n).cur with
  | none => s
  | some (i, w) =>
    let k := m - (s.chanOf n).moved
    let words := decide (2 ≤ cpDsp w) || cpDfix w || (!cpFill w && (decide (2 ≤ cpSsp w) || cpSfix w))
    if words then s.copyWords n i w (k / 4) else s.copyBlock n i w k

/-- The descriptor w in progress may give the data it has read to its destination: the engine is on, the channel neither halted nor in
reset nor waiting for the bridge, and its spaces are served (R392, R409, R430). -/
def State.drainMay (s : State) (n : Nat) (w : List Nat) : Bool :=
  s.rb Reg.DMA_CTL 0 && !s.rb (Reg.DMACH_STAT n) 31 && !s.rb (Reg.DMACH_STAT n) 29 && !(s.chanOf n).wait && s.cpMay w

/-- How far channel n has read: the word a Kykel page answered, else the reads outstanding. -/
def State.drainTo (s : State) (n : Nat) : Nat :=
  let c := s.chanOf n
  if c.got.isSome then c.moved + 4 else c.readTo

/-- What channel n has read is written: the word a Kykel page answered, and the reads outstanding (R407, R408). -/
def State.copyDrain (s : State) (n : Nat) : State := s.copyMove n (s.drainTo n)

/-- Channel n reads on in its burst: ahead of its destination up to 32 reads of it and 128 of PCIe in all; another source word by word, as
the destination takes it (R392, R407). -/
def State.copyRead (s : State) (n : Nat) (w : List Nat) : State :=
  let c := s.chanOf n
  if cpAhead w then
    let room := min 32 (if cpSsp w = 0 then 128 - (s.hostReads - s.chanHostReads n) else 32)
    (s.setChan n { c with readTo := max c.readTo (min c.goal (c.moved + room * cpReadSize w)) }).readFrom n
  else s.copyMove n c.goal

/-- BURST_START (R412): channel n moves on: what it has read is written, and it reads on in its burst, or starts the next one, of at most
BSIZE x 64 bytes, when the spacing has passed and the round robin serves it (R413). In queue mode: the next burst of the frame or item
begun. -/
def execBurstStart (n : Fin 52) (host : List (Nat × List Byte)) (s : State) : Host.Outcome State Fault Refusal :=
  let s := s.hostWrites host
  .next (match (s.chanOf n).cur with
  | none => s.jobMove n
  | some (_, w) =>
    if !s.chanRuns n false || !s.drainMay n w then s
    else
      let s := s.copyDrain n
      let c := s.chanOf n
      if !s.chanGoes n then s
      else if c.readTo < c.goal then s.copyRead n w
      else match s.burstMay n with
        | none => s
        | some (r, b) =>
          let s := (s.arbServe r n).burstStart n
          (s.setChan n { s.chanOf n with goal := c.goal + b }).copyRead n w)

/-- COPY_DESCRIPTOR_COMPLETE (R406): every byte was read, and is written; then the descriptor is written back. -/
def execCopyDescriptorComplete (n : Fin 52) (host : List (Nat × List Byte)) (s : State) : Host.Outcome State Fault Refusal :=
  let s := s.hostWrites host
  .next (match (s.chanOf n).cur with
  | none => s
  | some (i, w) =>
    if !s.chanRuns n false || !s.drainMay n w || decide ((s.chanOf n).readTo < dw w 1) then s
    else
      let s := s.copyDrain n
      if !s.chanGoes n || decide ((s.chanOf n).moved < dw w 1) || !s.spaceMay (s.copyHost n) then s
      else (s.copyDone n i 0).istIf (nbit (dw w 0) 21) (Reg.pgDMACH n) 0)

/-- A channel in queue mode stands at a frame boundary: no frame or item is begun, and no frame of a queue it serves is unfinished. -/
def State.queuesIdle (s : State) (n : Nat) : Bool :=
  (s.chanOf n).job.isNone && (List.range 64).all (fun q => let h := s.hqOf q; h.chan != n || h.frames.isEmpty)

/-- CHANNEL_PAUSED (R408): exactly the reads outstanding complete and are written, drain bytes of them by now; with the last of them the
channel is paused. A halt in the drain leaves PAUSED 0 (R409), and an access that the bridge still carries is waited for. -/
def execChannelPaused (n : Fin 52) (drain : Nat) (host : List (Nat × List Byte)) (s : State) : Host.Outcome State Fault Refusal :=
  let s := s.hostWrites host
  let queue := decide (n.val < 48) && s.rb (Reg.DMACH_CTL n) 1
  let c := s.chanOf n
  .next (if !s.rb (Reg.DMACH_CTL n) 30 || s.rf (Reg.DMACH_STAT n) 31 29 != 0 || c.wait || (queue && !s.queuesIdle n) then s
  else
    let s := match c.cur with
      | some (_, w) => if !queue && s.drainMay n w then s.copyMove n (min (s.drainTo n) (c.moved + drain)) else s
      | none => s
    let c := s.chanOf n
    if !s.chanGoes n || decide (c.moved < c.readTo) || c.got.isSome then s
    else (s.wb (Reg.DMACH_STAT n) 30 true).ist (Reg.pgDMACH n) 2)

end Sys2Proof.Machine
end

