-- ==== Sys2Proof/Machine/Boot.lean ====
section
/-! DEFINITION. The boot up to the commit of the cold-route image (17_startup_reset.md R468-R474, R506): restoring the save record, the
verification pass over an image, applying its records, and the commit. The loader's writes of these steps have reached their page when
the step is done. -/
namespace Sys2Proof.Machine

/-- Set the boot record. -/
def State.setBoot (s : State) (b : Boot) : State := { s with boot := b }

/-- The loader writes one register of either die; false where the write is a bus error, as at a Kykel page while the link is not UP (R90). -/
def State.loaderWrite (s : State) (a : Nat) (v : Word) : State × Bool :=
  if sizeBad a 1 true then (s.sizeError .laurel true a, false)
  else if isKykel a && (runOf a).isSome && !s.linkUp then (s.busError .laurel true 0 a cBRIDGE, false)
  else
    let (t, c) := s.writeAt regEffect .laurel a v
    if c = 0 then (t, true) else (t.busError .laurel true 0 a c, false)

/-- The same write where its outcome plays no part. -/
def State.loaderPut (s : State) (a : Nat) (v : Word) : State := (s.loaderWrite a v).1

/-- The unlock key goes to the page of address a, then v to a (R61). -/
def State.loaderGuarded (s : State) (a : Nat) (v : Word) : State × Bool :=
  (s.loaderPut (Reg.PG_UNLK (pageBase a)) (BitVec.ofNat 32 unlockKey)).loaderWrite a v

/-! The save record (R432, R469 step 1). -/

/-- Slot i holds a record that is valid for restore. -/
def State.saveGood (s : State) (i : Nat) : Bool :=
  let h := memRdN s.mram (saveSlot i) 64
  let len := beAt h 24 4
  s.saveState i == 3 && crc32 (h.take 4 ++ (h.drop 8).take 52) == beAt h 60 4 && decide (len ≤ 0x1A000 - 64)
    && crc32 (memRdN s.mram (saveSlot i + 64) len) == beAt h 28 4

/-- The chosen record: of two good ones that of the higher SEQ. -/
def State.saveChosen (s : State) : Option Nat :=
  if s.saveGood 0 && s.saveGood 1 then some s.saveTop
  else if s.saveGood 0 then some 0
  else if s.saveGood 1 then some 1
  else none

/-- The items of a record's body with their types, at most n of them. -/
def saveItems : Nat → List Byte → List (Nat × List Byte)
  | 0, _ => []
  | n + 1, b =>
    if b.length < 8 then []
    else
      let len := beAt b 2 4
      (beAt b 0 2, (b.drop 8).take len) :: saveItems n (b.drop (8 + len))

/-- The item of type ty of slot i. -/
def State.savedItem (s : State) (i ty : Nat) : Option (List Byte) :=
  let len := beAt (memRdN s.mram (saveSlot i) 64) 24 4
  ((saveItems 6 (memRdN s.mram (saveSlot i + 64) len)).find? (fun p => p.1 == ty)).map (·.2)

/-- Full time by TSY_ADJCTL with OP = set, and TSY_RATE, from the time item (R469 step 2, log entry 31). -/
def State.timeRestore (s : State) (b : List Byte) : State :=
  let x := corrTime (beAt b 26 6 * 1000000000 + beAt b 32 4) (beAt b 36 6) s.rtc
  let s := s.loaderPut Reg.TSY_ADJ_NS (BitVec.ofNat 32 (x % 1000000000))
  let s := s.loaderPut Reg.TSY_ADJ_SL (BitVec.ofNat 32 (x / 1000000000))
  let s := s.loaderPut Reg.TSY_ADJ_SH (BitVec.ofNat 32 (x / 1000000000 / 2 ^ 32))
  let s := s.loaderPut Reg.TSY_ADJCTL 3
  s.loaderPut Reg.TSY_RATE (BitVec.ofNat 32 (beAt b 18 4))

/-- The stored mark of index i (R433), 0 where none was posted. -/
def State.markWord (s : State) (i : Nat) : Nat := beNat (memRdN s.mram (markPlace i).2.2 8)

/-- The reserve exponent that the mark area's header holds for index i; 31 where its CRC fails (R433). -/
def State.markRsv (s : State) (i : Nat) : Nat :=
  let h := memRdN s.mram markBase 64
  if beAt h 0 4 = 0x4D524B31 ∧ crc32 (h.take 60) = beAt h 60 4 then max 8 (byteAt h (if i < 65536 then 4 else 5)) else 31

/-- The value that index i resumes from by its mark (R359). -/
def State.markResume (s : State) (i : Nat) : Option Nat :=
  let m := s.markWord i
  if m = 0 then none
  else if nbit (memRd s.mram (markPlace i).1).toNat (markPlace i).2.1 then some (min (2 ^ 64 - 1) (m + 2 ^ (s.markRsv i + 1)))
  else some m

/-- The value that index i resumes from (R359): the record's, where it was written after the mark, which it then has reached. -/
def State.resumeAt (s : State) (i : Nat) (exact : Option Nat) : Option Nat :=
  match exact with
  | some e => if s.markWord i ≤ e then some e else s.markResume i
  | none => s.markResume i

/-- Eight-byte value k of an item. -/
def itemAt (b : Option (List Byte)) (k : Nat) : Option Nat := b.map (fun l => beAt l (8 * k) 8)

/-- Freshness counters and NEXTPN values (R469 step 3), from items fr and pn where the record has them. -/
def State.countersRestore (s : State) (fr pn : Option (List Byte)) : State :=
  let t := (List.range 4096).foldl (fun t i => match s.resumeAt i (itemAt fr i) with
    | none => t
    | some v => t.setFresh i v) s
  (List.range 256).foldl (fun t j => match s.resumeAt (65536 + j) (itemAt pn j) with
    | none => t
    | some v => t.setSa j { t.saOf j with pn := v }) t

/-- The saved claim ledger (R469 step 3). -/
def State.ledgerRestore (s : State) (b : List Byte) : State :=
  (List.range (min 8192 (b.length / 4))).foldl (fun t k => t.setTw (0x420000 + 4 * k) (BitVec.ofNat 32 (beAt b (4 * k) 4))) s

/-- Records of 32 bytes. -/
def recs32 : Nat → List Byte → List (List Byte)
  | 0, _ => []
  | n + 1, b => if b.length < 32 then [] else b.take 32 :: recs32 n (b.drop 32)

/-- The saved log tail is the log's before any newer record (R484). -/
def State.tailRestore (s : State) (b : List Byte) : State :=
  let t := (recs32 512 b).filter (fun r => seqGe (beAt r 0 4) s.lrl.rseq)
  match t.getLast? with
  | none => s
  | some r => s.setLrl { s.lrl with tail := t, tailAt := s.now, rseq := (beAt r 0 4 + 1) % 2 ^ 32 }

/-- An item restored where the record holds it. -/
def State.withItem (s : State) (b : Option (List Byte)) (f : State → List Byte → State) : State :=
  match b with
  | none => s
  | some l => f s l

/-- The chosen record i is restored and marked SUPERSEDED (R469). -/
def State.recordRestore (s : State) (i : Nat) : State :=
  let t := s.withItem (s.savedItem i 2) State.timeRestore
  let t := t.countersRestore (s.savedItem i 3) (s.savedItem i 4)
  let t := (t.withItem (s.savedItem i 5) State.ledgerRestore).withItem (s.savedItem i 6) State.tailRestore
  let t := t.mramWrite (saveSlot i + 4) (beBytes 4 7)
  t.wf Reg.CHIP_BOOTSTAT 9 8 (if (s.savedItem i 3).isSome then 1 else 2)

/-- BOOT_RESTORE (R469): with the link UP and Yew READY; ARMED ends it, SET keeps what was written. -/
def execBootRestore (s : State) : Host.Outcome State Fault Refusal :=
  .next (if s.boot.stage ≠ 0 ∨ s.pwr.held ∨ s.inSave ∨ !s.linkUp ∨ !s.keysReady then s
  else
    let s := s.logScan
    let s := (s.loaderGuarded Reg.TSY_OWN 1).1
    let s := match s.saveChosen with
      | none => s.countersRestore none none
      | some i => s.recordRestore i
    let s := s.loaderPut Reg.PWR_SAVECTL (BitVec.ofNat 32 (256 + s.pwr.setw.toNat))
    (s.setBoot { s.boot with stage := 1 }).logEarly)

/-! Records that keep two copies with SEQ and CRC-32 (R503, R506). -/

/-- Copy b of a 64-byte record whose copies stand at a and a + 64. -/
def State.pairCopy (s : State) (a : Nat) (b : Bool) : List Byte := memRdN s.mram (if b then a + 64 else a) 64

/-- The copy that stands (R376). -/
def State.pairStands (s : State) (a : Nat) : Option Bool :=
  standing (cntGood (s.pairCopy a false)) (cntGood (s.pairCopy a true)) (beAt (s.pairCopy a false) 0 4) (beAt (s.pairCopy a true) 0 4)

/-- The standing copy. -/
def State.pairRead (s : State) (a : Nat) : Option (List Byte) := (s.pairStands a).map (s.pairCopy a)

/-- A new record with bytes 4-59 body goes to the copy that does not stand, with SEQ one higher (log entry 24). -/
def State.pairWrite (s : State) (a : Nat) (body : List Byte) : State :=
  let (dst, sq) := match s.pairStands a with
    | none => (false, 1)
    | some b => (!b, (beAt (s.pairCopy a b) 0 4 + 1) % 2 ^ 32)
  let r := (beBytes 4 sq ++ body ++ List.replicate 56 0).take 60
  s.mramWrite (if dst then a + 64 else a) (r ++ beBytes 4 (crc32 r))

/-- The floor record (R506). -/
def floorBase : Nat := 0x2B1000

/-- FWMIN and CRMIN (R506); both read 0 where no copy is good. -/
def State.fwMin (s : State) : Nat := match s.pairRead floorBase with | some c => beAt c 4 4 | none => 0
def State.crMin (s : State) : Nat := match s.pairRead floorBase with | some c => beAt c 8 4 | none => 0

/-- The journal (R503). -/
def journalBase : Nat := 0x1F000

/-- JSTATE, COMP, IMGID, NBLK, NEXT and DOFF of the journal; none where it reads IDLE for want of a good copy. -/
structure Journal where
  st : Nat
  comp : Nat
  imgid : Nat
  nblk : Nat
  next : Nat
  doff : Nat
  qoff : Nat
  deriving DecidableEq, Repr

/-- The journal as it reads. -/
def State.journal (s : State) : Journal :=
  match s.pairRead journalBase with
  | none => ⟨0, 0, 0, 0, 0, 0, 0⟩
  | some c => ⟨byteAt c 4, byteAt c 5, beAt c 8 4, beAt c 12 4, beAt c 16 4, beAt c 20 4, beAt c 24 4⟩

/-- Write the journal. -/
def State.setJournal (s : State) (j : Journal) : State :=
  s.pairWrite journalBase ([BitVec.ofNat 8 j.st, BitVec.ofNat 8 j.comp, 0, 0] ++ beBytes 4 j.imgid ++ beBytes 4 j.nblk
    ++ beBytes 4 j.next ++ beBytes 4 j.doff ++ beBytes 4 j.qoff)

/-! The cold-route image (R470, R471). -/

/-- The cold-route area (log entry 17). -/
def crBase : Nat := 0x1E0000

/-- The tag of block i holds (R470): over IMGID, the index and the payload. -/
def blockOk (key imgid : List Byte) (i : Nat) (b : List Byte) : Bool :=
  cmac key (imgid ++ beBytes 4 i ++ b.take 4080) == b.drop 4080

/-- Blocks i onward, n of them, in order; else CODE of R475 and the block. -/
def readBlocks (ok : Nat → List Byte → Bool) (blk : Nat → Option (List Byte)) : Nat → Nat → Except (Nat × Nat) (List (List Byte))
  | 0, _ => .ok []
  | n + 1, i =>
    match blk i with
    | none => .error (6, i)
    | some b =>
      if ok i b then
        match readBlocks ok blk n (i + 1) with
        | .ok l => .ok (b :: l)
        | .error e => .error e
      else .error (3, i)

/-- A record of the stream (R471). -/
inductive CrRec
  | done
  | reg (unlock : Bool) (a : Nat) (v : Word)
  | entry (a : Nat) (ws : List Word)
  deriving DecidableEq, Repr

/-- REG and UREG may address the page of a (R471). -/
def crPage (a : Nat) : Bool :=
  match runOf a with
  | none => false
  | some r => r.cls == .trx || (!r.kykel && r.cls != .chip && r.cls != .cmt && r.cls != .err && r.cls != .lrl && r.cls != .obs
      && r.cls != .yew)

/-- Words of a byte list, big-endian. -/
def beWords (n : Nat) (b : List Byte) : List Word := (List.range n).map (fun k => BitVec.ofNat 32 (beAt b (4 * k) 4))

/-- The record that starts a stream and its length, where it keeps the rules of R471. -/
def crRec (b : List Byte) : Option (CrRec × Nat) :=
  let a := beAt b 1 3
  match byteAt b 0 with
  | 0 => if b.all (· == 0) && !b.isEmpty then some (.done, b.length) else none
  | 1 => if crPage a && decide (8 ≤ b.length) then some (.reg false a (BitVec.ofNat 32 (beAt b 4 4)), 8) else none
  | 2 => if crPage a && decide (8 ≤ b.length) then some (.reg true a (BitVec.ofNat 32 (beAt b 4 4)), 8) else none
  | 3 =>
    match tableOf a with
    | none => none
    | some t =>
      if (a - t.1) % t.2.2 = 0 ∧ 4 + t.2.2 ≤ b.length then some (.entry a (beWords (t.2.2 / 4) (b.drop 4)), 4 + t.2.2) else none
  | _ => none

/-- The records of a stream up to END; else the byte at which a rule breaks. Every record has at least 4 bytes, so n bounds them. -/
def crWalk : Nat → Nat → List Byte → Except Nat (List CrRec)
  | 0, pos, _ => .error pos
  | n + 1, pos, b =>
    match crRec b with
    | none => .error pos
    | some (.done, _) => .ok []
    | some (r, k) =>
      match crWalk n (pos + k) (b.drop k) with
      | .ok l => .ok (r :: l)
      | .error e => .error e

/-- All records of a stream. -/
def crRecs (b : List Byte) : Except Nat (List CrRec) := crWalk (b.length / 4 + 1) 0 b

/-- What the header of an image gives, and its stream. -/
structure CrImage where
  imgid : Nat
  ver : Nat
  src : Nat
  plan : Nat
  nblk : Nat
  qoff : Nat
  gmask : Nat
  trxrel : Nat
  stream : List Byte
  deriving DecidableEq, Repr

/-- The header fields of block 0. -/
def crHeader (h : List Byte) : CrImage :=
  { imgid := beAt h 4 4, ver := beAt h 8 4, src := byteAt h 14, plan := byteAt h 15, nblk := beAt h 16 4, qoff := beAt h 20 4,
    gmask := beAt h 24 2, trxrel := beAt h 26 2, stream := [] }

/-- The header keeps the ranges of R470. -/
def CrImage.headOk (c : CrImage) (h : List Byte) : Bool :=
  decide (c.src ≤ 1) && decide (c.plan ≤ 3) && decide (1 ≤ c.nblk) && decide (c.nblk ≤ if c.src = 0 then 192 else 16384)
    && decide (c.qoff % 4096 = 0) && ((h.take 64).drop 28).all (· == 0)

/-- The verification pass of R471 over blocks read by blk (the source of blocks 1 on follows from the header): the image, or CODE of
R475 and BLOCK. -/
def State.crCheck (s : State) (blk : CrImage → Nat → Option (List Byte)) (h : List Byte) : Except (Nat × Nat) CrImage :=
  let c := crHeader h
  let key := s.slotKeyBytes (beAt h 12 2)
  let ok := blockOk key ((h.drop 4).take 4)
  if beAt h 0 4 ≠ 0x43524931 then .error (1, 0)
  else if s.keyCheck (beAt h 12 2) 7 ≠ 0 then .error (2, 0)
  else if !ok 0 h then .error (3, 0)
  else if !c.headOk h then .error (4, 0)
  else if c.ver < s.crMin then .error (5, 0)
  else match readBlocks ok (blk c) (c.nblk - 1) 1 with
    | .error e => .error e
    | .ok bs =>
      let st := (((h :: bs).map (·.take 4080)).flatten).drop 64
      match crRecs st with
      | .error p => .error (4, (64 + p) / 4080)
      | .ok _ => .ok { c with stream := st }

/-- Block i of the stored image; qspiBad: the QSPI read of that block fails. -/
def State.crStored (s : State) (qspiBad : Option Nat) (c : CrImage) (i : Nat) : Option (List Byte) :=
  if c.src = 0 ∨ i = 0 then some (memRdN s.mram (crBase + 4096 * i) 4096)
  else if qspiBad = some i then none
  else some (memRdN s.qspi (c.qoff + 4096 * (i - 1)) 4096)

/-- No image is applied (R468, R472): PHASE = NOIMAGE, CHIP_BOOTERR; the services start. -/
def State.noImage (s : State) (code blk : Nat) : State :=
  let s := s.wr Reg.CHIP_BOOTERR (BitVec.ofNat 32 (2 ^ 31 + code * 2 ^ 16 + blk % 65536))
  ((s.setPhase 4).setBoot { s.boot with stage := 5, stream := [] }).mailUnknown

/-- The blocks of a QSPI image are copied into DRAM during the pass, to a place the spec leaves open: a free value names it. -/
def State.crDramCopy (s : State) (c : CrImage) : State :=
  if c.src = 0 then s
  else
    let (w, s) := s.draw
    (List.range (c.nblk - 1)).foldl (fun t k =>
      { t with dram := memWrN t.dram ((w.toNat + k) % 2 ^ 20 * 4096) (memRdN s.qspi (c.qoff + 4096 * k) 4096) }) s

/-- The journal says that the stored cold-route image is partly overwritten (R504). -/
def State.crBroken (s : State) : Bool :=
  s.journal.comp == 2 && (s.journal.st == 3 || (s.journal.st == 1 && s.pwr.cause.1 != rWARM))

/-- COLD_ROUTE_VERIFY (R468 step 6, R471). qspiBad: the block whose QSPI read fails, if one does. -/
def execColdRouteVerify (qspiBad : Option Nat) (s : State) : Host.Outcome State Fault Refusal :=
  .next (if s.boot.stage ≠ 1 ∨ s.pwr.held then s
  else
    match s.crCheck (s.crStored qspiBad) (memRdN s.mram crBase 4096) with
    | .error (c, b) => s.noImage c b
    | .ok c =>
      if s.crBroken then s.noImage 3 s.journal.next
      else
        let s := (s.crDramCopy c).setPhase 2
        s.setBoot { s.boot with stage := 2, stream := c.stream, plan := c.plan, gmask := c.gmask, trxrel := c.trxrel })

/-- One record is written (R468 step 7); false at a bus error. -/
def State.crApply (s : State) : CrRec → State × Bool
  | .done => (s, true)
  | .reg false a v => s.loaderWrite a v
  | .reg true a v => s.loaderGuarded a v
  | .entry a ws => (s.bar2Write .laurel a ws true, bar2Cause a ws.length true == 0)

/-- The records in order, up to the first bus error. -/
def State.crApplyAll (s : State) : List CrRec → State × Bool
  | [] => (s, true)
  | r :: l =>
    let (t, ok) := s.crApply r
    if ok then t.crApplyAll l else (t, false)

/-- COLD_ROUTE_APPLY (R468 step 7, R472). -/
def execColdRouteApply (s : State) : Host.Outcome State Fault Refusal :=
  .next (if s.boot.stage ≠ 2 ∨ s.pwr.held then s
  else match crRecs s.boot.stream with
    | .error _ => s.noImage 7 0
    | .ok l =>
      let (t, ok) := s.crApplyAll l
      if ok then t.setBoot { t.boot with stage := 3, stream := [] } else t.noImage 7 0)

/-- TRXREL: those transceivers take FOLLOW (R472). -/
def State.trxRelease (s : State) : State :=
  (setBits s.boot.trxrel 16).foldl (fun t n => t.loaderPut (Reg.TRX_CTL n) (setFld (t.rd (Reg.TRX_CTL n)) 1 0 0)) s

/-- COLD_COMMIT (R468 step 8, R472): the transceivers of TRXREL, CHIP_PLAN.ACTIVE, and one immediate commit of GMASK and the CHIP group,
which a pending commit refuses (R55). -/
def execColdCommit (s : State) : Host.Outcome State Fault Refusal :=
  .next (if s.boot.stage ≠ 3 ∨ s.pwr.held ∨ !s.linkUp then s
  else
    let s := s.trxRelease
    let s := s.loaderPut Reg.CHIP_PLAN (BitVec.ofNat 32 s.boot.plan)
    let s := s.loaderPut Reg.CMT_ARM (BitVec.ofNat 32 (nsetBit s.boot.gmask (s.rf (Reg.PG_CGRP Reg.pgCHIP) 3 0) true))
    if s.rb Reg.CMT_STAT 0 then (s.loaderPut Reg.CMT_GO 1).noImage 7 0
    else (s.setBoot { s.boot with stage := 4 }).loaderPut Reg.CMT_GO 1)

end Sys2Proof.Machine
end

