-- ==== Sys2Proof/Machine/Fw.lean ====
section
/-! DEFINITION. The firmware: its start, loader mode, settings, and updates (19_firmware_update.md R493-R508, R468 step 9). -/
namespace Sys2Proof.Machine

/-- Set the update session. -/
def State.setFwu (s : State) (f : Fwu) : State := { s with fwu := f }

/-- STATE and CODE of the session (R499). -/
def State.fwState (s : State) (st code : Nat) : State := s.setFwu { s.fwu with st := st, code := code }

/-- A record of class 0xC (R508); severities but that of code 0x00B are free (log entry 33). -/
def State.logFw (s : State) (code : Nat) (sev : Option Nat) : State :=
  let f := s.fwu
  s.logNow 12 (some code) sev
    ([BitVec.ofNat 8 f.comp, BitVec.ofNat 8 f.code] ++ beBytes 4 f.imgid ++ beBytes 4 f.ver ++ beBytes 2 f.copied)

/-! Images (R494, R495). -/

/-- The firmware area (log entry 17). -/
def fwBase : Nat := 0x20000

/-- A firmware image passes R495: its VERSION and the floors it sets; else its CODE. -/
def State.fwCheck (s : State) (blk : Nat → Option (List Byte)) (h : List Byte) : Except Nat (Nat × Nat × Nat × Nat) :=
  let nblk := beAt h 16 4
  let slot := beAt h 12 2
  let ver := beAt h 8 4
  if beAt h 0 4 ≠ 0x4C465731 ∨ nblk < 2 ∨ 448 < nblk ∨ !((h.take 64).drop 33).all (· == 0) then .error 1
  else if s.rootZeroed then .error 6
  else if s.keyCheck slot 7 ≠ 0 then .error 2
  else match readBlocks (blockOk (s.slotKeyBytes slot) ((h.drop 4).take 4)) blk nblk 0 with
    | .error _ => .error 2
    | .ok _ =>
      if ver < s.fwMin then .error 3
      else if Config.loaderVersion.toNat < beAt h 20 4 then .error 4
      else if !nbit (byteAt h 32) (fld (resetWord (Reg.PG_ID Reg.pgCHIP)) 7 0) then .error 5
      else if ver < beAt h 24 4 then .error 1
      else .ok (ver, beAt h 14 2, beAt h 24 4, beAt h 28 4)

/-- Block i of the stored firmware. -/
def State.fwStored (s : State) (i : Nat) : Option (List Byte) := some (memRdN s.mram (fwBase + 4096 * i) 4096)

/-- Block i of the staged image. -/
def State.staged0 (s : State) (i : Nat) : List Byte := memRdN s.dram (s.fwu.doff + 4096 * i) 4096

/-- The code a failed cold-route verification pass gives (R495, R499). -/
def State.crFail (s : State) (code : Nat) : Nat :=
  if code = 2 then (if s.rootZeroed then 6 else 2) else if code = 3 then 2 else if code = 5 then 3 else 1

/-- The code of the staged image, 0 where it is accepted (R495). -/
def State.stageCode (s : State) : Nat :=
  if s.fwu.comp = 1 then
    match s.fwCheck (fun i => some (s.staged0 i)) (s.staged0 0) with
    | .error c => c
    | .ok _ => 0
  else
    match s.crCheck (fun _ i => some (s.staged0 i)) (s.staged0 0) with
    | .error (c, _) => s.crFail c
    | .ok _ => 0

/-! Settings (R506, R507). -/

/-- Address of settings copy b. -/
def settingsAt (b : Bool) : Nat := if b then 0x2B9000 else 0x2B2000

/-- The header of a settings copy. -/
def State.settingsHead (s : State) (b : Bool) : List Byte := memRdN s.mram (settingsAt b) 16

/-- A settings copy is good: its CRC over the body holds. -/
def State.settingsGood (s : State) (b : Bool) : Bool :=
  let h := s.settingsHead b
  let n := beAt h 8 4
  decide (n ≤ 28656) && crc32 (memRdN s.mram (settingsAt b + 16) n) == beAt h 12 4

/-- The settings copy that stands. -/
def State.settingsStands (s : State) : Option Bool :=
  standing (s.settingsGood false) (s.settingsGood true) (beAt (s.settingsHead false) 0 4) (beAt (s.settingsHead true) 0 4)

/-- FMT of the standing copy, 0 where there is none. -/
def State.settingsFmt (s : State) : Nat :=
  match s.settingsStands with
  | none => 0
  | some b => beAt (s.settingsHead b) 4 2

/-- The defaults of a format are written as a new copy. -/
def State.settingsWrite (s : State) (fmt : Nat) : State :=
  let (dst, sq) := match s.settingsStands with
    | none => (false, 1)
    | some b => (!b, (beAt (s.settingsHead b) 0 4 + 1) % 2 ^ 32)
  let body := (Config.settingsBody fmt).take 28656
  s.mramWrite (settingsAt dst) (beBytes 4 sq ++ beBytes 2 fmt ++ [0, 0] ++ beBytes 4 body.length ++ beBytes 4 (crc32 body) ++ body)

/-- The settings at a start of firmware that writes format fmt (R507). -/
def State.settingsCheck (s : State) (fmt : Nat) : State :=
  match s.settingsStands with
  | none => (s.settingsWrite fmt).logFw 7 none
  | some _ =>
    if s.settingsFmt = fmt then s
    else if s.settingsFmt < fmt then (s.settingsWrite fmt).logFw 7 none
    else s.logFw 8 none

/-! Start and loader mode (R468 step 9, R505). -/

/-- Loader mode with STATE and CODE. -/
def State.loaderMode (s : State) (st code : Nat) : State :=
  (((s.fwState st code).setPhase 5).wb Reg.CHIP_BOOTSTAT 30 false).logFw 6 none

/-- Loader mode ends: PHASE shows the result of the cold-route steps again. -/
def State.leaveLoader (s : State) : State :=
  if s.rf Reg.CHIP_BOOTSTAT 27 24 = 5 then s.setPhase (if s.rb Reg.CHIP_BOOTERR 31 then 4 else 3) else s

/-- The stored firmware is verified and started; a failure enters loader mode (R505, R507). -/
def State.startFirmware (s : State) : State :=
  match s.fwCheck s.fwStored (memRdN s.mram fwBase 4096) with
  | .error _ => s.loaderMode 6 0xB
  | .ok (ver, fmt, _) =>
    let s := (s.leaveLoader.wb Reg.CHIP_BOOTSTAT 30 true).setBoot { s.boot with fwVer := ver }
    s.settingsCheck fmt

/-- The staged image of an interrupted copy is still there (R504): block 0 at DOFF verifies and carries IMGID and NBLK. -/
def State.stageKept (s : State) (j : Journal) : Bool :=
  let h := memRdN s.dram j.doff 4096
  s.keyCheck (beAt h 12 2) 7 == 0 && blockOk (s.slotKeyBytes (beAt h 12 2)) ((h.drop 4).take 4) 0 h
    && beAt h 4 4 == j.imgid && beAt h 16 4 == j.nblk

/-- The session a journal describes. -/
def Journal.session (j : Journal) (st code ver : Nat) : Fwu :=
  { st := st, code := code, comp := j.comp, imgid := j.imgid, ver := ver, copied := j.next, nblk := j.nblk, doff := j.doff,
    len := j.nblk * 4096, qoff := j.qoff }

/-- A copy that was interrupted for good: the journal reads INCOMPLETE; the firmware's copy leads to loader mode (R504). -/
def State.incomplete (s : State) (j : Journal) : State :=
  let s := if j.st = 3 then s else s.setJournal { j with st := 3 }
  let s := s.setFwu (j.session 7 0xA 0)
  if j.comp = 1 then s.loaderMode 7 0xA else s.startFirmware

/-- FIRMWARE_START (R468 step 9): the RESET record (R474), a lost floor record (R506), then the journal decides (R504, R505). -/
def execFirmwareStart (s : State) : Host.Outcome State Fault Refusal :=
  .next (if s.boot.stage ≠ 5 ∨ s.pwr.held ∨ s.inSave then s
  else
    let s := s.setBoot { s.boot with stage := 6 }
    let s := s.logNow 1 none none (beBytes 4 s.rstCauseView.toNat ++ s.rdBytes Reg.CHIP_BOOTERR ++ s.rdBytes Reg.CHIP_BOOTSTAT)
    let s := if (s.pairStands floorBase).isNone then s.logFw 0xB (some 3) else s
    let j := s.journal
    let open_ := j.st == 1 || j.st == 3
    if s.rootZeroed then
      let s := if j.st = 1 then s.setJournal { j with st := 3 } else s
      (if open_ then s.setFwu (j.session 7 6 0) else s).loaderMode (if open_ then 7 else 6) 6
    else if j.st = 1 ∧ s.pwr.cause.1 = rWARM ∧ s.stageKept j then
      (s.setFwu (j.session 4 0 (beAt (memRdN s.dram j.doff 4096) 8 4))).logFw 5 none
    else if open_ then s.incomplete j
    else s.startFirmware)

/-! Mailbox operations (R497, R498). -/

def execFwStatus (s : State) : Host.Outcome State Fault Refusal :=
  .next (s.mail 0x20 false 0 (fun t =>
    let f := t.fwu
    t.answer mOK [f.st * 2 ^ 24 + f.code * 2 ^ 16 + f.comp * 2 ^ 8, f.imgid, f.copied, f.nblk, t.fwMin, t.crMin, t.settingsFmt,
      Config.loaderVersion.toNat]))

/-- [a, a + n) and [b, b + m) have no byte in common. -/
def apart (a n b m : Nat) : Bool := n == 0 || m == 0 || decide (a + n ≤ b) || decide (b + m ≤ a)

/-- A region that STAGE accepts: whole blocks below 4 GiB, clear of TKT_REGION and TPE_POOL in force (R497). -/
def State.stageOk (s : State) (a n : Nat) : Bool :=
  let mib := fun (x : Nat) => x * 2 ^ 20
  n % 4096 == 0 && decide (a + n ≤ 2 ^ 32)
    && apart a n (mib (s.rf Reg.TKT_REGION 27 16)) (mib (s.rf Reg.TKT_REGION 11 0))
    && apart a n (mib (s.rf Reg.TPE_POOL 27 16)) (mib (s.rf Reg.TPE_POOL 10 0))

def execStage (s : State) : Host.Outcome State Fault Refusal :=
  .next (s.mail 0x21 false 3 (fun t =>
    let comp := t.mailReq 1 % 256
    if t.fwu.st = 1 ∨ t.fwu.st = 3 ∨ t.fwu.st = 4 then t.answer mBUSY []
    else if (comp ≠ 1 ∧ comp ≠ 2) ∨ !t.stageOk (t.mailReq 2) (t.mailReq 3) then t.answer mBADARG []
    else (t.setFwu { st := 1, comp := comp, doff := t.mailReq 2, len := t.mailReq 3 }).answer mOK []))

/-- STAGE_VERIFICATION_COMPLETE (R495, R497): STAGED or FAILED, with its record. In SAVE the DRAM cannot be read (R430). -/
def execStageVerificationComplete (s : State) : Host.Outcome State Fault Refusal :=
  .next (if s.fwu.st ≠ 1 ∨ s.inSave then s
  else
    let h := s.staged0 0
    let c := s.stageCode
    let q := if s.fwu.comp = 2 ∧ byteAt h 14 = 1 then beAt h 20 4 else 0
    let f := { s.fwu with imgid := beAt h 4 4, ver := beAt h 8 4, nblk := beAt h 16 4, qoff := q }
    if c = 0 then (s.setFwu { f with st := 2, code := 0 }).logFw 1 none
    else (s.setFwu { f with st := 6, code := c }).logFw 2 none)

/-- The journal of the running session with NEXT. -/
def State.copyJournal (s : State) (st next : Nat) : State :=
  let f := s.fwu
  s.setJournal ⟨st, f.comp, f.imgid, f.nblk, next, f.doff, f.qoff⟩

/-- The copy starts (R501): the loader has control; late: the target had passed (R500). Before the first block is touched the
journal reads COPYING with NEXT = 0; in SAVE that waits (R436). -/
def State.copyStart (s : State) (late : Bool) : State :=
  let s := (s.setFwu { s.fwu with st := 4, code := 0, copied := 0, target := none }).wb Reg.CHIP_BOOTSTAT 30 false
  let s := if s.inSave then s else s.copyJournal 1 0
  s.logFw (if late then 0xA else 3) none

def execActivate (s : State) : Host.Outcome State Fault Refusal :=
  .next (s.mail 0x22 false 4 (fun t =>
    if t.fwu.st ≠ 2 then t.answer mBUSY []
    else if 999999999 < t.mailReq 4 then t.answer mBADARG []
    else if !nbit (t.mailReq 1) 0 then (t.answer mOK []).copyStart false
    else
      let x := (t.mailReq 2 + t.mailReq 3 % 65536 * 2 ^ 32) * 1000000000 + t.mailReq 4
      let t := t.answer mOK []
      if x ≤ t.tsy.full then t.copyStart (decide (x < t.tsy.full)) else t.setFwu { t.fwu with st := 3, target := some x }))

def execCancel (s : State) : Host.Outcome State Fault Refusal :=
  .next (s.mail 0x23 false 0 (fun t =>
    if t.fwu.st = 4 then t.answer mBUSY []
    else if t.fwu.st = 1 ∨ t.fwu.st = 2 ∨ t.fwu.st = 3 then
      ((t.setFwu { t.fwu with st := 6, code := 0xC, target := none }).answer mOK []).logFw 9 none
    else t.answer mOK []))

/-- ACTIVATION_START (R500, R501): full time is at or after the target. -/
def execActivationStart (s : State) : Host.Outcome State Fault Refusal :=
  .next (match s.fwu.target with
    | none => s
    | some x => if s.fwu.st = 3 ∧ x ≤ s.tsy.full then s.copyStart false else s)

/-! The copy (R502-R504). -/

/-- The copy stops with a code (R504). -/
def State.copyStop (s : State) (code : Nat) : State :=
  let s := (s.copyJournal 3 s.fwu.copied).fwState 7 code
  if s.fwu.comp = 1 then s.loaderMode 7 code else s.startFirmware

/-- Block i goes to QSPI flash (R502 step 2). -/
def State.toQspi (s : State) (i : Nat) : Bool := s.fwu.comp == 2 && i != 0 && byteAt (s.staged0 0) 14 == 1

/-- Bytes are written where block i belongs. -/
def State.putBlock (s : State) (i : Nat) (b : List Byte) : State :=
  if s.toQspi i then { s with qspi := memWrN s.qspi (s.fwu.qoff + 4096 * (i - 1)) b }
  else s.mramWrite ((if s.fwu.comp = 1 then fwBase else crBase) + 4096 * i) b

/-- After the last block (R502): floors of a firmware image, the journal, the firmware's start. -/
def State.copyFinish (s : State) : State :=
  let h := s.staged0 0
  let s := if s.fwu.comp = 1 then
      s.pairWrite floorBase (beBytes 4 (max s.fwMin (beAt h 24 4)) ++ beBytes 4 (max s.crMin (beAt h 28 4)))
    else s
  let s := s.copyJournal 2 s.fwu.nblk
  let s := s.startFirmware
  if s.fwRun then (s.fwState 5 0).logFw 4 none else s

/-- One block is checked, written, read back and journalled. bad: how many of its writes are read back different; after the write
and three repetitions the copy stops, and what the place then holds is free. -/
def State.copyBlock1 (s : State) (bad : Nat) : State :=
  let i := s.fwu.copied
  let h := s.staged0 0
  let b := s.staged0 i
  let slot := beAt h 12 2
  if s.rootZeroed then s.copyStop 6
  else if s.keyCheck slot 7 ≠ 0 ∨ !blockOk (s.slotKeyBytes slot) (beBytes 4 s.fwu.imgid) i b then s.copyStop 9
  else
    let s := if s.journal.st = 1 then s else s.copyJournal 1 i
    if 4 ≤ bad then
      let (x, s) := s.freeBytes 1024
      (s.putBlock i x).copyStop (if s.toQspi i then 8 else 7)
    else
      let s := (s.putBlock i b).copyJournal 1 (i + 1)
      let s := s.setFwu { s.fwu with copied := i + 1 }
      if s.fwu.nblk ≤ i + 1 then s.copyFinish else s

/-- BLOCK_COPY (R502); in SAVE it waits (R436). -/
def execBlockCopy (bad : Nat) (s : State) : Host.Outcome State Fault Refusal :=
  .next (if s.fwu.st ≠ 4 ∨ s.pwr.held ∨ s.inSave then s else s.copyBlock1 bad)

end Sys2Proof.Machine
end

