-- ==== Sys2Proof/Machine/Dispatch.lean ====
section
/-! DEFINITION. The dispatch: one arm per constructor of Instr, each one direct call of its meaning. -/
namespace Sys2Proof.Machine

def exec (i : Instr) (s : State) : Host.Outcome State Fault Refusal :=
  match i with
  | .registerWrite init off words allBytes v => Sys2Proof.Machine.execRegisterWrite init off words allBytes v s
  | .shadowWrite init off v => Sys2Proof.Machine.execShadowWrite init off v s
  | .unlockKeyWrite init page v => Sys2Proof.Machine.execUnlockKeyWrite init page v s
  | .guardedWrite init off v => Sys2Proof.Machine.execGuardedWrite init off v s
  | .interruptSet init page v => Sys2Proof.Machine.execInterruptSet init page v s
  | .interruptStatusClear init page v => Sys2Proof.Machine.execInterruptStatusClear init page v s
  | .lowWordReadLatch init off words allBytes => Sys2Proof.Machine.execLowWordReadLatch init off words allBytes s
  | .lowWordWriteHold init off v => Sys2Proof.Machine.execLowWordWriteHold init off v s
  | .highWordWrite init off v => Sys2Proof.Machine.execHighWordWrite init off v s
  | .errCountRead init => Sys2Proof.Machine.execErrCountRead init s
  | .errLastAddrRead init => Sys2Proof.Machine.execErrLastAddrRead init s
  | .errClr init v => Sys2Proof.Machine.execErrClr init v s
  | .counterClear init page v => Sys2Proof.Machine.execCounterClear init page v s
  | .commitImmediateRequest init v => Sys2Proof.Machine.execCommitImmediateRequest init v s
  | .timedCommitArm init v => Sys2Proof.Machine.execTimedCommitArm init v s
  | .timedCommitCancel init v => Sys2Proof.Machine.execTimedCommitCancel init v s
  | .timedCommitDue => Sys2Proof.Machine.execTimedCommitDue s
  | .commitApply => Sys2Proof.Machine.execCommitApply s
  | .tableStagedWrite init off ws allBytes => Sys2Proof.Machine.execTableStagedWrite init off ws allBytes s
  | .tableValidWrite init off ws allBytes => Sys2Proof.Machine.execTableValidWrite init off ws allBytes s
  | .tableWord0Read init off n allBytes => Sys2Proof.Machine.execTableWord0Read init off n allBytes s
  | .kykelSummaryWord => Sys2Proof.Machine.execKykelSummaryWord s
  | .kIntChange => Sys2Proof.Machine.execKIntChange s
  | .islandClockGate island => Sys2Proof.Machine.execIslandClockGate island s
  | .islandClockRestart island => Sys2Proof.Machine.execIslandClockRestart island s
  | .dramSelfRefreshEntry => Sys2Proof.Machine.execDramSelfRefreshEntry s
  | .dramSelfRefreshExit => Sys2Proof.Machine.execDramSelfRefreshExit s
  | .xanpelFrame dir f crcOk busHeld => Sys2Proof.Machine.execXanpelFrame dir f crcOk busHeld s
  | .readRequestMsg dir m busHeld => Sys2Proof.Machine.execReadRequestMsg dir m busHeld s
  | .postedWriteMsg dir m busHeld => Sys2Proof.Machine.execPostedWriteMsg dir m busHeld s
  | .nonPostedWriteMsg dir m busHeld => Sys2Proof.Machine.execNonPostedWriteMsg dir m busHeld s
  | .readDataMsg dir m => Sys2Proof.Machine.execReadDataMsg dir m s
  | .writeAcknowledgementMsg dir m => Sys2Proof.Machine.execWriteAcknowledgementMsg dir m s
  | .retryMsg dir m => Sys2Proof.Machine.execRetryMsg dir m s
  | .errorMsg dir m => Sys2Proof.Machine.execErrorMsg dir m s
  | .lockRequestMsg dir m busHeld => Sys2Proof.Machine.execLockRequestMsg dir m busHeld s
  | .lockGrantMsg dir m => Sys2Proof.Machine.execLockGrantMsg dir m s
  | .lockReleaseMsg dir m => Sys2Proof.Machine.execLockReleaseMsg dir m s
  | .lockBreakMsg dir m => Sys2Proof.Machine.execLockBreakMsg dir m s
  | .registerMessageResend dir => Sys2Proof.Machine.execRegisterMessageResend dir s
  | .retryIntervalExpiry => Sys2Proof.Machine.execRetryIntervalExpiry s
  | .lockReq init v => Sys2Proof.Machine.execLockReq init v s
  | .lockRel init v => Sys2Proof.Machine.execLockRel init v s
  | .lockBreak => Sys2Proof.Machine.execLockBreak s
  | .retryReservationExpiry => Sys2Proof.Machine.execRetryReservationExpiry s
  | .linkTrainingStart => Sys2Proof.Machine.execLinkTrainingStart s
  | .trainingSuccess loopDly => Sys2Proof.Machine.execTrainingSuccess loopDly s
  | .trainingAttemptTimeout => Sys2Proof.Machine.execTrainingAttemptTimeout s
  | .linkLost => Sys2Proof.Machine.execLinkLost s
  | .xplTrain init v => Sys2Proof.Machine.execXplTrain init v s
  | .pfWarn => Sys2Proof.Machine.execPfWarn s
  | .tampAlm => Sys2Proof.Machine.execTampAlm s
  | .kRstreq => Sys2Proof.Machine.execKRstreq s
  | .canConfigTakeEffect n => Sys2Proof.Machine.execCanConfigTakeEffect n s
  | .busIntegrationComplete n => Sys2Proof.Machine.execBusIntegrationComplete n s
  | .canFrameValid n self f sofAge => Sys2Proof.Machine.execCanFrameValid n self f sofAge s
  | .transmitSelection n rxDom => Sys2Proof.Machine.execTransmitSelection n rxDom s
  | .transmissionSuccess n sofAge => Sys2Proof.Machine.execTransmissionSuccess n sofAge s
  | .arbitrationLost n => Sys2Proof.Machine.execArbitrationLost n s
  | .canError n e tx dataPhase exempt place => Sys2Proof.Machine.execCanError n e tx dataPhase exempt place s
  | .protocolExceptionEvent n => Sys2Proof.Machine.execProtocolExceptionEvent n s
  | .overloadFrame n => Sys2Proof.Machine.execOverloadFrame n s
  | .suspendTransmissionEnd n => Sys2Proof.Machine.execSuspendTransmissionEnd n s
  | .txDeadlineDrop n => Sys2Proof.Machine.execTxDeadlineDrop n s
  | .txCancel init n v => Sys2Proof.Machine.execTxCancel init n v s
  | .recoveryRequest init n v => Sys2Proof.Machine.execRecoveryRequest init n v s
  | .recoveryComplete n => Sys2Proof.Machine.execRecoveryComplete n s
  | .privetJobAccept src laurel => Sys2Proof.Machine.execPrivetJobAccept src laurel s
  | .copyEnqueue job k => Sys2Proof.Machine.execCopyEnqueue job k s
  | .heldCopyPlacement n => Sys2Proof.Machine.execHeldCopyPlacement n s
  | .heldCopyDeadlineDrop n => Sys2Proof.Machine.execHeldCopyDeadlineDrop n s
  | .cycleWindowExpiry route => Sys2Proof.Machine.execCycleWindowExpiry route s
  | .routeCounterLatch init v => Sys2Proof.Machine.execRouteCounterLatch init v s
  | .routeCounterClear init v => Sys2Proof.Machine.execRouteCounterClear init v s
  | .aggregationTimerExpiry stream => Sys2Proof.Machine.execAggregationTimerExpiry stream s
  | .tunnelFrameReceive => Sys2Proof.Machine.execTunnelFrameReceive s
  | .streamSilenceTimeout stream => Sys2Proof.Machine.execStreamSilenceTimeout stream s
  | .signalHandoff => Sys2Proof.Machine.execSignalHandoff s
  | .staleMark src => Sys2Proof.Machine.execStaleMark src s
  | .staleMarkPass => Sys2Proof.Machine.execStaleMarkPass s
  | .periodicScheduleInstant layout => Sys2Proof.Machine.execPeriodicScheduleInstant layout s
  | .minivDeferredSend layout => Sys2Proof.Machine.execMinivDeferredSend layout s
  | .pduFrameFormation => Sys2Proof.Machine.execPduFrameFormation s
  | .signalSlotLatch init v => Sys2Proof.Machine.execSignalSlotLatch init v s
  | .pduCounterLatch init v => Sys2Proof.Machine.execPduCounterLatch init v s
  | .pduCounterClear init v => Sys2Proof.Machine.execPduCounterClear init v s
  | .addressClaimed => Sys2Proof.Machine.execAddressClaimed s
  | .requestForAddressClaim => Sys2Proof.Machine.execRequestForAddressClaim s
  | .claimFrameSent => Sys2Proof.Machine.execClaimFrameSent s
  | .claimWaitExpiry e => Sys2Proof.Machine.execClaimWaitExpiry e s
  | .claimRetry e => Sys2Proof.Machine.execClaimRetry e s
  | .cannotClaimSend e => Sys2Proof.Machine.execCannotClaimSend e s
  | .clmReq init v => Sys2Proof.Machine.execClmReq init v s
  | .ledgerFlush init v => Sys2Proof.Machine.execLedgerFlush init v s
  | .claimWindowOpen n start => Sys2Proof.Machine.execClaimWindowOpen n start s
  | .claimWindowEnd n => Sys2Proof.Machine.execClaimWindowEnd n s
  | .tpCmRts => Sys2Proof.Machine.execTpCmRts s
  | .tpCmBam => Sys2Proof.Machine.execTpCmBam s
  | .tpDt => Sys2Proof.Machine.execTpDt s
  | .etpCmDpo => Sys2Proof.Machine.execEtpCmDpo s
  | .tpCmCts => Sys2Proof.Machine.execTpCmCts s
  | .tpCmEoma => Sys2Proof.Machine.execTpCmEoma s
  | .connAbort => Sys2Proof.Machine.execConnAbort s
  | .t1Timeout session => Sys2Proof.Machine.execT1Timeout session s
  | .t2Timeout session => Sys2Proof.Machine.execT2Timeout session s
  | .t3Timeout session part => Sys2Proof.Machine.execT3Timeout session part s
  | .t4Timeout session part => Sys2Proof.Machine.execT4Timeout session part s
  | .bamPacketGap session part => Sys2Proof.Machine.execBamPacketGap session part s
  | .poolChangeEffect => Sys2Proof.Machine.execPoolChangeEffect s
  | .sessionLatch init v => Sys2Proof.Machine.execSessionLatch init v s
  | .ethernetFrameReceive port bytes fcsOk symErr note => Sys2Proof.Machine.execEthernetFrameReceive port bytes fcsOk symErr note s
  | .pauseReceive port quanta => Sys2Proof.Machine.execPauseReceive port quanta s
  | .pfcReceive port vector quanta => Sys2Proof.Machine.execPfcReceive port vector quanta s
  | .pauseExpiry port cls => Sys2Proof.Machine.execPauseExpiry port cls s
  | .pauseRequestSend port => Sys2Proof.Machine.execPauseRequestSend port s
  | .pauseRepeat port => Sys2Proof.Machine.execPauseRepeat port s
  | .pauseWatchdogTrip port cls => Sys2Proof.Machine.execPauseWatchdogTrip port cls s
  | .pauseIgnoreEnd port cls => Sys2Proof.Machine.execPauseIgnoreEnd port cls s
  | .lossOfLink port => Sys2Proof.Machine.execLossOfLink port s
  | .linkUp port speed half => Sys2Proof.Machine.execLinkUp port speed half s
  | .linkHoldExpiry port => Sys2Proof.Machine.execLinkHoldExpiry port s
  | .autoNegotiationComplete port lpPause => Sys2Proof.Machine.execAutoNegotiationComplete port lpPause s
  | .autoNegotiationRestart init port v => Sys2Proof.Machine.execAutoNegotiationRestart init port v s
  | .physicalCollision m => Sys2Proof.Machine.execPhysicalCollision m s
  | .backoffExpiry m => Sys2Proof.Machine.execBackoffExpiry m s
  | .beacon m => Sys2Proof.Machine.execBeacon m s
  | .plcaStatusChange m ok => Sys2Proof.Machine.execPlcaStatusChange m ok s
  | .egressSelection port agree => Sys2Proof.Machine.execEgressSelection port agree s
  | .frameTransmitted port => Sys2Proof.Machine.execFrameTransmitted port s
  | .policerWrite init v => Sys2Proof.Machine.execPolicerWrite init v s
  | .policerRead init v => Sys2Proof.Machine.execPolicerRead init v s
  | .filterWrite init v => Sys2Proof.Machine.execFilterWrite init v s
  | .filterRead init v => Sys2Proof.Machine.execFilterRead init v s
  | .thicketSpill port cls => Sys2Proof.Machine.execThicketSpill port cls s
  | .thicketReadBack port cls => Sys2Proof.Machine.execThicketReadBack port cls s
  | .readBackComplete port cls crcOk => Sys2Proof.Machine.execReadBackComplete port cls crcOk s
  | .thicketRegionEffect => Sys2Proof.Machine.execThicketRegionEffect s
  | .internalStallDrop port cls => Sys2Proof.Machine.execInternalStallDrop port cls s
  | .queueFlush init v => Sys2Proof.Machine.execQueueFlush init v s
  | .queueFlushDone => Sys2Proof.Machine.execQueueFlushDone s
  | .ingressCounterLatch init v => Sys2Proof.Machine.execIngressCounterLatch init v s
  | .dropCounterLatch init v => Sys2Proof.Machine.execDropCounterLatch init v s
  | .vlanWrite init v => Sys2Proof.Machine.execVlanWrite init v s
  | .vlanRead init v => Sys2Proof.Machine.execVlanRead init v s
  | .learningRequest => Sys2Proof.Machine.execLearningRequest s
  | .ageingSweep => Sys2Proof.Machine.execAgeingSweep s
  | .macFlush init v => Sys2Proof.Machine.execMacFlush init v s
  | .macFlushDone => Sys2Proof.Machine.execMacFlushDone s
  | .overflowWrite init v => Sys2Proof.Machine.execOverflowWrite init v s
  | .overflowRead init v => Sys2Proof.Machine.execOverflowRead init v s
  | .lpmMove init v => Sys2Proof.Machine.execLpmMove init v s
  | .lpmMoveDone => Sys2Proof.Machine.execLpmMoveDone s
  | .lpmCheck init v => Sys2Proof.Machine.execLpmCheck init v s
  | .lpmCheckDone => Sys2Proof.Machine.execLpmCheckDone s
  | .rateWrite init v => Sys2Proof.Machine.execRateWrite init v s
  | .timeAdd init => Sys2Proof.Machine.execTimeAdd init s
  | .timeSubtract init => Sys2Proof.Machine.execTimeSubtract init s
  | .timeSet init => Sys2Proof.Machine.execTimeSet init s
  | .syncLock init => Sys2Proof.Machine.execSyncLock init s
  | .syncHold init lock => Sys2Proof.Machine.execSyncHold init lock s
  | .syncWatchdogExpiry => Sys2Proof.Machine.execSyncWatchdogExpiry s
  | .nowRead init => Sys2Proof.Machine.execNowRead init s
  | .toutArm init n periodic pol => Sys2Proof.Machine.execToutArm init n periodic pol s
  | .toutDisarm init n periodic pol => Sys2Proof.Machine.execToutDisarm init n periodic pol s
  | .toutPulseStart n => Sys2Proof.Machine.execToutPulseStart n s
  | .toutPulseEnd n => Sys2Proof.Machine.execToutPulseEnd n s
  | .captureEdge n rising => Sys2Proof.Machine.execCaptureEdge n rising s
  | .captureRead init n => Sys2Proof.Machine.execCaptureRead init n s
  | .captureClear init n v => Sys2Proof.Machine.execCaptureClear init n v s
  | .correlationRequest init v => Sys2Proof.Machine.execCorrelationRequest init v s
  | .correlationLatch => Sys2Proof.Machine.execCorrelationLatch s
  | .macsecVerifyJob => Sys2Proof.Machine.execMacsecVerifyJob s
  | .cryptoVerifyComplete job agree => Sys2Proof.Machine.execCryptoVerifyComplete job agree s
  | .knownAnswerTestComplete pipe pass => Sys2Proof.Machine.execKnownAnswerTestComplete pipe pass s
  | .pipeRestart init v => Sys2Proof.Machine.execPipeRestart init v s
  | .scWrite init v => Sys2Proof.Machine.execScWrite init v s
  | .scRead init v => Sys2Proof.Machine.execScRead init v s
  | .saWrite init v => Sys2Proof.Machine.execSaWrite init v s
  | .saRead init v => Sys2Proof.Machine.execSaRead init v s
  | .portCounterLatch init v => Sys2Proof.Machine.execPortCounterLatch init v s
  | .canSecureJob slot k => Sys2Proof.Machine.execCanSecureJob slot k s
  | .canVerifyJob slot => Sys2Proof.Machine.execCanVerifyJob slot s
  | .canJobComplete job agree => Sys2Proof.Machine.execCanJobComplete job agree s
  | .associationWrite init v => Sys2Proof.Machine.execAssociationWrite init v s
  | .associationRead init v => Sys2Proof.Machine.execAssociationRead init v s
  | .freshnessWrite init v => Sys2Proof.Machine.execFreshnessWrite init v s
  | .freshnessRead init v => Sys2Proof.Machine.execFreshnessRead init v s
  | .markWrite => Sys2Proof.Machine.execMarkWrite s
  | .ringTailWrite init ring v => Sys2Proof.Machine.execRingTailWrite init ring v s
  | .memoryJobFetch ring host ok => Sys2Proof.Machine.execMemoryJobFetch ring host ok s
  | .memoryJobComplete job host busOk agree invOk wrote => Sys2Proof.Machine.execMemoryJobComplete job host busOk agree invOk wrote s
  | .ringReset init ring v => Sys2Proof.Machine.execRingReset init ring v s
  | .slotLoadComplete => Sys2Proof.Machine.execSlotLoadComplete s
  | .messageWordWrite init k v => Sys2Proof.Machine.execMessageWordWrite init k v s
  | .updateGo init v => Sys2Proof.Machine.execUpdateGo init v s
  | .updateComplete cntOk recOk => Sys2Proof.Machine.execUpdateComplete cntOk recOk s
  | .rekey init v => Sys2Proof.Machine.execRekey init v s
  | .rekeyComplete => Sys2Proof.Machine.execRekeyComplete s
  | .tamperDecision sensor => Sys2Proof.Machine.execTamperDecision sensor s
  | .tamperControlWrite init v => Sys2Proof.Machine.execTamperControlWrite init v s
  | .eventRingClear init v => Sys2Proof.Machine.execEventRingClear init v s
  | .rtcRead init => Sys2Proof.Machine.execRtcRead init s
  | .vbatReset => Sys2Proof.Machine.execVbatReset s
  | .pcieLinkLoss => Sys2Proof.Machine.execPcieLinkLoss s
  | .busMasterEnable on => Sys2Proof.Machine.execBusMasterEnable on s
  | .functionLevelReset => Sys2Proof.Machine.execFunctionLevelReset s
  | .hifEoi init v => Sys2Proof.Machine.execHifEoi init v s
  | .msixUnmask v ctl => Sys2Proof.Machine.execMsixUnmask v ctl s
  | .txTailWrite init q v => Sys2Proof.Machine.execTxTailWrite init q v s
  | .rxTailWrite init q v => Sys2Proof.Machine.execRxTailWrite init q v s
  | .queueDescriptorFetch q host => Sys2Proof.Machine.execQueueDescriptorFetch q host s
  | .txDescriptorComplete q => Sys2Proof.Machine.execTxDescriptorComplete q s
  | .rxItemWrite q host => Sys2Proof.Machine.execRxItemWrite q host s
  | .queueHoldoffExpiry q => Sys2Proof.Machine.execQueueHoldoffExpiry q s
  | .queueReset init v => Sys2Proof.Machine.execQueueReset init v s
  | .queueResetDone => Sys2Proof.Machine.execQueueResetDone s
  | .queueConfigWrite init v => Sys2Proof.Machine.execQueueConfigWrite init v s
  | .queueConfigRead init v => Sys2Proof.Machine.execQueueConfigRead init v s
  | .copyRingTailWrite init n v => Sys2Proof.Machine.execCopyRingTailWrite init n v s
  | .copyDescriptorFetch n host => Sys2Proof.Machine.execCopyDescriptorFetch n host s
  | .copyDescriptorComplete n host => Sys2Proof.Machine.execCopyDescriptorComplete n host s
  | .burstStart n host => Sys2Proof.Machine.execBurstStart n host s
  | .channelPause init n v => Sys2Proof.Machine.execChannelPause init n v s
  | .channelPaused n drain host => Sys2Proof.Machine.execChannelPaused n drain host s
  | .channelResume init n v => Sys2Proof.Machine.execChannelResume init n v s
  | .channelHalt n poison write addr index => Sys2Proof.Machine.execChannelHalt n poison write addr index s
  | .completionTimeout n addr index => Sys2Proof.Machine.execCompletionTimeout n addr index s
  | .channelReset init t v => Sys2Proof.Machine.execChannelReset init t v s
  | .channelResetDone n => Sys2Proof.Machine.execChannelResetDone n s
  | .startCondition => Sys2Proof.Machine.execStartCondition s
  | .buckSoftStartComplete => Sys2Proof.Machine.execBuckSoftStartComplete s
  | .coreEnableDelay => Sys2Proof.Machine.execCoreEnableDelay s
  | .corePgRise => Sys2Proof.Machine.execCorePgRise s
  | .dramEnableDelay => Sys2Proof.Machine.execDramEnableDelay s
  | .dramPgRise => Sys2Proof.Machine.execDramPgRise s
  | .powerGoodTimeout => Sys2Proof.Machine.execPowerGoodTimeout s
  | .sequenceRetry => Sys2Proof.Machine.execSequenceRetry s
  | .powerDownCoreDisable => Sys2Proof.Machine.execPowerDownCoreDisable s
  | .powerDownBuckStop => Sys2Proof.Machine.execPowerDownBuckStop s
  | .railFailure src => Sys2Proof.Machine.execRailFailure src s
  | .fastUndervoltage => Sys2Proof.Machine.execFastUndervoltage s
  | .powerFailWarning => Sys2Proof.Machine.execPowerFailWarning s
  | .supplyReset => Sys2Proof.Machine.execSupplyReset s
  | .overvoltage => Sys2Proof.Machine.execOvervoltage s
  | .overvoltageClear => Sys2Proof.Machine.execOvervoltageClear s
  | .saveComplete => Sys2Proof.Machine.execSaveComplete s
  | .rideThrough vhmin => Sys2Proof.Machine.execRideThrough vhmin s
  | .holdUpOk up => Sys2Proof.Machine.execHoldUpOk up s
  | .chargerTimeout => Sys2Proof.Machine.execChargerTimeout s
  | .capacitanceMeasurement t => Sys2Proof.Machine.execCapacitanceMeasurement t s
  | .domainSleep k => Sys2Proof.Machine.execDomainSleep k s
  | .domainWake doms => Sys2Proof.Machine.execDomainWake doms s
  | .keepAliveFrame n f => Sys2Proof.Machine.execKeepAliveFrame n f s
  | .routeDemand => Sys2Proof.Machine.execRouteDemand s
  | .wakeRequest init v => Sys2Proof.Machine.execWakeRequest init v s
  | .txdDominantTimeout n => Sys2Proof.Machine.execTxdDominantTimeout n s
  | .thermalShutdown n => Sys2Proof.Machine.execThermalShutdown n s
  | .transceiverFaultClear n tsd => Sys2Proof.Machine.execTransceiverFaultClear n tsd s
  | .failSafe => Sys2Proof.Machine.execFailSafe s
  | .lwakeEvent n level => Sys2Proof.Machine.execLwakeEvent n level s
  | .wakeLnAssert => Sys2Proof.Machine.execWakeLnAssert s
  | .wakeLnReleaseWaitEnd held => Sys2Proof.Machine.execWakeLnReleaseWaitEnd held s
  | .wakeUpPattern n => Sys2Proof.Machine.execWakeUpPattern n s
  | .decoderFrame n err f => Sys2Proof.Machine.execDecoderFrame n err f s
  | .rtcAlarm => Sys2Proof.Machine.execRtcAlarm s
  | .minimumAwakeExpiry => Sys2Proof.Machine.execMinimumAwakeExpiry s
  | .sleepRequest init v => Sys2Proof.Machine.execSleepRequest init v s
  | .lateWake src index => Sys2Proof.Machine.execLateWake src index s
  | .wakeDwellEnd => Sys2Proof.Machine.execWakeDwellEnd s
  | .stayLimit k => Sys2Proof.Machine.execStayLimit k s
  | .eventAck dir eseq => Sys2Proof.Machine.execEventAck dir eseq s
  | .wakeEventMsg => Sys2Proof.Machine.execWakeEventMsg s
  | .domainEventMsg => Sys2Proof.Machine.execDomainEventMsg s
  | .sleepabortMsg => Sys2Proof.Machine.execSleepabortMsg s
  | .agreeMsg => Sys2Proof.Machine.execAgreeMsg s
  | .failsafeMsg => Sys2Proof.Machine.execFailsafeMsg s
  | .stayMsg => Sys2Proof.Machine.execStayMsg s
  | .trxfaultMsg => Sys2Proof.Machine.execTrxfaultMsg s
  | .tamperEventMsg => Sys2Proof.Machine.execTamperEventMsg s
  | .coldResetRequest init v => Sys2Proof.Machine.execColdResetRequest init v s
  | .warmResetRequest init v => Sys2Proof.Machine.execWarmResetRequest init v s
  | .hifResetRequest init v => Sys2Proof.Machine.execHifResetRequest init v s
  | .coldReset => Sys2Proof.Machine.execColdReset s
  | .warmReset => Sys2Proof.Machine.execWarmReset s
  | .hifReset => Sys2Proof.Machine.execHifReset s
  | .watchdogKick init v => Sys2Proof.Machine.execWatchdogKick init v s
  | .watchdogExpiry => Sys2Proof.Machine.execWatchdogExpiry s
  | .bootRestore => Sys2Proof.Machine.execBootRestore s
  | .coldRouteVerify qspiBad => Sys2Proof.Machine.execColdRouteVerify qspiBad s
  | .coldRouteApply => Sys2Proof.Machine.execColdRouteApply s
  | .coldCommit => Sys2Proof.Machine.execColdCommit s
  | .firmwareStart => Sys2Proof.Machine.execFirmwareStart s
  | .mailboxDoorbell init v => Sys2Proof.Machine.execMailboxDoorbell init v s
  | .ping => Sys2Proof.Machine.execPing s
  | .sensorRead => Sys2Proof.Machine.execSensorRead s
  | .sensorLimit => Sys2Proof.Machine.execSensorLimit s
  | .sensorClr => Sys2Proof.Machine.execSensorClr s
  | .logInfo => Sys2Proof.Machine.execLogInfo s
  | .logRead => Sys2Proof.Machine.execLogRead s
  | .logFlush => Sys2Proof.Machine.execLogFlush s
  | .reclaim => Sys2Proof.Machine.execReclaim s
  | .boffStat => Sys2Proof.Machine.execBoffStat s
  | .responseAck init v => Sys2Proof.Machine.execResponseAck init v s
  | .eventPop init => Sys2Proof.Machine.execEventPop init s
  | .sensorSample vals => Sys2Proof.Machine.execSensorSample vals s
  | .logTailWrite => Sys2Proof.Machine.execLogTailWrite s
  | .busOffPolicy n => Sys2Proof.Machine.execBusOffPolicy n s
  | .laurelRecoveryDelay n => Sys2Proof.Machine.execLaurelRecoveryDelay n s
  | .watchPoll => Sys2Proof.Machine.execWatchPoll s
  | .fwStatus => Sys2Proof.Machine.execFwStatus s
  | .stage => Sys2Proof.Machine.execStage s
  | .activate => Sys2Proof.Machine.execActivate s
  | .cancel => Sys2Proof.Machine.execCancel s
  | .stageVerificationComplete => Sys2Proof.Machine.execStageVerificationComplete s
  | .activationStart => Sys2Proof.Machine.execActivationStart s
  | .blockCopy bad => Sys2Proof.Machine.execBlockCopy bad s
  | .joinAct init v => Sys2Proof.Machine.execJoinAct init v s
  | .joinStby init v => Sys2Proof.Machine.execJoinStby init v s
  | .promote init v => Sys2Proof.Machine.execPromote init v s
  | .demote init v => Sys2Proof.Machine.execDemote init v s
  | .heartbeatToggle => Sys2Proof.Machine.execHeartbeatToggle s
  | .heartbeatLost edge => Sys2Proof.Machine.execHeartbeatLost edge s
  | .mirroredFrame port stamp bytes => Sys2Proof.Machine.execMirroredFrame port stamp bytes s
  | .markMsg mark => Sys2Proof.Machine.execMarkMsg mark s
  | .digestMsg k plan ds => Sys2Proof.Machine.execDigestMsg k plan ds s
  | .handoverMsg => Sys2Proof.Machine.execHandoverMsg s
  | .roleMsg role synced => Sys2Proof.Machine.execRoleMsg role synced s
  | .roleMessageTimer => Sys2Proof.Machine.execRoleMessageTimer s
  | .digestIntervalEnd => Sys2Proof.Machine.execDigestIntervalEnd s
  | .obsEnable init v => Sys2Proof.Machine.execObsEnable init v s
  | .obsDisable init v => Sys2Proof.Machine.execObsDisable init v s
  | .syncRecord => Sys2Proof.Machine.execSyncRecord s
  | .countRecord => Sys2Proof.Machine.execCountRecord s
  | .pcieLinkUp speed width => Sys2Proof.Machine.execPcieLinkUp speed width s
  | .d3hotTransition on => Sys2Proof.Machine.execD3hotTransition on s
  | .tamperAlarmClear => Sys2Proof.Machine.execTamperAlarmClear s
  | .wakeLnReleaseSeen => Sys2Proof.Machine.execWakeLnReleaseSeen s
  | .lwakeLevelEnd n => Sys2Proof.Machine.execLwakeLevelEnd n s
  | .autonomousBiasTimeout n => Sys2Proof.Machine.execAutonomousBiasTimeout n s

end Sys2Proof.Machine
end

