-- ==== Sys2Proof/Machine/Step.lean ====
section
/-! DEFINITION. The step of the block: the command at the front of the queue, or one 4 ns cycle of the clock. -/
namespace Sys2Proof.Machine

/-- What the block does while no command waits (log entry 5): one cycle of the time unit (R314), of the DRAM's idle time (R36)
and of the observation port's output (R520). -/
def State.idle (s : State) : State := s.tick.dramTick.obsTick

/-- One step: the command at the front runs on the state with the rest of the queue; an empty queue lets one cycle pass. -/
def step (s : State) : Host.Outcome State Fault Refusal :=
  match s.pending with
  | [] => .next s.idle
  | c :: rest => exec c { s with pending := rest }

/-- The state with command c at the front of its queue. -/
def State.withCommand (s : State) (c : Instr) : State := { s with pending := c :: s.pending }

/-- The state with the command that a word spells at the front of its queue, unchanged where it spells none. -/
def State.withFetchWord (s : State) (nbits w : Nat) : State :=
  match decodeTableWord nbits w with
  | none => s
  | some c => s.withCommand c

end Sys2Proof.Machine
end

