-- ==== Sys2Proof/Safety.lean ====
section
/-! DEFINITION. What holds of a sound state of the block, in the terms the statements use: sparse lists in their canonical form and
counters inside their widths. -/
namespace Sys2Proof.Machine

/-- Every memory of the block is in its canonical form. -/
def State.memWf (s : State) : Bool :=
  Memory.wf s.dram && Memory.wf s.mram && Memory.wf s.lsram && Memory.wf s.hmem && Memory.wf s.qspi && Memory.wf s.prv.pdata

/-- The registers in force are in canonical form: none listed at its Reset column. -/
def State.regsWf (s : State) : Bool := amWf resetWord s.regs

/-- The clocks are inside their widths: full time modulo 2^48 s, local count modulo 2^64 (R314), the 48-bit real-time counter and the
fractions of both (R314, R369); the time unit has its four pulse outputs (R328). -/
def State.clocksOk (s : State) : Bool :=
  decide (s.tsy.full < fullWrap) && decide (s.tsy.loc < 2 ^ 64) && decide (s.tsy.frac < 2 ^ 32) && decide (s.rtc < 2 ^ 48)
    && decide (s.rtcAcc < 1000000000) && s.tsy.touts.length == 4

/-! The vocabulary of the statements. -/

/-- Command c completes from s: exec answers a next state, and P holds of that state. -/
def Completes (c : Instr) (s : State) (P : State → Prop) : Prop := ∃ t, exec c s = .next t ∧ P t

/-- Every byte of every memory of t reads as it does in s. -/
def State.sameBytes (s t : State) : Prop :=
  ∀ a, memRd t.dram a = memRd s.dram a ∧ memRd t.mram a = memRd s.mram a ∧ memRd t.lsram a = memRd s.lsram a
    ∧ memRd t.hmem a = memRd s.hmem a ∧ memRd t.qspi a = memRd s.qspi a ∧ memRd t.prv.pdata a = memRd s.prv.pdata a

/-- Every register in force but those listed reads in t as it does in s. -/
def State.sameRegs (s t : State) (but : List Nat) : Prop := ∀ a, a ∉ but → t.rd a = s.rd a

/-- The registers that count the bytes of the DMA channels with an access at the Kykel bridge. -/
def State.bridgeMoves (s : State) : List Nat :=
  s.xpl.reqs.flatMap (fun q => match q.chan with
    | some n => [Reg.DMACH_REM n, Reg.DMACH_BYTES n, Reg.PG_IST (Reg.pgDMACH n)]
    | none => [])

/-- No job waits in Privet for its turn at the claim ledger (R201). -/
abbrev State.noneWaits (s : State) : Prop := ∀ p ∈ s.prv.slots, p.2.phase ≠ .waitOrder

/-- The job of the key operation in progress runs, or may start now, and no failure has ended it. -/
def State.yewRuns (s : State) : Bool := s.yewStart.yewJob.any (fun p => p.2.code == kOK)

/-- Every word of every BAR2 table reads in t as it does in s. -/
def State.sameTables (s t : State) : Prop := ∀ a, t.tw a = s.tw a

/-- Every entry of every BAR2 table is invalid in t; its other words read as they do in s. -/
def State.tablesInvalid (s t : State) : Prop := ∀ a, t.tw a = if validWord a then setBit (s.tw a) 31 false else s.tw a

/-- What an applied commit of group mask m, asked by source src, leaves in the CMT page (R58, R59). -/
def State.commitLeaves (s t : State) (m src : Nat) : Prop :=
  t.rd Reg.CMT_SEQ = s.rd Reg.CMT_SEQ + 1 ∧ t.rf Reg.CMT_STAT 2 0 = 0 ∧ t.rd Reg.CMT_LAST_GRP = BitVec.ofNat 32 m
    ∧ t.rf Reg.CMT_STAT 13 12 = src % 4 ∧ t.rb (Reg.PG_IST Reg.pgCMT) 0 = true

/-- The next frame-route job of s is, in t, one copy of frame f toward CANCn (R207, R223). -/
def State.formedCopy (s t : State) (n : Nat) (f : CanFrame) : Prop :=
  ∃ sl c, amGet t.prv.slots s.prv.nextJob = some sl ∧ sl.copies = [c] ∧ c.eg = .ctl n ∧ c.frame = f

/-- Laurel's answer in t to the request that waits in s: STATUS st and the results ws (R477, R478). -/
def State.answers (s t : State) (st : Nat) (ws : List Nat) : Prop :=
  t.rd (Reg.LRL_RSP 0) = BitVec.ofNat 32 (st * 2 ^ 24 + s.rf (Reg.LRL_REQ 0) 23 16 * 2 ^ 16 + s.mailOp * 256 + ws.length)
    ∧ (∀ k, k < 15 → t.rd (Reg.LRL_RSP (k + 1)) = BitVec.ofNat 32 (dw ws k))
    ∧ t.rb Reg.LRL_STAT 30 = false ∧ t.rb Reg.LRL_STAT 29 = true ∧ t.rb (Reg.PG_IST Reg.pgLRL) 0 = true

/-- The registers an answer writes. -/
def mailRegs : List Nat := Reg.LRL_STAT :: Reg.PG_IST Reg.pgLRL :: (List.range 16).map Reg.LRL_RSP

end Sys2Proof.Machine
end

