-- ==== Sys2Proof/Certificates/Slice0/Obligations.lean ====
section
/-! DEFINITION. The statements for the provers, in the order of the chapters of the spec. -/
section
open Sys2Proof Sys2Proof.Machine

/-- A BAR0 request that is not one aligned word with all bytes is a bus error of cause SIZE (R43). -/
def Obligations.RequestOfBadSizeIsABusError : Prop :=
  ∀ (s : State) (init : Initiator) (off words : Nat) (allBytes : Bool) (v : Word),
    s.pwr.held = false → (words ≠ 1 ∨ allBytes = false ∨ off % 4 ≠ 0) →
    (Completes (.registerWrite init off words allBytes v) s fun t =>
        t.rd Reg.ERR_LAST_ADDR = BitVec.ofNat 32 off ∧ t.rd Reg.ERR_LAST_INFO = errInfo init true 0 cSIZE
        ∧ t.rd Reg.ERR_COUNT = BitVec.ofNat 32 (capAt 0xFFFFFFFF ((s.rd Reg.ERR_COUNT).toNat + 1))
        ∧ t.rb (Reg.PG_IST Reg.pgERR) 0 = true ∧ .busError init true 0 off cSIZE ∈ t.outbox
        ∧ s.sameTables t ∧ s.sameBytes t)
    ∧ (Completes (.lowWordReadLatch init off words allBytes) s fun t =>
        t.rd Reg.ERR_LAST_ADDR = BitVec.ofNat 32 off ∧ t.rd Reg.ERR_LAST_INFO = errInfo init false 0 cSIZE
        ∧ t.rd Reg.ERR_COUNT = BitVec.ofNat 32 (capAt 0xFFFFFFFF ((s.rd Reg.ERR_COUNT).toNat + 1))
        ∧ t.rb (Reg.PG_IST Reg.pgERR) 0 = true ∧ .busError init false 0 off cSIZE ∈ t.outbox
        ∧ s.sameTables t ∧ s.sameBytes t)

/-- A write that no register takes is a bus error of cause UNMAPPED, logged in the ERR page and the page addressed
(02_register_model.md R51; 02_register_model.md R53; 02_register_model.md R54). -/
def Obligations.UnmappedWriteIsLoggedInTheErrPage : Prop :=
  ∀ (s : State) (init : Initiator) (off : Nat) (v : Word),
    s.unreached off = false → off % 4 = 0 → rowAt off = none → (isKykel off && (runOf off).isSome) = false →
    Completes (.registerWrite init off 1 true v) s fun t =>
      t.rd Reg.ERR_LAST_ADDR = BitVec.ofNat 32 off ∧ t.rd Reg.ERR_LAST_INFO = errInfo init true 0 cUNMAPPED
      ∧ t.rd Reg.ERR_LAST_TS = BitVec.ofNat 32 s.stamp32
      ∧ t.rd Reg.ERR_COUNT = BitVec.ofNat 32 (capAt 0xFFFFFFFF ((s.rd Reg.ERR_COUNT).toNat + 1))
      ∧ t.rb (Reg.PG_IST Reg.pgERR) 0 = true
      ∧ (s.rb Reg.ERR_FIRST_INFO 31 = true → t.rd Reg.ERR_FIRST_ADDR = s.rd Reg.ERR_FIRST_ADDR
          ∧ t.rd Reg.ERR_FIRST_INFO = s.rd Reg.ERR_FIRST_INFO ∧ t.rd Reg.ERR_FIRST_TS = s.rd Reg.ERR_FIRST_TS)
      ∧ (s.rb Reg.ERR_FIRST_INFO 31 = false → t.rd Reg.ERR_FIRST_ADDR = BitVec.ofNat 32 off
          ∧ t.rd Reg.ERR_FIRST_INFO = errInfo init true 0 cUNMAPPED ∧ t.rd Reg.ERR_FIRST_TS = BitVec.ofNat 32 s.stamp32)
      ∧ ((runOf off).isSome = true → t.rd (Reg.PG_ERRADDR (pageBase off)) = BitVec.ofNat 32 (0x80000000 + off % 0x1000)
          ∧ t.rb (Reg.PG_IST (pageBase off)) 31 = true)
      ∧ (runOf off = none → ∀ a, pageBase a ≠ Reg.pgERR → t.rd a = s.rd a)
      ∧ s.sameTables t ∧ s.sameBytes t

/-- A write replaces the writable bits of an RW register; PG_ISET sets PG_IST bits and a 1 written to PG_IST clears its bit
(02_register_model.md R46; 02_register_model.md R47; 00_scope.md R5; 00_scope.md R6). -/
def Obligations.RegisterWriteTakesEffectUnderItsAccessCode : Prop :=
  ∀ (s : State) (init : Initiator) (b : Nat) (k : PageRun) (v : Word),
    (∀ (off words : Nat) (allBytes : Bool), Completes (.registerWrite init off words allBytes v) s fun _ => True)
    ∧ (Completes (.unlockKeyWrite init b v) s fun _ => True) ∧ (∀ off, Completes (.guardedWrite init off v) s fun _ => True)
    ∧ (Completes (.interruptStatusClear init b v) s fun _ => True) ∧ (Completes (.interruptSet init b v) s fun _ => True)
    ∧ (runOf b = some k → b % 0x1000 = 0 → isKykel b = false → s.pwr.held = false →
    (Completes (.registerWrite init (Reg.PG_IEN b) 1 true v) s fun t =>
        t.rd (Reg.PG_IEN b) = BitVec.ofNat 32 (nmerge (s.rd (Reg.PG_IEN b)).toNat v.toNat (istMask k.cls))
        ∧ s.sameRegs t [Reg.PG_IEN b] ∧ s.sameTables t ∧ s.sameBytes t)
    ∧ (Completes (.interruptSet init b v) s fun t =>
        t.rd (Reg.PG_IST b) = BitVec.ofNat 32 ((s.rd (Reg.PG_IST b)).toNat ||| (v.toNat &&& istMask k.cls))
        ∧ s.sameRegs t [Reg.PG_IST b] ∧ s.sameTables t ∧ s.sameBytes t)
    ∧ (b ≠ Reg.pgLRL → Completes (.interruptStatusClear init b v) s fun t =>
        t.rd (Reg.PG_IST b)
          = BitVec.ofNat 32 ((s.rd (Reg.PG_IST b)).toNat - ((s.rd (Reg.PG_IST b)).toNat &&& (v.toNat &&& istMask k.cls)))
        ∧ s.sameRegs t [Reg.PG_IST b] ∧ s.sameTables t ∧ s.sameBytes t)
    ∧ (b = Reg.pgLRL → Completes (.interruptStatusClear init b v) s fun t =>
        (s.lrl.ev ≠ [] → t.rb (Reg.PG_IST b) 1 = true)
        ∧ (s.lrl.ev = [] → t.rd (Reg.PG_IST b)
          = BitVec.ofNat 32 ((s.rd (Reg.PG_IST b)).toNat - ((s.rd (Reg.PG_IST b)).toNat &&& (v.toNat &&& istMask k.cls))))
        ∧ s.sameRegs t [Reg.PG_IST b] ∧ s.sameTables t ∧ s.sameBytes t))

/-- Setting a PG_IST bit that is enabled and mapped to the host raises its vector's level and sends its message (14_host_dma.md
R394; 02_register_model.md R47). -/
def Obligations.VectorMessageFollowsItsLevel : Prop :=
  ∀ (s : State) (init : Initiator) (b : Nat) (k : PageRun) (v : Word) (w : Nat),
    runOf b = some k → b % 0x1000 = 0 → isKykel b = false → s.pwr.held = false →
    mapsHost (s.rd (Reg.PG_IMAP b)) w = true → s.rd (Reg.PG_IST b) = 0 →
    v.toNat &&& istMask k.cls &&& (s.rd (Reg.PG_IEN b)).toNat ≠ 0 →
    Completes (.interruptSet init b v) s fun t =>
      nsMem t.levels w = true
      ∧ (nsMem s.levels w = true → t.outbox = s.outbox ∧ t.pba = s.pba)
      ∧ (nsMem s.levels w = false → s.d3 = false → nsMem s.vecMask w = false → t.outbox = s.outbox ++ [.msix w])
      ∧ (nsMem s.levels w = false → (s.d3 = true ∨ nsMem s.vecMask w = true) → nsMem t.pba w = true ∧ t.outbox = s.outbox)

/-- The key unlocks a page for one write; a guarded write without the unlock is LOCKED, another value is BADKEY
(02_register_model.md R61; 02_register_model.md R51). -/
def Obligations.UnlockGuardsTheNextWriteOfThePage : Prop :=
  ∀ (s : State) (init : Initiator) (b : Nat) (k : PageRun) (v : Word),
    runOf b = some k → b % 0x1000 = 0 → isKykel b = false → s.pwr.held = false →
    (v.toNat = unlockKey → Completes (.unlockKeyWrite init b v) s fun t =>
        t.isUnlocked init b = true ∧ (∀ j, j ≠ init → t.isUnlocked j b = s.isUnlocked j b) ∧ s.sameRegs t [])
    ∧ (v.toNat ≠ unlockKey → Completes (.unlockKeyWrite init b v) s fun t =>
        t.isUnlocked init b = false ∧ t.rd Reg.ERR_LAST_ADDR = BitVec.ofNat 32 (Reg.PG_UNLK b)
        ∧ t.rd Reg.ERR_LAST_INFO = errInfo init true 0 cBADKEY ∧ t.rb (Reg.PG_IST b) 31 = true)
    ∧ ∀ (off : Nat) (r : RegRow), pageBase off = b → off % 4 = 0 → 0x100 ≤ off % 0x1000 → rowAt off = some r → r.acc = .rwg →
      (s.isUnlocked init b = true → (s.setUnlock init b false).discards init off v = false →
        Completes (.guardedWrite init off v) s fun t =>
          t = regEffect init off v ((s.setUnlock init b false).store init r off v)
          ∧ ((s.setUnlock init b false).store init r off v).isUnlocked init b = false
          ∧ (r.w64 = false → isHigh off = false → ((s.setUnlock init b false).store init r off v).rd off
              = BitVec.ofNat 32 (let m := nmerge (s.rd off).toNat v.toNat r.wm; m - (m &&& (v.toNat &&& r.w1)))))
      ∧ (s.isUnlocked init b = false → Completes (.guardedWrite init off v) s fun t =>
          t.rd Reg.ERR_LAST_ADDR = BitVec.ofNat 32 off ∧ t.rd Reg.ERR_LAST_INFO = errInfo init true 0 cLOCKED
          ∧ t.rd off = s.rd off ∧ t.rb (Reg.PG_IST b) 31 = true ∧ s.sameTables t ∧ s.sameBytes t)

/-- RWS writes load the shadow, RW writes act at once, RWG writes after the key; W1C bits of PG_IST clear; SHLOCK makes an RWS
write a bus error (02_register_model.md R51; 02_register_model.md R58; 02_register_model.md R61; 02_register_model.md R47;
00_scope.md R5). -/
def Obligations.ShadowWriteWaitsForTheCommit : Prop :=
  ∀ (s : State) (init : Initiator) (off : Nat) (v : Word) (r : RegRow),
    rowAt off = some r → off % 4 = 0 → 0x100 ≤ off % 0x1000 → isKykel off = false → s.pwr.held = false →
    (r.acc = .rw → r.w64 = false → isHigh off = false → (s.setUnlock init off false).discards init off v = false →
      Completes (.registerWrite init off 1 true v) s fun t =>
        t = regEffect init off v ((s.setUnlock init off false).store init r off v)
        ∧ ((s.setUnlock init off false).store init r off v).rd off
            = BitVec.ofNat 32 (let m := nmerge (s.rd off).toNat v.toNat r.wm; m - (m &&& (v.toNat &&& r.w1)))
        ∧ s.sameRegs ((s.setUnlock init off false).store init r off v) [off])
    ∧ (r.acc = .rwg → r.w64 = false → isHigh off = false → s.isUnlocked init off = true →
      (s.setUnlock init off false).discards init off v = false → Completes (.guardedWrite init off v) s fun t =>
        t = regEffect init off v ((s.setUnlock init off false).store init r off v)
        ∧ ((s.setUnlock init off false).store init r off v).rd off
            = BitVec.ofNat 32 (let m := nmerge (s.rd off).toNat v.toNat r.wm; m - (m &&& (v.toNat &&& r.w1)))
        ∧ ((s.setUnlock init off false).store init r off v).isUnlocked init off = false
        ∧ s.sameRegs ((s.setUnlock init off false).store init r off v) [off])
    ∧ (v.toNat = unlockKey → Completes (.unlockKeyWrite init off v) s fun t =>
        t.isUnlocked init off = true ∧ s.sameRegs t [] ∧ s.sameTables t ∧ s.sameBytes t)
    ∧ (pageBase off ≠ Reg.pgLRL → ∀ k, runOf off = some k → Completes (.interruptStatusClear init off v) s fun t =>
        t.rd (Reg.PG_IST (pageBase off)) = BitVec.ofNat 32 ((s.rd (Reg.PG_IST (pageBase off))).toNat
          - ((s.rd (Reg.PG_IST (pageBase off))).toNat &&& (v.toNat &&& istMask k.cls)))
        ∧ s.sameRegs t [Reg.PG_IST (pageBase off)])
    ∧ (r.acc = .rws → r.w1 = 0 → s.rb (Reg.PG_CGRP (pageBase off)) 8 = false →
      (s.setUnlock init off false).discards init off v = false → Completes (.shadowWrite init off v) s fun t =>
        t = regEffect init off v ((s.setUnlock init off false).store init r off v)
        ∧ ((s.setUnlock init off false).store init r off v).rdSh off
            = BitVec.ofNat 32 (nmerge (s.rdSh off).toNat v.toNat r.wm)
        ∧ ((s.setUnlock init off false).store init r off v).rb (Reg.PG_CSTAT (pageBase off)) 31 = true
        ∧ s.sameRegs ((s.setUnlock init off false).store init r off v) [Reg.PG_CSTAT (pageBase off)])
    ∧ (r.acc = .rws → s.rb (Reg.PG_CGRP (pageBase off)) 8 = true → Completes (.shadowWrite init off v) s fun t =>
        t.rd Reg.ERR_LAST_INFO = errInfo init true 0 cSHADOW_OFF ∧ t.rdSh off = s.rdSh off ∧ t.rd off = s.rd off
        ∧ s.sameTables t ∧ s.sameBytes t)

/-- A low-word read latches the high word, a low-word write waits for it; so do the words of an entry for its VALID word
(02_register_model.md R44; 02_register_model.md R45; 02_register_model.md R68; 02_register_model.md R69). -/
def Obligations.SixtyFourBitRegistersChangeAsOne : Prop :=
  ∀ (s : State) (init : Initiator) (v : Word), s.pwr.held = false →
    (∀ e k, 0x300000 ≤ e → e < 0x400000 → e % 16 = 0 → k < 3 → s.stageOther init (0x300000, 0x400000, 16) (e + 4 * k) = false →
      Completes (.tableStagedWrite init (e + 4 * k) [v] true) s fun t =>
        amGet t.bus.stage (ikey init (e + 4 * k)) = some v ∧ s.sameTables t ∧ s.sameRegs t [] ∧ s.sameBytes t)
    ∧ (∀ e, 0x300000 ≤ e → e < 0x400000 → e % 16 = 0 → s.staged init (0x300000, 0x400000, 16) = [] →
      Completes (.tableValidWrite init (e + 12) [v] true) s fun t =>
        t.tw (e + 12) = v &&& 0x80000000 ∧ (∀ a, (a < e ∨ e + 16 ≤ a) → t.tw a = s.tw a) ∧ s.sameRegs t [] ∧ s.sameBytes t)
    ∧ (∀ e, 0x300000 ≤ e → e < 0x400000 → e % 16 = 0 → (∀ j, j < 4 → amGet s.bus.entry (ikey init (e + 4 * j)) = none) →
      Completes (.tableWord0Read init e 4 true) s fun t =>
        t.outbox = s.outbox ++ [.readData init 1 e ((List.range 4).map (fun j => s.tw (e + 4 * j)))]
        ∧ s.sameTables t ∧ s.sameRegs t [] ∧ s.sameBytes t)
    ∧ ∀ (lo : Nat) (r rh : RegRow), rowAt lo = some r → rowAt (lo + 4) = some rh → r.w64 = true → lo % 4 = 0 → 0x100 ≤ lo % 0x1000 →
      isKykel lo = false → pageBase (lo + 4) = pageBase lo →
    (latchedBy r lo = [lo + 4] → r.acc ≠ .rc → Completes (.lowWordReadLatch init lo 1 true) s fun t =>
        amGet t.bus.latch (ikey init (lo + 4)) = some (s.readReg init rh (lo + 4))
        ∧ t.outbox = s.outbox ++ [.readData init 0 lo [s.readSeen init r lo]]
        ∧ s.sameRegs t [] ∧ s.sameTables t ∧ s.sameBytes t)
    ∧ (r.acc = .rw → (s.setUnlock init lo false).discards init lo v = false →
        Completes (.lowWordWriteHold init lo v) s fun t =>
          t = regEffect init lo v ((s.setUnlock init lo false).store init r lo v)
          ∧ amGet ((s.setUnlock init lo false).store init r lo v).bus.low (ikey init lo) = some v
          ∧ s.sameRegs ((s.setUnlock init lo false).store init r lo v) [])
    ∧ (r.acc = .rw → rh.acc = .rw → rh.w64 = false → rh.w1 = 0 → (s.setUnlock init lo false).discards init (lo + 4) v = false →
        Completes (.highWordWrite init (lo + 4) v) s fun t =>
          t = regEffect init (lo + 4) v ((s.setUnlock init lo false).store init rh (lo + 4) v)
          ∧ ((s.setUnlock init lo false).store init rh (lo + 4) v).rd (lo + 4)
              = BitVec.ofNat 32 (nmerge (s.rd (lo + 4)).toNat v.toNat rh.wm)
          ∧ (∀ w, amGet s.bus.low (ikey init lo) = some w →
              ((s.setUnlock init lo false).store init rh (lo + 4) v).rd lo
                = BitVec.ofNat 32 (nmerge (s.rd lo).toNat w.toNat r.wm)
              ∧ amGet ((s.setUnlock init lo false).store init rh (lo + 4) v).bus.low (ikey init lo) = none)
          ∧ (amGet s.bus.low (ikey init lo) = none →
              ((s.setUnlock init lo false).store init rh (lo + 4) v).rd lo = s.rd lo))

/-- A read of ERR_COUNT clears it, a read of ERR_LAST_ADDR latches the details, ERR_CLR lets a new first error in
(02_register_model.md R53; 02_register_model.md R54; 00_scope.md R5). -/
def Obligations.ErrorLogReadsAndClear : Prop :=
  ∀ (s : State) (init : Initiator) (v : Word), s.pwr.held = false →
    (amGet s.bus.latch (ikey init Reg.ERR_COUNT) = none → Completes (.errCountRead init) s fun t =>
        t.rd Reg.ERR_COUNT = 0 ∧ t.outbox = s.outbox ++ [.readData init 0 Reg.ERR_COUNT [s.rd Reg.ERR_COUNT]]
        ∧ s.sameRegs t [Reg.ERR_COUNT] ∧ s.sameTables t ∧ s.sameBytes t)
    ∧ (amGet s.bus.latch (ikey init Reg.ERR_LAST_ADDR) = none → Completes (.errLastAddrRead init) s fun t =>
        amGet t.bus.latch (ikey init Reg.ERR_LAST_INFO) = some (s.rd Reg.ERR_LAST_INFO)
        ∧ amGet t.bus.latch (ikey init Reg.ERR_LAST_TS) = some (s.rd Reg.ERR_LAST_TS)
        ∧ t.outbox = s.outbox ++ [.readData init 0 Reg.ERR_LAST_ADDR [s.rd Reg.ERR_LAST_ADDR]]
        ∧ s.sameRegs t [] ∧ s.sameTables t ∧ s.sameBytes t)
    ∧ (Completes (.errClr init v) s fun t =>
        (bitOf v 0 = true → t.rb Reg.ERR_FIRST_INFO 31 = false) ∧ (bitOf v 0 = false → s.sameRegs t [])
        ∧ s.sameRegs t [Reg.ERR_FIRST_INFO] ∧ s.sameTables t ∧ s.sameBytes t)

/-- A CNTCLR write clears the counters it names and no other register (03_xanpel_link.md R92; 04_can_controllers.md R130;
00_scope.md R8). -/
def Obligations.CounterClearClearsTheCountersNamed : Prop :=
  ∀ (s : State) (init : Initiator) (v : Word), s.pwr.held = false →
    (Completes (.counterClear init Reg.pgXPL v) s fun t =>
        (bitOf v 0 = true → (∀ i, i < 7 → t.rd (Reg.XPL_CRCERR + 4 * i) = 0)
          ∧ s.sameRegs t (regsFrom Reg.XPL_CRCERR 7))
        ∧ (bitOf v 0 = false → s.sameRegs t []) ∧ s.sameTables t ∧ s.sameBytes t)
    ∧ ∀ n, n < 24 → Completes (.counterClear init (Reg.pgCANC n) v) s fun t =>
        (∀ k, k < 16 → nbit v.toNat k = true → t.rd (Reg.CANC_RXOK n + 4 * k) = 0)
        ∧ (∀ k, k < 16 → nbit v.toNat k = false → t.rd (Reg.CANC_RXOK n + 4 * k) = s.rd (Reg.CANC_RXOK n + 4 * k))
        ∧ s.sameRegs t (regsFrom (Reg.CANC_RXOK n) 16) ∧ s.sameTables t ∧ s.sameBytes t

/-- A write of another word of an entry is staged; the write of its VALID word changes the entry as one; word 0 read latches the
rest (02_register_model.md R67; 02_register_model.md R68; 02_register_model.md R69; 00_scope.md R6; 05_frame_routing.md R136). -/
def Obligations.TableEntriesChangeByTheirValidWord : Prop :=
  ∀ (s : State) (init : Initiator) (e k : Nat) (v : Word), s.pwr.held = false → 0x100000 ≤ e → e < 0x200000 → e % 32 = 0 →
    (k < 7 → s.stageOther init (0x100000, 0x200000, 32) (e + 4 * k) = false →
      Completes (.tableStagedWrite init (e + 4 * k) [v] true) s fun t =>
        amGet t.bus.stage (ikey init (e + 4 * k)) = some v ∧ s.sameTables t ∧ s.sameRegs t [] ∧ s.sameBytes t)
    ∧ (k < 7 → s.stageOther init (0x100000, 0x200000, 32) (e + 4 * k) = true →
      Completes (.tableStagedWrite init (e + 4 * k) [v] true) s fun t =>
        amGet t.bus.stage (ikey init (e + 4 * k)) = some v
        ∧ (∀ a, 0x100000 ≤ a → a < 0x200000 → a ≠ e + 4 * k → amGet t.bus.stage (ikey init a) = none)
        ∧ t.rd Reg.ERR_COUNT = BitVec.ofNat 32 (capAt 0xFFFFFFFF ((s.rd Reg.ERR_COUNT).toNat + 1))
        ∧ s.sameTables t ∧ s.sameBytes t)
    ∧ (s.stageOther init (0x100000, 0x200000, 32) (e + 28) = false → amSorted s.bus.stage = true →
      Completes (.tableValidWrite init (e + 28) [v] true) s fun t =>
        t.tw (e + 28) = v &&& 0x800FFF00
        ∧ (∀ j, j < 7 → t.tw (e + 4 * j) = BitVec.ofNat 32
            (((amGet s.bus.stage (ikey init (e + 4 * j))).getD (s.tw (e + 4 * j))).toNat &&& dw (entryMasks 0x100000 v) j))
        ∧ (∀ a, (a < e ∨ e + 32 ≤ a) → t.tw a = s.tw a)
        ∧ t.staged init (0x100000, 0x200000, 32) = [] ∧ s.sameRegs t [] ∧ s.sameBytes t)
    ∧ ((∀ j, j < 8 → amGet s.bus.entry (ikey init (e + 4 * j)) = none) → Completes (.tableWord0Read init e 8 true) s fun t =>
        t.outbox = s.outbox ++ [.readData init 1 e ((List.range 8).map (fun j => s.tw (e + 4 * j)))]
        ∧ (∀ j, 1 ≤ j → j < 8 → amGet t.bus.entry (ikey init (e + 4 * j)) = some (s.tw (e + 4 * j)))
        ∧ s.sameTables t ∧ s.sameRegs t [] ∧ s.sameBytes t)
    ∧ ∀ (a n : Nat) (allBytes : Bool), bar2Cause a n allBytes ≠ 0 → Completes (.tableWord0Read init a n allBytes) s fun t =>
        t.rd Reg.ERR_LAST_ADDR = BitVec.ofNat 32 a ∧ t.rd Reg.ERR_LAST_INFO = errInfo init false 1 (bar2Cause a n allBytes)
        ∧ s.sameTables t ∧ t.bus = s.bus ∧ s.sameBytes t

/-- An accepted commit request samples its mask; it applies at its instant once no job of an older epoch is in its window
(02_register_model.md R55; 02_register_model.md R56; 02_register_model.md R57; 01_architecture.md R22). -/
def Obligations.CommitRequestsAreJudgedThenHeldOrApplied : Prop :=
  ∀ (s : State) (init : Initiator) (v : Word), s.pwr.held = false →
    (s.rb Reg.CMT_STAT 0 = false → s.rf Reg.CMT_ARM 15 0 ≠ 0 → bitOf v 0 = true → s.oldJobs = false →
      Completes (.commitImmediateRequest init v) s fun t =>
        s.commitLeaves t (s.rf Reg.CMT_ARM 15 0) (init == .laurel).toNat)
    ∧ (s.rb Reg.CMT_STAT 0 = false → s.rf Reg.CMT_ARM 15 0 ≠ 0 → bitOf v 0 = true → s.oldJobs = true →
      Completes (.commitImmediateRequest init v) s fun t =>
        t.rb Reg.CMT_STAT 0 = true ∧ t.rb Reg.CMT_STAT 2 = true ∧ t.cmt.mask = s.rf Reg.CMT_ARM 15 0
        ∧ s.sameRegs t [Reg.CMT_STAT] ∧ s.sameTables t ∧ s.sameBytes t)
    ∧ (s.rb Reg.CMT_STAT 0 = false → s.rf Reg.CMT_ARM 15 0 ≠ 0 → bitOf v 0 = true → bitOf v 1 = false →
      (s.rd Reg.CMT_TIME_NS).toNat ≤ 999999999 → s.tsy.full < s.commitTarget →
      Completes (.timedCommitArm init v) s fun t =>
        t.cmt = ⟨s.rf Reg.CMT_ARM 15 0, s.commitTarget, 2 + (init == .laurel).toNat⟩ ∧ t.rb Reg.CMT_STAT 0 = true
        ∧ t.rb Reg.CMT_STAT 1 = true ∧ t.rb Reg.CMT_STAT 2 = false ∧ t.rb Reg.CMT_TCTL 0 = true
        ∧ s.sameRegs t [Reg.CMT_STAT, Reg.CMT_TCTL] ∧ s.sameTables t ∧ s.sameBytes t)
    ∧ (s.rb Reg.CMT_STAT 0 = true → s.rb Reg.CMT_STAT 1 = true → s.tsy.full < s.cmt.target → bitOf v 0 = false →
      bitOf v 1 = true → Completes (.timedCommitCancel init v) s fun t =>
        t.rb Reg.CMT_STAT 0 = false ∧ t.rb Reg.CMT_STAT 1 = false ∧ t.rb Reg.CMT_TCTL 0 = false
        ∧ s.sameRegs t [Reg.CMT_STAT, Reg.CMT_TCTL] ∧ s.sameTables t ∧ s.sameBytes t)
    ∧ (s.rb Reg.CMT_STAT 0 = true → s.rb Reg.CMT_STAT 1 = true → s.cmt.target ≤ s.tsy.full →
      Completes .timedCommitDue s fun t =>
        (s.oldJobs = false → s.commitLeaves t s.cmt.mask s.cmt.src)
        ∧ (s.oldJobs = true → t.rb Reg.CMT_STAT 2 = true ∧ s.sameRegs t [Reg.CMT_STAT] ∧ s.sameTables t ∧ s.sameBytes t))
    ∧ (s.rb Reg.CMT_STAT 0 = true → s.rb Reg.CMT_STAT 2 = true → s.oldJobs = false →
      Completes .commitApply s fun t => s.commitLeaves t s.cmt.mask s.cmt.src)

/-- A commit request is refused while another is pending, with mask 0, or with a time above 999,999,999 ns (02_register_model.md
R55; 02_register_model.md R59). -/
def Obligations.RefusedCommitsChangeOnlyTheirStatus : Prop :=
  ∀ (s : State) (init : Initiator) (v : Word), s.pwr.held = false → bitOf v 0 = true →
    (s.rb Reg.CMT_STAT 0 = true ∨ s.rf Reg.CMT_ARM 15 0 = 0 → Completes (.commitImmediateRequest init v) s fun t =>
        t.rb Reg.CMT_STAT (if s.rb Reg.CMT_STAT 0 then 9 else 10) = true ∧ t.rb (Reg.PG_IST Reg.pgCMT) 2 = true ∧ t.cmt = s.cmt
        ∧ s.sameRegs t [Reg.CMT_STAT, Reg.PG_IST Reg.pgCMT] ∧ s.sameTables t ∧ s.sameBytes t)
    ∧ (bitOf v 1 = false → (s.rb Reg.CMT_STAT 0 = true ∨ s.rf Reg.CMT_ARM 15 0 = 0 ∨ 999999999 < (s.rd Reg.CMT_TIME_NS).toNat) →
      Completes (.timedCommitArm init v) s fun t =>
        t.rb Reg.CMT_STAT (if s.rb Reg.CMT_STAT 0 then 9 else if s.rf Reg.CMT_ARM 15 0 = 0 then 10 else 11) = true
        ∧ t.rb (Reg.PG_IST Reg.pgCMT) 2 = true ∧ t.cmt = s.cmt
        ∧ s.sameRegs t [Reg.CMT_STAT, Reg.PG_IST Reg.pgCMT] ∧ s.sameTables t ∧ s.sameBytes t)

/-- Each applied commit increments CMT_SEQ by one with wrap; CMT_SEQ[15:0] is the epoch; refusals and withdrawals leave it (R59). -/
def Obligations.CommitSequenceCountsAppliedCommits : Prop :=
  ∀ s : State, s.commitApply.rd Reg.CMT_SEQ = s.rd Reg.CMT_SEQ + 1
    ∧ s.epoch = (s.rd Reg.CMT_SEQ).toNat % 65536 ∧ s.commitApply.epoch = (s.epoch + 1) % 65536
    ∧ (∀ bit, (s.commitRefuse bit).rd Reg.CMT_SEQ = s.rd Reg.CMT_SEQ)
    ∧ s.commitCancel.rd Reg.CMT_SEQ = s.rd Reg.CMT_SEQ
    ∧ (∀ init timed, s.rb Reg.CMT_STAT 0 = true ∨ s.rf Reg.CMT_ARM 15 0 = 0 →
        (s.commitRequest init timed).rd Reg.CMT_SEQ = s.rd Reg.CMT_SEQ)

/-- An applied commit copies the CAN mode and timing shadows of the pages in its mask into force and leaves the others
(02_register_model.md R58; 04_can_controllers.md R96). -/
def Obligations.CommitCopiesTheShadowsOfItsGroups : Prop :=
  ∀ (s : State) (n a : Nat), n < 24 → a ∈ canCfgRegs n →
    (nbit s.cmt.mask (s.rf (Reg.PG_CGRP (Reg.pgCANC n)) 3 0) = true → ∀ r, rowAt a = some r →
      s.commitApply.rd a = BitVec.ofNat 32 (nmerge (s.rd a).toNat (s.rdSh a).toNat r.wm))
    ∧ (nbit s.cmt.mask (s.rf (Reg.PG_CGRP (Reg.pgCANC n)) 3 0) = false → s.commitApply.rd a = s.rd a)
    ∧ s.commitApply.rdSh a = s.rdSh a

/-- A register request message is answered at the far die with data, acknowledgement, RETRY or an error (03_xanpel_link.md R79;
03_xanpel_link.md R80; 03_xanpel_link.md R81; 03_xanpel_link.md R82; 03_xanpel_link.md R86). -/
def Obligations.RegisterRequestsAreServedAtTheFarDie : Prop :=
  ∀ (s u x : State) (m : BMsg) (row : RegRow) (c typ : Nat), s.linkUp = true →
    (typ = 1 ∨ typ = 2 ∨ typ = 3) → s.accept .toKykel { m with typ := typ } = some u → rowAt (0x800000 + 4 * m.waddr) = some row →
    (s.xpl.kykHold = false → s.xpl.kykOrder = [] → typ = 1 → Completes (.readRequestMsg .toKykel m false) s fun t =>
        ∃ r f, t.outbox = s.outbox ++ [.linkMsg .toYatric r f] ∧ r.typ = 4 ∧ r.init = m.init ∧ r.waddr = m.waddr
        ∧ r.data = u.reapPosted.readSeen (initOf m.init) row (0x800000 + 4 * m.waddr))
    ∧ (s.xpl.kykHold = false → s.xpl.kykOrder = [] → u.reapPosted.writeAt regEffect (initOf m.init) (0x800000 + 4 * m.waddr) m.data = (x, c) →
      (typ = 3 → Completes (.nonPostedWriteMsg .toKykel m false) s fun t => ∃ r f, t.outbox = x.outbox ++ [.linkMsg .toYatric r f]
        ∧ r.init = m.init ∧ r.waddr = m.waddr ∧ (c = 0 → r.typ = 5) ∧ (c ≠ 0 → r.typ = 7 ∧ r.ecode = causeEcode c))
      ∧ (typ = 2 → Completes (.postedWriteMsg .toKykel m false) s fun t => (c = 0 → t = x)
        ∧ (c ≠ 0 → ∃ r f, t.outbox = x.outbox ++ [.linkMsg .toYatric r f] ∧ r.typ = 7 ∧ r.ecode = causeEcode c)))
    ∧ (∀ i b, i = (if typ = 1 then Instr.readRequestMsg .toKykel m b else if typ = 2 then .postedWriteMsg .toKykel m b
        else .nonPostedWriteMsg .toKykel m b) →
      ((b = true ∨ typ = 1 ∧ ∃ p ∈ s.xpl.kykOrder, p.1 = m.init) → Completes i s fun t =>
        ∃ r f, t.outbox = s.outbox ++ [.linkMsg .toYatric r f] ∧ r.typ = 6 ∧ s.sameRegs t [] ∧ s.sameBytes t)
      ∧ (b = false → s.xpl.kykHold = true → s.xpl.kykOrder = [] → Completes i s fun t =>
        t.xpl.kykWait = s.xpl.kykWait ++ [{ m with typ := typ }] ∧ t.outbox = s.outbox ∧ s.sameRegs t [] ∧ s.sameBytes t))
    ∧ ∀ u', s.accept .toYatric { m with typ := 2 } = some u' →
      Completes (.postedWriteMsg .toYatric m false) s fun t =>
        memRdN t.lsram (4 * m.waddr) 4 = leBytes 4 m.data.toNat
        ∧ (∀ a, (a < 4 * m.waddr ∨ 4 * m.waddr + 4 ≤ a) → memRd t.lsram a = memRd s.lsram a)
        ∧ (∀ a, memRd t.dram a = memRd s.dram a ∧ memRd t.mram a = memRd s.mram a ∧ memRd t.hmem a = memRd s.hmem a)

/-- Read data, acknowledgement, RETRY and error messages end or repeat the access of their initiator (03_xanpel_link.md R79;
03_xanpel_link.md R80; 03_xanpel_link.md R82). -/
def Obligations.AnswersCompleteTheBridgeAccess : Prop :=
  ∀ (s u : State) (m : BMsg) (r : BReq) (l : List BReq), s.linkUp = true → s.accept .toYatric m = some u →
    (takeReq (fun q => outstanding m.init q && !q.write) s.xpl.reqs = some (r, l) → Completes (.readDataMsg .toYatric m) s fun t =>
        (r.chan = none → r.init ≠ .dma → .readData r.init 0 r.off [m.data] ∈ t.outbox)
        ∧ t.xpl.reqs.length < s.xpl.reqs.length ∧ s.sameRegs t s.bridgeMoves ∧ s.sameBytes t)
    ∧ (takeReq (fun q => outstanding m.init q && q.write && q.np) s.xpl.reqs = some (r, l) →
      Completes (.writeAcknowledgementMsg .toYatric m) s fun t =>
        t.xpl.reqs.length < s.xpl.reqs.length ∧ s.sameRegs t s.bridgeMoves ∧ s.sameTables t ∧ s.sameBytes t)
    ∧ (takeReq (refusable m) s.xpl.reqs = some (r, l) → (m.lock = false ∨ s.xpl.lockAsked = false ∨ m.waddr ≠ 0) → r.tries < s.rf Reg.XPL_BRCTL 15 8 →
      Completes (.retryMsg .toYatric m) s fun t =>
        { r with phase := .retryWait (s.now + (if s.rf Reg.XPL_BRCTL 7 0 = 0 then 1 else s.rf Reg.XPL_BRCTL 7 0) * 250) } ∈ t.xpl.reqs
        ∧ t.rd Reg.XPL_RETRY = BitVec.ofNat 32 (capAt 0xFFFFFFFF ((s.rd Reg.XPL_RETRY).toNat + 1)) ∧ s.sameBytes t)
    ∧ (m.lock = true → s.xpl.lockAsked = true → m.waddr = 0 → s.xpl.lockTries < s.rf Reg.XPL_BRCTL 15 8 →
      Completes (.retryMsg .toYatric m) s fun t => t.xpl.lockAsked = false ∧ t.xpl.lockWait = s.xpl.lockWait
        ∧ t.xpl.lockDue = some (s.now + (if s.rf Reg.XPL_BRCTL 7 0 = 0 then 1 else s.rf Reg.XPL_BRCTL 7 0) * 250)
        ∧ t.rd Reg.XPL_RETRY = BitVec.ofNat 32 (capAt 0xFFFFFFFF ((s.rd Reg.XPL_RETRY).toNat + 1)) ∧ s.sameBytes t)
    ∧ (takeReq (refusable m) s.xpl.reqs = some (r, l) → r.chan = none → Completes (.errorMsg .toYatric m) s fun t =>
        .busError r.init r.write 0 r.off (if r.np then ecodeCause m.ecode else cBRIDGE) ∈ t.outbox
        ∧ (r.np = false → t.rd Reg.XPL_PWLOST = BitVec.ofNat 32 (capAt 0xFFFFFFFF ((s.rd Reg.XPL_PWLOST).toNat + 1)))
        ∧ s.sameTables t ∧ s.sameBytes t)

/-- The XPL lock is asked for, granted, released and broken after 64 us, in both directions (03_xanpel_link.md R84;
03_xanpel_link.md R85). -/
def Obligations.LocksAreAskedGrantedReleasedAndBroken : Prop :=
  ∀ (s u : State) (init : Initiator) (v : Word) (m : BMsg) (d : LinkDir), init ≠ .kykel →
    (s.pwr.held = false → bitOf v 0 = true → bitOf v 1 = false → Completes (.lockReq init v) s fun t =>
        (s.linkUp = true → s.lockOwner ≠ init.code → s.xpl.lockWait.contains init = false → init ∈ t.xpl.lockWait
          ∧ t.lockOwner = s.lockOwner)
        ∧ (s.linkUp = false → .busError init true 0 Reg.XPL_LOCK cBRIDGE ∈ t.outbox ∧ t.lockOwner = s.lockOwner)
        ∧ s.sameTables t ∧ s.sameBytes t)
    ∧ (s.pwr.held = false → bitOf v 0 = false → bitOf v 1 = true → Completes (.lockRel init v) s fun t =>
        (s.lockOwner = init.code → t.lockOwner = 3 ∧ (s.linkUp = true → ∃ r f, .linkMsg .toKykel r f ∈ t.outbox ∧ r.typ = 10))
        ∧ (s.lockOwner ≠ init.code → init ∉ t.xpl.lockWait ∧ t.lockOwner = s.lockOwner) ∧ s.sameTables t ∧ s.sameBytes t)
    ∧ (s.linkUp = true → s.accept d m = some u →
      (∀ b, (b = false ∨ d = .toYatric ∧ s.collides b = false) → Completes (.lockRequestMsg d m b) s fun t =>
          (d = .toKykel → t.xpl.kykLock = some s.mono) ∧ (d = .toYatric → t.xpl.yatLock = some s.now ∧ t.xpl.resv = none)
          ∧ (∃ r f, t.outbox = s.outbox ++ [.linkMsg (oppDir d) r f] ∧ r.typ = 9) ∧ s.sameRegs t [])
      ∧ ((d = .toKykel ∨ (∃ q ∈ s.xpl.reqs, q.phase = .sent) ∧ (∀ e, s.xpl.resv = some e → e ≤ s.now)) →
          Completes (.lockRequestMsg d m true) s fun t => (∃ r f, t.outbox = s.outbox ++ [.linkMsg (oppDir d) r f] ∧ r.typ = 6)
          ∧ t.xpl.kykLock = s.xpl.kykLock ∧ (d = .toKykel → t.xpl.yatLock = s.xpl.yatLock ∧ s.sameRegs t [])
          ∧ (d = .toYatric → t.xpl.yatLock = none ∧ t.xpl.resv = some (s.now + 2000)
            ∧ t.rd Reg.XPL_COLL = BitVec.ofNat 32 (capAt 0xFFFFFFFF ((s.rd Reg.XPL_COLL).toNat + 1))
            ∧ s.sameRegs t [Reg.XPL_COLL, Reg.PG_IST Reg.pgXPL]))
      ∧ (∀ i rest, s.xpl.lockWait = i :: rest → i.code = m.init → d = .toYatric → Completes (.lockGrantMsg d m) s fun t =>
          t.lockOwner = i.code ∧ t.xpl.lockWait = rest ∧ t.xpl.lockAt = s.now ∧ s.sameRegs t [Reg.XPL_LOCK])
      ∧ (Completes (.lockReleaseMsg d m) s fun t => (d = .toYatric → t.xpl.yatLock = none ∧ s.sameRegs t s.bridgeMoves)
          ∧ (d = .toKykel → t.xpl.kykLock = none ∧ t.wkn.rxWait = [] ∧ (∀ k ∈ s.wkn.rxWait, t.trxMode k = 1)
            ∧ s.sameRegs t (s.wkn.rxWait.map Reg.TRX_CTL)) ∧ s.sameTables t ∧ s.sameBytes t)
      ∧ (d = .toKykel → Completes (.lockBreakMsg d m) s fun t => t.xpl.yatLock = none ∧ t.lockOwner = s.lockOwner ∧ s.sameRegs t []))
    ∧ (∀ g, s.xpl.kykLock = some g → g + 64000 ≤ s.mono → Completes .lockBreak s fun t =>
        t.xpl.kykLock = none ∧ t.wkn.rxWait = [] ∧ (∀ k ∈ s.wkn.rxWait, t.trxMode k = 1) ∧ s.sameTables t ∧ s.sameBytes t)
    ∧ (s.lockOwner ≠ 3 → s.xpl.lockAt + 64000 ≤ s.now → Completes .lockBreak s fun t =>
        t.lockOwner = 3 ∧ initOf s.lockOwner ∈ t.xpl.broken ∧ t.rb (Reg.PG_IST Reg.pgXPL) 3 = true ∧ s.sameTables t ∧ s.sameBytes t)

/-- A message without acknowledgement for 128 ns is sent again up to four times; a retry interval and a reservation end
(03_xanpel_link.md R78; 03_xanpel_link.md R79; 03_xanpel_link.md R87; 03_xanpel_link.md R89). -/
def Obligations.UnansweredMessagesAreRepeated : Prop :=
  ∀ (s : State) (dir : LinkDir),
    (∀ u rest, s.linkUp = true → (s.sender dir).unacked = u :: rest → u.sentAt + 128 ≤ s.now →
      Completes (.registerMessageResend dir) s fun t =>
        (u.resends < 4 → (∃ f, t.outbox.getLast? = some (.linkMsg dir u.msg f)) ∧ t.linkUp = true
          ∧ t.rd Reg.XPL_RESEND = BitVec.ofNat 32 (capAt 0xFFFFFFFF ((s.rd Reg.XPL_RESEND).toNat + 1))
          ∧ s.sameRegs t [Reg.XPL_RESEND, Reg.PG_IST Reg.pgXPL])
        ∧ (4 ≤ u.resends → t.linkUp = false) ∧ s.sameTables t ∧ s.sameBytes t)
    ∧ (∀ pre r post e, s.xpl.reqs = pre ++ r :: post → r.phase = .retryWait e → e ≤ s.now → s.linkUp = true →
        (s.lockOwner = 3 ∨ s.lockOwner = r.init.code) → (∀ q ∈ pre, q.init ≠ r.init ∨ q.phase = .acked) →
        Completes .retryIntervalExpiry s fun t => { r with phase := .sent, tries := r.tries + 1 } ∈ t.xpl.reqs
        ∧ (∃ m f, .linkMsg .toKykel m f ∈ t.outbox ∧ m.init = r.init.code ∧ m.waddr = (r.off - 0x800000) / 4 ∧ m.data = r.val)
        ∧ s.sameRegs t s.bridgeMoves ∧ s.sameTables t ∧ s.sameBytes t)
    ∧ (∀ e, s.xpl.resv = some e → e ≤ s.now → Completes .retryReservationExpiry s fun t =>
        t.xpl.resv = none ∧ s.sameRegs t s.bridgeMoves ∧ s.sameTables t ∧ s.sameBytes t)

/-- The link trains from OFF, comes UP, retries or goes DOWN, and is lost from UP (03_xanpel_link.md R89; 03_xanpel_link.md R91;
17_startup_reset.md R468). -/
def Obligations.LinkStatesFollowTrainingAndLoss : Prop :=
  ∀ (s : State) (init : Initiator) (v : Word) (d : Nat),
    (s.linkState = xOFF → s.pwr.mode = .active → s.pwr.held = false → Completes .linkTrainingStart s fun t =>
        t.linkState = xTRAIN ∧ t.xpl.attempts = 0 ∧ t.xpl.trainAt = s.now ∧ t.xpl.attemptAt = s.now
        ∧ s.sameTables t ∧ s.sameBytes t)
    ∧ (s.linkState = xTRAIN → 78 ≤ d → d ≤ 82 → Completes (.trainingSuccess d) s fun t =>
        t.linkState = xUP ∧ t.rf Reg.XPL_STAT 23 16 = d ∧ t.rf Reg.XPL_STAT 7 4 = 0 ∧ t.rb (Reg.PG_IST Reg.pgXPL) 0 = true
        ∧ s.sameTables t ∧ s.sameBytes t)
    ∧ (s.linkState = xTRAIN → s.xpl.attemptAt + 20000 ≤ s.now → Completes .trainingAttemptTimeout s fun t =>
        t.xpl.attempts = s.xpl.attempts + 1
        ∧ (s.xpl.attempts + 1 < s.rf Reg.XPL_CTL 11 8 → t.linkState = xTRAIN)
        ∧ (s.rf Reg.XPL_CTL 11 8 ≤ s.xpl.attempts + 1 → t.linkState = xDOWN ∧ t.rb (Reg.PG_IST Reg.pgXPL) 2 = true)
        ∧ s.sameTables t ∧ s.sameBytes t)
    ∧ (s.linkState = xUP → Completes .linkLost s fun t =>
        t.linkState = (if s.rf Reg.XPL_CTL 11 8 = 0 then xDOWN else xTRAIN) ∧ t.rb (Reg.PG_IST Reg.pgXPL) 1 = true
        ∧ t.rd Reg.XPL_LOSS = BitVec.ofNat 32 (capAt 0xFFFFFFFF ((s.rd Reg.XPL_LOSS).toNat + 1)) ∧ t.xpl.reqs = []
        ∧ s.sameTables t ∧ s.sameBytes t)
    ∧ (s.pwr.held = false → bitOf v 0 = true → s.linkState = xUP ∨ s.linkState = xDOWN → Completes (.xplTrain init v) s fun t =>
        t.linkState = xTRAIN ∧ t.xpl.attempts = 0 ∧ s.sameTables t ∧ s.sameBytes t)

/-- A good link frame moves the carried pins; a bad one leaves them; the interrupt summary and K_INT follow the Kykel pages
(03_xanpel_link.md R72; 03_xanpel_link.md R73; 03_xanpel_link.md R75; 03_xanpel_link.md R76; 02_register_model.md R50;
03_xanpel_link.md R88). -/
def Obligations.LinkFramesMoveThePins : Prop :=
  ∀ (s : State) (dir : LinkDir) (f : BitVec 256) (busHeld : Bool), s.linkUp = true →
    ((slotMsg f.toNat).typ = 0 → (slotMsg f.toNat).ackv = false → nfld f.toNat 47 44 = 0 →
      Completes (.xanpelFrame dir f true busHeld) s fun t =>
        (t.receiver dir).bad = 0 ∧ (t.receiver dir).fseq = nfld f.toNat 255 252
        ∧ (dir = .toYatric → t.xpl.rxd = edgeLevels f.toNat s.xpl.rxd ∧ t.xpl.t1sRx = t1sFields f.toNat ∧ t.xpl.txd = s.xpl.txd)
        ∧ (dir = .toKykel → t.xpl.txd = edgeLevels f.toNat s.xpl.txd ∧ t.xpl.t1sTx = t1sFields f.toNat ∧ t.xpl.rxd = s.xpl.rxd)
        ∧ ((dir = .toKykel ∨ ∀ k < 2, nbit (dw (t1sFields f.toNat) k) 2 = nbit (dw s.xpl.t1sRx k) 2
            ∧ nbit (dw (t1sFields f.toNat) k) 3 = nbit (dw s.xpl.t1sRx k) 3) →
          s.sameRegs t [] ∧ s.sameTables t ∧ s.sameBytes t))
    ∧ (4 ≤ (s.receiver dir).bad + 1 → Completes (.xanpelFrame dir f false busHeld) s fun t => t.linkUp = false)
    ∧ ((s.receiver dir).bad + 1 < 4 → Completes (.xanpelFrame dir f false busHeld) s fun t =>
        t.xpl.rxd = s.xpl.rxd ∧ t.xpl.txd = s.xpl.txd ∧ (t.receiver dir).bad = (s.receiver dir).bad + 1
        ∧ t.rd Reg.XPL_CRCERR = BitVec.ofNat 32 (capAt 0xFFFFFFFF ((s.rd Reg.XPL_CRCERR).toNat + 1))
        ∧ s.sameRegs t [Reg.XPL_CRCERR, Reg.PG_IST Reg.pgXPL] ∧ s.sameTables t ∧ s.sameBytes t)
    ∧ (Completes .kykelSummaryWord s fun t => t.xpl.kSum = s.kykelReqs ∧ t.xpl.kSync = true
        ∧ s.sameRegs t [] ∧ s.sameTables t ∧ s.sameBytes t)
    ∧ Completes .kIntChange s fun t => (t.xpl.kInt = true ↔ s.kykelReqs ≠ []) ∧ s.sameRegs t [] ∧ s.sameTables t ∧ s.sameBytes t

/-- An idle island is gated while the gate is in force and restarts; the DRAM enters and leaves self-refresh (01_architecture.md
R35; 01_architecture.md R36; 01_architecture.md R31). -/
def Obligations.ClockGatesAndSelfRefresh : Prop :=
  ∀ (s : State) (i : Island),
    (bitOf (s.force Reg.CHIP_CLKGATE) 0 = true → s.islandIdle i = true → Completes (.islandClockGate i) s fun t =>
        t.rb Reg.CHIP_CLKGATE (gateBit i) = true ∧ s.sameRegs t [Reg.CHIP_CLKGATE] ∧ s.sameTables t ∧ s.sameBytes t)
    ∧ (s.rb Reg.CHIP_CLKGATE (gateBit i) = true → Completes (.islandClockRestart i) s fun t =>
        t.rb Reg.CHIP_CLKGATE (gateBit i) = false ∧ s.sameTables t ∧ s.sameBytes t)
    ∧ (∀ q, bitOf (s.force Reg.TKT_SRCTL) 0 = true → s.dramQuiet = true → s.sw.quietAt = some q → q + 100000 ≤ s.now →
      Completes .dramSelfRefreshEntry s fun t =>
        t.rb Reg.TKT_SRCTL 31 = true ∧ s.sameRegs t [Reg.TKT_SRCTL] ∧ s.sameTables t ∧ s.sameBytes t)
    ∧ (s.inSave = false → (bitOf (s.force Reg.TKT_SRCTL) 0 = false ∨ s.dramAsked = true) → Completes .dramSelfRefreshExit s fun t =>
        t.rb Reg.TKT_SRCTL 31 = false ∧ s.sameRegs t [Reg.TKT_SRCTL] ∧ s.sameTables t ∧ s.sameBytes t)

/-- A CAN controller takes committed settings into use, hands valid frames on, selects, sends, drops and cancels its frames
(04_can_controllers.md R96; 04_can_controllers.md R99; 04_can_controllers.md R110; 04_can_controllers.md R111;
04_can_controllers.md R113; 04_can_controllers.md R114; 04_can_controllers.md R117; 04_can_controllers.md R129;
04_can_controllers.md R130). -/
def Obligations.CanControllersReceiveAndTransmit : Prop :=
  ∀ (s : State) (n : Fin 24) (f : CanFrame) (age rxDom : Nat) (init : Initiator) (v : Word),
    ((s.canOf n).cfgPend = true → (s.canOf n).txNow = none → Completes (.canConfigTakeEffect n) s fun t =>
        (t.canOf n).mode = s.rd (Reg.CANC_MODE n) ∧ (t.canOf n).cfgPend = false
        ∧ (timingOk n (s.rd (Reg.CANC_BTN n)) (s.rd (Reg.CANC_BTD n)) = true → (n : Nat) < 16 →
            (t.canOf n).btn = s.rd (Reg.CANC_BTN n) ∧ (t.canOf n).btd = s.rd (Reg.CANC_BTD n))
        ∧ (timingOk n (s.rd (Reg.CANC_BTN n)) (s.rd (Reg.CANC_BTD n)) = false →
            (t.canOf n).btn = (s.canOf n).btn ∧ (t.canOf n).btd = (s.canOf n).btd ∧ t.rb (Reg.PG_IST (Reg.pgCANC n)) 7 = true))
    ∧ (s.canOn n = true → s.canOp n ≠ 4 → s.accepts n f = true → (s.canOf n).txNow = none →
      Completes (.canFrameValid n false f age) s fun t => t.rd (Reg.CANC_RXOK n) = s.rd (Reg.CANC_RXOK n) + 1
        ∧ ((s.canOf n).rx.length < 8 → ∃ j, (t.canOf n).rx = (s.canOf n).rx ++ [j] ∧ j.frame = f ∧ j.src = (n : Nat) ∧ j.self = false)
        ∧ (8 ≤ (s.canOf n).rx.length → (t.canOf n).rx = (s.canOf n).rx ∧ t.rd (Reg.CANC_RXDISC n) = s.rd (Reg.CANC_RXDISC n) + 1)
        ∧ (∀ m, m ≠ (n : Nat) → t.canOf m = s.canOf m) ∧ s.sameTables t ∧ s.sameBytes t)
    ∧ (∀ g, (s.canOf n).selfDue = some g → (s.canOf n).rx.length < 8 → Completes (.canFrameValid n true f age) s fun t =>
        (∃ j, (t.canOf n).rx = (s.canOf n).rx ++ [j] ∧ j.frame = g ∧ j.self = true) ∧ (t.canOf n).selfDue = none
        ∧ s.sameRegs t [] ∧ s.sameTables t ∧ s.sameBytes t)
    ∧ (∀ p, s.maySend1 n = true → headTx ((s.canOf n).bufs.filter (fun q => s.accepts n q.2.copy.frame)) = some p → s.overdue p.2.copy = false →
        (bitOf (s.canOf n).tdc 0 = false ∨ max rxDom (fld (s.canOf n).tdc 23 16) ≤ 255) → Completes (.transmitSelection n rxDom) s fun t =>
        (t.canOf n).txNow = some p.1 ∧ (t.canOf n).bufs = (s.canOf n).bufs
        ∧ t.outbox = (if s.canOp n = 4 then s.outbox else s.outbox ++ [.canStart n (s.asSent n p.2.copy.frame)])
        ∧ s.sameRegs t [Reg.CANC_TDCSTAT n] ∧ s.sameTables t ∧ s.sameBytes t)
    ∧ (∀ i x, (s.canOf n).txNow = some i → amGet (s.canOf n).bufs i = some x → s.tec n ≤ 255 →
      Completes (.transmissionSuccess n age) s fun t => (t.canOf n).txNow = none ∧ amGet (t.canOf n).bufs i = none
        ∧ t.rd (Reg.CANC_TXOK n) = s.rd (Reg.CANC_TXOK n) + 1 ∧ t.tec n = s.tec n - 1 ∧ t.canRec n = s.canRec n
        ∧ t.rf (Reg.CANC_ESTAT n) 20 16 = 0 ∧ t.rb (Reg.CANC_ESTAT n) 5 = false ∧ s.sameTables t)
    ∧ (∀ i, (s.canOf n).txNow = some i → (s.canOf n).cancel = none → Completes (.arbitrationLost n) s fun t =>
        (t.canOf n).txNow = none ∧ (t.canOf n).bufs = (s.canOf n).bufs ∧ t.rd (Reg.CANC_ARBLOST n) = s.rd (Reg.CANC_ARBLOST n) + 1
        ∧ s.sameRegs t [Reg.CANC_ARBLOST n, Reg.PG_IST (Reg.pgCANC n)] ∧ s.sameTables t ∧ s.sameBytes t)
    ∧ (Completes (.txDeadlineDrop n) s fun t =>
        ∀ p ∈ (t.canOf n).bufs, (s.canOf n).txNow ≠ some p.1 → s.overdue p.2.copy = false)
    ∧ (s.pwr.held = false → s.rf (Reg.CANC_TXCAN n) 31 30 ≠ 1 → bitOf v 8 = false → Completes (.txCancel init n v) s fun t =>
        (∀ x, amGet (s.canOf n).bufs (fld v 5 0) = some x → (s.canOf n).txNow ≠ some (fld v 5 0) →
          t.rf (Reg.CANC_TXCAN n) 31 30 = 2 ∧ amGet (t.canOf n).bufs (fld v 5 0) = none
          ∧ t.rd (Reg.CANC_TXCANCEL n) = s.rd (Reg.CANC_TXCANCEL n) + 1)
        ∧ (∀ x, amGet (s.canOf n).bufs (fld v 5 0) = some x → (s.canOf n).txNow = some (fld v 5 0) →
          t.rf (Reg.CANC_TXCAN n) 31 30 = 1 ∧ (t.canOf n).cancel = some (fld v 5 0) ∧ (t.canOf n).bufs = (s.canOf n).bufs)
        ∧ (amGet (s.canOf n).bufs (fld v 5 0) = none → t.rf (Reg.CANC_TXCAN n) 31 30 = 3 ∧ (t.canOf n).bufs = (s.canOf n).bufs
          ∧ t.rb (Reg.PG_IST (Reg.pgCANC n)) 10 = true) ∧ s.sameTables t)

/-- Errors move TEC, REC and the confinement state; bus-off is left only by the owner's recovery of 128 sequences
(04_can_controllers.md R96; 04_can_controllers.md R118; 04_can_controllers.md R120; 04_can_controllers.md R122;
04_can_controllers.md R123; 04_can_controllers.md R124; 04_can_controllers.md R125; 04_can_controllers.md R130). -/
def Obligations.CanErrorConfinementAndRecovery : Prop :=
  ∀ (s : State) (n : Fin 24) (e : CanErr) (tx dp ex xl role : Bool) (init : Initiator) (v : Word),
    (s.canState n = 1 → Completes (.busIntegrationComplete n) s fun t =>
        t.canState n = (if s.tec n ≤ 127 ∧ s.canRec n ≤ 127 then 2 else 3)
        ∧ s.sameRegs t [Reg.CANC_ESTAT n] ∧ s.sameTables t ∧ s.sameBytes t)
    ∧ (s.canOn n = true → (s.canOf n).txNow.isSome = true → s.tec n ≤ 255 → s.xlSilent n xl = false →
      Completes (.canError n e true dp false (.frame xl)) s fun t =>
        (s.tec n + 8 ≤ 255 → t.tec n = s.tec n + 8) ∧ (255 < s.tec n + 8 → t.tec n = 256 ∧ t.canState n = 4)
        ∧ t.canRec n = s.canRec n ∧ t.rd (Reg.CANC_LEC n) = BitVec.ofNat 32 (32 + dp.toNat * 16 + errCode e)
        ∧ (t.canOf n).txNow = none ∧ s.sameTables t)
    ∧ (s.canOn n = true → (s.canOf n).txNow = none → s.canOp n ≠ 4 → s.canOp n ≠ 2 → s.canOp n ≠ 3 →
      s.xlSilent n xl = false → Completes (.canError n e false dp ex (.frame xl)) s fun t =>
        t.canRec n = capAt 255 (s.canRec n + 1) ∧ (t.canOf n).flag = some false
        ∧ t.rd (Reg.CANC_LEC n) = BitVec.ofNat 32 (dp.toNat * 16 + errCode e) ∧ s.sameTables t ∧ s.sameBytes t)
    ∧ (s.canOn n = true → (s.canOf n).flag = some role → s.tec n ≤ 255 → Completes (.canError n e tx dp ex .flag) s fun t =>
        (role = true → (s.tec n + 8 ≤ 255 → t.tec n = s.tec n + 8) ∧ (255 < s.tec n + 8 → t.tec n = 256 ∧ t.canState n = 4)
          ∧ t.canRec n = s.canRec n)
        ∧ (role = false → t.canRec n = capAt 255 (s.canRec n + 8) ∧ t.tec n = s.tec n) ∧ s.sameTables t ∧ s.sameBytes t)
    ∧ (s.canOn n = true → s.xlSilent n xl = true → (s.canOf n).txNow.isSome = tx → (tx = true ∨ s.canOp n ≠ 4) →
      Completes (.canError n e tx dp ex (.frame xl)) s fun t => t.canState n = 1 ∧ t.tec n = s.tec n ∧ t.canRec n = s.canRec n
        ∧ t.rd (Reg.CANC_LEC n) = BitVec.ofNat 32 (tx.toNat * 32 + dp.toNat * 16 + errCode e) ∧ s.sameTables t)
    ∧ (s.canOn n = true → bitOf (s.canOf n).mode 7 = true → (s.canOf n).txNow = none → Completes (.protocolExceptionEvent n) s fun t =>
        t.canState n = 1 ∧ t.rd (Reg.CANC_PXECNT n) = s.rd (Reg.CANC_PXECNT n) + 1 ∧ t.rb (Reg.PG_IST (Reg.pgCANC n)) 8 = true
        ∧ s.sameRegs t [Reg.CANC_PXECNT n, Reg.CANC_ESTAT n, Reg.PG_IST (Reg.pgCANC n)] ∧ s.sameTables t ∧ s.sameBytes t)
    ∧ (s.canOn n = true → Completes (.overloadFrame n) s fun t => t.rd (Reg.CANC_OVLDCNT n) = s.rd (Reg.CANC_OVLDCNT n) + 1
        ∧ s.sameRegs t [Reg.CANC_OVLDCNT n, Reg.PG_IST (Reg.pgCANC n)] ∧ s.sameTables t ∧ s.sameBytes t)
    ∧ (Completes (.suspendTransmissionEnd n) s fun t => (t.canOf n).suspend = false
        ∧ (∀ m, m ≠ (n : Nat) → t.canOf m = s.canOf m) ∧ s.sameRegs t [] ∧ s.sameTables t ∧ s.sameBytes t)
    ∧ (s.pwr.held = false → bitOf v 0 = true → Completes (.recoveryRequest init n v) s fun t =>
        ((init = .laurel ↔ s.rf (Reg.CANC_BOFFPOL n) 1 0 = 1) → s.canState n = 4 → s.canOp n ≠ 0 →
          t.canState n = 5 ∧ t.rf (Reg.CANC_ESTAT n) 31 24 = 0 ∧ s.sameRegs t [Reg.CANC_ESTAT n])
        ∧ (¬(init = .laurel ↔ s.rf (Reg.CANC_BOFFPOL n) 1 0 = 1) ∨ s.canState n ≠ 4 ∨ s.canOp n = 0 →
          t.rb (Reg.PG_IST (Reg.pgCANC n)) 6 = true ∧ s.sameRegs t [Reg.PG_IST (Reg.pgCANC n)])
        ∧ s.sameTables t ∧ s.sameBytes t)
    ∧ (s.canState n = 5 → 1408000 * bitTimeN (s.canOf n).btn ≤ (s.now - (s.canOf n).recAt) * 160 → Completes (.recoveryComplete n) s fun t =>
        t.canState n = 2 ∧ t.tec n = 0 ∧ t.canRec n = 0 ∧ t.rf (Reg.CANC_ESTAT n) 31 24 = 128
        ∧ t.rb (Reg.PG_IST (Reg.pgCANC n)) 5 = true
        ∧ s.sameRegs t [Reg.CANC_ESTAT n, Reg.CANC_ECNT n, Reg.PG_IST (Reg.pgCANC n)] ∧ s.sameTables t ∧ s.sameBytes t)

/-- A CAN frame is accepted, tagged, matched in its window and copied; copies reach their controller, wait or are dropped
(05_frame_routing.md R138; 05_frame_routing.md R139; 05_frame_routing.md R140; 05_frame_routing.md R144; 05_frame_routing.md R146;
05_frame_routing.md R148; 05_frame_routing.md R152; 05_frame_routing.md R153; 05_frame_routing.md R165; 12_crypto_engine.md R356). -/
def Obligations.PrivetAcceptsRoutesAndPlacesFrames : Prop :=
  ∀ (s : State) (n : Fin 24) (j : Job) (rest : List Job) (res : Bool) (init : Initiator) (v : Word),
    (s.rb Reg.PRV_CTL_EN 0 = true → s.prv.clmQ = [] → s.prv.tpeQ = [] → s.slotFor n = some res → (s.canOf n).rx = j :: rest →
      j.src = n → j.direct = none → j.hq = none →
      ((j.self = true ∨ s.assocFor (s.rd Reg.CAUTH_CTL) false n j.frame = none) → fld (s.rd (Reg.PRV_RTE_WIN n)) 28 16 = 0 →
        Completes (.privetJobAccept n none) s fun t => (t.canOf n).rx = rest
          ∧ t.rd (Reg.PRV_CTL_NOMATCH n) = s.rd (Reg.PRV_CTL_NOMATCH n) + 1 ∧ t.rb (Reg.PG_IST Reg.pgPRV_CTL) 4 = true
          ∧ (s.rb Reg.PRV_CTL_DEFACT 31 = false → amGet t.prv.slots s.prv.nextJob = none) ∧ s.sameTables t ∧ s.sameBytes t)
      ∧ (∀ r ovf, (j.self = true ∨ s.assocFor (s.rd Reg.CAUTH_CTL) false n j.frame = none) →
        s.searchWin (s.rf Reg.CHIP_PLAN 1 0) j (fld (s.rd (Reg.PRV_RTE_WIN n)) 28 16) (fld (s.rd (Reg.PRV_RTE_WIN n)) 14 0) []
          = ([r], ovf) → fld (s.rte r 3) 30 27 = 0 → fld (s.rte r 3) 23 0 = 0 → bitOf (s.rte r 3) 31 = true →
        (bitOf (s.rte r 3) 26 = false ∨ ∀ p ∈ s.prv.slots, p.2.phase = .routed) →
        Completes (.privetJobAccept n none) s fun t => (t.canOf n).rx = rest
          ∧ (∃ sl c, amGet t.prv.slots s.prv.nextJob = some sl ∧ sl.copies = [c] ∧ sl.epoch = s.epoch
            ∧ c.eg = .host (fld (s.rte r 4) 31 26) ∧ c.origin = .route r ∧ c.epoch = s.epoch)
          ∧ amGetD 0 t.prv.rcnt (4 * r) = (amGetD 0 s.prv.rcnt (4 * r) + 1) % 2 ^ 32 ∧ s.sameTables t ∧ s.sameBytes t)
      ∧ (∀ a, j.self = false → s.assocFor (s.rd Reg.CAUTH_CTL) false n j.frame = some a →
        Completes (.privetJobAccept n none) s fun t => (t.canOf n).rx = rest
          ∧ (∃ sl ws, amGet t.prv.slots s.prv.nextJob = some sl ∧ sl.job = j ∧ sl.epoch = s.epoch ∧ sl.copies = []
            ∧ sl.phase = .waitVerify a ws) ∧ s.sameTables t ∧ s.sameBytes t))
    ∧ (∀ id k sl c i, amGet s.prv.slots id = some sl → sl.copies[k]? = some c → s.ready id k c = true → c.eg = .ctl n →
      (s.canState n = 0 → Completes (.copyEnqueue id k) s fun t => (t.canOf n).bufs = (s.canOf n).bufs
        ∧ ((∀ a p b, c.origin ≠ .tpe a p b) → t.rd (Reg.PRV_CTL_EDROP_DISABLED n) = s.rd (Reg.PRV_CTL_EDROP_DISABLED n) + 1))
      ∧ (s.canState n ≠ 0 → s.standby = false → s.heldOf n = [] → (s.canOf n).credit n c.frame = true → s.overdue c = false →
        (List.range 64).find? (fun b => (amGet (s.canOf n).bufs b).isNone) = some i → Completes (.copyEnqueue id k) s fun t =>
          amGet (t.canOf n).bufs i = some ⟨c, (s.canOf n).seq⟩
          ∧ amGet t.prv.slots id = (if (sl.copies.eraseIdx k).isEmpty then none else some { sl with copies := sl.copies.eraseIdx k })
          ∧ s.sameTables t))
    ∧ (∀ c i, bestHeld (s.heldOf n) = some c → s.overdue c = false → (s.canOf n).credit n c.frame = true →
      (List.range 64).find? (fun b => (amGet (s.canOf n).bufs b).isNone) = some i → Completes (.heldCopyPlacement n) s fun t =>
        amGet (t.canOf n).bufs i = some ⟨c, (s.canOf n).seq⟩ ∧ t.heldOf n = (s.heldOf n).erase c ∧ s.sameTables t)
    ∧ (Completes (.heldCopyDeadlineDrop n) s fun t => t.heldOf n = (s.heldOf n).filter (fun c => !s.overdue c)
        ∧ t.rd (Reg.PRV_CTL_EDROP_DEADLINE n)
          = s.rd (Reg.PRV_CTL_EDROP_DEADLINE n) + BitVec.ofNat 32 ((s.heldOf n).filter s.overdue).length ∧ s.sameTables t)
    ∧ (∀ r w, amGet s.prv.cyc r = some w → w.start + w.len ≤ s.now → Completes (.cycleWindowExpiry r) s fun t =>
        amGetD 0 t.prv.rcnt (4 * r + 2) = (amGetD 0 s.prv.rcnt (4 * r + 2) + 1) % 2 ^ 32
        ∧ t.rd Reg.PRV_RTE_LASTCYC = BitVec.ofNat 32 (2 ^ 31 + r) ∧ t.rb (Reg.PG_IST Reg.pgPRV_RTE) 1 = true
        ∧ s.sameRegs t [Reg.PRV_RTE_LASTCYC, Reg.PG_IST Reg.pgPRV_RTE] ∧ s.sameTables t ∧ s.sameBytes t)
    ∧ (s.pwr.held = false → Completes (.routeCounterLatch init v) s fun t =>
        t.rd Reg.PRV_RTE_CMATCH = BitVec.ofNat 32 (amGetD 0 s.prv.rcnt (4 * fld v 14 0))
        ∧ t.rd Reg.PRV_RTE_CDLDROP = BitVec.ofNat 32 (amGetD 0 s.prv.rcnt (4 * fld v 14 0 + 1))
        ∧ t.rd Reg.PRV_RTE_CCYCMISS = BitVec.ofNat 32 (amGetD 0 s.prv.rcnt (4 * fld v 14 0 + 2))
        ∧ t.prv = s.prv ∧ s.sameTables t ∧ s.sameBytes t)
    ∧ (s.pwr.held = false → Completes (.routeCounterClear init v) s fun t =>
        (bitOf v 31 = true → t.prv.rcnt = [] ∧ t.rd Reg.PRV_RTE_LASTCYC = 0)
        ∧ (bitOf v 31 = false → (∀ k, k < 3 → amGetD 0 t.prv.rcnt (4 * fld v 14 0 + k) = 0)
          ∧ ∀ a, a < 4 * fld v 14 0 ∨ 4 * fld v 14 0 + 3 ≤ a → amGetD 0 t.prv.rcnt a = amGetD 0 s.prv.rcnt a)
        ∧ s.sameRegs t [Reg.PRV_RTE_LASTCYC] ∧ s.sameTables t ∧ s.sameBytes t)

/-- An aggregate leaves at its timer; a received tunnel frame is checked, counted and read; silence of a stream is reported
(05_frame_routing.md R156; 05_frame_routing.md R158; 05_frame_routing.md R159; 05_frame_routing.md R160; 05_frame_routing.md
R162). -/
def Obligations.BrambleAggregatesAndReceivesTunnelFrames : Prop :=
  ∀ (s : State) (i : Fin 64),
    ((s.txs i).agg ≠ [] → (s.txs i).since + s.rf (Reg.BRM_TXS_W3 i) 31 20 * 1000 ≤ s.now →
      Completes (.aggregationTimerExpiry i) s fun t => (t.txs i).agg = [] ∧ (t.txs i).seq = ((s.txs i).seq + 1) % 256
        ∧ t.rd (Reg.BRM_TXFRM i) = s.rd (Reg.BRM_TXFRM i) + 1
        ∧ (∃ x, t.swIn = s.swIn ++ [x] ∧ x.port = 15 ∧ x.bytes = s.avtpFrame i (s.txs i).agg.flatten)
        ∧ s.sameRegs t [Reg.BRM_TXFRM i, Reg.PG_IST Reg.pgBRM] ∧ s.sameTables t ∧ s.sameBytes t)
    ∧ (∀ b rest, s.prv.ethIn = b :: rest → (∀ j ∈ s.prv.wait, j.src < 0x80 ∨ 0xBF < j.src) →
      (s.rb Reg.BRM_CTL 1 = false → Completes .tunnelFrameReceive s fun t => t.prv.ethIn = rest
        ∧ t.rd Reg.BRM_BADHDR = s.rd Reg.BRM_BADHDR + 1
        ∧ s.sameRegs t [Reg.BRM_BADHDR, Reg.PG_IST Reg.pgBRM] ∧ s.sameTables t ∧ s.sameBytes t)
      ∧ ∀ sid q msgs k, s.rb Reg.BRM_CTL 1 = true → avtpParse b = some (sid, q, msgs) → s.rxStream sid = some k →
        (s.seqCheck k q).2 = true → Completes .tunnelFrameReceive s fun t => t.prv.ethIn = rest
          ∧ t.rd (Reg.BRM_RXFRM k) = s.rd (Reg.BRM_RXFRM k) + 1 ∧ t.rf (Reg.BRM_RXS_W3 k) 23 16 = q % 256
          ∧ amGet t.prv.rxAt k = some s.now ∧ s.sameTables t ∧ s.sameBytes t)
    ∧ (∀ at0, amGet s.prv.rxAt i = some at0 → s.rf (Reg.BRM_RXS_W2 i) 15 0 ≠ 0 →
      at0 + s.rf (Reg.BRM_RXS_W2 i) 15 0 * 1000000 ≤ s.now → Completes (.streamSilenceTimeout i) s fun t =>
        t.rb (Reg.BRM_RXS_W3 i) 31 = false ∧ t.rd Reg.BRM_LASTTO = BitVec.ofNat 32 (2 ^ 31 + i)
        ∧ t.rb (Reg.PG_IST Reg.pgBRM) 3 = true ∧ amGet t.prv.rxAt i = none
        ∧ s.sameRegs t [Reg.BRM_RXS_W3 i, Reg.BRM_LASTTO, Reg.PG_IST Reg.pgBRM] ∧ s.sameTables t ∧ s.sameBytes t)

/-- Sources are unpacked from frames, age, mark their sinks; layouts are triggered, deferred and formed; slots and counters are
read (06_signal_engine.md R172; 06_signal_engine.md R174; 06_signal_engine.md R186; 06_signal_engine.md R187; 06_signal_engine.md
R189; 06_signal_engine.md R190; 06_signal_engine.md R192; 06_signal_engine.md R193; 06_signal_engine.md R197; 06_signal_engine.md
R198). -/
def Obligations.SignalsAreUnpackedAgedAndFormed : Prop :=
  ∀ (s : State) (init : Initiator) (v : Word),
    (∀ h i w ps, sigNext s.prv.sigQ = some (.job h) → bitOf (s.cfg h.epoch Reg.PRV_SIG_CTL) 0 = true →
      s.pduOn h.ix (s.cf h.epoch Reg.CHIP_PLAN 1 0) = true → bitOf (s.pduw h.ix 1) 31 = false →
      fld (s.pduw h.ix 6) 21 16 = 1 → i = fld (s.pduw h.ix 6) 15 0 → s.sigOn i (s.cf h.epoch Reg.CHIP_PLAN 1 0) = true →
      fld (s.sigw i 3) 30 29 = 0 → w = fld (s.sigw i 0) 19 14 → 1 ≤ w → w ≤ 36 →
      posInside (fieldPos (bitOf (s.sigw i 0) 20) w (fld (s.sigw i 0) 13 0)) h.job.frame.data.length = some ps →
      fld (s.sigw i 1) 19 16 = 0 → Completes .signalHandoff s fun t =>
        (t.slotOf i).val = (if bitOf (s.sigw i 0) 21 then unsigned 36 (signed w (rawField h.job.frame.data ps))
          else rawField h.job.frame.data ps)
        ∧ (t.slotOf i).upd = true ∧ (t.slotOf i).upAt = h.job.valid ∧ t.prv.sigQ = s.prv.sigQ.erase (.job h)
        ∧ t.rd Reg.PRV_SIG_EXTR = s.rd Reg.PRV_SIG_EXTR + 1
        ∧ s.sameRegs t [Reg.PRV_SIG_EXTR, Reg.PG_IST Reg.pgPRV_SIG] ∧ s.sameTables t ∧ s.sameBytes t)
    ∧ (∀ i : Fin 65536, s.staleDue i = true → Completes (.staleMark i) s fun t =>
        (t.slotOf i).qual = 3 ∧ (t.slotOf i).val = (s.slotOf i).val
        ∧ t.prv.sigQ = s.prv.sigQ ++ [.mark i ((s.slotOf i).gen + 1)] ∧ t.rd Reg.PRV_SIG_STALE = s.rd Reg.PRV_SIG_STALE + 1
        ∧ t.rd Reg.PRV_SIG_LASTSTALE = BitVec.ofNat 32 (2 ^ 31 + i) ∧ t.rb (Reg.PG_IST Reg.pgPRV_SIG) 0 = true
        ∧ s.sameRegs t [Reg.PRV_SIG_STALE, Reg.PRV_SIG_LASTSTALE, Reg.PG_IST Reg.pgPRV_SIG] ∧ s.sameTables t ∧ s.sameBytes t)
    ∧ (∀ i g, sigNext s.prv.sigQ = some (.mark i g) → Completes .staleMarkPass s fun t =>
        t.prv.sigQ = s.prv.sigQ.erase (.mark i g) ∧ s.sameTables t
        ∧ ((s.slotOf i).gen ≠ g → s.sameRegs t [] ∧ s.sameBytes t)
        ∧ ∀ k ps, (s.slotOf i).gen = g → bitOf (s.sigw i 3) 31 = true → fld (s.sigw i 3) 30 29 = 0 →
          fld (s.sigw i 1) 19 16 = 1 → k = fld (s.sigw i 1) 15 0 → fld (s.sigw i 0) 19 14 ≤ 18 →
          s.sigOn k (s.rf Reg.CHIP_PLAN 1 0) = true → fld (s.sigw k 3) 30 29 = 1 → 1 ≤ fld (s.sigw k 0) 19 14 →
          fld (s.sigw k 0) 19 14 ≤ 36 → s.pduOn (fld (s.sigw k 1) 31 18) (s.rf Reg.CHIP_PLAN 1 0) = true →
          bitOf (s.pduw (fld (s.sigw k 1) 31 18) 1) 31 = true →
          posInside (fieldPos (bitOf (s.sigw k 0) 20) (fld (s.sigw k 0) 19 14) (fld (s.sigw k 0) 13 0))
            (fld (s.pduw (fld (s.sigw k 1) 31 18) 1) 11 0) = some ps →
          (t.slotOf k).qual = (s.slotOf i).qual ∧ (t.slotOf k).upd = true)
    ∧ (∀ l : Fin 16384, bitOf (s.pduw l 15) 31 = true → bitOf (s.pduw l 1) 31 = true →
      (fld (s.pduw l 4) 14 12 = 1 ∨ fld (s.pduw l 4) 14 12 = 4 ∨ fld (s.pduw l 4) 14 12 = 5) → fld (s.pduw l 3) 15 0 ≠ 0 →
      s.tsy.full / 100000 % fld (s.pduw l 3) 15 0 = fld (s.pduw l 5) 31 16 % fld (s.pduw l 3) 15 0 →
      (s.pduSt l).tick ≠ some (s.tsy.full / 100000, s.rf Reg.TSY_STAT 15 8) → s.rb Reg.PRV_PDU_CTL 0 = true →
      s.tsy.stepTo ≤ s.tsy.full / 100000 * 100000 → s.pduOn l (s.rf Reg.CHIP_PLAN 1 0) = true → s.pduBad l = false → (s.pduSt l).defer = none → (s.pduSt l).last = none → Completes (.periodicScheduleInstant l) s fun t =>
        t.prv.trigQ = placeTrig (s.now - s.tsy.full % 100000, (l : Nat), false) s.prv.trigQ
        ∧ (t.pduSt l).tick = some (s.tsy.full / 100000, s.rf Reg.TSY_STAT 15 8)
        ∧ s.sameRegs t [] ∧ s.sameTables t ∧ s.sameBytes t)
    ∧ (∀ (l : Fin 16384) due ev, (s.pduSt l).defer = some (due, ev) → due ≤ s.now → Completes (.minivDeferredSend l) s fun t =>
        t.prv.trigQ = placeTrig (due, (l : Nat), ev) s.prv.trigQ ∧ (t.pduSt l).defer = none
        ∧ s.sameRegs t [] ∧ s.sameTables t ∧ s.sameBytes t)
    ∧ (∀ l at0 rest, s.prv.trigQ = (at0, l, true) :: rest → s.pduOn l (s.rf Reg.CHIP_PLAN 1 0) = true → bitOf (s.pduw l 1) 31 = true →
      s.pduBad l = false → Completes .pduFrameFormation s fun t =>
        t.prv.trigQ = rest ∧ amGetD 0 t.prv.pcnt (4 * l) = (amGetD 0 s.prv.pcnt (4 * l) + 1) % 2 ^ 32
        ∧ (t.pduSt l).last = some s.now ∧ s.sameTables t ∧ s.sameBytes t
        ∧ (fld (s.pduw l 2) 23 0 = 0 → bitOf (s.pduw l 1) 29 = true → ∃ sl c, amGet t.prv.slots s.prv.nextJob = some sl
          ∧ sl.copies = [c] ∧ c.frame = s.pduFrame l ∧ c.eg = .host (fld (s.pduw l 1) 28 23)))
    ∧ (s.pwr.held = false → Completes (.signalSlotLatch init v) s fun t =>
        t.rd Reg.PRV_SIG_RLO = BitVec.ofNat 32 ((s.slotOf (fld v 15 0)).upd.toNat * 2 ^ 31 + (s.slotOf (fld v 15 0)).cntd.toNat * 2 ^ 30
          + (s.slotOf (fld v 15 0)).qual * 2 ^ 18 + (s.slotOf (fld v 15 0)).val % 2 ^ 18)
        ∧ t.prv = s.prv ∧ s.sameTables t ∧ s.sameBytes t)
    ∧ (s.pwr.held = false → Completes (.pduCounterLatch init v) s fun t =>
        t.rd Reg.PRV_PDU_CSENT = BitVec.ofNat 32 (amGetD 0 s.prv.pcnt (4 * fld v 13 0))
        ∧ t.rd Reg.PRV_PDU_CDLDROP = BitVec.ofNat 32 (amGetD 0 s.prv.pcnt (4 * fld v 13 0 + 3))
        ∧ t.rd Reg.PRV_PDU_VSTAT = BitVec.ofNat 32 (s.pduSt (fld v 13 0)).vcount ∧ t.prv = s.prv ∧ s.sameTables t ∧ s.sameBytes t)
    ∧ (s.pwr.held = false → Completes (.pduCounterClear init v) s fun t =>
        (bitOf v 31 = true → t.prv.pcnt = [])
        ∧ (bitOf v 31 = false → (∀ k, k < 4 → amGetD 0 t.prv.pcnt (4 * fld v 13 0 + k) = 0)
          ∧ ∀ a, a < 4 * fld v 13 0 ∨ 4 * fld v 13 0 + 4 ≤ a → amGetD 0 t.prv.pcnt a = amGetD 0 s.prv.pcnt a)
        ∧ s.sameRegs t [] ∧ s.sameTables t ∧ s.sameBytes t)

/-- The claim ledger learns claims, answers requests, claims for its own entries, flushes a segment and opens claim windows
(07_isobus_services.md R203; 07_isobus_services.md R205; 07_isobus_services.md R207; 07_isobus_services.md R208;
07_isobus_services.md R210; 07_isobus_services.md R211; 07_isobus_services.md R212; 07_isobus_services.md R213). -/
def Obligations.ClaimLedgerLearnsAnswersAndClaims : Prop :=
  ∀ (s : State) (init : Initiator) (v : Word) (n : Fin 24) (e : Fin 2048),
    (∀ h rest k i x name, s.prv.clmQ = h :: rest → s.noneWaits → nfld h.job.frame.ident 23 16 = 0xEE →
      (h.job.frame.data.length ≠ 8 → Completes .addressClaimed s fun t => t.prv.clmQ = rest
        ∧ t.rd Reg.CLM_BADCLM = s.rd Reg.CLM_BADCLM + 1 ∧ t.rb (Reg.PG_IST Reg.pgCLM) 4 = true
        ∧ s.sameRegs t [Reg.CLM_BADCLM, Reg.PG_IST Reg.pgCLM] ∧ s.sameTables t ∧ s.sameBytes t)
      ∧ (h.job.src = n → h.job.frame.data.length = 8 → x = nfld h.job.frame.ident 7 0 → x < 0xFE → name = leNat h.job.frame.data →
        s.clmFind n name = none → (∀ o ∈ s.clmOn n, s.clmHolds o = false ∨ s.clmSa o ≠ x ∨ s.clmShadowed o = true) →
        (List.range (2048 - s.cf h.epoch Reg.CLM_CTL 31 21)).find? (fun b => !s.clmValid (s.cf h.epoch Reg.CLM_CTL 31 21 + b)) = some k →
        i = s.cf h.epoch Reg.CLM_CTL 31 21 + k → Completes .addressClaimed s fun t => t.prv.clmQ = rest
          ∧ t.clmValid i = true ∧ t.clmName i = name ∧ t.clmSeg i = n ∧ t.clmSa i = x ∧ t.clmState i = 0 ∧ t.clmType i = 0
          ∧ t.rd Reg.CLM_LEARNED = s.rd Reg.CLM_LEARNED + 1 ∧ (∀ a, a < clmA i 0 ∨ clmA i 3 < a → t.tw a = s.tw a) ∧ s.sameBytes t))
    ∧ (∀ h rest, s.prv.clmQ = h :: rest → s.noneWaits → nfld h.job.frame.ident 23 16 ≠ 0xEE → h.job.src = n →
      (s.clmOn n).filter (fun o => s.clmOwn o && !s.clmShadowed o) = [(e : Nat)] → s.clmHolds e = true →
      (nfld h.job.frame.ident 15 8 = 0xFF ∨ s.clmSa e = nfld h.job.frame.ident 15 8) → bitOf (s.cfg h.epoch Reg.CLM_CTL) 2 = true →
      s.clmForms = true → s.canState n ≠ 0 → Completes .requestForAddressClaim s fun t => t.prv.clmQ = rest
        ∧ s.formedCopy t n (ccFrame (0x18EEFF00 + s.clmSa e) (leBytes 8 (s.clmName e))) ∧ s.sameTables t ∧ s.sameBytes t)
    ∧ (∀ k rest, s.prv.reports = ((e : Nat), k) :: rest → s.clmPending e = true → amGet s.clm.claim e = some k → Completes .claimFrameSent s fun t =>
        t.prv.reports = rest ∧ amGet t.clm.wait e = some (s.now + 250000000) ∧ s.sameRegs t [] ∧ s.sameTables t ∧ s.sameBytes t)
    ∧ (timerDue s.clm.wait e s.now = true → s.clmPending e = true → Completes (.claimWaitExpiry e) s fun t =>
        t.clmState e = 0 ∧ amGet t.clm.wait e = none ∧ t.clmSa e = s.clmSa e ∧ s.sameRegs t [] ∧ s.sameBytes t)
    ∧ (timerDue s.clm.retry e s.now = true → s.clmPending e = true → s.clmForms = true → s.canState (s.clmSeg e) ≠ 0 →
      Completes (.claimRetry e) s fun t => amGet t.clm.retry e = none
        ∧ s.formedCopy t (s.clmSeg e) (ccFrame (0x18EEFF00 + s.clmSa e) (leBytes 8 (s.clmName e))) ∧ s.sameTables t ∧ s.sameBytes t)
    ∧ (timerDue s.clm.cannot e s.now = true → Completes (.cannotClaimSend e) s fun t => amGet t.clm.cannot e = none
        ∧ t.rd Reg.CLM_PXLOST = s.rd Reg.CLM_PXLOST + 1 ∧ t.rb (Reg.PG_IST Reg.pgCLM) 3 = true
        ∧ t.rd Reg.CLM_LAST = BitVec.ofNat 32 (2 ^ 31 + 3 * 2 ^ 29 + s.clmSeg e * 2 ^ 24 + e)
        ∧ (s.clmForms = true → s.clmSeg e ≤ 23 → s.canState (s.clmSeg e) ≠ 0 →
          s.formedCopy t (s.clmSeg e) (ccFrame 0x18EEFFFE (leBytes 8 (s.clmName e)))) ∧ s.sameTables t ∧ s.sameBytes t)
    ∧ (s.pwr.held = false → bitOf v 31 = true → fld v 4 0 ≤ 23 → s.clmForms = true → s.canState (fld v 4 0) ≠ 0 →
      Completes (.clmReq init v) s fun t =>
        s.formedCopy t (fld v 4 0) (ccFrame 0x18EAFFFE [0x00, 0xEE, 0x00]) ∧ s.sameTables t ∧ s.sameBytes t)
    ∧ (s.pwr.held = false → bitOf v 31 = true → fld v 4 0 ≤ 23 → Completes (.ledgerFlush init v) s fun t =>
        (s.clmValid e = true → s.clmType e = 0 → s.clmSeg e = fld v 4 0 → t.clmValid e = false)
        ∧ (s.clmType e ≠ 0 ∨ s.clmSeg e ≠ fld v 4 0 → ∀ w, w < 4 → t.tw (clmA e w) = s.tw (clmA e w))
        ∧ s.sameRegs t [] ∧ s.sameBytes t)
    ∧ ((s.canOf n).openDue = true → Completes (.claimWindowOpen n none) s fun t =>
        t.rb Reg.CLM_ISOSTAT n = (s.rf (Reg.CLM_ISO n) 7 0 != 0) ∧ (t.canOf n).openDue = false
        ∧ (s.rf (Reg.CLM_ISO n) 7 0 ≠ 0 → amGet t.clm.win n = some (s.now + s.rf (Reg.CLM_ISO n) 7 0 * 10000000)) ∧ s.sameBytes t)
    ∧ (s.pwr.held = false → nbit (fld v 23 0) n = true → Completes (.claimWindowOpen n (some (init, v))) s fun t =>
        t.rb Reg.CLM_ISOSTAT n = (s.rf (Reg.CLM_ISO n) 7 0 != 0) ∧ s.sameBytes t)
    ∧ (timerDue s.clm.win n s.now = true → Completes (.claimWindowEnd n) s fun t =>
        t.rb Reg.CLM_ISOSTAT n = false ∧ amGet t.clm.win n = none ∧ s.sameRegs t [Reg.CLM_ISOSTAT] ∧ s.sameTables t ∧ s.sameBytes t)

/-- Transport sessions open at the lowest free index, take packets in order, serve relays, time out, abort and end
(07_isobus_services.md R217; 07_isobus_services.md R218; 07_isobus_services.md R219; 07_isobus_services.md R220;
07_isobus_services.md R221; 07_isobus_services.md R222; 07_isobus_services.md R224; 07_isobus_services.md R225;
07_isobus_services.md R226; 07_isobus_services.md R228). -/
def Obligations.TransportSessionsOpenFlowAndEnd : Prop :=
  ∀ (s : State) (h : Handoff) (rest : List Handoff) (i : Fin 128) (t0 : TpeSession) (q : TpePart) (init : Initiator) (v : Word),
    (s.prv.tpeQ = h :: rest → s.noneWaits →
      (jPf h.job = 0xEC → jCb h.job = 16 → s.standby = false → s.tpeWhere h.epoch h.job.src (jDa h.job) = .host →
        (s.tpeReason (s.tpeKey h.job.src (jSa h.job) (jDa h.job)).isSome
            (tpSizeOk (leAt h.job.frame.data 1 2) (byteAt h.job.frame.data 3)) (leAt h.job.frame.data 1 2) true = none →
          s.tpeFreeIx = some i → Completes .tpCmRts s fun t => t.prv.tpeQ = rest
            ∧ (∃ u, t.ses i = some u ∧ u.kind = 0 ∧ u.seg = h.job.src ∧ u.sa = jSa h.job ∧ u.da = jDa h.job
              ∧ u.size = leAt h.job.frame.data 1 2 ∧ u.pgn = leAt h.job.frame.data 5 3 ∧ u.got = 0)
            ∧ t.rd Reg.TPE_OPENED = s.rd Reg.TPE_OPENED + 1 ∧ s.sameTables t ∧ s.sameBytes t)
        ∧ (∀ r, s.tpeReason (s.tpeKey h.job.src (jSa h.job) (jDa h.job)).isSome
            (tpSizeOk (leAt h.job.frame.data 1 2) (byteAt h.job.frame.data 3)) (leAt h.job.frame.data 1 2) true = some r →
          Completes .tpCmRts s fun t => t.prv.tpeQ = rest ∧ t.tpe = s.tpe
            ∧ t.rd Reg.TPE_REFUSED = s.rd Reg.TPE_REFUSED + 1 ∧ t.rb (Reg.PG_IST Reg.pgTPE) 0 = true ∧ s.sameBytes t))
      ∧ (∀ ds, jPf h.job = 0xEC → jCb h.job = 32 → jDa h.job = 0xFF → s.standby = false →
        s.bamDests h.epoch h.job.src (jSa h.job) = (ds, 0) → ds ≠ [] → s.tpeKey h.job.src (jSa h.job) 0xFF = none →
        s.tpeReason false (tpSizeOk (leAt h.job.frame.data 1 2) (byteAt h.job.frame.data 3)) (leAt h.job.frame.data 1 2) true = none →
        s.tpeFreeIx = some i → Completes .tpCmBam s fun t => t.prv.tpeQ = rest
          ∧ (∃ u, t.ses i = some u ∧ u.kind = 1 ∧ u.seg = h.job.src ∧ u.sa = jSa h.job ∧ u.da = 0xFF
            ∧ u.size = leAt h.job.frame.data 1 2 ∧ u.got = 0 ∧ u.parts.length = ds.length)
          ∧ t.rd Reg.TPE_OPENED = s.rd Reg.TPE_OPENED + 1 ∧ s.sameTables t ∧ s.sameBytes t)
      ∧ (s.inSave = false → jPf h.job = 0xEB → h.job.frame.data.length = 8 →
        s.tpeIngress false h.job.src (jSa h.job) (jDa h.job) = some ((i : Nat), t0) → t0.kind = 0 → jCb h.job = t0.got + 1 →
        t0.got + 1 < t0.winEnd → 7 * t0.got + 7 < t0.size → Completes .tpDt s fun t => t.prv.tpeQ = rest
          ∧ t.ses i = some { t0 with got := t0.got + 1, any := true, since := s.now }
          ∧ t.tpeBytes t0 (7 * t0.got) 7 = h.job.frame.data.drop 1
          ∧ (∀ a, (∀ x, x < 7 → a ≠ t0.addr (7 * t0.got + x)) → memRd t.dram a = memRd s.dram a)
          ∧ s.sameRegs t [] ∧ s.sameTables t)
      ∧ (jPf h.job = 0xC8 → jCb h.job = 22 → s.tpeIngress true h.job.src (jSa h.job) (jDa h.job) = some ((i : Nat), t0) →
        leAt h.job.frame.data 2 3 + 1 = t0.winStart → t0.got = leAt h.job.frame.data 2 3 → 1 ≤ byteAt h.job.frame.data 1 →
        leAt h.job.frame.data 2 3 + byteAt h.job.frame.data 1 ≤ t0.winEnd → Completes .etpCmDpo s fun t => t.prv.tpeQ = rest
          ∧ (∃ u, t.ses i = some u ∧ u.dpo = some (leAt h.job.frame.data 2 3, byteAt h.job.frame.data 1) ∧ u.got = t0.got)
          ∧ s.sameRegs t [] ∧ s.sameTables t ∧ s.sameBytes t)
      ∧ (∀ g sa da, jPf h.job = 0xEC → jCb h.job = 17 →
        s.tpeRelay false h.job.src (jSa h.job) (jDa h.job) = some ((i : Nat), t0, q) → q.dest = .relay g sa da → q.wait ≠ .window →
        s.ses i = some t0 → Completes .tpCmCts s fun t => t.prv.tpeQ = rest
          ∧ (byteAt h.job.frame.data 1 = 0 → ∃ u, t.ses i = some u ∧ { q with wait := .ctsHold, since := s.now } ∈ u.parts)
          ∧ (byteAt h.job.frame.data 1 ≠ 0 → 1 ≤ byteAt h.job.frame.data 2 → byteAt h.job.frame.data 2 ≤ t0.npk → g ≤ 23 →
            s.canState g ≠ 0 → s.isolated g = false → ∃ u p, t.ses i = some u ∧ p ∈ u.parts ∧ p.id = q.id ∧ p.wait = .window
              ∧ p.sent = byteAt h.job.frame.data 2
                + min (byteAt h.job.frame.data 1) (t0.npk + 1 - byteAt h.job.frame.data 2) - 1)
          ∧ s.sameTables t ∧ s.sameBytes t)
      ∧ (jPf h.job = 0xEC → jCb h.job = 19 → s.tpeRelay false h.job.src (jSa h.job) (jDa h.job) = some ((i : Nat), t0, q) →
        s.ses i = some t0 → t0.parts = [q] → t0.failed = false → Completes .tpCmEoma s fun t => t.prv.tpeQ = rest
          ∧ t.ses i = none ∧ t.rd Reg.TPE_DONE = s.rd Reg.TPE_DONE + 1
          ∧ s.sameRegs t [Reg.TPE_DONE, Reg.PG_IST Reg.pgTPE] ∧ s.sameTables t ∧ s.sameBytes t)
      ∧ (jPf h.job = 0xEC → jCb h.job = 255 → s.tpeIngress false h.job.src (jSa h.job) (jDa h.job) = some ((i : Nat), t0) →
        Completes .connAbort s fun t => t.prv.tpeQ = rest ∧ t.ses i = none ∧ t.rd Reg.TPE_ABRX = s.rd Reg.TPE_ABRX + 1
          ∧ t.rb (Reg.PG_IST Reg.pgTPE) 1 = true ∧ s.sameRegs t [Reg.TPE_ABRX, Reg.TPE_LASTAB, Reg.PG_IST Reg.pgTPE]
          ∧ s.sameTables t ∧ s.sameBytes t))
    ∧ (s.ses i = some t0 → t0.delivering = false →
      (t0.any = true → t0.since + 750000000 ≤ s.now → Completes (.t1Timeout i) s fun t => t.ses i = none
        ∧ t.rd Reg.TPE_TMO = s.rd Reg.TPE_TMO + 1 ∧ t.rb (Reg.PG_IST Reg.pgTPE) 3 = true
        ∧ (t0.kind = 1 → t.rd Reg.TPE_BAMDISC = s.rd Reg.TPE_BAMDISC + 1)
        ∧ (t0.kind ≠ 1 → t.rd Reg.TPE_ABTX = s.rd Reg.TPE_ABTX + 1) ∧ s.sameTables t ∧ s.sameBytes t)
      ∧ (t0.any = false → t0.kind ≠ 1 → t0.since + 1250000000 ≤ s.now → Completes (.t2Timeout i) s fun t => t.ses i = none
        ∧ t.rd Reg.TPE_TMO = s.rd Reg.TPE_TMO + 1 ∧ t.rd Reg.TPE_ABTX = s.rd Reg.TPE_ABTX + 1 ∧ s.sameTables t ∧ s.sameBytes t))
    ∧ (∀ g sa da, s.ses i = some t0 → t0.parts.find? (fun r => r.id == q.id) = some q → q.dest = .relay g sa da →
      ((q.wait = .cts ∨ q.wait = .eoma) → q.since + 1250000000 ≤ s.now → Completes (.t3Timeout i q.id) s fun t =>
        (∀ u, t.ses i = some u → ∀ p ∈ u.parts, p.id ≠ q.id) ∧ t.rd Reg.TPE_TMO = s.rd Reg.TPE_TMO + 1
        ∧ t.rd Reg.TPE_ABTX = s.rd Reg.TPE_ABTX + 1 ∧ s.sameTables t ∧ s.sameBytes t)
      ∧ (q.wait = .ctsHold → q.since + 1050000000 ≤ s.now → Completes (.t4Timeout i q.id) s fun t =>
        (∀ u, t.ses i = some u → ∀ p ∈ u.parts, p.id ≠ q.id) ∧ t.rd Reg.TPE_TMO = s.rd Reg.TPE_TMO + 1
        ∧ t.rd Reg.TPE_ABTX = s.rd Reg.TPE_ABTX + 1 ∧ s.sameTables t ∧ s.sameBytes t))
    ∧ (∀ n sa, s.inSave = false → s.ses i = some t0 → t0.parts.find? (fun r => r.id == q.id) = some q → q.dest = .bamCan n sa →
      q.wait = .gap → q.since + clampN 50 200 (s.rf Reg.TPE_CTL 31 24) * 1000000 ≤ s.now → n ≤ 23 → s.canState n ≠ 0 →
      s.isolated n = false → Completes (.bamPacketGap i q.id) s fun t =>
        s.formedCopy t n (tpeFrame (dtPf t0.etp) 0xFF sa (s.tpePacket t0 (q.sent + 1) (q.sent + 1)))
        ∧ (∃ u p, t.ses i = some u ∧ p ∈ u.parts ∧ p.id = q.id ∧ p.sent = q.sent + 1 ∧ p.wait = .window) ∧ s.sameTables t ∧ s.sameBytes t)
    ∧ (∀ p, s.tpe.next = some p → s.tpe.ses = [] → Completes .poolChangeEffect s fun t =>
        t.tpe.pool = p ∧ t.tpe.next = none ∧ s.sameRegs t [] ∧ s.sameTables t ∧ s.sameBytes t)
    ∧ (s.pwr.held = false → s.ses (fld v 6 0) = some t0 → Completes (.sessionLatch init v) s fun t =>
        t.rd Reg.TPE_SST = BitVec.ofNat 32 t0.sst ∧ t.rd Reg.TPE_SSIZE = BitVec.ofNat 32 t0.size
        ∧ t.rd Reg.TPE_SRCV = BitVec.ofNat 32 (min t0.size (7 * t0.got)) ∧ t.rd Reg.TPE_SPGN = BitVec.ofNat 32 (t0.pgn % 2 ^ 18)
        ∧ t.tpe = s.tpe ∧ s.sameTables t ∧ s.sameBytes t)

/-- Received PAUSE and PFC stop classes for their quanta; requests are sent and repeated; the watchdog releases and ignores
(08_ethernet_ports.md R239; 08_ethernet_ports.md R244; 08_ethernet_ports.md R245; 08_ethernet_ports.md R246). -/
def Obligations.PauseFramesPauseAndAreAsked : Prop :=
  ∀ (s : State) (p : Fin 14) (c : Fin 9) (q : Fin 65536) (vec : Fin 256) (qs : List (Fin 65536)),
    (s.ethLink p = true → s.rf (Reg.EMAC_FC p) 1 0 = 1 → s.standby = false → s.pauseIgn p 8 = false → q.val ≠ 0 → s.ethRate p ≠ 0 →
      Completes (.pauseReceive p q) s fun t =>
        amGet (t.emacOf p).pause 8 = some (s.now + q * 512 * 1000 / s.ethRate p)
        ∧ t.rd (Reg.EMAC_RXPAUSE p) = s.rd (Reg.EMAC_RXPAUSE p) + 1
        ∧ s.sameRegs t [Reg.EMAC_RXPAUSE p, Reg.PG_IST (Reg.pgEMAC p)] ∧ s.sameTables t ∧ s.sameBytes t)
    ∧ (s.ethLink p = true → s.rf (Reg.EMAC_FC p) 1 0 = 2 → s.standby = false → s.ethRate p ≠ 0 → Completes (.pfcReceive p vec qs) s fun t =>
        (∀ (k : Nat) (x : Fin 65536), k < 8 → nbit vec k = true → nbit (s.rf (Reg.EMAC_FC p) 15 8) k = true →
          s.pauseIgn p k = false → qs[k]? = some x → x.val ≠ 0 →
          amGet (t.emacOf p).pause k = some (s.now + x * 512 * 1000 / s.ethRate p))
        ∧ (∀ k, k < 8 → (nbit vec k = false ∨ nbit (s.rf (Reg.EMAC_FC p) 15 8) k = false ∨ s.pauseIgn p k = true) →
          amGet (t.emacOf p).pause k = amGet (s.emacOf p).pause k)
        ∧ t.rd (Reg.EMAC_RXPFC p) = s.rd (Reg.EMAC_RXPFC p) + 1 ∧ s.sameTables t ∧ s.sameBytes t)
    ∧ (∀ e, amGet (s.emacOf p).pause c = some e → e ≤ s.now → Completes (.pauseExpiry p c) s fun t =>
        amGet (t.emacOf p).pause c = none ∧ s.sameRegs t [] ∧ s.sameTables t ∧ s.sameBytes t)
    ∧ (∀ i, s.ethLink p = true → (s.emacOf p).tx = none → s.standby = false → p.val ≤ 11 →
      (i = .pauseRequestSend p ∧ (s.emacOf p).ask ≠ (s.emacOf p).told
        ∨ i = .pauseRepeat p ∧ (s.emacOf p).ask ≠ [] ∧ (s.emacOf p).ask = (s.emacOf p).told
          ∧ (s.emacOf p).toldAt + s.quantaNs p (max 1 (s.rf (Reg.EMAC_PQ p) 15 0)) / 2 ≤ s.now) →
      Completes i s fun t =>
        (∃ b r, t.outbox = s.outbox ++ .eth p b true :: r ∧ b.take 14 = [0x01, 0x80, 0xC2, 0x00, 0x00, 0x01]
          ++ beBytes 2 (s.rf (Reg.EMAC_SMAC_HI p) 15 0) ++ beBytes 4 (s.rd (Reg.EMAC_SMAC_LO p)).toNat ++ [0x88, 0x08])
        ∧ ((∀ k ∈ (s.emacOf p).told, k = 8 ↔ s.rf (Reg.EMAC_FC p) 1 0 = 1) → (t.emacOf p).told = (s.emacOf p).ask)
        ∧ ((∃ k ∈ (s.emacOf p).told, ¬(k = 8 ↔ s.rf (Reg.EMAC_FC p) 1 0 = 1)) → (t.emacOf p).told = [])
        ∧ (t.emacOf p).toldAt = s.now ∧ s.sameTables t ∧ s.sameBytes t)
    ∧ (s.ethLink p = true → (s.emacOf p).tx = none → s.standby = false → p.val ≤ 11 → (s.emacOf p).ask ≠ (s.emacOf p).told →
      Completes (.pauseRequestSend p) s fun t => (t.emacOf p).toldAt = s.now)
    ∧ (s.ethLink p = true → (s.emacOf p).tx = none → s.standby = false → p.val ≤ 11 → (s.emacOf p).ask ≠ [] →
      (s.emacOf p).ask = (s.emacOf p).told →
      (s.emacOf p).toldAt + s.quantaNs p (max 1 (s.rf (Reg.EMAC_PQ p) 15 0)) / 2 ≤ s.now →
      Completes (.pauseRepeat p) s fun t => (t.emacOf p).toldAt = s.now)
    ∧ (∀ e, amGet (s.emacOf p).wd c = some e → s.pausedNow p c = true → s.waiting p c = true →
      e + clampN 1 1000 (s.rf (Reg.EMAC_FC p) 25 16) * 1000000 ≤ s.now → Completes (.pauseWatchdogTrip p c) s fun t =>
        amGet (t.emacOf p).pause c = none
        ∧ amGet (t.emacOf p).ign c = some (s.now + clampN 1 1000 (s.rf (Reg.EMAC_FC p) 25 16) * 1000000)
        ∧ t.rd (Reg.EMAC_PWDTRIP p) = s.rd (Reg.EMAC_PWDTRIP p) + 1 ∧ t.rb (Reg.PG_IST (Reg.pgEMAC p)) 3 = true
        ∧ s.sameRegs t [Reg.EMAC_PWDTRIP p, Reg.PG_IST (Reg.pgEMAC p)] ∧ s.sameTables t ∧ s.sameBytes t)
    ∧ (∀ e, amGet (s.emacOf p).ign c = some e → e ≤ s.now → Completes (.pauseIgnoreEnd p c) s fun t =>
        amGet (t.emacOf p).ign c = none ∧ (t.emacOf p).pause = (s.emacOf p).pause
        ∧ s.sameRegs t [] ∧ s.sameTables t ∧ s.sameBytes t)

/-- Frames are checked and counted at their port; links come up, hold and go down; T1S ports back off and follow their beacon
(08_ethernet_ports.md R231; 08_ethernet_ports.md R232; 08_ethernet_ports.md R233; 08_ethernet_ports.md R234; 08_ethernet_ports.md
R235; 08_ethernet_ports.md R236; 08_ethernet_ports.md R248; 08_ethernet_ports.md R250; 08_ethernet_ports.md R251;
08_ethernet_ports.md R253; 09_switch_core.md R258). -/
def Obligations.EthernetPortsReceiveAndFollowTheirLinks : Prop :=
  ∀ (s : State) (p : Fin 14) (m : Fin 2) (init : Initiator) (v : Word),
    (∀ (q : Fin 18) b age cls, q.val = p → s.ethLink p = true → (p.val < 12 ∨ s.xpl.t1sErr[p.val - 12]?.getD false = false) → s.rf (Reg.EMAC_CFG p) 2 0 ≠ 0 → (s.pairOn = false ∨ p.val ≠ 3) →
      s.fifoHeld p (s.now - age) + s.rf (Reg.EMAC_MAXFRM p) 13 0 + 32 ≤ (if p.val < 4 then 32768 else if p.val < 12 then 16384 else 4096) →
      (60 ≤ b.length → b.length + 4 ≤ s.rf (Reg.EMAC_MAXFRM p) 13 0 → beAt b 12 2 ≠ 0x8808 → s.standby = false →
        Completes (.ethernetFrameReceive q b true false ⟨age, cls⟩) s fun t =>
          t.rd (Reg.EMAC_RXOK p) = s.rd (Reg.EMAC_RXOK p) + 1
          ∧ t.rd (Reg.EMAC_RXOCT p) = s.rd (Reg.EMAC_RXOCT p) + BitVec.ofNat 32 (b.length + 4))
      ∧ (b.length < 60 → Completes (.ethernetFrameReceive q b true false ⟨age, cls⟩) s fun t =>
          t.rd (Reg.EMAC_RXRUNT p) = s.rd (Reg.EMAC_RXRUNT p) + 1 ∧ t.rd (Reg.EMAC_RXOK p) = s.rd (Reg.EMAC_RXOK p)
          ∧ s.sameTables t ∧ s.sameBytes t))
    ∧ (∀ (q : Fin 18) e b age cls, 14 ≤ q.val → q.val ≠ 16 → s.swIn.find? (fun x => x.port == q.val) = some e →
      Completes (.ethernetFrameReceive q b true false ⟨age, cls⟩) s fun t => t.swIn = s.swIn.erase e)
    ∧ (∀ b age cls, Completes (.ethernetFrameReceive 16 b true false ⟨age, cls⟩) s fun t =>
        t = s.swEnter { port := 16, tc := cls, bytes := b, stamp := s.stamp32 })
    ∧ (s.ethLink p = true → Completes (.lossOfLink p) s fun t =>
        t.ethLink p = false ∧ t.rd (Reg.EMAC_LINKDN p) = s.rd (Reg.EMAC_LINKDN p) + 1
        ∧ t.rb (Reg.PG_IST (Reg.pgEMAC p)) 1 = true ∧ (t.emacOf p).tx = none
        ∧ (s.rf (Reg.EMAC_CFG p) 23 16 ≠ 0 → t.ethHold p = true ∧ (t.emacOf p).holdAt = s.now ∧ s.sameTables t)
        ∧ (s.rf (Reg.EMAC_CFG p) 23 16 = 0 → t.ethDown p = true ∧ ∀ c, c < 8 → t.queueOf (8 * p + c) = []))
    ∧ (∀ sp : Fin 7, s.ethLink p = false → s.rf (Reg.EMAC_CFG p) 2 0 ≠ 0 →
      (s.rf (Reg.EMAC_CFG p) 2 0 = 6 → s.t1Up (p - 12) = true) →
      (12 ≤ p.val ∨ s.inSave = false) → Completes (.linkUp p sp false) s fun t =>
        t.ethLink p = true ∧ t.rf (Reg.EMAC_STAT p) 7 4 = s.speedCode p sp ∧ t.rb (Reg.PG_IST (Reg.pgEMAC p)) 0 = true)
    ∧ (s.ethHold p = true → (s.emacOf p).holdAt + s.rf (Reg.EMAC_CFG p) 23 16 * 1000000 ≤ s.now →
      Completes (.linkHoldExpiry p) s fun t =>
        t.ethDown p = true ∧ t.rb (Reg.PG_IST (Reg.pgEMAC p)) 2 = true ∧ ∀ c, c < 8 → t.queueOf (8 * p + c) = [])
    ∧ (∀ lp : Fin 4, s.rb (Reg.EMAC_ANCTL p) 0 = true → (s.rf (Reg.EMAC_CFG p) 2 0 = 2 ∨ s.rf (Reg.EMAC_CFG p) 2 0 = 4
        ∨ s.rf (Reg.EMAC_CFG p) 2 0 = 5) → Completes (.autoNegotiationComplete p lp) s fun t =>
        t.rb (Reg.EMAC_STAT p) 28 = true ∧ t.rf (Reg.EMAC_STAT p) 27 26 = lp
        ∧ s.sameRegs t [Reg.EMAC_STAT p] ∧ s.sameTables t ∧ s.sameBytes t)
    ∧ (s.pwr.held = false → bitOf v 8 = true → Completes (.autoNegotiationRestart init p v) s fun t =>
        t.rb (Reg.EMAC_STAT p) 28 = false ∧ s.sameRegs t [Reg.EMAC_STAT p, Reg.EMAC_ANCTL p] ∧ s.sameTables t ∧ s.sameBytes t)
    ∧ (∀ x, (s.emacOf (12 + m)).tx = some x → (s.emacOf (12 + m)).backoff = false → Completes (.physicalCollision m) s fun t =>
        t.rd (Reg.T1SP_COLL m) = s.rd (Reg.T1SP_COLL m) + 1 ∧ t.rd (Reg.EMAC_TXCOLL (12 + m)) = s.rd (Reg.EMAC_TXCOLL (12 + m)) + 1
        ∧ ((s.emacOf (12 + m)).tries + 1 < 16 → (t.emacOf (12 + m)).tx = some x ∧ (t.emacOf (12 + m)).backoff = true
          ∧ (t.emacOf (12 + m)).tries = (s.emacOf (12 + m)).tries + 1)
        ∧ (16 ≤ (s.emacOf (12 + m)).tries + 1 → (t.emacOf (12 + m)).tx = none
          ∧ t.rd (Reg.EMAC_TXEXCOLL (12 + m)) = s.rd (Reg.EMAC_TXEXCOLL (12 + m)) + 1)
        ∧ s.sameTables t ∧ s.sameBytes t)
    ∧ (Completes (.backoffExpiry m) s fun t => (t.emacOf (12 + m)).backoff = false ∧ (t.emacOf (12 + m)).tx = (s.emacOf (12 + m)).tx
        ∧ s.sameRegs t [] ∧ s.sameTables t ∧ s.sameBytes t)
    ∧ (s.rb (Reg.T1SP_CTL m) 0 = true → s.rb (Reg.T1SP_CTL m) 1 = true →
      (s.beaconDue m = true → Completes (.beacon m) s fun t => (t.emacOf (12 + m)).plca = s.rd (Reg.T1SP_PLCA m)
        ∧ (t.emacOf (12 + m)).ptime = s.rd (Reg.T1SP_PTIME m) ∧ t.rf (Reg.T1SP_STAT m) 7 0 = 0
        ∧ s.sameRegs t [Reg.T1SP_STAT m] ∧ s.sameTables t ∧ s.sameBytes t)
      ∧ ∀ ok, s.rb (Reg.T1SP_STAT m) 31 ≠ ok → Completes (.plcaStatusChange m ok) s fun t =>
        t.rb (Reg.T1SP_STAT m) 31 = ok ∧ t.rb (Reg.PG_IST (Reg.pgT1SP m)) (if ok then 0 else 1) = true
        ∧ (ok = false → t.rd (Reg.T1SP_BCNLOSS m) = s.rd (Reg.T1SP_BCNLOSS m) + 1))

/-- A port sends the head of its highest ready class; sent frames count; stalled and flushed frames go; counters are latched
(09_switch_core.md R256; 09_switch_core.md R274; 09_switch_core.md R281; 09_switch_core.md R282; 09_switch_core.md R285;
09_switch_core.md R286; 08_ethernet_ports.md R251). -/
def Obligations.FramesLeaveTheirQueues : Prop :=
  ∀ (s : State) (init : Initiator) (v : Word),
    (∀ (q : Fin 18) (p : Nat) agree cl c rest f, q.val = p → p < 14 → s.portMay p = true →
      (∀ k, k < 8 → s.cbsOn p k = false) → s.pickClass p = some cl → s.queueOf (8 * p + cl) = c :: rest →
      s.frameOf c.fid = some f → s.ethLate (8 * p + cl) c f = false → f.lso = none → f.csum = false →
      s.rb Reg.TSY_CTL 0 = false → s.msecOn p = false → Completes (.egressSelection q agree) s fun t =>
        t.queueOf (8 * p + cl) = rest ∧ (t.emacOf p).tx = some (⟨c.fid, 8 * p + cl, padFrame (egressBytes f p), true,
          false, none, false, if c.th = .back then f.bytes.length + 4 else 0⟩ : TxNow)
        ∧ t.frameOf c.fid = some f ∧ s.sameTables t ∧ s.sameBytes t)
    ∧ (∀ (q : Fin 14) x, (s.emacOf q).tx = some x → (s.emacOf q).backoff = false → x.job = none → x.bad = false →
      Completes (.frameTransmitted q) s fun t =>
        (∃ r, t.outbox = s.outbox ++ .eth q x.bytes true :: r) ∧ (t.emacOf q).tx = none
        ∧ t.rd (Reg.EMAC_TXOK q) = s.rd (Reg.EMAC_TXOK q) + 1
        ∧ t.rd (Reg.EMAC_TXOCT q) = s.rd (Reg.EMAC_TXOCT q) + BitVec.ofNat 32 (x.bytes.length + 4)
        ∧ s.sameTables t ∧ s.sameBytes t)
    ∧ (∀ (q : Fin 18) (c : Fin 8) d rest e, 14 ≤ q.val → q.val ≠ 17 → s.queueOf (8 * q + c) = d :: rest →
      amGet s.sw.headAt (8 * q + c) = some e → e + clampN 1 1000 (s.rf Reg.QMG_ISTALL 9 0) * 1000000 ≤ s.now →
      Completes (.internalStallDrop q c) s fun t => (∀ x ∈ t.queueOf (8 * q + c), x.fid ≠ d.fid)
        ∧ t.rb (Reg.PG_IST Reg.pgQMG) 3 = true ∧ s.sameTables t ∧ s.sameBytes t)
    ∧ (s.pwr.held = false → bitOf v 31 = true → s.rb Reg.QMG_FLSTAT 31 = false → fld v 20 16 < 17 →
      Completes (.queueFlush init v) s fun t => t.rb Reg.QMG_FLSTAT 31 = true
        ∧ (∀ c, c < 8 → nbit (fld v 7 0) c = true → t.queueOf (8 * fld v 20 16 + c) = [])
        ∧ (∀ k, (∀ c, c < 8 → nbit (fld v 7 0) c = true → k ≠ 8 * fld v 20 16 + c) → t.queueOf k = s.queueOf k)
        ∧ s.sameTables t ∧ s.sameBytes t)
    ∧ (s.rb Reg.QMG_FLSTAT 31 = true → Completes .queueFlushDone s fun t =>
        t.rb Reg.QMG_FLSTAT 31 = false ∧ t.rb (Reg.PG_IST Reg.pgQMG) 4 = true
        ∧ s.sameRegs t [Reg.QMG_FLSTAT, Reg.PG_IST Reg.pgQMG] ∧ s.sameTables t ∧ s.sameBytes t)
    ∧ (s.pwr.held = false → Completes (.ingressCounterLatch init v) s fun t =>
        (∀ k, k < 4 → t.rd (Reg.SWC_ISDU + 4 * k)
          = BitVec.ofNat 32 (if fld v 4 0 ≤ 17 then amGetD 0 s.sw.icnt (4 * fld v 4 0 + k) else 0))
        ∧ t.sw = s.sw ∧ s.sameTables t ∧ s.sameBytes t)
    ∧ (s.pwr.held = false → Completes (.dropCounterLatch init v) s fun t =>
        (∀ k, k < 5 → t.rd (Reg.QMG_DADMIT + 4 * k)
          = BitVec.ofNat 32 (if fld v 4 0 ≤ 17 then amGetD 0 s.sw.dcnt (16 * fld v 4 0 + k) else 0))
        ∧ (∀ c, c < 8 → t.rd (Reg.QMG_DDL c)
          = BitVec.ofNat 32 (if fld v 4 0 ≤ 17 then amGetD 0 s.sw.dcnt (16 * fld v 4 0 + 8 + c) else 0))
        ∧ t.sw = s.sw ∧ s.sameTables t ∧ s.sameBytes t)

/-- Frames are spilled to Thicket and read back; policers and filters are written and read through their staging registers
(09_switch_core.md R262; 09_switch_core.md R269; 09_switch_core.md R271; 09_switch_core.md R273; 09_switch_core.md R288). -/
def Obligations.ThicketPolicersAndFilters : Prop :=
  ∀ (s : State) (init : Initiator) (v : Word) (q : Fin 18) (c : Fin 8) (i : Nat),
    (∀ d f, s.inSave = false → s.spillPick (8 * q + c) = some d → s.frameOf d.fid = some f → s.tktFits (8 * q + c) f = true →
      Completes (.thicketSpill q c) s fun t => (∃ us, t.frameOf d.fid = some { f with spilled := true, units := us }
          ∧ ∀ a, (∀ u ∈ us, a < s.unitAt u.1 ∨ s.unitAt u.1 + 128 ≤ a) → memRd t.dram a = memRd s.dram a)
        ∧ t.queueOf (8 * q + c) = (s.queueOf (8 * q + c)).map (fun x => if x.fid = d.fid then { d with th := .dram } else x)
        ∧ t.rd Reg.TKT_SPILLED = s.rd Reg.TKT_SPILLED + 1 ∧ s.sameTables t
        ∧ ∀ a, memRd t.mram a = memRd s.mram a ∧ memRd t.lsram a = memRd s.lsram a ∧ memRd t.hmem a = memRd s.hmem a)
    ∧ (∀ d f, s.inSave = false → ((s.queueOf (8 * q + c)).take 2).find? (fun x => x.th == .dram) = some d →
      s.frameOf d.fid = some f → s.bufUsed q + (f.bytes.length + 4) ≤ s.bufSize q →
      Completes (.thicketReadBack q c) s fun t =>
        t.queueOf (8 * q + c) = (s.queueOf (8 * q + c)).map (fun x => if x.fid = d.fid then { d with th := .reading } else x)
        ∧ s.sameRegs t [] ∧ s.sameTables t ∧ s.sameBytes t)
    ∧ (∀ d f, s.inSave = false → (s.queueOf (8 * q + c)).find? (fun x => x.th == .reading) = some d → s.frameOf d.fid = some f →
      (∀ b, s.unitsRead f = some b → Completes (.readBackComplete q c true) s fun t =>
        t.queueOf (8 * q + c) = (s.queueOf (8 * q + c)).map (fun x => if x.fid = d.fid then { d with th := .back } else x)
        ∧ t.frameOf d.fid = some { f with bytes := b.take f.bytes.length, spilled := false, cells := 0, units := [] }
        ∧ s.sameRegs t [] ∧ s.sameTables t ∧ s.sameBytes t)
      ∧ ∀ ok, (ok = false ∨ s.unitsRead f = none) → Completes (.readBackComplete q c ok) s fun t =>
        (∀ x ∈ t.queueOf (8 * q + c), x.fid ≠ d.fid)
        ∧ t.rd Reg.TKT_CRCERR = s.rd Reg.TKT_CRCERR + 1 ∧ t.rb (Reg.PG_IST Reg.pgTKT) 0 = true ∧ s.sameTables t ∧ s.sameBytes t)
    ∧ (∀ w, s.sw.nextRegion = some w → s.tktUsed = 0 → Completes .thicketRegionEffect s fun t =>
        t.sw.region = w ∧ t.sw.nextRegion = none ∧ t.sw.frames = s.sw.frames ∧ t.sw.queues = s.sw.queues
        ∧ s.sameRegs t [] ∧ s.sameTables t ∧ s.sameBytes t)
    ∧ (s.pwr.held = false → bitOf v 0 = true → bitOf v 1 = false → i = s.rf Reg.POL_PIDX 9 0 →
      Completes (.policerWrite init v) s fun t => (t.polOf i).cir = s.rf Reg.POL_PCIR 23 0 ∧ (t.polOf i).pir = s.rf Reg.POL_PPIR 23 0
        ∧ (t.polOf i).cbs = s.rf Reg.POL_PCBS 23 0 ∧ (t.polOf i).pbs = s.rf Reg.POL_PPBS 23 0
        ∧ (t.polOf i).tc = s.rf Reg.POL_PCBS 23 0 * 8000000 ∧ (t.polOf i).tp = s.rf Reg.POL_PPBS 23 0 * 8000000
        ∧ (t.polOf i).cnt = (s.polOf i).cnt ∧ (∀ j, j ≠ i → t.polOf j = s.polOf j)
        ∧ s.sameRegs t [] ∧ s.sameTables t ∧ s.sameBytes t)
    ∧ (∀ g y r, s.pwr.held = false → bitOf v 0 = false → bitOf v 1 = true → i = s.rf Reg.POL_PIDX 9 0 → (s.polOf i).cnt = [g, y, r] →
      Completes (.policerRead init v) s fun t => t.rd Reg.POL_PCIR = BitVec.ofNat 32 (s.polOf i).cir
        ∧ t.rd Reg.POL_PPIR = BitVec.ofNat 32 (s.polOf i).pir ∧ t.rd Reg.POL_PCBS = BitVec.ofNat 32 (s.polOf i).cbs
        ∧ t.rd Reg.POL_PPBS = BitVec.ofNat 32 (s.polOf i).pbs ∧ t.rd Reg.POL_CGREEN = BitVec.ofNat 32 g
        ∧ t.rd Reg.POL_CYELLOW = BitVec.ofNat 32 y ∧ t.rd Reg.POL_CRED = BitVec.ofNat 32 r ∧ t.sw = s.sw
        ∧ s.sameTables t ∧ s.sameBytes t)
    ∧ (s.pwr.held = false → bitOf v 0 = true → bitOf v 1 = false → i = s.rf Reg.POL_FIDX 9 0 →
      Completes (.filterWrite init v) s fun t =>
        t.filtOf i = [s.rd (Reg.POL_FW 0), s.rd (Reg.POL_FW 1) &&& 0x0FFFFFFF, s.rd (Reg.POL_FW 2) &&& 0xEFF3FFFF,
          s.rd (Reg.POL_FW 3) &&& 0xFFFFE3FF] ∧ (∀ j, j ≠ i → t.filtOf j = s.filtOf j)
        ∧ s.sameRegs t [] ∧ s.sameTables t ∧ s.sameBytes t)
    ∧ (∀ a b c d, s.pwr.held = false → bitOf v 0 = false → bitOf v 1 = true → i = s.rf Reg.POL_FIDX 9 0 → s.filtOf i = [a, b, c, d] →
      Completes (.filterRead init v) s fun t => t.rd (Reg.POL_FW 0) = a ∧ t.rd (Reg.POL_FW 1) = b ∧ t.rd (Reg.POL_FW 2) = c
        ∧ t.rd (Reg.POL_FW 3) = d ∧ t.rd Reg.POL_FMATCH = BitVec.ofNat 32 (amGetD 0 s.sw.fmatch i) ∧ t.sw = s.sw
        ∧ s.sameTables t ∧ s.sameBytes t)

/-- Addresses are learned in their first free way, age, and are flushed; VLAN and overflow entries go through staging
(10_forwarding_tables.md R290; 10_forwarding_tables.md R297; 10_forwarding_tables.md R298; 10_forwarding_tables.md R301;
10_forwarding_tables.md R302; 10_forwarding_tables.md R303). -/
def Obligations.MacTableLearnsAgesAndFlushes : Prop :=
  ∀ (s : State) (init : Initiator) (v : Word) (i : Nat),
    (∀ p fid mac rest key w, s.sw.lrn = (p, fid, mac) :: rest → p < 18 → fid < 4096 → mac < 2 ^ 48 → key = fid * 2 ^ 48 + mac →
      s.mtFind key = none → s.lrnLimit p = false → (List.range 4).find? (fun x => !s.mtValid (mtCand key x)) = some w →
      Completes .learningRequest s fun t => t.sw.lrn = rest ∧ t.mtFind key = some (mtCand key w) ∧ t.mtDest (mtCand key w) = p
        ∧ t.rd Reg.MACT_LEARNED = s.rd Reg.MACT_LEARNED + 1
        ∧ (∀ a, (a < 0x300000 + 16 * mtCand key w ∨ 0x300000 + 16 * mtCand key w + 16 ≤ a) → t.tw a = s.tw a)
        ∧ s.sameRegs t [Reg.MACT_LEARNED, Reg.PG_IST Reg.pgMACT] ∧ s.sameBytes t)
    ∧ (s.rf Reg.MACT_AGE 7 0 ≠ 0 → s.sw.ageAt + s.rf Reg.MACT_AGE 7 0 * 1000000000 ≤ s.now → Completes .ageingSweep s fun t =>
        t.sw.ageAt = s.now
        ∧ (∀ k, s.mtListed.count k = 1 → s.mtStatic k = false → fld (s.mtw k 2) 27 25 < 7 →
          fld (t.mtw k 2) 27 25 = fld (s.mtw k 2) 27 25 + 1 ∧ t.mtw k 3 = s.mtw k 3)
        ∧ (∀ k, k ∈ s.mtListed → s.mtStatic k = false → fld (s.mtw k 2) 27 25 = 7 → t.mtValid k = false)
        ∧ (∀ k, (s.mtStatic k = true ∨ k ∉ s.mtListed) → ∀ w, w < 4 → t.mtw k w = s.mtw k w) ∧ s.sameBytes t)
    ∧ (s.pwr.held = false → bitOf v 31 = true → s.rb Reg.MACT_FLSTAT 31 = false → Completes (.macFlush init v) s fun t =>
        t.rb Reg.MACT_FLSTAT 31 = true
        ∧ (∀ k, k ∈ s.mtListed → (s.mtStatic k = false ∨ bitOf v 30 = true) →
          (bitOf v 29 = false ∨ (s.mtMc k = false ∧ s.mtDest k % 32 = fld v 20 16)) →
          (bitOf v 28 = false ∨ fld (s.mtw k 1) 27 16 = fld v 11 0) → t.mtValid k = false)
        ∧ (∀ k w, w < 3 → t.mtw k w = s.mtw k w)
        ∧ (∀ k, (s.mtStatic k = true ∧ bitOf v 30 = false) ∨ (bitOf v 29 = true ∧ (s.mtMc k = true ∨ s.mtDest k % 32 ≠ fld v 20 16))
          ∨ (bitOf v 28 = true ∧ fld (s.mtw k 1) 27 16 ≠ fld v 11 0) → t.mtw k 3 = s.mtw k 3) ∧ s.sameBytes t)
    ∧ (s.rb Reg.MACT_FLSTAT 31 = true → s.sw.mfl = [] → Completes .macFlushDone s fun t =>
        t.rb Reg.MACT_FLSTAT 31 = false ∧ t.rb (Reg.PG_IST Reg.pgMACT) 4 = true
        ∧ s.sameRegs t [Reg.MACT_FLSTAT, Reg.PG_IST Reg.pgMACT] ∧ s.sameTables t ∧ s.sameBytes t)
    ∧ (s.pwr.held = false → bitOf v 0 = true → bitOf v 1 = false → i = s.rf Reg.MACT_VIDX 11 0 →
      Completes (.vlanWrite init v) s fun t =>
        t.vlanOf i = ⟨s.rf Reg.MACT_VMEM 17 0, s.rf Reg.MACT_VUNTAG 17 0, s.rd Reg.MACT_VCFG &&& 0x80003FFF⟩
        ∧ (∀ j, j ≠ i → t.vlanOf j = s.vlanOf j) ∧ s.sameRegs t [] ∧ s.sameTables t ∧ s.sameBytes t)
    ∧ (s.pwr.held = false → bitOf v 0 = false → bitOf v 1 = true → i = s.rf Reg.MACT_VIDX 11 0 →
      Completes (.vlanRead init v) s fun t => t.rd Reg.MACT_VMEM = BitVec.ofNat 32 (s.vlanOf i).member
        ∧ t.rd Reg.MACT_VUNTAG = BitVec.ofNat 32 (s.vlanOf i).untag ∧ t.rd Reg.MACT_VCFG = (s.vlanOf i).cfg ∧ t.sw = s.sw
        ∧ s.sameRegs t [Reg.MACT_VMEM, Reg.MACT_VUNTAG, Reg.MACT_VCFG] ∧ s.sameTables t ∧ s.sameBytes t)
    ∧ (s.pwr.held = false → bitOf v 0 = true → bitOf v 1 = false → i = 65536 + s.rf Reg.MACT_OIDX 7 0 →
      Completes (.overflowWrite init v) s fun t => t.mtw i 0 = s.rd (Reg.MACT_OW 0) ∧ t.mtw i 1 = s.rd (Reg.MACT_OW 1) &&& 0x0FFFFFFF
        ∧ t.mtw i 2 = s.rd (Reg.MACT_OW 2) &&& 0xEE03FFFF ∧ t.mtw i 3 = s.rd (Reg.MACT_OW 3) &&& 0x80000000
        ∧ s.sameRegs t [] ∧ s.sameTables t ∧ s.sameBytes t)
    ∧ (s.pwr.held = false → bitOf v 0 = false → bitOf v 1 = true → i = 65536 + s.rf Reg.MACT_OIDX 7 0 →
      Completes (.overflowRead init v) s fun t => (∀ k, k < 4 → t.rd (Reg.MACT_OW k) = s.mtw i k) ∧ t.sw = s.sw
        ∧ s.sameTables t ∧ s.sameBytes t)

/-- An accepted LPM move copies the row or the group and clears its source; a check reports the first break of the order
(10_forwarding_tables.md R307; 10_forwarding_tables.md R309; 10_forwarding_tables.md R310). -/
def Obligations.LpmRowsAreMovedAndChecked : Prop :=
  ∀ (s : State) (init : Initiator) (v : Word) (k : Nat), k = (if s.rf Reg.LPM_CTL 27 16 ≤ fld v 11 0 then 4 else 1) →
    (s.pwr.held = false → bitOf v 31 = true →
      (s.lpRefused (fld v 11 0) (fld v 27 16) = false → Completes (.lpmMove init v) s fun t =>
        t.rb Reg.LPM_MVSTAT 31 = true
        ∧ (∀ i w, i < k → w < 8 → t.lpw (fld v 27 16 + i) w = s.lpw (fld v 11 0 + i) w)
        ∧ (∀ i, i < k → t.lpValid (fld v 11 0 + i) = false)
        ∧ (∀ a, (∀ i, i < k → (a < 0x400000 + 32 * (fld v 27 16 + i) ∨ 0x400000 + 32 * (fld v 27 16 + i) + 32 ≤ a)
            ∧ a ≠ 0x400000 + 32 * (fld v 11 0 + i) + 28) → t.tw a = s.tw a)
        ∧ s.sameRegs t [Reg.LPM_MVSTAT] ∧ s.sameBytes t)
      ∧ (s.lpRefused (fld v 11 0) (fld v 27 16) = true → Completes (.lpmMove init v) s fun t =>
        t.rb (Reg.PG_IST Reg.pgLPM) 1 = true ∧ s.sameRegs t [Reg.PG_IST Reg.pgLPM] ∧ s.sameTables t ∧ s.sameBytes t))
    ∧ (s.rb Reg.LPM_MVSTAT 31 = true → Completes .lpmMoveDone s fun t =>
        t.rb Reg.LPM_MVSTAT 31 = false ∧ t.rb (Reg.PG_IST Reg.pgLPM) 0 = true
        ∧ s.sameRegs t [Reg.LPM_MVSTAT, Reg.PG_IST Reg.pgLPM] ∧ s.sameTables t ∧ s.sameBytes t)
    ∧ (s.pwr.held = false → bitOf v 0 = true → Completes (.lpmCheck init v) s fun t =>
        t.rb Reg.LPM_CHKSTAT 31 = true ∧ t.sw.lpmChk = some s.lpCheck ∧ (s.lpListed = [] → t.sw.lpmChk = some 0)
        ∧ (∀ a b, s.lpListed = [a, b] → a < s.rf Reg.LPM_CTL 27 16 → b < s.rf Reg.LPM_CTL 27 16 → s.lpValid a = true →
          s.lpValid b = true → s.lpKind a = 0 → s.lpKind b = 0 → s.lpLen a < s.lpLen b → s.lpLen b ≤ 32 →
          t.sw.lpmChk = some (BitVec.ofNat 32 (2 ^ 30 + b)))
        ∧ s.sameRegs t [Reg.LPM_CHKSTAT] ∧ s.sameTables t ∧ s.sameBytes t)
    ∧ (∀ w, s.sw.lpmChk = some w → Completes .lpmCheckDone s fun t =>
        t.rd Reg.LPM_CHKSTAT = w ∧ t.rb (Reg.PG_IST Reg.pgLPM) 2 = true ∧ t.sw.lpmChk = none
        ∧ s.sameRegs t [Reg.LPM_CHKSTAT, Reg.PG_IST Reg.pgLPM] ∧ s.sameTables t ∧ s.sameBytes t)

/-- The owner's rate writes and steps take effect; a step moves full time and never the local count (11_time_sync.md R314;
11_time_sync.md R315; 11_time_sync.md R318; 11_time_sync.md R320). -/
def Obligations.OwnerSetsRateAndStepsFullTime : Prop :=
  ∀ (s : State) (init : Initiator) (v : Word) (x : Nat), s.pwr.held = false → s.tsyOwner init = true →
    x = ((s.rd Reg.TSY_ADJ_SL).toNat + (s.rd Reg.TSY_ADJ_SH).toNat % 0x10000 * 2 ^ 32) * 1000000000 + (s.rd Reg.TSY_ADJ_NS).toNat →
    (Completes (.rateWrite init v) s fun t =>
        t.rd Reg.TSY_RATE = v
        ∧ (signed 32 v.toNat < -4294967 ∨ 4294967 < signed 32 v.toNat → t.rb (Reg.PG_IST Reg.pgTSY) 3 = true)
        ∧ s.sameRegs t [Reg.TSY_RATE, Reg.PG_IST Reg.pgTSY] ∧ t.tsy.full = s.tsy.full ∧ t.tsy.loc = s.tsy.loc)
    ∧ ((s.rd Reg.TSY_ADJ_NS).toNat ≤ 999999999 →
      (s.tsy.full + x < 2 ^ 48 * 1000000000 → Completes (.timeAdd init) s fun t =>
          t.tsy.full = s.tsy.full + x ∧ t.tsy.loc = s.tsy.loc ∧ t.tsy.frac = s.tsy.frac
          ∧ t.rf Reg.TSY_STAT 15 8 = (s.rf Reg.TSY_STAT 15 8 + 1) % 256 ∧ s.sameTables t ∧ s.sameBytes t)
      ∧ (x ≤ s.tsy.full → Completes (.timeSubtract init) s fun t =>
          t.tsy.full = s.tsy.full - x ∧ t.tsy.loc = s.tsy.loc ∧ t.tsy.frac = s.tsy.frac
          ∧ t.rf Reg.TSY_STAT 15 8 = (s.rf Reg.TSY_STAT 15 8 + 1) % 256 ∧ s.sameTables t ∧ s.sameBytes t)
      ∧ Completes (.timeSet init) s fun t =>
          t.tsy.full = x ∧ t.tsy.loc = s.tsy.loc ∧ t.tsy.frac = s.tsy.frac
          ∧ t.rf Reg.TSY_STAT 15 8 = (s.rf Reg.TSY_STAT 15 8 + 1) % 256 ∧ s.sameTables t ∧ s.sameBytes t)

/-- TSY_OWN.OWNER names the only initiator whose rate, step and sync writes take effect; others set ADJREF (R320). -/
def Obligations.NonOwnersAreRefused : Prop :=
  (∀ s : State, (s.rf Reg.TSY_OWN 0 0 = 0 → s.tsyOwner .host = true ∧ s.tsyOwner .dma = true ∧ s.tsyOwner .laurel = false)
    ∧ (s.rf Reg.TSY_OWN 0 0 = 1 → s.tsyOwner .host = false ∧ s.tsyOwner .dma = false ∧ s.tsyOwner .laurel = true))
  ∧ ∀ (s : State) (init : Initiator) (v : Word) (lock : Bool), s.pwr.held = false →
    (s.tsyOwner init = false → ∀ c, c = .rateWrite init v ∨ c = .timeAdd init ∨ c = .timeSubtract init ∨ c = .timeSet init
      ∨ c = .syncLock init ∨ c = .syncHold init lock →
      Completes c s fun t => t.tsy = s.tsy ∧ t.rb (Reg.PG_IST Reg.pgTSY) 2 = true ∧ s.sameRegs t [Reg.PG_IST Reg.pgTSY]
        ∧ s.sameTables t ∧ s.sameBytes t)
    ∧ (s.tsyOwner init = true → Completes (.rateWrite init v) s fun t => t.rd Reg.TSY_RATE = v)
    ∧ (s.tsyOwner init = true → s.stepTarget 3 ≠ none → Completes (.timeSet init) s fun t => some t.tsy.full = s.stepTarget 3)
    ∧ (s.tsyOwner init = true → Completes (.syncLock init) s fun t => t.rb Reg.TSY_STAT 31 = true)

/-- LOCK, HOLD and the watchdog move TSY_STAT between LOCKED and HOLDOVER; a read of TSY_NOW_NS latches one instant
(11_time_sync.md R321; 11_time_sync.md R325). -/
def Obligations.LockHoldAndWatchdogMoveTheSyncState : Prop :=
  ∀ (s : State) (init : Initiator) (lock : Bool),
    (s.pwr.held = false → s.tsyOwner init = true → s.rb Reg.TSY_STAT 31 = false → Completes (.syncLock init) s fun t =>
        t.rb Reg.TSY_STAT 31 = true ∧ t.rb (Reg.PG_IST Reg.pgTSY) 0 = true ∧ t.tsy.wdStart = s.now
        ∧ s.sameRegs t [Reg.TSY_STAT, Reg.PG_IST Reg.pgTSY] ∧ s.sameTables t ∧ s.sameBytes t)
    ∧ (s.pwr.held = false → s.tsyOwner init = true → s.rb Reg.TSY_STAT 31 = true → Completes (.syncHold init lock) s fun t =>
        t.rb Reg.TSY_STAT 31 = false ∧ t.rf Reg.TSY_STAT 27 26 = 2 ∧ t.rb (Reg.PG_IST Reg.pgTSY) 1 = true ∧ t.tsy = s.tsy
        ∧ s.sameRegs t [Reg.TSY_STAT, Reg.PG_IST Reg.pgTSY] ∧ s.sameTables t ∧ s.sameBytes t)
    ∧ (s.rb Reg.TSY_STAT 31 = true → s.rf Reg.TSY_SYNCWD 15 0 ≠ 0 →
      s.tsy.wdStart + s.rf Reg.TSY_SYNCWD 15 0 * 1000000 ≤ s.tsy.loc → Completes .syncWatchdogExpiry s fun t =>
        t.rb Reg.TSY_STAT 31 = false ∧ t.rf Reg.TSY_STAT 27 26 = 1 ∧ t.rb (Reg.PG_IST Reg.pgTSY) 1 = true
        ∧ t.tsy = s.tsy ∧ s.sameRegs t [Reg.TSY_STAT, Reg.PG_IST Reg.pgTSY] ∧ s.sameTables t ∧ s.sameBytes t)
    ∧ (s.pwr.held = false → amGet s.bus.latch (ikey init Reg.TSY_NOW_NS) = none → Completes (.nowRead init) s fun t =>
        t.outbox = s.outbox ++ [.readData init 0 Reg.TSY_NOW_NS [BitVec.ofNat 32 (s.tsy.full % 1000000000)]]
        ∧ amGet t.bus.latch (ikey init Reg.TSY_NOW_SL) = some (BitVec.ofNat 32 (s.tsy.full / 1000000000))
        ∧ amGet t.bus.latch (ikey init Reg.TSY_NOW_SH) = some (BitVec.ofNat 32 (s.tsy.full / 1000000000 / 2 ^ 32 % 0x10000))
        ∧ amGet t.bus.latch (ikey init Reg.TSY_NOW32) = some (BitVec.ofNat 32 (s.tsy.full % 2 ^ 32))
        ∧ s.sameRegs t [] ∧ s.sameTables t ∧ s.sameBytes t)

/-- An accepted arm samples start, period and width; pulses start at their instants and end after the width (11_time_sync.md R328;
11_time_sync.md R329; 11_time_sync.md R330). -/
def Obligations.PulseOutputsFollowTheirArmedTimes : Prop :=
  ∀ (s : State) (init : Initiator) (n : Fin 4) (periodic pol : Bool) (start : Nat), s.tsy.touts.length = 4 →
    start = ((s.rd (Reg.TOUT_SL n)).toNat + (s.rd (Reg.TOUT_SH n)).toNat % 0x10000 * 2 ^ 32) * 1000000000
      + (s.rd (Reg.TOUT_NS n)).toNat →
    (s.pwr.held = false → s.tsy.full ≤ start → (s.rd (Reg.TOUT_NS n)).toNat ≤ 999999999 → 4 ≤ (s.rd (Reg.TOUT_WID n)).toNat →
      (periodic = true → 16 ≤ (s.rd (Reg.TOUT_PER n)).toNat
        ∧ (s.rd (Reg.TOUT_WID n)).toNat ≤ (s.rd (Reg.TOUT_PER n)).toNat - 4) →
      Completes (.toutArm init n periodic pol) s fun t =>
        t.rb (Reg.TOUT_CTL n) 0 = true ∧ t.rb (Reg.TOUT_CTL n) 1 = periodic ∧ t.rb (Reg.TOUT_CTL n) 2 = pol
        ∧ t.toutOf n = ⟨start, (s.rd (Reg.TOUT_PER n)).toNat, (s.rd (Reg.TOUT_WID n)).toNat, periodic, 0, none⟩
        ∧ t.outbox = s.outbox ++ [.tout n pol] ∧ s.sameTables t ∧ s.sameBytes t)
    ∧ (s.pwr.held = false → Completes (.toutDisarm init n periodic pol) s fun t =>
        t.rb (Reg.TOUT_CTL n) 0 = false ∧ (t.toutOf n).pulse = none ∧ t.outbox = s.outbox ++ [.tout n pol]
        ∧ s.sameTables t ∧ s.sameBytes t)
    ∧ (s.rb (Reg.TOUT_CTL n) 0 = true → (s.toutOf n).pulse = none →
      (if (s.toutOf n).periodic then (s.toutOf n).start + (s.toutOf n).next * (s.toutOf n).per else (s.toutOf n).start) ≤ s.tsy.full →
      Completes (.toutPulseStart n) s fun t =>
        t.outbox = s.outbox ++ [.tout n (!s.rb (Reg.TOUT_CTL n) 2)] ∧ (t.toutOf n).pulse = some (s.tsy.loc + (s.toutOf n).wid)
        ∧ s.sameRegs t [] ∧ s.sameTables t ∧ s.sameBytes t)
    ∧ ∀ e, (s.toutOf n).pulse = some e → e ≤ s.tsy.loc → Completes (.toutPulseEnd n) s fun t =>
        (t.toutOf n).pulse = none
        ∧ ((s.toutOf n).periodic = true → s.sameRegs t [] ∧ t.outbox = s.outbox ++ [.tout n (s.rb (Reg.TOUT_CTL n) 2)])
        ∧ ((s.toutOf n).periodic = false → t.rb (Reg.TOUT_CTL n) 0 = false ∧ t.rb (Reg.PG_IST Reg.pgTSY) 5 = true
          ∧ s.sameRegs t [Reg.TOUT_CTL n, Reg.PG_IST Reg.pgTSY])
        ∧ s.sameTables t ∧ s.sameBytes t

/-- A selected edge is captured once until VALID is cleared; a correlation request latches the real-time tick and its time
(11_time_sync.md R331; 11_time_sync.md R332; 11_time_sync.md R334). -/
def Obligations.CapturesAndTheCorrelationPair : Prop :=
  ∀ (s : State) (init : Initiator) (n : Fin 4) (rising : Bool) (v : Word),
    (nbit (s.rf (Reg.TCAP_CTL n) 1 0) (if rising then 0 else 1) = true → Completes (.captureEdge n rising) s fun t =>
        (s.rb (Reg.TCAP_CTL n) 31 = false →
          t.rd (Reg.TCAP_NS n) = BitVec.ofNat 32 (s.tsy.full % 1000000000)
          ∧ t.rd (Reg.TCAP_NS n + 4) = BitVec.ofNat 32 (s.tsy.full / 1000000000)
          ∧ t.rd (Reg.TCAP_NS n + 8) = BitVec.ofNat 32 (s.tsy.full / 1000000000 / 2 ^ 32 % 0x10000)
          ∧ t.rb (Reg.TCAP_CTL n) 31 = true ∧ t.rb (Reg.TCAP_CTL n) 30 = rising ∧ t.rb (Reg.PG_IST Reg.pgTSY) 6 = true)
        ∧ (s.rb (Reg.TCAP_CTL n) 31 = true →
          t.rf (Reg.TCAP_CTL n) 15 8 = capAt 255 (s.rf (Reg.TCAP_CTL n) 15 8 + 1) ∧ t.rb (Reg.PG_IST Reg.pgTSY) 7 = true
          ∧ s.sameRegs t [Reg.TCAP_CTL n, Reg.PG_IST Reg.pgTSY])
        ∧ t.tsy = s.tsy ∧ s.sameTables t ∧ s.sameBytes t)
    ∧ (s.pwr.held = false → amGet s.bus.latch (ikey init (Reg.TCAP_NS n)) = none → Completes (.captureRead init n) s fun t =>
        t.outbox = s.outbox ++ [.readData init 0 (Reg.TCAP_NS n) [s.rd (Reg.TCAP_NS n)]]
        ∧ amGet t.bus.latch (ikey init (Reg.TCAP_NS n + 4)) = some (s.rd (Reg.TCAP_NS n + 4))
        ∧ amGet t.bus.latch (ikey init (Reg.TCAP_NS n + 8)) = some (s.rd (Reg.TCAP_NS n + 8))
        ∧ s.sameRegs t [] ∧ s.sameTables t ∧ s.sameBytes t)
    ∧ (s.pwr.held = false → bitOf v 31 = true → Completes (.captureClear init n v) s fun t =>
        t.rb (Reg.TCAP_CTL n) 31 = false ∧ t.rf (Reg.TCAP_CTL n) 15 8 = 0 ∧ t.rf (Reg.TCAP_CTL n) 1 0 = fld v 1 0
        ∧ s.sameRegs t [Reg.TCAP_CTL n] ∧ s.sameTables t ∧ s.sameBytes t)
    ∧ (s.pwr.held = false → bitOf v 0 = true → Completes (.correlationRequest init v) s fun t =>
        (s.rf Reg.XPL_STAT 2 0 = 2 → t.tsy.corr = some ((s.rtc + 1) % 2 ^ 48) ∧ s.sameRegs t [])
        ∧ (s.rf Reg.XPL_STAT 2 0 ≠ 2 → t.tsy = s.tsy ∧ t.rb Reg.TSY_KCSTAT 30 = true ∧ s.sameRegs t [Reg.TSY_KCSTAT])
        ∧ s.sameTables t ∧ s.sameBytes t)
    ∧ (∀ c d, s.tsy.corr = some c → s.sinceTick c = some d → Completes .correlationLatch s fun t =>
        t.rd Reg.TSY_KRTC_LO = BitVec.ofNat 32 c ∧ t.rd Reg.TSY_KRTC_HI = BitVec.ofNat 32 (c / 2 ^ 32 % 0x10000)
        ∧ t.rd Reg.TSY_KC_NS = BitVec.ofNat 32 ((s.tsy.full + fullWrap - d % fullWrap) % fullWrap % 1000000000) ∧ t.rb Reg.TSY_KCSTAT 31 = true
        ∧ t.rb (Reg.PG_IST Reg.pgTSY) 8 = true ∧ t.tsy.corr = none ∧ t.tsy.full = s.tsy.full ∧ s.sameTables t ∧ s.sameBytes t)

/-- A gated frame's verification starts and ends with its SA advanced; pipes are tested and restarted; channels and associations
staged (12_crypto_engine.md R337; 12_crypto_engine.md R340; 12_crypto_engine.md R344; 12_crypto_engine.md R345;
12_crypto_engine.md R348; 12_crypto_engine.md R349; 12_crypto_engine.md R350; 12_crypto_engine.md R351; 12_crypto_engine.md R366). -/
def Obligations.MacsecFramesAreVerifiedInOrder : Prop :=
  ∀ (s : State) (init : Initiator) (v : Word) (i : Nat),
    (∀ cl c rest f, [7, 6, 5, 4, 3, 2, 1, 0].find? (fun x => !(s.queueOf (8 * 17 + x)).isEmpty) = some cl →
      s.queueOf (8 * 17 + cl) = c :: rest → s.frameOf c.fid = some f → s.ethLate (8 * 17 + cl) c f = false →
      s.verifying f.port = false → s.rb Reg.MSEC_CTL 0 = true →
      (2 ≤ s.rf (Reg.MSEC_PCFG f.port) 2 1 → beAt f.bytes 12 2 ≠ 0x88E5 → beAt f.bytes 12 2 ≠ 0x888E →
        Completes .macsecVerifyJob s fun t =>
          amGetD 0 t.cry.pcnt (16 * f.port) = (amGetD 0 s.cry.pcnt (16 * f.port) + 1) % 2 ^ 32)
      ∧ ∀ k a pipe u, beAt f.bytes 12 2 = 0x88E5 → secBad f.bytes = false → s.rf (Reg.MSEC_PCFG f.port) 2 1 ≠ 0 →
        s.scFind f.port false (fun ws => match ws with
          | w0 :: w1 :: _ => wordBytes w1 ++ wordBytes w0 == (secIn f.bytes).sci
          | _ => false) = some k → a = s.scSa k ((secIn f.bytes).tci % 4) → (s.saOf a).inuse = true →
        (bitOf (s.scw k 2) 22 = true → (pnRecover (s.saOf a) true (s.scw k 4).toNat (secIn f.bytes).pn).2
          ≤ (pnRecover (s.saOf a) true (s.scw k 4).toNat (secIn f.bytes).pn).1) →
        s.cryOn = true → s.crySlot 2 = true → s.keysReady = true → s.keyCheck (s.saOf a).slot 0 = kOK → s.choosePipe = some (pipe, u) →
        Completes .macsecVerifyJob s fun t => t.queueOf (8 * 17 + cl) = rest
          ∧ (∃ j, t.jobOf s.cry.next = some j ∧ j.cls = 2 ∧ j.ref = c.fid ∧ j.ix = a ∧ j.pipe = pipe
            ∧ (j.code = kOK ∨ j.code = kAUTHFAIL))
          ∧ t.frameOf c.fid = some f ∧ s.sameTables t ∧ s.sameBytes t)
    ∧ (∀ job j f, s.jobOf job = some j → j.cls = 2 → j.code = kOK → s.frameOf j.ref = some f → f.flushed = false →
      (∀ p ∈ s.cry.saPend, p.1 ≠ j.ix) → Completes (.cryptoVerifyComplete job true) s fun t => t.jobOf job = none
        ∧ (t.saOf j.ix).pn = min (2 ^ 64 - 1) (max (s.saOf j.ix).pn (j.val + 1))
        ∧ amGetD 0 t.cry.scnt (4 * j.ix) = (amGetD 0 s.cry.scnt (4 * j.ix) + 1) % 2 ^ 32)
    ∧ (∀ (p : Fin 2) pass, s.pipeState p = 0 → Completes (.knownAnswerTestComplete p pass) s fun t =>
        t.pipeState p = (if pass then 1 else 2) ∧ (pass = true → s.sameRegs t [Reg.CRY_PIPESTAT])
        ∧ (pass = false → t.rb (Reg.PG_IST Reg.pgCRY) 2 = true) ∧ s.sameTables t)
    ∧ (s.pwr.held = false → Completes (.pipeRestart init v) s fun t =>
        (∀ p, p < 2 → bitOf v p = true → s.pipeState p = 2 → t.pipeState p = 0 ∧ t.pipeMiss p = 0)
        ∧ (∀ p, p < 2 → (bitOf v p = false ∨ s.pipeState p ≠ 2) → t.pipeState p = s.pipeState p ∧ t.pipeMiss p = s.pipeMiss p)
        ∧ s.sameRegs t [Reg.CRY_PIPESTAT] ∧ s.sameTables t ∧ s.sameBytes t)
    ∧ (s.pwr.held = false → i = s.rf Reg.MSEC_SCIDX 6 0 → bitOf v 0 = true → bitOf v 1 = false → Completes (.scWrite init v) s fun t =>
        (∀ k, k < 5 → t.scw i k = if k = 2 then s.rd (Reg.MSEC_SCW 2) &&& 0xFFC30000 else s.rd (Reg.MSEC_SCW k))
        ∧ (∀ j, j ≠ i → t.scOf j = s.scOf j) ∧ s.sameRegs t [] ∧ s.sameTables t ∧ s.sameBytes t)
    ∧ (s.pwr.held = false → i = s.rf Reg.MSEC_SCIDX 6 0 → bitOf v 0 = false → bitOf v 1 = true → Completes (.scRead init v) s fun t =>
        (∀ k, k < 5 → t.rd (Reg.MSEC_SCW k) = s.scw i k) ∧ t.cry = s.cry ∧ s.sameTables t ∧ s.sameBytes t)
    ∧ (∀ x, s.pwr.held = false → i = s.rf Reg.MSEC_SAIDX 7 0 → bitOf v 0 = true → bitOf v 1 = false →
      x = (s.rd (Reg.MSEC_SAW 5)).toNat + (s.rd (Reg.MSEC_SAW 6)).toNat * 2 ^ 32 →
      (s.saBusy i = true → Completes (.saWrite init v) s fun t => (∀ j, t.saOf j = s.saOf j)
        ∧ t.cry.saPend = s.cry.saPend ++ [(i, s.saStaged)] ∧ s.sameRegs t [] ∧ s.sameTables t ∧ s.sameBytes t)
      ∧ (s.saBusy i = false → Completes (.saWrite init v) s fun t =>
        (t.saOf i).inuse = s.rb (Reg.MSEC_SAW 0) 31 ∧ (t.saOf i).slot = s.rf (Reg.MSEC_SAW 0) 8 0
        ∧ (t.saOf i).ssci = (s.rd (Reg.MSEC_SAW 1)).toNat
        ∧ ((s.saOf i).inuse = false → (t.saOf i).pn = (if x = 0 then 1 else x)
          ∧ (s.rb (Reg.MSEC_SAW 0) 31 = true → (t.saOf i).exh = false))
        ∧ ((s.saOf i).inuse = true → s.rb (Reg.MSEC_SAW 0) 31 = true → s.saTransmit i = true → (if x = 0 then 1 else x) < (s.saOf i).pn →
          (t.saOf i).pn = (s.saOf i).pn ∧ t.rb (Reg.PG_IST Reg.pgMSEC) 2 = true)
        ∧ (∀ j, j ≠ i → t.saOf j = s.saOf j) ∧ s.sameTables t ∧ s.sameBytes t))
    ∧ (s.pwr.held = false → i = s.rf Reg.MSEC_SAIDX 7 0 → bitOf v 0 = false → bitOf v 1 = true → Completes (.saRead init v) s fun t =>
        t.rd (Reg.MSEC_SAW 5) = BitVec.ofNat 32 (s.saOf i).pn ∧ t.rd (Reg.MSEC_SAW 6) = BitVec.ofNat 32 ((s.saOf i).pn / 2 ^ 32)
        ∧ ((s.saOf i).slot < 512 → t.rb (Reg.MSEC_SAW 0) 31 = (s.saOf i).inuse) ∧ t.rd (Reg.MSEC_SAW 1) = BitVec.ofNat 32 (s.saOf i).ssci
        ∧ (∀ k, k < 4 → t.rd (Reg.MSEC_SACNT k) = BitVec.ofNat 32 (amGetD 0 s.cry.scnt (4 * i + k))) ∧ t.cry = s.cry
        ∧ s.sameTables t ∧ s.sameBytes t)
    ∧ (s.pwr.held = false → Completes (.portCounterLatch init v) s fun t =>
        (∀ k, k < 9 → t.rd (Reg.MSEC_PNOTAG + 4 * k) = BitVec.ofNat 32 (amGetD 0 s.cry.pcnt (16 * fld v 3 0 + k))) ∧ t.cry = s.cry
        ∧ s.sameTables t ∧ s.sameBytes t)

/-- CAN copies are secured with the next freshness value, received PDUs verified; associations, counters and marks are written
(12_crypto_engine.md R353; 12_crypto_engine.md R354; 12_crypto_engine.md R355; 12_crypto_engine.md R356; 12_crypto_engine.md R358;
12_crypto_engine.md R359; 15_power_holdup.md R433). -/
def Obligations.CanPdusAreSecuredAndVerified : Prop :=
  ∀ (s : State) (init : Initiator) (v : Word) (i : Nat),
    (∀ id k ix sl c a pipe u, amGet s.prv.slots id = some sl → sl.copies[k]? = some c → c.sec = .needed ix → s.standby = false →
      a = assocIn (s.assoc ix) → s.fcBusy a.fc = false → s.fcAhead a.fc id k = false → s.caMay = true →
      s.keyCheck a.slot 1 = kOK → c.frame.data.length = a.plen → (c.frame.fmt = .cc → a.plen + a.fvb + a.macb ≤ 8) →
      (c.frame.fmt = .fd → a.plen + a.fvb + a.macb ≤ 64) → s.freshOf a.fc ≠ 2 ^ 64 - 1 → s.choosePipe = some (pipe, u) →
      Completes (.canSecureJob id k) s fun t => t.freshOf a.fc = s.freshOf a.fc + 1
        ∧ (∃ j, t.jobOf s.cry.next = some j ∧ j.cls = 1 ∧ j.ix = ix ∧ j.pipe = pipe
          ∧ j.out = securedData c.frame.fmt a (s.slotKeyBytes a.slot) c.frame.data (s.freshOf a.fc + 1))
        ∧ amGet t.prv.slots id = some { sl with copies := lset sl.copies k { c with sec := .running s.cry.next } }
        ∧ s.sameTables t ∧ s.sameBytes t)
    ∧ (∀ id ix ws sl a x pipe u, amGet s.prv.slots id = some sl → sl.phase = .waitVerify ix ws → a = assocIn (ws.drop 1) → s.noneWaits →
      s.fcBusy a.fc = false → s.fcAhead a.fc id 0 = false → s.caMay = true → s.keyCheck a.slot 2 = kOK →
      a.plen + a.fvb + a.macb ≤ sl.job.frame.data.length →
      x = freshRecover (s.freshOf a.fc) (beAt sl.job.frame.data a.plen a.fvb) a.fvb → s.freshOf a.fc < x → x < 2 ^ 64 →
      (a.win = 0 ∨ x - s.freshOf a.fc ≤ a.win) → s.choosePipe = some (pipe, u) → Completes (.canVerifyJob id) s fun t =>
        amGet t.prv.slots id = some { sl with phase := .verifying s.cry.next ws }
        ∧ (∃ j, t.jobOf s.cry.next = some j ∧ j.cls = 1 ∧ j.ix = ix ∧ j.val = x
          ∧ (j.code = kOK ↔ (cmac (s.slotKeyBytes a.slot) (macMsg a (sl.job.frame.data.take a.plen) x)).take a.macb
            = (sl.job.frame.data.drop (a.plen + a.fvb)).take a.macb))
        ∧ t.fresh = s.fresh ∧ s.sameTables t ∧ s.sameBytes t)
    ∧ (∀ job j sl ws, s.jobOf job = some j → j.cls = 1 → amGet s.prv.slots (j.ref % 2 ^ 32) = some sl → sl.phase = .verifying job ws →
      (j.code = kOK → Completes (.canJobComplete job true) s fun t => t.jobOf job = none
        ∧ t.rd Reg.CAUTH_RXOK = s.rd Reg.CAUTH_RXOK + 1)
      ∧ (j.code = kAUTHFAIL → j.ix < 512 → Completes (.canJobComplete job true) s fun t => t.jobOf job = none
        ∧ t.rd Reg.CAUTH_MACFAIL = s.rd Reg.CAUTH_MACFAIL + 1 ∧ t.rf Reg.CAUTH_LASTFAIL 31 24 = 0x81
        ∧ t.rb (Reg.PG_IST Reg.pgCAUTH) 0 = true ∧ s.sameTables t))
    ∧ (s.pwr.held = false → i = s.rf Reg.CAUTH_AIDX 8 0 → bitOf v 0 = true → bitOf v 1 = false →
      Completes (.associationWrite init v) s fun t =>
        t.assoc i = [s.rd (Reg.CAUTH_AW 0), s.rd (Reg.CAUTH_AW 1) &&& 0xFDFFFF00, s.rd (Reg.CAUTH_AW 2), s.rd (Reg.CAUTH_AW 3)]
        ∧ (∀ j, j ≠ i → t.assoc j = s.assoc j) ∧ s.sameRegs t [Reg.PG_IST Reg.pgCAUTH] ∧ s.sameTables t ∧ s.sameBytes t)
    ∧ (s.pwr.held = false → i = s.rf Reg.CAUTH_AIDX 8 0 → bitOf v 0 = false → bitOf v 1 = true →
      Completes (.associationRead init v) s fun t => (∀ k, k < 4 → t.rd (Reg.CAUTH_AW k) = wat (s.assoc i) k)
        ∧ t.cauth = s.cauth ∧ s.sameTables t ∧ s.sameBytes t)
    ∧ (∀ x, s.pwr.held = false → i = s.rf Reg.CAUTH_FIDX 11 0 → bitOf v 0 = true → bitOf v 1 = false →
      x = (s.rd Reg.CAUTH_FLO).toNat + (s.rd Reg.CAUTH_FHI).toNat * 2 ^ 32 → Completes (.freshnessWrite init v) s fun t =>
        ((s.freshOf i ≤ x ∨ bitOf v 2 = true) → s.fcBusy i = false → t.freshOf i = x ∧ s.sameRegs t [])
        ∧ ((s.freshOf i ≤ x ∨ bitOf v 2 = true) → s.fcBusy i = true → t.fresh = s.fresh ∧ t.cry.fpend = s.cry.fpend ++ [(i, x, bitOf v 2)])
        ∧ (x < s.freshOf i → bitOf v 2 = false → t.fresh = s.fresh ∧ t.cry = s.cry ∧ t.rb (Reg.PG_IST Reg.pgCAUTH) 2 = true)
        ∧ (∀ j, j ≠ i → t.freshOf j = s.freshOf j) ∧ s.sameTables t ∧ s.sameBytes t)
    ∧ (s.pwr.held = false → i = s.rf Reg.CAUTH_FIDX 11 0 → bitOf v 0 = false → bitOf v 1 = true →
      Completes (.freshnessRead init v) s fun t => t.rd Reg.CAUTH_FLO = BitVec.ofNat 32 (s.freshOf i)
        ∧ t.rd Reg.CAUTH_FHI = BitVec.ofNat 32 (s.freshOf i / 2 ^ 32) ∧ t.fresh = s.fresh ∧ s.sameTables t ∧ s.sameBytes t)
    ∧ (∀ x rest, s.inSave = false → s.cry.marks = (i, x) :: rest → (i < 4096 ∨ (65536 ≤ i ∧ i < 65792)) → x < 2 ^ 64 →
      Completes .markWrite s fun t => t.cry.marks = rest
        ∧ beNat (memRdN t.mram (markPlace i).2.2 8) = max (beNat (memRdN s.mram (markPlace i).2.2 8)) x
        ∧ (∀ a, (a < markBase ∨ markBase + 0x8A80 ≤ a) → memRd t.mram a = memRd s.mram a)
        ∧ (∀ a, memRd t.dram a = memRd s.dram a ∧ memRd t.hmem a = memRd s.hmem a ∧ memRd t.lsram a = memRd s.lsram a)
        ∧ s.sameRegs t [] ∧ s.sameTables t)

/-- Memory jobs are fetched from their rings, computed, written back in order; tails and resets of rings (12_crypto_engine.md
R360; 12_crypto_engine.md R361; 12_crypto_engine.md R362; 12_crypto_engine.md R363). -/
def Obligations.MemoryJobsRunOverTheirRings : Prop :=
  ∀ (s u : State) (init : Initiator) (v : Word) (r : Fin 4) (host : List (Nat × List Byte)), u = s.hostWrites host →
    (s.pwr.held = false → (r.val ≠ 3 ∨ init = .laurel) →
      (fld v 11 0 < s.rSize r → Completes (.ringTailWrite init r v) s fun t => t.rTail r = fld v 11 0
        ∧ s.sameRegs t [Reg.CRY_RTAIL r] ∧ s.sameTables t ∧ s.sameBytes t)
      ∧ (s.rSize r ≤ fld v 11 0 → Completes (.ringTailWrite init r v) s fun t => t.rTail r = s.rTail r
        ∧ t.rb (Reg.PG_IST Reg.pgCRY) 5 = true ∧ s.sameRegs t [Reg.PG_IST Reg.pgCRY] ∧ s.sameTables t ∧ s.sameBytes t)
      ∧ (bitOf v 30 = true → Completes (.ringReset init r v) s fun t => t.rd (Reg.CRY_RHEAD r) = 0 ∧ t.rd (Reg.CRY_RTAIL r) = 0
        ∧ t.rd (Reg.CRY_RCTL r) = 0 ∧ (∀ m ∈ t.cry.mem, m.ring ≠ r.val)
        ∧ s.sameRegs t [Reg.CRY_RHEAD r, Reg.CRY_RTAIL r, Reg.CRY_RCTL r] ∧ s.sameTables t ∧ s.sameBytes t))
    ∧ (∀ b, s.rb (Reg.CRY_RCTL r) 0 = true → s.rb (Reg.CRY_RCTL r) 31 = false → s.rFetch r ≠ s.rTail r → s.crySlot 4 = true →
      s.cryOn = true → s.keysReady = true → s.spaceMay (ringHost r) = true →
      u.memSpaceRd (ringHost r) (s.rEntry r (s.rFetch r)) 64 = some b →
      (nbit (leNat (b.take 4)) 31 = true → ∀ pipe x, s.choosePipe = some (pipe, x) → Completes (.memoryJobFetch r host true) s fun t =>
        t.rFetch r = (s.rFetch r + 1) % s.rSize r ∧ t.cry.mem = s.cry.mem ++ [⟨r, s.rFetch r, leWords 16 b, some s.cry.next, none⟩]
        ∧ (∃ j, t.jobOf s.cry.next = some j ∧ j.cls = 4 ∧ j.pipe = pipe)
        ∧ s.sameTables t ∧ u.sameBytes t)
      ∧ (nbit (leNat (b.take 4)) 31 = false → Completes (.memoryJobFetch r host true) s fun t =>
        t.rb (Reg.CRY_RCTL r) 31 = true ∧ t.rb (Reg.PG_IST Reg.pgCRY) 4 = true ∧ t.rFetch r = s.rFetch r ∧ t.cry = s.cry
        ∧ s.sameTables t ∧ u.sameBytes t))
    ∧ ∀ job j m d b tag w x e, s.jobOf job = some j → s.cry.mem = [m] → m.job = some job → m.ring = r.val →
      d = memIn m.words → s.spaceMay (ringHost r) = true → j.code = kOK → u.memSpaceRd (ringHost r) d.src (d.aad + d.len) = some b →
      tag = (if d.op = 2 ∨ d.op = 4 then u.memSpaceRd (ringHost r) d.tagaddr d.taglen else some []) → tag ≠ none →
      (memCompute d j.key b (tag.getD [])).2.2 = true →
      u.memSpaceWr (ringHost r) d.dst (memCompute d j.key b (tag.getD [])).1 = some x →
      x.memSpaceWr (ringHost r) d.tagaddr (memCompute d j.key b (tag.getD [])).2.1 = some w → e = s.rEntry r m.entry →
      (ringHost r = true ∨ e + 64 ≤ dramSize) →
      Completes (.memoryJobComplete job host true true true 0) s fun t => t.jobOf job = none ∧ t.cry.mem = []
        ∧ t.rCpl r = (m.entry + 1) % s.rSize r ∧ t.rd (Reg.CRY_RDONE r) = s.rd (Reg.CRY_RDONE r) + 1
        ∧ t.rb (Reg.PG_IST Reg.pgCRY) (6 + r) = true
        ∧ t.memSpaceRd (ringHost r) (e + 56) 8 = some (leBytes 4 (j.pipe % 2 * 2 ^ 23) ++ leBytes 4 (s.tsy.full % 2 ^ 32))
        ∧ t.memSpaceRd (ringHost r) e 4 = some (leBytes 4 (nsetBit (dw m.words 0) 31 false))
        ∧ (∀ a, (a < e ∨ e + 4 ≤ a) → (a < e + 56 ∨ e + 64 ≤ a) → memRd t.hmem a = memRd w.hmem a ∧ memRd t.dram a = memRd w.dram a)
        ∧ (∀ a, memRd t.mram a = memRd s.mram a ∧ memRd t.lsram a = memRd s.lsram a) ∧ s.sameTables t

/-- Slots load from their records, an authorised update installs its key and advances the counter, a rekey replaces the root
(13_key_store_tamper.md R373; 13_key_store_tamper.md R374; 13_key_store_tamper.md R376; 13_key_store_tamper.md R379;
13_key_store_tamper.md R380; 13_key_store_tamper.md R381; 13_key_store_tamper.md R383). -/
def Obligations.KeySlotsAreLoadedUpdatedAndRekeyed : Prop :=
  ∀ (s : State) (init : Initiator) (v : Word) (k : Fin 21),
    (s.rb Reg.YEW_STAT 31 = false → s.pwr.held = false →
      (s.rootZeroed = true ∨ s.cryOn = true ∧ s.choosePipe.isSome = true) → Completes .slotLoadComplete s fun t =>
        t.rb Reg.YEW_STAT 31 = true ∧ t.rb (Reg.PG_IST Reg.pgYEW) 3 = true
        ∧ (s.rootZeroed = true → t.yew.slots = s.yew.slots)
        ∧ (∀ n, s.rootZeroed = false → n < 512 → (s.slotStands s.kstore n = none ∨ s.yewAgrees n = false) → t.keySlot n = ⟨0x20000000, 0, []⟩)
        ∧ (∀ n b, s.rootZeroed = false → n < 512 → s.slotStands s.kstore n = some b → s.yewAgrees n = true →
          (beAt (s.recCopy n b) 8 4 / 2 ^ 30 = 2 →
            t.keySlot n = ⟨BitVec.ofNat 32 (beAt (s.recCopy n b) 8 4), BitVec.ofNat 32 (beAt (s.recCopy n b) 12 4), []⟩)
          ∧ (beAt (s.recCopy n b) 8 4 / 2 ^ 30 = 1 → t.keySlot n = ⟨BitVec.ofNat 32 (beAt (s.recCopy n b) 8 4), 0,
            (gcmDec s.kstore ((s.recCopy n b).take 12) ((s.recCopy n b).take 16) (((s.recCopy n b).drop 16).take 32)).1⟩))
        ∧ s.sameTables t ∧ s.sameBytes t)
    ∧ (s.pwr.held = false → Completes (.messageWordWrite init k v) s fun t =>
        (s.yew.op = none → t.rd (Reg.YEW_UMSG k) = v ∧ s.sameRegs t [Reg.YEW_UMSG k])
        ∧ (s.yew.op ≠ none → t.rb (Reg.PG_IST Reg.pgYEW) 5 = true ∧ s.sameRegs t [Reg.PG_IST Reg.pgYEW])
        ∧ t.yew = s.yew ∧ s.sameTables t ∧ s.sameBytes t)
    ∧ (s.pwr.held = false → bitOf v 0 = true → Completes (.updateGo init v) s fun t =>
        (s.yew.op = none → t.yew = { s.yew with op := some .update } ∧ (∀ j, j < 4 → t.rd (Reg.YEW_CONF j) = 0))
        ∧ (s.yew.op ≠ none → t.yew = s.yew ∧ t.rf Reg.YEW_URES 31 16 = 0x8000 + uBUSY ∧ t.rb (Reg.PG_IST Reg.pgYEW) 1 = true)
        ∧ s.sameTables t ∧ s.sameBytes t)
    ∧ (∀ m t0 attr op ak pt, s.yew.op = some .update → s.inSave = false → s.yewRuns = true → m = s.umsg → t0 = beAt m 16 2 →
      attr = BitVec.ofNat 32 (beAt m 28 4) → op = byteAt m 32 → s.rootZeroed = false → s.testRoot = false →
      m.take 16 = deviceIdBytes →
      (beAt m 20 8 ≤ s.yew.ucnt → Completes (.updateComplete true true) s fun t => t.yew = { s.yew with op := none }
        ∧ t.rd Reg.YEW_URES = BitVec.ofNat 32 (2 ^ 31 + (if s.yewAgrees 0 then uCOUNTER else kCMPFAIL) * 2 ^ 16 + t0 % 512)
        ∧ t.rd Reg.YEW_UPDFAIL = s.rd Reg.YEW_UPDFAIL + 1 ∧ (∀ j, j < 21 → t.rd (Reg.YEW_UMSG j) = 0)
        ∧ s.sameTables t ∧ s.sameBytes t)
      ∧ (s.yew.ucnt < beAt m 20 8 → s.authKey (beAt m 18 2) t0 = some ak → updFormatBad t0 op attr = false →
        gcmDec (kdf ak [0x55, 0x50, 0x44, 0x54] (kctx t0)) ((m.drop 16).take 12) (m.take 36) ((m.drop 36).take 32)
          = (pt, (m.drop 68).take 16) → bitOf (s.slotAttr t0) 15 = false → Completes (.updateComplete true true) s fun t =>
        t.yew.op = none ∧ t.yew.root = s.yew.root ∧ (∀ n, n ≠ t0 → t.keySlot n = s.keySlot n)
        ∧ (s.yewAgrees 0 = true → t.yew.ucnt = beAt m 20 8 ∧ t.rd Reg.YEW_URES = BitVec.ofNat 32 (2 ^ 31 + t0)
          ∧ t.keySlot t0 = ⟨newAttr op attr, if op = 3 then BitVec.ofNat 32 (beAt pt 0 4) else 0, if op = 1 then pt else []⟩
          ∧ t.rd Reg.YEW_UPDOK = s.rd Reg.YEW_UPDOK + 1 ∧ t.rb (Reg.PG_IST Reg.pgYEW) 0 = true)
        ∧ (s.yewAgrees 0 = false → t.yew.ucnt = s.yew.ucnt ∧ t.keySlot t0 = s.keySlot t0 ∧ s.mram = t.mram
          ∧ t.rd Reg.YEW_URES = BitVec.ofNat 32 (2 ^ 31 + kCMPFAIL * 2 ^ 16 + t0 % 512)
          ∧ t.rd Reg.YEW_UPDFAIL = s.rd Reg.YEW_UPDFAIL + 1)
        ∧ (∀ j, j < 21 → t.rd (Reg.YEW_UMSG j) = 0) ∧ s.sameTables t
        ∧ (∀ a, memRd t.dram a = memRd s.dram a ∧ memRd t.hmem a = memRd s.hmem a ∧ memRd t.lsram a = memRd s.lsram a)))
    ∧ (s.pwr.held = false → s.isUnlocked init Reg.YEW_REKEY = true → bitOf v 0 = true → s.yew.op = none → s.testRoot = false →
      Completes (.rekey init v) s fun t =>
        (s.rb Reg.TMP_STAT 31 = false → t.yew = { s.yew with root := .zeroed, cause := 3, op := some .rekey } ∧ s.sameRegs t [Reg.CRY_JOBS])
        ∧ (s.rb Reg.TMP_STAT 31 = true → t.yew = s.yew ∧ t.rf Reg.YEW_URES 31 16 = 0x8000 + kTAMPER)
        ∧ s.sameTables t ∧ s.sameBytes t)
    ∧ (s.yew.op = some .rekey → s.inSave = false → s.yewRuns = true → Completes .rekeyComplete s fun t =>
        t.yew.op = none ∧ t.yew.ucnt = s.yew.ucnt ∧ s.sameTables t
        ∧ (s.yewAgrees 0 = true → t.yew.root = .drawn s.yewStart.freeN ∧ t.yew.slots = []
          ∧ t.freeN = s.yewStart.freeN + 8 ∧ t.rb (Reg.PG_IST Reg.pgYEW) 0 = true
          ∧ s.sameRegs t [Reg.PG_IST Reg.pgYEW, Reg.CRY_JOBS, Reg.CRY_PIPESTAT])
        ∧ (s.yewAgrees 0 = false → t.yew.root = s.yew.root ∧ t.yew.slots = s.yew.slots ∧ t.mram = s.mram
          ∧ t.rf Reg.YEW_URES 31 16 = 0x8000 + kCMPFAIL ∧ t.rd Reg.CRY_CMPERR = s.rd Reg.CRY_CMPERR + 1)
        ∧ (∀ a, memRd t.dram a = memRd s.dram a ∧ memRd t.hmem a = memRd s.hmem a ∧ memRd t.lsram a = memRd s.lsram a))

/-- An enabled sensor's alarm zeroes the root and is recorded; TAMP_ALM aborts the jobs; control, ring and real-time counter
(13_key_store_tamper.md R368; 13_key_store_tamper.md R386; 13_key_store_tamper.md R387; 13_key_store_tamper.md R388;
13_key_store_tamper.md R389; 12_crypto_engine.md R364; 03_xanpel_link.md R88). -/
def Obligations.TamperAlarmsZeroTheRoot : Prop :=
  ∀ (s : State) (init : Initiator) (v : Word) (i : Fin 7),
    (s.rb Reg.TMP_CTL i = true → Completes (.tamperDecision i) s fun t => t.rb Reg.TMP_STAT i = true ∧ t.rb Reg.TMP_STAT 31 = true
        ∧ t.yew.root = .zeroed ∧ t.rb (Reg.PG_IST Reg.pgTMP) 0 = true ∧ t.rb (Reg.PG_IST Reg.pgTMP) 1 = true
        ∧ t.rb (Reg.TMP_EV_SRC (s.rf Reg.TMP_EVCNT 9 8)) 31 = true
        ∧ t.rd (Reg.TMP_EV_RTCLO (s.rf Reg.TMP_EVCNT 9 8)) = BitVec.ofNat 32 s.rtc
        ∧ t.rf Reg.TMP_EVCNT 7 0 = capAt 255 (s.rf Reg.TMP_EVCNT 7 0 + 1)
        ∧ t.rf Reg.TMP_EVCNT 9 8 = (s.rf Reg.TMP_EVCNT 9 8 + 1) % 4)
    ∧ (s.rb Reg.TMP_STAT 31 = true → s.pwr.mode = .active → s.pwr.held = false → Completes .tampAlm s fun t =>
        t.yew.root = .zeroed ∧ (∀ k j, s.jobOf k = some j → j.cls ≠ 3 → (j.code = kOK ∨ j.code = kAUTHFAIL) →
          ∃ x, t.jobOf k = some x ∧ x.code = kTAMPER) ∧ s.sameTables t)
    ∧ (s.isUnlocked init Reg.TMP_CTL = true → Completes (.tamperControlWrite init v) s fun t =>
        (s.rb Reg.TMP_CTL 15 = false → t.rd Reg.TMP_CTL = (v &&& 0x813F) ||| 0x40)
        ∧ (s.rb Reg.TMP_CTL 15 = true → t.rd Reg.TMP_CTL = s.rd Reg.TMP_CTL ||| (v &&& 0x813F) ||| 0x40)
        ∧ s.sameRegs t [Reg.TMP_CTL, Reg.TMP_STAT] ∧ t.yew = s.yew ∧ s.sameTables t ∧ s.sameBytes t)
    ∧ (bitOf v 0 = true → Completes (.eventRingClear init v) s fun t => t.rd Reg.TMP_EVCNT = 0
        ∧ (∀ k, k < 4 → t.rd (Reg.TMP_EV_SRC k) = 0 ∧ t.rd (Reg.TMP_EV_RTCLO k) = 0 ∧ t.rd (Reg.TMP_EV_RTCHI k) = 0)
        ∧ t.rd Reg.TMP_STAT = s.rd Reg.TMP_STAT ∧ s.sameTables t ∧ s.sameBytes t)
    ∧ (amGet s.bus.latch (ikey init Reg.TMP_RTC_LO) = none → Completes (.rtcRead init) s fun t =>
        t.outbox = s.outbox ++ [.readData init 0 Reg.TMP_RTC_LO [BitVec.ofNat 32 s.rtc]]
        ∧ amGet t.bus.latch (ikey init Reg.TMP_RTC_HI) = some (BitVec.ofNat 32 (s.rtc / 2 ^ 32 % 0x10000))
        ∧ s.sameRegs t [] ∧ s.sameTables t ∧ s.sameBytes t)
    ∧ (Completes .tamperAlarmClear s fun t => t.rf Reg.TMP_STAT 6 0 = 0 ∧ t.rb Reg.TMP_STAT 31 = false ∧ t.yew = s.yew
        ∧ s.sameRegs t [Reg.TMP_STAT] ∧ s.sameTables t ∧ s.sameBytes t)
    ∧ (Completes .vbatReset s fun t => t.rtc = 0 ∧ t.yew.root = .zeroed ∧ t.yew.cause = 2
        ∧ (∀ a, Reg.pgTMP ≤ a → a < Reg.pgTMP + 0x1000 → t.rd a = resetWord a)
        ∧ (∀ a, (a < Reg.pgTMP ∨ Reg.pgTMP + 0x1000 ≤ a) → t.rd a = s.rd a) ∧ s.sameTables t ∧ s.sameBytes t)
    ∧ (∀ sq d rest, s.linkUp = true → s.xpl.evK.q = (sq, 14, d) :: rest → s.xpl.evY.lastRx ≠ some sq →
      Completes .tamperEventMsg s fun t => t.xpl.evY.lastRx = some sq ∧ t.xpl.evK.q = s.xpl.evK.q ∧ s.sameTables t)

/-- A channel fetches copy descriptors, moves bursts, completes them in order, pauses, resumes, halts and is reset (14_host_dma.md
R404; 14_host_dma.md R405; 14_host_dma.md R406; 14_host_dma.md R408; 14_host_dma.md R409; 14_host_dma.md R410; 14_host_dma.md
R411; 14_host_dma.md R412; 14_host_dma.md R417; 14_host_dma.md R418). -/
def Obligations.CopyChannelsMoveWaitHaltAndReset : Prop :=
  ∀ (s : State) (init : Initiator) (v : Word) (n : Fin 52) (host : List (Nat × List Byte)) (poison write : Bool) (drain addr : Nat)
    (index : Fin 4096),
    (s.pwr.held = false → fld v 11 0 < s.copySize n → Completes (.copyRingTailWrite init n v) s fun t =>
        t.rf (Reg.DMACH_RTAIL n) 11 0 = fld v 11 0 ∧ (t.chanOf n).stopped = false ∧ s.sameRegs t [Reg.DMACH_RTAIL n]
        ∧ s.sameTables t ∧ s.sameBytes t)
    ∧ (s.pwr.held = false → s.copySize n ≤ fld v 11 0 → Completes (.copyRingTailWrite init n v) s fun t =>
        t.rb (Reg.PG_IST (Reg.pgDMACH n)) 5 = true ∧ t.chan = s.chan ∧ s.sameRegs t [Reg.PG_IST (Reg.pgDMACH n)]
        ∧ s.sameTables t ∧ s.sameBytes t)
    ∧ (s.pwr.held = false → bitOf v 31 = false → bitOf v 30 = true → Completes (.channelPause init n v) s fun t =>
        t.rb (Reg.DMACH_CTL n) 30 = true ∧ s.sameRegs t [Reg.DMACH_CTL n, Reg.PG_IST (Reg.pgDMACH n)]
        ∧ t.chanOf n = { s.chanOf n with readAt := s.now } ∧ (∀ m, m ≠ n.val → t.chanOf m = s.chanOf m)
        ∧ s.sameTables t ∧ s.sameBytes t)
    ∧ (s.pwr.held = false → bitOf v 31 = false → bitOf v 30 = false → Completes (.channelResume init n v) s fun t =>
        t.rb (Reg.DMACH_CTL n) 30 = false ∧ t.rb (Reg.DMACH_STAT n) 30 = false
        ∧ s.sameRegs t [Reg.DMACH_CTL n, Reg.DMACH_STAT n, Reg.PG_IST (Reg.pgDMACH n)]
        ∧ t.chanOf n = { s.chanOf n with readAt := s.now } ∧ (∀ m, m ≠ n.val → t.chanOf m = s.chanOf m)
        ∧ s.sameTables t ∧ s.sameBytes t)
    ∧ (s.pwr.held = false → bitOf v 31 = true → Completes (.channelReset init ⟨n.val, Nat.lt_of_lt_of_le n.isLt (by decide)⟩ v) s fun t =>
        t.rd (Reg.DMACH_STAT n) = BitVec.ofNat 32 (2 ^ 29) ∧ t.rb (Reg.DMACH_CTL n) 0 = false ∧ t.rd (Reg.DMACH_RHEAD n) = 0
        ∧ t.rd (Reg.DMACH_RTAIL n) = 0 ∧ t.rd (Reg.DMACH_ERRINFO n) = 0 ∧ (t.chanOf n).cur = none
        ∧ (∀ q, q < 128 → n.val < 48 → (s.hqOf q).chan = n → (t.hqOf q).frames = [] ∧ (t.hqOf q).items = [] ∧ (t.hqOf q).fetch = 0
          ∧ (t.hqOf q).en = false ∧ t.rd (hqTailReg q) = 0) ∧ s.sameTables t ∧ s.sameBytes t)
    ∧ (s.pwr.held = false → Completes (.channelReset init 52 v) s fun t => ∀ i, i < 32 →
        (nbit v.toNat i = true → t.rd (Reg.DMACH_STAT i) = BitVec.ofNat 32 (2 ^ 29) ∧ t.rb (Reg.DMACH_CTL i) 0 = false)
        ∧ (nbit v.toNat i = false → t.rd (Reg.DMACH_STAT i) = s.rd (Reg.DMACH_STAT i)))
    ∧ (s.pwr.held = false → Completes (.channelReset init 53 v) s fun t => ∀ i, i < 20 →
        (nbit v.toNat i = true → t.rd (Reg.DMACH_STAT (32 + i)) = BitVec.ofNat 32 (2 ^ 29) ∧ t.rb (Reg.DMACH_CTL (32 + i)) 0 = false)
        ∧ (nbit v.toNat i = false → t.rd (Reg.DMACH_STAT (32 + i)) = s.rd (Reg.DMACH_STAT (32 + i))))
    ∧ (s.rb (Reg.DMACH_STAT n) 29 = true → Completes (.channelResetDone n) s fun t => t.rb (Reg.DMACH_STAT n) 29 = false
        ∧ t.rb (Reg.PG_IST (Reg.pgDMACH n)) 0 = true ∧ s.sameRegs t [Reg.DMACH_STAT n, Reg.PG_IST (Reg.pgDMACH n)]
        ∧ s.sameTables t ∧ s.sameBytes t)
    ∧ (s.chanRuns n false = true → (s.chanOf n).cur = none → (s.chanOf n).stopped = false → s.copyFetch n ≠ s.copyTail n →
      s.spaceMay (s.copyHost n) = true →
      (s.memSpaceRd (s.copyHost n) (s.copyEntry n (s.copyFetch n)) 32 = none → Completes (.copyDescriptorFetch n []) s fun t =>
        t.rb (Reg.DMACH_STAT n) 31 = true ∧ s.sameTables t ∧ s.sameBytes t)
      ∧ (∀ b, s.memSpaceRd (s.copyHost n) (s.copyEntry n (s.copyFetch n)) 32 = some b →
        (nbit (dw (leWords 8 b) 0) 31 = false → Completes (.copyDescriptorFetch n []) s fun t => (t.chanOf n).stopped = true
          ∧ s.sameRegs t [] ∧ s.sameTables t ∧ s.sameBytes t)
        ∧ (nbit (dw (leWords 8 b) 0) 31 = true → copyBad (leWords 8 b) = false → Completes (.copyDescriptorFetch n []) s fun t =>
          (t.chanOf n).cur = some (s.copyFetch n, leWords 8 b) ∧ (t.chanOf n).moved = 0
          ∧ t.rd (Reg.DMACH_REM n) = BitVec.ofNat 32 (dw (leWords 8 b) 1) ∧ t.copyFetch n = (s.copyFetch n + 1) % s.copySize n
          ∧ t.copyCpl n = s.copyCpl n ∧ s.sameRegs t [Reg.DMACH_REM n, Reg.DMACH_RHEAD n, Reg.DMACH_CUR n] ∧ s.sameTables t ∧ s.sameBytes t)
        ∧ (nbit (dw (leWords 8 b) 0) 31 = true → copyBad (leWords 8 b) = true → Completes (.copyDescriptorFetch n []) s fun t =>
          (t.chanOf n).cur = none ∧ t.rb (Reg.PG_IST (Reg.pgDMACH n)) 3 = true
          ∧ t.rd (Reg.DMACH_DONE n) = s.rd (Reg.DMACH_DONE n) + 1 ∧ t.copyFetch n = (s.copyFetch n + 1) % s.copySize n
          ∧ t.copyCpl n = (s.copyFetch n + 1) % s.copySize n)))
    ∧ (∀ i w, (s.chanOf n).cur = some (i, w) → s.chanRuns n false = true →
      s.drainMay n w = true → (s.chanOf n).got = none →
      (cpFill w = false → cpSsp w = 0 → cpDsp w = 1 → cpSfix w = false → cpDfix w = false →
        (∀ r b, (s.chanOf n).readTo = (s.chanOf n).moved → (s.chanOf n).goal = (s.chanOf n).moved → (s.chanOf n).moved < dw w 1 →
          s.burstMay n = some (r, b) → Completes (.burstStart n []) s fun t =>
            (t.chanOf n).goal = (s.chanOf n).goal + b ∧ (t.chanOf n).moved = (s.chanOf n).moved ∧ (t.chanOf n).burst = some s.now
            ∧ (t.chanOf n).readTo ≤ (t.chanOf n).goal ∧ (t.chanOf n).cur = some (i, w) ∧ s.sameTables t ∧ s.sameBytes t)
        ∧ (∀ k, (s.chanOf n).readTo = (s.chanOf n).moved + k → copyDst w (s.chanOf n).moved + k ≤ 2 ^ 32 →
          Completes (.burstStart n []) s fun t =>
            (t.chanOf n).moved = (s.chanOf n).moved + k ∧ (t.chanOf n).cur = some (i, w)
            ∧ t.rd (Reg.DMACH_REM n) = BitVec.ofNat 32 (dw w 1 - ((s.chanOf n).moved + k))
            ∧ memRdN t.dram (copyDst w (s.chanOf n).moved) k = memRdN s.hmem (copySrc w (s.chanOf n).moved) k
            ∧ (∀ a, (a < copyDst w (s.chanOf n).moved ∨ copyDst w (s.chanOf n).moved + k ≤ a) → memRd t.dram a = memRd s.dram a)
            ∧ (∀ a, memRd t.hmem a = memRd s.hmem a) ∧ s.sameTables t))
      ∧ ((s.chanOf n).moved = dw w 1 → (s.chanOf n).readTo = dw w 1 → s.spaceMay (s.copyHost n) = true →
        Completes (.copyDescriptorComplete n []) s fun t =>
          (t.chanOf n).cur = none ∧ (t.chanOf n).moved = 0 ∧ t.copyCpl n = (i + 1) % s.copySize n ∧ t.copyFetch n = s.copyFetch n
          ∧ t.rd (Reg.DMACH_DONE n) = s.rd (Reg.DMACH_DONE n) + 1
          ∧ (nbit (dw w 0) 21 = true → t.rb (Reg.PG_IST (Reg.pgDMACH n)) 0 = true)
          ∧ (s.copyHost n = true → nbit (memRd32 t.hmem (s.copyEntry n i)) 31 = false ∧ memRd32 t.hmem (s.copyEntry n i + 28) = 0
            ∧ memRd32 t.hmem (s.copyEntry n i + 24) = s.stamp32
            ∧ ∀ a, (a < s.copyEntry n i ∨ s.copyEntry n i + 32 ≤ a) → memRd t.hmem a = memRd s.hmem a)
          ∧ s.sameRegs t [Reg.DMACH_RHEAD n, Reg.DMACH_DONE n, Reg.DMACH_REM n, Reg.DMACH_BYTES n, Reg.PG_IST (Reg.pgDMACH n)]
          ∧ s.sameTables t))
    ∧ (s.rb (Reg.DMACH_CTL n) 30 = true → s.rf (Reg.DMACH_STAT n) 31 29 = 0 → (s.chanOf n).wait = false → (s.chanOf n).got = none →
      (s.chanOf n).readTo = (s.chanOf n).moved → (48 ≤ n.val ∨ s.rb (Reg.DMACH_CTL n) 1 = false ∨ s.queuesIdle n = true) →
      Completes (.channelPaused n drain []) s fun t => t.rb (Reg.DMACH_STAT n) 30 = true ∧ t.rb (Reg.PG_IST (Reg.pgDMACH n)) 2 = true
        ∧ s.sameRegs t [Reg.DMACH_STAT n, Reg.DMACH_REM n, Reg.DMACH_BYTES n, Reg.PG_IST (Reg.pgDMACH n)]
        ∧ s.sameTables t ∧ s.sameBytes t)
    ∧ (s.chanBusy n = true → Completes (.channelHalt n poison write addr index) s fun t => t.rb (Reg.DMACH_STAT n) 31 = true
        ∧ t.rd Reg.HIF_RXERR = s.rd Reg.HIF_RXERR + 1 ∧ t.rf (Reg.DMACH_ERRINFO n) 26 24 = (if poison then 3 else 2)
        ∧ t.rb (Reg.DMACH_ERRINFO n) 30 = write ∧ t.rf (Reg.DMACH_ERRINFO n) 11 0 = index ∧ t.rd (Reg.DMACH_ERRADDR_LO n) = BitVec.ofNat 32 addr
        ∧ t.rb (Reg.PG_IST (Reg.pgDMACH n)) 1 = true ∧ t.rb (Reg.PG_IST Reg.pgDMA) 0 = true
        ∧ (48 ≤ n.val → ∀ m, 48 ≤ m → m < 52 → t.rb (Reg.DMACH_STAT m) 31 = true) ∧ s.sameTables t ∧ s.sameBytes t)
    ∧ (s.chanBusy n = true → s.hostReading n = true → (s.chanOf n).readAt + ctoNs (s.rf Reg.HIF_CTL 3 0) ≤ s.now →
      Completes (.completionTimeout n addr index) s fun t => t.rb (Reg.DMACH_STAT n) 31 = true
        ∧ t.rd Reg.HIF_CPLTO = s.rd Reg.HIF_CPLTO + 1 ∧ t.rf (Reg.DMACH_ERRINFO n) 26 24 = 4 ∧ t.rf (Reg.DMACH_ERRINFO n) 11 0 = index
        ∧ (48 ≤ n.val → ∀ m, 48 ≤ m → m < 52 → t.rb (Reg.DMACH_STAT m) 31 = true) ∧ s.sameTables t ∧ s.sameBytes t)

/-- Host queues take descriptors, complete them in order, write items, and are configured, reset and moderated (14_host_dma.md
R396; 14_host_dma.md R397; 14_host_dma.md R398; 14_host_dma.md R399; 14_host_dma.md R400; 14_host_dma.md R401; 14_host_dma.md
R402; 14_host_dma.md R403; 14_host_dma.md R415). -/
def Obligations.HostQueuesMoveFramesAndItems : Prop :=
  ∀ (s : State) (init : Initiator) (v : Word) (q : Fin 64) (host : List (Nat × List Byte)), s.pwr.held = false →
    (fld v 11 0 < (s.hqOf q).size → Completes (.txTailWrite init q v) s fun t => t.rf (Reg.HQ_TXTAIL q) 11 0 = fld v 11 0
        ∧ t.hqOf q = { s.hqOf q with stopped := false } ∧ s.sameRegs t [Reg.HQ_TXTAIL q] ∧ s.sameTables t ∧ s.sameBytes t)
    ∧ ((s.hqOf q).size ≤ fld v 11 0 → Completes (.txTailWrite init q v) s fun t => t.rb (Reg.PG_IST Reg.pgHQ) 0 = true ∧ t.hq = s.hq
        ∧ s.sameRegs t [Reg.PG_IST Reg.pgHQ] ∧ s.sameTables t ∧ s.sameBytes t)
    ∧ (fld v 11 0 < (s.hqOf (64 + q)).size → Completes (.rxTailWrite init q v) s fun t => t.rf (Reg.HQ_RXTAIL q) 11 0 = fld v 11 0
        ∧ t.hqOf (64 + q) = { s.hqOf (64 + q) with stopped := false } ∧ s.sameRegs t [Reg.HQ_RXTAIL q] ∧ s.sameTables t ∧ s.sameBytes t)
    ∧ ((s.hqOf (64 + q)).size ≤ fld v 11 0 → Completes (.rxTailWrite init q v) s fun t => t.rb (Reg.PG_IST Reg.pgHQ) 0 = true ∧ t.hq = s.hq
        ∧ s.sameRegs t [Reg.PG_IST Reg.pgHQ] ∧ s.sameTables t ∧ s.sameBytes t)
    ∧ (∀ u n, u = s.hostWrites host → n = (s.hqOf q).chan → (s.chanOf n).job = none → u.queueServed q n = true →
      (scanFrame 0 (u.txEntries q) = .stop → Completes (.queueDescriptorFetch q host) s fun t =>
        t.hqOf q = { s.hqOf q with stopped := true } ∧ s.sameRegs t [] ∧ s.sameTables t)
      ∧ ∀ k ws, scanFrame 0 (u.txEntries q) = .frame k → ws = (u.txEntries q).take k →
        (txGood (s.hqOf q).can ws = false → Completes (.queueDescriptorFetch q host) s fun t =>
          t.hqOf q = { s.hqOf q with fetch := ((s.hqOf q).fetch + k) % (s.hqOf q).size, nextId := (s.hqOf q).nextId + 1,
                                     frames := (s.hqOf q).frames ++ [⟨(s.hqOf q).nextId, (s.hqOf q).fetch, k, some (0x20, none)⟩],
                                     bad := ((s.hqOf q).bad + k) % 2 ^ 32 }
          ∧ t.rb (Reg.PG_IST Reg.pgHQ) 2 = true ∧ t.prv = s.prv ∧ t.swIn = s.swIn)
        ∧ (∀ r b, txGood (s.hqOf q).can ws = true → u.burstMay n = some (r, b) → Completes (.queueDescriptorFetch q host) s fun t =>
          t.hqOf q = { s.hqOf q with fetch := ((s.hqOf q).fetch + ws.length) % (s.hqOf q).size, nextId := (s.hqOf q).nextId + 1,
                                     frames := (s.hqOf q).frames ++ [⟨(s.hqOf q).nextId, (s.hqOf q).fetch, ws.length, none⟩] }
          ∧ (b < txBytes ws ws.length → (t.chanOf n).job = some ⟨q, txBytes ws ws.length - b, ws⟩ ∧ t.prv = s.prv ∧ t.swIn = s.swIn)
          ∧ (txBytes ws ws.length ≤ b → (t.chanOf n).job = none
            ∧ ((s.hqOf q).can = true → ∃ j, t.prv.wait = s.prv.wait ++ [j] ∧ j.src = 0x40 + q.val ∧ t.swIn = s.swIn)
            ∧ ((s.hqOf q).can = false → ∃ x, t.swIn = s.swIn ++ [x] ∧ x.port = 14 ∧ x.hq = some (q.val, (s.hqOf q).nextId)
              ∧ t.prv = s.prv))))
    ∧ (∀ f r code st, (s.hqOf q).frames = f :: r → f.res = some (code, st) → 1 ≤ f.n → s.chanServes (s.hqOf q).chan true = true → s.hostMay = true →
      Completes (.txDescriptorComplete q) s fun t => (t.hqOf q).frames = r ∧ (t.hqOf q).cpl = ((s.hqOf q).cpl + f.n) % (s.hqOf q).size
        ∧ (t.hqOf q).done = ((s.hqOf q).done + f.n) % 2 ^ 32 ∧ (t.hqOf q).fetch = (s.hqOf q).fetch
        ∧ (f.n = 1 → nbit (memRd32 t.hmem ((s.hqOf q).entryAt f.first)) 31 = false
          ∧ memRd32 t.hmem ((s.hqOf q).entryAt f.first + 28) = (code * 2 ^ 24 + st.isSome.toNat * 2 ^ 23) % 2 ^ 32
          ∧ ∀ a, (a < (s.hqOf q).entryAt f.first ∨ (s.hqOf q).entryAt f.first + 32 ≤ a) → memRd t.hmem a = memRd s.hmem a)
        ∧ s.sameRegs t [Reg.PG_IST Reg.pgHQ] ∧ s.sameTables t)
    ∧ (∀ x r n, (s.hqOf (64 + q)).items = x :: r → n = (s.hqOf (64 + q)).chan → (s.chanOf n).job = none →
      (s.hostWrites host).queueServed (64 + q) n = true → x.n = 1 → x.words.length = 6 →
      (nbit (memRd32 (s.hostWrites host).hmem ((s.hqOf (64 + q)).entryAt x.first)) 31 = false →
        Completes (.rxItemWrite q host) s fun t => t.hqOf (64 + q) = { s.hqOf (64 + q) with stopped := true } ∧ s.sameRegs t [])
      ∧ (∀ b w, nbit (memRd32 (s.hostWrites host).hmem ((s.hqOf (64 + q)).entryAt x.first)) 31 = true →
        (s.hostWrites host).burstMay n = some (b, w) → (w < x.data.length → Completes (.rxItemWrite q host) s fun t =>
          t.hq = s.hq ∧ ∃ ws, (t.chanOf n).job = some ⟨64 + q, x.data.length - w, ws⟩)
        ∧ (x.data.length ≤ w → Completes (.rxItemWrite q host) s fun t => (t.hqOf (64 + q)).items = r
          ∧ (t.hqOf (64 + q)).fetch = ((s.hqOf (64 + q)).fetch + 1) % (s.hqOf (64 + q)).size
          ∧ (t.hqOf (64 + q)).cpl = ((s.hqOf (64 + q)).cpl + 1) % (s.hqOf (64 + q)).size
          ∧ (t.hqOf (64 + q)).done = ((s.hqOf (64 + q)).done + 1) % 2 ^ 32
          ∧ memRd32 t.hmem ((s.hqOf (64 + q)).entryAt x.first)
            = (x.kind * 2 ^ 28 + 2 ^ 27 + 2 ^ 26 + min x.data.length (s.hqOf (64 + q)).buf) % 2 ^ 32)))
    ∧ ((s.hqOf q).unsig ≠ 0 → bitOf (s.hqOf q).irq 7 = true → (s.hqOf q).firstAt + fld (s.hqOf q).irq 31 16 * 1000 ≤ s.now →
      Completes (.queueHoldoffExpiry ⟨q.val, Nat.lt_of_lt_of_le q.isLt (by decide)⟩) s fun t => (t.hqOf q).unsig = 0
        ∧ (s.d3 = true ∨ nsMem s.vecMask (fld (s.hqOf q).irq 6 0) = true → nsMem t.pba (fld (s.hqOf q).irq 6 0) = true ∧ t.outbox = s.outbox)
        ∧ (s.d3 = false → nsMem s.vecMask (fld (s.hqOf q).irq 6 0) = false → t.outbox = s.outbox ++ [.msix (fld (s.hqOf q).irq 6 0)] ∧ t.pba = s.pba)
        ∧ s.sameRegs t [] ∧ s.sameTables t ∧ s.sameBytes t)
    ∧ (bitOf v 31 = true → s.hqReset = none → Completes (.queueReset init v) s fun t => t.hqReset = some (fld v 6 0)
        ∧ t.hqOf (fld v 6 0) = { s.hqOf (fld v 6 0) with
          fetch := 0, cpl := 0, stopped := false, frames := [], items := [], unsig := 0, cfg := setBit (s.hqOf (fld v 6 0)).cfg 31 false }
        ∧ t.rd (hqTailReg (fld v 6 0)) = 0 ∧ s.sameRegs t [hqTailReg (fld v 6 0)] ∧ s.sameTables t ∧ s.sameBytes t)
    ∧ (bitOf v 31 = true → s.hqReset.isSome = true → Completes (.queueReset init v) s fun t => t.hqReset = s.hqReset ∧ t.hq = s.hq
        ∧ t.rb (Reg.PG_IST Reg.pgHQ) 0 = true ∧ s.sameRegs t [Reg.PG_IST Reg.pgHQ] ∧ s.sameTables t ∧ s.sameBytes t)
    ∧ (Completes .queueResetDone s fun t => t = { s with hqReset := none })
    ∧ (bitOf v 0 = true → bitOf v 1 = false → (s.hqOf (s.rf Reg.HQ_QIDX 6 0)).en = false → Completes (.queueConfigWrite init v) s fun t =>
        t.hqOf (s.rf Reg.HQ_QIDX 6 0) = { s.hqOf (s.rf Reg.HQ_QIDX 6 0) with
          base := (s.rd Reg.HQ_QBLO).toNat + (s.rd Reg.HQ_QBHI).toNat * 2 ^ 32, size := ringSize (s.rf Reg.HQ_QSIZE 12 0),
          cfg := s.rd Reg.HQ_QCFG, irq := s.rd Reg.HQ_QIRQ } ∧ s.sameRegs t [] ∧ s.sameTables t ∧ s.sameBytes t)
    ∧ (bitOf v 0 = true → bitOf v 1 = false → (s.hqOf (s.rf Reg.HQ_QIDX 6 0)).en = true → Completes (.queueConfigWrite init v) s fun t =>
        t.hqOf (s.rf Reg.HQ_QIDX 6 0) = { s.hqOf (s.rf Reg.HQ_QIDX 6 0) with
          irq := s.rd Reg.HQ_QIRQ, cfg := setBit (s.hqOf (s.rf Reg.HQ_QIDX 6 0)).cfg 31 (s.rb Reg.HQ_QCFG 31) }
        ∧ t.rb (Reg.PG_IST Reg.pgHQ) 0 = true ∧ s.sameRegs t [Reg.PG_IST Reg.pgHQ] ∧ s.sameTables t ∧ s.sameBytes t)
    ∧ (bitOf v 0 = false → bitOf v 1 = true → Completes (.queueConfigRead init v) s fun t => t.hq = s.hq
        ∧ t.rd Reg.HQ_QSIZE = BitVec.ofNat 32 (s.hqOf (s.rf Reg.HQ_QIDX 6 0)).size ∧ t.rd Reg.HQ_QCFG = (s.hqOf (s.rf Reg.HQ_QIDX 6 0)).cfg
        ∧ t.rd Reg.HQ_QIRQ = (s.hqOf (s.rf Reg.HQ_QIDX 6 0)).irq ∧ t.rd Reg.HQ_QDONE = BitVec.ofNat 32 (s.hqOf (s.rf Reg.HQ_QIDX 6 0)).done
        ∧ s.sameRegs t [Reg.HQ_QBLO, Reg.HQ_QBHI, Reg.HQ_QSIZE, Reg.HQ_QCFG, Reg.HQ_QIRQ, Reg.HQ_QDONE, Reg.HQ_QBAD, Reg.HQ_RXNOBUF]
        ∧ s.sameTables t ∧ s.sameBytes t)

/-- The PCIe link's loss halts the channels that use host memory; power states, function resets, EOI and unmasking (14_host_dma.md
R392; 14_host_dma.md R393; 14_host_dma.md R394; 14_host_dma.md R409; 14_host_dma.md R414; 17_startup_reset.md R462). -/
def Obligations.TheHostLinkAndItsVectors : Prop :=
  ∀ (s : State) (init : Initiator) (v : Word) (speed : Fin 4) (width : Fin 16) (on : Bool) (vec : Fin 128),
    (s.rb Reg.HIF_STAT 31 = true → Completes .pcieLinkLoss s fun t => t.rb Reg.HIF_STAT 31 = false
        ∧ t.rd Reg.HIF_LINKDN = s.rd Reg.HIF_LINKDN + 1 ∧ t.rb (Reg.PG_IST Reg.pgHIF) 0 = true
        ∧ (∀ n, n < 52 → s.hostNext n ≠ none → t.rb (Reg.DMACH_STAT n) 31 = true)
        ∧ (∀ n, n < 48 → s.hostNext n ≠ none → s.rb (Reg.DMACH_STAT n) 31 = false → t.rf (Reg.DMACH_ERRINFO n) 26 24 = 5
          ∧ t.rb (Reg.PG_IST (Reg.pgDMACH n)) 1 = true)
        ∧ (∀ n, n < 48 → s.hostNext n = none → t.rd (Reg.DMACH_STAT n) = s.rd (Reg.DMACH_STAT n)
          ∧ t.rd (Reg.DMACH_ERRINFO n) = s.rd (Reg.DMACH_ERRINFO n))
        ∧ s.sameTables t ∧ s.sameBytes t)
    ∧ (s.rb Reg.HIF_STAT 31 = false → Completes .pcieLinkLoss s fun t => t = s)
    ∧ (Completes (.pcieLinkUp speed width) s fun t => t.rb Reg.HIF_STAT 31 = true ∧ t.rf Reg.HIF_STAT 3 0 = speed
        ∧ t.rf Reg.HIF_STAT 19 16 = width ∧ t.rb (Reg.PG_IST Reg.pgHIF) 1 = true
        ∧ s.sameRegs t [Reg.HIF_STAT, Reg.PG_IST Reg.pgHIF] ∧ s.sameTables t ∧ s.sameBytes t)
    ∧ (Completes (.busMasterEnable on) s fun t => t = { s with bme := on })
    ∧ (Completes (.d3hotTransition true) s fun t => t = { s with d3 := true })
    ∧ (Completes (.d3hotTransition false) s fun t => t.d3 = false ∧ t.regs = s.regs
        ∧ t.outbox = s.outbox ++ (s.pba.filter (fun x => !nsMem s.vecMask x)).map Out.msix
        ∧ (∀ x, nsMem s.vecMask x = true → nsMem t.pba x = nsMem s.pba x)
        ∧ (∀ x, nsMem s.vecMask x = false → nsMem t.pba x = false) ∧ s.sameBytes t)
    ∧ (s.pwr.held = false → Completes .functionLevelReset s fun t => t.hq = [] ∧ t.chan = [] ∧ t.bme = false ∧ t.d3 = false
        ∧ t.vecMask = List.range 128 ∧ t.pba = [] ∧ (∀ a, pageBase a = Reg.pgHQ → t.rd a = resetWord a)
        ∧ (∀ a, pageBase a = Reg.pgDMA → t.rd a = resetWord a)
        ∧ (∀ n a, n < 52 → pageBase a = Reg.pgDMACH n → t.rd a = resetWord a) ∧ t.rd Reg.HIF_STAT = s.rd Reg.HIF_STAT
        ∧ (∀ n a, n < 16 → pageBase a = Reg.pgCANC n → t.rd a = s.rd a) ∧ s.sameTables t ∧ s.sameBytes t)
    ∧ (s.pwr.held = false → Completes (.hifEoi init v) s fun t =>
        t.outbox = s.outbox ++ (if s.vecLevel (fld v 6 0) = true ∧ s.d3 = false ∧ nsMem s.vecMask (fld v 6 0) = false then [.msix (fld v 6 0)] else [])
        ∧ (s.vecLevel (fld v 6 0) = true → (s.d3 = true ∨ nsMem s.vecMask (fld v 6 0) = true) → nsMem t.pba (fld v 6 0) = true)
        ∧ (s.vecLevel (fld v 6 0) = false → t.pba = s.pba) ∧ s.sameRegs t [] ∧ s.sameTables t ∧ s.sameBytes t)
    ∧ (bitOf v 0 = true → Completes (.msixUnmask vec v) s fun t => t = { s with vecMask := nsAdd s.vecMask vec })
    ∧ (bitOf v 0 = false → Completes (.msixUnmask vec v) s fun t => nsMem t.vecMask vec = false
        ∧ nsMem t.pba vec = (s.d3 && nsMem s.pba vec)
        ∧ t.outbox = s.outbox ++ (if s.d3 = false ∧ nsMem s.pba vec = true then [.msix vec] else []) ∧ t.regs = s.regs ∧ s.sameBytes t)

/-- Rails come up and go down in their order, a failed sequence is repeated twice, a rail failure and K_RSTREQ reset the Yatric
die (15_power_holdup.md R421; 15_power_holdup.md R422; 15_power_holdup.md R423; 15_power_holdup.md R424; 16_sleep_wake.md R455;
17_startup_reset.md R462; 17_startup_reset.md R475; 03_xanpel_link.md R88; 16_sleep_wake.md R446). -/
def Obligations.PowerSequencerSteps : Prop :=
  ∀ (s : State) (src : Fin 2),
    ((s.pwr.mode = .unpowered ∨ (s.pwr.mode = .off ∧ 3 ≤ s.pwr.fails)) → Completes .startCondition s fun t =>
        t.pwr.mode = .up 2 ∧ t.pwr.at_ = s.mono ∧ t.pwr.fails = 0 ∧ t.pwr.charging = true ∧ t.pwr.inh = true
        ∧ t.rb Reg.WKN_WCAUSE 31 = true ∧ t.rf Reg.WKN_WCAUSE 25 22 = 10 ∧ s.sameTables t ∧ s.sameBytes t)
    ∧ (s.pwr.mode = .up 2 → Completes .buckSoftStartComplete s fun t => t.pwr = { s.pwr with mode := .up 3, at_ := s.mono }
        ∧ s.sameRegs t [] ∧ s.sameTables t ∧ s.sameBytes t)
    ∧ (s.pwr.mode = .up 3 → s.pwr.at_ + s.rf Reg.PWR_SEQ 3 0 * 100000 ≤ s.mono → Completes .coreEnableDelay s fun t =>
        t.pwr = { s.pwr with mode := .up 4, at_ := s.mono, coreEn := true } ∧ s.sameRegs t [] ∧ s.sameTables t ∧ s.sameBytes t)
    ∧ (s.pwr.mode = .up 4 → Completes .corePgRise s fun t => t.pwr = { s.pwr with mode := .up 5, at_ := s.mono }
        ∧ s.sameRegs t [] ∧ s.sameTables t ∧ s.sameBytes t)
    ∧ (s.pwr.mode = .up 5 → s.pwr.at_ + s.rf Reg.PWR_SEQ 11 8 * 100000 ≤ s.mono → Completes .dramEnableDelay s fun t =>
        t.pwr = { s.pwr with mode := .up 6, at_ := s.mono, dramEn := true } ∧ s.sameRegs t [] ∧ s.sameTables t ∧ s.sameBytes t)
    ∧ (s.pwr.mode = .up 6 → Completes .dramPgRise s fun t => t.pwr.mode = .active ∧ t.pwr.held = false
        ∧ t.pwr.boots = s.pwr.boots + 1 ∧ t.pwr.fails = 0 ∧ t.boot.wdAt = s.now
        ∧ (s.pwr.cause.1 ≠ rRAIL → s.rb Reg.WKN_CTL 5 = true → s.xpl.kykLock = none → ∀ k, k < 16 → s.trxMode k = 0 → t.trxMode k = 1)
        ∧ s.sameTables t ∧ s.sameBytes t)
    ∧ ((s.pwr.mode = .up 4 ∨ s.pwr.mode = .up 6) → s.pwr.at_ + 5000000 ≤ s.mono → Completes .powerGoodTimeout s fun t =>
        t.pwr.mode = .down 1 ∧ t.pwr.dramEn = false ∧ t.pwr.failing = true ∧ t.pwr.fails = s.pwr.fails + 1
        ∧ t.rb Reg.PWR_STAT 26 = true ∧ s.sameRegs t [Reg.PWR_STAT] ∧ s.sameTables t ∧ s.sameBytes t)
    ∧ (s.pwr.mode = .down 1 → s.pwr.at_ + 100000 ≤ s.mono → Completes .powerDownCoreDisable s fun t =>
        t.pwr = { s.pwr with mode := .down 2, at_ := s.mono, coreEn := false } ∧ s.sameRegs t [] ∧ s.sameTables t ∧ s.sameBytes t)
    ∧ (s.pwr.mode = .down 2 → s.pwr.at_ + 100000 ≤ s.mono → Completes .powerDownBuckStop s fun t =>
        (s.pwr.failing = true → s.pwr.fails < 3 → t.pwr.mode = .retry) ∧ (s.pwr.failing = true → 3 ≤ s.pwr.fails → t.pwr.mode = .off)
        ∧ (s.pwr.failing = false → t.pwr.mode = .off ∨ t.pwr.mode = .sleep)
        ∧ (s.pwr.failing = false → (s.rb Reg.WKN_CTL 3 = true ∨ s.rb Reg.PWR_INH 0 = true) → t.pwr.mode = .sleep)
        ∧ (t.pwr.inh = true ↔ t.pwr.mode = .sleep ∧ s.rb Reg.PWR_INH 0 = true)
        ∧ (s.wkn.late = [] → t.wkn.commit = false) ∧ s.sameRegs t [] ∧ s.sameTables t ∧ s.sameBytes t)
    ∧ (s.pwr.mode = .retry → s.pwr.at_ + 100000000 ≤ s.mono → Completes .sequenceRetry s fun t =>
        t.pwr.mode = .up 2 ∧ t.pwr.failing = false ∧ t.pwr.fails = s.pwr.fails ∧ s.sameRegs t [] ∧ s.sameTables t ∧ s.sameBytes t)
    ∧ (s.pwr.mode = .active → s.wkn.commit = false → Completes (.railFailure src) s fun t =>
        t.pwr.mode = .up 3 ∧ t.pwr.held = true ∧ t.pwr.cause = (2, (src : Nat)) ∧ t.pwr.coreEn = false ∧ t.pwr.dramEn = false
        ∧ s.tablesInvalid t ∧ (∀ a, isKykel a = false → t.rd a = resetWord a) ∧ (∀ a, memRd t.mram a = memRd s.keyopCut.mram a)
        ∧ (∀ a, memRd t.hmem a = memRd s.hmem a))
    ∧ (s.pwr.held = false → s.pwr.mode = .active → s.rf Reg.PWR_STAT 1 0 ≠ 1 → Completes .kRstreq s fun t =>
        (∀ ty x, s.pwr.req = some (ty, x) → t.pwr.held = false ∧ t.pwr.cause = (ty, x) ∧ t.pwr.boots = s.pwr.boots + 1 ∧ t.pwr.req = none)
        ∧ (s.pwr.req = none → t.pwr.held = true ∧ t.pwr.cause.1 = 2 ∧ t.pwr.mode = .up 3)
        ∧ (∀ a, memRd t.mram a = memRd s.keyopCut.mram a))

/-- PF_WARN starts a save, its end and the ride-through mark the record; supply loss and the monitors (15_power_holdup.md R424;
15_power_holdup.md R425; 15_power_holdup.md R427; 15_power_holdup.md R428; 15_power_holdup.md R429; 15_power_holdup.md R432;
15_power_holdup.md R434; 15_power_holdup.md R435; 17_startup_reset.md R462; 03_xanpel_link.md R88). -/
def Obligations.SaveRideThroughAndMonitors : Prop :=
  ∀ (s : State) (vh : Fin 65536) (up : Bool) (n : Nat),
    (∀ i fast, (i = .pfWarn ∧ fast = false ∨ i = .powerFailWarning ∧ fast = false ∨ i = .fastUndervoltage ∧ fast = true) →
      s.rb Reg.PWR_STAT 31 = false → s.pwr.mode = .active → s.wkn.commit = false → Completes i s fun t =>
        t.rb Reg.PWR_STAT 31 = true ∧ t.rf Reg.PWR_STAT 1 0 = 1 ∧ t.pwr.pfFast = fast ∧ t.pwr.pfAt = s.mono ∧ t.pwr.charging = false
        ∧ t.rd Reg.PWR_PFCNT = BitVec.ofNat 32 (capAt 0xFFFFFFFF ((s.rd Reg.PWR_PFCNT).toNat + 1))
        ∧ t.rb (Reg.PG_IST Reg.pgPWR) 0 = true ∧ (∀ p, p < 12 → t.ethLink p = false)
        ∧ t.saveSeq (1 - s.saveTop) = (s.saveSeq s.saveTop + 1) % 2 ^ 32 ∧ t.saveState (1 - s.saveTop) = 1
        ∧ (∀ a, (a < saveSlot (1 - s.saveTop) ∨ saveSlot (1 - s.saveTop) + 64 ≤ a) → memRd t.mram a = memRd s.mram a))
    ∧ (s.rb Reg.PWR_STAT 31 = false → s.pwr.mode = .active → s.wkn.commit = false →
      Completes .pfWarn s (fun t => t.inSave = true) ∧ Completes .powerFailWarning s (fun t => t.inSave = true)
      ∧ Completes .fastUndervoltage s fun t => t.inSave = true)
    ∧ (s.rf Reg.PWR_STAT 1 0 = 1 → s.pwr.pfSet < 4 → Completes .saveComplete s fun t => t.rf Reg.PWR_STAT 1 0 = 2 ∧ t.saveState s.saveCur = 3
        ∧ t.saveSeq s.saveCur = s.saveSeq s.saveCur ∧ t.rb Reg.PWR_LASTSAVE 31 = true ∧ t.rb (Reg.PG_IST Reg.pgPWR) 2 = true
        ∧ s.sameTables t ∧ (∀ a, memRd t.dram a = memRd s.dram a ∧ memRd t.hmem a = memRd s.hmem a))
    ∧ (s.rb Reg.PWR_STAT 31 = true → 2 ≤ s.rf Reg.PWR_STAT 1 0 → Completes (.rideThrough vh) s fun t =>
        t.rb Reg.PWR_STAT 31 = false ∧ t.inSave = false ∧ t.saveState s.saveCur = 7 ∧ t.rd Reg.PWR_VHMIN = BitVec.ofNat 32 vh
        ∧ t.rd Reg.PWR_RIDECNT = BitVec.ofNat 32 (capAt 0xFFFFFFFF ((s.rd Reg.PWR_RIDECNT).toNat + 1))
        ∧ t.rb (Reg.PG_IST Reg.pgPWR) 1 = true ∧ t.rb Reg.PWR_LASTSAVE 28 = true ∧ t.pwr.charging = true
        ∧ (∀ a, (a < saveSlot s.saveCur + 4 ∨ saveSlot s.saveCur + 8 ≤ a) → memRd t.mram a = memRd s.mram a) ∧ s.sameTables t)
    ∧ (s.rb Reg.PWR_STAT 31 = true → s.rf Reg.PWR_STAT 1 0 = 0 → s.pwr.mode = .active → s.pwr.inh = true → Completes (.rideThrough vh) s fun t =>
        t.rb Reg.PWR_STAT 31 = false ∧ t.pwr.charging = true ∧ t.pwr.chgAt = s.mono ∧ s.sameTables t ∧ s.sameBytes t)
    ∧ (Completes .supplyReset s fun t => t.pwr.mode = .unpowered ∧ t.pwr.held = true ∧ s.tablesInvalid t ∧ t.prv = State.base.prv
        ∧ (∀ a, pageBase a ≠ Reg.pgTMP → t.rd a = resetWord a) ∧ (∀ a, pageBase a = Reg.pgTMP → t.rd a = s.rd a)
        ∧ t.yew.root = s.keyopCut.yew.root ∧ t.rtc = s.rtc ∧ (∀ a, memRd t.mram a = memRd s.keyopCut.mram a)
        ∧ ((s.yew.op = none ∨ s.yewJob = none) → t.yew.root = s.yew.root ∧ ∀ a, memRd t.mram a = memRd s.mram a))
    ∧ (s.pwr.mode ≠ .unpowered → Completes .overvoltage s fun t => t.rb Reg.PWR_STAT 29 = true ∧ t.rb (Reg.PG_IST Reg.pgPWR) 4 = true
        ∧ s.sameRegs t [Reg.PWR_STAT, Reg.PG_IST Reg.pgPWR] ∧ s.sameTables t ∧ s.sameBytes t)
    ∧ (Completes .overvoltageClear s fun t => t.rb Reg.PWR_STAT 29 = false ∧ s.sameRegs t [Reg.PWR_STAT] ∧ s.sameTables t ∧ s.sameBytes t)
    ∧ (s.pwr.mode ≠ .unpowered → (up = true ∨ s.inSave = false) → Completes (.holdUpOk up) s fun t => t.rb Reg.PWR_STAT 30 = up
        ∧ (up = true → t.rb (Reg.PG_IST Reg.pgPWR) 3 = true) ∧ s.sameRegs t [Reg.PWR_STAT, Reg.PG_IST Reg.pgPWR]
        ∧ s.sameTables t ∧ s.sameBytes t)
    ∧ (s.pwr.charging = true → s.rb Reg.PWR_STAT 30 = false → s.pwr.chgAt + 600000000 ≤ s.mono → Completes .chargerTimeout s fun t =>
        t.rb Reg.PWR_STAT 27 = true ∧ t.rb (Reg.PG_IST Reg.pgPWR) 5 = true ∧ s.sameTables t ∧ s.sameBytes t)
    ∧ (s.pwr.charging = true → Completes (.capacitanceMeasurement n) s fun t =>
        t.rd Reg.PWR_CAPEST = BitVec.ofNat 32 (2 ^ 31 + capAt 0xFFFF (n / 400))
        ∧ (n / 400 < 176 → t.rb Reg.PWR_STAT 28 = true ∧ t.rb (Reg.PG_IST Reg.pgPWR) 6 = true)
        ∧ (176 ≤ n / 400 → s.sameRegs t [Reg.PWR_CAPEST]) ∧ s.sameTables t ∧ s.sameBytes t)

/-- Domains go to sleep when quiet and wake with their propagation; transceiver events, faults and limits act as written
(16_sleep_wake.md R441; 16_sleep_wake.md R442; 16_sleep_wake.md R443; 16_sleep_wake.md R444; 16_sleep_wake.md R445;
16_sleep_wake.md R447; 16_sleep_wake.md R448; 16_sleep_wake.md R451; 16_sleep_wake.md R452; 16_sleep_wake.md R458;
03_xanpel_link.md R84). -/
def Obligations.DomainsSleepAndWake : Prop :=
  ∀ (s : State) (init : Initiator) (v : Word) (k : Fin 8) (n : Fin 16) (doms : Fin 256) (f : CanFrame),
    (s.awakeDev = true → s.domAwake k = true → (∀ j ∈ s.domSegs k, s.segQuiet j = true) →
      (s.domSegs k).foldl (fun m j => max m (s.quietFrom j)) (s.domOf k).quietAt + s.rf (Reg.WKN_DOM_CFG k) 25 16 * 10000000 ≤ s.mono →
      Completes (.domainSleep k) s fun t => t.domAwake k = false ∧ (∀ j, j ≠ k.val → t.domAwake j = s.domAwake j)
        ∧ t.rb (Reg.PG_IST Reg.pgWKN) 4 = true ∧ s.sameTables t ∧ s.sameBytes t)
    ∧ (s.awakeDev = true → Completes (.domainWake doms) s fun t =>
        (∀ j, j < 8 → nbit doms j = true → s.domMem j ≠ 0 → t.domAwake j = true)
        ∧ (∀ i j, i < 8 → j < 8 → nbit doms i = true → (s.domOf i).awake = false → s.domMem i ≠ 0 →
          nbit (s.rf (Reg.WKN_DOM_CFG i) 7 0) j = true → s.domMem j ≠ 0 → t.domAwake j = true)
        ∧ (∀ j, s.domAwake j = true → t.domAwake j = true) ∧ s.sameTables t ∧ s.sameBytes t)
    ∧ (s.awakeDev = true → fld v 7 0 ≠ 0 → Completes (.wakeRequest init v) s fun t =>
        (∀ j, j < 8 → bitOf v j = true → (t.domOf j).awake = true ∧ (t.domOf j).quietAt = s.mono) ∧ s.sameTables t ∧ s.sameBytes t)
    ∧ (∀ sq m rest j, s.linkUp = true → s.xpl.evY.q = (sq, 9, m) :: rest → s.xpl.evK.lastRx ≠ some sq → s.awakeDev = true →
      s.domainOf m = some j → Completes .routeDemand s fun t => t.xpl.evK.lastRx = some sq
        ∧ (s.domAwake j = true → (t.domOf j).quietAt = s.mono ∧ t.domAwake j = true)
        ∧ (s.domAwake j = false → s.rb (Reg.WKN_DOM_CFG j) 31 = true → s.domMem j ≠ 0 → t.domAwake j = true)
        ∧ s.sameTables t ∧ s.sameBytes t)
    ∧ (s.awakeDev = true → s.rf Reg.WKN_CTL 23 16 ≠ 0 → s.linkUp = false → s.wkn.fsDone = false →
      s.wkn.downAt + s.rf Reg.WKN_CTL 23 16 * 1000000 ≤ s.mono → Completes .failSafe s fun t =>
        (∀ j, j < 8 → t.domAwake j = false) ∧ t.wkn.fsDone = true ∧ t.rb (Reg.PG_IST Reg.pgWKN) 6 = true
        ∧ t.rd Reg.WKN_FSCNT = BitVec.ofNat 32 (capAt 0xFFFFFFFF ((s.rd Reg.WKN_FSCNT).toNat + 1)) ∧ s.sameTables t ∧ s.sameBytes t)
    ∧ (∀ i t0 b, s.awakeDev = true → s.domAwake k = true → (s.domOf k).asked = false → (s.domOf k).reported = false →
      s.rf Reg.WKN_CTL 31 24 ≠ 0 → i ∈ s.domTrx k → b = (s.domSegs k).foldl (fun m j => max m (amGetD 0 s.wkn.holdEnd j)) (s.domOf k).wokeAt → amGet s.wkn.ka i = some t0 → b ≤ t0 →
      (∀ j ∈ s.domSegs k, s.rb Reg.WKN_HOLD j = false) → b + s.rf Reg.WKN_CTL 31 24 * 10000000000 ≤ s.mono →
      Completes (.stayLimit k) s fun t => (t.domOf k).reported = true ∧ t.rb (Reg.PG_IST Reg.pgWKN) 7 = true
        ∧ t.rd Reg.WKN_STAYID = BitVec.ofNat 32 ((s.domOf k).lastKa.2 % 2 ^ 29)
        ∧ t.rd Reg.WKN_STAYCNT = BitVec.ofNat 32 (capAt 0xFFFFFFFF ((s.rd Reg.WKN_STAYCNT).toNat + 1))
        ∧ (s.rb Reg.WKN_CTL 6 = false → t.domAwake k = true) ∧ s.sameTables t ∧ s.sameBytes t)
    ∧ (s.trxState n ≠ 0 → f.rtr = false → f.fmt = .cc →
      (s.rb (Reg.TRX_CFG n) 24 = true ∨ (f.ide = s.rb (Reg.TRX_KAID n) 29
        ∧ f.ident &&& s.rf (Reg.TRX_KAMASK n) 28 0 = s.rf (Reg.TRX_KAID n) 28 0 &&& s.rf (Reg.TRX_KAMASK n) 28 0)) →
      Completes (.keepAliveFrame n f) s fun t => t.rd (Reg.TRX_KACNT n) = s.rd (Reg.TRX_KACNT n) + 1
        ∧ t.rd (Reg.TRX_KALAST n) = BitVec.ofNat 32 (2 ^ 31 + f.ide.toNat * 2 ^ 29 + f.ident) ∧ amGet t.wkn.ka n = some s.mono
        ∧ s.sameRegs t [Reg.TRX_KACNT n, Reg.TRX_KALAST n, Reg.PG_IST (Reg.pgTRX n)] ∧ s.sameTables t ∧ s.sameBytes t)
    ∧ (s.trxState n ≠ 0 → Completes (.txdDominantTimeout n) s fun t => t.rb (Reg.TRX_STAT n) 31 = true ∧ t.rb (Reg.PG_IST (Reg.pgTRX n)) 3 = true
        ∧ (s.xpl.kykLock = none → t.trxMode n = 1 ∧ s.sameRegs t [Reg.TRX_CTL n, Reg.TRX_STAT n, Reg.PG_IST (Reg.pgTRX n)])
        ∧ (s.xpl.kykLock ≠ none → n.val ∈ t.wkn.rxWait ∧ s.sameRegs t [Reg.TRX_STAT n, Reg.PG_IST (Reg.pgTRX n)])
        ∧ s.sameTables t ∧ s.sameBytes t)
    ∧ (s.trxState n ≠ 0 → Completes (.thermalShutdown n) s fun t => t.rb (Reg.TRX_STAT n) 30 = true ∧ t.rb (Reg.PG_IST (Reg.pgTRX n)) 4 = true
        ∧ (s.xpl.kykLock = none → t.trxMode n = 1 ∧ s.sameRegs t [Reg.TRX_CTL n, Reg.TRX_STAT n, Reg.PG_IST (Reg.pgTRX n)])
        ∧ (s.xpl.kykLock ≠ none → n.val ∈ t.wkn.rxWait ∧ s.sameRegs t [Reg.TRX_STAT n, Reg.PG_IST (Reg.pgTRX n)])
        ∧ s.sameTables t ∧ s.sameBytes t)
    ∧ (∀ tsd, Completes (.transceiverFaultClear n tsd) s fun t => t.rb (Reg.TRX_STAT n) (if tsd then 30 else 31) = false
        ∧ t.rb (Reg.TRX_STAT n) (if tsd then 31 else 30) = s.rb (Reg.TRX_STAT n) (if tsd then 31 else 30)
        ∧ s.sameRegs t [Reg.TRX_STAT n] ∧ s.sameTables t ∧ s.sameBytes t)
    ∧ (s.trxState n = 1 →
      (s.trxWake n = 1 → Completes (.wakeUpPattern n) s fun t => t.rb (Reg.PG_IST (Reg.pgTRX n)) 0 = true
        ∧ t.rb (Reg.TRX_STAT n) 29 = false ∧ (s.pwr.mode = .sleep → s.wkn.commit = false → t.pwr.mode = .up 2)
        ∧ s.sameTables t ∧ s.sameBytes t)
      ∧ (s.trxWake n = 2 → f.fmt = .cc → s.wufMatch n f = true → Completes (.decoderFrame n false f) s fun t =>
        t.rd (Reg.TRX_WUFCNT n) = s.rd (Reg.TRX_WUFCNT n) + 1 ∧ t.rb (Reg.PG_IST (Reg.pgTRX n)) 1 = true
        ∧ t.rf (Reg.TRX_STAT n) 12 8 = s.rf (Reg.TRX_STAT n) 12 8 - 1
        ∧ (s.pwr.mode = .sleep → s.wkn.commit = false → t.pwr.mode = .up 2) ∧ s.sameTables t ∧ s.sameBytes t)
      ∧ (s.trxWake n = 2 → f.fmt = .cc → s.rf (Reg.TRX_STAT n) 12 8 < 31 → Completes (.decoderFrame n true f) s fun t =>
        t.rf (Reg.TRX_STAT n) 12 8 = s.rf (Reg.TRX_STAT n) 12 8 + 1 ∧ t.pwr = s.pwr
        ∧ s.sameRegs t [Reg.TRX_STAT n] ∧ s.sameTables t ∧ s.sameBytes t)
      ∧ Completes (.autonomousBiasTimeout n) s fun t => t.rb (Reg.TRX_STAT n) 29 = true
        ∧ s.sameRegs t [Reg.TRX_STAT n] ∧ s.sameTables t ∧ s.sameBytes t)

/-- The owner's sleep request commits or is refused with its cause; wake sources wake the device; event messages are taken once
(16_sleep_wake.md R449; 16_sleep_wake.md R450; 16_sleep_wake.md R453; 16_sleep_wake.md R454; 16_sleep_wake.md R455;
16_sleep_wake.md R456; 16_sleep_wake.md R459). -/
def Obligations.TheDeviceSleepsAndWakes : Prop :=
  ∀ (s : State) (init : Initiator) (v : Word) (i : Fin 6) (b : Bool),
    (bitOf v 31 = true → s.pwr.mode = .active → s.wkn.commit = false → ∀ own, own = (if s.rf Reg.WKN_CTL 1 0 = 0 then
        init == .host || init == .dma else init == .laurel) →
      (own = true → s.wkBlock = 0 → Completes (.sleepRequest init v) s fun t => t.wkn.commit = true ∧ t.pwr.mode = .down 1
        ∧ t.pwr.held = true ∧ t.pwr.cause = (1, 0) ∧ t.pwr.dramEn = false ∧ t.wkn.late = [])
      ∧ ((own = false ∨ s.wkBlock ≠ 0) → Completes (.sleepRequest init v) s fun t => t.pwr = s.pwr ∧ t.wkn.commit = false
        ∧ t.rd Reg.WKN_ABORT = BitVec.ofNat 32 (2 ^ 31 + if own then s.wkBlock else 8) ∧ t.rb (Reg.PG_IST Reg.pgWKN) 1 = true
        ∧ t.rd Reg.WKN_ABORTCNT = BitVec.ofNat 32 (capAt 0xFFFFFFFF ((s.rd Reg.WKN_ABORTCNT).toNat + 1))
        ∧ s.sameTables t ∧ s.sameBytes t))
    ∧ (∀ (src : Fin 16) (ix : Fin 32), s.wkn.commit = true → 1 ≤ src.val → src.val ≤ 9 → Completes (.lateWake src ix) s fun t =>
        t.wkn.late = s.wkn.late ++ [((src : Nat), (ix : Nat), s.srcDoms src ix)] ∧ t.pwr = s.pwr
        ∧ s.sameRegs t [] ∧ s.sameTables t ∧ s.sameBytes t)
    ∧ (∀ src ix d rest, s.wkn.late = (src, ix, d) :: rest → src < 16 → ix < 64 → (s.pwr.mode = .sleep ∨ s.pwr.mode = .off) →
      s.pwr.at_ + 2000000 ≤ s.mono → Completes .wakeDwellEnd s fun t => t.pwr.mode = .up 2 ∧ t.wkn.commit = false ∧ t.wkn.late = []
        ∧ t.rb Reg.WKN_WCAUSE 30 = true ∧ t.rf Reg.WKN_WCAUSE 25 22 = src ∧ t.rf Reg.WKN_WCAUSE 21 16 = ix
        ∧ t.rd Reg.WKN_LATECNT = BitVec.ofNat 32 (capAt 0xFFFFFFFF ((s.rd Reg.WKN_LATECNT).toNat + 1)) ∧ s.sameTables t ∧ s.sameBytes t)
    ∧ (s.lwMode i ≠ 0 → Completes (.lwakeEvent i b) s fun t =>
        t.rb Reg.WKN_STAT (8 + i) = (if s.lwMode i = 2 ∨ s.lwMode i = 5 then !b else b)
        ∧ ((s.lwMode i = 3 ∨ (if s.lwMode i = 2 ∨ s.lwMode i = 5 then !b else b) = true) → s.wkn.commit = false →
          (s.pwr.mode = .sleep ∨ s.pwr.mode = .off → t.pwr.mode = .up 2 ∧ t.rf Reg.WKN_WCAUSE 25 22 = 1
            ∧ t.rf Reg.WKN_WCAUSE 21 16 = i)
          ∧ (s.pwr.mode = .active → ∀ j, j < 8 → nbit (s.rf (Reg.WKN_LWCFG i) 7 0) j = true → s.domMem j ≠ 0 → t.domAwake j = true))
        ∧ s.sameTables t ∧ s.sameBytes t)
    ∧ (Completes (.lwakeLevelEnd i) s fun t => t.rb Reg.WKN_STAT (8 + i) = false ∧ t.pwr = s.pwr
        ∧ s.sameRegs t [Reg.WKN_STAT, Reg.PG_IST Reg.pgWKN] ∧ s.sameTables t ∧ s.sameBytes t)
    ∧ (s.wlDrives = false → s.wkn.lnRel = none → s.pwr.mode ≠ .unpowered → s.pwr.mode ≠ .off → Completes .wakeLnAssert s fun t =>
        (s.rb Reg.WKN_CTL 3 = false → t.rb Reg.WKN_STAT 30 = true ∧ t.pwr = s.pwr)
        ∧ (s.rb Reg.WKN_CTL 3 = true → s.pwr.mode = .sleep → s.wkn.commit = false → t.pwr.mode = .up 2
          ∧ t.rf Reg.WKN_WCAUSE 25 22 = 2) ∧ s.sameTables t ∧ s.sameBytes t)
    ∧ (∀ t0, s.wkn.lnRel = some t0 → t0 + s.rf Reg.WKN_WLCFG 23 16 * 1000000 ≤ s.mono → s.wkn.lnDrv = s.wlDrives →
      s.rb Reg.WKN_CTL 3 = false → Completes (.wakeLnReleaseWaitEnd b) s fun t => t.wkn.lnRel = none ∧ t.rb Reg.WKN_STAT 30 = b
        ∧ t.pwr = s.pwr ∧ s.sameTables t ∧ s.sameBytes t)
    ∧ (Completes .wakeLnReleaseSeen s fun t => t.rb Reg.WKN_STAT 30 = false ∧ t.pwr = s.pwr
        ∧ s.sameRegs t [Reg.WKN_STAT, Reg.PG_IST Reg.pgWKN] ∧ s.sameTables t ∧ s.sameBytes t)
    ∧ (s.rb Reg.WKN_RTCALM_HI 31 = true → s.rtc = (s.rd Reg.WKN_RTCALM_LO).toNat + s.rf Reg.WKN_RTCALM_HI 15 0 * 2 ^ 32 →
      s.wkn.commit = false → (s.pwr.mode = .sleep ∨ s.pwr.mode = .off) → Completes .rtcAlarm s fun t => t.pwr.mode = .up 2
        ∧ t.rf Reg.WKN_WCAUSE 25 22 = 8 ∧ t.rd Reg.WKN_WRTC_LO = BitVec.ofNat 32 s.rtc ∧ s.sameTables t ∧ s.sameBytes t)
    ∧ (s.awakeDev = true → s.wkn.lnDrv = s.wlDrives → Completes .minimumAwakeExpiry s fun t => t.wkn.agree = (s.wkBlock == 0)
        ∧ (s.wkn.agree ≠ (s.wkBlock == 0) → t.rb (Reg.PG_IST Reg.pgWKN) 0 = true)
        ∧ s.sameRegs t [Reg.PG_IST Reg.pgWKN] ∧ s.sameTables t ∧ s.sameBytes t)
    ∧ (∀ sq ty d rest, s.linkUp = true → s.xpl.evK.q = (sq, ty, d) :: rest → s.xpl.evY.lastRx ≠ some sq →
      ∀ c, (c = .wakeEventMsg ∧ ty = 2 ∨ c = .domainEventMsg ∧ ty = 3 ∨ c = .sleepabortMsg ∧ ty = 4 ∨ c = .agreeMsg ∧ ty = 5
        ∨ c = .failsafeMsg ∧ ty = 6 ∨ c = .stayMsg ∧ ty = 7 ∨ c = .trxfaultMsg ∧ ty = 8) → Completes c s fun t =>
        t.xpl.evY.lastRx = some sq ∧ t.xpl.evK.q = s.xpl.evK.q ∧ t.wkn = s.wkn ∧ t.pwr = s.pwr ∧ s.sameTables t ∧ s.sameBytes t)
    ∧ (∀ (sq : Fin 8) ty d rest, s.linkUp = true →
      (s.xpl.evY.q = ((sq : Nat), ty, d) :: rest → s.xpl.evK.lastRx = some (sq : Nat) → Completes (.eventAck .toYatric sq) s fun t =>
        t.xpl.evY.q = rest ∧ s.sameTables t ∧ s.sameBytes t)
      ∧ (s.xpl.evK.q = ((sq : Nat), ty, d) :: rest → s.xpl.evY.lastRx = some (sq : Nat) → Completes (.eventAck .toKykel sq) s fun t =>
        (∃ x, t.xpl.evK.q = rest ++ x) ∧ s.sameTables t ∧ s.sameBytes t))

/-- Reset requests and the watchdog reset the Yatric die; the boot restores, verifies, applies, commits and starts the firmware
(17_startup_reset.md R462; 17_startup_reset.md R464; 17_startup_reset.md R465; 17_startup_reset.md R466; 17_startup_reset.md R467;
17_startup_reset.md R468; 17_startup_reset.md R469; 17_startup_reset.md R471; 17_startup_reset.md R472; 17_startup_reset.md R475;
19_firmware_update.md R505; 19_firmware_update.md R507). -/
def Obligations.ResetsTakeEffectAndTheDeviceBoots : Prop :=
  ∀ (s : State) (init : Initiator) (v : Word) (qspiBad : Option Nat), s.pwr.held = false →
    (s.isUnlocked init Reg.CHIP_RSTCTL = true → (init = .host ∨ init = .laurel) → bitOf v 31 = true → s.pwr.req = none →
      (fld v 1 0 = 1 → Completes (.coldResetRequest init v) s fun t =>
        t.pwr = { s.pwr with req := some (3, (init == .laurel).toNat) } ∧ s.sameRegs t [Reg.CHIP_RSTCTL] ∧ s.sameTables t ∧ s.sameBytes t)
      ∧ (fld v 1 0 = 2 → Completes (.warmResetRequest init v) s fun t =>
        t.pwr = { s.pwr with req := some (4, (init == .laurel).toNat) } ∧ s.sameRegs t [Reg.CHIP_RSTCTL] ∧ s.sameTables t ∧ s.sameBytes t)
      ∧ (fld v 1 0 = 3 → Completes (.hifResetRequest init v) s fun t => t.hq = [] ∧ t.chan = [] ∧ t.bme = false ∧ t.d3 = false
        ∧ t.vecMask = List.range 128 ∧ t.pba = [] ∧ t.pwr = s.pwr ∧ (∀ a, pageBase a = Reg.pgHQ → t.rd a = resetWord a) ∧ s.sameBytes t))
    ∧ (Completes .hifReset s fun t => t.hq = [] ∧ t.chan = [] ∧ t.bme = false ∧ t.d3 = false ∧ t.vecMask = List.range 128
        ∧ t.pba = [] ∧ (∀ a, pageBase a = Reg.pgHQ → t.rd a = resetWord a) ∧ (∀ a, pageBase a = Reg.pgDMA → t.rd a = resetWord a)
        ∧ t.pwr = s.pwr ∧ s.sameTables t ∧ s.sameBytes t)
    ∧ (∀ src, s.rf Reg.PWR_STAT 1 0 ≠ 1 →
      (s.pwr.req = some (3, src) → Completes .coldReset s fun t => t.pwr.cause = (3, src) ∧ t.pwr.boots = s.pwr.boots + 1 ∧ t.pwr.req = none
        ∧ t.pwr.held = false ∧ s.tablesInvalid t ∧ t.prv = State.base.prv ∧ t.dram = [] ∧ (∀ a, memRd t.mram a = memRd s.keyopCut.mram a)
        ∧ (∀ a, isKykel a = false → t.rd a = resetWord a)
        ∧ (∀ a, keptReg a = true → a ≠ Reg.PWR_SAVECTL → t.rd a = s.rd a) ∧ t.rb Reg.PWR_SAVECTL 8 = false)
      ∧ (s.pwr.req = some (4, src) → Completes .warmReset s fun t => t.pwr.cause = (4, src) ∧ t.pwr.boots = s.pwr.boots + 1 ∧ t.pwr.req = none
        ∧ t.pwr.held = false ∧ s.tablesInvalid t ∧ t.prv = State.base.prv ∧ t.dram = s.dram ∧ (∀ a, memRd t.mram a = memRd s.keyopCut.mram a)
        ∧ (∀ a, isKykel a = false → t.rd a = resetWord a)
        ∧ (∀ a, keptReg a = true → a ≠ Reg.PWR_SAVECTL → t.rd a = s.rd a) ∧ t.rb Reg.PWR_SAVECTL 8 = false)
      ∧ (s.rf Reg.CHIP_WDT 15 0 ≠ 0 → s.boot.wdAt + s.rf Reg.CHIP_WDT 15 0 * 1000000 ≤ s.now → Completes .watchdogExpiry s fun t =>
        t.pwr.cause = (4, 2) ∧ t.pwr.boots = s.pwr.boots + 1 ∧ t.boot.wdAt = t.now ∧ s.tablesInvalid t ∧ t.dram = s.dram
        ∧ (∀ a, isKykel a = false → t.rd a = resetWord a) ∧ (∀ a, memRd t.mram a = memRd s.keyopCut.mram a)))
    ∧ (Completes (.watchdogKick init v) s fun t =>
        t.boot = { s.boot with wdAt := if init = .laurel ∧ bitOf v 0 = true then s.now else s.boot.wdAt }
        ∧ s.sameRegs t [] ∧ s.sameTables t ∧ s.sameBytes t)
    ∧ (s.boot.stage = 0 → s.inSave = false → s.linkUp = true → s.keysReady = true → Completes .bootRestore s fun t =>
        t.boot.stage = 1 ∧ t.rb Reg.PWR_SAVECTL 8 = true ∧ t.rb Reg.TSY_OWN 0 = true
        ∧ (∀ i, s.saveChosen = some i → t.saveState i = 7) ∧ (s.saveChosen = none → ∀ a, memRd t.mram a = memRd s.mram a))
    ∧ (s.boot.stage = 1 →
      (beAt (memRdN s.mram crBase 4096) 0 4 ≠ 0x43524931 → Completes (.coldRouteVerify qspiBad) s fun t =>
        t.rd Reg.CHIP_BOOTERR = BitVec.ofNat 32 (2 ^ 31 + 2 ^ 16) ∧ t.rf Reg.CHIP_BOOTSTAT 27 24 = 4 ∧ t.rb Reg.CHIP_BOOTSTAT 31 = true
        ∧ t.boot.stage = 5 ∧ s.sameTables t ∧ s.sameBytes t)
      ∧ (∀ c, s.crCheck (s.crStored qspiBad) (memRdN s.mram crBase 4096) = .ok c → s.crBroken = false →
        Completes (.coldRouteVerify qspiBad) s fun t => t.boot.stage = 2 ∧ t.boot.stream = c.stream ∧ t.boot.plan = c.plan
        ∧ t.boot.gmask = c.gmask ∧ t.boot.trxrel = c.trxrel ∧ t.rf Reg.CHIP_BOOTSTAT 27 24 = 2
        ∧ s.sameRegs t [Reg.CHIP_BOOTSTAT] ∧ s.sameTables t ∧ (∀ a, memRd t.mram a = memRd s.mram a)))
    ∧ (s.boot.stage = 2 → ∀ l, crRecs s.boot.stream = .ok l → Completes .coldRouteApply s fun t =>
        ((s.crApplyAll l).2 = true → t.boot.stage = 3 ∧ t.boot.stream = [] ∧ ∀ a, t.rd a = (s.crApplyAll l).1.rd a)
        ∧ ((s.crApplyAll l).2 = false → t.boot.stage = 5 ∧ t.rf Reg.CHIP_BOOTSTAT 27 24 = 4
          ∧ t.rd Reg.CHIP_BOOTERR = BitVec.ofNat 32 (2 ^ 31 + 7 * 2 ^ 16))
        ∧ (∀ n w, n < 16 → s.linkUp = true → l = [.reg false (Reg.TRX_KAID n) w] → t.boot.stage = 3 ∧ t.rf (Reg.TRX_KAID n) 29 0 = fld w 29 0)
        ∧ (∀ n w, n < 16 → s.linkUp = true → l = [.reg true (Reg.TRX_SWID n) w] → t.boot.stage = 3 ∧ t.rf (Reg.TRX_SWID n) 29 0 = fld w 29 0)
        ∧ (∀ n w, n < 16 → s.isUnlocked .laurel (Reg.TRX_SWID n) = false → l = [.reg false (Reg.TRX_SWID n) w] → t.boot.stage = 5)
        ∧ (∀ n w, n < 16 → s.linkUp = false → l = [.reg false (Reg.TRX_KAID n) w] → t.boot.stage = 5))
    ∧ (s.boot.stage = 3 → s.linkUp = true → Completes .coldCommit s fun t =>
        (∀ n, n < 16 → nbit s.boot.trxrel n = true → t.rf (Reg.TRX_CTL n) 1 0 = 0)
        ∧ (s.rb Reg.CMT_STAT 0 = false → s.oldJobs = false → t.boot.stage = 5 ∧ t.rf Reg.CHIP_BOOTSTAT 27 24 = 3
          ∧ t.rb Reg.CHIP_BOOTSTAT 31 = true ∧ t.rd Reg.CMT_SEQ = s.rd Reg.CMT_SEQ + 1 ∧ t.rf Reg.CMT_STAT 13 12 = 1)
        ∧ (s.rb Reg.CMT_STAT 0 = false → s.oldJobs = true → t.boot.stage = 4 ∧ t.rb Reg.CMT_STAT 2 = true)
        ∧ (s.rb Reg.CMT_STAT 0 = true → t.boot.stage = 5 ∧ t.rf Reg.CHIP_BOOTSTAT 27 24 = 4))
    ∧ (s.boot.stage = 5 → s.inSave = false → Completes .firmwareStart s fun t => t.boot.stage = 6
        ∧ (s.rootZeroed = true → t.rf Reg.CHIP_BOOTSTAT 27 24 = 5 ∧ t.rb Reg.CHIP_BOOTSTAT 30 = false ∧ t.fwu.code = 6)
        ∧ (s.rootZeroed = false → s.journal.st ≠ 1 → s.journal.st ≠ 3 →
          (∀ e, s.fwCheck s.fwStored (memRdN s.mram fwBase 4096) = .error e →
            t.rf Reg.CHIP_BOOTSTAT 27 24 = 5 ∧ t.rb Reg.CHIP_BOOTSTAT 30 = false ∧ t.fwu.st = 6 ∧ t.fwu.code = 0xB)
          ∧ (∀ r, s.fwCheck s.fwStored (memRdN s.mram fwBase 4096) = .ok r →
            t.rb Reg.CHIP_BOOTSTAT 30 = true ∧ t.boot.fwVer = r.1 ∧ t.fwu = s.fwu)))

/-- A doorbell submits one request; each operation answers with its status and results; acknowledgment and event words
(18_management.md R477; 18_management.md R478; 18_management.md R479; 18_management.md R480; 18_management.md R484;
18_management.md R485; 18_management.md R489). -/
def Obligations.TheMailboxServesItsOperations : Prop :=
  ∀ (s : State) (init : Initiator) (v : Word),
    (s.pwr.held = false → bitOf v 0 = true → s.rb Reg.LRL_STAT 30 = false → s.rb Reg.LRL_STAT 29 = false →
      (s.srv = false ∨ mailKnown s.mailOp = true → Completes (.mailboxDoorbell init v) s fun t => t.rb Reg.LRL_STAT 30 = true
        ∧ s.sameRegs t [Reg.LRL_STAT] ∧ s.sameTables t ∧ s.sameBytes t)
      ∧ (s.srv = true → mailKnown s.mailOp = false → Completes (.mailboxDoorbell init v) s fun t => s.answers t 1 []
        ∧ s.sameRegs t mailRegs ∧ s.sameTables t ∧ s.sameBytes t))
    ∧ (s.pwr.held = false → bitOf v 0 = true → (s.rb Reg.LRL_STAT 30 = true ∨ s.rb Reg.LRL_STAT 29 = true) →
      Completes (.mailboxDoorbell init v) s fun t => t.rb (Reg.PG_IST Reg.pgLRL) 3 = true ∧ s.sameRegs t [Reg.PG_IST Reg.pgLRL]
        ∧ s.sameTables t ∧ s.sameBytes t)
    ∧ (s.pwr.held = false → bitOf v 0 = true → Completes (.responseAck init v) s fun t => t.rb Reg.LRL_STAT 29 = false
        ∧ s.sameRegs t [Reg.LRL_STAT] ∧ s.sameTables t ∧ s.sameBytes t)
    ∧ (s.pwr.held = false → amGet s.bus.latch (ikey init Reg.LRL_EVPOP) = none → Completes (.eventPop init) s fun t =>
        t.lrl = { s.lrl with ev := s.lrl.ev.drop 1 } ∧ (s.lrl.ev.drop 1 = [] → t.rb (Reg.PG_IST Reg.pgLRL) 1 = false)
        ∧ (∃ l, t.outbox = s.outbox ++ l ++ [.readData init 0 Reg.LRL_EVPOP [match s.lrl.ev with | [] => 0 | w :: _ => w]])
        ∧ s.sameRegs t [Reg.PG_IST Reg.pgLRL] ∧ s.sameTables t ∧ s.sameBytes t)
    ∧ (s.mailWaits 1 = true → Completes .ping s fun t => s.answers t 0 [if s.fwRun then s.boot.fwVer else 0, Config.loaderVersion.toNat]
        ∧ s.sameRegs t mailRegs ∧ t.lrl = s.lrl ∧ s.sameTables t ∧ s.sameBytes t)
    ∧ (s.mailWaits 2 = true → 1 ≤ s.rf (Reg.LRL_REQ 0) 3 0 →
      (∀ p e, s.mailReq 1 % 256 ≤ 6 → (s.sensor (s.mailReq 1 % 256)).val = some p → (s.sensor (s.mailReq 1 % 256)).ext = some e →
        Completes .sensorRead s fun t => s.answers t 0 [i32 p.1, i32 e.1, i32 e.2, p.2] ∧ t.lrl = s.lrl ∧ s.sameRegs t mailRegs)
      ∧ (s.mailReq 1 % 256 ≤ 6 → Completes .sensorRead s fun t => ∃ a b c d, s.answers t 0 [a, b, c, d])
      ∧ (6 < s.mailReq 1 % 256 → Completes .sensorRead s fun t => s.answers t 3 [] ∧ t.lrl = s.lrl ∧ s.sameRegs t mailRegs))
    ∧ (s.mailWaits 2 = true → s.rf (Reg.LRL_REQ 0) 3 0 = 0 → Completes .sensorRead s fun t => s.answers t 2 [] ∧ s.sameRegs t mailRegs)
    ∧ (s.mailWaits 3 = true → s.fwRun = true → 3 ≤ s.rf (Reg.LRL_REQ 0) 3 0 → s.mailReq 1 % 256 ≤ 6 → Completes .sensorLimit s fun t =>
        s.answers t 0 [] ∧ t.sensor (s.mailReq 1 % 256) = { s.sensor (s.mailReq 1 % 256) with
          lo := signed 32 (s.mailReq 2), hi := signed 32 (s.mailReq 3) } ∧ s.sameRegs t mailRegs ∧ s.sameTables t ∧ s.sameBytes t)
    ∧ (s.mailWaits 3 = true → s.fwRun = false → Completes .sensorLimit s fun t => s.answers t 1 [] ∧ t.lrl = s.lrl ∧ s.sameRegs t mailRegs)
    ∧ (s.mailWaits 4 = true → s.fwRun = true → 1 ≤ s.rf (Reg.LRL_REQ 0) 3 0 → s.mailReq 1 % 256 ≤ 6 → Completes .sensorClr s fun t =>
        s.answers t 0 [] ∧ t.sensor (s.mailReq 1 % 256) = { s.sensor (s.mailReq 1 % 256) with ext := none }
        ∧ s.sameRegs t mailRegs ∧ s.sameTables t ∧ s.sameBytes t)
    ∧ (s.mailWaits 5 = true → Completes .logInfo s fun t => (∃ a b, s.answers t 0 [a, b, s.lrl.tail.length, s.lrl.lostAll, s.lrl.passes]
          ∧ (∀ i, s.oldestSector = some i → a = s.sectorFirst i)) ∧ t.lrl = s.lrl ∧ s.sameRegs t mailRegs ∧ s.sameTables t ∧ s.sameBytes t)
    ∧ (s.mailWaits 6 = true → 1 ≤ s.rf (Reg.LRL_REQ 0) 3 0 →
      (s.logFind (s.mailReq 1) = none → Completes .logRead s fun t => s.answers t 5 [] ∧ s.sameRegs t mailRegs ∧ t.lrl = s.lrl)
      ∧ (∀ r, s.logFind (s.mailReq 1) = some r → Completes .logRead s fun t =>
          s.answers t 0 ((List.range 8).map (fun k => beAt r (4 * k) 4) ++ [(s.mailReq 1 + 1) % 2 ^ 32])
          ∧ s.sameRegs t mailRegs ∧ t.lrl = s.lrl ∧ s.sameBytes t))
    ∧ (s.mailWaits 7 = true →
      (s.inSave = false → s.lrl.lost = 0 → Completes .logFlush s fun t => t.lrl.tail = [] ∧ (∃ a, s.answers t 0 [a]) ∧ s.sameRegs t mailRegs
        ∧ (∀ a, memRd t.dram a = memRd s.dram a ∧ memRd t.hmem a = memRd s.hmem a)
        ∧ (∀ r, s.lrl.tail = [r] → r.length = 32 → s.lrl.slot < 127 → s.lrl.sector < 256 →
          memRdN t.mram (logSector s.lrl.sector + 32 + 32 * s.lrl.slot) 32 = r
          ∧ (s.lrl.slot < 126 → t.lrl.slot = s.lrl.slot + 1 ∧ t.lrl.sector = s.lrl.sector)
          ∧ (s.lrl.slot = 126 → t.lrl.slot = 0 ∧ t.lrl.sector = (s.lrl.sector + 1) % 256
            ∧ memRdN t.mram (logSector t.lrl.sector) 32 = logHeader ((s.lrl.sseq + 1) % 2 ^ 32) ((beAt r 0 4 + 1) % 2 ^ 32))))
      ∧ (s.inSave = true → Completes .logFlush s fun t => t = s))
    ∧ (s.mailWaits 9 = true → s.fwRun = true → 1 ≤ s.rf (Reg.LRL_REQ 0) 3 0 → s.mailReq 1 ≤ 23 → Completes .boffStat s fun t =>
        s.answers t 0 [(s.boffOf (s.mailReq 1)).recov % 2 ^ 32, (s.boffOf (s.mailReq 1)).run % 2 ^ 32, (s.boffOf (s.mailReq 1)).hand % 2 ^ 32]
        ∧ t.lrl = s.lrl ∧ s.sameRegs t mailRegs ∧ s.sameTables t ∧ s.sameBytes t)
    ∧ (s.mailWaits 8 = true → s.fwRun = true → 2 ≤ s.rf (Reg.LRL_REQ 0) 3 0 → s.lrl.reclaim = none →
      (reclaimOk (s.mailReq 1 / 2 ^ 24) (s.mailReq 1 % 65536) = false → Completes .reclaim s fun t => s.answers t 3 []
        ∧ s.sameRegs t mailRegs ∧ t.lrl = s.lrl)
      ∧ (∀ n, n < 52 → s.mailReq 1 / 2 ^ 24 = 1 → s.mailReq 1 % 65536 = n →
        (s.rb (Reg.DMACH_STAT n) 29 = false → Completes .reclaim s fun t => t.rb (Reg.DMACH_STAT n) 29 = true
          ∧ t.rb (Reg.DMACH_CTL n) 0 = false ∧ t.lrl.reclaim = some (1, n) ∧ t.rb Reg.LRL_STAT 30 = true ∧ s.sameTables t ∧ s.sameBytes t)
        ∧ (s.rb (Reg.DMACH_STAT n) 29 = true → Completes .reclaim s fun t => s.answers t 4 [] ∧ t.lrl.reclaim = none)))
    ∧ (∀ n, s.lrl.reclaim = some (1, n) → s.rb (Reg.DMACH_STAT n) 29 = false → Completes .reclaim s fun t => s.answers t 0 []
        ∧ t.lrl.reclaim = none ∧ s.sameRegs t mailRegs ∧ s.sameTables t ∧ s.sameBytes t)

/-- Sensor samples and their records, the tail's writing, the bus-off policy with its hand-over, and the watched sources
(18_management.md R480; 18_management.md R481; 18_management.md R484; 18_management.md R486; 18_management.md R487;
18_management.md R490; 04_can_controllers.md R126). -/
def Obligations.LaurelSamplesLogsWatchesAndRecovers : Prop :=
  ∀ (s : State) (vals : List Int) (n : Fin 24),
    (s.srv = true → s.lrl.sampleAt + 1000000 ≤ s.now → Completes (.sensorSample vals) s fun t => t.lrl.sampleAt = s.now
        ∧ (∀ x, vals[0]? = some x → (t.sensor 0).val = some (signed 32 (unsigned 32 x), s.stamp32)
          ∧ ((s.sensor 0).ext = none → (t.sensor 0).ext = some (signed 32 (unsigned 32 x), signed 32 (unsigned 32 x)))
          ∧ (∀ a b, (s.sensor 0).ext = some (a, b) →
            (t.sensor 0).ext = some (min a (signed 32 (unsigned 32 x)), max b (signed 32 (unsigned 32 x))))
          ∧ ((s.sensor 0).out = false → (s.sensor 0).hiSide = true → (s.sensor 0).run = 2 → (s.sensor 0).lo ≤ (s.sensor 0).hi →
            (s.sensor 0).hi < signed 32 (unsigned 32 x) → (t.sensor 0).out = true ∧ (t.sensor 0).run = 0))
        ∧ (t.sensor 2).val = some (((fld (Config.measured Reg.PWR_VMEAS (s.mono / 1000000)) 15 0 : Nat) : Int), s.stamp32)
        ∧ s.sameRegs t [Reg.PG_IST Reg.pgLRL] ∧ s.sameTables t ∧ s.sameBytes t)
    ∧ (s.inSave = false → s.lrl.lost = 0 → (127 ≤ s.lrl.tail.length ∨ (s.lrl.tail ≠ [] ∧ s.lrl.tailAt + 1000000000 ≤ s.now)) →
      Completes .logTailWrite s fun t => t.lrl.tail = [] ∧ s.sameRegs t [] ∧ s.sameTables t
        ∧ (∀ a, memRd t.dram a = memRd s.dram a ∧ memRd t.hmem a = memRd s.hmem a))
    ∧ (s.lrl.tail.length < 127 → s.now < s.lrl.tailAt + 1000000000 → Completes .logTailWrite s fun t => t = s)
    ∧ (s.srv = true → s.canState n = 4 → (s.boffOf n).seen ≠ some (s.canOf n).boffAt →
      ∀ run, run = (if (s.rd (Reg.CANC_TXOK n)).toNat = (s.boffOf n).txok then (s.boffOf n).run else 0) →
      (s.boffLaurel n = false → Completes (.busOffPolicy n) s fun t => (t.boffOf n).seen = some (s.canOf n).boffAt
        ∧ (t.boffOf n).run = run ∧ (t.boffOf n).wait = (s.boffOf n).wait ∧ s.sameRegs t [Reg.PG_IST Reg.pgLRL] ∧ s.sameTables t ∧ s.sameBytes t)
      ∧ (s.boffLaurel n = true → (s.rf (Reg.CANC_BOFFPOL n) 23 16 = 0 ∨ run < s.rf (Reg.CANC_BOFFPOL n) 23 16) →
        Completes (.busOffPolicy n) s fun t => (t.boffOf n).wait = some s.now ∧ (t.boffOf n).run = run ∧ s.sameRegs t []
          ∧ s.sameTables t ∧ s.sameBytes t)
      ∧ (s.boffLaurel n = true → s.rf (Reg.CANC_BOFFPOL n) 23 16 ≠ 0 → s.rf (Reg.CANC_BOFFPOL n) 23 16 ≤ run →
        Completes (.busOffPolicy n) s fun t => t.rf (Reg.CANC_BOFFPOL n) 1 0 = 0 ∧ (t.boffOf n).hand = (s.boffOf n).hand + 1
          ∧ t.rb (Reg.PG_IST Reg.pgLRL) 4 = true ∧ s.sameRegs t [Reg.CANC_BOFFPOL n, Reg.PG_IST Reg.pgLRL] ∧ s.sameTables t ∧ s.sameBytes t))
    ∧ (∀ t0, (s.boffOf n).wait = some t0 → t0 + min 9 (s.rf (Reg.CANC_BOFFPOL n) 11 8) * 100000 ≤ s.now → s.pwr.held = false →
      (s.canState n = 4 → s.boffLaurel n = true → s.canOp n ≠ 0 → Completes (.laurelRecoveryDelay n) s fun t => t.canState n = 5
        ∧ (t.boffOf n).wait = none ∧ (t.boffOf n).run = (s.boffOf n).run + 1 ∧ (t.boffOf n).recov = (s.boffOf n).recov + 1
        ∧ (t.boffOf n).txok = (s.rd (Reg.CANC_TXOK n)).toNat ∧ s.sameTables t ∧ s.sameBytes t)
      ∧ (s.canState n ≠ 4 → Completes (.laurelRecoveryDelay n) s fun t => (t.boffOf n).wait = none ∧ (t.boffOf n).run = (s.boffOf n).run
        ∧ s.sameRegs t [] ∧ s.sameTables t ∧ s.sameBytes t))
    ∧ (s.srv = true → s.fwRun = true → s.rb Reg.LRL_CTL 0 = true →
      s.lrl.pollAt + max 1 (s.rf Reg.LRL_CTL 31 24) * 1000000 ≤ s.now → Completes .watchPoll s fun t => t.lrl.pollAt = s.now
        ∧ (∀ w, w ∈ watches → s.watchFree w.cnt = true → amGetD 0 t.lrl.watch w.cnt = (s.rd w.cnt).toNat)
        ∧ (∀ w, w ∈ watches → s.watchFree w.cnt = false → amGetD 0 t.lrl.watch w.cnt = amGetD 0 s.lrl.watch w.cnt)
        ∧ s.sameRegs t [Reg.PG_IST Reg.pgLRL] ∧ s.sameTables t ∧ s.sameBytes t)

/-- STAGE, ACTIVATE and CANCEL move the session, verification ends in STAGED or FAILED, and the copy is journalled block by block
(19_firmware_update.md R495; 19_firmware_update.md R497; 19_firmware_update.md R499; 19_firmware_update.md R500;
19_firmware_update.md R501; 19_firmware_update.md R502; 19_firmware_update.md R503; 19_firmware_update.md R504;
19_firmware_update.md R505; 19_firmware_update.md R506). -/
def Obligations.FirmwareIsStagedActivatedAndCopied : Prop :=
  ∀ s : State,
    (s.mailWaits 0x20 = true → Completes .fwStatus s fun t =>
        s.answers t 0 [s.fwu.st * 2 ^ 24 + s.fwu.code * 2 ^ 16 + s.fwu.comp * 2 ^ 8, s.fwu.imgid, s.fwu.copied, s.fwu.nblk, s.fwMin, s.crMin,
          s.settingsFmt, Config.loaderVersion.toNat] ∧ t.fwu = s.fwu ∧ s.sameRegs t mailRegs ∧ s.sameTables t ∧ s.sameBytes t)
    ∧ (s.mailWaits 0x21 = true → 3 ≤ s.rf (Reg.LRL_REQ 0) 3 0 →
      ((s.fwu.st = 1 ∨ s.fwu.st = 3 ∨ s.fwu.st = 4) → Completes .stage s fun t => s.answers t 4 [] ∧ t.fwu = s.fwu ∧ s.sameRegs t mailRegs)
      ∧ (s.fwu.st ≠ 1 → s.fwu.st ≠ 3 → s.fwu.st ≠ 4 →
        ((s.mailReq 1 % 256 = 1 ∨ s.mailReq 1 % 256 = 2) → s.stageOk (s.mailReq 2) (s.mailReq 3) = true → Completes .stage s fun t =>
          s.answers t 0 [] ∧ t.fwu = { st := 1, comp := s.mailReq 1 % 256, doff := s.mailReq 2, len := s.mailReq 3 }
          ∧ s.sameRegs t mailRegs ∧ s.sameTables t ∧ s.sameBytes t)
        ∧ (((s.mailReq 1 % 256 ≠ 1 ∧ s.mailReq 1 % 256 ≠ 2) ∨ s.stageOk (s.mailReq 2) (s.mailReq 3) = false) → Completes .stage s fun t =>
          s.answers t 3 [] ∧ t.fwu = s.fwu ∧ s.sameRegs t mailRegs)))
    ∧ (s.mailWaits 0x22 = true → 4 ≤ s.rf (Reg.LRL_REQ 0) 3 0 →
      (s.fwu.st ≠ 2 → Completes .activate s fun t => s.answers t 4 [] ∧ t.fwu = s.fwu ∧ s.sameRegs t mailRegs)
      ∧ (s.fwu.st = 2 → 999999999 < s.mailReq 4 → Completes .activate s fun t => s.answers t 3 [] ∧ t.fwu = s.fwu ∧ s.sameRegs t mailRegs)
      ∧ (s.fwu.st = 2 → s.mailReq 4 ≤ 999999999 → nbit (s.mailReq 1) 0 = false → Completes .activate s fun t => s.answers t 0 []
        ∧ t.fwu = { s.fwu with st := 4, code := 0, copied := 0, target := none } ∧ t.rb Reg.CHIP_BOOTSTAT 30 = false
        ∧ (s.inSave = false → t.journal.st = 1 ∧ t.journal.next = 0) ∧ (s.inSave = true → s.sameBytes t)
        ∧ s.sameRegs t (Reg.CHIP_BOOTSTAT :: mailRegs) ∧ s.sameTables t)
      ∧ (s.fwu.st = 2 → s.mailReq 4 ≤ 999999999 → nbit (s.mailReq 1) 0 = true →
        ∀ x, x = (s.mailReq 2 + s.mailReq 3 % 65536 * 2 ^ 32) * 1000000000 + s.mailReq 4 →
        (s.tsy.full < x → Completes .activate s fun t => s.answers t 0 [] ∧ t.fwu = { s.fwu with st := 3, target := some x }
          ∧ s.sameRegs t mailRegs ∧ s.sameTables t ∧ s.sameBytes t)
        ∧ (x ≤ s.tsy.full → Completes .activate s fun t => s.answers t 0 []
          ∧ t.fwu = { s.fwu with st := 4, code := 0, copied := 0, target := none } ∧ t.rb Reg.CHIP_BOOTSTAT 30 = false)))
    ∧ (s.mailWaits 0x23 = true →
      (s.fwu.st = 4 → Completes .cancel s fun t => s.answers t 4 [] ∧ t.fwu = s.fwu)
      ∧ ((s.fwu.st = 1 ∨ s.fwu.st = 2 ∨ s.fwu.st = 3) → Completes .cancel s fun t => s.answers t 0 []
        ∧ t.fwu = { s.fwu with st := 6, code := 0xC, target := none } ∧ s.sameRegs t mailRegs ∧ s.sameTables t ∧ s.sameBytes t)
      ∧ ((s.fwu.st = 0 ∨ 5 ≤ s.fwu.st) → Completes .cancel s fun t => s.answers t 0 [] ∧ t.fwu = s.fwu))
    ∧ (s.fwu.st = 1 → s.inSave = false → Completes .stageVerificationComplete s fun t =>
        t.fwu.imgid = beAt (s.staged0 0) 4 4 ∧ t.fwu.ver = beAt (s.staged0 0) 8 4 ∧ t.fwu.nblk = beAt (s.staged0 0) 16 4
        ∧ (s.stageCode = 0 → t.fwu.st = 2 ∧ t.fwu.code = 0) ∧ (s.stageCode ≠ 0 → t.fwu.st = 6 ∧ t.fwu.code = s.stageCode)
        ∧ s.sameRegs t [Reg.PG_IST Reg.pgLRL] ∧ s.sameTables t ∧ s.sameBytes t)
    ∧ (∀ x, s.fwu.st = 3 → s.fwu.target = some x → (x ≤ s.tsy.full → Completes .activationStart s fun t =>
          t.fwu = { s.fwu with st := 4, code := 0, copied := 0, target := none } ∧ t.rb Reg.CHIP_BOOTSTAT 30 = false
          ∧ (s.inSave = false → t.journal.st = 1 ∧ t.journal.next = 0))
        ∧ (s.tsy.full < x → Completes .activationStart s fun t => t = s))
    ∧ (∀ bad, s.fwu.st = 4 → s.pwr.held = false → s.inSave = false → s.fwu.comp = 1 → s.fwu.copied < 448 →
      (s.rootZeroed = true → Completes (.blockCopy bad) s fun t => t.fwu.st = 7 ∧ t.fwu.code = 6 ∧ t.rf Reg.CHIP_BOOTSTAT 27 24 = 5
        ∧ t.rb Reg.CHIP_BOOTSTAT 30 = false ∧ t.journal.st = 3)
      ∧ (s.rootZeroed = false →
        (s.keyCheck (beAt (s.staged0 0) 12 2) 7 ≠ 0
          ∨ blockOk (s.slotKeyBytes (beAt (s.staged0 0) 12 2)) (beBytes 4 s.fwu.imgid) s.fwu.copied (s.staged0 s.fwu.copied) = false) →
        Completes (.blockCopy bad) s fun t => t.fwu.st = 7 ∧ t.fwu.code = 9 ∧ t.rf Reg.CHIP_BOOTSTAT 27 24 = 5
          ∧ t.rb Reg.CHIP_BOOTSTAT 30 = false ∧ t.journal.st = 3 ∧ t.fwu.copied = s.fwu.copied)
      ∧ (s.rootZeroed = false → s.keyCheck (beAt (s.staged0 0) 12 2) 7 = 0 →
        blockOk (s.slotKeyBytes (beAt (s.staged0 0) 12 2)) (beBytes 4 s.fwu.imgid) s.fwu.copied (s.staged0 s.fwu.copied) = true →
        (4 ≤ bad → Completes (.blockCopy bad) s fun t => t.fwu.st = 7 ∧ t.fwu.code = 7 ∧ t.rf Reg.CHIP_BOOTSTAT 27 24 = 5
          ∧ t.journal.st = 3 ∧ t.fwu.copied = s.fwu.copied)
        ∧ (bad < 4 → s.fwu.copied + 1 < s.fwu.nblk → Completes (.blockCopy bad) s fun t =>
          t.fwu = { s.fwu with copied := s.fwu.copied + 1 } ∧ t.journal.st = 1 ∧ t.journal.next = s.fwu.copied + 1
          ∧ memRdN t.mram (fwBase + 4096 * s.fwu.copied) 4096 = s.staged0 s.fwu.copied ∧ s.sameRegs t [] ∧ s.sameTables t
          ∧ ∀ a, memRd t.dram a = memRd s.dram a ∧ memRd t.qspi a = memRd s.qspi a)
        ∧ (bad < 4 → s.fwu.nblk ≤ s.fwu.copied + 1 → Completes (.blockCopy bad) s fun t =>
          memRdN t.mram (fwBase + 4096 * s.fwu.copied) 4096 = s.staged0 s.fwu.copied ∧ t.journal.st = 2
          ∧ t.fwMin = max s.fwMin (beAt (s.staged0 0) 24 4) ∧ t.crMin = max s.crMin (beAt (s.staged0 0) 28 4)
          ∧ (t.fwu.st = 5 ∧ t.fwu.code = 0 ∧ t.rb Reg.CHIP_BOOTSTAT 30 = true
            ∨ t.fwu.st = 6 ∧ t.fwu.code = 0xB ∧ t.rb Reg.CHIP_BOOTSTAT 30 = false ∧ t.rf Reg.CHIP_BOOTSTAT 27 24 = 5))))

/-- Pair commands, heartbeat, messages and digests move roles and marks; the observation port starts, stops and records
(20_redundancy.md R510; 20_redundancy.md R511; 20_redundancy.md R513; 20_redundancy.md R514; 20_redundancy.md R515;
20_redundancy.md R516; 20_redundancy.md R517; 21_observation.md R521; 21_observation.md R522; 21_observation.md R524;
21_observation.md R525; 13_key_store_tamper.md R384). -/
def Obligations.PairedUnitsChangeRolesAndThePortObserves : Prop :=
  ∀ (s : State) (init : Initiator) (v : Word),
    (s.pwr.held = false → fld v 3 0 = 1 → s.mayJoin = true → Completes (.joinAct init v) s fun t => t.role = 1
        ∧ t.rb (Reg.PG_IST Reg.pgPAIR) 0 = true ∧ t.pair.roleAt = s.now ∧ s.sameTables t ∧ s.sameBytes t)
    ∧ (s.pwr.held = false → fld v 3 0 = 2 → s.mayJoin = true → Completes (.joinStby init v) s fun t => t.role = 2
        ∧ t.rb Reg.PAIR_STAT 4 = false ∧ t.rb (Reg.PG_IST Reg.pgPAIR) 0 = true ∧ s.sameTables t ∧ s.sameBytes t)
    ∧ (s.pwr.held = false → fld v 3 0 = 4 → s.role = 1 →
      (s.pair.peerRole = 2 → s.pair.peerSync = true → Completes (.demote init v) s fun t => t.role = 2
        ∧ t.rb (Reg.PG_IST Reg.pgPAIR) 0 = true)
      ∧ (s.pair.peerRole ≠ 2 ∨ s.pair.peerSync = false → Completes (.demote init v) s fun t => t.role = 1
        ∧ t.rb (Reg.PG_IST Reg.pgPAIR) 6 = true ∧ s.sameRegs t [Reg.PG_IST Reg.pgPAIR] ∧ s.sameTables t ∧ s.sameBytes t))
    ∧ (s.pwr.held = false → fld v 3 0 = 8 → s.role = 2 → Completes (.promote init v) s fun t => t.role = 1
        ∧ t.rd Reg.PAIR_SWOVER = s.rd Reg.PAIR_SWOVER + 1 ∧ t.rd Reg.PAIR_LASTSW = BitVec.ofNat 32 (2 ^ 31 + 2)
        ∧ (∀ i m, i < 4096 → s.pair.fmark = [(i, m)] → s.markTx i = true →
          t.freshOf i = max (s.freshOf i) (min (2 ^ 64 - 1) (m + 2 ^ (rsvOf (s.rf Reg.CAUTH_CTL 12 8) + 1)))))
    ∧ (s.role ≠ 0 → s.pair.hbAt + s.hbPer ≤ s.now → Completes .heartbeatToggle s fun t =>
        t.pair = { s.pair with hbOut := !s.pair.hbOut, hbAt := s.now } ∧ s.sameRegs t [] ∧ s.sameTables t ∧ s.sameBytes t)
    ∧ (Completes (.heartbeatLost true) s fun t => t.pair = { s.pair with edgeAt := s.now } ∧ t.rb Reg.PAIR_STAT 8 = (s.role != 0)
        ∧ t.rb Reg.PAIR_STAT 11 = false ∧ s.sameRegs t [Reg.PAIR_STAT] ∧ s.sameTables t ∧ s.sameBytes t)
    ∧ (s.role ≠ 0 → s.pair.edgeAt + s.hbTo ≤ s.now → Completes (.heartbeatLost false) s fun t => t.rb Reg.PAIR_STAT 8 = false
        ∧ (s.rb Reg.PAIR_STAT 8 = true → t.rb (Reg.PG_IST Reg.pgPAIR) 2 = true)
        ∧ (s.role ≠ 2 → t.role = s.role)
        ∧ (s.role = 2 → s.pairAlive = true → t.role = 2 ∧ t.rb Reg.PAIR_STAT 11 = true)
        ∧ (s.role = 2 → s.pairAlive = false → s.rb Reg.PAIR_CTL 2 = true → s.rb Reg.PAIR_STAT 4 = true →
          t.role = 1 ∧ t.rd Reg.PAIR_LASTSW = BitVec.ofNat 32 (2 ^ 31) ∧ t.rd Reg.PAIR_SWOVER = s.rd Reg.PAIR_SWOVER + 1)
        ∧ (s.role = 2 → s.pairAlive = false → (s.rb Reg.PAIR_CTL 2 = false ∨ s.rb Reg.PAIR_STAT 4 = false) → t.role = 2))
    ∧ (s.pairOn = true → s.rb (Reg.EMAC_STAT 3) 31 = true →
      (∀ (port : Fin 14) stamp bytes,
        (s.role = 2 → port.val ≠ 3 → Completes (.mirroredFrame port stamp bytes) s fun t =>
          t = (s.setPair { s.pair with frameAt := some s.now }).enterEth (s.portFrame port bytes (stamp % 2 ^ 32) 0))
        ∧ (s.role ≠ 2 → Completes (.mirroredFrame port stamp bytes) s fun t => t = s.setPair { s.pair with frameAt := some s.now }))
      ∧ (s.role = 2 → (∀ i x, i < 65536 → Completes (.markMsg (some (i, x))) s fun t => amGet t.pair.fmark i = some x
          ∧ t.pair.smark = s.pair.smark ∧ t.pair.frameAt = some s.now ∧ s.sameRegs t [])
        ∧ (∀ i x, 65536 ≤ i → Completes (.markMsg (some (i, x))) s fun t => amGet t.pair.smark i = some x
          ∧ t.pair.fmark = s.pair.fmark ∧ s.sameRegs t [])
        ∧ (s.rb Reg.PAIR_STAT 4 = false → Completes (.markMsg none) s fun t => t.rb Reg.PAIR_STAT 4 = true
          ∧ t.rb (Reg.PG_IST Reg.pgPAIR) 5 = true ∧ s.sameRegs t [Reg.PAIR_STAT, Reg.PG_IST Reg.pgPAIR])
        ∧ (Completes .handoverMsg s fun t => t.role = 1 ∧ t.rd Reg.PAIR_LASTSW = BitVec.ofNat 32 (2 ^ 31 + 1)
          ∧ t.rd Reg.PAIR_SWOVER = s.rd Reg.PAIR_SWOVER + 1))
      ∧ (∀ (r : Fin 3) y, Completes (.roleMsg r y) s fun t => t.pair.peerRole = r ∧ t.pair.peerSync = y
          ∧ t.rb Reg.PAIR_STAT 10 = (r.val == 1) ∧ t.pair.frameAt = some s.now
          ∧ (s.role = 1 → r.val = 1 → s.rb Reg.PAIR_CTL 1 = true → t.role = 2 ∧ t.rd Reg.PAIR_LASTSW = BitVec.ofNat 32 (2 ^ 31 + 3))
          ∧ ((s.role ≠ 1 ∨ r.val ≠ 1 ∨ s.rb Reg.PAIR_CTL 1 = false) → t.role = s.role))
      ∧ (s.role ≠ 0 → ∀ k (plan : Fin 4), s.pair.ownK = [(k, plan.val), (k + 1, plan.val)] → s.pair.peerK = [(k, plan.val)] →
          s.pair.judged = k → s.pair.own = [] →
          (∀ x, 0 < x → x < 65536 → s.pair.peer = [(k * 64, (x, 0))] → Completes (.digestMsg (k + 1) plan []) s fun t =>
            t.rd Reg.PAIR_DIGMIS = s.rd Reg.PAIR_DIGMIS + 1 ∧ t.rd Reg.PAIR_LASTMIS = BitVec.ofNat 32 (2 ^ 31 + k % 65536)
            ∧ t.rb (Reg.PG_IST Reg.pgPAIR) 1 = true ∧ t.pair.judged = k + 1)
          ∧ (s.pair.peer = [] → Completes (.digestMsg (k + 1) plan []) s fun t => s.sameRegs t [] ∧ t.pair.judged = k + 1)))
    ∧ (s.role ≠ 0 → s.pair.roleAt + 10000000 ≤ s.now → Completes .roleMessageTimer s fun t => t.pair = { s.pair with roleAt := s.now, lineTo := t.pair.lineTo }
        ∧ s.sameRegs t [] ∧ s.sameTables t ∧ s.sameBytes t)
    ∧ (s.role ≠ 0 → ∀ k, s.tsy.full / 100000000 = k + 1 → s.pair.judged ≤ k → amGet s.pair.ownK k = none →
      (s.rb (Reg.EMAC_STAT 3) 31 = false ∨ s.pair.peerK = []) → Completes .digestIntervalEnd s fun t =>
        amGet t.pair.ownK k = some (s.rf Reg.CHIP_PLAN 1 0) ∧ t.pair.judged = s.pair.judged ∧ s.sameRegs t [] ∧ s.sameTables t ∧ s.sameBytes t)
    ∧ (s.pwr.held = false → s.isUnlocked init Reg.OBS_CTL = true →
      (bitOf v 0 = true → s.obs.run = false → Completes (.obsEnable init v) s fun t => t.obs.run = true ∧ t.obs.syncAt = s.now
        ∧ (s.obs.fifo.length < 64 → s.syncRec ∈ t.obs.fifo) ∧ t.rb Reg.OBS_STAT 31 = true ∧ t.rb (Reg.PG_IST Reg.pgOBS) 0 = true
        ∧ t.rb Reg.YEW_STAT 29 = true ∧ t.yew.root = s.yew.root ∧ s.sameTables t)
      ∧ (bitOf v 0 = false → Completes (.obsDisable init v) s fun t => t.obs = { s.obs with run := false, phase := 0 }
        ∧ t.rb Reg.OBS_CTL 0 = false ∧ s.sameRegs t [Reg.OBS_CTL] ∧ s.sameTables t ∧ s.sameBytes t))
    ∧ (s.obs.run = true → s.obs.syncAt + 1000000 ≤ s.now → Completes .syncRecord s fun t =>
        (s.obs.fifo.length < 64 → t.obs = { s.obs with syncAt := s.now, fifo := s.obs.fifo ++ [s.syncRec] })
        ∧ (64 ≤ s.obs.fifo.length → t.obs = { s.obs with syncAt := s.now, sync := s.obs.sync ++ [s.syncRec] })
        ∧ s.sameRegs t [] ∧ s.sameTables t ∧ s.sameBytes t)
    ∧ (s.obs.run = true → s.rf Reg.OBS_CNTPER 15 0 ≠ 0 → s.obs.cntAt + s.rf Reg.OBS_CNTPER 15 0 * 1000 ≤ s.now →
      s.rb Reg.OBS_SRC 10 = true → s.obs.fifo.length ≤ 54 → Completes .countRecord s fun t => t.obs.cntAt = s.now
        ∧ t.obs.fifo.length = s.obs.fifo.length + 10
        ∧ t.obs.fifo[s.obs.fifo.length + 4]? = some (obsRec 10 0 s.stamp32 ([4] ++ beBytes 4 (amGetD 0 s.obs.hidden 4)))
        ∧ s.sameRegs t [] ∧ s.sameTables t ∧ s.sameBytes t)

/-- A step takes the command at the front of the queue and is exec of it on the state with the queue's rest; an empty queue idles
(INDEX.md; 00_scope.md). -/
def Obligations.StepRunsTheFrontCommand : Prop :=
  ∀ (c : Instr) (s : State),
    step (s.withCommand c) = exec c s
    ∧ (∀ rest, s.pending = c :: rest → step s = exec c { s with pending := rest })
    ∧ (s.pending = [] → step s = .next s.idle ∧ s.sameTables s.idle ∧ s.sameBytes s.idle
      ∧ s.sameRegs s.idle [Reg.OBS_SENT, Reg.PG_IST Reg.pgOBS] ∧ s.idle.mono = s.mono + 4)
    ∧ (∃ t, exec c s = .next t)

/-- The state after reset has canonical memories and registers, clocks in range, every register as reset and the first power-up
leave it, and an empty queue (17_startup_reset.md R462; 02_register_model.md R59; 11_time_sync.md R314; 14_host_dma.md R394;
16_sleep_wake.md R446; 16_sleep_wake.md R449). -/
def Obligations.ResetStateIsSound : Prop :=
  State.reset.memWf = true ∧ State.reset.regsWf = true ∧ State.reset.clocksOk = true ∧ State.reset.pending = []
    ∧ (∀ a, a ∉ [Reg.PG_IST Reg.pgWKN, Reg.WKN_WCAUSE, Reg.WKN_WAKECNT] ++ (List.range 16).map Reg.TRX_CTL → State.reset.rd a = resetWord a)
    ∧ State.reset.rd (Reg.PG_IST Reg.pgWKN) = 4 ∧ State.reset.rd Reg.WKN_WCAUSE = 0x828000FF ∧ State.reset.rd Reg.WKN_WAKECNT = 1
    ∧ (∀ n, n < 16 → State.reset.rd (Reg.TRX_CTL n) = 1 ∧ State.reset.trxState n = 2) ∧ (∀ a, State.reset.tw a = 0) ∧ State.reset.vecMask = List.range 128
    ∧ State.reset.pba = [] ∧ State.reset.levels = [] ∧ State.reset.rd Reg.CMT_SEQ = 0 ∧ State.reset.epoch = 0
    ∧ State.reset.tsy.full = 0 ∧ (∀ n, n < 24 → State.reset.canState n = 0 ∧ State.reset.canOp n = 0)

/-- From every state whose memories are canonical, every step leaves them canonical (14_host_dma.md R404; 15_power_holdup.md R433;
05_frame_routing.md R147). -/
def Obligations.EveryStepKeepsMemoriesCanonical : Prop :=
  ∀ s t : State, s.memWf = true → step s = .next t → t.memWf = true

/-- From every state whose clocks are inside their widths, every step leaves them there: full time never reaches 2^48 s
(11_time_sync.md R314; 11_time_sync.md R318; 11_time_sync.md R328; 13_key_store_tamper.md R368). -/
def Obligations.EveryStepKeepsClocksInRange : Prop :=
  ∀ s t : State, s.clocksOk = true → step s = .next t → t.clocksOk = true

end
end

