-- ==== Sys2Proof/Laws/Aes.lean ====
section
/-! SUPPORT. Lengths: an AES-256 block, a CMAC and a GCM tag have 16 bytes, a derived key 32. -/
namespace Sys2Proof.Machine

@[simp] theorem xorL_length (a b : List Nat) : (xorL a b).length = min a.length b.length := by simp [xorL]

@[simp] theorem subShift_length (s : List Nat) : (subShift s).length = 16 := by simp [subShift]

@[simp] theorem mixCols_length (s : List Nat) : (mixCols s).length = 16 := by simp [mixCols]

@[simp] theorem toNats_length (l : List Byte) : (toNats l).length = l.length := by simp [toNats]

@[simp] theorem ofNats_length (l : List Nat) : (ofNats l).length = l.length := by simp [ofNats]

theorem leBytes_length (k : Nat) : ∀ n, (leBytes k n).length = k := by
  induction k with
  | zero => intro n; rfl
  | succ k ih => intro n; simp [leBytes, ih]

@[simp] theorem natBytes_length (k n : Nat) : (natBytes k n).length = k := by simp [natBytes, beBytes, leBytes_length]

/-- Every word of the key schedule has four bytes. -/
theorem expandKey_words (n : Nat) : ∀ (i : Nat) (ws : List (List Nat)), 8 ≤ ws.length → (∀ w ∈ ws, w.length = 4) →
    (expandKey n i ws).length = n + ws.length ∧ ∀ w ∈ expandKey n i ws, w.length = 4 := by
  induction n with
  | zero => intro i ws _ h; exact ⟨by simp [expandKey], h⟩
  | succ n ih =>
    intro i ws hl h
    match ws, hl, h with
    | [], hl, _ => simp at hl
    | w0 :: r, hl, h =>
      have h0 : w0.length = 4 := h w0 (by simp)
      have h7 : ∃ p, (w0 :: r)[7]? = some p ∧ p.length = 4 := by
        refine ⟨(w0 :: r)[7]'(by omega), List.getElem?_eq_getElem (by omega), h _ (List.getElem_mem _)⟩
      obtain ⟨p, hp, hp4⟩ := h7
      simp only [expandKey, hp]
      refine ⟨?_, ?_⟩
      · rw [(ih _ _ (by simp only [List.length_cons] at hl ⊢; omega) ?_).1]
        · simp only [List.length_cons]; omega
        · intro w hw
          rcases List.mem_cons.mp hw with rfl | hw
          · split
            · simp [hp4]
            · split <;> simp [hp4, h0]
          · exact h w hw
      · refine (ih _ _ (by simp only [List.length_cons] at hl ⊢; omega) ?_).2
        intro w hw
        rcases List.mem_cons.mp hw with rfl | hw
        · split
          · simp [hp4]
          · split <;> simp [hp4, h0]
        · exact h w hw

/-- A key of 32 bytes makes eight words of four. -/
theorem words4_words (n : Nat) : ∀ (l : List Nat) (acc : List (List Nat)), 4 * n ≤ l.length → (∀ w ∈ acc, w.length = 4) →
    (words4 n l acc).length = n + acc.length ∧ ∀ w ∈ words4 n l acc, w.length = 4 := by
  induction n with
  | zero => intro l acc _ h; exact ⟨by simp [words4], h⟩
  | succ n ih =>
    intro l acc hl h
    have := ih (l.drop 4) (l.take 4 :: acc) (by simp; omega) (by
      intro w hw
      rcases List.mem_cons.mp hw with rfl | hw
      · simp; omega
      · exact h w hw)
    exact ⟨by rw [words4, this.1]; simp only [List.length_cons]; omega, this.2⟩

/-- The words of a list, four bytes each, flattened. -/
theorem flatten_words (l : List (List Nat)) : (∀ w ∈ l, w.length = 4) → l.flatten.length = 4 * l.length := by
  induction l with
  | nil => simp
  | cons a r ih => intro h; simp [ih (fun w hw => h w (by simp [hw])), h a (by simp)]; omega

/-- The round keys of a 32-byte key: fifteen of 16 bytes. -/
theorem roundKeys_lengths {key : List Nat} (h : key.length = 32) :
    (roundKeys key).length = 15 ∧ ∀ k ∈ roundKeys key, k.length = 16 := by
  have hw := words4_words 8 key [] (by omega) (by simp)
  have he := expandKey_words 52 8 (words4 8 key []) (by rw [hw.1]; simp) hw.2
  refine ⟨by simp [roundKeys], ?_⟩
  intro k hk
  simp only [roundKeys, List.mem_map, List.mem_range] at hk
  obtain ⟨r, hr, rfl⟩ := hk
  rw [flatten_words]
  · have : (expandKey 52 8 (words4 8 key [])).length = 60 := by rw [he.1, hw.1]; rfl
    simp only [List.length_take, List.length_drop, List.length_reverse, this]
    omega
  · intro w hw
    exact he.2 w (List.mem_reverse.mp (List.mem_of_mem_drop (List.mem_of_mem_take hw)))

theorem aesRounds_length : ∀ (ks : List (List Nat)) (s : List Nat), ks ≠ [] → (∀ k ∈ ks, k.length = 16) →
    (aesRounds ks s).length = 16
  | [], _, h, _ => absurd rfl h
  | [k], s, _, h => by simp [aesRounds, h k (by simp)]
  | _ :: k :: r, s, _, h => by
    rw [aesRounds]
    · exact aesRounds_length (k :: r) _ (by simp) (fun x hx => h x (by simp [hx]))
    · simp

/-- AES-256 under the round keys of a 32-byte key answers 16 byte values. -/
theorem aesEnc_length {key : List Nat} (h : key.length = 32) (b : List Nat) : (aesEnc (roundKeys key) b).length = 16 := by
  have hk := roundKeys_lengths h
  match hr : roundKeys key with
  | [] => simp [hr] at hk
  | [a] => simp [hr] at hk
  | a :: k :: r =>
    rw [hr] at hk
    exact aesRounds_length (k :: r) _ (by simp) (fun x hx => hk.2 x (by simp [hx]))

theorem cmacBlocks_length {key : List Nat} (h : key.length = 32) (k1 k2 : Nat) : ∀ (bs : List (List Nat)) (c : List Nat),
    (cmacBlocks (roundKeys key) k1 k2 c bs).length = 16
  | [], c => by rw [cmacBlocks]; exact aesEnc_length h _
  | [b], c => by rw [cmacBlocks]; split <;> exact aesEnc_length h _
  | b :: d :: r, c => by
    rw [cmacBlocks]
    · exact cmacBlocks_length h k1 k2 (d :: r) _
    · simp

/-- A CMAC under a 32-byte key has 16 bytes. -/
theorem cmac_length {key : List Byte} (h : key.length = 32) (msg : List Byte) : (cmac key msg).length = 16 := by
  simp only [cmac, ofNats_length]
  exact cmacBlocks_length (by simpa using h) _ _ _ _

/-- A derived key has 32 bytes. -/
theorem kdf_length {p : List Byte} (h : p.length = 32) (label ctx : List Byte) : (kdf p label ctx).length = 32 := by
  simp [kdf, cmac_length h]

/-- The tag GCM decryption computes has 16 bytes. -/
theorem gcmDec_tag_length {key : List Byte} (h : key.length = 32) (iv aad ct : List Byte) : (gcmDec key iv aad ct).2.length = 16 := by
  simp only [gcmDec, gcmTag, ofNats_length, xorL_length, natBytes_length, aesEnc_length (key := toNats key) (by simpa using h)]
  rfl

end Sys2Proof.Machine
end

