-- ==== Sys2Proof/Laws/Bits.lean ====
section
/-! SUPPORT. Bit fields: what a field, a bit and their updates hold, bit by bit. -/
namespace Sys2Proof.Machine

/-- Bit j of a field. -/
theorem nfld_testBit (n hi lo j : Nat) : (nfld n hi lo).testBit j = (decide (j < hi + 1 - lo) && n.testBit (lo + j)) := by
  simp [nfld, Nat.testBit_mod_two_pow, Nat.testBit_shiftRight]

theorem nbit_testBit (n i : Nat) : nbit n i = n.testBit i := by
  rw [nbit, Nat.testBit, Nat.and_comm, Nat.and_one_is_mod]
  rcases Nat.mod_two_eq_zero_or_one (n >>> i) with h | h <;> simp [h]

/-- A number with a field replaced: the field above its lower bits. -/
theorem nset_eq (n hi lo v : Nat) :
    nset n hi lo v
      = 2 ^ lo * (n / 2 ^ lo - n / 2 ^ lo % 2 ^ (hi + 1 - lo) + v % 2 ^ (hi + 1 - lo)) + n % 2 ^ lo := by
  have h := Nat.div_add_mod n (2 ^ lo)
  have g : n / 2 ^ lo % 2 ^ (hi + 1 - lo) ≤ n / 2 ^ lo := Nat.mod_le _ _
  simp only [nset, nfld, Nat.shiftRight_eq_div_pow, Nat.shiftLeft_eq]
  obtain ⟨d, hd⟩ := Nat.exists_eq_add_of_le g
  have : n = 2 ^ lo * (n / 2 ^ lo % 2 ^ (hi + 1 - lo)) + 2 ^ lo * d + n % 2 ^ lo := by
    conv_lhs => rw [← h, hd]
    ring
  have e : n / 2 ^ lo - n / 2 ^ lo % 2 ^ (hi + 1 - lo) = d := by omega
  rw [e, Nat.mul_add, Nat.mul_comm (n / 2 ^ lo % _), Nat.mul_comm (v % _)]
  omega

/-- Bit j of a number with a field replaced. -/
theorem nset_testBit (n hi lo v j : Nat) :
    (nset n hi lo v).testBit j = if lo ≤ j ∧ j < hi + 1 then v.testBit (j - lo) else n.testBit j := by
  rw [nset_eq, Nat.testBit_two_pow_mul_add _ (Nat.mod_lt _ (Nat.two_pow_pos lo))]
  by_cases h : j < lo
  · rw [if_pos h, if_neg (by omega), Nat.testBit_mod_two_pow]
    simp [h]
  · rw [if_neg h]
    have hq : n / 2 ^ lo - n / 2 ^ lo % 2 ^ (hi + 1 - lo) = 2 ^ (hi + 1 - lo) * (n / 2 ^ lo / 2 ^ (hi + 1 - lo)) := by
      have := Nat.div_add_mod (n / 2 ^ lo) (2 ^ (hi + 1 - lo))
      omega
    rw [hq, Nat.testBit_two_pow_mul_add _ (Nat.mod_lt _ (Nat.two_pow_pos _))]
    by_cases g : j < hi + 1
    · rw [if_pos (by omega), if_pos ⟨by omega, g⟩, Nat.testBit_mod_two_pow]
      simp [show j - lo < hi + 1 - lo by omega]
    · rw [if_neg (by omega), if_neg (by omega), Nat.testBit_div_two_pow, Nat.testBit_div_two_pow]
      congr 1
      omega

/-- The field that was replaced. -/
theorem nfld_nset_same (n hi lo v : Nat) : nfld (nset n hi lo v) hi lo = v % 2 ^ (hi + 1 - lo) := by
  apply Nat.eq_of_testBit_eq
  intro j
  rw [nfld_testBit, nset_testBit, Nat.testBit_mod_two_pow]
  by_cases h : j < hi + 1 - lo
  · rw [if_pos (by omega)]
    simp
  · simp [h]

/-- A field apart from the replaced one. -/
theorem nfld_nset_other (n hi lo v h l : Nat) (d : h < lo ∨ hi < l) : nfld (nset n hi lo v) h l = nfld n h l := by
  apply Nat.eq_of_testBit_eq
  intro j
  rw [nfld_testBit, nfld_testBit, nset_testBit]
  by_cases g : j < h + 1 - l
  · rw [if_neg (by omega)]
  · simp [g]

/-! Words. -/

theorem fld_testBit (w : Word) (hi lo j : Nat) : (fld w hi lo).testBit j = (decide (j < hi + 1 - lo) && w.toNat.testBit (lo + j)) :=
  nfld_testBit _ _ _ _

/-- Bit j of a word with a field replaced. -/
theorem setFld_testBit (w : Word) (hi lo v j : Nat) (h : j < 32) :
    (setFld w hi lo v).toNat.testBit j = if lo ≤ j ∧ j < hi + 1 then v.testBit (j - lo) else w.toNat.testBit j := by
  rw [setFld, BitVec.toNat_ofNat, Nat.testBit_mod_two_pow, nset_testBit]
  simp [h]

/-- The replaced field of a word. -/
theorem fld_setFld_same (w : Word) (hi lo v : Nat) (h : hi < 32) : fld (setFld w hi lo v) hi lo = v % 2 ^ (hi + 1 - lo) := by
  apply Nat.eq_of_testBit_eq
  intro j
  rw [fld_testBit, Nat.testBit_mod_two_pow]
  by_cases g : j < hi + 1 - lo
  · rw [setFld_testBit _ _ _ _ _ (by omega), if_pos (by omega)]
    simp
  · simp [g]

/-- A field of a word apart from the replaced one. -/
theorem fld_setFld_other (w : Word) (hi lo v a b : Nat) (d : a < lo ∨ hi < b) (h : a < 32) :
    fld (setFld w hi lo v) a b = fld w a b := by
  apply Nat.eq_of_testBit_eq
  intro j
  rw [fld_testBit, fld_testBit]
  by_cases g : j < a + 1 - b
  · rw [setFld_testBit _ _ _ _ _ (by omega), if_neg (by omega)]
  · simp [g]

/-- A bit of a word apart from the replaced field. -/
theorem bitOf_setFld_other (w : Word) (hi lo v i : Nat) (d : i < lo ∨ hi < i) (h : i < 32) :
    bitOf (setFld w hi lo v) i = bitOf w i := by
  rw [bitOf, bitOf, nbit_testBit, nbit_testBit, setFld_testBit _ _ _ _ _ h, if_neg (by omega)]

theorem setBit_eq (w : Word) (i : Nat) (b : Bool) : setBit w i b = setFld w i i b.toNat := rfl

/-- The bit that was set. -/
theorem bitOf_setBit_same (w : Word) (i : Nat) (b : Bool) (h : i < 32) : bitOf (setBit w i b) i = b := by
  rw [bitOf, nbit_testBit, setBit_eq, setFld_testBit _ _ _ _ _ h, if_pos (by omega)]
  cases b <;> simp

/-- Another bit. -/
theorem bitOf_setBit_other (w : Word) (i j : Nat) (b : Bool) (d : j ≠ i) (h : j < 32) : bitOf (setBit w i b) j = bitOf w j := by
  rw [setBit_eq, bitOf_setFld_other _ _ _ _ _ (by omega) h]

/-- A field that does not hold the bit. -/
theorem fld_setBit_other (w : Word) (i : Nat) (b : Bool) (hi lo : Nat) (d : hi < i ∨ i < lo) (h : hi < 32) :
    fld (setBit w i b) hi lo = fld w hi lo := by
  rw [setBit_eq, fld_setFld_other _ _ _ _ _ _ d h]

end Sys2Proof.Machine
end

