-- ==== Sys2Proof/Laws/Map.lean ====
section
/-! SUPPORT. Sparse lists: reading after writing, and the canonical form that every update keeps. -/
namespace Sys2Proof.Machine
variable {β : Type}

/-! Reading after writing. -/

@[simp] theorem amGet_nil (k : Nat) : amGet ([] : List (Nat × β)) k = none := rfl

theorem amGet_put_same (m : List (Nat × β)) (k : Nat) (v : β) : amGet (amPut m k v) k = some v := by
  induction m with
  | nil => simp [amPut, amGet]
  | cons p r ih =>
    obtain ⟨a, w⟩ := p
    by_cases h : a = k
    · simp [amPut, amGet, h]
    · by_cases g : k < a
      · simp [amPut, amGet, h, g]
      · simp [amPut, amGet, h, g, ih]

theorem amGet_put_other (m : List (Nat × β)) {k j : Nat} (v : β) (h : j ≠ k) : amGet (amPut m k v) j = amGet m j := by
  induction m with
  | nil => simp [amPut, amGet, Ne.symm h]
  | cons p r ih =>
    obtain ⟨a, w⟩ := p
    by_cases e : a = k
    · subst e
      simp [amPut, amGet, Ne.symm h]
    · by_cases g : k < a
      · simp [amPut, amGet, e, g, Ne.symm h]
      · rw [show amPut ((a, w) :: r) k v = (a, w) :: amPut r k v by simp [amPut, e, g], amGet, amGet, ih]

theorem amGet_del_same (m : List (Nat × β)) (k : Nat) : amGet (amDel m k) k = none := by
  induction m with
  | nil => rfl
  | cons p r ih =>
    obtain ⟨a, w⟩ := p
    by_cases h : a = k
    · simpa [amDel, h] using ih
    · have : amDel ((a, w) :: r) k = (a, w) :: amDel r k := by simp [amDel, h]
      rw [this]
      simp [amGet, h, ih]

theorem amGet_del_other (m : List (Nat × β)) {k j : Nat} (h : j ≠ k) : amGet (amDel m k) j = amGet m j := by
  induction m with
  | nil => rfl
  | cons p r ih =>
    obtain ⟨a, w⟩ := p
    by_cases e : a = k
    · have : amDel ((a, w) :: r) k = amDel r k := by simp [amDel, e]
      rw [this, ih, amGet, if_neg]
      omega
    · have : amDel ((a, w) :: r) k = (a, w) :: amDel r k := by simp [amDel, e]
      rw [this]
      simp [amGet, ih]

variable [DecidableEq β]

/-- A written key reads as what was written. -/
@[simp] theorem amGetD_set_same (d : β) (m : List (Nat × β)) (k : Nat) (v : β) : amGetD d (amSet d m k v) k = v := by
  by_cases h : v = d
  · simp [amSet, amGetD, h, amGet_del_same]
  · simp [amSet, amGetD, h, amGet_put_same]

/-- Every other key reads as before, whatever default it reads with. -/
theorem amGetD_set_other (d e : β) (m : List (Nat × β)) {k j : Nat} (v : β) (h : j ≠ k) :
    amGetD e (amSet d m k v) j = amGetD e m j := by
  by_cases g : v = d
  · simp [amSet, amGetD, g, amGet_del_other m h]
  · simp [amSet, amGetD, g, amGet_put_other m v h]

/-! The canonical form. -/

omit [DecidableEq β] in
/-- The keys of a list that rises from lo are above lo. -/
theorem amSortedFrom_head {lo : Nat} {m : List (Nat × β)} (h : amSortedFrom (some lo) m = true) : ∀ p ∈ m, lo < p.1 := by
  induction m generalizing lo with
  | nil => simp
  | cons p r ih =>
    obtain ⟨a, w⟩ := p
    simp only [amSortedFrom, Bool.and_eq_true, decide_eq_true_eq] at h
    intro q hq
    rcases List.mem_cons.mp hq with rfl | hq
    · exact h.1
    · exact lt_trans h.1 (ih h.2 q hq)

omit [DecidableEq β] in
theorem amSortedFrom_weaken {lo a : Nat} {m : List (Nat × β)} (h : amSortedFrom (some a) m = true) (g : lo ≤ a) :
    amSortedFrom (some lo) m = true := by
  cases m with
  | nil => rfl
  | cons p r =>
    obtain ⟨b, w⟩ := p
    simp only [amSortedFrom, Bool.and_eq_true, decide_eq_true_eq] at h ⊢
    exact ⟨by omega, h.2⟩

omit [DecidableEq β] in
theorem amSortedFrom_none {lo : Nat} {m : List (Nat × β)} (h : amSortedFrom (some lo) m = true) :
    amSortedFrom none m = true := by
  cases m with
  | nil => rfl
  | cons p r =>
    obtain ⟨b, w⟩ := p
    simp only [amSortedFrom, Bool.and_eq_true] at h ⊢
    exact ⟨trivial, h.2⟩

omit [DecidableEq β] in
/-- Writing keeps the keys rising. -/
theorem amSortedFrom_put {lo : Nat} {m : List (Nat × β)} {k : Nat} (v : β) (h : amSortedFrom (some lo) m = true) (g : lo < k) :
    amSortedFrom (some lo) (amPut m k v) = true := by
  induction m generalizing lo with
  | nil => simpa [amPut, amSortedFrom] using g
  | cons p r ih =>
    obtain ⟨a, w⟩ := p
    simp only [amSortedFrom, Bool.and_eq_true, decide_eq_true_eq] at h
    by_cases e : a = k
    · subst e
      rw [show amPut ((a, w) :: r) a v = (a, v) :: r by simp [amPut], amSortedFrom, h.2]
      simpa using g
    · by_cases q : k < a
      · simp [amPut, e, q, amSortedFrom, g, h.2]
      · simp only [amPut, e, q, if_false, amSortedFrom, Bool.and_eq_true, decide_eq_true_eq]
        exact ⟨h.1, ih h.2 (by omega)⟩

omit [DecidableEq β] in
theorem amSorted_put {m : List (Nat × β)} (k : Nat) (v : β) (h : amSorted m = true) : amSorted (amPut m k v) = true := by
  cases m with
  | nil => rfl
  | cons p r =>
    obtain ⟨a, w⟩ := p
    simp only [amSorted, amSortedFrom, Bool.true_and] at h
    by_cases e : a = k
    · subst e
      rw [show amPut ((a, w) :: r) a v = (a, v) :: r by simp [amPut], amSorted, amSortedFrom, h]
      rfl
    · by_cases q : k < a
      · simp [amPut, e, q, amSorted, amSortedFrom, h]
      · simp only [amPut, e, q, if_false, amSorted, amSortedFrom, Bool.true_and]
        exact amSortedFrom_put v h (by omega)

omit [DecidableEq β] in
/-- Leaving entries out keeps the keys rising. -/
theorem amSortedFrom_filter {lo : Nat} {m : List (Nat × β)} (f : Nat × β → Bool) (h : amSortedFrom (some lo) m = true) :
    amSortedFrom (some lo) (m.filter f) = true := by
  induction m generalizing lo with
  | nil => rfl
  | cons p r ih =>
    obtain ⟨a, w⟩ := p
    simp only [amSortedFrom, Bool.and_eq_true, decide_eq_true_eq] at h
    by_cases e : f (a, w) = true
    · simp only [List.filter, e, amSortedFrom, Bool.and_eq_true, decide_eq_true_eq]
      exact ⟨h.1, ih h.2⟩
    · have e' : f (a, w) = false := by simpa using e
      simp only [List.filter, e']
      exact ih (amSortedFrom_weaken h.2 (by omega))

omit [DecidableEq β] in
theorem amSorted_filter {m : List (Nat × β)} (f : Nat × β → Bool) (h : amSorted m = true) : amSorted (m.filter f) = true := by
  cases m with
  | nil => rfl
  | cons p r =>
    obtain ⟨a, w⟩ := p
    simp only [amSorted, amSortedFrom, Bool.true_and] at h
    by_cases e : f (a, w) = true
    · simpa [List.filter, e, amSorted, amSortedFrom] using amSortedFrom_filter f h
    · have e' : f (a, w) = false := by simpa using e
      simpa only [List.filter, e', amSorted] using amSortedFrom_none (amSortedFrom_filter f h)

omit [DecidableEq β] in
/-- An entry of an updated list is the new one or an old one. -/
theorem amPut_mem {m : List (Nat × β)} {k : Nat} {v : β} {p : Nat × β} (h : p ∈ amPut m k v) : p = (k, v) ∨ p ∈ m := by
  induction m with
  | nil => simpa [amPut] using h
  | cons q r ih =>
    obtain ⟨a, w⟩ := q
    by_cases e : a = k
    · simp only [amPut, e, if_true, List.mem_cons] at h ⊢
      tauto
    · by_cases g : k < a
      · simp only [amPut, e, g, if_false, if_true, List.mem_cons] at h ⊢
        tauto
      · simp only [amPut, e, g, if_false, List.mem_cons] at h ⊢
        rcases h with h | h
        · exact Or.inr (Or.inl h)
        · rcases ih h with h | h
          · exact Or.inl h
          · exact Or.inr (Or.inr h)

theorem amWf_iff {d : Nat → β} {m : List (Nat × β)} : amWf d m = true ↔ amSorted m = true ∧ ∀ p ∈ m, p.2 ≠ d p.1 := by
  simp [amWf, List.all_eq_true]

@[simp] theorem amWf_nil (d : Nat → β) : amWf d ([] : List (Nat × β)) = true := rfl

/-- Leaving entries out keeps the canonical form. -/
theorem amWf_filter {d : Nat → β} {m : List (Nat × β)} (f : Nat × β → Bool) (h : amWf d m = true) :
    amWf d (m.filter f) = true := by
  rw [amWf_iff] at h ⊢
  exact ⟨amSorted_filter f h.1, fun p hp => h.2 p (List.mem_filter.mp hp).1⟩

/-- A write keeps the canonical form. -/
theorem amWf_set {d : Nat → β} {m : List (Nat × β)} (k : Nat) (v : β) (h : amWf d m = true) :
    amWf d (amSet (d k) m k v) = true := by
  by_cases e : v = d k
  · simpa [amSet, e, amDel] using amWf_filter _ h
  · rw [amSet, if_neg e, amWf_iff]
    rw [amWf_iff] at h
    refine ⟨amSorted_put k v h.1, fun p hp => ?_⟩
    rcases amPut_mem hp with rfl | hp
    · exact e
    · exact h.2 p hp

/-! Sorted sets of numbers. -/

@[simp] theorem nsMem_add (l : List Nat) (k : Nat) : nsMem (nsAdd l k) k = true := by
  induction l with
  | nil => simp [nsAdd, nsMem]
  | cons a r ih =>
    by_cases h : a = k
    · simp [nsAdd, nsMem, h]
    · by_cases g : k < a
      · simp [nsAdd, nsMem, h, g]
      · simp only [nsAdd, h, g, if_false]
        simpa [nsMem] using Or.inr (by simpa [nsMem] using ih)

@[simp] theorem nsMem_del (l : List Nat) (k : Nat) : nsMem (nsDel l k) k = false := by
  simp [nsMem, nsDel]

end Sys2Proof.Machine
end

