-- ==== Sys2Proof/Laws/State.lean ====
section
/-! SUPPORT. The fields of State after each of the updates the meanings are built from: the one it changes, and every other. -/
namespace Sys2Proof.Machine

/-! State.wr. -/

@[simp] theorem State.wr_pending (s : State) (a : Nat) (w : Word) : (s.wr a w).pending = s.pending := rfl
@[simp] theorem State.wr_freeN (s : State) (a : Nat) (w : Word) : (s.wr a w).freeN = s.freeN := rfl
@[simp] theorem State.wr_outbox (s : State) (a : Nat) (w : Word) : (s.wr a w).outbox = s.outbox := rfl
@[simp] theorem State.wr_regs (s : State) (a : Nat) (w : Word) : (s.wr a w).regs = amSet (resetWord a) s.regs a w := rfl
@[simp] theorem State.wr_shadow (s : State) (a : Nat) (w : Word) : (s.wr a w).shadow = s.shadow := rfl
@[simp] theorem State.wr_prev (s : State) (a : Nat) (w : Word) : (s.wr a w).prev = s.prev := rfl
@[simp] theorem State.wr_tab (s : State) (a : Nat) (w : Word) : (s.wr a w).tab = s.tab := rfl
@[simp] theorem State.wr_bus (s : State) (a : Nat) (w : Word) : (s.wr a w).bus = s.bus := rfl
@[simp] theorem State.wr_cmt (s : State) (a : Nat) (w : Word) : (s.wr a w).cmt = s.cmt := rfl
@[simp] theorem State.wr_tsy (s : State) (a : Nat) (w : Word) : (s.wr a w).tsy = s.tsy := rfl
@[simp] theorem State.wr_xpl (s : State) (a : Nat) (w : Word) : (s.wr a w).xpl = s.xpl := rfl
@[simp] theorem State.wr_dram (s : State) (a : Nat) (w : Word) : (s.wr a w).dram = s.dram := rfl
@[simp] theorem State.wr_mram (s : State) (a : Nat) (w : Word) : (s.wr a w).mram = s.mram := rfl
@[simp] theorem State.wr_lsram (s : State) (a : Nat) (w : Word) : (s.wr a w).lsram = s.lsram := rfl
@[simp] theorem State.wr_hmem (s : State) (a : Nat) (w : Word) : (s.wr a w).hmem = s.hmem := rfl
@[simp] theorem State.wr_levels (s : State) (a : Nat) (w : Word) : (s.wr a w).levels = s.levels := rfl
@[simp] theorem State.wr_vecMask (s : State) (a : Nat) (w : Word) : (s.wr a w).vecMask = s.vecMask := rfl
@[simp] theorem State.wr_pba (s : State) (a : Nat) (w : Word) : (s.wr a w).pba = s.pba := rfl
@[simp] theorem State.wr_can (s : State) (a : Nat) (w : Word) : (s.wr a w).can = s.can := rfl
@[simp] theorem State.wr_prv (s : State) (a : Nat) (w : Word) : (s.wr a w).prv = s.prv := rfl
@[simp] theorem State.wr_clm (s : State) (a : Nat) (w : Word) : (s.wr a w).clm = s.clm := rfl
@[simp] theorem State.wr_tpe (s : State) (a : Nat) (w : Word) : (s.wr a w).tpe = s.tpe := rfl
@[simp] theorem State.wr_swIn (s : State) (a : Nat) (w : Word) : (s.wr a w).swIn = s.swIn := rfl
@[simp] theorem State.wr_sw (s : State) (a : Nat) (w : Word) : (s.wr a w).sw = s.sw := rfl
@[simp] theorem State.wr_emac (s : State) (a : Nat) (w : Word) : (s.wr a w).emac = s.emac := rfl
@[simp] theorem State.wr_rtc (s : State) (a : Nat) (w : Word) : (s.wr a w).rtc = s.rtc := rfl
@[simp] theorem State.wr_rtcAcc (s : State) (a : Nat) (w : Word) : (s.wr a w).rtcAcc = s.rtcAcc := rfl
@[simp] theorem State.wr_cauth (s : State) (a : Nat) (w : Word) : (s.wr a w).cauth = s.cauth := rfl
@[simp] theorem State.wr_fresh (s : State) (a : Nat) (w : Word) : (s.wr a w).fresh = s.fresh := rfl
@[simp] theorem State.wr_cry (s : State) (a : Nat) (w : Word) : (s.wr a w).cry = s.cry := rfl
@[simp] theorem State.wr_yew (s : State) (a : Nat) (w : Word) : (s.wr a w).yew = s.yew := rfl
@[simp] theorem State.wr_hq (s : State) (a : Nat) (w : Word) : (s.wr a w).hq = s.hq := rfl
@[simp] theorem State.wr_hqReset (s : State) (a : Nat) (w : Word) : (s.wr a w).hqReset = s.hqReset := rfl
@[simp] theorem State.wr_bme (s : State) (a : Nat) (w : Word) : (s.wr a w).bme = s.bme := rfl
@[simp] theorem State.wr_d3 (s : State) (a : Nat) (w : Word) : (s.wr a w).d3 = s.d3 := rfl
@[simp] theorem State.wr_pair (s : State) (a : Nat) (w : Word) : (s.wr a w).pair = s.pair := rfl
@[simp] theorem State.wr_obs (s : State) (a : Nat) (w : Word) : (s.wr a w).obs = s.obs := rfl
@[simp] theorem State.wr_mono (s : State) (a : Nat) (w : Word) : (s.wr a w).mono = s.mono := rfl
@[simp] theorem State.wr_pwr (s : State) (a : Nat) (w : Word) : (s.wr a w).pwr = s.pwr := rfl
@[simp] theorem State.wr_wkn (s : State) (a : Nat) (w : Word) : (s.wr a w).wkn = s.wkn := rfl
@[simp] theorem State.wr_boot (s : State) (a : Nat) (w : Word) : (s.wr a w).boot = s.boot := rfl
@[simp] theorem State.wr_lrl (s : State) (a : Nat) (w : Word) : (s.wr a w).lrl = s.lrl := rfl
@[simp] theorem State.wr_fwu (s : State) (a : Nat) (w : Word) : (s.wr a w).fwu = s.fwu := rfl
@[simp] theorem State.wr_qspi (s : State) (a : Nat) (w : Word) : (s.wr a w).qspi = s.qspi := rfl
@[simp] theorem State.wr_chan (s : State) (a : Nat) (w : Word) : (s.wr a w).chan = s.chan := rfl
@[simp] theorem State.wr_arb (s : State) (a : Nat) (w : Word) : (s.wr a w).arb = s.arb := rfl

/-! State.wrSh. -/

@[simp] theorem State.wrSh_pending (s : State) (a : Nat) (w : Word) : (s.wrSh a w).pending = s.pending := rfl
@[simp] theorem State.wrSh_freeN (s : State) (a : Nat) (w : Word) : (s.wrSh a w).freeN = s.freeN := rfl
@[simp] theorem State.wrSh_outbox (s : State) (a : Nat) (w : Word) : (s.wrSh a w).outbox = s.outbox := rfl
@[simp] theorem State.wrSh_regs (s : State) (a : Nat) (w : Word) : (s.wrSh a w).regs = s.regs := rfl
@[simp] theorem State.wrSh_shadow (s : State) (a : Nat) (w : Word) : (s.wrSh a w).shadow = amSet (resetWord a) s.shadow a w := rfl
@[simp] theorem State.wrSh_prev (s : State) (a : Nat) (w : Word) : (s.wrSh a w).prev = s.prev := rfl
@[simp] theorem State.wrSh_tab (s : State) (a : Nat) (w : Word) : (s.wrSh a w).tab = s.tab := rfl
@[simp] theorem State.wrSh_bus (s : State) (a : Nat) (w : Word) : (s.wrSh a w).bus = s.bus := rfl
@[simp] theorem State.wrSh_cmt (s : State) (a : Nat) (w : Word) : (s.wrSh a w).cmt = s.cmt := rfl
@[simp] theorem State.wrSh_tsy (s : State) (a : Nat) (w : Word) : (s.wrSh a w).tsy = s.tsy := rfl
@[simp] theorem State.wrSh_xpl (s : State) (a : Nat) (w : Word) : (s.wrSh a w).xpl = s.xpl := rfl
@[simp] theorem State.wrSh_dram (s : State) (a : Nat) (w : Word) : (s.wrSh a w).dram = s.dram := rfl
@[simp] theorem State.wrSh_mram (s : State) (a : Nat) (w : Word) : (s.wrSh a w).mram = s.mram := rfl
@[simp] theorem State.wrSh_lsram (s : State) (a : Nat) (w : Word) : (s.wrSh a w).lsram = s.lsram := rfl
@[simp] theorem State.wrSh_hmem (s : State) (a : Nat) (w : Word) : (s.wrSh a w).hmem = s.hmem := rfl
@[simp] theorem State.wrSh_levels (s : State) (a : Nat) (w : Word) : (s.wrSh a w).levels = s.levels := rfl
@[simp] theorem State.wrSh_vecMask (s : State) (a : Nat) (w : Word) : (s.wrSh a w).vecMask = s.vecMask := rfl
@[simp] theorem State.wrSh_pba (s : State) (a : Nat) (w : Word) : (s.wrSh a w).pba = s.pba := rfl
@[simp] theorem State.wrSh_can (s : State) (a : Nat) (w : Word) : (s.wrSh a w).can = s.can := rfl
@[simp] theorem State.wrSh_prv (s : State) (a : Nat) (w : Word) : (s.wrSh a w).prv = s.prv := rfl
@[simp] theorem State.wrSh_clm (s : State) (a : Nat) (w : Word) : (s.wrSh a w).clm = s.clm := rfl
@[simp] theorem State.wrSh_tpe (s : State) (a : Nat) (w : Word) : (s.wrSh a w).tpe = s.tpe := rfl
@[simp] theorem State.wrSh_swIn (s : State) (a : Nat) (w : Word) : (s.wrSh a w).swIn = s.swIn := rfl
@[simp] theorem State.wrSh_sw (s : State) (a : Nat) (w : Word) : (s.wrSh a w).sw = s.sw := rfl
@[simp] theorem State.wrSh_emac (s : State) (a : Nat) (w : Word) : (s.wrSh a w).emac = s.emac := rfl
@[simp] theorem State.wrSh_rtc (s : State) (a : Nat) (w : Word) : (s.wrSh a w).rtc = s.rtc := rfl
@[simp] theorem State.wrSh_rtcAcc (s : State) (a : Nat) (w : Word) : (s.wrSh a w).rtcAcc = s.rtcAcc := rfl
@[simp] theorem State.wrSh_cauth (s : State) (a : Nat) (w : Word) : (s.wrSh a w).cauth = s.cauth := rfl
@[simp] theorem State.wrSh_fresh (s : State) (a : Nat) (w : Word) : (s.wrSh a w).fresh = s.fresh := rfl
@[simp] theorem State.wrSh_cry (s : State) (a : Nat) (w : Word) : (s.wrSh a w).cry = s.cry := rfl
@[simp] theorem State.wrSh_yew (s : State) (a : Nat) (w : Word) : (s.wrSh a w).yew = s.yew := rfl
@[simp] theorem State.wrSh_hq (s : State) (a : Nat) (w : Word) : (s.wrSh a w).hq = s.hq := rfl
@[simp] theorem State.wrSh_hqReset (s : State) (a : Nat) (w : Word) : (s.wrSh a w).hqReset = s.hqReset := rfl
@[simp] theorem State.wrSh_bme (s : State) (a : Nat) (w : Word) : (s.wrSh a w).bme = s.bme := rfl
@[simp] theorem State.wrSh_d3 (s : State) (a : Nat) (w : Word) : (s.wrSh a w).d3 = s.d3 := rfl
@[simp] theorem State.wrSh_pair (s : State) (a : Nat) (w : Word) : (s.wrSh a w).pair = s.pair := rfl
@[simp] theorem State.wrSh_obs (s : State) (a : Nat) (w : Word) : (s.wrSh a w).obs = s.obs := rfl
@[simp] theorem State.wrSh_mono (s : State) (a : Nat) (w : Word) : (s.wrSh a w).mono = s.mono := rfl
@[simp] theorem State.wrSh_pwr (s : State) (a : Nat) (w : Word) : (s.wrSh a w).pwr = s.pwr := rfl
@[simp] theorem State.wrSh_wkn (s : State) (a : Nat) (w : Word) : (s.wrSh a w).wkn = s.wkn := rfl
@[simp] theorem State.wrSh_boot (s : State) (a : Nat) (w : Word) : (s.wrSh a w).boot = s.boot := rfl
@[simp] theorem State.wrSh_lrl (s : State) (a : Nat) (w : Word) : (s.wrSh a w).lrl = s.lrl := rfl
@[simp] theorem State.wrSh_fwu (s : State) (a : Nat) (w : Word) : (s.wrSh a w).fwu = s.fwu := rfl
@[simp] theorem State.wrSh_qspi (s : State) (a : Nat) (w : Word) : (s.wrSh a w).qspi = s.qspi := rfl
@[simp] theorem State.wrSh_chan (s : State) (a : Nat) (w : Word) : (s.wrSh a w).chan = s.chan := rfl
@[simp] theorem State.wrSh_arb (s : State) (a : Nat) (w : Word) : (s.wrSh a w).arb = s.arb := rfl

/-! State.wf. -/

@[simp] theorem State.wf_pending (s : State) (a hi lo v : Nat) : (s.wf a hi lo v).pending = s.pending := rfl
@[simp] theorem State.wf_freeN (s : State) (a hi lo v : Nat) : (s.wf a hi lo v).freeN = s.freeN := rfl
@[simp] theorem State.wf_outbox (s : State) (a hi lo v : Nat) : (s.wf a hi lo v).outbox = s.outbox := rfl
@[simp] theorem State.wf_regs (s : State) (a hi lo v : Nat) : (s.wf a hi lo v).regs = amSet (resetWord a) s.regs a (setFld (s.rd a) hi lo v) := rfl
@[simp] theorem State.wf_shadow (s : State) (a hi lo v : Nat) : (s.wf a hi lo v).shadow = s.shadow := rfl
@[simp] theorem State.wf_prev (s : State) (a hi lo v : Nat) : (s.wf a hi lo v).prev = s.prev := rfl
@[simp] theorem State.wf_tab (s : State) (a hi lo v : Nat) : (s.wf a hi lo v).tab = s.tab := rfl
@[simp] theorem State.wf_bus (s : State) (a hi lo v : Nat) : (s.wf a hi lo v).bus = s.bus := rfl
@[simp] theorem State.wf_cmt (s : State) (a hi lo v : Nat) : (s.wf a hi lo v).cmt = s.cmt := rfl
@[simp] theorem State.wf_tsy (s : State) (a hi lo v : Nat) : (s.wf a hi lo v).tsy = s.tsy := rfl
@[simp] theorem State.wf_xpl (s : State) (a hi lo v : Nat) : (s.wf a hi lo v).xpl = s.xpl := rfl
@[simp] theorem State.wf_dram (s : State) (a hi lo v : Nat) : (s.wf a hi lo v).dram = s.dram := rfl
@[simp] theorem State.wf_mram (s : State) (a hi lo v : Nat) : (s.wf a hi lo v).mram = s.mram := rfl
@[simp] theorem State.wf_lsram (s : State) (a hi lo v : Nat) : (s.wf a hi lo v).lsram = s.lsram := rfl
@[simp] theorem State.wf_hmem (s : State) (a hi lo v : Nat) : (s.wf a hi lo v).hmem = s.hmem := rfl
@[simp] theorem State.wf_levels (s : State) (a hi lo v : Nat) : (s.wf a hi lo v).levels = s.levels := rfl
@[simp] theorem State.wf_vecMask (s : State) (a hi lo v : Nat) : (s.wf a hi lo v).vecMask = s.vecMask := rfl
@[simp] theorem State.wf_pba (s : State) (a hi lo v : Nat) : (s.wf a hi lo v).pba = s.pba := rfl
@[simp] theorem State.wf_can (s : State) (a hi lo v : Nat) : (s.wf a hi lo v).can = s.can := rfl
@[simp] theorem State.wf_prv (s : State) (a hi lo v : Nat) : (s.wf a hi lo v).prv = s.prv := rfl
@[simp] theorem State.wf_clm (s : State) (a hi lo v : Nat) : (s.wf a hi lo v).clm = s.clm := rfl
@[simp] theorem State.wf_tpe (s : State) (a hi lo v : Nat) : (s.wf a hi lo v).tpe = s.tpe := rfl
@[simp] theorem State.wf_swIn (s : State) (a hi lo v : Nat) : (s.wf a hi lo v).swIn = s.swIn := rfl
@[simp] theorem State.wf_sw (s : State) (a hi lo v : Nat) : (s.wf a hi lo v).sw = s.sw := rfl
@[simp] theorem State.wf_emac (s : State) (a hi lo v : Nat) : (s.wf a hi lo v).emac = s.emac := rfl
@[simp] theorem State.wf_rtc (s : State) (a hi lo v : Nat) : (s.wf a hi lo v).rtc = s.rtc := rfl
@[simp] theorem State.wf_rtcAcc (s : State) (a hi lo v : Nat) : (s.wf a hi lo v).rtcAcc = s.rtcAcc := rfl
@[simp] theorem State.wf_cauth (s : State) (a hi lo v : Nat) : (s.wf a hi lo v).cauth = s.cauth := rfl
@[simp] theorem State.wf_fresh (s : State) (a hi lo v : Nat) : (s.wf a hi lo v).fresh = s.fresh := rfl
@[simp] theorem State.wf_cry (s : State) (a hi lo v : Nat) : (s.wf a hi lo v).cry = s.cry := rfl
@[simp] theorem State.wf_yew (s : State) (a hi lo v : Nat) : (s.wf a hi lo v).yew = s.yew := rfl
@[simp] theorem State.wf_hq (s : State) (a hi lo v : Nat) : (s.wf a hi lo v).hq = s.hq := rfl
@[simp] theorem State.wf_hqReset (s : State) (a hi lo v : Nat) : (s.wf a hi lo v).hqReset = s.hqReset := rfl
@[simp] theorem State.wf_bme (s : State) (a hi lo v : Nat) : (s.wf a hi lo v).bme = s.bme := rfl
@[simp] theorem State.wf_d3 (s : State) (a hi lo v : Nat) : (s.wf a hi lo v).d3 = s.d3 := rfl
@[simp] theorem State.wf_pair (s : State) (a hi lo v : Nat) : (s.wf a hi lo v).pair = s.pair := rfl
@[simp] theorem State.wf_obs (s : State) (a hi lo v : Nat) : (s.wf a hi lo v).obs = s.obs := rfl
@[simp] theorem State.wf_mono (s : State) (a hi lo v : Nat) : (s.wf a hi lo v).mono = s.mono := rfl
@[simp] theorem State.wf_pwr (s : State) (a hi lo v : Nat) : (s.wf a hi lo v).pwr = s.pwr := rfl
@[simp] theorem State.wf_wkn (s : State) (a hi lo v : Nat) : (s.wf a hi lo v).wkn = s.wkn := rfl
@[simp] theorem State.wf_boot (s : State) (a hi lo v : Nat) : (s.wf a hi lo v).boot = s.boot := rfl
@[simp] theorem State.wf_lrl (s : State) (a hi lo v : Nat) : (s.wf a hi lo v).lrl = s.lrl := rfl
@[simp] theorem State.wf_fwu (s : State) (a hi lo v : Nat) : (s.wf a hi lo v).fwu = s.fwu := rfl
@[simp] theorem State.wf_qspi (s : State) (a hi lo v : Nat) : (s.wf a hi lo v).qspi = s.qspi := rfl
@[simp] theorem State.wf_chan (s : State) (a hi lo v : Nat) : (s.wf a hi lo v).chan = s.chan := rfl
@[simp] theorem State.wf_arb (s : State) (a hi lo v : Nat) : (s.wf a hi lo v).arb = s.arb := rfl

/-! State.wb. -/

@[simp] theorem State.wb_pending (s : State) (a i : Nat) (b : Bool) : (s.wb a i b).pending = s.pending := rfl
@[simp] theorem State.wb_freeN (s : State) (a i : Nat) (b : Bool) : (s.wb a i b).freeN = s.freeN := rfl
@[simp] theorem State.wb_outbox (s : State) (a i : Nat) (b : Bool) : (s.wb a i b).outbox = s.outbox := rfl
@[simp] theorem State.wb_regs (s : State) (a i : Nat) (b : Bool) : (s.wb a i b).regs = amSet (resetWord a) s.regs a (setBit (s.rd a) i b) := rfl
@[simp] theorem State.wb_shadow (s : State) (a i : Nat) (b : Bool) : (s.wb a i b).shadow = s.shadow := rfl
@[simp] theorem State.wb_prev (s : State) (a i : Nat) (b : Bool) : (s.wb a i b).prev = s.prev := rfl
@[simp] theorem State.wb_tab (s : State) (a i : Nat) (b : Bool) : (s.wb a i b).tab = s.tab := rfl
@[simp] theorem State.wb_bus (s : State) (a i : Nat) (b : Bool) : (s.wb a i b).bus = s.bus := rfl
@[simp] theorem State.wb_cmt (s : State) (a i : Nat) (b : Bool) : (s.wb a i b).cmt = s.cmt := rfl
@[simp] theorem State.wb_tsy (s : State) (a i : Nat) (b : Bool) : (s.wb a i b).tsy = s.tsy := rfl
@[simp] theorem State.wb_xpl (s : State) (a i : Nat) (b : Bool) : (s.wb a i b).xpl = s.xpl := rfl
@[simp] theorem State.wb_dram (s : State) (a i : Nat) (b : Bool) : (s.wb a i b).dram = s.dram := rfl
@[simp] theorem State.wb_mram (s : State) (a i : Nat) (b : Bool) : (s.wb a i b).mram = s.mram := rfl
@[simp] theorem State.wb_lsram (s : State) (a i : Nat) (b : Bool) : (s.wb a i b).lsram = s.lsram := rfl
@[simp] theorem State.wb_hmem (s : State) (a i : Nat) (b : Bool) : (s.wb a i b).hmem = s.hmem := rfl
@[simp] theorem State.wb_levels (s : State) (a i : Nat) (b : Bool) : (s.wb a i b).levels = s.levels := rfl
@[simp] theorem State.wb_vecMask (s : State) (a i : Nat) (b : Bool) : (s.wb a i b).vecMask = s.vecMask := rfl
@[simp] theorem State.wb_pba (s : State) (a i : Nat) (b : Bool) : (s.wb a i b).pba = s.pba := rfl
@[simp] theorem State.wb_can (s : State) (a i : Nat) (b : Bool) : (s.wb a i b).can = s.can := rfl
@[simp] theorem State.wb_prv (s : State) (a i : Nat) (b : Bool) : (s.wb a i b).prv = s.prv := rfl
@[simp] theorem State.wb_clm (s : State) (a i : Nat) (b : Bool) : (s.wb a i b).clm = s.clm := rfl
@[simp] theorem State.wb_tpe (s : State) (a i : Nat) (b : Bool) : (s.wb a i b).tpe = s.tpe := rfl
@[simp] theorem State.wb_swIn (s : State) (a i : Nat) (b : Bool) : (s.wb a i b).swIn = s.swIn := rfl
@[simp] theorem State.wb_sw (s : State) (a i : Nat) (b : Bool) : (s.wb a i b).sw = s.sw := rfl
@[simp] theorem State.wb_emac (s : State) (a i : Nat) (b : Bool) : (s.wb a i b).emac = s.emac := rfl
@[simp] theorem State.wb_rtc (s : State) (a i : Nat) (b : Bool) : (s.wb a i b).rtc = s.rtc := rfl
@[simp] theorem State.wb_rtcAcc (s : State) (a i : Nat) (b : Bool) : (s.wb a i b).rtcAcc = s.rtcAcc := rfl
@[simp] theorem State.wb_cauth (s : State) (a i : Nat) (b : Bool) : (s.wb a i b).cauth = s.cauth := rfl
@[simp] theorem State.wb_fresh (s : State) (a i : Nat) (b : Bool) : (s.wb a i b).fresh = s.fresh := rfl
@[simp] theorem State.wb_cry (s : State) (a i : Nat) (b : Bool) : (s.wb a i b).cry = s.cry := rfl
@[simp] theorem State.wb_yew (s : State) (a i : Nat) (b : Bool) : (s.wb a i b).yew = s.yew := rfl
@[simp] theorem State.wb_hq (s : State) (a i : Nat) (b : Bool) : (s.wb a i b).hq = s.hq := rfl
@[simp] theorem State.wb_hqReset (s : State) (a i : Nat) (b : Bool) : (s.wb a i b).hqReset = s.hqReset := rfl
@[simp] theorem State.wb_bme (s : State) (a i : Nat) (b : Bool) : (s.wb a i b).bme = s.bme := rfl
@[simp] theorem State.wb_d3 (s : State) (a i : Nat) (b : Bool) : (s.wb a i b).d3 = s.d3 := rfl
@[simp] theorem State.wb_pair (s : State) (a i : Nat) (b : Bool) : (s.wb a i b).pair = s.pair := rfl
@[simp] theorem State.wb_obs (s : State) (a i : Nat) (b : Bool) : (s.wb a i b).obs = s.obs := rfl
@[simp] theorem State.wb_mono (s : State) (a i : Nat) (b : Bool) : (s.wb a i b).mono = s.mono := rfl
@[simp] theorem State.wb_pwr (s : State) (a i : Nat) (b : Bool) : (s.wb a i b).pwr = s.pwr := rfl
@[simp] theorem State.wb_wkn (s : State) (a i : Nat) (b : Bool) : (s.wb a i b).wkn = s.wkn := rfl
@[simp] theorem State.wb_boot (s : State) (a i : Nat) (b : Bool) : (s.wb a i b).boot = s.boot := rfl
@[simp] theorem State.wb_lrl (s : State) (a i : Nat) (b : Bool) : (s.wb a i b).lrl = s.lrl := rfl
@[simp] theorem State.wb_fwu (s : State) (a i : Nat) (b : Bool) : (s.wb a i b).fwu = s.fwu := rfl
@[simp] theorem State.wb_qspi (s : State) (a i : Nat) (b : Bool) : (s.wb a i b).qspi = s.qspi := rfl
@[simp] theorem State.wb_chan (s : State) (a i : Nat) (b : Bool) : (s.wb a i b).chan = s.chan := rfl
@[simp] theorem State.wb_arb (s : State) (a i : Nat) (b : Bool) : (s.wb a i b).arb = s.arb := rfl

/-! State.emit. -/

@[simp] theorem State.emit_pending (s : State) (o : Out) : (s.emit o).pending = s.pending := rfl
@[simp] theorem State.emit_freeN (s : State) (o : Out) : (s.emit o).freeN = s.freeN := rfl
@[simp] theorem State.emit_outbox (s : State) (o : Out) : (s.emit o).outbox = s.outbox ++ [o] := rfl
@[simp] theorem State.emit_regs (s : State) (o : Out) : (s.emit o).regs = s.regs := rfl
@[simp] theorem State.emit_shadow (s : State) (o : Out) : (s.emit o).shadow = s.shadow := rfl
@[simp] theorem State.emit_prev (s : State) (o : Out) : (s.emit o).prev = s.prev := rfl
@[simp] theorem State.emit_tab (s : State) (o : Out) : (s.emit o).tab = s.tab := rfl
@[simp] theorem State.emit_bus (s : State) (o : Out) : (s.emit o).bus = s.bus := rfl
@[simp] theorem State.emit_cmt (s : State) (o : Out) : (s.emit o).cmt = s.cmt := rfl
@[simp] theorem State.emit_tsy (s : State) (o : Out) : (s.emit o).tsy = s.tsy := rfl
@[simp] theorem State.emit_xpl (s : State) (o : Out) : (s.emit o).xpl = s.xpl := rfl
@[simp] theorem State.emit_dram (s : State) (o : Out) : (s.emit o).dram = s.dram := rfl
@[simp] theorem State.emit_mram (s : State) (o : Out) : (s.emit o).mram = s.mram := rfl
@[simp] theorem State.emit_lsram (s : State) (o : Out) : (s.emit o).lsram = s.lsram := rfl
@[simp] theorem State.emit_hmem (s : State) (o : Out) : (s.emit o).hmem = s.hmem := rfl
@[simp] theorem State.emit_levels (s : State) (o : Out) : (s.emit o).levels = s.levels := rfl
@[simp] theorem State.emit_vecMask (s : State) (o : Out) : (s.emit o).vecMask = s.vecMask := rfl
@[simp] theorem State.emit_pba (s : State) (o : Out) : (s.emit o).pba = s.pba := rfl
@[simp] theorem State.emit_can (s : State) (o : Out) : (s.emit o).can = s.can := rfl
@[simp] theorem State.emit_prv (s : State) (o : Out) : (s.emit o).prv = s.prv := rfl
@[simp] theorem State.emit_clm (s : State) (o : Out) : (s.emit o).clm = s.clm := rfl
@[simp] theorem State.emit_tpe (s : State) (o : Out) : (s.emit o).tpe = s.tpe := rfl
@[simp] theorem State.emit_swIn (s : State) (o : Out) : (s.emit o).swIn = s.swIn := rfl
@[simp] theorem State.emit_sw (s : State) (o : Out) : (s.emit o).sw = s.sw := rfl
@[simp] theorem State.emit_emac (s : State) (o : Out) : (s.emit o).emac = s.emac := rfl
@[simp] theorem State.emit_rtc (s : State) (o : Out) : (s.emit o).rtc = s.rtc := rfl
@[simp] theorem State.emit_rtcAcc (s : State) (o : Out) : (s.emit o).rtcAcc = s.rtcAcc := rfl
@[simp] theorem State.emit_cauth (s : State) (o : Out) : (s.emit o).cauth = s.cauth := rfl
@[simp] theorem State.emit_fresh (s : State) (o : Out) : (s.emit o).fresh = s.fresh := rfl
@[simp] theorem State.emit_cry (s : State) (o : Out) : (s.emit o).cry = s.cry := rfl
@[simp] theorem State.emit_yew (s : State) (o : Out) : (s.emit o).yew = s.yew := rfl
@[simp] theorem State.emit_hq (s : State) (o : Out) : (s.emit o).hq = s.hq := rfl
@[simp] theorem State.emit_hqReset (s : State) (o : Out) : (s.emit o).hqReset = s.hqReset := rfl
@[simp] theorem State.emit_bme (s : State) (o : Out) : (s.emit o).bme = s.bme := rfl
@[simp] theorem State.emit_d3 (s : State) (o : Out) : (s.emit o).d3 = s.d3 := rfl
@[simp] theorem State.emit_pair (s : State) (o : Out) : (s.emit o).pair = s.pair := rfl
@[simp] theorem State.emit_obs (s : State) (o : Out) : (s.emit o).obs = s.obs := rfl
@[simp] theorem State.emit_mono (s : State) (o : Out) : (s.emit o).mono = s.mono := rfl
@[simp] theorem State.emit_pwr (s : State) (o : Out) : (s.emit o).pwr = s.pwr := rfl
@[simp] theorem State.emit_wkn (s : State) (o : Out) : (s.emit o).wkn = s.wkn := rfl
@[simp] theorem State.emit_boot (s : State) (o : Out) : (s.emit o).boot = s.boot := rfl
@[simp] theorem State.emit_lrl (s : State) (o : Out) : (s.emit o).lrl = s.lrl := rfl
@[simp] theorem State.emit_fwu (s : State) (o : Out) : (s.emit o).fwu = s.fwu := rfl
@[simp] theorem State.emit_qspi (s : State) (o : Out) : (s.emit o).qspi = s.qspi := rfl
@[simp] theorem State.emit_chan (s : State) (o : Out) : (s.emit o).chan = s.chan := rfl
@[simp] theorem State.emit_arb (s : State) (o : Out) : (s.emit o).arb = s.arb := rfl

/-! State.mramWrite. -/

@[simp] theorem State.mramWrite_pending (s : State) (a : Nat) (b : List Byte) : (s.mramWrite a b).pending = s.pending := rfl
@[simp] theorem State.mramWrite_freeN (s : State) (a : Nat) (b : List Byte) : (s.mramWrite a b).freeN = s.freeN := rfl
@[simp] theorem State.mramWrite_outbox (s : State) (a : Nat) (b : List Byte) : (s.mramWrite a b).outbox = s.outbox := rfl
@[simp] theorem State.mramWrite_regs (s : State) (a : Nat) (b : List Byte) : (s.mramWrite a b).regs = s.regs := rfl
@[simp] theorem State.mramWrite_shadow (s : State) (a : Nat) (b : List Byte) : (s.mramWrite a b).shadow = s.shadow := rfl
@[simp] theorem State.mramWrite_prev (s : State) (a : Nat) (b : List Byte) : (s.mramWrite a b).prev = s.prev := rfl
@[simp] theorem State.mramWrite_tab (s : State) (a : Nat) (b : List Byte) : (s.mramWrite a b).tab = s.tab := rfl
@[simp] theorem State.mramWrite_bus (s : State) (a : Nat) (b : List Byte) : (s.mramWrite a b).bus = s.bus := rfl
@[simp] theorem State.mramWrite_cmt (s : State) (a : Nat) (b : List Byte) : (s.mramWrite a b).cmt = s.cmt := rfl
@[simp] theorem State.mramWrite_tsy (s : State) (a : Nat) (b : List Byte) : (s.mramWrite a b).tsy = s.tsy := rfl
@[simp] theorem State.mramWrite_xpl (s : State) (a : Nat) (b : List Byte) : (s.mramWrite a b).xpl = s.xpl := rfl
@[simp] theorem State.mramWrite_dram (s : State) (a : Nat) (b : List Byte) : (s.mramWrite a b).dram = s.dram := rfl
@[simp] theorem State.mramWrite_mram (s : State) (a : Nat) (b : List Byte) : (s.mramWrite a b).mram = memWrN s.mram a b := rfl
@[simp] theorem State.mramWrite_lsram (s : State) (a : Nat) (b : List Byte) : (s.mramWrite a b).lsram = s.lsram := rfl
@[simp] theorem State.mramWrite_hmem (s : State) (a : Nat) (b : List Byte) : (s.mramWrite a b).hmem = s.hmem := rfl
@[simp] theorem State.mramWrite_levels (s : State) (a : Nat) (b : List Byte) : (s.mramWrite a b).levels = s.levels := rfl
@[simp] theorem State.mramWrite_vecMask (s : State) (a : Nat) (b : List Byte) : (s.mramWrite a b).vecMask = s.vecMask := rfl
@[simp] theorem State.mramWrite_pba (s : State) (a : Nat) (b : List Byte) : (s.mramWrite a b).pba = s.pba := rfl
@[simp] theorem State.mramWrite_can (s : State) (a : Nat) (b : List Byte) : (s.mramWrite a b).can = s.can := rfl
@[simp] theorem State.mramWrite_prv (s : State) (a : Nat) (b : List Byte) : (s.mramWrite a b).prv = s.prv := rfl
@[simp] theorem State.mramWrite_clm (s : State) (a : Nat) (b : List Byte) : (s.mramWrite a b).clm = s.clm := rfl
@[simp] theorem State.mramWrite_tpe (s : State) (a : Nat) (b : List Byte) : (s.mramWrite a b).tpe = s.tpe := rfl
@[simp] theorem State.mramWrite_swIn (s : State) (a : Nat) (b : List Byte) : (s.mramWrite a b).swIn = s.swIn := rfl
@[simp] theorem State.mramWrite_sw (s : State) (a : Nat) (b : List Byte) : (s.mramWrite a b).sw = s.sw := rfl
@[simp] theorem State.mramWrite_emac (s : State) (a : Nat) (b : List Byte) : (s.mramWrite a b).emac = s.emac := rfl
@[simp] theorem State.mramWrite_rtc (s : State) (a : Nat) (b : List Byte) : (s.mramWrite a b).rtc = s.rtc := rfl
@[simp] theorem State.mramWrite_rtcAcc (s : State) (a : Nat) (b : List Byte) : (s.mramWrite a b).rtcAcc = s.rtcAcc := rfl
@[simp] theorem State.mramWrite_cauth (s : State) (a : Nat) (b : List Byte) : (s.mramWrite a b).cauth = s.cauth := rfl
@[simp] theorem State.mramWrite_fresh (s : State) (a : Nat) (b : List Byte) : (s.mramWrite a b).fresh = s.fresh := rfl
@[simp] theorem State.mramWrite_cry (s : State) (a : Nat) (b : List Byte) : (s.mramWrite a b).cry = s.cry := rfl
@[simp] theorem State.mramWrite_yew (s : State) (a : Nat) (b : List Byte) : (s.mramWrite a b).yew = s.yew := rfl
@[simp] theorem State.mramWrite_hq (s : State) (a : Nat) (b : List Byte) : (s.mramWrite a b).hq = s.hq := rfl
@[simp] theorem State.mramWrite_hqReset (s : State) (a : Nat) (b : List Byte) : (s.mramWrite a b).hqReset = s.hqReset := rfl
@[simp] theorem State.mramWrite_bme (s : State) (a : Nat) (b : List Byte) : (s.mramWrite a b).bme = s.bme := rfl
@[simp] theorem State.mramWrite_d3 (s : State) (a : Nat) (b : List Byte) : (s.mramWrite a b).d3 = s.d3 := rfl
@[simp] theorem State.mramWrite_pair (s : State) (a : Nat) (b : List Byte) : (s.mramWrite a b).pair = s.pair := rfl
@[simp] theorem State.mramWrite_obs (s : State) (a : Nat) (b : List Byte) : (s.mramWrite a b).obs = s.obs := rfl
@[simp] theorem State.mramWrite_mono (s : State) (a : Nat) (b : List Byte) : (s.mramWrite a b).mono = s.mono := rfl
@[simp] theorem State.mramWrite_pwr (s : State) (a : Nat) (b : List Byte) : (s.mramWrite a b).pwr = s.pwr := rfl
@[simp] theorem State.mramWrite_wkn (s : State) (a : Nat) (b : List Byte) : (s.mramWrite a b).wkn = s.wkn := rfl
@[simp] theorem State.mramWrite_boot (s : State) (a : Nat) (b : List Byte) : (s.mramWrite a b).boot = s.boot := rfl
@[simp] theorem State.mramWrite_lrl (s : State) (a : Nat) (b : List Byte) : (s.mramWrite a b).lrl = s.lrl := rfl
@[simp] theorem State.mramWrite_fwu (s : State) (a : Nat) (b : List Byte) : (s.mramWrite a b).fwu = s.fwu := rfl
@[simp] theorem State.mramWrite_qspi (s : State) (a : Nat) (b : List Byte) : (s.mramWrite a b).qspi = s.qspi := rfl
@[simp] theorem State.mramWrite_chan (s : State) (a : Nat) (b : List Byte) : (s.mramWrite a b).chan = s.chan := rfl
@[simp] theorem State.mramWrite_arb (s : State) (a : Nat) (b : List Byte) : (s.mramWrite a b).arb = s.arb := rfl

/-! State.setTw. -/

@[simp] theorem State.setTw_pending (s : State) (a : Nat) (w : Word) : (s.setTw a w).pending = s.pending := rfl
@[simp] theorem State.setTw_freeN (s : State) (a : Nat) (w : Word) : (s.setTw a w).freeN = s.freeN := rfl
@[simp] theorem State.setTw_outbox (s : State) (a : Nat) (w : Word) : (s.setTw a w).outbox = s.outbox := rfl
@[simp] theorem State.setTw_regs (s : State) (a : Nat) (w : Word) : (s.setTw a w).regs = s.regs := rfl
@[simp] theorem State.setTw_shadow (s : State) (a : Nat) (w : Word) : (s.setTw a w).shadow = s.shadow := rfl
@[simp] theorem State.setTw_prev (s : State) (a : Nat) (w : Word) : (s.setTw a w).prev = s.prev := rfl
@[simp] theorem State.setTw_tab (s : State) (a : Nat) (w : Word) : (s.setTw a w).tab = amSet 0 s.tab a w := rfl
@[simp] theorem State.setTw_bus (s : State) (a : Nat) (w : Word) : (s.setTw a w).bus = s.bus := rfl
@[simp] theorem State.setTw_cmt (s : State) (a : Nat) (w : Word) : (s.setTw a w).cmt = s.cmt := rfl
@[simp] theorem State.setTw_tsy (s : State) (a : Nat) (w : Word) : (s.setTw a w).tsy = s.tsy := rfl
@[simp] theorem State.setTw_xpl (s : State) (a : Nat) (w : Word) : (s.setTw a w).xpl = s.xpl := rfl
@[simp] theorem State.setTw_dram (s : State) (a : Nat) (w : Word) : (s.setTw a w).dram = s.dram := rfl
@[simp] theorem State.setTw_mram (s : State) (a : Nat) (w : Word) : (s.setTw a w).mram = s.mram := rfl
@[simp] theorem State.setTw_lsram (s : State) (a : Nat) (w : Word) : (s.setTw a w).lsram = s.lsram := rfl
@[simp] theorem State.setTw_hmem (s : State) (a : Nat) (w : Word) : (s.setTw a w).hmem = s.hmem := rfl
@[simp] theorem State.setTw_levels (s : State) (a : Nat) (w : Word) : (s.setTw a w).levels = s.levels := rfl
@[simp] theorem State.setTw_vecMask (s : State) (a : Nat) (w : Word) : (s.setTw a w).vecMask = s.vecMask := rfl
@[simp] theorem State.setTw_pba (s : State) (a : Nat) (w : Word) : (s.setTw a w).pba = s.pba := rfl
@[simp] theorem State.setTw_can (s : State) (a : Nat) (w : Word) : (s.setTw a w).can = s.can := rfl
@[simp] theorem State.setTw_prv (s : State) (a : Nat) (w : Word) : (s.setTw a w).prv = s.prv := rfl
@[simp] theorem State.setTw_clm (s : State) (a : Nat) (w : Word) : (s.setTw a w).clm = s.clm := rfl
@[simp] theorem State.setTw_tpe (s : State) (a : Nat) (w : Word) : (s.setTw a w).tpe = s.tpe := rfl
@[simp] theorem State.setTw_swIn (s : State) (a : Nat) (w : Word) : (s.setTw a w).swIn = s.swIn := rfl
@[simp] theorem State.setTw_sw (s : State) (a : Nat) (w : Word) : (s.setTw a w).sw = s.sw := rfl
@[simp] theorem State.setTw_emac (s : State) (a : Nat) (w : Word) : (s.setTw a w).emac = s.emac := rfl
@[simp] theorem State.setTw_rtc (s : State) (a : Nat) (w : Word) : (s.setTw a w).rtc = s.rtc := rfl
@[simp] theorem State.setTw_rtcAcc (s : State) (a : Nat) (w : Word) : (s.setTw a w).rtcAcc = s.rtcAcc := rfl
@[simp] theorem State.setTw_cauth (s : State) (a : Nat) (w : Word) : (s.setTw a w).cauth = s.cauth := rfl
@[simp] theorem State.setTw_fresh (s : State) (a : Nat) (w : Word) : (s.setTw a w).fresh = s.fresh := rfl
@[simp] theorem State.setTw_cry (s : State) (a : Nat) (w : Word) : (s.setTw a w).cry = s.cry := rfl
@[simp] theorem State.setTw_yew (s : State) (a : Nat) (w : Word) : (s.setTw a w).yew = s.yew := rfl
@[simp] theorem State.setTw_hq (s : State) (a : Nat) (w : Word) : (s.setTw a w).hq = s.hq := rfl
@[simp] theorem State.setTw_hqReset (s : State) (a : Nat) (w : Word) : (s.setTw a w).hqReset = s.hqReset := rfl
@[simp] theorem State.setTw_bme (s : State) (a : Nat) (w : Word) : (s.setTw a w).bme = s.bme := rfl
@[simp] theorem State.setTw_d3 (s : State) (a : Nat) (w : Word) : (s.setTw a w).d3 = s.d3 := rfl
@[simp] theorem State.setTw_pair (s : State) (a : Nat) (w : Word) : (s.setTw a w).pair = s.pair := rfl
@[simp] theorem State.setTw_obs (s : State) (a : Nat) (w : Word) : (s.setTw a w).obs = s.obs := rfl
@[simp] theorem State.setTw_mono (s : State) (a : Nat) (w : Word) : (s.setTw a w).mono = s.mono := rfl
@[simp] theorem State.setTw_pwr (s : State) (a : Nat) (w : Word) : (s.setTw a w).pwr = s.pwr := rfl
@[simp] theorem State.setTw_wkn (s : State) (a : Nat) (w : Word) : (s.setTw a w).wkn = s.wkn := rfl
@[simp] theorem State.setTw_boot (s : State) (a : Nat) (w : Word) : (s.setTw a w).boot = s.boot := rfl
@[simp] theorem State.setTw_lrl (s : State) (a : Nat) (w : Word) : (s.setTw a w).lrl = s.lrl := rfl
@[simp] theorem State.setTw_fwu (s : State) (a : Nat) (w : Word) : (s.setTw a w).fwu = s.fwu := rfl
@[simp] theorem State.setTw_qspi (s : State) (a : Nat) (w : Word) : (s.setTw a w).qspi = s.qspi := rfl
@[simp] theorem State.setTw_chan (s : State) (a : Nat) (w : Word) : (s.setTw a w).chan = s.chan := rfl
@[simp] theorem State.setTw_arb (s : State) (a : Nat) (w : Word) : (s.setTw a w).arb = s.arb := rfl

/-! State.setCan. -/

@[simp] theorem State.setCan_pending (s : State) (n : Nat) (c : CanCtl) : (s.setCan n c).pending = s.pending := rfl
@[simp] theorem State.setCan_freeN (s : State) (n : Nat) (c : CanCtl) : (s.setCan n c).freeN = s.freeN := rfl
@[simp] theorem State.setCan_outbox (s : State) (n : Nat) (c : CanCtl) : (s.setCan n c).outbox = s.outbox := rfl
@[simp] theorem State.setCan_regs (s : State) (n : Nat) (c : CanCtl) : (s.setCan n c).regs = s.regs := rfl
@[simp] theorem State.setCan_shadow (s : State) (n : Nat) (c : CanCtl) : (s.setCan n c).shadow = s.shadow := rfl
@[simp] theorem State.setCan_prev (s : State) (n : Nat) (c : CanCtl) : (s.setCan n c).prev = s.prev := rfl
@[simp] theorem State.setCan_tab (s : State) (n : Nat) (c : CanCtl) : (s.setCan n c).tab = s.tab := rfl
@[simp] theorem State.setCan_bus (s : State) (n : Nat) (c : CanCtl) : (s.setCan n c).bus = s.bus := rfl
@[simp] theorem State.setCan_cmt (s : State) (n : Nat) (c : CanCtl) : (s.setCan n c).cmt = s.cmt := rfl
@[simp] theorem State.setCan_tsy (s : State) (n : Nat) (c : CanCtl) : (s.setCan n c).tsy = s.tsy := rfl
@[simp] theorem State.setCan_xpl (s : State) (n : Nat) (c : CanCtl) : (s.setCan n c).xpl = s.xpl := rfl
@[simp] theorem State.setCan_dram (s : State) (n : Nat) (c : CanCtl) : (s.setCan n c).dram = s.dram := rfl
@[simp] theorem State.setCan_mram (s : State) (n : Nat) (c : CanCtl) : (s.setCan n c).mram = s.mram := rfl
@[simp] theorem State.setCan_lsram (s : State) (n : Nat) (c : CanCtl) : (s.setCan n c).lsram = s.lsram := rfl
@[simp] theorem State.setCan_hmem (s : State) (n : Nat) (c : CanCtl) : (s.setCan n c).hmem = s.hmem := rfl
@[simp] theorem State.setCan_levels (s : State) (n : Nat) (c : CanCtl) : (s.setCan n c).levels = s.levels := rfl
@[simp] theorem State.setCan_vecMask (s : State) (n : Nat) (c : CanCtl) : (s.setCan n c).vecMask = s.vecMask := rfl
@[simp] theorem State.setCan_pba (s : State) (n : Nat) (c : CanCtl) : (s.setCan n c).pba = s.pba := rfl
@[simp] theorem State.setCan_can (s : State) (n : Nat) (c : CanCtl) : (s.setCan n c).can = amSet canReset s.can n c := rfl
@[simp] theorem State.setCan_prv (s : State) (n : Nat) (c : CanCtl) : (s.setCan n c).prv = s.prv := rfl
@[simp] theorem State.setCan_clm (s : State) (n : Nat) (c : CanCtl) : (s.setCan n c).clm = s.clm := rfl
@[simp] theorem State.setCan_tpe (s : State) (n : Nat) (c : CanCtl) : (s.setCan n c).tpe = s.tpe := rfl
@[simp] theorem State.setCan_swIn (s : State) (n : Nat) (c : CanCtl) : (s.setCan n c).swIn = s.swIn := rfl
@[simp] theorem State.setCan_sw (s : State) (n : Nat) (c : CanCtl) : (s.setCan n c).sw = s.sw := rfl
@[simp] theorem State.setCan_emac (s : State) (n : Nat) (c : CanCtl) : (s.setCan n c).emac = s.emac := rfl
@[simp] theorem State.setCan_rtc (s : State) (n : Nat) (c : CanCtl) : (s.setCan n c).rtc = s.rtc := rfl
@[simp] theorem State.setCan_rtcAcc (s : State) (n : Nat) (c : CanCtl) : (s.setCan n c).rtcAcc = s.rtcAcc := rfl
@[simp] theorem State.setCan_cauth (s : State) (n : Nat) (c : CanCtl) : (s.setCan n c).cauth = s.cauth := rfl
@[simp] theorem State.setCan_fresh (s : State) (n : Nat) (c : CanCtl) : (s.setCan n c).fresh = s.fresh := rfl
@[simp] theorem State.setCan_cry (s : State) (n : Nat) (c : CanCtl) : (s.setCan n c).cry = s.cry := rfl
@[simp] theorem State.setCan_yew (s : State) (n : Nat) (c : CanCtl) : (s.setCan n c).yew = s.yew := rfl
@[simp] theorem State.setCan_hq (s : State) (n : Nat) (c : CanCtl) : (s.setCan n c).hq = s.hq := rfl
@[simp] theorem State.setCan_hqReset (s : State) (n : Nat) (c : CanCtl) : (s.setCan n c).hqReset = s.hqReset := rfl
@[simp] theorem State.setCan_bme (s : State) (n : Nat) (c : CanCtl) : (s.setCan n c).bme = s.bme := rfl
@[simp] theorem State.setCan_d3 (s : State) (n : Nat) (c : CanCtl) : (s.setCan n c).d3 = s.d3 := rfl
@[simp] theorem State.setCan_pair (s : State) (n : Nat) (c : CanCtl) : (s.setCan n c).pair = s.pair := rfl
@[simp] theorem State.setCan_obs (s : State) (n : Nat) (c : CanCtl) : (s.setCan n c).obs = s.obs := rfl
@[simp] theorem State.setCan_mono (s : State) (n : Nat) (c : CanCtl) : (s.setCan n c).mono = s.mono := rfl
@[simp] theorem State.setCan_pwr (s : State) (n : Nat) (c : CanCtl) : (s.setCan n c).pwr = s.pwr := rfl
@[simp] theorem State.setCan_wkn (s : State) (n : Nat) (c : CanCtl) : (s.setCan n c).wkn = s.wkn := rfl
@[simp] theorem State.setCan_boot (s : State) (n : Nat) (c : CanCtl) : (s.setCan n c).boot = s.boot := rfl
@[simp] theorem State.setCan_lrl (s : State) (n : Nat) (c : CanCtl) : (s.setCan n c).lrl = s.lrl := rfl
@[simp] theorem State.setCan_fwu (s : State) (n : Nat) (c : CanCtl) : (s.setCan n c).fwu = s.fwu := rfl
@[simp] theorem State.setCan_qspi (s : State) (n : Nat) (c : CanCtl) : (s.setCan n c).qspi = s.qspi := rfl
@[simp] theorem State.setCan_chan (s : State) (n : Nat) (c : CanCtl) : (s.setCan n c).chan = s.chan := rfl
@[simp] theorem State.setCan_arb (s : State) (n : Nat) (c : CanCtl) : (s.setCan n c).arb = s.arb := rfl

/-! State.setHq. -/

@[simp] theorem State.setHq_pending (s : State) (q : Nat) (h : HQueue) : (s.setHq q h).pending = s.pending := rfl
@[simp] theorem State.setHq_freeN (s : State) (q : Nat) (h : HQueue) : (s.setHq q h).freeN = s.freeN := rfl
@[simp] theorem State.setHq_outbox (s : State) (q : Nat) (h : HQueue) : (s.setHq q h).outbox = s.outbox := rfl
@[simp] theorem State.setHq_regs (s : State) (q : Nat) (h : HQueue) : (s.setHq q h).regs = s.regs := rfl
@[simp] theorem State.setHq_shadow (s : State) (q : Nat) (h : HQueue) : (s.setHq q h).shadow = s.shadow := rfl
@[simp] theorem State.setHq_prev (s : State) (q : Nat) (h : HQueue) : (s.setHq q h).prev = s.prev := rfl
@[simp] theorem State.setHq_tab (s : State) (q : Nat) (h : HQueue) : (s.setHq q h).tab = s.tab := rfl
@[simp] theorem State.setHq_bus (s : State) (q : Nat) (h : HQueue) : (s.setHq q h).bus = s.bus := rfl
@[simp] theorem State.setHq_cmt (s : State) (q : Nat) (h : HQueue) : (s.setHq q h).cmt = s.cmt := rfl
@[simp] theorem State.setHq_tsy (s : State) (q : Nat) (h : HQueue) : (s.setHq q h).tsy = s.tsy := rfl
@[simp] theorem State.setHq_xpl (s : State) (q : Nat) (h : HQueue) : (s.setHq q h).xpl = s.xpl := rfl
@[simp] theorem State.setHq_dram (s : State) (q : Nat) (h : HQueue) : (s.setHq q h).dram = s.dram := rfl
@[simp] theorem State.setHq_mram (s : State) (q : Nat) (h : HQueue) : (s.setHq q h).mram = s.mram := rfl
@[simp] theorem State.setHq_lsram (s : State) (q : Nat) (h : HQueue) : (s.setHq q h).lsram = s.lsram := rfl
@[simp] theorem State.setHq_hmem (s : State) (q : Nat) (h : HQueue) : (s.setHq q h).hmem = s.hmem := rfl
@[simp] theorem State.setHq_levels (s : State) (q : Nat) (h : HQueue) : (s.setHq q h).levels = s.levels := rfl
@[simp] theorem State.setHq_vecMask (s : State) (q : Nat) (h : HQueue) : (s.setHq q h).vecMask = s.vecMask := rfl
@[simp] theorem State.setHq_pba (s : State) (q : Nat) (h : HQueue) : (s.setHq q h).pba = s.pba := rfl
@[simp] theorem State.setHq_can (s : State) (q : Nat) (h : HQueue) : (s.setHq q h).can = s.can := rfl
@[simp] theorem State.setHq_prv (s : State) (q : Nat) (h : HQueue) : (s.setHq q h).prv = s.prv := rfl
@[simp] theorem State.setHq_clm (s : State) (q : Nat) (h : HQueue) : (s.setHq q h).clm = s.clm := rfl
@[simp] theorem State.setHq_tpe (s : State) (q : Nat) (h : HQueue) : (s.setHq q h).tpe = s.tpe := rfl
@[simp] theorem State.setHq_swIn (s : State) (q : Nat) (h : HQueue) : (s.setHq q h).swIn = s.swIn := rfl
@[simp] theorem State.setHq_sw (s : State) (q : Nat) (h : HQueue) : (s.setHq q h).sw = s.sw := rfl
@[simp] theorem State.setHq_emac (s : State) (q : Nat) (h : HQueue) : (s.setHq q h).emac = s.emac := rfl
@[simp] theorem State.setHq_rtc (s : State) (q : Nat) (h : HQueue) : (s.setHq q h).rtc = s.rtc := rfl
@[simp] theorem State.setHq_rtcAcc (s : State) (q : Nat) (h : HQueue) : (s.setHq q h).rtcAcc = s.rtcAcc := rfl
@[simp] theorem State.setHq_cauth (s : State) (q : Nat) (h : HQueue) : (s.setHq q h).cauth = s.cauth := rfl
@[simp] theorem State.setHq_fresh (s : State) (q : Nat) (h : HQueue) : (s.setHq q h).fresh = s.fresh := rfl
@[simp] theorem State.setHq_cry (s : State) (q : Nat) (h : HQueue) : (s.setHq q h).cry = s.cry := rfl
@[simp] theorem State.setHq_yew (s : State) (q : Nat) (h : HQueue) : (s.setHq q h).yew = s.yew := rfl
@[simp] theorem State.setHq_hq (s : State) (q : Nat) (h : HQueue) : (s.setHq q h).hq = amSet {} s.hq q h := rfl
@[simp] theorem State.setHq_hqReset (s : State) (q : Nat) (h : HQueue) : (s.setHq q h).hqReset = s.hqReset := rfl
@[simp] theorem State.setHq_bme (s : State) (q : Nat) (h : HQueue) : (s.setHq q h).bme = s.bme := rfl
@[simp] theorem State.setHq_d3 (s : State) (q : Nat) (h : HQueue) : (s.setHq q h).d3 = s.d3 := rfl
@[simp] theorem State.setHq_pair (s : State) (q : Nat) (h : HQueue) : (s.setHq q h).pair = s.pair := rfl
@[simp] theorem State.setHq_obs (s : State) (q : Nat) (h : HQueue) : (s.setHq q h).obs = s.obs := rfl
@[simp] theorem State.setHq_mono (s : State) (q : Nat) (h : HQueue) : (s.setHq q h).mono = s.mono := rfl
@[simp] theorem State.setHq_pwr (s : State) (q : Nat) (h : HQueue) : (s.setHq q h).pwr = s.pwr := rfl
@[simp] theorem State.setHq_wkn (s : State) (q : Nat) (h : HQueue) : (s.setHq q h).wkn = s.wkn := rfl
@[simp] theorem State.setHq_boot (s : State) (q : Nat) (h : HQueue) : (s.setHq q h).boot = s.boot := rfl
@[simp] theorem State.setHq_lrl (s : State) (q : Nat) (h : HQueue) : (s.setHq q h).lrl = s.lrl := rfl
@[simp] theorem State.setHq_fwu (s : State) (q : Nat) (h : HQueue) : (s.setHq q h).fwu = s.fwu := rfl
@[simp] theorem State.setHq_qspi (s : State) (q : Nat) (h : HQueue) : (s.setHq q h).qspi = s.qspi := rfl
@[simp] theorem State.setHq_chan (s : State) (q : Nat) (h : HQueue) : (s.setHq q h).chan = s.chan := rfl
@[simp] theorem State.setHq_arb (s : State) (q : Nat) (h : HQueue) : (s.setHq q h).arb = s.arb := rfl

/-! State.setEmac. -/

@[simp] theorem State.setEmac_pending (s : State) (n : Nat) (e : Emac) : (s.setEmac n e).pending = s.pending := rfl
@[simp] theorem State.setEmac_freeN (s : State) (n : Nat) (e : Emac) : (s.setEmac n e).freeN = s.freeN := rfl
@[simp] theorem State.setEmac_outbox (s : State) (n : Nat) (e : Emac) : (s.setEmac n e).outbox = s.outbox := rfl
@[simp] theorem State.setEmac_regs (s : State) (n : Nat) (e : Emac) : (s.setEmac n e).regs = s.regs := rfl
@[simp] theorem State.setEmac_shadow (s : State) (n : Nat) (e : Emac) : (s.setEmac n e).shadow = s.shadow := rfl
@[simp] theorem State.setEmac_prev (s : State) (n : Nat) (e : Emac) : (s.setEmac n e).prev = s.prev := rfl
@[simp] theorem State.setEmac_tab (s : State) (n : Nat) (e : Emac) : (s.setEmac n e).tab = s.tab := rfl
@[simp] theorem State.setEmac_bus (s : State) (n : Nat) (e : Emac) : (s.setEmac n e).bus = s.bus := rfl
@[simp] theorem State.setEmac_cmt (s : State) (n : Nat) (e : Emac) : (s.setEmac n e).cmt = s.cmt := rfl
@[simp] theorem State.setEmac_tsy (s : State) (n : Nat) (e : Emac) : (s.setEmac n e).tsy = s.tsy := rfl
@[simp] theorem State.setEmac_xpl (s : State) (n : Nat) (e : Emac) : (s.setEmac n e).xpl = s.xpl := rfl
@[simp] theorem State.setEmac_dram (s : State) (n : Nat) (e : Emac) : (s.setEmac n e).dram = s.dram := rfl
@[simp] theorem State.setEmac_mram (s : State) (n : Nat) (e : Emac) : (s.setEmac n e).mram = s.mram := rfl
@[simp] theorem State.setEmac_lsram (s : State) (n : Nat) (e : Emac) : (s.setEmac n e).lsram = s.lsram := rfl
@[simp] theorem State.setEmac_hmem (s : State) (n : Nat) (e : Emac) : (s.setEmac n e).hmem = s.hmem := rfl
@[simp] theorem State.setEmac_levels (s : State) (n : Nat) (e : Emac) : (s.setEmac n e).levels = s.levels := rfl
@[simp] theorem State.setEmac_vecMask (s : State) (n : Nat) (e : Emac) : (s.setEmac n e).vecMask = s.vecMask := rfl
@[simp] theorem State.setEmac_pba (s : State) (n : Nat) (e : Emac) : (s.setEmac n e).pba = s.pba := rfl
@[simp] theorem State.setEmac_can (s : State) (n : Nat) (e : Emac) : (s.setEmac n e).can = s.can := rfl
@[simp] theorem State.setEmac_prv (s : State) (n : Nat) (e : Emac) : (s.setEmac n e).prv = s.prv := rfl
@[simp] theorem State.setEmac_clm (s : State) (n : Nat) (e : Emac) : (s.setEmac n e).clm = s.clm := rfl
@[simp] theorem State.setEmac_tpe (s : State) (n : Nat) (e : Emac) : (s.setEmac n e).tpe = s.tpe := rfl
@[simp] theorem State.setEmac_swIn (s : State) (n : Nat) (e : Emac) : (s.setEmac n e).swIn = s.swIn := rfl
@[simp] theorem State.setEmac_sw (s : State) (n : Nat) (e : Emac) : (s.setEmac n e).sw = s.sw := rfl
@[simp] theorem State.setEmac_emac (s : State) (n : Nat) (e : Emac) : (s.setEmac n e).emac = amSet {} s.emac n e := rfl
@[simp] theorem State.setEmac_rtc (s : State) (n : Nat) (e : Emac) : (s.setEmac n e).rtc = s.rtc := rfl
@[simp] theorem State.setEmac_rtcAcc (s : State) (n : Nat) (e : Emac) : (s.setEmac n e).rtcAcc = s.rtcAcc := rfl
@[simp] theorem State.setEmac_cauth (s : State) (n : Nat) (e : Emac) : (s.setEmac n e).cauth = s.cauth := rfl
@[simp] theorem State.setEmac_fresh (s : State) (n : Nat) (e : Emac) : (s.setEmac n e).fresh = s.fresh := rfl
@[simp] theorem State.setEmac_cry (s : State) (n : Nat) (e : Emac) : (s.setEmac n e).cry = s.cry := rfl
@[simp] theorem State.setEmac_yew (s : State) (n : Nat) (e : Emac) : (s.setEmac n e).yew = s.yew := rfl
@[simp] theorem State.setEmac_hq (s : State) (n : Nat) (e : Emac) : (s.setEmac n e).hq = s.hq := rfl
@[simp] theorem State.setEmac_hqReset (s : State) (n : Nat) (e : Emac) : (s.setEmac n e).hqReset = s.hqReset := rfl
@[simp] theorem State.setEmac_bme (s : State) (n : Nat) (e : Emac) : (s.setEmac n e).bme = s.bme := rfl
@[simp] theorem State.setEmac_d3 (s : State) (n : Nat) (e : Emac) : (s.setEmac n e).d3 = s.d3 := rfl
@[simp] theorem State.setEmac_pair (s : State) (n : Nat) (e : Emac) : (s.setEmac n e).pair = s.pair := rfl
@[simp] theorem State.setEmac_obs (s : State) (n : Nat) (e : Emac) : (s.setEmac n e).obs = s.obs := rfl
@[simp] theorem State.setEmac_mono (s : State) (n : Nat) (e : Emac) : (s.setEmac n e).mono = s.mono := rfl
@[simp] theorem State.setEmac_pwr (s : State) (n : Nat) (e : Emac) : (s.setEmac n e).pwr = s.pwr := rfl
@[simp] theorem State.setEmac_wkn (s : State) (n : Nat) (e : Emac) : (s.setEmac n e).wkn = s.wkn := rfl
@[simp] theorem State.setEmac_boot (s : State) (n : Nat) (e : Emac) : (s.setEmac n e).boot = s.boot := rfl
@[simp] theorem State.setEmac_lrl (s : State) (n : Nat) (e : Emac) : (s.setEmac n e).lrl = s.lrl := rfl
@[simp] theorem State.setEmac_fwu (s : State) (n : Nat) (e : Emac) : (s.setEmac n e).fwu = s.fwu := rfl
@[simp] theorem State.setEmac_qspi (s : State) (n : Nat) (e : Emac) : (s.setEmac n e).qspi = s.qspi := rfl
@[simp] theorem State.setEmac_chan (s : State) (n : Nat) (e : Emac) : (s.setEmac n e).chan = s.chan := rfl
@[simp] theorem State.setEmac_arb (s : State) (n : Nat) (e : Emac) : (s.setEmac n e).arb = s.arb := rfl

/-! State.setChan. -/

@[simp] theorem State.setChan_pending (s : State) (n : Nat) (c : Chan) : (s.setChan n c).pending = s.pending := rfl
@[simp] theorem State.setChan_freeN (s : State) (n : Nat) (c : Chan) : (s.setChan n c).freeN = s.freeN := rfl
@[simp] theorem State.setChan_outbox (s : State) (n : Nat) (c : Chan) : (s.setChan n c).outbox = s.outbox := rfl
@[simp] theorem State.setChan_regs (s : State) (n : Nat) (c : Chan) : (s.setChan n c).regs = s.regs := rfl
@[simp] theorem State.setChan_shadow (s : State) (n : Nat) (c : Chan) : (s.setChan n c).shadow = s.shadow := rfl
@[simp] theorem State.setChan_prev (s : State) (n : Nat) (c : Chan) : (s.setChan n c).prev = s.prev := rfl
@[simp] theorem State.setChan_tab (s : State) (n : Nat) (c : Chan) : (s.setChan n c).tab = s.tab := rfl
@[simp] theorem State.setChan_bus (s : State) (n : Nat) (c : Chan) : (s.setChan n c).bus = s.bus := rfl
@[simp] theorem State.setChan_cmt (s : State) (n : Nat) (c : Chan) : (s.setChan n c).cmt = s.cmt := rfl
@[simp] theorem State.setChan_tsy (s : State) (n : Nat) (c : Chan) : (s.setChan n c).tsy = s.tsy := rfl
@[simp] theorem State.setChan_xpl (s : State) (n : Nat) (c : Chan) : (s.setChan n c).xpl = s.xpl := rfl
@[simp] theorem State.setChan_dram (s : State) (n : Nat) (c : Chan) : (s.setChan n c).dram = s.dram := rfl
@[simp] theorem State.setChan_mram (s : State) (n : Nat) (c : Chan) : (s.setChan n c).mram = s.mram := rfl
@[simp] theorem State.setChan_lsram (s : State) (n : Nat) (c : Chan) : (s.setChan n c).lsram = s.lsram := rfl
@[simp] theorem State.setChan_hmem (s : State) (n : Nat) (c : Chan) : (s.setChan n c).hmem = s.hmem := rfl
@[simp] theorem State.setChan_levels (s : State) (n : Nat) (c : Chan) : (s.setChan n c).levels = s.levels := rfl
@[simp] theorem State.setChan_vecMask (s : State) (n : Nat) (c : Chan) : (s.setChan n c).vecMask = s.vecMask := rfl
@[simp] theorem State.setChan_pba (s : State) (n : Nat) (c : Chan) : (s.setChan n c).pba = s.pba := rfl
@[simp] theorem State.setChan_can (s : State) (n : Nat) (c : Chan) : (s.setChan n c).can = s.can := rfl
@[simp] theorem State.setChan_prv (s : State) (n : Nat) (c : Chan) : (s.setChan n c).prv = s.prv := rfl
@[simp] theorem State.setChan_clm (s : State) (n : Nat) (c : Chan) : (s.setChan n c).clm = s.clm := rfl
@[simp] theorem State.setChan_tpe (s : State) (n : Nat) (c : Chan) : (s.setChan n c).tpe = s.tpe := rfl
@[simp] theorem State.setChan_swIn (s : State) (n : Nat) (c : Chan) : (s.setChan n c).swIn = s.swIn := rfl
@[simp] theorem State.setChan_sw (s : State) (n : Nat) (c : Chan) : (s.setChan n c).sw = s.sw := rfl
@[simp] theorem State.setChan_emac (s : State) (n : Nat) (c : Chan) : (s.setChan n c).emac = s.emac := rfl
@[simp] theorem State.setChan_rtc (s : State) (n : Nat) (c : Chan) : (s.setChan n c).rtc = s.rtc := rfl
@[simp] theorem State.setChan_rtcAcc (s : State) (n : Nat) (c : Chan) : (s.setChan n c).rtcAcc = s.rtcAcc := rfl
@[simp] theorem State.setChan_cauth (s : State) (n : Nat) (c : Chan) : (s.setChan n c).cauth = s.cauth := rfl
@[simp] theorem State.setChan_fresh (s : State) (n : Nat) (c : Chan) : (s.setChan n c).fresh = s.fresh := rfl
@[simp] theorem State.setChan_cry (s : State) (n : Nat) (c : Chan) : (s.setChan n c).cry = s.cry := rfl
@[simp] theorem State.setChan_yew (s : State) (n : Nat) (c : Chan) : (s.setChan n c).yew = s.yew := rfl
@[simp] theorem State.setChan_hq (s : State) (n : Nat) (c : Chan) : (s.setChan n c).hq = s.hq := rfl
@[simp] theorem State.setChan_hqReset (s : State) (n : Nat) (c : Chan) : (s.setChan n c).hqReset = s.hqReset := rfl
@[simp] theorem State.setChan_bme (s : State) (n : Nat) (c : Chan) : (s.setChan n c).bme = s.bme := rfl
@[simp] theorem State.setChan_d3 (s : State) (n : Nat) (c : Chan) : (s.setChan n c).d3 = s.d3 := rfl
@[simp] theorem State.setChan_pair (s : State) (n : Nat) (c : Chan) : (s.setChan n c).pair = s.pair := rfl
@[simp] theorem State.setChan_obs (s : State) (n : Nat) (c : Chan) : (s.setChan n c).obs = s.obs := rfl
@[simp] theorem State.setChan_mono (s : State) (n : Nat) (c : Chan) : (s.setChan n c).mono = s.mono := rfl
@[simp] theorem State.setChan_pwr (s : State) (n : Nat) (c : Chan) : (s.setChan n c).pwr = s.pwr := rfl
@[simp] theorem State.setChan_wkn (s : State) (n : Nat) (c : Chan) : (s.setChan n c).wkn = s.wkn := rfl
@[simp] theorem State.setChan_boot (s : State) (n : Nat) (c : Chan) : (s.setChan n c).boot = s.boot := rfl
@[simp] theorem State.setChan_lrl (s : State) (n : Nat) (c : Chan) : (s.setChan n c).lrl = s.lrl := rfl
@[simp] theorem State.setChan_fwu (s : State) (n : Nat) (c : Chan) : (s.setChan n c).fwu = s.fwu := rfl
@[simp] theorem State.setChan_qspi (s : State) (n : Nat) (c : Chan) : (s.setChan n c).qspi = s.qspi := rfl
@[simp] theorem State.setChan_chan (s : State) (n : Nat) (c : Chan) : (s.setChan n c).chan = amSet {} s.chan n c := rfl
@[simp] theorem State.setChan_arb (s : State) (n : Nat) (c : Chan) : (s.setChan n c).arb = s.arb := rfl

/-! State.setDom. -/

@[simp] theorem State.setDom_pending (s : State) (k : Nat) (d : Dom) : (s.setDom k d).pending = s.pending := rfl
@[simp] theorem State.setDom_freeN (s : State) (k : Nat) (d : Dom) : (s.setDom k d).freeN = s.freeN := rfl
@[simp] theorem State.setDom_outbox (s : State) (k : Nat) (d : Dom) : (s.setDom k d).outbox = s.outbox := rfl
@[simp] theorem State.setDom_regs (s : State) (k : Nat) (d : Dom) : (s.setDom k d).regs = s.regs := rfl
@[simp] theorem State.setDom_shadow (s : State) (k : Nat) (d : Dom) : (s.setDom k d).shadow = s.shadow := rfl
@[simp] theorem State.setDom_prev (s : State) (k : Nat) (d : Dom) : (s.setDom k d).prev = s.prev := rfl
@[simp] theorem State.setDom_tab (s : State) (k : Nat) (d : Dom) : (s.setDom k d).tab = s.tab := rfl
@[simp] theorem State.setDom_bus (s : State) (k : Nat) (d : Dom) : (s.setDom k d).bus = s.bus := rfl
@[simp] theorem State.setDom_cmt (s : State) (k : Nat) (d : Dom) : (s.setDom k d).cmt = s.cmt := rfl
@[simp] theorem State.setDom_tsy (s : State) (k : Nat) (d : Dom) : (s.setDom k d).tsy = s.tsy := rfl
@[simp] theorem State.setDom_xpl (s : State) (k : Nat) (d : Dom) : (s.setDom k d).xpl = s.xpl := rfl
@[simp] theorem State.setDom_dram (s : State) (k : Nat) (d : Dom) : (s.setDom k d).dram = s.dram := rfl
@[simp] theorem State.setDom_mram (s : State) (k : Nat) (d : Dom) : (s.setDom k d).mram = s.mram := rfl
@[simp] theorem State.setDom_lsram (s : State) (k : Nat) (d : Dom) : (s.setDom k d).lsram = s.lsram := rfl
@[simp] theorem State.setDom_hmem (s : State) (k : Nat) (d : Dom) : (s.setDom k d).hmem = s.hmem := rfl
@[simp] theorem State.setDom_levels (s : State) (k : Nat) (d : Dom) : (s.setDom k d).levels = s.levels := rfl
@[simp] theorem State.setDom_vecMask (s : State) (k : Nat) (d : Dom) : (s.setDom k d).vecMask = s.vecMask := rfl
@[simp] theorem State.setDom_pba (s : State) (k : Nat) (d : Dom) : (s.setDom k d).pba = s.pba := rfl
@[simp] theorem State.setDom_can (s : State) (k : Nat) (d : Dom) : (s.setDom k d).can = s.can := rfl
@[simp] theorem State.setDom_prv (s : State) (k : Nat) (d : Dom) : (s.setDom k d).prv = s.prv := rfl
@[simp] theorem State.setDom_clm (s : State) (k : Nat) (d : Dom) : (s.setDom k d).clm = s.clm := rfl
@[simp] theorem State.setDom_tpe (s : State) (k : Nat) (d : Dom) : (s.setDom k d).tpe = s.tpe := rfl
@[simp] theorem State.setDom_swIn (s : State) (k : Nat) (d : Dom) : (s.setDom k d).swIn = s.swIn := rfl
@[simp] theorem State.setDom_sw (s : State) (k : Nat) (d : Dom) : (s.setDom k d).sw = s.sw := rfl
@[simp] theorem State.setDom_emac (s : State) (k : Nat) (d : Dom) : (s.setDom k d).emac = s.emac := rfl
@[simp] theorem State.setDom_rtc (s : State) (k : Nat) (d : Dom) : (s.setDom k d).rtc = s.rtc := rfl
@[simp] theorem State.setDom_rtcAcc (s : State) (k : Nat) (d : Dom) : (s.setDom k d).rtcAcc = s.rtcAcc := rfl
@[simp] theorem State.setDom_cauth (s : State) (k : Nat) (d : Dom) : (s.setDom k d).cauth = s.cauth := rfl
@[simp] theorem State.setDom_fresh (s : State) (k : Nat) (d : Dom) : (s.setDom k d).fresh = s.fresh := rfl
@[simp] theorem State.setDom_cry (s : State) (k : Nat) (d : Dom) : (s.setDom k d).cry = s.cry := rfl
@[simp] theorem State.setDom_yew (s : State) (k : Nat) (d : Dom) : (s.setDom k d).yew = s.yew := rfl
@[simp] theorem State.setDom_hq (s : State) (k : Nat) (d : Dom) : (s.setDom k d).hq = s.hq := rfl
@[simp] theorem State.setDom_hqReset (s : State) (k : Nat) (d : Dom) : (s.setDom k d).hqReset = s.hqReset := rfl
@[simp] theorem State.setDom_bme (s : State) (k : Nat) (d : Dom) : (s.setDom k d).bme = s.bme := rfl
@[simp] theorem State.setDom_d3 (s : State) (k : Nat) (d : Dom) : (s.setDom k d).d3 = s.d3 := rfl
@[simp] theorem State.setDom_pair (s : State) (k : Nat) (d : Dom) : (s.setDom k d).pair = s.pair := rfl
@[simp] theorem State.setDom_obs (s : State) (k : Nat) (d : Dom) : (s.setDom k d).obs = s.obs := rfl
@[simp] theorem State.setDom_mono (s : State) (k : Nat) (d : Dom) : (s.setDom k d).mono = s.mono := rfl
@[simp] theorem State.setDom_pwr (s : State) (k : Nat) (d : Dom) : (s.setDom k d).pwr = s.pwr := rfl
@[simp] theorem State.setDom_wkn (s : State) (k : Nat) (d : Dom) : (s.setDom k d).wkn = { s.wkn with dom := amSet {} s.wkn.dom k d } := rfl
@[simp] theorem State.setDom_boot (s : State) (k : Nat) (d : Dom) : (s.setDom k d).boot = s.boot := rfl
@[simp] theorem State.setDom_lrl (s : State) (k : Nat) (d : Dom) : (s.setDom k d).lrl = s.lrl := rfl
@[simp] theorem State.setDom_fwu (s : State) (k : Nat) (d : Dom) : (s.setDom k d).fwu = s.fwu := rfl
@[simp] theorem State.setDom_qspi (s : State) (k : Nat) (d : Dom) : (s.setDom k d).qspi = s.qspi := rfl
@[simp] theorem State.setDom_chan (s : State) (k : Nat) (d : Dom) : (s.setDom k d).chan = s.chan := rfl
@[simp] theorem State.setDom_arb (s : State) (k : Nat) (d : Dom) : (s.setDom k d).arb = s.arb := rfl

/-! State.setSw. -/

@[simp] theorem State.setSw_pending (s : State) (w : Switch) : (s.setSw w).pending = s.pending := rfl
@[simp] theorem State.setSw_freeN (s : State) (w : Switch) : (s.setSw w).freeN = s.freeN := rfl
@[simp] theorem State.setSw_outbox (s : State) (w : Switch) : (s.setSw w).outbox = s.outbox := rfl
@[simp] theorem State.setSw_regs (s : State) (w : Switch) : (s.setSw w).regs = s.regs := rfl
@[simp] theorem State.setSw_shadow (s : State) (w : Switch) : (s.setSw w).shadow = s.shadow := rfl
@[simp] theorem State.setSw_prev (s : State) (w : Switch) : (s.setSw w).prev = s.prev := rfl
@[simp] theorem State.setSw_tab (s : State) (w : Switch) : (s.setSw w).tab = s.tab := rfl
@[simp] theorem State.setSw_bus (s : State) (w : Switch) : (s.setSw w).bus = s.bus := rfl
@[simp] theorem State.setSw_cmt (s : State) (w : Switch) : (s.setSw w).cmt = s.cmt := rfl
@[simp] theorem State.setSw_tsy (s : State) (w : Switch) : (s.setSw w).tsy = s.tsy := rfl
@[simp] theorem State.setSw_xpl (s : State) (w : Switch) : (s.setSw w).xpl = s.xpl := rfl
@[simp] theorem State.setSw_dram (s : State) (w : Switch) : (s.setSw w).dram = s.dram := rfl
@[simp] theorem State.setSw_mram (s : State) (w : Switch) : (s.setSw w).mram = s.mram := rfl
@[simp] theorem State.setSw_lsram (s : State) (w : Switch) : (s.setSw w).lsram = s.lsram := rfl
@[simp] theorem State.setSw_hmem (s : State) (w : Switch) : (s.setSw w).hmem = s.hmem := rfl
@[simp] theorem State.setSw_levels (s : State) (w : Switch) : (s.setSw w).levels = s.levels := rfl
@[simp] theorem State.setSw_vecMask (s : State) (w : Switch) : (s.setSw w).vecMask = s.vecMask := rfl
@[simp] theorem State.setSw_pba (s : State) (w : Switch) : (s.setSw w).pba = s.pba := rfl
@[simp] theorem State.setSw_can (s : State) (w : Switch) : (s.setSw w).can = s.can := rfl
@[simp] theorem State.setSw_prv (s : State) (w : Switch) : (s.setSw w).prv = s.prv := rfl
@[simp] theorem State.setSw_clm (s : State) (w : Switch) : (s.setSw w).clm = s.clm := rfl
@[simp] theorem State.setSw_tpe (s : State) (w : Switch) : (s.setSw w).tpe = s.tpe := rfl
@[simp] theorem State.setSw_swIn (s : State) (w : Switch) : (s.setSw w).swIn = s.swIn := rfl
@[simp] theorem State.setSw_sw (s : State) (w : Switch) : (s.setSw w).sw = w := rfl
@[simp] theorem State.setSw_emac (s : State) (w : Switch) : (s.setSw w).emac = s.emac := rfl
@[simp] theorem State.setSw_rtc (s : State) (w : Switch) : (s.setSw w).rtc = s.rtc := rfl
@[simp] theorem State.setSw_rtcAcc (s : State) (w : Switch) : (s.setSw w).rtcAcc = s.rtcAcc := rfl
@[simp] theorem State.setSw_cauth (s : State) (w : Switch) : (s.setSw w).cauth = s.cauth := rfl
@[simp] theorem State.setSw_fresh (s : State) (w : Switch) : (s.setSw w).fresh = s.fresh := rfl
@[simp] theorem State.setSw_cry (s : State) (w : Switch) : (s.setSw w).cry = s.cry := rfl
@[simp] theorem State.setSw_yew (s : State) (w : Switch) : (s.setSw w).yew = s.yew := rfl
@[simp] theorem State.setSw_hq (s : State) (w : Switch) : (s.setSw w).hq = s.hq := rfl
@[simp] theorem State.setSw_hqReset (s : State) (w : Switch) : (s.setSw w).hqReset = s.hqReset := rfl
@[simp] theorem State.setSw_bme (s : State) (w : Switch) : (s.setSw w).bme = s.bme := rfl
@[simp] theorem State.setSw_d3 (s : State) (w : Switch) : (s.setSw w).d3 = s.d3 := rfl
@[simp] theorem State.setSw_pair (s : State) (w : Switch) : (s.setSw w).pair = s.pair := rfl
@[simp] theorem State.setSw_obs (s : State) (w : Switch) : (s.setSw w).obs = s.obs := rfl
@[simp] theorem State.setSw_mono (s : State) (w : Switch) : (s.setSw w).mono = s.mono := rfl
@[simp] theorem State.setSw_pwr (s : State) (w : Switch) : (s.setSw w).pwr = s.pwr := rfl
@[simp] theorem State.setSw_wkn (s : State) (w : Switch) : (s.setSw w).wkn = s.wkn := rfl
@[simp] theorem State.setSw_boot (s : State) (w : Switch) : (s.setSw w).boot = s.boot := rfl
@[simp] theorem State.setSw_lrl (s : State) (w : Switch) : (s.setSw w).lrl = s.lrl := rfl
@[simp] theorem State.setSw_fwu (s : State) (w : Switch) : (s.setSw w).fwu = s.fwu := rfl
@[simp] theorem State.setSw_qspi (s : State) (w : Switch) : (s.setSw w).qspi = s.qspi := rfl
@[simp] theorem State.setSw_chan (s : State) (w : Switch) : (s.setSw w).chan = s.chan := rfl
@[simp] theorem State.setSw_arb (s : State) (w : Switch) : (s.setSw w).arb = s.arb := rfl

/-! State.setXpl. -/

@[simp] theorem State.setXpl_pending (s : State) (x : Xpl) : (s.setXpl x).pending = s.pending := rfl
@[simp] theorem State.setXpl_freeN (s : State) (x : Xpl) : (s.setXpl x).freeN = s.freeN := rfl
@[simp] theorem State.setXpl_outbox (s : State) (x : Xpl) : (s.setXpl x).outbox = s.outbox := rfl
@[simp] theorem State.setXpl_regs (s : State) (x : Xpl) : (s.setXpl x).regs = s.regs := rfl
@[simp] theorem State.setXpl_shadow (s : State) (x : Xpl) : (s.setXpl x).shadow = s.shadow := rfl
@[simp] theorem State.setXpl_prev (s : State) (x : Xpl) : (s.setXpl x).prev = s.prev := rfl
@[simp] theorem State.setXpl_tab (s : State) (x : Xpl) : (s.setXpl x).tab = s.tab := rfl
@[simp] theorem State.setXpl_bus (s : State) (x : Xpl) : (s.setXpl x).bus = s.bus := rfl
@[simp] theorem State.setXpl_cmt (s : State) (x : Xpl) : (s.setXpl x).cmt = s.cmt := rfl
@[simp] theorem State.setXpl_tsy (s : State) (x : Xpl) : (s.setXpl x).tsy = s.tsy := rfl
@[simp] theorem State.setXpl_xpl (s : State) (x : Xpl) : (s.setXpl x).xpl = x := rfl
@[simp] theorem State.setXpl_dram (s : State) (x : Xpl) : (s.setXpl x).dram = s.dram := rfl
@[simp] theorem State.setXpl_mram (s : State) (x : Xpl) : (s.setXpl x).mram = s.mram := rfl
@[simp] theorem State.setXpl_lsram (s : State) (x : Xpl) : (s.setXpl x).lsram = s.lsram := rfl
@[simp] theorem State.setXpl_hmem (s : State) (x : Xpl) : (s.setXpl x).hmem = s.hmem := rfl
@[simp] theorem State.setXpl_levels (s : State) (x : Xpl) : (s.setXpl x).levels = s.levels := rfl
@[simp] theorem State.setXpl_vecMask (s : State) (x : Xpl) : (s.setXpl x).vecMask = s.vecMask := rfl
@[simp] theorem State.setXpl_pba (s : State) (x : Xpl) : (s.setXpl x).pba = s.pba := rfl
@[simp] theorem State.setXpl_can (s : State) (x : Xpl) : (s.setXpl x).can = s.can := rfl
@[simp] theorem State.setXpl_prv (s : State) (x : Xpl) : (s.setXpl x).prv = s.prv := rfl
@[simp] theorem State.setXpl_clm (s : State) (x : Xpl) : (s.setXpl x).clm = s.clm := rfl
@[simp] theorem State.setXpl_tpe (s : State) (x : Xpl) : (s.setXpl x).tpe = s.tpe := rfl
@[simp] theorem State.setXpl_swIn (s : State) (x : Xpl) : (s.setXpl x).swIn = s.swIn := rfl
@[simp] theorem State.setXpl_sw (s : State) (x : Xpl) : (s.setXpl x).sw = s.sw := rfl
@[simp] theorem State.setXpl_emac (s : State) (x : Xpl) : (s.setXpl x).emac = s.emac := rfl
@[simp] theorem State.setXpl_rtc (s : State) (x : Xpl) : (s.setXpl x).rtc = s.rtc := rfl
@[simp] theorem State.setXpl_rtcAcc (s : State) (x : Xpl) : (s.setXpl x).rtcAcc = s.rtcAcc := rfl
@[simp] theorem State.setXpl_cauth (s : State) (x : Xpl) : (s.setXpl x).cauth = s.cauth := rfl
@[simp] theorem State.setXpl_fresh (s : State) (x : Xpl) : (s.setXpl x).fresh = s.fresh := rfl
@[simp] theorem State.setXpl_cry (s : State) (x : Xpl) : (s.setXpl x).cry = s.cry := rfl
@[simp] theorem State.setXpl_yew (s : State) (x : Xpl) : (s.setXpl x).yew = s.yew := rfl
@[simp] theorem State.setXpl_hq (s : State) (x : Xpl) : (s.setXpl x).hq = s.hq := rfl
@[simp] theorem State.setXpl_hqReset (s : State) (x : Xpl) : (s.setXpl x).hqReset = s.hqReset := rfl
@[simp] theorem State.setXpl_bme (s : State) (x : Xpl) : (s.setXpl x).bme = s.bme := rfl
@[simp] theorem State.setXpl_d3 (s : State) (x : Xpl) : (s.setXpl x).d3 = s.d3 := rfl
@[simp] theorem State.setXpl_pair (s : State) (x : Xpl) : (s.setXpl x).pair = s.pair := rfl
@[simp] theorem State.setXpl_obs (s : State) (x : Xpl) : (s.setXpl x).obs = s.obs := rfl
@[simp] theorem State.setXpl_mono (s : State) (x : Xpl) : (s.setXpl x).mono = s.mono := rfl
@[simp] theorem State.setXpl_pwr (s : State) (x : Xpl) : (s.setXpl x).pwr = s.pwr := rfl
@[simp] theorem State.setXpl_wkn (s : State) (x : Xpl) : (s.setXpl x).wkn = s.wkn := rfl
@[simp] theorem State.setXpl_boot (s : State) (x : Xpl) : (s.setXpl x).boot = s.boot := rfl
@[simp] theorem State.setXpl_lrl (s : State) (x : Xpl) : (s.setXpl x).lrl = s.lrl := rfl
@[simp] theorem State.setXpl_fwu (s : State) (x : Xpl) : (s.setXpl x).fwu = s.fwu := rfl
@[simp] theorem State.setXpl_qspi (s : State) (x : Xpl) : (s.setXpl x).qspi = s.qspi := rfl
@[simp] theorem State.setXpl_chan (s : State) (x : Xpl) : (s.setXpl x).chan = s.chan := rfl
@[simp] theorem State.setXpl_arb (s : State) (x : Xpl) : (s.setXpl x).arb = s.arb := rfl

/-! State.setLrl. -/

@[simp] theorem State.setLrl_pending (s : State) (l : Lrl) : (s.setLrl l).pending = s.pending := rfl
@[simp] theorem State.setLrl_freeN (s : State) (l : Lrl) : (s.setLrl l).freeN = s.freeN := rfl
@[simp] theorem State.setLrl_outbox (s : State) (l : Lrl) : (s.setLrl l).outbox = s.outbox := rfl
@[simp] theorem State.setLrl_regs (s : State) (l : Lrl) : (s.setLrl l).regs = s.regs := rfl
@[simp] theorem State.setLrl_shadow (s : State) (l : Lrl) : (s.setLrl l).shadow = s.shadow := rfl
@[simp] theorem State.setLrl_prev (s : State) (l : Lrl) : (s.setLrl l).prev = s.prev := rfl
@[simp] theorem State.setLrl_tab (s : State) (l : Lrl) : (s.setLrl l).tab = s.tab := rfl
@[simp] theorem State.setLrl_bus (s : State) (l : Lrl) : (s.setLrl l).bus = s.bus := rfl
@[simp] theorem State.setLrl_cmt (s : State) (l : Lrl) : (s.setLrl l).cmt = s.cmt := rfl
@[simp] theorem State.setLrl_tsy (s : State) (l : Lrl) : (s.setLrl l).tsy = s.tsy := rfl
@[simp] theorem State.setLrl_xpl (s : State) (l : Lrl) : (s.setLrl l).xpl = s.xpl := rfl
@[simp] theorem State.setLrl_dram (s : State) (l : Lrl) : (s.setLrl l).dram = s.dram := rfl
@[simp] theorem State.setLrl_mram (s : State) (l : Lrl) : (s.setLrl l).mram = s.mram := rfl
@[simp] theorem State.setLrl_lsram (s : State) (l : Lrl) : (s.setLrl l).lsram = s.lsram := rfl
@[simp] theorem State.setLrl_hmem (s : State) (l : Lrl) : (s.setLrl l).hmem = s.hmem := rfl
@[simp] theorem State.setLrl_levels (s : State) (l : Lrl) : (s.setLrl l).levels = s.levels := rfl
@[simp] theorem State.setLrl_vecMask (s : State) (l : Lrl) : (s.setLrl l).vecMask = s.vecMask := rfl
@[simp] theorem State.setLrl_pba (s : State) (l : Lrl) : (s.setLrl l).pba = s.pba := rfl
@[simp] theorem State.setLrl_can (s : State) (l : Lrl) : (s.setLrl l).can = s.can := rfl
@[simp] theorem State.setLrl_prv (s : State) (l : Lrl) : (s.setLrl l).prv = s.prv := rfl
@[simp] theorem State.setLrl_clm (s : State) (l : Lrl) : (s.setLrl l).clm = s.clm := rfl
@[simp] theorem State.setLrl_tpe (s : State) (l : Lrl) : (s.setLrl l).tpe = s.tpe := rfl
@[simp] theorem State.setLrl_swIn (s : State) (l : Lrl) : (s.setLrl l).swIn = s.swIn := rfl
@[simp] theorem State.setLrl_sw (s : State) (l : Lrl) : (s.setLrl l).sw = s.sw := rfl
@[simp] theorem State.setLrl_emac (s : State) (l : Lrl) : (s.setLrl l).emac = s.emac := rfl
@[simp] theorem State.setLrl_rtc (s : State) (l : Lrl) : (s.setLrl l).rtc = s.rtc := rfl
@[simp] theorem State.setLrl_rtcAcc (s : State) (l : Lrl) : (s.setLrl l).rtcAcc = s.rtcAcc := rfl
@[simp] theorem State.setLrl_cauth (s : State) (l : Lrl) : (s.setLrl l).cauth = s.cauth := rfl
@[simp] theorem State.setLrl_fresh (s : State) (l : Lrl) : (s.setLrl l).fresh = s.fresh := rfl
@[simp] theorem State.setLrl_cry (s : State) (l : Lrl) : (s.setLrl l).cry = s.cry := rfl
@[simp] theorem State.setLrl_yew (s : State) (l : Lrl) : (s.setLrl l).yew = s.yew := rfl
@[simp] theorem State.setLrl_hq (s : State) (l : Lrl) : (s.setLrl l).hq = s.hq := rfl
@[simp] theorem State.setLrl_hqReset (s : State) (l : Lrl) : (s.setLrl l).hqReset = s.hqReset := rfl
@[simp] theorem State.setLrl_bme (s : State) (l : Lrl) : (s.setLrl l).bme = s.bme := rfl
@[simp] theorem State.setLrl_d3 (s : State) (l : Lrl) : (s.setLrl l).d3 = s.d3 := rfl
@[simp] theorem State.setLrl_pair (s : State) (l : Lrl) : (s.setLrl l).pair = s.pair := rfl
@[simp] theorem State.setLrl_obs (s : State) (l : Lrl) : (s.setLrl l).obs = s.obs := rfl
@[simp] theorem State.setLrl_mono (s : State) (l : Lrl) : (s.setLrl l).mono = s.mono := rfl
@[simp] theorem State.setLrl_pwr (s : State) (l : Lrl) : (s.setLrl l).pwr = s.pwr := rfl
@[simp] theorem State.setLrl_wkn (s : State) (l : Lrl) : (s.setLrl l).wkn = s.wkn := rfl
@[simp] theorem State.setLrl_boot (s : State) (l : Lrl) : (s.setLrl l).boot = s.boot := rfl
@[simp] theorem State.setLrl_lrl (s : State) (l : Lrl) : (s.setLrl l).lrl = l := rfl
@[simp] theorem State.setLrl_fwu (s : State) (l : Lrl) : (s.setLrl l).fwu = s.fwu := rfl
@[simp] theorem State.setLrl_qspi (s : State) (l : Lrl) : (s.setLrl l).qspi = s.qspi := rfl
@[simp] theorem State.setLrl_chan (s : State) (l : Lrl) : (s.setLrl l).chan = s.chan := rfl
@[simp] theorem State.setLrl_arb (s : State) (l : Lrl) : (s.setLrl l).arb = s.arb := rfl

/-! State.setObs. -/

@[simp] theorem State.setObs_pending (s : State) (o : Obs) : (s.setObs o).pending = s.pending := rfl
@[simp] theorem State.setObs_freeN (s : State) (o : Obs) : (s.setObs o).freeN = s.freeN := rfl
@[simp] theorem State.setObs_outbox (s : State) (o : Obs) : (s.setObs o).outbox = s.outbox := rfl
@[simp] theorem State.setObs_regs (s : State) (o : Obs) : (s.setObs o).regs = s.regs := rfl
@[simp] theorem State.setObs_shadow (s : State) (o : Obs) : (s.setObs o).shadow = s.shadow := rfl
@[simp] theorem State.setObs_prev (s : State) (o : Obs) : (s.setObs o).prev = s.prev := rfl
@[simp] theorem State.setObs_tab (s : State) (o : Obs) : (s.setObs o).tab = s.tab := rfl
@[simp] theorem State.setObs_bus (s : State) (o : Obs) : (s.setObs o).bus = s.bus := rfl
@[simp] theorem State.setObs_cmt (s : State) (o : Obs) : (s.setObs o).cmt = s.cmt := rfl
@[simp] theorem State.setObs_tsy (s : State) (o : Obs) : (s.setObs o).tsy = s.tsy := rfl
@[simp] theorem State.setObs_xpl (s : State) (o : Obs) : (s.setObs o).xpl = s.xpl := rfl
@[simp] theorem State.setObs_dram (s : State) (o : Obs) : (s.setObs o).dram = s.dram := rfl
@[simp] theorem State.setObs_mram (s : State) (o : Obs) : (s.setObs o).mram = s.mram := rfl
@[simp] theorem State.setObs_lsram (s : State) (o : Obs) : (s.setObs o).lsram = s.lsram := rfl
@[simp] theorem State.setObs_hmem (s : State) (o : Obs) : (s.setObs o).hmem = s.hmem := rfl
@[simp] theorem State.setObs_levels (s : State) (o : Obs) : (s.setObs o).levels = s.levels := rfl
@[simp] theorem State.setObs_vecMask (s : State) (o : Obs) : (s.setObs o).vecMask = s.vecMask := rfl
@[simp] theorem State.setObs_pba (s : State) (o : Obs) : (s.setObs o).pba = s.pba := rfl
@[simp] theorem State.setObs_can (s : State) (o : Obs) : (s.setObs o).can = s.can := rfl
@[simp] theorem State.setObs_prv (s : State) (o : Obs) : (s.setObs o).prv = s.prv := rfl
@[simp] theorem State.setObs_clm (s : State) (o : Obs) : (s.setObs o).clm = s.clm := rfl
@[simp] theorem State.setObs_tpe (s : State) (o : Obs) : (s.setObs o).tpe = s.tpe := rfl
@[simp] theorem State.setObs_swIn (s : State) (o : Obs) : (s.setObs o).swIn = s.swIn := rfl
@[simp] theorem State.setObs_sw (s : State) (o : Obs) : (s.setObs o).sw = s.sw := rfl
@[simp] theorem State.setObs_emac (s : State) (o : Obs) : (s.setObs o).emac = s.emac := rfl
@[simp] theorem State.setObs_rtc (s : State) (o : Obs) : (s.setObs o).rtc = s.rtc := rfl
@[simp] theorem State.setObs_rtcAcc (s : State) (o : Obs) : (s.setObs o).rtcAcc = s.rtcAcc := rfl
@[simp] theorem State.setObs_cauth (s : State) (o : Obs) : (s.setObs o).cauth = s.cauth := rfl
@[simp] theorem State.setObs_fresh (s : State) (o : Obs) : (s.setObs o).fresh = s.fresh := rfl
@[simp] theorem State.setObs_cry (s : State) (o : Obs) : (s.setObs o).cry = s.cry := rfl
@[simp] theorem State.setObs_yew (s : State) (o : Obs) : (s.setObs o).yew = s.yew := rfl
@[simp] theorem State.setObs_hq (s : State) (o : Obs) : (s.setObs o).hq = s.hq := rfl
@[simp] theorem State.setObs_hqReset (s : State) (o : Obs) : (s.setObs o).hqReset = s.hqReset := rfl
@[simp] theorem State.setObs_bme (s : State) (o : Obs) : (s.setObs o).bme = s.bme := rfl
@[simp] theorem State.setObs_d3 (s : State) (o : Obs) : (s.setObs o).d3 = s.d3 := rfl
@[simp] theorem State.setObs_pair (s : State) (o : Obs) : (s.setObs o).pair = s.pair := rfl
@[simp] theorem State.setObs_obs (s : State) (o : Obs) : (s.setObs o).obs = o := rfl
@[simp] theorem State.setObs_mono (s : State) (o : Obs) : (s.setObs o).mono = s.mono := rfl
@[simp] theorem State.setObs_pwr (s : State) (o : Obs) : (s.setObs o).pwr = s.pwr := rfl
@[simp] theorem State.setObs_wkn (s : State) (o : Obs) : (s.setObs o).wkn = s.wkn := rfl
@[simp] theorem State.setObs_boot (s : State) (o : Obs) : (s.setObs o).boot = s.boot := rfl
@[simp] theorem State.setObs_lrl (s : State) (o : Obs) : (s.setObs o).lrl = s.lrl := rfl
@[simp] theorem State.setObs_fwu (s : State) (o : Obs) : (s.setObs o).fwu = s.fwu := rfl
@[simp] theorem State.setObs_qspi (s : State) (o : Obs) : (s.setObs o).qspi = s.qspi := rfl
@[simp] theorem State.setObs_chan (s : State) (o : Obs) : (s.setObs o).chan = s.chan := rfl
@[simp] theorem State.setObs_arb (s : State) (o : Obs) : (s.setObs o).arb = s.arb := rfl

/-! State.setPair. -/

@[simp] theorem State.setPair_pending (s : State) (p : Pair) : (s.setPair p).pending = s.pending := rfl
@[simp] theorem State.setPair_freeN (s : State) (p : Pair) : (s.setPair p).freeN = s.freeN := rfl
@[simp] theorem State.setPair_outbox (s : State) (p : Pair) : (s.setPair p).outbox = s.outbox := rfl
@[simp] theorem State.setPair_regs (s : State) (p : Pair) : (s.setPair p).regs = s.regs := rfl
@[simp] theorem State.setPair_shadow (s : State) (p : Pair) : (s.setPair p).shadow = s.shadow := rfl
@[simp] theorem State.setPair_prev (s : State) (p : Pair) : (s.setPair p).prev = s.prev := rfl
@[simp] theorem State.setPair_tab (s : State) (p : Pair) : (s.setPair p).tab = s.tab := rfl
@[simp] theorem State.setPair_bus (s : State) (p : Pair) : (s.setPair p).bus = s.bus := rfl
@[simp] theorem State.setPair_cmt (s : State) (p : Pair) : (s.setPair p).cmt = s.cmt := rfl
@[simp] theorem State.setPair_tsy (s : State) (p : Pair) : (s.setPair p).tsy = s.tsy := rfl
@[simp] theorem State.setPair_xpl (s : State) (p : Pair) : (s.setPair p).xpl = s.xpl := rfl
@[simp] theorem State.setPair_dram (s : State) (p : Pair) : (s.setPair p).dram = s.dram := rfl
@[simp] theorem State.setPair_mram (s : State) (p : Pair) : (s.setPair p).mram = s.mram := rfl
@[simp] theorem State.setPair_lsram (s : State) (p : Pair) : (s.setPair p).lsram = s.lsram := rfl
@[simp] theorem State.setPair_hmem (s : State) (p : Pair) : (s.setPair p).hmem = s.hmem := rfl
@[simp] theorem State.setPair_levels (s : State) (p : Pair) : (s.setPair p).levels = s.levels := rfl
@[simp] theorem State.setPair_vecMask (s : State) (p : Pair) : (s.setPair p).vecMask = s.vecMask := rfl
@[simp] theorem State.setPair_pba (s : State) (p : Pair) : (s.setPair p).pba = s.pba := rfl
@[simp] theorem State.setPair_can (s : State) (p : Pair) : (s.setPair p).can = s.can := rfl
@[simp] theorem State.setPair_prv (s : State) (p : Pair) : (s.setPair p).prv = s.prv := rfl
@[simp] theorem State.setPair_clm (s : State) (p : Pair) : (s.setPair p).clm = s.clm := rfl
@[simp] theorem State.setPair_tpe (s : State) (p : Pair) : (s.setPair p).tpe = s.tpe := rfl
@[simp] theorem State.setPair_swIn (s : State) (p : Pair) : (s.setPair p).swIn = s.swIn := rfl
@[simp] theorem State.setPair_sw (s : State) (p : Pair) : (s.setPair p).sw = s.sw := rfl
@[simp] theorem State.setPair_emac (s : State) (p : Pair) : (s.setPair p).emac = s.emac := rfl
@[simp] theorem State.setPair_rtc (s : State) (p : Pair) : (s.setPair p).rtc = s.rtc := rfl
@[simp] theorem State.setPair_rtcAcc (s : State) (p : Pair) : (s.setPair p).rtcAcc = s.rtcAcc := rfl
@[simp] theorem State.setPair_cauth (s : State) (p : Pair) : (s.setPair p).cauth = s.cauth := rfl
@[simp] theorem State.setPair_fresh (s : State) (p : Pair) : (s.setPair p).fresh = s.fresh := rfl
@[simp] theorem State.setPair_cry (s : State) (p : Pair) : (s.setPair p).cry = s.cry := rfl
@[simp] theorem State.setPair_yew (s : State) (p : Pair) : (s.setPair p).yew = s.yew := rfl
@[simp] theorem State.setPair_hq (s : State) (p : Pair) : (s.setPair p).hq = s.hq := rfl
@[simp] theorem State.setPair_hqReset (s : State) (p : Pair) : (s.setPair p).hqReset = s.hqReset := rfl
@[simp] theorem State.setPair_bme (s : State) (p : Pair) : (s.setPair p).bme = s.bme := rfl
@[simp] theorem State.setPair_d3 (s : State) (p : Pair) : (s.setPair p).d3 = s.d3 := rfl
@[simp] theorem State.setPair_pair (s : State) (p : Pair) : (s.setPair p).pair = p := rfl
@[simp] theorem State.setPair_obs (s : State) (p : Pair) : (s.setPair p).obs = s.obs := rfl
@[simp] theorem State.setPair_mono (s : State) (p : Pair) : (s.setPair p).mono = s.mono := rfl
@[simp] theorem State.setPair_pwr (s : State) (p : Pair) : (s.setPair p).pwr = s.pwr := rfl
@[simp] theorem State.setPair_wkn (s : State) (p : Pair) : (s.setPair p).wkn = s.wkn := rfl
@[simp] theorem State.setPair_boot (s : State) (p : Pair) : (s.setPair p).boot = s.boot := rfl
@[simp] theorem State.setPair_lrl (s : State) (p : Pair) : (s.setPair p).lrl = s.lrl := rfl
@[simp] theorem State.setPair_fwu (s : State) (p : Pair) : (s.setPair p).fwu = s.fwu := rfl
@[simp] theorem State.setPair_qspi (s : State) (p : Pair) : (s.setPair p).qspi = s.qspi := rfl
@[simp] theorem State.setPair_chan (s : State) (p : Pair) : (s.setPair p).chan = s.chan := rfl
@[simp] theorem State.setPair_arb (s : State) (p : Pair) : (s.setPair p).arb = s.arb := rfl

/-! State.setPwr. -/

@[simp] theorem State.setPwr_pending (s : State) (p : Pwr) : (s.setPwr p).pending = s.pending := rfl
@[simp] theorem State.setPwr_freeN (s : State) (p : Pwr) : (s.setPwr p).freeN = s.freeN := rfl
@[simp] theorem State.setPwr_outbox (s : State) (p : Pwr) : (s.setPwr p).outbox = s.outbox := rfl
@[simp] theorem State.setPwr_regs (s : State) (p : Pwr) : (s.setPwr p).regs = s.regs := rfl
@[simp] theorem State.setPwr_shadow (s : State) (p : Pwr) : (s.setPwr p).shadow = s.shadow := rfl
@[simp] theorem State.setPwr_prev (s : State) (p : Pwr) : (s.setPwr p).prev = s.prev := rfl
@[simp] theorem State.setPwr_tab (s : State) (p : Pwr) : (s.setPwr p).tab = s.tab := rfl
@[simp] theorem State.setPwr_bus (s : State) (p : Pwr) : (s.setPwr p).bus = s.bus := rfl
@[simp] theorem State.setPwr_cmt (s : State) (p : Pwr) : (s.setPwr p).cmt = s.cmt := rfl
@[simp] theorem State.setPwr_tsy (s : State) (p : Pwr) : (s.setPwr p).tsy = s.tsy := rfl
@[simp] theorem State.setPwr_xpl (s : State) (p : Pwr) : (s.setPwr p).xpl = s.xpl := rfl
@[simp] theorem State.setPwr_dram (s : State) (p : Pwr) : (s.setPwr p).dram = s.dram := rfl
@[simp] theorem State.setPwr_mram (s : State) (p : Pwr) : (s.setPwr p).mram = s.mram := rfl
@[simp] theorem State.setPwr_lsram (s : State) (p : Pwr) : (s.setPwr p).lsram = s.lsram := rfl
@[simp] theorem State.setPwr_hmem (s : State) (p : Pwr) : (s.setPwr p).hmem = s.hmem := rfl
@[simp] theorem State.setPwr_levels (s : State) (p : Pwr) : (s.setPwr p).levels = s.levels := rfl
@[simp] theorem State.setPwr_vecMask (s : State) (p : Pwr) : (s.setPwr p).vecMask = s.vecMask := rfl
@[simp] theorem State.setPwr_pba (s : State) (p : Pwr) : (s.setPwr p).pba = s.pba := rfl
@[simp] theorem State.setPwr_can (s : State) (p : Pwr) : (s.setPwr p).can = s.can := rfl
@[simp] theorem State.setPwr_prv (s : State) (p : Pwr) : (s.setPwr p).prv = s.prv := rfl
@[simp] theorem State.setPwr_clm (s : State) (p : Pwr) : (s.setPwr p).clm = s.clm := rfl
@[simp] theorem State.setPwr_tpe (s : State) (p : Pwr) : (s.setPwr p).tpe = s.tpe := rfl
@[simp] theorem State.setPwr_swIn (s : State) (p : Pwr) : (s.setPwr p).swIn = s.swIn := rfl
@[simp] theorem State.setPwr_sw (s : State) (p : Pwr) : (s.setPwr p).sw = s.sw := rfl
@[simp] theorem State.setPwr_emac (s : State) (p : Pwr) : (s.setPwr p).emac = s.emac := rfl
@[simp] theorem State.setPwr_rtc (s : State) (p : Pwr) : (s.setPwr p).rtc = s.rtc := rfl
@[simp] theorem State.setPwr_rtcAcc (s : State) (p : Pwr) : (s.setPwr p).rtcAcc = s.rtcAcc := rfl
@[simp] theorem State.setPwr_cauth (s : State) (p : Pwr) : (s.setPwr p).cauth = s.cauth := rfl
@[simp] theorem State.setPwr_fresh (s : State) (p : Pwr) : (s.setPwr p).fresh = s.fresh := rfl
@[simp] theorem State.setPwr_cry (s : State) (p : Pwr) : (s.setPwr p).cry = s.cry := rfl
@[simp] theorem State.setPwr_yew (s : State) (p : Pwr) : (s.setPwr p).yew = s.yew := rfl
@[simp] theorem State.setPwr_hq (s : State) (p : Pwr) : (s.setPwr p).hq = s.hq := rfl
@[simp] theorem State.setPwr_hqReset (s : State) (p : Pwr) : (s.setPwr p).hqReset = s.hqReset := rfl
@[simp] theorem State.setPwr_bme (s : State) (p : Pwr) : (s.setPwr p).bme = s.bme := rfl
@[simp] theorem State.setPwr_d3 (s : State) (p : Pwr) : (s.setPwr p).d3 = s.d3 := rfl
@[simp] theorem State.setPwr_pair (s : State) (p : Pwr) : (s.setPwr p).pair = s.pair := rfl
@[simp] theorem State.setPwr_obs (s : State) (p : Pwr) : (s.setPwr p).obs = s.obs := rfl
@[simp] theorem State.setPwr_mono (s : State) (p : Pwr) : (s.setPwr p).mono = s.mono := rfl
@[simp] theorem State.setPwr_pwr (s : State) (p : Pwr) : (s.setPwr p).pwr = p := rfl
@[simp] theorem State.setPwr_wkn (s : State) (p : Pwr) : (s.setPwr p).wkn = s.wkn := rfl
@[simp] theorem State.setPwr_boot (s : State) (p : Pwr) : (s.setPwr p).boot = s.boot := rfl
@[simp] theorem State.setPwr_lrl (s : State) (p : Pwr) : (s.setPwr p).lrl = s.lrl := rfl
@[simp] theorem State.setPwr_fwu (s : State) (p : Pwr) : (s.setPwr p).fwu = s.fwu := rfl
@[simp] theorem State.setPwr_qspi (s : State) (p : Pwr) : (s.setPwr p).qspi = s.qspi := rfl
@[simp] theorem State.setPwr_chan (s : State) (p : Pwr) : (s.setPwr p).chan = s.chan := rfl
@[simp] theorem State.setPwr_arb (s : State) (p : Pwr) : (s.setPwr p).arb = s.arb := rfl

/-! State.setWkn. -/

@[simp] theorem State.setWkn_pending (s : State) (w : Wkn) : (s.setWkn w).pending = s.pending := rfl
@[simp] theorem State.setWkn_freeN (s : State) (w : Wkn) : (s.setWkn w).freeN = s.freeN := rfl
@[simp] theorem State.setWkn_outbox (s : State) (w : Wkn) : (s.setWkn w).outbox = s.outbox := rfl
@[simp] theorem State.setWkn_regs (s : State) (w : Wkn) : (s.setWkn w).regs = s.regs := rfl
@[simp] theorem State.setWkn_shadow (s : State) (w : Wkn) : (s.setWkn w).shadow = s.shadow := rfl
@[simp] theorem State.setWkn_prev (s : State) (w : Wkn) : (s.setWkn w).prev = s.prev := rfl
@[simp] theorem State.setWkn_tab (s : State) (w : Wkn) : (s.setWkn w).tab = s.tab := rfl
@[simp] theorem State.setWkn_bus (s : State) (w : Wkn) : (s.setWkn w).bus = s.bus := rfl
@[simp] theorem State.setWkn_cmt (s : State) (w : Wkn) : (s.setWkn w).cmt = s.cmt := rfl
@[simp] theorem State.setWkn_tsy (s : State) (w : Wkn) : (s.setWkn w).tsy = s.tsy := rfl
@[simp] theorem State.setWkn_xpl (s : State) (w : Wkn) : (s.setWkn w).xpl = s.xpl := rfl
@[simp] theorem State.setWkn_dram (s : State) (w : Wkn) : (s.setWkn w).dram = s.dram := rfl
@[simp] theorem State.setWkn_mram (s : State) (w : Wkn) : (s.setWkn w).mram = s.mram := rfl
@[simp] theorem State.setWkn_lsram (s : State) (w : Wkn) : (s.setWkn w).lsram = s.lsram := rfl
@[simp] theorem State.setWkn_hmem (s : State) (w : Wkn) : (s.setWkn w).hmem = s.hmem := rfl
@[simp] theorem State.setWkn_levels (s : State) (w : Wkn) : (s.setWkn w).levels = s.levels := rfl
@[simp] theorem State.setWkn_vecMask (s : State) (w : Wkn) : (s.setWkn w).vecMask = s.vecMask := rfl
@[simp] theorem State.setWkn_pba (s : State) (w : Wkn) : (s.setWkn w).pba = s.pba := rfl
@[simp] theorem State.setWkn_can (s : State) (w : Wkn) : (s.setWkn w).can = s.can := rfl
@[simp] theorem State.setWkn_prv (s : State) (w : Wkn) : (s.setWkn w).prv = s.prv := rfl
@[simp] theorem State.setWkn_clm (s : State) (w : Wkn) : (s.setWkn w).clm = s.clm := rfl
@[simp] theorem State.setWkn_tpe (s : State) (w : Wkn) : (s.setWkn w).tpe = s.tpe := rfl
@[simp] theorem State.setWkn_swIn (s : State) (w : Wkn) : (s.setWkn w).swIn = s.swIn := rfl
@[simp] theorem State.setWkn_sw (s : State) (w : Wkn) : (s.setWkn w).sw = s.sw := rfl
@[simp] theorem State.setWkn_emac (s : State) (w : Wkn) : (s.setWkn w).emac = s.emac := rfl
@[simp] theorem State.setWkn_rtc (s : State) (w : Wkn) : (s.setWkn w).rtc = s.rtc := rfl
@[simp] theorem State.setWkn_rtcAcc (s : State) (w : Wkn) : (s.setWkn w).rtcAcc = s.rtcAcc := rfl
@[simp] theorem State.setWkn_cauth (s : State) (w : Wkn) : (s.setWkn w).cauth = s.cauth := rfl
@[simp] theorem State.setWkn_fresh (s : State) (w : Wkn) : (s.setWkn w).fresh = s.fresh := rfl
@[simp] theorem State.setWkn_cry (s : State) (w : Wkn) : (s.setWkn w).cry = s.cry := rfl
@[simp] theorem State.setWkn_yew (s : State) (w : Wkn) : (s.setWkn w).yew = s.yew := rfl
@[simp] theorem State.setWkn_hq (s : State) (w : Wkn) : (s.setWkn w).hq = s.hq := rfl
@[simp] theorem State.setWkn_hqReset (s : State) (w : Wkn) : (s.setWkn w).hqReset = s.hqReset := rfl
@[simp] theorem State.setWkn_bme (s : State) (w : Wkn) : (s.setWkn w).bme = s.bme := rfl
@[simp] theorem State.setWkn_d3 (s : State) (w : Wkn) : (s.setWkn w).d3 = s.d3 := rfl
@[simp] theorem State.setWkn_pair (s : State) (w : Wkn) : (s.setWkn w).pair = s.pair := rfl
@[simp] theorem State.setWkn_obs (s : State) (w : Wkn) : (s.setWkn w).obs = s.obs := rfl
@[simp] theorem State.setWkn_mono (s : State) (w : Wkn) : (s.setWkn w).mono = s.mono := rfl
@[simp] theorem State.setWkn_pwr (s : State) (w : Wkn) : (s.setWkn w).pwr = s.pwr := rfl
@[simp] theorem State.setWkn_wkn (s : State) (w : Wkn) : (s.setWkn w).wkn = w := rfl
@[simp] theorem State.setWkn_boot (s : State) (w : Wkn) : (s.setWkn w).boot = s.boot := rfl
@[simp] theorem State.setWkn_lrl (s : State) (w : Wkn) : (s.setWkn w).lrl = s.lrl := rfl
@[simp] theorem State.setWkn_fwu (s : State) (w : Wkn) : (s.setWkn w).fwu = s.fwu := rfl
@[simp] theorem State.setWkn_qspi (s : State) (w : Wkn) : (s.setWkn w).qspi = s.qspi := rfl
@[simp] theorem State.setWkn_chan (s : State) (w : Wkn) : (s.setWkn w).chan = s.chan := rfl
@[simp] theorem State.setWkn_arb (s : State) (w : Wkn) : (s.setWkn w).arb = s.arb := rfl

/-! State.setClm. -/

@[simp] theorem State.setClm_pending (s : State) (c : Ledger) : (s.setClm c).pending = s.pending := rfl
@[simp] theorem State.setClm_freeN (s : State) (c : Ledger) : (s.setClm c).freeN = s.freeN := rfl
@[simp] theorem State.setClm_outbox (s : State) (c : Ledger) : (s.setClm c).outbox = s.outbox := rfl
@[simp] theorem State.setClm_regs (s : State) (c : Ledger) : (s.setClm c).regs = s.regs := rfl
@[simp] theorem State.setClm_shadow (s : State) (c : Ledger) : (s.setClm c).shadow = s.shadow := rfl
@[simp] theorem State.setClm_prev (s : State) (c : Ledger) : (s.setClm c).prev = s.prev := rfl
@[simp] theorem State.setClm_tab (s : State) (c : Ledger) : (s.setClm c).tab = s.tab := rfl
@[simp] theorem State.setClm_bus (s : State) (c : Ledger) : (s.setClm c).bus = s.bus := rfl
@[simp] theorem State.setClm_cmt (s : State) (c : Ledger) : (s.setClm c).cmt = s.cmt := rfl
@[simp] theorem State.setClm_tsy (s : State) (c : Ledger) : (s.setClm c).tsy = s.tsy := rfl
@[simp] theorem State.setClm_xpl (s : State) (c : Ledger) : (s.setClm c).xpl = s.xpl := rfl
@[simp] theorem State.setClm_dram (s : State) (c : Ledger) : (s.setClm c).dram = s.dram := rfl
@[simp] theorem State.setClm_mram (s : State) (c : Ledger) : (s.setClm c).mram = s.mram := rfl
@[simp] theorem State.setClm_lsram (s : State) (c : Ledger) : (s.setClm c).lsram = s.lsram := rfl
@[simp] theorem State.setClm_hmem (s : State) (c : Ledger) : (s.setClm c).hmem = s.hmem := rfl
@[simp] theorem State.setClm_levels (s : State) (c : Ledger) : (s.setClm c).levels = s.levels := rfl
@[simp] theorem State.setClm_vecMask (s : State) (c : Ledger) : (s.setClm c).vecMask = s.vecMask := rfl
@[simp] theorem State.setClm_pba (s : State) (c : Ledger) : (s.setClm c).pba = s.pba := rfl
@[simp] theorem State.setClm_can (s : State) (c : Ledger) : (s.setClm c).can = s.can := rfl
@[simp] theorem State.setClm_prv (s : State) (c : Ledger) : (s.setClm c).prv = s.prv := rfl
@[simp] theorem State.setClm_clm (s : State) (c : Ledger) : (s.setClm c).clm = c := rfl
@[simp] theorem State.setClm_tpe (s : State) (c : Ledger) : (s.setClm c).tpe = s.tpe := rfl
@[simp] theorem State.setClm_swIn (s : State) (c : Ledger) : (s.setClm c).swIn = s.swIn := rfl
@[simp] theorem State.setClm_sw (s : State) (c : Ledger) : (s.setClm c).sw = s.sw := rfl
@[simp] theorem State.setClm_emac (s : State) (c : Ledger) : (s.setClm c).emac = s.emac := rfl
@[simp] theorem State.setClm_rtc (s : State) (c : Ledger) : (s.setClm c).rtc = s.rtc := rfl
@[simp] theorem State.setClm_rtcAcc (s : State) (c : Ledger) : (s.setClm c).rtcAcc = s.rtcAcc := rfl
@[simp] theorem State.setClm_cauth (s : State) (c : Ledger) : (s.setClm c).cauth = s.cauth := rfl
@[simp] theorem State.setClm_fresh (s : State) (c : Ledger) : (s.setClm c).fresh = s.fresh := rfl
@[simp] theorem State.setClm_cry (s : State) (c : Ledger) : (s.setClm c).cry = s.cry := rfl
@[simp] theorem State.setClm_yew (s : State) (c : Ledger) : (s.setClm c).yew = s.yew := rfl
@[simp] theorem State.setClm_hq (s : State) (c : Ledger) : (s.setClm c).hq = s.hq := rfl
@[simp] theorem State.setClm_hqReset (s : State) (c : Ledger) : (s.setClm c).hqReset = s.hqReset := rfl
@[simp] theorem State.setClm_bme (s : State) (c : Ledger) : (s.setClm c).bme = s.bme := rfl
@[simp] theorem State.setClm_d3 (s : State) (c : Ledger) : (s.setClm c).d3 = s.d3 := rfl
@[simp] theorem State.setClm_pair (s : State) (c : Ledger) : (s.setClm c).pair = s.pair := rfl
@[simp] theorem State.setClm_obs (s : State) (c : Ledger) : (s.setClm c).obs = s.obs := rfl
@[simp] theorem State.setClm_mono (s : State) (c : Ledger) : (s.setClm c).mono = s.mono := rfl
@[simp] theorem State.setClm_pwr (s : State) (c : Ledger) : (s.setClm c).pwr = s.pwr := rfl
@[simp] theorem State.setClm_wkn (s : State) (c : Ledger) : (s.setClm c).wkn = s.wkn := rfl
@[simp] theorem State.setClm_boot (s : State) (c : Ledger) : (s.setClm c).boot = s.boot := rfl
@[simp] theorem State.setClm_lrl (s : State) (c : Ledger) : (s.setClm c).lrl = s.lrl := rfl
@[simp] theorem State.setClm_fwu (s : State) (c : Ledger) : (s.setClm c).fwu = s.fwu := rfl
@[simp] theorem State.setClm_qspi (s : State) (c : Ledger) : (s.setClm c).qspi = s.qspi := rfl
@[simp] theorem State.setClm_chan (s : State) (c : Ledger) : (s.setClm c).chan = s.chan := rfl
@[simp] theorem State.setClm_arb (s : State) (c : Ledger) : (s.setClm c).arb = s.arb := rfl

/-! State.setFwu. -/

@[simp] theorem State.setFwu_pending (s : State) (f : Fwu) : (s.setFwu f).pending = s.pending := rfl
@[simp] theorem State.setFwu_freeN (s : State) (f : Fwu) : (s.setFwu f).freeN = s.freeN := rfl
@[simp] theorem State.setFwu_outbox (s : State) (f : Fwu) : (s.setFwu f).outbox = s.outbox := rfl
@[simp] theorem State.setFwu_regs (s : State) (f : Fwu) : (s.setFwu f).regs = s.regs := rfl
@[simp] theorem State.setFwu_shadow (s : State) (f : Fwu) : (s.setFwu f).shadow = s.shadow := rfl
@[simp] theorem State.setFwu_prev (s : State) (f : Fwu) : (s.setFwu f).prev = s.prev := rfl
@[simp] theorem State.setFwu_tab (s : State) (f : Fwu) : (s.setFwu f).tab = s.tab := rfl
@[simp] theorem State.setFwu_bus (s : State) (f : Fwu) : (s.setFwu f).bus = s.bus := rfl
@[simp] theorem State.setFwu_cmt (s : State) (f : Fwu) : (s.setFwu f).cmt = s.cmt := rfl
@[simp] theorem State.setFwu_tsy (s : State) (f : Fwu) : (s.setFwu f).tsy = s.tsy := rfl
@[simp] theorem State.setFwu_xpl (s : State) (f : Fwu) : (s.setFwu f).xpl = s.xpl := rfl
@[simp] theorem State.setFwu_dram (s : State) (f : Fwu) : (s.setFwu f).dram = s.dram := rfl
@[simp] theorem State.setFwu_mram (s : State) (f : Fwu) : (s.setFwu f).mram = s.mram := rfl
@[simp] theorem State.setFwu_lsram (s : State) (f : Fwu) : (s.setFwu f).lsram = s.lsram := rfl
@[simp] theorem State.setFwu_hmem (s : State) (f : Fwu) : (s.setFwu f).hmem = s.hmem := rfl
@[simp] theorem State.setFwu_levels (s : State) (f : Fwu) : (s.setFwu f).levels = s.levels := rfl
@[simp] theorem State.setFwu_vecMask (s : State) (f : Fwu) : (s.setFwu f).vecMask = s.vecMask := rfl
@[simp] theorem State.setFwu_pba (s : State) (f : Fwu) : (s.setFwu f).pba = s.pba := rfl
@[simp] theorem State.setFwu_can (s : State) (f : Fwu) : (s.setFwu f).can = s.can := rfl
@[simp] theorem State.setFwu_prv (s : State) (f : Fwu) : (s.setFwu f).prv = s.prv := rfl
@[simp] theorem State.setFwu_clm (s : State) (f : Fwu) : (s.setFwu f).clm = s.clm := rfl
@[simp] theorem State.setFwu_tpe (s : State) (f : Fwu) : (s.setFwu f).tpe = s.tpe := rfl
@[simp] theorem State.setFwu_swIn (s : State) (f : Fwu) : (s.setFwu f).swIn = s.swIn := rfl
@[simp] theorem State.setFwu_sw (s : State) (f : Fwu) : (s.setFwu f).sw = s.sw := rfl
@[simp] theorem State.setFwu_emac (s : State) (f : Fwu) : (s.setFwu f).emac = s.emac := rfl
@[simp] theorem State.setFwu_rtc (s : State) (f : Fwu) : (s.setFwu f).rtc = s.rtc := rfl
@[simp] theorem State.setFwu_rtcAcc (s : State) (f : Fwu) : (s.setFwu f).rtcAcc = s.rtcAcc := rfl
@[simp] theorem State.setFwu_cauth (s : State) (f : Fwu) : (s.setFwu f).cauth = s.cauth := rfl
@[simp] theorem State.setFwu_fresh (s : State) (f : Fwu) : (s.setFwu f).fresh = s.fresh := rfl
@[simp] theorem State.setFwu_cry (s : State) (f : Fwu) : (s.setFwu f).cry = s.cry := rfl
@[simp] theorem State.setFwu_yew (s : State) (f : Fwu) : (s.setFwu f).yew = s.yew := rfl
@[simp] theorem State.setFwu_hq (s : State) (f : Fwu) : (s.setFwu f).hq = s.hq := rfl
@[simp] theorem State.setFwu_hqReset (s : State) (f : Fwu) : (s.setFwu f).hqReset = s.hqReset := rfl
@[simp] theorem State.setFwu_bme (s : State) (f : Fwu) : (s.setFwu f).bme = s.bme := rfl
@[simp] theorem State.setFwu_d3 (s : State) (f : Fwu) : (s.setFwu f).d3 = s.d3 := rfl
@[simp] theorem State.setFwu_pair (s : State) (f : Fwu) : (s.setFwu f).pair = s.pair := rfl
@[simp] theorem State.setFwu_obs (s : State) (f : Fwu) : (s.setFwu f).obs = s.obs := rfl
@[simp] theorem State.setFwu_mono (s : State) (f : Fwu) : (s.setFwu f).mono = s.mono := rfl
@[simp] theorem State.setFwu_pwr (s : State) (f : Fwu) : (s.setFwu f).pwr = s.pwr := rfl
@[simp] theorem State.setFwu_wkn (s : State) (f : Fwu) : (s.setFwu f).wkn = s.wkn := rfl
@[simp] theorem State.setFwu_boot (s : State) (f : Fwu) : (s.setFwu f).boot = s.boot := rfl
@[simp] theorem State.setFwu_lrl (s : State) (f : Fwu) : (s.setFwu f).lrl = s.lrl := rfl
@[simp] theorem State.setFwu_fwu (s : State) (f : Fwu) : (s.setFwu f).fwu = f := rfl
@[simp] theorem State.setFwu_qspi (s : State) (f : Fwu) : (s.setFwu f).qspi = s.qspi := rfl
@[simp] theorem State.setFwu_chan (s : State) (f : Fwu) : (s.setFwu f).chan = s.chan := rfl
@[simp] theorem State.setFwu_arb (s : State) (f : Fwu) : (s.setFwu f).arb = s.arb := rfl

/-! State.setBoot. -/

@[simp] theorem State.setBoot_pending (s : State) (b : Boot) : (s.setBoot b).pending = s.pending := rfl
@[simp] theorem State.setBoot_freeN (s : State) (b : Boot) : (s.setBoot b).freeN = s.freeN := rfl
@[simp] theorem State.setBoot_outbox (s : State) (b : Boot) : (s.setBoot b).outbox = s.outbox := rfl
@[simp] theorem State.setBoot_regs (s : State) (b : Boot) : (s.setBoot b).regs = s.regs := rfl
@[simp] theorem State.setBoot_shadow (s : State) (b : Boot) : (s.setBoot b).shadow = s.shadow := rfl
@[simp] theorem State.setBoot_prev (s : State) (b : Boot) : (s.setBoot b).prev = s.prev := rfl
@[simp] theorem State.setBoot_tab (s : State) (b : Boot) : (s.setBoot b).tab = s.tab := rfl
@[simp] theorem State.setBoot_bus (s : State) (b : Boot) : (s.setBoot b).bus = s.bus := rfl
@[simp] theorem State.setBoot_cmt (s : State) (b : Boot) : (s.setBoot b).cmt = s.cmt := rfl
@[simp] theorem State.setBoot_tsy (s : State) (b : Boot) : (s.setBoot b).tsy = s.tsy := rfl
@[simp] theorem State.setBoot_xpl (s : State) (b : Boot) : (s.setBoot b).xpl = s.xpl := rfl
@[simp] theorem State.setBoot_dram (s : State) (b : Boot) : (s.setBoot b).dram = s.dram := rfl
@[simp] theorem State.setBoot_mram (s : State) (b : Boot) : (s.setBoot b).mram = s.mram := rfl
@[simp] theorem State.setBoot_lsram (s : State) (b : Boot) : (s.setBoot b).lsram = s.lsram := rfl
@[simp] theorem State.setBoot_hmem (s : State) (b : Boot) : (s.setBoot b).hmem = s.hmem := rfl
@[simp] theorem State.setBoot_levels (s : State) (b : Boot) : (s.setBoot b).levels = s.levels := rfl
@[simp] theorem State.setBoot_vecMask (s : State) (b : Boot) : (s.setBoot b).vecMask = s.vecMask := rfl
@[simp] theorem State.setBoot_pba (s : State) (b : Boot) : (s.setBoot b).pba = s.pba := rfl
@[simp] theorem State.setBoot_can (s : State) (b : Boot) : (s.setBoot b).can = s.can := rfl
@[simp] theorem State.setBoot_prv (s : State) (b : Boot) : (s.setBoot b).prv = s.prv := rfl
@[simp] theorem State.setBoot_clm (s : State) (b : Boot) : (s.setBoot b).clm = s.clm := rfl
@[simp] theorem State.setBoot_tpe (s : State) (b : Boot) : (s.setBoot b).tpe = s.tpe := rfl
@[simp] theorem State.setBoot_swIn (s : State) (b : Boot) : (s.setBoot b).swIn = s.swIn := rfl
@[simp] theorem State.setBoot_sw (s : State) (b : Boot) : (s.setBoot b).sw = s.sw := rfl
@[simp] theorem State.setBoot_emac (s : State) (b : Boot) : (s.setBoot b).emac = s.emac := rfl
@[simp] theorem State.setBoot_rtc (s : State) (b : Boot) : (s.setBoot b).rtc = s.rtc := rfl
@[simp] theorem State.setBoot_rtcAcc (s : State) (b : Boot) : (s.setBoot b).rtcAcc = s.rtcAcc := rfl
@[simp] theorem State.setBoot_cauth (s : State) (b : Boot) : (s.setBoot b).cauth = s.cauth := rfl
@[simp] theorem State.setBoot_fresh (s : State) (b : Boot) : (s.setBoot b).fresh = s.fresh := rfl
@[simp] theorem State.setBoot_cry (s : State) (b : Boot) : (s.setBoot b).cry = s.cry := rfl
@[simp] theorem State.setBoot_yew (s : State) (b : Boot) : (s.setBoot b).yew = s.yew := rfl
@[simp] theorem State.setBoot_hq (s : State) (b : Boot) : (s.setBoot b).hq = s.hq := rfl
@[simp] theorem State.setBoot_hqReset (s : State) (b : Boot) : (s.setBoot b).hqReset = s.hqReset := rfl
@[simp] theorem State.setBoot_bme (s : State) (b : Boot) : (s.setBoot b).bme = s.bme := rfl
@[simp] theorem State.setBoot_d3 (s : State) (b : Boot) : (s.setBoot b).d3 = s.d3 := rfl
@[simp] theorem State.setBoot_pair (s : State) (b : Boot) : (s.setBoot b).pair = s.pair := rfl
@[simp] theorem State.setBoot_obs (s : State) (b : Boot) : (s.setBoot b).obs = s.obs := rfl
@[simp] theorem State.setBoot_mono (s : State) (b : Boot) : (s.setBoot b).mono = s.mono := rfl
@[simp] theorem State.setBoot_pwr (s : State) (b : Boot) : (s.setBoot b).pwr = s.pwr := rfl
@[simp] theorem State.setBoot_wkn (s : State) (b : Boot) : (s.setBoot b).wkn = s.wkn := rfl
@[simp] theorem State.setBoot_boot (s : State) (b : Boot) : (s.setBoot b).boot = b := rfl
@[simp] theorem State.setBoot_lrl (s : State) (b : Boot) : (s.setBoot b).lrl = s.lrl := rfl
@[simp] theorem State.setBoot_fwu (s : State) (b : Boot) : (s.setBoot b).fwu = s.fwu := rfl
@[simp] theorem State.setBoot_qspi (s : State) (b : Boot) : (s.setBoot b).qspi = s.qspi := rfl
@[simp] theorem State.setBoot_chan (s : State) (b : Boot) : (s.setBoot b).chan = s.chan := rfl
@[simp] theorem State.setBoot_arb (s : State) (b : Boot) : (s.setBoot b).arb = s.arb := rfl

/-! State.setTxs. -/

@[simp] theorem State.setTxs_pending (s : State) (n : Nat) (x : TxStream) : (s.setTxs n x).pending = s.pending := rfl
@[simp] theorem State.setTxs_freeN (s : State) (n : Nat) (x : TxStream) : (s.setTxs n x).freeN = s.freeN := rfl
@[simp] theorem State.setTxs_outbox (s : State) (n : Nat) (x : TxStream) : (s.setTxs n x).outbox = s.outbox := rfl
@[simp] theorem State.setTxs_regs (s : State) (n : Nat) (x : TxStream) : (s.setTxs n x).regs = s.regs := rfl
@[simp] theorem State.setTxs_shadow (s : State) (n : Nat) (x : TxStream) : (s.setTxs n x).shadow = s.shadow := rfl
@[simp] theorem State.setTxs_prev (s : State) (n : Nat) (x : TxStream) : (s.setTxs n x).prev = s.prev := rfl
@[simp] theorem State.setTxs_tab (s : State) (n : Nat) (x : TxStream) : (s.setTxs n x).tab = s.tab := rfl
@[simp] theorem State.setTxs_bus (s : State) (n : Nat) (x : TxStream) : (s.setTxs n x).bus = s.bus := rfl
@[simp] theorem State.setTxs_cmt (s : State) (n : Nat) (x : TxStream) : (s.setTxs n x).cmt = s.cmt := rfl
@[simp] theorem State.setTxs_tsy (s : State) (n : Nat) (x : TxStream) : (s.setTxs n x).tsy = s.tsy := rfl
@[simp] theorem State.setTxs_xpl (s : State) (n : Nat) (x : TxStream) : (s.setTxs n x).xpl = s.xpl := rfl
@[simp] theorem State.setTxs_dram (s : State) (n : Nat) (x : TxStream) : (s.setTxs n x).dram = s.dram := rfl
@[simp] theorem State.setTxs_mram (s : State) (n : Nat) (x : TxStream) : (s.setTxs n x).mram = s.mram := rfl
@[simp] theorem State.setTxs_lsram (s : State) (n : Nat) (x : TxStream) : (s.setTxs n x).lsram = s.lsram := rfl
@[simp] theorem State.setTxs_hmem (s : State) (n : Nat) (x : TxStream) : (s.setTxs n x).hmem = s.hmem := rfl
@[simp] theorem State.setTxs_levels (s : State) (n : Nat) (x : TxStream) : (s.setTxs n x).levels = s.levels := rfl
@[simp] theorem State.setTxs_vecMask (s : State) (n : Nat) (x : TxStream) : (s.setTxs n x).vecMask = s.vecMask := rfl
@[simp] theorem State.setTxs_pba (s : State) (n : Nat) (x : TxStream) : (s.setTxs n x).pba = s.pba := rfl
@[simp] theorem State.setTxs_can (s : State) (n : Nat) (x : TxStream) : (s.setTxs n x).can = s.can := rfl
@[simp] theorem State.setTxs_prv (s : State) (n : Nat) (x : TxStream) : (s.setTxs n x).prv = { s.prv with tx := amSet txStreamReset s.prv.tx n x } := rfl
@[simp] theorem State.setTxs_clm (s : State) (n : Nat) (x : TxStream) : (s.setTxs n x).clm = s.clm := rfl
@[simp] theorem State.setTxs_tpe (s : State) (n : Nat) (x : TxStream) : (s.setTxs n x).tpe = s.tpe := rfl
@[simp] theorem State.setTxs_swIn (s : State) (n : Nat) (x : TxStream) : (s.setTxs n x).swIn = s.swIn := rfl
@[simp] theorem State.setTxs_sw (s : State) (n : Nat) (x : TxStream) : (s.setTxs n x).sw = s.sw := rfl
@[simp] theorem State.setTxs_emac (s : State) (n : Nat) (x : TxStream) : (s.setTxs n x).emac = s.emac := rfl
@[simp] theorem State.setTxs_rtc (s : State) (n : Nat) (x : TxStream) : (s.setTxs n x).rtc = s.rtc := rfl
@[simp] theorem State.setTxs_rtcAcc (s : State) (n : Nat) (x : TxStream) : (s.setTxs n x).rtcAcc = s.rtcAcc := rfl
@[simp] theorem State.setTxs_cauth (s : State) (n : Nat) (x : TxStream) : (s.setTxs n x).cauth = s.cauth := rfl
@[simp] theorem State.setTxs_fresh (s : State) (n : Nat) (x : TxStream) : (s.setTxs n x).fresh = s.fresh := rfl
@[simp] theorem State.setTxs_cry (s : State) (n : Nat) (x : TxStream) : (s.setTxs n x).cry = s.cry := rfl
@[simp] theorem State.setTxs_yew (s : State) (n : Nat) (x : TxStream) : (s.setTxs n x).yew = s.yew := rfl
@[simp] theorem State.setTxs_hq (s : State) (n : Nat) (x : TxStream) : (s.setTxs n x).hq = s.hq := rfl
@[simp] theorem State.setTxs_hqReset (s : State) (n : Nat) (x : TxStream) : (s.setTxs n x).hqReset = s.hqReset := rfl
@[simp] theorem State.setTxs_bme (s : State) (n : Nat) (x : TxStream) : (s.setTxs n x).bme = s.bme := rfl
@[simp] theorem State.setTxs_d3 (s : State) (n : Nat) (x : TxStream) : (s.setTxs n x).d3 = s.d3 := rfl
@[simp] theorem State.setTxs_pair (s : State) (n : Nat) (x : TxStream) : (s.setTxs n x).pair = s.pair := rfl
@[simp] theorem State.setTxs_obs (s : State) (n : Nat) (x : TxStream) : (s.setTxs n x).obs = s.obs := rfl
@[simp] theorem State.setTxs_mono (s : State) (n : Nat) (x : TxStream) : (s.setTxs n x).mono = s.mono := rfl
@[simp] theorem State.setTxs_pwr (s : State) (n : Nat) (x : TxStream) : (s.setTxs n x).pwr = s.pwr := rfl
@[simp] theorem State.setTxs_wkn (s : State) (n : Nat) (x : TxStream) : (s.setTxs n x).wkn = s.wkn := rfl
@[simp] theorem State.setTxs_boot (s : State) (n : Nat) (x : TxStream) : (s.setTxs n x).boot = s.boot := rfl
@[simp] theorem State.setTxs_lrl (s : State) (n : Nat) (x : TxStream) : (s.setTxs n x).lrl = s.lrl := rfl
@[simp] theorem State.setTxs_fwu (s : State) (n : Nat) (x : TxStream) : (s.setTxs n x).fwu = s.fwu := rfl
@[simp] theorem State.setTxs_qspi (s : State) (n : Nat) (x : TxStream) : (s.setTxs n x).qspi = s.qspi := rfl
@[simp] theorem State.setTxs_chan (s : State) (n : Nat) (x : TxStream) : (s.setTxs n x).chan = s.chan := rfl
@[simp] theorem State.setTxs_arb (s : State) (n : Nat) (x : TxStream) : (s.setTxs n x).arb = s.arb := rfl

/-! State.setHeld. -/

@[simp] theorem State.setHeld_pending (s : State) (n : Nat) (h : List Copy) : (s.setHeld n h).pending = s.pending := rfl
@[simp] theorem State.setHeld_freeN (s : State) (n : Nat) (h : List Copy) : (s.setHeld n h).freeN = s.freeN := rfl
@[simp] theorem State.setHeld_outbox (s : State) (n : Nat) (h : List Copy) : (s.setHeld n h).outbox = s.outbox := rfl
@[simp] theorem State.setHeld_regs (s : State) (n : Nat) (h : List Copy) : (s.setHeld n h).regs = s.regs := rfl
@[simp] theorem State.setHeld_shadow (s : State) (n : Nat) (h : List Copy) : (s.setHeld n h).shadow = s.shadow := rfl
@[simp] theorem State.setHeld_prev (s : State) (n : Nat) (h : List Copy) : (s.setHeld n h).prev = s.prev := rfl
@[simp] theorem State.setHeld_tab (s : State) (n : Nat) (h : List Copy) : (s.setHeld n h).tab = s.tab := rfl
@[simp] theorem State.setHeld_bus (s : State) (n : Nat) (h : List Copy) : (s.setHeld n h).bus = s.bus := rfl
@[simp] theorem State.setHeld_cmt (s : State) (n : Nat) (h : List Copy) : (s.setHeld n h).cmt = s.cmt := rfl
@[simp] theorem State.setHeld_tsy (s : State) (n : Nat) (h : List Copy) : (s.setHeld n h).tsy = s.tsy := rfl
@[simp] theorem State.setHeld_xpl (s : State) (n : Nat) (h : List Copy) : (s.setHeld n h).xpl = s.xpl := rfl
@[simp] theorem State.setHeld_dram (s : State) (n : Nat) (h : List Copy) : (s.setHeld n h).dram = s.dram := rfl
@[simp] theorem State.setHeld_mram (s : State) (n : Nat) (h : List Copy) : (s.setHeld n h).mram = s.mram := rfl
@[simp] theorem State.setHeld_lsram (s : State) (n : Nat) (h : List Copy) : (s.setHeld n h).lsram = s.lsram := rfl
@[simp] theorem State.setHeld_hmem (s : State) (n : Nat) (h : List Copy) : (s.setHeld n h).hmem = s.hmem := rfl
@[simp] theorem State.setHeld_levels (s : State) (n : Nat) (h : List Copy) : (s.setHeld n h).levels = s.levels := rfl
@[simp] theorem State.setHeld_vecMask (s : State) (n : Nat) (h : List Copy) : (s.setHeld n h).vecMask = s.vecMask := rfl
@[simp] theorem State.setHeld_pba (s : State) (n : Nat) (h : List Copy) : (s.setHeld n h).pba = s.pba := rfl
@[simp] theorem State.setHeld_can (s : State) (n : Nat) (h : List Copy) : (s.setHeld n h).can = s.can := rfl
@[simp] theorem State.setHeld_prv (s : State) (n : Nat) (h : List Copy) : (s.setHeld n h).prv = { s.prv with hold := amSet [] s.prv.hold n h } := rfl
@[simp] theorem State.setHeld_clm (s : State) (n : Nat) (h : List Copy) : (s.setHeld n h).clm = s.clm := rfl
@[simp] theorem State.setHeld_tpe (s : State) (n : Nat) (h : List Copy) : (s.setHeld n h).tpe = s.tpe := rfl
@[simp] theorem State.setHeld_swIn (s : State) (n : Nat) (h : List Copy) : (s.setHeld n h).swIn = s.swIn := rfl
@[simp] theorem State.setHeld_sw (s : State) (n : Nat) (h : List Copy) : (s.setHeld n h).sw = s.sw := rfl
@[simp] theorem State.setHeld_emac (s : State) (n : Nat) (h : List Copy) : (s.setHeld n h).emac = s.emac := rfl
@[simp] theorem State.setHeld_rtc (s : State) (n : Nat) (h : List Copy) : (s.setHeld n h).rtc = s.rtc := rfl
@[simp] theorem State.setHeld_rtcAcc (s : State) (n : Nat) (h : List Copy) : (s.setHeld n h).rtcAcc = s.rtcAcc := rfl
@[simp] theorem State.setHeld_cauth (s : State) (n : Nat) (h : List Copy) : (s.setHeld n h).cauth = s.cauth := rfl
@[simp] theorem State.setHeld_fresh (s : State) (n : Nat) (h : List Copy) : (s.setHeld n h).fresh = s.fresh := rfl
@[simp] theorem State.setHeld_cry (s : State) (n : Nat) (h : List Copy) : (s.setHeld n h).cry = s.cry := rfl
@[simp] theorem State.setHeld_yew (s : State) (n : Nat) (h : List Copy) : (s.setHeld n h).yew = s.yew := rfl
@[simp] theorem State.setHeld_hq (s : State) (n : Nat) (h : List Copy) : (s.setHeld n h).hq = s.hq := rfl
@[simp] theorem State.setHeld_hqReset (s : State) (n : Nat) (h : List Copy) : (s.setHeld n h).hqReset = s.hqReset := rfl
@[simp] theorem State.setHeld_bme (s : State) (n : Nat) (h : List Copy) : (s.setHeld n h).bme = s.bme := rfl
@[simp] theorem State.setHeld_d3 (s : State) (n : Nat) (h : List Copy) : (s.setHeld n h).d3 = s.d3 := rfl
@[simp] theorem State.setHeld_pair (s : State) (n : Nat) (h : List Copy) : (s.setHeld n h).pair = s.pair := rfl
@[simp] theorem State.setHeld_obs (s : State) (n : Nat) (h : List Copy) : (s.setHeld n h).obs = s.obs := rfl
@[simp] theorem State.setHeld_mono (s : State) (n : Nat) (h : List Copy) : (s.setHeld n h).mono = s.mono := rfl
@[simp] theorem State.setHeld_pwr (s : State) (n : Nat) (h : List Copy) : (s.setHeld n h).pwr = s.pwr := rfl
@[simp] theorem State.setHeld_wkn (s : State) (n : Nat) (h : List Copy) : (s.setHeld n h).wkn = s.wkn := rfl
@[simp] theorem State.setHeld_boot (s : State) (n : Nat) (h : List Copy) : (s.setHeld n h).boot = s.boot := rfl
@[simp] theorem State.setHeld_lrl (s : State) (n : Nat) (h : List Copy) : (s.setHeld n h).lrl = s.lrl := rfl
@[simp] theorem State.setHeld_fwu (s : State) (n : Nat) (h : List Copy) : (s.setHeld n h).fwu = s.fwu := rfl
@[simp] theorem State.setHeld_qspi (s : State) (n : Nat) (h : List Copy) : (s.setHeld n h).qspi = s.qspi := rfl
@[simp] theorem State.setHeld_chan (s : State) (n : Nat) (h : List Copy) : (s.setHeld n h).chan = s.chan := rfl
@[simp] theorem State.setHeld_arb (s : State) (n : Nat) (h : List Copy) : (s.setHeld n h).arb = s.arb := rfl

/-! State.setSig. -/

@[simp] theorem State.setSig_pending (s : State) (i : Nat) (x : SigSlot) : (s.setSig i x).pending = s.pending := rfl
@[simp] theorem State.setSig_freeN (s : State) (i : Nat) (x : SigSlot) : (s.setSig i x).freeN = s.freeN := rfl
@[simp] theorem State.setSig_outbox (s : State) (i : Nat) (x : SigSlot) : (s.setSig i x).outbox = s.outbox := rfl
@[simp] theorem State.setSig_regs (s : State) (i : Nat) (x : SigSlot) : (s.setSig i x).regs = s.regs := rfl
@[simp] theorem State.setSig_shadow (s : State) (i : Nat) (x : SigSlot) : (s.setSig i x).shadow = s.shadow := rfl
@[simp] theorem State.setSig_prev (s : State) (i : Nat) (x : SigSlot) : (s.setSig i x).prev = s.prev := rfl
@[simp] theorem State.setSig_tab (s : State) (i : Nat) (x : SigSlot) : (s.setSig i x).tab = s.tab := rfl
@[simp] theorem State.setSig_bus (s : State) (i : Nat) (x : SigSlot) : (s.setSig i x).bus = s.bus := rfl
@[simp] theorem State.setSig_cmt (s : State) (i : Nat) (x : SigSlot) : (s.setSig i x).cmt = s.cmt := rfl
@[simp] theorem State.setSig_tsy (s : State) (i : Nat) (x : SigSlot) : (s.setSig i x).tsy = s.tsy := rfl
@[simp] theorem State.setSig_xpl (s : State) (i : Nat) (x : SigSlot) : (s.setSig i x).xpl = s.xpl := rfl
@[simp] theorem State.setSig_dram (s : State) (i : Nat) (x : SigSlot) : (s.setSig i x).dram = s.dram := rfl
@[simp] theorem State.setSig_mram (s : State) (i : Nat) (x : SigSlot) : (s.setSig i x).mram = s.mram := rfl
@[simp] theorem State.setSig_lsram (s : State) (i : Nat) (x : SigSlot) : (s.setSig i x).lsram = s.lsram := rfl
@[simp] theorem State.setSig_hmem (s : State) (i : Nat) (x : SigSlot) : (s.setSig i x).hmem = s.hmem := rfl
@[simp] theorem State.setSig_levels (s : State) (i : Nat) (x : SigSlot) : (s.setSig i x).levels = s.levels := rfl
@[simp] theorem State.setSig_vecMask (s : State) (i : Nat) (x : SigSlot) : (s.setSig i x).vecMask = s.vecMask := rfl
@[simp] theorem State.setSig_pba (s : State) (i : Nat) (x : SigSlot) : (s.setSig i x).pba = s.pba := rfl
@[simp] theorem State.setSig_can (s : State) (i : Nat) (x : SigSlot) : (s.setSig i x).can = s.can := rfl
@[simp] theorem State.setSig_prv (s : State) (i : Nat) (x : SigSlot) : (s.setSig i x).prv = { s.prv with slotv := amPut s.prv.slotv i x } := rfl
@[simp] theorem State.setSig_clm (s : State) (i : Nat) (x : SigSlot) : (s.setSig i x).clm = s.clm := rfl
@[simp] theorem State.setSig_tpe (s : State) (i : Nat) (x : SigSlot) : (s.setSig i x).tpe = s.tpe := rfl
@[simp] theorem State.setSig_swIn (s : State) (i : Nat) (x : SigSlot) : (s.setSig i x).swIn = s.swIn := rfl
@[simp] theorem State.setSig_sw (s : State) (i : Nat) (x : SigSlot) : (s.setSig i x).sw = s.sw := rfl
@[simp] theorem State.setSig_emac (s : State) (i : Nat) (x : SigSlot) : (s.setSig i x).emac = s.emac := rfl
@[simp] theorem State.setSig_rtc (s : State) (i : Nat) (x : SigSlot) : (s.setSig i x).rtc = s.rtc := rfl
@[simp] theorem State.setSig_rtcAcc (s : State) (i : Nat) (x : SigSlot) : (s.setSig i x).rtcAcc = s.rtcAcc := rfl
@[simp] theorem State.setSig_cauth (s : State) (i : Nat) (x : SigSlot) : (s.setSig i x).cauth = s.cauth := rfl
@[simp] theorem State.setSig_fresh (s : State) (i : Nat) (x : SigSlot) : (s.setSig i x).fresh = s.fresh := rfl
@[simp] theorem State.setSig_cry (s : State) (i : Nat) (x : SigSlot) : (s.setSig i x).cry = s.cry := rfl
@[simp] theorem State.setSig_yew (s : State) (i : Nat) (x : SigSlot) : (s.setSig i x).yew = s.yew := rfl
@[simp] theorem State.setSig_hq (s : State) (i : Nat) (x : SigSlot) : (s.setSig i x).hq = s.hq := rfl
@[simp] theorem State.setSig_hqReset (s : State) (i : Nat) (x : SigSlot) : (s.setSig i x).hqReset = s.hqReset := rfl
@[simp] theorem State.setSig_bme (s : State) (i : Nat) (x : SigSlot) : (s.setSig i x).bme = s.bme := rfl
@[simp] theorem State.setSig_d3 (s : State) (i : Nat) (x : SigSlot) : (s.setSig i x).d3 = s.d3 := rfl
@[simp] theorem State.setSig_pair (s : State) (i : Nat) (x : SigSlot) : (s.setSig i x).pair = s.pair := rfl
@[simp] theorem State.setSig_obs (s : State) (i : Nat) (x : SigSlot) : (s.setSig i x).obs = s.obs := rfl
@[simp] theorem State.setSig_mono (s : State) (i : Nat) (x : SigSlot) : (s.setSig i x).mono = s.mono := rfl
@[simp] theorem State.setSig_pwr (s : State) (i : Nat) (x : SigSlot) : (s.setSig i x).pwr = s.pwr := rfl
@[simp] theorem State.setSig_wkn (s : State) (i : Nat) (x : SigSlot) : (s.setSig i x).wkn = s.wkn := rfl
@[simp] theorem State.setSig_boot (s : State) (i : Nat) (x : SigSlot) : (s.setSig i x).boot = s.boot := rfl
@[simp] theorem State.setSig_lrl (s : State) (i : Nat) (x : SigSlot) : (s.setSig i x).lrl = s.lrl := rfl
@[simp] theorem State.setSig_fwu (s : State) (i : Nat) (x : SigSlot) : (s.setSig i x).fwu = s.fwu := rfl
@[simp] theorem State.setSig_qspi (s : State) (i : Nat) (x : SigSlot) : (s.setSig i x).qspi = s.qspi := rfl
@[simp] theorem State.setSig_chan (s : State) (i : Nat) (x : SigSlot) : (s.setSig i x).chan = s.chan := rfl
@[simp] theorem State.setSig_arb (s : State) (i : Nat) (x : SigSlot) : (s.setSig i x).arb = s.arb := rfl

/-! State.setPdu. -/

@[simp] theorem State.setPdu_pending (s : State) (l : Nat) (x : PduSt) : (s.setPdu l x).pending = s.pending := rfl
@[simp] theorem State.setPdu_freeN (s : State) (l : Nat) (x : PduSt) : (s.setPdu l x).freeN = s.freeN := rfl
@[simp] theorem State.setPdu_outbox (s : State) (l : Nat) (x : PduSt) : (s.setPdu l x).outbox = s.outbox := rfl
@[simp] theorem State.setPdu_regs (s : State) (l : Nat) (x : PduSt) : (s.setPdu l x).regs = s.regs := rfl
@[simp] theorem State.setPdu_shadow (s : State) (l : Nat) (x : PduSt) : (s.setPdu l x).shadow = s.shadow := rfl
@[simp] theorem State.setPdu_prev (s : State) (l : Nat) (x : PduSt) : (s.setPdu l x).prev = s.prev := rfl
@[simp] theorem State.setPdu_tab (s : State) (l : Nat) (x : PduSt) : (s.setPdu l x).tab = s.tab := rfl
@[simp] theorem State.setPdu_bus (s : State) (l : Nat) (x : PduSt) : (s.setPdu l x).bus = s.bus := rfl
@[simp] theorem State.setPdu_cmt (s : State) (l : Nat) (x : PduSt) : (s.setPdu l x).cmt = s.cmt := rfl
@[simp] theorem State.setPdu_tsy (s : State) (l : Nat) (x : PduSt) : (s.setPdu l x).tsy = s.tsy := rfl
@[simp] theorem State.setPdu_xpl (s : State) (l : Nat) (x : PduSt) : (s.setPdu l x).xpl = s.xpl := rfl
@[simp] theorem State.setPdu_dram (s : State) (l : Nat) (x : PduSt) : (s.setPdu l x).dram = s.dram := rfl
@[simp] theorem State.setPdu_mram (s : State) (l : Nat) (x : PduSt) : (s.setPdu l x).mram = s.mram := rfl
@[simp] theorem State.setPdu_lsram (s : State) (l : Nat) (x : PduSt) : (s.setPdu l x).lsram = s.lsram := rfl
@[simp] theorem State.setPdu_hmem (s : State) (l : Nat) (x : PduSt) : (s.setPdu l x).hmem = s.hmem := rfl
@[simp] theorem State.setPdu_levels (s : State) (l : Nat) (x : PduSt) : (s.setPdu l x).levels = s.levels := rfl
@[simp] theorem State.setPdu_vecMask (s : State) (l : Nat) (x : PduSt) : (s.setPdu l x).vecMask = s.vecMask := rfl
@[simp] theorem State.setPdu_pba (s : State) (l : Nat) (x : PduSt) : (s.setPdu l x).pba = s.pba := rfl
@[simp] theorem State.setPdu_can (s : State) (l : Nat) (x : PduSt) : (s.setPdu l x).can = s.can := rfl
@[simp] theorem State.setPdu_prv (s : State) (l : Nat) (x : PduSt) : (s.setPdu l x).prv = { s.prv with pdu := amSet {} s.prv.pdu l x } := rfl
@[simp] theorem State.setPdu_clm (s : State) (l : Nat) (x : PduSt) : (s.setPdu l x).clm = s.clm := rfl
@[simp] theorem State.setPdu_tpe (s : State) (l : Nat) (x : PduSt) : (s.setPdu l x).tpe = s.tpe := rfl
@[simp] theorem State.setPdu_swIn (s : State) (l : Nat) (x : PduSt) : (s.setPdu l x).swIn = s.swIn := rfl
@[simp] theorem State.setPdu_sw (s : State) (l : Nat) (x : PduSt) : (s.setPdu l x).sw = s.sw := rfl
@[simp] theorem State.setPdu_emac (s : State) (l : Nat) (x : PduSt) : (s.setPdu l x).emac = s.emac := rfl
@[simp] theorem State.setPdu_rtc (s : State) (l : Nat) (x : PduSt) : (s.setPdu l x).rtc = s.rtc := rfl
@[simp] theorem State.setPdu_rtcAcc (s : State) (l : Nat) (x : PduSt) : (s.setPdu l x).rtcAcc = s.rtcAcc := rfl
@[simp] theorem State.setPdu_cauth (s : State) (l : Nat) (x : PduSt) : (s.setPdu l x).cauth = s.cauth := rfl
@[simp] theorem State.setPdu_fresh (s : State) (l : Nat) (x : PduSt) : (s.setPdu l x).fresh = s.fresh := rfl
@[simp] theorem State.setPdu_cry (s : State) (l : Nat) (x : PduSt) : (s.setPdu l x).cry = s.cry := rfl
@[simp] theorem State.setPdu_yew (s : State) (l : Nat) (x : PduSt) : (s.setPdu l x).yew = s.yew := rfl
@[simp] theorem State.setPdu_hq (s : State) (l : Nat) (x : PduSt) : (s.setPdu l x).hq = s.hq := rfl
@[simp] theorem State.setPdu_hqReset (s : State) (l : Nat) (x : PduSt) : (s.setPdu l x).hqReset = s.hqReset := rfl
@[simp] theorem State.setPdu_bme (s : State) (l : Nat) (x : PduSt) : (s.setPdu l x).bme = s.bme := rfl
@[simp] theorem State.setPdu_d3 (s : State) (l : Nat) (x : PduSt) : (s.setPdu l x).d3 = s.d3 := rfl
@[simp] theorem State.setPdu_pair (s : State) (l : Nat) (x : PduSt) : (s.setPdu l x).pair = s.pair := rfl
@[simp] theorem State.setPdu_obs (s : State) (l : Nat) (x : PduSt) : (s.setPdu l x).obs = s.obs := rfl
@[simp] theorem State.setPdu_mono (s : State) (l : Nat) (x : PduSt) : (s.setPdu l x).mono = s.mono := rfl
@[simp] theorem State.setPdu_pwr (s : State) (l : Nat) (x : PduSt) : (s.setPdu l x).pwr = s.pwr := rfl
@[simp] theorem State.setPdu_wkn (s : State) (l : Nat) (x : PduSt) : (s.setPdu l x).wkn = s.wkn := rfl
@[simp] theorem State.setPdu_boot (s : State) (l : Nat) (x : PduSt) : (s.setPdu l x).boot = s.boot := rfl
@[simp] theorem State.setPdu_lrl (s : State) (l : Nat) (x : PduSt) : (s.setPdu l x).lrl = s.lrl := rfl
@[simp] theorem State.setPdu_fwu (s : State) (l : Nat) (x : PduSt) : (s.setPdu l x).fwu = s.fwu := rfl
@[simp] theorem State.setPdu_qspi (s : State) (l : Nat) (x : PduSt) : (s.setPdu l x).qspi = s.qspi := rfl
@[simp] theorem State.setPdu_chan (s : State) (l : Nat) (x : PduSt) : (s.setPdu l x).chan = s.chan := rfl
@[simp] theorem State.setPdu_arb (s : State) (l : Nat) (x : PduSt) : (s.setPdu l x).arb = s.arb := rfl

/-! State.waitJob. -/

@[simp] theorem State.waitJob_pending (s : State) (j : Job) : (s.waitJob j).pending = s.pending := rfl
@[simp] theorem State.waitJob_freeN (s : State) (j : Job) : (s.waitJob j).freeN = s.freeN := rfl
@[simp] theorem State.waitJob_outbox (s : State) (j : Job) : (s.waitJob j).outbox = s.outbox := rfl
@[simp] theorem State.waitJob_regs (s : State) (j : Job) : (s.waitJob j).regs = s.regs := rfl
@[simp] theorem State.waitJob_shadow (s : State) (j : Job) : (s.waitJob j).shadow = s.shadow := rfl
@[simp] theorem State.waitJob_prev (s : State) (j : Job) : (s.waitJob j).prev = s.prev := rfl
@[simp] theorem State.waitJob_tab (s : State) (j : Job) : (s.waitJob j).tab = s.tab := rfl
@[simp] theorem State.waitJob_bus (s : State) (j : Job) : (s.waitJob j).bus = s.bus := rfl
@[simp] theorem State.waitJob_cmt (s : State) (j : Job) : (s.waitJob j).cmt = s.cmt := rfl
@[simp] theorem State.waitJob_tsy (s : State) (j : Job) : (s.waitJob j).tsy = s.tsy := rfl
@[simp] theorem State.waitJob_xpl (s : State) (j : Job) : (s.waitJob j).xpl = s.xpl := rfl
@[simp] theorem State.waitJob_dram (s : State) (j : Job) : (s.waitJob j).dram = s.dram := rfl
@[simp] theorem State.waitJob_mram (s : State) (j : Job) : (s.waitJob j).mram = s.mram := rfl
@[simp] theorem State.waitJob_lsram (s : State) (j : Job) : (s.waitJob j).lsram = s.lsram := rfl
@[simp] theorem State.waitJob_hmem (s : State) (j : Job) : (s.waitJob j).hmem = s.hmem := rfl
@[simp] theorem State.waitJob_levels (s : State) (j : Job) : (s.waitJob j).levels = s.levels := rfl
@[simp] theorem State.waitJob_vecMask (s : State) (j : Job) : (s.waitJob j).vecMask = s.vecMask := rfl
@[simp] theorem State.waitJob_pba (s : State) (j : Job) : (s.waitJob j).pba = s.pba := rfl
@[simp] theorem State.waitJob_can (s : State) (j : Job) : (s.waitJob j).can = s.can := rfl
@[simp] theorem State.waitJob_prv (s : State) (j : Job) : (s.waitJob j).prv = { s.prv with wait := s.prv.wait ++ [j] } := rfl
@[simp] theorem State.waitJob_clm (s : State) (j : Job) : (s.waitJob j).clm = s.clm := rfl
@[simp] theorem State.waitJob_tpe (s : State) (j : Job) : (s.waitJob j).tpe = s.tpe := rfl
@[simp] theorem State.waitJob_swIn (s : State) (j : Job) : (s.waitJob j).swIn = s.swIn := rfl
@[simp] theorem State.waitJob_sw (s : State) (j : Job) : (s.waitJob j).sw = s.sw := rfl
@[simp] theorem State.waitJob_emac (s : State) (j : Job) : (s.waitJob j).emac = s.emac := rfl
@[simp] theorem State.waitJob_rtc (s : State) (j : Job) : (s.waitJob j).rtc = s.rtc := rfl
@[simp] theorem State.waitJob_rtcAcc (s : State) (j : Job) : (s.waitJob j).rtcAcc = s.rtcAcc := rfl
@[simp] theorem State.waitJob_cauth (s : State) (j : Job) : (s.waitJob j).cauth = s.cauth := rfl
@[simp] theorem State.waitJob_fresh (s : State) (j : Job) : (s.waitJob j).fresh = s.fresh := rfl
@[simp] theorem State.waitJob_cry (s : State) (j : Job) : (s.waitJob j).cry = s.cry := rfl
@[simp] theorem State.waitJob_yew (s : State) (j : Job) : (s.waitJob j).yew = s.yew := rfl
@[simp] theorem State.waitJob_hq (s : State) (j : Job) : (s.waitJob j).hq = s.hq := rfl
@[simp] theorem State.waitJob_hqReset (s : State) (j : Job) : (s.waitJob j).hqReset = s.hqReset := rfl
@[simp] theorem State.waitJob_bme (s : State) (j : Job) : (s.waitJob j).bme = s.bme := rfl
@[simp] theorem State.waitJob_d3 (s : State) (j : Job) : (s.waitJob j).d3 = s.d3 := rfl
@[simp] theorem State.waitJob_pair (s : State) (j : Job) : (s.waitJob j).pair = s.pair := rfl
@[simp] theorem State.waitJob_obs (s : State) (j : Job) : (s.waitJob j).obs = s.obs := rfl
@[simp] theorem State.waitJob_mono (s : State) (j : Job) : (s.waitJob j).mono = s.mono := rfl
@[simp] theorem State.waitJob_pwr (s : State) (j : Job) : (s.waitJob j).pwr = s.pwr := rfl
@[simp] theorem State.waitJob_wkn (s : State) (j : Job) : (s.waitJob j).wkn = s.wkn := rfl
@[simp] theorem State.waitJob_boot (s : State) (j : Job) : (s.waitJob j).boot = s.boot := rfl
@[simp] theorem State.waitJob_lrl (s : State) (j : Job) : (s.waitJob j).lrl = s.lrl := rfl
@[simp] theorem State.waitJob_fwu (s : State) (j : Job) : (s.waitJob j).fwu = s.fwu := rfl
@[simp] theorem State.waitJob_qspi (s : State) (j : Job) : (s.waitJob j).qspi = s.qspi := rfl
@[simp] theorem State.waitJob_chan (s : State) (j : Job) : (s.waitJob j).chan = s.chan := rfl
@[simp] theorem State.waitJob_arb (s : State) (j : Job) : (s.waitJob j).arb = s.arb := rfl

/-! State.setSa. -/

@[simp] theorem State.setSa_pending (s : State) (i : Nat) (a : Sa) : (s.setSa i a).pending = s.pending := rfl
@[simp] theorem State.setSa_freeN (s : State) (i : Nat) (a : Sa) : (s.setSa i a).freeN = s.freeN := rfl
@[simp] theorem State.setSa_outbox (s : State) (i : Nat) (a : Sa) : (s.setSa i a).outbox = s.outbox := rfl
@[simp] theorem State.setSa_regs (s : State) (i : Nat) (a : Sa) : (s.setSa i a).regs = s.regs := rfl
@[simp] theorem State.setSa_shadow (s : State) (i : Nat) (a : Sa) : (s.setSa i a).shadow = s.shadow := rfl
@[simp] theorem State.setSa_prev (s : State) (i : Nat) (a : Sa) : (s.setSa i a).prev = s.prev := rfl
@[simp] theorem State.setSa_tab (s : State) (i : Nat) (a : Sa) : (s.setSa i a).tab = s.tab := rfl
@[simp] theorem State.setSa_bus (s : State) (i : Nat) (a : Sa) : (s.setSa i a).bus = s.bus := rfl
@[simp] theorem State.setSa_cmt (s : State) (i : Nat) (a : Sa) : (s.setSa i a).cmt = s.cmt := rfl
@[simp] theorem State.setSa_tsy (s : State) (i : Nat) (a : Sa) : (s.setSa i a).tsy = s.tsy := rfl
@[simp] theorem State.setSa_xpl (s : State) (i : Nat) (a : Sa) : (s.setSa i a).xpl = s.xpl := rfl
@[simp] theorem State.setSa_dram (s : State) (i : Nat) (a : Sa) : (s.setSa i a).dram = s.dram := rfl
@[simp] theorem State.setSa_mram (s : State) (i : Nat) (a : Sa) : (s.setSa i a).mram = s.mram := rfl
@[simp] theorem State.setSa_lsram (s : State) (i : Nat) (a : Sa) : (s.setSa i a).lsram = s.lsram := rfl
@[simp] theorem State.setSa_hmem (s : State) (i : Nat) (a : Sa) : (s.setSa i a).hmem = s.hmem := rfl
@[simp] theorem State.setSa_levels (s : State) (i : Nat) (a : Sa) : (s.setSa i a).levels = s.levels := rfl
@[simp] theorem State.setSa_vecMask (s : State) (i : Nat) (a : Sa) : (s.setSa i a).vecMask = s.vecMask := rfl
@[simp] theorem State.setSa_pba (s : State) (i : Nat) (a : Sa) : (s.setSa i a).pba = s.pba := rfl
@[simp] theorem State.setSa_can (s : State) (i : Nat) (a : Sa) : (s.setSa i a).can = s.can := rfl
@[simp] theorem State.setSa_prv (s : State) (i : Nat) (a : Sa) : (s.setSa i a).prv = s.prv := rfl
@[simp] theorem State.setSa_clm (s : State) (i : Nat) (a : Sa) : (s.setSa i a).clm = s.clm := rfl
@[simp] theorem State.setSa_tpe (s : State) (i : Nat) (a : Sa) : (s.setSa i a).tpe = s.tpe := rfl
@[simp] theorem State.setSa_swIn (s : State) (i : Nat) (a : Sa) : (s.setSa i a).swIn = s.swIn := rfl
@[simp] theorem State.setSa_sw (s : State) (i : Nat) (a : Sa) : (s.setSa i a).sw = s.sw := rfl
@[simp] theorem State.setSa_emac (s : State) (i : Nat) (a : Sa) : (s.setSa i a).emac = s.emac := rfl
@[simp] theorem State.setSa_rtc (s : State) (i : Nat) (a : Sa) : (s.setSa i a).rtc = s.rtc := rfl
@[simp] theorem State.setSa_rtcAcc (s : State) (i : Nat) (a : Sa) : (s.setSa i a).rtcAcc = s.rtcAcc := rfl
@[simp] theorem State.setSa_cauth (s : State) (i : Nat) (a : Sa) : (s.setSa i a).cauth = s.cauth := rfl
@[simp] theorem State.setSa_fresh (s : State) (i : Nat) (a : Sa) : (s.setSa i a).fresh = s.fresh := rfl
@[simp] theorem State.setSa_cry (s : State) (i : Nat) (a : Sa) : (s.setSa i a).cry = { s.cry with sa := amSet {} s.cry.sa i a } := rfl
@[simp] theorem State.setSa_yew (s : State) (i : Nat) (a : Sa) : (s.setSa i a).yew = s.yew := rfl
@[simp] theorem State.setSa_hq (s : State) (i : Nat) (a : Sa) : (s.setSa i a).hq = s.hq := rfl
@[simp] theorem State.setSa_hqReset (s : State) (i : Nat) (a : Sa) : (s.setSa i a).hqReset = s.hqReset := rfl
@[simp] theorem State.setSa_bme (s : State) (i : Nat) (a : Sa) : (s.setSa i a).bme = s.bme := rfl
@[simp] theorem State.setSa_d3 (s : State) (i : Nat) (a : Sa) : (s.setSa i a).d3 = s.d3 := rfl
@[simp] theorem State.setSa_pair (s : State) (i : Nat) (a : Sa) : (s.setSa i a).pair = s.pair := rfl
@[simp] theorem State.setSa_obs (s : State) (i : Nat) (a : Sa) : (s.setSa i a).obs = s.obs := rfl
@[simp] theorem State.setSa_mono (s : State) (i : Nat) (a : Sa) : (s.setSa i a).mono = s.mono := rfl
@[simp] theorem State.setSa_pwr (s : State) (i : Nat) (a : Sa) : (s.setSa i a).pwr = s.pwr := rfl
@[simp] theorem State.setSa_wkn (s : State) (i : Nat) (a : Sa) : (s.setSa i a).wkn = s.wkn := rfl
@[simp] theorem State.setSa_boot (s : State) (i : Nat) (a : Sa) : (s.setSa i a).boot = s.boot := rfl
@[simp] theorem State.setSa_lrl (s : State) (i : Nat) (a : Sa) : (s.setSa i a).lrl = s.lrl := rfl
@[simp] theorem State.setSa_fwu (s : State) (i : Nat) (a : Sa) : (s.setSa i a).fwu = s.fwu := rfl
@[simp] theorem State.setSa_qspi (s : State) (i : Nat) (a : Sa) : (s.setSa i a).qspi = s.qspi := rfl
@[simp] theorem State.setSa_chan (s : State) (i : Nat) (a : Sa) : (s.setSa i a).chan = s.chan := rfl
@[simp] theorem State.setSa_arb (s : State) (i : Nat) (a : Sa) : (s.setSa i a).arb = s.arb := rfl

/-! State.delJob. -/

@[simp] theorem State.delJob_pending (s : State) (k : Nat) : (s.delJob k).pending = s.pending := rfl
@[simp] theorem State.delJob_freeN (s : State) (k : Nat) : (s.delJob k).freeN = s.freeN := rfl
@[simp] theorem State.delJob_outbox (s : State) (k : Nat) : (s.delJob k).outbox = s.outbox := rfl
@[simp] theorem State.delJob_regs (s : State) (k : Nat) : (s.delJob k).regs = s.regs := rfl
@[simp] theorem State.delJob_shadow (s : State) (k : Nat) : (s.delJob k).shadow = s.shadow := rfl
@[simp] theorem State.delJob_prev (s : State) (k : Nat) : (s.delJob k).prev = s.prev := rfl
@[simp] theorem State.delJob_tab (s : State) (k : Nat) : (s.delJob k).tab = s.tab := rfl
@[simp] theorem State.delJob_bus (s : State) (k : Nat) : (s.delJob k).bus = s.bus := rfl
@[simp] theorem State.delJob_cmt (s : State) (k : Nat) : (s.delJob k).cmt = s.cmt := rfl
@[simp] theorem State.delJob_tsy (s : State) (k : Nat) : (s.delJob k).tsy = s.tsy := rfl
@[simp] theorem State.delJob_xpl (s : State) (k : Nat) : (s.delJob k).xpl = s.xpl := rfl
@[simp] theorem State.delJob_dram (s : State) (k : Nat) : (s.delJob k).dram = s.dram := rfl
@[simp] theorem State.delJob_mram (s : State) (k : Nat) : (s.delJob k).mram = s.mram := rfl
@[simp] theorem State.delJob_lsram (s : State) (k : Nat) : (s.delJob k).lsram = s.lsram := rfl
@[simp] theorem State.delJob_hmem (s : State) (k : Nat) : (s.delJob k).hmem = s.hmem := rfl
@[simp] theorem State.delJob_levels (s : State) (k : Nat) : (s.delJob k).levels = s.levels := rfl
@[simp] theorem State.delJob_vecMask (s : State) (k : Nat) : (s.delJob k).vecMask = s.vecMask := rfl
@[simp] theorem State.delJob_pba (s : State) (k : Nat) : (s.delJob k).pba = s.pba := rfl
@[simp] theorem State.delJob_can (s : State) (k : Nat) : (s.delJob k).can = s.can := rfl
@[simp] theorem State.delJob_prv (s : State) (k : Nat) : (s.delJob k).prv = s.prv := rfl
@[simp] theorem State.delJob_clm (s : State) (k : Nat) : (s.delJob k).clm = s.clm := rfl
@[simp] theorem State.delJob_tpe (s : State) (k : Nat) : (s.delJob k).tpe = s.tpe := rfl
@[simp] theorem State.delJob_swIn (s : State) (k : Nat) : (s.delJob k).swIn = s.swIn := rfl
@[simp] theorem State.delJob_sw (s : State) (k : Nat) : (s.delJob k).sw = s.sw := rfl
@[simp] theorem State.delJob_emac (s : State) (k : Nat) : (s.delJob k).emac = s.emac := rfl
@[simp] theorem State.delJob_rtc (s : State) (k : Nat) : (s.delJob k).rtc = s.rtc := rfl
@[simp] theorem State.delJob_rtcAcc (s : State) (k : Nat) : (s.delJob k).rtcAcc = s.rtcAcc := rfl
@[simp] theorem State.delJob_cauth (s : State) (k : Nat) : (s.delJob k).cauth = s.cauth := rfl
@[simp] theorem State.delJob_fresh (s : State) (k : Nat) : (s.delJob k).fresh = s.fresh := rfl
@[simp] theorem State.delJob_cry (s : State) (k : Nat) : (s.delJob k).cry = { s.cry with jobs := amDel s.cry.jobs k } := rfl
@[simp] theorem State.delJob_yew (s : State) (k : Nat) : (s.delJob k).yew = s.yew := rfl
@[simp] theorem State.delJob_hq (s : State) (k : Nat) : (s.delJob k).hq = s.hq := rfl
@[simp] theorem State.delJob_hqReset (s : State) (k : Nat) : (s.delJob k).hqReset = s.hqReset := rfl
@[simp] theorem State.delJob_bme (s : State) (k : Nat) : (s.delJob k).bme = s.bme := rfl
@[simp] theorem State.delJob_d3 (s : State) (k : Nat) : (s.delJob k).d3 = s.d3 := rfl
@[simp] theorem State.delJob_pair (s : State) (k : Nat) : (s.delJob k).pair = s.pair := rfl
@[simp] theorem State.delJob_obs (s : State) (k : Nat) : (s.delJob k).obs = s.obs := rfl
@[simp] theorem State.delJob_mono (s : State) (k : Nat) : (s.delJob k).mono = s.mono := rfl
@[simp] theorem State.delJob_pwr (s : State) (k : Nat) : (s.delJob k).pwr = s.pwr := rfl
@[simp] theorem State.delJob_wkn (s : State) (k : Nat) : (s.delJob k).wkn = s.wkn := rfl
@[simp] theorem State.delJob_boot (s : State) (k : Nat) : (s.delJob k).boot = s.boot := rfl
@[simp] theorem State.delJob_lrl (s : State) (k : Nat) : (s.delJob k).lrl = s.lrl := rfl
@[simp] theorem State.delJob_fwu (s : State) (k : Nat) : (s.delJob k).fwu = s.fwu := rfl
@[simp] theorem State.delJob_qspi (s : State) (k : Nat) : (s.delJob k).qspi = s.qspi := rfl
@[simp] theorem State.delJob_chan (s : State) (k : Nat) : (s.delJob k).chan = s.chan := rfl
@[simp] theorem State.delJob_arb (s : State) (k : Nat) : (s.delJob k).arb = s.arb := rfl

/-! State.setSlot. -/

@[simp] theorem State.setSlot_pending (s : State) (n : Nat) (k : SlotKey) : (s.setSlot n k).pending = s.pending := rfl
@[simp] theorem State.setSlot_freeN (s : State) (n : Nat) (k : SlotKey) : (s.setSlot n k).freeN = s.freeN := rfl
@[simp] theorem State.setSlot_outbox (s : State) (n : Nat) (k : SlotKey) : (s.setSlot n k).outbox = s.outbox := rfl
@[simp] theorem State.setSlot_regs (s : State) (n : Nat) (k : SlotKey) : (s.setSlot n k).regs = s.regs := rfl
@[simp] theorem State.setSlot_shadow (s : State) (n : Nat) (k : SlotKey) : (s.setSlot n k).shadow = s.shadow := rfl
@[simp] theorem State.setSlot_prev (s : State) (n : Nat) (k : SlotKey) : (s.setSlot n k).prev = s.prev := rfl
@[simp] theorem State.setSlot_tab (s : State) (n : Nat) (k : SlotKey) : (s.setSlot n k).tab = s.tab := rfl
@[simp] theorem State.setSlot_bus (s : State) (n : Nat) (k : SlotKey) : (s.setSlot n k).bus = s.bus := rfl
@[simp] theorem State.setSlot_cmt (s : State) (n : Nat) (k : SlotKey) : (s.setSlot n k).cmt = s.cmt := rfl
@[simp] theorem State.setSlot_tsy (s : State) (n : Nat) (k : SlotKey) : (s.setSlot n k).tsy = s.tsy := rfl
@[simp] theorem State.setSlot_xpl (s : State) (n : Nat) (k : SlotKey) : (s.setSlot n k).xpl = s.xpl := rfl
@[simp] theorem State.setSlot_dram (s : State) (n : Nat) (k : SlotKey) : (s.setSlot n k).dram = s.dram := rfl
@[simp] theorem State.setSlot_mram (s : State) (n : Nat) (k : SlotKey) : (s.setSlot n k).mram = s.mram := rfl
@[simp] theorem State.setSlot_lsram (s : State) (n : Nat) (k : SlotKey) : (s.setSlot n k).lsram = s.lsram := rfl
@[simp] theorem State.setSlot_hmem (s : State) (n : Nat) (k : SlotKey) : (s.setSlot n k).hmem = s.hmem := rfl
@[simp] theorem State.setSlot_levels (s : State) (n : Nat) (k : SlotKey) : (s.setSlot n k).levels = s.levels := rfl
@[simp] theorem State.setSlot_vecMask (s : State) (n : Nat) (k : SlotKey) : (s.setSlot n k).vecMask = s.vecMask := rfl
@[simp] theorem State.setSlot_pba (s : State) (n : Nat) (k : SlotKey) : (s.setSlot n k).pba = s.pba := rfl
@[simp] theorem State.setSlot_can (s : State) (n : Nat) (k : SlotKey) : (s.setSlot n k).can = s.can := rfl
@[simp] theorem State.setSlot_prv (s : State) (n : Nat) (k : SlotKey) : (s.setSlot n k).prv = s.prv := rfl
@[simp] theorem State.setSlot_clm (s : State) (n : Nat) (k : SlotKey) : (s.setSlot n k).clm = s.clm := rfl
@[simp] theorem State.setSlot_tpe (s : State) (n : Nat) (k : SlotKey) : (s.setSlot n k).tpe = s.tpe := rfl
@[simp] theorem State.setSlot_swIn (s : State) (n : Nat) (k : SlotKey) : (s.setSlot n k).swIn = s.swIn := rfl
@[simp] theorem State.setSlot_sw (s : State) (n : Nat) (k : SlotKey) : (s.setSlot n k).sw = s.sw := rfl
@[simp] theorem State.setSlot_emac (s : State) (n : Nat) (k : SlotKey) : (s.setSlot n k).emac = s.emac := rfl
@[simp] theorem State.setSlot_rtc (s : State) (n : Nat) (k : SlotKey) : (s.setSlot n k).rtc = s.rtc := rfl
@[simp] theorem State.setSlot_rtcAcc (s : State) (n : Nat) (k : SlotKey) : (s.setSlot n k).rtcAcc = s.rtcAcc := rfl
@[simp] theorem State.setSlot_cauth (s : State) (n : Nat) (k : SlotKey) : (s.setSlot n k).cauth = s.cauth := rfl
@[simp] theorem State.setSlot_fresh (s : State) (n : Nat) (k : SlotKey) : (s.setSlot n k).fresh = s.fresh := rfl
@[simp] theorem State.setSlot_cry (s : State) (n : Nat) (k : SlotKey) : (s.setSlot n k).cry = s.cry := rfl
@[simp] theorem State.setSlot_yew (s : State) (n : Nat) (k : SlotKey) : (s.setSlot n k).yew = { s.yew with slots := amSet ⟨0, 0, []⟩ s.yew.slots n k } := rfl
@[simp] theorem State.setSlot_hq (s : State) (n : Nat) (k : SlotKey) : (s.setSlot n k).hq = s.hq := rfl
@[simp] theorem State.setSlot_hqReset (s : State) (n : Nat) (k : SlotKey) : (s.setSlot n k).hqReset = s.hqReset := rfl
@[simp] theorem State.setSlot_bme (s : State) (n : Nat) (k : SlotKey) : (s.setSlot n k).bme = s.bme := rfl
@[simp] theorem State.setSlot_d3 (s : State) (n : Nat) (k : SlotKey) : (s.setSlot n k).d3 = s.d3 := rfl
@[simp] theorem State.setSlot_pair (s : State) (n : Nat) (k : SlotKey) : (s.setSlot n k).pair = s.pair := rfl
@[simp] theorem State.setSlot_obs (s : State) (n : Nat) (k : SlotKey) : (s.setSlot n k).obs = s.obs := rfl
@[simp] theorem State.setSlot_mono (s : State) (n : Nat) (k : SlotKey) : (s.setSlot n k).mono = s.mono := rfl
@[simp] theorem State.setSlot_pwr (s : State) (n : Nat) (k : SlotKey) : (s.setSlot n k).pwr = s.pwr := rfl
@[simp] theorem State.setSlot_wkn (s : State) (n : Nat) (k : SlotKey) : (s.setSlot n k).wkn = s.wkn := rfl
@[simp] theorem State.setSlot_boot (s : State) (n : Nat) (k : SlotKey) : (s.setSlot n k).boot = s.boot := rfl
@[simp] theorem State.setSlot_lrl (s : State) (n : Nat) (k : SlotKey) : (s.setSlot n k).lrl = s.lrl := rfl
@[simp] theorem State.setSlot_fwu (s : State) (n : Nat) (k : SlotKey) : (s.setSlot n k).fwu = s.fwu := rfl
@[simp] theorem State.setSlot_qspi (s : State) (n : Nat) (k : SlotKey) : (s.setSlot n k).qspi = s.qspi := rfl
@[simp] theorem State.setSlot_chan (s : State) (n : Nat) (k : SlotKey) : (s.setSlot n k).chan = s.chan := rfl
@[simp] theorem State.setSlot_arb (s : State) (n : Nat) (k : SlotKey) : (s.setSlot n k).arb = s.arb := rfl

/-! State.setSes. -/

@[simp] theorem State.setSes_pending (s : State) (i : Nat) (t : TpeSession) : (s.setSes i t).pending = s.pending := rfl
@[simp] theorem State.setSes_freeN (s : State) (i : Nat) (t : TpeSession) : (s.setSes i t).freeN = s.freeN := rfl
@[simp] theorem State.setSes_outbox (s : State) (i : Nat) (t : TpeSession) : (s.setSes i t).outbox = s.outbox := rfl
@[simp] theorem State.setSes_regs (s : State) (i : Nat) (t : TpeSession) : (s.setSes i t).regs = s.regs := rfl
@[simp] theorem State.setSes_shadow (s : State) (i : Nat) (t : TpeSession) : (s.setSes i t).shadow = s.shadow := rfl
@[simp] theorem State.setSes_prev (s : State) (i : Nat) (t : TpeSession) : (s.setSes i t).prev = s.prev := rfl
@[simp] theorem State.setSes_tab (s : State) (i : Nat) (t : TpeSession) : (s.setSes i t).tab = s.tab := rfl
@[simp] theorem State.setSes_bus (s : State) (i : Nat) (t : TpeSession) : (s.setSes i t).bus = s.bus := rfl
@[simp] theorem State.setSes_cmt (s : State) (i : Nat) (t : TpeSession) : (s.setSes i t).cmt = s.cmt := rfl
@[simp] theorem State.setSes_tsy (s : State) (i : Nat) (t : TpeSession) : (s.setSes i t).tsy = s.tsy := rfl
@[simp] theorem State.setSes_xpl (s : State) (i : Nat) (t : TpeSession) : (s.setSes i t).xpl = s.xpl := rfl
@[simp] theorem State.setSes_dram (s : State) (i : Nat) (t : TpeSession) : (s.setSes i t).dram = s.dram := rfl
@[simp] theorem State.setSes_mram (s : State) (i : Nat) (t : TpeSession) : (s.setSes i t).mram = s.mram := rfl
@[simp] theorem State.setSes_lsram (s : State) (i : Nat) (t : TpeSession) : (s.setSes i t).lsram = s.lsram := rfl
@[simp] theorem State.setSes_hmem (s : State) (i : Nat) (t : TpeSession) : (s.setSes i t).hmem = s.hmem := rfl
@[simp] theorem State.setSes_levels (s : State) (i : Nat) (t : TpeSession) : (s.setSes i t).levels = s.levels := rfl
@[simp] theorem State.setSes_vecMask (s : State) (i : Nat) (t : TpeSession) : (s.setSes i t).vecMask = s.vecMask := rfl
@[simp] theorem State.setSes_pba (s : State) (i : Nat) (t : TpeSession) : (s.setSes i t).pba = s.pba := rfl
@[simp] theorem State.setSes_can (s : State) (i : Nat) (t : TpeSession) : (s.setSes i t).can = s.can := rfl
@[simp] theorem State.setSes_prv (s : State) (i : Nat) (t : TpeSession) : (s.setSes i t).prv = s.prv := rfl
@[simp] theorem State.setSes_clm (s : State) (i : Nat) (t : TpeSession) : (s.setSes i t).clm = s.clm := rfl
@[simp] theorem State.setSes_tpe (s : State) (i : Nat) (t : TpeSession) : (s.setSes i t).tpe = { s.tpe with ses := amPut s.tpe.ses i t } := rfl
@[simp] theorem State.setSes_swIn (s : State) (i : Nat) (t : TpeSession) : (s.setSes i t).swIn = s.swIn := rfl
@[simp] theorem State.setSes_sw (s : State) (i : Nat) (t : TpeSession) : (s.setSes i t).sw = s.sw := rfl
@[simp] theorem State.setSes_emac (s : State) (i : Nat) (t : TpeSession) : (s.setSes i t).emac = s.emac := rfl
@[simp] theorem State.setSes_rtc (s : State) (i : Nat) (t : TpeSession) : (s.setSes i t).rtc = s.rtc := rfl
@[simp] theorem State.setSes_rtcAcc (s : State) (i : Nat) (t : TpeSession) : (s.setSes i t).rtcAcc = s.rtcAcc := rfl
@[simp] theorem State.setSes_cauth (s : State) (i : Nat) (t : TpeSession) : (s.setSes i t).cauth = s.cauth := rfl
@[simp] theorem State.setSes_fresh (s : State) (i : Nat) (t : TpeSession) : (s.setSes i t).fresh = s.fresh := rfl
@[simp] theorem State.setSes_cry (s : State) (i : Nat) (t : TpeSession) : (s.setSes i t).cry = s.cry := rfl
@[simp] theorem State.setSes_yew (s : State) (i : Nat) (t : TpeSession) : (s.setSes i t).yew = s.yew := rfl
@[simp] theorem State.setSes_hq (s : State) (i : Nat) (t : TpeSession) : (s.setSes i t).hq = s.hq := rfl
@[simp] theorem State.setSes_hqReset (s : State) (i : Nat) (t : TpeSession) : (s.setSes i t).hqReset = s.hqReset := rfl
@[simp] theorem State.setSes_bme (s : State) (i : Nat) (t : TpeSession) : (s.setSes i t).bme = s.bme := rfl
@[simp] theorem State.setSes_d3 (s : State) (i : Nat) (t : TpeSession) : (s.setSes i t).d3 = s.d3 := rfl
@[simp] theorem State.setSes_pair (s : State) (i : Nat) (t : TpeSession) : (s.setSes i t).pair = s.pair := rfl
@[simp] theorem State.setSes_obs (s : State) (i : Nat) (t : TpeSession) : (s.setSes i t).obs = s.obs := rfl
@[simp] theorem State.setSes_mono (s : State) (i : Nat) (t : TpeSession) : (s.setSes i t).mono = s.mono := rfl
@[simp] theorem State.setSes_pwr (s : State) (i : Nat) (t : TpeSession) : (s.setSes i t).pwr = s.pwr := rfl
@[simp] theorem State.setSes_wkn (s : State) (i : Nat) (t : TpeSession) : (s.setSes i t).wkn = s.wkn := rfl
@[simp] theorem State.setSes_boot (s : State) (i : Nat) (t : TpeSession) : (s.setSes i t).boot = s.boot := rfl
@[simp] theorem State.setSes_lrl (s : State) (i : Nat) (t : TpeSession) : (s.setSes i t).lrl = s.lrl := rfl
@[simp] theorem State.setSes_fwu (s : State) (i : Nat) (t : TpeSession) : (s.setSes i t).fwu = s.fwu := rfl
@[simp] theorem State.setSes_qspi (s : State) (i : Nat) (t : TpeSession) : (s.setSes i t).qspi = s.qspi := rfl
@[simp] theorem State.setSes_chan (s : State) (i : Nat) (t : TpeSession) : (s.setSes i t).chan = s.chan := rfl
@[simp] theorem State.setSes_arb (s : State) (i : Nat) (t : TpeSession) : (s.setSes i t).arb = s.arb := rfl

/-! State.sesEnd. -/

@[simp] theorem State.sesEnd_pending (s : State) (i : Nat) : (s.sesEnd i).pending = s.pending := rfl
@[simp] theorem State.sesEnd_freeN (s : State) (i : Nat) : (s.sesEnd i).freeN = s.freeN := rfl
@[simp] theorem State.sesEnd_outbox (s : State) (i : Nat) : (s.sesEnd i).outbox = s.outbox := rfl
@[simp] theorem State.sesEnd_regs (s : State) (i : Nat) : (s.sesEnd i).regs = s.regs := rfl
@[simp] theorem State.sesEnd_shadow (s : State) (i : Nat) : (s.sesEnd i).shadow = s.shadow := rfl
@[simp] theorem State.sesEnd_prev (s : State) (i : Nat) : (s.sesEnd i).prev = s.prev := rfl
@[simp] theorem State.sesEnd_tab (s : State) (i : Nat) : (s.sesEnd i).tab = s.tab := rfl
@[simp] theorem State.sesEnd_bus (s : State) (i : Nat) : (s.sesEnd i).bus = s.bus := rfl
@[simp] theorem State.sesEnd_cmt (s : State) (i : Nat) : (s.sesEnd i).cmt = s.cmt := rfl
@[simp] theorem State.sesEnd_tsy (s : State) (i : Nat) : (s.sesEnd i).tsy = s.tsy := rfl
@[simp] theorem State.sesEnd_xpl (s : State) (i : Nat) : (s.sesEnd i).xpl = s.xpl := rfl
@[simp] theorem State.sesEnd_dram (s : State) (i : Nat) : (s.sesEnd i).dram = s.dram := rfl
@[simp] theorem State.sesEnd_mram (s : State) (i : Nat) : (s.sesEnd i).mram = s.mram := rfl
@[simp] theorem State.sesEnd_lsram (s : State) (i : Nat) : (s.sesEnd i).lsram = s.lsram := rfl
@[simp] theorem State.sesEnd_hmem (s : State) (i : Nat) : (s.sesEnd i).hmem = s.hmem := rfl
@[simp] theorem State.sesEnd_levels (s : State) (i : Nat) : (s.sesEnd i).levels = s.levels := rfl
@[simp] theorem State.sesEnd_vecMask (s : State) (i : Nat) : (s.sesEnd i).vecMask = s.vecMask := rfl
@[simp] theorem State.sesEnd_pba (s : State) (i : Nat) : (s.sesEnd i).pba = s.pba := rfl
@[simp] theorem State.sesEnd_can (s : State) (i : Nat) : (s.sesEnd i).can = s.can := rfl
@[simp] theorem State.sesEnd_prv (s : State) (i : Nat) : (s.sesEnd i).prv = s.prv := rfl
@[simp] theorem State.sesEnd_clm (s : State) (i : Nat) : (s.sesEnd i).clm = s.clm := rfl
@[simp] theorem State.sesEnd_tpe (s : State) (i : Nat) : (s.sesEnd i).tpe = { s.tpe with ses := amDel s.tpe.ses i } := rfl
@[simp] theorem State.sesEnd_swIn (s : State) (i : Nat) : (s.sesEnd i).swIn = s.swIn := rfl
@[simp] theorem State.sesEnd_sw (s : State) (i : Nat) : (s.sesEnd i).sw = s.sw := rfl
@[simp] theorem State.sesEnd_emac (s : State) (i : Nat) : (s.sesEnd i).emac = s.emac := rfl
@[simp] theorem State.sesEnd_rtc (s : State) (i : Nat) : (s.sesEnd i).rtc = s.rtc := rfl
@[simp] theorem State.sesEnd_rtcAcc (s : State) (i : Nat) : (s.sesEnd i).rtcAcc = s.rtcAcc := rfl
@[simp] theorem State.sesEnd_cauth (s : State) (i : Nat) : (s.sesEnd i).cauth = s.cauth := rfl
@[simp] theorem State.sesEnd_fresh (s : State) (i : Nat) : (s.sesEnd i).fresh = s.fresh := rfl
@[simp] theorem State.sesEnd_cry (s : State) (i : Nat) : (s.sesEnd i).cry = s.cry := rfl
@[simp] theorem State.sesEnd_yew (s : State) (i : Nat) : (s.sesEnd i).yew = s.yew := rfl
@[simp] theorem State.sesEnd_hq (s : State) (i : Nat) : (s.sesEnd i).hq = s.hq := rfl
@[simp] theorem State.sesEnd_hqReset (s : State) (i : Nat) : (s.sesEnd i).hqReset = s.hqReset := rfl
@[simp] theorem State.sesEnd_bme (s : State) (i : Nat) : (s.sesEnd i).bme = s.bme := rfl
@[simp] theorem State.sesEnd_d3 (s : State) (i : Nat) : (s.sesEnd i).d3 = s.d3 := rfl
@[simp] theorem State.sesEnd_pair (s : State) (i : Nat) : (s.sesEnd i).pair = s.pair := rfl
@[simp] theorem State.sesEnd_obs (s : State) (i : Nat) : (s.sesEnd i).obs = s.obs := rfl
@[simp] theorem State.sesEnd_mono (s : State) (i : Nat) : (s.sesEnd i).mono = s.mono := rfl
@[simp] theorem State.sesEnd_pwr (s : State) (i : Nat) : (s.sesEnd i).pwr = s.pwr := rfl
@[simp] theorem State.sesEnd_wkn (s : State) (i : Nat) : (s.sesEnd i).wkn = s.wkn := rfl
@[simp] theorem State.sesEnd_boot (s : State) (i : Nat) : (s.sesEnd i).boot = s.boot := rfl
@[simp] theorem State.sesEnd_lrl (s : State) (i : Nat) : (s.sesEnd i).lrl = s.lrl := rfl
@[simp] theorem State.sesEnd_fwu (s : State) (i : Nat) : (s.sesEnd i).fwu = s.fwu := rfl
@[simp] theorem State.sesEnd_qspi (s : State) (i : Nat) : (s.sesEnd i).qspi = s.qspi := rfl
@[simp] theorem State.sesEnd_chan (s : State) (i : Nat) : (s.sesEnd i).chan = s.chan := rfl
@[simp] theorem State.sesEnd_arb (s : State) (i : Nat) : (s.sesEnd i).arb = s.arb := rfl

/-! State.setTout. -/

@[simp] theorem State.setTout_pending (s : State) (n : Nat) (p : PulseOut) : (s.setTout n p).pending = s.pending := rfl
@[simp] theorem State.setTout_freeN (s : State) (n : Nat) (p : PulseOut) : (s.setTout n p).freeN = s.freeN := rfl
@[simp] theorem State.setTout_outbox (s : State) (n : Nat) (p : PulseOut) : (s.setTout n p).outbox = s.outbox := rfl
@[simp] theorem State.setTout_regs (s : State) (n : Nat) (p : PulseOut) : (s.setTout n p).regs = s.regs := rfl
@[simp] theorem State.setTout_shadow (s : State) (n : Nat) (p : PulseOut) : (s.setTout n p).shadow = s.shadow := rfl
@[simp] theorem State.setTout_prev (s : State) (n : Nat) (p : PulseOut) : (s.setTout n p).prev = s.prev := rfl
@[simp] theorem State.setTout_tab (s : State) (n : Nat) (p : PulseOut) : (s.setTout n p).tab = s.tab := rfl
@[simp] theorem State.setTout_bus (s : State) (n : Nat) (p : PulseOut) : (s.setTout n p).bus = s.bus := rfl
@[simp] theorem State.setTout_cmt (s : State) (n : Nat) (p : PulseOut) : (s.setTout n p).cmt = s.cmt := rfl
@[simp] theorem State.setTout_tsy (s : State) (n : Nat) (p : PulseOut) : (s.setTout n p).tsy = { s.tsy with touts := lset s.tsy.touts n p } := rfl
@[simp] theorem State.setTout_xpl (s : State) (n : Nat) (p : PulseOut) : (s.setTout n p).xpl = s.xpl := rfl
@[simp] theorem State.setTout_dram (s : State) (n : Nat) (p : PulseOut) : (s.setTout n p).dram = s.dram := rfl
@[simp] theorem State.setTout_mram (s : State) (n : Nat) (p : PulseOut) : (s.setTout n p).mram = s.mram := rfl
@[simp] theorem State.setTout_lsram (s : State) (n : Nat) (p : PulseOut) : (s.setTout n p).lsram = s.lsram := rfl
@[simp] theorem State.setTout_hmem (s : State) (n : Nat) (p : PulseOut) : (s.setTout n p).hmem = s.hmem := rfl
@[simp] theorem State.setTout_levels (s : State) (n : Nat) (p : PulseOut) : (s.setTout n p).levels = s.levels := rfl
@[simp] theorem State.setTout_vecMask (s : State) (n : Nat) (p : PulseOut) : (s.setTout n p).vecMask = s.vecMask := rfl
@[simp] theorem State.setTout_pba (s : State) (n : Nat) (p : PulseOut) : (s.setTout n p).pba = s.pba := rfl
@[simp] theorem State.setTout_can (s : State) (n : Nat) (p : PulseOut) : (s.setTout n p).can = s.can := rfl
@[simp] theorem State.setTout_prv (s : State) (n : Nat) (p : PulseOut) : (s.setTout n p).prv = s.prv := rfl
@[simp] theorem State.setTout_clm (s : State) (n : Nat) (p : PulseOut) : (s.setTout n p).clm = s.clm := rfl
@[simp] theorem State.setTout_tpe (s : State) (n : Nat) (p : PulseOut) : (s.setTout n p).tpe = s.tpe := rfl
@[simp] theorem State.setTout_swIn (s : State) (n : Nat) (p : PulseOut) : (s.setTout n p).swIn = s.swIn := rfl
@[simp] theorem State.setTout_sw (s : State) (n : Nat) (p : PulseOut) : (s.setTout n p).sw = s.sw := rfl
@[simp] theorem State.setTout_emac (s : State) (n : Nat) (p : PulseOut) : (s.setTout n p).emac = s.emac := rfl
@[simp] theorem State.setTout_rtc (s : State) (n : Nat) (p : PulseOut) : (s.setTout n p).rtc = s.rtc := rfl
@[simp] theorem State.setTout_rtcAcc (s : State) (n : Nat) (p : PulseOut) : (s.setTout n p).rtcAcc = s.rtcAcc := rfl
@[simp] theorem State.setTout_cauth (s : State) (n : Nat) (p : PulseOut) : (s.setTout n p).cauth = s.cauth := rfl
@[simp] theorem State.setTout_fresh (s : State) (n : Nat) (p : PulseOut) : (s.setTout n p).fresh = s.fresh := rfl
@[simp] theorem State.setTout_cry (s : State) (n : Nat) (p : PulseOut) : (s.setTout n p).cry = s.cry := rfl
@[simp] theorem State.setTout_yew (s : State) (n : Nat) (p : PulseOut) : (s.setTout n p).yew = s.yew := rfl
@[simp] theorem State.setTout_hq (s : State) (n : Nat) (p : PulseOut) : (s.setTout n p).hq = s.hq := rfl
@[simp] theorem State.setTout_hqReset (s : State) (n : Nat) (p : PulseOut) : (s.setTout n p).hqReset = s.hqReset := rfl
@[simp] theorem State.setTout_bme (s : State) (n : Nat) (p : PulseOut) : (s.setTout n p).bme = s.bme := rfl
@[simp] theorem State.setTout_d3 (s : State) (n : Nat) (p : PulseOut) : (s.setTout n p).d3 = s.d3 := rfl
@[simp] theorem State.setTout_pair (s : State) (n : Nat) (p : PulseOut) : (s.setTout n p).pair = s.pair := rfl
@[simp] theorem State.setTout_obs (s : State) (n : Nat) (p : PulseOut) : (s.setTout n p).obs = s.obs := rfl
@[simp] theorem State.setTout_mono (s : State) (n : Nat) (p : PulseOut) : (s.setTout n p).mono = s.mono := rfl
@[simp] theorem State.setTout_pwr (s : State) (n : Nat) (p : PulseOut) : (s.setTout n p).pwr = s.pwr := rfl
@[simp] theorem State.setTout_wkn (s : State) (n : Nat) (p : PulseOut) : (s.setTout n p).wkn = s.wkn := rfl
@[simp] theorem State.setTout_boot (s : State) (n : Nat) (p : PulseOut) : (s.setTout n p).boot = s.boot := rfl
@[simp] theorem State.setTout_lrl (s : State) (n : Nat) (p : PulseOut) : (s.setTout n p).lrl = s.lrl := rfl
@[simp] theorem State.setTout_fwu (s : State) (n : Nat) (p : PulseOut) : (s.setTout n p).fwu = s.fwu := rfl
@[simp] theorem State.setTout_qspi (s : State) (n : Nat) (p : PulseOut) : (s.setTout n p).qspi = s.qspi := rfl
@[simp] theorem State.setTout_chan (s : State) (n : Nat) (p : PulseOut) : (s.setTout n p).chan = s.chan := rfl
@[simp] theorem State.setTout_arb (s : State) (n : Nat) (p : PulseOut) : (s.setTout n p).arb = s.arb := rfl

/-! State.withCommand. -/

@[simp] theorem State.withCommand_pending (s : State) (c : Instr) : (s.withCommand c).pending = c :: s.pending := rfl
@[simp] theorem State.withCommand_freeN (s : State) (c : Instr) : (s.withCommand c).freeN = s.freeN := rfl
@[simp] theorem State.withCommand_outbox (s : State) (c : Instr) : (s.withCommand c).outbox = s.outbox := rfl
@[simp] theorem State.withCommand_regs (s : State) (c : Instr) : (s.withCommand c).regs = s.regs := rfl
@[simp] theorem State.withCommand_shadow (s : State) (c : Instr) : (s.withCommand c).shadow = s.shadow := rfl
@[simp] theorem State.withCommand_prev (s : State) (c : Instr) : (s.withCommand c).prev = s.prev := rfl
@[simp] theorem State.withCommand_tab (s : State) (c : Instr) : (s.withCommand c).tab = s.tab := rfl
@[simp] theorem State.withCommand_bus (s : State) (c : Instr) : (s.withCommand c).bus = s.bus := rfl
@[simp] theorem State.withCommand_cmt (s : State) (c : Instr) : (s.withCommand c).cmt = s.cmt := rfl
@[simp] theorem State.withCommand_tsy (s : State) (c : Instr) : (s.withCommand c).tsy = s.tsy := rfl
@[simp] theorem State.withCommand_xpl (s : State) (c : Instr) : (s.withCommand c).xpl = s.xpl := rfl
@[simp] theorem State.withCommand_dram (s : State) (c : Instr) : (s.withCommand c).dram = s.dram := rfl
@[simp] theorem State.withCommand_mram (s : State) (c : Instr) : (s.withCommand c).mram = s.mram := rfl
@[simp] theorem State.withCommand_lsram (s : State) (c : Instr) : (s.withCommand c).lsram = s.lsram := rfl
@[simp] theorem State.withCommand_hmem (s : State) (c : Instr) : (s.withCommand c).hmem = s.hmem := rfl
@[simp] theorem State.withCommand_levels (s : State) (c : Instr) : (s.withCommand c).levels = s.levels := rfl
@[simp] theorem State.withCommand_vecMask (s : State) (c : Instr) : (s.withCommand c).vecMask = s.vecMask := rfl
@[simp] theorem State.withCommand_pba (s : State) (c : Instr) : (s.withCommand c).pba = s.pba := rfl
@[simp] theorem State.withCommand_can (s : State) (c : Instr) : (s.withCommand c).can = s.can := rfl
@[simp] theorem State.withCommand_prv (s : State) (c : Instr) : (s.withCommand c).prv = s.prv := rfl
@[simp] theorem State.withCommand_clm (s : State) (c : Instr) : (s.withCommand c).clm = s.clm := rfl
@[simp] theorem State.withCommand_tpe (s : State) (c : Instr) : (s.withCommand c).tpe = s.tpe := rfl
@[simp] theorem State.withCommand_swIn (s : State) (c : Instr) : (s.withCommand c).swIn = s.swIn := rfl
@[simp] theorem State.withCommand_sw (s : State) (c : Instr) : (s.withCommand c).sw = s.sw := rfl
@[simp] theorem State.withCommand_emac (s : State) (c : Instr) : (s.withCommand c).emac = s.emac := rfl
@[simp] theorem State.withCommand_rtc (s : State) (c : Instr) : (s.withCommand c).rtc = s.rtc := rfl
@[simp] theorem State.withCommand_rtcAcc (s : State) (c : Instr) : (s.withCommand c).rtcAcc = s.rtcAcc := rfl
@[simp] theorem State.withCommand_cauth (s : State) (c : Instr) : (s.withCommand c).cauth = s.cauth := rfl
@[simp] theorem State.withCommand_fresh (s : State) (c : Instr) : (s.withCommand c).fresh = s.fresh := rfl
@[simp] theorem State.withCommand_cry (s : State) (c : Instr) : (s.withCommand c).cry = s.cry := rfl
@[simp] theorem State.withCommand_yew (s : State) (c : Instr) : (s.withCommand c).yew = s.yew := rfl
@[simp] theorem State.withCommand_hq (s : State) (c : Instr) : (s.withCommand c).hq = s.hq := rfl
@[simp] theorem State.withCommand_hqReset (s : State) (c : Instr) : (s.withCommand c).hqReset = s.hqReset := rfl
@[simp] theorem State.withCommand_bme (s : State) (c : Instr) : (s.withCommand c).bme = s.bme := rfl
@[simp] theorem State.withCommand_d3 (s : State) (c : Instr) : (s.withCommand c).d3 = s.d3 := rfl
@[simp] theorem State.withCommand_pair (s : State) (c : Instr) : (s.withCommand c).pair = s.pair := rfl
@[simp] theorem State.withCommand_obs (s : State) (c : Instr) : (s.withCommand c).obs = s.obs := rfl
@[simp] theorem State.withCommand_mono (s : State) (c : Instr) : (s.withCommand c).mono = s.mono := rfl
@[simp] theorem State.withCommand_pwr (s : State) (c : Instr) : (s.withCommand c).pwr = s.pwr := rfl
@[simp] theorem State.withCommand_wkn (s : State) (c : Instr) : (s.withCommand c).wkn = s.wkn := rfl
@[simp] theorem State.withCommand_boot (s : State) (c : Instr) : (s.withCommand c).boot = s.boot := rfl
@[simp] theorem State.withCommand_lrl (s : State) (c : Instr) : (s.withCommand c).lrl = s.lrl := rfl
@[simp] theorem State.withCommand_fwu (s : State) (c : Instr) : (s.withCommand c).fwu = s.fwu := rfl
@[simp] theorem State.withCommand_qspi (s : State) (c : Instr) : (s.withCommand c).qspi = s.qspi := rfl
@[simp] theorem State.withCommand_chan (s : State) (c : Instr) : (s.withCommand c).chan = s.chan := rfl
@[simp] theorem State.withCommand_arb (s : State) (c : Instr) : (s.withCommand c).arb = s.arb := rfl

end Sys2Proof.Machine
end

