-- ==== Sys2Proof/Laws/Regs.lean ====
section
/-! SUPPORT. Registers in force and table words: reading after writing, by word, field and bit. -/
namespace Sys2Proof.Machine

@[simp] theorem State.rd_wr_same (s : State) (a : Nat) (w : Word) : (s.wr a w).rd a = w := amGetD_set_same _ _ _ _

theorem State.rd_wr_other (s : State) {a b : Nat} (w : Word) (h : b ≠ a) : (s.wr a w).rd b = s.rd b :=
  amGetD_set_other _ _ _ _ h

theorem State.rd_wf_other (s : State) {a b : Nat} (hi lo v : Nat) (h : b ≠ a) : (s.wf a hi lo v).rd b = s.rd b :=
  s.rd_wr_other _ h

theorem State.rd_wb_other (s : State) {a b : Nat} (i : Nat) (x : Bool) (h : b ≠ a) : (s.wb a i x).rd b = s.rd b :=
  s.rd_wr_other _ h

@[simp] theorem State.rf_wf_same (s : State) (a hi lo v : Nat) (h : hi < 32) :
    (s.wf a hi lo v).rf a hi lo = v % 2 ^ (hi + 1 - lo) := by
  simp [State.rf, State.wf, fld_setFld_same, h]

theorem State.rf_wf_apart (s : State) (a hi lo v h l : Nat) (d : h < lo ∨ hi < l) (g : h < 32) :
    (s.wf a hi lo v).rf a h l = s.rf a h l := by
  simp [State.rf, State.wf, fld_setFld_other _ _ _ _ _ _ d g]

theorem State.rf_wf_other (s : State) {a b : Nat} (hi lo v h l : Nat) (d : b ≠ a) : (s.wf a hi lo v).rf b h l = s.rf b h l := by
  simp [State.rf, s.rd_wf_other hi lo v d]

theorem State.rb_wf_apart (s : State) (a hi lo v i : Nat) (d : i < lo ∨ hi < i) (g : i < 32) :
    (s.wf a hi lo v).rb a i = s.rb a i := by
  simp [State.rb, State.wf, bitOf_setFld_other _ _ _ _ _ d g]

@[simp] theorem State.rb_wb_same (s : State) (a i : Nat) (b : Bool) (h : i < 32) : (s.wb a i b).rb a i = b := by
  simp [State.rb, State.wb, bitOf_setBit_same, h]

theorem State.rb_wb_apart (s : State) (a i j : Nat) (b : Bool) (d : j ≠ i) (h : j < 32) : (s.wb a i b).rb a j = s.rb a j := by
  simp [State.rb, State.wb, bitOf_setBit_other _ _ _ _ d h]

theorem State.rb_wb_other (s : State) {a c : Nat} (i j : Nat) (b : Bool) (d : c ≠ a) : (s.wb a i b).rb c j = s.rb c j := by
  simp [State.rb, s.rd_wb_other i b d]

theorem State.rf_wb_apart (s : State) (a i : Nat) (b : Bool) (hi lo : Nat) (d : hi < i ∨ i < lo) (h : hi < 32) :
    (s.wb a i b).rf a hi lo = s.rf a hi lo := by
  simp [State.rf, State.wb, fld_setBit_other _ _ _ _ _ d h]

/-- The register list stays in canonical form. -/
theorem State.regsWf_wr {s : State} (a : Nat) (w : Word) (h : s.regsWf = true) : (s.wr a w).regsWf = true :=
  amWf_set (d := resetWord) a w h

@[simp] theorem State.tw_setTw_same (s : State) (a : Nat) (w : Word) : (s.setTw a w).tw a = w := amGetD_set_same _ _ _ _

theorem State.tw_setTw_other (s : State) {a b : Nat} (w : Word) (h : b ≠ a) : (s.setTw a w).tw b = s.tw b :=
  amGetD_set_other _ _ _ _ h

/-- A read of registers depends on the register list alone. -/
theorem State.rd_congr {s t : State} (h : t.regs = s.regs) (a : Nat) : t.rd a = s.rd a := by
  simp [State.rd, h]

end Sys2Proof.Machine
end

