-- ==== Sys2Proof/Laws/Frames.lean ====
section
/-! SUPPORT. What the shared operations leave alone: interrupt bits and vectors, counters, unlocks, bus errors, trace records, frames of
the pair link; and what each does to its own register. -/
namespace Sys2Proof.Machine

/-! State.vecMessage. -/

@[simp] theorem State.vecMessage_pending (s : State) (v : Nat) : (s.vecMessage v).pending = s.pending := by
  unfold State.vecMessage
  split <;> rfl
@[simp] theorem State.vecMessage_freeN (s : State) (v : Nat) : (s.vecMessage v).freeN = s.freeN := by
  unfold State.vecMessage
  split <;> rfl
@[simp] theorem State.vecMessage_regs (s : State) (v : Nat) : (s.vecMessage v).regs = s.regs := by
  unfold State.vecMessage
  split <;> rfl
@[simp] theorem State.vecMessage_shadow (s : State) (v : Nat) : (s.vecMessage v).shadow = s.shadow := by
  unfold State.vecMessage
  split <;> rfl
@[simp] theorem State.vecMessage_prev (s : State) (v : Nat) : (s.vecMessage v).prev = s.prev := by
  unfold State.vecMessage
  split <;> rfl
@[simp] theorem State.vecMessage_tab (s : State) (v : Nat) : (s.vecMessage v).tab = s.tab := by
  unfold State.vecMessage
  split <;> rfl
@[simp] theorem State.vecMessage_bus (s : State) (v : Nat) : (s.vecMessage v).bus = s.bus := by
  unfold State.vecMessage
  split <;> rfl
@[simp] theorem State.vecMessage_cmt (s : State) (v : Nat) : (s.vecMessage v).cmt = s.cmt := by
  unfold State.vecMessage
  split <;> rfl
@[simp] theorem State.vecMessage_tsy (s : State) (v : Nat) : (s.vecMessage v).tsy = s.tsy := by
  unfold State.vecMessage
  split <;> rfl
@[simp] theorem State.vecMessage_xpl (s : State) (v : Nat) : (s.vecMessage v).xpl = s.xpl := by
  unfold State.vecMessage
  split <;> rfl
@[simp] theorem State.vecMessage_dram (s : State) (v : Nat) : (s.vecMessage v).dram = s.dram := by
  unfold State.vecMessage
  split <;> rfl
@[simp] theorem State.vecMessage_mram (s : State) (v : Nat) : (s.vecMessage v).mram = s.mram := by
  unfold State.vecMessage
  split <;> rfl
@[simp] theorem State.vecMessage_lsram (s : State) (v : Nat) : (s.vecMessage v).lsram = s.lsram := by
  unfold State.vecMessage
  split <;> rfl
@[simp] theorem State.vecMessage_hmem (s : State) (v : Nat) : (s.vecMessage v).hmem = s.hmem := by
  unfold State.vecMessage
  split <;> rfl
@[simp] theorem State.vecMessage_levels (s : State) (v : Nat) : (s.vecMessage v).levels = s.levels := by
  unfold State.vecMessage
  split <;> rfl
@[simp] theorem State.vecMessage_vecMask (s : State) (v : Nat) : (s.vecMessage v).vecMask = s.vecMask := by
  unfold State.vecMessage
  split <;> rfl
@[simp] theorem State.vecMessage_can (s : State) (v : Nat) : (s.vecMessage v).can = s.can := by
  unfold State.vecMessage
  split <;> rfl
@[simp] theorem State.vecMessage_prv (s : State) (v : Nat) : (s.vecMessage v).prv = s.prv := by
  unfold State.vecMessage
  split <;> rfl
@[simp] theorem State.vecMessage_clm (s : State) (v : Nat) : (s.vecMessage v).clm = s.clm := by
  unfold State.vecMessage
  split <;> rfl
@[simp] theorem State.vecMessage_tpe (s : State) (v : Nat) : (s.vecMessage v).tpe = s.tpe := by
  unfold State.vecMessage
  split <;> rfl
@[simp] theorem State.vecMessage_swIn (s : State) (v : Nat) : (s.vecMessage v).swIn = s.swIn := by
  unfold State.vecMessage
  split <;> rfl
@[simp] theorem State.vecMessage_sw (s : State) (v : Nat) : (s.vecMessage v).sw = s.sw := by
  unfold State.vecMessage
  split <;> rfl
@[simp] theorem State.vecMessage_emac (s : State) (v : Nat) : (s.vecMessage v).emac = s.emac := by
  unfold State.vecMessage
  split <;> rfl
@[simp] theorem State.vecMessage_rtc (s : State) (v : Nat) : (s.vecMessage v).rtc = s.rtc := by
  unfold State.vecMessage
  split <;> rfl
@[simp] theorem State.vecMessage_rtcAcc (s : State) (v : Nat) : (s.vecMessage v).rtcAcc = s.rtcAcc := by
  unfold State.vecMessage
  split <;> rfl
@[simp] theorem State.vecMessage_cauth (s : State) (v : Nat) : (s.vecMessage v).cauth = s.cauth := by
  unfold State.vecMessage
  split <;> rfl
@[simp] theorem State.vecMessage_fresh (s : State) (v : Nat) : (s.vecMessage v).fresh = s.fresh := by
  unfold State.vecMessage
  split <;> rfl
@[simp] theorem State.vecMessage_cry (s : State) (v : Nat) : (s.vecMessage v).cry = s.cry := by
  unfold State.vecMessage
  split <;> rfl
@[simp] theorem State.vecMessage_yew (s : State) (v : Nat) : (s.vecMessage v).yew = s.yew := by
  unfold State.vecMessage
  split <;> rfl
@[simp] theorem State.vecMessage_hq (s : State) (v : Nat) : (s.vecMessage v).hq = s.hq := by
  unfold State.vecMessage
  split <;> rfl
@[simp] theorem State.vecMessage_hqReset (s : State) (v : Nat) : (s.vecMessage v).hqReset = s.hqReset := by
  unfold State.vecMessage
  split <;> rfl
@[simp] theorem State.vecMessage_bme (s : State) (v : Nat) : (s.vecMessage v).bme = s.bme := by
  unfold State.vecMessage
  split <;> rfl
@[simp] theorem State.vecMessage_d3 (s : State) (v : Nat) : (s.vecMessage v).d3 = s.d3 := by
  unfold State.vecMessage
  split <;> rfl
@[simp] theorem State.vecMessage_pair (s : State) (v : Nat) : (s.vecMessage v).pair = s.pair := by
  unfold State.vecMessage
  split <;> rfl
@[simp] theorem State.vecMessage_obs (s : State) (v : Nat) : (s.vecMessage v).obs = s.obs := by
  unfold State.vecMessage
  split <;> rfl
@[simp] theorem State.vecMessage_mono (s : State) (v : Nat) : (s.vecMessage v).mono = s.mono := by
  unfold State.vecMessage
  split <;> rfl
@[simp] theorem State.vecMessage_pwr (s : State) (v : Nat) : (s.vecMessage v).pwr = s.pwr := by
  unfold State.vecMessage
  split <;> rfl
@[simp] theorem State.vecMessage_wkn (s : State) (v : Nat) : (s.vecMessage v).wkn = s.wkn := by
  unfold State.vecMessage
  split <;> rfl
@[simp] theorem State.vecMessage_boot (s : State) (v : Nat) : (s.vecMessage v).boot = s.boot := by
  unfold State.vecMessage
  split <;> rfl
@[simp] theorem State.vecMessage_lrl (s : State) (v : Nat) : (s.vecMessage v).lrl = s.lrl := by
  unfold State.vecMessage
  split <;> rfl
@[simp] theorem State.vecMessage_fwu (s : State) (v : Nat) : (s.vecMessage v).fwu = s.fwu := by
  unfold State.vecMessage
  split <;> rfl
@[simp] theorem State.vecMessage_qspi (s : State) (v : Nat) : (s.vecMessage v).qspi = s.qspi := by
  unfold State.vecMessage
  split <;> rfl
@[simp] theorem State.vecMessage_chan (s : State) (v : Nat) : (s.vecMessage v).chan = s.chan := by
  unfold State.vecMessage
  split <;> rfl
@[simp] theorem State.vecMessage_arb (s : State) (v : Nat) : (s.vecMessage v).arb = s.arb := by
  unfold State.vecMessage
  split <;> rfl

/-! State.syncVec. -/

@[simp] theorem State.syncVec_pending (s : State) (v : Nat) : (s.syncVec v).pending = s.pending := by
  unfold State.syncVec
  split_ifs <;> simp only [State.vecMessage_pending]
@[simp] theorem State.syncVec_freeN (s : State) (v : Nat) : (s.syncVec v).freeN = s.freeN := by
  unfold State.syncVec
  split_ifs <;> simp only [State.vecMessage_freeN]
@[simp] theorem State.syncVec_regs (s : State) (v : Nat) : (s.syncVec v).regs = s.regs := by
  unfold State.syncVec
  split_ifs <;> simp only [State.vecMessage_regs]
@[simp] theorem State.syncVec_shadow (s : State) (v : Nat) : (s.syncVec v).shadow = s.shadow := by
  unfold State.syncVec
  split_ifs <;> simp only [State.vecMessage_shadow]
@[simp] theorem State.syncVec_prev (s : State) (v : Nat) : (s.syncVec v).prev = s.prev := by
  unfold State.syncVec
  split_ifs <;> simp only [State.vecMessage_prev]
@[simp] theorem State.syncVec_tab (s : State) (v : Nat) : (s.syncVec v).tab = s.tab := by
  unfold State.syncVec
  split_ifs <;> simp only [State.vecMessage_tab]
@[simp] theorem State.syncVec_bus (s : State) (v : Nat) : (s.syncVec v).bus = s.bus := by
  unfold State.syncVec
  split_ifs <;> simp only [State.vecMessage_bus]
@[simp] theorem State.syncVec_cmt (s : State) (v : Nat) : (s.syncVec v).cmt = s.cmt := by
  unfold State.syncVec
  split_ifs <;> simp only [State.vecMessage_cmt]
@[simp] theorem State.syncVec_tsy (s : State) (v : Nat) : (s.syncVec v).tsy = s.tsy := by
  unfold State.syncVec
  split_ifs <;> simp only [State.vecMessage_tsy]
@[simp] theorem State.syncVec_xpl (s : State) (v : Nat) : (s.syncVec v).xpl = s.xpl := by
  unfold State.syncVec
  split_ifs <;> simp only [State.vecMessage_xpl]
@[simp] theorem State.syncVec_dram (s : State) (v : Nat) : (s.syncVec v).dram = s.dram := by
  unfold State.syncVec
  split_ifs <;> simp only [State.vecMessage_dram]
@[simp] theorem State.syncVec_mram (s : State) (v : Nat) : (s.syncVec v).mram = s.mram := by
  unfold State.syncVec
  split_ifs <;> simp only [State.vecMessage_mram]
@[simp] theorem State.syncVec_lsram (s : State) (v : Nat) : (s.syncVec v).lsram = s.lsram := by
  unfold State.syncVec
  split_ifs <;> simp only [State.vecMessage_lsram]
@[simp] theorem State.syncVec_hmem (s : State) (v : Nat) : (s.syncVec v).hmem = s.hmem := by
  unfold State.syncVec
  split_ifs <;> simp only [State.vecMessage_hmem]
@[simp] theorem State.syncVec_vecMask (s : State) (v : Nat) : (s.syncVec v).vecMask = s.vecMask := by
  unfold State.syncVec
  split_ifs <;> simp only [State.vecMessage_vecMask]
@[simp] theorem State.syncVec_can (s : State) (v : Nat) : (s.syncVec v).can = s.can := by
  unfold State.syncVec
  split_ifs <;> simp only [State.vecMessage_can]
@[simp] theorem State.syncVec_prv (s : State) (v : Nat) : (s.syncVec v).prv = s.prv := by
  unfold State.syncVec
  split_ifs <;> simp only [State.vecMessage_prv]
@[simp] theorem State.syncVec_clm (s : State) (v : Nat) : (s.syncVec v).clm = s.clm := by
  unfold State.syncVec
  split_ifs <;> simp only [State.vecMessage_clm]
@[simp] theorem State.syncVec_tpe (s : State) (v : Nat) : (s.syncVec v).tpe = s.tpe := by
  unfold State.syncVec
  split_ifs <;> simp only [State.vecMessage_tpe]
@[simp] theorem State.syncVec_swIn (s : State) (v : Nat) : (s.syncVec v).swIn = s.swIn := by
  unfold State.syncVec
  split_ifs <;> simp only [State.vecMessage_swIn]
@[simp] theorem State.syncVec_sw (s : State) (v : Nat) : (s.syncVec v).sw = s.sw := by
  unfold State.syncVec
  split_ifs <;> simp only [State.vecMessage_sw]
@[simp] theorem State.syncVec_emac (s : State) (v : Nat) : (s.syncVec v).emac = s.emac := by
  unfold State.syncVec
  split_ifs <;> simp only [State.vecMessage_emac]
@[simp] theorem State.syncVec_rtc (s : State) (v : Nat) : (s.syncVec v).rtc = s.rtc := by
  unfold State.syncVec
  split_ifs <;> simp only [State.vecMessage_rtc]
@[simp] theorem State.syncVec_rtcAcc (s : State) (v : Nat) : (s.syncVec v).rtcAcc = s.rtcAcc := by
  unfold State.syncVec
  split_ifs <;> simp only [State.vecMessage_rtcAcc]
@[simp] theorem State.syncVec_cauth (s : State) (v : Nat) : (s.syncVec v).cauth = s.cauth := by
  unfold State.syncVec
  split_ifs <;> simp only [State.vecMessage_cauth]
@[simp] theorem State.syncVec_fresh (s : State) (v : Nat) : (s.syncVec v).fresh = s.fresh := by
  unfold State.syncVec
  split_ifs <;> simp only [State.vecMessage_fresh]
@[simp] theorem State.syncVec_cry (s : State) (v : Nat) : (s.syncVec v).cry = s.cry := by
  unfold State.syncVec
  split_ifs <;> simp only [State.vecMessage_cry]
@[simp] theorem State.syncVec_yew (s : State) (v : Nat) : (s.syncVec v).yew = s.yew := by
  unfold State.syncVec
  split_ifs <;> simp only [State.vecMessage_yew]
@[simp] theorem State.syncVec_hq (s : State) (v : Nat) : (s.syncVec v).hq = s.hq := by
  unfold State.syncVec
  split_ifs <;> simp only [State.vecMessage_hq]
@[simp] theorem State.syncVec_hqReset (s : State) (v : Nat) : (s.syncVec v).hqReset = s.hqReset := by
  unfold State.syncVec
  split_ifs <;> simp only [State.vecMessage_hqReset]
@[simp] theorem State.syncVec_bme (s : State) (v : Nat) : (s.syncVec v).bme = s.bme := by
  unfold State.syncVec
  split_ifs <;> simp only [State.vecMessage_bme]
@[simp] theorem State.syncVec_d3 (s : State) (v : Nat) : (s.syncVec v).d3 = s.d3 := by
  unfold State.syncVec
  split_ifs <;> simp only [State.vecMessage_d3]
@[simp] theorem State.syncVec_pair (s : State) (v : Nat) : (s.syncVec v).pair = s.pair := by
  unfold State.syncVec
  split_ifs <;> simp only [State.vecMessage_pair]
@[simp] theorem State.syncVec_obs (s : State) (v : Nat) : (s.syncVec v).obs = s.obs := by
  unfold State.syncVec
  split_ifs <;> simp only [State.vecMessage_obs]
@[simp] theorem State.syncVec_mono (s : State) (v : Nat) : (s.syncVec v).mono = s.mono := by
  unfold State.syncVec
  split_ifs <;> simp only [State.vecMessage_mono]
@[simp] theorem State.syncVec_pwr (s : State) (v : Nat) : (s.syncVec v).pwr = s.pwr := by
  unfold State.syncVec
  split_ifs <;> simp only [State.vecMessage_pwr]
@[simp] theorem State.syncVec_wkn (s : State) (v : Nat) : (s.syncVec v).wkn = s.wkn := by
  unfold State.syncVec
  split_ifs <;> simp only [State.vecMessage_wkn]
@[simp] theorem State.syncVec_boot (s : State) (v : Nat) : (s.syncVec v).boot = s.boot := by
  unfold State.syncVec
  split_ifs <;> simp only [State.vecMessage_boot]
@[simp] theorem State.syncVec_lrl (s : State) (v : Nat) : (s.syncVec v).lrl = s.lrl := by
  unfold State.syncVec
  split_ifs <;> simp only [State.vecMessage_lrl]
@[simp] theorem State.syncVec_fwu (s : State) (v : Nat) : (s.syncVec v).fwu = s.fwu := by
  unfold State.syncVec
  split_ifs <;> simp only [State.vecMessage_fwu]
@[simp] theorem State.syncVec_qspi (s : State) (v : Nat) : (s.syncVec v).qspi = s.qspi := by
  unfold State.syncVec
  split_ifs <;> simp only [State.vecMessage_qspi]
@[simp] theorem State.syncVec_chan (s : State) (v : Nat) : (s.syncVec v).chan = s.chan := by
  unfold State.syncVec
  split_ifs <;> simp only [State.vecMessage_chan]
@[simp] theorem State.syncVec_arb (s : State) (v : Nat) : (s.syncVec v).arb = s.arb := by
  unfold State.syncVec
  split_ifs <;> simp only [State.vecMessage_arb]

/-! State.syncLevels. -/

@[simp] theorem State.syncLevels_pending (s : State) : (s.syncLevels).pending = s.pending := by
  unfold State.syncLevels
  generalize List.range 128 = l
  induction l generalizing s with
  | nil => rfl
  | cons v r ih =>
    rw [List.foldl_cons, ih]
    split
    · exact State.syncVec_pending _ _
    · rfl
@[simp] theorem State.syncLevels_freeN (s : State) : (s.syncLevels).freeN = s.freeN := by
  unfold State.syncLevels
  generalize List.range 128 = l
  induction l generalizing s with
  | nil => rfl
  | cons v r ih =>
    rw [List.foldl_cons, ih]
    split
    · exact State.syncVec_freeN _ _
    · rfl
@[simp] theorem State.syncLevels_regs (s : State) : (s.syncLevels).regs = s.regs := by
  unfold State.syncLevels
  generalize List.range 128 = l
  induction l generalizing s with
  | nil => rfl
  | cons v r ih =>
    rw [List.foldl_cons, ih]
    split
    · exact State.syncVec_regs _ _
    · rfl
@[simp] theorem State.syncLevels_shadow (s : State) : (s.syncLevels).shadow = s.shadow := by
  unfold State.syncLevels
  generalize List.range 128 = l
  induction l generalizing s with
  | nil => rfl
  | cons v r ih =>
    rw [List.foldl_cons, ih]
    split
    · exact State.syncVec_shadow _ _
    · rfl
@[simp] theorem State.syncLevels_prev (s : State) : (s.syncLevels).prev = s.prev := by
  unfold State.syncLevels
  generalize List.range 128 = l
  induction l generalizing s with
  | nil => rfl
  | cons v r ih =>
    rw [List.foldl_cons, ih]
    split
    · exact State.syncVec_prev _ _
    · rfl
@[simp] theorem State.syncLevels_tab (s : State) : (s.syncLevels).tab = s.tab := by
  unfold State.syncLevels
  generalize List.range 128 = l
  induction l generalizing s with
  | nil => rfl
  | cons v r ih =>
    rw [List.foldl_cons, ih]
    split
    · exact State.syncVec_tab _ _
    · rfl
@[simp] theorem State.syncLevels_bus (s : State) : (s.syncLevels).bus = s.bus := by
  unfold State.syncLevels
  generalize List.range 128 = l
  induction l generalizing s with
  | nil => rfl
  | cons v r ih =>
    rw [List.foldl_cons, ih]
    split
    · exact State.syncVec_bus _ _
    · rfl
@[simp] theorem State.syncLevels_cmt (s : State) : (s.syncLevels).cmt = s.cmt := by
  unfold State.syncLevels
  generalize List.range 128 = l
  induction l generalizing s with
  | nil => rfl
  | cons v r ih =>
    rw [List.foldl_cons, ih]
    split
    · exact State.syncVec_cmt _ _
    · rfl
@[simp] theorem State.syncLevels_tsy (s : State) : (s.syncLevels).tsy = s.tsy := by
  unfold State.syncLevels
  generalize List.range 128 = l
  induction l generalizing s with
  | nil => rfl
  | cons v r ih =>
    rw [List.foldl_cons, ih]
    split
    · exact State.syncVec_tsy _ _
    · rfl
@[simp] theorem State.syncLevels_xpl (s : State) : (s.syncLevels).xpl = s.xpl := by
  unfold State.syncLevels
  generalize List.range 128 = l
  induction l generalizing s with
  | nil => rfl
  | cons v r ih =>
    rw [List.foldl_cons, ih]
    split
    · exact State.syncVec_xpl _ _
    · rfl
@[simp] theorem State.syncLevels_dram (s : State) : (s.syncLevels).dram = s.dram := by
  unfold State.syncLevels
  generalize List.range 128 = l
  induction l generalizing s with
  | nil => rfl
  | cons v r ih =>
    rw [List.foldl_cons, ih]
    split
    · exact State.syncVec_dram _ _
    · rfl
@[simp] theorem State.syncLevels_mram (s : State) : (s.syncLevels).mram = s.mram := by
  unfold State.syncLevels
  generalize List.range 128 = l
  induction l generalizing s with
  | nil => rfl
  | cons v r ih =>
    rw [List.foldl_cons, ih]
    split
    · exact State.syncVec_mram _ _
    · rfl
@[simp] theorem State.syncLevels_lsram (s : State) : (s.syncLevels).lsram = s.lsram := by
  unfold State.syncLevels
  generalize List.range 128 = l
  induction l generalizing s with
  | nil => rfl
  | cons v r ih =>
    rw [List.foldl_cons, ih]
    split
    · exact State.syncVec_lsram _ _
    · rfl
@[simp] theorem State.syncLevels_hmem (s : State) : (s.syncLevels).hmem = s.hmem := by
  unfold State.syncLevels
  generalize List.range 128 = l
  induction l generalizing s with
  | nil => rfl
  | cons v r ih =>
    rw [List.foldl_cons, ih]
    split
    · exact State.syncVec_hmem _ _
    · rfl
@[simp] theorem State.syncLevels_vecMask (s : State) : (s.syncLevels).vecMask = s.vecMask := by
  unfold State.syncLevels
  generalize List.range 128 = l
  induction l generalizing s with
  | nil => rfl
  | cons v r ih =>
    rw [List.foldl_cons, ih]
    split
    · exact State.syncVec_vecMask _ _
    · rfl
@[simp] theorem State.syncLevels_can (s : State) : (s.syncLevels).can = s.can := by
  unfold State.syncLevels
  generalize List.range 128 = l
  induction l generalizing s with
  | nil => rfl
  | cons v r ih =>
    rw [List.foldl_cons, ih]
    split
    · exact State.syncVec_can _ _
    · rfl
@[simp] theorem State.syncLevels_prv (s : State) : (s.syncLevels).prv = s.prv := by
  unfold State.syncLevels
  generalize List.range 128 = l
  induction l generalizing s with
  | nil => rfl
  | cons v r ih =>
    rw [List.foldl_cons, ih]
    split
    · exact State.syncVec_prv _ _
    · rfl
@[simp] theorem State.syncLevels_clm (s : State) : (s.syncLevels).clm = s.clm := by
  unfold State.syncLevels
  generalize List.range 128 = l
  induction l generalizing s with
  | nil => rfl
  | cons v r ih =>
    rw [List.foldl_cons, ih]
    split
    · exact State.syncVec_clm _ _
    · rfl
@[simp] theorem State.syncLevels_tpe (s : State) : (s.syncLevels).tpe = s.tpe := by
  unfold State.syncLevels
  generalize List.range 128 = l
  induction l generalizing s with
  | nil => rfl
  | cons v r ih =>
    rw [List.foldl_cons, ih]
    split
    · exact State.syncVec_tpe _ _
    · rfl
@[simp] theorem State.syncLevels_swIn (s : State) : (s.syncLevels).swIn = s.swIn := by
  unfold State.syncLevels
  generalize List.range 128 = l
  induction l generalizing s with
  | nil => rfl
  | cons v r ih =>
    rw [List.foldl_cons, ih]
    split
    · exact State.syncVec_swIn _ _
    · rfl
@[simp] theorem State.syncLevels_sw (s : State) : (s.syncLevels).sw = s.sw := by
  unfold State.syncLevels
  generalize List.range 128 = l
  induction l generalizing s with
  | nil => rfl
  | cons v r ih =>
    rw [List.foldl_cons, ih]
    split
    · exact State.syncVec_sw _ _
    · rfl
@[simp] theorem State.syncLevels_emac (s : State) : (s.syncLevels).emac = s.emac := by
  unfold State.syncLevels
  generalize List.range 128 = l
  induction l generalizing s with
  | nil => rfl
  | cons v r ih =>
    rw [List.foldl_cons, ih]
    split
    · exact State.syncVec_emac _ _
    · rfl
@[simp] theorem State.syncLevels_rtc (s : State) : (s.syncLevels).rtc = s.rtc := by
  unfold State.syncLevels
  generalize List.range 128 = l
  induction l generalizing s with
  | nil => rfl
  | cons v r ih =>
    rw [List.foldl_cons, ih]
    split
    · exact State.syncVec_rtc _ _
    · rfl
@[simp] theorem State.syncLevels_rtcAcc (s : State) : (s.syncLevels).rtcAcc = s.rtcAcc := by
  unfold State.syncLevels
  generalize List.range 128 = l
  induction l generalizing s with
  | nil => rfl
  | cons v r ih =>
    rw [List.foldl_cons, ih]
    split
    · exact State.syncVec_rtcAcc _ _
    · rfl
@[simp] theorem State.syncLevels_cauth (s : State) : (s.syncLevels).cauth = s.cauth := by
  unfold State.syncLevels
  generalize List.range 128 = l
  induction l generalizing s with
  | nil => rfl
  | cons v r ih =>
    rw [List.foldl_cons, ih]
    split
    · exact State.syncVec_cauth _ _
    · rfl
@[simp] theorem State.syncLevels_fresh (s : State) : (s.syncLevels).fresh = s.fresh := by
  unfold State.syncLevels
  generalize List.range 128 = l
  induction l generalizing s with
  | nil => rfl
  | cons v r ih =>
    rw [List.foldl_cons, ih]
    split
    · exact State.syncVec_fresh _ _
    · rfl
@[simp] theorem State.syncLevels_cry (s : State) : (s.syncLevels).cry = s.cry := by
  unfold State.syncLevels
  generalize List.range 128 = l
  induction l generalizing s with
  | nil => rfl
  | cons v r ih =>
    rw [List.foldl_cons, ih]
    split
    · exact State.syncVec_cry _ _
    · rfl
@[simp] theorem State.syncLevels_yew (s : State) : (s.syncLevels).yew = s.yew := by
  unfold State.syncLevels
  generalize List.range 128 = l
  induction l generalizing s with
  | nil => rfl
  | cons v r ih =>
    rw [List.foldl_cons, ih]
    split
    · exact State.syncVec_yew _ _
    · rfl
@[simp] theorem State.syncLevels_hq (s : State) : (s.syncLevels).hq = s.hq := by
  unfold State.syncLevels
  generalize List.range 128 = l
  induction l generalizing s with
  | nil => rfl
  | cons v r ih =>
    rw [List.foldl_cons, ih]
    split
    · exact State.syncVec_hq _ _
    · rfl
@[simp] theorem State.syncLevels_hqReset (s : State) : (s.syncLevels).hqReset = s.hqReset := by
  unfold State.syncLevels
  generalize List.range 128 = l
  induction l generalizing s with
  | nil => rfl
  | cons v r ih =>
    rw [List.foldl_cons, ih]
    split
    · exact State.syncVec_hqReset _ _
    · rfl
@[simp] theorem State.syncLevels_bme (s : State) : (s.syncLevels).bme = s.bme := by
  unfold State.syncLevels
  generalize List.range 128 = l
  induction l generalizing s with
  | nil => rfl
  | cons v r ih =>
    rw [List.foldl_cons, ih]
    split
    · exact State.syncVec_bme _ _
    · rfl
@[simp] theorem State.syncLevels_d3 (s : State) : (s.syncLevels).d3 = s.d3 := by
  unfold State.syncLevels
  generalize List.range 128 = l
  induction l generalizing s with
  | nil => rfl
  | cons v r ih =>
    rw [List.foldl_cons, ih]
    split
    · exact State.syncVec_d3 _ _
    · rfl
@[simp] theorem State.syncLevels_pair (s : State) : (s.syncLevels).pair = s.pair := by
  unfold State.syncLevels
  generalize List.range 128 = l
  induction l generalizing s with
  | nil => rfl
  | cons v r ih =>
    rw [List.foldl_cons, ih]
    split
    · exact State.syncVec_pair _ _
    · rfl
@[simp] theorem State.syncLevels_obs (s : State) : (s.syncLevels).obs = s.obs := by
  unfold State.syncLevels
  generalize List.range 128 = l
  induction l generalizing s with
  | nil => rfl
  | cons v r ih =>
    rw [List.foldl_cons, ih]
    split
    · exact State.syncVec_obs _ _
    · rfl
@[simp] theorem State.syncLevels_mono (s : State) : (s.syncLevels).mono = s.mono := by
  unfold State.syncLevels
  generalize List.range 128 = l
  induction l generalizing s with
  | nil => rfl
  | cons v r ih =>
    rw [List.foldl_cons, ih]
    split
    · exact State.syncVec_mono _ _
    · rfl
@[simp] theorem State.syncLevels_pwr (s : State) : (s.syncLevels).pwr = s.pwr := by
  unfold State.syncLevels
  generalize List.range 128 = l
  induction l generalizing s with
  | nil => rfl
  | cons v r ih =>
    rw [List.foldl_cons, ih]
    split
    · exact State.syncVec_pwr _ _
    · rfl
@[simp] theorem State.syncLevels_wkn (s : State) : (s.syncLevels).wkn = s.wkn := by
  unfold State.syncLevels
  generalize List.range 128 = l
  induction l generalizing s with
  | nil => rfl
  | cons v r ih =>
    rw [List.foldl_cons, ih]
    split
    · exact State.syncVec_wkn _ _
    · rfl
@[simp] theorem State.syncLevels_boot (s : State) : (s.syncLevels).boot = s.boot := by
  unfold State.syncLevels
  generalize List.range 128 = l
  induction l generalizing s with
  | nil => rfl
  | cons v r ih =>
    rw [List.foldl_cons, ih]
    split
    · exact State.syncVec_boot _ _
    · rfl
@[simp] theorem State.syncLevels_lrl (s : State) : (s.syncLevels).lrl = s.lrl := by
  unfold State.syncLevels
  generalize List.range 128 = l
  induction l generalizing s with
  | nil => rfl
  | cons v r ih =>
    rw [List.foldl_cons, ih]
    split
    · exact State.syncVec_lrl _ _
    · rfl
@[simp] theorem State.syncLevels_fwu (s : State) : (s.syncLevels).fwu = s.fwu := by
  unfold State.syncLevels
  generalize List.range 128 = l
  induction l generalizing s with
  | nil => rfl
  | cons v r ih =>
    rw [List.foldl_cons, ih]
    split
    · exact State.syncVec_fwu _ _
    · rfl
@[simp] theorem State.syncLevels_qspi (s : State) : (s.syncLevels).qspi = s.qspi := by
  unfold State.syncLevels
  generalize List.range 128 = l
  induction l generalizing s with
  | nil => rfl
  | cons v r ih =>
    rw [List.foldl_cons, ih]
    split
    · exact State.syncVec_qspi _ _
    · rfl
@[simp] theorem State.syncLevels_chan (s : State) : (s.syncLevels).chan = s.chan := by
  unfold State.syncLevels
  generalize List.range 128 = l
  induction l generalizing s with
  | nil => rfl
  | cons v r ih =>
    rw [List.foldl_cons, ih]
    split
    · exact State.syncVec_chan _ _
    · rfl
@[simp] theorem State.syncLevels_arb (s : State) : (s.syncLevels).arb = s.arb := by
  unfold State.syncLevels
  generalize List.range 128 = l
  induction l generalizing s with
  | nil => rfl
  | cons v r ih =>
    rw [List.foldl_cons, ih]
    split
    · exact State.syncVec_arb _ _
    · rfl

/-! State.syncPage. -/

@[simp] theorem State.syncPage_pending (s : State) (b : Nat) : (s.syncPage b).pending = s.pending := by
  unfold State.syncPage
  split
  · rfl
  · exact State.syncVec_pending _ _
@[simp] theorem State.syncPage_freeN (s : State) (b : Nat) : (s.syncPage b).freeN = s.freeN := by
  unfold State.syncPage
  split
  · rfl
  · exact State.syncVec_freeN _ _
@[simp] theorem State.syncPage_regs (s : State) (b : Nat) : (s.syncPage b).regs = s.regs := by
  unfold State.syncPage
  split
  · rfl
  · exact State.syncVec_regs _ _
@[simp] theorem State.syncPage_shadow (s : State) (b : Nat) : (s.syncPage b).shadow = s.shadow := by
  unfold State.syncPage
  split
  · rfl
  · exact State.syncVec_shadow _ _
@[simp] theorem State.syncPage_prev (s : State) (b : Nat) : (s.syncPage b).prev = s.prev := by
  unfold State.syncPage
  split
  · rfl
  · exact State.syncVec_prev _ _
@[simp] theorem State.syncPage_tab (s : State) (b : Nat) : (s.syncPage b).tab = s.tab := by
  unfold State.syncPage
  split
  · rfl
  · exact State.syncVec_tab _ _
@[simp] theorem State.syncPage_bus (s : State) (b : Nat) : (s.syncPage b).bus = s.bus := by
  unfold State.syncPage
  split
  · rfl
  · exact State.syncVec_bus _ _
@[simp] theorem State.syncPage_cmt (s : State) (b : Nat) : (s.syncPage b).cmt = s.cmt := by
  unfold State.syncPage
  split
  · rfl
  · exact State.syncVec_cmt _ _
@[simp] theorem State.syncPage_tsy (s : State) (b : Nat) : (s.syncPage b).tsy = s.tsy := by
  unfold State.syncPage
  split
  · rfl
  · exact State.syncVec_tsy _ _
@[simp] theorem State.syncPage_xpl (s : State) (b : Nat) : (s.syncPage b).xpl = s.xpl := by
  unfold State.syncPage
  split
  · rfl
  · exact State.syncVec_xpl _ _
@[simp] theorem State.syncPage_dram (s : State) (b : Nat) : (s.syncPage b).dram = s.dram := by
  unfold State.syncPage
  split
  · rfl
  · exact State.syncVec_dram _ _
@[simp] theorem State.syncPage_mram (s : State) (b : Nat) : (s.syncPage b).mram = s.mram := by
  unfold State.syncPage
  split
  · rfl
  · exact State.syncVec_mram _ _
@[simp] theorem State.syncPage_lsram (s : State) (b : Nat) : (s.syncPage b).lsram = s.lsram := by
  unfold State.syncPage
  split
  · rfl
  · exact State.syncVec_lsram _ _
@[simp] theorem State.syncPage_hmem (s : State) (b : Nat) : (s.syncPage b).hmem = s.hmem := by
  unfold State.syncPage
  split
  · rfl
  · exact State.syncVec_hmem _ _
@[simp] theorem State.syncPage_vecMask (s : State) (b : Nat) : (s.syncPage b).vecMask = s.vecMask := by
  unfold State.syncPage
  split
  · rfl
  · exact State.syncVec_vecMask _ _
@[simp] theorem State.syncPage_can (s : State) (b : Nat) : (s.syncPage b).can = s.can := by
  unfold State.syncPage
  split
  · rfl
  · exact State.syncVec_can _ _
@[simp] theorem State.syncPage_prv (s : State) (b : Nat) : (s.syncPage b).prv = s.prv := by
  unfold State.syncPage
  split
  · rfl
  · exact State.syncVec_prv _ _
@[simp] theorem State.syncPage_clm (s : State) (b : Nat) : (s.syncPage b).clm = s.clm := by
  unfold State.syncPage
  split
  · rfl
  · exact State.syncVec_clm _ _
@[simp] theorem State.syncPage_tpe (s : State) (b : Nat) : (s.syncPage b).tpe = s.tpe := by
  unfold State.syncPage
  split
  · rfl
  · exact State.syncVec_tpe _ _
@[simp] theorem State.syncPage_swIn (s : State) (b : Nat) : (s.syncPage b).swIn = s.swIn := by
  unfold State.syncPage
  split
  · rfl
  · exact State.syncVec_swIn _ _
@[simp] theorem State.syncPage_sw (s : State) (b : Nat) : (s.syncPage b).sw = s.sw := by
  unfold State.syncPage
  split
  · rfl
  · exact State.syncVec_sw _ _
@[simp] theorem State.syncPage_emac (s : State) (b : Nat) : (s.syncPage b).emac = s.emac := by
  unfold State.syncPage
  split
  · rfl
  · exact State.syncVec_emac _ _
@[simp] theorem State.syncPage_rtc (s : State) (b : Nat) : (s.syncPage b).rtc = s.rtc := by
  unfold State.syncPage
  split
  · rfl
  · exact State.syncVec_rtc _ _
@[simp] theorem State.syncPage_rtcAcc (s : State) (b : Nat) : (s.syncPage b).rtcAcc = s.rtcAcc := by
  unfold State.syncPage
  split
  · rfl
  · exact State.syncVec_rtcAcc _ _
@[simp] theorem State.syncPage_cauth (s : State) (b : Nat) : (s.syncPage b).cauth = s.cauth := by
  unfold State.syncPage
  split
  · rfl
  · exact State.syncVec_cauth _ _
@[simp] theorem State.syncPage_fresh (s : State) (b : Nat) : (s.syncPage b).fresh = s.fresh := by
  unfold State.syncPage
  split
  · rfl
  · exact State.syncVec_fresh _ _
@[simp] theorem State.syncPage_cry (s : State) (b : Nat) : (s.syncPage b).cry = s.cry := by
  unfold State.syncPage
  split
  · rfl
  · exact State.syncVec_cry _ _
@[simp] theorem State.syncPage_yew (s : State) (b : Nat) : (s.syncPage b).yew = s.yew := by
  unfold State.syncPage
  split
  · rfl
  · exact State.syncVec_yew _ _
@[simp] theorem State.syncPage_hq (s : State) (b : Nat) : (s.syncPage b).hq = s.hq := by
  unfold State.syncPage
  split
  · rfl
  · exact State.syncVec_hq _ _
@[simp] theorem State.syncPage_hqReset (s : State) (b : Nat) : (s.syncPage b).hqReset = s.hqReset := by
  unfold State.syncPage
  split
  · rfl
  · exact State.syncVec_hqReset _ _
@[simp] theorem State.syncPage_bme (s : State) (b : Nat) : (s.syncPage b).bme = s.bme := by
  unfold State.syncPage
  split
  · rfl
  · exact State.syncVec_bme _ _
@[simp] theorem State.syncPage_d3 (s : State) (b : Nat) : (s.syncPage b).d3 = s.d3 := by
  unfold State.syncPage
  split
  · rfl
  · exact State.syncVec_d3 _ _
@[simp] theorem State.syncPage_pair (s : State) (b : Nat) : (s.syncPage b).pair = s.pair := by
  unfold State.syncPage
  split
  · rfl
  · exact State.syncVec_pair _ _
@[simp] theorem State.syncPage_obs (s : State) (b : Nat) : (s.syncPage b).obs = s.obs := by
  unfold State.syncPage
  split
  · rfl
  · exact State.syncVec_obs _ _
@[simp] theorem State.syncPage_mono (s : State) (b : Nat) : (s.syncPage b).mono = s.mono := by
  unfold State.syncPage
  split
  · rfl
  · exact State.syncVec_mono _ _
@[simp] theorem State.syncPage_pwr (s : State) (b : Nat) : (s.syncPage b).pwr = s.pwr := by
  unfold State.syncPage
  split
  · rfl
  · exact State.syncVec_pwr _ _
@[simp] theorem State.syncPage_wkn (s : State) (b : Nat) : (s.syncPage b).wkn = s.wkn := by
  unfold State.syncPage
  split
  · rfl
  · exact State.syncVec_wkn _ _
@[simp] theorem State.syncPage_boot (s : State) (b : Nat) : (s.syncPage b).boot = s.boot := by
  unfold State.syncPage
  split
  · rfl
  · exact State.syncVec_boot _ _
@[simp] theorem State.syncPage_lrl (s : State) (b : Nat) : (s.syncPage b).lrl = s.lrl := by
  unfold State.syncPage
  split
  · rfl
  · exact State.syncVec_lrl _ _
@[simp] theorem State.syncPage_fwu (s : State) (b : Nat) : (s.syncPage b).fwu = s.fwu := by
  unfold State.syncPage
  split
  · rfl
  · exact State.syncVec_fwu _ _
@[simp] theorem State.syncPage_qspi (s : State) (b : Nat) : (s.syncPage b).qspi = s.qspi := by
  unfold State.syncPage
  split
  · rfl
  · exact State.syncVec_qspi _ _
@[simp] theorem State.syncPage_chan (s : State) (b : Nat) : (s.syncPage b).chan = s.chan := by
  unfold State.syncPage
  split
  · rfl
  · exact State.syncVec_chan _ _
@[simp] theorem State.syncPage_arb (s : State) (b : Nat) : (s.syncPage b).arb = s.arb := by
  unfold State.syncPage
  split
  · rfl
  · exact State.syncVec_arb _ _

/-! State.ist. -/

@[simp] theorem State.ist_pending (s : State) (b i : Nat) : (s.ist b i).pending = s.pending := State.syncPage_pending _ _
@[simp] theorem State.ist_freeN (s : State) (b i : Nat) : (s.ist b i).freeN = s.freeN := State.syncPage_freeN _ _
@[simp] theorem State.ist_shadow (s : State) (b i : Nat) : (s.ist b i).shadow = s.shadow := State.syncPage_shadow _ _
@[simp] theorem State.ist_prev (s : State) (b i : Nat) : (s.ist b i).prev = s.prev := State.syncPage_prev _ _
@[simp] theorem State.ist_tab (s : State) (b i : Nat) : (s.ist b i).tab = s.tab := State.syncPage_tab _ _
@[simp] theorem State.ist_bus (s : State) (b i : Nat) : (s.ist b i).bus = s.bus := State.syncPage_bus _ _
@[simp] theorem State.ist_cmt (s : State) (b i : Nat) : (s.ist b i).cmt = s.cmt := State.syncPage_cmt _ _
@[simp] theorem State.ist_tsy (s : State) (b i : Nat) : (s.ist b i).tsy = s.tsy := State.syncPage_tsy _ _
@[simp] theorem State.ist_xpl (s : State) (b i : Nat) : (s.ist b i).xpl = s.xpl := State.syncPage_xpl _ _
@[simp] theorem State.ist_dram (s : State) (b i : Nat) : (s.ist b i).dram = s.dram := State.syncPage_dram _ _
@[simp] theorem State.ist_mram (s : State) (b i : Nat) : (s.ist b i).mram = s.mram := State.syncPage_mram _ _
@[simp] theorem State.ist_lsram (s : State) (b i : Nat) : (s.ist b i).lsram = s.lsram := State.syncPage_lsram _ _
@[simp] theorem State.ist_hmem (s : State) (b i : Nat) : (s.ist b i).hmem = s.hmem := State.syncPage_hmem _ _
@[simp] theorem State.ist_vecMask (s : State) (b i : Nat) : (s.ist b i).vecMask = s.vecMask := State.syncPage_vecMask _ _
@[simp] theorem State.ist_can (s : State) (b i : Nat) : (s.ist b i).can = s.can := State.syncPage_can _ _
@[simp] theorem State.ist_prv (s : State) (b i : Nat) : (s.ist b i).prv = s.prv := State.syncPage_prv _ _
@[simp] theorem State.ist_clm (s : State) (b i : Nat) : (s.ist b i).clm = s.clm := State.syncPage_clm _ _
@[simp] theorem State.ist_tpe (s : State) (b i : Nat) : (s.ist b i).tpe = s.tpe := State.syncPage_tpe _ _
@[simp] theorem State.ist_swIn (s : State) (b i : Nat) : (s.ist b i).swIn = s.swIn := State.syncPage_swIn _ _
@[simp] theorem State.ist_sw (s : State) (b i : Nat) : (s.ist b i).sw = s.sw := State.syncPage_sw _ _
@[simp] theorem State.ist_emac (s : State) (b i : Nat) : (s.ist b i).emac = s.emac := State.syncPage_emac _ _
@[simp] theorem State.ist_rtc (s : State) (b i : Nat) : (s.ist b i).rtc = s.rtc := State.syncPage_rtc _ _
@[simp] theorem State.ist_rtcAcc (s : State) (b i : Nat) : (s.ist b i).rtcAcc = s.rtcAcc := State.syncPage_rtcAcc _ _
@[simp] theorem State.ist_cauth (s : State) (b i : Nat) : (s.ist b i).cauth = s.cauth := State.syncPage_cauth _ _
@[simp] theorem State.ist_fresh (s : State) (b i : Nat) : (s.ist b i).fresh = s.fresh := State.syncPage_fresh _ _
@[simp] theorem State.ist_cry (s : State) (b i : Nat) : (s.ist b i).cry = s.cry := State.syncPage_cry _ _
@[simp] theorem State.ist_yew (s : State) (b i : Nat) : (s.ist b i).yew = s.yew := State.syncPage_yew _ _
@[simp] theorem State.ist_hq (s : State) (b i : Nat) : (s.ist b i).hq = s.hq := State.syncPage_hq _ _
@[simp] theorem State.ist_hqReset (s : State) (b i : Nat) : (s.ist b i).hqReset = s.hqReset := State.syncPage_hqReset _ _
@[simp] theorem State.ist_bme (s : State) (b i : Nat) : (s.ist b i).bme = s.bme := State.syncPage_bme _ _
@[simp] theorem State.ist_d3 (s : State) (b i : Nat) : (s.ist b i).d3 = s.d3 := State.syncPage_d3 _ _
@[simp] theorem State.ist_pair (s : State) (b i : Nat) : (s.ist b i).pair = s.pair := State.syncPage_pair _ _
@[simp] theorem State.ist_obs (s : State) (b i : Nat) : (s.ist b i).obs = s.obs := State.syncPage_obs _ _
@[simp] theorem State.ist_mono (s : State) (b i : Nat) : (s.ist b i).mono = s.mono := State.syncPage_mono _ _
@[simp] theorem State.ist_pwr (s : State) (b i : Nat) : (s.ist b i).pwr = s.pwr := State.syncPage_pwr _ _
@[simp] theorem State.ist_wkn (s : State) (b i : Nat) : (s.ist b i).wkn = s.wkn := State.syncPage_wkn _ _
@[simp] theorem State.ist_boot (s : State) (b i : Nat) : (s.ist b i).boot = s.boot := State.syncPage_boot _ _
@[simp] theorem State.ist_lrl (s : State) (b i : Nat) : (s.ist b i).lrl = s.lrl := State.syncPage_lrl _ _
@[simp] theorem State.ist_fwu (s : State) (b i : Nat) : (s.ist b i).fwu = s.fwu := State.syncPage_fwu _ _
@[simp] theorem State.ist_qspi (s : State) (b i : Nat) : (s.ist b i).qspi = s.qspi := State.syncPage_qspi _ _
@[simp] theorem State.ist_chan (s : State) (b i : Nat) : (s.ist b i).chan = s.chan := State.syncPage_chan _ _
@[simp] theorem State.ist_arb (s : State) (b i : Nat) : (s.ist b i).arb = s.arb := State.syncPage_arb _ _

/-! State.istIf. -/

@[simp] theorem State.istIf_pending (s : State) (c : Bool) (b i : Nat) : (s.istIf c b i).pending = s.pending := by
  cases c
  · rfl
  · exact State.ist_pending _ _ _
@[simp] theorem State.istIf_freeN (s : State) (c : Bool) (b i : Nat) : (s.istIf c b i).freeN = s.freeN := by
  cases c
  · rfl
  · exact State.ist_freeN _ _ _
@[simp] theorem State.istIf_shadow (s : State) (c : Bool) (b i : Nat) : (s.istIf c b i).shadow = s.shadow := by
  cases c
  · rfl
  · exact State.ist_shadow _ _ _
@[simp] theorem State.istIf_prev (s : State) (c : Bool) (b i : Nat) : (s.istIf c b i).prev = s.prev := by
  cases c
  · rfl
  · exact State.ist_prev _ _ _
@[simp] theorem State.istIf_tab (s : State) (c : Bool) (b i : Nat) : (s.istIf c b i).tab = s.tab := by
  cases c
  · rfl
  · exact State.ist_tab _ _ _
@[simp] theorem State.istIf_bus (s : State) (c : Bool) (b i : Nat) : (s.istIf c b i).bus = s.bus := by
  cases c
  · rfl
  · exact State.ist_bus _ _ _
@[simp] theorem State.istIf_cmt (s : State) (c : Bool) (b i : Nat) : (s.istIf c b i).cmt = s.cmt := by
  cases c
  · rfl
  · exact State.ist_cmt _ _ _
@[simp] theorem State.istIf_tsy (s : State) (c : Bool) (b i : Nat) : (s.istIf c b i).tsy = s.tsy := by
  cases c
  · rfl
  · exact State.ist_tsy _ _ _
@[simp] theorem State.istIf_xpl (s : State) (c : Bool) (b i : Nat) : (s.istIf c b i).xpl = s.xpl := by
  cases c
  · rfl
  · exact State.ist_xpl _ _ _
@[simp] theorem State.istIf_dram (s : State) (c : Bool) (b i : Nat) : (s.istIf c b i).dram = s.dram := by
  cases c
  · rfl
  · exact State.ist_dram _ _ _
@[simp] theorem State.istIf_mram (s : State) (c : Bool) (b i : Nat) : (s.istIf c b i).mram = s.mram := by
  cases c
  · rfl
  · exact State.ist_mram _ _ _
@[simp] theorem State.istIf_lsram (s : State) (c : Bool) (b i : Nat) : (s.istIf c b i).lsram = s.lsram := by
  cases c
  · rfl
  · exact State.ist_lsram _ _ _
@[simp] theorem State.istIf_hmem (s : State) (c : Bool) (b i : Nat) : (s.istIf c b i).hmem = s.hmem := by
  cases c
  · rfl
  · exact State.ist_hmem _ _ _
@[simp] theorem State.istIf_vecMask (s : State) (c : Bool) (b i : Nat) : (s.istIf c b i).vecMask = s.vecMask := by
  cases c
  · rfl
  · exact State.ist_vecMask _ _ _
@[simp] theorem State.istIf_can (s : State) (c : Bool) (b i : Nat) : (s.istIf c b i).can = s.can := by
  cases c
  · rfl
  · exact State.ist_can _ _ _
@[simp] theorem State.istIf_prv (s : State) (c : Bool) (b i : Nat) : (s.istIf c b i).prv = s.prv := by
  cases c
  · rfl
  · exact State.ist_prv _ _ _
@[simp] theorem State.istIf_clm (s : State) (c : Bool) (b i : Nat) : (s.istIf c b i).clm = s.clm := by
  cases c
  · rfl
  · exact State.ist_clm _ _ _
@[simp] theorem State.istIf_tpe (s : State) (c : Bool) (b i : Nat) : (s.istIf c b i).tpe = s.tpe := by
  cases c
  · rfl
  · exact State.ist_tpe _ _ _
@[simp] theorem State.istIf_swIn (s : State) (c : Bool) (b i : Nat) : (s.istIf c b i).swIn = s.swIn := by
  cases c
  · rfl
  · exact State.ist_swIn _ _ _
@[simp] theorem State.istIf_sw (s : State) (c : Bool) (b i : Nat) : (s.istIf c b i).sw = s.sw := by
  cases c
  · rfl
  · exact State.ist_sw _ _ _
@[simp] theorem State.istIf_emac (s : State) (c : Bool) (b i : Nat) : (s.istIf c b i).emac = s.emac := by
  cases c
  · rfl
  · exact State.ist_emac _ _ _
@[simp] theorem State.istIf_rtc (s : State) (c : Bool) (b i : Nat) : (s.istIf c b i).rtc = s.rtc := by
  cases c
  · rfl
  · exact State.ist_rtc _ _ _
@[simp] theorem State.istIf_rtcAcc (s : State) (c : Bool) (b i : Nat) : (s.istIf c b i).rtcAcc = s.rtcAcc := by
  cases c
  · rfl
  · exact State.ist_rtcAcc _ _ _
@[simp] theorem State.istIf_cauth (s : State) (c : Bool) (b i : Nat) : (s.istIf c b i).cauth = s.cauth := by
  cases c
  · rfl
  · exact State.ist_cauth _ _ _
@[simp] theorem State.istIf_fresh (s : State) (c : Bool) (b i : Nat) : (s.istIf c b i).fresh = s.fresh := by
  cases c
  · rfl
  · exact State.ist_fresh _ _ _
@[simp] theorem State.istIf_cry (s : State) (c : Bool) (b i : Nat) : (s.istIf c b i).cry = s.cry := by
  cases c
  · rfl
  · exact State.ist_cry _ _ _
@[simp] theorem State.istIf_yew (s : State) (c : Bool) (b i : Nat) : (s.istIf c b i).yew = s.yew := by
  cases c
  · rfl
  · exact State.ist_yew _ _ _
@[simp] theorem State.istIf_hq (s : State) (c : Bool) (b i : Nat) : (s.istIf c b i).hq = s.hq := by
  cases c
  · rfl
  · exact State.ist_hq _ _ _
@[simp] theorem State.istIf_hqReset (s : State) (c : Bool) (b i : Nat) : (s.istIf c b i).hqReset = s.hqReset := by
  cases c
  · rfl
  · exact State.ist_hqReset _ _ _
@[simp] theorem State.istIf_bme (s : State) (c : Bool) (b i : Nat) : (s.istIf c b i).bme = s.bme := by
  cases c
  · rfl
  · exact State.ist_bme _ _ _
@[simp] theorem State.istIf_d3 (s : State) (c : Bool) (b i : Nat) : (s.istIf c b i).d3 = s.d3 := by
  cases c
  · rfl
  · exact State.ist_d3 _ _ _
@[simp] theorem State.istIf_pair (s : State) (c : Bool) (b i : Nat) : (s.istIf c b i).pair = s.pair := by
  cases c
  · rfl
  · exact State.ist_pair _ _ _
@[simp] theorem State.istIf_obs (s : State) (c : Bool) (b i : Nat) : (s.istIf c b i).obs = s.obs := by
  cases c
  · rfl
  · exact State.ist_obs _ _ _
@[simp] theorem State.istIf_mono (s : State) (c : Bool) (b i : Nat) : (s.istIf c b i).mono = s.mono := by
  cases c
  · rfl
  · exact State.ist_mono _ _ _
@[simp] theorem State.istIf_pwr (s : State) (c : Bool) (b i : Nat) : (s.istIf c b i).pwr = s.pwr := by
  cases c
  · rfl
  · exact State.ist_pwr _ _ _
@[simp] theorem State.istIf_wkn (s : State) (c : Bool) (b i : Nat) : (s.istIf c b i).wkn = s.wkn := by
  cases c
  · rfl
  · exact State.ist_wkn _ _ _
@[simp] theorem State.istIf_boot (s : State) (c : Bool) (b i : Nat) : (s.istIf c b i).boot = s.boot := by
  cases c
  · rfl
  · exact State.ist_boot _ _ _
@[simp] theorem State.istIf_lrl (s : State) (c : Bool) (b i : Nat) : (s.istIf c b i).lrl = s.lrl := by
  cases c
  · rfl
  · exact State.ist_lrl _ _ _
@[simp] theorem State.istIf_fwu (s : State) (c : Bool) (b i : Nat) : (s.istIf c b i).fwu = s.fwu := by
  cases c
  · rfl
  · exact State.ist_fwu _ _ _
@[simp] theorem State.istIf_qspi (s : State) (c : Bool) (b i : Nat) : (s.istIf c b i).qspi = s.qspi := by
  cases c
  · rfl
  · exact State.ist_qspi _ _ _
@[simp] theorem State.istIf_chan (s : State) (c : Bool) (b i : Nat) : (s.istIf c b i).chan = s.chan := by
  cases c
  · rfl
  · exact State.ist_chan _ _ _
@[simp] theorem State.istIf_arb (s : State) (c : Bool) (b i : Nat) : (s.istIf c b i).arb = s.arb := by
  cases c
  · rfl
  · exact State.ist_arb _ _ _

/-! State.bump. -/

@[simp] theorem State.bump_pending (s : State) (a n k : Nat) : (s.bump a n k).pending = s.pending := State.istIf_pending _ _ _ _
@[simp] theorem State.bump_freeN (s : State) (a n k : Nat) : (s.bump a n k).freeN = s.freeN := State.istIf_freeN _ _ _ _
@[simp] theorem State.bump_shadow (s : State) (a n k : Nat) : (s.bump a n k).shadow = s.shadow := State.istIf_shadow _ _ _ _
@[simp] theorem State.bump_prev (s : State) (a n k : Nat) : (s.bump a n k).prev = s.prev := State.istIf_prev _ _ _ _
@[simp] theorem State.bump_tab (s : State) (a n k : Nat) : (s.bump a n k).tab = s.tab := State.istIf_tab _ _ _ _
@[simp] theorem State.bump_bus (s : State) (a n k : Nat) : (s.bump a n k).bus = s.bus := State.istIf_bus _ _ _ _
@[simp] theorem State.bump_cmt (s : State) (a n k : Nat) : (s.bump a n k).cmt = s.cmt := State.istIf_cmt _ _ _ _
@[simp] theorem State.bump_tsy (s : State) (a n k : Nat) : (s.bump a n k).tsy = s.tsy := State.istIf_tsy _ _ _ _
@[simp] theorem State.bump_xpl (s : State) (a n k : Nat) : (s.bump a n k).xpl = s.xpl := State.istIf_xpl _ _ _ _
@[simp] theorem State.bump_dram (s : State) (a n k : Nat) : (s.bump a n k).dram = s.dram := State.istIf_dram _ _ _ _
@[simp] theorem State.bump_mram (s : State) (a n k : Nat) : (s.bump a n k).mram = s.mram := State.istIf_mram _ _ _ _
@[simp] theorem State.bump_lsram (s : State) (a n k : Nat) : (s.bump a n k).lsram = s.lsram := State.istIf_lsram _ _ _ _
@[simp] theorem State.bump_hmem (s : State) (a n k : Nat) : (s.bump a n k).hmem = s.hmem := State.istIf_hmem _ _ _ _
@[simp] theorem State.bump_vecMask (s : State) (a n k : Nat) : (s.bump a n k).vecMask = s.vecMask := State.istIf_vecMask _ _ _ _
@[simp] theorem State.bump_can (s : State) (a n k : Nat) : (s.bump a n k).can = s.can := State.istIf_can _ _ _ _
@[simp] theorem State.bump_prv (s : State) (a n k : Nat) : (s.bump a n k).prv = s.prv := State.istIf_prv _ _ _ _
@[simp] theorem State.bump_clm (s : State) (a n k : Nat) : (s.bump a n k).clm = s.clm := State.istIf_clm _ _ _ _
@[simp] theorem State.bump_tpe (s : State) (a n k : Nat) : (s.bump a n k).tpe = s.tpe := State.istIf_tpe _ _ _ _
@[simp] theorem State.bump_swIn (s : State) (a n k : Nat) : (s.bump a n k).swIn = s.swIn := State.istIf_swIn _ _ _ _
@[simp] theorem State.bump_sw (s : State) (a n k : Nat) : (s.bump a n k).sw = s.sw := State.istIf_sw _ _ _ _
@[simp] theorem State.bump_emac (s : State) (a n k : Nat) : (s.bump a n k).emac = s.emac := State.istIf_emac _ _ _ _
@[simp] theorem State.bump_rtc (s : State) (a n k : Nat) : (s.bump a n k).rtc = s.rtc := State.istIf_rtc _ _ _ _
@[simp] theorem State.bump_rtcAcc (s : State) (a n k : Nat) : (s.bump a n k).rtcAcc = s.rtcAcc := State.istIf_rtcAcc _ _ _ _
@[simp] theorem State.bump_cauth (s : State) (a n k : Nat) : (s.bump a n k).cauth = s.cauth := State.istIf_cauth _ _ _ _
@[simp] theorem State.bump_fresh (s : State) (a n k : Nat) : (s.bump a n k).fresh = s.fresh := State.istIf_fresh _ _ _ _
@[simp] theorem State.bump_cry (s : State) (a n k : Nat) : (s.bump a n k).cry = s.cry := State.istIf_cry _ _ _ _
@[simp] theorem State.bump_yew (s : State) (a n k : Nat) : (s.bump a n k).yew = s.yew := State.istIf_yew _ _ _ _
@[simp] theorem State.bump_hq (s : State) (a n k : Nat) : (s.bump a n k).hq = s.hq := State.istIf_hq _ _ _ _
@[simp] theorem State.bump_hqReset (s : State) (a n k : Nat) : (s.bump a n k).hqReset = s.hqReset := State.istIf_hqReset _ _ _ _
@[simp] theorem State.bump_bme (s : State) (a n k : Nat) : (s.bump a n k).bme = s.bme := State.istIf_bme _ _ _ _
@[simp] theorem State.bump_d3 (s : State) (a n k : Nat) : (s.bump a n k).d3 = s.d3 := State.istIf_d3 _ _ _ _
@[simp] theorem State.bump_pair (s : State) (a n k : Nat) : (s.bump a n k).pair = s.pair := State.istIf_pair _ _ _ _
@[simp] theorem State.bump_obs (s : State) (a n k : Nat) : (s.bump a n k).obs = s.obs := State.istIf_obs _ _ _ _
@[simp] theorem State.bump_mono (s : State) (a n k : Nat) : (s.bump a n k).mono = s.mono := State.istIf_mono _ _ _ _
@[simp] theorem State.bump_pwr (s : State) (a n k : Nat) : (s.bump a n k).pwr = s.pwr := State.istIf_pwr _ _ _ _
@[simp] theorem State.bump_wkn (s : State) (a n k : Nat) : (s.bump a n k).wkn = s.wkn := State.istIf_wkn _ _ _ _
@[simp] theorem State.bump_boot (s : State) (a n k : Nat) : (s.bump a n k).boot = s.boot := State.istIf_boot _ _ _ _
@[simp] theorem State.bump_lrl (s : State) (a n k : Nat) : (s.bump a n k).lrl = s.lrl := State.istIf_lrl _ _ _ _
@[simp] theorem State.bump_fwu (s : State) (a n k : Nat) : (s.bump a n k).fwu = s.fwu := State.istIf_fwu _ _ _ _
@[simp] theorem State.bump_qspi (s : State) (a n k : Nat) : (s.bump a n k).qspi = s.qspi := State.istIf_qspi _ _ _ _
@[simp] theorem State.bump_chan (s : State) (a n k : Nat) : (s.bump a n k).chan = s.chan := State.istIf_chan _ _ _ _
@[simp] theorem State.bump_arb (s : State) (a n k : Nat) : (s.bump a n k).arb = s.arb := State.istIf_arb _ _ _ _

/-! State.bumpSat. -/

@[simp] theorem State.bumpSat_pending (s : State) (a n k : Nat) : (s.bumpSat a n k).pending = s.pending := State.istIf_pending _ _ _ _
@[simp] theorem State.bumpSat_freeN (s : State) (a n k : Nat) : (s.bumpSat a n k).freeN = s.freeN := State.istIf_freeN _ _ _ _
@[simp] theorem State.bumpSat_shadow (s : State) (a n k : Nat) : (s.bumpSat a n k).shadow = s.shadow := State.istIf_shadow _ _ _ _
@[simp] theorem State.bumpSat_prev (s : State) (a n k : Nat) : (s.bumpSat a n k).prev = s.prev := State.istIf_prev _ _ _ _
@[simp] theorem State.bumpSat_tab (s : State) (a n k : Nat) : (s.bumpSat a n k).tab = s.tab := State.istIf_tab _ _ _ _
@[simp] theorem State.bumpSat_bus (s : State) (a n k : Nat) : (s.bumpSat a n k).bus = s.bus := State.istIf_bus _ _ _ _
@[simp] theorem State.bumpSat_cmt (s : State) (a n k : Nat) : (s.bumpSat a n k).cmt = s.cmt := State.istIf_cmt _ _ _ _
@[simp] theorem State.bumpSat_tsy (s : State) (a n k : Nat) : (s.bumpSat a n k).tsy = s.tsy := State.istIf_tsy _ _ _ _
@[simp] theorem State.bumpSat_xpl (s : State) (a n k : Nat) : (s.bumpSat a n k).xpl = s.xpl := State.istIf_xpl _ _ _ _
@[simp] theorem State.bumpSat_dram (s : State) (a n k : Nat) : (s.bumpSat a n k).dram = s.dram := State.istIf_dram _ _ _ _
@[simp] theorem State.bumpSat_mram (s : State) (a n k : Nat) : (s.bumpSat a n k).mram = s.mram := State.istIf_mram _ _ _ _
@[simp] theorem State.bumpSat_lsram (s : State) (a n k : Nat) : (s.bumpSat a n k).lsram = s.lsram := State.istIf_lsram _ _ _ _
@[simp] theorem State.bumpSat_hmem (s : State) (a n k : Nat) : (s.bumpSat a n k).hmem = s.hmem := State.istIf_hmem _ _ _ _
@[simp] theorem State.bumpSat_vecMask (s : State) (a n k : Nat) : (s.bumpSat a n k).vecMask = s.vecMask := State.istIf_vecMask _ _ _ _
@[simp] theorem State.bumpSat_can (s : State) (a n k : Nat) : (s.bumpSat a n k).can = s.can := State.istIf_can _ _ _ _
@[simp] theorem State.bumpSat_prv (s : State) (a n k : Nat) : (s.bumpSat a n k).prv = s.prv := State.istIf_prv _ _ _ _
@[simp] theorem State.bumpSat_clm (s : State) (a n k : Nat) : (s.bumpSat a n k).clm = s.clm := State.istIf_clm _ _ _ _
@[simp] theorem State.bumpSat_tpe (s : State) (a n k : Nat) : (s.bumpSat a n k).tpe = s.tpe := State.istIf_tpe _ _ _ _
@[simp] theorem State.bumpSat_swIn (s : State) (a n k : Nat) : (s.bumpSat a n k).swIn = s.swIn := State.istIf_swIn _ _ _ _
@[simp] theorem State.bumpSat_sw (s : State) (a n k : Nat) : (s.bumpSat a n k).sw = s.sw := State.istIf_sw _ _ _ _
@[simp] theorem State.bumpSat_emac (s : State) (a n k : Nat) : (s.bumpSat a n k).emac = s.emac := State.istIf_emac _ _ _ _
@[simp] theorem State.bumpSat_rtc (s : State) (a n k : Nat) : (s.bumpSat a n k).rtc = s.rtc := State.istIf_rtc _ _ _ _
@[simp] theorem State.bumpSat_rtcAcc (s : State) (a n k : Nat) : (s.bumpSat a n k).rtcAcc = s.rtcAcc := State.istIf_rtcAcc _ _ _ _
@[simp] theorem State.bumpSat_cauth (s : State) (a n k : Nat) : (s.bumpSat a n k).cauth = s.cauth := State.istIf_cauth _ _ _ _
@[simp] theorem State.bumpSat_fresh (s : State) (a n k : Nat) : (s.bumpSat a n k).fresh = s.fresh := State.istIf_fresh _ _ _ _
@[simp] theorem State.bumpSat_cry (s : State) (a n k : Nat) : (s.bumpSat a n k).cry = s.cry := State.istIf_cry _ _ _ _
@[simp] theorem State.bumpSat_yew (s : State) (a n k : Nat) : (s.bumpSat a n k).yew = s.yew := State.istIf_yew _ _ _ _
@[simp] theorem State.bumpSat_hq (s : State) (a n k : Nat) : (s.bumpSat a n k).hq = s.hq := State.istIf_hq _ _ _ _
@[simp] theorem State.bumpSat_hqReset (s : State) (a n k : Nat) : (s.bumpSat a n k).hqReset = s.hqReset := State.istIf_hqReset _ _ _ _
@[simp] theorem State.bumpSat_bme (s : State) (a n k : Nat) : (s.bumpSat a n k).bme = s.bme := State.istIf_bme _ _ _ _
@[simp] theorem State.bumpSat_d3 (s : State) (a n k : Nat) : (s.bumpSat a n k).d3 = s.d3 := State.istIf_d3 _ _ _ _
@[simp] theorem State.bumpSat_pair (s : State) (a n k : Nat) : (s.bumpSat a n k).pair = s.pair := State.istIf_pair _ _ _ _
@[simp] theorem State.bumpSat_obs (s : State) (a n k : Nat) : (s.bumpSat a n k).obs = s.obs := State.istIf_obs _ _ _ _
@[simp] theorem State.bumpSat_mono (s : State) (a n k : Nat) : (s.bumpSat a n k).mono = s.mono := State.istIf_mono _ _ _ _
@[simp] theorem State.bumpSat_pwr (s : State) (a n k : Nat) : (s.bumpSat a n k).pwr = s.pwr := State.istIf_pwr _ _ _ _
@[simp] theorem State.bumpSat_wkn (s : State) (a n k : Nat) : (s.bumpSat a n k).wkn = s.wkn := State.istIf_wkn _ _ _ _
@[simp] theorem State.bumpSat_boot (s : State) (a n k : Nat) : (s.bumpSat a n k).boot = s.boot := State.istIf_boot _ _ _ _
@[simp] theorem State.bumpSat_lrl (s : State) (a n k : Nat) : (s.bumpSat a n k).lrl = s.lrl := State.istIf_lrl _ _ _ _
@[simp] theorem State.bumpSat_fwu (s : State) (a n k : Nat) : (s.bumpSat a n k).fwu = s.fwu := State.istIf_fwu _ _ _ _
@[simp] theorem State.bumpSat_qspi (s : State) (a n k : Nat) : (s.bumpSat a n k).qspi = s.qspi := State.istIf_qspi _ _ _ _
@[simp] theorem State.bumpSat_chan (s : State) (a n k : Nat) : (s.bumpSat a n k).chan = s.chan := State.istIf_chan _ _ _ _
@[simp] theorem State.bumpSat_arb (s : State) (a n k : Nat) : (s.bumpSat a n k).arb = s.arb := State.istIf_arb _ _ _ _

/-! State.setUnlock. -/

@[simp] theorem State.setUnlock_pending (s : State) (i : Initiator) (a : Nat) (u : Bool) : (s.setUnlock i a u).pending = s.pending := rfl
@[simp] theorem State.setUnlock_freeN (s : State) (i : Initiator) (a : Nat) (u : Bool) : (s.setUnlock i a u).freeN = s.freeN := rfl
@[simp] theorem State.setUnlock_outbox (s : State) (i : Initiator) (a : Nat) (u : Bool) : (s.setUnlock i a u).outbox = s.outbox := rfl
@[simp] theorem State.setUnlock_regs (s : State) (i : Initiator) (a : Nat) (u : Bool) : (s.setUnlock i a u).regs = s.regs := rfl
@[simp] theorem State.setUnlock_shadow (s : State) (i : Initiator) (a : Nat) (u : Bool) : (s.setUnlock i a u).shadow = s.shadow := rfl
@[simp] theorem State.setUnlock_prev (s : State) (i : Initiator) (a : Nat) (u : Bool) : (s.setUnlock i a u).prev = s.prev := rfl
@[simp] theorem State.setUnlock_tab (s : State) (i : Initiator) (a : Nat) (u : Bool) : (s.setUnlock i a u).tab = s.tab := rfl
@[simp] theorem State.setUnlock_cmt (s : State) (i : Initiator) (a : Nat) (u : Bool) : (s.setUnlock i a u).cmt = s.cmt := rfl
@[simp] theorem State.setUnlock_tsy (s : State) (i : Initiator) (a : Nat) (u : Bool) : (s.setUnlock i a u).tsy = s.tsy := rfl
@[simp] theorem State.setUnlock_xpl (s : State) (i : Initiator) (a : Nat) (u : Bool) : (s.setUnlock i a u).xpl = s.xpl := rfl
@[simp] theorem State.setUnlock_dram (s : State) (i : Initiator) (a : Nat) (u : Bool) : (s.setUnlock i a u).dram = s.dram := rfl
@[simp] theorem State.setUnlock_mram (s : State) (i : Initiator) (a : Nat) (u : Bool) : (s.setUnlock i a u).mram = s.mram := rfl
@[simp] theorem State.setUnlock_lsram (s : State) (i : Initiator) (a : Nat) (u : Bool) : (s.setUnlock i a u).lsram = s.lsram := rfl
@[simp] theorem State.setUnlock_hmem (s : State) (i : Initiator) (a : Nat) (u : Bool) : (s.setUnlock i a u).hmem = s.hmem := rfl
@[simp] theorem State.setUnlock_levels (s : State) (i : Initiator) (a : Nat) (u : Bool) : (s.setUnlock i a u).levels = s.levels := rfl
@[simp] theorem State.setUnlock_vecMask (s : State) (i : Initiator) (a : Nat) (u : Bool) : (s.setUnlock i a u).vecMask = s.vecMask := rfl
@[simp] theorem State.setUnlock_pba (s : State) (i : Initiator) (a : Nat) (u : Bool) : (s.setUnlock i a u).pba = s.pba := rfl
@[simp] theorem State.setUnlock_can (s : State) (i : Initiator) (a : Nat) (u : Bool) : (s.setUnlock i a u).can = s.can := rfl
@[simp] theorem State.setUnlock_prv (s : State) (i : Initiator) (a : Nat) (u : Bool) : (s.setUnlock i a u).prv = s.prv := rfl
@[simp] theorem State.setUnlock_clm (s : State) (i : Initiator) (a : Nat) (u : Bool) : (s.setUnlock i a u).clm = s.clm := rfl
@[simp] theorem State.setUnlock_tpe (s : State) (i : Initiator) (a : Nat) (u : Bool) : (s.setUnlock i a u).tpe = s.tpe := rfl
@[simp] theorem State.setUnlock_swIn (s : State) (i : Initiator) (a : Nat) (u : Bool) : (s.setUnlock i a u).swIn = s.swIn := rfl
@[simp] theorem State.setUnlock_sw (s : State) (i : Initiator) (a : Nat) (u : Bool) : (s.setUnlock i a u).sw = s.sw := rfl
@[simp] theorem State.setUnlock_emac (s : State) (i : Initiator) (a : Nat) (u : Bool) : (s.setUnlock i a u).emac = s.emac := rfl
@[simp] theorem State.setUnlock_rtc (s : State) (i : Initiator) (a : Nat) (u : Bool) : (s.setUnlock i a u).rtc = s.rtc := rfl
@[simp] theorem State.setUnlock_rtcAcc (s : State) (i : Initiator) (a : Nat) (u : Bool) : (s.setUnlock i a u).rtcAcc = s.rtcAcc := rfl
@[simp] theorem State.setUnlock_cauth (s : State) (i : Initiator) (a : Nat) (u : Bool) : (s.setUnlock i a u).cauth = s.cauth := rfl
@[simp] theorem State.setUnlock_fresh (s : State) (i : Initiator) (a : Nat) (u : Bool) : (s.setUnlock i a u).fresh = s.fresh := rfl
@[simp] theorem State.setUnlock_cry (s : State) (i : Initiator) (a : Nat) (u : Bool) : (s.setUnlock i a u).cry = s.cry := rfl
@[simp] theorem State.setUnlock_yew (s : State) (i : Initiator) (a : Nat) (u : Bool) : (s.setUnlock i a u).yew = s.yew := rfl
@[simp] theorem State.setUnlock_hq (s : State) (i : Initiator) (a : Nat) (u : Bool) : (s.setUnlock i a u).hq = s.hq := rfl
@[simp] theorem State.setUnlock_hqReset (s : State) (i : Initiator) (a : Nat) (u : Bool) : (s.setUnlock i a u).hqReset = s.hqReset := rfl
@[simp] theorem State.setUnlock_bme (s : State) (i : Initiator) (a : Nat) (u : Bool) : (s.setUnlock i a u).bme = s.bme := rfl
@[simp] theorem State.setUnlock_d3 (s : State) (i : Initiator) (a : Nat) (u : Bool) : (s.setUnlock i a u).d3 = s.d3 := rfl
@[simp] theorem State.setUnlock_pair (s : State) (i : Initiator) (a : Nat) (u : Bool) : (s.setUnlock i a u).pair = s.pair := rfl
@[simp] theorem State.setUnlock_obs (s : State) (i : Initiator) (a : Nat) (u : Bool) : (s.setUnlock i a u).obs = s.obs := rfl
@[simp] theorem State.setUnlock_mono (s : State) (i : Initiator) (a : Nat) (u : Bool) : (s.setUnlock i a u).mono = s.mono := rfl
@[simp] theorem State.setUnlock_pwr (s : State) (i : Initiator) (a : Nat) (u : Bool) : (s.setUnlock i a u).pwr = s.pwr := rfl
@[simp] theorem State.setUnlock_wkn (s : State) (i : Initiator) (a : Nat) (u : Bool) : (s.setUnlock i a u).wkn = s.wkn := rfl
@[simp] theorem State.setUnlock_boot (s : State) (i : Initiator) (a : Nat) (u : Bool) : (s.setUnlock i a u).boot = s.boot := rfl
@[simp] theorem State.setUnlock_lrl (s : State) (i : Initiator) (a : Nat) (u : Bool) : (s.setUnlock i a u).lrl = s.lrl := rfl
@[simp] theorem State.setUnlock_fwu (s : State) (i : Initiator) (a : Nat) (u : Bool) : (s.setUnlock i a u).fwu = s.fwu := rfl
@[simp] theorem State.setUnlock_qspi (s : State) (i : Initiator) (a : Nat) (u : Bool) : (s.setUnlock i a u).qspi = s.qspi := rfl
@[simp] theorem State.setUnlock_chan (s : State) (i : Initiator) (a : Nat) (u : Bool) : (s.setUnlock i a u).chan = s.chan := rfl
@[simp] theorem State.setUnlock_arb (s : State) (i : Initiator) (a : Nat) (u : Bool) : (s.setUnlock i a u).arb = s.arb := rfl

/-! State.errFirst. -/

@[simp] theorem State.errFirst_pending (s : State) (o : Nat) (x y : Word) : (s.errFirst o x y).pending = s.pending := by
  unfold State.errFirst
  split <;> rfl
@[simp] theorem State.errFirst_freeN (s : State) (o : Nat) (x y : Word) : (s.errFirst o x y).freeN = s.freeN := by
  unfold State.errFirst
  split <;> rfl
@[simp] theorem State.errFirst_outbox (s : State) (o : Nat) (x y : Word) : (s.errFirst o x y).outbox = s.outbox := by
  unfold State.errFirst
  split <;> rfl
@[simp] theorem State.errFirst_shadow (s : State) (o : Nat) (x y : Word) : (s.errFirst o x y).shadow = s.shadow := by
  unfold State.errFirst
  split <;> rfl
@[simp] theorem State.errFirst_prev (s : State) (o : Nat) (x y : Word) : (s.errFirst o x y).prev = s.prev := by
  unfold State.errFirst
  split <;> rfl
@[simp] theorem State.errFirst_tab (s : State) (o : Nat) (x y : Word) : (s.errFirst o x y).tab = s.tab := by
  unfold State.errFirst
  split <;> rfl
@[simp] theorem State.errFirst_bus (s : State) (o : Nat) (x y : Word) : (s.errFirst o x y).bus = s.bus := by
  unfold State.errFirst
  split <;> rfl
@[simp] theorem State.errFirst_cmt (s : State) (o : Nat) (x y : Word) : (s.errFirst o x y).cmt = s.cmt := by
  unfold State.errFirst
  split <;> rfl
@[simp] theorem State.errFirst_tsy (s : State) (o : Nat) (x y : Word) : (s.errFirst o x y).tsy = s.tsy := by
  unfold State.errFirst
  split <;> rfl
@[simp] theorem State.errFirst_xpl (s : State) (o : Nat) (x y : Word) : (s.errFirst o x y).xpl = s.xpl := by
  unfold State.errFirst
  split <;> rfl
@[simp] theorem State.errFirst_dram (s : State) (o : Nat) (x y : Word) : (s.errFirst o x y).dram = s.dram := by
  unfold State.errFirst
  split <;> rfl
@[simp] theorem State.errFirst_mram (s : State) (o : Nat) (x y : Word) : (s.errFirst o x y).mram = s.mram := by
  unfold State.errFirst
  split <;> rfl
@[simp] theorem State.errFirst_lsram (s : State) (o : Nat) (x y : Word) : (s.errFirst o x y).lsram = s.lsram := by
  unfold State.errFirst
  split <;> rfl
@[simp] theorem State.errFirst_hmem (s : State) (o : Nat) (x y : Word) : (s.errFirst o x y).hmem = s.hmem := by
  unfold State.errFirst
  split <;> rfl
@[simp] theorem State.errFirst_levels (s : State) (o : Nat) (x y : Word) : (s.errFirst o x y).levels = s.levels := by
  unfold State.errFirst
  split <;> rfl
@[simp] theorem State.errFirst_vecMask (s : State) (o : Nat) (x y : Word) : (s.errFirst o x y).vecMask = s.vecMask := by
  unfold State.errFirst
  split <;> rfl
@[simp] theorem State.errFirst_pba (s : State) (o : Nat) (x y : Word) : (s.errFirst o x y).pba = s.pba := by
  unfold State.errFirst
  split <;> rfl
@[simp] theorem State.errFirst_can (s : State) (o : Nat) (x y : Word) : (s.errFirst o x y).can = s.can := by
  unfold State.errFirst
  split <;> rfl
@[simp] theorem State.errFirst_prv (s : State) (o : Nat) (x y : Word) : (s.errFirst o x y).prv = s.prv := by
  unfold State.errFirst
  split <;> rfl
@[simp] theorem State.errFirst_clm (s : State) (o : Nat) (x y : Word) : (s.errFirst o x y).clm = s.clm := by
  unfold State.errFirst
  split <;> rfl
@[simp] theorem State.errFirst_tpe (s : State) (o : Nat) (x y : Word) : (s.errFirst o x y).tpe = s.tpe := by
  unfold State.errFirst
  split <;> rfl
@[simp] theorem State.errFirst_swIn (s : State) (o : Nat) (x y : Word) : (s.errFirst o x y).swIn = s.swIn := by
  unfold State.errFirst
  split <;> rfl
@[simp] theorem State.errFirst_sw (s : State) (o : Nat) (x y : Word) : (s.errFirst o x y).sw = s.sw := by
  unfold State.errFirst
  split <;> rfl
@[simp] theorem State.errFirst_emac (s : State) (o : Nat) (x y : Word) : (s.errFirst o x y).emac = s.emac := by
  unfold State.errFirst
  split <;> rfl
@[simp] theorem State.errFirst_rtc (s : State) (o : Nat) (x y : Word) : (s.errFirst o x y).rtc = s.rtc := by
  unfold State.errFirst
  split <;> rfl
@[simp] theorem State.errFirst_rtcAcc (s : State) (o : Nat) (x y : Word) : (s.errFirst o x y).rtcAcc = s.rtcAcc := by
  unfold State.errFirst
  split <;> rfl
@[simp] theorem State.errFirst_cauth (s : State) (o : Nat) (x y : Word) : (s.errFirst o x y).cauth = s.cauth := by
  unfold State.errFirst
  split <;> rfl
@[simp] theorem State.errFirst_fresh (s : State) (o : Nat) (x y : Word) : (s.errFirst o x y).fresh = s.fresh := by
  unfold State.errFirst
  split <;> rfl
@[simp] theorem State.errFirst_cry (s : State) (o : Nat) (x y : Word) : (s.errFirst o x y).cry = s.cry := by
  unfold State.errFirst
  split <;> rfl
@[simp] theorem State.errFirst_yew (s : State) (o : Nat) (x y : Word) : (s.errFirst o x y).yew = s.yew := by
  unfold State.errFirst
  split <;> rfl
@[simp] theorem State.errFirst_hq (s : State) (o : Nat) (x y : Word) : (s.errFirst o x y).hq = s.hq := by
  unfold State.errFirst
  split <;> rfl
@[simp] theorem State.errFirst_hqReset (s : State) (o : Nat) (x y : Word) : (s.errFirst o x y).hqReset = s.hqReset := by
  unfold State.errFirst
  split <;> rfl
@[simp] theorem State.errFirst_bme (s : State) (o : Nat) (x y : Word) : (s.errFirst o x y).bme = s.bme := by
  unfold State.errFirst
  split <;> rfl
@[simp] theorem State.errFirst_d3 (s : State) (o : Nat) (x y : Word) : (s.errFirst o x y).d3 = s.d3 := by
  unfold State.errFirst
  split <;> rfl
@[simp] theorem State.errFirst_pair (s : State) (o : Nat) (x y : Word) : (s.errFirst o x y).pair = s.pair := by
  unfold State.errFirst
  split <;> rfl
@[simp] theorem State.errFirst_obs (s : State) (o : Nat) (x y : Word) : (s.errFirst o x y).obs = s.obs := by
  unfold State.errFirst
  split <;> rfl
@[simp] theorem State.errFirst_mono (s : State) (o : Nat) (x y : Word) : (s.errFirst o x y).mono = s.mono := by
  unfold State.errFirst
  split <;> rfl
@[simp] theorem State.errFirst_pwr (s : State) (o : Nat) (x y : Word) : (s.errFirst o x y).pwr = s.pwr := by
  unfold State.errFirst
  split <;> rfl
@[simp] theorem State.errFirst_wkn (s : State) (o : Nat) (x y : Word) : (s.errFirst o x y).wkn = s.wkn := by
  unfold State.errFirst
  split <;> rfl
@[simp] theorem State.errFirst_boot (s : State) (o : Nat) (x y : Word) : (s.errFirst o x y).boot = s.boot := by
  unfold State.errFirst
  split <;> rfl
@[simp] theorem State.errFirst_lrl (s : State) (o : Nat) (x y : Word) : (s.errFirst o x y).lrl = s.lrl := by
  unfold State.errFirst
  split <;> rfl
@[simp] theorem State.errFirst_fwu (s : State) (o : Nat) (x y : Word) : (s.errFirst o x y).fwu = s.fwu := by
  unfold State.errFirst
  split <;> rfl
@[simp] theorem State.errFirst_qspi (s : State) (o : Nat) (x y : Word) : (s.errFirst o x y).qspi = s.qspi := by
  unfold State.errFirst
  split <;> rfl
@[simp] theorem State.errFirst_chan (s : State) (o : Nat) (x y : Word) : (s.errFirst o x y).chan = s.chan := by
  unfold State.errFirst
  split <;> rfl
@[simp] theorem State.errFirst_arb (s : State) (o : Nat) (x y : Word) : (s.errFirst o x y).arb = s.arb := by
  unfold State.errFirst
  split <;> rfl

/-! State.errPage. -/

@[simp] theorem State.errPage_pending (s : State) (bar o : Nat) : (s.errPage bar o).pending = s.pending := by
  unfold State.errPage
  split
  · exact State.ist_pending _ _ _
  · rfl
@[simp] theorem State.errPage_freeN (s : State) (bar o : Nat) : (s.errPage bar o).freeN = s.freeN := by
  unfold State.errPage
  split
  · exact State.ist_freeN _ _ _
  · rfl
@[simp] theorem State.errPage_shadow (s : State) (bar o : Nat) : (s.errPage bar o).shadow = s.shadow := by
  unfold State.errPage
  split
  · exact State.ist_shadow _ _ _
  · rfl
@[simp] theorem State.errPage_prev (s : State) (bar o : Nat) : (s.errPage bar o).prev = s.prev := by
  unfold State.errPage
  split
  · exact State.ist_prev _ _ _
  · rfl
@[simp] theorem State.errPage_tab (s : State) (bar o : Nat) : (s.errPage bar o).tab = s.tab := by
  unfold State.errPage
  split
  · exact State.ist_tab _ _ _
  · rfl
@[simp] theorem State.errPage_bus (s : State) (bar o : Nat) : (s.errPage bar o).bus = s.bus := by
  unfold State.errPage
  split
  · exact State.ist_bus _ _ _
  · rfl
@[simp] theorem State.errPage_cmt (s : State) (bar o : Nat) : (s.errPage bar o).cmt = s.cmt := by
  unfold State.errPage
  split
  · exact State.ist_cmt _ _ _
  · rfl
@[simp] theorem State.errPage_tsy (s : State) (bar o : Nat) : (s.errPage bar o).tsy = s.tsy := by
  unfold State.errPage
  split
  · exact State.ist_tsy _ _ _
  · rfl
@[simp] theorem State.errPage_xpl (s : State) (bar o : Nat) : (s.errPage bar o).xpl = s.xpl := by
  unfold State.errPage
  split
  · exact State.ist_xpl _ _ _
  · rfl
@[simp] theorem State.errPage_dram (s : State) (bar o : Nat) : (s.errPage bar o).dram = s.dram := by
  unfold State.errPage
  split
  · exact State.ist_dram _ _ _
  · rfl
@[simp] theorem State.errPage_mram (s : State) (bar o : Nat) : (s.errPage bar o).mram = s.mram := by
  unfold State.errPage
  split
  · exact State.ist_mram _ _ _
  · rfl
@[simp] theorem State.errPage_lsram (s : State) (bar o : Nat) : (s.errPage bar o).lsram = s.lsram := by
  unfold State.errPage
  split
  · exact State.ist_lsram _ _ _
  · rfl
@[simp] theorem State.errPage_hmem (s : State) (bar o : Nat) : (s.errPage bar o).hmem = s.hmem := by
  unfold State.errPage
  split
  · exact State.ist_hmem _ _ _
  · rfl
@[simp] theorem State.errPage_vecMask (s : State) (bar o : Nat) : (s.errPage bar o).vecMask = s.vecMask := by
  unfold State.errPage
  split
  · exact State.ist_vecMask _ _ _
  · rfl
@[simp] theorem State.errPage_can (s : State) (bar o : Nat) : (s.errPage bar o).can = s.can := by
  unfold State.errPage
  split
  · exact State.ist_can _ _ _
  · rfl
@[simp] theorem State.errPage_prv (s : State) (bar o : Nat) : (s.errPage bar o).prv = s.prv := by
  unfold State.errPage
  split
  · exact State.ist_prv _ _ _
  · rfl
@[simp] theorem State.errPage_clm (s : State) (bar o : Nat) : (s.errPage bar o).clm = s.clm := by
  unfold State.errPage
  split
  · exact State.ist_clm _ _ _
  · rfl
@[simp] theorem State.errPage_tpe (s : State) (bar o : Nat) : (s.errPage bar o).tpe = s.tpe := by
  unfold State.errPage
  split
  · exact State.ist_tpe _ _ _
  · rfl
@[simp] theorem State.errPage_swIn (s : State) (bar o : Nat) : (s.errPage bar o).swIn = s.swIn := by
  unfold State.errPage
  split
  · exact State.ist_swIn _ _ _
  · rfl
@[simp] theorem State.errPage_sw (s : State) (bar o : Nat) : (s.errPage bar o).sw = s.sw := by
  unfold State.errPage
  split
  · exact State.ist_sw _ _ _
  · rfl
@[simp] theorem State.errPage_emac (s : State) (bar o : Nat) : (s.errPage bar o).emac = s.emac := by
  unfold State.errPage
  split
  · exact State.ist_emac _ _ _
  · rfl
@[simp] theorem State.errPage_rtc (s : State) (bar o : Nat) : (s.errPage bar o).rtc = s.rtc := by
  unfold State.errPage
  split
  · exact State.ist_rtc _ _ _
  · rfl
@[simp] theorem State.errPage_rtcAcc (s : State) (bar o : Nat) : (s.errPage bar o).rtcAcc = s.rtcAcc := by
  unfold State.errPage
  split
  · exact State.ist_rtcAcc _ _ _
  · rfl
@[simp] theorem State.errPage_cauth (s : State) (bar o : Nat) : (s.errPage bar o).cauth = s.cauth := by
  unfold State.errPage
  split
  · exact State.ist_cauth _ _ _
  · rfl
@[simp] theorem State.errPage_fresh (s : State) (bar o : Nat) : (s.errPage bar o).fresh = s.fresh := by
  unfold State.errPage
  split
  · exact State.ist_fresh _ _ _
  · rfl
@[simp] theorem State.errPage_cry (s : State) (bar o : Nat) : (s.errPage bar o).cry = s.cry := by
  unfold State.errPage
  split
  · exact State.ist_cry _ _ _
  · rfl
@[simp] theorem State.errPage_yew (s : State) (bar o : Nat) : (s.errPage bar o).yew = s.yew := by
  unfold State.errPage
  split
  · exact State.ist_yew _ _ _
  · rfl
@[simp] theorem State.errPage_hq (s : State) (bar o : Nat) : (s.errPage bar o).hq = s.hq := by
  unfold State.errPage
  split
  · exact State.ist_hq _ _ _
  · rfl
@[simp] theorem State.errPage_hqReset (s : State) (bar o : Nat) : (s.errPage bar o).hqReset = s.hqReset := by
  unfold State.errPage
  split
  · exact State.ist_hqReset _ _ _
  · rfl
@[simp] theorem State.errPage_bme (s : State) (bar o : Nat) : (s.errPage bar o).bme = s.bme := by
  unfold State.errPage
  split
  · exact State.ist_bme _ _ _
  · rfl
@[simp] theorem State.errPage_d3 (s : State) (bar o : Nat) : (s.errPage bar o).d3 = s.d3 := by
  unfold State.errPage
  split
  · exact State.ist_d3 _ _ _
  · rfl
@[simp] theorem State.errPage_pair (s : State) (bar o : Nat) : (s.errPage bar o).pair = s.pair := by
  unfold State.errPage
  split
  · exact State.ist_pair _ _ _
  · rfl
@[simp] theorem State.errPage_obs (s : State) (bar o : Nat) : (s.errPage bar o).obs = s.obs := by
  unfold State.errPage
  split
  · exact State.ist_obs _ _ _
  · rfl
@[simp] theorem State.errPage_mono (s : State) (bar o : Nat) : (s.errPage bar o).mono = s.mono := by
  unfold State.errPage
  split
  · exact State.ist_mono _ _ _
  · rfl
@[simp] theorem State.errPage_pwr (s : State) (bar o : Nat) : (s.errPage bar o).pwr = s.pwr := by
  unfold State.errPage
  split
  · exact State.ist_pwr _ _ _
  · rfl
@[simp] theorem State.errPage_wkn (s : State) (bar o : Nat) : (s.errPage bar o).wkn = s.wkn := by
  unfold State.errPage
  split
  · exact State.ist_wkn _ _ _
  · rfl
@[simp] theorem State.errPage_boot (s : State) (bar o : Nat) : (s.errPage bar o).boot = s.boot := by
  unfold State.errPage
  split
  · exact State.ist_boot _ _ _
  · rfl
@[simp] theorem State.errPage_lrl (s : State) (bar o : Nat) : (s.errPage bar o).lrl = s.lrl := by
  unfold State.errPage
  split
  · exact State.ist_lrl _ _ _
  · rfl
@[simp] theorem State.errPage_fwu (s : State) (bar o : Nat) : (s.errPage bar o).fwu = s.fwu := by
  unfold State.errPage
  split
  · exact State.ist_fwu _ _ _
  · rfl
@[simp] theorem State.errPage_qspi (s : State) (bar o : Nat) : (s.errPage bar o).qspi = s.qspi := by
  unfold State.errPage
  split
  · exact State.ist_qspi _ _ _
  · rfl
@[simp] theorem State.errPage_chan (s : State) (bar o : Nat) : (s.errPage bar o).chan = s.chan := by
  unfold State.errPage
  split
  · exact State.ist_chan _ _ _
  · rfl
@[simp] theorem State.errPage_arb (s : State) (bar o : Nat) : (s.errPage bar o).arb = s.arb := by
  unfold State.errPage
  split
  · exact State.ist_arb _ _ _
  · rfl

/-! State.errLast. -/

@[simp] theorem State.errLast_pending (s : State) (o : Nat) (x y : Word) : (s.errLast o x y).pending = s.pending := rfl
@[simp] theorem State.errLast_freeN (s : State) (o : Nat) (x y : Word) : (s.errLast o x y).freeN = s.freeN := rfl
@[simp] theorem State.errLast_outbox (s : State) (o : Nat) (x y : Word) : (s.errLast o x y).outbox = s.outbox := rfl
@[simp] theorem State.errLast_shadow (s : State) (o : Nat) (x y : Word) : (s.errLast o x y).shadow = s.shadow := rfl
@[simp] theorem State.errLast_prev (s : State) (o : Nat) (x y : Word) : (s.errLast o x y).prev = s.prev := rfl
@[simp] theorem State.errLast_tab (s : State) (o : Nat) (x y : Word) : (s.errLast o x y).tab = s.tab := rfl
@[simp] theorem State.errLast_bus (s : State) (o : Nat) (x y : Word) : (s.errLast o x y).bus = s.bus := rfl
@[simp] theorem State.errLast_cmt (s : State) (o : Nat) (x y : Word) : (s.errLast o x y).cmt = s.cmt := rfl
@[simp] theorem State.errLast_tsy (s : State) (o : Nat) (x y : Word) : (s.errLast o x y).tsy = s.tsy := rfl
@[simp] theorem State.errLast_xpl (s : State) (o : Nat) (x y : Word) : (s.errLast o x y).xpl = s.xpl := rfl
@[simp] theorem State.errLast_dram (s : State) (o : Nat) (x y : Word) : (s.errLast o x y).dram = s.dram := rfl
@[simp] theorem State.errLast_mram (s : State) (o : Nat) (x y : Word) : (s.errLast o x y).mram = s.mram := rfl
@[simp] theorem State.errLast_lsram (s : State) (o : Nat) (x y : Word) : (s.errLast o x y).lsram = s.lsram := rfl
@[simp] theorem State.errLast_hmem (s : State) (o : Nat) (x y : Word) : (s.errLast o x y).hmem = s.hmem := rfl
@[simp] theorem State.errLast_levels (s : State) (o : Nat) (x y : Word) : (s.errLast o x y).levels = s.levels := rfl
@[simp] theorem State.errLast_vecMask (s : State) (o : Nat) (x y : Word) : (s.errLast o x y).vecMask = s.vecMask := rfl
@[simp] theorem State.errLast_pba (s : State) (o : Nat) (x y : Word) : (s.errLast o x y).pba = s.pba := rfl
@[simp] theorem State.errLast_can (s : State) (o : Nat) (x y : Word) : (s.errLast o x y).can = s.can := rfl
@[simp] theorem State.errLast_prv (s : State) (o : Nat) (x y : Word) : (s.errLast o x y).prv = s.prv := rfl
@[simp] theorem State.errLast_clm (s : State) (o : Nat) (x y : Word) : (s.errLast o x y).clm = s.clm := rfl
@[simp] theorem State.errLast_tpe (s : State) (o : Nat) (x y : Word) : (s.errLast o x y).tpe = s.tpe := rfl
@[simp] theorem State.errLast_swIn (s : State) (o : Nat) (x y : Word) : (s.errLast o x y).swIn = s.swIn := rfl
@[simp] theorem State.errLast_sw (s : State) (o : Nat) (x y : Word) : (s.errLast o x y).sw = s.sw := rfl
@[simp] theorem State.errLast_emac (s : State) (o : Nat) (x y : Word) : (s.errLast o x y).emac = s.emac := rfl
@[simp] theorem State.errLast_rtc (s : State) (o : Nat) (x y : Word) : (s.errLast o x y).rtc = s.rtc := rfl
@[simp] theorem State.errLast_rtcAcc (s : State) (o : Nat) (x y : Word) : (s.errLast o x y).rtcAcc = s.rtcAcc := rfl
@[simp] theorem State.errLast_cauth (s : State) (o : Nat) (x y : Word) : (s.errLast o x y).cauth = s.cauth := rfl
@[simp] theorem State.errLast_fresh (s : State) (o : Nat) (x y : Word) : (s.errLast o x y).fresh = s.fresh := rfl
@[simp] theorem State.errLast_cry (s : State) (o : Nat) (x y : Word) : (s.errLast o x y).cry = s.cry := rfl
@[simp] theorem State.errLast_yew (s : State) (o : Nat) (x y : Word) : (s.errLast o x y).yew = s.yew := rfl
@[simp] theorem State.errLast_hq (s : State) (o : Nat) (x y : Word) : (s.errLast o x y).hq = s.hq := rfl
@[simp] theorem State.errLast_hqReset (s : State) (o : Nat) (x y : Word) : (s.errLast o x y).hqReset = s.hqReset := rfl
@[simp] theorem State.errLast_bme (s : State) (o : Nat) (x y : Word) : (s.errLast o x y).bme = s.bme := rfl
@[simp] theorem State.errLast_d3 (s : State) (o : Nat) (x y : Word) : (s.errLast o x y).d3 = s.d3 := rfl
@[simp] theorem State.errLast_pair (s : State) (o : Nat) (x y : Word) : (s.errLast o x y).pair = s.pair := rfl
@[simp] theorem State.errLast_obs (s : State) (o : Nat) (x y : Word) : (s.errLast o x y).obs = s.obs := rfl
@[simp] theorem State.errLast_mono (s : State) (o : Nat) (x y : Word) : (s.errLast o x y).mono = s.mono := rfl
@[simp] theorem State.errLast_pwr (s : State) (o : Nat) (x y : Word) : (s.errLast o x y).pwr = s.pwr := rfl
@[simp] theorem State.errLast_wkn (s : State) (o : Nat) (x y : Word) : (s.errLast o x y).wkn = s.wkn := rfl
@[simp] theorem State.errLast_boot (s : State) (o : Nat) (x y : Word) : (s.errLast o x y).boot = s.boot := rfl
@[simp] theorem State.errLast_lrl (s : State) (o : Nat) (x y : Word) : (s.errLast o x y).lrl = s.lrl := rfl
@[simp] theorem State.errLast_fwu (s : State) (o : Nat) (x y : Word) : (s.errLast o x y).fwu = s.fwu := rfl
@[simp] theorem State.errLast_qspi (s : State) (o : Nat) (x y : Word) : (s.errLast o x y).qspi = s.qspi := rfl
@[simp] theorem State.errLast_chan (s : State) (o : Nat) (x y : Word) : (s.errLast o x y).chan = s.chan := rfl
@[simp] theorem State.errLast_arb (s : State) (o : Nat) (x y : Word) : (s.errLast o x y).arb = s.arb := rfl

/-! State.busError. -/

@[simp] theorem State.busError_pending (s : State) (i : Initiator) (w : Bool) (bar off c : Nat) : (s.busError i w bar off c).pending = s.pending := by
  unfold State.busError
  dsimp only
  rw [State.emit_pending, State.ist_pending, State.errPage_pending, State.errLast_pending, State.errFirst_pending]
@[simp] theorem State.busError_freeN (s : State) (i : Initiator) (w : Bool) (bar off c : Nat) : (s.busError i w bar off c).freeN = s.freeN := by
  unfold State.busError
  dsimp only
  rw [State.emit_freeN, State.ist_freeN, State.errPage_freeN, State.errLast_freeN, State.errFirst_freeN]
@[simp] theorem State.busError_shadow (s : State) (i : Initiator) (w : Bool) (bar off c : Nat) : (s.busError i w bar off c).shadow = s.shadow := by
  unfold State.busError
  dsimp only
  rw [State.emit_shadow, State.ist_shadow, State.errPage_shadow, State.errLast_shadow, State.errFirst_shadow]
@[simp] theorem State.busError_prev (s : State) (i : Initiator) (w : Bool) (bar off c : Nat) : (s.busError i w bar off c).prev = s.prev := by
  unfold State.busError
  dsimp only
  rw [State.emit_prev, State.ist_prev, State.errPage_prev, State.errLast_prev, State.errFirst_prev]
@[simp] theorem State.busError_tab (s : State) (i : Initiator) (w : Bool) (bar off c : Nat) : (s.busError i w bar off c).tab = s.tab := by
  unfold State.busError
  dsimp only
  rw [State.emit_tab, State.ist_tab, State.errPage_tab, State.errLast_tab, State.errFirst_tab]
@[simp] theorem State.busError_bus (s : State) (i : Initiator) (w : Bool) (bar off c : Nat) : (s.busError i w bar off c).bus = s.bus := by
  unfold State.busError
  dsimp only
  rw [State.emit_bus, State.ist_bus, State.errPage_bus, State.errLast_bus, State.errFirst_bus]
@[simp] theorem State.busError_cmt (s : State) (i : Initiator) (w : Bool) (bar off c : Nat) : (s.busError i w bar off c).cmt = s.cmt := by
  unfold State.busError
  dsimp only
  rw [State.emit_cmt, State.ist_cmt, State.errPage_cmt, State.errLast_cmt, State.errFirst_cmt]
@[simp] theorem State.busError_tsy (s : State) (i : Initiator) (w : Bool) (bar off c : Nat) : (s.busError i w bar off c).tsy = s.tsy := by
  unfold State.busError
  dsimp only
  rw [State.emit_tsy, State.ist_tsy, State.errPage_tsy, State.errLast_tsy, State.errFirst_tsy]
@[simp] theorem State.busError_xpl (s : State) (i : Initiator) (w : Bool) (bar off c : Nat) : (s.busError i w bar off c).xpl = s.xpl := by
  unfold State.busError
  dsimp only
  rw [State.emit_xpl, State.ist_xpl, State.errPage_xpl, State.errLast_xpl, State.errFirst_xpl]
@[simp] theorem State.busError_dram (s : State) (i : Initiator) (w : Bool) (bar off c : Nat) : (s.busError i w bar off c).dram = s.dram := by
  unfold State.busError
  dsimp only
  rw [State.emit_dram, State.ist_dram, State.errPage_dram, State.errLast_dram, State.errFirst_dram]
@[simp] theorem State.busError_mram (s : State) (i : Initiator) (w : Bool) (bar off c : Nat) : (s.busError i w bar off c).mram = s.mram := by
  unfold State.busError
  dsimp only
  rw [State.emit_mram, State.ist_mram, State.errPage_mram, State.errLast_mram, State.errFirst_mram]
@[simp] theorem State.busError_lsram (s : State) (i : Initiator) (w : Bool) (bar off c : Nat) : (s.busError i w bar off c).lsram = s.lsram := by
  unfold State.busError
  dsimp only
  rw [State.emit_lsram, State.ist_lsram, State.errPage_lsram, State.errLast_lsram, State.errFirst_lsram]
@[simp] theorem State.busError_hmem (s : State) (i : Initiator) (w : Bool) (bar off c : Nat) : (s.busError i w bar off c).hmem = s.hmem := by
  unfold State.busError
  dsimp only
  rw [State.emit_hmem, State.ist_hmem, State.errPage_hmem, State.errLast_hmem, State.errFirst_hmem]
@[simp] theorem State.busError_vecMask (s : State) (i : Initiator) (w : Bool) (bar off c : Nat) : (s.busError i w bar off c).vecMask = s.vecMask := by
  unfold State.busError
  dsimp only
  rw [State.emit_vecMask, State.ist_vecMask, State.errPage_vecMask, State.errLast_vecMask, State.errFirst_vecMask]
@[simp] theorem State.busError_can (s : State) (i : Initiator) (w : Bool) (bar off c : Nat) : (s.busError i w bar off c).can = s.can := by
  unfold State.busError
  dsimp only
  rw [State.emit_can, State.ist_can, State.errPage_can, State.errLast_can, State.errFirst_can]
@[simp] theorem State.busError_prv (s : State) (i : Initiator) (w : Bool) (bar off c : Nat) : (s.busError i w bar off c).prv = s.prv := by
  unfold State.busError
  dsimp only
  rw [State.emit_prv, State.ist_prv, State.errPage_prv, State.errLast_prv, State.errFirst_prv]
@[simp] theorem State.busError_clm (s : State) (i : Initiator) (w : Bool) (bar off c : Nat) : (s.busError i w bar off c).clm = s.clm := by
  unfold State.busError
  dsimp only
  rw [State.emit_clm, State.ist_clm, State.errPage_clm, State.errLast_clm, State.errFirst_clm]
@[simp] theorem State.busError_tpe (s : State) (i : Initiator) (w : Bool) (bar off c : Nat) : (s.busError i w bar off c).tpe = s.tpe := by
  unfold State.busError
  dsimp only
  rw [State.emit_tpe, State.ist_tpe, State.errPage_tpe, State.errLast_tpe, State.errFirst_tpe]
@[simp] theorem State.busError_swIn (s : State) (i : Initiator) (w : Bool) (bar off c : Nat) : (s.busError i w bar off c).swIn = s.swIn := by
  unfold State.busError
  dsimp only
  rw [State.emit_swIn, State.ist_swIn, State.errPage_swIn, State.errLast_swIn, State.errFirst_swIn]
@[simp] theorem State.busError_sw (s : State) (i : Initiator) (w : Bool) (bar off c : Nat) : (s.busError i w bar off c).sw = s.sw := by
  unfold State.busError
  dsimp only
  rw [State.emit_sw, State.ist_sw, State.errPage_sw, State.errLast_sw, State.errFirst_sw]
@[simp] theorem State.busError_emac (s : State) (i : Initiator) (w : Bool) (bar off c : Nat) : (s.busError i w bar off c).emac = s.emac := by
  unfold State.busError
  dsimp only
  rw [State.emit_emac, State.ist_emac, State.errPage_emac, State.errLast_emac, State.errFirst_emac]
@[simp] theorem State.busError_rtc (s : State) (i : Initiator) (w : Bool) (bar off c : Nat) : (s.busError i w bar off c).rtc = s.rtc := by
  unfold State.busError
  dsimp only
  rw [State.emit_rtc, State.ist_rtc, State.errPage_rtc, State.errLast_rtc, State.errFirst_rtc]
@[simp] theorem State.busError_rtcAcc (s : State) (i : Initiator) (w : Bool) (bar off c : Nat) : (s.busError i w bar off c).rtcAcc = s.rtcAcc := by
  unfold State.busError
  dsimp only
  rw [State.emit_rtcAcc, State.ist_rtcAcc, State.errPage_rtcAcc, State.errLast_rtcAcc, State.errFirst_rtcAcc]
@[simp] theorem State.busError_cauth (s : State) (i : Initiator) (w : Bool) (bar off c : Nat) : (s.busError i w bar off c).cauth = s.cauth := by
  unfold State.busError
  dsimp only
  rw [State.emit_cauth, State.ist_cauth, State.errPage_cauth, State.errLast_cauth, State.errFirst_cauth]
@[simp] theorem State.busError_fresh (s : State) (i : Initiator) (w : Bool) (bar off c : Nat) : (s.busError i w bar off c).fresh = s.fresh := by
  unfold State.busError
  dsimp only
  rw [State.emit_fresh, State.ist_fresh, State.errPage_fresh, State.errLast_fresh, State.errFirst_fresh]
@[simp] theorem State.busError_cry (s : State) (i : Initiator) (w : Bool) (bar off c : Nat) : (s.busError i w bar off c).cry = s.cry := by
  unfold State.busError
  dsimp only
  rw [State.emit_cry, State.ist_cry, State.errPage_cry, State.errLast_cry, State.errFirst_cry]
@[simp] theorem State.busError_yew (s : State) (i : Initiator) (w : Bool) (bar off c : Nat) : (s.busError i w bar off c).yew = s.yew := by
  unfold State.busError
  dsimp only
  rw [State.emit_yew, State.ist_yew, State.errPage_yew, State.errLast_yew, State.errFirst_yew]
@[simp] theorem State.busError_hq (s : State) (i : Initiator) (w : Bool) (bar off c : Nat) : (s.busError i w bar off c).hq = s.hq := by
  unfold State.busError
  dsimp only
  rw [State.emit_hq, State.ist_hq, State.errPage_hq, State.errLast_hq, State.errFirst_hq]
@[simp] theorem State.busError_hqReset (s : State) (i : Initiator) (w : Bool) (bar off c : Nat) : (s.busError i w bar off c).hqReset = s.hqReset := by
  unfold State.busError
  dsimp only
  rw [State.emit_hqReset, State.ist_hqReset, State.errPage_hqReset, State.errLast_hqReset, State.errFirst_hqReset]
@[simp] theorem State.busError_bme (s : State) (i : Initiator) (w : Bool) (bar off c : Nat) : (s.busError i w bar off c).bme = s.bme := by
  unfold State.busError
  dsimp only
  rw [State.emit_bme, State.ist_bme, State.errPage_bme, State.errLast_bme, State.errFirst_bme]
@[simp] theorem State.busError_d3 (s : State) (i : Initiator) (w : Bool) (bar off c : Nat) : (s.busError i w bar off c).d3 = s.d3 := by
  unfold State.busError
  dsimp only
  rw [State.emit_d3, State.ist_d3, State.errPage_d3, State.errLast_d3, State.errFirst_d3]
@[simp] theorem State.busError_pair (s : State) (i : Initiator) (w : Bool) (bar off c : Nat) : (s.busError i w bar off c).pair = s.pair := by
  unfold State.busError
  dsimp only
  rw [State.emit_pair, State.ist_pair, State.errPage_pair, State.errLast_pair, State.errFirst_pair]
@[simp] theorem State.busError_obs (s : State) (i : Initiator) (w : Bool) (bar off c : Nat) : (s.busError i w bar off c).obs = s.obs := by
  unfold State.busError
  dsimp only
  rw [State.emit_obs, State.ist_obs, State.errPage_obs, State.errLast_obs, State.errFirst_obs]
@[simp] theorem State.busError_mono (s : State) (i : Initiator) (w : Bool) (bar off c : Nat) : (s.busError i w bar off c).mono = s.mono := by
  unfold State.busError
  dsimp only
  rw [State.emit_mono, State.ist_mono, State.errPage_mono, State.errLast_mono, State.errFirst_mono]
@[simp] theorem State.busError_pwr (s : State) (i : Initiator) (w : Bool) (bar off c : Nat) : (s.busError i w bar off c).pwr = s.pwr := by
  unfold State.busError
  dsimp only
  rw [State.emit_pwr, State.ist_pwr, State.errPage_pwr, State.errLast_pwr, State.errFirst_pwr]
@[simp] theorem State.busError_wkn (s : State) (i : Initiator) (w : Bool) (bar off c : Nat) : (s.busError i w bar off c).wkn = s.wkn := by
  unfold State.busError
  dsimp only
  rw [State.emit_wkn, State.ist_wkn, State.errPage_wkn, State.errLast_wkn, State.errFirst_wkn]
@[simp] theorem State.busError_boot (s : State) (i : Initiator) (w : Bool) (bar off c : Nat) : (s.busError i w bar off c).boot = s.boot := by
  unfold State.busError
  dsimp only
  rw [State.emit_boot, State.ist_boot, State.errPage_boot, State.errLast_boot, State.errFirst_boot]
@[simp] theorem State.busError_lrl (s : State) (i : Initiator) (w : Bool) (bar off c : Nat) : (s.busError i w bar off c).lrl = s.lrl := by
  unfold State.busError
  dsimp only
  rw [State.emit_lrl, State.ist_lrl, State.errPage_lrl, State.errLast_lrl, State.errFirst_lrl]
@[simp] theorem State.busError_fwu (s : State) (i : Initiator) (w : Bool) (bar off c : Nat) : (s.busError i w bar off c).fwu = s.fwu := by
  unfold State.busError
  dsimp only
  rw [State.emit_fwu, State.ist_fwu, State.errPage_fwu, State.errLast_fwu, State.errFirst_fwu]
@[simp] theorem State.busError_qspi (s : State) (i : Initiator) (w : Bool) (bar off c : Nat) : (s.busError i w bar off c).qspi = s.qspi := by
  unfold State.busError
  dsimp only
  rw [State.emit_qspi, State.ist_qspi, State.errPage_qspi, State.errLast_qspi, State.errFirst_qspi]
@[simp] theorem State.busError_chan (s : State) (i : Initiator) (w : Bool) (bar off c : Nat) : (s.busError i w bar off c).chan = s.chan := by
  unfold State.busError
  dsimp only
  rw [State.emit_chan, State.ist_chan, State.errPage_chan, State.errLast_chan, State.errFirst_chan]
@[simp] theorem State.busError_arb (s : State) (i : Initiator) (w : Bool) (bar off c : Nat) : (s.busError i w bar off c).arb = s.arb := by
  unfold State.busError
  dsimp only
  rw [State.emit_arb, State.ist_arb, State.errPage_arb, State.errLast_arb, State.errFirst_arb]

/-! State.obsPush. -/

@[simp] theorem State.obsPush_pending (s : State) (r : List Byte) : (s.obsPush r).pending = s.pending := by
  unfold State.obsPush
  split
  · rfl
  · rw [State.ist_pending, State.bumpSat_pending]
    rfl
@[simp] theorem State.obsPush_freeN (s : State) (r : List Byte) : (s.obsPush r).freeN = s.freeN := by
  unfold State.obsPush
  split
  · rfl
  · rw [State.ist_freeN, State.bumpSat_freeN]
    rfl
@[simp] theorem State.obsPush_shadow (s : State) (r : List Byte) : (s.obsPush r).shadow = s.shadow := by
  unfold State.obsPush
  split
  · rfl
  · rw [State.ist_shadow, State.bumpSat_shadow]
    rfl
@[simp] theorem State.obsPush_prev (s : State) (r : List Byte) : (s.obsPush r).prev = s.prev := by
  unfold State.obsPush
  split
  · rfl
  · rw [State.ist_prev, State.bumpSat_prev]
    rfl
@[simp] theorem State.obsPush_tab (s : State) (r : List Byte) : (s.obsPush r).tab = s.tab := by
  unfold State.obsPush
  split
  · rfl
  · rw [State.ist_tab, State.bumpSat_tab]
    rfl
@[simp] theorem State.obsPush_bus (s : State) (r : List Byte) : (s.obsPush r).bus = s.bus := by
  unfold State.obsPush
  split
  · rfl
  · rw [State.ist_bus, State.bumpSat_bus]
    rfl
@[simp] theorem State.obsPush_cmt (s : State) (r : List Byte) : (s.obsPush r).cmt = s.cmt := by
  unfold State.obsPush
  split
  · rfl
  · rw [State.ist_cmt, State.bumpSat_cmt]
    rfl
@[simp] theorem State.obsPush_tsy (s : State) (r : List Byte) : (s.obsPush r).tsy = s.tsy := by
  unfold State.obsPush
  split
  · rfl
  · rw [State.ist_tsy, State.bumpSat_tsy]
    rfl
@[simp] theorem State.obsPush_xpl (s : State) (r : List Byte) : (s.obsPush r).xpl = s.xpl := by
  unfold State.obsPush
  split
  · rfl
  · rw [State.ist_xpl, State.bumpSat_xpl]
    rfl
@[simp] theorem State.obsPush_dram (s : State) (r : List Byte) : (s.obsPush r).dram = s.dram := by
  unfold State.obsPush
  split
  · rfl
  · rw [State.ist_dram, State.bumpSat_dram]
    rfl
@[simp] theorem State.obsPush_mram (s : State) (r : List Byte) : (s.obsPush r).mram = s.mram := by
  unfold State.obsPush
  split
  · rfl
  · rw [State.ist_mram, State.bumpSat_mram]
    rfl
@[simp] theorem State.obsPush_lsram (s : State) (r : List Byte) : (s.obsPush r).lsram = s.lsram := by
  unfold State.obsPush
  split
  · rfl
  · rw [State.ist_lsram, State.bumpSat_lsram]
    rfl
@[simp] theorem State.obsPush_hmem (s : State) (r : List Byte) : (s.obsPush r).hmem = s.hmem := by
  unfold State.obsPush
  split
  · rfl
  · rw [State.ist_hmem, State.bumpSat_hmem]
    rfl
@[simp] theorem State.obsPush_vecMask (s : State) (r : List Byte) : (s.obsPush r).vecMask = s.vecMask := by
  unfold State.obsPush
  split
  · rfl
  · rw [State.ist_vecMask, State.bumpSat_vecMask]
    rfl
@[simp] theorem State.obsPush_can (s : State) (r : List Byte) : (s.obsPush r).can = s.can := by
  unfold State.obsPush
  split
  · rfl
  · rw [State.ist_can, State.bumpSat_can]
    rfl
@[simp] theorem State.obsPush_prv (s : State) (r : List Byte) : (s.obsPush r).prv = s.prv := by
  unfold State.obsPush
  split
  · rfl
  · rw [State.ist_prv, State.bumpSat_prv]
    rfl
@[simp] theorem State.obsPush_clm (s : State) (r : List Byte) : (s.obsPush r).clm = s.clm := by
  unfold State.obsPush
  split
  · rfl
  · rw [State.ist_clm, State.bumpSat_clm]
    rfl
@[simp] theorem State.obsPush_tpe (s : State) (r : List Byte) : (s.obsPush r).tpe = s.tpe := by
  unfold State.obsPush
  split
  · rfl
  · rw [State.ist_tpe, State.bumpSat_tpe]
    rfl
@[simp] theorem State.obsPush_swIn (s : State) (r : List Byte) : (s.obsPush r).swIn = s.swIn := by
  unfold State.obsPush
  split
  · rfl
  · rw [State.ist_swIn, State.bumpSat_swIn]
    rfl
@[simp] theorem State.obsPush_sw (s : State) (r : List Byte) : (s.obsPush r).sw = s.sw := by
  unfold State.obsPush
  split
  · rfl
  · rw [State.ist_sw, State.bumpSat_sw]
    rfl
@[simp] theorem State.obsPush_emac (s : State) (r : List Byte) : (s.obsPush r).emac = s.emac := by
  unfold State.obsPush
  split
  · rfl
  · rw [State.ist_emac, State.bumpSat_emac]
    rfl
@[simp] theorem State.obsPush_rtc (s : State) (r : List Byte) : (s.obsPush r).rtc = s.rtc := by
  unfold State.obsPush
  split
  · rfl
  · rw [State.ist_rtc, State.bumpSat_rtc]
    rfl
@[simp] theorem State.obsPush_rtcAcc (s : State) (r : List Byte) : (s.obsPush r).rtcAcc = s.rtcAcc := by
  unfold State.obsPush
  split
  · rfl
  · rw [State.ist_rtcAcc, State.bumpSat_rtcAcc]
    rfl
@[simp] theorem State.obsPush_cauth (s : State) (r : List Byte) : (s.obsPush r).cauth = s.cauth := by
  unfold State.obsPush
  split
  · rfl
  · rw [State.ist_cauth, State.bumpSat_cauth]
    rfl
@[simp] theorem State.obsPush_fresh (s : State) (r : List Byte) : (s.obsPush r).fresh = s.fresh := by
  unfold State.obsPush
  split
  · rfl
  · rw [State.ist_fresh, State.bumpSat_fresh]
    rfl
@[simp] theorem State.obsPush_cry (s : State) (r : List Byte) : (s.obsPush r).cry = s.cry := by
  unfold State.obsPush
  split
  · rfl
  · rw [State.ist_cry, State.bumpSat_cry]
    rfl
@[simp] theorem State.obsPush_yew (s : State) (r : List Byte) : (s.obsPush r).yew = s.yew := by
  unfold State.obsPush
  split
  · rfl
  · rw [State.ist_yew, State.bumpSat_yew]
    rfl
@[simp] theorem State.obsPush_hq (s : State) (r : List Byte) : (s.obsPush r).hq = s.hq := by
  unfold State.obsPush
  split
  · rfl
  · rw [State.ist_hq, State.bumpSat_hq]
    rfl
@[simp] theorem State.obsPush_hqReset (s : State) (r : List Byte) : (s.obsPush r).hqReset = s.hqReset := by
  unfold State.obsPush
  split
  · rfl
  · rw [State.ist_hqReset, State.bumpSat_hqReset]
    rfl
@[simp] theorem State.obsPush_bme (s : State) (r : List Byte) : (s.obsPush r).bme = s.bme := by
  unfold State.obsPush
  split
  · rfl
  · rw [State.ist_bme, State.bumpSat_bme]
    rfl
@[simp] theorem State.obsPush_d3 (s : State) (r : List Byte) : (s.obsPush r).d3 = s.d3 := by
  unfold State.obsPush
  split
  · rfl
  · rw [State.ist_d3, State.bumpSat_d3]
    rfl
@[simp] theorem State.obsPush_pair (s : State) (r : List Byte) : (s.obsPush r).pair = s.pair := by
  unfold State.obsPush
  split
  · rfl
  · rw [State.ist_pair, State.bumpSat_pair]
    rfl
@[simp] theorem State.obsPush_mono (s : State) (r : List Byte) : (s.obsPush r).mono = s.mono := by
  unfold State.obsPush
  split
  · rfl
  · rw [State.ist_mono, State.bumpSat_mono]
    rfl
@[simp] theorem State.obsPush_pwr (s : State) (r : List Byte) : (s.obsPush r).pwr = s.pwr := by
  unfold State.obsPush
  split
  · rfl
  · rw [State.ist_pwr, State.bumpSat_pwr]
    rfl
@[simp] theorem State.obsPush_wkn (s : State) (r : List Byte) : (s.obsPush r).wkn = s.wkn := by
  unfold State.obsPush
  split
  · rfl
  · rw [State.ist_wkn, State.bumpSat_wkn]
    rfl
@[simp] theorem State.obsPush_boot (s : State) (r : List Byte) : (s.obsPush r).boot = s.boot := by
  unfold State.obsPush
  split
  · rfl
  · rw [State.ist_boot, State.bumpSat_boot]
    rfl
@[simp] theorem State.obsPush_lrl (s : State) (r : List Byte) : (s.obsPush r).lrl = s.lrl := by
  unfold State.obsPush
  split
  · rfl
  · rw [State.ist_lrl, State.bumpSat_lrl]
    rfl
@[simp] theorem State.obsPush_fwu (s : State) (r : List Byte) : (s.obsPush r).fwu = s.fwu := by
  unfold State.obsPush
  split
  · rfl
  · rw [State.ist_fwu, State.bumpSat_fwu]
    rfl
@[simp] theorem State.obsPush_qspi (s : State) (r : List Byte) : (s.obsPush r).qspi = s.qspi := by
  unfold State.obsPush
  split
  · rfl
  · rw [State.ist_qspi, State.bumpSat_qspi]
    rfl
@[simp] theorem State.obsPush_chan (s : State) (r : List Byte) : (s.obsPush r).chan = s.chan := by
  unfold State.obsPush
  split
  · rfl
  · rw [State.ist_chan, State.bumpSat_chan]
    rfl
@[simp] theorem State.obsPush_arb (s : State) (r : List Byte) : (s.obsPush r).arb = s.arb := by
  unfold State.obsPush
  split
  · rfl
  · rw [State.ist_arb, State.bumpSat_arb]
    rfl

/-! State.trace. -/

@[simp] theorem State.trace_pending (s : State) (y c : Nat) (l : List Byte) : (s.trace y c l).pending = s.pending := by
  unfold State.trace
  split
  · exact State.obsPush_pending _ _
  · rfl
@[simp] theorem State.trace_freeN (s : State) (y c : Nat) (l : List Byte) : (s.trace y c l).freeN = s.freeN := by
  unfold State.trace
  split
  · exact State.obsPush_freeN _ _
  · rfl
@[simp] theorem State.trace_shadow (s : State) (y c : Nat) (l : List Byte) : (s.trace y c l).shadow = s.shadow := by
  unfold State.trace
  split
  · exact State.obsPush_shadow _ _
  · rfl
@[simp] theorem State.trace_prev (s : State) (y c : Nat) (l : List Byte) : (s.trace y c l).prev = s.prev := by
  unfold State.trace
  split
  · exact State.obsPush_prev _ _
  · rfl
@[simp] theorem State.trace_tab (s : State) (y c : Nat) (l : List Byte) : (s.trace y c l).tab = s.tab := by
  unfold State.trace
  split
  · exact State.obsPush_tab _ _
  · rfl
@[simp] theorem State.trace_bus (s : State) (y c : Nat) (l : List Byte) : (s.trace y c l).bus = s.bus := by
  unfold State.trace
  split
  · exact State.obsPush_bus _ _
  · rfl
@[simp] theorem State.trace_cmt (s : State) (y c : Nat) (l : List Byte) : (s.trace y c l).cmt = s.cmt := by
  unfold State.trace
  split
  · exact State.obsPush_cmt _ _
  · rfl
@[simp] theorem State.trace_tsy (s : State) (y c : Nat) (l : List Byte) : (s.trace y c l).tsy = s.tsy := by
  unfold State.trace
  split
  · exact State.obsPush_tsy _ _
  · rfl
@[simp] theorem State.trace_xpl (s : State) (y c : Nat) (l : List Byte) : (s.trace y c l).xpl = s.xpl := by
  unfold State.trace
  split
  · exact State.obsPush_xpl _ _
  · rfl
@[simp] theorem State.trace_dram (s : State) (y c : Nat) (l : List Byte) : (s.trace y c l).dram = s.dram := by
  unfold State.trace
  split
  · exact State.obsPush_dram _ _
  · rfl
@[simp] theorem State.trace_mram (s : State) (y c : Nat) (l : List Byte) : (s.trace y c l).mram = s.mram := by
  unfold State.trace
  split
  · exact State.obsPush_mram _ _
  · rfl
@[simp] theorem State.trace_lsram (s : State) (y c : Nat) (l : List Byte) : (s.trace y c l).lsram = s.lsram := by
  unfold State.trace
  split
  · exact State.obsPush_lsram _ _
  · rfl
@[simp] theorem State.trace_hmem (s : State) (y c : Nat) (l : List Byte) : (s.trace y c l).hmem = s.hmem := by
  unfold State.trace
  split
  · exact State.obsPush_hmem _ _
  · rfl
@[simp] theorem State.trace_vecMask (s : State) (y c : Nat) (l : List Byte) : (s.trace y c l).vecMask = s.vecMask := by
  unfold State.trace
  split
  · exact State.obsPush_vecMask _ _
  · rfl
@[simp] theorem State.trace_can (s : State) (y c : Nat) (l : List Byte) : (s.trace y c l).can = s.can := by
  unfold State.trace
  split
  · exact State.obsPush_can _ _
  · rfl
@[simp] theorem State.trace_prv (s : State) (y c : Nat) (l : List Byte) : (s.trace y c l).prv = s.prv := by
  unfold State.trace
  split
  · exact State.obsPush_prv _ _
  · rfl
@[simp] theorem State.trace_clm (s : State) (y c : Nat) (l : List Byte) : (s.trace y c l).clm = s.clm := by
  unfold State.trace
  split
  · exact State.obsPush_clm _ _
  · rfl
@[simp] theorem State.trace_tpe (s : State) (y c : Nat) (l : List Byte) : (s.trace y c l).tpe = s.tpe := by
  unfold State.trace
  split
  · exact State.obsPush_tpe _ _
  · rfl
@[simp] theorem State.trace_swIn (s : State) (y c : Nat) (l : List Byte) : (s.trace y c l).swIn = s.swIn := by
  unfold State.trace
  split
  · exact State.obsPush_swIn _ _
  · rfl
@[simp] theorem State.trace_sw (s : State) (y c : Nat) (l : List Byte) : (s.trace y c l).sw = s.sw := by
  unfold State.trace
  split
  · exact State.obsPush_sw _ _
  · rfl
@[simp] theorem State.trace_emac (s : State) (y c : Nat) (l : List Byte) : (s.trace y c l).emac = s.emac := by
  unfold State.trace
  split
  · exact State.obsPush_emac _ _
  · rfl
@[simp] theorem State.trace_rtc (s : State) (y c : Nat) (l : List Byte) : (s.trace y c l).rtc = s.rtc := by
  unfold State.trace
  split
  · exact State.obsPush_rtc _ _
  · rfl
@[simp] theorem State.trace_rtcAcc (s : State) (y c : Nat) (l : List Byte) : (s.trace y c l).rtcAcc = s.rtcAcc := by
  unfold State.trace
  split
  · exact State.obsPush_rtcAcc _ _
  · rfl
@[simp] theorem State.trace_cauth (s : State) (y c : Nat) (l : List Byte) : (s.trace y c l).cauth = s.cauth := by
  unfold State.trace
  split
  · exact State.obsPush_cauth _ _
  · rfl
@[simp] theorem State.trace_fresh (s : State) (y c : Nat) (l : List Byte) : (s.trace y c l).fresh = s.fresh := by
  unfold State.trace
  split
  · exact State.obsPush_fresh _ _
  · rfl
@[simp] theorem State.trace_cry (s : State) (y c : Nat) (l : List Byte) : (s.trace y c l).cry = s.cry := by
  unfold State.trace
  split
  · exact State.obsPush_cry _ _
  · rfl
@[simp] theorem State.trace_yew (s : State) (y c : Nat) (l : List Byte) : (s.trace y c l).yew = s.yew := by
  unfold State.trace
  split
  · exact State.obsPush_yew _ _
  · rfl
@[simp] theorem State.trace_hq (s : State) (y c : Nat) (l : List Byte) : (s.trace y c l).hq = s.hq := by
  unfold State.trace
  split
  · exact State.obsPush_hq _ _
  · rfl
@[simp] theorem State.trace_hqReset (s : State) (y c : Nat) (l : List Byte) : (s.trace y c l).hqReset = s.hqReset := by
  unfold State.trace
  split
  · exact State.obsPush_hqReset _ _
  · rfl
@[simp] theorem State.trace_bme (s : State) (y c : Nat) (l : List Byte) : (s.trace y c l).bme = s.bme := by
  unfold State.trace
  split
  · exact State.obsPush_bme _ _
  · rfl
@[simp] theorem State.trace_d3 (s : State) (y c : Nat) (l : List Byte) : (s.trace y c l).d3 = s.d3 := by
  unfold State.trace
  split
  · exact State.obsPush_d3 _ _
  · rfl
@[simp] theorem State.trace_pair (s : State) (y c : Nat) (l : List Byte) : (s.trace y c l).pair = s.pair := by
  unfold State.trace
  split
  · exact State.obsPush_pair _ _
  · rfl
@[simp] theorem State.trace_mono (s : State) (y c : Nat) (l : List Byte) : (s.trace y c l).mono = s.mono := by
  unfold State.trace
  split
  · exact State.obsPush_mono _ _
  · rfl
@[simp] theorem State.trace_pwr (s : State) (y c : Nat) (l : List Byte) : (s.trace y c l).pwr = s.pwr := by
  unfold State.trace
  split
  · exact State.obsPush_pwr _ _
  · rfl
@[simp] theorem State.trace_wkn (s : State) (y c : Nat) (l : List Byte) : (s.trace y c l).wkn = s.wkn := by
  unfold State.trace
  split
  · exact State.obsPush_wkn _ _
  · rfl
@[simp] theorem State.trace_boot (s : State) (y c : Nat) (l : List Byte) : (s.trace y c l).boot = s.boot := by
  unfold State.trace
  split
  · exact State.obsPush_boot _ _
  · rfl
@[simp] theorem State.trace_lrl (s : State) (y c : Nat) (l : List Byte) : (s.trace y c l).lrl = s.lrl := by
  unfold State.trace
  split
  · exact State.obsPush_lrl _ _
  · rfl
@[simp] theorem State.trace_fwu (s : State) (y c : Nat) (l : List Byte) : (s.trace y c l).fwu = s.fwu := by
  unfold State.trace
  split
  · exact State.obsPush_fwu _ _
  · rfl
@[simp] theorem State.trace_qspi (s : State) (y c : Nat) (l : List Byte) : (s.trace y c l).qspi = s.qspi := by
  unfold State.trace
  split
  · exact State.obsPush_qspi _ _
  · rfl
@[simp] theorem State.trace_chan (s : State) (y c : Nat) (l : List Byte) : (s.trace y c l).chan = s.chan := by
  unfold State.trace
  split
  · exact State.obsPush_chan _ _
  · rfl
@[simp] theorem State.trace_arb (s : State) (y c : Nat) (l : List Byte) : (s.trace y c l).arb = s.arb := by
  unfold State.trace
  split
  · exact State.obsPush_arb _ _
  · rfl

/-! State.pairSend. -/

@[simp] theorem State.pairSend_pending (s : State) (y p : Nat) (l : List Byte) : (s.pairSend y p l).pending = s.pending := by
  unfold State.pairSend
  split <;> rfl
@[simp] theorem State.pairSend_freeN (s : State) (y p : Nat) (l : List Byte) : (s.pairSend y p l).freeN = s.freeN := by
  unfold State.pairSend
  split <;> rfl
@[simp] theorem State.pairSend_regs (s : State) (y p : Nat) (l : List Byte) : (s.pairSend y p l).regs = s.regs := by
  unfold State.pairSend
  split <;> rfl
@[simp] theorem State.pairSend_shadow (s : State) (y p : Nat) (l : List Byte) : (s.pairSend y p l).shadow = s.shadow := by
  unfold State.pairSend
  split <;> rfl
@[simp] theorem State.pairSend_prev (s : State) (y p : Nat) (l : List Byte) : (s.pairSend y p l).prev = s.prev := by
  unfold State.pairSend
  split <;> rfl
@[simp] theorem State.pairSend_tab (s : State) (y p : Nat) (l : List Byte) : (s.pairSend y p l).tab = s.tab := by
  unfold State.pairSend
  split <;> rfl
@[simp] theorem State.pairSend_bus (s : State) (y p : Nat) (l : List Byte) : (s.pairSend y p l).bus = s.bus := by
  unfold State.pairSend
  split <;> rfl
@[simp] theorem State.pairSend_cmt (s : State) (y p : Nat) (l : List Byte) : (s.pairSend y p l).cmt = s.cmt := by
  unfold State.pairSend
  split <;> rfl
@[simp] theorem State.pairSend_tsy (s : State) (y p : Nat) (l : List Byte) : (s.pairSend y p l).tsy = s.tsy := by
  unfold State.pairSend
  split <;> rfl
@[simp] theorem State.pairSend_xpl (s : State) (y p : Nat) (l : List Byte) : (s.pairSend y p l).xpl = s.xpl := by
  unfold State.pairSend
  split <;> rfl
@[simp] theorem State.pairSend_dram (s : State) (y p : Nat) (l : List Byte) : (s.pairSend y p l).dram = s.dram := by
  unfold State.pairSend
  split <;> rfl
@[simp] theorem State.pairSend_mram (s : State) (y p : Nat) (l : List Byte) : (s.pairSend y p l).mram = s.mram := by
  unfold State.pairSend
  split <;> rfl
@[simp] theorem State.pairSend_lsram (s : State) (y p : Nat) (l : List Byte) : (s.pairSend y p l).lsram = s.lsram := by
  unfold State.pairSend
  split <;> rfl
@[simp] theorem State.pairSend_hmem (s : State) (y p : Nat) (l : List Byte) : (s.pairSend y p l).hmem = s.hmem := by
  unfold State.pairSend
  split <;> rfl
@[simp] theorem State.pairSend_levels (s : State) (y p : Nat) (l : List Byte) : (s.pairSend y p l).levels = s.levels := by
  unfold State.pairSend
  split <;> rfl
@[simp] theorem State.pairSend_vecMask (s : State) (y p : Nat) (l : List Byte) : (s.pairSend y p l).vecMask = s.vecMask := by
  unfold State.pairSend
  split <;> rfl
@[simp] theorem State.pairSend_pba (s : State) (y p : Nat) (l : List Byte) : (s.pairSend y p l).pba = s.pba := by
  unfold State.pairSend
  split <;> rfl
@[simp] theorem State.pairSend_can (s : State) (y p : Nat) (l : List Byte) : (s.pairSend y p l).can = s.can := by
  unfold State.pairSend
  split <;> rfl
@[simp] theorem State.pairSend_prv (s : State) (y p : Nat) (l : List Byte) : (s.pairSend y p l).prv = s.prv := by
  unfold State.pairSend
  split <;> rfl
@[simp] theorem State.pairSend_clm (s : State) (y p : Nat) (l : List Byte) : (s.pairSend y p l).clm = s.clm := by
  unfold State.pairSend
  split <;> rfl
@[simp] theorem State.pairSend_tpe (s : State) (y p : Nat) (l : List Byte) : (s.pairSend y p l).tpe = s.tpe := by
  unfold State.pairSend
  split <;> rfl
@[simp] theorem State.pairSend_swIn (s : State) (y p : Nat) (l : List Byte) : (s.pairSend y p l).swIn = s.swIn := by
  unfold State.pairSend
  split <;> rfl
@[simp] theorem State.pairSend_sw (s : State) (y p : Nat) (l : List Byte) : (s.pairSend y p l).sw = s.sw := by
  unfold State.pairSend
  split <;> rfl
@[simp] theorem State.pairSend_emac (s : State) (y p : Nat) (l : List Byte) : (s.pairSend y p l).emac = s.emac := by
  unfold State.pairSend
  split <;> rfl
@[simp] theorem State.pairSend_rtc (s : State) (y p : Nat) (l : List Byte) : (s.pairSend y p l).rtc = s.rtc := by
  unfold State.pairSend
  split <;> rfl
@[simp] theorem State.pairSend_rtcAcc (s : State) (y p : Nat) (l : List Byte) : (s.pairSend y p l).rtcAcc = s.rtcAcc := by
  unfold State.pairSend
  split <;> rfl
@[simp] theorem State.pairSend_cauth (s : State) (y p : Nat) (l : List Byte) : (s.pairSend y p l).cauth = s.cauth := by
  unfold State.pairSend
  split <;> rfl
@[simp] theorem State.pairSend_fresh (s : State) (y p : Nat) (l : List Byte) : (s.pairSend y p l).fresh = s.fresh := by
  unfold State.pairSend
  split <;> rfl
@[simp] theorem State.pairSend_cry (s : State) (y p : Nat) (l : List Byte) : (s.pairSend y p l).cry = s.cry := by
  unfold State.pairSend
  split <;> rfl
@[simp] theorem State.pairSend_yew (s : State) (y p : Nat) (l : List Byte) : (s.pairSend y p l).yew = s.yew := by
  unfold State.pairSend
  split <;> rfl
@[simp] theorem State.pairSend_hq (s : State) (y p : Nat) (l : List Byte) : (s.pairSend y p l).hq = s.hq := by
  unfold State.pairSend
  split <;> rfl
@[simp] theorem State.pairSend_hqReset (s : State) (y p : Nat) (l : List Byte) : (s.pairSend y p l).hqReset = s.hqReset := by
  unfold State.pairSend
  split <;> rfl
@[simp] theorem State.pairSend_bme (s : State) (y p : Nat) (l : List Byte) : (s.pairSend y p l).bme = s.bme := by
  unfold State.pairSend
  split <;> rfl
@[simp] theorem State.pairSend_d3 (s : State) (y p : Nat) (l : List Byte) : (s.pairSend y p l).d3 = s.d3 := by
  unfold State.pairSend
  split <;> rfl
@[simp] theorem State.pairSend_obs (s : State) (y p : Nat) (l : List Byte) : (s.pairSend y p l).obs = s.obs := by
  unfold State.pairSend
  split <;> rfl
@[simp] theorem State.pairSend_mono (s : State) (y p : Nat) (l : List Byte) : (s.pairSend y p l).mono = s.mono := by
  unfold State.pairSend
  split <;> rfl
@[simp] theorem State.pairSend_pwr (s : State) (y p : Nat) (l : List Byte) : (s.pairSend y p l).pwr = s.pwr := by
  unfold State.pairSend
  split <;> rfl
@[simp] theorem State.pairSend_wkn (s : State) (y p : Nat) (l : List Byte) : (s.pairSend y p l).wkn = s.wkn := by
  unfold State.pairSend
  split <;> rfl
@[simp] theorem State.pairSend_boot (s : State) (y p : Nat) (l : List Byte) : (s.pairSend y p l).boot = s.boot := by
  unfold State.pairSend
  split <;> rfl
@[simp] theorem State.pairSend_lrl (s : State) (y p : Nat) (l : List Byte) : (s.pairSend y p l).lrl = s.lrl := by
  unfold State.pairSend
  split <;> rfl
@[simp] theorem State.pairSend_fwu (s : State) (y p : Nat) (l : List Byte) : (s.pairSend y p l).fwu = s.fwu := by
  unfold State.pairSend
  split <;> rfl
@[simp] theorem State.pairSend_qspi (s : State) (y p : Nat) (l : List Byte) : (s.pairSend y p l).qspi = s.qspi := by
  unfold State.pairSend
  split <;> rfl
@[simp] theorem State.pairSend_chan (s : State) (y p : Nat) (l : List Byte) : (s.pairSend y p l).chan = s.chan := by
  unfold State.pairSend
  split <;> rfl
@[simp] theorem State.pairSend_arb (s : State) (y p : Nat) (l : List Byte) : (s.pairSend y p l).arb = s.arb := by
  unfold State.pairSend
  split <;> rfl

/-! Registers. -/

@[simp] theorem State.rd_syncVec (s : State) (v a : Nat) : (s.syncVec v).rd a = s.rd a := s.rd_congr (by simp) a

@[simp] theorem State.rd_syncPage (s : State) (b a : Nat) : (s.syncPage b).rd a = s.rd a := s.rd_congr (by simp) a

/-- A PG_IST bit is set. -/
@[simp] theorem State.rb_ist_same (s : State) (b i : Nat) (h : i < 32) : (s.ist b i).rb (Reg.PG_IST b) i = true := by
  simp only [State.ist, State.rb, State.rd_syncPage]
  exact s.rb_wb_same _ _ _ h

/-- Every other register reads as before. -/
theorem State.rd_ist_other (s : State) (b i a : Nat) (h : a ≠ Reg.PG_IST b) : (s.ist b i).rd a = s.rd a := by
  simp [State.ist, s.rd_wb_other _ _ h]

theorem State.rd_istIf_other (s : State) (c : Bool) (b i a : Nat) (h : a ≠ Reg.PG_IST b) : (s.istIf c b i).rd a = s.rd a := by
  cases c
  · rfl
  · exact s.rd_ist_other b i a h

/-- A wrapping counter holds its sum modulo 2^32 (R8). -/
theorem State.rd_bump_same (s : State) (a n k : Nat) (h : a ≠ Reg.PG_IST (pageBase a)) :
    (s.bump a n k).rd a = BitVec.ofNat 32 (((s.rd a).toNat + n) % 2 ^ 32) := by
  simp only [State.bump]
  rw [State.rd_istIf_other _ _ _ _ _ h, State.rd_wr_same]

theorem State.rd_bump_other (s : State) (a n k b : Nat) (h : b ≠ a) (g : b ≠ Reg.PG_IST (pageBase a)) :
    (s.bump a n k).rd b = s.rd b := by
  simp only [State.bump]
  rw [State.rd_istIf_other _ _ _ _ _ g, State.rd_wr_other _ _ h]

/-- A saturating counter stops at 0xFFFF_FFFF. -/
theorem State.rd_bumpSat_same (s : State) (a n k : Nat) (h : a ≠ Reg.PG_IST (pageBase a)) :
    (s.bumpSat a n k).rd a = BitVec.ofNat 32 (capAt 0xFFFFFFFF ((s.rd a).toNat + n)) := by
  simp only [State.bumpSat]
  rw [State.rd_istIf_other _ _ _ _ _ h, State.rd_wr_same]

theorem State.rd_bumpSat_other (s : State) (a n k b : Nat) (h : b ≠ a) (g : b ≠ Reg.PG_IST (pageBase a)) :
    (s.bumpSat a n k).rd b = s.rd b := by
  simp only [State.bumpSat]
  rw [State.rd_istIf_other _ _ _ _ _ g, State.rd_wr_other _ _ h]

/-- An unlock changes no register. -/
@[simp] theorem State.rd_setUnlock (s : State) (i : Initiator) (a : Nat) (u : Bool) (b : Nat) :
    (s.setUnlock i a u).rd b = s.rd b := rfl

/-! Register writes. -/

/-- The state in which a write of row r that is accepted finds its register stored (R5, R61). -/
theorem State.cmdWrite_ok (s : State) (i : Initiator) (a : Nat) (v : Word) (f : State → State) (r : RegRow)
    (reach : s.unreached a = false) (row : rowAt a = some r) (key : a % 0x1000 ≠ 0x28)
    (guard : r.acc = .rwg → s.isUnlocked i a = true)
    (shadow : r.acc = .rws → s.rb (Reg.PG_CGRP (pageBase a)) 8 = false) :
    s.cmdWrite i a v f
      = f ((if (s.setUnlock i a false).discards i a v then s.setUnlock i a false
          else (s.setUnlock i a false).store i r a v).syncHdr (s.setUnlock i a false) a) := by
  have hw : s.writeAt (fun _ _ _ t => f t) i a v
      = (f ((if (s.setUnlock i a false).discards i a v then s.setUnlock i a false
          else (s.setUnlock i a false).store i r a v).syncHdr (s.setUnlock i a false) a), 0) := by
    have g1 : ¬(r.acc = .rwg ∧ ¬(s.isUnlocked i a = true)) := fun ⟨x, y⟩ => y (guard x)
    have g2 : ¬(r.acc = .rws ∧ (s.setUnlock i a false).rb (Reg.PG_CGRP (pageBase a)) 8 = true) := by
      rintro ⟨x, y⟩
      rw [show (s.setUnlock i a false).rb _ 8 = s.rb (Reg.PG_CGRP (pageBase a)) 8 from rfl, shadow x] at y
      exact absurd y (by decide)
    simp only [State.writeAt, row, if_neg key, if_neg g1, if_neg g2]
  simp only [State.cmdWrite, State.pageWrite, reach, hw]
  rfl

/-- A write that no row takes is a bus error of cause UNMAPPED, and ends the unlock (R51, log entry 4). -/
theorem State.pageWrite_unmapped (eff : Initiator → Nat → Word → State → State) (s : State) (i : Initiator) (a : Nat) (v : Word)
    (reach : s.unreached a = false) (row : rowAt a = none) (key : a % 0x1000 ≠ 0x28) :
    s.pageWrite eff i a v = (s.setUnlock i a false).busError i true 0 a cUNMAPPED := by
  simp [State.pageWrite, reach, State.writeAt, row, key, cUNMAPPED]

/-- A guarded write without the unlock is a bus error of cause LOCKED and changes nothing else (R51, R61). -/
theorem State.pageWrite_locked (eff : Initiator → Nat → Word → State → State) (s : State) (i : Initiator) (a : Nat) (v : Word)
    (r : RegRow) (reach : s.unreached a = false) (row : rowAt a = some r) (key : a % 0x1000 ≠ 0x28) (g : r.acc = .rwg)
    (u : s.isUnlocked i a = false) : s.pageWrite eff i a v = (s.setUnlock i a false).busError i true 0 a cLOCKED := by
  simp [State.pageWrite, reach, State.writeAt, row, key, g, u, cLOCKED]

end Sys2Proof.Machine
end

