-- ==== Sys2Proof/Laws/Memory.lean ====
section
/-! SUPPORT. Byte memories: reading after writing, and the canonical form. -/
namespace Sys2Proof.Machine

/-- A write keeps the canonical form. -/
theorem Memory.wf_wr {m : List Host.Cell} (a : Nat) (b : Byte) (h : Memory.wf m = true) : Memory.wf (memWr m a b) = true :=
  amWf_set (d := fun _ => 0) a b h

/-- A write of many bytes keeps the canonical form. -/
theorem Memory.wf_wrN {m : List Host.Cell} (a : Nat) (l : List Byte) (h : Memory.wf m = true) : Memory.wf (memWrN m a l) = true := by
  induction l generalizing m a with
  | nil => exact h
  | cons b r ih => exact ih (a + 1) (Memory.wf_wr a b h)

@[simp] theorem memRd_wr_same (m : List Host.Cell) (a : Nat) (b : Byte) : memRd (memWr m a b) a = b := amGetD_set_same _ _ _ _

theorem memRd_wr_other (m : List Host.Cell) {a c : Nat} (b : Byte) (h : c ≠ a) : memRd (memWr m a b) c = memRd m c :=
  amGetD_set_other _ _ _ _ h

/-- A byte outside the written ones reads as before. -/
theorem memRd_wrN_other (m : List Host.Cell) (a c : Nat) (l : List Byte) (h : c < a ∨ a + l.length ≤ c) :
    memRd (memWrN m a l) c = memRd m c := by
  induction l generalizing m a with
  | nil => rfl
  | cons b r ih =>
    simp only [List.length_cons] at h
    rw [memWrN, ih _ _ (by omega), memRd_wr_other _ _ (by omega)]

/-- Byte i of the written ones. -/
theorem memRd_wrN_same (m : List Host.Cell) (a i : Nat) (l : List Byte) (h : i < l.length) :
    memRd (memWrN m a l) (a + i) = l[i] := by
  induction l generalizing m a i with
  | nil => simp at h
  | cons b r ih =>
    cases i with
    | zero => rw [memWrN, memRd_wrN_other _ _ _ _ (by omega)]; simp
    | succ i =>
      have := ih (memWr m a b) (a + 1) i (by simpa using h)
      simpa [memWrN, Nat.add_assoc, Nat.add_comm 1 i] using this

/-- All written bytes read back. -/
theorem memRdN_wrN (m : List Host.Cell) (a : Nat) (l : List Byte) : memRdN (memWrN m a l) a l.length = l := by
  apply List.ext_getElem
  · simp [memRdN]
  · intro i h _
    simp only [memRdN, List.getElem_map, List.getElem_range]
    exact memRd_wrN_same m a i l (by simpa [memRdN] using h)

/-- Laurel's MRAM write keeps every memory in form. -/
theorem State.memWf_mramWrite {s : State} (a : Nat) (b : List Byte) (h : s.memWf = true) : (s.mramWrite a b).memWf = true := by
  simp only [State.memWf, Bool.and_eq_true] at h ⊢
  simp only [State.mramWrite_dram, State.mramWrite_mram, State.mramWrite_lsram, State.mramWrite_hmem, State.mramWrite_qspi,
    State.mramWrite_prv]
  exact ⟨⟨⟨⟨⟨h.1.1.1.1.1, Memory.wf_wrN a b h.1.1.1.1.2⟩, h.1.1.1.2⟩, h.1.1.2⟩, h.1.2⟩, h.2⟩

end Sys2Proof.Machine
end

