-- ==== Sys2Proof/WellFormed.lean ====
section
/-! DEFINITION. Which terms of Instr stand for a command or event of the block: initiators of the Yatric die, offsets inside a BAR,
frames whose fields fit their format, messages whose fields fit the register slot. -/
namespace Sys2Proof

/-- An initiator of register accesses on the Yatric die (R45); the Kykel die reaches it by messages of the link alone (R86). -/
def onYatric (i : Initiator) : Bool := i != .kykel

/-- Data bytes that DLC n stands for in CAN FD (R115). -/
def fdBytes (n : Nat) : Nat :=
  if n ≤ 8 then n else if n = 9 then 12 else if n = 10 then 16 else if n = 11 then 20 else if n = 12 then 24
  else if n = 13 then 32 else if n = 14 then 48 else 64

/-- A CAN frame whose identifier, DLC, data and flags fit its format (04_can_controllers.md). A CAN XL frame carries 1 to 2,048 bytes and
an 11-bit priority identifier; only Classical CAN has remote frames. -/
def CanFrame.ok (f : CanFrame) : Bool :=
  decide (f.ident < 2 ^ 29) && (f.ide || f.ident % 2 ^ 18 == 0) && match f.fmt with
    | .cc => decide (f.dlc < 16) && f.data.length == (if f.rtr then 0 else min f.dlc 8) && !f.brs && !f.esi
    | .fd => decide (f.dlc < 16) && f.data.length == fdBytes f.dlc && !f.rtr
    | .xl => !f.ide && !f.rtr && decide (1 ≤ f.data.length) && decide (f.data.length ≤ 2048)
        && decide (f.sdt < 256) && decide (f.vcid < 256) && decide (f.af < 2 ^ 32)

/-- A message of the register slot: TYPE 0x0-0xB, and fields that fit (R77). -/
def BMsg.ok (m : BMsg) : Bool :=
  decide (m.typ ≤ 11) && decide (m.seq < 16) && decide (m.ackseq < 16) && decide (m.init < 4) && decide (m.waddr < 2 ^ 16)
    && decide (m.ecode < 16)

/-- Pieces of host memory a PCIe read returned: below 2^64. -/
def hostMemOk (l : List (Nat × List Byte)) : Bool := l.all (fun p => decide (p.1 + p.2.length ≤ 2 ^ 64))

/-- The bytes of an Ethernet frame: both addresses and a type at least, 16 KiB at most. -/
def ethBytesOk (l : List Byte) : Bool := decide (14 ≤ l.length) && decide (l.length ≤ 16384)

/-- The term stands for a command or event. -/
def Instr.wf : Instr → Bool
  | .registerWrite init off _ _ _ => onYatric init && decide (off < 2 ^ 25)
  | .shadowWrite init off _ => onYatric init && decide (off < 2 ^ 25)
  | .unlockKeyWrite init page _ => onYatric init && decide (page < 2 ^ 25)
  | .guardedWrite init off _ => onYatric init && decide (off < 2 ^ 25)
  | .interruptSet init page _ => onYatric init && decide (page < 2 ^ 25)
  | .interruptStatusClear init page _ => onYatric init && decide (page < 2 ^ 25)
  | .lowWordReadLatch init off _ _ => onYatric init && decide (off < 2 ^ 25)
  | .lowWordWriteHold init off _ => onYatric init && decide (off < 2 ^ 25)
  | .highWordWrite init off _ => onYatric init && decide (off < 2 ^ 25)
  | .errCountRead init => onYatric init
  | .errLastAddrRead init => onYatric init
  | .errClr init _ => onYatric init
  | .counterClear init page _ => onYatric init && decide (page < 2 ^ 25)
  | .commitImmediateRequest init _ => onYatric init
  | .timedCommitArm init _ => onYatric init
  | .timedCommitCancel init _ => onYatric init
  | .timedCommitDue => true
  | .commitApply => true
  | .tableStagedWrite init off _ _ => onYatric init && decide (off < 2 ^ 25)
  | .tableValidWrite init off _ _ => onYatric init && decide (off < 2 ^ 25)
  | .tableWord0Read init off _ _ => onYatric init && decide (off < 2 ^ 25)
  | .kykelSummaryWord => true
  | .kIntChange => true
  | .islandClockGate _ => true
  | .islandClockRestart _ => true
  | .dramSelfRefreshEntry => true
  | .dramSelfRefreshExit => true
  | .xanpelFrame _ _ _ _ => true
  | .readRequestMsg _ m _ => m.ok
  | .postedWriteMsg _ m _ => m.ok
  | .nonPostedWriteMsg _ m _ => m.ok
  | .readDataMsg _ m => m.ok
  | .writeAcknowledgementMsg _ m => m.ok
  | .retryMsg _ m => m.ok
  | .errorMsg _ m => m.ok
  | .lockRequestMsg _ m _ => m.ok
  | .lockGrantMsg _ m => m.ok
  | .lockReleaseMsg _ m => m.ok
  | .lockBreakMsg _ m => m.ok
  | .registerMessageResend _ => true
  | .retryIntervalExpiry => true
  | .lockReq init _ => onYatric init
  | .lockRel init _ => onYatric init
  | .lockBreak => true
  | .retryReservationExpiry => true
  | .linkTrainingStart => true
  | .trainingSuccess loopDly => decide (78 ≤ loopDly) && decide (loopDly ≤ 82)
  | .trainingAttemptTimeout => true
  | .linkLost => true
  | .xplTrain init _ => onYatric init
  | .pfWarn => true
  | .tampAlm => true
  | .kRstreq => true
  | .canConfigTakeEffect _ => true
  | .busIntegrationComplete _ => true
  | .canFrameValid _ _ f _ => f.ok
  | .transmitSelection _ _ => true
  | .transmissionSuccess _ _ => true
  | .arbitrationLost _ => true
  | .canError _ _ _ _ _ _ => true
  | .protocolExceptionEvent _ => true
  | .overloadFrame _ => true
  | .suspendTransmissionEnd _ => true
  | .txDeadlineDrop _ => true
  | .txCancel init _ _ => onYatric init
  | .recoveryRequest init _ _ => onYatric init
  | .recoveryComplete _ => true
  | .privetJobAccept src laurel => decide (src < 128) && laurel.all CanFrame.ok
  | .copyEnqueue _ _ => true
  | .heldCopyPlacement _ => true
  | .heldCopyDeadlineDrop _ => true
  | .cycleWindowExpiry route => decide (route < 32768)
  | .routeCounterLatch init _ => onYatric init
  | .routeCounterClear init _ => onYatric init
  | .aggregationTimerExpiry _ => true
  | .tunnelFrameReceive => true
  | .streamSilenceTimeout _ => true
  | .signalHandoff => true
  | .staleMark _ => true
  | .staleMarkPass => true
  | .periodicScheduleInstant _ => true
  | .minivDeferredSend _ => true
  | .pduFrameFormation => true
  | .signalSlotLatch init _ => onYatric init
  | .pduCounterLatch init _ => onYatric init
  | .pduCounterClear init _ => onYatric init
  | .addressClaimed => true
  | .requestForAddressClaim => true
  | .claimFrameSent => true
  | .claimWaitExpiry _ => true
  | .claimRetry _ => true
  | .cannotClaimSend _ => true
  | .clmReq init _ => onYatric init
  | .ledgerFlush init _ => onYatric init
  | .claimWindowOpen _ start => start.all (fun p => onYatric p.1)
  | .claimWindowEnd _ => true
  | .tpCmRts => true
  | .tpCmBam => true
  | .tpDt => true
  | .etpCmDpo => true
  | .tpCmCts => true
  | .tpCmEoma => true
  | .connAbort => true
  | .t1Timeout _ => true
  | .t2Timeout _ => true
  | .t3Timeout _ _ => true
  | .t4Timeout _ _ => true
  | .bamPacketGap _ _ => true
  | .poolChangeEffect => true
  | .sessionLatch init _ => onYatric init
  | .ethernetFrameReceive _ bytes _ _ _ => ethBytesOk bytes
  | .pauseReceive _ _ => true
  | .pfcReceive _ _ quanta => quanta.length == 8
  | .pauseExpiry _ _ => true
  | .pauseRequestSend _ => true
  | .pauseRepeat _ => true
  | .pauseWatchdogTrip _ _ => true
  | .pauseIgnoreEnd _ _ => true
  | .lossOfLink _ => true
  | .linkUp _ _ _ => true
  | .linkHoldExpiry _ => true
  | .autoNegotiationComplete _ _ => true
  | .autoNegotiationRestart init _ _ => onYatric init
  | .physicalCollision _ => true
  | .backoffExpiry _ => true
  | .beacon _ => true
  | .plcaStatusChange _ _ => true
  | .egressSelection _ _ => true
  | .frameTransmitted _ => true
  | .policerWrite init _ => onYatric init
  | .policerRead init _ => onYatric init
  | .filterWrite init _ => onYatric init
  | .filterRead init _ => onYatric init
  | .thicketSpill _ _ => true
  | .thicketReadBack _ _ => true
  | .readBackComplete _ _ _ => true
  | .thicketRegionEffect => true
  | .internalStallDrop _ _ => true
  | .queueFlush init _ => onYatric init
  | .queueFlushDone => true
  | .ingressCounterLatch init _ => onYatric init
  | .dropCounterLatch init _ => onYatric init
  | .vlanWrite init _ => onYatric init
  | .vlanRead init _ => onYatric init
  | .learningRequest => true
  | .ageingSweep => true
  | .macFlush init _ => onYatric init
  | .macFlushDone => true
  | .overflowWrite init _ => onYatric init
  | .overflowRead init _ => onYatric init
  | .lpmMove init _ => onYatric init
  | .lpmMoveDone => true
  | .lpmCheck init _ => onYatric init
  | .lpmCheckDone => true
  | .rateWrite init _ => onYatric init
  | .timeAdd init => onYatric init
  | .timeSubtract init => onYatric init
  | .timeSet init => onYatric init
  | .syncLock init => onYatric init
  | .syncHold init _ => onYatric init
  | .syncWatchdogExpiry => true
  | .nowRead init => onYatric init
  | .toutArm init _ _ _ => onYatric init
  | .toutDisarm init _ _ _ => onYatric init
  | .toutPulseStart _ => true
  | .toutPulseEnd _ => true
  | .captureEdge _ _ => true
  | .captureRead init _ => onYatric init
  | .captureClear init _ _ => onYatric init
  | .correlationRequest init _ => onYatric init
  | .correlationLatch => true
  | .macsecVerifyJob => true
  | .cryptoVerifyComplete _ _ => true
  | .knownAnswerTestComplete _ _ => true
  | .pipeRestart init _ => onYatric init
  | .scWrite init _ => onYatric init
  | .scRead init _ => onYatric init
  | .saWrite init _ => onYatric init
  | .saRead init _ => onYatric init
  | .portCounterLatch init _ => onYatric init
  | .canSecureJob _ _ => true
  | .canVerifyJob _ => true
  | .canJobComplete _ _ => true
  | .associationWrite init _ => onYatric init
  | .associationRead init _ => onYatric init
  | .freshnessWrite init _ => onYatric init
  | .freshnessRead init _ => onYatric init
  | .markWrite => true
  | .ringTailWrite init _ _ => onYatric init
  | .memoryJobFetch _ host _ => hostMemOk host
  | .memoryJobComplete _ host _ _ _ _ => hostMemOk host
  | .ringReset init _ _ => onYatric init
  | .slotLoadComplete => true
  | .messageWordWrite init _ _ => onYatric init
  | .updateGo init _ => onYatric init
  | .updateComplete _ _ => true
  | .rekey init _ => onYatric init
  | .rekeyComplete => true
  | .tamperDecision _ => true
  | .tamperControlWrite init _ => onYatric init
  | .eventRingClear init _ => onYatric init
  | .rtcRead init => onYatric init
  | .vbatReset => true
  | .pcieLinkLoss => true
  | .busMasterEnable _ => true
  | .functionLevelReset => true
  | .hifEoi init _ => onYatric init
  | .msixUnmask _ ctl => decide (ctl.toNat < 2)
  | .txTailWrite init _ _ => onYatric init
  | .rxTailWrite init _ _ => onYatric init
  | .queueDescriptorFetch _ host => hostMemOk host
  | .txDescriptorComplete _ => true
  | .rxItemWrite _ host => hostMemOk host
  | .queueHoldoffExpiry _ => true
  | .queueReset init _ => onYatric init
  | .queueResetDone => true
  | .queueConfigWrite init _ => onYatric init
  | .queueConfigRead init _ => onYatric init
  | .copyRingTailWrite init _ _ => onYatric init
  | .copyDescriptorFetch _ host => hostMemOk host
  | .copyDescriptorComplete _ host => hostMemOk host
  | .burstStart _ host => hostMemOk host
  | .channelPause init _ _ => onYatric init
  | .channelPaused _ _ host => hostMemOk host
  | .channelResume init _ _ => onYatric init
  | .channelHalt _ _ _ addr _ => decide (addr < 2 ^ 64)
  | .completionTimeout _ addr _ => decide (addr < 2 ^ 64)
  | .channelReset init _ _ => onYatric init
  | .channelResetDone _ => true
  | .startCondition => true
  | .buckSoftStartComplete => true
  | .coreEnableDelay => true
  | .corePgRise => true
  | .dramEnableDelay => true
  | .dramPgRise => true
  | .powerGoodTimeout => true
  | .sequenceRetry => true
  | .powerDownCoreDisable => true
  | .powerDownBuckStop => true
  | .railFailure _ => true
  | .fastUndervoltage => true
  | .powerFailWarning => true
  | .supplyReset => true
  | .overvoltage => true
  | .overvoltageClear => true
  | .saveComplete => true
  | .rideThrough _ => true
  | .holdUpOk _ => true
  | .chargerTimeout => true
  | .capacitanceMeasurement _ => true
  | .domainSleep _ => true
  | .domainWake _ => true
  | .keepAliveFrame _ f => f.ok
  | .routeDemand => true
  | .wakeRequest init _ => onYatric init
  | .txdDominantTimeout _ => true
  | .thermalShutdown _ => true
  | .transceiverFaultClear _ _ => true
  | .failSafe => true
  | .lwakeEvent _ _ => true
  | .wakeLnAssert => true
  | .wakeLnReleaseWaitEnd _ => true
  | .wakeUpPattern _ => true
  | .decoderFrame _ _ f => f.ok
  | .rtcAlarm => true
  | .minimumAwakeExpiry => true
  | .sleepRequest init _ => onYatric init
  | .lateWake _ _ => true
  | .wakeDwellEnd => true
  | .stayLimit _ => true
  | .eventAck _ _ => true
  | .wakeEventMsg => true
  | .domainEventMsg => true
  | .sleepabortMsg => true
  | .agreeMsg => true
  | .failsafeMsg => true
  | .stayMsg => true
  | .trxfaultMsg => true
  | .tamperEventMsg => true
  | .coldResetRequest init _ => onYatric init
  | .warmResetRequest init _ => onYatric init
  | .hifResetRequest init _ => onYatric init
  | .coldReset => true
  | .warmReset => true
  | .hifReset => true
  | .watchdogKick init _ => onYatric init
  | .watchdogExpiry => true
  | .bootRestore => true
  | .coldRouteVerify qspiBad => qspiBad.all (fun b => decide (b < 16384))
  | .coldRouteApply => true
  | .coldCommit => true
  | .firmwareStart => true
  | .mailboxDoorbell init _ => onYatric init
  | .ping => true
  | .sensorRead => true
  | .sensorLimit => true
  | .sensorClr => true
  | .logInfo => true
  | .logRead => true
  | .logFlush => true
  | .reclaim => true
  | .boffStat => true
  | .responseAck init _ => onYatric init
  | .eventPop init => onYatric init
  | .sensorSample vals => vals.length == 5
  | .logTailWrite => true
  | .busOffPolicy _ => true
  | .laurelRecoveryDelay _ => true
  | .watchPoll => true
  | .fwStatus => true
  | .stage => true
  | .activate => true
  | .cancel => true
  | .stageVerificationComplete => true
  | .activationStart => true
  | .blockCopy _ => true
  | .joinAct init _ => onYatric init
  | .joinStby init _ => onYatric init
  | .promote init _ => onYatric init
  | .demote init _ => onYatric init
  | .heartbeatToggle => true
  | .heartbeatLost _ => true
  | .mirroredFrame _ _ bytes => ethBytesOk bytes
  | .markMsg mark => mark.all (fun p => decide (p.1 < 65792) && decide (p.2 < 2 ^ 64))
  | .digestMsg _ _ ds => ds.all (fun p => decide (p.2.1 < 2 ^ 32) && decide (p.2.2 < 2 ^ 32))
  | .handoverMsg => true
  | .roleMsg _ _ => true
  | .roleMessageTimer => true
  | .digestIntervalEnd => true
  | .obsEnable init _ => onYatric init
  | .obsDisable init _ => onYatric init
  | .syncRecord => true
  | .countRecord => true
  | .pcieLinkUp _ _ => true
  | .d3hotTransition _ => true
  | .tamperAlarmClear => true
  | .wakeLnReleaseSeen => true
  | .lwakeLevelEnd _ => true
  | .autonomousBiasTimeout _ => true

end Sys2Proof
end

