-- ==== Sys2Proof/Tests/Slice0.lean ====
section
/-! SUPPORT. The model's own tests: the formedness checks, states that meet the hypotheses of each statement, and effects worked out by hand
from the rules of the spec. -/
namespace Sys2Proof.Tests
set_option Elab.async false
open Sys2Proof.Machine

/-! Small states. -/

/-- s with the registers listed at the values listed. -/
def plus (s : State) (l : List (Nat × Nat)) : State := l.foldl (fun s p => s.wr p.1 (BitVec.ofNat 32 p.2)) s

/-- The machine after reset, but for the registers listed. -/
def resetWith (l : List (Nat × Nat)) : State := plus State.reset l

/-- The state a command leaves, where it completes. -/
def after (c : Instr) (s : State) : State :=
  match exec c s with
  | .next t => t
  | _ => s

/-- A Classical frame with eight bytes. -/
def fr : CanFrame := ⟨.cc, false, 0x123 * 2 ^ 18, false, false, false, 8, false, false, 0, 0, 0, [1, 2, 3, 4, 5, 6, 7, 8]⟩

/-- A job of frame f from source src. -/
def jobOf (src : Nat) (f : CanFrame) : Job := ⟨src, false, f, 0, 0, 0, 0, none, none⟩

/-- A copy of frame f toward eg. -/
def copyOf (eg : Egress) (f : CanFrame) : Copy := ⟨eg, f, 0, none, 0, 0, 0, f.ident, false, 0, 0, 0, .other, 0, 0, 1, .none, false, 0⟩

/-- A message of the register slot. -/
def msgOf (typ init waddr : Nat) (data : Word) : BMsg := ⟨typ, 0, false, 0, init, false, waddr, data, 0⟩

/-- The link is UP. -/
def linkOn : State := resetWith [(Reg.XPL_STAT, 2)]

/-- The link is UP and the bridge holds requests l. -/
def withReqs (l : List BReq) : State := { linkOn with xpl := { linkOn.xpl with reqs := l } }

/-- s with the table words listed. -/
def withTab (s : State) (l : List (Nat × Nat)) : State :=
  { s with tab := l.foldl (fun m p => amSet 0 m p.1 (BitVec.ofNat 32 p.2)) s.tab }

/-- A J1939 frame with PDU format pf from address sa to da. -/
def jfr (pf da sa : Nat) (data : List Byte) : CanFrame :=
  ⟨.cc, true, 6 * 2 ^ 26 + pf * 2 ^ 16 + da * 2 ^ 8 + sa, false, false, false, data.length, false, false, 0, 0, 0, data⟩

/-- A hand-off of frame f received on segment g. -/
def handed (g : Nat) (f : CanFrame) : Handoff := ⟨jobOf g f, 0, 0⟩

/-- Ledger entry i, valid: NAME low word, TYPE, segment, STATE, address. -/
def ledge (i name typ seg st sa : Nat) : List (Nat × Nat) :=
  [(clmA i 0, name), (clmA i 2, typ * 2 ^ 30 + seg * 2 ^ 20 + st * 2 ^ 17 + sa * 2 ^ 8), (clmA i 3, 2 ^ 31)]

/-- s with local count n. -/
def atTime (s : State) (n : Nat) : State := { s with tsy := { s.tsy with loc := n } }

/-- A delivery part. -/
def partOf (dest : TpeDest) (w : TpeWait) : TpePart := ⟨0, dest, 0, 3, w, 0⟩

/-- A transport session of kind k from 0x10 to da on segment 0: 30 bytes, page 0, a window of three packets. -/
def sesOf (k da got : Nat) (any delivering : Bool) (parts : List TpePart) : TpeSession :=
  ⟨k, true, 0, 0x10, da, 0xEF00, 30, 0, [0], got, 1, 4, none, 3, any, 0, delivering, false, parts⟩

/-- s with session t at index i. -/
def withSes (s : State) (i : Nat) (t : TpeSession) : State := { s with tpe := { s.tpe with ses := [(i, t)] } }

/-- s with hand-off h for the transport engine. -/
def withTpe (s : State) (h : Handoff) : State := { s with prv := { s.prv with tpeQ := [h] } }

/-- s with hand-off h for the claim ledger. -/
def withClm (s : State) (h : Handoff) : State := { s with prv := { s.prv with clmQ := [h] } }

/-- Port p has a link of 1000 Mb/s in full duplex. -/
def portUp (p : Nat) : State := resetWith [(Reg.EMAC_STAT p, 0x80000030), (Reg.EMAC_CFG p, 0x1)]

/-- s with Ethernet port p as e. -/
def withEmac (s : State) (p : Nat) (e : Emac) : State := { s with emac := [(p, e)] }

/-- s with one stored frame f under number 0, its copy c in queue k. -/
def withFrame (s : State) (k : Nat) (c : SwCopy) (f : SwFrame) : State :=
  { s with sw := { s.sw with frames := [(0, f)], queues := [(k, [c])], nextFid := 1, headAt := [(k, 0)] } }

/-- A stored frame of 60 bytes from port 2. -/
def ethFr : SwFrame := { bytes := List.replicate 60 7, port := 2, tc := 3, cells := 1, refs := 1 }

/-- s with keys loaded, slot 5 installed for every use, and pipe 0 running. -/
def withKeys (s : State) : State :=
  let t := plus s [(Reg.YEW_STAT, 2 ^ 31), (Reg.CRY_CTL, 1), (Reg.CRY_PIPESTAT, 0x0100), (Reg.MSEC_CTL, 1)]
  { t with yew := { t.yew with slots := [(5, ⟨0x400000FF, 0, List.replicate 32 9⟩)] } }

/-- s with crypto job j as number 0. -/
def withJob (s : State) (j : CryJob) : State := { s with cry := { s.cry with jobs := [(0, j)], next := 1 } }

/-- A crypto job of class cls for object ref. -/
def jobFor (cls ref ix code : Nat) : CryJob := ⟨cls, 0, 1, ref, ix, code, [1, 2, 3, 4], 8, List.replicate 32 9⟩

/-- A frame with a SecTAG: SL 0, packet number 7. -/
def secFr : SwFrame :=
  { ethFr with bytes := List.replicate 12 0 ++ [0x88, 0xE5, 0x0C, 0, 0, 0, 0, 7] ++ List.replicate 64 1 }

/-- Words of an association of segment 0: slot 5, counter 9, 1 byte of it, a 3-byte MAC, 4 bytes of payload. -/
def assocWs : List Word := [0x80000000, 0x00050000, 0x00911804, 0x00000001]

/-- s with slot sl of Privet as number 0. -/
def withSlot (s : State) (sl : Slot) : State := { s with prv := { s.prv with slots := [(0, sl)], nextJob := 1 } }

/-- A frame of four payload bytes. -/
def fr4 : CanFrame := { fr with dlc := 4, data := [1, 2, 3, 4] }

/-- The host link is up and the device may master the bus. -/
def hostOn (l : List (Nat × Nat)) : State := { resetWith ((Reg.HIF_STAT, 2 ^ 31) :: l) with bme := true }

/-- The firmware runs and request op with arguments ws waits in the mailbox. -/
def asked (op : Nat) (ws : List Nat) : State :=
  let t := resetWith ((Reg.LRL_STAT, 2 ^ 30) :: (Reg.CHIP_BOOTSTAT, 2 ^ 30) :: (Reg.LRL_REQ 0, op * 2 ^ 24 + 5 * 2 ^ 16 + ws.length)
    :: (ws.zipIdx.map (fun p => (Reg.LRL_REQ (p.2 + 1), p.1))))
  { t with boot := { stage := 5 } }

/-! The hypotheses of each statement can be met, clause by clause. -/

theorem test_RequestOfBadSizeIsABusError_met :
    ∃ (s : State) (off : Nat) (words : Nat) (allBytes : Bool), s.pwr.held = false ∧ (words ≠ 1 ∨ allBytes = false ∨ off % 4 ≠ 0) :=
  ⟨State.reset, 0x102, 1, true, by decide +kernel⟩

theorem test_UnmappedWriteIsLoggedInTheErrPage_met :
    ∃ (s : State) (off : Nat), s.unreached off = false ∧ off % 4 = 0 ∧ rowAt off = none ∧ (isKykel off && (runOf off).isSome) = false :=
  ⟨State.reset, 0x1FFFFFC, by decide +kernel⟩

theorem test_RegisterWriteTakesEffectUnderItsAccessCode_met :
    (∃ (s : State) (b : Nat) (k : PageRun), runOf b = some k ∧ b % 0x1000 = 0 ∧ isKykel b = false ∧ s.pwr.held = false ∧ b ≠ Reg.pgLRL) ∧
    (∃ (s : State) (b : Nat) (k : PageRun), runOf b = some k ∧ b % 0x1000 = 0 ∧ isKykel b = false ∧ s.pwr.held = false ∧ b = Reg.pgLRL) :=
  ⟨⟨State.reset, Reg.pgERR, ((runOf (Reg.pgERR)).get (by decide +kernel)), by decide +kernel⟩,
   ⟨State.reset, Reg.pgLRL, ((runOf (Reg.pgLRL)).get (by decide +kernel)), by decide +kernel⟩⟩

theorem test_VectorMessageFollowsItsLevel_met :
    ∃ (s : State) (b : Nat) (k : PageRun) (v : Word) (w : Nat), runOf b = some k ∧ b % 0x1000 = 0 ∧ isKykel b = false ∧ s.pwr.held = false
      ∧ mapsHost (s.rd (Reg.PG_IMAP b)) w = true ∧ s.rd (Reg.PG_IST b) = 0 ∧ v.toNat &&& istMask k.cls &&& (s.rd (Reg.PG_IEN b)).toNat ≠ 0 :=
  ⟨(resetWith [(Reg.PG_IEN Reg.pgERR, 1), (Reg.PG_IMAP Reg.pgERR, 0x80000003)]), Reg.pgERR, ((runOf (Reg.pgERR)).get
     (by decide +kernel)), 1, 3, by decide +kernel⟩

theorem test_UnlockGuardsTheNextWriteOfThePage_met :
    (∃ (s : State) (b : Nat) (k : PageRun) (v : Word), runOf b = some k ∧ b % 0x1000 = 0 ∧ isKykel b = false ∧ s.pwr.held = false ∧
      v.toNat = unlockKey) ∧
    (∃ (s : State) (b : Nat) (k : PageRun) (v : Word), runOf b = some k ∧ b % 0x1000 = 0 ∧ isKykel b = false ∧ s.pwr.held = false ∧
      v.toNat ≠ unlockKey) ∧
    (∃ (s : State) (init : Initiator) (b : Nat) (k : PageRun) (v : Word) (off : Nat) (r : RegRow), runOf b = some k ∧ b % 0x1000 = 0 ∧
      isKykel b = false ∧ s.pwr.held = false ∧ pageBase off = b ∧ off % 4 = 0 ∧ 0x100 ≤ off % 0x1000 ∧ rowAt off = some r ∧ r.acc = .rwg ∧
      s.isUnlocked init b = true ∧ (s.setUnlock init b false).discards init off v = false) ∧
    (∃ (s : State) (init : Initiator) (b : Nat) (k : PageRun) (off : Nat) (r : RegRow), runOf b = some k ∧ b % 0x1000 = 0 ∧ isKykel b =
      false ∧ s.pwr.held = false ∧ pageBase off = b ∧ off % 4 = 0 ∧ 0x100 ≤ off % 0x1000 ∧ rowAt off = some r ∧ r.acc = .rwg ∧
      s.isUnlocked init b = false) :=
  ⟨⟨State.reset, Reg.pgCHIP, ((runOf (Reg.pgCHIP)).get (by decide +kernel)), BitVec.ofNat 32 unlockKey, by decide +kernel⟩,
   ⟨State.reset, Reg.pgCHIP, ((runOf (Reg.pgCHIP)).get (by decide +kernel)), 1, by decide +kernel⟩,
   ⟨State.reset.setUnlock .laurel Reg.pgCHIP true, .laurel, Reg.pgCHIP, ((runOf (Reg.pgCHIP)).get (by decide +kernel)), 0x10001,
     Reg.CHIP_WDT, ((rowAt (Reg.CHIP_WDT)).get (by decide +kernel)), by decide +kernel⟩,
   ⟨State.reset, .laurel, Reg.pgCHIP, ((runOf (Reg.pgCHIP)).get (by decide +kernel)), Reg.CHIP_WDT, ((rowAt (Reg.CHIP_WDT)).get
     (by decide +kernel)), by decide +kernel⟩⟩

theorem test_ShadowWriteWaitsForTheCommit_met :
    (∃ (s : State) (init : Initiator) (off : Nat) (v : Word) (r : RegRow), rowAt off = some r ∧ off % 4 = 0 ∧ 0x100 ≤ off % 0x1000 ∧
      isKykel off = false ∧ s.pwr.held = false ∧ r.acc = .rw ∧ r.w64 = false ∧ isHigh off = false ∧ (s.setUnlock init off false).discards
      init off v = false) ∧
    (∃ (s : State) (init : Initiator) (off : Nat) (v : Word) (r : RegRow), rowAt off = some r ∧ off % 4 = 0 ∧ 0x100 ≤ off % 0x1000 ∧
      isKykel off = false ∧ s.pwr.held = false ∧ r.acc = .rwg ∧ r.w64 = false ∧ isHigh off = false ∧ s.isUnlocked init off = true ∧
      (s.setUnlock init off false).discards init off v = false) ∧
    (∃ (s : State) (off : Nat) (v : Word) (r : RegRow), rowAt off = some r ∧ off % 4 = 0 ∧ 0x100 ≤ off % 0x1000 ∧ isKykel off = false ∧
      s.pwr.held = false ∧ v.toNat = unlockKey) ∧
    (∃ (s : State) (off : Nat) (r : RegRow) (k : PageRun), rowAt off = some r ∧ off % 4 = 0 ∧ 0x100 ≤ off % 0x1000 ∧ isKykel off = false ∧
      s.pwr.held = false ∧ pageBase off ≠ Reg.pgLRL ∧ runOf off = some k) ∧
    (∃ (s : State) (init : Initiator) (off : Nat) (v : Word) (r : RegRow), rowAt off = some r ∧ off % 4 = 0 ∧ 0x100 ≤ off % 0x1000 ∧
      isKykel off = false ∧ s.pwr.held = false ∧ r.acc = .rws ∧ r.w1 = 0 ∧ s.rb (Reg.PG_CGRP (pageBase off)) 8 = false ∧ (s.setUnlock init
      off false).discards init off v = false) ∧
    (∃ (s : State) (off : Nat) (r : RegRow), rowAt off = some r ∧ off % 4 = 0 ∧ 0x100 ≤ off % 0x1000 ∧ isKykel off = false ∧ s.pwr.held =
      false ∧ r.acc = .rws ∧ s.rb (Reg.PG_CGRP (pageBase off)) 8 = true) :=
  ⟨⟨State.reset, .laurel, Reg.MSEC_SCIDX, 0x12345678, ((rowAt (Reg.MSEC_SCIDX)).get (by decide +kernel)), by decide +kernel⟩,
   ⟨State.reset.setUnlock .laurel Reg.CHIP_WDT true, .laurel, Reg.CHIP_WDT, 5, ((rowAt (Reg.CHIP_WDT)).get (by decide +kernel)),
     by decide +kernel⟩,
   ⟨State.reset, Reg.CANC_BTN 23, BitVec.ofNat 32 unlockKey, ((rowAt (Reg.CANC_BTN 23)).get (by decide +kernel)), by decide +kernel⟩,
   ⟨State.reset, Reg.CANC_BTN 23, ((rowAt (Reg.CANC_BTN 23)).get (by decide +kernel)), ((runOf (Reg.CANC_BTN 23)).get
     (by decide +kernel)), by decide +kernel⟩,
   ⟨State.reset, .laurel, Reg.CANC_BTN 23, 0x12345678, ((rowAt (Reg.CANC_BTN 23)).get (by decide +kernel)), by decide +kernel⟩,
   ⟨(resetWith [(Reg.PG_CGRP (Reg.pgCANC 23), 0x100)]), Reg.CANC_BTN 23, ((rowAt (Reg.CANC_BTN 23)).get (by decide +kernel)),
     by decide +kernel⟩⟩

theorem test_SixtyFourBitRegistersChangeAsOne_met :
    (∃ (s : State) (init : Initiator) (e : _) (k : Nat), s.pwr.held = false ∧ 0x300000 ≤ e ∧ e < 0x400000 ∧ e % 16 = 0 ∧ k < 3 ∧
      s.stageOther init (0x300000, 0x400000, 16) (e + 4 * k) = false) ∧
    (∃ (s : State) (init : Initiator) (e : _), s.pwr.held = false ∧ 0x300000 ≤ e ∧ e < 0x400000 ∧ e % 16 = 0 ∧ s.staged init (0x300000,
      0x400000, 16) = []) ∧
    (∃ (s : State) (init : Initiator) (e : _), s.pwr.held = false ∧ 0x300000 ≤ e ∧ e < 0x400000 ∧ e % 16 = 0 ∧ (∀ j, j < 4 → amGet
      s.bus.entry (ikey init (e + 4 * j)) = none)) ∧
    (∃ (s : State) (lo : Nat) (r : RegRow) (rh : RegRow), s.pwr.held = false ∧ rowAt lo = some r ∧ rowAt (lo + 4) = some rh ∧ r.w64 = true
      ∧ lo % 4 = 0 ∧ 0x100 ≤ lo % 0x1000 ∧ isKykel lo = false ∧ pageBase (lo + 4) = pageBase lo ∧ latchedBy r lo = [lo + 4] ∧ r.acc ≠ .rc) ∧
    (∃ (s : State) (init : Initiator) (v : Word) (lo : Nat) (r : RegRow) (rh : RegRow), s.pwr.held = false ∧ rowAt lo = some r ∧ rowAt (lo
      + 4) = some rh ∧ r.w64 = true ∧ lo % 4 = 0 ∧ 0x100 ≤ lo % 0x1000 ∧ isKykel lo = false ∧ pageBase (lo + 4) = pageBase lo ∧ r.acc =
      .rw ∧ (s.setUnlock init lo false).discards init lo v = false) ∧
    (∃ (s : State) (init : Initiator) (v : Word) (lo : Nat) (r : RegRow) (rh : RegRow), s.pwr.held = false ∧ rowAt lo = some r ∧ rowAt (lo
      + 4) = some rh ∧ r.w64 = true ∧ lo % 4 = 0 ∧ 0x100 ≤ lo % 0x1000 ∧ isKykel lo = false ∧ pageBase (lo + 4) = pageBase lo ∧ r.acc =
      .rw ∧ rh.acc = .rw ∧ rh.w64 = false ∧ rh.w1 = 0 ∧ (s.setUnlock init lo false).discards init (lo + 4) v = false) :=
  ⟨⟨State.reset, .laurel, 0x3FFFF0, 2, by decide +kernel⟩,
   ⟨State.reset, .laurel, 0x3FFFF0, by decide +kernel⟩,
   ⟨State.reset, .laurel, 0x3FFFF0, by decide +kernel⟩,
   ⟨after (.lowWordWriteHold .laurel (Reg.CRY_RBLO 3) 0xFFFFFFFF) State.reset, Reg.CRY_RBLO 3, ((rowAt (Reg.CRY_RBLO 3)).get
     (by decide +kernel)), ((rowAt (Reg.CRY_RBLO 3 + 4)).get (by decide +kernel)), by decide +kernel⟩,
   ⟨after (.lowWordWriteHold .laurel (Reg.CRY_RBLO 3) 0xFFFFFFFF) State.reset, .laurel, 0xFF, Reg.CRY_RBLO 3, ((rowAt (Reg.CRY_RBLO
     3)).get (by decide +kernel)), ((rowAt (Reg.CRY_RBLO 3 + 4)).get (by decide +kernel)), by decide +kernel⟩,
   ⟨after (.lowWordWriteHold .laurel (Reg.CRY_RBLO 3) 0xFFFFFFFF) State.reset, .laurel, 0xFF, Reg.CRY_RBLO 3, ((rowAt (Reg.CRY_RBLO
     3)).get (by decide +kernel)), ((rowAt (Reg.CRY_RBLO 3 + 4)).get (by decide +kernel)), by decide +kernel⟩⟩

theorem test_ErrorLogReadsAndClear_met :
    (∃ (s : State) (init : Initiator), s.pwr.held = false ∧ amGet s.bus.latch (ikey init Reg.ERR_COUNT) = none) ∧
    (∃ (s : State) (init : Initiator), s.pwr.held = false ∧ amGet s.bus.latch (ikey init Reg.ERR_LAST_ADDR) = none) :=
  ⟨⟨(resetWith [(Reg.ERR_COUNT, 0xFFFFFFFF), (Reg.ERR_FIRST_INFO, 0x80000000)]), .laurel, by decide +kernel⟩,
   ⟨(resetWith [(Reg.ERR_COUNT, 0xFFFFFFFF), (Reg.ERR_FIRST_INFO, 0x80000000)]), .laurel, by decide +kernel⟩⟩

theorem test_CounterClearClearsTheCountersNamed_met :
    ∃ (s : State) (n : Nat), s.pwr.held = false ∧ n < 24 :=
  ⟨(resetWith [(Reg.XPL_CRCERR, 7), (Reg.CANC_RXOK 23, 4), (Reg.CANC_RXOK 23 + 60, 5)]), 23, by decide +kernel⟩

theorem test_TableEntriesChangeByTheirValidWord_met :
    (∃ (s : State) (init : Initiator) (e : Nat) (k : Nat), s.pwr.held = false ∧ 0x100000 ≤ e ∧ e < 0x200000 ∧ e % 32 = 0 ∧ k < 7 ∧
      s.stageOther init (0x100000, 0x200000, 32) (e + 4 * k) = false) ∧
    (∃ (s : State) (init : Initiator) (e : Nat) (k : Nat), s.pwr.held = false ∧ 0x100000 ≤ e ∧ e < 0x200000 ∧ e % 32 = 0 ∧ k < 7 ∧
      s.stageOther init (0x100000, 0x200000, 32) (e + 4 * k) = true) ∧
    (∃ (s : State) (init : Initiator) (e : Nat), s.pwr.held = false ∧ 0x100000 ≤ e ∧ e < 0x200000 ∧ e % 32 = 0 ∧ s.stageOther init
      (0x100000, 0x200000, 32) (e + 28) = false ∧ amSorted s.bus.stage = true) ∧
    (∃ (s : State) (init : Initiator) (e : Nat), s.pwr.held = false ∧ 0x100000 ≤ e ∧ e < 0x200000 ∧ e % 32 = 0 ∧ (∀ j, j < 8 → amGet
      s.bus.entry (ikey init (e + 4 * j)) = none)) ∧
    (∃ (s : State) (e : Nat) (a : Nat) (n : Nat) (allBytes : Bool), s.pwr.held = false ∧ 0x100000 ≤ e ∧ e < 0x200000 ∧ e % 32 = 0 ∧
      bar2Cause a n allBytes ≠ 0) :=
  ⟨⟨after (.tableStagedWrite .laurel 0x1FFFE0 [7] true) State.reset, .laurel, 0x1FFFE0, 6, by decide +kernel⟩,
   ⟨after (.tableStagedWrite .laurel 0x100000 [7] true) State.reset, .laurel, 0x1FFFE0, 6, by decide +kernel⟩,
   ⟨after (.tableStagedWrite .laurel 0x1FFFE0 [7] true) State.reset, .laurel, 0x1FFFE0, by decide +kernel⟩,
   ⟨after (.tableStagedWrite .laurel 0x1FFFE0 [7] true) State.reset, .laurel, 0x1FFFE0, by decide +kernel⟩,
   ⟨after (.tableStagedWrite .laurel 0x1FFFE0 [7] true) State.reset, 0x1FFFE0, 0x1FFFE4, 9, true, by decide +kernel⟩⟩

theorem test_CommitRequestsAreJudgedThenHeldOrApplied_met :
    (∃ (s : State) (v : Word), s.pwr.held = false ∧ s.rb Reg.CMT_STAT 0 = false ∧ s.rf Reg.CMT_ARM 15 0 ≠ 0 ∧ bitOf v 0 = true ∧ s.oldJobs
      = false) ∧
    (∃ (s : State) (v : Word), s.pwr.held = false ∧ s.rb Reg.CMT_STAT 0 = false ∧ s.rf Reg.CMT_ARM 15 0 ≠ 0 ∧ bitOf v 0 = true ∧ s.oldJobs
      = true) ∧
    (∃ (s : State) (v : Word), s.pwr.held = false ∧ s.rb Reg.CMT_STAT 0 = false ∧ s.rf Reg.CMT_ARM 15 0 ≠ 0 ∧ bitOf v 0 = true ∧ bitOf v 1
      = false ∧ (s.rd Reg.CMT_TIME_NS).toNat ≤ 999999999 ∧ s.tsy.full < s.commitTarget) ∧
    (∃ (s : State) (v : Word), s.pwr.held = false ∧ s.rb Reg.CMT_STAT 0 = true ∧ s.rb Reg.CMT_STAT 1 = true ∧ s.tsy.full < s.cmt.target ∧
      bitOf v 0 = false ∧ bitOf v 1 = true) ∧
    (∃ (s : State), s.pwr.held = false ∧ s.rb Reg.CMT_STAT 0 = true ∧ s.rb Reg.CMT_STAT 1 = true ∧ s.cmt.target ≤ s.tsy.full) ∧
    (∃ (s : State), s.pwr.held = false ∧ s.rb Reg.CMT_STAT 0 = true ∧ s.rb Reg.CMT_STAT 2 = true ∧ s.oldJobs = false) :=
  ⟨⟨(resetWith [(Reg.CMT_ARM, 1), (Reg.CMT_TIME_NS, 999999999), (Reg.CMT_TIME_SL, 5)]), 1, by decide +kernel⟩,
   ⟨{ (resetWith [(Reg.CMT_ARM, 1)]) with prv := { State.reset.prv with clmQ := [⟨jobOf 0 fr, 1, 0⟩] } }, 1, by decide +kernel⟩,
   ⟨(resetWith [(Reg.CMT_ARM, 1), (Reg.CMT_TIME_NS, 999999999), (Reg.CMT_TIME_SL, 5)]), 1, by decide +kernel⟩,
   ⟨{ (resetWith [(Reg.CMT_STAT, 3)]) with cmt := ⟨1, 10, 2⟩ }, 2, by decide +kernel⟩,
   ⟨{ (resetWith [(Reg.CMT_STAT, 3)]) with cmt := ⟨1, 0, 2⟩ }, by decide +kernel⟩,
   ⟨{ (resetWith [(Reg.CMT_STAT, 5)]) with cmt := ⟨1, 0, 2⟩ }, by decide +kernel⟩⟩

theorem test_RefusedCommitsChangeOnlyTheirStatus_met :
    (∃ (s : State) (v : Word), s.pwr.held = false ∧ bitOf v 0 = true ∧ (s.rb Reg.CMT_STAT 0 = true ∨ s.rf Reg.CMT_ARM 15 0 = 0)) ∧
    (∃ (s : State) (v : Word), s.pwr.held = false ∧ bitOf v 0 = true ∧ bitOf v 1 = false ∧ (s.rb Reg.CMT_STAT 0 = true ∨ s.rf Reg.CMT_ARM
      15 0 = 0 ∨ 999999999 < (s.rd Reg.CMT_TIME_NS).toNat)) ∧
    (∃ (s : State) (v : Word), s.pwr.held = false ∧ bitOf v 0 = true ∧ bitOf v 1 = false ∧ (s.rb Reg.CMT_STAT 0 = true ∨ s.rf Reg.CMT_ARM
      15 0 = 0 ∨ 999999999 < (s.rd Reg.CMT_TIME_NS).toNat)) ∧
    (∃ (s : State) (v : Word), s.pwr.held = false ∧ bitOf v 0 = true ∧ bitOf v 1 = false ∧ (s.rb Reg.CMT_STAT 0 = true ∨ s.rf Reg.CMT_ARM
      15 0 = 0 ∨ 999999999 < (s.rd Reg.CMT_TIME_NS).toNat)) :=
  ⟨⟨State.reset, 1, by decide +kernel⟩,
   ⟨State.reset, 1, by decide +kernel⟩,
   ⟨(resetWith [(Reg.CMT_ARM, 1), (Reg.CMT_TIME_NS, 1000000000)]), 1, by decide +kernel⟩,
   ⟨(resetWith [(Reg.CMT_ARM, 1), (Reg.CMT_STAT, 3)]), 1, by decide +kernel⟩⟩

theorem test_CommitSequenceCountsAppliedCommits_met :
    ∃ (s : State), (s.rb Reg.CMT_STAT 0 = true ∨ s.rf Reg.CMT_ARM 15 0 = 0) :=
  ⟨(resetWith [(Reg.CMT_STAT, 5), (Reg.CMT_SEQ, 0xFFFFFFFF)]), by decide +kernel⟩

theorem test_CommitCopiesTheShadowsOfItsGroups_met :
    (∃ (s : State) (n : Nat) (a : Nat) (r : _), n < 24 ∧ a ∈ canCfgRegs n ∧ nbit s.cmt.mask (s.rf (Reg.PG_CGRP (Reg.pgCANC n)) 3 0) = true
      ∧ rowAt a = some r) ∧
    (∃ (s : State) (n : Nat) (a : Nat), n < 24 ∧ a ∈ canCfgRegs n ∧ nbit s.cmt.mask (s.rf (Reg.PG_CGRP (Reg.pgCANC n)) 3 0) = false) :=
  ⟨⟨{ (resetWith [(Reg.CMT_STAT, 5), (Reg.PG_CGRP (Reg.pgCANC 23), 0)]) with cmt := ⟨1, 0, 2⟩ }, 23, Reg.CANC_BTN 23, ((rowAt
     (Reg.CANC_BTN 23)).get (by decide +kernel)), by decide +kernel⟩,
   ⟨State.reset, 23, Reg.CANC_BTN 23, by decide +kernel⟩⟩

theorem test_RegisterRequestsAreServedAtTheFarDie_met :
    (∃ (s : State) (u : State) (m : BMsg) (row : RegRow) (typ : Nat), s.linkUp = true ∧ (typ = 1 ∨ typ = 2 ∨ typ = 3) ∧ s.accept .toKykel
      { m with typ := typ } = some u ∧ rowAt (0x800000 + 4 * m.waddr) = some row ∧ s.xpl.kykHold = false ∧ s.xpl.kykOrder = [] ∧ typ = 1) ∧
    (∃ (s : State) (u : State) (x : State) (m : BMsg) (row : RegRow) (c : Nat) (typ : Nat), s.linkUp = true ∧ (typ = 1 ∨ typ = 2 ∨ typ =
      3) ∧ s.accept .toKykel { m with typ := typ } = some u ∧ rowAt (0x800000 + 4 * m.waddr) = some row ∧ s.xpl.kykHold = false ∧
      s.xpl.kykOrder = [] ∧ u.reapPosted.writeAt regEffect (initOf m.init) (0x800000 + 4 * m.waddr) m.data = (x, c) ∧ typ = 3) ∧
    (∃ (s : State) (u : State) (x : State) (m : BMsg) (row : RegRow) (c : Nat) (typ : Nat), s.linkUp = true ∧ (typ = 1 ∨ typ = 2 ∨ typ =
      3) ∧ s.accept .toKykel { m with typ := typ } = some u ∧ rowAt (0x800000 + 4 * m.waddr) = some row ∧ s.xpl.kykHold = false ∧
      s.xpl.kykOrder = [] ∧ u.reapPosted.writeAt regEffect (initOf m.init) (0x800000 + 4 * m.waddr) m.data = (x, c) ∧ typ = 2) ∧
    (∃ (s : State) (u : State) (m : BMsg) (row : RegRow) (typ : Nat) (i : Instr) (b : Bool), s.linkUp = true ∧ (typ = 1 ∨ typ = 2 ∨ typ =
      3) ∧ s.accept .toKykel { m with typ := typ } = some u ∧ rowAt (0x800000 + 4 * m.waddr) = some row ∧ i = (if typ = 1 then
      Instr.readRequestMsg .toKykel m b else if typ = 2 then .postedWriteMsg .toKykel m b else .nonPostedWriteMsg .toKykel m b) ∧ (b =
      true ∨ typ = 1 ∧ ∃ p ∈ s.xpl.kykOrder, p.1 = m.init)) ∧
    (∃ (s : State) (u : State) (m : BMsg) (row : RegRow) (typ : Nat) (i : Instr) (b : Bool), s.linkUp = true ∧ (typ = 1 ∨ typ = 2 ∨ typ =
      3) ∧ s.accept .toKykel { m with typ := typ } = some u ∧ rowAt (0x800000 + 4 * m.waddr) = some row ∧ i = (if typ = 1 then
      Instr.readRequestMsg .toKykel m b else if typ = 2 then .postedWriteMsg .toKykel m b else .nonPostedWriteMsg .toKykel m b) ∧ (b =
      true ∨ typ = 1 ∧ ∃ p ∈ s.xpl.kykOrder, p.1 = m.init)) ∧
    (∃ (s : State) (u : State) (m : BMsg) (row : RegRow) (typ : Nat) (i : Instr) (b : Bool), s.linkUp = true ∧ (typ = 1 ∨ typ = 2 ∨ typ =
      3) ∧ s.accept .toKykel { m with typ := typ } = some u ∧ rowAt (0x800000 + 4 * m.waddr) = some row ∧ i = (if typ = 1 then
      Instr.readRequestMsg .toKykel m b else if typ = 2 then .postedWriteMsg .toKykel m b else .nonPostedWriteMsg .toKykel m b) ∧ b =
      false ∧ s.xpl.kykHold = true ∧ s.xpl.kykOrder = []) ∧
    (∃ (s : State) (u : State) (m : BMsg) (row : RegRow) (typ : Nat) (i : Instr) (b : Bool), s.linkUp = true ∧ (typ = 1 ∨ typ = 2 ∨ typ =
      3) ∧ s.accept .toKykel { m with typ := typ } = some u ∧ rowAt (0x800000 + 4 * m.waddr) = some row ∧ i = (if typ = 1 then
      Instr.readRequestMsg .toKykel m b else if typ = 2 then .postedWriteMsg .toKykel m b else .nonPostedWriteMsg .toKykel m b) ∧ b =
      false ∧ s.xpl.kykHold = true ∧ s.xpl.kykOrder = []) ∧
    (∃ (s : State) (u : State) (m : BMsg) (row : RegRow) (typ : Nat) (u' : _), s.linkUp = true ∧ (typ = 1 ∨ typ = 2 ∨ typ = 3) ∧ s.accept
      .toKykel { m with typ := typ } = some u ∧ rowAt (0x800000 + 4 * m.waddr) = some row ∧ s.accept .toYatric { m with typ := 2 } = some
      u') :=
  ⟨⟨linkOn, ((State.accept linkOn .toKykel { (msgOf 1 1 ((Reg.WKN_HOLD - 0x800000) / 4) 5) with typ := 1 }).getD linkOn), msgOf 1 1
     ((Reg.WKN_HOLD - 0x800000) / 4) 5, ((rowAt (Reg.WKN_HOLD)).get (by decide +kernel)), 1, by decide +kernel⟩,
   ⟨linkOn, ((State.accept linkOn .toKykel { (msgOf 1 1 ((Reg.WKN_HOLD - 0x800000) / 4) 5) with typ := 3 }).getD linkOn), (State.writeAt
     regEffect (State.reapPosted ((State.accept linkOn .toKykel { (msgOf 1 1 ((Reg.WKN_HOLD - 0x800000) / 4) 5) with typ := 3 }).getD
     linkOn)) .laurel Reg.WKN_HOLD 5).1, msgOf 1 1 ((Reg.WKN_HOLD - 0x800000) / 4) 5, ((rowAt (Reg.WKN_HOLD)).get (by decide +kernel)),
     (State.writeAt regEffect (State.reapPosted ((State.accept linkOn .toKykel
     { (msgOf 1 1 ((Reg.WKN_HOLD - 0x800000) / 4) 5) with typ := 3 }).getD linkOn)) .laurel Reg.WKN_HOLD 5).2, 3, by decide +kernel⟩,
   ⟨linkOn, ((State.accept linkOn .toKykel { (msgOf 1 1 ((Reg.WKN_HOLD - 0x800000) / 4) 5) with typ := 2 }).getD linkOn), (State.writeAt
     regEffect (State.reapPosted ((State.accept linkOn .toKykel { (msgOf 1 1 ((Reg.WKN_HOLD - 0x800000) / 4) 5) with typ := 2 }).getD
     linkOn)) .laurel Reg.WKN_HOLD 5).1, msgOf 1 1 ((Reg.WKN_HOLD - 0x800000) / 4) 5, ((rowAt (Reg.WKN_HOLD)).get (by decide +kernel)),
     (State.writeAt regEffect (State.reapPosted ((State.accept linkOn .toKykel
     { (msgOf 1 1 ((Reg.WKN_HOLD - 0x800000) / 4) 5) with typ := 2 }).getD linkOn)) .laurel Reg.WKN_HOLD 5).2, 2, by decide +kernel⟩,
   ⟨linkOn, ((State.accept (linkOn) .toKykel { (msgOf 1 1 ((Reg.WKN_HOLD - 0x800000) / 4) 5) with typ := 3 }).getD linkOn), msgOf 1 1
     ((Reg.WKN_HOLD - 0x800000) / 4) 5, ((rowAt (Reg.WKN_HOLD)).get (by decide +kernel)), 3, .nonPostedWriteMsg .toKykel (msgOf 1 1
     ((Reg.WKN_HOLD - 0x800000) / 4) 5) true, true, by decide +kernel⟩,
   ⟨{ linkOn with xpl := { linkOn.xpl with kykOrder := [(1, 5)] } }, ((State.accept
     ({ linkOn with xpl := { linkOn.xpl with kykOrder := [(1, 5)] } }) .toKykel
     { (msgOf 1 1 ((Reg.WKN_HOLD - 0x800000) / 4) 5) with typ := 1 }).getD linkOn), msgOf 1 1 ((Reg.WKN_HOLD - 0x800000) / 4) 5, ((rowAt
     (Reg.WKN_HOLD)).get (by decide +kernel)), 1, .readRequestMsg .toKykel (msgOf 1 1 ((Reg.WKN_HOLD - 0x800000) / 4) 5) false, false,
     by decide +kernel⟩,
   ⟨{ linkOn with xpl := { linkOn.xpl with kykHold := true } }, ((State.accept
     ({ linkOn with xpl := { linkOn.xpl with kykHold := true } }) .toKykel
     { (msgOf 1 1 ((Reg.WKN_HOLD - 0x800000) / 4) 5) with typ := 2 }).getD linkOn), msgOf 1 1 ((Reg.WKN_HOLD - 0x800000) / 4) 5, ((rowAt
     (Reg.WKN_HOLD)).get (by decide +kernel)), 2, .postedWriteMsg .toKykel (msgOf 1 1 ((Reg.WKN_HOLD - 0x800000) / 4) 5) false, false,
     by decide +kernel⟩,
   ⟨{ linkOn with xpl := { linkOn.xpl with kykHold := true } }, ((State.accept
     ({ linkOn with xpl := { linkOn.xpl with kykHold := true } }) .toKykel
     { (msgOf 1 1 ((Reg.WKN_HOLD - 0x800000) / 4) 5) with typ := 1 }).getD linkOn), msgOf 1 1 ((Reg.WKN_HOLD - 0x800000) / 4) 5, ((rowAt
     (Reg.WKN_HOLD)).get (by decide +kernel)), 1, .readRequestMsg .toKykel (msgOf 1 1 ((Reg.WKN_HOLD - 0x800000) / 4) 5) false, false,
     by decide +kernel⟩,
   ⟨linkOn, ((State.accept linkOn .toKykel { (msgOf 1 1 ((Reg.WKN_HOLD - 0x800000) / 4) 5) with typ := 2 }).getD linkOn), msgOf 1 1
     ((Reg.WKN_HOLD - 0x800000) / 4) 5, ((rowAt (Reg.WKN_HOLD)).get (by decide +kernel)), 2, ((linkOn.accept .toYatric
     { (msgOf 1 1 ((Reg.WKN_HOLD - 0x800000) / 4) 5) with typ := 2 }).getD linkOn), by decide +kernel⟩⟩

theorem test_AnswersCompleteTheBridgeAccess_met :
    (∃ (s : State) (u : State) (m : BMsg) (r : BReq) (l : List BReq), s.linkUp = true ∧ s.accept .toYatric m = some u ∧ takeReq (fun q =>
      outstanding m.init q && !q.write) s.xpl.reqs = some (r, l)) ∧
    (∃ (s : State) (u : State) (m : BMsg) (r : BReq) (l : List BReq), s.linkUp = true ∧ s.accept .toYatric m = some u ∧ takeReq (fun q =>
      outstanding m.init q && q.write && q.np) s.xpl.reqs = some (r, l)) ∧
    (∃ (s : State) (u : State) (m : BMsg) (r : BReq) (l : List BReq), s.linkUp = true ∧ s.accept .toYatric m = some u ∧ takeReq (refusable
      m) s.xpl.reqs = some (r, l) ∧ (m.lock = false ∨ s.xpl.lockAsked = false ∨ m.waddr ≠ 0) ∧ r.tries < s.rf Reg.XPL_BRCTL 15 8) ∧
    (∃ (s : State) (u : State) (m : BMsg), s.linkUp = true ∧ s.accept .toYatric m = some u ∧ m.lock = true ∧ s.xpl.lockAsked = true ∧
      m.waddr = 0 ∧ s.xpl.lockTries < s.rf Reg.XPL_BRCTL 15 8) ∧
    (∃ (s : State) (u : State) (m : BMsg) (r : BReq) (l : List BReq), s.linkUp = true ∧ s.accept .toYatric m = some u ∧ takeReq (refusable
      m) s.xpl.reqs = some (r, l) ∧ r.chan = none) :=
  ⟨⟨withReqs [(⟨.laurel, Reg.WKN_HOLD, false, true, 5, .sent, 0, none⟩ : BReq)], ((withReqs [(⟨.laurel, Reg.WKN_HOLD, false, true, 5,
     .sent, 0, none⟩ : BReq)]).accept .toYatric (msgOf 4 1 ((Reg.WKN_HOLD - 0x800000) / 4) 9)).getD linkOn, msgOf 4 1 ((Reg.WKN_HOLD -
     0x800000) / 4) 9, (⟨.laurel, Reg.WKN_HOLD, false, true, 5, .sent, 0, none⟩ : BReq), [], by decide +kernel⟩,
   ⟨withReqs [(⟨.laurel, Reg.WKN_HOLD, true, true, 5, .sent, 0, none⟩ : BReq)], ((withReqs [(⟨.laurel, Reg.WKN_HOLD, true, true, 5, .sent,
     0, none⟩ : BReq)]).accept .toYatric (msgOf 5 1 ((Reg.WKN_HOLD - 0x800000) / 4) 9)).getD linkOn, msgOf 5 1 ((Reg.WKN_HOLD - 0x800000)
     / 4) 9, (⟨.laurel, Reg.WKN_HOLD, true, true, 5, .sent, 0, none⟩ : BReq), [], by decide +kernel⟩,
   ⟨withReqs [(⟨.laurel, Reg.WKN_HOLD, true, true, 5, .sent, 0, none⟩ : BReq)], ((withReqs [(⟨.laurel, Reg.WKN_HOLD, true, true, 5, .sent,
     0, none⟩ : BReq)]).accept .toYatric (msgOf 6 1 ((Reg.WKN_HOLD - 0x800000) / 4) 9)).getD linkOn, msgOf 6 1 ((Reg.WKN_HOLD - 0x800000)
     / 4) 9, (⟨.laurel, Reg.WKN_HOLD, true, true, 5, .sent, 0, none⟩ : BReq), [], by decide +kernel⟩,
   ⟨{ linkOn with xpl := { linkOn.xpl with lockWait := [.laurel], lockAsked := true } },
     (({ linkOn with xpl := { linkOn.xpl with lockWait := [.laurel], lockAsked := true } }).accept .toYatric
     ({ (msgOf 6 1 0 0) with lock := true })).getD linkOn, { (msgOf 6 1 0 0) with lock := true }, by decide +kernel⟩,
   ⟨withReqs [(⟨.laurel, Reg.WKN_HOLD, true, false, 5, .sent, 0, none⟩ : BReq)], ((withReqs [(⟨.laurel, Reg.WKN_HOLD, true, false, 5,
     .sent, 0, none⟩ : BReq)]).accept .toYatric (msgOf 7 1 ((Reg.WKN_HOLD - 0x800000) / 4) 9)).getD linkOn, msgOf 7 1 ((Reg.WKN_HOLD -
     0x800000) / 4) 9, (⟨.laurel, Reg.WKN_HOLD, true, false, 5, .sent, 0, none⟩ : BReq), [], by decide +kernel⟩⟩

theorem test_LocksAreAskedGrantedReleasedAndBroken_met :
    (∃ (s : State) (init : Initiator) (v : Word), init ≠ .kykel ∧ s.pwr.held = false ∧ bitOf v 0 = true ∧ bitOf v 1 = false) ∧
    (∃ (s : State) (init : Initiator) (v : Word), init ≠ .kykel ∧ s.pwr.held = false ∧ bitOf v 0 = false ∧ bitOf v 1 = true) ∧
    (∃ (s : State) (u : State) (init : Initiator) (m : BMsg) (d : LinkDir) (b : Bool), init ≠ .kykel ∧ s.linkUp = true ∧ s.accept d m =
      some u ∧ (b = false ∨ d = .toYatric ∧ s.collides b = false)) ∧
    (∃ (s : State) (u : State) (init : Initiator) (m : BMsg) (d : LinkDir) (b : Bool), init ≠ .kykel ∧ s.linkUp = true ∧ s.accept d m =
      some u ∧ (b = false ∨ d = .toYatric ∧ s.collides b = false)) ∧
    (∃ (s : State) (u : State) (init : Initiator) (m : BMsg) (d : LinkDir) (b : Bool), init ≠ .kykel ∧ s.linkUp = true ∧ s.accept d m =
      some u ∧ (b = false ∨ d = .toYatric ∧ s.collides b = false)) ∧
    (∃ (s : State) (u : State) (init : Initiator) (m : BMsg) (d : LinkDir), init ≠ .kykel ∧ s.linkUp = true ∧ s.accept d m = some u ∧ (d =
      .toKykel ∨ (∃ q ∈ s.xpl.reqs, q.phase = .sent) ∧ (∀ e, s.xpl.resv = some e → e ≤ s.now))) ∧
    (∃ (s : State) (u : State) (init : Initiator) (m : BMsg) (d : LinkDir), init ≠ .kykel ∧ s.linkUp = true ∧ s.accept d m = some u ∧ (d =
      .toKykel ∨ (∃ q ∈ s.xpl.reqs, q.phase = .sent) ∧ (∀ e, s.xpl.resv = some e → e ≤ s.now))) ∧
    (∃ (s : State) (u : State) (init : Initiator) (m : BMsg) (d : LinkDir) (i : Initiator) (rest : List Initiator), init ≠ .kykel ∧
      s.linkUp = true ∧ s.accept d m = some u ∧ s.xpl.lockWait = i :: rest ∧ i.code = m.init ∧ d = .toYatric) ∧
    (∃ (s : State) (u : State) (init : Initiator) (m : BMsg) (d : LinkDir), init ≠ .kykel ∧ s.linkUp = true ∧ s.accept d m = some u ∧ d =
      .toKykel) ∧
    (∃ (s : State) (init : Initiator) (g : Nat), init ≠ .kykel ∧ s.xpl.kykLock = some g ∧ g + 64000 ≤ s.mono) ∧
    (∃ (s : State) (init : Initiator), init ≠ .kykel ∧ s.lockOwner ≠ 3 ∧ s.xpl.lockAt + 64000 ≤ s.now) :=
  ⟨⟨linkOn, .laurel, 1, by decide +kernel⟩,
   ⟨plus linkOn [(Reg.XPL_LOCK, 4)], .laurel, 2, by decide +kernel⟩,
   ⟨linkOn, ((linkOn).accept LinkDir.toKykel (msgOf 8 1 0 0)).getD linkOn, .laurel, msgOf 8 1 0 0, .toKykel, false, by decide +kernel⟩,
   ⟨linkOn, ((linkOn).accept LinkDir.toYatric (msgOf 8 1 0 0)).getD linkOn, .laurel, msgOf 8 1 0 0, .toYatric, false, by decide +kernel⟩,
   ⟨linkOn, ((linkOn).accept LinkDir.toYatric (msgOf 8 1 0 0)).getD linkOn, .laurel, msgOf 8 1 0 0, .toYatric, true, by decide +kernel⟩,
   ⟨linkOn, ((linkOn).accept LinkDir.toKykel (msgOf 8 1 0 0)).getD linkOn, .laurel, msgOf 8 1 0 0, .toKykel, by decide +kernel⟩,
   ⟨withReqs [(⟨.laurel, Reg.WKN_HOLD, true, true, 5, .sent, 0, none⟩ : BReq)], ((withReqs [(⟨.laurel, Reg.WKN_HOLD, true, true, 5, .sent,
     0, none⟩ : BReq)]).accept LinkDir.toYatric (msgOf 8 1 0 0)).getD linkOn, .laurel, msgOf 8 1 0 0, .toYatric, by decide +kernel⟩,
   ⟨{ linkOn with xpl := { linkOn.xpl with lockWait := [.laurel], kykLock := some 0, yatLock := some 0 } },
     (({ linkOn with xpl := { linkOn.xpl with lockWait := [.laurel], kykLock := some 0, yatLock := some 0 } }).accept LinkDir.toYatric
     (msgOf 9 1 0 0)).getD linkOn, .laurel, msgOf 9 1 0 0, .toYatric, .laurel, [], by decide +kernel⟩,
   ⟨{ linkOn with xpl := { linkOn.xpl with lockWait := [.laurel], kykLock := some 0, yatLock := some 0 } },
     (({ linkOn with xpl := { linkOn.xpl with lockWait := [.laurel], kykLock := some 0, yatLock := some 0 } }).accept LinkDir.toKykel
     (msgOf 11 1 0 0)).getD linkOn, .laurel, msgOf 11 1 0 0, .toKykel, by decide +kernel⟩,
   ⟨{ linkOn with xpl := { linkOn.xpl with kykLock := some 5 }, wkn := { rxWait := [3, 15] }, mono := 64005 }, .laurel, 5,
     by decide +kernel⟩,
   ⟨{ plus linkOn [(Reg.XPL_LOCK, 4)] with tsy := { State.reset.tsy with loc := 64000 } }, .laurel, by decide +kernel⟩⟩

theorem test_UnansweredMessagesAreRepeated_met :
    (∃ (s : State) (dir : LinkDir) (u : Unacked) (rest : List Unacked), s.linkUp = true ∧ (s.sender dir).unacked = u :: rest ∧ u.sentAt +
      128 ≤ s.now) ∧
    (∃ (s : State) (dir : LinkDir) (u : Unacked) (rest : List Unacked), s.linkUp = true ∧ (s.sender dir).unacked = u :: rest ∧ u.sentAt +
      128 ≤ s.now) ∧
    (∃ (s : State) (dir : LinkDir) (u : Unacked) (rest : List Unacked), s.linkUp = true ∧ (s.sender dir).unacked = u :: rest ∧ u.sentAt +
      128 ≤ s.now) ∧
    (∃ (s : State) (pre : List BReq) (r : BReq) (post : List BReq) (e : Nat), s.xpl.reqs = pre ++ r :: post ∧ r.phase = .retryWait e ∧ e ≤
      s.now ∧ s.linkUp = true ∧ (s.lockOwner = 3 ∨ s.lockOwner = r.init.code) ∧ (∀ q ∈ pre, q.init ≠ r.init ∨ q.phase = .acked)) ∧
    (∃ (s : State) (e : _), s.xpl.resv = some e ∧ e ≤ s.now) :=
  ⟨⟨{ linkOn with xpl := { linkOn.xpl with yat := ⟨1, 0, [⟨msgOf 1 1 ((Reg.WKN_HOLD - 0x800000) / 4) 5, 0, 0⟩], 0, 0⟩ }, tsy := { State.reset.tsy with loc := 128 } },
     .toKykel, ⟨msgOf 1 1 ((Reg.WKN_HOLD - 0x800000) / 4) 5, 0, 0⟩, [], by decide +kernel⟩,
   ⟨{ linkOn with xpl := { linkOn.xpl with yat := ⟨1, 0, [⟨msgOf 1 1 ((Reg.WKN_HOLD - 0x800000) / 4) 5, 0, 3⟩], 0, 0⟩ }, tsy := { State.reset.tsy with loc := 128 } },
     .toKykel, ⟨msgOf 1 1 ((Reg.WKN_HOLD - 0x800000) / 4) 5, 0, 3⟩, [], by decide +kernel⟩,
   ⟨{ linkOn with xpl := { linkOn.xpl with yat := ⟨1, 0, [⟨msgOf 1 1 ((Reg.WKN_HOLD - 0x800000) / 4) 5, 0, 4⟩], 0, 0⟩ }, tsy := { State.reset.tsy with loc := 128 } },
     .toKykel, ⟨msgOf 1 1 ((Reg.WKN_HOLD - 0x800000) / 4) 5, 0, 4⟩, [], by decide +kernel⟩,
   ⟨{ withReqs [(⟨.laurel, Reg.WKN_HOLD, true, true, 5, .retryWait 10, 0, none⟩ : BReq)] with tsy := { State.reset.tsy with loc := 10 } },
     [], (⟨.laurel, Reg.WKN_HOLD, true, true, 5, .retryWait 10, 0, none⟩ : BReq), [], 10, by decide +kernel⟩,
   ⟨{ linkOn with xpl := { linkOn.xpl with resv := some 10 }, tsy := { State.reset.tsy with loc := 10 } }, 10, by decide +kernel⟩⟩

theorem test_LinkStatesFollowTrainingAndLoss_met :
    (∃ (s : State), s.linkState = xOFF ∧ s.pwr.mode = .active ∧ s.pwr.held = false) ∧
    (∃ (s : State) (d : Nat), s.linkState = xTRAIN ∧ 78 ≤ d ∧ d ≤ 82) ∧
    (∃ (s : State) (d : Nat), s.linkState = xTRAIN ∧ 78 ≤ d ∧ d ≤ 82) ∧
    (∃ (s : State), s.linkState = xTRAIN ∧ s.xpl.attemptAt + 20000 ≤ s.now) ∧
    (∃ (s : State), s.linkState = xTRAIN ∧ s.xpl.attemptAt + 20000 ≤ s.now) ∧
    (∃ (s : State), s.linkState = xUP) ∧
    (∃ (s : State) (v : Word), s.pwr.held = false ∧ bitOf v 0 = true ∧ (s.linkState = xUP ∨ s.linkState = xDOWN)) ∧
    (∃ (s : State) (v : Word), s.pwr.held = false ∧ bitOf v 0 = true ∧ (s.linkState = xUP ∨ s.linkState = xDOWN)) :=
  ⟨⟨(resetWith [(Reg.XPL_STAT, 0)]), by decide +kernel⟩,
   ⟨(resetWith [(Reg.XPL_STAT, 1), (Reg.XPL_CTL, 0x300)]), 82, by decide +kernel⟩,
   ⟨(resetWith [(Reg.XPL_STAT, 1), (Reg.XPL_CTL, 0x300)]), 78, by decide +kernel⟩,
   ⟨{ (resetWith [(Reg.XPL_STAT, 1), (Reg.XPL_CTL, 0x300)]) with tsy := { State.reset.tsy with loc := 20000 } }, by decide +kernel⟩,
   ⟨{ (resetWith [(Reg.XPL_STAT, 1), (Reg.XPL_CTL, 0x300)]) with tsy := { State.reset.tsy with loc := 20000 }, xpl := { State.reset.xpl with attempts := 2 } },
     by decide +kernel⟩,
   ⟨linkOn, by decide +kernel⟩,
   ⟨linkOn, 1, by decide +kernel⟩,
   ⟨(resetWith [(Reg.XPL_STAT, 4)]), 1, by decide +kernel⟩⟩

theorem test_LinkFramesMoveThePins_met :
    (∃ (s : State) (f : BitVec 256), s.linkUp = true ∧ (slotMsg f.toNat).typ = 0 ∧ (slotMsg f.toNat).ackv = false ∧ nfld f.toNat 47 44 =
      0) ∧
    (∃ (s : State) (dir : LinkDir), s.linkUp = true ∧ 4 ≤ (s.receiver dir).bad + 1) ∧
    (∃ (s : State) (dir : LinkDir), s.linkUp = true ∧ 4 ≤ (s.receiver dir).bad + 1) ∧
    (∃ (s : State) (dir : LinkDir), s.linkUp = true ∧ (s.receiver dir).bad + 1 < 4) ∧
    (∃ (s : State) (dir : LinkDir), s.linkUp = true ∧ (s.receiver dir).bad + 1 < 4) ∧
    (∃ (s : State) (dir : LinkDir), s.linkUp = true ∧ (s.receiver dir).bad + 1 < 4) :=
  ⟨⟨linkOn, 0, by decide +kernel⟩,
   ⟨{ linkOn with xpl := { linkOn.xpl with kyk := ⟨0, 0, [], 0, 3⟩, yat := ⟨0, 0, [], 0, 3⟩ } }, .toYatric, by decide +kernel⟩,
   ⟨{ linkOn with xpl := { linkOn.xpl with kyk := ⟨0, 0, [], 0, 3⟩, yat := ⟨0, 0, [], 0, 3⟩ } }, .toKykel, by decide +kernel⟩,
   ⟨linkOn, .toYatric, by decide +kernel⟩,
   ⟨{ linkOn with xpl := { linkOn.xpl with kyk := ⟨0, 0, [], 0, 2⟩, yat := ⟨0, 0, [], 0, 2⟩ } }, .toYatric, by decide +kernel⟩,
   ⟨{ linkOn with xpl := { linkOn.xpl with kyk := ⟨0, 0, [], 0, 2⟩, yat := ⟨0, 0, [], 0, 2⟩ } }, .toKykel, by decide +kernel⟩⟩

theorem test_ClockGatesAndSelfRefresh_met :
    (∃ (s : State) (i : Island), bitOf (s.force Reg.CHIP_CLKGATE) 0 = true ∧ s.islandIdle i = true) ∧
    (∃ (s : State) (i : Island), s.rb Reg.CHIP_CLKGATE (gateBit i) = true) ∧
    (∃ (s : State) (q : Nat), bitOf (s.force Reg.TKT_SRCTL) 0 = true ∧ s.dramQuiet = true ∧ s.sw.quietAt = some q ∧ q + 100000 ≤ s.now) ∧
    (∃ (s : State), s.inSave = false ∧ (bitOf (s.force Reg.TKT_SRCTL) 0 = false ∨ s.dramAsked = true)) :=
  ⟨⟨(resetWith [(Reg.CHIP_CLKGATE, 1), (Reg.CHIP_MODE_OVR, 0x7F)]), .drc, by decide +kernel⟩,
   ⟨(resetWith [(Reg.CHIP_CLKGATE, 0xF01)]), .drc, by decide +kernel⟩,
   ⟨{ (atTime ((resetWith [(Reg.TKT_SRCTL, 1), (Reg.CHIP_MODE_OVR, 0x7F)])) 100000) with sw := { State.reset.sw with quietAt := some 0 } },
     0, by decide +kernel⟩,
   ⟨(resetWith [(Reg.TKT_SRCTL, 0x80000000)]), by decide +kernel⟩⟩

theorem test_CanControllersReceiveAndTransmit_met :
    (∃ (s : State) (n : Fin 24), (s.canOf n).cfgPend = true ∧ (s.canOf n).txNow = none) ∧
    (∃ (s : State) (n : Fin 24) (f : CanFrame), s.canOn n = true ∧ s.canOp n ≠ 4 ∧ s.accepts n f = true ∧ (s.canOf n).txNow = none) ∧
    (∃ (s : State) (n : Fin 24) (g : _), (s.canOf n).selfDue = some g ∧ (s.canOf n).rx.length < 8) ∧
    (∃ (s : State) (n : Fin 24) (rxDom : Nat) (p : Nat × CanTx), s.maySend1 n = true ∧ headTx ((s.canOf n).bufs.filter (fun q => s.accepts
      n q.2.copy.frame)) = some p ∧ s.overdue p.2.copy = false ∧ (bitOf (s.canOf n).tdc 0 = false ∨ max rxDom (fld (s.canOf n).tdc 23 16)
      ≤ 255)) ∧
    (∃ (s : State) (n : Fin 24) (i : Nat) (x : CanTx), (s.canOf n).txNow = some i ∧ amGet (s.canOf n).bufs i = some x ∧ s.tec n ≤ 255) ∧
    (∃ (s : State) (n : Fin 24) (i : Nat), (s.canOf n).txNow = some i ∧ (s.canOf n).cancel = none) ∧
    (∃ (s : State) (n : Fin 24) (v : Word), s.pwr.held = false ∧ s.rf (Reg.CANC_TXCAN n) 31 30 ≠ 1 ∧ bitOf v 8 = false) :=
  ⟨⟨State.setCan State.reset 15 { canReset with cfgPend := true }, 15, by decide +kernel⟩,
   ⟨plus (State.setCan State.reset 23 { canReset with mode := 0x51 }) [(Reg.CANC_ESTAT 23, 2)], 23, fr, by decide +kernel⟩,
   ⟨State.setCan State.reset 23 { canReset with selfDue := some fr }, 23, fr, by decide +kernel⟩,
   ⟨plus (State.setCan (resetWith [(Reg.TRX_CTL 23, 3)]) 23 { canReset with mode := 0x51, bufs := [(0, ⟨copyOf (.ctl 23) fr, 0⟩)] })
     [(Reg.CANC_ESTAT 23, 2)], 23, 0, (0, ⟨copyOf (.ctl 23) fr, 0⟩), by decide +kernel⟩,
   ⟨plus (State.setCan (resetWith [(Reg.CANC_ECNT 23, 0xFF)]) 23
     { canReset with mode := 0x51, txNow := some 0, bufs := [(0, ⟨copyOf (.ctl 23) fr, 0⟩)] }) [(Reg.CANC_ESTAT 23, 2)], 23, 0, ⟨copyOf
     (.ctl 23) fr, 0⟩, by decide +kernel⟩,
   ⟨plus (State.setCan State.reset 23 { canReset with mode := 0x51, txNow := some 0, bufs := [(0, ⟨copyOf (.ctl 23) fr, 0⟩)] })
     [(Reg.CANC_ESTAT 23, 2)], 23, 0, by decide +kernel⟩,
   ⟨plus (State.setCan State.reset 23 { canReset with mode := 0x51, bufs := [(0, ⟨copyOf (.ctl 23) fr, 0⟩)] }) [(Reg.CANC_ESTAT 23, 2)],
     23, 0, by decide +kernel⟩⟩

theorem test_CanErrorConfinementAndRecovery_met :
    (∃ (s : State) (n : Fin 24), s.canState n = 1) ∧
    (∃ (s : State) (n : Fin 24) (xl : Bool), s.canOn n = true ∧ (s.canOf n).txNow.isSome = true ∧ s.tec n ≤ 255 ∧ s.xlSilent n xl = false) ∧
    (∃ (s : State) (n : Fin 24) (xl : Bool), s.canOn n = true ∧ (s.canOf n).txNow.isSome = true ∧ s.tec n ≤ 255 ∧ s.xlSilent n xl = false) ∧
    (∃ (s : State) (n : Fin 24) (xl : Bool), s.canOn n = true ∧ (s.canOf n).txNow.isSome = true ∧ s.tec n ≤ 255 ∧ s.xlSilent n xl = false) ∧
    (∃ (s : State) (n : Fin 24) (xl : Bool), s.canOn n = true ∧ (s.canOf n).txNow = none ∧ s.canOp n ≠ 4 ∧ s.canOp n ≠ 2 ∧ s.canOp n ≠ 3 ∧
      s.xlSilent n xl = false) ∧
    (∃ (s : State) (n : Fin 24) (role : Bool), s.canOn n = true ∧ (s.canOf n).flag = some role ∧ s.tec n ≤ 255) ∧
    (∃ (s : State) (n : Fin 24) (role : Bool), s.canOn n = true ∧ (s.canOf n).flag = some role ∧ s.tec n ≤ 255) ∧
    (∃ (s : State) (n : Fin 24) (tx : Bool) (xl : Bool), s.canOn n = true ∧ s.xlSilent n xl = true ∧ (s.canOf n).txNow.isSome = tx ∧ (tx =
      true ∨ s.canOp n ≠ 4)) ∧
    (∃ (s : State) (n : Fin 24) (tx : Bool) (xl : Bool), s.canOn n = true ∧ s.xlSilent n xl = true ∧ (s.canOf n).txNow.isSome = tx ∧ (tx =
      true ∨ s.canOp n ≠ 4)) ∧
    (∃ (s : State) (n : Fin 24), s.canOn n = true ∧ bitOf (s.canOf n).mode 7 = true ∧ (s.canOf n).txNow = none) ∧
    (∃ (s : State) (v : Word), s.pwr.held = false ∧ bitOf v 0 = true) ∧
    (∃ (s : State) (n : Fin 24), s.canState n = 5 ∧ 1408000 * bitTimeN (s.canOf n).btn ≤ (s.now - (s.canOf n).recAt) * 160) :=
  ⟨⟨plus (State.setCan State.reset 23 { canReset with mode := 0x51 }) [(Reg.CANC_ESTAT 23, 1)], 23, by decide +kernel⟩,
   ⟨plus (State.setCan (resetWith [(Reg.CANC_ECNT 23, 0)]) 23
     { canReset with mode := 0x51, txNow := some 0, bufs := [(0, ⟨copyOf (.ctl 23) fr, 0⟩)] }) [(Reg.CANC_ESTAT 23, 2)], 23, false,
     by decide +kernel⟩,
   ⟨plus (State.setCan (resetWith [(Reg.CANC_ECNT 23, 0x60)]) 23
     { canReset with mode := 0x51, txNow := some 0, bufs := [(0, ⟨copyOf (.ctl 23) fr, 0⟩)] }) [(Reg.CANC_ESTAT 23, 2)], 23, false,
     by decide +kernel⟩,
   ⟨plus (State.setCan (resetWith [(Reg.CANC_ECNT 23, 0x7F)]) 23
     { canReset with mode := 0x51, txNow := some 0, bufs := [(0, ⟨copyOf (.ctl 23) fr, 0⟩)] }) [(Reg.CANC_ESTAT 23, 2)], 23, false,
     by decide +kernel⟩,
   ⟨plus (State.setCan (resetWith [(Reg.CANC_ECNT 23, 0)]) 23 { canReset with mode := 0x51 }) [(Reg.CANC_ESTAT 23, 2)], 23, false,
     by decide +kernel⟩,
   ⟨plus (State.setCan (resetWith [(Reg.CANC_ECNT 23, 0x7F00F8)]) 23 { canReset with mode := 0x51, flag := some true }) [(Reg.CANC_ESTAT
     23, 2)], 23, true, by decide +kernel⟩,
   ⟨plus (State.setCan (resetWith [(Reg.CANC_ECNT 23, 0x7F00F8)]) 23 { canReset with mode := 0x51, flag := some false }) [(Reg.CANC_ESTAT
     23, 2)], 23, false, by decide +kernel⟩,
   ⟨plus (State.setCan State.reset 23
     { canReset with xlctl := 1, mode := 0x51, txNow := some 0, bufs := [(0, ⟨copyOf (.ctl 23) fr, 0⟩)] }) [(Reg.CANC_ESTAT 23, 2)], 23,
     true, true, by decide +kernel⟩,
   ⟨plus (State.setCan State.reset 23 { canReset with xlctl := 1, mode := 0x51 }) [(Reg.CANC_ESTAT 23, 2)], 23, false, true,
     by decide +kernel⟩,
   ⟨plus (State.setCan State.reset 23 { canReset with mode := 0xD1 }) [(Reg.CANC_ESTAT 23, 2)], 23, by decide +kernel⟩,
   ⟨plus (State.setCan State.reset 23 { canReset with mode := 0x51 }) [(Reg.CANC_ESTAT 23, 2)], 1, by decide +kernel⟩,
   ⟨atTime (plus (State.setCan State.reset 23 { canReset with mode := 0x51 }) [(Reg.CANC_ESTAT 23, 5), (Reg.CANC_ECNT 23, 0x120034)])
     1000000000, 23, by decide +kernel⟩⟩

theorem test_PrivetAcceptsRoutesAndPlacesFrames_met :
    (∃ (s : State) (n : Fin 24) (j : Job) (rest : List Job) (res : Bool), s.rb Reg.PRV_CTL_EN 0 = true ∧ s.prv.clmQ = [] ∧ s.prv.tpeQ = []
      ∧ s.slotFor n = some res ∧ (s.canOf n).rx = j :: rest ∧ j.src = n ∧ j.direct = none ∧ j.hq = none ∧ (j.self = true ∨ s.assocFor
      (s.rd Reg.CAUTH_CTL) false n j.frame = none) ∧ fld (s.rd (Reg.PRV_RTE_WIN n)) 28 16 = 0) ∧
    (∃ (s : State) (n : Fin 24) (j : Job) (rest : List Job) (res : Bool) (r : _) (ovf : _), s.rb Reg.PRV_CTL_EN 0 = true ∧ s.prv.clmQ = []
      ∧ s.prv.tpeQ = [] ∧ s.slotFor n = some res ∧ (s.canOf n).rx = j :: rest ∧ j.src = n ∧ j.direct = none ∧ j.hq = none ∧ (j.self = true
      ∨ s.assocFor (s.rd Reg.CAUTH_CTL) false n j.frame = none) ∧ s.searchWin (s.rf Reg.CHIP_PLAN 1 0) j (fld (s.rd (Reg.PRV_RTE_WIN n))
      28 16) (fld (s.rd (Reg.PRV_RTE_WIN n)) 14 0) [] = ([r], ovf) ∧ fld (s.rte r 3) 30 27 = 0 ∧ fld (s.rte r 3) 23 0 = 0 ∧ bitOf (s.rte r
      3) 31 = true ∧ (bitOf (s.rte r 3) 26 = false ∨ ∀ p ∈ s.prv.slots, p.2.phase = .routed)) ∧
    (∃ (s : State) (n : Fin 24) (j : Job) (rest : List Job) (res : Bool) (a : Nat), s.rb Reg.PRV_CTL_EN 0 = true ∧ s.prv.clmQ = [] ∧
      s.prv.tpeQ = [] ∧ s.slotFor n = some res ∧ (s.canOf n).rx = j :: rest ∧ j.src = n ∧ j.direct = none ∧ j.hq = none ∧ j.self = false ∧
      s.assocFor (s.rd Reg.CAUTH_CTL) false n j.frame = some a) ∧
    (∃ (s : State) (n : Fin 24) (id : _) (k : Nat) (sl : Slot) (c : _), amGet s.prv.slots id = some sl ∧ sl.copies[k]? = some c ∧ s.ready
      id k c = true ∧ c.eg = .ctl n ∧ s.canState n = 0) ∧
    (∃ (s : State) (n : Fin 24) (id : _) (k : Nat) (sl : Slot) (c : _) (i : Nat), amGet s.prv.slots id = some sl ∧ sl.copies[k]? = some c
      ∧ s.ready id k c = true ∧ c.eg = .ctl n ∧ s.canState n ≠ 0 ∧ s.standby = false ∧ s.heldOf n = [] ∧ (s.canOf n).credit n c.frame =
      true ∧ s.overdue c = false ∧ (List.range 64).find? (fun b => (amGet (s.canOf n).bufs b).isNone) = some i) ∧
    (∃ (s : State) (n : Fin 24) (c : _) (i : Nat), bestHeld (s.heldOf n) = some c ∧ s.overdue c = false ∧ (s.canOf n).credit n c.frame =
      true ∧ (List.range 64).find? (fun b => (amGet (s.canOf n).bufs b).isNone) = some i) ∧
    (∃ (s : State) (r : _) (w : CycWin), amGet s.prv.cyc r = some w ∧ w.start + w.len ≤ s.now) ∧
    (∃ (s : State), s.pwr.held = false) :=
  ⟨⟨plus (State.setCan State.reset 23 { canReset with rx := [{ jobOf 23 fr with src := 23 }] }) [(Reg.PRV_CTL_EN, 1)], 23,
     { jobOf 23 fr with src := 23 }, [], true, by decide +kernel⟩,
   ⟨plus (State.setCan (withTab State.reset [(0x10000C + 32 * 32767, 0x80000000), (0x10001C + 32 * 32767, 0x80010000)]) 23
     { canReset with rx := [{ jobOf 23 fr with src := 23 }] }) [(Reg.PRV_CTL_EN, 1), (Reg.PRV_RTE_WIN 23, 0x17FFF)], 23,
     { jobOf 23 fr with src := 23 }, [], true, 32767, false, by decide +kernel⟩,
   ⟨{ plus (State.setCan State.reset 23 { canReset with rx := [{ jobOf 23 fr with src := 23 }] }) [(Reg.PRV_CTL_EN, 1), (Reg.CAUTH_CTL, 1)] with cauth := [(5, [BitVec.ofNat 32 (0x80000000 + 0x123 * 2 ^ 18), BitVec.ofNat 32 (23 * 2 ^ 27), BitVec.ofNat 32 (8 * 2 ^ 16 + 16 * 2 ^ 11 + 8), 0])] },
     23, { jobOf 23 fr with src := 23 }, [], true, 5, by decide +kernel⟩,
   ⟨{ State.reset with prv := { State.reset.prv with slots := [(7, (⟨jobOf 0 fr, 0, .routed, [copyOf (.ctl 23) fr], false, false⟩ : Slot))] } },
     23, 7, 0, (⟨jobOf 0 fr, 0, .routed, [copyOf (.ctl 23) fr], false, false⟩ : Slot), copyOf (.ctl 23) fr, by decide +kernel⟩,
   ⟨{ plus (State.setCan State.reset 23 { canReset with mode := 0x51 }) [(Reg.CANC_ESTAT 23, 2)] with prv := { State.reset.prv with slots := [(7, (⟨jobOf 0 fr, 0, .routed, [copyOf (.ctl 23) fr], false, false⟩ : Slot))] } },
     23, 7, 0, (⟨jobOf 0 fr, 0, .routed, [copyOf (.ctl 23) fr], false, false⟩ : Slot), copyOf (.ctl 23) fr, 0, by decide +kernel⟩,
   ⟨{ plus (State.setCan State.reset 23 { canReset with mode := 0x51 }) [(Reg.CANC_ESTAT 23, 2)] with prv := { State.reset.prv with hold := [(23, [copyOf (.ctl 23) fr])] } },
     23, copyOf (.ctl 23) fr, 0, by decide +kernel⟩,
   ⟨{ (atTime State.reset 5) with prv := { State.reset.prv with cyc := [(32767, ⟨0, 5⟩)] } }, 32767, ⟨0, 5⟩, by decide +kernel⟩,
   ⟨State.reset, by decide +kernel⟩⟩

theorem test_BrambleAggregatesAndReceivesTunnelFrames_met :
    (∃ (s : State) (i : Fin 64), (s.txs i).agg ≠ [] ∧ (s.txs i).since + s.rf (Reg.BRM_TXS_W3 i) 31 20 * 1000 ≤ s.now) ∧
    (∃ (s : State) (b : _) (rest : _), s.prv.ethIn = b :: rest ∧ (∀ j ∈ s.prv.wait, j.src < 0x80 ∨ 0xBF < j.src) ∧ s.rb Reg.BRM_CTL 1 =
      false) ∧
    (∃ (s : State) (b : _) (rest : _) (sid : Nat) (q : Nat) (msgs : _) (k : Nat), s.prv.ethIn = b :: rest ∧ (∀ j ∈ s.prv.wait, j.src <
      0x80 ∨ 0xBF < j.src) ∧ s.rb Reg.BRM_CTL 1 = true ∧ avtpParse b = some (sid, q, msgs) ∧ s.rxStream sid = some k ∧ (s.seqCheck k q).2
      = true) ∧
    (∃ (s : State) (i : Fin 64) (at0 : _), amGet s.prv.rxAt i = some at0 ∧ s.rf (Reg.BRM_RXS_W2 i) 15 0 ≠ 0 ∧ at0 + s.rf (Reg.BRM_RXS_W2
      i) 15 0 * 1000000 ≤ s.now) :=
  ⟨⟨{ (atTime ((resetWith [(Reg.BRM_TXS_W3 63, 0x00100000), (Reg.BRM_CTL, 3)])) 1000) with prv := { State.reset.prv with tx := [(63, ⟨4, [[1, 2, 3]], 0⟩)] } },
     63, by decide +kernel⟩,
   ⟨{ State.reset with prv := { State.reset.prv with ethIn := [(List.replicate 12 (0 : Byte) ++ [0x22, 0xF0, 0x82, 0x80, 0, 9, 0, 0, 0, 0, 0, 0, 0, 5])] } },
     (List.replicate 12 (0 : Byte) ++ [0x22, 0xF0, 0x82, 0x80, 0, 9, 0, 0, 0, 0, 0, 0, 0, 5]), [], by decide +kernel⟩,
   ⟨{ ((resetWith [(Reg.BRM_CTL, 3), (Reg.BRM_RXS_W2 63, 0xC0000000), (Reg.BRM_RXS_W0 63, 5)])) with prv := { State.reset.prv with ethIn := [(List.replicate 12 (0 : Byte) ++ [0x22, 0xF0, 0x82, 0x80, 0, 9, 0, 0, 0, 0, 0, 0, 0, 5])] } },
     (List.replicate 12 (0 : Byte) ++ [0x22, 0xF0, 0x82, 0x80, 0, 9, 0, 0, 0, 0, 0, 0, 0, 5]), [], 5, 9, [], 63, by decide +kernel⟩,
   ⟨{ (atTime ((resetWith [(Reg.BRM_RXS_W2 63, 0x80000001)])) 1000000) with prv := { State.reset.prv with rxAt := [(63, 0)] } }, 63, 0,
     by decide +kernel⟩⟩

theorem test_SignalsAreUnpackedAgedAndFormed_met :
    (∃ (s : State) (h : _) (i : Nat) (w : _) (ps : List Nat), sigNext s.prv.sigQ = some (.job h) ∧ bitOf (s.cfg h.epoch Reg.PRV_SIG_CTL) 0
      = true ∧ s.pduOn h.ix (s.cf h.epoch Reg.CHIP_PLAN 1 0) = true ∧ bitOf (s.pduw h.ix 1) 31 = false ∧ fld (s.pduw h.ix 6) 21 16 = 1 ∧ i
      = fld (s.pduw h.ix 6) 15 0 ∧ s.sigOn i (s.cf h.epoch Reg.CHIP_PLAN 1 0) = true ∧ fld (s.sigw i 3) 30 29 = 0 ∧ w = fld (s.sigw i 0)
      19 14 ∧ 1 ≤ w ∧ w ≤ 36 ∧ posInside (fieldPos (bitOf (s.sigw i 0) 20) w (fld (s.sigw i 0) 13 0)) h.job.frame.data.length = some ps ∧
      fld (s.sigw i 1) 19 16 = 0) ∧
    (∃ (s : State) (i : Fin 65536), s.staleDue i = true) ∧
    (∃ (s : State) (i : Nat) (g : _), sigNext s.prv.sigQ = some (.mark i g)) ∧
    (∃ (s : State) (l : Fin 16384), bitOf (s.pduw l 15) 31 = true ∧ bitOf (s.pduw l 1) 31 = true ∧ (fld (s.pduw l 4) 14 12 = 1 ∨ fld
      (s.pduw l 4) 14 12 = 4 ∨ fld (s.pduw l 4) 14 12 = 5) ∧ fld (s.pduw l 3) 15 0 ≠ 0 ∧ s.tsy.full / 100000 % fld (s.pduw l 3) 15 0 = fld
      (s.pduw l 5) 31 16 % fld (s.pduw l 3) 15 0 ∧ (s.pduSt l).tick ≠ some (s.tsy.full / 100000, s.rf Reg.TSY_STAT 15 8) ∧ s.rb
      Reg.PRV_PDU_CTL 0 = true ∧ s.tsy.stepTo ≤ s.tsy.full / 100000 * 100000 ∧ s.pduOn l (s.rf Reg.CHIP_PLAN 1 0) = true ∧ s.pduBad l =
      false ∧ (s.pduSt l).defer = none ∧ (s.pduSt l).last = none) ∧
    (∃ (s : State) (l : Fin 16384) (due : Nat) (ev : Bool), (s.pduSt l).defer = some (due, ev) ∧ due ≤ s.now) ∧
    (∃ (s : State) (l : _) (at0 : Nat) (rest : _), s.prv.trigQ = (at0, l, true) :: rest ∧ s.pduOn l (s.rf Reg.CHIP_PLAN 1 0) = true ∧
      bitOf (s.pduw l 1) 31 = true ∧ s.pduBad l = false) ∧
    (∃ (s : State), s.pwr.held = false) :=
  ⟨⟨{ (withTab ((resetWith [(Reg.PRV_SIG_CTL, 1), (Reg.PRV_PDU_CTL, 1)])) [(0x20003C + 64 * 3, 0x80010000), (0x200018 + 64 * 3, 0x0001FFFF), (16 * 65535, 36 * 2 ^ 14 + 28), (16 * 65535 + 12, 0x81000000)]) with prv := { State.reset.prv with sigQ := [.job (⟨jobOf 0 fr, 0, 3⟩ : Handoff)] } },
     (⟨jobOf 0 fr, 0, 3⟩ : Handoff), 65535, 36, List.range 36 |>.map (· + 28), by decide +kernel⟩,
   ⟨atTime (withTab ((resetWith [(Reg.PRV_SIG_CTL, 3)])) [(16 * 65535 + 12, 0x81000000), (16 * 65535 + 8, 1)]) 102001, 65535,
     by decide +kernel⟩,
   ⟨{ State.reset with prv := { State.reset.prv with sigQ := [.mark 9 0], slotv := [(9, ⟨5, 0, 0, true, true, 0⟩)] } }, 9, 0,
     by decide +kernel⟩,
   ⟨plus (withTab State.reset [(0x20003C + 64 * 16383, 0x80010000), (0x200004 + 64 * 16383, 0x80000008), (0x200010 + 64 * 16383, 0x1000),
     (0x20000C + 64 * 16383, 1)]) [(Reg.PRV_PDU_CTL, 1)], 16383, by decide +kernel⟩,
   ⟨{ atTime (plus (withTab State.reset [(0x20003C + 64 * 16383, 0x80010000), (0x200004 + 64 * 16383, 0x80000008), (0x200010 + 64 * 16383, 0x1000), (0x20000C + 64 * 16383, 1)]) [(Reg.PRV_PDU_CTL, 1)]) 8 with prv := { State.reset.prv with pdu := [(16383, ⟨0, none, some (8, true), none⟩)] } },
     16383, 8, true, by decide +kernel⟩,
   ⟨{ plus (withTab State.reset [(0x20003C + 64 * 16383, 0x80010000), (0x200004 + 64 * 16383, 0x80000008), (0x200010 + 64 * 16383, 0x1000), (0x20000C + 64 * 16383, 1)]) [(Reg.PRV_PDU_CTL, 1)] with prv := { State.reset.prv with trigQ := [(0, 16383, true)] } },
     16383, 0, [], by decide +kernel⟩,
   ⟨State.reset, by decide +kernel⟩⟩

theorem test_ClaimLedgerLearnsAnswersAndClaims_met :
    (∃ (s : State) (h : _) (rest : _), s.prv.clmQ = h :: rest ∧ s.noneWaits ∧ nfld h.job.frame.ident 23 16 = 0xEE ∧
      h.job.frame.data.length ≠ 8) ∧
    (∃ (s : State) (n : Fin 24) (h : _) (rest : _) (k : Nat) (i : Nat) (x : Nat) (name : Nat), s.prv.clmQ = h :: rest ∧ s.noneWaits ∧ nfld
      h.job.frame.ident 23 16 = 0xEE ∧ h.job.src = n ∧ h.job.frame.data.length = 8 ∧ x = nfld h.job.frame.ident 7 0 ∧ x < 0xFE ∧ name =
      leNat h.job.frame.data ∧ s.clmFind n name = none ∧ (∀ o ∈ s.clmOn n, s.clmHolds o = false ∨ s.clmSa o ≠ x ∨ s.clmShadowed o = true)
      ∧ (List.range (2048 - s.cf h.epoch Reg.CLM_CTL 31 21)).find? (fun b => !s.clmValid (s.cf h.epoch Reg.CLM_CTL 31 21 + b)) = some k ∧
      i = s.cf h.epoch Reg.CLM_CTL 31 21 + k) ∧
    (∃ (s : State) (n : Fin 24) (e : Fin 2048) (h : _) (rest : _), s.prv.clmQ = h :: rest ∧ s.noneWaits ∧ nfld h.job.frame.ident 23 16 ≠
      0xEE ∧ h.job.src = n ∧ (s.clmOn n).filter (fun o => s.clmOwn o && !s.clmShadowed o) = [(e : Nat)] ∧ s.clmHolds e = true ∧ (nfld
      h.job.frame.ident 15 8 = 0xFF ∨ s.clmSa e = nfld h.job.frame.ident 15 8) ∧ bitOf (s.cfg h.epoch Reg.CLM_CTL) 2 = true ∧ s.clmForms =
      true ∧ s.canState n ≠ 0) ∧
    (∃ (s : State) (n : Fin 24) (e : Fin 2048) (h : _) (rest : _), s.prv.clmQ = h :: rest ∧ s.noneWaits ∧ nfld h.job.frame.ident 23 16 ≠
      0xEE ∧ h.job.src = n ∧ (s.clmOn n).filter (fun o => s.clmOwn o && !s.clmShadowed o) = [(e : Nat)] ∧ s.clmHolds e = true ∧ (nfld
      h.job.frame.ident 15 8 = 0xFF ∨ s.clmSa e = nfld h.job.frame.ident 15 8) ∧ bitOf (s.cfg h.epoch Reg.CLM_CTL) 2 = true ∧ s.clmForms =
      true ∧ s.canState n ≠ 0) ∧
    (∃ (s : State) (e : Fin 2048) (k : Nat) (rest : _), s.prv.reports = ((e : Nat), k) :: rest ∧ s.clmPending e = true ∧ amGet s.clm.claim
      e = some k) ∧
    (∃ (s : State) (e : Fin 2048), timerDue s.clm.wait e s.now = true ∧ s.clmPending e = true) ∧
    (∃ (s : State) (e : Fin 2048), timerDue s.clm.retry e s.now = true ∧ s.clmPending e = true ∧ s.clmForms = true ∧ s.canState (s.clmSeg
      e) ≠ 0) ∧
    (∃ (s : State) (e : Fin 2048), timerDue s.clm.cannot e s.now = true) ∧
    (∃ (s : State) (v : Word), s.pwr.held = false ∧ bitOf v 31 = true ∧ fld v 4 0 ≤ 23 ∧ s.clmForms = true ∧ s.canState (fld v 4 0) ≠ 0) ∧
    (∃ (s : State) (n : Fin 24), (s.canOf n).openDue = true) ∧
    (∃ (s : State) (v : Word) (n : Fin 24), s.pwr.held = false ∧ nbit (fld v 23 0) n = true) ∧
    (∃ (s : State) (n : Fin 24), timerDue s.clm.win n s.now = true) :=
  ⟨⟨withClm State.reset (handed 23 (jfr 0xEE 0xFF 0x20 [1, 2, 3])), handed 23 (jfr 0xEE 0xFF 0x20 [1, 2, 3]), [], by decide +kernel⟩,
   ⟨withClm (plus State.reset [(Reg.CLM_CTL, 5), (Reg.CANC_ESTAT 23, 2)]) (handed 23 (jfr 0xEE 0xFF 0xFD [7, 0, 0, 0, 0, 0, 0, 0])), 23,
     handed 23 (jfr 0xEE 0xFF 0xFD [7, 0, 0, 0, 0, 0, 0, 0]), [], 0, 0, 0xFD, 7, by decide +kernel⟩,
   ⟨withClm (plus (withTab State.reset (ledge 2047 7 2 23 0 0x20)) [(Reg.CLM_CTL, 5), (Reg.CANC_ESTAT 23, 2)]) (handed 23 (jfr 0xEA 0xFF
     0x21 [0, 0xEE, 0])), 23, 2047, handed 23 (jfr 0xEA 0xFF 0x21 [0, 0xEE, 0]), [], by decide +kernel⟩,
   ⟨withClm (plus (withTab State.reset (ledge 2047 7 2 23 0 0x20)) [(Reg.CLM_CTL, 5), (Reg.CANC_ESTAT 23, 2)]) (handed 23 (jfr 0xEA 0x20
     0x21 [0, 0xEE, 0])), 23, 2047, handed 23 (jfr 0xEA 0x20 0x21 [0, 0xEE, 0]), [], by decide +kernel⟩,
   ⟨{ (plus (withTab State.reset (ledge 2047 7 2 23 3 0x20)) [(Reg.CLM_CTL, 5), (Reg.CANC_ESTAT 23, 2)]) with prv := { State.reset.prv with reports := [(2047, 3)] }, clm := { claim := [(2047, 3)] } },
     2047, 3, [], by decide +kernel⟩,
   ⟨{ (atTime (plus (withTab State.reset (ledge 2047 7 2 23 3 0x20)) [(Reg.CLM_CTL, 5), (Reg.CANC_ESTAT 23, 2)]) 9) with clm := { wait := [(2047, 9)] } },
     2047, by decide +kernel⟩,
   ⟨{ (atTime (plus (withTab State.reset (ledge 2047 7 2 23 3 0x20)) [(Reg.CLM_CTL, 5), (Reg.CANC_ESTAT 23, 2)]) 9) with clm := { retry := [(2047, 9)] } },
     2047, by decide +kernel⟩,
   ⟨{ (atTime (plus (withTab State.reset (ledge 2047 7 2 23 3 0x20)) [(Reg.CLM_CTL, 5), (Reg.CANC_ESTAT 23, 2)]) 9) with clm := { cannot := [(2047, 9)] } },
     2047, by decide +kernel⟩,
   ⟨(plus (withTab State.reset (ledge 2047 7 2 23 0 0x20)) [(Reg.CLM_CTL, 5), (Reg.CANC_ESTAT 23, 2)]), 0x80000017, by decide +kernel⟩,
   ⟨State.setCan (plus (withTab State.reset (ledge 2047 7 2 23 0 0x20)) [(Reg.CLM_CTL, 5), (Reg.CANC_ESTAT 23, 2)]) 23
     { canReset with openDue := true }, 23, by decide +kernel⟩,
   ⟨(plus (withTab State.reset (ledge 2047 7 2 23 0 0x20)) [(Reg.CLM_CTL, 5), (Reg.CANC_ESTAT 23, 2)]), 0x800000, 23, by decide +kernel⟩,
   ⟨{ (atTime (plus (withTab State.reset (ledge 2047 7 2 23 0 0x20)) [(Reg.CLM_CTL, 5), (Reg.CANC_ESTAT 23, 2)]) 9) with clm := { win := [(23, 9)] } },
     23, by decide +kernel⟩⟩

theorem test_TransportSessionsOpenFlowAndEnd_met :
    (∃ (s : State) (h : Handoff) (rest : List Handoff) (i : Fin 128), s.prv.tpeQ = h :: rest ∧ s.noneWaits ∧ jPf h.job = 0xEC ∧ jCb h.job
      = 16 ∧ s.standby = false ∧ s.tpeWhere h.epoch h.job.src (jDa h.job) = .host ∧ s.tpeReason (s.tpeKey h.job.src (jSa h.job) (jDa
      h.job)).isSome (tpSizeOk (leAt h.job.frame.data 1 2) (byteAt h.job.frame.data 3)) (leAt h.job.frame.data 1 2) true = none ∧
      s.tpeFreeIx = some i) ∧
    (∃ (s : State) (h : Handoff) (rest : List Handoff) (r : _), s.prv.tpeQ = h :: rest ∧ s.noneWaits ∧ jPf h.job = 0xEC ∧ jCb h.job = 16 ∧
      s.standby = false ∧ s.tpeWhere h.epoch h.job.src (jDa h.job) = .host ∧ s.tpeReason (s.tpeKey h.job.src (jSa h.job) (jDa
      h.job)).isSome (tpSizeOk (leAt h.job.frame.data 1 2) (byteAt h.job.frame.data 3)) (leAt h.job.frame.data 1 2) true = some r) ∧
    (∃ (s : State) (h : Handoff) (rest : List Handoff) (i : Fin 128) (ds : List TpeDest), s.prv.tpeQ = h :: rest ∧ s.noneWaits ∧ jPf h.job
      = 0xEC ∧ jCb h.job = 32 ∧ jDa h.job = 0xFF ∧ s.standby = false ∧ s.bamDests h.epoch h.job.src (jSa h.job) = (ds, 0) ∧ ds ≠ [] ∧
      s.tpeKey h.job.src (jSa h.job) 0xFF = none ∧ s.tpeReason false (tpSizeOk (leAt h.job.frame.data 1 2) (byteAt h.job.frame.data 3))
      (leAt h.job.frame.data 1 2) true = none ∧ s.tpeFreeIx = some i) ∧
    (∃ (s : State) (h : Handoff) (rest : List Handoff) (i : Fin 128) (t0 : TpeSession), s.prv.tpeQ = h :: rest ∧ s.noneWaits ∧ s.inSave =
      false ∧ jPf h.job = 0xEB ∧ h.job.frame.data.length = 8 ∧ s.tpeIngress false h.job.src (jSa h.job) (jDa h.job) = some ((i : Nat), t0)
      ∧ t0.kind = 0 ∧ jCb h.job = t0.got + 1 ∧ t0.got + 1 < t0.winEnd ∧ 7 * t0.got + 7 < t0.size) ∧
    (∃ (s : State) (h : Handoff) (rest : List Handoff) (i : Fin 128) (t0 : TpeSession), s.prv.tpeQ = h :: rest ∧ s.noneWaits ∧ jPf h.job =
      0xC8 ∧ jCb h.job = 22 ∧ s.tpeIngress true h.job.src (jSa h.job) (jDa h.job) = some ((i : Nat), t0) ∧ leAt h.job.frame.data 2 3 + 1 =
      t0.winStart ∧ t0.got = leAt h.job.frame.data 2 3 ∧ 1 ≤ byteAt h.job.frame.data 1 ∧ leAt h.job.frame.data 2 3 + byteAt
      h.job.frame.data 1 ≤ t0.winEnd) ∧
    (∃ (s : State) (h : Handoff) (rest : List Handoff) (i : Fin 128) (t0 : TpeSession) (q : TpePart) (g : _) (sa : _) (da : _), s.prv.tpeQ
      = h :: rest ∧ s.noneWaits ∧ jPf h.job = 0xEC ∧ jCb h.job = 17 ∧ s.tpeRelay false h.job.src (jSa h.job) (jDa h.job) = some ((i :
      Nat), t0, q) ∧ q.dest = .relay g sa da ∧ q.wait ≠ .window ∧ s.ses i = some t0) ∧
    (∃ (s : State) (h : Handoff) (rest : List Handoff) (i : Fin 128) (t0 : TpeSession) (q : TpePart), s.prv.tpeQ = h :: rest ∧ s.noneWaits
      ∧ jPf h.job = 0xEC ∧ jCb h.job = 19 ∧ s.tpeRelay false h.job.src (jSa h.job) (jDa h.job) = some ((i : Nat), t0, q) ∧ s.ses i = some
      t0 ∧ t0.parts = [q] ∧ t0.failed = false) ∧
    (∃ (s : State) (h : Handoff) (rest : List Handoff) (i : Fin 128) (t0 : TpeSession), s.prv.tpeQ = h :: rest ∧ s.noneWaits ∧ jPf h.job =
      0xEC ∧ jCb h.job = 255 ∧ s.tpeIngress false h.job.src (jSa h.job) (jDa h.job) = some ((i : Nat), t0)) ∧
    (∃ (s : State) (i : Fin 128) (t0 : TpeSession), s.ses i = some t0 ∧ t0.delivering = false ∧ t0.any = true ∧ t0.since + 750000000 ≤
      s.now) ∧
    (∃ (s : State) (i : Fin 128) (t0 : TpeSession), s.ses i = some t0 ∧ t0.delivering = false ∧ t0.any = false ∧ t0.kind ≠ 1 ∧ t0.since +
      1250000000 ≤ s.now) ∧
    (∃ (s : State) (i : Fin 128) (t0 : TpeSession) (q : TpePart) (g : _) (sa : _) (da : _), s.ses i = some t0 ∧ t0.parts.find? (fun r =>
      r.id == q.id) = some q ∧ q.dest = .relay g sa da ∧ (q.wait = .cts ∨ q.wait = .eoma) ∧ q.since + 1250000000 ≤ s.now) ∧
    (∃ (s : State) (i : Fin 128) (t0 : TpeSession) (q : TpePart) (g : _) (sa : _) (da : _), s.ses i = some t0 ∧ t0.parts.find? (fun r =>
      r.id == q.id) = some q ∧ q.dest = .relay g sa da ∧ (q.wait = .cts ∨ q.wait = .eoma) ∧ q.since + 1250000000 ≤ s.now) ∧
    (∃ (s : State) (i : Fin 128) (t0 : TpeSession) (q : TpePart) (g : _) (sa : _) (da : _), s.ses i = some t0 ∧ t0.parts.find? (fun r =>
      r.id == q.id) = some q ∧ q.dest = .relay g sa da ∧ q.wait = .ctsHold ∧ q.since + 1050000000 ≤ s.now) ∧
    (∃ (s : State) (i : Fin 128) (t0 : TpeSession) (q : TpePart) (n : Nat) (sa : _), s.inSave = false ∧ s.ses i = some t0 ∧ t0.parts.find?
      (fun r => r.id == q.id) = some q ∧ q.dest = .bamCan n sa ∧ q.wait = .gap ∧ q.since + clampN 50 200 (s.rf Reg.TPE_CTL 31 24) *
      1000000 ≤ s.now ∧ n ≤ 23 ∧ s.canState n ≠ 0 ∧ s.isolated n = false) ∧
    (∃ (s : State) (p : Nat × Nat), s.tpe.next = some p ∧ s.tpe.ses = []) ∧
    (∃ (s : State) (t0 : TpeSession) (v : Word), s.pwr.held = false ∧ s.ses (fld v 6 0) = some t0) :=
  ⟨⟨withTpe (withTab ((resetWith [(Reg.TPE_CTL, 1), (Reg.CANC_ESTAT 0, 2), (Reg.CANC_ESTAT 1, 2), (Reg.CLM_CTL, 1)])) (ledge 0 7 2 0 0
     0x20 ++ ledge 1 8 2 1 0 0x21)) (handed 0 (jfr 0xEC 0x20 0x10 [16, 30, 0, 5, 255, 0, 0xEF, 0])), (handed 0 (jfr 0xEC 0x20 0x10 [16,
     30, 0, 5, 255, 0, 0xEF, 0])), [], 0, by decide +kernel⟩,
   ⟨withTpe (withTab ((resetWith [(Reg.TPE_CTL, 1), (Reg.CANC_ESTAT 0, 2), (Reg.CANC_ESTAT 1, 2), (Reg.CLM_CTL, 1)])) (ledge 0 7 2 0 0
     0x20 ++ ledge 1 8 2 1 0 0x21)) (handed 0 (jfr 0xEC 0x20 0x10 [16, 30, 0, 4, 255, 0, 0xEF, 0])), (handed 0 (jfr 0xEC 0x20 0x10 [16,
     30, 0, 4, 255, 0, 0xEF, 0])), [], 2, by decide +kernel⟩,
   ⟨withTpe (plus (withTab ((resetWith [(Reg.TPE_CTL, 1), (Reg.CANC_ESTAT 0, 2), (Reg.CANC_ESTAT 1, 2), (Reg.CLM_CTL, 1)])) (ledge 0 7 2 0
     0 0x20 ++ ledge 1 8 2 1 0 0x21)) [(Reg.TPE_BAM 0, 0x80000002)]) (handed 0 (jfr 0xEC 0xFF 0x10 [32, 30, 0, 5, 255, 0, 0xFE, 0])),
     (handed 0 (jfr 0xEC 0xFF 0x10 [32, 30, 0, 5, 255, 0, 0xFE, 0])), [], 0, [.bamCan 1 0x10, .host 0], by decide +kernel⟩,
   ⟨withTpe (withSes (withTab ((resetWith [(Reg.TPE_CTL, 1), (Reg.CANC_ESTAT 0, 2), (Reg.CANC_ESTAT 1, 2), (Reg.CLM_CTL, 1)])) (ledge 0 7
     2 0 0 0x20 ++ ledge 1 8 2 1 0 0x21)) 127 (sesOf 0 0x20 0 true false [partOf (.host 0) .start])) (handed 0 (jfr 0xEB 0x20 0x10 [1, 2,
     3, 4, 5, 6, 7, 8])), (handed 0 (jfr 0xEB 0x20 0x10 [1, 2, 3, 4, 5, 6, 7, 8])), [], 127, (sesOf 0 0x20 0 true false [partOf (.host 0)
     .start]), by decide +kernel⟩,
   ⟨withTpe (withSes (withTab ((resetWith [(Reg.TPE_CTL, 1), (Reg.CANC_ESTAT 0, 2), (Reg.CANC_ESTAT 1, 2), (Reg.CLM_CTL, 1)])) (ledge 0 7
     2 0 0 0x20 ++ ledge 1 8 2 1 0 0x21)) 127 (sesOf 2 0x20 0 true false [])) (handed 0 (jfr 0xC8 0x20 0x10 [22, 3, 0, 0, 0, 0, 0xEF,
     0])), (handed 0 (jfr 0xC8 0x20 0x10 [22, 3, 0, 0, 0, 0, 0xEF, 0])), [], 127, (sesOf 2 0x20 0 true false []), by decide +kernel⟩,
   ⟨withTpe (withSes (withTab ((resetWith [(Reg.TPE_CTL, 1), (Reg.CANC_ESTAT 0, 2), (Reg.CANC_ESTAT 1, 2), (Reg.CLM_CTL, 1)])) (ledge 0 7
     2 0 0 0x20 ++ ledge 1 8 2 1 0 0x21)) 127 (sesOf 0 0x20 5 true true [(partOf (.relay 1 0x21 0x22) .cts)])) (handed 1 (jfr 0xEC 0x21
     0x22 [17, 0, 1, 255, 255, 0, 0xEF, 0])), (handed 1 (jfr 0xEC 0x21 0x22 [17, 0, 1, 255, 255, 0, 0xEF, 0])), [], 127, (sesOf 0 0x20 5
     true true [(partOf (.relay 1 0x21 0x22) .cts)]), (partOf (.relay 1 0x21 0x22) .cts), 1, 0x21, 0x22, by decide +kernel⟩,
   ⟨withTpe (withSes (withTab ((resetWith [(Reg.TPE_CTL, 1), (Reg.CANC_ESTAT 0, 2), (Reg.CANC_ESTAT 1, 2), (Reg.CLM_CTL, 1)])) (ledge 0 7
     2 0 0 0x20 ++ ledge 1 8 2 1 0 0x21)) 127 (sesOf 0 0x20 5 true true [(partOf (.relay 1 0x21 0x22) .eoma)])) (handed 1 (jfr 0xEC 0x21
     0x22 [19, 30, 0, 5, 255, 0, 0xEF, 0])), (handed 1 (jfr 0xEC 0x21 0x22 [19, 30, 0, 5, 255, 0, 0xEF, 0])), [], 127, (sesOf 0 0x20 5
     true true [(partOf (.relay 1 0x21 0x22) .eoma)]), (partOf (.relay 1 0x21 0x22) .eoma), by decide +kernel⟩,
   ⟨withTpe (withSes (withTab ((resetWith [(Reg.TPE_CTL, 1), (Reg.CANC_ESTAT 0, 2), (Reg.CANC_ESTAT 1, 2), (Reg.CLM_CTL, 1)])) (ledge 0 7
     2 0 0 0x20 ++ ledge 1 8 2 1 0 0x21)) 127 (sesOf 0 0x20 0 true false [partOf (.host 0) .start])) (handed 0 (jfr 0xEC 0x20 0x10 [255,
     1, 255, 255, 255, 0, 0xEF, 0])), (handed 0 (jfr 0xEC 0x20 0x10 [255, 1, 255, 255, 255, 0, 0xEF, 0])), [], 127, (sesOf 0 0x20 0 true
     false [partOf (.host 0) .start]), by decide +kernel⟩,
   ⟨atTime (withSes (withTab ((resetWith [(Reg.TPE_CTL, 1), (Reg.CANC_ESTAT 0, 2), (Reg.CANC_ESTAT 1, 2), (Reg.CLM_CTL, 1)])) (ledge 0 7 2
     0 0 0x20 ++ ledge 1 8 2 1 0 0x21)) 127 (sesOf 0 0x20 0 true false [partOf (.host 0) .start])) 750000000, 127, (sesOf 0 0x20 0 true
     false [partOf (.host 0) .start]), by decide +kernel⟩,
   ⟨atTime (withSes (withTab ((resetWith [(Reg.TPE_CTL, 1), (Reg.CANC_ESTAT 0, 2), (Reg.CANC_ESTAT 1, 2), (Reg.CLM_CTL, 1)])) (ledge 0 7 2
     0 0 0x20 ++ ledge 1 8 2 1 0 0x21)) 127 (sesOf 0 0x20 0 false false [])) 1250000000, 127, (sesOf 0 0x20 0 false false []),
     by decide +kernel⟩,
   ⟨atTime (withSes (withTab ((resetWith [(Reg.TPE_CTL, 1), (Reg.CANC_ESTAT 0, 2), (Reg.CANC_ESTAT 1, 2), (Reg.CLM_CTL, 1)])) (ledge 0 7 2
     0 0 0x20 ++ ledge 1 8 2 1 0 0x21)) 127 (sesOf 0 0x20 5 true true [(partOf (.relay 1 0x21 0x22) .cts)])) 1250000000, 127, (sesOf 0
     0x20 5 true true [(partOf (.relay 1 0x21 0x22) .cts)]), (partOf (.relay 1 0x21 0x22) .cts), 1, 0x21, 0x22, by decide +kernel⟩,
   ⟨atTime (withSes (withTab ((resetWith [(Reg.TPE_CTL, 1), (Reg.CANC_ESTAT 0, 2), (Reg.CANC_ESTAT 1, 2), (Reg.CLM_CTL, 1)])) (ledge 0 7 2
     0 0 0x20 ++ ledge 1 8 2 1 0 0x21)) 127 (sesOf 0 0x20 5 true true [(partOf (.relay 1 0x21 0x22) .eoma)])) 1250000000, 127, (sesOf 0
     0x20 5 true true [(partOf (.relay 1 0x21 0x22) .eoma)]), (partOf (.relay 1 0x21 0x22) .eoma), 1, 0x21, 0x22, by decide +kernel⟩,
   ⟨atTime (withSes (withTab ((resetWith [(Reg.TPE_CTL, 1), (Reg.CANC_ESTAT 0, 2), (Reg.CANC_ESTAT 1, 2), (Reg.CLM_CTL, 1)])) (ledge 0 7 2
     0 0 0x20 ++ ledge 1 8 2 1 0 0x21)) 127 (sesOf 0 0x20 5 true true [(partOf (.relay 1 0x21 0x22) .ctsHold)])) 1050000000, 127, (sesOf 0
     0x20 5 true true [(partOf (.relay 1 0x21 0x22) .ctsHold)]), (partOf (.relay 1 0x21 0x22) .ctsHold), 1, 0x21, 0x22, by decide +kernel⟩,
   ⟨atTime (withSes (withTab ((resetWith [(Reg.TPE_CTL, 1), (Reg.CANC_ESTAT 0, 2), (Reg.CANC_ESTAT 1, 2), (Reg.CLM_CTL, 1)])) (ledge 0 7 2
     0 0 0x20 ++ ledge 1 8 2 1 0 0x21)) 127 (sesOf 1 0xFF 5 true true [partOf (.bamCan 1 0x10) .gap])) 50000000, 127, (sesOf 1 0xFF 5 true
     true [partOf (.bamCan 1 0x10) .gap]), partOf (.bamCan 1 0x10) .gap, 1, 0x10, by decide +kernel⟩,
   ⟨{ State.reset with tpe := { next := some (0xE00, 0x20) } }, (0xE00, 0x20), by decide +kernel⟩,
   ⟨withSes State.reset 127 (sesOf 0 0x20 0 true false [partOf (.host 0) .start]), (sesOf 0 0x20 0 true false [partOf (.host 0) .start]),
     127, by decide +kernel⟩⟩

theorem test_PauseFramesPauseAndAreAsked_met :
    (∃ (s : State) (p : Fin 14) (q : Fin 65536), s.ethLink p = true ∧ s.rf (Reg.EMAC_FC p) 1 0 = 1 ∧ s.standby = false ∧ s.pauseIgn p 8 =
      false ∧ q.val ≠ 0 ∧ s.ethRate p ≠ 0) ∧
    (∃ (s : State) (p : Fin 14), s.ethLink p = true ∧ s.rf (Reg.EMAC_FC p) 1 0 = 2 ∧ s.standby = false ∧ s.ethRate p ≠ 0) ∧
    (∃ (s : State) (p : Fin 14) (c : Fin 9) (e : Nat), amGet (s.emacOf p).pause c = some e ∧ e ≤ s.now) ∧
    (∃ (s : State) (p : Fin 14) (i : Instr), s.ethLink p = true ∧ (s.emacOf p).tx = none ∧ s.standby = false ∧ p.val ≤ 11 ∧ (i =
      .pauseRequestSend p ∧ (s.emacOf p).ask ≠ (s.emacOf p).told ∨ i = .pauseRepeat p ∧ (s.emacOf p).ask ≠ [] ∧ (s.emacOf p).ask =
      (s.emacOf p).told ∧ (s.emacOf p).toldAt + s.quantaNs p (max 1 (s.rf (Reg.EMAC_PQ p) 15 0)) / 2 ≤ s.now)) ∧
    (∃ (s : State) (p : Fin 14) (i : Instr), s.ethLink p = true ∧ (s.emacOf p).tx = none ∧ s.standby = false ∧ p.val ≤ 11 ∧ (i =
      .pauseRequestSend p ∧ (s.emacOf p).ask ≠ (s.emacOf p).told ∨ i = .pauseRepeat p ∧ (s.emacOf p).ask ≠ [] ∧ (s.emacOf p).ask =
      (s.emacOf p).told ∧ (s.emacOf p).toldAt + s.quantaNs p (max 1 (s.rf (Reg.EMAC_PQ p) 15 0)) / 2 ≤ s.now)) ∧
    (∃ (s : State) (p : Fin 14), s.ethLink p = true ∧ (s.emacOf p).tx = none ∧ s.standby = false ∧ p.val ≤ 11 ∧ (s.emacOf p).ask ≠
      (s.emacOf p).told) ∧
    (∃ (s : State) (p : Fin 14), s.ethLink p = true ∧ (s.emacOf p).tx = none ∧ s.standby = false ∧ p.val ≤ 11 ∧ (s.emacOf p).ask ≠
      (s.emacOf p).told) ∧
    (∃ (s : State) (p : Fin 14), s.ethLink p = true ∧ (s.emacOf p).tx = none ∧ s.standby = false ∧ p.val ≤ 11 ∧ (s.emacOf p).ask ≠ [] ∧
      (s.emacOf p).ask = (s.emacOf p).told ∧ (s.emacOf p).toldAt + s.quantaNs p (max 1 (s.rf (Reg.EMAC_PQ p) 15 0)) / 2 ≤ s.now) ∧
    (∃ (s : State) (p : Fin 14) (c : Fin 9) (e : Nat), amGet (s.emacOf p).wd c = some e ∧ s.pausedNow p c = true ∧ s.waiting p c = true ∧
      e + clampN 1 1000 (s.rf (Reg.EMAC_FC p) 25 16) * 1000000 ≤ s.now) ∧
    (∃ (s : State) (p : Fin 14) (c : Fin 9) (e : Nat), amGet (s.emacOf p).ign c = some e ∧ e ≤ s.now) :=
  ⟨⟨(plus (portUp 13) [(Reg.EMAC_FC 13, 0x02000001)]), 13, 65535, by decide +kernel⟩,
   ⟨(plus (portUp 13) [(Reg.EMAC_FC 13, 0x02000002)]), 13, by decide +kernel⟩,
   ⟨atTime (withEmac (portUp 13) 13 { pause := [(8, 5)] }) 5, 13, 8, 5, by decide +kernel⟩,
   ⟨withEmac (portUp 11) 11 { ask := [8] }, 11, .pauseRequestSend 11, by decide +kernel⟩,
   ⟨atTime (withEmac (portUp 11) 11 { ask := [8], told := [8] }) 1000000000, 11, .pauseRepeat 11, by decide +kernel⟩,
   ⟨withEmac (plus (portUp 11) [(Reg.EMAC_FC 11, 0x02000001)]) 11 { ask := [8] }, 11, by decide +kernel⟩,
   ⟨withEmac (plus (portUp 11) [(Reg.EMAC_FC 11, 0x02000002)]) 11 { ask := [0,3] }, 11, by decide +kernel⟩,
   ⟨atTime (withEmac (portUp 11) 11 { ask := [8], told := [8] }) 1000000000, 11, by decide +kernel⟩,
   ⟨atTime (withFrame (withEmac (plus (portUp 13) [(Reg.EMAC_FC 13, 0x02000001)]) 13 { pause := [(8, 2000000000)], wd := [(8, 0)] }) 107
     { fid := 0 } ethFr) 1000000000, 13, 8, 0, by decide +kernel⟩,
   ⟨atTime (withEmac (portUp 13) 13 { ign := [(8, 5)] }) 5, 13, 8, 5, by decide +kernel⟩⟩

theorem test_EthernetPortsReceiveAndFollowTheirLinks_met :
    (∃ (s : State) (p : Fin 14) (q : Fin 18) (b : List Byte) (age : Nat), q.val = p ∧ s.ethLink p = true ∧ (p.val < 12 ∨
      s.xpl.t1sErr[p.val - 12]?.getD false = false) ∧ s.rf (Reg.EMAC_CFG p) 2 0 ≠ 0 ∧ (s.pairOn = false ∨ p.val ≠ 3) ∧ s.fifoHeld p (s.now
      - age) + s.rf (Reg.EMAC_MAXFRM p) 13 0 + 32 ≤ (if p.val < 4 then 32768 else if p.val < 12 then 16384 else 4096) ∧ 60 ≤ b.length ∧
      b.length + 4 ≤ s.rf (Reg.EMAC_MAXFRM p) 13 0 ∧ beAt b 12 2 ≠ 0x8808 ∧ s.standby = false) ∧
    (∃ (s : State) (p : Fin 14) (q : Fin 18) (b : List Byte) (age : Nat), q.val = p ∧ s.ethLink p = true ∧ (p.val < 12 ∨
      s.xpl.t1sErr[p.val - 12]?.getD false = false) ∧ s.rf (Reg.EMAC_CFG p) 2 0 ≠ 0 ∧ (s.pairOn = false ∨ p.val ≠ 3) ∧ s.fifoHeld p (s.now
      - age) + s.rf (Reg.EMAC_MAXFRM p) 13 0 + 32 ≤ (if p.val < 4 then 32768 else if p.val < 12 then 16384 else 4096) ∧ 60 ≤ b.length ∧
      b.length + 4 ≤ s.rf (Reg.EMAC_MAXFRM p) 13 0 ∧ beAt b 12 2 ≠ 0x8808 ∧ s.standby = false) ∧
    (∃ (s : State) (p : Fin 14) (q : Fin 18) (b : List Byte) (age : Nat), q.val = p ∧ s.ethLink p = true ∧ (p.val < 12 ∨
      s.xpl.t1sErr[p.val - 12]?.getD false = false) ∧ s.rf (Reg.EMAC_CFG p) 2 0 ≠ 0 ∧ (s.pairOn = false ∨ p.val ≠ 3) ∧ s.fifoHeld p (s.now
      - age) + s.rf (Reg.EMAC_MAXFRM p) 13 0 + 32 ≤ (if p.val < 4 then 32768 else if p.val < 12 then 16384 else 4096) ∧ 60 ≤ b.length ∧
      b.length + 4 ≤ s.rf (Reg.EMAC_MAXFRM p) 13 0 ∧ beAt b 12 2 ≠ 0x8808 ∧ s.standby = false) ∧
    (∃ (s : State) (p : Fin 14) (q : Fin 18) (b : List Byte) (age : Nat), q.val = p ∧ s.ethLink p = true ∧ (p.val < 12 ∨
      s.xpl.t1sErr[p.val - 12]?.getD false = false) ∧ s.rf (Reg.EMAC_CFG p) 2 0 ≠ 0 ∧ (s.pairOn = false ∨ p.val ≠ 3) ∧ s.fifoHeld p (s.now
      - age) + s.rf (Reg.EMAC_MAXFRM p) 13 0 + 32 ≤ (if p.val < 4 then 32768 else if p.val < 12 then 16384 else 4096) ∧ b.length < 60) ∧
    (∃ (s : State) (q : Fin 18) (e : EthIn), 14 ≤ q.val ∧ q.val ≠ 16 ∧ s.swIn.find? (fun x => x.port == q.val) = some e) ∧
    (∃ (s : State) (p : Fin 14), s.ethLink p = false ∧ s.rf (Reg.EMAC_CFG p) 2 0 ≠ 0 ∧ (s.rf (Reg.EMAC_CFG p) 2 0 = 6 → s.t1Up (p - 12) =
      true) ∧ (12 ≤ p.val ∨ s.inSave = false)) ∧
    (∃ (s : State) (p : Fin 14), s.ethLink p = false ∧ s.rf (Reg.EMAC_CFG p) 2 0 ≠ 0 ∧ (s.rf (Reg.EMAC_CFG p) 2 0 = 6 → s.t1Up (p - 12) =
      true) ∧ (12 ≤ p.val ∨ s.inSave = false)) ∧
    (∃ (s : State) (p : Fin 14), s.ethHold p = true ∧ (s.emacOf p).holdAt + s.rf (Reg.EMAC_CFG p) 23 16 * 1000000 ≤ s.now) ∧
    (∃ (s : State) (p : Fin 14), s.rb (Reg.EMAC_ANCTL p) 0 = true ∧ (s.rf (Reg.EMAC_CFG p) 2 0 = 2 ∨ s.rf (Reg.EMAC_CFG p) 2 0 = 4 ∨ s.rf
      (Reg.EMAC_CFG p) 2 0 = 5)) ∧
    (∃ (s : State) (v : Word), s.pwr.held = false ∧ bitOf v 8 = true) ∧
    (∃ (s : State) (m : Fin 2) (x : TxNow), (s.emacOf (12 + m)).tx = some x ∧ (s.emacOf (12 + m)).backoff = false) ∧
    (∃ (s : State) (m : Fin 2), s.rb (Reg.T1SP_CTL m) 0 = true ∧ s.rb (Reg.T1SP_CTL m) 1 = true ∧ s.beaconDue m = true) ∧
    (∃ (s : State) (m : Fin 2) (ok : _), s.rb (Reg.T1SP_CTL m) 0 = true ∧ s.rb (Reg.T1SP_CTL m) 1 = true ∧ s.rb (Reg.T1SP_STAT m) 31 ≠ ok) :=
  ⟨⟨portUp 13, 13, 13, (List.replicate 60 (5 : Byte)), 0, by decide +kernel⟩,
   ⟨withEmac (portUp 13) 13 { fifo := (4096 - 1522 - 32, 0) }, 13, 13, (List.replicate 60 (5 : Byte)), 0, by decide +kernel⟩,
   ⟨plus (portUp 0) [(Reg.EMAC_CFG 0, 1)], 0, 0, (List.replicate 1514 (5 : Byte)), 0, by decide +kernel⟩,
   ⟨portUp 13, 13, 13, (List.replicate 59 (5 : Byte)), 0, by decide +kernel⟩,
   ⟨{ State.reset with swIn := [{ port := 14, tc := 0, bytes := List.replicate 60 7, stamp := 0 }] }, 14,
     { port := 14, tc := 0, bytes := List.replicate 60 7, stamp := 0 }, by decide +kernel⟩,
   ⟨(resetWith [(Reg.EMAC_CFG 13, 1)]), 13, by decide +kernel⟩,
   ⟨(resetWith [(Reg.EMAC_CFG 13, 6), (Reg.T1SP_CTL 1, 1)]), 13, by decide +kernel⟩,
   ⟨atTime (withFrame (withEmac ((resetWith [(Reg.EMAC_CFG 13, 0x10001), (Reg.EMAC_STAT 13, 0x20000000)])) 13 { holdAt := 5 }) 104
     { fid := 0 } ethFr) 1000005, 13, by decide +kernel⟩,
   ⟨(resetWith [(Reg.EMAC_CFG 13, 2), (Reg.EMAC_ANCTL 13, 1)]), 13, by decide +kernel⟩,
   ⟨(resetWith [(Reg.EMAC_CFG 13, 2), (Reg.EMAC_ANCTL 13, 1)]), 0x101, by decide +kernel⟩,
   ⟨withEmac (portUp 13) 13 { tx := some ⟨0, 104, [1], true, false, none, false, 0⟩, tries := 0 }, 1, ⟨0, 104, [1], true, false, none,
     false, 0⟩, by decide +kernel⟩,
   ⟨(resetWith [(Reg.T1SP_CTL 1, 3), (Reg.T1SP_STAT 1, 0x80000000)]), 1, by decide +kernel⟩,
   ⟨(resetWith [(Reg.T1SP_CTL 1, 3)]), 1, true, by decide +kernel⟩⟩

theorem test_FramesLeaveTheirQueues_met :
    (∃ (s : State) (q : Fin 18) (p : Nat) (cl : Nat) (c : SwCopy) (rest : _) (f : SwFrame), q.val = p ∧ p < 14 ∧ s.portMay p = true ∧ (∀
      k, k < 8 → s.cbsOn p k = false) ∧ s.pickClass p = some cl ∧ s.queueOf (8 * p + cl) = c :: rest ∧ s.frameOf c.fid = some f ∧
      s.ethLate (8 * p + cl) c f = false ∧ f.lso = none ∧ f.csum = false ∧ s.rb Reg.TSY_CTL 0 = false ∧ s.msecOn p = false) ∧
    (∃ (s : State) (q : Fin 18) (p : Nat) (cl : Nat) (c : SwCopy) (rest : _) (f : SwFrame), q.val = p ∧ p < 14 ∧ s.portMay p = true ∧ (∀
      k, k < 8 → s.cbsOn p k = false) ∧ s.pickClass p = some cl ∧ s.queueOf (8 * p + cl) = c :: rest ∧ s.frameOf c.fid = some f ∧
      s.ethLate (8 * p + cl) c f = false ∧ f.lso = none ∧ f.csum = false ∧ s.rb Reg.TSY_CTL 0 = false ∧ s.msecOn p = false) ∧
    (∃ (s : State) (q : Fin 14) (x : TxNow), (s.emacOf q).tx = some x ∧ (s.emacOf q).backoff = false ∧ x.job = none ∧ x.bad = false) ∧
    (∃ (s : State) (q : Fin 18) (c : Fin 8) (d : SwCopy) (rest : _) (e : Nat), 14 ≤ q.val ∧ q.val ≠ 17 ∧ s.queueOf (8 * q + c) = d :: rest
      ∧ amGet s.sw.headAt (8 * q + c) = some e ∧ e + clampN 1 1000 (s.rf Reg.QMG_ISTALL 9 0) * 1000000 ≤ s.now) ∧
    (∃ (s : State) (v : Word), s.pwr.held = false ∧ bitOf v 31 = true ∧ s.rb Reg.QMG_FLSTAT 31 = false ∧ fld v 20 16 < 17) ∧
    (∃ (s : State), s.rb Reg.QMG_FLSTAT 31 = true) :=
  ⟨⟨withFrame (portUp 13) 111 { fid := 0 } ethFr, 13, 13, 7, { fid := 0 }, [], ethFr, by decide +kernel⟩,
   ⟨withFrame (portUp 0) 0 { fid := 0 } ethFr, 0, 0, 0, { fid := 0 }, [], ethFr, by decide +kernel⟩,
   ⟨withFrame (withEmac (portUp 13) 13 { tx := some ⟨0, 111, List.replicate 60 7, true, false, none, false, 0⟩ }) 0 { fid := 0 } ethFr,
     13, ⟨0, 111, List.replicate 60 7, true, false, none, false, 0⟩, by decide +kernel⟩,
   ⟨atTime (withFrame State.reset 135 { fid := 0 } ethFr) 1000000000, 16, 7, { fid := 0 }, [], 0, by decide +kernel⟩,
   ⟨withFrame State.reset 135 { fid := 0 } ethFr, 0x8010FF00, by decide +kernel⟩,
   ⟨(resetWith [(Reg.QMG_FLSTAT, 0x80000000)]), by decide +kernel⟩⟩

theorem test_ThicketPolicersAndFilters_met :
    (∃ (s : State) (q : Fin 18) (c : Fin 8) (d : SwCopy) (f : SwFrame), s.inSave = false ∧ s.spillPick (8 * q + c) = some d ∧ s.frameOf
      d.fid = some f ∧ s.tktFits (8 * q + c) f = true) ∧
    (∃ (s : State) (q : Fin 18) (c : Fin 8) (d : SwCopy) (f : SwFrame), s.inSave = false ∧ ((s.queueOf (8 * q + c)).take 2).find? (fun x
      => x.th == .dram) = some d ∧ s.frameOf d.fid = some f ∧ s.bufUsed q + (f.bytes.length + 4) ≤ s.bufSize q) ∧
    (∃ (s : State) (q : Fin 18) (c : Fin 8) (d : SwCopy) (f : SwFrame) (b : List Byte), s.inSave = false ∧ (s.queueOf (8 * q + c)).find?
      (fun x => x.th == .reading) = some d ∧ s.frameOf d.fid = some f ∧ s.unitsRead f = some b) ∧
    (∃ (s : State) (q : Fin 18) (c : Fin 8) (d : SwCopy) (f : SwFrame) (ok : Bool), s.inSave = false ∧ (s.queueOf (8 * q + c)).find? (fun
      x => x.th == .reading) = some d ∧ s.frameOf d.fid = some f ∧ (ok = false ∨ s.unitsRead f = none)) ∧
    (∃ (s : State) (q : Fin 18) (c : Fin 8) (d : SwCopy) (f : SwFrame) (ok : Bool), s.inSave = false ∧ (s.queueOf (8 * q + c)).find? (fun
      x => x.th == .reading) = some d ∧ s.frameOf d.fid = some f ∧ (ok = false ∨ s.unitsRead f = none)) ∧
    (∃ (s : State) (w : Word), s.sw.nextRegion = some w ∧ s.tktUsed = 0) ∧
    (∃ (s : State) (v : Word) (i : Nat), s.pwr.held = false ∧ bitOf v 0 = true ∧ bitOf v 1 = false ∧ i = s.rf Reg.POL_PIDX 9 0) ∧
    (∃ (s : State) (v : Word) (i : Nat) (g : Nat) (y : Nat) (r : Nat), s.pwr.held = false ∧ bitOf v 0 = false ∧ bitOf v 1 = true ∧ i =
      s.rf Reg.POL_PIDX 9 0 ∧ (s.polOf i).cnt = [g, y, r]) ∧
    (∃ (s : State) (v : Word) (i : Nat), s.pwr.held = false ∧ bitOf v 0 = true ∧ bitOf v 1 = false ∧ i = s.rf Reg.POL_FIDX 9 0) ∧
    (∃ (s : State) (v : Word) (i : Nat) (a : Word) (b : Word) (c : _) (d : Word), s.pwr.held = false ∧ bitOf v 0 = false ∧ bitOf v 1 =
      true ∧ i = s.rf Reg.POL_FIDX 9 0 ∧ s.filtOf i = [a, b, c, d]) :=
  ⟨⟨{ (plus State.reset [(Reg.TKT_CTL, 0xFF01), (Reg.TKT_THR, 0xFFFF0000), (Reg.TKT_QLIM, 0x800)]) with sw := { State.reset.sw with frames := (List.range 3).map (fun j => (j, { ethFr with tkt := (0xFF01, 0xFFFF0000, 0x800), charge := some (7, .shared) })), queues := [(7, [{ fid := 0 }, { fid := 1 }, { fid := 2 }])], headAt := [(7, 0)] } },
     0, 7, { fid := 2 }, { ethFr with tkt := (0xFF01, 0xFFFF0000, 0x800), charge := some (7, .shared) }, by decide +kernel⟩,
   ⟨withFrame State.reset 7 { fid := 0, th := .dram } { ethFr with spilled := true }, 0, 7, { fid := 0, th := .dram },
     { ethFr with spilled := true }, by decide +kernel⟩,
   ⟨withFrame State.reset 7 { fid := 0, th := .reading } { ethFr with spilled := true }, 0, 7, { fid := 0, th := .reading },
     { ethFr with spilled := true }, [], by decide +kernel⟩,
   ⟨withFrame State.reset 7 { fid := 0, th := .reading } { ethFr with spilled := true }, 0, 7, { fid := 0, th := .reading },
     { ethFr with spilled := true }, false, by decide +kernel⟩,
   ⟨withFrame State.reset 7 { fid := 0, th := .reading } { ethFr with spilled := true, units := [(0, 5)] }, 0, 7,
     { fid := 0, th := .reading }, { ethFr with spilled := true, units := [(0, 5)] }, true, by decide +kernel⟩,
   ⟨{ State.reset with sw := { State.reset.sw with nextRegion := some 0x900 } }, 0x900, by decide +kernel⟩,
   ⟨(resetWith [(Reg.POL_PIDX, 1023), (Reg.POL_PCIR, 7)]), 1, 1023, by decide +kernel⟩,
   ⟨{ ((resetWith [(Reg.POL_PIDX, 1023)])) with sw := { State.reset.sw with pol := [(1023, { cnt := [3, 4, 5] })] } }, 2, 1023, 3, 4, 5,
     by decide +kernel⟩,
   ⟨(resetWith [(Reg.POL_FIDX, 1023)]), 1, 1023, by decide +kernel⟩,
   ⟨{ ((resetWith [(Reg.POL_FIDX, 1023)])) with sw := { State.reset.sw with filt := [(1023, [1, 2, 3, 4])] } }, 2, 1023, 1, 2, 3, 4,
     by decide +kernel⟩⟩

theorem test_MacTableLearnsAgesAndFlushes_met :
    (∃ (s : State) (p : Nat) (fid : Nat) (mac : Nat) (rest : _) (key : Nat) (w : Nat), s.sw.lrn = (p, fid, mac) :: rest ∧ p < 18 ∧ fid <
      4096 ∧ mac < 2 ^ 48 ∧ key = fid * 2 ^ 48 + mac ∧ s.mtFind key = none ∧ s.lrnLimit p = false ∧ (List.range 4).find? (fun x =>
      !s.mtValid (mtCand key x)) = some w) ∧
    (∃ (s : State), s.rf Reg.MACT_AGE 7 0 ≠ 0 ∧ s.sw.ageAt + s.rf Reg.MACT_AGE 7 0 * 1000000000 ≤ s.now) ∧
    (∃ (s : State) (v : Word), s.pwr.held = false ∧ bitOf v 31 = true ∧ s.rb Reg.MACT_FLSTAT 31 = false) ∧
    (∃ (s : State), s.rb Reg.MACT_FLSTAT 31 = true ∧ s.sw.mfl = []) ∧
    (∃ (s : State) (v : Word) (i : Nat), s.pwr.held = false ∧ bitOf v 0 = true ∧ bitOf v 1 = false ∧ i = s.rf Reg.MACT_VIDX 11 0) ∧
    (∃ (s : State) (v : Word) (i : Nat), s.pwr.held = false ∧ bitOf v 0 = false ∧ bitOf v 1 = true ∧ i = s.rf Reg.MACT_VIDX 11 0) ∧
    (∃ (s : State) (v : Word) (i : Nat), s.pwr.held = false ∧ bitOf v 0 = true ∧ bitOf v 1 = false ∧ i = 65536 + s.rf Reg.MACT_OIDX 7 0) ∧
    (∃ (s : State) (v : Word) (i : Nat), s.pwr.held = false ∧ bitOf v 0 = false ∧ bitOf v 1 = true ∧ i = 65536 + s.rf Reg.MACT_OIDX 7 0) :=
  ⟨⟨{ (atTime State.reset 5) with sw := { State.reset.sw with lrn := [(17, 4095, 0xFFFFFFFFFFFF)] } }, 17, 4095, 0xFFFFFFFFFFFF, [], (4095
     * 2 ^ 48 + 0xFFFFFFFFFFFF), 0, by decide +kernel⟩,
   ⟨atTime (withTab ((resetWith [(Reg.MACT_AGE, 1)])) [(0x30000C, 0x80000000), (0x30001C, 0x80000002)]) 1000000000, by decide +kernel⟩,
   ⟨State.reset, 0x80000000, by decide +kernel⟩,
   ⟨(resetWith [(Reg.MACT_FLSTAT, 0x80000000)]), by decide +kernel⟩,
   ⟨(resetWith [(Reg.MACT_VIDX, 4095)]), 1, 4095, by decide +kernel⟩,
   ⟨(resetWith [(Reg.MACT_VIDX, 4095)]), 2, 4095, by decide +kernel⟩,
   ⟨(resetWith [(Reg.MACT_OIDX, 255)]), 1, 65536 + 255, by decide +kernel⟩,
   ⟨(resetWith [(Reg.MACT_OIDX, 255)]), 2, 65536 + 255, by decide +kernel⟩⟩

theorem test_LpmRowsAreMovedAndChecked_met :
    (∃ (s : State) (v : Word) (k : Nat), k = (if s.rf Reg.LPM_CTL 27 16 ≤ fld v 11 0 then 4 else 1) ∧ s.pwr.held = false ∧ bitOf v 31 =
      true ∧ s.lpRefused (fld v 11 0) (fld v 27 16) = false) ∧
    (∃ (s : State) (v : Word) (k : Nat), k = (if s.rf Reg.LPM_CTL 27 16 ≤ fld v 11 0 then 4 else 1) ∧ s.pwr.held = false ∧ bitOf v 31 =
      true ∧ s.lpRefused (fld v 11 0) (fld v 27 16) = false) ∧
    (∃ (s : State) (v : Word) (k : Nat), k = (if s.rf Reg.LPM_CTL 27 16 ≤ fld v 11 0 then 4 else 1) ∧ s.pwr.held = false ∧ bitOf v 31 =
      true ∧ s.lpRefused (fld v 11 0) (fld v 27 16) = true) ∧
    (∃ (s : State) (v : Word) (k : Nat), k = (if s.rf Reg.LPM_CTL 27 16 ≤ fld v 11 0 then 4 else 1) ∧ s.rb Reg.LPM_MVSTAT 31 = true) ∧
    (∃ (s : State) (v : Word) (k : Nat), k = (if s.rf Reg.LPM_CTL 27 16 ≤ fld v 11 0 then 4 else 1) ∧ s.pwr.held = false ∧ bitOf v 0 =
      true) ∧
    (∃ (s : State) (v : Word) (k : Nat) (w : Word), k = (if s.rf Reg.LPM_CTL 27 16 ≤ fld v 11 0 then 4 else 1) ∧ s.sw.lpmChk = some w) :=
  ⟨⟨withTab ((resetWith [(Reg.LPM_CTL, 0x08000000)])) [(0x40001C + 32 * 5, 0x80000000), (0x400000 + 32 * 5, 7)], 0x80060005, 1,
     by decide +kernel⟩,
   ⟨withTab ((resetWith [(Reg.LPM_CTL, 0)])) ((List.range 4).map (fun j => (0x40001C + 32 * j, 0x80000000))), 0x80040000, 4,
     by decide +kernel⟩,
   ⟨State.reset, 0x80060005, (if State.reset.rf Reg.LPM_CTL 27 16 ≤ 5 then 4 else 1), by decide +kernel⟩,
   ⟨(resetWith [(Reg.LPM_MVSTAT, 0x80000000)]), 0x80060005, (if (resetWith [(Reg.LPM_MVSTAT, 0x80000000)]).rf Reg.LPM_CTL 27 16 ≤ 5 then 4
     else 1), by decide +kernel⟩,
   ⟨State.reset, 1, (if State.reset.rf Reg.LPM_CTL 27 16 ≤ 1 then 4 else 1), by decide +kernel⟩,
   ⟨{ State.reset with sw := { State.reset.sw with lpmChk := some 5 } }, 1, (if State.reset.rf Reg.LPM_CTL 27 16 ≤ 1 then 4 else 1), 5,
     by decide +kernel⟩⟩

theorem test_OwnerSetsRateAndStepsFullTime_met :
    (∃ (s : State) (init : Initiator) (x : Nat), s.pwr.held = false ∧ s.tsyOwner init = true ∧ x = ((s.rd Reg.TSY_ADJ_SL).toNat + (s.rd
      Reg.TSY_ADJ_SH).toNat % 0x10000 * 2 ^ 32) * 1000000000 + (s.rd Reg.TSY_ADJ_NS).toNat ∧ (s.rd Reg.TSY_ADJ_NS).toNat ≤ 999999999 ∧
      s.tsy.full + x < 2 ^ 48 * 1000000000) ∧
    (∃ (s : State) (init : Initiator) (x : Nat), s.pwr.held = false ∧ s.tsyOwner init = true ∧ x = ((s.rd Reg.TSY_ADJ_SL).toNat + (s.rd
      Reg.TSY_ADJ_SH).toNat % 0x10000 * 2 ^ 32) * 1000000000 + (s.rd Reg.TSY_ADJ_NS).toNat ∧ (s.rd Reg.TSY_ADJ_NS).toNat ≤ 999999999 ∧ x ≤
      s.tsy.full) :=
  ⟨⟨(plus { State.reset with tsy := { State.reset.tsy with full := 10 } } [(Reg.TSY_ADJ_NS, 999999999), (Reg.TSY_ADJ_SL, 1)]), .host,
     1999999999, by decide +kernel⟩,
   ⟨(plus { State.reset with tsy := { State.reset.tsy with full := 10 } } [(Reg.TSY_ADJ_NS, 10), (Reg.TSY_ADJ_SL, 0)]), .host, 10,
     by decide +kernel⟩⟩

theorem test_NonOwnersAreRefused_met :
    (∃ (s : State), s.rf Reg.TSY_OWN 0 0 = 0) ∧
    (∃ (s : State), s.rf Reg.TSY_OWN 0 0 = 1) ∧
    (∃ (s : State) (init : Initiator) (v : Word) (lock : Bool) (c : Instr), s.pwr.held = false ∧ s.tsyOwner init = false ∧ (c = .rateWrite
      init v ∨ c = .timeAdd init ∨ c = .timeSubtract init ∨ c = .timeSet init ∨ c = .syncLock init ∨ c = .syncHold init lock)) ∧
    (∃ (s : State) (init : Initiator) (v : Word) (lock : Bool) (c : Instr), s.pwr.held = false ∧ s.tsyOwner init = false ∧ (c = .rateWrite
      init v ∨ c = .timeAdd init ∨ c = .timeSubtract init ∨ c = .timeSet init ∨ c = .syncLock init ∨ c = .syncHold init lock)) ∧
    (∃ (s : State) (init : Initiator) (v : Word) (lock : Bool) (c : Instr), s.pwr.held = false ∧ s.tsyOwner init = false ∧ (c = .rateWrite
      init v ∨ c = .timeAdd init ∨ c = .timeSubtract init ∨ c = .timeSet init ∨ c = .syncLock init ∨ c = .syncHold init lock)) ∧
    (∃ (s : State) (init : Initiator), s.pwr.held = false ∧ s.tsyOwner init = true ∧ s.stepTarget 3 ≠ none) :=
  ⟨⟨State.reset, by decide +kernel⟩,
   ⟨(resetWith [(Reg.TSY_OWN, 1)]), by decide +kernel⟩,
   ⟨State.reset, .laurel, 5, true, .rateWrite .laurel 5, by decide +kernel⟩,
   ⟨State.reset, .laurel, 5, true, .timeAdd .laurel, by decide +kernel⟩,
   ⟨State.reset, .laurel, 5, true, .timeSubtract .laurel, by decide +kernel⟩,
   ⟨State.reset, .host, by decide +kernel⟩⟩

theorem test_LockHoldAndWatchdogMoveTheSyncState_met :
    (∃ (s : State) (init : Initiator), s.pwr.held = false ∧ s.tsyOwner init = true ∧ s.rb Reg.TSY_STAT 31 = false) ∧
    (∃ (s : State) (init : Initiator), s.pwr.held = false ∧ s.tsyOwner init = true ∧ s.rb Reg.TSY_STAT 31 = true) ∧
    (∃ (s : State), s.rb Reg.TSY_STAT 31 = true ∧ s.rf Reg.TSY_SYNCWD 15 0 ≠ 0 ∧ s.tsy.wdStart + s.rf Reg.TSY_SYNCWD 15 0 * 1000000 ≤
      s.tsy.loc) ∧
    (∃ (s : State) (init : Initiator), s.pwr.held = false ∧ amGet s.bus.latch (ikey init Reg.TSY_NOW_NS) = none) :=
  ⟨⟨(resetWith [(Reg.TSY_STAT, 0)]), .host, by decide +kernel⟩,
   ⟨(resetWith [(Reg.TSY_STAT, 0x80000000)]), .host, by decide +kernel⟩,
   ⟨atTime ((resetWith [(Reg.TSY_STAT, 0x80000000), (Reg.TSY_SYNCWD, 1)])) 1000000, by decide +kernel⟩,
   ⟨State.reset, .host, by decide +kernel⟩⟩

theorem test_PulseOutputsFollowTheirArmedTimes_met :
    (∃ (s : State) (n : Fin 4) (periodic : Bool) (start : Nat), s.tsy.touts.length = 4 ∧ start = ((s.rd (Reg.TOUT_SL n)).toNat + (s.rd
      (Reg.TOUT_SH n)).toNat % 0x10000 * 2 ^ 32) * 1000000000 + (s.rd (Reg.TOUT_NS n)).toNat ∧ s.pwr.held = false ∧ s.tsy.full ≤ start ∧
      (s.rd (Reg.TOUT_NS n)).toNat ≤ 999999999 ∧ 4 ≤ (s.rd (Reg.TOUT_WID n)).toNat ∧ (periodic = true → 16 ≤ (s.rd (Reg.TOUT_PER n)).toNat
      ∧ (s.rd (Reg.TOUT_WID n)).toNat ≤ (s.rd (Reg.TOUT_PER n)).toNat - 4)) ∧
    (∃ (s : State) (n : Fin 4) (periodic : Bool) (start : Nat), s.tsy.touts.length = 4 ∧ start = ((s.rd (Reg.TOUT_SL n)).toNat + (s.rd
      (Reg.TOUT_SH n)).toNat % 0x10000 * 2 ^ 32) * 1000000000 + (s.rd (Reg.TOUT_NS n)).toNat ∧ s.pwr.held = false ∧ s.tsy.full ≤ start ∧
      (s.rd (Reg.TOUT_NS n)).toNat ≤ 999999999 ∧ 4 ≤ (s.rd (Reg.TOUT_WID n)).toNat ∧ (periodic = true → 16 ≤ (s.rd (Reg.TOUT_PER n)).toNat
      ∧ (s.rd (Reg.TOUT_WID n)).toNat ≤ (s.rd (Reg.TOUT_PER n)).toNat - 4)) ∧
    (∃ (s : State) (n : Fin 4) (start : Nat), s.tsy.touts.length = 4 ∧ start = ((s.rd (Reg.TOUT_SL n)).toNat + (s.rd (Reg.TOUT_SH
      n)).toNat % 0x10000 * 2 ^ 32) * 1000000000 + (s.rd (Reg.TOUT_NS n)).toNat ∧ s.rb (Reg.TOUT_CTL n) 0 = true ∧ (s.toutOf n).pulse =
      none ∧ (if (s.toutOf n).periodic then (s.toutOf n).start + (s.toutOf n).next * (s.toutOf n).per else (s.toutOf n).start) ≤
      s.tsy.full) ∧
    (∃ (s : State) (n : Fin 4) (start : Nat), s.tsy.touts.length = 4 ∧ start = ((s.rd (Reg.TOUT_SL n)).toNat + (s.rd (Reg.TOUT_SH
      n)).toNat % 0x10000 * 2 ^ 32) * 1000000000 + (s.rd (Reg.TOUT_NS n)).toNat ∧ s.rb (Reg.TOUT_CTL n) 0 = true ∧ (s.toutOf n).pulse =
      none ∧ (if (s.toutOf n).periodic then (s.toutOf n).start + (s.toutOf n).next * (s.toutOf n).per else (s.toutOf n).start) ≤
      s.tsy.full) ∧
    (∃ (s : State) (n : Fin 4) (start : Nat) (e : Nat), s.tsy.touts.length = 4 ∧ start = ((s.rd (Reg.TOUT_SL n)).toNat + (s.rd
      (Reg.TOUT_SH n)).toNat % 0x10000 * 2 ^ 32) * 1000000000 + (s.rd (Reg.TOUT_NS n)).toNat ∧ (s.toutOf n).pulse = some e ∧ e ≤
      s.tsy.loc) :=
  ⟨⟨(plus State.reset [(Reg.TOUT_NS 3, 999999999), (Reg.TOUT_WID 3, 4), (Reg.TOUT_PER 3, 16)]), 3, true, 999999999, by decide +kernel⟩,
   ⟨(plus State.reset [(Reg.TOUT_NS 3, 999999999), (Reg.TOUT_WID 3, 4), (Reg.TOUT_PER 3, 16)]), 3, false, 999999999, by decide +kernel⟩,
   ⟨{ ((resetWith [(Reg.TOUT_CTL 3, 1)])) with tsy := { State.reset.tsy with full := 132, loc := 0, touts := [⟨0, 0, 0, false, 0, none⟩, ⟨0, 0, 0, false, 0, none⟩, ⟨0, 0, 0, false, 0, none⟩, ⟨100, 16, 4, true, 2, none⟩] } },
     3, 0, by decide +kernel⟩,
   ⟨{ ((resetWith [(Reg.TOUT_CTL 3, 1)])) with tsy := { State.reset.tsy with full := 100, loc := 0, touts := [⟨0, 0, 0, false, 0, none⟩, ⟨0, 0, 0, false, 0, none⟩, ⟨0, 0, 0, false, 0, none⟩, ⟨100, 16, 4, false, 0, none⟩] } },
     3, 0, by decide +kernel⟩,
   ⟨{ ((resetWith [(Reg.TOUT_CTL 3, 1)])) with tsy := { State.reset.tsy with full := 132, loc := 50, touts := [⟨0, 0, 0, false, 0, none⟩, ⟨0, 0, 0, false, 0, none⟩, ⟨0, 0, 0, false, 0, none⟩, ⟨100, 16, 4, true, 2, some 50⟩] } },
     3, 0, 50, by decide +kernel⟩⟩

theorem test_CapturesAndTheCorrelationPair_met :
    (∃ (s : State) (n : Fin 4) (rising : Bool), nbit (s.rf (Reg.TCAP_CTL n) 1 0) (if rising then 0 else 1) = true) ∧
    (∃ (s : State) (init : Initiator) (n : Fin 4), s.pwr.held = false ∧ amGet s.bus.latch (ikey init (Reg.TCAP_NS n)) = none) ∧
    (∃ (s : State) (v : Word), s.pwr.held = false ∧ bitOf v 31 = true) ∧
    (∃ (s : State) (v : Word), s.pwr.held = false ∧ bitOf v 0 = true) ∧
    (∃ (s : State) (c : Nat) (d : Nat), s.tsy.corr = some c ∧ s.sinceTick c = some d) :=
  ⟨⟨(resetWith [(Reg.TCAP_CTL 3, 1)]), 3, true, by decide +kernel⟩,
   ⟨State.reset, .laurel, 3, by decide +kernel⟩,
   ⟨(resetWith [(Reg.TCAP_CTL 3, 1)]), 0x80000001, by decide +kernel⟩,
   ⟨State.reset, 1, by decide +kernel⟩,
   ⟨{ State.reset with rtc := 3, tsy := { State.reset.tsy with corr := some 3 } }, 3, 0, by decide +kernel⟩⟩

theorem test_MacsecFramesAreVerifiedInOrder_met :
    (∃ (s : State) (cl : _) (c : SwCopy) (rest : List SwCopy) (f : SwFrame), [7, 6, 5, 4, 3, 2, 1, 0].find? (fun x => !(s.queueOf (8 * 17
      + x)).isEmpty) = some cl ∧ s.queueOf (8 * 17 + cl) = c :: rest ∧ s.frameOf c.fid = some f ∧ s.ethLate (8 * 17 + cl) c f = false ∧
      s.verifying f.port = false ∧ s.rb Reg.MSEC_CTL 0 = true ∧ 2 ≤ s.rf (Reg.MSEC_PCFG f.port) 2 1 ∧ beAt f.bytes 12 2 ≠ 0x88E5 ∧ beAt
      f.bytes 12 2 ≠ 0x888E) ∧
    (∃ (s : State) (cl : _) (c : SwCopy) (rest : List SwCopy) (f : SwFrame) (k : Nat) (a : Nat) (pipe : Nat) (u : State), [7, 6, 5, 4, 3,
      2, 1, 0].find? (fun x => !(s.queueOf (8 * 17 + x)).isEmpty) = some cl ∧ s.queueOf (8 * 17 + cl) = c :: rest ∧ s.frameOf c.fid = some
      f ∧ s.ethLate (8 * 17 + cl) c f = false ∧ s.verifying f.port = false ∧ s.rb Reg.MSEC_CTL 0 = true ∧ beAt f.bytes 12 2 = 0x88E5 ∧
      secBad f.bytes = false ∧ s.rf (Reg.MSEC_PCFG f.port) 2 1 ≠ 0 ∧ s.scFind f.port false
      (fun ws => match ws with | w0 :: w1 :: _ => wordBytes w1 ++ wordBytes w0 == (secIn f.bytes).sci | _ => false) = some k ∧ a = s.scSa
      k ((secIn f.bytes).tci % 4) ∧ (s.saOf a).inuse = true ∧ (bitOf (s.scw k 2) 22 = true → (pnRecover (s.saOf a) true (s.scw k 4).toNat
      (secIn f.bytes).pn).2 ≤ (pnRecover (s.saOf a) true (s.scw k 4).toNat (secIn f.bytes).pn).1) ∧ s.cryOn = true ∧ s.crySlot 2 = true ∧
      s.keysReady = true ∧ s.keyCheck (s.saOf a).slot 0 = kOK ∧ s.choosePipe = some (pipe, u)) ∧
    (∃ (s : State) (job : Nat) (j : CryJob) (f : SwFrame), s.jobOf job = some j ∧ j.cls = 2 ∧ j.code = kOK ∧ s.frameOf j.ref = some f ∧
      f.flushed = false ∧ (∀ p ∈ s.cry.saPend, p.1 ≠ j.ix)) ∧
    (∃ (s : State) (p : Fin 2), s.pipeState p = 0) ∧
    (∃ (s : State) (v : Word) (i : Nat), s.pwr.held = false ∧ i = s.rf Reg.MSEC_SCIDX 6 0 ∧ bitOf v 0 = true ∧ bitOf v 1 = false) ∧
    (∃ (s : State) (v : Word) (i : Nat), s.pwr.held = false ∧ i = s.rf Reg.MSEC_SCIDX 6 0 ∧ bitOf v 0 = false ∧ bitOf v 1 = true) ∧
    (∃ (s : State) (v : Word) (i : Nat) (x : Nat), s.pwr.held = false ∧ i = s.rf Reg.MSEC_SAIDX 7 0 ∧ bitOf v 0 = true ∧ bitOf v 1 = false
      ∧ x = (s.rd (Reg.MSEC_SAW 5)).toNat + (s.rd (Reg.MSEC_SAW 6)).toNat * 2 ^ 32 ∧ s.saBusy i = true) ∧
    (∃ (s : State) (v : Word) (i : Nat) (x : Nat), s.pwr.held = false ∧ i = s.rf Reg.MSEC_SAIDX 7 0 ∧ bitOf v 0 = true ∧ bitOf v 1 = false
      ∧ x = (s.rd (Reg.MSEC_SAW 5)).toNat + (s.rd (Reg.MSEC_SAW 6)).toNat * 2 ^ 32 ∧ s.saBusy i = false) ∧
    (∃ (s : State) (v : Word) (i : Nat), s.pwr.held = false ∧ i = s.rf Reg.MSEC_SAIDX 7 0 ∧ bitOf v 0 = false ∧ bitOf v 1 = true) :=
  ⟨⟨(withFrame (withKeys ((resetWith [(Reg.MSEC_PCFG 2, 4)]))) 143 { fid := 0 } ethFr), 7, { fid := 0 }, [], ethFr, by decide +kernel⟩,
   ⟨{ (withFrame (withKeys ((resetWith [(Reg.MSEC_PCFG 2, 2)]))) 143 { fid := 0 } secFr) with cry := { State.reset.cry with sc := [(63, [1, 0, 0x88400000, 255, 0])], sa := [(255, { inuse := true, slot := 5, pn := 7 })] } },
     7, { fid := 0 }, [], secFr, 63, 255, 0,
     ({ (withFrame (withKeys ((resetWith [(Reg.MSEC_PCFG 2, 2)]))) 143 { fid := 0 } secFr) with cry := { State.reset.cry with sc := [(63, [1, 0, 0x88400000, 255, 0])], sa := [(255, { inuse := true, slot := 5, pn := 7 })] } }),
     by decide +kernel⟩,
   ⟨withJob (withFrame (withKeys State.reset) 143 { fid := 0 } secFr) (jobFor 2 0 255 kOK), 0, jobFor 2 0 255 kOK, secFr,
     by decide +kernel⟩,
   ⟨State.reset, 1, by decide +kernel⟩,
   ⟨(resetWith [(Reg.MSEC_SCIDX, 127)]), 1, 127, by decide +kernel⟩,
   ⟨(resetWith [(Reg.MSEC_SCIDX, 127)]), 2, 127, by decide +kernel⟩,
   ⟨withJob ((resetWith [(Reg.MSEC_SAIDX, 255), (Reg.MSEC_SAW 5, 3), (Reg.MSEC_SAW 6, 4)])) (jobFor 2 0 255 kOK), 1, 255, 0x400000003,
     by decide +kernel⟩,
   ⟨(resetWith [(Reg.MSEC_SAIDX, 255), (Reg.MSEC_SAW 5, 3), (Reg.MSEC_SAW 6, 4)]), 1, 255, 0x400000003, by decide +kernel⟩,
   ⟨{ (resetWith [(Reg.MSEC_SAIDX, 255)]) with cry := { State.reset.cry with sa := [(255, { inuse := true, slot := 5, pn := 7 })] } }, 2,
     255, by decide +kernel⟩⟩

theorem test_CanPdusAreSecuredAndVerified_met :
    (∃ (s : State) (id : Nat) (k : Nat) (ix : Nat) (sl : Slot) (c : Copy) (a : AssocIn) (pipe : Nat) (u : State), amGet s.prv.slots id =
      some sl ∧ sl.copies[k]? = some c ∧ c.sec = .needed ix ∧ s.standby = false ∧ a = assocIn (s.assoc ix) ∧ s.fcBusy a.fc = false ∧
      s.fcAhead a.fc id k = false ∧ s.caMay = true ∧ s.keyCheck a.slot 1 = kOK ∧ c.frame.data.length = a.plen ∧ (c.frame.fmt = .cc →
      a.plen + a.fvb + a.macb ≤ 8) ∧ (c.frame.fmt = .fd → a.plen + a.fvb + a.macb ≤ 64) ∧ s.freshOf a.fc ≠ 2 ^ 64 - 1 ∧ s.choosePipe =
      some (pipe, u)) ∧
    (∃ (s : State) (id : Nat) (k : Nat) (ix : Nat) (sl : Slot) (c : Copy) (a : AssocIn) (pipe : Nat) (u : State), amGet s.prv.slots id =
      some sl ∧ sl.copies[k]? = some c ∧ c.sec = .needed ix ∧ s.standby = false ∧ a = assocIn (s.assoc ix) ∧ s.fcBusy a.fc = false ∧
      s.fcAhead a.fc id k = false ∧ s.caMay = true ∧ s.keyCheck a.slot 1 = kOK ∧ c.frame.data.length = a.plen ∧ (c.frame.fmt = .cc →
      a.plen + a.fvb + a.macb ≤ 8) ∧ (c.frame.fmt = .fd → a.plen + a.fvb + a.macb ≤ 64) ∧ s.freshOf a.fc ≠ 2 ^ 64 - 1 ∧ s.choosePipe =
      some (pipe, u)) ∧
    (∃ (s : State) (id : Nat) (k : Nat) (ix : Nat) (sl : Slot) (c : Copy) (a : AssocIn) (pipe : Nat) (u : State), amGet s.prv.slots id =
      some sl ∧ sl.copies[k]? = some c ∧ c.sec = .needed ix ∧ s.standby = false ∧ a = assocIn (s.assoc ix) ∧ s.fcBusy a.fc = false ∧
      s.fcAhead a.fc id k = false ∧ s.caMay = true ∧ s.keyCheck a.slot 1 = kOK ∧ c.frame.data.length = a.plen ∧ (c.frame.fmt = .cc →
      a.plen + a.fvb + a.macb ≤ 8) ∧ (c.frame.fmt = .fd → a.plen + a.fvb + a.macb ≤ 64) ∧ s.freshOf a.fc ≠ 2 ^ 64 - 1 ∧ s.choosePipe =
      some (pipe, u)) ∧
    (∃ (s : State) (id : Nat) (ix : Nat) (ws : List Word) (sl : Slot) (a : AssocIn) (x : Nat) (pipe : Nat) (u : State), amGet s.prv.slots
      id = some sl ∧ sl.phase = .waitVerify ix ws ∧ a = assocIn (ws.drop 1) ∧ s.noneWaits ∧ s.fcBusy a.fc = false ∧ s.fcAhead a.fc id 0 =
      false ∧ s.caMay = true ∧ s.keyCheck a.slot 2 = kOK ∧ a.plen + a.fvb + a.macb ≤ sl.job.frame.data.length ∧ x = freshRecover
      (s.freshOf a.fc) (beAt sl.job.frame.data a.plen a.fvb) a.fvb ∧ s.freshOf a.fc < x ∧ x < 2 ^ 64 ∧ (a.win = 0 ∨ x - s.freshOf a.fc ≤
      a.win) ∧ s.choosePipe = some (pipe, u)) ∧
    (∃ (s : State) (job : Nat) (j : CryJob) (sl : Slot) (ws : List Word), s.jobOf job = some j ∧ j.cls = 1 ∧ amGet s.prv.slots (j.ref % 2
      ^ 32) = some sl ∧ sl.phase = .verifying job ws ∧ j.code = kOK) ∧
    (∃ (s : State) (job : Nat) (j : CryJob) (sl : Slot) (ws : List Word), s.jobOf job = some j ∧ j.cls = 1 ∧ amGet s.prv.slots (j.ref % 2
      ^ 32) = some sl ∧ sl.phase = .verifying job ws ∧ j.code = kAUTHFAIL ∧ j.ix < 512) ∧
    (∃ (s : State) (v : Word) (i : Nat), s.pwr.held = false ∧ i = s.rf Reg.CAUTH_AIDX 8 0 ∧ bitOf v 0 = true ∧ bitOf v 1 = false) ∧
    (∃ (s : State) (v : Word) (i : Nat), s.pwr.held = false ∧ i = s.rf Reg.CAUTH_AIDX 8 0 ∧ bitOf v 0 = false ∧ bitOf v 1 = true) ∧
    (∃ (s : State) (v : Word) (i : Nat) (x : Nat), s.pwr.held = false ∧ i = s.rf Reg.CAUTH_FIDX 11 0 ∧ bitOf v 0 = true ∧ bitOf v 1 =
      false ∧ x = (s.rd Reg.CAUTH_FLO).toNat + (s.rd Reg.CAUTH_FHI).toNat * 2 ^ 32) ∧
    (∃ (s : State) (v : Word) (i : Nat), s.pwr.held = false ∧ i = s.rf Reg.CAUTH_FIDX 11 0 ∧ bitOf v 0 = false ∧ bitOf v 1 = true) ∧
    (∃ (s : State) (i : Nat) (x : Nat) (rest : List (Nat × Nat)), s.inSave = false ∧ s.cry.marks = (i, x) :: rest ∧ (i < 4096 ∨ (65536 ≤ i
      ∧ i < 65792)) ∧ x < 2 ^ 64) ∧
    (∃ (s : State) (i : Nat) (x : Nat) (rest : List (Nat × Nat)), s.inSave = false ∧ s.cry.marks = (i, x) :: rest ∧ (i < 4096 ∨ (65536 ≤ i
      ∧ i < 65792)) ∧ x < 2 ^ 64) ∧
    (∃ (s : State) (i : Nat) (x : Nat) (rest : List (Nat × Nat)), s.inSave = false ∧ s.cry.marks = (i, x) :: rest ∧ (i < 4096 ∨ (65536 ≤ i
      ∧ i < 65792)) ∧ x < 2 ^ 64) :=
  ⟨⟨{ (withSlot (withKeys State.reset) (⟨jobOf 0 fr4, 0, .routed, [{ copyOf (.ctl 0) fr4 with sec := .needed 511 }], false, false⟩ : Slot)) with cauth := [(511, assocWs)], fresh := [(9, 5)] },
     0, 0, 511, (⟨jobOf 0 fr4, 0, .routed, [{ copyOf (.ctl 0) fr4 with sec := .needed 511 }], false, false⟩ : Slot),
     { copyOf (.ctl 0) fr4 with sec := .needed 511 }, assocIn assocWs, 0,
     ({ (withSlot (withKeys State.reset) (⟨jobOf 0 fr4, 0, .routed, [{ copyOf (.ctl 0) fr4 with sec := .needed 511 }], false, false⟩ : Slot)) with cauth := [(511, assocWs)], fresh := [(9, 5)] }),
     by decide +kernel⟩,
   ⟨{ (withSlot (withKeys State.reset) (⟨jobOf 0 fr4, 0, .routed, [{ copyOf (.ctl 0) fr4 with sec := .needed 511 }], false, false⟩ : Slot)) with cauth := [(511, assocWs)], fresh := [(9, 2 ^ 64 - 2)] },
     0, 0, 511, (⟨jobOf 0 fr4, 0, .routed, [{ copyOf (.ctl 0) fr4 with sec := .needed 511 }], false, false⟩ : Slot),
     { copyOf (.ctl 0) fr4 with sec := .needed 511 }, assocIn assocWs, 0,
     ({ (withSlot (withKeys State.reset) (⟨jobOf 0 fr4, 0, .routed, [{ copyOf (.ctl 0) fr4 with sec := .needed 511 }], false, false⟩ : Slot)) with cauth := [(511, assocWs)], fresh := [(9, 2 ^ 64 - 2)] }),
     by decide +kernel⟩,
   ⟨{ (withSlot (withKeys State.reset) (⟨jobOf 0 fr4, 0, .routed, [{ copyOf (.ctl 0) fr4 with sec := .needed 511 }], false, false⟩ : Slot)) with cauth := [(511, assocWs)], fresh := [(9, 255)] },
     0, 0, 511, (⟨jobOf 0 fr4, 0, .routed, [{ copyOf (.ctl 0) fr4 with sec := .needed 511 }], false, false⟩ : Slot),
     { copyOf (.ctl 0) fr4 with sec := .needed 511 }, assocIn assocWs, 0,
     ({ (withSlot (withKeys State.reset) (⟨jobOf 0 fr4, 0, .routed, [{ copyOf (.ctl 0) fr4 with sec := .needed 511 }], false, false⟩ : Slot)) with cauth := [(511, assocWs)], fresh := [(9, 255)] }),
     by decide +kernel⟩,
   ⟨{ (withSlot (withKeys State.reset) (⟨jobOf 0 fr, 0, .waitVerify 511 (0 :: assocWs), [], false, false⟩ : Slot)) with cauth := [(511, assocWs)], fresh := [(9, 4)] },
     0, 511, 0 :: assocWs, (⟨jobOf 0 fr, 0, .waitVerify 511 (0 :: assocWs), [], false, false⟩ : Slot), assocIn assocWs, 5, 0,
     ({ (withSlot (withKeys State.reset) (⟨jobOf 0 fr, 0, .waitVerify 511 (0 :: assocWs), [], false, false⟩ : Slot)) with cauth := [(511, assocWs)], fresh := [(9, 4)] }),
     by decide +kernel⟩,
   ⟨withJob
     ({ (withSlot (withKeys State.reset) (⟨jobOf 0 fr, 0, .verifying 0 (0 :: assocWs), [], false, false⟩ : Slot)) with cauth := [(511, assocWs)], fresh := [(9, 4)] })
     (jobFor 1 0 511 kOK), 0, jobFor 1 0 511 kOK, (⟨jobOf 0 fr, 0, .verifying 0 (0 :: assocWs), [], false, false⟩ : Slot), 0 :: assocWs,
     by decide +kernel⟩,
   ⟨withJob
     ({ (withSlot (withKeys State.reset) (⟨jobOf 0 fr, 0, .verifying 0 (0 :: assocWs), [], false, false⟩ : Slot)) with cauth := [(511, assocWs)], fresh := [(9, 4)] })
     (jobFor 1 0 511 kAUTHFAIL), 0, jobFor 1 0 511 kAUTHFAIL, (⟨jobOf 0 fr, 0, .verifying 0 (0 :: assocWs), [], false, false⟩ : Slot), 0
     :: assocWs, by decide +kernel⟩,
   ⟨(resetWith [(Reg.CAUTH_AIDX, 511)]), 1, 511, by decide +kernel⟩,
   ⟨(resetWith [(Reg.CAUTH_AIDX, 511)]), 2, 511, by decide +kernel⟩,
   ⟨(resetWith [(Reg.CAUTH_FIDX, 4095), (Reg.CAUTH_FLO, 5), (Reg.CAUTH_FHI, 7)]), 1, 4095, 0x700000005, by decide +kernel⟩,
   ⟨{ (resetWith [(Reg.CAUTH_FIDX, 4095)]) with fresh := [(4095, 9)] }, 2, 4095, by decide +kernel⟩,
   ⟨{ State.reset with cry := { State.reset.cry with marks := [(0, 2 ^ 64 - 1)] } }, 0, 2 ^ 64 - 1, [], by decide +kernel⟩,
   ⟨{ State.reset with cry := { State.reset.cry with marks := [(4095, 2 ^ 64 - 1)] } }, 4095, 2 ^ 64 - 1, [], by decide +kernel⟩,
   ⟨{ State.reset with cry := { State.reset.cry with marks := [(65536, 2 ^ 64 - 1)] } }, 65536, 2 ^ 64 - 1, [], by decide +kernel⟩⟩

theorem test_MemoryJobsRunOverTheirRings_met :
    (∃ (s : State) (u : State) (init : Initiator) (v : Word) (r : Fin 4) (host : List (Nat × List Byte)), u = s.hostWrites host ∧
      s.pwr.held = false ∧ (r.val ≠ 3 ∨ init = .laurel) ∧ fld v 11 0 < s.rSize r) ∧
    (∃ (s : State) (u : State) (init : Initiator) (v : Word) (r : Fin 4) (host : List (Nat × List Byte)), u = s.hostWrites host ∧
      s.pwr.held = false ∧ (r.val ≠ 3 ∨ init = .laurel) ∧ s.rSize r ≤ fld v 11 0) ∧
    (∃ (s : State) (u : State) (init : Initiator) (v : Word) (r : Fin 4) (host : List (Nat × List Byte)), u = s.hostWrites host ∧
      s.pwr.held = false ∧ (r.val ≠ 3 ∨ init = .laurel) ∧ bitOf v 30 = true) ∧
    (∃ (s : State) (u : State) (init : Initiator) (v : Word) (r : Fin 4) (host : List (Nat × List Byte)), u = s.hostWrites host ∧
      s.pwr.held = false ∧ (r.val ≠ 3 ∨ init = .laurel) ∧ bitOf v 30 = true) ∧
    (∃ (s : State) (u : State) (r : Fin 4) (host : List (Nat × List Byte)) (b : List Byte) (pipe : Nat) (x : State), u = s.hostWrites host
      ∧ s.rb (Reg.CRY_RCTL r) 0 = true ∧ s.rb (Reg.CRY_RCTL r) 31 = false ∧ s.rFetch r ≠ s.rTail r ∧ s.crySlot 4 = true ∧ s.cryOn = true ∧
      s.keysReady = true ∧ s.spaceMay (ringHost r) = true ∧ u.memSpaceRd (ringHost r) (s.rEntry r (s.rFetch r)) 64 = some b ∧ nbit (leNat
      (b.take 4)) 31 = true ∧ s.choosePipe = some (pipe, x)) ∧
    (∃ (s : State) (u : State) (r : Fin 4) (host : List (Nat × List Byte)) (b : List Byte), u = s.hostWrites host ∧ s.rb (Reg.CRY_RCTL r)
      0 = true ∧ s.rb (Reg.CRY_RCTL r) 31 = false ∧ s.rFetch r ≠ s.rTail r ∧ s.crySlot 4 = true ∧ s.cryOn = true ∧ s.keysReady = true ∧
      s.spaceMay (ringHost r) = true ∧ u.memSpaceRd (ringHost r) (s.rEntry r (s.rFetch r)) 64 = some b ∧ nbit (leNat (b.take 4)) 31 =
      false) ∧
    (∃ (s : State) (u : State) (r : Fin 4) (host : List (Nat × List Byte)) (job : Nat) (j : CryJob) (m : MemJob) (d : MemIn) (b : List
      Byte) (tag : Option (List Byte)) (w : State) (x : State) (e : Nat), u = s.hostWrites host ∧ s.jobOf job = some j ∧ s.cry.mem = [m] ∧
      m.job = some job ∧ m.ring = r.val ∧ d = memIn m.words ∧ s.spaceMay (ringHost r) = true ∧ j.code = kOK ∧ u.memSpaceRd (ringHost r)
      d.src (d.aad + d.len) = some b ∧ (tag = (if d.op = 2 ∨ d.op = 4 then u.memSpaceRd (ringHost r) d.tagaddr d.taglen else some [])) ∧
      tag ≠ none ∧ (memCompute d j.key b (tag.getD [])).2.2 = true ∧ u.memSpaceWr (ringHost r) d.dst (memCompute d j.key b (tag.getD
      [])).1 = some x ∧ x.memSpaceWr (ringHost r) d.tagaddr (memCompute d j.key b (tag.getD [])).2.1 = some w ∧ e = s.rEntry r m.entry ∧
      (ringHost r = true ∨ e + 64 ≤ dramSize)) :=
  ⟨⟨State.reset, State.reset.hostWrites [], .laurel, 1, 2, [], by decide +kernel⟩,
   ⟨State.reset, State.reset.hostWrites [], .laurel, 2, 2, [], by decide +kernel⟩,
   ⟨(resetWith [(Reg.CRY_RCTL 2, 0x80000001)]), ((resetWith [(Reg.CRY_RCTL 2, 0x80000001)])).hostWrites [], .laurel, 0x40000000, 2, [],
     by decide +kernel⟩,
   ⟨State.reset, State.reset.hostWrites [], .laurel, 0x40000000, 3, [], by decide +kernel⟩,
   ⟨{ (plus (withKeys (hostOn [])) [(Reg.CRY_RCTL 2, 1), (Reg.CRY_RTAIL 2, 1), (Reg.CRY_RBLO 2, 0x1000)]) with hmem := memWrN [] 0x1000 (leBytes 4 0x83000000 ++ leBytes 4 (4 * 2 ^ 16 + 5) ++ leBytes 4 0 ++ leBytes 4 3 ++ leBytes 4 0x2000 ++ leBytes 4 0 ++ leBytes 4 0x3000 ++ leBytes 4 0 ++ leBytes 4 0x4000 ++ List.replicate 28 0) },
     ({ (plus (withKeys (hostOn [])) [(Reg.CRY_RCTL 2, 1), (Reg.CRY_RTAIL 2, 1), (Reg.CRY_RBLO 2, 0x1000)]) with hmem := memWrN [] 0x1000 (leBytes 4 0x83000000 ++ leBytes 4 (4 * 2 ^ 16 + 5) ++ leBytes 4 0 ++ leBytes 4 3 ++ leBytes 4 0x2000 ++ leBytes 4 0 ++ leBytes 4 0x3000 ++ leBytes 4 0 ++ leBytes 4 0x4000 ++ List.replicate 28 0) }).hostWrites
     [], 2, [], memRdN
     ({ (plus (withKeys (hostOn [])) [(Reg.CRY_RCTL 2, 1), (Reg.CRY_RTAIL 2, 1), (Reg.CRY_RBLO 2, 0x1000)]) with hmem := memWrN [] 0x1000 (leBytes 4 0x83000000 ++ leBytes 4 (4 * 2 ^ 16 + 5) ++ leBytes 4 0 ++ leBytes 4 3 ++ leBytes 4 0x2000 ++ leBytes 4 0 ++ leBytes 4 0x3000 ++ leBytes 4 0 ++ leBytes 4 0x4000 ++ List.replicate 28 0) }).hmem
     0x1000 64, 0,
     ({ (plus (withKeys (hostOn [])) [(Reg.CRY_RCTL 2, 1), (Reg.CRY_RTAIL 2, 1), (Reg.CRY_RBLO 2, 0x1000)]) with hmem := memWrN [] 0x1000 (leBytes 4 0x83000000 ++ leBytes 4 (4 * 2 ^ 16 + 5) ++ leBytes 4 0 ++ leBytes 4 3 ++ leBytes 4 0x2000 ++ leBytes 4 0 ++ leBytes 4 0x3000 ++ leBytes 4 0 ++ leBytes 4 0x4000 ++ List.replicate 28 0) }),
     by decide +kernel⟩,
   ⟨{ (plus (withKeys (hostOn [])) [(Reg.CRY_RCTL 2, 1), (Reg.CRY_RTAIL 2, 1), (Reg.CRY_RBLO 2, 0x1000)]) with hmem := memWrN [] 0x1000 (leBytes 4 0x03000000 ++ leBytes 4 (4 * 2 ^ 16 + 5) ++ leBytes 4 0 ++ leBytes 4 3 ++ leBytes 4 0x2000 ++ leBytes 4 0 ++ leBytes 4 0x3000 ++ leBytes 4 0 ++ leBytes 4 0x4000 ++ List.replicate 28 0) },
     ({ (plus (withKeys (hostOn [])) [(Reg.CRY_RCTL 2, 1), (Reg.CRY_RTAIL 2, 1), (Reg.CRY_RBLO 2, 0x1000)]) with hmem := memWrN [] 0x1000 (leBytes 4 0x03000000 ++ leBytes 4 (4 * 2 ^ 16 + 5) ++ leBytes 4 0 ++ leBytes 4 3 ++ leBytes 4 0x2000 ++ leBytes 4 0 ++ leBytes 4 0x3000 ++ leBytes 4 0 ++ leBytes 4 0x4000 ++ List.replicate 28 0) }).hostWrites
     [], 2, [], memRdN
     ({ (plus (withKeys (hostOn [])) [(Reg.CRY_RCTL 2, 1), (Reg.CRY_RTAIL 2, 1), (Reg.CRY_RBLO 2, 0x1000)]) with hmem := memWrN [] 0x1000 (leBytes 4 0x03000000 ++ leBytes 4 (4 * 2 ^ 16 + 5) ++ leBytes 4 0 ++ leBytes 4 3 ++ leBytes 4 0x2000 ++ leBytes 4 0 ++ leBytes 4 0x3000 ++ leBytes 4 0 ++ leBytes 4 0x4000 ++ List.replicate 28 0) }).hmem
     0x1000 64, by decide +kernel⟩,
   ⟨{ (withJob ({ (plus (withKeys (hostOn [])) [(Reg.CRY_RCTL 2, 1), (Reg.CRY_RTAIL 2, 1), (Reg.CRY_RBLO 2, 0x1000)]) with hmem := memWrN [] 0x1000 (leBytes 4 0x83000000 ++ leBytes 4 (4 * 2 ^ 16 + 5) ++ leBytes 4 0 ++ leBytes 4 3 ++ leBytes 4 0x2000 ++ leBytes 4 0 ++ leBytes 4 0x3000 ++ leBytes 4 0 ++ leBytes 4 0x4000 ++ List.replicate 28 0) }) { (jobFor 4 0 0 kOK) with key := List.replicate 32 9 }) with cry := { (withJob ({ (plus (withKeys (hostOn [])) [(Reg.CRY_RCTL 2, 1), (Reg.CRY_RTAIL 2, 1), (Reg.CRY_RBLO 2, 0x1000)]) with hmem := memWrN [] 0x1000 (leBytes 4 0x83000000 ++ leBytes 4 (4 * 2 ^ 16 + 5) ++ leBytes 4 0 ++ leBytes 4 3 ++ leBytes 4 0x2000 ++ leBytes 4 0 ++ leBytes 4 0x3000 ++ leBytes 4 0 ++ leBytes 4 0x4000 ++ List.replicate 28 0) }) { (jobFor 4 0 0 kOK) with key := List.replicate 32 9 }).cry with mem := [({ ring := 2, entry := 0, words := (leWords 16 (memRdN (memWrN [] 0x1000 (leBytes 4 0x83000000 ++ leBytes 4 (4 * 2 ^ 16 + 5) ++ leBytes 4 0 ++ leBytes 4 3 ++ leBytes 4 0x2000 ++ leBytes 4 0 ++ leBytes 4 0x3000 ++ leBytes 4 0 ++ leBytes 4 0x4000 ++ List.replicate 28 0)) 0x1000 64)), job := some 0, res := none } : MemJob)] } },
     ({ (withJob ({ (plus (withKeys (hostOn [])) [(Reg.CRY_RCTL 2, 1), (Reg.CRY_RTAIL 2, 1), (Reg.CRY_RBLO 2, 0x1000)]) with hmem := memWrN [] 0x1000 (leBytes 4 0x83000000 ++ leBytes 4 (4 * 2 ^ 16 + 5) ++ leBytes 4 0 ++ leBytes 4 3 ++ leBytes 4 0x2000 ++ leBytes 4 0 ++ leBytes 4 0x3000 ++ leBytes 4 0 ++ leBytes 4 0x4000 ++ List.replicate 28 0) }) { (jobFor 4 0 0 kOK) with key := List.replicate 32 9 }) with cry := { (withJob ({ (plus (withKeys (hostOn [])) [(Reg.CRY_RCTL 2, 1), (Reg.CRY_RTAIL 2, 1), (Reg.CRY_RBLO 2, 0x1000)]) with hmem := memWrN [] 0x1000 (leBytes 4 0x83000000 ++ leBytes 4 (4 * 2 ^ 16 + 5) ++ leBytes 4 0 ++ leBytes 4 3 ++ leBytes 4 0x2000 ++ leBytes 4 0 ++ leBytes 4 0x3000 ++ leBytes 4 0 ++ leBytes 4 0x4000 ++ List.replicate 28 0) }) { (jobFor 4 0 0 kOK) with key := List.replicate 32 9 }).cry with mem := [({ ring := 2, entry := 0, words := (leWords 16 (memRdN (memWrN [] 0x1000 (leBytes 4 0x83000000 ++ leBytes 4 (4 * 2 ^ 16 + 5) ++ leBytes 4 0 ++ leBytes 4 3 ++ leBytes 4 0x2000 ++ leBytes 4 0 ++ leBytes 4 0x3000 ++ leBytes 4 0 ++ leBytes 4 0x4000 ++ List.replicate 28 0)) 0x1000 64)), job := some 0, res := none } : MemJob)] } }).hostWrites
     [], 2, [], 0, { (jobFor 4 0 0 kOK) with key := List.replicate 32 9 },
     ({ ring := 2, entry := 0, words := (leWords 16 (memRdN (memWrN [] 0x1000 (leBytes 4 0x83000000 ++ leBytes 4 (4 * 2 ^ 16 + 5) ++ leBytes 4 0 ++ leBytes 4 3 ++ leBytes 4 0x2000 ++ leBytes 4 0 ++ leBytes 4 0x3000 ++ leBytes 4 0 ++ leBytes 4 0x4000 ++ List.replicate 28 0)) 0x1000 64)), job := some 0, res := none }
     : MemJob), memIn
     (({ ring := 2, entry := 0, words := (leWords 16 (memRdN (memWrN [] 0x1000 (leBytes 4 0x83000000 ++ leBytes 4 (4 * 2 ^ 16 + 5) ++ leBytes 4 0 ++ leBytes 4 3 ++ leBytes 4 0x2000 ++ leBytes 4 0 ++ leBytes 4 0x3000 ++ leBytes 4 0 ++ leBytes 4 0x4000 ++ List.replicate 28 0)) 0x1000 64)), job := some 0, res := none }
     : MemJob)).words, memRdN
     ({ (withJob ({ (plus (withKeys (hostOn [])) [(Reg.CRY_RCTL 2, 1), (Reg.CRY_RTAIL 2, 1), (Reg.CRY_RBLO 2, 0x1000)]) with hmem := memWrN [] 0x1000 (leBytes 4 0x83000000 ++ leBytes 4 (4 * 2 ^ 16 + 5) ++ leBytes 4 0 ++ leBytes 4 3 ++ leBytes 4 0x2000 ++ leBytes 4 0 ++ leBytes 4 0x3000 ++ leBytes 4 0 ++ leBytes 4 0x4000 ++ List.replicate 28 0) }) { (jobFor 4 0 0 kOK) with key := List.replicate 32 9 }) with cry := { (withJob ({ (plus (withKeys (hostOn [])) [(Reg.CRY_RCTL 2, 1), (Reg.CRY_RTAIL 2, 1), (Reg.CRY_RBLO 2, 0x1000)]) with hmem := memWrN [] 0x1000 (leBytes 4 0x83000000 ++ leBytes 4 (4 * 2 ^ 16 + 5) ++ leBytes 4 0 ++ leBytes 4 3 ++ leBytes 4 0x2000 ++ leBytes 4 0 ++ leBytes 4 0x3000 ++ leBytes 4 0 ++ leBytes 4 0x4000 ++ List.replicate 28 0) }) { (jobFor 4 0 0 kOK) with key := List.replicate 32 9 }).cry with mem := [({ ring := 2, entry := 0, words := (leWords 16 (memRdN (memWrN [] 0x1000 (leBytes 4 0x83000000 ++ leBytes 4 (4 * 2 ^ 16 + 5) ++ leBytes 4 0 ++ leBytes 4 3 ++ leBytes 4 0x2000 ++ leBytes 4 0 ++ leBytes 4 0x3000 ++ leBytes 4 0 ++ leBytes 4 0x4000 ++ List.replicate 28 0)) 0x1000 64)), job := some 0, res := none } : MemJob)] } }).hmem
     0x2000 3, some [],
     ((((({ (withJob ({ (plus (withKeys (hostOn [])) [(Reg.CRY_RCTL 2, 1), (Reg.CRY_RTAIL 2, 1), (Reg.CRY_RBLO 2, 0x1000)]) with hmem := memWrN [] 0x1000 (leBytes 4 0x83000000 ++ leBytes 4 (4 * 2 ^ 16 + 5) ++ leBytes 4 0 ++ leBytes 4 3 ++ leBytes 4 0x2000 ++ leBytes 4 0 ++ leBytes 4 0x3000 ++ leBytes 4 0 ++ leBytes 4 0x4000 ++ List.replicate 28 0) }) { (jobFor 4 0 0 kOK) with key := List.replicate 32 9 }) with cry := { (withJob ({ (plus (withKeys (hostOn [])) [(Reg.CRY_RCTL 2, 1), (Reg.CRY_RTAIL 2, 1), (Reg.CRY_RBLO 2, 0x1000)]) with hmem := memWrN [] 0x1000 (leBytes 4 0x83000000 ++ leBytes 4 (4 * 2 ^ 16 + 5) ++ leBytes 4 0 ++ leBytes 4 3 ++ leBytes 4 0x2000 ++ leBytes 4 0 ++ leBytes 4 0x3000 ++ leBytes 4 0 ++ leBytes 4 0x4000 ++ List.replicate 28 0) }) { (jobFor 4 0 0 kOK) with key := List.replicate 32 9 }).cry with mem := [({ ring := 2, entry := 0, words := (leWords 16 (memRdN (memWrN [] 0x1000 (leBytes 4 0x83000000 ++ leBytes 4 (4 * 2 ^ 16 + 5) ++ leBytes 4 0 ++ leBytes 4 3 ++ leBytes 4 0x2000 ++ leBytes 4 0 ++ leBytes 4 0x3000 ++ leBytes 4 0 ++ leBytes 4 0x4000 ++ List.replicate 28 0)) 0x1000 64)), job := some 0, res := none } : MemJob)] } }).hostWrites
     []).memSpaceWr true (memIn
     (({ ring := 2, entry := 0, words := (leWords 16 (memRdN (memWrN [] 0x1000 (leBytes 4 0x83000000 ++ leBytes 4 (4 * 2 ^ 16 + 5) ++ leBytes 4 0 ++ leBytes 4 3 ++ leBytes 4 0x2000 ++ leBytes 4 0 ++ leBytes 4 0x3000 ++ leBytes 4 0 ++ leBytes 4 0x4000 ++ List.replicate 28 0)) 0x1000 64)), job := some 0, res := none }
     : MemJob)).words).dst (memCompute (memIn
     (({ ring := 2, entry := 0, words := (leWords 16 (memRdN (memWrN [] 0x1000 (leBytes 4 0x83000000 ++ leBytes 4 (4 * 2 ^ 16 + 5) ++ leBytes 4 0 ++ leBytes 4 3 ++ leBytes 4 0x2000 ++ leBytes 4 0 ++ leBytes 4 0x3000 ++ leBytes 4 0 ++ leBytes 4 0x4000 ++ List.replicate 28 0)) 0x1000 64)), job := some 0, res := none }
     : MemJob)).words) ({ (jobFor 4 0 0 kOK) with key := List.replicate 32 9 }).key (memRdN
     ({ (withJob ({ (plus (withKeys (hostOn [])) [(Reg.CRY_RCTL 2, 1), (Reg.CRY_RTAIL 2, 1), (Reg.CRY_RBLO 2, 0x1000)]) with hmem := memWrN [] 0x1000 (leBytes 4 0x83000000 ++ leBytes 4 (4 * 2 ^ 16 + 5) ++ leBytes 4 0 ++ leBytes 4 3 ++ leBytes 4 0x2000 ++ leBytes 4 0 ++ leBytes 4 0x3000 ++ leBytes 4 0 ++ leBytes 4 0x4000 ++ List.replicate 28 0) }) { (jobFor 4 0 0 kOK) with key := List.replicate 32 9 }) with cry := { (withJob ({ (plus (withKeys (hostOn [])) [(Reg.CRY_RCTL 2, 1), (Reg.CRY_RTAIL 2, 1), (Reg.CRY_RBLO 2, 0x1000)]) with hmem := memWrN [] 0x1000 (leBytes 4 0x83000000 ++ leBytes 4 (4 * 2 ^ 16 + 5) ++ leBytes 4 0 ++ leBytes 4 3 ++ leBytes 4 0x2000 ++ leBytes 4 0 ++ leBytes 4 0x3000 ++ leBytes 4 0 ++ leBytes 4 0x4000 ++ List.replicate 28 0) }) { (jobFor 4 0 0 kOK) with key := List.replicate 32 9 }).cry with mem := [({ ring := 2, entry := 0, words := (leWords 16 (memRdN (memWrN [] 0x1000 (leBytes 4 0x83000000 ++ leBytes 4 (4 * 2 ^ 16 + 5) ++ leBytes 4 0 ++ leBytes 4 3 ++ leBytes 4 0x2000 ++ leBytes 4 0 ++ leBytes 4 0x3000 ++ leBytes 4 0 ++ leBytes 4 0x4000 ++ List.replicate 28 0)) 0x1000 64)), job := some 0, res := none } : MemJob)] } }).hmem
     0x2000 3) []).1).getD
     (({ (withJob ({ (plus (withKeys (hostOn [])) [(Reg.CRY_RCTL 2, 1), (Reg.CRY_RTAIL 2, 1), (Reg.CRY_RBLO 2, 0x1000)]) with hmem := memWrN [] 0x1000 (leBytes 4 0x83000000 ++ leBytes 4 (4 * 2 ^ 16 + 5) ++ leBytes 4 0 ++ leBytes 4 3 ++ leBytes 4 0x2000 ++ leBytes 4 0 ++ leBytes 4 0x3000 ++ leBytes 4 0 ++ leBytes 4 0x4000 ++ List.replicate 28 0) }) { (jobFor 4 0 0 kOK) with key := List.replicate 32 9 }) with cry := { (withJob ({ (plus (withKeys (hostOn [])) [(Reg.CRY_RCTL 2, 1), (Reg.CRY_RTAIL 2, 1), (Reg.CRY_RBLO 2, 0x1000)]) with hmem := memWrN [] 0x1000 (leBytes 4 0x83000000 ++ leBytes 4 (4 * 2 ^ 16 + 5) ++ leBytes 4 0 ++ leBytes 4 3 ++ leBytes 4 0x2000 ++ leBytes 4 0 ++ leBytes 4 0x3000 ++ leBytes 4 0 ++ leBytes 4 0x4000 ++ List.replicate 28 0) }) { (jobFor 4 0 0 kOK) with key := List.replicate 32 9 }).cry with mem := [({ ring := 2, entry := 0, words := (leWords 16 (memRdN (memWrN [] 0x1000 (leBytes 4 0x83000000 ++ leBytes 4 (4 * 2 ^ 16 + 5) ++ leBytes 4 0 ++ leBytes 4 3 ++ leBytes 4 0x2000 ++ leBytes 4 0 ++ leBytes 4 0x3000 ++ leBytes 4 0 ++ leBytes 4 0x4000 ++ List.replicate 28 0)) 0x1000 64)), job := some 0, res := none } : MemJob)] } }).hostWrites
     [])).memSpaceWr true (memIn
     (({ ring := 2, entry := 0, words := (leWords 16 (memRdN (memWrN [] 0x1000 (leBytes 4 0x83000000 ++ leBytes 4 (4 * 2 ^ 16 + 5) ++ leBytes 4 0 ++ leBytes 4 3 ++ leBytes 4 0x2000 ++ leBytes 4 0 ++ leBytes 4 0x3000 ++ leBytes 4 0 ++ leBytes 4 0x4000 ++ List.replicate 28 0)) 0x1000 64)), job := some 0, res := none }
     : MemJob)).words).tagaddr (memCompute (memIn
     (({ ring := 2, entry := 0, words := (leWords 16 (memRdN (memWrN [] 0x1000 (leBytes 4 0x83000000 ++ leBytes 4 (4 * 2 ^ 16 + 5) ++ leBytes 4 0 ++ leBytes 4 3 ++ leBytes 4 0x2000 ++ leBytes 4 0 ++ leBytes 4 0x3000 ++ leBytes 4 0 ++ leBytes 4 0x4000 ++ List.replicate 28 0)) 0x1000 64)), job := some 0, res := none }
     : MemJob)).words) ({ (jobFor 4 0 0 kOK) with key := List.replicate 32 9 }).key (memRdN
     ({ (withJob ({ (plus (withKeys (hostOn [])) [(Reg.CRY_RCTL 2, 1), (Reg.CRY_RTAIL 2, 1), (Reg.CRY_RBLO 2, 0x1000)]) with hmem := memWrN [] 0x1000 (leBytes 4 0x83000000 ++ leBytes 4 (4 * 2 ^ 16 + 5) ++ leBytes 4 0 ++ leBytes 4 3 ++ leBytes 4 0x2000 ++ leBytes 4 0 ++ leBytes 4 0x3000 ++ leBytes 4 0 ++ leBytes 4 0x4000 ++ List.replicate 28 0) }) { (jobFor 4 0 0 kOK) with key := List.replicate 32 9 }) with cry := { (withJob ({ (plus (withKeys (hostOn [])) [(Reg.CRY_RCTL 2, 1), (Reg.CRY_RTAIL 2, 1), (Reg.CRY_RBLO 2, 0x1000)]) with hmem := memWrN [] 0x1000 (leBytes 4 0x83000000 ++ leBytes 4 (4 * 2 ^ 16 + 5) ++ leBytes 4 0 ++ leBytes 4 3 ++ leBytes 4 0x2000 ++ leBytes 4 0 ++ leBytes 4 0x3000 ++ leBytes 4 0 ++ leBytes 4 0x4000 ++ List.replicate 28 0) }) { (jobFor 4 0 0 kOK) with key := List.replicate 32 9 }).cry with mem := [({ ring := 2, entry := 0, words := (leWords 16 (memRdN (memWrN [] 0x1000 (leBytes 4 0x83000000 ++ leBytes 4 (4 * 2 ^ 16 + 5) ++ leBytes 4 0 ++ leBytes 4 3 ++ leBytes 4 0x2000 ++ leBytes 4 0 ++ leBytes 4 0x3000 ++ leBytes 4 0 ++ leBytes 4 0x4000 ++ List.replicate 28 0)) 0x1000 64)), job := some 0, res := none } : MemJob)] } }).hmem
     0x2000 3) []).2.1).getD
     (({ (withJob ({ (plus (withKeys (hostOn [])) [(Reg.CRY_RCTL 2, 1), (Reg.CRY_RTAIL 2, 1), (Reg.CRY_RBLO 2, 0x1000)]) with hmem := memWrN [] 0x1000 (leBytes 4 0x83000000 ++ leBytes 4 (4 * 2 ^ 16 + 5) ++ leBytes 4 0 ++ leBytes 4 3 ++ leBytes 4 0x2000 ++ leBytes 4 0 ++ leBytes 4 0x3000 ++ leBytes 4 0 ++ leBytes 4 0x4000 ++ List.replicate 28 0) }) { (jobFor 4 0 0 kOK) with key := List.replicate 32 9 }) with cry := { (withJob ({ (plus (withKeys (hostOn [])) [(Reg.CRY_RCTL 2, 1), (Reg.CRY_RTAIL 2, 1), (Reg.CRY_RBLO 2, 0x1000)]) with hmem := memWrN [] 0x1000 (leBytes 4 0x83000000 ++ leBytes 4 (4 * 2 ^ 16 + 5) ++ leBytes 4 0 ++ leBytes 4 3 ++ leBytes 4 0x2000 ++ leBytes 4 0 ++ leBytes 4 0x3000 ++ leBytes 4 0 ++ leBytes 4 0x4000 ++ List.replicate 28 0) }) { (jobFor 4 0 0 kOK) with key := List.replicate 32 9 }).cry with mem := [({ ring := 2, entry := 0, words := (leWords 16 (memRdN (memWrN [] 0x1000 (leBytes 4 0x83000000 ++ leBytes 4 (4 * 2 ^ 16 + 5) ++ leBytes 4 0 ++ leBytes 4 3 ++ leBytes 4 0x2000 ++ leBytes 4 0 ++ leBytes 4 0x3000 ++ leBytes 4 0 ++ leBytes 4 0x4000 ++ List.replicate 28 0)) 0x1000 64)), job := some 0, res := none } : MemJob)] } }).hostWrites
     []),
     ((({ (withJob ({ (plus (withKeys (hostOn [])) [(Reg.CRY_RCTL 2, 1), (Reg.CRY_RTAIL 2, 1), (Reg.CRY_RBLO 2, 0x1000)]) with hmem := memWrN [] 0x1000 (leBytes 4 0x83000000 ++ leBytes 4 (4 * 2 ^ 16 + 5) ++ leBytes 4 0 ++ leBytes 4 3 ++ leBytes 4 0x2000 ++ leBytes 4 0 ++ leBytes 4 0x3000 ++ leBytes 4 0 ++ leBytes 4 0x4000 ++ List.replicate 28 0) }) { (jobFor 4 0 0 kOK) with key := List.replicate 32 9 }) with cry := { (withJob ({ (plus (withKeys (hostOn [])) [(Reg.CRY_RCTL 2, 1), (Reg.CRY_RTAIL 2, 1), (Reg.CRY_RBLO 2, 0x1000)]) with hmem := memWrN [] 0x1000 (leBytes 4 0x83000000 ++ leBytes 4 (4 * 2 ^ 16 + 5) ++ leBytes 4 0 ++ leBytes 4 3 ++ leBytes 4 0x2000 ++ leBytes 4 0 ++ leBytes 4 0x3000 ++ leBytes 4 0 ++ leBytes 4 0x4000 ++ List.replicate 28 0) }) { (jobFor 4 0 0 kOK) with key := List.replicate 32 9 }).cry with mem := [({ ring := 2, entry := 0, words := (leWords 16 (memRdN (memWrN [] 0x1000 (leBytes 4 0x83000000 ++ leBytes 4 (4 * 2 ^ 16 + 5) ++ leBytes 4 0 ++ leBytes 4 3 ++ leBytes 4 0x2000 ++ leBytes 4 0 ++ leBytes 4 0x3000 ++ leBytes 4 0 ++ leBytes 4 0x4000 ++ List.replicate 28 0)) 0x1000 64)), job := some 0, res := none } : MemJob)] } }).hostWrites
     []).memSpaceWr true (memIn
     (({ ring := 2, entry := 0, words := (leWords 16 (memRdN (memWrN [] 0x1000 (leBytes 4 0x83000000 ++ leBytes 4 (4 * 2 ^ 16 + 5) ++ leBytes 4 0 ++ leBytes 4 3 ++ leBytes 4 0x2000 ++ leBytes 4 0 ++ leBytes 4 0x3000 ++ leBytes 4 0 ++ leBytes 4 0x4000 ++ List.replicate 28 0)) 0x1000 64)), job := some 0, res := none }
     : MemJob)).words).dst (memCompute (memIn
     (({ ring := 2, entry := 0, words := (leWords 16 (memRdN (memWrN [] 0x1000 (leBytes 4 0x83000000 ++ leBytes 4 (4 * 2 ^ 16 + 5) ++ leBytes 4 0 ++ leBytes 4 3 ++ leBytes 4 0x2000 ++ leBytes 4 0 ++ leBytes 4 0x3000 ++ leBytes 4 0 ++ leBytes 4 0x4000 ++ List.replicate 28 0)) 0x1000 64)), job := some 0, res := none }
     : MemJob)).words) ({ (jobFor 4 0 0 kOK) with key := List.replicate 32 9 }).key (memRdN
     ({ (withJob ({ (plus (withKeys (hostOn [])) [(Reg.CRY_RCTL 2, 1), (Reg.CRY_RTAIL 2, 1), (Reg.CRY_RBLO 2, 0x1000)]) with hmem := memWrN [] 0x1000 (leBytes 4 0x83000000 ++ leBytes 4 (4 * 2 ^ 16 + 5) ++ leBytes 4 0 ++ leBytes 4 3 ++ leBytes 4 0x2000 ++ leBytes 4 0 ++ leBytes 4 0x3000 ++ leBytes 4 0 ++ leBytes 4 0x4000 ++ List.replicate 28 0) }) { (jobFor 4 0 0 kOK) with key := List.replicate 32 9 }) with cry := { (withJob ({ (plus (withKeys (hostOn [])) [(Reg.CRY_RCTL 2, 1), (Reg.CRY_RTAIL 2, 1), (Reg.CRY_RBLO 2, 0x1000)]) with hmem := memWrN [] 0x1000 (leBytes 4 0x83000000 ++ leBytes 4 (4 * 2 ^ 16 + 5) ++ leBytes 4 0 ++ leBytes 4 3 ++ leBytes 4 0x2000 ++ leBytes 4 0 ++ leBytes 4 0x3000 ++ leBytes 4 0 ++ leBytes 4 0x4000 ++ List.replicate 28 0) }) { (jobFor 4 0 0 kOK) with key := List.replicate 32 9 }).cry with mem := [({ ring := 2, entry := 0, words := (leWords 16 (memRdN (memWrN [] 0x1000 (leBytes 4 0x83000000 ++ leBytes 4 (4 * 2 ^ 16 + 5) ++ leBytes 4 0 ++ leBytes 4 3 ++ leBytes 4 0x2000 ++ leBytes 4 0 ++ leBytes 4 0x3000 ++ leBytes 4 0 ++ leBytes 4 0x4000 ++ List.replicate 28 0)) 0x1000 64)), job := some 0, res := none } : MemJob)] } }).hmem
     0x2000 3) []).1).getD
     (({ (withJob ({ (plus (withKeys (hostOn [])) [(Reg.CRY_RCTL 2, 1), (Reg.CRY_RTAIL 2, 1), (Reg.CRY_RBLO 2, 0x1000)]) with hmem := memWrN [] 0x1000 (leBytes 4 0x83000000 ++ leBytes 4 (4 * 2 ^ 16 + 5) ++ leBytes 4 0 ++ leBytes 4 3 ++ leBytes 4 0x2000 ++ leBytes 4 0 ++ leBytes 4 0x3000 ++ leBytes 4 0 ++ leBytes 4 0x4000 ++ List.replicate 28 0) }) { (jobFor 4 0 0 kOK) with key := List.replicate 32 9 }) with cry := { (withJob ({ (plus (withKeys (hostOn [])) [(Reg.CRY_RCTL 2, 1), (Reg.CRY_RTAIL 2, 1), (Reg.CRY_RBLO 2, 0x1000)]) with hmem := memWrN [] 0x1000 (leBytes 4 0x83000000 ++ leBytes 4 (4 * 2 ^ 16 + 5) ++ leBytes 4 0 ++ leBytes 4 3 ++ leBytes 4 0x2000 ++ leBytes 4 0 ++ leBytes 4 0x3000 ++ leBytes 4 0 ++ leBytes 4 0x4000 ++ List.replicate 28 0) }) { (jobFor 4 0 0 kOK) with key := List.replicate 32 9 }).cry with mem := [({ ring := 2, entry := 0, words := (leWords 16 (memRdN (memWrN [] 0x1000 (leBytes 4 0x83000000 ++ leBytes 4 (4 * 2 ^ 16 + 5) ++ leBytes 4 0 ++ leBytes 4 3 ++ leBytes 4 0x2000 ++ leBytes 4 0 ++ leBytes 4 0x3000 ++ leBytes 4 0 ++ leBytes 4 0x4000 ++ List.replicate 28 0)) 0x1000 64)), job := some 0, res := none } : MemJob)] } }).hostWrites
     []), 0x1000, by decide +kernel⟩⟩

theorem test_KeySlotsAreLoadedUpdatedAndRekeyed_met :
    (∃ (s : State), s.rb Reg.YEW_STAT 31 = false ∧ s.pwr.held = false ∧ (s.rootZeroed = true ∨ s.cryOn = true ∧ s.choosePipe.isSome =
      true)) ∧
    (∃ (s : State) (init : Initiator) (v : Word), s.pwr.held = false ∧ s.isUnlocked init Reg.YEW_REKEY = true ∧ bitOf v 0 = true ∧
      s.yew.op = none ∧ s.testRoot = false) ∧
    (∃ (s : State), s.yew.op = some .rekey ∧ s.inSave = false ∧ s.yewRuns = true) :=
  ⟨⟨{ ((resetWith [(Reg.CRY_CTL, 1), (Reg.CRY_PIPESTAT, 0x0100)])) with yew := { State.reset.yew with slots := [] } }, by decide +kernel⟩,
   ⟨(withKeys State.reset).setUnlock .laurel Reg.YEW_REKEY true, .laurel, 1, by decide +kernel⟩,
   ⟨{ (withJob (withKeys State.reset) ⟨3, 0, 6, 0, 0, kOK, [], 0, []⟩) with yew := { State.reset.yew with op := some .rekey } },
     by decide +kernel⟩⟩

theorem test_TamperAlarmsZeroTheRoot_met :
    (∃ (s : State) (i : Fin 7), s.rb Reg.TMP_CTL i = true) ∧
    (∃ (s : State), s.rb Reg.TMP_STAT 31 = true ∧ s.pwr.mode = .active ∧ s.pwr.held = false) ∧
    (∃ (s : State) (init : Initiator), s.isUnlocked init Reg.TMP_CTL = true) ∧
    (∃ (v : Word), bitOf v 0 = true) ∧
    (∃ (s : State) (init : Initiator), amGet s.bus.latch (ikey init Reg.TMP_RTC_LO) = none) ∧
    (∃ (s : State) (sq : Nat) (d : Nat) (rest : List (Nat × Nat × Nat)), s.linkUp = true ∧ s.xpl.evK.q = (sq, 14, d) :: rest ∧
      s.xpl.evY.lastRx ≠ some sq) :=
  ⟨⟨withKeys ((resetWith [(Reg.TMP_CTL, 0x7F)])), 5, by decide +kernel⟩,
   ⟨withJob (withKeys ((resetWith [(Reg.TMP_STAT, 0x80000000)]))) (jobFor 4 0 0 kOK), by decide +kernel⟩,
   ⟨State.reset.setUnlock .laurel Reg.TMP_CTL true, .laurel, by decide +kernel⟩,
   ⟨1, by decide +kernel⟩,
   ⟨State.reset, .laurel, by decide +kernel⟩,
   ⟨{ linkOn with xpl := { linkOn.xpl with evK := { q := [(7, 14, 5)] } } }, 7, 5, [], by decide +kernel⟩⟩

theorem test_CopyChannelsMoveWaitHaltAndReset_met :
    (∃ (s : State) (v : Word) (n : Fin 52), s.pwr.held = false ∧ fld v 11 0 < s.copySize n) ∧
    (∃ (s : State) (v : Word) (n : Fin 52), s.pwr.held = false ∧ s.copySize n ≤ fld v 11 0) ∧
    (∃ (s : State) (v : Word), s.pwr.held = false ∧ bitOf v 31 = false ∧ bitOf v 30 = true) ∧
    (∃ (s : State) (v : Word), s.pwr.held = false ∧ bitOf v 31 = false ∧ bitOf v 30 = false) ∧
    (∃ (s : State) (v : Word), s.pwr.held = false ∧ bitOf v 31 = true) ∧
    (∃ (s : State) (n : Fin 52), s.rb (Reg.DMACH_STAT n) 29 = true) ∧
    (∃ (s : State) (n : Fin 52), s.chanRuns n false = true ∧ (s.chanOf n).cur = none ∧ (s.chanOf n).stopped = false ∧ s.copyFetch n ≠
      s.copyTail n ∧ s.spaceMay (s.copyHost n) = true ∧ s.memSpaceRd (s.copyHost n) (s.copyEntry n (s.copyFetch n)) 32 = none) ∧
    (∃ (s : State) (n : Fin 52) (b : List Byte), s.chanRuns n false = true ∧ (s.chanOf n).cur = none ∧ (s.chanOf n).stopped = false ∧
      s.copyFetch n ≠ s.copyTail n ∧ s.spaceMay (s.copyHost n) = true ∧ s.memSpaceRd (s.copyHost n) (s.copyEntry n (s.copyFetch n)) 32 =
      some b ∧ nbit (dw (leWords 8 b) 0) 31 = false) ∧
    (∃ (s : State) (n : Fin 52) (b : List Byte), s.chanRuns n false = true ∧ (s.chanOf n).cur = none ∧ (s.chanOf n).stopped = false ∧
      s.copyFetch n ≠ s.copyTail n ∧ s.spaceMay (s.copyHost n) = true ∧ s.memSpaceRd (s.copyHost n) (s.copyEntry n (s.copyFetch n)) 32 =
      some b ∧ nbit (dw (leWords 8 b) 0) 31 = true ∧ copyBad (leWords 8 b) = false) ∧
    (∃ (s : State) (n : Fin 52) (b : List Byte), s.chanRuns n false = true ∧ (s.chanOf n).cur = none ∧ (s.chanOf n).stopped = false ∧
      s.copyFetch n ≠ s.copyTail n ∧ s.spaceMay (s.copyHost n) = true ∧ s.memSpaceRd (s.copyHost n) (s.copyEntry n (s.copyFetch n)) 32 =
      some b ∧ nbit (dw (leWords 8 b) 0) 31 = true ∧ copyBad (leWords 8 b) = true) ∧
    (∃ (s : State) (n : Fin 52) (i : Nat) (w : List Nat) (r : DmaBus) (b : Nat), (s.chanOf n).cur = some (i, w) ∧ s.chanRuns n false =
      true ∧ s.drainMay n w = true ∧ (s.chanOf n).got = none ∧ cpFill w = false ∧ cpSsp w = 0 ∧ cpDsp w = 1 ∧ cpSfix w = false ∧ cpDfix w
      = false ∧ (s.chanOf n).readTo = (s.chanOf n).moved ∧ (s.chanOf n).goal = (s.chanOf n).moved ∧ (s.chanOf n).moved < dw w 1 ∧
      s.burstMay n = some (r, b)) ∧
    (∃ (s : State) (n : Fin 52) (i : Nat) (w : List Nat) (k : Nat), (s.chanOf n).cur = some (i, w) ∧ s.chanRuns n false = true ∧
      s.drainMay n w = true ∧ (s.chanOf n).got = none ∧ cpFill w = false ∧ cpSsp w = 0 ∧ cpDsp w = 1 ∧ cpSfix w = false ∧ cpDfix w = false
      ∧ (s.chanOf n).readTo = (s.chanOf n).moved + k ∧ copyDst w (s.chanOf n).moved + k ≤ 2 ^ 32) ∧
    (∃ (s : State) (n : Fin 52) (i : Nat) (w : List Nat), (s.chanOf n).cur = some (i, w) ∧ s.chanRuns n false = true ∧ s.drainMay n w =
      true ∧ (s.chanOf n).got = none ∧ (s.chanOf n).moved = dw w 1 ∧ (s.chanOf n).readTo = dw w 1 ∧ s.spaceMay (s.copyHost n) = true) ∧
    (∃ (s : State) (n : Fin 52), s.rb (Reg.DMACH_CTL n) 30 = true ∧ s.rf (Reg.DMACH_STAT n) 31 29 = 0 ∧ (s.chanOf n).wait = false ∧
      (s.chanOf n).got = none ∧ (s.chanOf n).readTo = (s.chanOf n).moved ∧ (48 ≤ n.val ∨ s.rb (Reg.DMACH_CTL n) 1 = false ∨ s.queuesIdle n
      = true)) ∧
    (∃ (s : State) (n : Fin 52), s.chanBusy n = true ∧ s.hostReading n = true ∧ (s.chanOf n).readAt + ctoNs (s.rf Reg.HIF_CTL 3 0) ≤
      s.now) :=
  ⟨⟨(resetWith [(Reg.DMACH_RSIZE 51, 2)]), 1, 51, by decide +kernel⟩,
   ⟨(resetWith [(Reg.DMACH_RSIZE 51, 2)]), 2, 51, by decide +kernel⟩,
   ⟨(resetWith [(Reg.DMACH_CTL 51, 1), (Reg.DMACH_STAT 51, 0)]), 0x40000001, by decide +kernel⟩,
   ⟨(resetWith [(Reg.DMACH_CTL 51, 0x40000001), (Reg.DMACH_STAT 51, 0x40000000)]), 1, by decide +kernel⟩,
   ⟨(resetWith [(Reg.DMACH_CTL 51, 1), (Reg.DMACH_RTAIL 51, 7)]), 0x80000000, by decide +kernel⟩,
   ⟨(resetWith [(Reg.DMACH_STAT 51, 0x20000000)]), 51, by decide +kernel⟩,
   ⟨(resetWith [(Reg.DMA_CTL, 1), (Reg.DMACH_CTL 51, 0x11), (Reg.DMACH_RTAIL 51, 1), (Reg.DMACH_RBHI 51, 1)]), 51, by decide +kernel⟩,
   ⟨{ (hostOn [(Reg.DMA_CTL, 1), (Reg.DMACH_CTL 51, 1), (Reg.DMACH_RTAIL 51, 1)]) with hmem := [] }, 51, List.replicate 32 0,
     by decide +kernel⟩,
   ⟨{ (hostOn [(Reg.DMA_CTL, 1), (Reg.DMACH_CTL 51, 1), (Reg.DMACH_RTAIL 51, 1)]) with hmem := memWrN [] 0 (leBytes 4 0x81000000 ++ leBytes 4 8 ++ leBytes 4 0x2000 ++ leBytes 4 0 ++ leBytes 4 0x3000 ++ List.replicate 12 0) },
     51, memRdN
     ({ (hostOn [(Reg.DMA_CTL, 1), (Reg.DMACH_CTL 51, 1), (Reg.DMACH_RTAIL 51, 1)]) with hmem := memWrN [] 0 (leBytes 4 0x81000000 ++ leBytes 4 8 ++ leBytes 4 0x2000 ++ leBytes 4 0 ++ leBytes 4 0x3000 ++ List.replicate 12 0) }).hmem
     0 32, by decide +kernel⟩,
   ⟨{ (hostOn [(Reg.DMA_CTL, 1), (Reg.DMACH_CTL 51, 1), (Reg.DMACH_RTAIL 51, 1)]) with hmem := memWrN [] 0 (leBytes 4 0x81000000 ++ leBytes 4 0 ++ leBytes 4 0x2000 ++ leBytes 4 0 ++ leBytes 4 0x3000 ++ List.replicate 12 0) },
     51, memRdN
     ({ (hostOn [(Reg.DMA_CTL, 1), (Reg.DMACH_CTL 51, 1), (Reg.DMACH_RTAIL 51, 1)]) with hmem := memWrN [] 0 (leBytes 4 0x81000000 ++ leBytes 4 0 ++ leBytes 4 0x2000 ++ leBytes 4 0 ++ leBytes 4 0x3000 ++ List.replicate 12 0) }).hmem
     0 32, by decide +kernel⟩,
   ⟨{ ({ (hostOn [(Reg.DMA_CTL, 1), (Reg.DMACH_CTL 51, 1), (Reg.DMACH_RTAIL 51, 1)]) with hmem := memWrN [] 0 (leBytes 4 0x81000000 ++ leBytes 4 200 ++ leBytes 4 0x2000 ++ leBytes 4 0 ++ leBytes 4 0x3000 ++ List.replicate 12 0) }) with chan := [(51, { cur := some (0, (leWords 8 (memRdN (memWrN [] 0 (leBytes 4 0x81000000 ++ leBytes 4 200 ++ leBytes 4 0x2000 ++ leBytes 4 0 ++ leBytes 4 0x3000 ++ List.replicate 12 0)) 0 32))), moved := 0 })] },
     51, 0, (leWords 8 (memRdN (memWrN [] 0 (leBytes 4 0x81000000 ++ leBytes 4 200 ++ leBytes 4 0x2000 ++ leBytes 4 0 ++ leBytes 4 0x3000
     ++ List.replicate 12 0)) 0 32)), .pcieRead, 200, by decide +kernel⟩,
   ⟨{ ({ (hostOn [(Reg.DMA_CTL, 1), (Reg.DMACH_CTL 51, 1), (Reg.DMACH_RTAIL 51, 1)]) with hmem := memWrN [] 0 (leBytes 4 0x81000000 ++ leBytes 4 200 ++ leBytes 4 0x2000 ++ leBytes 4 0 ++ leBytes 4 0x3000 ++ List.replicate 12 0) }) with chan := [(51, { cur := some (0, (leWords 8 (memRdN (memWrN [] 0 (leBytes 4 0x81000000 ++ leBytes 4 200 ++ leBytes 4 0x2000 ++ leBytes 4 0 ++ leBytes 4 0x3000 ++ List.replicate 12 0)) 0 32))), moved := 0, readTo := 64 })] },
     51, 0, (leWords 8 (memRdN (memWrN [] 0 (leBytes 4 0x81000000 ++ leBytes 4 200 ++ leBytes 4 0x2000 ++ leBytes 4 0 ++ leBytes 4 0x3000
     ++ List.replicate 12 0)) 0 32)), 64, by decide +kernel⟩,
   ⟨{ ({ (hostOn [(Reg.DMA_CTL, 1), (Reg.DMACH_CTL 51, 1), (Reg.DMACH_RTAIL 51, 1)]) with hmem := memWrN [] 0 (leBytes 4 0x81000000 ++ leBytes 4 8 ++ leBytes 4 0x2000 ++ leBytes 4 0 ++ leBytes 4 0x3000 ++ List.replicate 12 0) }) with chan := [(51, { cur := some (0, (leWords 8 (memRdN (memWrN [] 0 (leBytes 4 0x81000000 ++ leBytes 4 8 ++ leBytes 4 0x2000 ++ leBytes 4 0 ++ leBytes 4 0x3000 ++ List.replicate 12 0)) 0 32))), moved := 8, readTo := 8 })] },
     51, 0, (leWords 8 (memRdN (memWrN [] 0 (leBytes 4 0x81000000 ++ leBytes 4 8 ++ leBytes 4 0x2000 ++ leBytes 4 0 ++ leBytes 4 0x3000 ++
     List.replicate 12 0)) 0 32)), by decide +kernel⟩,
   ⟨(resetWith [(Reg.DMACH_CTL 51, 0x40000001)]), 51, by decide +kernel⟩,
   ⟨atTime
     ({ ({ (hostOn [(Reg.DMA_CTL, 1), (Reg.DMACH_CTL 51, 1), (Reg.DMACH_RTAIL 51, 1)]) with hmem := memWrN [] 0 (leBytes 4 0x81000000 ++ leBytes 4 200 ++ leBytes 4 0x2000 ++ leBytes 4 0 ++ leBytes 4 0x3000 ++ List.replicate 12 0) }) with chan := [(51, { cur := some (0, (leWords 8 (memRdN (memWrN [] 0 (leBytes 4 0x81000000 ++ leBytes 4 200 ++ leBytes 4 0x2000 ++ leBytes 4 0 ++ leBytes 4 0x3000 ++ List.replicate 12 0)) 0 32))), readTo := 64 })] })
     50000000, 51, by decide +kernel⟩⟩

theorem test_HostQueuesMoveFramesAndItems_met :
    (∃ (s : State) (v : Word) (q : Fin 64), s.pwr.held = false ∧ fld v 11 0 < (s.hqOf q).size) ∧
    (∃ (s : State) (v : Word) (q : Fin 64), s.pwr.held = false ∧ (s.hqOf q).size ≤ fld v 11 0) ∧
    (∃ (s : State) (v : Word) (q : Fin 64), s.pwr.held = false ∧ fld v 11 0 < (s.hqOf (64 + q)).size) ∧
    (∃ (s : State) (v : Word) (q : Fin 64), s.pwr.held = false ∧ (s.hqOf (64 + q)).size ≤ fld v 11 0) ∧
    (∃ (s : State) (q : Fin 64) (host : List (Nat × List Byte)) (u : State) (n : Nat), s.pwr.held = false ∧ u = s.hostWrites host ∧ n =
      (s.hqOf q).chan ∧ (s.chanOf n).job = none ∧ u.queueServed q n = true ∧ scanFrame 0 (u.txEntries q) = .stop) ∧
    (∃ (s : State) (q : Fin 64) (host : List (Nat × List Byte)) (u : State) (n : Nat) (k : Nat) (ws : List (List Nat)), s.pwr.held = false
      ∧ u = s.hostWrites host ∧ n = (s.hqOf q).chan ∧ (s.chanOf n).job = none ∧ u.queueServed q n = true ∧ scanFrame 0 (u.txEntries q) =
      .frame k ∧ ws = (u.txEntries q).take k ∧ txGood (s.hqOf q).can ws = false) ∧
    (∃ (s : State) (q : Fin 64) (host : List (Nat × List Byte)) (u : State) (n : Nat) (k : Nat) (ws : List (List Nat)) (r : DmaBus) (b :
      Nat), s.pwr.held = false ∧ u = s.hostWrites host ∧ n = (s.hqOf q).chan ∧ (s.chanOf n).job = none ∧ u.queueServed q n = true ∧
      scanFrame 0 (u.txEntries q) = .frame k ∧ ws = (u.txEntries q).take k ∧ txGood (s.hqOf q).can ws = true ∧ u.burstMay n = some (r, b)) ∧
    (∃ (s : State) (q : Fin 64) (f : TxFrame) (r : List TxFrame) (code : Nat) (st : Option Nat), s.pwr.held = false ∧ (s.hqOf q).frames =
      f :: r ∧ f.res = some (code, st) ∧ 1 ≤ f.n ∧ s.chanServes (s.hqOf q).chan true = true ∧ s.hostMay = true) ∧
    (∃ (s : State) (q : Fin 64) (host : List (Nat × List Byte)) (x : _) (r : List RxItem) (n : Nat), s.pwr.held = false ∧ (s.hqOf (64 +
      q)).items = x :: r ∧ n = (s.hqOf (64 + q)).chan ∧ (s.chanOf n).job = none ∧ (s.hostWrites host).queueServed (64 + q) n = true ∧ x.n
      = 1 ∧ x.words.length = 6 ∧ nbit (memRd32 (s.hostWrites host).hmem ((s.hqOf (64 + q)).entryAt x.first)) 31 = false) ∧
    (∃ (s : State) (q : Fin 64) (host : List (Nat × List Byte)) (x : _) (r : List RxItem) (n : Nat) (b : DmaBus) (w : Nat), s.pwr.held =
      false ∧ (s.hqOf (64 + q)).items = x :: r ∧ n = (s.hqOf (64 + q)).chan ∧ (s.chanOf n).job = none ∧ (s.hostWrites host).queueServed
      (64 + q) n = true ∧ x.n = 1 ∧ x.words.length = 6 ∧ nbit (memRd32 (s.hostWrites host).hmem ((s.hqOf (64 + q)).entryAt x.first)) 31 =
      true ∧ (s.hostWrites host).burstMay n = some (b, w) ∧ w < x.data.length) ∧
    (∃ (s : State) (q : Fin 64) (host : List (Nat × List Byte)) (x : _) (r : List RxItem) (n : Nat) (b : DmaBus) (w : Nat), s.pwr.held =
      false ∧ (s.hqOf (64 + q)).items = x :: r ∧ n = (s.hqOf (64 + q)).chan ∧ (s.chanOf n).job = none ∧ (s.hostWrites host).queueServed
      (64 + q) n = true ∧ x.n = 1 ∧ x.words.length = 6 ∧ nbit (memRd32 (s.hostWrites host).hmem ((s.hqOf (64 + q)).entryAt x.first)) 31 =
      true ∧ (s.hostWrites host).burstMay n = some (b, w) ∧ x.data.length ≤ w) ∧
    (∃ (s : State) (q : Fin 64), s.pwr.held = false ∧ (s.hqOf q).unsig ≠ 0 ∧ bitOf (s.hqOf q).irq 7 = true ∧ (s.hqOf q).firstAt + fld
      (s.hqOf q).irq 31 16 * 1000 ≤ s.now) ∧
    (∃ (s : State) (v : Word), s.pwr.held = false ∧ bitOf v 31 = true ∧ s.hqReset = none) ∧
    (∃ (s : State) (v : Word), s.pwr.held = false ∧ bitOf v 31 = true ∧ s.hqReset.isSome = true) ∧
    (∃ (s : State) (v : Word), s.pwr.held = false ∧ bitOf v 0 = true ∧ bitOf v 1 = false ∧ (s.hqOf (s.rf Reg.HQ_QIDX 6 0)).en = false) ∧
    (∃ (s : State) (v : Word), s.pwr.held = false ∧ bitOf v 0 = true ∧ bitOf v 1 = false ∧ (s.hqOf (s.rf Reg.HQ_QIDX 6 0)).en = true) ∧
    (∃ (s : State) (v : Word), s.pwr.held = false ∧ bitOf v 0 = false ∧ bitOf v 1 = true) :=
  ⟨⟨State.reset, 1, 63, by decide +kernel⟩,
   ⟨State.reset, 2, 63, by decide +kernel⟩,
   ⟨State.reset, 1, 63, by decide +kernel⟩,
   ⟨State.reset, 2, 63, by decide +kernel⟩,
   ⟨{ (hostOn [(Reg.DMA_CTL, 1), (Reg.DMACH_CTL 47, 3), (Reg.HQ_TXTAIL 63, 1)]) with hq := [(63, { cfg := 0x802F0010, size := 4 })], hmem := [] },
     63, [],
     ({ (hostOn [(Reg.DMA_CTL, 1), (Reg.DMACH_CTL 47, 3), (Reg.HQ_TXTAIL 63, 1)]) with hq := [(63, { cfg := 0x802F0010, size := 4 })], hmem := [] }).hostWrites
     ([]), 47, by decide +kernel⟩,
   ⟨{ (hostOn [(Reg.DMA_CTL, 1), (Reg.DMACH_CTL 47, 3), (Reg.HQ_TXTAIL 63, 1)]) with hq := [(63, { cfg := 0x802F0010, size := 4 })], hmem := memWrN [] 0 (leBytes 4 0x9C000000 ++ leBytes 4 0x10 ++ leBytes 4 0x2000 ++ List.replicate 20 0) },
     63, [],
     ({ (hostOn [(Reg.DMA_CTL, 1), (Reg.DMACH_CTL 47, 3), (Reg.HQ_TXTAIL 63, 1)]) with hq := [(63, { cfg := 0x802F0010, size := 4 })], hmem := memWrN [] 0 (leBytes 4 0x9C000000 ++ leBytes 4 0x10 ++ leBytes 4 0x2000 ++ List.replicate 20 0) }).hostWrites
     ([]), 47, 1,
     (({ (hostOn [(Reg.DMA_CTL, 1), (Reg.DMACH_CTL 47, 3), (Reg.HQ_TXTAIL 63, 1)]) with hq := [(63, { cfg := 0x802F0010, size := 4 })], hmem := memWrN [] 0 (leBytes 4 0x9C000000 ++ leBytes 4 0x10 ++ leBytes 4 0x2000 ++ List.replicate 20 0) }).txEntries
     63).take 1, by decide +kernel⟩,
   ⟨{ (hostOn [(Reg.DMA_CTL, 1), (Reg.DMACH_CTL 47, 3), (Reg.HQ_TXTAIL 63, 1)]) with hq := [(63, { cfg := 0x802F0010, size := 4 })], hmem := memWrN [] 0 (leBytes 4 0x8C00000E ++ leBytes 4 0x10 ++ leBytes 4 0x2000 ++ List.replicate 20 0) },
     63, [],
     ({ (hostOn [(Reg.DMA_CTL, 1), (Reg.DMACH_CTL 47, 3), (Reg.HQ_TXTAIL 63, 1)]) with hq := [(63, { cfg := 0x802F0010, size := 4 })], hmem := memWrN [] 0 (leBytes 4 0x8C00000E ++ leBytes 4 0x10 ++ leBytes 4 0x2000 ++ List.replicate 20 0) }).hostWrites
     ([]), 47, 1,
     (({ (hostOn [(Reg.DMA_CTL, 1), (Reg.DMACH_CTL 47, 3), (Reg.HQ_TXTAIL 63, 1)]) with hq := [(63, { cfg := 0x802F0010, size := 4 })], hmem := memWrN [] 0 (leBytes 4 0x8C00000E ++ leBytes 4 0x10 ++ leBytes 4 0x2000 ++ List.replicate 20 0) }).txEntries
     63).take 1, .pcieRead, 14, by decide +kernel⟩,
   ⟨{ (hostOn [(Reg.DMA_CTL, 1), (Reg.DMACH_CTL 47, 3)]) with hq := [(63, { cfg := 0x802F0010, size := 4, frames := [⟨0, 0, 1, some (0, some 5)⟩] })], hmem := [] },
     63, ⟨0, 0, 1, some (0, some 5)⟩, [], 0, some 5, by decide +kernel⟩,
   ⟨{ (hostOn [(Reg.DMA_CTL, 1), (Reg.DMACH_CTL 47, 3)]) with hq := [(127, { cfg := 0x802F0010, size := 4, items := [({ kind := 1, words := [1, 2, 3, 4, 5, 6], data := [1, 2, 3, 4, 5, 6, 7, 8], first := 0, n := 1 } : RxItem)] })], hmem := [] },
     63, [], ({ kind := 1, words := [1, 2, 3, 4, 5, 6], data := [1, 2, 3, 4, 5, 6, 7, 8], first := 0, n := 1 } : RxItem), [], 47,
     by decide +kernel⟩,
   ⟨{ (hostOn [(Reg.DMA_CTL, 1), (Reg.DMACH_CTL 47, 3), (Reg.DMACH_RATE 47, 0x00110100)]) with hq := [(127, { cfg := 0x802F0010, size := 4, items := [({ kind := 1, words := [1, 2, 3, 4, 5, 6], data := List.replicate 65 7, first := 0, n := 1 } : RxItem)] })], hmem := memWrN [] 3 [0x80] },
     63, [], ({ kind := 1, words := [1, 2, 3, 4, 5, 6], data := List.replicate 65 7, first := 0, n := 1 } : RxItem), [], 47, .pcieWrite,
     64, by decide +kernel⟩,
   ⟨{ (hostOn [(Reg.DMA_CTL, 1), (Reg.DMACH_CTL 47, 3)]) with hq := [(127, { cfg := 0x802F0010, size := 4, items := [({ kind := 1, words := [1, 2, 3, 4, 5, 6], data := [1, 2, 3, 4, 5, 6, 7, 8], first := 0, n := 1 } : RxItem)] })], hmem := memWrN [] 3 [0x80] },
     63, [], ({ kind := 1, words := [1, 2, 3, 4, 5, 6], data := [1, 2, 3, 4, 5, 6, 7, 8], first := 0, n := 1 } : RxItem), [], 47,
     .pcieWrite, 8, by decide +kernel⟩,
   ⟨atTime { State.reset with hq := [(63, { unsig := 1, irq := 0x00010080 })] } 1000, 63, by decide +kernel⟩,
   ⟨State.reset, 0x8000003F, by decide +kernel⟩,
   ⟨{ State.reset with hqReset := some 3 }, 0x8000003F, by decide +kernel⟩,
   ⟨(resetWith [(Reg.HQ_QIDX, 127), (Reg.HQ_QSIZE, 4096)]), 1, by decide +kernel⟩,
   ⟨{ ((resetWith [(Reg.HQ_QIDX, 127)])) with hq := [(127, { cfg := 0x80000000 })] }, 1, by decide +kernel⟩,
   ⟨{ ((resetWith [(Reg.HQ_QIDX, 127)])) with hq := [(127, { cfg := 0x80000000 })] }, 2, by decide +kernel⟩⟩

theorem test_TheHostLinkAndItsVectors_met :
    (∃ (s : State), s.rb Reg.HIF_STAT 31 = true) ∧
    (∃ (s : State), s.rb Reg.HIF_STAT 31 = false) ∧
    (∃ (s : State), s.pwr.held = false) ∧
    (∃ (v : Word), bitOf v 0 = true) ∧
    (∃ (v : Word), bitOf v 0 = false) :=
  ⟨⟨hostOn [], by decide +kernel⟩,
   ⟨State.reset, by decide +kernel⟩,
   ⟨hostOn [], by decide +kernel⟩,
   ⟨1, by decide +kernel⟩,
   ⟨0, by decide +kernel⟩⟩

theorem test_PowerSequencerSteps_met :
    (∃ (s : State), (s.pwr.mode = .unpowered ∨ (s.pwr.mode = .off ∧ 3 ≤ s.pwr.fails))) ∧
    (∃ (s : State), (s.pwr.mode = .unpowered ∨ (s.pwr.mode = .off ∧ 3 ≤ s.pwr.fails))) ∧
    (∃ (s : State), s.pwr.mode = .up 2) ∧
    (∃ (s : State), s.pwr.mode = .up 3 ∧ s.pwr.at_ + s.rf Reg.PWR_SEQ 3 0 * 100000 ≤ s.mono) ∧
    (∃ (s : State), s.pwr.mode = .up 4) ∧
    (∃ (s : State), s.pwr.mode = .up 5 ∧ s.pwr.at_ + s.rf Reg.PWR_SEQ 11 8 * 100000 ≤ s.mono) ∧
    (∃ (s : State), s.pwr.mode = .up 6) ∧
    (∃ (s : State), (s.pwr.mode = .up 4 ∨ s.pwr.mode = .up 6) ∧ s.pwr.at_ + 5000000 ≤ s.mono) ∧
    (∃ (s : State), (s.pwr.mode = .up 4 ∨ s.pwr.mode = .up 6) ∧ s.pwr.at_ + 5000000 ≤ s.mono) ∧
    (∃ (s : State), s.pwr.mode = .down 1 ∧ s.pwr.at_ + 100000 ≤ s.mono) ∧
    (∃ (s : State), s.pwr.mode = .down 1 ∧ s.pwr.at_ + 100000 ≤ s.mono) ∧
    (∃ (s : State), s.pwr.mode = .down 2 ∧ s.pwr.at_ + 100000 ≤ s.mono) ∧
    (∃ (s : State), s.pwr.mode = .down 2 ∧ s.pwr.at_ + 100000 ≤ s.mono) ∧
    (∃ (s : State), s.pwr.mode = .down 2 ∧ s.pwr.at_ + 100000 ≤ s.mono) ∧
    (∃ (s : State), s.pwr.mode = .retry ∧ s.pwr.at_ + 100000000 ≤ s.mono) ∧
    (∃ (s : State), s.pwr.mode = .active ∧ s.wkn.commit = false) ∧
    (∃ (s : State), s.pwr.held = false ∧ s.pwr.mode = .active ∧ s.rf Reg.PWR_STAT 1 0 ≠ 1) :=
  ⟨⟨{ State.reset with pwr := { mode := .unpowered }, mono := 100000000 }, by decide +kernel⟩,
   ⟨{ State.reset with pwr := { mode := .off, fails := 3 }, mono := 100000000 }, by decide +kernel⟩,
   ⟨{ State.reset with pwr := { mode := .up 2 }, mono := 100000000 }, by decide +kernel⟩,
   ⟨{ State.reset with pwr := { mode := .up 3, at_ := 100000000 - 1500000 }, mono := 100000000 }, by decide +kernel⟩,
   ⟨{ State.reset with pwr := { mode := .up 4 }, mono := 100000000 }, by decide +kernel⟩,
   ⟨{ State.reset with pwr := { mode := .up 5, at_ := 100000000 - 1500000 }, mono := 100000000 }, by decide +kernel⟩,
   ⟨{ State.reset with pwr := { mode := .up 6 }, mono := 100000000 }, by decide +kernel⟩,
   ⟨{ State.reset with pwr := { mode := .up 4, at_ := 95000000 }, mono := 100000000 }, by decide +kernel⟩,
   ⟨{ State.reset with pwr := { mode := .up 6, at_ := 95000000, fails := 2 }, mono := 100000000 }, by decide +kernel⟩,
   ⟨{ State.reset with pwr := { mode := .down 1, at_ := 99900000 }, mono := 100000000 }, by decide +kernel⟩,
   ⟨plus ({ State.reset with pwr := { mode := .down 1, at_ := 99900000 }, mono := 100000000 }) [(Reg.PWR_STAT, 0x80000000)],
     by decide +kernel⟩,
   ⟨{ State.reset with pwr := { mode := .down 2, at_ := 99900000 }, mono := 100000000 }, by decide +kernel⟩,
   ⟨{ State.reset with pwr := { mode := .down 2, at_ := 99900000, failing := true }, mono := 100000000 }, by decide +kernel⟩,
   ⟨{ State.reset with pwr := { mode := .down 2, at_ := 99900000, failing := true, fails := 2 }, mono := 100000000 }, by decide +kernel⟩,
   ⟨{ State.reset with pwr := { mode := .retry }, mono := 100000000 }, by decide +kernel⟩,
   ⟨State.reset, by decide +kernel⟩,
   ⟨State.reset, by decide +kernel⟩⟩

theorem test_SaveRideThroughAndMonitors_met :
    (∃ (s : State) (i : Instr) (fast : Bool), (i = .pfWarn ∧ fast = false ∨ i = .powerFailWarning ∧ fast = false ∨ i = .fastUndervoltage ∧
      fast = true) ∧ s.rb Reg.PWR_STAT 31 = false ∧ s.pwr.mode = .active ∧ s.wkn.commit = false) ∧
    (∃ (s : State) (i : Instr) (fast : Bool), (i = .pfWarn ∧ fast = false ∨ i = .powerFailWarning ∧ fast = false ∨ i = .fastUndervoltage ∧
      fast = true) ∧ s.rb Reg.PWR_STAT 31 = false ∧ s.pwr.mode = .active ∧ s.wkn.commit = false) ∧
    (∃ (s : State) (i : Instr) (fast : Bool), (i = .pfWarn ∧ fast = false ∨ i = .powerFailWarning ∧ fast = false ∨ i = .fastUndervoltage ∧
      fast = true) ∧ s.rb Reg.PWR_STAT 31 = false ∧ s.pwr.mode = .active ∧ s.wkn.commit = false) ∧
    (∃ (s : State), s.rf Reg.PWR_STAT 1 0 = 1 ∧ s.pwr.pfSet < 4) ∧
    (∃ (s : State), s.rf Reg.PWR_STAT 1 0 = 1 ∧ s.pwr.pfSet < 4) ∧
    (∃ (s : State), s.rb Reg.PWR_STAT 31 = true ∧ 2 ≤ s.rf Reg.PWR_STAT 1 0) ∧
    (∃ (s : State), s.rb Reg.PWR_STAT 31 = true ∧ s.rf Reg.PWR_STAT 1 0 = 0 ∧ s.pwr.mode = .active ∧ s.pwr.inh = true) ∧
    (∃ (s : State) (up : Bool), s.pwr.mode ≠ .unpowered ∧ (up = true ∨ s.inSave = false)) ∧
    (∃ (s : State) (up : Bool), s.pwr.mode ≠ .unpowered ∧ (up = true ∨ s.inSave = false)) ∧
    (∃ (s : State), s.pwr.charging = true ∧ s.rb Reg.PWR_STAT 30 = false ∧ s.pwr.chgAt + 600000000 ≤ s.mono) :=
  ⟨⟨State.reset, .pfWarn, false, by decide +kernel⟩,
   ⟨State.reset, .powerFailWarning, false, by decide +kernel⟩,
   ⟨State.reset, .fastUndervoltage, true, by decide +kernel⟩,
   ⟨{ (after .pfWarn ((resetWith [(Reg.PWR_SAVECTL, 0x80000000)]))) with mono := 9000000 }, by decide +kernel⟩,
   ⟨{ (after .pfWarn ((resetWith [(Reg.PWR_SAVECTL, 0)]))) with mono := 9000000 }, by decide +kernel⟩,
   ⟨(resetWith [(Reg.PWR_STAT, 0x80000002)]), by decide +kernel⟩,
   ⟨(resetWith [(Reg.PWR_STAT, 0x80000000)]), by decide +kernel⟩,
   ⟨State.reset, true, by decide +kernel⟩,
   ⟨(resetWith [(Reg.PWR_STAT, 0x40000000)]), false, by decide +kernel⟩,
   ⟨{ State.reset with mono := 600000000 }, by decide +kernel⟩⟩

theorem test_DomainsSleepAndWake_met :
    (∃ (s : State) (k : Fin 8), s.awakeDev = true ∧ s.domAwake k = true ∧ (∀ j ∈ s.domSegs k, s.segQuiet j = true) ∧ (s.domSegs k).foldl
      (fun m j => max m (s.quietFrom j)) (s.domOf k).quietAt + s.rf (Reg.WKN_DOM_CFG k) 25 16 * 10000000 ≤ s.mono) ∧
    (∃ (s : State) (v : Word), s.awakeDev = true ∧ fld v 7 0 ≠ 0) ∧
    (∃ (s : State) (sq : _) (m : _) (rest : List (Nat × Nat × Nat)) (j : Nat), s.linkUp = true ∧ s.xpl.evY.q = (sq, 9, m) :: rest ∧
      s.xpl.evK.lastRx ≠ some sq ∧ s.awakeDev = true ∧ s.domainOf m = some j) ∧
    (∃ (s : State), s.awakeDev = true ∧ s.rf Reg.WKN_CTL 23 16 ≠ 0 ∧ s.linkUp = false ∧ s.wkn.fsDone = false ∧ s.wkn.downAt + s.rf
      Reg.WKN_CTL 23 16 * 1000000 ≤ s.mono) ∧
    (∃ (s : State) (k : Fin 8) (i : Nat) (t0 : Nat) (b : Nat), s.awakeDev = true ∧ s.domAwake k = true ∧ (s.domOf k).asked = false ∧
      (s.domOf k).reported = false ∧ s.rf Reg.WKN_CTL 31 24 ≠ 0 ∧ i ∈ s.domTrx k ∧ b = (s.domSegs k).foldl (fun m j => max m (amGetD 0
      s.wkn.holdEnd j)) (s.domOf k).wokeAt ∧ amGet s.wkn.ka i = some t0 ∧ b ≤ t0 ∧ (∀ j ∈ s.domSegs k, s.rb Reg.WKN_HOLD j = false) ∧ b +
      s.rf Reg.WKN_CTL 31 24 * 10000000000 ≤ s.mono) ∧
    (∃ (s : State) (n : Fin 16) (f : CanFrame), s.trxState n ≠ 0 ∧ f.rtr = false ∧ f.fmt = .cc ∧ (s.rb (Reg.TRX_CFG n) 24 = true ∨ (f.ide
      = s.rb (Reg.TRX_KAID n) 29 ∧ f.ident &&& s.rf (Reg.TRX_KAMASK n) 28 0 = s.rf (Reg.TRX_KAID n) 28 0 &&& s.rf (Reg.TRX_KAMASK n) 28
      0))) ∧
    (∃ (s : State) (n : Fin 16) (f : CanFrame), s.trxState n ≠ 0 ∧ f.rtr = false ∧ f.fmt = .cc ∧ (s.rb (Reg.TRX_CFG n) 24 = true ∨ (f.ide
      = s.rb (Reg.TRX_KAID n) 29 ∧ f.ident &&& s.rf (Reg.TRX_KAMASK n) 28 0 = s.rf (Reg.TRX_KAID n) 28 0 &&& s.rf (Reg.TRX_KAMASK n) 28
      0))) ∧
    (∃ (s : State) (n : Fin 16), s.trxState n = 1 ∧ s.trxWake n = 1) ∧
    (∃ (s : State) (n : Fin 16) (f : CanFrame), s.trxState n = 1 ∧ s.trxWake n = 2 ∧ f.fmt = .cc ∧ s.wufMatch n f = true) ∧
    (∃ (s : State) (n : Fin 16) (f : CanFrame), s.trxState n = 1 ∧ s.trxWake n = 2 ∧ f.fmt = .cc ∧ s.rf (Reg.TRX_STAT n) 12 8 < 31) ∧
    (∃ (s : State) (n : Fin 16) (f : CanFrame), s.trxState n = 1 ∧ s.trxWake n = 2 ∧ f.fmt = .cc ∧ s.rf (Reg.TRX_STAT n) 12 8 < 31) :=
  ⟨⟨(plus { State.reset with mono := 0x3FF0000000 } [(Reg.WKN_DOM_MEM 0, 0), (Reg.WKN_DOM_MEM 7, 0x808000), (Reg.WKN_DOM_CFG 7, 0x80),
     (Reg.WKN_CTL, 0x01010000)]), 7, by decide +kernel⟩,
   ⟨(plus { State.reset with wkn := { dom := [(7, { awake := false })] } } [(Reg.WKN_DOM_MEM 0, 0), (Reg.WKN_DOM_MEM 7, 0x808000),
     (Reg.WKN_DOM_CFG 7, 0x80), (Reg.WKN_CTL, 0x01010000)]), 0x80, by decide +kernel⟩,
   ⟨{ (plus linkOn [(Reg.WKN_DOM_MEM 0, 0), (Reg.WKN_DOM_MEM 7, 0x808000), (Reg.WKN_DOM_CFG 7, 0x80), (Reg.WKN_CTL, 0x01010000)]) with xpl := { linkOn.xpl with evY := { q := [(7, 9, 15)] } } },
     7, 15, [], 7, by decide +kernel⟩,
   ⟨{ ((resetWith [(Reg.WKN_CTL, 0x00010000)])) with mono := 1000000 }, by decide +kernel⟩,
   ⟨{ (plus State.reset [(Reg.WKN_DOM_MEM 0, 0), (Reg.WKN_DOM_MEM 7, 0x808000), (Reg.WKN_DOM_CFG 7, 0x80), (Reg.WKN_CTL, 0x01010000)]) with mono := 20000000000, wkn := { ka := [(15, 6000000000)] } },
     7, 15, 6000000000, 0, by decide +kernel⟩,
   ⟨(resetWith [(Reg.TRX_CFG 15, 0x21000000)]), 15, jfr 0xFF 0xFF 1 [1], by decide +kernel⟩,
   ⟨(resetWith [(Reg.TRX_CFG 15, 0x20000000), (Reg.TRX_KAID 15, 0x20FF0001), (Reg.TRX_KAMASK 15, 0xFFFFFF)]), 15, jfr 0xFF 0 1 [1],
     by decide +kernel⟩,
   ⟨plus ((plus { State.reset with wkn := { dom := [(7, { awake := false })] } } [(Reg.WKN_DOM_MEM 0, 0), (Reg.WKN_DOM_MEM 7, 0x808000),
     (Reg.WKN_DOM_CFG 7, 0x80), (Reg.WKN_CTL, 0x01010000)])) [(Reg.TRX_CFG 15, 0x20000000)], 15, by decide +kernel⟩,
   ⟨plus ((plus { State.reset with wkn := { dom := [(7, { awake := false })] } } [(Reg.WKN_DOM_MEM 0, 0), (Reg.WKN_DOM_MEM 7, 0x808000),
     (Reg.WKN_DOM_CFG 7, 0x80), (Reg.WKN_CTL, 0x01010000)])) [(Reg.TRX_CFG 15, 0x40000000), (Reg.TRX_SWID 15, 0x48c0000)], 15,
     { fr with dlc := 8 }, by decide +kernel⟩,
   ⟨plus ((plus { State.reset with wkn := { dom := [(7, { awake := false })] } } [(Reg.WKN_DOM_MEM 0, 0), (Reg.WKN_DOM_MEM 7, 0x808000),
     (Reg.WKN_DOM_CFG 7, 0x80), (Reg.WKN_CTL, 0x01010000)])) [(Reg.TRX_CFG 15, 0x40000000), (Reg.TRX_STAT 15, 0x0)], 15, jfr 0xFF 0xFF 1
     [1], by decide +kernel⟩,
   ⟨plus ((plus { State.reset with wkn := { dom := [(7, { awake := false })] } } [(Reg.WKN_DOM_MEM 0, 0), (Reg.WKN_DOM_MEM 7, 0x808000),
     (Reg.WKN_DOM_CFG 7, 0x80), (Reg.WKN_CTL, 0x01010000)])) [(Reg.TRX_CFG 15, 0x40000000), (Reg.TRX_STAT 15, 0x1e00)], 15, jfr 0xFF 0xFF
     1 [1], by decide +kernel⟩⟩

theorem test_TheDeviceSleepsAndWakes_met :
    (∃ (s : State) (init : Initiator) (v : Word) (own : Bool), bitOf v 31 = true ∧ s.pwr.mode = .active ∧ s.wkn.commit = false ∧ own = (if
      s.rf Reg.WKN_CTL 1 0 = 0 then init == .host || init == .dma else init == .laurel) ∧ own = true ∧ s.wkBlock = 0) ∧
    (∃ (s : State) (init : Initiator) (v : Word) (own : Bool), bitOf v 31 = true ∧ s.pwr.mode = .active ∧ s.wkn.commit = false ∧ own = (if
      s.rf Reg.WKN_CTL 1 0 = 0 then init == .host || init == .dma else init == .laurel) ∧ (own = false ∨ s.wkBlock ≠ 0)) ∧
    (∃ (s : State) (init : Initiator) (v : Word) (own : Bool), bitOf v 31 = true ∧ s.pwr.mode = .active ∧ s.wkn.commit = false ∧ own = (if
      s.rf Reg.WKN_CTL 1 0 = 0 then init == .host || init == .dma else init == .laurel) ∧ (own = false ∨ s.wkBlock ≠ 0)) ∧
    (∃ (s : State) (src : Fin 16), s.wkn.commit = true ∧ 1 ≤ src.val ∧ src.val ≤ 9) ∧
    (∃ (s : State) (src : _) (ix : _) (d : Nat) (rest : List (Nat × Nat × Nat)), s.wkn.late = (src, ix, d) :: rest ∧ src < 16 ∧ ix < 64 ∧
      (s.pwr.mode = .sleep ∨ s.pwr.mode = .off) ∧ s.pwr.at_ + 2000000 ≤ s.mono) ∧
    (∃ (s : State) (i : Fin 6), s.lwMode i ≠ 0) ∧
    (∃ (s : State), s.wlDrives = false ∧ s.wkn.lnRel = none ∧ s.pwr.mode ≠ .unpowered ∧ s.pwr.mode ≠ .off) ∧
    (∃ (s : State) (t0 : Nat), s.wkn.lnRel = some t0 ∧ t0 + s.rf Reg.WKN_WLCFG 23 16 * 1000000 ≤ s.mono ∧ s.wkn.lnDrv = s.wlDrives ∧ s.rb
      Reg.WKN_CTL 3 = false) ∧
    (∃ (s : State), s.rb Reg.WKN_RTCALM_HI 31 = true ∧ s.rtc = (s.rd Reg.WKN_RTCALM_LO).toNat + s.rf Reg.WKN_RTCALM_HI 15 0 * 2 ^ 32 ∧
      s.wkn.commit = false ∧ (s.pwr.mode = .sleep ∨ s.pwr.mode = .off)) ∧
    (∃ (s : State), s.awakeDev = true ∧ s.wkn.lnDrv = s.wlDrives) ∧
    (∃ (s : State) (sq : _) (ty : Nat) (d : Nat) (rest : List (Nat × Nat × Nat)) (c : Instr), s.linkUp = true ∧ s.xpl.evK.q = (sq, ty, d)
      :: rest ∧ s.xpl.evY.lastRx ≠ some sq ∧ (c = .wakeEventMsg ∧ ty = 2 ∨ c = .domainEventMsg ∧ ty = 3 ∨ c = .sleepabortMsg ∧ ty = 4 ∨ c
      = .agreeMsg ∧ ty = 5 ∨ c = .failsafeMsg ∧ ty = 6 ∨ c = .stayMsg ∧ ty = 7 ∨ c = .trxfaultMsg ∧ ty = 8)) ∧
    (∃ (s : State) (sq : _) (ty : Nat) (d : Nat) (rest : List (Nat × Nat × Nat)) (c : Instr), s.linkUp = true ∧ s.xpl.evK.q = (sq, ty, d)
      :: rest ∧ s.xpl.evY.lastRx ≠ some sq ∧ (c = .wakeEventMsg ∧ ty = 2 ∨ c = .domainEventMsg ∧ ty = 3 ∨ c = .sleepabortMsg ∧ ty = 4 ∨ c
      = .agreeMsg ∧ ty = 5 ∨ c = .failsafeMsg ∧ ty = 6 ∨ c = .stayMsg ∧ ty = 7 ∨ c = .trxfaultMsg ∧ ty = 8)) ∧
    (∃ (s : State) (sq : _) (ty : Nat) (d : Nat) (rest : List (Nat × Nat × Nat)) (c : Instr), s.linkUp = true ∧ s.xpl.evK.q = (sq, ty, d)
      :: rest ∧ s.xpl.evY.lastRx ≠ some sq ∧ (c = .wakeEventMsg ∧ ty = 2 ∨ c = .domainEventMsg ∧ ty = 3 ∨ c = .sleepabortMsg ∧ ty = 4 ∨ c
      = .agreeMsg ∧ ty = 5 ∨ c = .failsafeMsg ∧ ty = 6 ∨ c = .stayMsg ∧ ty = 7 ∨ c = .trxfaultMsg ∧ ty = 8)) ∧
    (∃ (s : State) (sq : Fin 8) (ty : Nat) (d : Nat) (rest : List (Nat × Nat × Nat)), s.linkUp = true ∧ s.xpl.evY.q = ((sq : Nat), ty, d)
      :: rest ∧ s.xpl.evK.lastRx = some (sq : Nat)) ∧
    (∃ (s : State) (sq : Fin 8) (ty : Nat) (d : Nat) (rest : List (Nat × Nat × Nat)), s.linkUp = true ∧ s.xpl.evK.q = ((sq : Nat), ty, d)
      :: rest ∧ s.xpl.evY.lastRx = some (sq : Nat)) :=
  ⟨⟨{ ((resetWith [(Reg.WKN_CTL, 0), (Reg.WKN_DOM_MEM 0, 0)])) with mono := 0x3FF0000000, xpl := State.base.xpl }, .host, 0x80000000,
     true, by decide +kernel⟩,
   ⟨(resetWith [(Reg.WKN_CTL, 0)]), .laurel, 0x80000000, false, by decide +kernel⟩,
   ⟨(resetWith [(Reg.WKN_HOLD, 0x800000), (Reg.WKN_CTL, 0)]), .host, 0x80000000, true, by decide +kernel⟩,
   ⟨{ State.reset with wkn := { commit := true } }, 9, by decide +kernel⟩,
   ⟨{ { State.reset with pwr := { mode := .sleep, at_ := 98000000 }, mono := 100000000 } with wkn := { late := [(9, 31, 0x81)] } }, 9, 31,
     0x81, [], by decide +kernel⟩,
   ⟨(resetWith [(Reg.WKN_LWCFG 5, 0x90000000)]), 5, by decide +kernel⟩,
   ⟨(resetWith [(Reg.WKN_DOM_MEM 0, 0)]), by decide +kernel⟩,
   ⟨{ ((resetWith [(Reg.WKN_CTL, 0)])) with mono := 1000000000, wkn := { lnDrv := false, lnRel := some 0 } }, 0, by decide +kernel⟩,
   ⟨{ (plus ({ State.reset with pwr := { mode := .sleep }, mono := 100000000 }) [(Reg.WKN_RTCALM_HI, 0x80000001), (Reg.WKN_RTCALM_LO, 5)]) with rtc := 0x100000005 },
     by decide +kernel⟩,
   ⟨{ ((resetWith [(Reg.WKN_CTL, 0)])) with wkn := { lnDrv := false } }, by decide +kernel⟩,
   ⟨{ linkOn with xpl := { linkOn.xpl with evK := { q := [(7, 2, 5)] } } }, 7, 2, 5, [], .wakeEventMsg, by decide +kernel⟩,
   ⟨{ linkOn with xpl := { linkOn.xpl with evK := { q := [(7, 3, 5)] } } }, 7, 3, 5, [], .domainEventMsg, by decide +kernel⟩,
   ⟨{ linkOn with xpl := { linkOn.xpl with evK := { q := [(7, 4, 5)] } } }, 7, 4, 5, [], .sleepabortMsg, by decide +kernel⟩,
   ⟨{ linkOn with xpl := { linkOn.xpl with evY := { q := [(7, 9, 5)] }, evK := { lastRx := some 7 } } }, 7, 9, 5, [], by decide +kernel⟩,
   ⟨{ linkOn with xpl := { linkOn.xpl with evK := { q := [(7, 2, 5)] }, evY := { lastRx := some 7 } } }, 7, 2, 5, [], by decide +kernel⟩⟩

theorem test_ResetsTakeEffectAndTheDeviceBoots_met :
    (∃ (s : State) (init : Initiator) (v : Word), s.pwr.held = false ∧ s.isUnlocked init Reg.CHIP_RSTCTL = true ∧ (init = .host ∨ init =
      .laurel) ∧ bitOf v 31 = true ∧ s.pwr.req = none ∧ fld v 1 0 = 1) ∧
    (∃ (s : State) (init : Initiator) (v : Word), s.pwr.held = false ∧ s.isUnlocked init Reg.CHIP_RSTCTL = true ∧ (init = .host ∨ init =
      .laurel) ∧ bitOf v 31 = true ∧ s.pwr.req = none ∧ fld v 1 0 = 2) ∧
    (∃ (s : State) (init : Initiator) (v : Word), s.pwr.held = false ∧ s.isUnlocked init Reg.CHIP_RSTCTL = true ∧ (init = .host ∨ init =
      .laurel) ∧ bitOf v 31 = true ∧ s.pwr.req = none ∧ fld v 1 0 = 3) ∧
    (∃ (s : State) (src : _), s.pwr.held = false ∧ s.rf Reg.PWR_STAT 1 0 ≠ 1 ∧ s.pwr.req = some (3, src)) ∧
    (∃ (s : State) (src : _), s.pwr.held = false ∧ s.rf Reg.PWR_STAT 1 0 ≠ 1 ∧ s.pwr.req = some (4, src)) ∧
    (∃ (s : State), s.pwr.held = false ∧ s.rf Reg.PWR_STAT 1 0 ≠ 1 ∧ s.rf Reg.CHIP_WDT 15 0 ≠ 0 ∧ s.boot.wdAt + s.rf Reg.CHIP_WDT 15 0 *
      1000000 ≤ s.now) ∧
    (∃ (s : State), s.pwr.held = false ∧ s.boot.stage = 0 ∧ s.inSave = false ∧ s.linkUp = true ∧ s.keysReady = true) ∧
    (∃ (s : State), s.pwr.held = false ∧ s.boot.stage = 1 ∧ beAt (memRdN s.mram crBase 4096) 0 4 ≠ 0x43524931) ∧
    (∃ (s : State) (l : List CrRec), s.pwr.held = false ∧ s.boot.stage = 2 ∧ crRecs s.boot.stream = .ok l) ∧
    (∃ (s : State), s.pwr.held = false ∧ s.boot.stage = 3 ∧ s.linkUp = true) ∧
    (∃ (s : State), s.pwr.held = false ∧ s.boot.stage = 5 ∧ s.inSave = false) :=
  ⟨⟨(State.reset).setUnlock .laurel Reg.CHIP_RSTCTL true, .laurel, 0x80000001, by decide +kernel⟩,
   ⟨(State.reset).setUnlock .laurel Reg.CHIP_RSTCTL true, .laurel, 0x80000002, by decide +kernel⟩,
   ⟨(State.reset).setUnlock .laurel Reg.CHIP_RSTCTL true, .laurel, 0x80000003, by decide +kernel⟩,
   ⟨{ State.reset with pwr := { mode := .active, req := some (3, 1) }, mono := 100000000 }, 1, by decide +kernel⟩,
   ⟨{ State.reset with pwr := { mode := .active, req := some (4, 2) }, mono := 100000000 }, 2, by decide +kernel⟩,
   ⟨atTime State.reset 1000000000, by decide +kernel⟩,
   ⟨{ (withKeys linkOn) with boot := { stage := 0 }, xpl := linkOn.xpl }, by decide +kernel⟩,
   ⟨{ linkOn with boot := { stage := 1 }, xpl := linkOn.xpl }, by decide +kernel⟩,
   ⟨{ linkOn with boot := { stage := 2, stream := [1] ++ beBytes 3 (Reg.TRX_KAID 15) ++ beBytes 4 0x20000005 ++ [0] }, xpl := linkOn.xpl },
     [.reg false (Reg.TRX_KAID 15) 0x20000005], by decide +kernel⟩,
   ⟨{ linkOn with boot := { stage := 3, gmask := 5 }, xpl := linkOn.xpl }, by decide +kernel⟩,
   ⟨{ linkOn with boot := { stage := 5 }, xpl := linkOn.xpl }, by decide +kernel⟩⟩

theorem test_TheMailboxServesItsOperations_met :
    (∃ (s : State) (v : Word), s.pwr.held = false ∧ bitOf v 0 = true ∧ s.rb Reg.LRL_STAT 30 = false ∧ s.rb Reg.LRL_STAT 29 = false ∧
      (s.srv = false ∨ mailKnown s.mailOp = true)) ∧
    (∃ (s : State) (v : Word), s.pwr.held = false ∧ bitOf v 0 = true ∧ s.rb Reg.LRL_STAT 30 = false ∧ s.rb Reg.LRL_STAT 29 = false ∧
      (s.srv = false ∨ mailKnown s.mailOp = true)) ∧
    (∃ (s : State) (v : Word), s.pwr.held = false ∧ bitOf v 0 = true ∧ s.rb Reg.LRL_STAT 30 = false ∧ s.rb Reg.LRL_STAT 29 = false ∧ s.srv
      = true ∧ mailKnown s.mailOp = false) ∧
    (∃ (s : State) (v : Word), s.pwr.held = false ∧ bitOf v 0 = true ∧ (s.rb Reg.LRL_STAT 30 = true ∨ s.rb Reg.LRL_STAT 29 = true)) ∧
    (∃ (s : State) (v : Word), s.pwr.held = false ∧ bitOf v 0 = true ∧ (s.rb Reg.LRL_STAT 30 = true ∨ s.rb Reg.LRL_STAT 29 = true)) ∧
    (∃ (s : State) (init : Initiator), s.pwr.held = false ∧ amGet s.bus.latch (ikey init Reg.LRL_EVPOP) = none) ∧
    (∃ (s : State), s.mailWaits 1 = true) ∧
    (∃ (s : State) (p : Int × Nat) (e : Int × Int), s.mailWaits 2 = true ∧ 1 ≤ s.rf (Reg.LRL_REQ 0) 3 0 ∧ s.mailReq 1 % 256 ≤ 6 ∧
      (s.sensor (s.mailReq 1 % 256)).val = some p ∧ (s.sensor (s.mailReq 1 % 256)).ext = some e) ∧
    (∃ (s : State), s.mailWaits 2 = true ∧ 1 ≤ s.rf (Reg.LRL_REQ 0) 3 0 ∧ 6 < s.mailReq 1 % 256) ∧
    (∃ (s : State), s.mailWaits 2 = true ∧ s.rf (Reg.LRL_REQ 0) 3 0 = 0) ∧
    (∃ (s : State), s.mailWaits 3 = true ∧ s.fwRun = true ∧ 3 ≤ s.rf (Reg.LRL_REQ 0) 3 0 ∧ s.mailReq 1 % 256 ≤ 6) ∧
    (∃ (s : State), s.mailWaits 3 = true ∧ s.fwRun = false) ∧
    (∃ (s : State), s.mailWaits 4 = true ∧ s.fwRun = true ∧ 1 ≤ s.rf (Reg.LRL_REQ 0) 3 0 ∧ s.mailReq 1 % 256 ≤ 6) ∧
    (∃ (s : State), s.mailWaits 5 = true) ∧
    (∃ (s : State), s.mailWaits 6 = true ∧ 1 ≤ s.rf (Reg.LRL_REQ 0) 3 0 ∧ s.logFind (s.mailReq 1) = none) ∧
    (∃ (s : State) (r : _), s.mailWaits 6 = true ∧ 1 ≤ s.rf (Reg.LRL_REQ 0) 3 0 ∧ s.logFind (s.mailReq 1) = some r) ∧
    (∃ (s : State), s.mailWaits 7 = true ∧ s.inSave = false ∧ s.lrl.lost = 0) ∧
    (∃ (s : State), s.mailWaits 7 = true ∧ s.inSave = true) ∧
    (∃ (s : State), s.mailWaits 9 = true ∧ s.fwRun = true ∧ 1 ≤ s.rf (Reg.LRL_REQ 0) 3 0 ∧ s.mailReq 1 ≤ 23) ∧
    (∃ (s : State), s.mailWaits 8 = true ∧ s.fwRun = true ∧ 2 ≤ s.rf (Reg.LRL_REQ 0) 3 0 ∧ s.lrl.reclaim = none ∧ reclaimOk (s.mailReq 1 /
      2 ^ 24) (s.mailReq 1 % 65536) = false) ∧
    (∃ (s : State) (n : Nat), s.mailWaits 8 = true ∧ s.fwRun = true ∧ 2 ≤ s.rf (Reg.LRL_REQ 0) 3 0 ∧ s.lrl.reclaim = none ∧ n < 52 ∧
      s.mailReq 1 / 2 ^ 24 = 1 ∧ s.mailReq 1 % 65536 = n ∧ s.rb (Reg.DMACH_STAT n) 29 = false) ∧
    (∃ (s : State) (n : Nat), s.mailWaits 8 = true ∧ s.fwRun = true ∧ 2 ≤ s.rf (Reg.LRL_REQ 0) 3 0 ∧ s.lrl.reclaim = none ∧ n < 52 ∧
      s.mailReq 1 / 2 ^ 24 = 1 ∧ s.mailReq 1 % 65536 = n ∧ s.rb (Reg.DMACH_STAT n) 29 = true) ∧
    (∃ (s : State) (n : Nat), s.lrl.reclaim = some (1, n) ∧ s.rb (Reg.DMACH_STAT n) 29 = false) :=
  ⟨⟨State.reset, 1, by decide +kernel⟩,
   ⟨{ ((resetWith [(Reg.LRL_REQ 0, 0x23000000)])) with boot := { stage := 5 } }, 1, by decide +kernel⟩,
   ⟨{ ((resetWith [(Reg.LRL_REQ 0, 0x24000000)])) with boot := { stage := 5 } }, 1, by decide +kernel⟩,
   ⟨(resetWith [(Reg.LRL_STAT, 0x40000000)]), 1, by decide +kernel⟩,
   ⟨(resetWith [(Reg.LRL_STAT, 0x20000000)]), 1, by decide +kernel⟩,
   ⟨{ (resetWith [(Reg.PG_IST Reg.pgLRL, 2)]) with lrl := { ev := [7] } }, .laurel, by decide +kernel⟩,
   ⟨asked 1 [], by decide +kernel⟩,
   ⟨{ (asked 2 [6]) with lrl := { sens := [(6, { val := some (-5, 9), ext := some (-7, 8) })] } }, (-5, 9), (-7, 8), by decide +kernel⟩,
   ⟨asked 2 [7], by decide +kernel⟩,
   ⟨asked 2 [], by decide +kernel⟩,
   ⟨asked 3 [6, 0xFFFFFFFF, 5], by decide +kernel⟩,
   ⟨plus (asked 3 [6, 0, 5]) [(Reg.CHIP_BOOTSTAT, 0)], by decide +kernel⟩,
   ⟨asked 4 [6], by decide +kernel⟩,
   ⟨asked 5 [], by decide +kernel⟩,
   ⟨asked 6 [9], by decide +kernel⟩,
   ⟨{ (asked 6 [9]) with lrl := { tail := [(beBytes 4 9 ++ List.replicate 28 0)] } }, (beBytes 4 9 ++ List.replicate 28 0),
     by decide +kernel⟩,
   ⟨asked 7 [], by decide +kernel⟩,
   ⟨plus (asked 7 []) [(Reg.PWR_STAT, 1)], by decide +kernel⟩,
   ⟨asked 9 [23], by decide +kernel⟩,
   ⟨asked 8 [0x1000034, 0], by decide +kernel⟩,
   ⟨asked 8 [0x1000033, 0], 51, by decide +kernel⟩,
   ⟨plus (asked 8 [0x1000033, 0]) [(Reg.DMACH_STAT 51, 0x20000000)], 51, by decide +kernel⟩,
   ⟨{ (asked 8 [0x1000033, 0]) with lrl := { reclaim := some (1, 51) } }, 51, by decide +kernel⟩⟩

theorem test_LaurelSamplesLogsWatchesAndRecovers_met :
    (∃ (s : State), s.srv = true ∧ s.lrl.sampleAt + 1000000 ≤ s.now) ∧
    (∃ (s : State), s.inSave = false ∧ s.lrl.lost = 0 ∧ (127 ≤ s.lrl.tail.length ∨ (s.lrl.tail ≠ [] ∧ s.lrl.tailAt + 1000000000 ≤ s.now))) ∧
    (∃ (s : State), s.inSave = false ∧ s.lrl.lost = 0 ∧ (127 ≤ s.lrl.tail.length ∨ (s.lrl.tail ≠ [] ∧ s.lrl.tailAt + 1000000000 ≤ s.now))) ∧
    (∃ (s : State), s.lrl.tail.length < 127 ∧ s.now < s.lrl.tailAt + 1000000000) ∧
    (∃ (s : State) (n : Fin 24) (run : _), s.srv = true ∧ s.canState n = 4 ∧ (s.boffOf n).seen ≠ some (s.canOf n).boffAt ∧ run = (if (s.rd
      (Reg.CANC_TXOK n)).toNat = (s.boffOf n).txok then (s.boffOf n).run else 0) ∧ s.boffLaurel n = false) ∧
    (∃ (s : State) (n : Fin 24) (run : _), s.srv = true ∧ s.canState n = 4 ∧ (s.boffOf n).seen ≠ some (s.canOf n).boffAt ∧ run = (if (s.rd
      (Reg.CANC_TXOK n)).toNat = (s.boffOf n).txok then (s.boffOf n).run else 0) ∧ s.boffLaurel n = true ∧ (s.rf (Reg.CANC_BOFFPOL n) 23
      16 = 0 ∨ run < s.rf (Reg.CANC_BOFFPOL n) 23 16)) ∧
    (∃ (s : State) (n : Fin 24) (run : _), s.srv = true ∧ s.canState n = 4 ∧ (s.boffOf n).seen ≠ some (s.canOf n).boffAt ∧ run = (if (s.rd
      (Reg.CANC_TXOK n)).toNat = (s.boffOf n).txok then (s.boffOf n).run else 0) ∧ s.boffLaurel n = true ∧ (s.rf (Reg.CANC_BOFFPOL n) 23
      16 = 0 ∨ run < s.rf (Reg.CANC_BOFFPOL n) 23 16)) ∧
    (∃ (s : State) (n : Fin 24) (run : _), s.srv = true ∧ s.canState n = 4 ∧ (s.boffOf n).seen ≠ some (s.canOf n).boffAt ∧ run = (if (s.rd
      (Reg.CANC_TXOK n)).toNat = (s.boffOf n).txok then (s.boffOf n).run else 0) ∧ s.boffLaurel n = true ∧ s.rf (Reg.CANC_BOFFPOL n) 23 16
      ≠ 0 ∧ s.rf (Reg.CANC_BOFFPOL n) 23 16 ≤ run) ∧
    (∃ (s : State) (n : Fin 24) (t0 : Nat), (s.boffOf n).wait = some t0 ∧ t0 + min 9 (s.rf (Reg.CANC_BOFFPOL n) 11 8) * 100000 ≤ s.now ∧
      s.pwr.held = false ∧ s.canState n = 4 ∧ s.boffLaurel n = true ∧ s.canOp n ≠ 0) ∧
    (∃ (s : State) (n : Fin 24) (t0 : Nat), (s.boffOf n).wait = some t0 ∧ t0 + min 9 (s.rf (Reg.CANC_BOFFPOL n) 11 8) * 100000 ≤ s.now ∧
      s.pwr.held = false ∧ s.canState n ≠ 4) ∧
    (∃ (s : State), s.srv = true ∧ s.fwRun = true ∧ s.rb Reg.LRL_CTL 0 = true ∧ s.lrl.pollAt + max 1 (s.rf Reg.LRL_CTL 31 24) * 1000000 ≤
      s.now) :=
  ⟨⟨atTime (asked 0 []) 1000000, by decide +kernel⟩,
   ⟨{ State.reset with lrl := { tail := List.replicate 127 (beBytes 4 9 ++ List.replicate 28 0), sector := 255 } }, by decide +kernel⟩,
   ⟨atTime { State.reset with lrl := { tail := [(beBytes 4 9 ++ List.replicate 28 0)] } } 1000000000, by decide +kernel⟩,
   ⟨{ State.reset with lrl := { tail := List.replicate 126 (beBytes 4 9 ++ List.replicate 28 0) } }, by decide +kernel⟩,
   ⟨{ (plus (asked 0 []) [(Reg.CANC_ESTAT 23, 4), (Reg.CANC_BOFFPOL 23, 0x0)]) with can := [(23, { canReset with boffAt := 7, mode := 1 })], tsy := { State.reset.tsy with loc := 900000 }, lrl := { pol := [(23, { run := 3 })] } },
     23, 3, by decide +kernel⟩,
   ⟨{ (plus (asked 0 []) [(Reg.CANC_ESTAT 23, 4), (Reg.CANC_BOFFPOL 23, 0x1)]) with can := [(23, { canReset with boffAt := 7, mode := 1 })], tsy := { State.reset.tsy with loc := 900000 }, lrl := { pol := [(23, { run := 3 })] } },
     23, 3, by decide +kernel⟩,
   ⟨{ (plus (asked 0 []) [(Reg.CANC_ESTAT 23, 4), (Reg.CANC_BOFFPOL 23, 0x40001)]) with can := [(23, { canReset with boffAt := 7, mode := 1 })], tsy := { State.reset.tsy with loc := 900000 }, lrl := { pol := [(23, { run := 3 })] } },
     23, 3, by decide +kernel⟩,
   ⟨{ (plus (asked 0 []) [(Reg.CANC_ESTAT 23, 4), (Reg.CANC_BOFFPOL 23, 0x30001)]) with can := [(23, { canReset with boffAt := 7, mode := 1 })], tsy := { State.reset.tsy with loc := 900000 }, lrl := { pol := [(23, { run := 3 })] } },
     23, 3, by decide +kernel⟩,
   ⟨{ (plus (asked 0 []) [(Reg.CANC_ESTAT 23, 4), (Reg.CANC_BOFFPOL 23, 0x901)]) with can := [(23, { canReset with boffAt := 7, mode := 1 })], tsy := { State.reset.tsy with loc := 900000 }, lrl := { pol := [(23, { run := 3, wait := some 0 })] } },
     23, 0, by decide +kernel⟩,
   ⟨plus
     ({ (plus (asked 0 []) [(Reg.CANC_ESTAT 23, 4), (Reg.CANC_BOFFPOL 23, 0x901)]) with can := [(23, { canReset with boffAt := 7, mode := 1 })], tsy := { State.reset.tsy with loc := 900000 }, lrl := { pol := [(23, { run := 3, wait := some 0 })] } })
     [(Reg.CANC_ESTAT 23, 2)], 23, 0, by decide +kernel⟩,
   ⟨atTime (plus (asked 0 []) [(Reg.LRL_CTL, 0x02000001)]) 2000000, by decide +kernel⟩⟩

theorem test_FirmwareIsStagedActivatedAndCopied_met :
    (∃ (s : State), s.mailWaits 0x20 = true) ∧
    (∃ (s : State), s.mailWaits 0x21 = true ∧ 3 ≤ s.rf (Reg.LRL_REQ 0) 3 0 ∧ (s.fwu.st = 1 ∨ s.fwu.st = 3 ∨ s.fwu.st = 4)) ∧
    (∃ (s : State), s.mailWaits 0x21 = true ∧ 3 ≤ s.rf (Reg.LRL_REQ 0) 3 0 ∧ (s.fwu.st = 1 ∨ s.fwu.st = 3 ∨ s.fwu.st = 4)) ∧
    (∃ (s : State), s.mailWaits 0x21 = true ∧ 3 ≤ s.rf (Reg.LRL_REQ 0) 3 0 ∧ (s.fwu.st = 1 ∨ s.fwu.st = 3 ∨ s.fwu.st = 4)) ∧
    (∃ (s : State), s.mailWaits 0x21 = true ∧ 3 ≤ s.rf (Reg.LRL_REQ 0) 3 0 ∧ s.fwu.st ≠ 1 ∧ s.fwu.st ≠ 3 ∧ s.fwu.st ≠ 4 ∧ (s.mailReq 1 %
      256 = 1 ∨ s.mailReq 1 % 256 = 2) ∧ s.stageOk (s.mailReq 2) (s.mailReq 3) = true) ∧
    (∃ (s : State), s.mailWaits 0x21 = true ∧ 3 ≤ s.rf (Reg.LRL_REQ 0) 3 0 ∧ s.fwu.st ≠ 1 ∧ s.fwu.st ≠ 3 ∧ s.fwu.st ≠ 4 ∧ (s.mailReq 1 %
      256 = 1 ∨ s.mailReq 1 % 256 = 2) ∧ s.stageOk (s.mailReq 2) (s.mailReq 3) = true) ∧
    (∃ (s : State), s.mailWaits 0x21 = true ∧ 3 ≤ s.rf (Reg.LRL_REQ 0) 3 0 ∧ s.fwu.st ≠ 1 ∧ s.fwu.st ≠ 3 ∧ s.fwu.st ≠ 4 ∧ (s.mailReq 1 %
      256 = 1 ∨ s.mailReq 1 % 256 = 2) ∧ s.stageOk (s.mailReq 2) (s.mailReq 3) = true) ∧
    (∃ (s : State), s.mailWaits 0x21 = true ∧ 3 ≤ s.rf (Reg.LRL_REQ 0) 3 0 ∧ s.fwu.st ≠ 1 ∧ s.fwu.st ≠ 3 ∧ s.fwu.st ≠ 4 ∧ ((s.mailReq 1 %
      256 ≠ 1 ∧ s.mailReq 1 % 256 ≠ 2) ∨ s.stageOk (s.mailReq 2) (s.mailReq 3) = false)) ∧
    (∃ (s : State), s.mailWaits 0x21 = true ∧ 3 ≤ s.rf (Reg.LRL_REQ 0) 3 0 ∧ s.fwu.st ≠ 1 ∧ s.fwu.st ≠ 3 ∧ s.fwu.st ≠ 4 ∧ ((s.mailReq 1 %
      256 ≠ 1 ∧ s.mailReq 1 % 256 ≠ 2) ∨ s.stageOk (s.mailReq 2) (s.mailReq 3) = false)) ∧
    (∃ (s : State), s.mailWaits 0x22 = true ∧ 4 ≤ s.rf (Reg.LRL_REQ 0) 3 0 ∧ s.fwu.st ≠ 2) ∧
    (∃ (s : State), s.mailWaits 0x22 = true ∧ 4 ≤ s.rf (Reg.LRL_REQ 0) 3 0 ∧ s.fwu.st = 2 ∧ 999999999 < s.mailReq 4) ∧
    (∃ (s : State), s.mailWaits 0x22 = true ∧ 4 ≤ s.rf (Reg.LRL_REQ 0) 3 0 ∧ s.fwu.st = 2 ∧ s.mailReq 4 ≤ 999999999 ∧ nbit (s.mailReq 1) 0
      = false) ∧
    (∃ (s : State) (x : Nat), s.mailWaits 0x22 = true ∧ 4 ≤ s.rf (Reg.LRL_REQ 0) 3 0 ∧ s.fwu.st = 2 ∧ s.mailReq 4 ≤ 999999999 ∧ nbit
      (s.mailReq 1) 0 = true ∧ x = (s.mailReq 2 + s.mailReq 3 % 65536 * 2 ^ 32) * 1000000000 + s.mailReq 4 ∧ s.tsy.full < x) ∧
    (∃ (s : State) (x : Nat), s.mailWaits 0x22 = true ∧ 4 ≤ s.rf (Reg.LRL_REQ 0) 3 0 ∧ s.fwu.st = 2 ∧ s.mailReq 4 ≤ 999999999 ∧ nbit
      (s.mailReq 1) 0 = true ∧ x = (s.mailReq 2 + s.mailReq 3 % 65536 * 2 ^ 32) * 1000000000 + s.mailReq 4 ∧ x ≤ s.tsy.full) ∧
    (∃ (s : State), s.mailWaits 0x23 = true ∧ s.fwu.st = 4) ∧
    (∃ (s : State), s.mailWaits 0x23 = true ∧ (s.fwu.st = 1 ∨ s.fwu.st = 2 ∨ s.fwu.st = 3)) ∧
    (∃ (s : State), s.mailWaits 0x23 = true ∧ (s.fwu.st = 1 ∨ s.fwu.st = 2 ∨ s.fwu.st = 3)) ∧
    (∃ (s : State), s.mailWaits 0x23 = true ∧ (s.fwu.st = 1 ∨ s.fwu.st = 2 ∨ s.fwu.st = 3)) ∧
    (∃ (s : State), s.mailWaits 0x23 = true ∧ (s.fwu.st = 0 ∨ 5 ≤ s.fwu.st)) ∧
    (∃ (s : State), s.mailWaits 0x23 = true ∧ (s.fwu.st = 0 ∨ 5 ≤ s.fwu.st)) ∧
    (∃ (s : State), s.fwu.st = 1 ∧ s.inSave = false) ∧
    (∃ (s : State) (x : Nat), s.fwu.st = 3 ∧ s.fwu.target = some x ∧ x ≤ s.tsy.full) ∧
    (∃ (s : State) (x : Nat), s.fwu.st = 3 ∧ s.fwu.target = some x ∧ s.tsy.full < x) ∧
    (∃ (s : State), s.fwu.st = 4 ∧ s.pwr.held = false ∧ s.inSave = false ∧ s.fwu.comp = 1 ∧ s.fwu.copied < 448 ∧ s.rootZeroed = true) ∧
    (∃ (s : State), s.fwu.st = 4 ∧ s.pwr.held = false ∧ s.inSave = false ∧ s.fwu.comp = 1 ∧ s.fwu.copied < 448 ∧ s.rootZeroed = false ∧
      (s.keyCheck (beAt (s.staged0 0) 12 2) 7 ≠ 0 ∨ blockOk (s.slotKeyBytes (beAt (s.staged0 0) 12 2)) (beBytes 4 s.fwu.imgid)
      s.fwu.copied (s.staged0 s.fwu.copied) = false)) :=
  ⟨⟨asked 0x20 [], by decide +kernel⟩,
   ⟨{ (asked 0x21 [1, 0, 0]) with fwu := { st := 1 } }, by decide +kernel⟩,
   ⟨{ (asked 0x21 [1, 0, 0]) with fwu := { st := 3 } }, by decide +kernel⟩,
   ⟨{ (asked 0x21 [1, 0, 0]) with fwu := { st := 4 } }, by decide +kernel⟩,
   ⟨{ (asked 0x21 [1, 0x90000000, 0x1000]) with fwu := { st := 0 } }, by decide +kernel⟩,
   ⟨{ (asked 0x21 [2, 0x90000000, 0x1000]) with fwu := { st := 2 } }, by decide +kernel⟩,
   ⟨{ (asked 0x21 [1, 0x90000000, 0x1000]) with fwu := { st := 5 } }, by decide +kernel⟩,
   ⟨{ (asked 0x21 [3, 0x90000000, 0x1000]) with fwu := { st := 0 } }, by decide +kernel⟩,
   ⟨{ (asked 0x21 [1, 0x90000000, 0x1001]) with fwu := { st := 0 } }, by decide +kernel⟩,
   ⟨{ (asked 0x22 [0, 0, 0, 0]) with fwu := { st := 1 } }, by decide +kernel⟩,
   ⟨{ (asked 0x22 [1, 0, 0, 1000000000]) with fwu := { st := 2 } }, by decide +kernel⟩,
   ⟨{ (asked 0x22 [0, 0, 0, 999999999]) with fwu := { st := 2 } }, by decide +kernel⟩,
   ⟨{ (asked 0x22 [1, 1, 0xFFFF0000, 999999999]) with fwu := { st := 2 } }, 1999999999, by decide +kernel⟩,
   ⟨{ { (asked 0x22 [1, 1, 0, 999999999]) with fwu := { st := 2 } } with tsy := { State.reset.tsy with full := 1999999999 } }, 1999999999,
     by decide +kernel⟩,
   ⟨{ (asked 0x23 []) with fwu := { st := 4 } }, by decide +kernel⟩,
   ⟨{ (asked 0x23 []) with fwu := { st := 1 } }, by decide +kernel⟩,
   ⟨{ (asked 0x23 []) with fwu := { st := 2 } }, by decide +kernel⟩,
   ⟨{ (asked 0x23 []) with fwu := { st := 3 } }, by decide +kernel⟩,
   ⟨{ (asked 0x23 []) with fwu := { st := 0 } }, by decide +kernel⟩,
   ⟨{ (asked 0x23 []) with fwu := { st := 5 } }, by decide +kernel⟩,
   ⟨{ (withKeys State.reset) with fwu := { st := 1, comp := 1, len := 4096 } }, by decide +kernel⟩,
   ⟨{ State.reset with fwu := { st := 3, target := some 0, comp := 1 } }, 0, by decide +kernel⟩,
   ⟨{ State.reset with fwu := { st := 3, target := some 9, comp := 1 } }, 9, by decide +kernel⟩,
   ⟨{ State.reset with yew := { root := .zeroed }, fwu := { st := 4, comp := 1, copied := 447 } }, by decide +kernel⟩,
   ⟨{ State.reset with fwu := { st := 4, comp := 1, copied := 447 } }, by decide +kernel⟩⟩

theorem test_PairedUnitsChangeRolesAndThePortObserves_met :
    (∃ (s : State) (v : Word), s.pwr.held = false ∧ fld v 3 0 = 1 ∧ s.mayJoin = true) ∧
    (∃ (s : State) (v : Word), s.pwr.held = false ∧ fld v 3 0 = 2 ∧ s.mayJoin = true) ∧
    (∃ (s : State) (v : Word), s.pwr.held = false ∧ fld v 3 0 = 4 ∧ s.role = 1 ∧ s.pair.peerRole = 2 ∧ s.pair.peerSync = true) ∧
    (∃ (s : State) (v : Word), s.pwr.held = false ∧ fld v 3 0 = 4 ∧ s.role = 1 ∧ (s.pair.peerRole ≠ 2 ∨ s.pair.peerSync = false)) ∧
    (∃ (s : State) (v : Word), s.pwr.held = false ∧ fld v 3 0 = 4 ∧ s.role = 1 ∧ (s.pair.peerRole ≠ 2 ∨ s.pair.peerSync = false)) ∧
    (∃ (s : State) (v : Word), s.pwr.held = false ∧ fld v 3 0 = 8 ∧ s.role = 2) ∧
    (∃ (s : State), s.role ≠ 0 ∧ s.pair.hbAt + s.hbPer ≤ s.now) ∧
    (∃ (s : State), s.role ≠ 0 ∧ s.pair.edgeAt + s.hbTo ≤ s.now) ∧
    (∃ (s : State), s.role ≠ 0 ∧ s.pair.edgeAt + s.hbTo ≤ s.now) ∧
    (∃ (s : State) (port : Fin 14), s.pairOn = true ∧ s.rb (Reg.EMAC_STAT 3) 31 = true ∧ s.role = 2 ∧ port.val ≠ 3) ∧
    (∃ (s : State), s.pairOn = true ∧ s.rb (Reg.EMAC_STAT 3) 31 = true ∧ s.role ≠ 2) ∧
    (∃ (s : State) (i : Nat), s.pairOn = true ∧ s.rb (Reg.EMAC_STAT 3) 31 = true ∧ s.role = 2 ∧ i < 65536) ∧
    (∃ (s : State) (i : Nat), s.pairOn = true ∧ s.rb (Reg.EMAC_STAT 3) 31 = true ∧ s.role = 2 ∧ 65536 ≤ i) ∧
    (∃ (s : State), s.pairOn = true ∧ s.rb (Reg.EMAC_STAT 3) 31 = true ∧ s.role = 2 ∧ s.rb Reg.PAIR_STAT 4 = false) ∧
    (∃ (s : State) (k : Nat) (plan : Fin 4) (x : Nat), s.pairOn = true ∧ s.rb (Reg.EMAC_STAT 3) 31 = true ∧ s.role ≠ 0 ∧ s.pair.ownK =
      [(k, plan.val), (k + 1, plan.val)] ∧ s.pair.peerK = [(k, plan.val)] ∧ s.pair.judged = k ∧ s.pair.own = [] ∧ 0 < x ∧ x < 65536 ∧
      s.pair.peer = [(k * 64, (x, 0))]) ∧
    (∃ (s : State) (k : Nat) (plan : Fin 4), s.pairOn = true ∧ s.rb (Reg.EMAC_STAT 3) 31 = true ∧ s.role ≠ 0 ∧ s.pair.ownK = [(k,
      plan.val), (k + 1, plan.val)] ∧ s.pair.peerK = [(k, plan.val)] ∧ s.pair.judged = k ∧ s.pair.own = [] ∧ s.pair.peer = []) ∧
    (∃ (s : State), s.role ≠ 0 ∧ s.pair.roleAt + 10000000 ≤ s.now) ∧
    (∃ (s : State) (k : Nat), s.role ≠ 0 ∧ s.tsy.full / 100000000 = k + 1 ∧ s.pair.judged ≤ k ∧ amGet s.pair.ownK k = none ∧ (s.rb
      (Reg.EMAC_STAT 3) 31 = false ∨ s.pair.peerK = [])) ∧
    (∃ (s : State) (init : Initiator) (v : Word), s.pwr.held = false ∧ s.isUnlocked init Reg.OBS_CTL = true ∧ bitOf v 0 = true ∧ s.obs.run
      = false) ∧
    (∃ (s : State) (init : Initiator) (v : Word), s.pwr.held = false ∧ s.isUnlocked init Reg.OBS_CTL = true ∧ bitOf v 0 = false) ∧
    (∃ (s : State), s.obs.run = true ∧ s.obs.syncAt + 1000000 ≤ s.now) ∧
    (∃ (s : State), s.obs.run = true ∧ s.rf Reg.OBS_CNTPER 15 0 ≠ 0 ∧ s.obs.cntAt + s.rf Reg.OBS_CNTPER 15 0 * 1000 ≤ s.now ∧ s.rb
      Reg.OBS_SRC 10 = true ∧ s.obs.fifo.length ≤ 54) :=
  ⟨⟨(plus State.reset [(Reg.PAIR_CTL, 0x511), (Reg.EMAC_CFG 3, 1), (Reg.EMAC_STAT 3, 0x80000030), (Reg.PAIR_STAT, 0)]), 1,
     by decide +kernel⟩,
   ⟨(plus State.reset [(Reg.PAIR_CTL, 0x511), (Reg.EMAC_CFG 3, 1), (Reg.EMAC_STAT 3, 0x80000030), (Reg.PAIR_STAT, 0)]), 2,
     by decide +kernel⟩,
   ⟨{ (plus State.reset [(Reg.PAIR_CTL, 0x511), (Reg.EMAC_CFG 3, 1), (Reg.EMAC_STAT 3, 0x80000030), (Reg.PAIR_STAT, 1)]) with pair := { peerRole := 2, peerSync := true } },
     4, by decide +kernel⟩,
   ⟨{ (plus State.reset [(Reg.PAIR_CTL, 0x511), (Reg.EMAC_CFG 3, 1), (Reg.EMAC_STAT 3, 0x80000030), (Reg.PAIR_STAT, 1)]) with pair := { peerRole := 1 } },
     4, by decide +kernel⟩,
   ⟨{ (plus State.reset [(Reg.PAIR_CTL, 0x511), (Reg.EMAC_CFG 3, 1), (Reg.EMAC_STAT 3, 0x80000030), (Reg.PAIR_STAT, 1)]) with pair := { peerRole := 2 } },
     4, by decide +kernel⟩,
   ⟨(plus State.reset [(Reg.PAIR_CTL, 0x511), (Reg.EMAC_CFG 3, 1), (Reg.EMAC_STAT 3, 0x80000030), (Reg.PAIR_STAT, 2)]), 8,
     by decide +kernel⟩,
   ⟨{ (plus State.reset [(Reg.PAIR_CTL, 0x511), (Reg.EMAC_CFG 3, 1), (Reg.EMAC_STAT 3, 0x80000030), (Reg.PAIR_STAT, 1)]) with tsy := { State.reset.tsy with loc := 1000000 } },
     by decide +kernel⟩,
   ⟨{ (plus State.reset [(Reg.PAIR_CTL, 0x511), (Reg.EMAC_CFG 3, 1), (Reg.EMAC_STAT 3, 0x80000030), (Reg.PAIR_STAT, 1)]) with tsy := { State.reset.tsy with loc := 5000000 } },
     by decide +kernel⟩,
   ⟨{ (plus State.reset [(Reg.PAIR_CTL, 0x511), (Reg.EMAC_CFG 3, 1), (Reg.EMAC_STAT 3, 0x80000030), (Reg.PAIR_STAT, 2)]) with tsy := { State.reset.tsy with loc := 5000000 } },
     by decide +kernel⟩,
   ⟨(plus State.reset [(Reg.PAIR_CTL, 0x511), (Reg.EMAC_CFG 3, 1), (Reg.EMAC_STAT 3, 0x80000030), (Reg.PAIR_STAT, 2)]), 13,
     by decide +kernel⟩,
   ⟨(plus State.reset [(Reg.PAIR_CTL, 0x511), (Reg.EMAC_CFG 3, 1), (Reg.EMAC_STAT 3, 0x80000030), (Reg.PAIR_STAT, 1)]), by decide +kernel⟩,
   ⟨(plus State.reset [(Reg.PAIR_CTL, 0x511), (Reg.EMAC_CFG 3, 1), (Reg.EMAC_STAT 3, 0x80000030), (Reg.PAIR_STAT, 2)]), 65535,
     by decide +kernel⟩,
   ⟨(plus State.reset [(Reg.PAIR_CTL, 0x511), (Reg.EMAC_CFG 3, 1), (Reg.EMAC_STAT 3, 0x80000030), (Reg.PAIR_STAT, 2)]), 65536,
     by decide +kernel⟩,
   ⟨(plus State.reset [(Reg.PAIR_CTL, 0x511), (Reg.EMAC_CFG 3, 1), (Reg.EMAC_STAT 3, 0x80000030), (Reg.PAIR_STAT, 2)]), by decide +kernel⟩,
   ⟨{ (plus State.reset [(Reg.PAIR_CTL, 0x511), (Reg.EMAC_CFG 3, 1), (Reg.EMAC_STAT 3, 0x80000030), (Reg.PAIR_STAT, 1)]) with pair := { ownK := [(0, 3), (1, 3)], peerK := [(0, 3)], peer := [(0, (5, 0))] } },
     0, 3, 5, by decide +kernel⟩,
   ⟨{ (plus State.reset [(Reg.PAIR_CTL, 0x511), (Reg.EMAC_CFG 3, 1), (Reg.EMAC_STAT 3, 0x80000030), (Reg.PAIR_STAT, 1)]) with pair := { ownK := [(0, 3), (1, 3)], peerK := [(0, 3)] } },
     0, 3, by decide +kernel⟩,
   ⟨atTime (plus State.reset [(Reg.PAIR_CTL, 0x511), (Reg.EMAC_CFG 3, 1), (Reg.EMAC_STAT 3, 0x80000030), (Reg.PAIR_STAT, 1)]) 10000000,
     by decide +kernel⟩,
   ⟨{ (plus State.reset [(Reg.PAIR_CTL, 0x511), (Reg.EMAC_CFG 3, 1), (Reg.EMAC_STAT 3, 0x80000030), (Reg.PAIR_STAT, 1)]) with tsy := { State.reset.tsy with full := 100000000 } },
     0, by decide +kernel⟩,
   ⟨State.reset.setUnlock .laurel Reg.OBS_CTL true, .laurel, 1, by decide +kernel⟩,
   ⟨{ ((resetWith [(Reg.OBS_CTL, 1)])).setUnlock .laurel Reg.OBS_CTL true with obs := { run := true } }, .laurel, 0, by decide +kernel⟩,
   ⟨atTime { State.reset with obs := { run := true } } 1000000, by decide +kernel⟩,
   ⟨atTime { ((resetWith [(Reg.OBS_CNTPER, 1), (Reg.OBS_SRC, 0x400)])) with obs := { run := true } } 1000, by decide +kernel⟩⟩

theorem test_StepRunsTheFrontCommand_met :
    (∃ (c : Instr) (s : State) (rest : List Instr), s.pending = c :: rest) ∧
    (∃ (s : State), s.pending = []) :=
  ⟨⟨.pfWarn, { State.reset with pending := [.pfWarn, .lockBreak] }, [.lockBreak], by decide +kernel⟩,
   ⟨State.reset, by decide +kernel⟩⟩



/-! Formedness: an ill-formed term for each check, refused. -/

theorem test_wf_kykel_is_no_initiator : (Instr.errClr .kykel 1).wf = false ∧ (Instr.errClr .host 1).wf = true := by decide

theorem test_wf_offset_inside_the_bar : (Instr.registerWrite .host (2 ^ 25) 1 true 0).wf = false ∧ (Instr.unlockKeyWrite .host (2 ^ 25) 0).wf = false ∧
    (Instr.registerWrite .host (2 ^ 25 - 4) 1 true 0).wf = true := by decide

theorem test_wf_can_frames : fr.ok = true ∧ ({ fr with ident := 2 ^ 29 } : CanFrame).ok = false ∧ ({ fr with ident := 1 } : CanFrame).ok = false ∧
    ({ fr with dlc := 16 } : CanFrame).ok = false ∧ ({ fr with dlc := 7 } : CanFrame).ok = false ∧ ({ fr with brs := true } : CanFrame).ok = false ∧
    ({ fr with rtr := true } : CanFrame).ok = false ∧ ({ fr with fmt := .fd, dlc := 9 } : CanFrame).ok = false ∧
    ({ fr with fmt := .fd, dlc := 9, data := List.replicate 12 0 } : CanFrame).ok = true ∧ ({ fr with fmt := .xl, data := [] } : CanFrame).ok = false ∧
    ({ fr with fmt := .xl, rtr := true } : CanFrame).ok = false := by decide +kernel

theorem test_wf_commands_with_frames : (Instr.canFrameValid 0 false { fr with dlc := 7 } 0).wf = false ∧ (Instr.keepAliveFrame 0 { fr with dlc := 7 }).wf = false ∧
    (Instr.decoderFrame 0 false { fr with dlc := 7 }).wf = false ∧ (Instr.privetJobAccept 128 none).wf = false ∧
    (Instr.privetJobAccept 3 (some { fr with dlc := 7 })).wf = false ∧ (Instr.privetJobAccept 127 (some fr)).wf = true := by decide +kernel

theorem test_wf_link_messages : (msgOf 12 0 0 0).ok = false ∧ (msgOf 0 4 0 0).ok = false ∧ (msgOf 0 0 (2 ^ 16) 0).ok = false ∧ (msgOf 11 3 5 0).ok = true ∧
    (Instr.readRequestMsg .toKykel (msgOf 12 0 0 0) false).wf = false ∧ (Instr.trainingSuccess 77).wf = false ∧
    (Instr.trainingSuccess 83).wf = false := by decide

theorem test_wf_ethernet : (Instr.ethernetFrameReceive 0 [1, 2] true false ⟨0, 0⟩).wf = false ∧ (Instr.mirroredFrame 0 0 [1]).wf = false ∧
    (Instr.pfcReceive 0 1 [0, 0]).wf = false ∧ (Instr.ethernetFrameReceive 0 (List.replicate 14 0) true false ⟨0, 0⟩).wf = true := by decide

theorem test_wf_host_memory : (Instr.burstStart 0 [(2 ^ 64 - 1, [0, 0])]).wf = false ∧ (Instr.memoryJobFetch 0 [(2 ^ 64, [0])] true).wf = false ∧
    (Instr.queueDescriptorFetch 0 [(2 ^ 64 - 2, [0, 0])]).wf = true ∧ (Instr.channelHalt 0 true false (2 ^ 64) 0).wf = false ∧
    (Instr.completionTimeout 0 (2 ^ 64) 0).wf = false ∧ (Instr.msixUnmask 0 2).wf = false := by decide

theorem test_wf_ranges : (Instr.cycleWindowExpiry 32768).wf = false ∧ (Instr.claimWindowOpen 0 (some (.kykel, 1))).wf = false ∧
    (Instr.coldRouteVerify (some 16384)).wf = false ∧ (Instr.sensorSample [1, 2, 3, 4]).wf = false ∧ (Instr.markMsg (some (65792, 0))).wf = false ∧
    (Instr.markMsg (some (0, 2 ^ 64))).wf = false ∧ (Instr.digestMsg 0 0 [(0, (2 ^ 32, 0))]).wf = false ∧
    (Instr.coldRouteVerify (some 16383)).wf = true := by decide

/-! The table gives no row any bits: no word spells a command. -/

theorem test_no_word_spells_a_command : decodeTableWord 32 0x12345678 = none ∧ State.reset.withFetchWord 32 0x12345678 = State.reset := by decide

/-! The machine after reset. -/

theorem test_reset_is_sound : State.reset.memWf = true ∧ State.reset.regsWf = true ∧ State.reset.clocksOk = true := by decide +kernel

/-- A step from reset with an empty queue idles one tick; one with a command in front runs it: both invariants have such states. -/
theorem test_EveryStepKeeps_met :
    (∃ s t : State, s.memWf = true ∧ step s = .next t) ∧ (∃ s t : State, s.clocksOk = true ∧ step s = .next t) :=
  ⟨⟨State.reset, _, by decide +kernel, rfl⟩, ⟨{ State.reset with pending := [.nowRead .host] }, _, by decide +kernel, rfl⟩⟩

/-- Every controller is in configuration mode after reset (04_can_controllers.md). -/
theorem test_reset_controllers : ∀ n ∈ List.range 24, State.reset.canState n = 0 := by decide +kernel

/-! Published check values: CRC-32 and CRC-16-CCITT of the digits 1 to 9, and the AES-256 example of FIPS 197. -/

theorem test_crc32_check : crc32 [49, 50, 51, 52, 53, 54, 55, 56, 57] = 0xCBF43926 := by decide +kernel

theorem test_crc16_check : crc16 [49, 50, 51, 52, 53, 54, 55, 56, 57] = 0x29B1 := by decide +kernel

theorem test_aes_fips197 : aesEnc (roundKeys (List.range 32)) ((List.range 16).map (fun i => 17 * i)) =
    [0x8e, 0xa2, 0xb7, 0xca, 0x51, 0x67, 0x45, 0xbf, 0xea, 0xfc, 0x49, 0x90, 0x4b, 0x49, 0x60, 0x89] := by decide +kernel

/-! Effects worked out from the rules. -/

/-- R61: the key unlocks the page for its initiator alone; another word relocks it. -/
theorem test_unlock_key : let s := after (.unlockKeyWrite .laurel Reg.pgCHIP 0x5E117A5C) State.reset
    s.isUnlocked .laurel Reg.pgCHIP = true ∧ s.isUnlocked .host Reg.pgCHIP = false ∧
    (after (.unlockKeyWrite .laurel Reg.pgCHIP 1) s).isUnlocked .laurel Reg.pgCHIP = false := by decide +kernel

/-- R61, R467: a guarded register takes a write after the key, its reserved bits discarded; without the key the write changes nothing and is counted as a bus error. -/
theorem test_guarded_write : let c : Instr := .guardedWrite .laurel Reg.CHIP_WDT 0x10001
    (after c (after (.unlockKeyWrite .laurel Reg.pgCHIP 0x5E117A5C) State.reset)).rd Reg.CHIP_WDT = 1 ∧
    (after c State.reset).rd Reg.CHIP_WDT = State.reset.rd Reg.CHIP_WDT ∧ (after c State.reset).rd Reg.ERR_COUNT = 1 := by decide +kernel

/-- R179 and the example of 06_signal_engine.md: the largest valid value, the error code and the not-available code by width. -/
theorem test_signal_codes : rngCodes 2 = (1, 2, 3) ∧ rngCodes 8 = (0xFA, 0xFE, 0xFF) ∧ rngCodes 16 = (0xFAFF, 0xFEFF, 0xFFFF) ∧
    rngCodes 32 = (0xFAFFFFFF, 0xFEFFFFFF, 0xFFFFFFFF) := by decide

/-! States whose bytes carry a tag: the tag stands for itself and is not computed. -/

/-- The bytes l in memory from address a on. -/
def cells : Nat → List Byte → List Host.Cell
  | _, [] => []
  | a, b :: r => (a, b) :: cells (a + 1) r

theorem amGet_cells_off : ∀ (l : List Byte) (a k : Nat), k < a ∨ a + l.length ≤ k → amGet (cells a l) k = none
  | [], _, _, _ => rfl
  | b :: r, a, k, h => by
    rw [List.length_cons] at h
    have := amGet_cells_off r (a + 1) k (by omega)
    rw [cells, amGet, this, if_neg (by omega)]

theorem amGet_cells : ∀ (l : List Byte) (a i : Nat), amGet (cells a l) (a + i) = l[i]?
  | [], _, _ => rfl
  | b :: r, a, 0 => by simp [cells, amGet]
  | b :: r, a, i + 1 => by
    have := amGet_cells r (a + 1) i
    rw [show a + (i + 1) = a + 1 + i by omega]
    simp only [cells, amGet, this, if_neg (show ¬ a = a + 1 + i by omega)]
    rfl

theorem memRdN_cells (l : List Byte) (a n : Nat) (h : l.length = n) : memRdN (cells a l) a n = l := by
  apply List.ext_getElem
  · simp [memRdN, h]
  · intro i h1 h2
    simp [memRdN, memRd, amGetD, amGet_cells, h2]

theorem memRdN_cells_off (l : List Byte) (a k n : Nat) (h : k + n ≤ a ∨ a + l.length ≤ k) : memRdN (cells a l) k n = memRdN [] k n := by
  apply List.map_congr_left
  intro i hi
  rw [memRd, memRd, amGetD, amGet_cells_off l a (k + i) (by have := List.mem_range.mp hi; omega)]
  rfl

/-- A record with two copies outside those bytes reads as in empty memory. -/
theorem pairRead_off {s : State} {l : List Byte} {a k : Nat} (hs : s.mram = cells a l) (h : k + 128 ≤ a ∨ a + l.length ≤ k) :
    s.pairRead k = ({ s with mram := [] } : State).pairRead k := by
  have hc : s.pairCopy k = ({ s with mram := [] } : State).pairCopy k := by
    funext b
    rw [State.pairCopy, State.pairCopy, hs]
    cases b <;> exact memRdN_cells_off l a _ 64 (by simp; omega)
  rw [State.pairRead, State.pairRead, State.pairStands, State.pairStands, hc]

/-- The key of slot 5 in withKeys. -/
def slotKey : List Byte := List.replicate 32 9

/-- The 4,080 bytes of a staged firmware block that names key slot 5. -/
def blockBytes : List Byte := List.replicate 12 0 ++ [0, 5] ++ List.replicate 4066 0

/-- Those of a cold-route image of one block without records: IMGID 3, version 1, key slot 5, plan 1, mask 5, TRXREL 1. -/
def imageBytes : List Byte :=
  beBytes 4 0x43524931 ++ beBytes 4 3 ++ beBytes 4 1 ++ [0, 5, 0, 1] ++ beBytes 4 1 ++ beBytes 4 0 ++ beBytes 2 5 ++ beBytes 2 1
    ++ List.replicate 4052 0

/-- A block of IMGID 3 at position 0 with its tag. -/
def tagged (l : List Byte) : List Byte := l ++ cmac slotKey (beBytes 4 3 ++ beBytes 4 0 ++ l)

theorem tagged_length {l : List Byte} (h : l.length = 4080) : (tagged l).length = 4096 := by
  simp [tagged, h, cmac_length (key := slotKey) (by decide)]

theorem tagged_ok {l : List Byte} (h : l.length = 4080) : blockOk slotKey (beBytes 4 3) 0 (tagged l) = true := by
  simp [blockOk, tagged, List.take_left' h, List.drop_left' h]

theorem blockBytes_length : blockBytes.length = 4080 := by decide +kernel
theorem imageBytes_length : imageBytes.length = 4080 := by decide +kernel

/-- A copy runs; its first block stands in DRAM. -/
def copying (nblk : Nat) : State :=
  { (withKeys State.reset) with fwu := { st := 4, comp := 1, nblk := nblk, doff := 0x100000, imgid := 3 }, dram := cells 0x100000 (tagged blockBytes) }

theorem copying_block (nblk : Nat) : (copying nblk).staged0 0 = tagged blockBytes :=
  memRdN_cells _ _ _ (tagged_length blockBytes_length)

theorem copying_ok (nblk : Nat) (hn : nblk = 1 ∨ nblk = 2) : (copying nblk).fwu.st = 4 ∧ (copying nblk).pwr.held = false ∧ (copying nblk).inSave = false ∧
    (copying nblk).fwu.comp = 1 ∧ (copying nblk).fwu.copied < 448 ∧ (copying nblk).rootZeroed = false ∧
    (copying nblk).keyCheck (beAt ((copying nblk).staged0 0) 12 2) 7 = 0 ∧
    blockOk ((copying nblk).slotKeyBytes (beAt ((copying nblk).staged0 0) 12 2)) (beBytes 4 (copying nblk).fwu.imgid) (copying nblk).fwu.copied
      ((copying nblk).staged0 (copying nblk).fwu.copied) = true := by
  have hb : beAt (tagged blockBytes) 12 2 = 5 := by decide +kernel
  have hk : (copying nblk).slotKeyBytes 5 = slotKey ∧ (copying nblk).keyCheck 5 7 = 0 := by
    rcases hn with rfl | rfl <;> decide +kernel
  refine ⟨rfl, rfl, by rfl, rfl, (by decide : 0 < 448), rfl, ?_, ?_⟩
  · rw [copying_block, hb]; exact hk.2
  · have hc : (copying nblk).fwu.copied = 0 := rfl
    have hi : (copying nblk).fwu.imgid = 3 := rfl
    rw [hc, hi, copying_block, hb, hk.1]
    exact tagged_ok blockBytes_length

theorem test_FirmwareIsStagedActivatedAndCopied_blocks_met :
    (∃ (s : State) (bad : Nat), s.fwu.st = 4 ∧ s.pwr.held = false ∧ s.inSave = false ∧ s.fwu.comp = 1 ∧ s.fwu.copied < 448 ∧
      s.rootZeroed = false ∧ s.keyCheck (beAt (s.staged0 0) 12 2) 7 = 0 ∧ blockOk (s.slotKeyBytes (beAt (s.staged0 0) 12 2))
      (beBytes 4 s.fwu.imgid) s.fwu.copied (s.staged0 s.fwu.copied) = true ∧ 4 ≤ bad) ∧
    (∃ (s : State) (bad : Nat), s.fwu.st = 4 ∧ s.pwr.held = false ∧ s.inSave = false ∧ s.fwu.comp = 1 ∧ s.fwu.copied < 448 ∧
      s.rootZeroed = false ∧ s.keyCheck (beAt (s.staged0 0) 12 2) 7 = 0 ∧ blockOk (s.slotKeyBytes (beAt (s.staged0 0) 12 2))
      (beBytes 4 s.fwu.imgid) s.fwu.copied (s.staged0 s.fwu.copied) = true ∧ bad < 4 ∧ s.fwu.copied + 1 < s.fwu.nblk) ∧
    (∃ (s : State) (bad : Nat), s.fwu.st = 4 ∧ s.pwr.held = false ∧ s.inSave = false ∧ s.fwu.comp = 1 ∧ s.fwu.copied < 448 ∧
      s.rootZeroed = false ∧ s.keyCheck (beAt (s.staged0 0) 12 2) 7 = 0 ∧ blockOk (s.slotKeyBytes (beAt (s.staged0 0) 12 2))
      (beBytes 4 s.fwu.imgid) s.fwu.copied (s.staged0 s.fwu.copied) = true ∧ bad < 4 ∧ s.fwu.nblk ≤ s.fwu.copied + 1) := by
  obtain ⟨a, b, c, d, e, f, g, h⟩ := copying_ok 2 (.inr rfl)
  obtain ⟨a', b', c', d', e', f', g', h'⟩ := copying_ok 1 (.inl rfl)
  exact ⟨⟨copying 2, 4, a, b, c, d, e, f, g, h, by decide⟩, ⟨copying 2, 3, a, b, c, d, e, f, g, h, by decide, by decide⟩,
    ⟨copying 1, 0, a', b', c', d', e', f', g', h', by decide, by decide⟩⟩

/-- The padding of that image's stream. -/
def imagePad : List Byte := List.replicate 4016 0

/-- A good image stands in MRAM. -/
def withImage : State := { (withKeys State.reset) with boot := { stage := 1 }, mram := cells crBase (tagged imageBytes) }

/-- What the verification pass finds in it. -/
def image : CrImage := { imgid := 3, ver := 1, src := 0, plan := 1, nblk := 1, qoff := 0, gmask := 5, trxrel := 1, stream := imagePad }

theorem withImage_mram : withImage.mram = cells crBase (tagged imageBytes) := by with_unfolding_all rfl

theorem withImage_block : memRdN withImage.mram crBase 4096 = tagged imageBytes := by
  rw [withImage_mram]; exact memRdN_cells (tagged imageBytes) crBase 4096 (tagged_length imageBytes_length)

/-- An image of one block whose checks hold passes. -/
theorem crCheck_one (s : State) (blk : CrImage → Nat → Option (List Byte)) (h key st : List Byte) (slot : Nat) (recs : List CrRec)
    (c : CrImage) (h1 : beAt h 0 4 = 0x43524931) (h2 : beAt h 12 2 = slot) (h3 : s.keyCheck slot 7 = 0) (h4 : s.slotKeyBytes slot = key)
    (h5 : blockOk key ((h.drop 4).take 4) 0 h = true) (h6 : crHeader h = c) (h7 : c.headOk h = true) (h8 : s.crMin ≤ c.ver)
    (h9 : c.nblk = 1) (h10 : (h.take 4080).drop 64 = st) (h11 : crRecs st = .ok recs) :
    s.crCheck blk h = .ok { c with stream := st } := by
  simp [State.crCheck, h1, h2, h3, h4, h5, h6, h7, h9, h10, h11, readBlocks, Nat.not_lt.mpr h8]

theorem image_recs : crRecs imagePad = .ok [] := by decide +kernel

theorem image_rest : imageBytes.drop 64 = imagePad := by decide +kernel

theorem image_head : beAt (tagged imageBytes) 0 4 = 0x43524931 ∧ beAt (tagged imageBytes) 12 2 = 5 ∧
    crHeader (tagged imageBytes) = { image with stream := [] } ∧ CrImage.headOk { image with stream := [] } (tagged imageBytes) = true ∧
    ((tagged imageBytes).drop 4).take 4 = beBytes 4 3 := by decide +kernel

theorem image_key : withImage.keyCheck 5 7 = 0 ∧ withImage.slotKeyBytes 5 = slotKey := by decide +kernel

theorem image_floor : withImage.crMin ≤ 1 := by
  rw [State.crMin, pairRead_off withImage_mram (.inr (by rw [tagged_length imageBytes_length]; decide))]
  decide +kernel

theorem withImage_check : withImage.crCheck (withImage.crStored none) (tagged imageBytes) = .ok image :=
  crCheck_one withImage _ _ slotKey imagePad 5 [] _ image_head.1 image_head.2.1 image_key.1 image_key.2
    (by rw [image_head.2.2.2.2]; exact tagged_ok imageBytes_length) image_head.2.2.1 image_head.2.2.2.1 image_floor rfl
    (by rw [tagged, List.take_left' imageBytes_length, image_rest]) image_recs

theorem withImage_state : withImage.pwr.held = false ∧ withImage.boot.stage = 1 ∧ withImage.crBroken = false := by
  refine ⟨by decide +kernel, rfl, ?_⟩
  rw [State.crBroken, State.journal, pairRead_off withImage_mram (.inl (by decide))]
  decide +kernel

theorem test_ResetsTakeEffectAndTheDeviceBoots_image_met :
    ∃ (s : State) (qspiBad : Option Nat) (c : CrImage), s.pwr.held = false ∧ s.boot.stage = 1 ∧
      s.crCheck (s.crStored qspiBad) (memRdN s.mram crBase 4096) = .ok c ∧ s.crBroken = false :=
  ⟨withImage, none, image, withImage_state.1, withImage_state.2.1, withImage_block ▸ withImage_check, withImage_state.2.2⟩

/-! The first power-up: its commands from a supply reset give the state after reset. -/

/-- The device t nanoseconds later. -/
def atMono (s : State) (t : Nat) : State := { s with mono := s.mono + t }

/-- The commands of the power-up. -/
def powerUp : State :=
  let s := after .startCondition (after .supplyReset State.base)
  let s := after .coreEnableDelay (atMono (after .buckSoftStartComplete s) 2000000)
  after .dramPgRise (after .dramEnableDelay (atMono (after .corePgRise s) 2000000))

theorem test_power_up_gives_the_registers_after_reset : powerUp.regs = State.reset.regs := by decide +kernel

theorem test_power_up_gives_the_rest_after_reset : powerUp.xpl = State.reset.xpl ∧ powerUp.pwr.mode = State.reset.pwr.mode
    ∧ powerUp.pwr.held = false ∧ powerUp.pwr.boots = State.reset.pwr.boots ∧ powerUp.wkn.dom = State.reset.wkn.dom := by decide +kernel

/-- R84, R447: under a Yatric lock the write of MODE = RXONLY waits; the release makes it. -/
theorem test_fault_under_a_lock_waits :
    let s := { (resetWith [(Reg.XPL_STAT, 2), (Reg.TRX_CTL 4, 0)]) with xpl := { State.reset.xpl with kykLock := some 0 } }
    let t := after (.thermalShutdown 4) s
    t.rd (Reg.TRX_CTL 4) = 0 ∧ t.trxState 4 = 2 ∧ (after (.lockReleaseMsg .toKykel (msgOf 10 0 0 0)) t).rd (Reg.TRX_CTL 4) = 1 := by decide +kernel

/-- An update message that installs key slot 0 from the zero key, in work: counter cnt, and the four words of its tag. -/
def updating (ucnt : Nat) (w0 w1 w2 w3 : Word) : State :=
  { State.reset with
    regs := [(Reg.YEW_STAT, 0x80000000), (Reg.YEW_UMSG 0, Config.deviceId 0), (Reg.YEW_UMSG 1, Config.deviceId 1),
      (Reg.YEW_UMSG 2, Config.deviceId 2), (Reg.YEW_UMSG 3, Config.deviceId 3), (Reg.YEW_UMSG 4, 0xFFFF), (Reg.YEW_UMSG 6, 1),
      (Reg.YEW_UMSG 7, 0x40), (Reg.YEW_UMSG 8, 0x01000000), (Reg.YEW_UMSG 17, w0), (Reg.YEW_UMSG 18, w1), (Reg.YEW_UMSG 19, w2),
      (Reg.YEW_UMSG 20, w3)]
    cry := { State.reset.cry with jobs := [(0, ⟨3, 0, 6, 0, 0, kOK, [], 0, []⟩)] }
    yew := { State.reset.yew with op := some .update, ucnt := ucnt } }

theorem updating_runs (c : Nat) (w0 w1 w2 w3 : Word) : (updating c w0 w1 w2 w3).yewRuns = true := rfl

/-- Its first 68 bytes. -/
def updHead : List Byte :=
  deviceIdBytes ++ [0, 0, 255, 255, 0, 0, 0, 0, 0, 0, 0, 1, 0, 0, 0, 64, 1, 0, 0, 0] ++ List.replicate 32 0

theorem updating_umsg (c : Nat) (w0 w1 w2 w3 : Word) :
    (updating c w0 w1 w2 w3).umsg = updHead ++ (wordBytes w0 ++ (wordBytes w1 ++ (wordBytes w2 ++ wordBytes w3))) := by
  have h0 : ∀ k < 21, resetWord (Reg.YEW_UMSG k) = 0 := by decide +kernel
  have hn : ∀ k, Reg.YEW_STAT ≠ Reg.YEW_UMSG k := by intro k; simp only [Reg.YEW_STAT, Reg.YEW_UMSG]; omega
  have h : (List.range 21).map (fun k => (updating c w0 w1 w2 w3).rd (Reg.YEW_UMSG k)) =
      [Config.deviceId 0, Config.deviceId 1, Config.deviceId 2, Config.deviceId 3, 0xFFFF, 0, 1, 0x40, 0x01000000, 0, 0, 0, 0, 0, 0, 0, 0,
        w0, w1, w2, w3] := by
    simp [List.range, List.range.loop, State.rd, updating, amGetD, amGet, hn, h0]
  have h' : (updating c w0 w1 w2 w3).umsg =
      (((List.range 21).map (fun k => (updating c w0 w1 w2 w3).rd (Reg.YEW_UMSG k))).map wordBytes).flatten := by
    simp only [State.umsg, List.map_map]; rfl
  rw [h', h]; rfl

theorem updating_stat (c : Nat) (w0 w1 w2 w3 : Word) : (updating c w0 w1 w2 w3).testRoot = false := by
  have h : (updating c w0 w1 w2 w3).rd Reg.YEW_STAT = 0x80000000 := rfl
  rw [State.testRoot, State.rb, h]; decide

theorem updating_slot (c : Nat) (w0 w1 w2 w3 : Word) : (updating c w0 w1 w2 w3).slotOrigin 0 = 0 := by
  have hk : (updating c w0 w1 w2 w3).keySlot 0 = ⟨0, 0, []⟩ := rfl
  have hz : (updating c w0 w1 w2 w3).rootZeroed = false := rfl
  rw [State.slotOrigin, updating_stat, hk, hz]; decide

/-- The word of four bytes. -/
def wordOf (a b c d : Byte) : Word := BitVec.ofNat 32 (((a.toNat * 256 + b.toNat) * 256 + c.toNat) * 256 + d.toNat)

theorem wordBytes_wordOf (a b c d : Byte) : wordBytes (wordOf a b c d) = [a, b, c, d] := by
  have ha := a.isLt; have hb := b.isLt; have hc := c.isLt; have hd := d.isLt
  have h : (wordOf a b c d).toNat = ((a.toNat * 256 + b.toNat) * 256 + c.toNat) * 256 + d.toNat := by
    rw [wordOf, BitVec.toNat_ofNat, Nat.mod_eq_of_lt (by omega)]
  simp only [wordBytes, h, beBytes, leBytes, List.reverse_cons, List.reverse_nil, List.nil_append, List.cons_append,
    List.cons.injEq, and_true]
  refine ⟨?_, ?_, ?_, ?_⟩ <;> apply BitVec.eq_of_toNat_eq <;> rw [BitVec.toNat_ofNat] <;> omega

/-- What the decryption of that message answers. -/
def updDec : List Byte × List Byte :=
  gcmDec (kdf (List.replicate 32 0) [0x55, 0x50, 0x44, 0x54] (kctx 0)) ((updHead.drop 16).take 12) (updHead.take 36) ((updHead.drop 36).take 32)

theorem updating_tagged (c : Nat) : ∃ w0 w1 w2 w3 m, (updating c w0 w1 w2 w3).umsg = m ∧ m.take 68 = updHead ∧ (m.drop 68).take 16 = updDec.2 := by
  have hl : updDec.2.length = 16 := gcmDec_tag_length (kdf_length (by rfl) _ _) _ _ _
  match h : updDec.2, hl with
  | [a, b, c', d, e, f, g, i, j, k, l, m, n, o, p, q], _ =>
    refine ⟨wordOf a b c' d, wordOf e f g i, wordOf j k l m, wordOf n o p q, _, updating_umsg .., ?_, ?_⟩
    · rfl
    · simp only [wordBytes_wordOf]; rfl

theorem test_KeySlotsAreLoadedUpdatedAndRekeyed_update_met :
    (∃ (s : State) (m : List Byte) (t0 op : Nat) (attr : Word), s.yew.op = some .update ∧ s.inSave = false ∧ s.yewRuns = true ∧ m = s.umsg ∧
      t0 = beAt m 16 2 ∧ attr = BitVec.ofNat 32 (beAt m 28 4) ∧ op = byteAt m 32 ∧ s.rootZeroed = false ∧ s.testRoot = false ∧
      m.take 16 = deviceIdBytes ∧ beAt m 20 8 ≤ s.yew.ucnt) ∧
    (∃ (s : State) (m ak pt : List Byte) (t0 op : Nat) (attr : Word), s.yew.op = some .update ∧ s.inSave = false ∧ s.yewRuns = true ∧ m = s.umsg ∧
      t0 = beAt m 16 2 ∧ attr = BitVec.ofNat 32 (beAt m 28 4) ∧ op = byteAt m 32 ∧ s.rootZeroed = false ∧ s.testRoot = false ∧
      m.take 16 = deviceIdBytes ∧ s.yew.ucnt < beAt m 20 8 ∧ s.authKey (beAt m 18 2) t0 = some ak ∧ updFormatBad t0 op attr = false ∧
      gcmDec (kdf ak [0x55, 0x50, 0x44, 0x54] (kctx t0)) ((m.drop 16).take 12) (m.take 36) ((m.drop 36).take 32)
        = (pt, (m.drop 68).take 16) ∧ bitOf (s.slotAttr t0) 15 = false) := by
  constructor
  · exact ⟨updating 1 0 0 0 0, _, _, _, _, rfl, by rfl, updating_runs .., rfl, rfl, rfl, rfl, by rfl, by rfl, by rfl, by decide⟩
  · obtain ⟨w0, w1, w2, w3, m, h, hh, ht⟩ := updating_tagged 0
    rw [updating_umsg] at h
    refine ⟨updating 0 w0 w1 w2 w3, m, List.replicate 32 0, updDec.1, 0, 1, 0x40, rfl, by rfl, updating_runs .., by rw [updating_umsg, h],
      ?_, ?_, ?_, by rfl, updating_stat .., ?_, ?_, ?_, by rfl, ?_, ?_⟩
    · rw [← h]; rfl
    · rw [← h]; rfl
    · rw [← h]; rfl
    · rw [← h]; rfl
    · rw [← h]; exact Nat.zero_lt_one
    · rw [show beAt m 18 2 = 0xFFFF by rw [← h]; rfl, State.authKey, updating_slot]; rfl
    · rw [ht, ← h]; rfl
    · have hk : (updating 0 w0 w1 w2 w3).keySlot 0 = ⟨0, 0, []⟩ := rfl
      rw [State.slotAttr, updating_slot, hk]; decide

end Sys2Proof.Tests
end

section
/-! PROOFS. The vocabulary of the statements (sameRegs, sameTables, sameBytes, Completes): what a written bit and a hidden count
leave unchanged. -/
namespace Sys2Proof.Machine

/-- A command completes in the state that exec answers. -/
theorem Completes.of_exec {c : Instr} {s t : State} {P : State → Prop} (h : exec c s = .next t) (p : P t) : Completes c s P :=
  ⟨t, h, p⟩

/-- A write of one bit changes no register but its own. -/
theorem State.sameRegs_wb (s : State) (a i : Nat) (b : Bool) : s.sameRegs (s.wb a i b) [a] := fun _ h =>
  s.rd_wb_other i b (List.ne_of_not_mem_cons h)

/-- A table word reads from the table list alone. -/
theorem State.sameTables_of_tab {s t : State} (h : t.tab = s.tab) : s.sameTables t := fun a => by
  simp only [State.tw, h]

theorem State.sameTables_wb (s : State) (a i : Nat) (b : Bool) : s.sameTables (s.wb a i b) :=
  State.sameTables_of_tab (s.wb_tab a i b)

theorem State.sameBytes_wb (s : State) (a i : Nat) (b : Bool) : s.sameBytes (s.wb a i b) := fun _ =>
  ⟨rfl, rfl, rfl, rfl, rfl, rfl⟩

/-- The whole effect of a command that does nothing but write one bit of one register. -/
theorem State.wb_bit_and_frame (s : State) (a : Nat) {i : Nat} (b : Bool) (h : i < 32) :
    (s.wb a i b).rb a i = b ∧ s.sameRegs (s.wb a i b) [a] ∧ s.sameTables (s.wb a i b) ∧ s.sameBytes (s.wb a i b) :=
  ⟨s.rb_wb_same a i b h, s.sameRegs_wb a i b, s.sameTables_wb a i b, s.sameBytes_wb a i b⟩

/-- A hidden count of the observation port is no register. -/
@[simp] theorem State.rb_obsHidden (s : State) (k n a i : Nat) : (s.obsHidden k n).rb a i = s.rb a i := rfl

/-- A hidden count changes no table word: a frame that held before it holds after it. -/
theorem State.sameTables.obsHidden {s t : State} (h : s.sameTables t) (k n : Nat) : s.sameTables (t.obsHidden k n) := h

theorem State.sameBytes.obsHidden {s t : State} (h : s.sameBytes t) (k n : Nat) : s.sameBytes (t.obsHidden k n) := h

end Sys2Proof.Machine
end

section
/-! PROOFS. Clock gates and self-refresh (R35, R36): what each of the four commands answers when its event is due, and the statement
that follows. -/
namespace Sys2Proof.Machine

theorem gateBit_lt (i : Island) : gateBit i < 32 := by cases i <;> decide

/-- R35: an idle island is gated while AUTO is in force. -/
theorem exec_islandClockGate_idle {s : State} {i : Island} (auto : bitOf (s.force Reg.CHIP_CLKGATE) 0 = true)
    (idle : s.islandIdle i = true) : exec (.islandClockGate i) s = .next (s.wb Reg.CHIP_CLKGATE (gateBit i) true) := by
  change execIslandClockGate i s = _
  simp only [execIslandClockGate, auto, idle, Bool.and_self, if_true]

/-- R35, R525: a gated island runs again, and the port counts the restart. -/
theorem exec_islandClockRestart_gated {s : State} {i : Island} (gated : s.rb Reg.CHIP_CLKGATE (gateBit i) = true) :
    exec (.islandClockRestart i) s = .next ((s.wb Reg.CHIP_CLKGATE (gateBit i) false).obsHidden 9 1) := by
  change execIslandClockRestart i s = _
  simp only [execIslandClockRestart, gated, if_true]

/-- R36: AUTO is in force and the three conditions have held for 100 us. -/
theorem exec_dramSelfRefreshEntry_due {s : State} {q : Nat} (auto : bitOf (s.force Reg.TKT_SRCTL) 0 = true)
    (quiet : s.dramQuiet = true) (since : s.sw.quietAt = some q) (due : q + 100000 ≤ s.now) :
    exec .dramSelfRefreshEntry s = .next (s.wb Reg.TKT_SRCTL 31 true) := by
  change execDramSelfRefreshEntry s = _
  simp only [execDramSelfRefreshEntry, auto, quiet, since, due, Option.any_some, decide_true, Bool.and_self, if_true]

/-- R36: outside SAVE the DRAM leaves self-refresh when AUTO is no longer in force or a request for DRAM stands. -/
theorem exec_dramSelfRefreshExit_due {s : State} (run : s.inSave = false)
    (due : bitOf (s.force Reg.TKT_SRCTL) 0 = false ∨ s.dramAsked = true) :
    exec .dramSelfRefreshExit s = .next (s.wb Reg.TKT_SRCTL 31 false) := by
  change execDramSelfRefreshExit s = _
  have stays : (s.inSave || (bitOf (s.force Reg.TKT_SRCTL) 0 && !s.dramAsked)) = false := by
    rw [run, Bool.false_or]
    rcases due with off | asked
    · rw [off, Bool.false_and]
    · rw [asked, Bool.not_true, Bool.and_false]
  simp only [execDramSelfRefreshExit, stays, Bool.false_eq_true, if_false]

/-- Settles O21: each of the four commands, when due, writes its one status bit; the restart adds a hidden count, which is neither a
register nor a table word nor a byte. -/
theorem clockGatesAndSelfRefresh : Obligations.ClockGatesAndSelfRefresh := by
  intro s i
  refine ⟨fun auto idle => ?gate, fun gated => ?restart, fun q auto quiet since due => ?entry, fun run due => ?exit⟩
  case gate =>
    exact .of_exec (exec_islandClockGate_idle auto idle) (s.wb_bit_and_frame _ _ (gateBit_lt i))
  case restart =>
    obtain ⟨cleared, -, tables, bytes⟩ := s.wb_bit_and_frame Reg.CHIP_CLKGATE false (gateBit_lt i)
    exact .of_exec (exec_islandClockRestart_gated gated)
      ⟨by rw [State.rb_obsHidden, cleared], tables.obsHidden 9 1, bytes.obsHidden 9 1⟩
  case entry =>
    exact .of_exec (exec_dramSelfRefreshEntry_due auto quiet since due) (s.wb_bit_and_frame _ _ (by decide))
  case exit =>
    exact .of_exec (exec_dramSelfRefreshExit_due run due) (s.wb_bit_and_frame _ _ (by decide))

end Sys2Proof.Machine
end

section
/-! PROOFS. What changes and what stays: the frame of a command over registers, tables and bytes, and the pages and rows of BAR0 by
the base of the page (R41, R46). -/
namespace Sys2Proof.Machine

/-! Frames. -/

/-- From s to t no register but those listed, no table word and no byte of memory changes. -/
def State.changesOnly (s t : State) (but : List Nat) : Prop := s.sameRegs t but ∧ s.sameTables t ∧ s.sameBytes t

/-- Two states with the same registers, tables and memories. -/
theorem State.changesOnly_of_eq {s t : State} (regs : t.regs = s.regs) (tab : t.tab = s.tab) (dram : t.dram = s.dram)
    (mram : t.mram = s.mram) (lsram : t.lsram = s.lsram) (hmem : t.hmem = s.hmem) (qspi : t.qspi = s.qspi)
    (prv : t.prv = s.prv) : s.changesOnly t [] :=
  ⟨fun a _ => State.rd_congr regs a, State.sameTables_of_tab tab, fun a => by simp [dram, mram, lsram, hmem, qspi, prv]⟩

theorem State.changesOnly.refl (s : State) : s.changesOnly s [] := ⟨fun _ _ => rfl, fun _ => rfl, fun _ => ⟨rfl, rfl, rfl, rfl, rfl, rfl⟩⟩

theorem State.changesOnly.mono {s t : State} {l m : List Nat} (h : s.changesOnly t l) (sub : l ⊆ m) : s.changesOnly t m :=
  ⟨fun a ha => h.1 a fun hl => ha (sub hl), h.2⟩

theorem State.sameRegs.trans {s t u : State} {l m : List Nat} (h : s.sameRegs t l) (g : t.sameRegs u m) : s.sameRegs u (l ++ m) :=
  fun a ha => by
    rw [List.mem_append, not_or] at ha
    rw [g a ha.2, h a ha.1]

theorem State.sameTables.trans {s t u : State} (h : s.sameTables t) (g : t.sameTables u) : s.sameTables u := fun a =>
  (g a).trans (h a)

theorem State.sameBytes.trans {s t u : State} (h : s.sameBytes t) (g : t.sameBytes u) : s.sameBytes u := fun a => by
  obtain ⟨d, m, l, x, q, p⟩ := h a
  obtain ⟨d', m', l', x', q', p'⟩ := g a
  exact ⟨d'.trans d, m'.trans m, l'.trans l, x'.trans x, q'.trans q, p'.trans p⟩

theorem State.changesOnly.trans {s t u : State} {l m : List Nat} (h : s.changesOnly t l) (g : t.changesOnly u m) :
    s.changesOnly u (l ++ m) :=
  ⟨h.1.trans g.1, h.2.1.trans g.2.1, h.2.2.trans g.2.2⟩

/-- A change of listed registers alone may be followed by another. -/
theorem State.changesOnly.step {s t u : State} {l : List Nat} (h : s.changesOnly t l) (g : t.changesOnly u l) :
    s.changesOnly u l :=
  (h.trans g).mono (List.append_subset.mpr ⟨fun _ h => h, fun _ h => h⟩)

theorem State.changesOnly_wr (s : State) (a : Nat) (w : Word) : s.changesOnly (s.wr a w) [a] :=
  ⟨fun _ h => s.rd_wr_other w (List.ne_of_not_mem_cons h), State.sameTables_of_tab rfl, fun _ => ⟨rfl, rfl, rfl, rfl, rfl, rfl⟩⟩

theorem State.changesOnly_wf (s : State) (a hi lo v : Nat) : s.changesOnly (s.wf a hi lo v) [a] := s.changesOnly_wr a _

theorem State.changesOnly_wb (s : State) (a i : Nat) (b : Bool) : s.changesOnly (s.wb a i b) [a] := s.changesOnly_wr a _

theorem State.changesOnly_wrSh (s : State) (a : Nat) (w : Word) : s.changesOnly (s.wrSh a w) [] :=
  State.changesOnly_of_eq rfl rfl rfl rfl rfl rfl rfl rfl

theorem State.changesOnly_emit (s : State) (o : Out) : s.changesOnly (s.emit o) [] :=
  State.changesOnly_of_eq rfl rfl rfl rfl rfl rfl rfl rfl

/-- What leaves the block is no register. -/
@[simp] theorem State.rd_emit (s : State) (o : Out) (a : Nat) : (s.emit o).rd a = s.rd a := rfl

theorem State.changesOnly_setUnlock (s : State) (i : Initiator) (a : Nat) (u : Bool) : s.changesOnly (s.setUnlock i a u) [] :=
  State.changesOnly_of_eq rfl rfl rfl rfl rfl rfl rfl rfl

/-- A new interrupt level is no register. -/
theorem State.changesOnly_syncPage (s : State) (b : Nat) : s.changesOnly (s.syncPage b) [] :=
  State.changesOnly_of_eq (by simp) (by simp) (by simp) (by simp) (by simp) (by simp) (by simp) (by simp)

theorem State.changesOnly_syncVec (s : State) (v : Nat) : s.changesOnly (s.syncVec v) [] :=
  State.changesOnly_of_eq (by simp) (by simp) (by simp) (by simp) (by simp) (by simp) (by simp) (by simp)

/-- An event bit changes PG_IST of its page alone. -/
theorem State.changesOnly_ist (s : State) (b i : Nat) : s.changesOnly (s.ist b i) [Reg.PG_IST b] :=
  ((s.changesOnly_wb _ i true).trans (State.changesOnly_syncPage _ b)).mono (List.append_subset.mpr ⟨fun _ h => h, by simp⟩)

/-- The refresh of the vectors after a header write changes no register. -/
theorem State.changesOnly_syncHdr (t s : State) (a : Nat) : t.changesOnly (t.syncHdr s a) [] := by
  rw [State.syncHdr]
  split
  · dsimp only
    split
    · exact t.changesOnly_syncPage _
    · exact (t.changesOnly_syncPage _).step (State.changesOnly_syncVec _ _)
  · exact .refl t

/-- Nothing but a header register of a page moves an interrupt level. -/
theorem State.syncHdr_row (t s : State) {a : Nat} (h : 0x20 ≤ a % 0x1000) : t.syncHdr s a = t := by
  rw [State.syncHdr, if_neg (by omega)]

/-- A PG_IST bit that stands is not cleared by an event. -/
theorem State.rb_ist_mono {s : State} {c j : Nat} (b i : Nat) (h : s.rb (Reg.PG_IST c) j = true) (hj : j < 32) :
    (s.ist b i).rb (Reg.PG_IST c) j = true := by
  rw [State.ist, State.rb, State.rd_syncPage, ← State.rb]
  by_cases e : c = b
  · subst e
    by_cases f : j = i
    · rw [f, State.rb_wb_same _ _ _ _ (f ▸ hj)]
    · rw [State.rb_wb_apart _ _ _ _ _ f hj, h]
  · rw [State.rb_wb_other _ _ _ _ (by simpa using e), h]

/-! Pages. -/

@[simp] theorem pageBase_mod (a : Nat) : pageBase a % 0x1000 = 0 := by
  unfold pageBase
  omega

/-- The page of an offset inside the page at an aligned base. -/
theorem pageBase_add {b o : Nat} (h : b % 0x1000 = 0) (ho : o < 0x1000) : pageBase (b + o) = b := by
  unfold pageBase
  omega

/-- A register lies in the page of its base. -/
theorem pageBase_hdr {b o : Nat} (h : b % 0x1000 = 0) (ho : o < 0x1000) : pageBase (b + o) = pageBase b := by
  unfold pageBase
  omega

@[simp] theorem pageBase_pageBase (a : Nat) : pageBase (pageBase a) = pageBase a := pageBase_add (o := 0) (pageBase_mod a) (by omega)

/-- A register above the common header is no register of it. -/
theorem ne_hdr {a b o : Nat} (hb : b % 0x1000 = 0) (h : 0x100 ≤ a % 0x1000) (ho : o < 0x100) : a ≠ b + o := by omega

/-- Two registers of the common header of a page, or of two pages, differ by their offsets. -/
theorem hdr_ne_hdr {b c o p : Nat} (hb : b % 0x1000 = 0) (hc : c % 0x1000 = 0) (ho : o < 0x100) (hp : p < 0x100) (h : o ≠ p) :
    b + o ≠ c + p := by omega

theorem pageBase_add_mod (a : Nat) : pageBase a + a % 0x1000 = a := by
  unfold pageBase
  omega

/-- Runs start and end at page boundaries, so a run holds a page or does not. -/
theorem runOf_congr {a b : Nat} (h : pageBase a = pageBase b) : runOf a = runOf b := by
  have aligned : ∀ r ∈ pageRuns, r.base % 0x1000 = 0 := by decide
  refine List.find?_congr fun r hr => ?_
  have hb := aligned r hr
  unfold pageBase at h
  rw [Bool.eq_iff_iff]
  simp only [Bool.and_eq_true, decide_eq_true_eq]
  omega

theorem runOf_mem {a : Nat} {k : PageRun} (h : runOf a = some k) :
    k ∈ pageRuns ∧ k.base ≤ a ∧ a < k.base + k.count * 0x1000 := by
  have holds := List.find?_some h
  simp only [Bool.and_eq_true, decide_eq_true_eq] at holds
  exact ⟨List.mem_of_find?_eq_some h, holds⟩

/-- The registers of the ERR page are read only, cleared by a read, or write only. -/
theorem rowAt_err {a : Nat} {r : RegRow} (h : rowAt a = some r) (o : 0x100 ≤ a % 0x1000) (page : pageBase a = Reg.pgERR) :
    r.acc = .ro ∨ r.acc = .rc ∨ r.acc = .wo := by
  have rows : ∀ q ∈ pageRows .err, q.acc = .ro ∨ q.acc = .rc ∨ q.acc = .wo := by decide
  rw [rowAt, runOf_congr (b := Reg.pgERR) page, show runOf Reg.pgERR = some ⟨.err, 0x002000, 1, 2, 0, 0x3, true, false, false, false, 0x11F⟩
    from rfl] at h
  dsimp only at h
  split at h
  · exact absurd h (by simp)
  · rw [if_neg (by omega)] at h
    exact rows r (List.mem_of_find?_eq_some h)

/-- The common header lies below LAST in every page. -/
theorem rowAt_hdr {a : Nat} {k : PageRun} (h : runOf a = some k) (o : a % 0x1000 < 0x100) : rowAt a = hdrRow k (a % 0x1000) := by
  have last : ∀ r ∈ pageRuns, 0x100 ≤ r.last := by decide
  have hl := last k (runOf_mem h).1
  rw [rowAt, h]
  dsimp only
  rw [if_neg (by omega), if_pos o]

/-- No register of the common header is 64 bits wide. -/
theorem hdrRow_w64 {k : PageRun} {o : Nat} {r : RegRow} (h : hdrRow k o = some r) : r.w64 = false := by
  unfold hdrRow at h
  split_ifs at h <;> simp only [Option.some.injEq] at h <;> rw [← h]

/-- No register of the common header is the high word of a 64-bit register. -/
theorem isHigh_hdr {a : Nat} (lo : 4 ≤ a % 0x1000) (hi : a % 0x1000 < 0x100) : isHigh a = false := by
  unfold isHigh
  have o : (a - 4) % 0x1000 < 0x100 := by omega
  cases row : rowAt (a - 4) with
  | none => rfl
  | some r =>
    cases run : runOf (a - 4) with
    | none => simp [rowAt, run] at row
    | some k =>
      rw [rowAt_hdr run o] at row
      simp [hdrRow_w64 row]

/-- A register that is not on the Kykel die is reached while the Yatric die is not held in reset (R464). -/
theorem State.unreached_of_run {s : State} (run : s.pwr.held = false) (a : Nat) : s.unreached a = false := by
  rw [State.unreached, run, Bool.false_and]

/-- Every register of a page is on the die of the page. -/
theorem isKykel_congr {a b : Nat} (h : pageBase a = pageBase b) : isKykel a = isKykel b := by
  unfold pageBase at h
  unfold isKykel
  rw [decide_eq_decide]
  omega

/-- A write of a register of the Yatric die stays on its die. -/
theorem State.busWrite_yatric (s : State) (i : Initiator) {a : Nat} (v : Word) (h : isKykel a = false) :
    s.busWrite i a v = s.pageWrite regEffect i a v := by
  rw [State.busWrite, h, Bool.false_and, if_neg (by decide)]

theorem State.busRead_yatric (s : State) (i : Initiator) {a : Nat} (h : isKykel a = false) : s.busRead i a = s.pageRead i a := by
  rw [State.busRead, h, Bool.false_and, if_neg (by decide)]

end Sys2Proof.Machine
end

section
/-! PROOFS. Bus errors (R51-R54): what the error log holds after one and what it leaves alone, and the two ways a request is refused
before a register takes it: its size, and an address that no register has. -/
namespace Sys2Proof.Machine

/-- The registers a bus error at an offset may load: the log of the ERR page, and PG_ERRADDR and PG_IST of the page addressed (R53). -/
def busErrorRegs (off : Nat) : List Nat :=
  [Reg.ERR_FIRST_ADDR, Reg.ERR_FIRST_INFO, Reg.ERR_FIRST_TS, Reg.ERR_LAST_ADDR, Reg.ERR_LAST_INFO, Reg.ERR_LAST_TS, Reg.ERR_COUNT,
   Reg.PG_IST Reg.pgERR, Reg.PG_ERRADDR (pageBase off), Reg.PG_IST (pageBase off)]

theorem State.changesOnly_errFirst (s : State) (off : Nat) (info ts : Word) :
    s.changesOnly (s.errFirst off info ts) [Reg.ERR_FIRST_ADDR, Reg.ERR_FIRST_INFO, Reg.ERR_FIRST_TS] := by
  rw [State.errFirst]
  split
  · exact (State.changesOnly.refl s).mono (List.nil_subset _)
  · exact ((s.changesOnly_wr _ _).trans (State.changesOnly_wr _ _ _)).trans (State.changesOnly_wr _ _ _)

theorem State.changesOnly_errLast (s : State) (off : Nat) (info ts : Word) :
    s.changesOnly (s.errLast off info ts) [Reg.ERR_LAST_ADDR, Reg.ERR_LAST_INFO, Reg.ERR_LAST_TS, Reg.ERR_COUNT] :=
  (((s.changesOnly_wr _ _).trans (State.changesOnly_wr _ _ _)).trans (State.changesOnly_wr _ _ _)).trans (State.changesOnly_wr _ _ _)

theorem State.changesOnly_errPage (s : State) (bar off : Nat) :
    s.changesOnly (s.errPage bar off) [Reg.PG_ERRADDR (pageBase off), Reg.PG_IST (pageBase off)] := by
  rw [State.errPage]
  split
  · exact (s.changesOnly_wr _ _).trans (State.changesOnly_ist _ _ _)
  · exact (State.changesOnly.refl s).mono (List.nil_subset _)

/-- A bus error changes its log and the error registers of its page, and nothing else. -/
theorem State.changesOnly_busError (s : State) (i : Initiator) (w : Bool) (bar off c : Nat) :
    s.changesOnly (s.busError i w bar off c) (busErrorRegs off) := by
  refine (((((s.changesOnly_errFirst _ _ _).trans (State.changesOnly_errLast _ _ _ _)).trans (State.changesOnly_errPage _ bar off)).trans
    (State.changesOnly_ist _ Reg.pgERR 0)).trans (State.changesOnly_emit _ (.busError i w bar off c))).mono ?_
  intro a ha
  simp only [List.mem_append, List.mem_cons, List.not_mem_nil, or_false] at ha
  simp only [busErrorRegs, List.mem_cons, List.not_mem_nil, or_false]
  tauto

/-- Above the common header the log holds what errFirst and errLast wrote. -/
theorem State.rd_busError_log (s : State) (i : Initiator) (w : Bool) (bar off c : Nat) {a : Nat} (h : 0x100 ≤ a % 0x1000) :
    (s.busError i w bar off c).rd a
      = ((s.errFirst off (errInfo i w bar c) (BitVec.ofNat 32 s.stamp32)).errLast off (errInfo i w bar c)
          (BitVec.ofNat 32 s.stamp32)).rd a := by
  have hp := pageBase_mod off
  have page : a ∉ [Reg.PG_ERRADDR (pageBase off), Reg.PG_IST (pageBase off)] := by
    simp only [List.mem_cons, List.not_mem_nil, or_false, not_or]
    exact ⟨ne_hdr hp h (by decide), ne_hdr hp h (by decide)⟩
  rw [State.busError, State.rd_emit, State.rd_ist_other _ _ _ _ (ne_hdr (by decide) h (by decide)),
    (State.changesOnly_errPage _ bar off).1 a page]

theorem State.rd_busError_lastAddr (s : State) (i : Initiator) (w : Bool) (bar off c : Nat) :
    (s.busError i w bar off c).rd Reg.ERR_LAST_ADDR = BitVec.ofNat 32 off := by
  rw [State.rd_busError_log _ _ _ _ _ _ (by decide), State.errLast, State.rd_wr_other _ _ (by decide), State.rd_wr_other _ _ (by decide),
    State.rd_wr_other _ _ (by decide), State.rd_wr_same]

theorem State.rd_busError_lastInfo (s : State) (i : Initiator) (w : Bool) (bar off c : Nat) :
    (s.busError i w bar off c).rd Reg.ERR_LAST_INFO = errInfo i w bar c := by
  rw [State.rd_busError_log _ _ _ _ _ _ (by decide), State.errLast, State.rd_wr_other _ _ (by decide), State.rd_wr_other _ _ (by decide),
    State.rd_wr_same]

theorem State.rd_busError_lastTs (s : State) (i : Initiator) (w : Bool) (bar off c : Nat) :
    (s.busError i w bar off c).rd Reg.ERR_LAST_TS = BitVec.ofNat 32 s.stamp32 := by
  rw [State.rd_busError_log _ _ _ _ _ _ (by decide), State.errLast, State.rd_wr_other _ _ (by decide), State.rd_wr_same]

theorem State.rd_busError_count (s : State) (i : Initiator) (w : Bool) (bar off c : Nat) :
    (s.busError i w bar off c).rd Reg.ERR_COUNT = BitVec.ofNat 32 (capAt 0xFFFFFFFF ((s.rd Reg.ERR_COUNT).toNat + 1)) := by
  rw [State.rd_busError_log _ _ _ _ _ _ (by decide), State.errLast, State.rd_wr_same, (s.changesOnly_errFirst _ _ _).1 _ (by decide)]

/-- ERR_FIRST after a bus error is what errFirst left. -/
theorem State.rd_busError_first (s : State) (i : Initiator) (w : Bool) (bar off c : Nat) {a : Nat}
    (h : a ∈ [Reg.ERR_FIRST_ADDR, Reg.ERR_FIRST_INFO, Reg.ERR_FIRST_TS]) :
    (s.busError i w bar off c).rd a = (s.errFirst off (errInfo i w bar c) (BitVec.ofNat 32 s.stamp32)).rd a := by
  have apart : ∀ x ∈ [Reg.ERR_FIRST_ADDR, Reg.ERR_FIRST_INFO, Reg.ERR_FIRST_TS],
      0x100 ≤ x % 0x1000 ∧ x ∉ [Reg.ERR_LAST_ADDR, Reg.ERR_LAST_INFO, Reg.ERR_LAST_TS, Reg.ERR_COUNT] := by decide
  obtain ⟨inErr, notLast⟩ := apart a h
  rw [State.rd_busError_log _ _ _ _ _ _ inErr, (State.changesOnly_errLast _ _ _ _).1 a notLast]

/-- R54: a first error that stands is kept. -/
theorem State.rd_busError_firstKept {s : State} (i : Initiator) (w : Bool) (bar off c : Nat) (v : s.rb Reg.ERR_FIRST_INFO 31 = true)
    {a : Nat} (h : a ∈ [Reg.ERR_FIRST_ADDR, Reg.ERR_FIRST_INFO, Reg.ERR_FIRST_TS]) : (s.busError i w bar off c).rd a = s.rd a := by
  rw [State.rd_busError_first _ _ _ _ _ _ h, State.errFirst, if_pos v]

/-- R54: the first error since the clear is taken. -/
theorem State.rd_busError_firstTaken {s : State} (i : Initiator) (w : Bool) (bar off c : Nat)
    (v : s.rb Reg.ERR_FIRST_INFO 31 = false) :
    (s.busError i w bar off c).rd Reg.ERR_FIRST_ADDR = BitVec.ofNat 32 off
      ∧ (s.busError i w bar off c).rd Reg.ERR_FIRST_INFO = errInfo i w bar c
      ∧ (s.busError i w bar off c).rd Reg.ERR_FIRST_TS = BitVec.ofNat 32 s.stamp32 := by
  have invalid : ¬ s.rb Reg.ERR_FIRST_INFO 31 = true := by rw [v]; decide
  refine ⟨?firstAddr, ?firstInfo, ?firstTs⟩ <;> rw [State.rd_busError_first _ _ _ _ _ _ (by decide), State.errFirst, if_neg invalid]
  case firstAddr => rw [State.rd_wr_other _ _ (by decide), State.rd_wr_other _ _ (by decide), State.rd_wr_same]
  case firstInfo => rw [State.rd_wr_other _ _ (by decide), State.rd_wr_same]
  case firstTs => rw [State.rd_wr_same]

/-- R53: the ERR page reports every error. -/
theorem State.rb_busError_any (s : State) (i : Initiator) (w : Bool) (bar off c : Nat) :
    (s.busError i w bar off c).rb (Reg.PG_IST Reg.pgERR) 0 = true := by
  rw [State.busError, State.rb, State.rd_emit]
  exact State.rb_ist_same _ _ _ (by decide)

/-- R53: where the page addressed exists it reports the error and its offset. -/
theorem State.busError_page (s : State) (i : Initiator) (w : Bool) {off : Nat} (c : Nat) (page : (runOf off).isSome = true) :
    (s.busError i w 0 off c).rd (Reg.PG_ERRADDR (pageBase off)) = BitVec.ofNat 32 (0x80000000 + off % 0x1000)
      ∧ (s.busError i w 0 off c).rb (Reg.PG_IST (pageBase off)) 31 = true := by
  have hp := pageBase_mod off
  have loaded : ∀ t : State, t.errPage 0 off
      = (t.wr (Reg.PG_ERRADDR (pageBase off)) (BitVec.ofNat 32 (0x80000000 + off % 0x1000))).ist (pageBase off) 31 := fun t => by
    rw [State.errPage, if_pos ⟨rfl, page⟩]
  constructor
  · rw [State.busError, loaded, State.rd_emit, State.rd_ist_other _ _ _ _ (hdr_ne_hdr hp (by decide) (by decide) (by decide) (by decide)),
      State.rd_ist_other _ _ _ _ (hdr_ne_hdr hp hp (by decide) (by decide) (by decide)), State.rd_wr_same]
  · rw [State.busError, loaded, State.rb, State.rd_emit]
    exact State.rb_ist_mono Reg.pgERR 0 (State.rb_ist_same _ _ _ (by decide)) (by decide)

/-- R52: the initiator is answered with the error. -/
theorem State.mem_outbox_busError (s : State) (i : Initiator) (w : Bool) (bar off c : Nat) :
    .busError i w bar off c ∈ (s.busError i w bar off c).outbox := by
  rw [State.busError, State.emit]
  exact List.mem_append_right _ (List.mem_singleton_self _)

/-- An error at an address without a page changes the ERR page alone. -/
theorem State.rd_busError_noPage (s : State) (i : Initiator) (w : Bool) {bar off c a : Nat} (page : runOf off = none)
    (h : pageBase a ≠ Reg.pgERR) : (s.busError i w bar off c).rd a = s.rd a := by
  have notErr : ∀ x, pageBase x = Reg.pgERR → a ≠ x := fun x hx e => h (e ▸ hx)
  have notPage : ∀ t : State, t.errPage bar off = t := fun t => by rw [State.errPage, page, if_neg (by simp)]
  have out : ∀ l : List Nat, (∀ x ∈ l, pageBase x = Reg.pgERR) → a ∉ l := fun l hl ha => notErr a (hl a ha) rfl
  rw [State.busError, notPage, State.rd_emit, State.rd_ist_other _ _ _ _ (notErr _ rfl),
    (State.changesOnly_errLast _ _ _ _).1 a (out _ (by decide)), (s.changesOnly_errFirst _ _ _).1 a (out _ (by decide))]

/-! Requests of a bad size (R43). -/

theorem sizeBad_of {off words : Nat} {allBytes : Bool} (h : words ≠ 1 ∨ allBytes = false ∨ off % 4 ≠ 0) :
    sizeBad off words allBytes = true := by
  rcases h with h | h | h <;> simp [sizeBad, h]

theorem sizeBad_word {off : Nat} (h : off % 4 = 0) : sizeBad off 1 true = false := by simp [sizeBad, h]

/-- The log after a SIZE error: a write among them has ended its initiator's unlock, which is no register (log entry 4). -/
theorem State.sizeError_eq {s : State} (run : s.pwr.held = false) (i : Initiator) (w : Bool) (a : Nat) :
    s.sizeError i w a = (if w then s.setUnlock i a false else s).busError i w 0 a cSIZE := by
  rw [State.sizeError, State.unreached_of_run run, if_neg (by decide)]

/-- R43: the log, the answer and the frame of a SIZE error. -/
theorem State.sizeError_logged {s : State} (run : s.pwr.held = false) (i : Initiator) (w : Bool) (off : Nat) :
    (s.sizeError i w off).rd Reg.ERR_LAST_ADDR = BitVec.ofNat 32 off
      ∧ (s.sizeError i w off).rd Reg.ERR_LAST_INFO = errInfo i w 0 cSIZE
      ∧ (s.sizeError i w off).rd Reg.ERR_COUNT = BitVec.ofNat 32 (capAt 0xFFFFFFFF ((s.rd Reg.ERR_COUNT).toNat + 1))
      ∧ (s.sizeError i w off).rb (Reg.PG_IST Reg.pgERR) 0 = true
      ∧ .busError i w 0 off cSIZE ∈ (s.sizeError i w off).outbox
      ∧ s.sameTables (s.sizeError i w off) ∧ s.sameBytes (s.sizeError i w off) := by
  rw [State.sizeError_eq run]
  have relocked : s.changesOnly (if w then s.setUnlock i off false else s) [] := by
    cases w
    · exact .refl s
    · exact s.changesOnly_setUnlock i off false
  refine ⟨State.rd_busError_lastAddr _ _ _ _ _ _, State.rd_busError_lastInfo _ _ _ _ _ _, ?_, State.rb_busError_any _ _ _ _ _ _,
    State.mem_outbox_busError _ _ _ _ _ _, (relocked.trans (State.changesOnly_busError _ _ _ _ _ _)).2⟩
  rw [State.rd_busError_count, relocked.1 _ (List.not_mem_nil)]

/-- Settles O1: the write and the read of a bad size are the same error, apart from their direction. -/
theorem requestOfBadSizeIsABusError : Obligations.RequestOfBadSizeIsABusError := by
  intro s init off words allBytes v run bad
  have size := sizeBad_of bad
  constructor
  · refine .of_exec (t := s.sizeError init true off) ?_ (State.sizeError_logged run init true off)
    change execRegisterWrite init off words allBytes v s = _
    rw [execRegisterWrite, if_pos size]
  · refine .of_exec (t := s.sizeError init false off) ?_ (State.sizeError_logged run init false off)
    change execLowWordReadLatch init off words allBytes s = _
    rw [execLowWordReadLatch, if_pos size]

/-! Addresses that no register has (R51). -/

/-- A write that no row takes is a bus error of cause UNMAPPED, wherever in a page it lies. -/
theorem State.busWrite_unmapped {s : State} {i : Initiator} {a : Nat} {v : Word} (reach : s.unreached a = false)
    (row : rowAt a = none) (yatric : (isKykel a && (runOf a).isSome) = false) :
    ∃ u, s.busWrite i a v = u.busError i true 0 a cUNMAPPED ∧ s.changesOnly u [] ∧ u.stamp32 = s.stamp32 := by
  rw [State.busWrite, yatric, if_neg (by decide), State.pageWrite, reach, if_neg (by decide), State.writeAt, row]
  by_cases key : a % 0x1000 = 0x28
  · exact ⟨s, by simp [key, cUNMAPPED], .refl s, rfl⟩
  · exact ⟨s.setUnlock i a false, by simp [key, cUNMAPPED], s.changesOnly_setUnlock i a false, rfl⟩

/-- Settles O2: each register of the log after an UNMAPPED error, by the rules for a bus error. -/
theorem unmappedWriteIsLoggedInTheErrPage : Obligations.UnmappedWriteIsLoggedInTheErrPage := by
  intro s init off v reach aligned row yatric
  obtain ⟨u, written, ⟨regs, tables, bytes⟩, stamp⟩ := s.busWrite_unmapped (i := init) (v := v) reach row yatric
  have same : ∀ a, u.rd a = s.rd a := fun a => regs a List.not_mem_nil
  have firstBit : u.rb Reg.ERR_FIRST_INFO 31 = s.rb Reg.ERR_FIRST_INFO 31 := by rw [State.rb, same, State.rb]
  refine .of_exec (t := u.busError init true 0 off cUNMAPPED) ?_ ⟨State.rd_busError_lastAddr _ _ _ _ _ _,
    State.rd_busError_lastInfo _ _ _ _ _ _, ?_, ?_, State.rb_busError_any _ _ _ _ _ _, fun valid => ?_, fun valid => ?_,
    State.busError_page _ _ _ _, fun page a ha => ?_, ?_, ?_⟩
  · change execRegisterWrite init off 1 true v s = _
    rw [execRegisterWrite, sizeBad_word aligned, if_neg (by decide), written]
  · rw [State.rd_busError_lastTs, stamp]
  · rw [State.rd_busError_count, same]
  · have kept := fun a => State.rd_busError_firstKept (a := a) init true 0 off cUNMAPPED (firstBit.trans valid)
    exact ⟨(kept _ (by decide)).trans (same _), (kept _ (by decide)).trans (same _), (kept _ (by decide)).trans (same _)⟩
  · rw [← stamp]
    exact State.rd_busError_firstTaken init true 0 off cUNMAPPED (firstBit.trans valid)
  · rw [State.rd_busError_noPage _ _ _ page ha, same]
  · exact tables.trans (State.changesOnly_busError _ _ _ _ _ _).2.1
  · exact bytes.trans (State.changesOnly_busError _ _ _ _ _ _).2.2

end Sys2Proof.Machine
end

section
/-! PROOFS. Masked merges, bit by bit: what a write under a mask of writable bits holds (R5, R6). -/
namespace Sys2Proof.Machine

/-- Numbers without a common bit add without a carry. -/
theorem add_eq_or_of_disjoint {x y : Nat} (h : x &&& y = 0) : x + y = x ||| y := by
  have hx : x < 2 ^ (x + y) := lt_of_le_of_lt (Nat.le_add_right x y) Nat.lt_two_pow_self
  have hy : y < 2 ^ (x + y) := lt_of_le_of_lt (Nat.le_add_left y x) Nat.lt_two_pow_self
  have disjoint : BitVec.ofNat (x + y) x &&& BitVec.ofNat (x + y) y = 0#(x + y) := by
    rw [← BitVec.ofNat_and, h]
  have sum := BitVec.toNat_add_of_and_eq_zero disjoint
  rw [BitVec.add_eq_or_of_and_eq_zero _ _ disjoint, BitVec.toNat_or, BitVec.toNat_ofNat, BitVec.toNat_ofNat, Nat.mod_eq_of_lt hx,
    Nat.mod_eq_of_lt hy] at sum
  exact sum.symm

/-- Bit j of a number without the bits of a mask. -/
theorem sub_and_testBit (n m j : Nat) : (n - (n &&& m)).testBit j = (n.testBit j && !m.testBit j) := by
  have disjoint : (n &&& m) &&& n.ldiff m = 0 := Nat.eq_of_testBit_eq fun i => by
    rw [Nat.testBit_and, Nat.testBit_and, Nat.testBit_ldiff, Nat.zero_testBit]
    cases n.testBit i <;> cases m.testBit i <;> rfl
  have parts : (n &&& m) + n.ldiff m = n := (add_eq_or_of_disjoint disjoint).trans <| Nat.eq_of_testBit_eq fun i => by
    rw [Nat.testBit_or, Nat.testBit_and, Nat.testBit_ldiff]
    cases n.testBit i <;> cases m.testBit i <;> rfl
  rw [show n - (n &&& m) = n.ldiff m by omega, Nat.testBit_ldiff]

/-- A masked merge takes each bit from one side. -/
theorem nmerge_testBit (old new wm j : Nat) :
    (nmerge old new wm).testBit j = if wm.testBit j then new.testBit j else old.testBit j := by
  have disjoint : (old - (old &&& wm)) &&& (new &&& wm) = 0 := Nat.eq_of_testBit_eq fun i => by
    rw [Nat.testBit_and, Nat.testBit_and, sub_and_testBit, Nat.zero_testBit]
    cases old.testBit i <;> cases wm.testBit i <;> simp
  rw [nmerge, add_eq_or_of_disjoint disjoint, Nat.testBit_or, Nat.testBit_and, sub_and_testBit]
  cases wm.testBit j <;> simp

/-- A merge of words is a word. -/
theorem nmerge_lt {old new : Nat} (wm : Nat) (ho : old < 2 ^ 32) (hn : new < 2 ^ 32) : nmerge old new wm < 2 ^ 32 := by
  refine Nat.lt_pow_two_of_testBit _ fun i hi => ?_
  rw [nmerge_testBit, Nat.testBit_lt_two_pow (lt_of_lt_of_le ho (Nat.pow_le_pow_right (by decide) hi)),
    Nat.testBit_lt_two_pow (lt_of_lt_of_le hn (Nat.pow_le_pow_right (by decide) hi)), ite_self]

theorem toNat_ofNat_nmerge (old new : Word) (wm : Nat) :
    (BitVec.ofNat 32 (nmerge old.toNat new.toNat wm)).toNat = nmerge old.toNat new.toNat wm := by
  rw [BitVec.toNat_ofNat, Nat.mod_eq_of_lt (nmerge_lt wm old.isLt new.isLt)]

/-- A merge of a number with itself is that number. -/
@[simp] theorem nmerge_self (n wm : Nat) : nmerge n n wm = n := Nat.eq_of_testBit_eq fun j => by rw [nmerge_testBit, ite_self]

/-- No writable bit: the old number stays. -/
@[simp] theorem nmerge_zero (old new : Nat) : nmerge old new 0 = old := by simp [nmerge]

/-- Merging the same bits twice is merging them once. -/
theorem nmerge_idem (old new wm : Nat) : nmerge (nmerge old new wm) new wm = nmerge old new wm := Nat.eq_of_testBit_eq fun j => by
  rw [nmerge_testBit, nmerge_testBit]
  split <;> rfl

end Sys2Proof.Machine
end

section
/-! PROOFS. Writes of BAR0 registers (R44-R47, R51, R58, R61): what a write stores under each access code, what each refusal leaves, and
the commands of the register bus as such writes. -/
namespace Sys2Proof.Machine

/-! The store of an access code. -/

/-- What a write of v leaves in a register of row r that held old: the writable bits of v, without the W1C bits written 1 (R5, R6). -/
def RegRow.written (r : RegRow) (old v : Word) : Word :=
  BitVec.ofNat 32 (nmerge old.toNat v.toNat r.wm - (nmerge old.toNat v.toNat r.wm &&& (v.toNat &&& r.w1)))

/-- Without W1C bits a write merges. -/
theorem RegRow.written_merge {r : RegRow} (h : r.w1 = 0) (old v : Word) :
    r.written old v = BitVec.ofNat 32 (nmerge old.toNat v.toNat r.wm) := by simp [RegRow.written, h]

/-- A register written directly: RW, or RWG once the key is accepted. -/
theorem State.store_direct (s : State) (i : Initiator) {r : RegRow} {a : Nat} (v : Word) (iset : a % 0x1000 ≠ 0x18)
    (acc : r.acc = .rw ∨ r.acc = .rwg) (one : r.w64 = false) (low : isHigh a = false) :
    s.store i r a v = s.wr a (r.written (s.rd a) v) := by
  rcases acc with acc | acc <;>
    simp only [State.store, if_neg iset, acc, one, low, Bool.false_eq_true, if_false, toNat_ofNat_nmerge, RegRow.written]

/-- The low word of a 64-bit register is held for its writer (R44). -/
theorem State.store_low (s : State) (i : Initiator) {r : RegRow} {a : Nat} (v : Word) (iset : a % 0x1000 ≠ 0x18)
    (acc : r.acc = .rw ∨ r.acc = .rwg) (wide : r.w64 = true) :
    s.store i r a v = { s with bus := { s.bus with low := amPut s.bus.low (ikey i a) v } } := by
  rcases acc with acc | acc <;> simp only [State.store, if_neg iset, acc, wide, if_true]

/-- The state without the low word that i holds for address a. -/
def State.dropLow (s : State) (i : Initiator) (a : Nat) : State :=
  { s with bus := { s.bus with low := amDel s.bus.low (ikey i a) } }

/-- The high word of a 64-bit register goes in force with the low word that its writer holds (R44). -/
theorem State.store_high_held (s : State) (i : Initiator) {r rl : RegRow} {a : Nat} {w : Word} (v : Word) (iset : a % 0x1000 ≠ 0x18)
    (acc : r.acc = .rw ∨ r.acc = .rwg) (one : r.w64 = false) (high : isHigh a = true) (row : rowAt (a - 4) = some rl)
    (held : amGet s.bus.low (ikey i (a - 4)) = some w) :
    s.store i r a v = ((s.wr (a - 4) (BitVec.ofNat 32 (nmerge (s.rd (a - 4)).toNat w.toNat rl.wm))).dropLow i (a - 4)).wr a
      (BitVec.ofNat 32 (nmerge ((s.wr (a - 4) (BitVec.ofNat 32 (nmerge (s.rd (a - 4)).toNat w.toNat rl.wm))).rd a).toNat v.toNat r.wm)) := by
  rcases acc with acc | acc <;>
    (simp only [State.store, if_neg iset, acc, one, high, Bool.false_eq_true, if_false, if_true, row, held]; rfl)

/-- Without a held low word the high word changes alone (R44). -/
theorem State.store_high_alone (s : State) (i : Initiator) {r : RegRow} {a : Nat} (v : Word) (iset : a % 0x1000 ≠ 0x18)
    (acc : r.acc = .rw ∨ r.acc = .rwg) (one : r.w64 = false) (high : isHigh a = true) (free : amGet s.bus.low (ikey i (a - 4)) = none) :
    s.store i r a v = s.wr a (BitVec.ofNat 32 (nmerge (s.rd a).toNat v.toNat r.wm)) := by
  rcases acc with acc | acc <;>
    simp only [State.store, if_neg iset, acc, one, high, Bool.false_eq_true, if_false, if_true, free]

/-- A shadowed register without W1C bits: its shadow is merged and PEND is set (R58). -/
theorem State.store_shadowed (s : State) (i : Initiator) {r : RegRow} {a : Nat} (v : Word) (iset : a % 0x1000 ≠ 0x18)
    (acc : r.acc = .rws) (w1 : r.w1 = 0) :
    s.store i r a v
      = (s.wrSh a (BitVec.ofNat 32 (nmerge (s.rdSh a).toNat v.toNat r.wm))).wb (Reg.PG_CSTAT (pageBase a)) 31 true := by
  simp only [State.store, if_neg iset, acc, w1, if_true]

/-- A register that is read only or write only stores nothing. -/
theorem State.store_none (s : State) (i : Initiator) {r : RegRow} {a : Nat} (v : Word) (iset : a % 0x1000 ≠ 0x18)
    (acc : r.acc = .ro ∨ r.acc = .rc ∨ r.acc = .wo) : s.store i r a v = s := by
  rcases acc with acc | acc | acc <;> simp only [State.store, if_neg iset, acc]

/-- PG_ISET sets the defined bits of PG_IST (R47). -/
theorem State.store_iset (s : State) (i : Initiator) (r : RegRow) {a : Nat} (v : Word) (iset : a % 0x1000 = 0x18) {k : PageRun}
    (run : runOf a = some k) :
    s.store i r a v = s.wr (Reg.PG_IST (pageBase a))
      (BitVec.ofNat 32 ((s.rd (Reg.PG_IST (pageBase a))).toNat ||| (v.toNat &&& istMask k.cls))) := by
  simp only [State.store, if_pos iset, run]

@[simp] theorem State.rdSh_wrSh_same (s : State) (a : Nat) (w : Word) : (s.wrSh a w).rdSh a = w := amGetD_set_same _ _ _ _

/-- A word put in force is no shadow. -/
@[simp] theorem State.rdSh_wr (s : State) (a b : Nat) (w : Word) : (s.wr a w).rdSh b = s.rdSh b := rfl

@[simp] theorem State.rdSh_wb (s : State) (a i : Nat) (x : Bool) (b : Nat) : (s.wb a i x).rdSh b = s.rdSh b := rfl

/-! Unlocks (R61). -/

theorem Initiator.code_inj {i j : Initiator} (h : i.code = j.code) : i = j := by
  cases i <;> cases j <;> simp_all [Initiator.code]

/-- What initiators hold for one address is held apart. -/
theorem ikey_inj {i j : Initiator} {a : Nat} (h : ikey i a = ikey j a) : i = j := by
  unfold ikey at h
  exact Initiator.code_inj (by omega)

theorem nsMem_add_other (l : List Nat) {k j : Nat} (h : j ≠ k) : nsMem (nsAdd l k) j = nsMem l j := by
  induction l with
  | nil => simp [nsAdd, nsMem, Ne.symm h]
  | cons a r ih =>
    simp only [nsMem] at ih ⊢
    rw [nsAdd]
    split_ifs
    · rfl
    · simp [Ne.symm h]
    · rw [List.any_cons, List.any_cons, ih]

theorem State.isUnlocked_congr (s : State) (i : Initiator) {a b : Nat} (h : pageBase a = pageBase b) :
    s.isUnlocked i a = s.isUnlocked i b := by rw [State.isUnlocked, State.isUnlocked, h]

theorem State.setUnlock_congr (s : State) (i : Initiator) {a b : Nat} (u : Bool) (h : pageBase a = pageBase b) :
    s.setUnlock i a u = s.setUnlock i b u := by rw [State.setUnlock, State.setUnlock, h]

theorem State.isUnlocked_setUnlock (s : State) (i : Initiator) (a : Nat) (u : Bool) : (s.setUnlock i a u).isUnlocked i a = u := by
  cases u
  · exact nsMem_del _ _
  · exact nsMem_add _ _

/-- The unlock of one initiator is not that of another. -/
theorem State.isUnlocked_setUnlock_other (s : State) {i j : Initiator} (a : Nat) (h : j ≠ i) :
    (s.setUnlock i a true).isUnlocked j a = s.isUnlocked j a :=
  nsMem_add_other _ fun e => h (ikey_inj e)

theorem State.isUnlocked_bus {s t : State} (h : t.bus = s.bus) (i : Initiator) (a : Nat) : t.isUnlocked i a = s.isUnlocked i a := by
  rw [State.isUnlocked, h, State.isUnlocked]

/-! Accepted writes. -/

/-- A write of a page has the effect of a write of one named register. -/
theorem State.pageWrite_eq_cmdWrite (eff : Initiator → Nat → Word → State → State) (s : State) (i : Initiator) (a : Nat) (v : Word) :
    s.pageWrite eff i a v = s.cmdWrite i a v (eff i a v) := rfl

/-- A write that a register above the common header takes: its store, then the effect of its page. -/
theorem State.busWrite_row {s : State} {i : Initiator} {a : Nat} {v : Word} {r : RegRow} (run : s.pwr.held = false)
    (yatric : isKykel a = false) (row : rowAt a = some r) (o : 0x100 ≤ a % 0x1000)
    (guard : r.acc = .rwg → s.isUnlocked i a = true) (shadow : r.acc = .rws → s.rb (Reg.PG_CGRP (pageBase a)) 8 = false)
    (keep : (s.setUnlock i a false).discards i a v = false) :
    s.busWrite i a v = regEffect i a v ((s.setUnlock i a false).store i r a v) := by
  rw [State.busWrite_yatric _ _ _ yatric, State.pageWrite_eq_cmdWrite,
    State.cmdWrite_ok _ _ _ _ _ _ (State.unreached_of_run run a) row (by omega) guard shadow, keep, if_neg (by decide),
    State.syncHdr_row _ _ (by omega)]

/-- The same write of a named command whose effect is f. -/
theorem State.cmdWrite_row {s : State} {i : Initiator} {a : Nat} {v : Word} {f : State → State} {r : RegRow} (run : s.pwr.held = false)
    (row : rowAt a = some r) (o : 0x100 ≤ a % 0x1000) (guard : r.acc = .rwg → s.isUnlocked i a = true)
    (shadow : r.acc = .rws → s.rb (Reg.PG_CGRP (pageBase a)) 8 = false) (keep : (s.setUnlock i a false).discards i a v = false) :
    s.cmdWrite i a v f = f ((s.setUnlock i a false).store i r a v) := by
  rw [State.cmdWrite_ok _ _ _ _ _ _ (State.unreached_of_run run a) row (by omega) guard shadow, keep, if_neg (by decide),
    State.syncHdr_row _ _ (by omega)]

/-- No write of a header register is discarded. -/
theorem State.discards_hdr (s : State) (i : Initiator) {a : Nat} (v : Word) (h : a % 0x1000 < 0x100) : s.discards i a v = false := by
  have above : ∀ n, 0x100 ≤ n → decide (n ≤ a % 0x1000) = false := fun n hn => decide_eq_false (by omega)
  have apart : ∀ n, 0x100 ≤ n → (a % 0x1000 == n) = false := fun n hn => beq_eq_false_iff_ne.mpr (by omega)
  unfold State.discards
  dsimp only [Reg.LRL_REQ, Reg.CHIP_RSTCTL, Reg.TMP_SWCFG, Reg.TMP_MESHCFG]
  rw [if_neg (by omega)]
  split_ifs
  · rw [above 0x180 (by decide), Bool.false_and, Bool.false_and]
  · omega
  · omega
  · omega
  · rw [above 0x200 (by decide), Bool.false_and, Bool.false_and]
  · rw [apart 0x108 (by decide), apart 0x10C (by decide), apart 0x110 (by decide), apart 0x118 (by decide)]
    rfl
  · omega
  · rfl

/-- No page acts on a write of a header register but of PG_IST, and there the LRL page alone does (R485). -/
theorem regEffect_hdr {i : Initiator} {a : Nat} {v : Word} {s : State} {k : PageRun} (run : runOf a = some k) (h : a % 0x1000 < 0x100)
    (ist : k.cls = .lrl → a % 0x1000 ≠ 0x10) : regEffect i a v s = s := by
  simp only [regEffect, run]
  cases cls : k.cls <;> simp (disch := omega) only [effChip, effCmt, effErr, effObs, effPair, effCanc, effPrvctl, effPrvrte, effPrvsig,
    effPrvpdu, effBrm, effClm, effTpe, effEmac, effSwc, effQmg, effTkt, effPol, effMact, effLpm, effTsy, effCry, effMsec, effCauth, effYew,
    effHif, effHq, effDma, effDmach, effXpl, effPwr, effWkn, effTrx, effT1sp, effTmp, Reg.EMAC_ANCTL, if_neg]
  case lrl =>
    have event := ist cls
    simp (disch := omega) only [effLrl, if_neg]

end Sys2Proof.Machine
end

section
/-! PROOFS. The common header and the guarded and shadowed registers of a page (R46, R47, R51, R58, R61), and the statements about
them. -/
namespace Sys2Proof.Machine

/-! Writes of the common header. -/

/-- A header register is neither guarded nor shadowed. -/
theorem hdrRow_acc {k : PageRun} {o : Nat} {r : RegRow} (h : hdrRow k o = some r) : r.acc ≠ .rwg ∧ r.acc ≠ .rws := by
  unfold hdrRow at h
  split_ifs at h <;> simp only [Option.some.injEq] at h <;> simp [← h]

/-- The state in which a write of header register a by i, which ends the unlock, has put w in register c of the page. -/
def State.hdrWritten (s : State) (i : Initiator) (a c : Nat) (w : Word) : State :=
  ((s.setUnlock i a false).wr c w).syncHdr (s.setUnlock i a false) a

theorem State.rd_hdrWritten (s : State) (i : Initiator) (a c : Nat) (w : Word) : (s.hdrWritten i a c w).rd c = w := by
  rw [State.hdrWritten, (State.changesOnly_syncHdr _ _ _).1 _ List.not_mem_nil, State.rd_wr_same]

theorem State.changesOnly_hdrWritten (s : State) (i : Initiator) (a c : Nat) (w : Word) : s.changesOnly (s.hdrWritten i a c w) [c] :=
  (((s.changesOnly_setUnlock i a false).trans (State.changesOnly_wr _ c w)).trans (State.changesOnly_syncHdr _ _ a)).mono (by simp)

theorem State.hdrWritten_lrl (s : State) (i : Initiator) (a c : Nat) (w : Word) : (s.hdrWritten i a c w).lrl = s.lrl := by
  rw [State.hdrWritten, State.syncHdr]
  dsimp only
  split_ifs <;> simp

/-- A write of a header register other than PG_UNLK. -/
theorem State.busWrite_hdr {s : State} {a : Nat} {k : PageRun} {r : RegRow} (i : Initiator) (v : Word) (run : s.pwr.held = false)
    (yatric : isKykel a = false) (page : runOf a = some k) (o : a % 0x1000 < 0x100) (key : a % 0x1000 ≠ 0x28)
    (row : hdrRow k (a % 0x1000) = some r) :
    s.busWrite i a v
      = regEffect i a v (((s.setUnlock i a false).store i r a v).syncHdr (s.setUnlock i a false) a) := by
  obtain ⟨guarded, shadowed⟩ := hdrRow_acc row
  rw [State.busWrite_yatric _ _ _ yatric, State.pageWrite_eq_cmdWrite,
    State.cmdWrite_ok _ _ _ _ _ r (State.unreached_of_run run a) ((rowAt_hdr page o).trans row) key (fun h => absurd h guarded)
      (fun h => absurd h shadowed), State.discards_hdr _ _ _ o, if_neg (by decide)]

/-- A write of an RW register of the header. -/
theorem State.busWrite_hdr_rw {s : State} {a : Nat} {k : PageRun} {r : RegRow} (i : Initiator) (v : Word) (run : s.pwr.held = false)
    (yatric : isKykel a = false) (page : runOf a = some k) (o : a % 0x1000 < 0x100) (lo : 4 ≤ a % 0x1000)
    (row : hdrRow k (a % 0x1000) = some r) (acc : r.acc = .rw) (key : a % 0x1000 ≠ 0x28) (iset : a % 0x1000 ≠ 0x18) :
    s.busWrite i a v = regEffect i a v (s.hdrWritten i a a (r.written (s.rd a) v)) := by
  rw [State.busWrite_hdr i v run yatric page o key row, State.store_direct _ _ _ iset (.inl acc) (hdrRow_w64 row) (isHigh_hdr lo o)]
  rfl

section
variable {s : State} {b : Nat} {k : PageRun} (i : Initiator) (v : Word) (run : s.pwr.held = false) (page : runOf b = some k)
  (aligned : b % 0x1000 = 0) (yatric : isKykel b = false)
include run page aligned yatric

/-- PG_IEN takes the bits the page defines (R46). -/
theorem State.busWrite_ien :
    (s.busWrite i (Reg.PG_IEN b) v).rd (Reg.PG_IEN b) = BitVec.ofNat 32 (nmerge (s.rd (Reg.PG_IEN b)).toNat v.toNat (istMask k.cls))
      ∧ s.changesOnly (s.busWrite i (Reg.PG_IEN b) v) [Reg.PG_IEN b] := by
  have samePage : pageBase (Reg.PG_IEN b) = pageBase b := pageBase_hdr aligned (by decide)
  have off : Reg.PG_IEN b % 0x1000 = 0x14 := by dsimp only [Reg.PG_IEN]; omega
  have page' := (runOf_congr samePage).trans page
  rw [State.busWrite_hdr_rw (r := ⟨0x14, 4, 1, 4, 1, .rw, istMask k.cls, 0, 0, false⟩) i v run ((isKykel_congr samePage).trans yatric) page'
    (by omega) (by omega) (by rw [off]; rfl) rfl (by omega) (by omega), regEffect_hdr page' (by omega) (fun _ => by omega),
    RegRow.written_merge rfl]
  exact ⟨State.rd_hdrWritten _ _ _ _ _, s.changesOnly_hdrWritten _ _ _ _⟩

/-- PG_ISET sets the defined bits in PG_IST (R47). -/
theorem State.busWrite_iset :
    (s.busWrite i (Reg.PG_ISET b) v).rd (Reg.PG_IST b)
        = BitVec.ofNat 32 ((s.rd (Reg.PG_IST b)).toNat ||| (v.toNat &&& istMask k.cls))
      ∧ s.changesOnly (s.busWrite i (Reg.PG_ISET b) v) [Reg.PG_IST b] := by
  have base : pageBase (Reg.PG_ISET b) = b := pageBase_add aligned (by decide)
  have samePage : pageBase (Reg.PG_ISET b) = pageBase b := pageBase_hdr aligned (by decide)
  have off : Reg.PG_ISET b % 0x1000 = 0x18 := by dsimp only [Reg.PG_ISET]; omega
  have page' := (runOf_congr samePage).trans page
  rw [State.busWrite_hdr (r := ⟨0x18, 4, 1, 4, 1, .wo, 0, 0, 0, false⟩) i v run ((isKykel_congr samePage).trans yatric) page'
    (by omega) (by omega) (by rw [off]; rfl), regEffect_hdr page' (by omega) (fun _ => by omega), State.store_iset _ _ _ _ off page', base]
  exact ⟨State.rd_hdrWritten _ _ _ _ _, s.changesOnly_hdrWritten _ _ _ _⟩

/-- PG_IST loses the defined bits written 1; then its page acts. -/
theorem State.busWrite_ist :
    s.busWrite i (Reg.PG_IST b) v = regEffect i (Reg.PG_IST b) v (s.hdrWritten i (Reg.PG_IST b) (Reg.PG_IST b)
      (BitVec.ofNat 32 ((s.rd (Reg.PG_IST b)).toNat - ((s.rd (Reg.PG_IST b)).toNat &&& (v.toNat &&& istMask k.cls))))) := by
  have samePage : pageBase (Reg.PG_IST b) = pageBase b := pageBase_hdr aligned (by decide)
  have off : Reg.PG_IST b % 0x1000 = 0x10 := by dsimp only [Reg.PG_IST]; omega
  rw [State.busWrite_hdr_rw (r := ⟨0x10, 4, 1, 4, 1, .rw, 0, istMask k.cls, 0, false⟩) i v run ((isKykel_congr samePage).trans yatric)
    ((runOf_congr samePage).trans page) (by omega) (by omega) (by rw [off]; rfl) rfl (by omega) (by omega), RegRow.written, nmerge_zero]

/-- On every page but LRL the clear of PG_IST has no other effect (R47). -/
theorem State.busWrite_ist_clears (other : b ≠ Reg.pgLRL) :
    (s.busWrite i (Reg.PG_IST b) v).rd (Reg.PG_IST b) = BitVec.ofNat 32
        ((s.rd (Reg.PG_IST b)).toNat - ((s.rd (Reg.PG_IST b)).toNat &&& (v.toNat &&& istMask k.cls)))
      ∧ s.changesOnly (s.busWrite i (Reg.PG_IST b) v) [Reg.PG_IST b] := by
  have samePage : pageBase (Reg.PG_IST b) = pageBase b := pageBase_hdr aligned (by decide)
  have off : Reg.PG_IST b % 0x1000 = 0x10 := by dsimp only [Reg.PG_IST]; omega
  have lrl : ∀ r ∈ pageRuns, r.cls = .lrl → r.base = Reg.pgLRL ∧ r.count = 1 := by decide
  have notLrl : k.cls ≠ .lrl := fun h => by
    obtain ⟨inRuns, lo, hi⟩ := runOf_mem page
    obtain ⟨base, count⟩ := lrl k inRuns h
    rw [count, base] at hi
    rw [base] at lo
    dsimp only [Reg.pgLRL] at lo hi other
    omega
  rw [State.busWrite_ist i v run page aligned yatric,
    regEffect_hdr ((runOf_congr samePage).trans page) (by omega) (fun h => absurd h notLrl)]
  exact ⟨State.rd_hdrWritten _ _ _ _ _, s.changesOnly_hdrWritten _ _ _ _⟩

/-- PG_UNLK takes the key, and any other value locks the page and is an error (R61). -/
theorem State.busWrite_unlk :
    s.busWrite i (Reg.PG_UNLK b) v
      = if v.toNat = unlockKey then s.setUnlock i b true
        else (s.setUnlock i b false).busError i true 0 (Reg.PG_UNLK b) cBADKEY := by
  have samePage : pageBase (Reg.PG_UNLK b) = pageBase b := pageBase_hdr aligned (by decide)
  have off : Reg.PG_UNLK b % 0x1000 = 0x28 := by dsimp only [Reg.PG_UNLK]; omega
  have row : rowAt (Reg.PG_UNLK b) = some ⟨0x28, 4, 1, 4, 1, .wo, 0, 0, 0, false⟩ := by
    rw [rowAt_hdr ((runOf_congr samePage).trans page) (by omega), off]
    rfl
  rw [State.busWrite_yatric _ _ _ ((isKykel_congr samePage).trans yatric), State.pageWrite, State.unreached_of_run run,
    if_neg (by decide), State.writeAt, row]
  simp only [off, if_true, State.setUnlock_congr _ _ _ samePage]
  split <;> simp [cBADKEY]

end

/-- On the LRL page EVT stands while events wait (R485). -/
theorem State.busWrite_ist_lrl {s : State} (i : Initiator) (v : Word) {k : PageRun} (run : s.pwr.held = false)
    (page : runOf Reg.pgLRL = some k) :
    (s.lrl.ev ≠ [] → (s.busWrite i (Reg.PG_IST Reg.pgLRL) v).rb (Reg.PG_IST Reg.pgLRL) 1 = true)
      ∧ (s.lrl.ev = [] → (s.busWrite i (Reg.PG_IST Reg.pgLRL) v).rd (Reg.PG_IST Reg.pgLRL) = BitVec.ofNat 32
        ((s.rd (Reg.PG_IST Reg.pgLRL)).toNat - ((s.rd (Reg.PG_IST Reg.pgLRL)).toNat &&& (v.toNat &&& istMask k.cls))))
      ∧ s.changesOnly (s.busWrite i (Reg.PG_IST Reg.pgLRL) v) [Reg.PG_IST Reg.pgLRL] := by
  rw [State.busWrite_ist i v run page (by decide) (by decide)]
  generalize BitVec.ofNat 32 ((s.rd (Reg.PG_IST Reg.pgLRL)).toNat - _) = w
  have clear : s.changesOnly (s.hdrWritten i (Reg.PG_IST Reg.pgLRL) (Reg.PG_IST Reg.pgLRL) w) [Reg.PG_IST Reg.pgLRL] :=
    s.changesOnly_hdrWritten _ _ _ _
  have effect : ∀ t : State, regEffect i (Reg.PG_IST Reg.pgLRL) v t = lrlIstWrite t := fun _ => rfl
  rw [effect, lrlIstWrite, State.hdrWritten_lrl]
  cases ev : s.lrl.ev with
  | nil =>
    exact ⟨fun h => absurd rfl h, fun _ => State.rd_hdrWritten _ _ _ _ _, clear⟩
  | cons e rest =>
    exact ⟨fun _ => State.rb_ist_same _ _ _ (by decide), fun h => absurd h (by simp), clear.step (State.changesOnly_ist _ _ _)⟩

/-- Settles O3: every register write completes, and each header write of a Yatric page is the write the lemmas above describe. -/
theorem registerWriteTakesEffectUnderItsAccessCode : Obligations.RegisterWriteTakesEffectUnderItsAccessCode := by
  intro s init b k v
  refine ⟨fun _ _ _ => .of_exec rfl trivial, .of_exec rfl trivial, fun _ => .of_exec rfl trivial, .of_exec rfl trivial,
    .of_exec rfl trivial, fun page aligned yatric run => ?_⟩
  have base : pageBase b = b := pageBase_add (o := 0) aligned (by decide)
  refine ⟨.of_exec (t := s.busWrite init (Reg.PG_IEN b) v) ?_ (State.busWrite_ien init v run page aligned yatric),
    .of_exec (t := s.busWrite init (Reg.PG_ISET b) v) ?_ (State.busWrite_iset init v run page aligned yatric),
    fun other => .of_exec (t := s.busWrite init (Reg.PG_IST b) v) ?_ (State.busWrite_ist_clears init v run page aligned yatric other),
    fun lrl => .of_exec (t := s.busWrite init (Reg.PG_IST b) v) ?_ ?_⟩
  · change execRegisterWrite init (Reg.PG_IEN b) 1 true v s = _
    rw [execRegisterWrite, sizeBad_word (by dsimp only [Reg.PG_IEN]; omega), if_neg (by decide)]
  · change execInterruptSet init b v s = _
    rw [execInterruptSet, base]
  · change execInterruptStatusClear init b v s = _
    rw [execInterruptStatusClear, base]
  · change execInterruptStatusClear init b v s = _
    rw [execInterruptStatusClear, base]
  · subst lrl
    exact State.busWrite_ist_lrl init v run page

/-! Guarded and shadowed registers. -/

theorem State.isUnlocked_wr (s : State) (j : Initiator) (a b : Nat) (w : Word) : (s.wr a w).isUnlocked j b = s.isUnlocked j b :=
  State.isUnlocked_bus (s.wr_bus a w) j b

/-- The held low words are not the unlocks. -/
theorem State.isUnlocked_low (s : State) (j : Initiator) (b : Nat) (l : List (Nat × Word)) :
    { s with bus := { s.bus with low := l } }.isUnlocked j b = s.isUnlocked j b := by
  rw [State.isUnlocked, State.isUnlocked]

/-- A store leaves every unlock. -/
theorem State.isUnlocked_store (s : State) (i j : Initiator) (r : RegRow) (a b : Nat) (v : Word) :
    (s.store i r a v).isUnlocked j b = s.isUnlocked j b := by
  have shadow : ∀ (t : State) (w : Word) (c : Nat), ((t.wrSh a w).wb c 31 true).isUnlocked j b = t.isUnlocked j b := fun t w c =>
    (State.isUnlocked_wr _ _ _ _ _).trans (State.isUnlocked_bus (t.wrSh_bus a w) j b)
  unfold State.store
  dsimp only
  repeat' split
  all_goals simp only [State.isUnlocked_wr, State.isUnlocked_low, shadow]

/-- A register above the header that is neither read only, nor cleared by a read, nor write only is not one the error log loads. -/
theorem not_mem_busErrorRegs {a : Nat} {r : RegRow} (row : rowAt a = some r) (o : 0x100 ≤ a % 0x1000)
    (acc : r.acc = .rw ∨ r.acc = .rws ∨ r.acc = .rwg) (off : Nat) : a ∉ busErrorRegs off := by
  have hp := pageBase_mod off
  have notErr : pageBase a ≠ Reg.pgERR := fun page => by
    rcases rowAt_err row o page with h | h | h <;> rw [h] at acc <;> simp at acc
  have apart : ∀ x, pageBase x = Reg.pgERR → a ≠ x := fun x hx e => notErr (e ▸ hx)
  simp only [busErrorRegs, List.mem_cons, List.not_mem_nil, or_false, not_or]
  exact ⟨apart _ rfl, apart _ rfl, apart _ rfl, apart _ rfl, apart _ rfl, apart _ rfl, apart _ rfl, apart _ rfl,
    ne_hdr hp o (by decide), ne_hdr hp o (by decide)⟩

/-- A guarded write without the unlock (R51, R61). -/
theorem State.busWrite_locked {s : State} {i : Initiator} {a : Nat} {v : Word} {r : RegRow} (run : s.pwr.held = false)
    (yatric : isKykel a = false) (row : rowAt a = some r) (o : 0x100 ≤ a % 0x1000) (guarded : r.acc = .rwg)
    (locked : s.isUnlocked i a = false) : s.busWrite i a v = (s.setUnlock i a false).busError i true 0 a cLOCKED := by
  rw [State.busWrite_yatric _ _ _ yatric,
    State.pageWrite_locked _ _ _ _ _ r (State.unreached_of_run run a) row (by omega) guarded locked]

/-- A write of a shadowed register while SHLOCK stands (R58). -/
theorem State.busWrite_shadowOff {s : State} {i : Initiator} {a : Nat} {v : Word} {r : RegRow} (run : s.pwr.held = false)
    (yatric : isKykel a = false) (row : rowAt a = some r) (o : 0x100 ≤ a % 0x1000) (shadowed : r.acc = .rws)
    (shlock : s.rb (Reg.PG_CGRP (pageBase a)) 8 = true) :
    s.busWrite i a v = (s.setUnlock i a false).busError i true 0 a cSHADOW_OFF := by
  have stands : (s.setUnlock i a false).rb (Reg.PG_CGRP (pageBase a)) 8 = true := shlock
  have key : a % 0x1000 ≠ 0x28 := by omega
  rw [State.busWrite_yatric _ _ _ yatric, State.pageWrite, State.unreached_of_run run, if_neg (by decide), State.writeAt, row]
  simp [shadowed, stands, key, cSHADOW_OFF]

/-- The page of a register that has a row. -/
theorem runOf_of_rowAt {a : Nat} {r : RegRow} (row : rowAt a = some r) : ∃ k, runOf a = some k := by
  cases run : runOf a with
  | none => simp [rowAt, run] at row
  | some k => exact ⟨k, rfl⟩

/-- Settles O5: the key and another value at PG_UNLK, and a guarded write with and without the unlock. -/
theorem unlockGuardsTheNextWriteOfThePage : Obligations.UnlockGuardsTheNextWriteOfThePage := by
  intro s init b k v page aligned yatric run
  have base : pageBase b = b := pageBase_add (o := 0) aligned (by decide)
  have unlk := State.busWrite_unlk init v run page aligned yatric
  have written : exec (.unlockKeyWrite init b v) s = .next (s.busWrite init (Reg.PG_UNLK b) v) := by
    change execUnlockKeyWrite init b v s = _
    rw [execUnlockKeyWrite, base]
  have pageUnlk : pageBase (Reg.PG_UNLK b) = b := pageBase_add aligned (by decide)
  refine ⟨fun key => ?key, fun key => ?badKey, fun off r inPage word o row guarded => ⟨fun unlocked keep => ?unlocked, fun locked => ?locked⟩⟩
  case key =>
    rw [unlk, if_pos key] at written
    exact .of_exec written ⟨State.isUnlocked_setUnlock _ _ _ _, fun j hj => State.isUnlocked_setUnlock_other _ _ hj, fun _ _ => rfl⟩
  case badKey =>
    rw [unlk, if_neg key] at written
    have logged := State.busError_page (s.setUnlock init b false) init true cBADKEY (off := Reg.PG_UNLK b)
      (by rw [runOf_congr (pageUnlk.trans base.symm), page]; rfl)
    rw [pageUnlk] at logged
    exact .of_exec written ⟨(State.isUnlocked_bus (State.busError_bus _ _ _ _ _ _) _ _).trans (State.isUnlocked_setUnlock _ _ _ _),
      State.rd_busError_lastAddr _ _ _ _ _ _, State.rd_busError_lastInfo _ _ _ _ _ _, logged.2⟩
  all_goals
    have samePage : pageBase off = pageBase b := inPage.trans base.symm
    have onYatric : isKykel off = false := (isKykel_congr samePage).trans yatric
    have written : exec (.guardedWrite init off v) s = .next (s.busWrite init off v) := by
      change execGuardedWrite init off v s = _
      rw [execGuardedWrite, sizeBad_word word, if_neg (by decide)]
  case unlocked =>
    rw [State.busWrite_row run onYatric row o (fun _ => (s.isUnlocked_congr init samePage).trans unlocked)
      (fun h => by simp [guarded] at h) (by rw [State.setUnlock_congr _ _ _ samePage, keep]),
      State.setUnlock_congr _ _ _ samePage] at written
    refine .of_exec written ⟨rfl, (State.isUnlocked_store _ _ _ _ _ _ _).trans (State.isUnlocked_setUnlock _ _ _ _), fun one low => ?_⟩
    rw [State.store_direct _ _ _ (by omega) (.inr guarded) one low, State.rd_wr_same]
    rfl
  case locked =>
    rw [State.busWrite_locked run onYatric row o guarded ((s.isUnlocked_congr init samePage).trans locked)] at written
    have kept := State.changesOnly_busError (s.setUnlock init off false) init true 0 off cLOCKED
    have logged := State.busError_page (s.setUnlock init off false) init true cLOCKED (off := off)
      (by rw [runOf_congr samePage, page]; rfl)
    rw [inPage] at logged
    exact .of_exec written ⟨State.rd_busError_lastAddr _ _ _ _ _ _, State.rd_busError_lastInfo _ _ _ _ _ _,
      kept.1 off (not_mem_busErrorRegs row o (.inr (.inr guarded)) off), logged.2, kept.2⟩

/-- Settles O6: one clause for each access code of the register written. -/
theorem shadowWriteWaitsForTheCommit : Obligations.ShadowWriteWaitsForTheCommit := by
  intro s init off v r row word o yatric run
  have aligned := pageBase_mod off
  have onYatric : isKykel (pageBase off) = false := (isKykel_congr (pageBase_pageBase off)).trans yatric
  obtain ⟨k, page⟩ := runOf_of_rowAt row
  have pageRun : runOf (pageBase off) = some k := (runOf_congr (pageBase_pageBase off)).trans page
  refine ⟨fun direct one low keep => ?direct, fun guarded one low unlocked keep => ?guarded, fun key => ?key, fun other k' page' => ?clear,
    fun shadowed w1 shlock keep => ?shadowed, fun shadowed shlock => ?shadowOff⟩
  case direct =>
    have written : exec (.registerWrite init off 1 true v) s = .next (s.busWrite init off v) := by
      change execRegisterWrite init off 1 true v s = _
      rw [execRegisterWrite, sizeBad_word word, if_neg (by decide)]
    rw [State.busWrite_row run yatric row o (fun h => by simp [direct] at h) (fun h => by simp [direct] at h) keep] at written
    refine .of_exec written ⟨rfl, ?_⟩
    rw [State.store_direct _ _ _ (by omega) (.inl direct) one low]
    exact ⟨State.rd_wr_same _ _ _, ((s.changesOnly_setUnlock init off false).trans (State.changesOnly_wr _ _ _)).1⟩
  case guarded =>
    have written : exec (.guardedWrite init off v) s = .next (s.busWrite init off v) := by
      change execGuardedWrite init off v s = _
      rw [execGuardedWrite, sizeBad_word word, if_neg (by decide)]
    rw [State.busWrite_row run yatric row o (fun _ => unlocked) (fun h => by simp [guarded] at h) keep] at written
    refine .of_exec written ⟨rfl, ?_⟩
    rw [State.isUnlocked_store, State.isUnlocked_setUnlock, State.store_direct _ _ _ (by omega) (.inr guarded) one low]
    exact ⟨State.rd_wr_same _ _ _, rfl, ((s.changesOnly_setUnlock init off false).trans (State.changesOnly_wr _ _ _)).1⟩
  case key =>
    have written : exec (.unlockKeyWrite init off v) s = .next (s.busWrite init (Reg.PG_UNLK (pageBase off)) v) := rfl
    rw [State.busWrite_unlk init v run pageRun aligned onYatric, if_pos key] at written
    exact .of_exec written ⟨(State.isUnlocked_congr _ _ (pageBase_pageBase off).symm).trans (State.isUnlocked_setUnlock _ _ _ _),
      s.changesOnly_setUnlock init _ true⟩
  case clear =>
    obtain ⟨cleared, regs, -⟩ := State.busWrite_ist_clears init v run ((runOf_congr (pageBase_pageBase off)).trans page') aligned onYatric other
    exact .of_exec rfl ⟨cleared, regs⟩
  all_goals
    have written : exec (.shadowWrite init off v) s = .next (s.busWrite init off v) := by
      change execShadowWrite init off v s = _
      rw [execShadowWrite, sizeBad_word word, if_neg (by decide)]
  case shadowed =>
    rw [State.busWrite_row run yatric row o (fun h => by simp [shadowed] at h) (fun _ => shlock) keep] at written
    refine .of_exec written ⟨rfl, ?_⟩
    rw [State.store_shadowed _ _ _ (by omega) shadowed w1]
    exact ⟨(State.rdSh_wb _ _ _ _ _).trans (State.rdSh_wrSh_same _ _ _), State.rb_wb_same _ _ _ _ (by decide),
      (((s.changesOnly_setUnlock init off false).trans (State.changesOnly_wrSh _ _ _)).trans (State.changesOnly_wb _ _ _ _)).1⟩
  case shadowOff =>
    rw [State.busWrite_shadowOff run yatric row o shadowed shlock] at written
    have kept := State.changesOnly_busError (s.setUnlock init off false) init true 0 off cSHADOW_OFF
    have shadow : (((s.setUnlock init off false).busError init true 0 off cSHADOW_OFF).rdSh off) = s.rdSh off := by
      rw [State.rdSh, State.busError_shadow, State.setUnlock_shadow, State.rdSh]
    exact .of_exec written ⟨State.rd_busError_lastInfo _ _ _ _ _ _, shadow,
      kept.1 off (not_mem_busErrorRegs row o (.inr (.inl shadowed)) off), kept.2⟩

end Sys2Proof.Machine
end

section
/-! PROOFS. Reads of BAR0 registers and the 64-bit registers (R44, R45, R53, R54): what a read answers, which words it latches for its
initiator, and the low words held for a writer. -/
namespace Sys2Proof.Machine

/-! Reads. -/

/-- Initiator i holds word w latched for address a. -/
def State.latch (s : State) (i : Initiator) (a : Nat) (w : Word) : State :=
  { s with bus := { s.bus with latch := amPut s.bus.latch (ikey i a) w } }

theorem State.changesOnly_latch (s : State) (i : Initiator) (a : Nat) (w : Word) : s.changesOnly (s.latch i a w) [] :=
  State.changesOnly_of_eq rfl rfl rfl rfl rfl rfl rfl rfl

theorem State.latch_outbox (s : State) (i : Initiator) (a : Nat) (w : Word) : (s.latch i a w).outbox = s.outbox := rfl

theorem State.amGet_latch_same (s : State) (i : Initiator) (a : Nat) (w : Word) :
    amGet (s.latch i a w).bus.latch (ikey i a) = some w := amGet_put_same _ _ _

theorem State.amGet_latch_other (s : State) (i : Initiator) {a b : Nat} (w : Word) (h : b ≠ a) :
    amGet (s.latch i a w).bus.latch (ikey i b) = amGet s.bus.latch (ikey i b) :=
  amGet_put_other _ _ fun e => h (by unfold ikey at e; omega)

/-- A read of a register without a side effect of its own: the answer and the latches. -/
theorem State.busRead_row {s : State} {i : Initiator} {a : Nat} {r : RegRow} (run : s.pwr.held = false) (yatric : isKykel a = false)
    (row : rowAt a = some r) (pop : a ≠ Reg.LRL_EVPOP) :
    s.busRead i a = (if r.acc = .rc then (s.loadLatches i r a).wr a 0 else s.loadLatches i r a).emit
      (.readData i 0 a [s.readSeen i r a]) := by
  rw [State.busRead_yatric _ _ yatric, State.pageRead, State.unreached_of_run run, if_neg (by decide), State.readAt, row]
  simp only [if_neg pop]

/-- Nothing to latch. -/
theorem State.loadLatches_nil {s : State} {i : Initiator} {r : RegRow} {a : Nat} (latched : latchedBy r a = []) :
    s.loadLatches i r a = s := by rw [State.loadLatches, latched, List.foldl_nil]

/-- One word to latch. -/
theorem State.loadLatches_one {s : State} {i : Initiator} {r rb : RegRow} {a b : Nat} (latched : latchedBy r a = [b])
    (row : rowAt b = some rb) : s.loadLatches i r a = s.latch i b (s.readReg i rb b) := by
  simp only [State.loadLatches, latched, List.foldl_cons, List.foldl_nil, row]
  rfl

/-- Two words to latch. -/
theorem State.loadLatches_two {s : State} {i : Initiator} {r rb rc : RegRow} {a b c : Nat} (latched : latchedBy r a = [b, c])
    (rowB : rowAt b = some rb) (rowC : rowAt c = some rc) :
    s.loadLatches i r a
      = (s.latch i b (s.readReg i rb b)).latch i c ((s.latch i b (s.readReg i rb b)).readReg i rc c) := by
  simp only [State.loadLatches, latched, List.foldl_cons, List.foldl_nil, rowB, rowC]
  rfl

/-- What a reader without a latch sees of a register that is no view and is not shadowed. -/
theorem State.readReg_plain {s : State} {i : Initiator} {r : RegRow} {a : Nat} (plain : s.derived i a = none)
    (acc : r.acc = .ro ∨ r.acc = .rc) : s.readReg i r a = s.rd a := by
  rcases acc with acc | acc <;> simp only [State.readReg, plain, acc]

theorem State.readSeen_unlatched {s : State} {i : Initiator} (r : RegRow) {a : Nat} (h : amGet s.bus.latch (ikey i a) = none) :
    s.readSeen i r a = s.readReg i r a := by rw [State.readSeen, h]

/-- Settles O8: the two reads of the log and the write of ERR_CLR. -/
theorem errorLogReadsAndClear : Obligations.ErrorLogReadsAndClear := by
  intro s init v run
  refine ⟨fun free => ?count, fun free => ?lastAddr, ?clear⟩
  case count =>
    have row : rowAt Reg.ERR_COUNT = some ⟨0x118, 4, 1, 4, 1, .rc, 0x0, 0x0, 0x0, false⟩ := rfl
    have read := State.busRead_row (i := init) run rfl row (by decide)
    rw [if_pos rfl, State.loadLatches_nil rfl, State.readSeen_unlatched _ free, State.readReg_plain rfl (.inr rfl)] at read
    refine .of_exec (congrArg Host.Outcome.next read) ⟨(State.rd_emit _ _ _).trans (State.rd_wr_same _ _ _), rfl, ?_⟩
    exact (s.changesOnly_wr _ _).trans (State.changesOnly_emit _ _)
  case lastAddr =>
    have row : rowAt Reg.ERR_LAST_ADDR = some ⟨0x10C, 4, 1, 4, 1, .ro, 0x0, 0x0, 0x0, false⟩ := rfl
    have read := State.busRead_row (i := init) run rfl row (by decide)
    have rowInfo : rowAt Reg.ERR_LAST_INFO = some ⟨0x110, 4, 1, 4, 1, .ro, 0x0, 0x0, 0x0, false⟩ := rfl
    have rowTs : rowAt Reg.ERR_LAST_TS = some ⟨0x114, 4, 1, 4, 1, .ro, 0x0, 0x0, 0x0, false⟩ := rfl
    rw [if_neg (by decide), State.loadLatches_two rfl rowInfo rowTs, State.readSeen_unlatched _ free,
      State.readReg_plain rfl (.inl rfl), State.readReg_plain rfl (.inl rfl), State.readReg_plain rfl (.inl rfl)] at read
    refine .of_exec (congrArg Host.Outcome.next read) ⟨?_, ?_, rfl, ?_⟩
    · exact (State.amGet_latch_other _ _ _ (by decide)).trans (State.amGet_latch_same _ _ _ _)
    · exact State.amGet_latch_same _ _ _ _
    · exact ((s.changesOnly_latch _ _ _).trans (State.changesOnly_latch _ _ _ _)).trans (State.changesOnly_emit _ _)
  case clear =>
    have row : rowAt Reg.ERR_CLR = some ⟨0x11C, 4, 1, 4, 1, .wo, 0x0, 0x0, 0x0, false⟩ := rfl
    have written := State.busWrite_row (i := init) (v := v) run rfl row (by decide) (fun h => by simp at h) (fun h => by simp at h) rfl
    rw [State.store_none _ _ _ (by decide) (.inr (.inr rfl))] at written
    have effect : ∀ t : State, regEffect init Reg.ERR_CLR v t = errClrWrite v t := fun _ => rfl
    rw [effect, errClrWrite] at written
    refine .of_exec (congrArg Host.Outcome.next written) ?_
    cases bit : bitOf v 0 with
    | true =>
      exact ⟨fun _ => State.rb_wb_same _ _ _ _ (by decide), fun h => by simp at h,
        (s.changesOnly_setUnlock _ _ _).trans (State.changesOnly_wb _ _ _ _)⟩
    | false =>
      exact ⟨fun h => by simp at h, fun _ => (s.changesOnly_setUnlock _ _ _).1, (s.changesOnly_setUnlock _ _ _).mono (by simp)⟩

/-! 64-bit registers. -/

/-- The high word of a writable 64-bit register. -/
theorem isHigh_of {lo : Nat} {r : RegRow} (row : rowAt lo = some r) (wide : r.w64 = true) (acc : r.acc = .rw) :
    isHigh (lo + 4) = true := by
  rw [isHigh, Nat.add_sub_cancel, row]
  simp [wide, acc]

/-- Both words after a write of the high word by the holder of the low one (R44). -/
theorem State.store_high_both {s : State} {i : Initiator} {r rh : RegRow} {lo : Nat} {v w : Word} (row : rowAt lo = some r)
    (iset : (lo + 4) % 0x1000 ≠ 0x18) (wide : r.w64 = true) (acc : r.acc = .rw) (acch : rh.acc = .rw) (one : rh.w64 = false)
    (held : amGet s.bus.low (ikey i lo) = some w) :
    (s.store i rh (lo + 4) v).rd (lo + 4) = BitVec.ofNat 32 (nmerge (s.rd (lo + 4)).toNat v.toNat rh.wm)
      ∧ (s.store i rh (lo + 4) v).rd lo = BitVec.ofNat 32 (nmerge (s.rd lo).toNat w.toNat r.wm)
      ∧ amGet (s.store i rh (lo + 4) v).bus.low (ikey i lo) = none := by
  have rd_dropLow : ∀ (t : State) (a b : Nat), (t.dropLow i a).rd b = t.rd b := fun _ _ _ => rfl
  rw [State.store_high_held (rl := r) s i v iset (.inl acch) one (isHigh_of row wide acc) row held, Nat.add_sub_cancel]
  refine ⟨?_, ?_, amGet_del_same _ _⟩
  · rw [State.rd_wr_same, State.rd_wr_other _ _ (by omega)]
  · rw [State.rd_wr_other _ _ (by omega), rd_dropLow, State.rd_wr_same]

section
variable {s : State} {init : Initiator} {v : Word} {lo : Nat} {r rh : RegRow} (run : s.pwr.held = false) (row : rowAt lo = some r)
  (rowh : rowAt (lo + 4) = some rh) (wide : r.w64 = true) (word : lo % 4 = 0) (o : 0x100 ≤ lo % 0x1000) (yatric : isKykel lo = false)
  (samePage : pageBase (lo + 4) = pageBase lo)
include run row word yatric

/-- R44: a read of the low word latches the high word for its reader. -/
theorem lowWordRead_latches (rowh : rowAt (lo + 4) = some rh) (latched : latchedBy r lo = [lo + 4]) (acc : r.acc ≠ .rc) :
    Completes (.lowWordReadLatch init lo 1 true) s fun t =>
      amGet t.bus.latch (ikey init (lo + 4)) = some (s.readReg init rh (lo + 4))
        ∧ t.outbox = s.outbox ++ [.readData init 0 lo [s.readSeen init r lo]] ∧ s.changesOnly t [] := by
  have notPop : lo ≠ Reg.LRL_EVPOP := fun e => by
    have popRow : rowAt Reg.LRL_EVPOP = some ⟨0x110, 4, 1, 4, 1, .rc, 0x0, 0x0, 0x0, false⟩ := rfl
    rw [e, popRow, Option.some.injEq] at row
    exact acc (row ▸ rfl)
  refine .of_exec (t := (s.latch init (lo + 4) (s.readReg init rh (lo + 4))).emit (.readData init 0 lo [s.readSeen init r lo])) ?_
    ⟨State.amGet_latch_same _ _ _ _, rfl, (s.changesOnly_latch _ _ _).trans (State.changesOnly_emit _ _)⟩
  change execLowWordReadLatch init lo 1 true s = _
  rw [execLowWordReadLatch, sizeBad_word word, if_neg (by decide), State.busRead_row run yatric row notPop, if_neg acc,
    State.loadLatches_one latched rowh]

include o

/-- R44: a write of the low word waits for the high word. -/
theorem lowWordWrite_held (wide : r.w64 = true) (acc : r.acc = .rw) (keep : (s.setUnlock init lo false).discards init lo v = false) :
    Completes (.lowWordWriteHold init lo v) s fun t =>
      t = regEffect init lo v ((s.setUnlock init lo false).store init r lo v)
        ∧ amGet ((s.setUnlock init lo false).store init r lo v).bus.low (ikey init lo) = some v
        ∧ s.sameRegs ((s.setUnlock init lo false).store init r lo v) [] := by
  refine .of_exec (t := regEffect init lo v ((s.setUnlock init lo false).store init r lo v)) ?_ ⟨rfl, ?_⟩
  · change execLowWordWriteHold init lo v s = _
    rw [execLowWordWriteHold, sizeBad_word word, if_neg (by decide),
      State.busWrite_row run yatric row o (fun h => by simp [acc] at h) (fun h => by simp [acc] at h) keep]
  · rw [State.store_low _ _ _ (by omega) (.inl acc) wide]
    exact ⟨amGet_put_same _ _ _, fun _ _ => rfl⟩

include rowh wide samePage

/-- R44: a write of the high word, with a held low word or without one. -/
theorem highWordWrite_stores (acc : r.acc = .rw) (acch : rh.acc = .rw) (one : rh.w64 = false)
    (keep : (s.setUnlock init lo false).discards init (lo + 4) v = false) :
    Completes (.highWordWrite init (lo + 4) v) s fun t =>
      t = regEffect init (lo + 4) v ((s.setUnlock init lo false).store init rh (lo + 4) v)
        ∧ ((s.setUnlock init lo false).store init rh (lo + 4) v).rd (lo + 4)
            = BitVec.ofNat 32 (nmerge (s.rd (lo + 4)).toNat v.toNat rh.wm)
        ∧ (∀ w, amGet s.bus.low (ikey init lo) = some w →
            ((s.setUnlock init lo false).store init rh (lo + 4) v).rd lo = BitVec.ofNat 32 (nmerge (s.rd lo).toNat w.toNat r.wm)
            ∧ amGet ((s.setUnlock init lo false).store init rh (lo + 4) v).bus.low (ikey init lo) = none)
        ∧ (amGet s.bus.low (ikey init lo) = none → ((s.setUnlock init lo false).store init rh (lo + 4) v).rd lo = s.rd lo) := by
  have oh : 0x100 ≤ (lo + 4) % 0x1000 := by
    unfold pageBase at samePage
    omega
  have iset : (lo + 4) % 0x1000 ≠ 0x18 := by omega
  have lows : ∀ w, amGet (s.setUnlock init lo false).bus.low (ikey init lo) = w ↔ amGet s.bus.low (ikey init lo) = w := fun _ => Iff.rfl
  refine .of_exec (t := regEffect init (lo + 4) v ((s.setUnlock init lo false).store init rh (lo + 4) v)) ?_ ⟨rfl, ?_⟩
  · change execHighWordWrite init (lo + 4) v s = _
    rw [execHighWordWrite, sizeBad_word (by omega), if_neg (by decide),
      State.busWrite_row run ((isKykel_congr samePage).trans yatric) rowh oh (fun h => by simp [acch] at h) (fun h => by simp [acch] at h)
        (by rw [State.setUnlock_congr _ _ _ samePage, keep]), State.setUnlock_congr _ _ _ samePage]
  · cases held : amGet s.bus.low (ikey init lo) with
    | some w =>
      obtain ⟨high, low, ended⟩ := State.store_high_both (v := v) row iset wide acc acch one ((lows _).mpr held)
      refine ⟨high, fun x hx => ?_, fun h => by simp at h⟩
      rw [← Option.some.inj hx]
      exact ⟨low, ended⟩
    | none =>
      rw [State.store_high_alone _ _ _ iset (.inl acch) one (isHigh_of row wide acc) ((lows _).mpr held)]
      exact ⟨State.rd_wr_same _ _ _, fun w h => by simp at h, fun _ => State.rd_wr_other _ _ (by omega)⟩

end

end Sys2Proof.Machine
end

section
/-! PROOFS. Sparse lists with some keys left out: what the keys that stay read as. -/
namespace Sys2Proof.Machine
variable {β : Type}

/-- A listed value is an entry of its list. -/
theorem mem_of_amGet {m : List (Nat × β)} {k : Nat} {w : β} (h : amGet m k = some w) : (k, w) ∈ m := by
  induction m with
  | nil => simp at h
  | cons p r ih =>
    obtain ⟨a, x⟩ := p
    rw [amGet] at h
    split at h
    next e => rw [e, Option.some.inj h]; exact List.mem_cons_self
    next => exact List.mem_cons_of_mem _ (ih h)

/-- A filter by the key keeps the keys it accepts and no other. -/
theorem amGet_filter (f : Nat → Bool) (m : List (Nat × β)) (k : Nat) :
    amGet (m.filter fun p => f p.1) k = if f k then amGet m k else none := by
  induction m with
  | nil => simp
  | cons p r ih =>
    obtain ⟨a, x⟩ := p
    by_cases e : a = k
    · subst e
      cases h : f a <;> simp [h, amGet, ih]
    · cases h : f a <;> simp [h, amGet, ih, e]

theorem amGet_delRange (m : List (Nat × β)) (lo hi k : Nat) :
    amGet (amDelRange m lo hi) k = if lo ≤ k ∧ k < hi then none else amGet m k := by
  rw [amDelRange, amGet_filter fun k => !(decide (lo ≤ k) && decide (k < hi))]
  by_cases h : lo ≤ k ∧ k < hi
  · simp [h]
  · have kept : (!(decide (lo ≤ k) && decide (k < hi))) = true := by
      rw [Bool.not_eq_true', Bool.and_eq_false_iff, decide_eq_false_iff_not, decide_eq_false_iff_not]
      omega
    rw [if_neg h, if_pos kept]

/-- Entries put at the keys of a range: each reads as what was put there. -/
theorem amGet_putRange (key : Nat → Nat) (val : Nat → β) (inj : ∀ i j, key i = key j → i = j) (m : List (Nat × β)) {n j : Nat} (h : j < n) :
    amGet ((List.range n).foldl (fun m k => amPut m (key k) (val k)) m) (key j) = some (val j) := by
  induction n with
  | zero => omega
  | succ n ih =>
    rw [List.range_succ, List.foldl_append, List.foldl_cons, List.foldl_nil]
    by_cases e : j = n
    · rw [e, amGet_put_same]
    · rw [amGet_put_other _ _ fun x => e (inj j n x), ih (by omega)]

end Sys2Proof.Machine
end

section
/-! PROOFS. The tables of BAR2 (R65-R69): what a request of one word stages, writes or discards, and what a read of an entry answers
and latches. -/
namespace Sys2Proof.Machine

/-! Updates of table words alone. -/

/-- From s to t no more than words of the tables change. -/
def State.tabOnly (s t : State) : Prop := t = { s with tab := t.tab }

theorem State.tabOnly.refl (s : State) : s.tabOnly s := rfl

theorem State.tabOnly.trans {s t u : State} (h : s.tabOnly t) (g : t.tabOnly u) : s.tabOnly u := by
  rw [State.tabOnly] at h g ⊢
  rw [g, h]

theorem State.tabOnly_setTw (s : State) (a : Nat) (w : Word) : s.tabOnly (s.setTw a w) := rfl

theorem State.tabOnly.sameRegs {s t : State} (h : s.tabOnly t) : s.sameRegs t [] := fun a _ => by rw [h]; rfl

theorem State.tabOnly.sameBytes {s t : State} (h : s.tabOnly t) : s.sameBytes t := fun a => by
  rw [h]
  exact ⟨rfl, rfl, rfl, rfl, rfl, rfl⟩

/-- Writes of table words one after another change tables alone. -/
theorem State.tabOnly_foldl {β : Type} (f : State → β → State) (h : ∀ (t : State) (x : β), t.tabOnly (f t x)) (l : List β) (s : State) :
    s.tabOnly (l.foldl f s) := by
  induction l generalizing s with
  | nil => exact .refl s
  | cons x r ih => exact (h s x).trans (ih _)

/-! Reserved bits (R6). -/

/-- A word of the entry below or above the masked ones. -/
theorem tw_maskWords_other (e n a : Nat) (ms : List Nat) (s : State) (h : ∀ j, n ≤ j → j < n + ms.length → a ≠ e + 4 * j) :
    ((ms.zipIdx n).foldl (fun u p => u.setTw (e + 4 * p.2) (BitVec.ofNat 32 ((u.tw (e + 4 * p.2)).toNat &&& p.1))) s).tw a = s.tw a := by
  induction ms generalizing n s with
  | nil => rfl
  | cons m r ih =>
    rw [List.zipIdx_cons, List.foldl_cons, ih _ _ fun j lo hi => h j (by omega) (by rw [List.length_cons]; omega),
      State.tw_setTw_other _ _ (h n (Nat.le_refl n) (by rw [List.length_cons]; omega))]

/-- A masked word. -/
theorem tw_maskWords_same (e n : Nat) (ms : List Nat) (s : State) {j : Nat} (h : j < ms.length) :
    ((ms.zipIdx n).foldl (fun u p => u.setTw (e + 4 * p.2) (BitVec.ofNat 32 ((u.tw (e + 4 * p.2)).toNat &&& p.1))) s).tw (e + 4 * (n + j))
      = BitVec.ofNat 32 ((s.tw (e + 4 * (n + j))).toNat &&& dw ms j) := by
  induction ms generalizing n s j with
  | nil => simp at h
  | cons m r ih =>
    rw [List.zipIdx_cons, List.foldl_cons]
    cases j with
    | zero => rw [tw_maskWords_other _ _ _ _ _ fun j lo hi => by omega, Nat.add_zero, State.tw_setTw_same, dw, List.getElem?_cons_zero]
    | succ j =>
      rw [show n + (j + 1) = n + 1 + j by omega, ih _ _ (by simpa using h), State.tw_setTw_other _ _ (by omega), dw, dw,
        List.getElem?_cons_succ]

theorem State.tabOnly_trimEntry (s : State) (base e : Nat) (v : Word) : s.tabOnly (s.trimEntry base e v) :=
  State.tabOnly_foldl _ (fun t _ => t.tabOnly_setTw _ _) _ s

theorem State.tw_trimEntry_other (s : State) {base e a : Nat} (v : Word)
    (h : ∀ j, j < (entryMasks base v).length → a ≠ e + 4 * j) : (s.trimEntry base e v).tw a = s.tw a :=
  tw_maskWords_other e 0 a _ s fun j _ hi => h j (by omega)

theorem State.tw_trimEntry_same (s : State) {base e j : Nat} (v : Word) (h : j < (entryMasks base v).length) :
    (s.trimEntry base e v).tw (e + 4 * j) = BitVec.ofNat 32 ((s.tw (e + 4 * j)).toNat &&& dw (entryMasks base v) j) := by
  have masked := tw_maskWords_same e 0 (entryMasks base v) s h
  rwa [Nat.zero_add] at masked

/-! Staging buffers (R68). -/

theorem ikey_add (i : Initiator) (a : Nat) : ikey i a = ikey i 0 + a := by
  unfold ikey
  omega

/-- The state with word v staged for address a. -/
def State.stage (s : State) (i : Initiator) (a : Nat) (v : Word) : State :=
  { s with bus := { s.bus with stage := amPut s.bus.stage (ikey i a) v } }

theorem State.amGet_stage_same (s : State) (i : Initiator) (a : Nat) (v : Word) :
    amGet (s.stage i a v).bus.stage (ikey i a) = some v := amGet_put_same _ _ _

theorem State.amGet_stage_other (s : State) (i : Initiator) {a b : Nat} (v : Word) (h : b ≠ a) :
    amGet (s.stage i a v).bus.stage (ikey i b) = amGet s.bus.stage (ikey i b) :=
  amGet_put_other _ _ fun e => h (by rw [ikey_add, ikey_add i a] at e; omega)

theorem State.changesOnly_stage (s : State) (i : Initiator) (a : Nat) (v : Word) : s.changesOnly (s.stage i a v) [] :=
  State.changesOnly_of_eq rfl rfl rfl rfl rfl rfl rfl rfl

theorem State.changesOnly_unstage (s : State) (i : Initiator) (t : Nat × Nat × Nat) : s.changesOnly (s.unstage i t) [] :=
  State.changesOnly_of_eq rfl rfl rfl rfl rfl rfl rfl rfl

theorem State.amGet_unstage (s : State) (i : Initiator) {t : Nat × Nat × Nat} {a : Nat} (h : t.1 ≤ a ∧ a < t.2.1) :
    amGet (s.unstage i t).bus.stage (ikey i a) = none :=
  (amGet_delRange _ _ _ _).trans (if_pos (by rw [ikey_add i a, ikey_add i t.1, ikey_add i t.2.1]; omega))

/-- No word of the table is staged after its buffer is emptied. -/
theorem State.staged_unstage (s : State) (i : Initiator) (t : Nat × Nat × Nat) : (s.unstage i t).staged i t = [] := by
  rw [State.staged, State.unstage, amDelRange, List.filter_filter, List.filter_eq_nil_iff]
  intro p _
  simp only [Bool.and_eq_true, decide_eq_true_eq, Bool.not_eq_true', Bool.and_eq_false_iff, decide_eq_false_iff_not]
  omega

/-- A word of the table that is staged. -/
theorem State.amGet_staged (s : State) (i : Initiator) {t : Nat × Nat × Nat} {a : Nat} (h : t.1 ≤ a ∧ a < t.2.1) :
    amGet (s.staged i t) (ikey i a) = amGet s.bus.stage (ikey i a) := by
  rw [State.staged, amGet_filter fun k => decide (ikey i t.1 ≤ k) && decide (k < ikey i t.2.1), if_pos]
  rw [ikey_add i t.1, ikey_add i t.2.1, ikey_add i a]
  simp [h]

/-- Where no other entry has staged words, every staged word lies in the entry at e. -/
theorem State.amGet_staged_apart {s : State} {i : Initiator} {t : Nat × Nat × Nat} {a e b : Nat} (own : s.stageOther i t a = false)
    (entry : a - (a - t.1) % t.2.2 = e) (h : b < e ∨ e + t.2.2 ≤ b) : amGet (s.staged i t) (ikey i b) = none := by
  rw [State.stageOther, entry, List.any_eq_false] at own
  refine Option.eq_none_iff_forall_ne_some.mpr fun w listed => own _ (mem_of_amGet listed) ?_
  rw [ikey_add i b, ikey_add i e, Bool.or_eq_true, decide_eq_true_eq, decide_eq_true_eq]
  omega

/-- The staged words put in the tables: each address reads its staged word, or what it held. -/
theorem State.tw_putStaged (i : Initiator) (l : List (Nat × Word)) (sorted : amSorted l = true) (s : State) (a : Nat)
    (own : ∀ p ∈ l, ikey i 0 ≤ p.1) :
    (l.foldl (fun u p => u.setTw (p.1 - ikey i 0) p.2) s).tw a = (amGet l (ikey i a)).getD (s.tw a) := by
  induction l generalizing s with
  | nil => rfl
  | cons p r ih =>
    obtain ⟨k, w⟩ := p
    have rises : amSortedFrom (some k) r = true := by simpa [amSorted, amSortedFrom] using sorted
    have above := own (k, w) List.mem_cons_self
    rw [List.foldl_cons, ih (amSortedFrom_none rises) _ fun p hp => own p (List.mem_cons_of_mem _ hp), amGet]
    split
    next e =>
      have unlisted : amGet r (ikey i a) = none := Option.eq_none_iff_forall_ne_some.mpr fun x listed => by
        have := amSortedFrom_head rises _ (mem_of_amGet listed)
        dsimp only at this
        omega
      rw [unlisted, Option.getD_none, Option.getD_some]
      dsimp only at e above ⊢
      rw [e, ikey_add i a, Nat.add_sub_cancel_left, State.tw_setTw_same]
    next e =>
      have apart : a ≠ k - ikey i 0 := fun h => e (by rw [ikey_add]; dsimp only at above; omega)
      rw [State.tw_setTw_other _ _ apart]

/-! Requests. -/

/-- The table of the route entries (R65). -/
theorem tableOf_route {a : Nat} (lo : 0x100000 ≤ a) (hi : a < 0x200000) : tableOf a = some (0x100000, 0x200000, 32) := by
  simp [tableOf, bar2Tables, lo, hi, show ¬ a < 0x100000 by omega]

/-- The table of four-word entries at 0x30_0000 (R65). -/
theorem tableOf_mac {a : Nat} (lo : 0x300000 ≤ a) (hi : a < 0x400000) : tableOf a = some (0x300000, 0x400000, 16) := by
  simp [tableOf, bar2Tables, lo, hi, show ¬ a < 0x100000 by omega, show ¬ a < 0x200000 by omega,
    show ¬ a < 0x300000 by omega]

/-- A write request of one word inside a table. -/
theorem State.bar2Write_word {s : State} {t : Nat × Nat × Nat} {a : Nat} (i : Initiator) (v : Word) (run : s.pwr.held = false)
    (table : tableOf a = some t) (word : a % 4 = 0) (fits : a + 4 ≤ t.2.1) : s.bar2Write i a [v] true = s.bar2Word i t a v := by
  have cause : bar2Cause a [v].length true = 0 := by
    rw [bar2Cause, table]
    simp [word, show ¬ t.2.1 < a + 4 by omega]
  rw [State.bar2Write, State.unreached_of_run run, if_neg (by decide), cause, table]
  simp only [if_true]
  rfl

/-- A word other than the VALID word, with no other entry's words staged (R68). -/
theorem State.bar2Word_staged {s : State} {i : Initiator} {t : Nat × Nat × Nat} {a : Nat} (v : Word)
    (inner : a - (a - (a - t.1) % t.2.2) + 4 ≠ t.2.2) (own : s.stageOther i t a = false) : s.bar2Word i t a v = s.stage i a v := by
  rw [State.bar2Word, own]
  simp only [Bool.false_eq_true, if_false, if_neg inner]
  rfl

/-- A word other than the VALID word, with words of another entry staged: those are discarded (R68). -/
theorem State.bar2Word_discards {s : State} {i : Initiator} {t : Nat × Nat × Nat} {a : Nat} (v : Word)
    (inner : a - (a - (a - t.1) % t.2.2) + 4 ≠ t.2.2) (other : s.stageOther i t a = true) :
    s.bar2Word i t a v = ((s.unstage i t).busError i true 1 a cSTAGE).stage i a v := by
  rw [State.bar2Word, other]
  simp only [if_true, if_neg inner]
  rfl

/-- A request that discards is an error of cause STAGE, and its own word alone is staged after it (R68). -/
theorem State.stage_discards (s : State) (i : Initiator) (t : Nat × Nat × Nat) (a : Nat) (v : Word) :
    (∀ b, t.1 ≤ b → b < t.2.1 → b ≠ a →
        amGet (((s.unstage i t).busError i true 1 a cSTAGE).stage i a v).bus.stage (ikey i b) = none)
      ∧ (((s.unstage i t).busError i true 1 a cSTAGE).stage i a v).rd Reg.ERR_COUNT
          = BitVec.ofNat 32 (capAt 0xFFFFFFFF ((s.rd Reg.ERR_COUNT).toNat + 1))
      ∧ s.sameTables (((s.unstage i t).busError i true 1 a cSTAGE).stage i a v)
      ∧ s.sameBytes (((s.unstage i t).busError i true 1 a cSTAGE).stage i a v) := by
  have unstaged := s.changesOnly_unstage i t
  have staged := State.changesOnly_stage ((s.unstage i t).busError i true 1 a cSTAGE) i a v
  refine ⟨fun b lo hi apart => ?_, ?_, ((unstaged.trans (State.changesOnly_busError _ i true 1 a cSTAGE)).trans staged).2⟩
  · rw [State.amGet_stage_other _ _ _ apart, State.busError_bus, State.amGet_unstage _ _ ⟨lo, hi⟩]
  · rw [staged.1 _ List.not_mem_nil, State.rd_busError_count, unstaged.1 _ List.not_mem_nil]

/-- The entry at e of table t as the write of its VALID word leaves it, before what follows from it (R68). -/
def State.entryChanged (s : State) (i : Initiator) (t : Nat × Nat × Nat) (e : Nat) (v : Word) : State :=
  ((((s.staged i t).foldl (fun u p => u.setTw (p.1 - ikey i 0) p.2) s).setTw (e + (t.2.2 - 4)) v).trimEntry t.1 e v).unstage i t

/-- The VALID word, with no other entry's words staged (R68). -/
theorem State.bar2Word_valid {s : State} {i : Initiator} {t : Nat × Nat × Nat} {e : Nat} (v : Word)
    (entry : e + (t.2.2 - 4) - (e + (t.2.2 - 4) - t.1) % t.2.2 = e) (size : 4 ≤ t.2.2)
    (own : s.stageOther i t (e + (t.2.2 - 4)) = false) :
    s.bar2Word i t (e + (t.2.2 - 4)) v = s.entryWritten (s.entryChanged i t e v) e := by
  have valid : e + (t.2.2 - 4) - e + 4 = t.2.2 := by omega
  rw [State.bar2Word, own]
  simp only [Bool.false_eq_true, if_false, entry, if_pos valid]
  rfl

/-- Before its buffer is emptied, the change of an entry is one of table words alone. -/
theorem State.tabOnly_entryChanged (s : State) (i : Initiator) (t : Nat × Nat × Nat) (e : Nat) (v : Word) :
    s.tabOnly ((((s.staged i t).foldl (fun u p => u.setTw (p.1 - ikey i 0) p.2) s).setTw (e + (t.2.2 - 4)) v).trimEntry t.1 e v) :=
  ((State.tabOnly_foldl _ (fun u _ => u.tabOnly_setTw _ _) _ s).trans (State.tabOnly_setTw _ _ v)).trans (State.tabOnly_trimEntry _ t.1 e v)

theorem State.sameRegs_entryChanged (s : State) (i : Initiator) (t : Nat × Nat × Nat) (e : Nat) (v : Word) :
    s.sameRegs (s.entryChanged i t e v) [] := (s.tabOnly_entryChanged i t e v).sameRegs

theorem State.sameBytes_entryChanged (s : State) (i : Initiator) (t : Nat × Nat × Nat) (e : Nat) (v : Word) :
    s.sameBytes (s.entryChanged i t e v) := (s.tabOnly_entryChanged i t e v).sameBytes

/-- What is staged for a table is held under the keys of its initiator. -/
theorem State.ikey_le_of_staged (s : State) (i : Initiator) (t : Nat × Nat × Nat) : ∀ p ∈ s.staged i t, ikey i 0 ≤ p.1 := fun p hp => by
  have inside := (List.mem_filter.mp hp).2
  rw [Bool.and_eq_true, decide_eq_true_eq, ikey_add i t.1] at inside
  omega

/-- The VALID word that was written, under the masks of its layout. -/
theorem State.tw_entryChanged_valid (s : State) (i : Initiator) {t : Nat × Nat × Nat} {e n : Nat} (v : Word)
    (layout : (entryMasks t.1 v).length = n + 1) (size : t.2.2 = 4 * (n + 1)) :
    (s.entryChanged i t e v).tw (e + 4 * n) = BitVec.ofNat 32 (v.toNat &&& dw (entryMasks t.1 v) n) := by
  refine (State.tw_trimEntry_same _ v (by omega)).trans ?_
  rw [show t.2.2 - 4 = 4 * n by omega, State.tw_setTw_same]

/-- Another word of the entry: the staged word, or what it held, under its mask. -/
theorem State.tw_entryChanged_staged {s : State} {i : Initiator} {t : Nat × Nat × Nat} {e n j : Nat} (v : Word)
    (sorted : amSorted s.bus.stage = true) (layout : (entryMasks t.1 v).length = n + 1) (size : t.2.2 = 4 * (n + 1))
    (inTable : t.1 ≤ e ∧ e + t.2.2 ≤ t.2.1) (h : j < n) :
    (s.entryChanged i t e v).tw (e + 4 * j)
      = BitVec.ofNat 32 (((amGet s.bus.stage (ikey i (e + 4 * j))).getD (s.tw (e + 4 * j))).toNat &&& dw (entryMasks t.1 v) j) := by
  refine (State.tw_trimEntry_same _ v (by omega)).trans ?_
  rw [State.tw_setTw_other _ _ (by omega), State.tw_putStaged i (s.staged i t) (amSorted_filter _ sorted) s _ (s.ikey_le_of_staged i t),
    State.amGet_staged _ _ (by omega)]

/-- A word of another entry. -/
theorem State.tw_entryChanged_other {s : State} {i : Initiator} {t : Nat × Nat × Nat} {e n a : Nat} (v : Word)
    (sorted : amSorted (s.staged i t) = true) (layout : (entryMasks t.1 v).length = n + 1) (size : t.2.2 = 4 * (n + 1))
    (apart : a < e ∨ e + t.2.2 ≤ a) (unstaged : amGet (s.staged i t) (ikey i a) = none) : (s.entryChanged i t e v).tw a = s.tw a := by
  refine (State.tw_trimEntry_other _ v fun j hj => by omega).trans ?_
  rw [State.tw_setTw_other _ _ (by omega), State.tw_putStaged i _ sorted s _ (s.ikey_le_of_staged i t), unstaged, Option.getD_none]

/-- The end of cycle supervision is no register, no table word and no byte (R153). -/
theorem State.changesOnly_cycPrune (s : State) : s.changesOnly s.cycPrune [] :=
  ⟨fun _ _ => rfl, fun _ => rfl, fun _ => ⟨rfl, rfl, rfl, rfl, rfl, rfl⟩⟩

theorem State.staged_cycPrune (s : State) (i : Initiator) (t : Nat × Nat × Nat) : s.cycPrune.staged i t = s.staged i t := rfl

/-! Reads (R69). -/

/-- Words of one entry from a later word on: none of them loads a latch. -/
theorem State.bar2Reads_inner (s : State) (i : Initiator) (t : Nat × Nat × Nat) (a n : Nat)
    (inner : ∀ j, j < n → (a + 4 * j - t.1) % t.2.2 ≠ 0) :
    s.bar2Reads i t a n = ((List.range n).map (fun j => s.bar2Seen i (a + 4 * j)), s) := by
  induction n generalizing a with
  | zero => rfl
  | succ n ih =>
    have here := inner 0 (by omega)
    rw [Nat.mul_zero, Nat.add_zero] at here
    have rest := ih (a + 4) fun j hj => by
      rw [show a + 4 + 4 * j = a + 4 * (j + 1) by omega]
      exact inner (j + 1) (by omega)
    rw [State.bar2Reads, if_neg here, rest, List.range_succ_eq_map, List.map_cons, List.map_map]
    dsimp only
    congr 2
    exact List.map_congr_left fun j _ => congrArg (s.bar2Seen i) (show a + 4 + 4 * j = a + 4 * (j + 1) by omega)

/-- The words after the first of an entry whose word 0 is read are latched. -/
theorem State.amGet_latchEntry (s : State) (i : Initiator) (t : Nat × Nat × Nat) (e : Nat) {j : Nat} (one : 1 ≤ j) (h : j < t.2.2 / 4) :
    amGet (s.latchEntry i t e).bus.entry (ikey i (e + 4 * j)) = some (s.tw (e + 4 * j)) := by
  have put := amGet_putRange (fun k => ikey i (e + 4 * k + 4)) (fun k => s.tw (e + 4 * k + 4))
    (fun x y h => by rw [ikey_add i, ikey_add i (e + 4 * y + 4)] at h; omega) (amDelRange s.bus.entry (ikey i t.1) (ikey i t.2.1))
    (n := t.2.2 / 4 - 1) (j := j - 1) (by omega)
  rw [show e + 4 * j = e + 4 * (j - 1) + 4 by omega]
  exact put

theorem State.changesOnly_latchEntry (s : State) (i : Initiator) (t : Nat × Nat × Nat) (e : Nat) :
    s.changesOnly (s.latchEntry i t e) [] := State.changesOnly_of_eq rfl rfl rfl rfl rfl rfl rfl rfl

/-- A read of a whole entry without a latch answers its live words. -/
theorem State.bar2Reads_entry {s : State} {i : Initiator} {t : Nat × Nat × Nat} {e n : Nat} (size : t.2.2 = 4 * (n + 1))
    (first : (e - t.1) % t.2.2 = 0) (inTable : t.1 ≤ e) (free : ∀ j, j < n + 1 → amGet s.bus.entry (ikey i (e + 4 * j)) = none) :
    s.bar2Reads i t e (n + 1) = ((List.range (n + 1)).map (fun j => s.tw (e + 4 * j)), s.latchEntry i t e) := by
  have live : s.bar2Seen i e = s.tw e := by
    have := free 0 (by omega)
    rw [Nat.mul_zero, Nat.add_zero] at this
    rw [State.bar2Seen, this]
  have inner : ∀ j, j < n → (e + 4 + 4 * j - t.1) % t.2.2 ≠ 0 := fun j hj => by
    rw [show e + 4 + 4 * j - t.1 = e - t.1 + (4 + 4 * j) by omega, Nat.add_mod, first, Nat.zero_add, Nat.mod_mod, size,
      Nat.mod_eq_of_lt (by omega)]
    omega
  have latched : ∀ j, j < n → (s.latchEntry i t e).bar2Seen i (e + 4 + 4 * j) = s.tw (e + 4 * (j + 1)) := fun j hj => by
    rw [show e + 4 + 4 * j = e + 4 * (j + 1) by omega, State.bar2Seen,
      State.amGet_latchEntry s i t e (by omega) (by omega)]
  rw [State.bar2Reads, if_pos first, State.bar2Reads_inner _ _ _ _ _ inner, live, List.range_succ_eq_map, List.map_cons, List.map_map]
  dsimp only
  congr 2
  exact List.map_congr_left fun j hj => latched j (List.mem_range.mp hj)

/-- A read request of a whole entry. -/
theorem State.bar2Read_entry {s : State} {i : Initiator} {t : Nat × Nat × Nat} {e n : Nat} (run : s.pwr.held = false)
    (table : tableOf e = some t) (size : t.2.2 = 4 * (n + 1)) (small : n < 16) (word : e % 4 = 0) (first : (e - t.1) % t.2.2 = 0)
    (inTable : t.1 ≤ e ∧ e + t.2.2 ≤ t.2.1) (free : ∀ j, j < n + 1 → amGet s.bus.entry (ikey i (e + 4 * j)) = none) :
    s.bar2Read i e (n + 1) true
      = (s.latchEntry i t e).emit (.readData i 1 e ((List.range (n + 1)).map (fun j => s.tw (e + 4 * j)))) := by
  have cause : bar2Cause e (n + 1) true = 0 := by
    rw [bar2Cause, table]
    simp [word, show ¬ 16 < n + 1 by omega, show ¬ t.2.1 < e + 4 * (n + 1) by omega]
  rw [State.bar2Read, State.unreached_of_run run, if_neg (by decide), cause, table]
  simp only [if_true, State.bar2Reads_entry size first inTable.1 free]

/-- A read request that does not lie within a table (R51, R67). -/
theorem State.bar2Read_refused {s : State} (i : Initiator) {a n : Nat} {allBytes : Bool} (run : s.pwr.held = false)
    (cause : bar2Cause a n allBytes ≠ 0) : s.bar2Read i a n allBytes = s.busError i false 1 a (bar2Cause a n allBytes) := by
  rw [State.bar2Read, State.unreached_of_run run, if_neg (by decide)]
  cases table : tableOf a with
  | none => rfl
  | some t => simp only [if_neg cause]

end Sys2Proof.Machine
end

section
/-! PROOFS. The statements about words that change or are read together: the 64-bit registers (R44, R45) and the entries of BAR2 (R67-R69). -/
namespace Sys2Proof.Machine

/-- A word of a number under a mask. -/
theorem ofNat_toNat_and (v : Word) (m : Nat) : BitVec.ofNat 32 (v.toNat &&& m) = v &&& BitVec.ofNat 32 m := by
  rw [BitVec.ofNat_and, BitVec.ofNat_toNat, BitVec.setWidth_eq]

/-- A word other than the VALID word of an entry is staged, and nothing changes (R68). -/
theorem tableStagedWrite_stages {s : State} {t : Nat × Nat × Nat} {a : Nat} (init : Initiator) (v : Word) (run : s.pwr.held = false)
    (table : tableOf a = some t) (word : a % 4 = 0) (fits : a + 4 ≤ t.2.1) (inner : a - (a - (a - t.1) % t.2.2) + 4 ≠ t.2.2)
    (own : s.stageOther init t a = false) :
    Completes (.tableStagedWrite init a [v] true) s fun u =>
      amGet u.bus.stage (ikey init a) = some v ∧ s.sameTables u ∧ s.sameRegs u [] ∧ s.sameBytes u := by
  obtain ⟨regs, tables, bytes⟩ := s.changesOnly_stage init a v
  refine .of_exec (t := s.stage init a v) ?_ ⟨s.amGet_stage_same init a v, tables, regs, bytes⟩
  change execTableStagedWrite init a [v] true s = _
  rw [execTableStagedWrite, State.bar2Write_word init v run table word fits, State.bar2Word_staged v inner own]

/-- A read of a whole entry answers its live words and latches those after the first (R69). -/
theorem tableWord0Read_reads {s : State} {t : Nat × Nat × Nat} {e n : Nat} (init : Initiator) (run : s.pwr.held = false)
    (table : tableOf e = some t) (size : t.2.2 = 4 * (n + 1)) (small : n < 16) (word : e % 4 = 0) (first : (e - t.1) % t.2.2 = 0)
    (inTable : t.1 ≤ e ∧ e + t.2.2 ≤ t.2.1) (free : ∀ j, j < n + 1 → amGet s.bus.entry (ikey init (e + 4 * j)) = none) :
    Completes (.tableWord0Read init e (n + 1) true) s fun u =>
      u.outbox = s.outbox ++ [.readData init 1 e ((List.range (n + 1)).map (fun j => s.tw (e + 4 * j)))]
        ∧ (∀ j, 1 ≤ j → j < n + 1 → amGet u.bus.entry (ikey init (e + 4 * j)) = some (s.tw (e + 4 * j)))
        ∧ s.sameTables u ∧ s.sameRegs u [] ∧ s.sameBytes u := by
  obtain ⟨regs, tables, bytes⟩ := (s.changesOnly_latchEntry init t e).trans (State.changesOnly_emit _ (.readData init 1 e
    ((List.range (n + 1)).map (fun j => s.tw (e + 4 * j)))))
  refine .of_exec (congrArg Host.Outcome.next (State.bar2Read_entry run table size small word first inTable free))
    ⟨rfl, fun j one h => s.amGet_latchEntry init t e one (by omega), tables, regs, bytes⟩

/-- Settles O7: the entries of the table at 0x30_0000, then a 64-bit register. -/
theorem sixtyFourBitRegistersChangeAsOne : Obligations.SixtyFourBitRegistersChangeAsOne := by
  intro s init v run
  refine ⟨fun e k lo hi aligned inner own => ?staged, fun e lo hi aligned empty => ?valid, fun e lo hi aligned free => ?read,
    fun lo r rh row rowh wide word o yatric samePage => ⟨fun latched acc => ?lowRead, fun acc keep => ?lowWrite,
      fun acc acch one _ keep => ?highWrite⟩⟩
  case staged =>
    exact tableStagedWrite_stages init v run (tableOf_mac (by omega) (by omega)) (by omega) (by dsimp only; omega) (by dsimp only; omega) own
  case valid =>
    have table := tableOf_mac (a := e + 12) (by omega) (by omega)
    have own : s.stageOther init (0x300000, 0x400000, 16) (e + 12) = false := by rw [State.stageOther, empty, List.any_nil]
    have written : s.bar2Write init (e + 12) [v] true = s.entryWritten (s.entryChanged init (0x300000, 0x400000, 16) e v) e := by
      rw [State.bar2Write_word init v run table (by omega) (by dsimp only; omega)]
      exact State.bar2Word_valid v (by dsimp only; omega) (by decide) own
    have quiet : s.entryWritten (s.entryChanged init (0x300000, 0x400000, 16) e v) e = s.entryChanged init (0x300000, 0x400000, 16) e v := by
      rw [State.entryWritten, if_neg (by omega), if_neg (by omega), if_neg (by omega), if_neg (by omega)]
    have layout : (entryMasks 0x300000 v).length = 3 + 1 := rfl
    rw [quiet] at written
    refine .of_exec (congrArg Host.Outcome.next written) ⟨?_, fun a apart => ?_, s.sameRegs_entryChanged _ _ _ _, s.sameBytes_entryChanged _ _ _ _⟩
    · exact (State.tw_entryChanged_valid s init (t := (0x300000, 0x400000, 16)) v layout rfl).trans (ofNat_toNat_and v _)
    · exact State.tw_entryChanged_other (t := (0x300000, 0x400000, 16)) v (by rw [empty]; rfl) layout rfl apart (by rw [empty]; rfl)
  case read =>
    obtain ⟨u, read, answer, -, frame⟩ := tableWord0Read_reads init run (tableOf_mac lo hi) (n := 3) rfl (by decide) (by omega)
      (by dsimp only; omega) (by dsimp only; omega) free
    exact ⟨u, read, answer, frame⟩
  case lowRead => exact lowWordRead_latches run row word yatric rowh latched acc
  case lowWrite => exact lowWordWrite_held run row word o yatric wide acc keep
  case highWrite => exact highWordWrite_stores run row rowh wide word o yatric samePage acc acch one keep

/-- Settles O10: a request of one word of the route table in each of its cases, and reads. -/
theorem tableEntriesChangeByTheirValidWord : Obligations.TableEntriesChangeByTheirValidWord := by
  intro s init e k v run lo hi aligned
  refine ⟨fun inner own => ?staged, fun inner other => ?discards, fun own sorted => ?valid, fun free => ?read, fun a n allBytes cause => ?refused⟩
  case staged =>
    exact tableStagedWrite_stages init v run (tableOf_route (by omega) (by omega)) (by omega) (by dsimp only; omega) (by dsimp only; omega)
      own
  case discards =>
    have written := State.bar2Write_word init v run (tableOf_route (a := e + 4 * k) (by omega) (by omega)) (by omega) (by dsimp only; omega)
    rw [State.bar2Word_discards v (by dsimp only; omega) other] at written
    obtain ⟨discarded, count, frame⟩ := s.stage_discards init (0x100000, 0x200000, 32) (e + 4 * k) v
    exact .of_exec (congrArg Host.Outcome.next written) ⟨State.amGet_stage_same _ _ _ _, discarded, count, frame⟩
  case valid =>
    have table := tableOf_route (a := e + 28) (by omega) (by omega)
    have written : s.bar2Write init (e + 28) [v] true = s.entryWritten (s.entryChanged init (0x100000, 0x200000, 32) e v) e := by
      rw [State.bar2Write_word init v run table (by omega) (by dsimp only; omega)]
      exact State.bar2Word_valid v (by dsimp only; omega) (by decide) own
    have pruned : s.entryWritten (s.entryChanged init (0x100000, 0x200000, 32) e v) e
        = (s.entryChanged init (0x100000, 0x200000, 32) e v).cycPrune := by
      rw [State.entryWritten, if_neg (by omega), if_pos (by omega)]
    have layout : (entryMasks 0x100000 v).length = 7 + 1 := rfl
    rw [pruned] at written
    obtain ⟨regs, tables, bytes⟩ := (s.entryChanged init (0x100000, 0x200000, 32) e v).changesOnly_cycPrune
    refine .of_exec (congrArg Host.Outcome.next written) ⟨?_, fun j hj => ?_, fun a apart => ?_, ?_,
      (s.sameRegs_entryChanged _ _ _ _).trans regs, (s.sameBytes_entryChanged _ _ _ _).trans bytes⟩
    · rw [tables]
      exact (State.tw_entryChanged_valid s init (t := (0x100000, 0x200000, 32)) v layout rfl).trans (ofNat_toNat_and v _)
    · rw [tables]
      exact State.tw_entryChanged_staged (t := (0x100000, 0x200000, 32)) v sorted layout rfl (by dsimp only; omega) hj
    · rw [tables]
      exact State.tw_entryChanged_other (t := (0x100000, 0x200000, 32)) v (amSorted_filter _ sorted) layout rfl apart
        (State.amGet_staged_apart own (by dsimp only; omega) apart)
    · rw [State.staged_cycPrune]
      exact State.staged_unstage _ init (0x100000, 0x200000, 32)
  case read =>
    exact tableWord0Read_reads init run (tableOf_route lo hi) (n := 7) rfl (by decide) (by omega) (by dsimp only; omega) (by dsimp only; omega)
      free
  case refused =>
    obtain ⟨-, tables, bytes⟩ := s.changesOnly_busError init false 1 a (bar2Cause a n allBytes)
    exact .of_exec (congrArg Host.Outcome.next (State.bar2Read_refused init run cause)) ⟨State.rd_busError_lastAddr _ _ _ _ _ _,
      State.rd_busError_lastInfo _ _ _ _ _ _, tables, State.busError_bus _ _ _ _ _ _, bytes⟩

end Sys2Proof.Machine
end

section
/-! PROOFS. What a commit does beside its copies (R58): the checks and consequences the chapters give it leave the CMT page, the settings
of the CAN controllers, every shadow and the sampled request alone. One lemma per operation, in the order in which they are built. -/
namespace Sys2Proof.Machine

/-- PG_IST of the CMT page, the registers above its header, and the mode and timing registers of the CAN controllers (R96). -/
def commitKept (a : Nat) : Bool :=
  a == 0x1010 || decide (0x1100 ≤ a) && decide (a < 0x2000)
    || decide (0x100000 ≤ a) && decide (a < 0x118000) && decide (0x100 ≤ a % 0x1000) && decide (a % 0x1000 < 0x11C)

theorem commitKept_above {a : Nat} (h : 0x118000 ≤ a) : commitKept a = false := by
  simp [commitKept, show a ≠ 0x1010 by omega, show ¬ a < 0x2000 by omega, show ¬ a < 0x118000 by omega]

/-- PG_IST of a page above the CAN controllers. -/
theorem commitKept_ist_above {b : Nat} (h : 0x118000 ≤ b) : commitKept (Reg.PG_IST b) = false :=
  commitKept_above (Nat.le_add_right_of_le h)

/-- No header register but PG_IST. -/
theorem commitKept_hdr {b o : Nat} (hb : b % 0x1000 = 0) (ho : o < 0x100) (ist : o ≠ 0x10) : commitKept (b + o) = false := by
  rw [Bool.eq_false_iff]
  simp only [commitKept, ne_eq, Bool.or_eq_true, Bool.and_eq_true, decide_eq_true_eq, beq_iff_eq]
  omega

/-- From s to t those registers, the shadows and the sampled commit request stay. -/
structure State.besideCommit (s t : State) : Prop where
  regs : ∀ a, commitKept a = true → t.rd a = s.rd a
  shadow : t.shadow = s.shadow
  cmt : t.cmt = s.cmt

theorem State.besideCommit.refl (s : State) : s.besideCommit s := ⟨fun _ _ => rfl, rfl, rfl⟩

/-- An update that leaves the three lists as they are. -/
theorem State.besideCommit.of_eq {s t u : State} (h : s.besideCommit t) (regs : u.regs = t.regs) (shadow : u.shadow = t.shadow)
    (cmt : u.cmt = t.cmt) : s.besideCommit u :=
  ⟨fun a k => (State.rd_congr regs a).trans (h.regs a k), shadow.trans h.shadow, cmt.trans h.cmt⟩

theorem State.besideCommit.ite {s t u : State} {c : Prop} [Decidable c] (h : s.besideCommit t) (g : s.besideCommit u) :
    s.besideCommit (if c then t else u) := by
  split
  · exact h
  · exact g

theorem State.besideCommit.foldl {β : Type} {f : State → β → State} {s : State} (l : List β)
    (step : ∀ (t : State), s.besideCommit t → ∀ x ∈ l, s.besideCommit (f t x)) {t : State} (h : s.besideCommit t) :
    s.besideCommit (l.foldl f t) := by
  induction l generalizing t with
  | nil => exact h
  | cons x r ih => exact ih (fun u hu y hy => step u hu y (List.mem_cons_of_mem x hy)) (step t h x List.mem_cons_self)

section
variable {s t : State} (h : s.besideCommit t)
include h

/-! Registers, event bits, counters. -/

theorem State.besideCommit.wr {a : Nat} (w : Word) (ha : commitKept a = false) : s.besideCommit (t.wr a w) :=
  ⟨fun b kept => by
    rw [State.rd_wr_other _ _ (fun e => by rw [e, ha] at kept; simp at kept), h.regs b kept], h.shadow, h.cmt⟩

theorem State.besideCommit.wf {a : Nat} (hi lo v : Nat) (ha : commitKept a = false) : s.besideCommit (t.wf a hi lo v) := h.wr _ ha

theorem State.besideCommit.wb {a : Nat} (i : Nat) (b : Bool) (ha : commitKept a = false) : s.besideCommit (t.wb a i b) := h.wr _ ha

theorem State.besideCommit.ist {b : Nat} (i : Nat) (hb : commitKept (Reg.PG_IST b) = false) : s.besideCommit (t.ist b i) :=
  (h.wb i true hb).of_eq (State.syncPage_regs _ _) (State.syncPage_shadow _ _) (State.syncPage_cmt _ _)

theorem State.besideCommit.istIf (c : Bool) {b : Nat} (i : Nat) (hb : commitKept (Reg.PG_IST b) = false) : s.besideCommit (t.istIf c b i) :=
  (h.ist i hb).ite h

/-- A counter above the pages of the CAN controllers. -/
theorem State.besideCommit.bump {a : Nat} (n k : Nat) (ha : 0x118000 ≤ a) : s.besideCommit (t.bump a n k) :=
  (h.wr _ (commitKept_above ha)).istIf _ k (commitKept_ist_above (by unfold pageBase; omega))

theorem State.besideCommit.obsPush (r : List Byte) : s.besideCommit (t.obsPush r) := by
  have full : s.besideCommit (t.setObs { t.obs with lost := t.obs.lost + 1 }) := h.of_eq rfl rfl rfl
  have counted : s.besideCommit ((t.setObs { t.obs with lost := t.obs.lost + 1 }).bumpSat Reg.OBS_LOST 1 2) :=
    State.besideCommit.istIf (full.wr (a := Reg.OBS_LOST) _ (by decide)) _ 2 (by decide)
  exact State.besideCommit.ite (h.of_eq rfl rfl rfl) (counted.ist (b := Reg.pgOBS) 1 (by decide))

theorem State.besideCommit.trace (typ src : Nat) (body : List Byte) : s.besideCommit (t.trace typ src body) := (h.obsPush _).ite h

/-! Other parts of the state. -/

theorem State.besideCommit.setSw (w : Switch) : s.besideCommit (t.setSw w) := h.of_eq rfl rfl rfl

theorem State.besideCommit.setEmac (p : Nat) (e : Emac) : s.besideCommit (t.setEmac p e) := h.of_eq rfl rfl rfl

theorem State.besideCommit.setHq (q : Nat) (x : HQueue) : s.besideCommit (t.setHq q x) := h.of_eq rfl rfl rfl

theorem State.besideCommit.setSa (i : Nat) (a : Sa) : s.besideCommit (t.setSa i a) := h.of_eq rfl rfl rfl

theorem State.besideCommit.setTw (a : Nat) (w : Word) : s.besideCommit (t.setTw a w) := h.of_eq rfl rfl rfl

theorem State.besideCommit.setTpe (x : Tpe) : s.besideCommit { t with tpe := x } := h.of_eq rfl rfl rfl

theorem State.besideCommit.setCry (x : Cry) : s.besideCommit { t with cry := x } := h.of_eq rfl rfl rfl

/-! Bramble: aggregates that are sent (R158). -/

theorem State.besideCommit.bramSend (k : Nat) (ms : List (List Byte)) : s.besideCommit (t.bramSend k ms) := by
  have numbered : s.besideCommit (t.setTxs k { t.txs k with seq := ((t.txs k).seq + 1) % 256 }) := h.of_eq rfl rfl rfl
  have counted := numbered.bump (a := Reg.BRM_TXFRM k) 1 5 (Nat.le_add_right_of_le (by decide))
  rw [State.bramSend]
  exact counted.of_eq rfl rfl rfl

theorem State.besideCommit.bramFlush (k : Nat) : s.besideCommit (t.bramFlush k) := by
  have emptied : s.besideCommit (t.setTxs k { t.txs k with agg := [], since := 0 }) := h.of_eq rfl rfl rfl
  exact State.besideCommit.ite h (emptied.bramSend k _)

theorem State.besideCommit.flushStreams : s.besideCommit t.flushStreams :=
  h.foldl _ fun _ hu k _ => (hu.bramFlush k).ite hu

/-! Checks of the settings that were copied: a refused setting keeps its value, and the page reports it. -/

theorem State.besideCommit.keepOld (o : State) {as : List Nat} {b : Nat} (i : Nat) (has : ∀ a ∈ as, commitKept a = false)
    (hb : commitKept (Reg.PG_IST b) = false) : s.besideCommit (t.keepOld o as b i) :=
  State.besideCommit.ist (h.foldl as fun _ hu a ha => hu.wr _ (has a ha)) i hb

theorem State.besideCommit.chkWin (o : State) (i : Nat) : s.besideCommit (o.chkWin t i) := by
  refine State.besideCommit.ite (h.keepOld o 0 (fun a ha => ?_) (by decide)) h
  rw [List.mem_singleton.mp ha]
  exact commitKept_above (Nat.le_add_right_of_le (by decide))

theorem State.besideCommit.chkEmac (o : State) (p : Nat) : s.besideCommit (o.chkEmac t p) := by
  refine State.besideCommit.ite h (h.keepOld o 6 (fun a ha => commitKept_above ?_) (commitKept_ist_above (Nat.le_add_right_of_le (by decide))))
  simp only [List.mem_cons, List.not_mem_nil, or_false] at ha
  rcases ha with rfl | rfl | rfl <;> exact Nat.le_add_right_of_le (by decide)

theorem State.besideCommit.chkQmg (o : State) : s.besideCommit (o.chkQmg t) := by
  refine State.besideCommit.ite h (h.keepOld o 6 (fun a ha => commitKept_above ?_) (by decide))
  rcases List.mem_cons.mp ha with rfl | ha
  · decide
  rcases List.mem_cons.mp ha with rfl | ha
  · decide
  · obtain ⟨p, -, rfl⟩ := List.mem_map.mp ha
    exact Nat.le_add_right_of_le (by decide)

theorem State.besideCommit.chkSwc (o : State) : s.besideCommit (o.chkSwc t) := by
  refine State.besideCommit.ite h (h.keepOld o 0 (fun a ha => commitKept_above ?_) (by decide))
  obtain ⟨p, -, ha⟩ := List.mem_flatMap.mp ha
  rcases List.mem_cons.mp ha with rfl | ha
  · exact Nat.le_add_right_of_le (by decide)
  · obtain ⟨c, -, rfl⟩ := List.mem_map.mp ha
    exact Nat.le_add_right_of_le (Nat.le_add_right_of_le (by decide))

theorem State.besideCommit.chkPvid (o : State) (p : Nat) : s.besideCommit (o.chkPvid t p) :=
  ((h.wf 11 0 _ (commitKept_above (Nat.le_add_right_of_le (by decide)))).ist 6 (by decide)).ite h

theorem State.besideCommit.chkLpm (o : State) : s.besideCommit (o.chkLpm t) :=
  ((h.wf 27 16 _ (by decide)).ist 3 (by decide)).ite h

theorem State.besideCommit.chkPool (o : State) : s.besideCommit (o.chkPool t) := by
  unfold State.chkPool
  split
  · exact h.keepOld o 5 (fun a ha => by rw [List.mem_singleton.mp ha]; decide) (by decide)
  · split_ifs <;> exact h.setTpe _

theorem State.besideCommit.chkRegion (o : State) : s.besideCommit (o.chkRegion t) := by
  unfold State.chkRegion
  dsimp only
  split
  · exact h.keepOld o 2 (fun a ha => by rw [List.mem_singleton.mp ha]; decide) (by decide)
  · split_ifs <;> exact h.setSw _

theorem State.besideCommit.commitChecks (o : State) (pages : List Nat) : s.besideCommit (o.commitChecks t pages) := by
  have windows := (h.foldl ((List.range 24) ++ (List.range 129).map (· + 64)) fun _ hu i _ => hu.chkWin o i).ite
    (c := pages.contains Reg.pgPRV_RTE) h
  have ports := windows.foldl (List.range 14) fun _ hu p _ => (hu.chkEmac o p).ite (c := pages.contains (Reg.pgEMAC p)) hu
  have queues := (ports.chkQmg o).ite (c := pages.contains Reg.pgQMG) ports
  have switch := (queues.chkSwc o).ite (c := pages.contains Reg.pgSWC) queues
  have vids := (switch.foldl (List.range 18) fun _ hu p _ => hu.chkPvid o p).ite (c := pages.contains Reg.pgMACT) switch
  have rows := (vids.chkLpm o).ite (c := pages.contains Reg.pgLPM) vids
  have pool := (rows.chkPool o).ite (c := pages.contains Reg.pgTPE) rows
  exact (pool.chkRegion o).ite pool

/-! Ethernet ports: a loss of link, and a port that goes down (R232, R248). -/

theorem State.besideCommit.plcaNext (m : Nat) : s.besideCommit (t.plcaNext m) :=
  h.ite (State.besideCommit.setEmac (h.wf (a := Reg.T1SP_STAT m) 7 0 _ (commitKept_above (Nat.le_add_right_of_le (by decide)))) _ _)

theorem State.besideCommit.plcaSent (p : Nat) : s.besideCommit (t.plcaSent p) := h.ite ((h.plcaNext _).ite (h.setEmac _ _))

theorem State.besideCommit.pauseAsk (p : Nat) : s.besideCommit (t.pauseAsk p) := h.ite (h.setEmac _ _)

theorem State.besideCommit.wdSync (p : Nat) : s.besideCommit (t.wdSync p) := h.ite (h.setEmac _ _)

theorem State.besideCommit.freeCopy (i k : Nat) : s.besideCommit (t.freeCopy i k) := by
  unfold State.freeCopy
  split
  · exact h
  · exact State.besideCommit.pauseAsk ((h.setSw _).ite (h.setSw _)) _

theorem State.besideCommit.ethResult (f : SwFrame) (code : Nat) (stamp : Option Nat) : s.besideCommit (t.ethResult f code stamp) := by
  unfold State.ethResult
  split
  · exact h.setHq _ _
  · exact h

theorem State.besideCommit.dropQueued (k : Nat) (c : SwCopy) : s.besideCommit (t.dropQueued k c) := by
  unfold State.dropQueued
  dsimp only
  refine State.besideCommit.wdSync (State.besideCommit.freeCopy (State.besideCommit.setSw ?_ _) c.fid k) (k / 8)
  split
  · exact (h.ethResult _ _ _).ite h
  · exact h

/-- Flushed queues of an external port, whose frames are not gated. -/
theorem State.besideCommit.flushQueues {p : Nat} (hp : p ≠ 17) (cs : List Nat) {cnt : State → State}
    (hcnt : ∀ u, s.besideCommit u → s.besideCommit (cnt u)) : s.besideCommit (t.flushQueues p cs cnt) :=
  h.foldl cs fun _ hu c _ => hu.foldl _ fun v hv d _ => by
    dsimp only
    rw [if_neg hp]
    exact hcnt _ (hv.dropQueued _ d)

theorem State.besideCommit.macClear (v : Word) : s.besideCommit (t.macClear v) :=
  h.foldl _ fun _ hu _ _ => State.besideCommit.ite ((hu.setTw _ _).ite (hu.setSw _)) hu

theorem State.besideCommit.macFlushWrite (v : Word) : s.besideCommit (macFlushWrite v t) :=
  ((h.macClear v).wb (a := Reg.MACT_FLSTAT) 31 true (by decide)).ite h

theorem State.besideCommit.macDown (p : Nat) : s.besideCommit (t.macDown p) :=
  State.besideCommit.ite ((h.setSw _).ite (h.macFlushWrite _)) h

theorem State.besideCommit.goDown {p : Nat} (hp : p ≠ 17) : s.besideCommit (t.goDown p) := by
  have flushed := h.flushQueues hp (List.range 8) (cnt := fun u => u.bump (Reg.EMAC_LDFLUSH p) 1 7) fun u hu =>
    hu.bump 1 7 (Nat.le_add_right_of_le (by decide))
  have reported := flushed.ist (b := Reg.pgEMAC p) 2 (commitKept_ist_above (Nat.le_add_right_of_le (by decide)))
  exact (reported.wf (a := Reg.EMAC_STAT p) 30 29 2 (commitKept_above (Nat.le_add_right_of_le (by decide)))).macDown p

/-! Crypto jobs that end with a transmission (R351). -/

theorem State.besideCommit.pairSend (typ port : Nat) (data : List Byte) : s.besideCommit (t.pairSend typ port data) :=
  h.of_eq (State.pairSend_regs _ _ _ _) (State.pairSend_shadow _ _ _ _) (State.pairSend_cmt _ _ _ _)

theorem State.besideCommit.postMark (i v : Nat) : s.besideCommit (t.postMark i v) :=
  State.besideCommit.ite ((h.setCry _).pairSend _ _ _) (h.setCry _)

theorem State.besideCommit.markCross (i rsv old new : Nat) : s.besideCommit (t.markCross i rsv old new) := (h.postMark _ _).ite h

theorem State.besideCommit.pnWarn (i : Nat) : s.besideCommit (t.pnWarn i) :=
  (((h.setSa i _).ist (b := Reg.pgMSEC) 0 (by decide)).wr (a := Reg.MSEC_LASTWARN) _ (by decide)).ite h

theorem State.besideCommit.saApply (i : Nat) (w : List Nat) : s.besideCommit (t.saApply i w) := by
  have low : ∀ (c : Bool) (a : Sa), s.besideCommit ((t.setSa i a).istIf c Reg.pgMSEC 2) := fun c a => (h.setSa i a).istIf c 2 (by decide)
  unfold State.saApply
  dsimp only
  refine State.besideCommit.ite (State.besideCommit.pnWarn ?_ i) ?_ <;>
    exact ((low _ _).postMark _ _).ite (((low _ _).markCross _ _ _ _).ite (low _ _))

theorem State.besideCommit.saSettle (i : Nat) : s.besideCommit (t.saSettle i) :=
  h.ite (State.besideCommit.foldl _ (fun _ hu p _ => hu.saApply i p.2) (h.setCry _))

theorem State.besideCommit.endTxJob (x : TxNow) : s.besideCommit (t.endTxJob x) := by
  unfold State.endTxJob
  split
  · split
    · exact (h.setCry _).saSettle _
    · exact h
  · exact h

theorem State.besideCommit.abortTx (p : Nat) : s.besideCommit (t.abortTx p) := by
  unfold State.abortTx
  split
  · exact h
  · have counted := h.bump (a := Reg.EMAC_TXABORT p) 1 7 (Nat.le_add_right_of_le (by decide))
    have ended := fun x e => ((counted.endTxJob x).setEmac p e).plcaSent p
    exact ((ended _ _).freeCopy _ _).ite (ended _ _)

theorem State.besideCommit.linkDown (p : Nat) : s.besideCommit ((t.bump (Reg.EMAC_LINKDN p) 1 7).ist (Reg.pgEMAC p) 1) :=
  (h.bump 1 7 (Nat.le_add_right_of_le (by decide))).ist 1 (commitKept_ist_above (Nat.le_add_right_of_le (by decide)))

theorem State.besideCommit.emacStat (p hi lo v : Nat) : s.besideCommit (t.wf (Reg.EMAC_STAT p) hi lo v) :=
  h.wf hi lo v (commitKept_above (Nat.le_add_right_of_le (by decide)))

theorem State.besideCommit.linkLoss {p : Nat} (hp : p ≠ 17) : s.besideCommit (t.linkLoss p) := by
  have down := (((((h.abortTx p).linkDown p).emacStat p 31 29 1).emacStat p 7 4 0).setEmac p)
  exact h.ite (((down _).goDown hp).ite (down _))

theorem State.besideCommit.emacCommit {p : Nat} (hp : p ≠ 17) (old : Word) : s.besideCommit (t.emacCommit p old) := by
  unfold State.emacCommit
  dsimp only
  refine State.besideCommit.pauseAsk (.ite (.ite h ?_) (.ite (h.linkLoss hp) h)) p
  have linkDown := (h.linkDown p).ite (c := t.ethLink p = true) h
  exact ((((linkDown.abortTx p).emacStat p 31 31 0).emacStat p 7 4 0).setEmac p _).goDown hp

/-! Other consequences. -/

theorem State.besideCommit.canPend (o : State) (n : Nat) : s.besideCommit (o.canPend t n) :=
  State.besideCommit.ite (h.of_eq rfl rfl rfl) h

theorem State.besideCommit.rxsChange (o : State) (i : Nat) : s.besideCommit (o.rxsChange t i) := by
  have ended := h.wb (a := Reg.BRM_RXS_W3 i) 31 false (commitKept_above (Nat.le_add_right_of_le (by decide)))
  exact State.besideCommit.ite ended (State.besideCommit.ite (h.of_eq rfl rfl rfl) h)

theorem State.besideCommit.modeCommit : s.besideCommit t.modeCommit :=
  State.besideCommit.ite ((h.wf (a := Reg.CHIP_MODE) 17 16 1 (by decide)).wb 8 true (by decide))
    (h.wf (a := Reg.CHIP_MODE) 17 16 _ (by decide))

theorem State.besideCommit.cycPrune : s.besideCommit t.cycPrune := h.of_eq rfl rfl rfl

theorem State.besideCommit.saveDeliver : s.besideCommit t.saveDeliver := h.ite (h.wb (a := Reg.PWR_SAVECTL) 0 _ (by decide))

theorem State.besideCommit.pairCheck : s.besideCommit t.pairCheck := h.istIf _ (b := Reg.pgPAIR) 7 (by decide)

theorem State.besideCommit.commitAfter (o : State) (pages : List Nat) : s.besideCommit (o.commitAfter t pages) := by
  have can := h.foldl (List.range 24) fun _ hu n _ => (hu.canPend o n).ite (c := pages.contains (Reg.pgCANC n)) hu
  have streams := (can.foldl (List.range 64) fun _ hu i _ => hu.rxsChange o i).ite (c := pages.contains Reg.pgBRM) can
  have mode := streams.modeCommit.cycPrune.saveDeliver.ite (c := pages.contains Reg.pgCHIP) streams
  have external : ∀ p ∈ List.range 14, p ≠ 17 := by decide
  have ports := mode.foldl (List.range 14) fun _ hu p hp =>
    (hu.emacCommit (external p hp) (o.rd (Reg.EMAC_CFG p))).ite (c := pages.contains (Reg.pgEMAC p)) hu
  have pause := (ports.foldl (List.range 14) fun _ hu p _ => hu.pauseAsk p).ite (c := pages.contains Reg.pgQMG) ports
  exact State.besideCommit.ite pause.pairCheck pause

/-! The boot's own commit (R468). -/

theorem State.besideCommit.answer (st : Nat) (ws : List Nat) : s.besideCommit (t.answer st ws) := by
  have low : ∀ k, k < 16 → commitKept (Reg.LRL_RSP k) = false := by decide
  have words := (h.wr (a := Reg.LRL_RSP 0) (BitVec.ofNat 32 (st * 2 ^ 24 + t.rf (Reg.LRL_REQ 0) 23 16 * 2 ^ 16 + t.mailOp * 256 + ws.length))
    (by decide)).foldl (List.range 15) (f := fun u k => u.wr (Reg.LRL_RSP (k + 1)) (BitVec.ofNat 32 (dw ws k)))
    fun _ hu k hk => hu.wr _ (low (k + 1) (by have := List.mem_range.mp hk; omega))
  exact (((words.wb (a := Reg.LRL_STAT) 30 false (by decide)).wb 29 true (by decide)).wf 7 0 _ (by decide)).ist (b := Reg.pgLRL) 0 (by decide)

theorem State.besideCommit.mailUnknown : s.besideCommit t.mailUnknown := (h.answer _ _).ite h

theorem State.besideCommit.setPhase (p : Nat) : s.besideCommit (t.setPhase p) :=
  (h.wf (a := Reg.CHIP_BOOTSTAT) 27 24 p (by decide)).wb 31 _ (by decide)

theorem State.besideCommit.setBoot (x : Boot) : s.besideCommit { t with boot := x } := h.of_eq rfl rfl rfl

theorem State.besideCommit.bootReady : s.besideCommit t.bootReady := by
  unfold State.bootReady
  dsimp only
  refine .ite h (State.besideCommit.mailUnknown (State.besideCommit.wf ?_ (a := Reg.CHIP_BOOTSTAT) 29 28 _ (by decide)))
  exact State.besideCommit.setPhase (State.besideCommit.wr (h.setBoot _) (a := Reg.CHIP_BOOTTIME) _ (by decide)) 3

end

end Sys2Proof.Machine
end

section
/-! PROOFS. An applied commit (R58, R59): the shadows it copies, and the words it leaves in the CMT page. -/
namespace Sys2Proof.Machine

/-! Shadows put in force. -/

/-- What a commit leaves in a shadowed register of row r: the writable bits of its shadow. -/
def State.shadowed (s : State) (r : RegRow) (a : Nat) : Word := BitVec.ofNat 32 (nmerge (s.rd a).toNat (s.rdSh a).toNat r.wm)

theorem State.copyShadow_rws (s : State) {a : Nat} {r : RegRow} (row : rowAt a = some r) (acc : r.acc = .rws) :
    s.copyShadow a = s.wr a (s.shadowed r a) := by
  rw [State.copyShadow, row]
  exact if_pos acc

theorem State.rd_copyShadow_other (s : State) {a b : Nat} (h : b ≠ a) : (s.copyShadow a).rd b = s.rd b := by
  unfold State.copyShadow
  split
  · rfl
  · split
    · exact s.rd_wr_other _ h
    · rfl

/-- Copying puts words in force and changes nothing else. -/
theorem State.copyShadow_kept (s : State) (a : Nat) : (s.copyShadow a).shadow = s.shadow ∧ (s.copyShadow a).cmt = s.cmt := by
  unfold State.copyShadow
  split
  · exact ⟨rfl, rfl⟩
  · split <;> exact ⟨rfl, rfl⟩

theorem State.copied_kept (l : List Nat) (s : State) :
    (l.foldl State.copyShadow s).shadow = s.shadow ∧ (l.foldl State.copyShadow s).cmt = s.cmt := by
  induction l generalizing s with
  | nil => exact ⟨rfl, rfl⟩
  | cons a l ih =>
    obtain ⟨shadow, cmt⟩ := s.copyShadow_kept a
    obtain ⟨shadows, cmts⟩ := ih (s.copyShadow a)
    exact ⟨shadows.trans shadow, cmts.trans cmt⟩

theorem State.rd_copied_other (l : List Nat) (s : State) {a : Nat} (h : a ∉ l) : (l.foldl State.copyShadow s).rd a = s.rd a := by
  induction l generalizing s with
  | nil => rfl
  | cons b l ih =>
    rw [List.mem_cons, not_or] at h
    exact (ih (s.copyShadow b) h.2).trans (s.rd_copyShadow_other h.1)

/-- A shadowed register of the list holds its merged word, however often it is listed. -/
theorem State.rd_copied (l : List Nat) (s : State) {a : Nat} {r : RegRow} (row : rowAt a = some r) (acc : r.acc = .rws) (h : a ∈ l) :
    (l.foldl State.copyShadow s).rd a = s.shadowed r a := by
  induction l generalizing s with
  | nil => exact absurd h List.not_mem_nil
  | cons b l ih =>
    rw [List.foldl_cons]
    by_cases e : a = b
    · subst e
      rw [s.copyShadow_rws row acc]
      by_cases again : a ∈ l
      · rw [ih _ again, State.shadowed, State.rd_wr_same, State.rdSh_wr, State.shadowed, toNat_ofNat_nmerge, nmerge_idem]
      · rw [State.rd_copied_other l _ again, State.rd_wr_same]
    · have apart := s.rd_copyShadow_other (a := b) e
      rw [ih _ ((List.mem_cons.mp h).resolve_left e), State.shadowed, apart, State.rdSh, (s.copyShadow_kept b).1, ← State.rdSh,
        State.shadowed]

/-- A word that no entry of a list names is the default. -/
theorem amGetD_unlisted {β : Type} {d : β} {m : List (Nat × β)} {k : Nat} (h : k ∉ m.map (·.1)) : amGetD d m k = d := by
  rw [amGetD, Option.eq_none_iff_forall_ne_some.mpr fun w listed => h (List.mem_map_of_mem (mem_of_amGet listed)), Option.getD_none]

/-- A shadowed register of a page in the commit takes its shadow. -/
theorem State.rd_copyShadows (s : State) {pages : List Nat} {a : Nat} {r : RegRow} (row : rowAt a = some r) (acc : r.acc = .rws)
    (page : pageBase a ∈ pages) (o : 0x100 ≤ a % 0x1000) : (s.copyShadows pages).rd a = s.shadowed r a := by
  unfold State.copyShadows
  by_cases listed : a ∈ s.shadow.map (·.1) ++ s.regs.map (·.1)
  · exact State.rd_copied _ s row acc (List.mem_filter.mpr ⟨listed, by simp [page, o]⟩)
  · have unlisted := listed
    rw [List.mem_append, not_or] at unlisted
    rw [State.rd_copied_other _ s fun h => listed (List.mem_filter.mp h).1, State.shadowed, State.rd, State.rdSh,
      amGetD_unlisted unlisted.1, amGetD_unlisted unlisted.2, nmerge_self, BitVec.ofNat_toNat, BitVec.setWidth_eq]

/-- A register of a page outside the commit keeps its word. -/
theorem State.rd_copyShadows_other (s : State) {pages : List Nat} {a : Nat} (page : pageBase a ∉ pages) :
    (s.copyShadows pages).rd a = s.rd a :=
  State.rd_copied_other _ s fun h => page (by simpa using (Bool.and_eq_true_iff.mp (List.mem_filter.mp h).2).1)

/-! The steps of an application. -/

/-- The state whose settings a commit replaces: the aggregates of R158 are sent before. -/
def State.commitFlushed (s : State) : State :=
  if (s.commitPages s.cmt.mask).contains Reg.pgBRM then s.flushStreams else s

/-- CMT_SEQ after the commit (R59). -/
def State.commitCount (s : State) : Nat := ((s.commitFlushed.rd Reg.CMT_SEQ).toNat + 1) % 2 ^ 32

/-- The shadows are copied, the commit is counted, and its pages note its number. -/
def State.commitCopied (s : State) : State :=
  (s.commitPages s.cmt.mask).foldl (fun t b => t.wr (Reg.PG_CSTAT b) (BitVec.ofNat 32 (s.commitCount % 65536)))
    (({ s.commitFlushed.copyShadows (s.commitPages s.cmt.mask) with prev := s.commitFlushed.regs } : State).wr Reg.CMT_SEQ
      (BitVec.ofNat 32 s.commitCount))

/-- The checks and consequences of the chapters follow. -/
def State.commitSettled (s : State) : State :=
  s.commitFlushed.commitAfter (s.commitFlushed.commitChecks s.commitCopied (s.commitPages s.cmt.mask)) (s.commitPages s.cmt.mask)

/-- The report in the CMT page of a commit of mask m from source src. -/
def State.commitReport (t : State) (m src : Nat) : State :=
  (((((t.wr Reg.CMT_LAST_GRP (BitVec.ofNat 32 m)).loadTime Reg.CMT_LAST_NS t.tsy.full).wf Reg.CMT_STAT 2 0 0).wf Reg.CMT_STAT 13 12
    src).wb Reg.CMT_TCTL 0 false).ist Reg.pgCMT 0

/-- LATE is reported with its event. -/
def State.commitLate (t : State) (late : Bool) : State := if late then (t.wb Reg.CMT_STAT 8 true).ist Reg.pgCMT 1 else t

theorem State.commitApply_eq (s : State) : ∃ late l, s.commitApply
    = (((s.commitSettled.commitReport s.cmt.mask s.commitFlushed.cmt.src).commitLate late).trace 8 0 l).bootReady := ⟨_, _, rfl⟩

theorem State.besideCommit_flushed (s : State) : s.besideCommit s.commitFlushed :=
  (State.besideCommit.flushStreams (.refl s)).ite (.refl s)

theorem State.besideCommit_settled (s : State) : s.commitCopied.besideCommit s.commitSettled :=
  ((State.besideCommit.refl _).commitChecks _ _).commitAfter _ _

/-- The note of the commit's number in the pages changes no other register. -/
theorem State.rd_noted (l : List Nat) (t : State) (w : Word) {a : Nat} (h : ∀ b ∈ l, a ≠ Reg.PG_CSTAT b) :
    (l.foldl (fun t b => t.wr (Reg.PG_CSTAT b) w) t).rd a = t.rd a := by
  induction l generalizing t with
  | nil => rfl
  | cons b l ih =>
    rw [List.foldl_cons, ih _ fun c hc => h c (List.mem_cons_of_mem b hc), State.rd_wr_other _ _ (h b List.mem_cons_self)]

theorem State.noted_kept (l : List Nat) (t : State) (w : Word) :
    (l.foldl (fun t b => t.wr (Reg.PG_CSTAT b) w) t).shadow = t.shadow := by
  induction l generalizing t with
  | nil => rfl
  | cons b l ih => exact ih _

theorem yatricPages_aligned : ∀ b ∈ yatricPages, b % 0x1000 = 0 := by
  intro b hb
  obtain ⟨k, hk, hb⟩ := List.mem_flatMap.mp hb
  obtain ⟨i, -, rfl⟩ := List.mem_map.mp hb
  have aligned : ∀ k ∈ pageRuns, k.base % 0x1000 = 0 := by decide
  have := aligned k (List.mem_filter.mp hk).1
  omega

/-- A register above the header is no PG_CSTAT of a page in the commit. -/
theorem State.ne_cstat (s : State) (m : Nat) {a : Nat} (o : 0x100 ≤ a % 0x1000) : ∀ b ∈ s.commitPages m, a ≠ Reg.PG_CSTAT b :=
  fun b hb => ne_hdr (yatricPages_aligned b (List.mem_filter.mp hb).1) o (by decide)

/-- After the copies CMT_SEQ is one more, with wrap (R59). -/
theorem State.rd_commitCopied_seq (s : State) : s.commitCopied.rd Reg.CMT_SEQ = s.rd Reg.CMT_SEQ + 1 := by
  rw [State.commitCopied, State.rd_noted _ _ _ (s.ne_cstat _ (by decide)), State.rd_wr_same, State.commitCount,
    s.besideCommit_flushed.regs _ (by decide)]
  apply BitVec.eq_of_toNat_eq
  simp

/-- Every other register above the header holds what the copies left. -/
theorem State.rd_commitCopied (s : State) {a : Nat} (o : 0x100 ≤ a % 0x1000) (h : a ≠ Reg.CMT_SEQ) :
    s.commitCopied.rd a = (s.commitFlushed.copyShadows (s.commitPages s.cmt.mask)).rd a := by
  rw [State.commitCopied, State.rd_noted _ _ _ (s.ne_cstat _ o), State.rd_wr_other _ _ h]
  rfl

theorem State.rdSh_commitCopied (s : State) (a : Nat) : s.commitCopied.rdSh a = s.commitFlushed.rdSh a := by
  have kept : s.commitCopied.shadow = s.commitFlushed.shadow := (State.noted_kept _ _ _).trans (State.copied_kept _ _).1
  rw [State.rdSh, kept, State.rdSh]

/-! The report. -/

theorem State.rd_loadTime_other (t : State) {a b : Nat} (n : Nat) (h : b ≠ a ∧ b ≠ a + 4 ∧ b ≠ a + 8) :
    (t.loadTime a n).rd b = t.rd b := by
  obtain ⟨ns, low, high⟩ := h
  rw [State.loadTime, State.rd_wr_other _ _ high, State.rd_wr_other _ _ low, State.rd_wr_other _ _ ns]

/-- The report changes the CMT page alone. -/
theorem State.rd_commitReport_other (t : State) (m src : Nat) {a : Nat} (h : 0x2000 ≤ a) : (t.commitReport m src).rd a = t.rd a := by
  have apart : ∀ {b : Nat}, b < 0x2000 → a ≠ b := fun hb => by omega
  rw [State.commitReport, State.rd_ist_other _ _ _ _ (apart (by decide)), State.rd_wb_other _ _ _ (apart (by decide)),
    State.rd_wf_other _ _ _ _ (apart (by decide)), State.rd_wf_other _ _ _ _ (apart (by decide)),
    State.rd_loadTime_other _ _ ⟨apart (by decide), apart (by decide), apart (by decide)⟩, State.rd_wr_other _ _ (apart (by decide))]

theorem State.rdSh_ist (t : State) (b i a : Nat) : (t.ist b i).rdSh a = t.rdSh a := by
  rw [State.rdSh, State.ist, State.syncPage_shadow, ← State.rdSh, State.rdSh_wb]

theorem State.rdSh_commitReport (t : State) (m src : Nat) (a : Nat) : (t.commitReport m src).rdSh a = t.rdSh a := by
  simp only [State.commitReport, State.rdSh_ist, State.rdSh_wb, State.wf, State.loadTime, State.rdSh_wr]

theorem State.commitLate_true (t : State) : t.commitLate true = (t.wb Reg.CMT_STAT 8 true).ist Reg.pgCMT 1 := if_pos rfl

theorem State.commitLate_false (t : State) : t.commitLate false = t := if_neg Bool.false_ne_true

theorem State.rd_commitLate_other (t : State) (late : Bool) {a : Nat} (stat : a ≠ Reg.CMT_STAT) (ist : a ≠ Reg.PG_IST Reg.pgCMT) :
    (t.commitLate late).rd a = t.rd a := by
  cases late
  · rw [State.commitLate_false]
  · rw [State.commitLate_true, State.rd_ist_other _ _ _ _ ist, State.rd_wb_other _ _ _ stat]

theorem State.rdSh_commitLate (t : State) (late : Bool) (a : Nat) : (t.commitLate late).rdSh a = t.rdSh a := by
  cases late
  · rw [State.commitLate_false]
  · rw [State.commitLate_true, State.rdSh_ist, State.rdSh_wb]

/-- What the report leaves (R58, R59). -/
theorem State.commitLeaves_report {s t : State} (m src : Nat) (seq : t.rd Reg.CMT_SEQ = s.rd Reg.CMT_SEQ + 1) :
    s.commitLeaves (t.commitReport m src) m src := by
  have event : ∀ (u : State) (a : Nat), a ≠ Reg.PG_IST Reg.pgCMT → (u.ist Reg.pgCMT 0).rd a = u.rd a := fun u a => u.rd_ist_other _ _ a
  refine ⟨?_, ?_, ?_, ?_, State.rb_ist_same _ _ _ (by decide)⟩
  · rw [State.commitReport, event _ _ (by decide), State.rd_wb_other _ _ _ (by decide), State.rd_wf_other _ _ _ _ (by decide),
      State.rd_wf_other _ _ _ _ (by decide), State.rd_loadTime_other _ _ (by decide), State.rd_wr_other _ _ (by decide), seq]
  · rw [State.rf, State.commitReport, event _ _ (by decide), State.rd_wb_other _ _ _ (by decide), ← State.rf,
      State.rf_wf_apart _ _ _ _ _ _ _ (by decide) (by decide), State.rf_wf_same _ _ _ _ _ (by decide), Nat.zero_mod]
  · rw [State.commitReport, event _ _ (by decide), State.rd_wb_other _ _ _ (by decide), State.rd_wf_other _ _ _ _ (by decide),
      State.rd_wf_other _ _ _ _ (by decide), State.rd_loadTime_other _ _ (by decide), State.rd_wr_same]
  · rw [State.rf, State.commitReport, event _ _ (by decide), State.rd_wb_other _ _ _ (by decide), ← State.rf,
      State.rf_wf_same _ _ _ _ _ (by decide)]
    rfl

/-- LATE and its event move nothing that the report left. -/
theorem State.commitLeaves_late {s t : State} {m src : Nat} (h : s.commitLeaves t m src) (late : Bool) :
    s.commitLeaves (t.commitLate late) m src := by
  cases late
  · rwa [State.commitLate_false]
  · obtain ⟨seq, idle, groups, source, done⟩ := h
    have stat : ∀ hi lo, hi < 8 ∨ 8 < lo → hi < 32 → (t.commitLate true).rf Reg.CMT_STAT hi lo = t.rf Reg.CMT_STAT hi lo := by
      intro hi lo d g
      rw [State.rf, State.commitLate_true, State.rd_ist_other _ _ _ _ (by decide), ← State.rf, State.rf_wb_apart _ _ _ _ _ _ d g]
    refine ⟨?_, ?_, ?_, ?_, ?_⟩
    · rw [State.rd_commitLate_other _ _ (by decide) (by decide), seq]
    · rw [stat _ _ (by decide) (by decide), idle]
    · rw [State.rd_commitLate_other _ _ (by decide) (by decide), groups]
    · rw [stat _ _ (by decide) (by decide), source]
    · rw [State.commitLate_true, State.rb_ist_mono _ _ ((State.rb_wb_other _ _ _ _ (by decide)).trans done) (by decide)]

theorem State.commitLeaves_beside {s t u : State} {m src : Nat} (h : s.commitLeaves t m src) (g : t.besideCommit u) :
    s.commitLeaves u m src := by
  obtain ⟨seq, idle, groups, source, done⟩ := h
  have reg : ∀ a, commitKept a = true → u.rd a = t.rd a := g.regs
  refine ⟨?_, ?_, ?_, ?_, ?_⟩
  · rw [reg _ (by decide), seq]
  · rw [State.rf, reg _ (by decide), ← State.rf, idle]
  · rw [reg _ (by decide), groups]
  · rw [State.rf, reg _ (by decide), ← State.rf, source]
  · rw [State.rb, reg _ (by decide), ← State.rb, done]

/-! The whole application. -/

/-- An applied commit is counted and reported with its mask and its source (R58, R59). -/
theorem State.commitApply_leaves (s : State) : s.commitLeaves s.commitApply s.cmt.mask s.cmt.src := by
  obtain ⟨late, l, applied⟩ := s.commitApply_eq
  have seq : s.commitSettled.rd Reg.CMT_SEQ = s.rd Reg.CMT_SEQ + 1 :=
    (s.besideCommit_settled.regs _ (by decide)).trans s.rd_commitCopied_seq
  rw [applied, s.besideCommit_flushed.cmt]
  exact State.commitLeaves_beside (State.commitLeaves_late (State.commitLeaves_report _ _ seq) late)
    (((State.besideCommit.refl _).trace _ _ _).bootReady)

/-- A setting of a CAN controller holds what the copies left; its shadow stays. -/
theorem State.rd_commitApply_can (s : State) {a : Nat} (kept : commitKept a = true) (can : 0x2000 ≤ a) (o : 0x100 ≤ a % 0x1000) :
    s.commitApply.rd a = (s.commitFlushed.copyShadows (s.commitPages s.cmt.mask)).rd a ∧ s.commitApply.rdSh a = s.rdSh a := by
  obtain ⟨late, l, applied⟩ := s.commitApply_eq
  have after := fun t : State => ((State.besideCommit.refl t).trace 8 0 l).bootReady
  rw [applied]
  constructor
  · rw [(after _).regs a kept, State.rd_commitLate_other _ _ (by dsimp only [Reg.CMT_STAT]; omega) (by dsimp only [Reg.PG_IST, Reg.pgCMT]; omega),
      State.rd_commitReport_other _ _ _ can, s.besideCommit_settled.regs a kept, s.rd_commitCopied o (by dsimp only [Reg.CMT_SEQ]; omega)]
  · rw [State.rdSh, (after _).shadow, ← State.rdSh, State.rdSh_commitLate, State.rdSh_commitReport, State.rdSh,
      s.besideCommit_settled.shadow, ← State.rdSh, State.rdSh_commitCopied, State.rdSh, s.besideCommit_flushed.shadow, ← State.rdSh]

/-- The settings of a CAN controller lie in its page, are kept by what follows the copies, and are shadowed (R96). -/
theorem canCfgRegs_rows : ∀ n < 24, ∀ a ∈ canCfgRegs n, commitKept a = true ∧ 0x2000 ≤ a ∧ 0x100 ≤ a % 0x1000
    ∧ pageBase a = Reg.pgCANC n ∧ (rowAt a).all (fun r => r.acc == .rws) = true := by
  decide

/-- The page of a CAN controller is in a commit whose mask names its group. -/
theorem State.mem_commitPages_can (s : State) (m : Nat) {n : Nat} (hn : n < 24) :
    Reg.pgCANC n ∈ s.commitPages m ↔ nbit m (s.rf (Reg.PG_CGRP (Reg.pgCANC n)) 3 0) = true := by
  have page : ∀ n < 24, Reg.pgCANC n ∈ yatricPages := by decide
  simp [State.commitPages, page n hn]

/-- Settles O14: the six registers of a controller through each step of the application. -/
theorem commitCopiesTheShadowsOfItsGroups : Obligations.CommitCopiesTheShadowsOfItsGroups := by
  intro s n a hn ha
  obtain ⟨kept, can, o, page, shadowed⟩ := canCfgRegs_rows n hn a ha
  obtain ⟨value, shadow⟩ := s.rd_commitApply_can kept can o
  have before := s.besideCommit_flushed
  refine ⟨fun named r row => ?_, fun apart => ?_, shadow⟩
  · have acc : r.acc = .rws := by simpa [row] using shadowed
    rw [value, State.rd_copyShadows _ row acc (page ▸ (s.mem_commitPages_can _ hn).mpr named) o, State.shadowed, before.regs a kept,
      State.rdSh, before.shadow, ← State.rdSh]
  · have outside : pageBase a ∉ s.commitPages s.cmt.mask := by
      rw [page, s.mem_commitPages_can _ hn, apart]
      exact Bool.false_ne_true
    rw [value, State.rd_copyShadows_other _ outside, before.regs a kept]

end Sys2Proof.Machine
end

section
/-! PROOFS. Commit requests (R55-R57): the writes that carry them, what a refusal, a sample and a withdrawal leave, and the statements
about them. -/
namespace Sys2Proof.Machine

/-- u has the registers, tables and bytes of s, the same sampled request, the same jobs and the same time. -/
structure State.sameCommit (s u : State) : Prop where
  frame : s.changesOnly u []
  cmt : u.cmt = s.cmt
  prv : u.prv = s.prv
  tsy : u.tsy = s.tsy

theorem State.sameCommit.rd {s u : State} (h : s.sameCommit u) (a : Nat) : u.rd a = s.rd a := h.frame.1 a List.not_mem_nil

theorem State.sameCommit.rf {s u : State} (h : s.sameCommit u) (a hi lo : Nat) : u.rf a hi lo = s.rf a hi lo :=
  congrArg (fld · hi lo) (h.rd a)

theorem State.sameCommit.rb {s u : State} (h : s.sameCommit u) (a i : Nat) : u.rb a i = s.rb a i := congrArg (bitOf · i) (h.rd a)

theorem State.sameCommit.commitTarget {s u : State} (h : s.sameCommit u) : u.commitTarget = s.commitTarget := by
  rw [State.commitTarget, h.rd, h.rf, h.rd, State.commitTarget]

/-- Which jobs are of an older epoch depends on CMT_SEQ and on Privet. -/
theorem State.oldJobs_congr {s t : State} (seq : t.rd Reg.CMT_SEQ = s.rd Reg.CMT_SEQ) (prv : t.prv = s.prv) : t.oldJobs = s.oldJobs := by
  have epoch : t.epoch = s.epoch := by rw [State.epoch, seq, State.epoch]
  unfold State.oldJobs
  rw [epoch, prv]

theorem State.sameCommit.oldJobs {s u : State} (h : s.sameCommit u) : u.oldJobs = s.oldJobs := State.oldJobs_congr (h.rd _) h.prv

/-! The writes that carry a request. -/

theorem State.sameCommit_setUnlock (s : State) (i : Initiator) (a : Nat) (x : Bool) : s.sameCommit (s.setUnlock i a x) :=
  ⟨s.changesOnly_setUnlock i a x, rfl, rfl, rfl⟩

/-- A word written again is no change. -/
theorem State.changesOnly_wr_self (s : State) (a : Nat) : s.changesOnly (s.wr a (s.rd a)) [] := by
  obtain ⟨regs, tables, bytes⟩ := s.changesOnly_wr a (s.rd a)
  refine ⟨fun b _ => ?_, tables, bytes⟩
  by_cases e : b = a
  · rw [e, State.rd_wr_same]
  · exact State.rd_wr_other _ _ e

theorem State.sameCommit.wr_self {s u : State} (h : s.sameCommit u) (a : Nat) : s.sameCommit (u.wr a (u.rd a)) :=
  ⟨h.frame.step (u.changesOnly_wr_self a), h.cmt, h.prv, h.tsy⟩

/-- A write of CMT_GO acts on the state as it is: the register stores nothing. -/
theorem State.cmdWrite_cmtGo {s : State} (i : Initiator) (v : Word) (f : State → State) (run : s.pwr.held = false) :
    ∃ u, s.sameCommit u ∧ s.cmdWrite i Reg.CMT_GO v f = f u := by
  have row : rowAt Reg.CMT_GO = some ⟨0x104, 4, 1, 4, 1, .wo, 0x0, 0x0, 0x0, false⟩ := rfl
  refine ⟨_, s.sameCommit_setUnlock i Reg.CMT_GO false, ?_⟩
  rw [State.cmdWrite_row run row (by decide) (fun h => nomatch h) (fun h => nomatch h) rfl,
    State.store_none _ _ _ (by decide) (.inr (.inr rfl))]

/-- A write of CMT_TCTL too: it has no writable bit. -/
theorem State.cmdWrite_cmtTctl {s : State} (i : Initiator) (v : Word) (f : State → State) (run : s.pwr.held = false) :
    ∃ u, s.sameCommit u ∧ s.cmdWrite i Reg.CMT_TCTL v f = f u := by
  have row : rowAt Reg.CMT_TCTL = some ⟨0x114, 4, 1, 4, 1, .rw, 0x0, 0x0, 0x0, false⟩ := rfl
  have same : (s.setUnlock i Reg.CMT_TCTL false).store i ⟨0x114, 4, 1, 4, 1, .rw, 0x0, 0x0, 0x0, false⟩ Reg.CMT_TCTL v
      = (s.setUnlock i Reg.CMT_TCTL false).wr Reg.CMT_TCTL ((s.setUnlock i Reg.CMT_TCTL false).rd Reg.CMT_TCTL) := by
    rw [State.store_direct _ _ _ (by decide) (.inl rfl) rfl rfl, RegRow.written_merge rfl, nmerge_zero, BitVec.ofNat_toNat,
      BitVec.setWidth_eq]
  refine ⟨_, (s.sameCommit_setUnlock i Reg.CMT_TCTL false).wr_self Reg.CMT_TCTL, ?_⟩
  rw [State.cmdWrite_row run row (by decide) (fun h => nomatch h) (fun h => nomatch h) rfl, same]

theorem cmtGoWrite_request (i : Initiator) {v : Word} (s : State) (go : bitOf v 0 = true) : cmtGoWrite i v s = s.commitRequest i false :=
  if_pos go

theorem cmtTctlWrite_arm (i : Initiator) {v : Word} (s : State) (go : bitOf v 0 = true) (keep : bitOf v 1 = false) :
    cmtTctlWrite i v s = s.commitRequest i true := by
  rw [cmtTctlWrite, if_pos go, if_neg (by rw [keep]; decide)]

theorem cmtTctlWrite_cancel (i : Initiator) {v : Word} (s : State) (keep : bitOf v 0 = false) (withdraw : bitOf v 1 = true) :
    cmtTctlWrite i v s = s.commitCancel := by
  rw [cmtTctlWrite, if_neg (by rw [keep]; decide), if_pos withdraw]

/-! Refusals. -/

/-- What a refusal with the given bit of CMT_STAT leaves (R55). -/
def State.refusedCommit (s t : State) (bit : Nat) : Prop :=
  t.rb Reg.CMT_STAT bit = true ∧ t.rb (Reg.PG_IST Reg.pgCMT) 2 = true ∧ t.cmt = s.cmt
    ∧ s.changesOnly t [Reg.CMT_STAT, Reg.PG_IST Reg.pgCMT]

theorem State.refusedCommit_commitRefuse (s : State) {bit : Nat} (h : bit < 32) : s.refusedCommit (s.commitRefuse bit) bit := by
  refine ⟨?_, State.rb_ist_same _ _ _ (by decide), State.syncPage_cmt _ _, (s.changesOnly_wb _ bit true).trans (State.changesOnly_ist _ _ _)⟩
  rw [State.commitRefuse, State.rb, State.rd_ist_other _ _ _ _ (by decide), ← State.rb, State.rb_wb_same _ _ _ _ h]

theorem State.sameCommit.refused {s u t : State} (h : s.sameCommit u) {bit : Nat} (g : u.refusedCommit t bit) : s.refusedCommit t bit := by
  obtain ⟨stat, event, cmt, frame⟩ := g
  exact ⟨stat, event, cmt.trans h.cmt, h.frame.trans frame⟩

theorem State.commitRequest_pending {s : State} (i : Initiator) (timed : Bool) (h : s.rb Reg.CMT_STAT 0 = true) :
    s.commitRequest i timed = s.commitRefuse 9 := if_pos h

theorem State.commitRequest_noGroup {s : State} (i : Initiator) (timed : Bool) (idle : s.rb Reg.CMT_STAT 0 = false)
    (h : s.rf Reg.CMT_ARM 15 0 = 0) : s.commitRequest i timed = s.commitRefuse 10 := by
  rw [State.commitRequest, if_neg (by rw [idle]; decide), if_pos h]

theorem State.commitRequest_badTime {s : State} (i : Initiator) (idle : s.rb Reg.CMT_STAT 0 = false) (named : s.rf Reg.CMT_ARM 15 0 ≠ 0)
    (h : 999999999 < (s.rd Reg.CMT_TIME_NS).toNat) : s.commitRequest i true = s.commitRefuse 11 := by
  rw [State.commitRequest, if_neg (by rw [idle]; decide), if_neg named, if_pos ⟨rfl, h⟩]

/-- Every request that R55 refuses, at its first ground; the order of the grounds is the model's choice (log entry 42). -/
theorem State.refusedCommit_commitRequest {s : State} (i : Initiator) (timed : Bool)
    (h : s.rb Reg.CMT_STAT 0 = true ∨ s.rf Reg.CMT_ARM 15 0 = 0 ∨ timed = true ∧ 999999999 < (s.rd Reg.CMT_TIME_NS).toNat) :
    s.refusedCommit (s.commitRequest i timed) (if s.rb Reg.CMT_STAT 0 then 9 else if s.rf Reg.CMT_ARM 15 0 = 0 then 10 else 11) := by
  cases pending : s.rb Reg.CMT_STAT 0 with
  | true =>
    rw [State.commitRequest_pending i timed pending]
    exact s.refusedCommit_commitRefuse (by decide)
  | false =>
    by_cases unnamed : s.rf Reg.CMT_ARM 15 0 = 0
    · rw [State.commitRequest_noGroup i timed pending unnamed, if_pos unnamed]
      exact s.refusedCommit_commitRefuse (by decide)
    · obtain ⟨rfl, late⟩ := (h.resolve_left (by rw [pending]; decide)).resolve_left unnamed
      rw [State.commitRequest_badTime i pending unnamed late, if_neg unnamed]
      exact s.refusedCommit_commitRefuse (by decide)

/-! Accepted requests. -/

/-- The request is sampled and pending (R55, R57). -/
def State.sampleCommit (s : State) (i : Initiator) (timed : Bool) : State :=
  ({ s with cmt := ⟨s.rf Reg.CMT_ARM 15 0, s.commitTarget, 2 * timed.toNat + (i == .laurel).toNat⟩ } : State).wf Reg.CMT_STAT 2 0
    (1 + 2 * timed.toNat)

theorem State.commitRequest_immediate {s : State} (i : Initiator) (idle : s.rb Reg.CMT_STAT 0 = false) (named : s.rf Reg.CMT_ARM 15 0 ≠ 0) :
    s.commitRequest i false = (s.sampleCommit i false).commitDue := by
  rw [State.commitRequest, if_neg (by rw [idle]; decide), if_neg named, if_neg (fun h => nomatch h.1),
    State.sampleCommit]
  exact if_neg Bool.false_ne_true

/-- A timed request whose target lies ahead arms. -/
theorem State.commitRequest_armed {s : State} (i : Initiator) (idle : s.rb Reg.CMT_STAT 0 = false) (named : s.rf Reg.CMT_ARM 15 0 ≠ 0)
    (time : (s.rd Reg.CMT_TIME_NS).toNat ≤ 999999999) (ahead : s.tsy.full < s.commitTarget) :
    s.commitRequest i true = (s.sampleCommit i true).wb Reg.CMT_TCTL 0 true := by
  rw [State.commitRequest, if_neg (by rw [idle]; decide), if_neg named, if_neg (fun h => absurd time (by omega)),
    State.sampleCommit]
  dsimp only
  rw [if_pos rfl]
  exact if_neg (Nat.not_le.mpr ahead)

theorem State.changesOnly_sampleCommit (s : State) (i : Initiator) (timed : Bool) : s.changesOnly (s.sampleCommit i timed) [Reg.CMT_STAT] :=
  (State.changesOnly_of_eq (s := s) (t := { s with cmt := _ }) rfl rfl rfl rfl rfl rfl rfl rfl).trans (State.changesOnly_wf _ _ _ _ _)

/-- A bit inside a written field. -/
theorem State.rb_wf_inside (s : State) (a hi lo v : Nat) {i : Nat} (low : lo ≤ i) (high : i ≤ hi) (h : i < 32) :
    (s.wf a hi lo v).rb a i = v.testBit (i - lo) := by
  rw [State.rb, State.wf, State.rd_wr_same, bitOf, nbit_testBit, setFld_testBit _ _ _ _ _ h, if_pos ⟨low, by omega⟩]

theorem State.sameCommit.sampled {s u : State} (h : s.sameCommit u) (i : Initiator) (timed : Bool) :
    s.changesOnly (u.sampleCommit i timed) [Reg.CMT_STAT] :=
  h.frame.trans (u.changesOnly_sampleCommit i timed)

theorem State.sameCommit.cmt_sampled {s u : State} (h : s.sameCommit u) (i : Initiator) (timed : Bool) :
    (u.sampleCommit i timed).cmt = ⟨s.rf Reg.CMT_ARM 15 0, s.commitTarget, 2 * timed.toNat + (i == .laurel).toNat⟩ := by
  rw [← h.rf, ← h.commitTarget]
  rfl

/-- The sampled request is pending, timed or not, and not held. -/
theorem State.rb_sampleCommit (s : State) (i : Initiator) (timed : Bool) {b : Nat} (h : b < 3) :
    (s.sampleCommit i timed).rb Reg.CMT_STAT b = (1 + 2 * timed.toNat).testBit b :=
  State.rb_wf_inside _ _ _ _ _ (Nat.zero_le b) (by omega) (by omega)

theorem State.oldJobs_sampleCommit (s : State) (i : Initiator) (timed : Bool) : (s.sampleCommit i timed).oldJobs = s.oldJobs :=
  State.oldJobs_congr ((s.changesOnly_sampleCommit i timed).1 _ (by decide)) rfl

/-- A commit counts from the CMT_SEQ it finds. -/
theorem State.commitLeaves_congr {s t u : State} {m src : Nat} (seq : t.rd Reg.CMT_SEQ = s.rd Reg.CMT_SEQ) (h : t.commitLeaves u m src) :
    s.commitLeaves u m src := by rwa [State.commitLeaves, ← seq]

/-- A due commit that no older job delays applies (R22). -/
theorem State.commitDue_free {s : State} (h : s.oldJobs = false) : s.commitDue = s.commitApply := if_neg (by rw [h]; decide)

theorem State.commitDue_held {s : State} (h : s.oldJobs = true) : s.commitDue = s.wb Reg.CMT_STAT 2 true := if_pos h

/-! Withdrawals. -/

/-- A timed commit is withdrawn before its instant (R57). -/
theorem State.commitCancel_ahead {s : State} (pending : s.rb Reg.CMT_STAT 0 = true) (timed : s.rb Reg.CMT_STAT 1 = true)
    (ahead : s.tsy.full < s.cmt.target) : s.commitCancel = (s.wf Reg.CMT_STAT 2 0 0).wb Reg.CMT_TCTL 0 false := by
  simp [State.commitCancel, pending, timed, ahead]

theorem State.rd_commitCancel_other (s : State) {a : Nat} (stat : a ≠ Reg.CMT_STAT) (tctl : a ≠ Reg.CMT_TCTL) :
    s.commitCancel.rd a = s.rd a := by
  unfold State.commitCancel
  split
  · rw [State.rd_wb_other _ _ _ tctl, State.rd_wf_other _ _ _ _ stat]
  · rfl

/-! The statements. -/

/-- Settles O13: the applied commit is counted; refusals and withdrawals change other registers. -/
theorem commitSequenceCountsAppliedCommits : Obligations.CommitSequenceCountsAppliedCommits := by
  intro s
  obtain ⟨seq, -⟩ := s.commitApply_leaves
  have refused : ∀ bit, (s.commitRefuse bit).rd Reg.CMT_SEQ = s.rd Reg.CMT_SEQ := fun bit =>
    (State.rd_ist_other _ _ _ _ (by decide)).trans (State.rd_wb_other _ _ _ (by decide))
  refine ⟨seq, rfl, ?_, refused, s.rd_commitCancel_other (by decide) (by decide), fun init timed h => ?_⟩
  · rw [State.epoch, seq, State.epoch, BitVec.toNat_add]
    have one : (1 : Word).toNat = 1 := rfl
    omega
  · cases pending : s.rb Reg.CMT_STAT 0 with
    | true => rw [State.commitRequest_pending init timed pending, refused]
    | false => rw [State.commitRequest_noGroup init timed pending (h.resolve_left (by rw [pending]; decide)), refused]

/-- Settles O12: a write of CMT_GO, then of CMT_TCTL, as a request on the registers it found. -/
theorem refusedCommitsChangeOnlyTheirStatus : Obligations.RefusedCommitsChangeOnlyTheirStatus := by
  intro s init v run go
  refine ⟨fun h => ?immediate, fun arm h => ?timed⟩
  case immediate =>
    obtain ⟨u, same, write⟩ := State.cmdWrite_cmtGo init v (cmtGoWrite init v) run
    have refused := same.refused (State.refusedCommit_commitRequest init false (by rw [same.rb, same.rf]; exact h.imp_right .inl))
    rw [cmtGoWrite_request _ _ go] at write
    refine .of_exec (congrArg Host.Outcome.next write) ?_
    cases pending : s.rb Reg.CMT_STAT 0 with
    | true => rwa [same.rb, pending] at refused
    | false => rwa [same.rb, pending, same.rf, if_pos (h.resolve_left (by rw [pending]; decide))] at refused
  case timed =>
    obtain ⟨u, same, write⟩ := State.cmdWrite_cmtTctl init v (cmtTctlWrite init v) run
    have refused := same.refused (State.refusedCommit_commitRequest init true
      (by rw [same.rb, same.rf, same.rd]; exact h.imp_right (.imp_right fun late => ⟨rfl, late⟩)))
    rw [cmtTctlWrite_arm _ _ go arm] at write
    rw [same.rb, same.rf] at refused
    exact .of_exec (congrArg Host.Outcome.next write) refused

/-- Settles O11: the accepted requests, a withdrawal, and the two commands that find the commit's instant come. -/
theorem commitRequestsAreJudgedThenHeldOrApplied : Obligations.CommitRequestsAreJudgedThenHeldOrApplied := by
  intro s init v run
  refine ⟨fun idle named go free => ?applied, fun idle named go old => ?held, fun idle named go keep time ahead => ?armed,
    fun pending timed ahead keep withdraw => ?withdrawn, fun pending timed due => ?due, fun pending held free => ?released⟩
  case applied =>
    obtain ⟨u, same, write⟩ := State.cmdWrite_cmtGo init v (cmtGoWrite init v) run
    have leaves := (u.sampleCommit init false).commitApply_leaves
    rw [same.cmt_sampled, Bool.toNat_false, Nat.mul_zero, Nat.zero_add] at leaves
    rw [cmtGoWrite_request _ _ go, State.commitRequest_immediate init (by rwa [same.rb]) (by rwa [same.rf]),
      State.commitDue_free (by rwa [State.oldJobs_sampleCommit, same.oldJobs])] at write
    exact .of_exec (congrArg Host.Outcome.next write) (State.commitLeaves_congr ((same.sampled init false).1 _ (by decide)) leaves)
  case held =>
    obtain ⟨u, same, write⟩ := State.cmdWrite_cmtGo init v (cmtGoWrite init v) run
    rw [cmtGoWrite_request _ _ go, State.commitRequest_immediate init (by rwa [same.rb]) (by rwa [same.rf]),
      State.commitDue_held (by rwa [State.oldJobs_sampleCommit, same.oldJobs])] at write
    refine .of_exec (congrArg Host.Outcome.next write) ⟨?_, State.rb_wb_same _ _ _ _ (by decide), ?_,
      (same.sampled init false).step (State.changesOnly_wb _ _ _ _)⟩
    · rw [State.rb_wb_apart _ _ _ _ _ (by decide) (by decide), State.rb_sampleCommit _ _ _ (by decide)]
      rfl
    · exact congrArg CommitUnit.mask (same.cmt_sampled init false)
  case armed =>
    obtain ⟨u, same, write⟩ := State.cmdWrite_cmtTctl init v (cmtTctlWrite init v) run
    rw [cmtTctlWrite_arm _ _ go keep, State.commitRequest_armed init (by rwa [same.rb]) (by rwa [same.rf]) (by rwa [same.rd])
      (by rwa [same.tsy, same.commitTarget])] at write
    have bit : ∀ b < 3, ((u.sampleCommit init true).wb Reg.CMT_TCTL 0 true).rb Reg.CMT_STAT b = (3 : Nat).testBit b := fun b hb =>
      (State.rb_wb_other _ _ _ _ (by decide)).trans (State.rb_sampleCommit _ _ _ hb)
    exact .of_exec (congrArg Host.Outcome.next write) ⟨same.cmt_sampled init true, bit 0 (by decide), bit 1 (by decide), bit 2 (by decide),
      State.rb_wb_same _ _ _ _ (by decide), (same.sampled init true).trans (State.changesOnly_wb _ _ _ _)⟩
  case withdrawn =>
    obtain ⟨u, same, write⟩ := State.cmdWrite_cmtTctl init v (cmtTctlWrite init v) run
    rw [cmtTctlWrite_cancel _ _ keep withdraw, State.commitCancel_ahead (by rwa [same.rb]) (by rwa [same.rb])
      (by rwa [same.tsy, same.cmt])] at write
    have bit : ∀ b < 3, ((u.wf Reg.CMT_STAT 2 0 0).wb Reg.CMT_TCTL 0 false).rb Reg.CMT_STAT b = false := fun b hb =>
      (State.rb_wb_other _ _ _ _ (by decide)).trans
        ((State.rb_wf_inside _ _ _ _ _ (Nat.zero_le b) (by omega) (by omega)).trans (Nat.zero_testBit _))
    exact .of_exec (congrArg Host.Outcome.next write) ⟨bit 0 (by decide), bit 1 (by decide), State.rb_wb_same _ _ _ _ (by decide),
      (same.frame.trans (State.changesOnly_wf _ _ _ _ _)).trans (State.changesOnly_wb _ _ _ _)⟩
  case due =>
    have instant : (s.rb Reg.CMT_STAT 0 && s.rb Reg.CMT_STAT 1 && decide (s.cmt.target ≤ s.tsy.full)) = true := by
      rw [pending, timed, decide_eq_true due]
      rfl
    refine .of_exec (congrArg Host.Outcome.next (if_pos instant)) ⟨fun free => ?_, fun old => ?_⟩
    · rw [State.commitDue_free free]
      exact s.commitApply_leaves
    · rw [State.commitDue_held old]
      exact ⟨State.rb_wb_same _ _ _ _ (by decide), s.changesOnly_wb _ _ _⟩
  case released =>
    have ended : (s.rb Reg.CMT_STAT 0 && s.rb Reg.CMT_STAT 2 && !s.oldJobs) = true := by
      rw [pending, held, free]
      rfl
    exact .of_exec (congrArg Host.Outcome.next (if_pos ended)) s.commitApply_leaves

end Sys2Proof.Machine
end

section
/-! PROOFS. Confined steps: what the operations of the link and of the bridge may change. Registers outside a given set, table words,
bytes of memory and clocks stay, and the outbox only grows. One lemma per operation, in the order in which they are built. -/
namespace Sys2Proof.Machine

/-! What leaves the block stays sent. -/

theorem State.sent_emit (s : State) (o : Out) : s.outbox <+: (s.emit o).outbox := List.prefix_append _ _

theorem State.sent_vecMessage (s : State) (v : Nat) : s.outbox <+: (s.vecMessage v).outbox := by
  unfold State.vecMessage
  split
  · exact List.prefix_rfl
  · exact s.sent_emit _

theorem State.sent_syncVec (s : State) (v : Nat) : s.outbox <+: (s.syncVec v).outbox := by
  unfold State.syncVec
  split
  · split
    · exact List.prefix_rfl
    · exact State.sent_vecMessage { s with levels := nsAdd s.levels v } v
  · exact List.prefix_rfl

theorem State.sent_syncPage (s : State) (b : Nat) : s.outbox <+: (s.syncPage b).outbox := by
  unfold State.syncPage
  split
  · exact List.prefix_rfl
  · exact s.sent_syncVec _

theorem State.sent_ist (s : State) (b i : Nat) : s.outbox <+: (s.ist b i).outbox := (s.wb (Reg.PG_IST b) i true).sent_syncPage b

theorem State.sent_errPage (s : State) (bar off : Nat) : s.outbox <+: (s.errPage bar off).outbox := by
  unfold State.errPage
  split
  · exact (s.wr _ _).sent_ist _ _
  · exact List.prefix_rfl

theorem State.sent_busError (s : State) (i : Initiator) (w : Bool) (bar off c : Nat) : s.outbox <+: (s.busError i w bar off c).outbox := by
  have first : ∀ info ts, s.outbox <+: ((s.errFirst off info ts).errLast off info ts).outbox := fun info ts => by simp
  exact (((first _ _).trans (State.sent_errPage _ bar off)).trans (State.sent_ist _ Reg.pgERR 0)).trans (State.sent_emit _ _)

/-! Confined steps. -/

/-- From s to t no register but those of may changes, no table word, no byte of memory and no clock; what was sent stays sent. -/
structure State.confined (s t : State) (may : Nat → Prop) : Prop where
  regs : ∀ a, ¬ may a → t.rd a = s.rd a
  tables : s.sameTables t
  bytes : s.sameBytes t
  sent : s.outbox <+: t.outbox
  tsy : t.tsy = s.tsy
  mono : t.mono = s.mono

theorem State.confined.refl (s : State) (may : Nat → Prop) : s.confined s may :=
  ⟨fun _ _ => rfl, fun _ => rfl, fun _ => ⟨rfl, rfl, rfl, rfl, rfl, rfl⟩, List.prefix_rfl, rfl, rfl⟩

theorem State.confined.trans {s t u : State} {may : Nat → Prop} (h : s.confined t may) (g : t.confined u may) : s.confined u may :=
  ⟨fun a out => (g.regs a out).trans (h.regs a out), h.tables.trans g.tables, h.bytes.trans g.bytes, h.sent.trans g.sent,
    g.tsy.trans h.tsy, g.mono.trans h.mono⟩

theorem State.confined.weaken {s t : State} {may might : Nat → Prop} (h : s.confined t may) (w : ∀ a, may a → might a) :
    s.confined t might :=
  ⟨fun a out => h.regs a fun m => out (w a m), h.tables, h.bytes, h.sent, h.tsy, h.mono⟩

/-- The frame of the statements. -/
theorem State.changesOnly.confined {s t : State} {l : List Nat} {may : Nat → Prop} (h : s.changesOnly t l) (w : ∀ a ∈ l, may a)
    (sent : s.outbox <+: t.outbox) (tsy : t.tsy = s.tsy) (mono : t.mono = s.mono) : s.confined t may :=
  ⟨fun a out => h.1 a fun m => out (w a m), h.2.1, h.2.2, sent, tsy, mono⟩

theorem State.confined.sameRegs {s t : State} {l : List Nat} (h : s.confined t (· ∈ l)) : s.sameRegs t l := fun a out => h.regs a out

theorem State.confined.now {s t : State} {may : Nat → Prop} (h : s.confined t may) : t.now = s.now := by
  rw [State.now, h.tsy, State.now]

theorem State.confined.rf {s t : State} {may : Nat → Prop} (h : s.confined t may) {a : Nat} (hi lo : Nat) (out : ¬ may a) :
    t.rf a hi lo = s.rf a hi lo := by rw [State.rf, h.regs a out, State.rf]

theorem State.confined.rb {s t : State} {may : Nat → Prop} (h : s.confined t may) {a : Nat} (i : Nat) (out : ¬ may a) :
    t.rb a i = s.rb a i := by rw [State.rb, h.regs a out, State.rb]

theorem State.confined.ite {s t u : State} {may : Nat → Prop} {c : Prop} [Decidable c] (h : s.confined t may) (g : s.confined u may) :
    s.confined (if c then t else u) may := by
  split
  · exact h
  · exact g

theorem State.confined.foldl {β : Type} {f : State → β → State} {s : State} {may : Nat → Prop} (l : List β)
    (step : ∀ (t : State), ∀ x ∈ l, s.confined t may → s.confined (f t x) may) {t : State} (h : s.confined t may) :
    s.confined (l.foldl f t) may := by
  induction l generalizing t with
  | nil => exact h
  | cons x r ih => exact ih (fun u y hy => step u y (List.mem_cons_of_mem x hy)) (step t x List.mem_cons_self h)

section
variable {s t : State} {may : Nat → Prop} (h : s.confined t may)
include h

/-! Registers, event bits, counters. -/

theorem State.confined.wr {a : Nat} (w : Word) (ha : may a) : s.confined (t.wr a w) may :=
  h.trans ((t.changesOnly_wr a w).confined (by simpa using ha) List.prefix_rfl rfl rfl)

theorem State.confined.wf {a : Nat} (hi lo v : Nat) (ha : may a) : s.confined (t.wf a hi lo v) may := h.wr _ ha

theorem State.confined.wb {a : Nat} (i : Nat) (b : Bool) (ha : may a) : s.confined (t.wb a i b) may := h.wr _ ha

theorem State.confined.emit (o : Out) : s.confined (t.emit o) may :=
  h.trans ((t.changesOnly_emit o).confined (by simp) (t.sent_emit o) rfl rfl)

theorem State.confined.syncVec (v : Nat) : s.confined (t.syncVec v) may :=
  h.trans ((t.changesOnly_syncVec v).confined (by simp) (t.sent_syncVec v) (by simp) (by simp))

theorem State.confined.ist {b : Nat} (i : Nat) (hb : may (Reg.PG_IST b)) : s.confined (t.ist b i) may :=
  h.trans ((t.changesOnly_ist b i).confined (by simpa using hb) (t.sent_ist b i) (by simp) (by simp))

theorem State.confined.istIf (c : Bool) {b : Nat} (i : Nat) (hb : may (Reg.PG_IST b)) : s.confined (t.istIf c b i) may :=
  (h.ist i hb).ite h

theorem State.confined.bump {a : Nat} (n k : Nat) (ha : may a) (hb : may (Reg.PG_IST (pageBase a))) : s.confined (t.bump a n k) may :=
  (h.wr _ ha).istIf _ k hb

theorem State.confined.bumpSat {a : Nat} (n k : Nat) (ha : may a) (hb : may (Reg.PG_IST (pageBase a))) :
    s.confined (t.bumpSat a n k) may :=
  (h.wr _ ha).istIf _ k hb

theorem State.confined.busError (i : Initiator) (w : Bool) (bar : Nat) {off : Nat} (c : Nat) (hr : ∀ a ∈ busErrorRegs off, may a) :
    s.confined (t.busError i w bar off c) may :=
  h.trans ((t.changesOnly_busError i w bar off c).confined hr (t.sent_busError i w bar off c) (by simp) (by simp))

/-! Updates that are no register, table or byte. -/

theorem State.confined.setXpl (x : Xpl) : s.confined (t.setXpl x) may :=
  ⟨h.regs, h.tables, h.bytes, h.sent, h.tsy, h.mono⟩

theorem State.confined.setWkn (x : Wkn) : s.confined { t with wkn := x } may :=
  ⟨h.regs, h.tables, h.bytes, h.sent, h.tsy, h.mono⟩

theorem State.confined.setChan (n : Nat) (c : Chan) : s.confined (t.setChan n c) may :=
  ⟨h.regs, h.tables, h.bytes, h.sent, h.tsy, h.mono⟩

theorem State.confined.setObs (x : Obs) : s.confined (t.setObs x) may :=
  ⟨h.regs, h.tables, h.bytes, h.sent, h.tsy, h.mono⟩

theorem State.confined.setUnlock (i : Initiator) (a : Nat) (u : Bool) : s.confined (t.setUnlock i a u) may :=
  ⟨h.regs, h.tables, h.bytes, h.sent, h.tsy, h.mono⟩

/-- The levels of all vectors are computed anew. -/
theorem State.confined.syncLevels : s.confined t.syncLevels may := h.foldl _ fun _ v _ hu => (hu.syncVec v).ite hu

/-! Records of the observation port. -/

theorem State.confined.obsPush (r : List Byte) (lost : may Reg.OBS_LOST) (ist : may (Reg.PG_IST Reg.pgOBS)) :
    s.confined (t.obsPush r) may :=
  State.confined.ite (h.setObs _) (((h.setObs _).bumpSat 1 2 lost ist).ist 1 ist)

theorem State.confined.trace (typ src : Nat) (body : List Byte) (lost : may Reg.OBS_LOST) (ist : may (Reg.PG_IST Reg.pgOBS)) :
    s.confined (t.trace typ src body) may :=
  (h.obsPush _ lost ist).ite h

end

end Sys2Proof.Machine
end

section
/-! PROOFS. Messages of the register slot (R78): a message that is sent or accepted changes the two ends of the link and what was sent. -/
namespace Sys2Proof.Machine

/-- The link with other ends: the Yatric one and the Kykel one. -/
def State.withEnds (s : State) (y k : LinkSide) : State := s.setXpl { s.xpl with yat := y, kyk := k }

theorem State.setSender_eq (s : State) (d : LinkDir) (l : LinkSide) : ∃ y k, s.setSender d l = s.withEnds y k := by
  cases d
  · exact ⟨l, s.xpl.kyk, rfl⟩
  · exact ⟨s.xpl.yat, l, rfl⟩

/-- A message leaves with the next SEQ and an acknowledgement. -/
theorem State.sendMsg_eq (s : State) (d : LinkDir) (typ init : Nat) (lock : Bool) (waddr : Nat) (data : Word) (ecode : Nat) :
    ∃ y k q a f, s.sendMsg d typ init lock waddr data ecode
      = (s.withEnds y k).emit (.linkMsg d ⟨typ, q, true, a, init, lock, waddr, data, ecode⟩ f) := by
  cases d
  · exact ⟨_, s.xpl.kyk, _, _, _, rfl⟩
  · exact ⟨s.xpl.yat, _, _, _, _, rfl⟩

theorem State.takeAcks_eq (s : State) (d : LinkDir) (m : BMsg) : ∃ y k, s.takeAcks d m = s.withEnds y k := by
  unfold State.takeAcks
  split
  · exact State.setSender_eq _ _ _
  · exact ⟨s.xpl.yat, s.xpl.kyk, rfl⟩

/-- Acceptance takes the acknowledgement and the SEQ of a message. -/
theorem State.accept_eq {s u : State} {d : LinkDir} {m : BMsg} (h : s.accept d m = some u) : ∃ y k, u = s.withEnds y k := by
  obtain ⟨y, k, acks⟩ := s.takeAcks_eq d m
  simp only [State.accept, acks] at h
  split at h
  · obtain ⟨y', k', taken⟩ := (s.withEnds y k).setSender_eq (oppDir d)
      { (s.withEnds y k).sender (oppDir d) with rxSeq := (m.seq + 1) % 16 }
    exact ⟨y', k', by rw [← Option.some.inj h, taken]; rfl⟩
  · exact absurd h (by simp)

section
variable {s t : State} {may : Nat → Prop} (h : s.confined t may)
include h

theorem State.confined.withEnds (y k : LinkSide) : s.confined (t.withEnds y k) may := h.setXpl _

theorem State.confined.emitMsg (d : LinkDir) (m : BMsg) : s.confined (t.emitMsg d m) may := h.emit _

theorem State.confined.sendMsg (d : LinkDir) (typ init : Nat) (lock : Bool) (waddr : Nat) (data : Word) (ecode : Nat) :
    s.confined (t.sendMsg d typ init lock waddr data ecode) may := by
  obtain ⟨y, k, q, a, f, sent⟩ := t.sendMsg_eq d typ init lock waddr data ecode
  rw [sent]
  exact (h.withEnds y k).emit _

theorem State.confined.accept {u : State} {d : LinkDir} {m : BMsg} (taken : t.accept d m = some u) : s.confined u may := by
  obtain ⟨y, k, rfl⟩ := State.accept_eq taken
  exact h.withEnds y k

end

/-- A message that is sent changes the ends of the link alone in its record. -/
theorem State.sendMsg_xpl (s : State) (d : LinkDir) (typ init : Nat) (lock : Bool) (waddr : Nat) (data : Word) (ecode : Nat) :
    ∃ y k, (s.sendMsg d typ init lock waddr data ecode).xpl = { s.xpl with yat := y, kyk := k } := by
  obtain ⟨y, k, q, a, f, sent⟩ := s.sendMsg_eq d typ init lock waddr data ecode
  exact ⟨y, k, by rw [sent]; rfl⟩

/-- It is the last thing sent. -/
theorem State.sendMsg_outbox (s : State) (d : LinkDir) (typ init : Nat) (lock : Bool) (waddr : Nat) (data : Word) (ecode : Nat) :
    ∃ q a f, (s.sendMsg d typ init lock waddr data ecode).outbox
      = s.outbox ++ [.linkMsg d ⟨typ, q, true, a, init, lock, waddr, data, ecode⟩ f] := by
  obtain ⟨y, k, q, a, f, sent⟩ := s.sendMsg_eq d typ init lock waddr data ecode
  exact ⟨q, a, f, by rw [sent]; rfl⟩

end Sys2Proof.Machine
end

section
/-! PROOFS. Counter clears (R92, R130): the registers a clear names, and the statement about the CNTCLR registers. -/
namespace Sys2Proof.Machine

theorem State.rd_clear (s : State) (as : List Nat) (a : Nat) : (s.clear as).rd a = if a ∈ as then 0 else s.rd a := by
  induction as generalizing s with
  | nil => simp [State.clear]
  | cons b as ih =>
    rw [State.clear, List.foldl_cons, ← State.clear, ih]
    by_cases e : a = b
    · subst e
      simp
    · simp [e, State.rd_wr_other]

theorem State.rd_clear_mem (s : State) {as : List Nat} {a : Nat} (h : a ∈ as) : (s.clear as).rd a = 0 := by
  rw [State.rd_clear, if_pos h]

theorem State.changesOnly_clear (s : State) (as : List Nat) : s.changesOnly (s.clear as) as := by
  induction as generalizing s with
  | nil => exact .refl s
  | cons a as ih =>
    rw [State.clear, List.foldl_cons]
    exact (s.changesOnly_wr a 0).trans (ih _)

theorem mem_regsFrom {a k i : Nat} (h : i < k) : a + 4 * i ∈ regsFrom a k := List.mem_map.mpr ⟨i, List.mem_range.mpr h, rfl⟩

/-- A write of a register that is write only acts on a state with the same registers: the write ends an unlock and stores nothing. -/
theorem State.busWrite_wo {s : State} {i : Initiator} {a : Nat} {r : RegRow} (v : Word) (run : s.pwr.held = false)
    (yatric : isKykel a = false) (row : rowAt a = some r) (o : 0x100 ≤ a % 0x1000) (acc : r.acc = .wo)
    (keep : (s.setUnlock i a false).discards i a v = false) :
    s.busWrite i a v = regEffect i a v (s.setUnlock i a false) := by
  rw [State.busWrite_row run yatric row o (fun g => nomatch acc.symm.trans g) (fun g => nomatch acc.symm.trans g) keep,
    State.store_none _ _ _ (by omega) (.inr (.inr acc))]

/-- R92: bit 0 clears the seven counters. -/
theorem State.busWrite_xplCntclr {s : State} (i : Initiator) (v : Word) (run : s.pwr.held = false) :
    s.busWrite i Reg.XPL_CNTCLR v = clr0 v (regsFrom Reg.XPL_CRCERR 7) (s.setUnlock i Reg.XPL_CNTCLR false) :=
  State.busWrite_wo v run rfl (r := ⟨0x130, 4, 1, 4, 1, .wo, 0x0, 0x0, 0x0, false⟩) rfl (by decide) rfl rfl

/-- The page of a CAN controller and its CNTCLR register. -/
theorem canCntclr_row : ∀ n < 24, (runOf (Reg.pgCANC n)).any (fun k => cntclrOff k.cls == some 0x180) = true
    ∧ (rowAt (Reg.CANC_CNTCLR n)).any (fun r => r.acc == .wo) = true := by
  decide

theorem canCntclr_off (n : Nat) : Reg.CANC_CNTCLR n % 0x1000 = 0x180 := by
  dsimp only [Reg.CANC_CNTCLR]
  omega

theorem pageBase_pgCANC (n : Nat) : pageBase (Reg.pgCANC n) + 0x180 = Reg.CANC_CNTCLR n := by
  dsimp only [pageBase, Reg.pgCANC, Reg.CANC_CNTCLR]
  omega

theorem isKykel_canCntclr {n : Nat} (hn : n < 24) : isKykel (Reg.CANC_CNTCLR n) = false :=
  decide_eq_false (by dsimp only [Reg.CANC_CNTCLR]; omega)

/-- No write of the register is discarded. -/
theorem State.discards_canCntclr (s : State) (i : Initiator) {n : Nat} (v : Word) (hn : n < 24) :
    s.discards i (Reg.CANC_CNTCLR n) v = false := by
  interval_cases n <;> rfl

/-- What a write of CANCn_CNTCLR does beside its access code. -/
theorem regEffect_canCntclr (i : Initiator) {n : Nat} (v : Word) (s : State) (hn : n < 24) :
    regEffect i (Reg.CANC_CNTCLR n) v s = canCclrWrite n v s := by
  interval_cases n <;> rfl

/-- R130: a clear names its counters bit by bit. -/
theorem State.busWrite_canCntclr {s : State} (i : Initiator) {n : Nat} (v : Word) (run : s.pwr.held = false) (hn : n < 24) :
    s.busWrite i (Reg.CANC_CNTCLR n) v = canCclrWrite n v (s.setUnlock i (Reg.CANC_CNTCLR n) false) := by
  obtain ⟨r, row, acc⟩ := Option.any_eq_true _ _ |>.mp (canCntclr_row n hn).2
  rw [State.busWrite_wo v run (isKykel_canCntclr hn) row (by rw [canCntclr_off]; decide) (by simpa using acc)
      (State.discards_canCntclr _ _ _ hn),
    regEffect_canCntclr _ _ _ hn]

/-- The counter of bit k is cleared where the bit is 1. -/
theorem mem_canCleared {n k : Nat} (v : Word) (hk : k < 16) :
    Reg.CANC_RXOK n + 4 * k ∈ (setBits v.toNat 16).map (fun k => Reg.CANC_RXOK n + 4 * k) ↔ nbit v.toNat k = true := by
  simp [setBits, hk]

theorem canCleared_subset (n : Nat) (v : Word) :
    (setBits v.toNat 16).map (fun k => Reg.CANC_RXOK n + 4 * k) ⊆ regsFrom (Reg.CANC_RXOK n) 16 := by
  intro a ha
  obtain ⟨k, named, rfl⟩ := List.mem_map.mp ha
  exact mem_regsFrom (List.mem_range.mp (List.mem_filter.mp named).1)

/-- Settles O9: the write of XPL_CNTCLR with either value of its bit, and that of a CAN controller bit by bit. -/
theorem counterClearClearsTheCountersNamed : Obligations.CounterClearClearsTheCountersNamed := by
  intro s init v run
  refine ⟨?link, fun n hn => ?can⟩
  case link =>
    have written : exec (.counterClear init Reg.pgXPL v) s = .next (s.busWrite init Reg.XPL_CNTCLR v) := rfl
    have relocked := s.changesOnly_setUnlock init Reg.XPL_CNTCLR false
    rw [State.busWrite_xplCntclr init v run, clr0] at written
    refine .of_exec written ?_
    by_cases clear : bitOf v 0 = true
    · have cleared := relocked.trans (State.changesOnly_clear _ (regsFrom Reg.XPL_CRCERR 7))
      rw [if_pos clear]
      exact ⟨fun _ => ⟨fun i hi => State.rd_clear_mem _ (mem_regsFrom hi), cleared.1⟩, fun off => absurd (clear.symm.trans off) (by decide),
        cleared.2⟩
    · rw [if_neg clear]
      exact ⟨fun on => absurd on clear, fun _ => relocked.1, relocked.2⟩
  case can =>
    obtain ⟨r, found, off⟩ := Option.any_eq_true _ _ |>.mp (canCntclr_row n hn).1
    have written : exec (.counterClear init (Reg.pgCANC n) v) s = .next (s.busWrite init (Reg.CANC_CNTCLR n) v) := by
      change execCounterClear init (Reg.pgCANC n) v s = _
      simp only [execCounterClear, found, beq_iff_eq.mp off, pageBase_pgCANC]
    rw [State.busWrite_canCntclr init v run hn] at written
    have cleared := ((s.changesOnly_setUnlock init (Reg.CANC_CNTCLR n) false).trans
      (State.changesOnly_clear _ ((setBits v.toNat 16).map fun k => Reg.CANC_RXOK n + 4 * k))).mono (canCleared_subset n v)
    refine .of_exec written ⟨fun k hk named => State.rd_clear_mem _ ((mem_canCleared v hk).mpr named), fun k hk kept => ?_, cleared⟩
    rw [canCclrWrite, State.rd_clear, if_neg (by rw [mem_canCleared v hk, kept]; exact Bool.false_ne_true), State.rd_setUnlock]

end Sys2Proof.Machine
end

section
/-! PROOFS. The Yatric bridge (R79-R84): what the channels count at the end of an access, and what sending all that may be sent leaves of
the link record and changes of the state. -/
namespace Sys2Proof.Machine

/-! Accesses of the DMA channels (R404, R408). -/

/-- The registers that count the bytes of a channel. -/
def chanRegs (n : Nat) : List Nat := [Reg.DMACH_REM n, Reg.DMACH_BYTES n, Reg.PG_IST (Reg.pgDMACH n)]

theorem pageBase_dmachBytes (n : Nat) : pageBase (Reg.DMACH_BYTES n) = Reg.pgDMACH n := by
  dsimp only [pageBase, Reg.DMACH_BYTES, Reg.pgDMACH]
  omega

section
variable {s t : State} {may : Nat → Prop} (h : s.confined t may)
include h

theorem State.confined.chanGot (n : Nat) (v : Word) : s.confined (t.chanGot n v) may := (h.setChan _ _).ite h

theorem State.confined.countBytes (n b : Nat) (regs : ∀ a ∈ chanRegs n, may a) : s.confined (t.countBytes n b) may :=
  (h.setChan _ _).bump _ _ (regs _ (by simp [chanRegs])) (by
    rw [pageBase_dmachBytes]
    exact regs _ (by simp [chanRegs]))

theorem State.confined.moveTo (n m : Nat) (regs : ∀ a ∈ chanRegs n, may a) : s.confined (t.moveTo n m) may := by
  have counted := (h.setChan n { t.chanOf n with moved := m, readTo := max (t.chanOf n).readTo m, goal := max (t.chanOf n).goal m
    }).countBytes n (m - (t.chanOf n).moved) regs
  unfold State.moveTo
  dsimp only
  split
  · exact counted.wr _ (regs _ (by simp [chanRegs]))
  · exact counted

theorem State.confined.chanPut (n : Nat) (regs : ∀ a ∈ chanRegs n, may a) : s.confined (t.chanPut n) may :=
  ((h.setChan _ _).moveTo n _ regs).ite h

end

theorem State.moveTo_xpl (s : State) (n m : Nat) : (s.moveTo n m).xpl = s.xpl := by
  unfold State.moveTo
  dsimp only
  split <;> simp [State.countBytes]

theorem State.chanPut_xpl (s : State) (n : Nat) : (s.chanPut n).xpl = s.xpl := by
  unfold State.chanPut
  dsimp only
  split
  · rw [State.moveTo_xpl, State.setChan_xpl]
  · rfl

theorem State.chanGot_xpl (s : State) (n : Nat) (v : Word) : (s.chanGot n v).xpl = s.xpl := by
  unfold State.chanGot
  dsimp only
  split <;> rfl

/-! The registers that the bridge may move. -/

/-- The channels of the requests count their bytes in registers of may alone. -/
def chansCountIn (l : List BReq) (may : Nat → Prop) : Prop := ∀ q ∈ l, ∀ n, q.chan = some n → ∀ a ∈ chanRegs n, may a

theorem State.chansCountIn_bridgeMoves (s : State) : chansCountIn s.xpl.reqs (· ∈ s.bridgeMoves) := by
  intro q hq n chan a ha
  exact List.mem_flatMap.mpr ⟨q, hq, by rw [chan]; exact ha⟩

/-- Every channel counts in its own page, which lies between the pages before 0x50_3000 and those from 0x53_7000 on. -/
theorem chansCountIn_pages {may : Nat → Prop} (l : List BReq) (pages : ∀ a, 0x503000 ≤ a → a < 0x537000 → may a) : chansCountIn l may := by
  intro q _ n _ a ha
  have hn := n.isLt
  simp only [chanRegs, List.mem_cons, List.not_mem_nil, or_false, Reg.DMACH_REM, Reg.DMACH_BYTES, Reg.PG_IST, Reg.pgDMACH] at ha
  exact pages a (by omega) (by omega)

theorem chansCountIn.of_chans {l r : List BReq} {may : Nat → Prop} (h : chansCountIn l may) (sub : ∀ q ∈ r, ∃ p ∈ l, p.chan = q.chan) :
    chansCountIn r may := by
  intro q hq n chan a ha
  obtain ⟨p, hp, same⟩ := sub q hq
  exact h p hp n (same.trans chan) a ha

theorem chansCountIn.of_subset {l r : List BReq} {may : Nat → Prop} (h : chansCountIn l may) (sub : r ⊆ l) : chansCountIn r may :=
  h.of_chans fun q hq => ⟨q, sub hq, rfl⟩

/-! Sending what may be sent. -/

theorem State.postDone_xpl (s : State) (r : BReq) : (s.postDone r).xpl = s.xpl := by
  unfold State.postDone
  split
  · split
    · exact s.chanPut_xpl _
    · rfl
  · rfl

theorem State.confined.postDone {s t : State} {may : Nat → Prop} (h : s.confined t may) (r : BReq)
    (regs : ∀ n, r.chan = some n → ∀ a ∈ chanRegs n, may a) : s.confined (t.postDone r) may := by
  unfold State.postDone
  split
  case h_1 n chan => exact (h.chanPut n (regs n chan)).ite h
  case h_2 => exact h

theorem State.confined.sendReq {s t : State} {may : Nat → Prop} (h : s.confined t may) (r : BReq) : s.confined (t.sendReq r) may :=
  h.sendMsg _ _ _ _ _ _ _

/-- A request that is sent changes the ends of the link alone in its record. -/
theorem State.sent_xpl (s : State) (r : BReq) : ∃ y k, ((s.sendReq r).postDone r).xpl = { s.xpl with yat := y, kyk := k } := by
  obtain ⟨y, k, ends⟩ := s.sendMsg_xpl .toKykel (if r.write then (if r.np then 3 else 2) else 1) r.init.code (s.lockOwner == r.init.code)
    ((r.off - 0x800000) / 4) r.val 0
  exact ⟨y, k, by rw [State.postDone_xpl]; exact ends⟩

theorem State.pumpFrom_sends {s : State} {earlier rest : List BReq} {r : BReq} (may : s.maySend earlier r = true) :
    s.pumpFrom earlier (r :: rest) = ((s.sendReq r).postDone r).pumpFrom (earlier ++ [r.onLink]) rest := by
  rw [State.pumpFrom, if_pos may]

theorem State.pumpFrom_keeps {s : State} {earlier rest : List BReq} {r : BReq} (stays : s.maySend earlier r = false) :
    s.pumpFrom earlier (r :: rest) = s.pumpFrom (earlier ++ [r]) rest := by
  rw [State.pumpFrom, if_neg (by rw [stays]; exact Bool.false_ne_true)]

theorem State.confined.pumpFrom {s t : State} {may : Nat → Prop} (h : s.confined t may) (earlier : List BReq) {rest : List BReq}
    (regs : chansCountIn rest may) : s.confined (t.pumpFrom earlier rest) may := by
  induction rest generalizing t earlier with
  | nil => exact h.setXpl _
  | cons r rest ih =>
    have regs' : chansCountIn rest may := regs.of_subset (List.subset_cons_self r rest)
    cases go : t.maySend earlier r with
    | true =>
      rw [State.pumpFrom_sends go]
      exact ih ((h.sendReq r).postDone r (regs r List.mem_cons_self)) _ regs'
    | false =>
      rw [State.pumpFrom_keeps go]
      exact ih h _ regs'

/-- Of the link record the walk changes the ends and the requests: each that is left to do stays or is now on the link. -/
theorem State.pumpFrom_xpl (s : State) (earlier rest : List BReq) : ∃ y k l,
    (s.pumpFrom earlier rest).xpl = { s.xpl with yat := y, kyk := k, reqs := earlier ++ l }
      ∧ List.Forall₂ (fun q p => p = q ∨ p = q.onLink) rest l := by
  induction rest generalizing s earlier with
  | nil => exact ⟨s.xpl.yat, s.xpl.kyk, [], by rw [State.pumpFrom, List.append_nil]; rfl, .nil⟩
  | cons r rest ih =>
    cases go : s.maySend earlier r with
    | true =>
      obtain ⟨y, k, ends⟩ := s.sent_xpl r
      obtain ⟨y', k', l, xpl, walked⟩ := ih ((s.sendReq r).postDone r) (earlier ++ [r.onLink])
      refine ⟨y', k', r.onLink :: l, ?_, .cons (.inr rfl) walked⟩
      rw [State.pumpFrom_sends go, xpl, ends, List.append_assoc, List.singleton_append]
    | false =>
      obtain ⟨y, k, l, xpl, walked⟩ := ih s (earlier ++ [r])
      refine ⟨y, k, r :: l, ?_, .cons (.inl rfl) walked⟩
      rw [State.pumpFrom_keeps go, xpl, List.append_assoc, List.singleton_append]

theorem State.confined.pumpLock {s t : State} {may : Nat → Prop} (h : s.confined t may) : s.confined t.pumpLock may := by
  unfold State.pumpLock
  split
  · exact h
  · exact ((h.sendMsg _ _ _ _ _ _ _).setXpl _).ite h

/-- Asking for a lock changes the ends of the link and how the request stands. -/
theorem State.pumpLock_xpl (s : State) : ∃ y k a d n,
    s.pumpLock.xpl = { s.xpl with yat := y, kyk := k, lockAsked := a, lockDue := d, lockTries := n } := by
  unfold State.pumpLock
  split
  · exact ⟨_, _, _, _, _, rfl⟩
  case h_2 i _ _ =>
    dsimp only
    obtain ⟨y, k, ends⟩ := s.sendMsg_xpl .toKykel 8 i.code true 0 0 0
    split
    · exact ⟨_, _, _, _, _, by rw [State.setXpl_xpl, ends]⟩
    · exact ⟨_, _, _, _, _, rfl⟩

/-- A lock request that waits is not sent. -/
theorem State.pumpLock_waits {s : State} (h : s.lockReady = false) : s.pumpLock = s := by
  unfold State.pumpLock
  split
  · rfl
  · dsimp only
    rw [h, Bool.and_false, if_neg Bool.false_ne_true]

theorem State.confined.pump {s t : State} {may : Nat → Prop} (h : s.confined t may) (regs : chansCountIn t.xpl.reqs may) :
    s.confined t.pump may :=
  (h.pumpFrom [] regs).pumpLock

/-- What a pump leaves of the link record. -/
theorem State.pump_xpl (s : State) : ∃ y k l a d n,
    s.pump.xpl = { s.xpl with yat := y, kyk := k, reqs := l, lockAsked := a, lockDue := d, lockTries := n }
      ∧ List.Forall₂ (fun q p => p = q ∨ p = q.onLink) s.xpl.reqs l := by
  obtain ⟨y, k, l, walked, same⟩ := s.pumpFrom_xpl [] s.xpl.reqs
  obtain ⟨y', k', a, d, n, locked⟩ := (s.pumpFrom [] s.xpl.reqs).pumpLock_xpl
  exact ⟨y', k', l, a, d, n, by rw [State.pump, locked, walked, List.nil_append], same⟩

theorem State.length_reqs_pump (s : State) : s.pump.xpl.reqs.length = s.xpl.reqs.length := by
  obtain ⟨y, k, l, a, d, n, xpl, same⟩ := s.pump_xpl
  rw [xpl]
  exact same.length_eq.symm

/-- A register of another page than those of the DMA channels. -/
theorem State.rd_pump (s : State) {a : Nat} (h : a < 0x503000 ∨ 0x537000 ≤ a) : s.pump.rd a = s.rd a :=
  ((State.confined.refl s (fun a => 0x503000 ≤ a ∧ a < 0x537000)).pump (chansCountIn_pages _ fun _ lo hi => ⟨lo, hi⟩)).regs a (by omega)

/-! Requests that are done (R82, R83). -/

/-- The first request that fits is taken, and some before it are done. -/
theorem takeReq_some {p : BReq → Bool} {l left : List BReq} {r : BReq} (h : takeReq p l = some (r, left)) :
    p r = true ∧ (∃ pre post, l = pre ++ r :: post ∧ ∀ q ∈ pre, p q = false) ∧ left.Sublist l ∧ left.length < l.length := by
  induction l generalizing left with
  | nil => exact nomatch h
  | cons x rest ih =>
    rw [takeReq] at h
    cases fits : p x with
    | true =>
      rw [fits, if_pos rfl] at h
      obtain ⟨rfl, rfl⟩ := Prod.mk.inj (Option.some.inj h)
      exact ⟨fits, ⟨[], rest, rfl, by simp⟩, List.sublist_cons_self x rest, Nat.lt_succ_self _⟩
    | false =>
      rw [fits, if_neg Bool.false_ne_true] at h
      cases found : takeReq p rest with
      | none => rw [found] at h; exact nomatch h
      | some y =>
        obtain ⟨q, more⟩ := y
        rw [found] at h
        obtain ⟨rfl, rfl⟩ := Prod.mk.inj (Option.some.inj h)
        obtain ⟨hq, ⟨pre, post, rfl, others⟩, sub, shorter⟩ := ih found
        refine ⟨hq, ⟨x :: pre, post, rfl, List.forall_mem_cons.mpr ⟨fits, others⟩⟩, ?_, ?_⟩
        · split
          · exact sub.cons x
          · exact sub.cons_cons x
        · rw [List.length_cons]
          split
          · omega
          · rw [List.length_cons]; omega

theorem mem_of_takeReq {p : BReq → Bool} {l left : List BReq} {r : BReq} (h : takeReq p l = some (r, left)) : r ∈ l := by
  obtain ⟨-, ⟨pre, post, rfl, -⟩, -⟩ := takeReq_some h
  exact List.mem_append_right pre List.mem_cons_self

theorem mapFirst_append {α : Type} {p : α → Bool} (f : α → α) {pre post : List α} {x : α} (others : ∀ y ∈ pre, p y = false)
    (fits : p x = true) : mapFirst p f (pre ++ x :: post) = pre ++ f x :: post := by
  induction pre with
  | nil => rw [List.nil_append, mapFirst, if_pos fits, List.nil_append]
  | cons y pre ih =>
    obtain ⟨hy, more⟩ := List.forall_mem_cons.mp others
    rw [List.cons_append, mapFirst, if_neg (by rw [hy]; exact Bool.false_ne_true), ih more, List.cons_append]

theorem keepAcked_sublist (k : Nat) (l : List BReq) : (keepAcked k l).Sublist l := by
  induction l with
  | nil => exact List.Sublist.slnil
  | cons r rest ih =>
    rw [keepAcked]
    split
    · exact ih.cons r
    · exact ih.cons_cons r

/-- Only received posted writes are dropped. -/
theorem mem_keepAcked {k : Nat} {l : List BReq} {r : BReq} (h : r ∈ l) (open_ : r.phase ≠ .acked) : r ∈ keepAcked k l := by
  induction l with
  | nil => exact absurd h List.not_mem_nil
  | cons x rest ih =>
    rw [keepAcked]
    rcases List.mem_cons.mp h with rfl | later
    · rw [if_neg (by simp [open_])]
      exact List.mem_cons_self
    · split
      · exact ih later
      · exact List.mem_cons_of_mem x (ih later)

/-- Received posted writes are marked, and few of them kept. -/
theorem State.reapPosted_eq (s : State) : ∃ f : BReq → BReq, (∀ r, f r = r ∨ r.phase = .sent ∧ f r = { r with phase := .acked })
    ∧ s.reapPosted = s.setXpl { s.xpl with reqs := keepAcked 16 (s.xpl.reqs.map f) } := by
  refine ⟨_, fun r => ?_, rfl⟩
  split
  case isTrue got =>
    simp only [Bool.and_eq_true, beq_iff_eq] at got
    exact .inr ⟨got.1.2, rfl⟩
  case isFalse => exact .inl rfl

theorem State.length_reqs_reapPosted (s : State) : s.reapPosted.xpl.reqs.length ≤ s.xpl.reqs.length := by
  obtain ⟨f, -, eq⟩ := s.reapPosted_eq
  rw [eq]
  exact (keepAcked_sublist _ _).length_le.trans (by rw [List.length_map])

/-- Marking leaves the channels. -/
theorem State.chans_reapPosted (s : State) : ∀ q ∈ s.reapPosted.xpl.reqs, ∃ p ∈ s.xpl.reqs, p.chan = q.chan := by
  obtain ⟨f, marks, eq⟩ := s.reapPosted_eq
  rw [eq]
  intro q hq
  obtain ⟨p, hp, rfl⟩ := List.mem_map.mp ((keepAcked_sublist _ _).subset hq)
  refine ⟨p, hp, ?_⟩
  rcases marks p with same | ⟨-, marked⟩
  · rw [same]
  · rw [marked]

theorem State.mem_reqs_reapPosted {s : State} {r : BReq} (h : r ∈ s.xpl.reqs) (sent : r.phase ≠ .sent) (acked : r.phase ≠ .acked) :
    r ∈ s.reapPosted.xpl.reqs := by
  obtain ⟨f, marks, eq⟩ := s.reapPosted_eq
  rw [eq]
  have same := (marks r).resolve_right fun m => sent m.1
  exact mem_keepAcked (List.mem_map.mpr ⟨r, h, same⟩) acked

section
variable {s t : State} {may : Nat → Prop} (h : s.confined t may)
include h

theorem State.confined.reapPosted : s.confined t.reapPosted may := h.setXpl _

/-- Marking and pumping after an answer. -/
theorem State.confined.reapPump (regs : chansCountIn t.xpl.reqs may) : s.confined t.reapPosted.pump may :=
  h.reapPosted.pump (regs.of_chans t.chans_reapPosted)

end

theorem State.length_reqs_reapPump (s : State) : s.reapPosted.pump.xpl.reqs.length ≤ s.xpl.reqs.length :=
  (s.reapPosted.length_reqs_pump).trans_le s.length_reqs_reapPosted

end Sys2Proof.Machine
end

section
/-! PROOFS. Register requests served at the far die (R79-R82, R86): what the Kykel die does with a request that it serves, defers or
answers RETRY, and a Kykel-initiated write of Laurel SRAM. -/
namespace Sys2Proof.Machine

/-! Pages of the Kykel die. -/

theorem State.loadLatches_outbox (s : State) (i : Initiator) (r : RegRow) (a : Nat) : (s.loadLatches i r a).outbox = s.outbox := by
  unfold State.loadLatches
  generalize latchedBy r a = l
  induction l generalizing s with
  | nil => rfl
  | cons b l ih => rw [List.foldl_cons, ih]

/-- A read of a register of a row gives what its reader sees and sends nothing. -/
theorem State.readAt_row (s : State) (i : Initiator) {a : Nat} {r : RegRow} (row : rowAt a = some r) (pop : a ≠ Reg.LRL_EVPOP) :
    ∃ t, s.readAt i a = .ok (s.readSeen i r a, t) ∧ t.outbox = s.outbox := by
  refine ⟨if r.acc = .rc then (s.loadLatches i r a).wr a 0 else s.loadLatches i r a, ?_, ?_⟩
  · simp only [State.readAt, row, if_neg pop]
  · split
    · exact s.loadLatches_outbox i r a
    · exact s.loadLatches_outbox i r a

/-- R80: a read request of a register answers with its data. -/
theorem kykelPage_read (eff : Initiator → Nat → Word → State → State) {m : BMsg} (s : State) {r : RegRow} (typ : m.typ = 1)
    (row : rowAt (0x800000 + 4 * m.waddr) = some r) :
    ∃ q a f, (kykelPage eff m s).outbox = s.outbox ++ [.linkMsg .toYatric ⟨4, q, true, a, m.init, m.lock, m.waddr,
      s.readSeen (initOf m.init) r (0x800000 + 4 * m.waddr), 0⟩ f] := by
  obtain ⟨t, read, out⟩ := s.readAt_row (initOf m.init) row (by dsimp only [Reg.LRL_EVPOP]; omega)
  simp only [kykelPage, if_pos typ, read, ← out]
  exact t.sendMsg_outbox _ _ _ _ _ _ _

/-- With no write answered RETRY, a write of the page has the effect of the write and sends what it answers (R81, R82). -/
theorem kykelPage_write {eff : Initiator → Nat → Word → State → State} {m : BMsg} {s x : State} {c : Nat} (typ : m.typ ≠ 1)
    (order : s.xpl.kykOrder = []) (written : s.writeAt eff (initOf m.init) (0x800000 + 4 * m.waddr) m.data = (x, c)) :
    kykelPage eff m s = if c ≠ 0 then x.sendMsg .toYatric 7 m.init m.lock m.waddr 0 (causeEcode c)
      else if m.typ = 3 then x.sendMsg .toYatric 5 m.init m.lock m.waddr 0 0 else x := by
  have same : s.setXpl { s.xpl with kykOrder := s.xpl.kykOrder.filter fun p => p != (m.init, m.waddr) } = s := by
    rw [order, List.filter_nil, ← order]
    rfl
  simp only [kykelPage, if_neg typ, same, written]

/-! Requests that arrive. -/

theorem requestMsg_accepted {eff : Initiator → Nat → Word → State → State} {s u : State} {m : BMsg} (b : Bool) (up : s.linkUp = true)
    (taken : s.accept .toKykel m = some u) : requestMsg eff .toKykel m b s = kykelServe eff m b u.reapPosted := by
  simp only [requestMsg, up, taken, Bool.not_true, Bool.false_eq_true, if_false]

theorem requestMsg_accepted_yatric {eff : Initiator → Nat → Word → State → State} {s u : State} {m : BMsg} (b : Bool)
    (up : s.linkUp = true) (taken : s.accept .toYatric m = some u) :
    requestMsg eff .toYatric m b s = yatricServe m b u.reapPosted := by
  simp only [requestMsg, up, taken, Bool.not_true, Bool.false_eq_true, if_false]

/-- What acceptance and the marking of posted writes leave. -/
theorem State.accepted_kept {s u : State} {d : LinkDir} {m : BMsg} (taken : s.accept d m = some u) :
    s.confined u.reapPosted (fun _ => False) ∧ u.reapPosted.outbox = s.outbox ∧ u.reapPosted.lsram = s.lsram
      ∧ u.reapPosted.xpl.kykHold = s.xpl.kykHold ∧ u.reapPosted.xpl.kykWait = s.xpl.kykWait
      ∧ u.reapPosted.xpl.kykOrder = s.xpl.kykOrder := by
  refine ⟨((State.confined.refl s _).accept taken).reapPosted, ?_⟩
  obtain ⟨y, k, rfl⟩ := State.accept_eq taken
  exact ⟨rfl, rfl, rfl, rfl, rfl⟩

/-- With no write answered RETRY nothing is out of order. -/
theorem State.inOrder {s : State} (m : BMsg) (order : s.xpl.kykOrder = []) : s.outOfOrder m = false := by
  rw [State.outOfOrder, order, List.find?_nil]

/-- A read behind a write of its initiator that was answered RETRY is out of order. -/
theorem State.readBehindWrite {s : State} {m : BMsg} (typ : m.typ = 1) (behind : ∃ p ∈ s.xpl.kykOrder, p.1 = m.init) :
    s.outOfOrder m = true := by
  unfold State.outOfOrder
  split
  case h_1 none =>
    obtain ⟨p, hp, same⟩ := behind
    exact absurd (beq_iff_eq.mpr same) (List.find?_eq_none.mp none p hp)
  case h_2 => rw [typ]; rfl

/-- R79: a request that the held bus or the order does not let through is answered RETRY, with no effect on its register. -/
theorem kykelServe_retry {eff : Initiator → Nat → Word → State → State} {m : BMsg} {b : Bool} {s : State}
    (held : (b || s.outOfOrder m) = true) :
    s.confined (kykelServe eff m b s) (fun _ => False)
      ∧ ∃ q a f, (kykelServe eff m b s).outbox
        = s.outbox ++ [.linkMsg .toYatric ⟨6, q, true, a, m.init, m.lock, m.waddr, 0, 0⟩ f] := by
  simp only [kykelServe, held, if_true]
  split
  · exact ⟨(State.confined.refl s _).sendMsg _ _ _ _ _ _ _, s.sendMsg_outbox _ _ _ _ _ _ _⟩
  · exact ⟨((State.confined.refl s _).setXpl _).sendMsg _ _ _ _ _ _ _, (s.setXpl _).sendMsg_outbox _ _ _ _ _ _ _⟩

/-- R87: while the Kykel die's own transfer holds its bus a request waits there. -/
theorem kykelServe_waits {eff : Initiator → Nat → Word → State → State} {m : BMsg} {s : State} (order : s.xpl.kykOrder = [])
    (hold : s.xpl.kykHold = true) : kykelServe eff m false s = s.setXpl { s.xpl with kykWait := s.xpl.kykWait ++ [m] } := by
  simp only [kykelServe, State.inOrder m order, hold, Bool.or_false, Bool.false_eq_true, if_false, if_true]

theorem kykelServe_free {eff : Initiator → Nat → Word → State → State} {m : BMsg} {s : State} (order : s.xpl.kykOrder = [])
    (free : s.xpl.kykHold = false) : kykelServe eff m false s = kykelPage eff m s := by
  simp only [kykelServe, State.inOrder m order, free, Bool.or_false, Bool.false_eq_true, if_false]

/-! Writes of Laurel SRAM. -/

/-- A posted write of the Kykel die that meets no collision stores its word; what the bridge sends afterwards is no byte. -/
theorem yatricServe_posted {m : BMsg} (s : State) (typ : m.typ = 2) :
    (∀ a, memRd (yatricServe m false s).lsram a = memRd (memWrN s.lsram (4 * m.waddr) (leBytes 4 m.data.toNat)) a)
      ∧ (∀ a, memRd (yatricServe m false s).dram a = memRd s.dram a) ∧ (∀ a, memRd (yatricServe m false s).mram a = memRd s.mram a)
      ∧ ∀ a, memRd (yatricServe m false s).hmem a = memRd s.hmem a := by
  have pumped : ∀ t : State, t.sameBytes t.pump := fun t =>
    ((State.confined.refl t (fun _ => True)).pump fun _ _ _ _ _ _ => trivial).bytes
  simp only [yatricServe, State.collides, typ, Bool.false_and, Bool.false_eq_true, if_false, OfNat.ofNat_ne_one, Nat.reduceEqDiff]
  exact ⟨fun a => (pumped _ a).2.2.1, fun a => (pumped _ a).1, fun a => (pumped _ a).2.1, fun a => (pumped _ a).2.2.2.1⟩

/-- Settles O15: the message as the Kykel die serves it, defers it or answers RETRY, and a posted write of Laurel SRAM. -/
theorem registerRequestsAreServedAtTheFarDie : Obligations.RegisterRequestsAreServedAtTheFarDie := by
  intro s u x m row c typ up known taken found
  have arrives : ∀ b, requestMsg regEffect .toKykel { m with typ := typ } b s = kykelServe regEffect { m with typ := typ } b u.reapPosted :=
    fun b => requestMsg_accepted b up taken
  obtain ⟨accepted, out, -, holdIs, waitIs, orderIs⟩ := State.accepted_kept taken
  refine ⟨fun free order read => ?read, fun free order written => ⟨fun nonPosted => ?nonPosted, fun posted => ?posted⟩,
    fun i b cmd => ?deferred, fun u' taken' => ?sram⟩
  case read =>
    subst read
    have ran : exec (.readRequestMsg .toKykel m false) s = .next _ := congrArg Host.Outcome.next (arrives false)
    rw [kykelServe_free (orderIs.trans order) (holdIs.trans free)] at ran
    obtain ⟨q, a, f, sent⟩ := kykelPage_read regEffect (m := { m with typ := 1 }) u.reapPosted rfl found
    exact .of_exec ran ⟨_, f, sent.trans (congrArg (· ++ _) out), rfl, rfl, rfl, rfl⟩
  case nonPosted =>
    subst nonPosted
    have ran : exec (.nonPostedWriteMsg .toKykel m false) s = .next _ := congrArg Host.Outcome.next (arrives false)
    rw [kykelServe_free (orderIs.trans order) (holdIs.trans free),
      kykelPage_write (m := { m with typ := 3 }) (by simp) (orderIs.trans order) written] at ran
    refine .of_exec ran ?_
    by_cases refused : c ≠ 0
    · rw [if_pos refused]
      obtain ⟨q, a, f, sent⟩ := x.sendMsg_outbox .toYatric 7 m.init m.lock m.waddr 0 (causeEcode c)
      exact ⟨_, f, sent, rfl, rfl, fun ok => absurd ok refused, fun _ => ⟨rfl, rfl⟩⟩
    · rw [if_neg refused, if_pos rfl]
      obtain ⟨q, a, f, sent⟩ := x.sendMsg_outbox .toYatric 5 m.init m.lock m.waddr 0 0
      exact ⟨_, f, sent, rfl, rfl, fun _ => rfl, fun bad => absurd bad refused⟩
  case posted =>
    subst posted
    have ran : exec (.postedWriteMsg .toKykel m false) s = .next _ := congrArg Host.Outcome.next (arrives false)
    rw [kykelServe_free (orderIs.trans order) (holdIs.trans free),
      kykelPage_write (m := { m with typ := 2 }) (by simp) (orderIs.trans order) written] at ran
    refine .of_exec ran ⟨fun ok => ?_, fun bad => ?_⟩
    · rw [if_neg (not_not.mpr ok), if_neg (by simp)]
    · rw [if_pos bad]
      obtain ⟨q, a, f, sent⟩ := x.sendMsg_outbox .toYatric 7 m.init m.lock m.waddr 0 (causeEcode c)
      exact ⟨_, f, sent, rfl, rfl⟩
  case deferred =>
    have ran : exec i s = .next (kykelServe regEffect { m with typ := typ } b u.reapPosted) := by
      rw [← arrives b, cmd]
      rcases known with rfl | rfl | rfl <;> rfl
    refine ⟨fun held => ?_, fun free hold order => ?_⟩
    · have retries : (b || u.reapPosted.outOfOrder { m with typ := typ }) = true := by
        rcases held with rfl | ⟨read, behind⟩
        · rfl
        · rw [State.readBehindWrite (m := { m with typ := typ }) read (orderIs ▸ behind), Bool.or_true]
      obtain ⟨frame, q, a, f, sent⟩ := kykelServe_retry (eff := regEffect) retries
      have whole := accepted.trans frame
      exact .of_exec ran ⟨_, f, sent.trans (congrArg (· ++ _) out), rfl, fun a _ => whole.regs a id, whole.bytes⟩
    · subst free
      rw [kykelServe_waits (orderIs.trans order) (holdIs.trans hold)] at ran
      have whole := accepted.setXpl { u.reapPosted.xpl with kykWait := u.reapPosted.xpl.kykWait ++ [{ m with typ := typ }] }
      exact .of_exec ran ⟨congrArg (· ++ _) waitIs, out, fun a _ => whole.regs a id, whole.bytes⟩
  case sram =>
    obtain ⟨accepted', -, sramIs, -⟩ := State.accepted_kept taken'
    have ran : exec (.postedWriteMsg .toYatric m false) s = .next _ :=
      congrArg Host.Outcome.next (requestMsg_accepted_yatric (eff := regEffect) false up taken')
    refine .of_exec ran ?_
    obtain ⟨stored, dram, mram, hmem⟩ := yatricServe_posted (m := { m with typ := 2 }) u'.reapPosted rfl
    rw [sramIs] at stored
    refine ⟨?_, fun a apart => ?_, fun a => ?_⟩
    · have back := memRdN_wrN s.lsram (4 * m.waddr) (leBytes 4 m.data.toNat)
      rw [leBytes_length] at back
      rw [← back]
      exact List.map_congr_left fun i _ => stored _
    · rw [stored, memRd_wrN_other _ _ _ _ (by rwa [leBytes_length])]
    · obtain ⟨dram', mram', -, hmem', -⟩ := accepted'.bytes a
      exact ⟨(dram a).trans dram', (mram a).trans mram', (hmem a).trans hmem'⟩

end Sys2Proof.Machine
end

section
/-! PROOFS. Answers at the Yatric bridge (R79, R80, R82): what data, an acknowledgement, RETRY and an error do with the request they
answer. -/
namespace Sys2Proof.Machine

theorem State.accept_reqs {s u : State} {d : LinkDir} {m : BMsg} (taken : s.accept d m = some u) : u.xpl.reqs = s.xpl.reqs := by
  obtain ⟨y, k, rfl⟩ := State.accept_eq taken
  rfl

/-! Data and acknowledgements. -/

theorem State.confined.reqDone {s t : State} {may : Nat → Prop} (h : s.confined t may) (r : BReq) (v : Word)
    (regs : ∀ n, r.chan = some n → ∀ a ∈ chanRegs n, may a) : s.confined (t.reqDone r v) may := by
  unfold State.reqDone
  split
  next n chan => exact (h.chanPut n (regs n chan)).ite (h.chanGot n v)
  next => exact h.ite (h.emit _)

theorem State.reqDone_xpl (s : State) (r : BReq) (v : Word) : (s.reqDone r v).xpl = s.xpl := by
  unfold State.reqDone
  split
  · split
    · exact s.chanPut_xpl _
    · exact s.chanGot_xpl _ _
  · split <;> rfl

/-- A read of host software or Laurel is answered with its word. -/
theorem State.mem_outbox_reqDone (s : State) {r : BReq} (v : Word) (chan : r.chan = none) (dma : r.init ≠ .dma) (read : r.write = false) :
    .readData r.init 0 r.off [v] ∈ (s.reqDone r v).outbox := by
  simp only [State.reqDone, chan, read, beq_eq_false_iff_ne.mpr dma, Bool.or_self, Bool.false_eq_true, if_false]
  exact List.mem_append_right _ (List.mem_singleton_self _)

/-- Request r of the bridge of u ends with its answer, the requests l are left, and what may be sent is sent. -/
def State.answered (u : State) (r : BReq) (l : List BReq) (v : Word) : State :=
  ((u.setXpl { u.xpl with reqs := l }).reqDone r v).reapPosted.pump

theorem readDataMsg_found {eff : Initiator → Nat → Word → State → State} {s u : State} {m : BMsg} {r : BReq} {l : List BReq}
    (up : s.linkUp = true) (taken : s.accept .toYatric m = some u)
    (found : takeReq (fun q => outstanding m.init q && !q.write) s.xpl.reqs = some (r, l)) :
    readDataMsg eff .toYatric m s = u.answered r l m.data := by
  rw [← State.accept_reqs taken] at found
  simp only [readDataMsg, up, taken, found, Bool.not_true, Bool.false_eq_true, if_false]
  rfl

theorem writeAckMsg_found {eff : Initiator → Nat → Word → State → State} {s u : State} {m : BMsg} {r : BReq} {l : List BReq}
    (up : s.linkUp = true) (taken : s.accept .toYatric m = some u)
    (found : takeReq (fun q => outstanding m.init q && q.write && q.np) s.xpl.reqs = some (r, l)) :
    writeAckMsg eff .toYatric m s = u.answered r l 0 := by
  rw [← State.accept_reqs taken] at found
  simp only [writeAckMsg, up, taken, found, Bool.not_true, Bool.false_eq_true, if_false]
  rfl

/-- An answer takes its request from the bridge and moves the byte counters of channels with an access there alone. -/
theorem State.answered_frame {s u : State} {d : LinkDir} {m : BMsg} {p : BReq → Bool} {r : BReq} {l : List BReq} (v : Word)
    (taken : s.accept d m = some u) (found : takeReq p s.xpl.reqs = some (r, l)) :
    s.confined (u.answered r l v) (· ∈ s.bridgeMoves) ∧ (u.answered r l v).xpl.reqs.length < s.xpl.reqs.length := by
  obtain ⟨-, -, left, shorter⟩ := takeReq_some found
  have counts := s.chansCountIn_bridgeMoves
  have xpl : ((u.setXpl { u.xpl with reqs := l }).reqDone r v).xpl.reqs = l := by rw [State.reqDone_xpl, State.setXpl_xpl]
  constructor
  · refine ((((State.confined.refl s _).accept taken).setXpl _).reqDone r v (counts r (mem_of_takeReq found))).reapPump ?_
    rw [xpl]
    exact counts.of_subset left.subset
  · exact (State.length_reqs_reapPump _).trans_lt (by rwa [xpl])

/-! RETRY. -/

/-- The wait before a repetition: RTINT, 0 taken as 1, times 250 ns (R79). -/
theorem retryWait_eq (n : Nat) : 250 * max 1 n = (if n = 0 then 1 else n) * 250 := by
  split <;> omega

/-- A RETRY is counted in XPL_RETRY. -/
theorem State.confined_countRetry {s u : State} {d : LinkDir} {m : BMsg} (taken : s.accept d m = some u) :
    s.confined (u.bumpSat Reg.XPL_RETRY 1 4) (· ∈ [Reg.XPL_RETRY, Reg.PG_IST Reg.pgXPL])
      ∧ (u.bumpSat Reg.XPL_RETRY 1 4).rd Reg.XPL_RETRY = BitVec.ofNat 32 (capAt 0xFFFFFFFF ((s.rd Reg.XPL_RETRY).toNat + 1)) := by
  have accepted := (State.confined.refl s (fun _ => False)).accept taken
  refine ⟨((State.confined.refl s _).accept taken).bumpSat 1 4 (by decide) (by decide), ?_⟩
  rw [State.rd_bumpSat_same _ _ _ _ (by decide), accepted.regs _ id]

/-- R79: a request that is answered RETRY waits, while repetitions are left to it. -/
theorem retryMsg_waits {eff : Initiator → Nat → Word → State → State} {s u : State} {m : BMsg} {r : BReq} {l : List BReq}
    (up : s.linkUp = true) (taken : s.accept .toYatric m = some u) (access : m.lock = false ∨ s.xpl.lockAsked = false ∨ m.waddr ≠ 0)
    (found : takeReq (refusable m) s.xpl.reqs = some (r, l)) (tries : r.tries < s.rf Reg.XPL_BRCTL 15 8) :
    retryMsg eff .toYatric m s = ((u.bumpSat Reg.XPL_RETRY 1 4).setXpl { (u.bumpSat Reg.XPL_RETRY 1 4).xpl with
      reqs := mapFirst (refusable m) (fun q => { q with
        phase := .retryWait (s.now + (if s.rf Reg.XPL_BRCTL 7 0 = 0 then 1 else s.rf Reg.XPL_BRCTL 7 0) * 250) }) s.xpl.reqs
      }).reapPosted := by
  obtain ⟨counted, -⟩ := State.confined_countRetry taken
  have field : ∀ hi lo, (u.bumpSat Reg.XPL_RETRY 1 4).rf Reg.XPL_BRCTL hi lo = s.rf Reg.XPL_BRCTL hi lo := fun hi lo =>
    counted.rf hi lo (by decide)
  have asked : u.xpl.lockAsked = s.xpl.lockAsked := by
    obtain ⟨y, k, rfl⟩ := State.accept_eq taken
    rfl
  have noLock : (m.lock && s.xpl.lockAsked && m.waddr == 0) = false := by
    rcases access with h | h | h <;> simp [h]
  rw [← retryWait_eq, ← field, ← counted.now]
  simp only [retryMsg, up, taken, State.bumpSat_xpl, asked, noLock, State.accept_reqs taken, found, field,
    if_neg (Nat.not_le.mpr tries), Bool.not_true, Bool.false_eq_true, if_false]

/-- A lock request that is answered RETRY waits as long. -/
theorem retryMsg_lockWaits {eff : Initiator → Nat → Word → State → State} {s u : State} {m : BMsg} (up : s.linkUp = true)
    (taken : s.accept .toYatric m = some u) (lock : m.lock = true) (asked : s.xpl.lockAsked = true) (waddr : m.waddr = 0)
    (tries : s.xpl.lockTries < s.rf Reg.XPL_BRCTL 15 8) :
    retryMsg eff .toYatric m s = ((u.bumpSat Reg.XPL_RETRY 1 4).setXpl { (u.bumpSat Reg.XPL_RETRY 1 4).xpl with
      lockAsked := false
      lockDue := some (s.now + (if s.rf Reg.XPL_BRCTL 7 0 = 0 then 1 else s.rf Reg.XPL_BRCTL 7 0) * 250) }).reapPosted.pump := by
  obtain ⟨counted, -⟩ := State.confined_countRetry taken
  have field : ∀ hi lo, (u.bumpSat Reg.XPL_RETRY 1 4).rf Reg.XPL_BRCTL hi lo = s.rf Reg.XPL_BRCTL hi lo := fun hi lo =>
    counted.rf hi lo (by decide)
  have lockIs : u.xpl.lockAsked = s.xpl.lockAsked ∧ u.xpl.lockTries = s.xpl.lockTries := by
    obtain ⟨y, k, rfl⟩ := State.accept_eq taken
    exact ⟨rfl, rfl⟩
  rw [← retryWait_eq, ← field, ← counted.now]
  simp only [retryMsg, State.lockRetry, up, taken, State.bumpSat_xpl, lockIs.1, lockIs.2, lock, asked, waddr, field,
    if_neg (Nat.not_le.mpr tries), beq_self_eq_true, Bool.and_self, Bool.not_true, Bool.false_eq_true, if_false, if_true]

/-- While the lock request waits, sending what may be sent leaves it. -/
theorem State.pump_lockWaits {s : State} {due : Nat} (waits : s.xpl.lockDue = some due) (later : s.now < due) :
    s.pump.xpl.lockAsked = s.xpl.lockAsked ∧ s.pump.xpl.lockDue = some due ∧ s.pump.xpl.lockWait = s.xpl.lockWait := by
  obtain ⟨y, k, l, xpl, -⟩ := s.pumpFrom_xpl [] s.xpl.reqs
  have clock : (s.pumpFrom [] s.xpl.reqs).now = s.now :=
    ((State.confined.refl s (fun _ => True)).pumpFrom [] fun _ _ _ _ _ _ => trivial).now
  have unready : (s.pumpFrom [] s.xpl.reqs).lockReady = false := by
    simp only [State.lockReady, xpl, waits, clock, decide_eq_false (Nat.not_le.mpr later), Bool.and_false]
  rw [State.pump, State.pumpLock_waits unready, xpl]
  exact ⟨rfl, waits, rfl⟩

/-! Errors. -/

/-- R82: the error of an access of host software or Laurel is a bus error of its cause, that of a posted write BRIDGE. -/
theorem State.failReq_cpu (s : State) {r : BReq} (cause : Nat) (chan : r.chan = none) : ∃ x, s.failReq r cause
    = if r.np then (s.setXpl x).busError r.init r.write 0 r.off cause
      else ((s.setXpl x).busError r.init r.write 0 r.off cBRIDGE).bumpSat Reg.XPL_PWLOST 1 4 := by
  refine ⟨{ s.xpl with kykOrder := s.xpl.kykOrder.filter (fun p => p != (r.init.code, (r.off - 0x800000) / 4)) }, ?_⟩
  simp only [State.failReq, chan]

theorem errorMsg_found {s u : State} {m : BMsg} {r : BReq} {l : List BReq} (up : s.linkUp = true)
    (taken : s.accept .toYatric m = some u) (found : takeReq (refusable m) s.xpl.reqs = some (r, l)) :
    errorMsg .toYatric m s = ((u.setXpl { u.xpl with reqs := l }).failReq r (ecodeCause m.ecode)).reapPosted.pump := by
  simp only [errorMsg, up, taken, State.accept_reqs taken, found, Bool.not_true, Bool.false_eq_true, if_false]

/-- No bus error touches a register above the common header of another page than ERR. -/
theorem notLogged {a : Nat} (page : pageBase a ≠ Reg.pgERR) (o : 0x100 ≤ a % 0x1000) (off : Nat) : a ∉ busErrorRegs off := by
  have log : ∀ x, pageBase x = Reg.pgERR → a ≠ x := fun x hx e => page (e ▸ hx)
  have header : ∀ p, p < 0x100 → a ≠ pageBase off + p := fun p hp => ne_hdr (pageBase_mod off) o hp
  simp only [busErrorRegs, List.mem_cons, List.not_mem_nil, or_false, not_or]
  exact ⟨log _ rfl, log _ rfl, log _ rfl, log _ rfl, log _ rfl, log _ rfl, log _ rfl, log _ rfl, header _ (by decide), header _ (by decide)⟩

/-- What a failed access leaves: the error is sent, a posted write is counted as lost, and no table word or byte changes. -/
theorem State.failReq_reported {s : State} {r : BReq} (cause : Nat) (chan : r.chan = none) :
    s.confined (s.failReq r cause) (fun _ => True)
      ∧ .busError r.init r.write 0 r.off (if r.np then cause else cBRIDGE) ∈ (s.failReq r cause).outbox
      ∧ (r.np = false → (s.failReq r cause).rd Reg.XPL_PWLOST
        = BitVec.ofNat 32 (capAt 0xFFFFFFFF ((s.rd Reg.XPL_PWLOST).toNat + 1))) := by
  obtain ⟨x, failed⟩ := s.failReq_cpu cause chan
  have unlogged := (State.confined.refl s (fun _ => True)).setXpl x
  rw [failed]
  cases np : r.np with
  | true => exact ⟨unlogged.busError _ _ _ _ fun _ _ => trivial, State.mem_outbox_busError _ _ _ _ _ _, fun h => nomatch h⟩
  | false =>
    have logged := unlogged.busError r.init r.write 0 (off := r.off) cBRIDGE fun _ _ => trivial
    have counting := (State.confined.refl ((s.setXpl x).busError r.init r.write 0 r.off cBRIDGE) (fun _ => True)).bumpSat
      (a := Reg.XPL_PWLOST) 1 4 trivial trivial
    simp only [Bool.false_eq_true, if_false]
    have told := counting.sent.subset ((s.setXpl x).mem_outbox_busError r.init r.write 0 r.off cBRIDGE)
    refine ⟨logged.trans counting, told, fun _ => ?_⟩
    rw [State.rd_bumpSat_same _ _ _ _ (by decide),
      (State.changesOnly_busError _ _ _ _ _ _).1 _ (notLogged (by decide) (by decide) r.off)]
    rfl

/-- Settles O16: the request of each answer, and what its end, its wait or its error leaves. -/
theorem answersCompleteTheBridgeAccess : Obligations.AnswersCompleteTheBridgeAccess := by
  intro s u m r l up taken
  have pumped : ∀ t : State, t.confined t.reapPosted.pump (fun a => 0x503000 ≤ a ∧ a < 0x537000) := fun t =>
    (State.confined.refl t _).reapPump (chansCountIn_pages _ fun _ lo hi => ⟨lo, hi⟩)
  refine ⟨fun found => ?data, fun found => ?acknowledged, fun found access tries => ?retry, fun lock asked waddr tries => ?lockRetry,
    fun found chan => ?error⟩
  case data =>
    obtain ⟨fits, -⟩ := takeReq_some found
    obtain ⟨frame, shorter⟩ := State.answered_frame m.data taken found
    refine .of_exec (congrArg Host.Outcome.next (readDataMsg_found (eff := regEffect) up taken found))
      ⟨fun chan dma => ?_, shorter, frame.sameRegs, frame.bytes⟩
    have read : r.write = false := by simpa using (Bool.and_eq_true_iff.mp fits).2
    exact (pumped _).sent.subset (State.mem_outbox_reqDone _ _ chan dma read)
  case acknowledged =>
    obtain ⟨frame, shorter⟩ := State.answered_frame 0 taken found
    exact .of_exec (congrArg Host.Outcome.next (writeAckMsg_found (eff := regEffect) up taken found))
      ⟨shorter, frame.sameRegs, frame.tables, frame.bytes⟩
  case retry =>
    obtain ⟨fits, ⟨pre, post, reqs, others⟩, -⟩ := takeReq_some found
    obtain ⟨counted, count⟩ := State.confined_countRetry taken
    refine .of_exec (congrArg Host.Outcome.next (retryMsg_waits (eff := regEffect) up taken access found tries)) ⟨?_, count,
      (counted.setXpl _).reapPosted.bytes⟩
    refine State.mem_reqs_reapPosted ?_ (fun sent => nomatch sent) (fun acked => nomatch acked)
    rw [State.setXpl_xpl, reqs, mapFirst_append _ others fits]
    exact List.mem_append_right pre List.mem_cons_self
  case lockRetry =>
    obtain ⟨counted, count⟩ := State.confined_countRetry taken
    refine .of_exec (congrArg Host.Outcome.next (retryMsg_lockWaits (eff := regEffect) up taken lock asked waddr tries)) ?_
    generalize waits : s.now + (if s.rf Reg.XPL_BRCTL 7 0 = 0 then 1 else s.rf Reg.XPL_BRCTL 7 0) * 250 = due
    have later : s.now < due := by
      rw [← waits, ← retryWait_eq]
      omega
    have queue : (u.bumpSat Reg.XPL_RETRY 1 4).xpl.lockWait = s.xpl.lockWait := by
      rw [State.bumpSat_xpl]
      obtain ⟨y, k, rfl⟩ := State.accept_eq taken
      rfl
    have asking := counted.setXpl { (u.bumpSat Reg.XPL_RETRY 1 4).xpl with lockAsked := false, lockDue := some due }
    obtain ⟨asked', due', wait'⟩ := State.pump_lockWaits (s := ((u.bumpSat Reg.XPL_RETRY 1 4).setXpl
      { (u.bumpSat Reg.XPL_RETRY 1 4).xpl with lockAsked := false, lockDue := some due }).reapPosted) rfl (asking.now.trans_lt later)
    refine ⟨asked', wait'.trans queue, due', ?_, asking.bytes.trans (pumped _).bytes⟩
    rw [(pumped _).regs _ (by decide)]
    exact count
  case error =>
    obtain ⟨frame, reported, lost⟩ := State.failReq_reported (s := u.setXpl { u.xpl with reqs := l }) (ecodeCause m.ecode) chan
    have accepted := ((State.confined.refl s (fun _ => True)).accept taken).setXpl { u.xpl with reqs := l }
    have whole := (accepted.trans frame).trans ((pumped _).weaken fun _ _ => trivial)
    refine .of_exec (congrArg Host.Outcome.next (errorMsg_found up taken found)) ⟨(pumped _).sent.subset reported, fun posted => ?_,
      whole.tables, whole.bytes⟩
    have same := (((State.confined.refl s (fun _ => False)).accept taken).setXpl { u.xpl with reqs := l }).regs Reg.XPL_PWLOST id
    rw [(pumped _).regs _ (by decide), lost posted, same]

end Sys2Proof.Machine
end

section
/-! PROOFS. Locks (R84-R87): the statement about them fails where the count of collisions reaches bit 31. -/
namespace Sys2Proof.Machine

/-- The link is UP, the host's read of WKN_CTL is on the link, one collision is missing to the half of XPL_COLL, and the interrupt of
the counters (R8) is enabled and mapped to vector 0, which the host has not masked. -/
def halfCollisions : State :=
  { State.base with
    regs := [(Reg.PG_IEN Reg.pgXPL, 0x10), (Reg.XPL_STAT, 2), (Reg.XPL_COLL, 0x7FFFFFFF)]
    vecMask := []
    xpl := { State.base.xpl with reqs := [⟨.host, Reg.WKN_CTL, false, true, 0, .sent, 0, none⟩] } }

/-- The Kykel die asks for the Yatric bus. -/
def kykelLockAsk : BMsg := ⟨8, 0, false, 0, 3, true, 0, 0, 0⟩

/-- The answer RETRY is not the last thing sent: the counter's bit 31 rises and the message of its interrupt follows. -/
theorem halfCollisions_interrupts :
    (lockRequestMsg .toYatric kykelLockAsk true halfCollisions).outbox.getLast? = some (.msix 0) := by decide +kernel

/-- Refutes O17: at a collision that takes XPL_COLL to 0x8000_0000 the answer RETRY is followed by the message of the interrupt vector, so
the outbox does not grow by the answer alone. -/
theorem not_locksAreAskedGrantedReleasedAndBroken : ¬ Obligations.LocksAreAskedGrantedReleasedAndBroken := by
  intro h
  obtain ⟨-, -, messages, -⟩ := h halfCollisions ((halfCollisions.accept .toYatric kykelLockAsk).getD halfCollisions) .host 0 kykelLockAsk
    .toYatric (by decide)
  obtain ⟨-, refused, -⟩ := messages (by decide +kernel) rfl
  obtain ⟨t, ran, ⟨r, f, sent, -⟩, -⟩ := refused (.inr ⟨⟨_, List.mem_singleton_self _, rfl⟩, fun e none => nomatch none⟩)
  have answer : t = lockRequestMsg .toYatric kykelLockAsk true halfCollisions := (Host.Outcome.next.inj ran).symm
  have last := halfCollisions_interrupts
  rw [← answer, sent, List.getLast?_concat] at last
  exact nomatch last

end Sys2Proof.Machine
end

section
/-! PROOFS. The link state (R89-R91): what a change of state records, what the loss of the link leaves, and the way through training. -/
namespace Sys2Proof.Machine

/-! Changes of state. -/

section
variable {s t : State} {may : Nat → Prop} (h : s.confined t may)
include h

/-- A change of state is recorded in XPL_STAT and at the observation port (R521). -/
theorem State.confined.setLink (x : Nat) (stat : may Reg.XPL_STAT) (lost : may Reg.OBS_LOST) (ist : may (Reg.PG_IST Reg.pgOBS)) :
    s.confined (t.setLink x) may :=
  (h.wf 2 0 x stat).trace _ _ _ lost ist

theorem State.confined.enterTrain (stat : may Reg.XPL_STAT) (lost : may Reg.OBS_LOST) (ist : may (Reg.PG_IST Reg.pgOBS)) :
    s.confined t.enterTrain may :=
  (h.setLink _ stat lost ist).setXpl _

end

/-- Apart from the observation port a change of state writes its field of XPL_STAT. -/
theorem State.confined_setLink (s : State) (x : Nat) :
    (s.wf Reg.XPL_STAT 2 0 x).confined (s.setLink x) (· ∈ [Reg.OBS_LOST, Reg.PG_IST Reg.pgOBS]) :=
  (State.confined.refl _ _).trace _ _ _ (by decide) (by decide)

theorem State.setLink_xpl (s : State) (x : Nat) : (s.setLink x).xpl = s.xpl := by simp [State.setLink]

theorem State.linkState_setLink (s : State) {x : Nat} (h : x < 8) : (s.setLink x).linkState = x := by
  rw [State.linkState, (s.confined_setLink x).rf 2 0 (by decide), State.rf_wf_same _ _ _ _ _ (by decide)]
  exact Nat.mod_eq_of_lt h

theorem State.linkState_enterTrain (s : State) : s.enterTrain.linkState = xTRAIN := s.linkState_setLink (by decide)

/-- The other fields of XPL_STAT stay. -/
theorem State.rf_stat_setLink (s : State) (x : Nat) {hi lo : Nat} (above : 2 < lo) (word : hi < 32) :
    (s.setLink x).rf Reg.XPL_STAT hi lo = s.rf Reg.XPL_STAT hi lo := by
  rw [(s.confined_setLink x).rf hi lo (by decide), State.rf_wf_apart _ _ _ _ _ _ _ (.inr above) word]

theorem State.rd_setLink_other (s : State) (x : Nat) {a : Nat} (h : a ∉ [Reg.XPL_STAT, Reg.OBS_LOST, Reg.PG_IST Reg.pgOBS]) :
    (s.setLink x).rd a = s.rd a :=
  ((State.confined.refl s (· ∈ [Reg.XPL_STAT, Reg.OBS_LOST, Reg.PG_IST Reg.pgOBS])).setLink x (by decide) (by decide) (by decide)).regs a h

theorem State.rd_enterTrain_other (s : State) {a : Nat} (h : a ∉ [Reg.XPL_STAT, Reg.OBS_LOST, Reg.PG_IST Reg.pgOBS]) :
    s.enterTrain.rd a = s.rd a :=
  s.rd_setLink_other xTRAIN h

theorem State.enterTrain_xpl (s : State) :
    s.enterTrain.xpl = { s.xpl with trainAt := (s.setLink xTRAIN).now, attemptAt := (s.setLink xTRAIN).now, attempts := 0 } := by
  simp only [State.enterTrain, State.setXpl_xpl, State.setLink_xpl]

/-- The link is UP in state UP alone. -/
theorem State.linkUp_eq_false {s : State} {x : Nat} (h : s.linkState = x) (other : x ≠ xUP) : s.linkUp = false := by
  rw [State.linkUp, h]
  exact beq_eq_false_iff_ne.mpr other

theorem State.linkUp_of_state {s : State} (h : s.linkState = xUP) : s.linkUp = true := by
  rw [State.linkUp, h]
  rfl

theorem State.linkUp_congr {s t : State} (h : t.rd Reg.XPL_STAT = s.rd Reg.XPL_STAT) : t.linkUp = s.linkUp := by
  simp only [State.linkUp, State.linkState, State.rf, h]

/-! Halts of channels (R409). -/

/-- Every register of the pages DMA and DMACHn. -/
abbrev isDmaReg (a : Nat) : Prop := 0x502000 ≤ a ∧ a < 0x537000

theorem isDmaReg_chan {n o : Nat} (hn : n < 52) (ho : o < 0x1000) : isDmaReg (0x503000 + o + 0x1000 * n) := by
  unfold isDmaReg
  omega

theorem isDmaReg_chanIst {n : Nat} (hn : n < 52) : isDmaReg (Reg.PG_IST (Reg.pgDMACH n)) := by
  unfold isDmaReg Reg.PG_IST Reg.pgDMACH
  omega

section
variable {s t : State} {may : Nat → Prop} (h : s.confined t may) (dma : ∀ a, isDmaReg a → may a)
include h dma

theorem State.confined.setHalted {n : Nat} (hn : n < 52) : s.confined (t.setHalted n) may := by
  have stat : may (Reg.DMACH_STAT n) := dma _ (isDmaReg_chan (o := 0x104) hn (by decide))
  have marked := (h.wb 31 true stat).wb 30 false stat
  have listed : s.confined (if n < 32 then ((t.wb (Reg.DMACH_STAT n) 31 true).wb (Reg.DMACH_STAT n) 30 false).wb Reg.DMA_HALT0 n true
      else ((t.wb (Reg.DMACH_STAT n) 31 true).wb (Reg.DMACH_STAT n) 30 false).wb Reg.DMA_HALT1 (n - 32) true) may :=
    (marked.wb n true (dma Reg.DMA_HALT0 (by decide))).ite (marked.wb (n - 32) true (dma Reg.DMA_HALT1 (by decide)))
  exact ((listed.setChan n _).ist 1 (dma _ (isDmaReg_chanIst hn))).ist 0 (dma (Reg.PG_IST Reg.pgDMA) (by decide))

/-- A halt changes the pages of the channels and of the engine. -/
theorem State.confined.chanHalt {n : Nat} (hn : n < 52) (cause : Nat) (write : Bool) (space addr index : Nat) (hold : Option Word) :
    s.confined (t.chanHalt n cause write space addr index hold) may := by
  have reg : ∀ {k o : Nat}, k < 52 → o < 0x1000 → may (0x503000 + o + 0x1000 * k) := fun hk ho => dma _ (isDmaReg_chan hk ho)
  have logged := ((h.wr (a := Reg.DMACH_ERRADDR_LO n) (BitVec.ofNat 32 addr) (reg (o := 0x120) hn (by decide))).wr
    (a := Reg.DMACH_ERRADDR_HI n) (BitVec.ofNat 32 (addr / 2 ^ 32)) (reg (o := 0x124) hn (by decide))).wr (a := Reg.DMACH_ERRINFO n)
    (BitVec.ofNat 32 (2 ^ 31 + write.toNat * 2 ^ 30 + space % 4 * 2 ^ 28 + hold.isSome.toNat * 2 ^ 27 + cause * 2 ^ 24 + index % 4096))
    (reg (o := 0x128) hn (by decide))
  have inGroup : ∀ k ∈ [48, 49, 50, 51], k < 52 := by decide
  unfold State.chanHalt
  refine h.ite (.ite (State.confined.setHalted ?_ dma hn) (.foldl _ (fun v m hm hv => hv.ite
    ((hv.wr _ (reg (o := 0x128) (inGroup m hm) (by decide))).setHalted dma (inGroup m hm)))
    (((State.confined.setHalted ?_ dma hn).wr _ (dma Reg.DMA_GRP (by decide))).ist 1 (dma (Reg.PG_IST Reg.pgDMA) (by decide)))))
  all_goals
    cases hold with
    | none => exact logged
    | some w => exact logged.wr w (reg (o := 0x12C) hn (by decide))

theorem State.confined.chanFail {n : Nat} (hn : n < 52) (write : Bool) (a : Nat) (v : Word) : s.confined (t.chanFail n write a v) may := by
  unfold State.chanFail
  dsimp only
  split
  · exact h
  · exact h.chanHalt dma hn _ _ _ _ _ _

end

theorem State.setHalted_xpl (s : State) (n : Nat) : (s.setHalted n).xpl = s.xpl := by
  unfold State.setHalted
  rw [State.ist_xpl, State.ist_xpl, State.setChan_xpl]
  split <;> rw [State.wb_xpl, State.wb_xpl, State.wb_xpl]

theorem State.chanHalt_xpl (s : State) (n cause : Nat) (write : Bool) (space addr index : Nat) (hold : Option Word) :
    (s.chanHalt n cause write space addr index hold).xpl = s.xpl := by
  have group : ∀ (l : List Nat) (u : State), (l.foldl (fun t m =>
      if t.rb (Reg.DMACH_STAT m) 31 then t
      else (t.wr (Reg.DMACH_ERRINFO m) (BitVec.ofNat 32 (2 ^ 31 + hGROUP * 2 ^ 24))).setHalted m) u).xpl = u.xpl := by
    intro l
    induction l with
    | nil => exact fun _ => rfl
    | cons m l ih =>
      intro u
      rw [List.foldl_cons, ih]
      split
      · rfl
      · rw [State.setHalted_xpl, State.wr_xpl]
  unfold State.chanHalt
  split
  · rfl
  · dsimp only
    rw [apply_ite State.xpl, group, State.ist_xpl, State.wr_xpl, State.setHalted_xpl, ite_self]
    cases hold with
    | none => rw [State.wr_xpl, State.wr_xpl, State.wr_xpl]
    | some w => rw [State.wr_xpl, State.wr_xpl, State.wr_xpl, State.wr_xpl]

theorem State.chanFail_xpl (s : State) (n : Nat) (write : Bool) (a : Nat) (v : Word) : (s.chanFail n write a v).xpl = s.xpl := by
  unfold State.chanFail
  dsimp only
  split
  · rfl
  · exact s.chanHalt_xpl _ _ _ _ _ _ _

/-! Loss of the link (R89). -/

/-- The registers that the failing of accesses does not touch. -/
def lossKept : List Nat := [Reg.XPL_CTL, Reg.XPL_STAT, Reg.XPL_LOSS]

theorem lossKept_notDma : ∀ a, isDmaReg a → a ∉ lossKept := by
  intro a dma kept
  simp only [lossKept, List.mem_cons, List.not_mem_nil, or_false] at kept
  rcases kept with rfl | rfl | rfl <;> revert dma <;> decide

theorem lossKept_notLogged (off : Nat) : ∀ a ∈ busErrorRegs off, a ∉ lossKept := by
  have kept : ∀ a ∈ lossKept, pageBase a ≠ Reg.pgERR ∧ 0x100 ≤ a % 0x1000 := by decide
  exact fun a logged ha => notLogged (kept a ha).1 (kept a ha).2 off logged

theorem State.confined.failReq {s t : State} (h : s.confined t (· ∉ lossKept)) (r : BReq) (cause : Nat) :
    s.confined (t.failReq r cause) (· ∉ lossKept) := by
  have unordered := h.setXpl { t.xpl with kykOrder := t.xpl.kykOrder.filter (fun p => p != (r.init.code, (r.off - 0x800000) / 4)) }
  have reported := (unordered.busError r.init r.write 0 cause (lossKept_notLogged r.off)).ite (c := r.np = true)
    ((unordered.busError r.init r.write 0 cBRIDGE (lossKept_notLogged r.off)).bumpSat (a := Reg.XPL_PWLOST) 1 4 (by decide) (by decide))
  unfold State.failReq
  dsimp only
  split
  next n _ => exact (reported.chanFail lossKept_notDma n.isLt r.write r.off r.val).ite reported
  next => exact reported

/-- A failed access brings no request to the bridge. -/
theorem State.failReq_reqs (s : State) (r : BReq) (cause : Nat) : (s.failReq r cause).xpl.reqs = s.xpl.reqs := by
  unfold State.failReq
  dsimp only
  split
  · split <;> split <;> simp [State.chanFail_xpl]
  · split <;> simp

/-- Failing the outstanding accesses leaves no request. -/
theorem State.confined_linkDown (s : State) : s.confined s.linkDown (· ∉ lossKept) ∧ s.linkDown.xpl.reqs = [] := by
  have failed : ∀ (l : List BReq) (t : State), t.xpl.reqs = [] → t.confined (l.foldl (fun t r => t.failReq r cBRIDGE) t) (· ∉ lossKept)
      ∧ (l.foldl (fun t r => t.failReq r cBRIDGE) t).xpl.reqs = [] := by
    intro l t none
    refine ⟨.foldl l (fun _ r _ hu => hu.failReq r _) (.refl t _), ?_⟩
    induction l generalizing t with
    | nil => exact none
    | cons r l ih => exact ih _ ((t.failReq_reqs r cBRIDGE).trans none)
  obtain ⟨frame, empty⟩ := failed (s.xpl.reqs.filter (fun r => r.phase != .acked)) (s.setXpl { s.xpl with
    reqs := [], lockWait := [], lockAsked := false, lockDue := none, lockTries := 0, resv := none
    kykHold := false, kykWait := [], kykOrder := []
    yat := { s.xpl.yat with unacked := [], bad := 0 }, kyk := { s.xpl.kyk with unacked := [], bad := 0 }
    rxd := List.replicate 16 true, txd := List.replicate 16 true, kSum := [], kSync := false }) rfl
  exact ⟨(((State.confined.refl s _).setXpl _).trans frame).syncLevels, by rw [State.linkDown, State.syncLevels_xpl]; exact empty⟩

/-- The link is LOST: its accesses have failed, and the loss is reported and counted. -/
def State.lost (s : State) : State :=
  (({ s.setLink xLOST with wkn := { s.wkn with downAt := s.mono, fsDone := false } } : State).linkDown.ist Reg.pgXPL 1).bumpSat
    Reg.XPL_LOSS 1 4

theorem State.linkLost_up {s : State} (byTrain : Bool) (up : s.linkUp = true) : s.linkLost byTrain
    = if byTrain || s.lost.rf Reg.XPL_CTL 11 8 != 0 then s.lost.enterTrain else (s.lost.setLink xDOWN).ist Reg.pgXPL 2 := by
  simp only [State.linkLost, up, Bool.not_true, Bool.false_eq_true, if_false]
  rfl

/-- A PG_IST bit that stands is not cleared by a count. -/
theorem State.rb_bumpSat_mono {s : State} {c j : Nat} {a : Nat} (n k : Nat) (h : s.rb (Reg.PG_IST c) j = true) (hj : j < 32)
    (apart : Reg.PG_IST c ≠ a) : (s.bumpSat a n k).rb (Reg.PG_IST c) j = true := by
  have counted : ∀ w, (s.wr a w).rb (Reg.PG_IST c) j = true := fun w => by rw [State.rb, State.rd_wr_other _ _ apart, ← State.rb, h]
  unfold State.bumpSat State.istIf
  dsimp only
  split
  · exact State.rb_ist_mono _ _ (counted _) hj
  · exact counted _

/-- What the loss leaves. -/
theorem State.lost_leaves (s : State) : s.confined s.lost (· ≠ Reg.XPL_CTL) ∧ s.lost.xpl.reqs = []
    ∧ s.lost.rb (Reg.PG_IST Reg.pgXPL) 1 = true
    ∧ s.lost.rd Reg.XPL_LOSS = BitVec.ofNat 32 (capAt 0xFFFFFFFF ((s.rd Reg.XPL_LOSS).toNat + 1)) := by
  have noted := ((State.confined.refl s (· ≠ Reg.XPL_CTL)).setLink xLOST (by decide) (by decide) (by decide)).setWkn
    { s.wkn with downAt := s.mono, fsDone := false }
  obtain ⟨frame, empty⟩ := State.confined_linkDown { s.setLink xLOST with wkn := { s.wkn with downAt := s.mono, fsDone := false } }
  have failed := noted.trans (frame.weaken fun a out ctl => out (by rw [ctl]; decide))
  refine ⟨(failed.ist 1 (by decide)).bumpSat 1 4 (by decide) (by decide), ?_,
    State.rb_bumpSat_mono _ _ (State.rb_ist_same _ _ _ (by decide)) (by decide) (by decide), ?_⟩
  · rw [State.lost, State.bumpSat_xpl, State.ist_xpl, empty]
  · rw [State.lost, State.rd_bumpSat_same _ _ _ _ (by decide), State.rd_ist_other _ _ _ _ (by decide),
      frame.regs _ (not_not.mpr (by decide))]
    exact congrArg (fun w : Word => BitVec.ofNat 32 (capAt 0xFFFFFFFF (w.toNat + 1))) (s.rd_setLink_other _ (by decide))

/-- After the loss of a link that is UP no table word and no byte has changed. -/
theorem State.confined_linkLost (s : State) (byTrain : Bool) : s.confined (s.linkLost byTrain) (fun _ => True) := by
  have lost := s.lost_leaves.1.weaken (might := fun _ => True) fun _ _ => trivial
  by_cases up : s.linkUp = true
  · rw [State.linkLost_up byTrain up]
    exact (lost.enterTrain trivial trivial trivial).ite ((lost.setLink _ trivial trivial trivial).ist 2 trivial)
  · rw [State.linkLost, if_pos (by simpa using up)]
    exact .refl s _

/-- R89, R91: after a loss the link is in TRAIN or DOWN, by RTRMAX and by what lost it. -/
theorem State.linkState_linkLost {s : State} (byTrain : Bool) (up : s.linkUp = true) :
    (s.linkLost byTrain).linkState = if byTrain = true ∨ s.rf Reg.XPL_CTL 11 8 ≠ 0 then xTRAIN else xDOWN := by
  rw [State.linkLost_up byTrain up, s.lost_leaves.1.rf 11 8 (not_not.mpr rfl)]
  simp only [Bool.or_eq_true, bne_iff_ne]
  split
  · exact State.linkState_enterTrain _
  · rw [State.linkState, State.rf, State.rd_ist_other _ _ _ _ (by decide), ← State.rf, ← State.linkState,
      State.linkState_setLink _ (by decide)]

theorem State.linkUp_linkLost (s : State) (byTrain : Bool) : (s.linkLost byTrain).linkUp = false := by
  by_cases up : s.linkUp = true
  · refine State.linkUp_eq_false (s.linkState_linkLost byTrain up) ?_
    split <;> decide
  · rw [State.linkLost, if_pos (by simpa using up)]
    exact Bool.eq_false_iff.mpr up

/-- What the loss reports stands in the state entered. -/
theorem State.linkLost_reports {s : State} (byTrain : Bool) (up : s.linkUp = true) :
    (s.linkLost byTrain).rb (Reg.PG_IST Reg.pgXPL) 1 = true ∧ (s.linkLost byTrain).xpl.reqs = []
      ∧ (s.linkLost byTrain).rd Reg.XPL_LOSS = BitVec.ofNat 32 (capAt 0xFFFFFFFF ((s.rd Reg.XPL_LOSS).toNat + 1)) := by
  obtain ⟨-, empty, event, count⟩ := s.lost_leaves
  rw [State.linkLost_up byTrain up]
  split
  · refine ⟨?_, ?_, ?_⟩
    · rw [State.rb, State.rd_enterTrain_other _ (by decide), ← State.rb, event]
    · rw [State.enterTrain_xpl, empty]
    · rw [State.rd_enterTrain_other _ (by decide), count]
  · refine ⟨State.rb_ist_mono _ _ ?_ (by decide), ?_, ?_⟩
    · rw [State.rb, State.rd_setLink_other _ _ (by decide), ← State.rb, event]
    · rw [State.ist_xpl, State.setLink_xpl, empty]
    · rw [State.rd_ist_other _ _ _ _ (by decide), State.rd_setLink_other _ _ (by decide), count]

end Sys2Proof.Machine
end

section
/-! PROOFS. Repetitions (R78, R79, R87, R89): a message that is not acknowledged, a request whose retry interval has ended, and the end of
a reservation. -/
namespace Sys2Proof.Machine

/-! Messages that are not acknowledged (R78). -/

/-- A message that was resent fewer than four times is counted and sent again. -/
theorem exec_registerMessageResend_again {s : State} {dir : LinkDir} {u : Unacked} {rest : List Unacked} (up : s.linkUp = true)
    (oldest : (s.sender dir).unacked = u :: rest) (due : u.sentAt + 128 ≤ s.now) (few : u.resends < 4) :
    ∃ y k, exec (.registerMessageResend dir) s = .next (((s.withEnds y k).bumpSat Reg.XPL_RESEND 1 4).emitMsg dir u.msg) := by
  obtain ⟨y, k, ends⟩ := s.setSender_eq dir
    { s.sender dir with unacked := { u with sentAt := s.now, resends := u.resends + 1 } :: rest }
  refine ⟨y, k, ?_⟩
  change execRegisterMessageResend dir s = _
  rw [← ends]
  simp only [execRegisterMessageResend, oldest, up, decide_eq_false (Nat.not_lt.mpr due), if_neg (Nat.not_le.mpr few), ge_iff_le,
    Bool.not_true, Bool.or_self, Bool.false_eq_true, if_false]

/-- After four repetitions the link is lost. -/
theorem exec_registerMessageResend_lost {s : State} {dir : LinkDir} {u : Unacked} {rest : List Unacked} (up : s.linkUp = true)
    (oldest : (s.sender dir).unacked = u :: rest) (due : u.sentAt + 128 ≤ s.now) (many : 4 ≤ u.resends) :
    exec (.registerMessageResend dir) s = .next (s.linkLost false) := by
  change execRegisterMessageResend dir s = _
  simp only [execRegisterMessageResend, oldest, up, decide_eq_false (Nat.not_lt.mpr due), if_pos many, ge_iff_le,
    Bool.not_true, Bool.or_self, Bool.false_eq_true, if_false]

/-! Requests that waited RTINT (R79, R83, R84). -/

/-- A request that has waited enters the link, with no earlier access of its initiator unfinished and no other initiator's lock. -/
theorem State.maySend_retry {s : State} {earlier : List BReq} {r : BReq} {e : Nat} (waited : r.phase = .retryWait e) (due : e ≤ s.now)
    (up : s.linkUp = true) (owner : s.lockOwner = 3 ∨ s.lockOwner = r.init.code)
    (free : ∀ q ∈ earlier, q.init ≠ r.init ∨ q.phase = .acked) : s.maySend earlier r = true := by
  have first : earlier.any (fun q => q.init == r.init && q.phase != .acked) = false := List.any_eq_false.mpr fun q hq => by
    rcases free q hq with h | h <;> simp [h]
  have lock : (s.lockOwner == 3 || s.lockOwner == r.init.code) = true := by simpa using owner
  simp only [State.maySend, State.phaseReady, waited, up, first, due, lock, decide_true, Bool.and_self, Bool.not_false]

/-- A received posted write is not sent again. -/
theorem State.maySend_acked (s : State) (earlier : List BReq) {q : BReq} (acked : q.phase = .acked) : s.maySend earlier q = false := by
  simp only [State.maySend, State.phaseReady, acked, Bool.and_false, Bool.false_and]

theorem State.lockOwner_congr {s t : State} (h : t.rd Reg.XPL_LOCK = s.rd Reg.XPL_LOCK) : t.lockOwner = s.lockOwner := by
  simp only [State.lockOwner, State.rf, h]

/-- Request r is on the link, with one repetition more, and its message has left. -/
def State.repeats (t : State) (r : BReq) : Prop :=
  { r with phase := .sent, tries := r.tries + 1 } ∈ t.xpl.reqs
    ∧ ∃ m f, .linkMsg .toKykel m f ∈ t.outbox ∧ m.init = r.init.code ∧ m.waddr = (r.off - 0x800000) / 4 ∧ m.data = r.val

/-- Sending the request of DMA channels leaves the registers of the link. -/
theorem State.rd_sentReq (s : State) (r : BReq) {a : Nat} (h : a < 0x503000 ∨ 0x537000 ≤ a) :
    ((s.sendReq r).postDone r).rd a = s.rd a := by
  have counts := chansCountIn_pages (may := fun a => 0x503000 ≤ a ∧ a < 0x537000) [r] fun _ lo hi => ⟨lo, hi⟩
  exact (((State.confined.refl s _).sendReq r).postDone r (counts r (List.mem_singleton_self r))).regs a (by omega)

theorem State.now_sentReq (s : State) (r : BReq) : ((s.sendReq r).postDone r).now = s.now :=
  (((State.confined.refl s (fun _ => True)).sendReq r).postDone r fun _ _ _ _ => trivial).now

/-- A request that may be sent in its turn is sent. -/
theorem State.pumpFrom_repeats {s : State} {earlier post : List BReq} {r : BReq} {e : Nat} (waited : r.phase = .retryWait e)
    (may : s.maySend earlier r = true) : (s.pumpFrom earlier (r :: post)).repeats r := by
  have onLink : r.onLink = { r with phase := .sent, tries := r.tries + 1 } := by simp [BReq.onLink, waited]
  obtain ⟨y, k, l, xpl, -⟩ := ((s.sendReq r).postDone r).pumpFrom_xpl (earlier ++ [r.onLink]) post
  have done := (State.confined.refl (s.sendReq r) (fun _ => True)).postDone r fun _ _ _ _ => trivial
  have later := done.pumpFrom (earlier ++ [r.onLink]) (rest := post) fun _ _ _ _ _ _ => trivial
  obtain ⟨q, a, f, sent⟩ := s.sendMsg_outbox .toKykel (if r.write then (if r.np then 3 else 2) else 1) r.init.code
    (s.lockOwner == r.init.code) ((r.off - 0x800000) / 4) r.val 0
  rw [State.pumpFrom_sends may]
  refine ⟨?_, ⟨if r.write then (if r.np then 3 else 2) else 1, q, true, a, r.init.code, s.lockOwner == r.init.code,
    (r.off - 0x800000) / 4, r.val, 0⟩, f, later.sent.subset ?_, rfl, rfl, rfl⟩
  · rw [xpl, ← onLink]
    exact List.mem_append_left _ (List.mem_append_right _ (List.mem_singleton_self _))
  · rw [State.sendReq, sent]
    exact List.mem_append_right _ (List.mem_singleton_self _)

/-- The walk reaches the request, whatever of other initiators it sends before. -/
theorem State.pumpFrom_reaches {r : BReq} {e : Nat} (waited : r.phase = .retryWait e) {pre post : List BReq} {s : State}
    {earlier : List BReq} (due : e ≤ s.now) (up : s.linkUp = true) (owner : s.lockOwner = 3 ∨ s.lockOwner = r.init.code)
    (before : ∀ q ∈ earlier, q.init ≠ r.init ∨ q.phase = .acked) (free : ∀ q ∈ pre, q.init ≠ r.init ∨ q.phase = .acked) :
    (s.pumpFrom earlier (pre ++ r :: post)).repeats r := by
  induction pre generalizing s earlier with
  | nil => exact State.pumpFrom_repeats waited (State.maySend_retry waited due up owner before)
  | cons q pre ih =>
    obtain ⟨hq, later⟩ := List.forall_mem_cons.mp free
    rw [List.cons_append]
    cases go : s.maySend earlier q with
    | true =>
      have other : q.onLink.init ≠ r.init := hq.resolve_right fun acked => by
        rw [s.maySend_acked earlier acked] at go
        exact nomatch go
      have lock := State.lockOwner_congr (s.rd_sentReq q (a := Reg.XPL_LOCK) (by decide))
      rw [State.pumpFrom_sends go]
      exact ih (by rwa [s.now_sentReq]) (by rwa [State.linkUp_congr (s.rd_sentReq q (by decide))]) (by rwa [lock])
        (List.forall_mem_append.mpr ⟨before, by simpa using .inl other⟩) later
    | false =>
      rw [State.pumpFrom_keeps go]
      exact ih due up owner (List.forall_mem_append.mpr ⟨before, by simpa using hq⟩) later

/-- Asking for a lock withdraws nothing. -/
theorem State.repeats.pumpLock {t : State} {r : BReq} (h : t.repeats r) : t.pumpLock.repeats r := by
  obtain ⟨listed, m, f, sent, fields⟩ := h
  obtain ⟨y, k, a, d, n, xpl⟩ := t.pumpLock_xpl
  refine ⟨by rwa [xpl], m, f, ?_, fields⟩
  exact (State.confined.refl t (fun _ => True)).pumpLock.sent.subset sent

/-- Settles O18: the oldest message without acknowledgement, the request that has waited, and the reservation. -/
theorem unansweredMessagesAreRepeated : Obligations.UnansweredMessagesAreRepeated := by
  intro s dir
  refine ⟨fun u rest up oldest due => ?resend, fun pre r post e reqs waited due up owner free => ?again, fun e resv due => ?reservation⟩
  case resend =>
    by_cases few : u.resends < 4
    · obtain ⟨y, k, ran⟩ := exec_registerMessageResend_again up oldest due few
      have counted := (((State.confined.refl s (· ∈ [Reg.XPL_RESEND, Reg.PG_IST Reg.pgXPL])).withEnds y k).bumpSat
        (a := Reg.XPL_RESEND) 1 4 (by decide) (by decide)).emitMsg dir u.msg
      refine .of_exec ran ⟨fun _ => ⟨⟨_, List.getLast?_concat⟩, ?_, ?_, counted.sameRegs⟩, fun many => absurd few (by omega),
        counted.tables, counted.bytes⟩
      · exact (State.linkUp_congr (counted.regs _ (by decide))).trans up
      · exact (State.rd_bumpSat_same (s.withEnds y k) _ _ _ (by decide))
    · have frame := s.confined_linkLost false
      exact .of_exec (exec_registerMessageResend_lost up oldest due (by omega))
        ⟨fun less => absurd less few, fun _ => s.linkUp_linkLost false, frame.tables, frame.bytes⟩
  case again =>
    have walked := State.pumpFrom_reaches (earlier := []) (post := post) waited due up owner (by simp) free
    rw [← reqs] at walked
    have frame := (State.confined.refl s (· ∈ s.bridgeMoves)).pump s.chansCountIn_bridgeMoves
    obtain ⟨listed, sent⟩ := walked.pumpLock
    exact .of_exec (t := s.pump) rfl ⟨listed, sent, frame.sameRegs, frame.tables, frame.bytes⟩
  case reservation =>
    have ran : exec .retryReservationExpiry s = .next (s.setXpl { s.xpl with resv := none }).pump := by
      change execRetryReservationExpiry s = _
      simp only [execRetryReservationExpiry, resv, if_pos due]
    have frame := ((State.confined.refl s (· ∈ s.bridgeMoves)).setXpl { s.xpl with resv := none }).pump s.chansCountIn_bridgeMoves
    obtain ⟨y, k, l, a, d, n, xpl, -⟩ := (s.setXpl { s.xpl with resv := none }).pump_xpl
    exact .of_exec ran ⟨by rw [xpl]; rfl, frame.sameRegs, frame.tables, frame.bytes⟩

end Sys2Proof.Machine
end

section
/-! PROOFS. The way through training (R89, R91): each event of the link state table names its next state. -/
namespace Sys2Proof.Machine

/-! Training (R89). -/

theorem State.confined_enterTrain (s : State) : s.confined s.enterTrain (fun _ => True) :=
  (State.confined.refl s _).enterTrain trivial trivial trivial

/-- Training starts anew, with attempt count 0. -/
theorem State.enterTrain_starts (s : State) :
    s.enterTrain.linkState = xTRAIN ∧ s.enterTrain.xpl.attempts = 0 ∧ s.enterTrain.xpl.trainAt = s.now
      ∧ s.enterTrain.xpl.attemptAt = s.now := by
  have clock : (s.setLink xTRAIN).now = s.now :=
    ((State.confined.refl s (fun _ => True)).setLink xTRAIN trivial trivial trivial).now
  rw [State.enterTrain_xpl, clock]
  exact ⟨s.linkState_enterTrain, rfl, rfl, rfl⟩

/-- The loop delay of the training is reported and no attempt is left counted. -/
def State.measured (s : State) (d : Nat) : State :=
  let t := (s.wf Reg.XPL_STAT 23 16 (clampN 78 82 d)).wf Reg.XPL_STAT 7 4 0
  let u := t.setXpl { t.xpl with attempts := 0, upAt := t.mono, yat := { t.xpl.yat with bad := 0 }, kyk := { t.xpl.kyk with bad := 0 } }
  u.wr Reg.XPL_TRTIME (BitVec.ofNat 32 (capAt 0xFFFFFFFF (u.now - u.xpl.trainAt)))

/-- The link is UP after a training. -/
def State.trained (s : State) (d : Nat) : State := ((s.measured d).setLink xUP).ist Reg.pgXPL 0

/-- What follows in the state UP: the loader runs, the save set is delivered and what waits is sent. -/
def State.resumed (s : State) : State := (if s.rf Reg.CHIP_BOOTSTAT 27 24 = 0 then s.setPhase 1 else s).saveDeliver.pump

theorem exec_trainingSuccess {s : State} (d : Nat) (train : s.linkState = xTRAIN) :
    exec (.trainingSuccess d) s = .next (s.trained d).resumed := by
  change execTrainingSuccess d s = _
  rw [execTrainingSuccess, if_pos train]
  rfl

theorem State.rf_stat_measured (s : State) {d : Nat} (lo : 78 ≤ d) (hi : d ≤ 82) :
    (s.measured d).rf Reg.XPL_STAT 23 16 = d ∧ (s.measured d).rf Reg.XPL_STAT 7 4 = 0 := by
  have clamped : clampN 78 82 d = d := by
    rw [clampN, if_neg (by omega), if_neg (by omega)]
  have kept : ∀ h l, (s.measured d).rf Reg.XPL_STAT h l
      = ((s.wf Reg.XPL_STAT 23 16 (clampN 78 82 d)).wf Reg.XPL_STAT 7 4 0).rf Reg.XPL_STAT h l := fun h l =>
    (((State.confined.refl _ (· = Reg.XPL_TRTIME)).setXpl _).wr _ rfl).rf h l (by decide)
  rw [kept, kept, State.rf_wf_apart _ _ _ _ _ _ _ (.inr (by decide)) (by decide), State.rf_wf_same _ _ _ _ _ (by decide), clamped,
    State.rf_wf_same _ _ _ _ _ (by decide)]
  exact ⟨Nat.mod_eq_of_lt (by omega), rfl⟩

/-- R89: the link is UP and its event is shown; the fields of XPL_STAT beside the state stay. -/
theorem State.trained_shows (s : State) (d : Nat) :
    (s.trained d).linkState = xUP ∧ (s.trained d).rb (Reg.PG_IST Reg.pgXPL) 0 = true
      ∧ ∀ h l, 2 < l → h < 32 → (s.trained d).rf Reg.XPL_STAT h l = (s.measured d).rf Reg.XPL_STAT h l := by
  have event := (State.confined.refl ((s.measured d).setLink xUP) (· = Reg.PG_IST Reg.pgXPL)).ist 0 rfl
  refine ⟨?_, State.rb_ist_same _ _ _ (by decide), fun h l above word => ?_⟩
  · exact (event.rf 2 0 (by decide)).trans (State.linkState_setLink _ (by decide))
  · exact (event.rf h l (by decide)).trans (State.rf_stat_setLink _ _ above word)

theorem State.confined_trained (s : State) (d : Nat) : s.confined (s.trained d) (fun _ => True) :=
  ((((((State.confined.refl s _).wf 23 16 _ trivial).wf 7 4 _ trivial).setXpl _).wr _ trivial).setLink _ trivial trivial trivial).ist 0
    trivial

/-- A register of another page than XPL. -/
abbrev notXplPage (a : Nat) : Prop := pageBase a ≠ Reg.pgXPL

theorem chansCountIn_notXplPage (l : List BReq) : chansCountIn l notXplPage := by
  refine chansCountIn_pages l fun a lo hi page => ?_
  simp only [pageBase, Reg.pgXPL] at page
  omega

theorem State.confined_resumed (s : State) : s.confined s.resumed notXplPage := by
  have phase : s.confined (if s.rf Reg.CHIP_BOOTSTAT 27 24 = 0 then s.setPhase 1 else s) notXplPage :=
    (((State.confined.refl s notXplPage).wf (a := Reg.CHIP_BOOTSTAT) 27 24 1 (by decide)).wb 31 _ (by decide)).ite (.refl s _)
  have saved : s.confined (if s.rf Reg.CHIP_BOOTSTAT 27 24 = 0 then s.setPhase 1 else s).saveDeliver notXplPage := by
    unfold State.saveDeliver
    exact phase.ite (phase.wb _ _ (by decide))
  exact saved.pump (chansCountIn_notXplPage _)

/-- An attempt without success is counted. -/
def State.attempted (s : State) : State :=
  (s.setXpl { s.xpl with attempts := s.xpl.attempts + 1, attemptAt := s.now }).wf Reg.XPL_STAT 7 4 (capAt 15 (s.rf Reg.XPL_STAT 7 4 + 1))

theorem exec_trainingAttemptTimeout {s : State} (train : s.linkState = xTRAIN) (due : s.xpl.attemptAt + 20000 ≤ s.now) :
    exec .trainingAttemptTimeout s = .next (if s.xpl.attempts + 1 < s.attempted.rf Reg.XPL_CTL 11 8 then s.attempted
      else (s.attempted.setLink xDOWN).ist Reg.pgXPL 2) :=
  congrArg Host.Outcome.next (if_pos ⟨train, due⟩)

theorem State.confined_attempted (s : State) : s.confined s.attempted (· = Reg.XPL_STAT) :=
  ((State.confined.refl s _).setXpl _).wf 7 4 _ rfl

theorem State.linkState_attempted (s : State) : s.attempted.linkState = s.linkState :=
  State.rf_wf_apart _ _ _ _ _ _ _ (.inl (by decide)) (by decide)

/-! TRAIN (R91). -/

/-- XPL_CTL takes the word of the write; what TRAIN does follows. -/
theorem State.xplTrain_stores {s : State} (i : Initiator) (v : Word) (run : s.pwr.held = false) :
    ∃ w, s.cmdWrite i Reg.XPL_CTL v (xplCtlWrite v) = xplCtlWrite v ((s.setUnlock i Reg.XPL_CTL false).wr Reg.XPL_CTL w) := by
  refine ⟨RegRow.written ⟨0x100, 4, 1, 4, 1, .rw, 0xF00, 0x0, 0x800, false⟩ ((s.setUnlock i Reg.XPL_CTL false).rd Reg.XPL_CTL) v, ?_⟩
  rw [State.cmdWrite_row run (r := ⟨0x100, 4, 1, 4, 1, .rw, 0xF00, 0x0, 0x800, false⟩) rfl (by decide) (fun g => nomatch g)
      (fun g => nomatch g) rfl,
    State.store_direct _ _ _ (by decide) (.inl rfl) rfl rfl]

/-- TRAIN starts training in UP, after the loss of the link, and in DOWN. -/
theorem xplCtlWrite_trains {s : State} {v : Word} (train : bitOf v 0 = true) (live : s.linkState = xUP ∨ s.linkState = xDOWN) :
    ∃ l, s.confined l (fun _ => True) ∧ xplCtlWrite v s = l.enterTrain := by
  rcases live with up | down
  · have isUp := State.linkUp_of_state up
    refine ⟨s.lost, s.lost_leaves.1.weaken fun _ _ => trivial, ?_⟩
    rw [xplCtlWrite, train, Bool.not_true, if_neg Bool.false_ne_true, if_pos isUp, State.linkLost_up true isUp, Bool.true_or, if_pos rfl]
  · have notUp := State.linkUp_eq_false down (by decide)
    refine ⟨s, .refl s _, ?_⟩
    rw [xplCtlWrite, train, Bool.not_true, if_neg Bool.false_ne_true, if_neg (by rw [notUp]; exact Bool.false_ne_true), if_pos down]

/-- Settles O19: the events of the link state table, one by one. -/
theorem linkStatesFollowTrainingAndLoss : Obligations.LinkStatesFollowTrainingAndLoss := by
  intro s init v d
  refine ⟨fun off active run => ?start, fun train lo hi => ?success, fun train due => ?timeout, fun up => ?lost,
    fun run train live => ?train⟩
  case start =>
    have ran : exec .linkTrainingStart s = .next s.enterTrain := congrArg Host.Outcome.next (if_pos ⟨off, active, by rw [run]; rfl⟩)
    obtain ⟨state, attempts, trainAt, attemptAt⟩ := s.enterTrain_starts
    exact .of_exec ran ⟨state, attempts, trainAt, attemptAt, s.confined_enterTrain.tables, s.confined_enterTrain.bytes⟩
  case success =>
    have after := (s.trained d).confined_resumed
    have frame := (s.confined_trained d).trans (after.weaken fun _ _ => trivial)
    obtain ⟨state, event, fields⟩ := s.trained_shows d
    obtain ⟨delay, count⟩ := s.rf_stat_measured lo hi
    have stat : ∀ h l, (s.trained d).resumed.rf Reg.XPL_STAT h l = (s.trained d).rf Reg.XPL_STAT h l := fun h l => after.rf h l (by decide)
    refine .of_exec (exec_trainingSuccess d train) ⟨(stat 2 0).trans state, ?_, ?_, (after.rb 0 (by decide)).trans event,
      frame.tables, frame.bytes⟩
    · rw [stat, fields _ _ (by decide) (by decide), delay]
    · rw [stat, fields _ _ (by decide) (by decide), count]
  case timeout =>
    have counted := s.confined_attempted
    have frame := counted.weaken (might := fun _ => True) fun _ _ => trivial
    have most : s.attempted.rf Reg.XPL_CTL 11 8 = s.rf Reg.XPL_CTL 11 8 := counted.rf 11 8 (by decide)
    have ran := exec_trainingAttemptTimeout train due
    rw [most] at ran
    by_cases more : s.xpl.attempts + 1 < s.rf Reg.XPL_CTL 11 8
    · rw [if_pos more] at ran
      exact .of_exec ran ⟨rfl, fun _ => s.linkState_attempted.trans train, fun last => absurd more (by omega), frame.tables, frame.bytes⟩
    · rw [if_neg more] at ran
      have down := (frame.setLink xDOWN trivial trivial trivial).ist (b := Reg.pgXPL) 2 trivial
      have event := (State.confined.refl (s.attempted.setLink xDOWN) (· = Reg.PG_IST Reg.pgXPL)).ist 2 rfl
      refine .of_exec ran ⟨?_, fun less => absurd less more, fun _ => ⟨?_, State.rb_ist_same _ _ _ (by decide)⟩, down.tables, down.bytes⟩
      · rw [State.ist_xpl, State.setLink_xpl]
        rfl
      · exact (event.rf 2 0 (by decide)).trans (State.linkState_setLink _ (by decide))
  case lost =>
    have isUp := State.linkUp_of_state up
    have frame := s.confined_linkLost false
    obtain ⟨event, empty, count⟩ := State.linkLost_reports false isUp
    refine .of_exec (t := s.linkLost false) rfl ⟨?_, event, count, empty, frame.tables, frame.bytes⟩
    rw [s.linkState_linkLost false isUp]
    simp
  case train =>
    obtain ⟨w, stored⟩ := State.xplTrain_stores init v run
    have taken := ((State.confined.refl s (· = Reg.XPL_CTL)).setUnlock init Reg.XPL_CTL false).wr w rfl
    have same : ((s.setUnlock init Reg.XPL_CTL false).wr Reg.XPL_CTL w).linkState = s.linkState := taken.rf 2 0 (by decide)
    obtain ⟨l, lost, trains⟩ := xplCtlWrite_trains train (by rw [same]; exact live)
    obtain ⟨state, attempts, -⟩ := l.enterTrain_starts
    have ran : exec (.xplTrain init v) s = .next l.enterTrain := congrArg Host.Outcome.next (stored.trans trains)
    have frame := ((taken.weaken fun _ _ => trivial).trans lost).trans l.confined_enterTrain
    exact .of_exec ran ⟨state, attempts, frame.tables, frame.bytes⟩

end Sys2Proof.Machine
end

section
/-! PROOFS. Link frames (R72-R77): what the PLCA and collision status of a frame sets off at the T1S ports leaves the link record alone,
and what a good frame, a bad frame and an interrupt summary leave. -/
namespace Sys2Proof.Machine

/-! Steps beside the link. -/

/-- From s to t the link record stays. -/
def State.sameXpl (s t : State) : Prop := t.xpl = s.xpl

theorem State.sameXpl.refl (s : State) : s.sameXpl s := rfl

theorem State.sameXpl.ite {s t u : State} {c : Prop} [Decidable c] (h : s.sameXpl t) (g : s.sameXpl u) :
    s.sameXpl (if c then t else u) := by
  split
  · exact h
  · exact g

theorem State.sameXpl.foldl {β : Type} {f : State → β → State} {s t : State} (l : List β)
    (step : ∀ (u : State) (x : β), s.sameXpl u → s.sameXpl (f u x)) (h : s.sameXpl t) : s.sameXpl (l.foldl f t) := by
  induction l generalizing t with
  | nil => exact h
  | cons x r ih => exact ih (step t x h)

section
variable {s t : State} (h : s.sameXpl t)
include h

/-- An update of another part of the state. -/
theorem State.sameXpl.step {u : State} (e : u.xpl = t.xpl) : s.sameXpl u := e.trans h

theorem State.sameXpl.wr (a : Nat) (w : Word) : s.sameXpl (t.wr a w) := h

theorem State.sameXpl.wf (a hi lo v : Nat) : s.sameXpl (t.wf a hi lo v) := h

theorem State.sameXpl.wb (a i : Nat) (b : Bool) : s.sameXpl (t.wb a i b) := h

theorem State.sameXpl.ist (b i : Nat) : s.sameXpl (t.ist b i) := h.step (State.ist_xpl _ _ _)

theorem State.sameXpl.istIf (c : Bool) (b i : Nat) : s.sameXpl (t.istIf c b i) := h.step (State.istIf_xpl _ _ _ _)

theorem State.sameXpl.bump (a n k : Nat) : s.sameXpl (t.bump a n k) := h.step (State.bump_xpl _ _ _ _)

theorem State.sameXpl.setSw (w : Switch) : s.sameXpl (t.setSw w) := h

theorem State.sameXpl.setEmac (p : Nat) (e : Emac) : s.sameXpl (t.setEmac p e) := h

theorem State.sameXpl.setCry (x : Cry) : s.sameXpl { t with cry := x } := h

/-! Queues and frames of the switch. -/

theorem State.sameXpl.plcaNext (m : Nat) : s.sameXpl (t.plcaNext m) := h.ite ((h.wf (Reg.T1SP_STAT m) 7 0 _).setEmac _ _)

theorem State.sameXpl.plcaSent (p : Nat) : s.sameXpl (t.plcaSent p) := h.ite ((h.plcaNext _).ite (h.setEmac _ _))

theorem State.sameXpl.pauseAsk (p : Nat) : s.sameXpl (t.pauseAsk p) := h.ite (h.setEmac _ _)

theorem State.sameXpl.wdSync (p : Nat) : s.sameXpl (t.wdSync p) := h.ite (h.setEmac _ _)

theorem State.sameXpl.freeCopy (i k : Nat) : s.sameXpl (t.freeCopy i k) := by
  unfold State.freeCopy
  split
  · exact h
  · exact State.sameXpl.pauseAsk ((h.setSw _).ite (h.setSw _)) _

theorem State.sameXpl.ethResult (f : SwFrame) (code : Nat) (stamp : Option Nat) : s.sameXpl (t.ethResult f code stamp) := by
  unfold State.ethResult
  split
  · exact h.step rfl
  · exact h

theorem State.sameXpl.dropQueued (k : Nat) (c : SwCopy) : s.sameXpl (t.dropQueued k c) := by
  unfold State.dropQueued
  dsimp only
  refine State.sameXpl.wdSync (State.sameXpl.freeCopy (State.sameXpl.setSw ?_ _) c.fid k) (k / 8)
  split
  · exact (h.ethResult _ _ _).ite h
  · exact h

/-- The queues of a port going DOWN are flushed; the frames of an external port are not gated. -/
theorem State.sameXpl.flushQueues {p : Nat} (hp : p ≠ 17) (cs : List Nat) : s.sameXpl
    (t.flushQueues p cs (fun u => u.bump (Reg.EMAC_LDFLUSH p) 1 7)) := by
  refine .foldl cs (fun _ c hu => .foldl _ (fun v d hv => ?_) hu) h
  dsimp only
  rw [if_neg hp]
  exact (hv.dropQueued _ d).bump _ _ _

/-! The MAC table (R302). -/

theorem State.sameXpl.macClear (v : Word) : s.sameXpl (t.macClear v) :=
  .foldl _ (fun _ _ hu => .ite (.ite (hu.step rfl) (hu.setSw _)) hu) h

theorem State.sameXpl.macDown (p : Nat) : s.sameXpl (t.macDown p) :=
  .ite (.ite (h.setSw _) (.ite ((h.macClear _).wb _ _ _) h)) h

/-! Crypto jobs that end with a transmission (R351). -/

theorem State.sameXpl.postMark (i v : Nat) : s.sameXpl (t.postMark i v) :=
  .ite ((h.setCry _).step (State.pairSend_xpl _ _ _ _)) (h.setCry _)

theorem State.sameXpl.markCross (i rsv old new : Nat) : s.sameXpl (t.markCross i rsv old new) := (h.postMark _ _).ite h

theorem State.sameXpl.pnWarn (i : Nat) : s.sameXpl (t.pnWarn i) :=
  .ite (State.sameXpl.wr (State.sameXpl.ist (h.step (State.setSa_xpl _ _ _)) _ _) _ _) h

theorem State.sameXpl.saApply (i : Nat) (w : List Nat) : s.sameXpl (t.saApply i w) := by
  have low : ∀ (c : Bool) (a : Sa), s.sameXpl ((t.setSa i a).istIf c Reg.pgMSEC 2) := fun c a =>
    State.sameXpl.istIf (h.step (State.setSa_xpl _ _ _)) _ _ _
  unfold State.saApply
  dsimp only
  refine State.sameXpl.ite (State.sameXpl.pnWarn ?_ i) ?_ <;>
    exact ((low _ _).postMark _ _).ite (((low _ _).markCross _ _ _ _).ite (low _ _))

theorem State.sameXpl.saSettle (i : Nat) : s.sameXpl (t.saSettle i) := h.ite (.foldl _ (fun _ p hu => hu.saApply i p.2) (h.setCry _))

theorem State.sameXpl.endTxJob (x : TxNow) : s.sameXpl (t.endTxJob x) := by
  unfold State.endTxJob
  split
  · split
    · exact (h.step (State.delJob_xpl _ _)).saSettle _
    · exact h
  · exact h

/-! The T1S ports (R232, R235, R248, R253). -/

theorem State.sameXpl.abortTx (p : Nat) : s.sameXpl (t.abortTx p) := by
  unfold State.abortTx
  split
  · exact h
  case h_2 x _ =>
    have ended := fun e => (((h.bump (Reg.EMAC_TXABORT p) 1 7).endTxJob x).setEmac p e).plcaSent p
    exact ((ended _).freeCopy _ _).ite (ended _)

theorem State.sameXpl.goDown {p : Nat} (hp : p ≠ 17) : s.sameXpl (t.goDown p) :=
  (((h.flushQueues hp _).ist _ _).wf (Reg.EMAC_STAT p) 30 29 2).macDown p

theorem State.sameXpl.linkLoss {p : Nat} (hp : p ≠ 17) : s.sameXpl (t.linkLoss p) := by
  have down := fun e => State.sameXpl.setEmac
    (((((h.abortTx p).bump (Reg.EMAC_LINKDN p) 1 7).ist (Reg.pgEMAC p) 1).wf (Reg.EMAC_STAT p) 31 29 1).wf (Reg.EMAC_STAT p) 7 4 0) p e
  exact h.ite (((down _).goDown hp).ite (down _))

theorem State.sameXpl.ethLinkUp {p : Nat} (hp : p ≠ 17) (code : Nat) : s.sameXpl (t.ethLinkUp p code) := by
  have settled := fun (c : Prop) [Decidable c] => State.sameXpl.ite (c := c) (h.goDown hp) h
  exact (settled _).ite (State.sameXpl.wdSync
    ((((settled _).wf (Reg.EMAC_STAT p) 31 29 4).wf (Reg.EMAC_STAT p) 7 4 code).ist (Reg.pgEMAC p) 0) p)

theorem State.sameXpl.t1Sync {m : Nat} (hm : m < 2) : s.sameXpl (t.t1Sync m) :=
  have port : 12 + m ≠ 17 := by omega
  h.ite (.ite (h.ite (h.ethLinkUp port 1)) (h.linkLoss port))

theorem State.sameXpl.plcaStatus {m : Nat} (hm : m < 2) (ok : Bool) : s.sameXpl (t.plcaStatus m ok) := by
  unfold State.plcaStatus
  dsimp only
  refine h.ite (State.sameXpl.t1Sync ?_ hm)
  have shown := fun b => h.wb (Reg.T1SP_STAT m) 31 b
  exact ((shown _).ist _ _).ite (((shown _).bump _ _ _).ist _ _)

theorem State.sameXpl.collision (m : Fin 2) : s.sameXpl (t.collision m) := by
  have counted := fun c => (h.bump (Reg.T1SP_COLL m) 1 3).istIf c (Reg.pgT1SP m) 2
  unfold State.collision
  dsimp only
  split
  · exact counted _
  case h_2 x _ =>
    have met := fun c => (counted c).bump (Reg.EMAC_TXCOLL (12 + m.val)) 1 7
    have dropped := fun c e => (((met c).bump (Reg.EMAC_TXEXCOLL (12 + m.val)) 1 7).endTxJob x |>.setEmac (12 + m.val) e).plcaSent
      (12 + m.val)
    exact (counted _).ite (.ite (.ite ((dropped _ _).freeCopy _ _) (dropped _ _)) ((met _).setEmac _ _))

theorem State.sameXpl.t1sStatus (m : Fin 2) (old new : Nat) : s.sameXpl (t.t1sStatus m old new) := by
  have status : s.sameXpl (if nbit new 2 ≠ nbit old 2 then t.plcaStatus m (nbit new 2) else t) := (h.plcaStatus m.isLt _).ite h
  exact (status.collision m).ite status

theorem State.sameXpl.t1sStatuses (old : List Nat) : s.sameXpl (t.t1sStatuses old) := (h.t1sStatus _ _ _).t1sStatus _ _ _

end

/-! Good frames (R72-R76). -/

/-- A status that stands as in the frame before sets nothing off. -/
theorem State.t1sStatus_same (s : State) (m : Fin 2) {old new : Nat} (plca : nbit new 2 = nbit old 2) (coll : nbit new 3 = nbit old 3) :
    s.t1sStatus m old new = s := by
  rw [State.t1sStatus, if_neg (not_not.mpr plca), coll, Bool.and_not_self, if_neg Bool.false_ne_true]

theorem dw_eq_getD (l : List Nat) (k : Nat) : dw l k = l[k]?.getD 0 := by
  rw [dw]
  cases l[k]? <;> rfl

theorem State.t1sStatuses_same {s : State} {old : List Nat} (h : ∀ k < 2, nbit (dw s.xpl.t1sRx k) 2 = nbit (dw old k) 2
    ∧ nbit (dw s.xpl.t1sRx k) 3 = nbit (dw old k) 3) : s.t1sStatuses old = s := by
  simp only [dw_eq_getD] at h
  obtain ⟨plca0, coll0⟩ := h 0 (by decide)
  obtain ⟨plca1, coll1⟩ := h 1 (by decide)
  exact (congrArg (fun t => State.t1sStatus t 1 _ _) (s.t1sStatus_same 0 plca0 coll0)).trans (s.t1sStatus_same 1 plca1 coll1)

/-- An empty register slot without acknowledgement. -/
theorem deliverMsg_empty {eff : Initiator → Nat → Word → State → State} {m : BMsg} (d : LinkDir) (busHeld : Bool) (s : State)
    (empty : m.typ = 0) (noAck : m.ackv = false) : deliverMsg eff d m busHeld s = s := by
  unfold deliverMsg
  simp only [empty, noAck, Bool.false_eq_true, if_false]

/-- An empty event slot. -/
theorem State.eventSlot_empty (s : State) (d : LinkDir) {ev : Nat} (empty : nfld ev 15 12 = 0) : s.eventSlot d ev = s := by
  cases d <;> simp [State.eventSlot, empty]

/-- The pins after the receiver has taken a frame. -/
def State.pinned (s : State) (d : LinkDir) (n : Nat) : State :=
  (s.setReceiver d { s.receiver d with bad := 0, fseq := nfld n 255 252 }).pinSlots d n

/-- A frame with empty register and event slots: the pins, and the status of the T1S PHYs where it comes from them. -/
theorem exec_xanpelFrame_empty {s : State} (d : LinkDir) {f : BitVec 256} (busHeld : Bool) (up : s.linkUp = true)
    (empty : (slotMsg f.toNat).typ = 0) (noAck : (slotMsg f.toNat).ackv = false) (noEvent : nfld f.toNat 47 44 = 0) :
    exec (.xanpelFrame d f true busHeld) s = .next (if d = .toYatric then (s.pinned d f.toNat).t1sStatuses s.xpl.t1sRx
      else s.pinned d f.toNat) := by
  have event : nfld (nfld f.toNat 47 32) 15 12 = 0 := by
    rw [← noEvent]
    unfold nfld
    omega
  change execXanpelFrame d f true busHeld s = _
  rw [execXanpelFrame, up, empty, Bool.not_true, if_neg Bool.false_ne_true, Bool.false_or, if_neg (by decide),
    State.frameGood]
  dsimp only
  rw [if_pos empty, deliverMsg_empty _ _ _ empty noAck, State.eventSlot_empty _ _ event, ite_self]
  rfl

theorem State.confined_pinned (s : State) (d : LinkDir) (n : Nat) : s.confined (s.pinned d n) (· ∈ []) := by
  cases d <;> exact ((State.confined.refl s _).setXpl _).setXpl _

/-! Bad frames (R72, R75, R89). -/

/-- A discarded frame: the receiver counts it, and the nibbles that it carried become errors. -/
def State.discarded (s : State) (d : LinkDir) : State :=
  let s := s.setReceiver d { s.receiver d with bad := (s.receiver d).bad + 1 }
  let x := s.xpl
  let er := fun (l : List Nat) => l.map (fun f => nsetBit f 5 true)
  match d with
  | .toKykel => s.setXpl { x with t1sTx := er x.t1sTx }
  | .toYatric => s.setXpl { x with t1sRx := er x.t1sRx, t1sErr := t1sFaults (er x.t1sRx) x.t1sErr }

theorem State.discarded_keeps (s : State) (d : LinkDir) : s.confined (s.discarded d) (· ∈ []) ∧ (s.discarded d).xpl.rxd = s.xpl.rxd
    ∧ (s.discarded d).xpl.txd = s.xpl.txd ∧ ((s.discarded d).receiver d).bad = (s.receiver d).bad + 1 := by
  cases d <;> exact ⟨((State.confined.refl s _).setXpl _).setXpl _, rfl, rfl, rfl⟩

theorem State.receiver_congr {s t : State} (h : t.xpl = s.xpl) (d : LinkDir) : t.receiver d = s.receiver d := by
  cases d <;> simp only [State.receiver, State.sender, oppDir, h]

theorem exec_xanpelFrame_bad {s : State} (d : LinkDir) (f : BitVec 256) (busHeld : Bool) (up : s.linkUp = true) :
    exec (.xanpelFrame d f false busHeld) s = .next (if 4 ≤ (s.receiver d).bad + 1
      then ((s.discarded d).bumpSat Reg.XPL_CRCERR 1 4).linkLost false else (s.discarded d).bumpSat Reg.XPL_CRCERR 1 4) := by
  have run : s.frameBad d = if 4 ≤ (((s.discarded d).bumpSat Reg.XPL_CRCERR 1 4).receiver d).bad
      then ((s.discarded d).bumpSat Reg.XPL_CRCERR 1 4).linkLost false else (s.discarded d).bumpSat Reg.XPL_CRCERR 1 4 := rfl
  rw [State.receiver_congr (State.bumpSat_xpl _ _ _ _), (s.discarded_keeps d).2.2.2] at run
  change execXanpelFrame d f false busHeld s = _
  rw [execXanpelFrame, up, Bool.not_true, if_neg Bool.false_ne_true, Bool.not_false, Bool.true_or, if_pos rfl, run]

/-! Interrupts of the Kykel pages (R50, R88). -/

theorem State.foldl_syncVec_xpl (l : List Nat) (s : State) : (l.foldl (fun t v => t.syncVec v) s).xpl = s.xpl :=
  State.sameXpl.foldl l (fun _ _ hu => hu.step (State.syncVec_xpl _ _)) (.refl s)

/-- A summary word that arrives over a link that is UP. -/
theorem State.kykelSummary_shows {s : State} (up : s.linkUp = true) : s.kykelSummary.xpl.kSum = s.kykelReqs
    ∧ s.kykelSummary.xpl.kSync = true ∧ s.confined s.kykelSummary (· ∈ []) := by
  rw [State.kykelSummary, up, Bool.not_true, if_neg Bool.false_ne_true]
  dsimp only
  rw [State.foldl_syncVec_xpl]
  exact ⟨rfl, rfl, ((State.confined.refl s _).setXpl _).foldl _ fun _ v _ hu => hu.syncVec v⟩

/-- Settles O20: good frames, bad frames, the summary word and K_INT. -/
theorem linkFramesMoveThePins : Obligations.LinkFramesMoveThePins := by
  intro s dir f busHeld up
  refine ⟨fun empty noAck noEvent => ?good, fun fourth => ?lost, fun few => ?bad, ?summary, ?kint⟩
  case good =>
    have ran := exec_xanpelFrame_empty dir busHeld up empty noAck noEvent
    have pins := s.confined_pinned dir f.toNat
    cases dir with
    | toKykel =>
      rw [if_neg LinkDir.noConfusion] at ran
      exact .of_exec ran ⟨rfl, rfl, LinkDir.noConfusion, fun _ => ⟨rfl, rfl, rfl⟩, fun _ => ⟨pins.sameRegs, pins.tables, pins.bytes⟩⟩
    | toYatric =>
      rw [if_pos rfl] at ran
      have xpl : ((s.pinned .toYatric f.toNat).t1sStatuses s.xpl.t1sRx).xpl = (s.pinned .toYatric f.toNat).xpl :=
        (State.sameXpl.refl _).t1sStatuses _
      refine .of_exec ran ⟨?_, ?_, fun _ => ?_, LinkDir.noConfusion, fun status => ?_⟩
      · rw [State.receiver_congr xpl]
        rfl
      · rw [State.receiver_congr xpl]
        rfl
      · rw [xpl]
        exact ⟨rfl, rfl, rfl⟩
      · rw [State.t1sStatuses_same (status.resolve_left LinkDir.noConfusion)]
        exact ⟨pins.sameRegs, pins.tables, pins.bytes⟩
  case lost =>
    have ran := exec_xanpelFrame_bad dir f busHeld up
    rw [if_pos fourth] at ran
    exact .of_exec ran (State.linkUp_linkLost _ _)
  case bad =>
    have ran := exec_xanpelFrame_bad dir f busHeld up
    rw [if_neg (by omega)] at ran
    obtain ⟨frame, rxd, txd, bad⟩ := s.discarded_keeps dir
    have kept : s.confined (s.discarded dir) (· ∈ [Reg.XPL_CRCERR, Reg.PG_IST Reg.pgXPL]) := frame.weaken fun _ none => nomatch none
    have counted := kept.bumpSat (a := Reg.XPL_CRCERR) 1 4 (by decide) (by decide)
    refine .of_exec ran ⟨?_, ?_, ?_, ?_, counted.sameRegs, counted.tables, counted.bytes⟩
    · rw [State.bumpSat_xpl, rxd]
    · rw [State.bumpSat_xpl, txd]
    · rw [State.receiver_congr (State.bumpSat_xpl _ _ _ _), bad]
    · rw [State.rd_bumpSat_same _ _ _ _ (by decide), frame.regs _ List.not_mem_nil]
  case summary =>
    obtain ⟨sum, sync, frame⟩ := State.kykelSummary_shows up
    exact .of_exec (t := s.kykelSummary) rfl ⟨sum, sync, frame.sameRegs, frame.tables, frame.bytes⟩
  case kint =>
    have frame := (State.confined.refl s (· ∈ [])).setXpl { s.xpl with kInt := !s.kykelReqs.isEmpty }
    refine .of_exec (t := s.setXpl { s.xpl with kInt := !s.kykelReqs.isEmpty }) rfl ⟨?_, frame.sameRegs, frame.tables, frame.bytes⟩
    rw [State.setXpl_xpl, Bool.not_eq_true', List.isEmpty_eq_false_iff]

end Sys2Proof.Machine
end

section
/-! PROOFS. Beside the CAN controllers: what the end of a copy, a drop and a record do to the units the copy came from (R151, R207, R223,
R398, R520) touches no controller and no register of a controller's page. -/
namespace Sys2Proof.Machine

/-- An address outside the pages of the CAN controllers. -/
def offCan (a : Nat) : Prop := a < 0x100000 ∨ 0x118000 ≤ a

/-- The CAN controllers, the registers of their pages, tables, memories and clocks stay. -/
structure State.besideCan (s t : State) : Prop where
  frame : s.confined t offCan
  can : t.can = s.can

theorem State.besideCan.refl (s : State) : s.besideCan s := ⟨.refl s _, rfl⟩

theorem State.besideCan.ite {s t u : State} {c : Prop} [Decidable c] (h : s.besideCan t) (g : s.besideCan u) :
    s.besideCan (if c then t else u) := by
  split
  · exact h
  · exact g

theorem State.besideCan.foldl {β : Type} {f : State → β → State} {s : State} (l : List β)
    (step : ∀ (t : State) (x : β), s.besideCan t → s.besideCan (f t x)) {t : State} (h : s.besideCan t) : s.besideCan (l.foldl f t) := by
  induction l generalizing t with
  | nil => exact h
  | cons x r ih => exact ih (step t x h)

/-- A register of a controller's page reads as before. -/
theorem State.besideCan.rd {s t : State} (h : s.besideCan t) {n : Nat} (hn : n < 24) {o : Nat} (ho : o < 0x1000) :
    t.rd (0x100000 + o + 0x1000 * n) = s.rd (0x100000 + o + 0x1000 * n) :=
  h.frame.regs _ (by unfold offCan; omega)

section
variable {s t : State} (h : s.besideCan t)
include h

/-! Registers, event bits, counters, records. -/

theorem State.besideCan.wr {a : Nat} (w : Word) (ha : offCan a) : s.besideCan (t.wr a w) := ⟨h.frame.wr w ha, h.can⟩

theorem State.besideCan.ist {b : Nat} (i : Nat) (hb : offCan (Reg.PG_IST b)) : s.besideCan (t.ist b i) :=
  ⟨h.frame.ist i hb, (State.ist_can _ _ _).trans h.can⟩

/-- A counter of a page above those of the controllers. -/
theorem State.besideCan.bump {a : Nat} (n k : Nat) (ha : 0x118000 ≤ a) : s.besideCan (t.bump a n k) :=
  ⟨h.frame.bump n k (.inr ha) (.inr (by dsimp only [Reg.PG_IST, pageBase]; omega)), (State.bump_can _ _ _ _).trans h.can⟩

theorem State.besideCan.trace (typ src : Nat) (body : List Byte) : s.besideCan (t.trace typ src body) :=
  ⟨h.frame.trace typ src body (.inl (by decide)) (.inl (by decide)), (State.trace_can _ _ _ _).trans h.can⟩

theorem State.besideCan.traceCan (typ n : Nat) (f : CanFrame) : s.besideCan (t.traceCan typ n f) := (h.trace _ _ _).ite h

/-! Updates that are no register, table or byte. -/

theorem State.besideCan.draw : s.besideCan t.draw.2 :=
  ⟨⟨h.frame.regs, h.frame.tables, h.frame.bytes, h.frame.sent, h.frame.tsy, h.frame.mono⟩, h.can⟩

theorem State.besideCan.setPrv {p : Privet} (data : p.pdata = t.prv.pdata) : s.besideCan { t with prv := p } :=
  ⟨⟨h.frame.regs, h.frame.tables, fun a => by simpa [data] using h.frame.bytes a, h.frame.sent, h.frame.tsy, h.frame.mono⟩, h.can⟩

theorem State.besideCan.setClm (c : Ledger) : s.besideCan { t with clm := c } :=
  ⟨⟨h.frame.regs, h.frame.tables, h.frame.bytes, h.frame.sent, h.frame.tsy, h.frame.mono⟩, h.can⟩

theorem State.besideCan.setTpe (x : Tpe) : s.besideCan { t with tpe := x } :=
  ⟨⟨h.frame.regs, h.frame.tables, h.frame.bytes, h.frame.sent, h.frame.tsy, h.frame.mono⟩, h.can⟩

theorem State.besideCan.setHq (q : Nat) (x : HQueue) : s.besideCan (t.setHq q x) :=
  ⟨⟨h.frame.regs, h.frame.tables, h.frame.bytes, h.frame.sent, h.frame.tsy, h.frame.mono⟩, h.can⟩

theorem State.besideCan.setXpl (x : Xpl) : s.besideCan (t.setXpl x) := ⟨h.frame.setXpl x, h.can⟩

theorem State.besideCan.setWkn (w : Wkn) : s.besideCan (t.setWkn w) := ⟨h.frame.setWkn w, h.can⟩

/-! Frames the device forms (R207, R223, R444, R453). -/

theorem State.besideCan.deadlineCount (c : Copy) : s.besideCan (t.deadlineCount c) := by
  refine State.besideCan.ist ?_ 0 (.inr (by decide))
  split
  · exact h.setPrv rfl
  · exact h.setPrv rfl
  · exact h

theorem State.besideCan.dropCount (n : Nat) (c : Copy) (k : Cause) : s.besideCan (t.dropCount n c k) := by
  refine State.besideCan.trace (State.besideCan.draw ?_) _ _ _
  have privet : ∀ {a : Nat} (i : Nat), 0x118000 ≤ a → s.besideCan ((t.bump a 1 6).ist Reg.pgPRV_CTL i) := fun i ha =>
    (h.bump 1 6 ha).ist i (.inr (by decide))
  have ledger : ∀ {a : Nat} (i : Nat), 0x118000 ≤ a → s.besideCan ((t.bump a 1 7).ist Reg.pgCLM i) := fun i ha =>
    (h.bump 1 7 ha).ist i (.inr (by decide))
  cases k with
  | isolated => exact ledger 6 (Nat.le_add_right_of_le (by decide))
  | disabled => exact privet 3 (Nat.le_add_right_of_le (by decide))
  | format => exact privet 1 (Nat.le_add_right_of_le (by decide))
  | xlate => exact ledger 5 (Nat.le_add_right_of_le (by decide))
  | auth => exact h
  | holdfull => exact privet 2 (Nat.le_add_right_of_le (by decide))
  | deadline => exact (h.bump 1 6 (Nat.le_add_right_of_le (by decide))).deadlineCount c

theorem State.besideCan.agreeSync : s.besideCan t.agreeSync :=
  h.ite (((h.setWkn _).ist (b := Reg.pgWKN) 0 (.inr (by decide))).setXpl _)

theorem State.besideCan.demand (n : Nat) : s.besideCan (t.demand n) := by
  have asked := (((h.setPrv (p := { t.prv with demand := amPut t.prv.demand n t.now }) rfl).setXpl
    { t.xpl with evY := { t.xpl.evY with q := t.xpl.evY.q ++ [(t.xpl.evY.seq, 9, n)], seq := (t.xpl.evY.seq + 1) % 8 } }).agreeSync)
  unfold State.demand
  split
  · exact h.ite asked
  · exact asked

theorem State.besideCan.formCopy (n pc : Nat) (f : CanFrame) (o : Origin) (dl : Option Nat) (dig : Bool) :
    s.besideCan (t.formCopy n pc f o dl dig).1 := by
  unfold State.formCopy
  dsimp only
  split
  · exact h.dropCount _ _ _
  · refine State.besideCan.demand ?_ n
    exact h.setPrv rfl

theorem State.besideCan.tpeAbort (etp : Bool) (n sa da pgn reason : Nat) : s.besideCan (t.tpeAbort etp n sa da pgn reason) :=
  (((h.formCopy n _ _ _ _ _).bump 1 6 (by decide)).ist (b := Reg.pgTPE) 2 (.inr (by decide))).wr _ (.inr (by decide))

/-! Ends of copies (R207, R223, R398). -/

theorem State.besideCan.partEnd (i p : Nat) (ok : Bool) : s.besideCan (t.partEnd i p ok) := by
  unfold State.partEnd
  split
  · exact h
  · have noted := fun x => h.setTpe { t.tpe with ses := amPut t.tpe.ses i x }
    refine State.besideCan.ite (State.besideCan.setTpe (State.besideCan.ite ?_ ?_) _) ?_
    · exact noted _
    · exact (noted _).bump 1 6 (by decide)
    · exact noted _

theorem State.besideCan.partFail (i p : Nat) : s.besideCan (t.partFail i p) := by
  have counted := (h.bump (a := Reg.TPE_EGFAIL) 1 6 (by decide)).ist (b := Reg.pgTPE) 4 (.inr (by decide))
  unfold State.partFail
  split
  · exact h
  · dsimp only
    split
    · exact (counted.tpeAbort _ _ _ _ _ _).partEnd _ _ _
    · exact counted.partEnd _ _ _

theorem State.besideCan.partSent (i p : Nat) : s.besideCan (t.partSent i p) := by
  unfold State.partSent
  split
  · exact h
  · have noted := fun x => h.setTpe { t.tpe with ses := amPut t.tpe.ses i x }
    dsimp only
    split
    · split
      · exact ((noted _).partEnd _ _ _).ite (noted _)
      · exact (noted _).partEnd _ _ _
      · exact noted _
    · exact noted _

theorem State.besideCan.endCopy (c : Copy) (e : CopyEnd) : s.besideCan (t.endCopy c e) := by
  unfold State.endCopy
  split
  · exact h.setPrv rfl
  · refine State.besideCan.ite ?_ h
    exact h.setClm _
  · exact h.partSent _ _
  · exact h.partFail _ _
  · exact h.ite (h.setHq _ _)
  · exact h.setHq _ _
  · exact h.setHq _ _
  · exact h

/-! Drops of held copies (R150, R151). -/

theorem State.besideCan.freeCell (j : Nat) : s.besideCan (t.freeCell j) := by
  unfold State.freeCell
  split
  · exact h
  · exact h.setPrv rfl

theorem State.besideCan.dropCopy (n : Nat) (c : Copy) (k : Cause) : s.besideCan (t.dropCopy n c k) :=
  ((h.dropCount n c k).freeCell _).endCopy c .dropped

theorem State.besideCan.dropHeld (n : Nat) : s.besideCan (t.dropHeld n) :=
  State.besideCan.foldl _ (fun _ c hu => hu.dropCopy n c .disabled) (h.setPrv rfl)

end

end Sys2Proof.Machine
end

section
/-! PROOFS. The record and the registers of a CAN controller (R94-R131): what each operation on them leaves of the controllers, and what
error confinement (R118-R122) leaves of the registers. -/
namespace Sys2Proof.Machine

/-! Controllers. -/

@[simp] theorem State.canOf_setCan_same (s : State) (n : Nat) (c : CanCtl) : (s.setCan n c).canOf n = c := amGetD_set_same _ _ _ _

theorem State.canOf_setCan_other (s : State) {n m : Nat} (c : CanCtl) (h : m ≠ n) : (s.setCan n c).canOf m = s.canOf m :=
  amGetD_set_other _ _ _ _ h

theorem State.canOf_congr {s t : State} (h : t.can = s.can) (n : Nat) : t.canOf n = s.canOf n := congrArg (amGetD canReset · n) h

@[simp] theorem State.canOf_wr (s : State) (a : Nat) (w : Word) (n : Nat) : (s.wr a w).canOf n = s.canOf n := rfl

@[simp] theorem State.canOf_wf (s : State) (a hi lo v n : Nat) : (s.wf a hi lo v).canOf n = s.canOf n := rfl

@[simp] theorem State.canOf_ist (s : State) (b i n : Nat) : (s.ist b i).canOf n = s.canOf n := State.canOf_congr (State.ist_can _ _ _) n

@[simp] theorem State.canOf_istIf (s : State) (c : Bool) (b i n : Nat) : (s.istIf c b i).canOf n = s.canOf n :=
  State.canOf_congr (State.istIf_can _ _ _ _) n

@[simp] theorem State.canOf_bump (s : State) (a k i n : Nat) : (s.bump a k i).canOf n = s.canOf n :=
  State.canOf_congr (State.bump_can _ _ _ _) n

@[simp] theorem State.setTecRec_can (s : State) (n x r : Nat) : (s.setTecRec n x r).can = s.can := rfl

@[simp] theorem State.setCanState_can (s : State) (n v : Nat) : (s.setCanState n v).can = s.can := rfl

/-- A change of settings in use or of buffers is no change of OP while MODE stays. -/
theorem State.canOp_setCan (s : State) (n : Nat) {c : CanCtl} (h : c.mode = (s.canOf n).mode) : (s.setCan n c).canOp n = s.canOp n := by
  unfold State.canOp
  rw [State.canOf_setCan_same, h]
  rfl

/-! What the operations may change. -/

/-- PG_IST of a controller's page is the register of its counters' events. -/
theorem pageBase_canc (n : Nat) {o : Nat} (h : o < 0x1000) : pageBase (0x100000 + o + 0x1000 * n) = Reg.pgCANC n := by
  dsimp only [pageBase, Reg.pgCANC]
  omega

/-- The registers of error confinement (R118-R122, R130). -/
def confineRegs (n : Nat) : List Nat :=
  [Reg.CANC_ESTAT n, Reg.CANC_ECNT n, Reg.CANC_BOFFCNT n, Reg.CANC_EPASSCNT n, Reg.PG_IST (Reg.pgCANC n)]

/-- Another register of the page. -/
theorem ne_of_mem_confineRegs {n a : Nat} (h : a ∈ confineRegs n) {o : Nat} (ho : o ∉ [0x124, 0x128, 0x160, 0x164, 0x10]) :
    a ≠ 0x100000 + o + 0x1000 * n := by
  simp only [confineRegs, List.mem_cons, List.not_mem_nil, or_false] at h ho
  dsimp only [Reg.PG_IST, Reg.pgCANC, Reg.CANC_ESTAT, Reg.CANC_ECNT, Reg.CANC_BOFFCNT, Reg.CANC_EPASSCNT] at h
  omega

/-- PG_IST is another register of the page. -/
theorem ist_ne_canc (n : Nat) {o : Nat} (h : o ≠ 0x10) : Reg.PG_IST (Reg.pgCANC n) ≠ 0x100000 + o + 0x1000 * n := by
  dsimp only [Reg.PG_IST, Reg.pgCANC]
  omega

/-- An address outside the pages is none of their registers. -/
theorem ne_canc_of_offCan {a n o : Nat} (h : offCan a) (hn : n < 24) (ho : o < 0x1000) : a ≠ 0x100000 + o + 0x1000 * n := by
  unfold offCan at h
  omega

section
variable {s t : State} {may : Nat → Prop} (h : s.confined t may)
include h

theorem State.confined.besideCan {u : State} (b : t.besideCan u) (hm : ∀ a, offCan a → may a) : s.confined u may :=
  h.trans (b.frame.weaken hm)

theorem State.confined.setCan (n : Nat) (c : CanCtl) : s.confined (t.setCan n c) may :=
  ⟨h.regs, h.tables, h.bytes, h.sent, h.tsy, h.mono⟩

theorem State.confined.draw : s.confined t.draw.2 may := ⟨h.regs, h.tables, h.bytes, h.sent, h.tsy, h.mono⟩

/-- A counter of a controller's page. -/
theorem State.confined.bumpCan {n o : Nat} (k i : Nat) (ho : o < 0x1000) (ha : may (0x100000 + o + 0x1000 * n))
    (hb : may (Reg.PG_IST (Reg.pgCANC n))) : s.confined (t.bump (0x100000 + o + 0x1000 * n) k i) may :=
  h.bump k i ha (by rw [pageBase_canc n ho]; exact hb)

theorem State.confined.headCheck {n : Nat} (old : Option Nat) (hb : may (Reg.PG_IST (Reg.pgCANC n))) :
    s.confined (t.headCheck n old) may := by
  unfold State.headCheck
  split
  · exact h
  · exact h.istIf _ 3 hb

theorem State.confined.freeBuf {n : Nat} (i : Nat) (hb : may (Reg.PG_IST (Reg.pgCANC n))) : s.confined (t.freeBuf n i) may :=
  State.confined.headCheck (h.setCan n _) _ hb

theorem State.confined.ewarnCheck {n : Nat} (hr : ∀ a ∈ confineRegs n, may a) : s.confined (t.ewarnCheck n) may :=
  State.confined.istIf (h.wb 4 _ (hr _ (by simp [confineRegs]))) _ 2 (hr _ (by simp [confineRegs]))

theorem State.confined.setTecRec {n : Nat} (x r : Nat) (hr : ∀ a ∈ confineRegs n, may a) : s.confined (t.setTecRec n x r) may :=
  h.wr _ (hr _ (by simp [confineRegs]))

theorem State.confined.setCanState {n : Nat} (v : Nat) (hr : ∀ a ∈ confineRegs n, may a) : s.confined (t.setCanState n v) may :=
  h.wf 2 0 v (hr _ (by simp [confineRegs]))

theorem State.confined.busOff {n : Nat} (hr : ∀ a ∈ confineRegs n, may a) : s.confined (t.busOff n) may := by
  have event := hr (Reg.PG_IST (Reg.pgCANC n)) (by simp [confineRegs])
  have off := ((h.setTecRec 256 (t.canRec n) hr).setCanState 4 hr).setCan n
  have counted := fun c => (((off c).bumpCan (o := 0x160) 1 12 (by decide) (hr _ (by simp [confineRegs])) event).ist 0 event)
  exact (counted _).istIf _ 3 event

theorem State.confined.confine {n : Nat} (hr : ∀ a ∈ confineRegs n, may a) : s.confined (t.confine n) may := by
  have event := hr (Reg.PG_IST (Reg.pgCANC n)) (by simp [confineRegs])
  have passive := ((h.setCanState 3 hr).bumpCan (o := 0x164) 1 12 (by decide) (hr _ (by simp [confineRegs])) event).ist 1 event
  exact (h.ewarnCheck hr).ite (((h.busOff hr).ewarnCheck hr).ite (((h.ite passive).ewarnCheck hr).ite ((h.setCanState 2 hr).ewarnCheck hr)))

theorem State.confined.recGood {n : Nat} (hr : ∀ a ∈ confineRegs n, may a) : s.confined (t.recGood n) may :=
  h.ite ((h.setTecRec _ _ hr).ite (h.draw.setTecRec _ _ hr))

end

/-! What error confinement leaves of a controller: everything but its flags and times. -/

/-- A controller without what error confinement sets. -/
def CanCtl.calm (c : CanCtl) : CanCtl := { c with suspend := false, flag := none, sentLast := false, boffAt := 0 }

/-- From s to t, of the controllers only what error confinement sets in controller n may change. -/
structure State.calmCan (s t : State) (n : Nat) : Prop where
  own : (t.canOf n).calm = (s.canOf n).calm
  others : ∀ m, m ≠ n → t.canOf m = s.canOf m

theorem State.calmCan.refl (s : State) (n : Nat) : s.calmCan s n := ⟨rfl, fun _ _ => rfl⟩

theorem State.calmCan.rx {s t : State} {n : Nat} (h : s.calmCan t n) : (t.canOf n).rx = (s.canOf n).rx := (congrArg CanCtl.rx h.own :)

theorem State.calmCan.bufs {s t : State} {n : Nat} (h : s.calmCan t n) : (t.canOf n).bufs = (s.canOf n).bufs := (congrArg CanCtl.bufs h.own :)

theorem State.calmCan.txNow {s t : State} {n : Nat} (h : s.calmCan t n) : (t.canOf n).txNow = (s.canOf n).txNow :=
  (congrArg CanCtl.txNow h.own :)

theorem State.calmCan.ite {s t u : State} {n : Nat} {c : Prop} [Decidable c] (h : s.calmCan t n) (g : s.calmCan u n) :
    s.calmCan (if c then t else u) n := by
  split
  · exact h
  · exact g

section
variable {s t : State} {n : Nat} (h : s.calmCan t n)
include h

/-- An update of anything but the controllers. -/
theorem State.calmCan.of_can {u : State} (can : u.can = t.can) : s.calmCan u n :=
  ⟨by rw [State.canOf_congr can, h.own], fun m hm => by rw [State.canOf_congr can, h.others m hm]⟩

theorem State.calmCan.setCan {c : CanCtl} (calm : c.calm = (t.canOf n).calm) : s.calmCan (t.setCan n c) n :=
  ⟨by rw [State.canOf_setCan_same, calm, h.own], fun m hm => by rw [State.canOf_setCan_other _ _ hm, h.others m hm]⟩

theorem State.calmCan.ewarnCheck : s.calmCan (t.ewarnCheck n) n := h.of_can ((State.istIf_can _ _ _ _).trans rfl)

theorem State.calmCan.busOff : s.calmCan (t.busOff n) n := by
  have off : s.calmCan ((t.setTecRec n 256 (t.canRec n)).setCanState n 4) n :=
    h.of_can ((State.setCanState_can _ _ _).trans (State.setTecRec_can _ _ _ _))
  have flagged := off.setCan
    (c := { ((t.setTecRec n 256 (t.canRec n)).setCanState n 4).canOf n with
      boffAt := ((t.setTecRec n 256 (t.canRec n)).setCanState n 4).now, suspend := false, flag := none }) rfl
  have counted := (flagged.of_can (State.bump_can _ (Reg.CANC_BOFFCNT n) 1 12)).of_can (State.ist_can _ (Reg.pgCANC n) 0)
  exact counted.of_can (State.istIf_can _ _ _ _)

theorem State.calmCan.confine : s.calmCan (t.confine n) n := by
  have passive : s.calmCan (((t.setCanState n 3).bump (Reg.CANC_EPASSCNT n) 1 12).ist (Reg.pgCANC n) 1) n :=
    h.of_can ((State.ist_can _ _ _).trans (State.bump_can _ _ _ _))
  have active : s.calmCan (t.setCanState n 2) n := h.of_can rfl
  exact h.ewarnCheck.ite (h.busOff.ewarnCheck.ite ((h.ite passive).ewarnCheck.ite active.ewarnCheck))

theorem State.calmCan.recGood : s.calmCan (t.recGood n) n := by
  have lowered : s.calmCan (t.setTecRec n (t.tec n) (t.canRec n - 1)) n := h.of_can rfl
  exact h.ite (lowered.ite (h.of_can rfl))

end

end Sys2Proof.Machine
end

section
/-! PROOFS. Reception (R114-R117): a valid frame is counted, judged by error confinement and handed on to Privet, or discarded. -/
namespace Sys2Proof.Machine

/-- A counter of a controller's page (R8, R130). -/
theorem State.rd_bumpCan (s : State) (n : Nat) {o : Nat} (i : Nat) (ho : o < 0x1000) (h : o ≠ 0x10) :
    (s.bump (0x100000 + o + 0x1000 * n) 1 i).rd (0x100000 + o + 0x1000 * n) = s.rd (0x100000 + o + 0x1000 * n) + 1 := by
  rw [State.rd_bump_same _ _ _ _ (by rw [pageBase_canc n ho]; exact (ist_ne_canc n h).symm)]
  apply BitVec.eq_of_toNat_eq
  simp

/-! The hand-off (R115, R117). -/

theorem State.rxHandOff_room {s : State} {n : Nat} (self : Bool) (f : CanFrame) (age : Nat) (room : (s.canOf n).rx.length < 8) :
    s.rxHandOff n self f age = s.setCan n { s.canOf n with
      rx := (s.canOf n).rx ++ [⟨n, self, f, 0, s.sofStamp n age, s.now, s.tsy.full, none, none⟩] } := if_pos room

theorem State.rxHandOff_full {s : State} {n : Nat} (self : Bool) (f : CanFrame) (age : Nat) (full : 8 ≤ (s.canOf n).rx.length) :
    s.rxHandOff n self f age = (s.bump (Reg.CANC_RXDISC n) 1 12).ist (Reg.pgCANC n) 9 := if_neg (by omega)

theorem State.confined.rxHandOff {s t : State} {may : Nat → Prop} (h : s.confined t may) {n : Nat} (self : Bool) (f : CanFrame) (age : Nat)
    (disc : may (Reg.CANC_RXDISC n)) (event : may (Reg.PG_IST (Reg.pgCANC n))) : s.confined (t.rxHandOff n self f age) may :=
  State.confined.ite (h.setCan n _) ((h.bumpCan (o := 0x174) 1 12 (by decide) disc event).ist 9 event)

theorem State.rd_rxHandOff_full {s : State} {n : Nat} (self : Bool) (f : CanFrame) (age : Nat) (full : 8 ≤ (s.canOf n).rx.length) :
    (s.rxHandOff n self f age).rd (Reg.CANC_RXDISC n) = s.rd (Reg.CANC_RXDISC n) + 1 := by
  rw [State.rxHandOff_full _ _ _ full, State.rd_ist_other _ _ _ _ (ist_ne_canc n (o := 0x174) (by decide)).symm]
  exact State.rd_bumpCan s n (o := 0x174) 12 (by decide) (by decide)

/-- No other controller hears of it. -/
theorem State.canOf_rxHandOff_other (s : State) {n m : Nat} (self : Bool) (f : CanFrame) (age : Nat) (h : m ≠ n) :
    (s.rxHandOff n self f age).canOf m = s.canOf m := by
  rcases Nat.lt_or_ge (s.canOf n).rx.length 8 with room | full
  · rw [State.rxHandOff_room self f age room, State.canOf_setCan_other _ _ h]
  · rw [State.rxHandOff_full self f age full, State.canOf_ist, State.canOf_bump]

/-! A frame of the bus. -/

/-- The controller has counted a valid frame of its bus and judged its counters (R114, R119, R121). -/
def State.rxCounted (s : State) (n : Nat) : State :=
  (((s.setCan n { s.canOf n with flag := none, sentLast := false }).bump (Reg.CANC_RXOK n) 1 12).recGood n).confine n

theorem exec_canFrameValid_bus {s : State} {n : Fin 24} {f : CanFrame} (age : Nat) (on : s.canOn n = true) (op : s.canOp n ≠ 4)
    (taken : s.accepts n f = true) (idle : (s.canOf n).txNow = none) :
    exec (.canFrameValid n false f age) s = .next (((s.rxCounted n).rxHandOff n false f age).traceCan 2 n f) :=
  if_pos (by simp [on, op, taken, idle])

theorem exec_canFrameValid_own {s : State} {n : Fin 24} {g : CanFrame} (f : CanFrame) (age : Nat) (due : (s.canOf n).selfDue = some g) :
    exec (.canFrameValid n true f age) s = .next ((s.setCan n { s.canOf n with selfDue := none }).rxHandOff n true g age) := by
  change execCanFrameValid n true f age s = _
  simp only [execCanFrameValid, if_true, due]

/-- The counted frame touches the registers of error confinement beside RXOK. -/
theorem State.confined_rxCounted (s : State) (n : Nat) {may : Nat → Prop} (ok : may (Reg.CANC_RXOK n)) (hr : ∀ a ∈ confineRegs n, may a) :
    s.confined (s.rxCounted n) may := by
  have counted := ((State.confined.refl s may).setCan n { s.canOf n with flag := none, sentLast := false }).bumpCan (o := 0x140) 1 12
    (by decide) ok (hr _ (by simp [confineRegs]))
  exact (counted.recGood hr).confine hr

theorem State.calmCan_rxCounted (s : State) (n : Nat) : s.calmCan (s.rxCounted n) n :=
  ((((State.calmCan.refl s n).setCan (c := { s.canOf n with flag := none, sentLast := false }) rfl).of_can
    (State.bump_can _ _ _ _)).recGood).confine

theorem State.rd_rxCounted_rxok (s : State) (n : Nat) : (s.rxCounted n).rd (Reg.CANC_RXOK n) = s.rd (Reg.CANC_RXOK n) + 1 := by
  have apart : ∀ a ∈ confineRegs n, a ≠ Reg.CANC_RXOK n := fun _ h => ne_of_mem_confineRegs h (o := 0x140) (by decide)
  have kept := ((State.confined.refl ((s.setCan n { s.canOf n with flag := none, sentLast := false }).bump (Reg.CANC_RXOK n) 1 12)
    (· ≠ Reg.CANC_RXOK n)).recGood apart).confine apart
  exact (kept.regs _ (not_not_intro rfl)).trans (State.rd_bumpCan _ n (o := 0x140) 12 (by decide) (by decide))

/-- R114, R115, R117: a valid frame of the bus. -/
theorem canFrameValid_bus {s : State} {n : Fin 24} {f : CanFrame} (age : Nat) (on : s.canOn n = true) (op : s.canOp n ≠ 4)
    (taken : s.accepts n f = true) (idle : (s.canOf n).txNow = none) :
    Completes (.canFrameValid n false f age) s fun t => t.rd (Reg.CANC_RXOK n) = s.rd (Reg.CANC_RXOK n) + 1
      ∧ ((s.canOf n).rx.length < 8 → ∃ j, (t.canOf n).rx = (s.canOf n).rx ++ [j] ∧ j.frame = f ∧ j.src = (n : Nat) ∧ j.self = false)
      ∧ (8 ≤ (s.canOf n).rx.length → (t.canOf n).rx = (s.canOf n).rx ∧ t.rd (Reg.CANC_RXDISC n) = s.rd (Reg.CANC_RXDISC n) + 1)
      ∧ (∀ m, m ≠ (n : Nat) → t.canOf m = s.canOf m) ∧ s.sameTables t ∧ s.sameBytes t := by
  have calm := s.calmCan_rxCounted n
  have noted := (State.besideCan.refl ((s.rxCounted n).rxHandOff n false f age)).traceCan 2 n f
  have frame := ((s.confined_rxCounted n (may := fun _ => True) trivial fun _ _ => trivial).rxHandOff (n := n) false f age trivial trivial).besideCan
    noted fun _ _ => trivial
  refine .of_exec (exec_canFrameValid_bus age on op taken idle) ⟨?rxok, fun room => ?joins, fun full => ?discarded, fun m other => ?others,
    frame.tables, frame.bytes⟩
  case rxok =>
    have kept := (State.confined.refl (s.rxCounted n) (· ≠ Reg.CANC_RXOK n)).rxHandOff (n := n) false f age (by simp)
      (ist_ne_canc n (o := 0x140) (by decide))
    exact (noted.rd n.isLt (o := 0x140) (by decide)).trans ((kept.regs _ (not_not_intro rfl)).trans (s.rd_rxCounted_rxok n))
  case joins =>
    rw [← calm.rx] at room
    rw [State.canOf_congr noted.can, State.rxHandOff_room _ _ _ room, State.canOf_setCan_same, calm.rx]
    exact ⟨_, rfl, rfl, rfl, rfl⟩
  case discarded =>
    rw [← calm.rx] at full
    refine ⟨?_, (noted.rd n.isLt (o := 0x174) (by decide)).trans ?_⟩
    · rw [State.canOf_congr noted.can, State.rxHandOff_full _ _ _ full, State.canOf_ist, State.canOf_bump, calm.rx]
    · have apart := (s.confined_rxCounted n (may := (· ≠ Reg.CANC_RXDISC n)) (by simp) fun _ h =>
        ne_of_mem_confineRegs h (o := 0x174) (by decide)).regs _ (not_not_intro rfl)
      exact (State.rd_rxHandOff_full _ _ _ full).trans (congrArg (fun w : Word => w + 1) apart)
  case others => rw [State.canOf_congr noted.can, State.canOf_rxHandOff_other _ _ _ _ other, calm.others m other]

/-- R116: a frame of its own at the end of EOF. -/
theorem canFrameValid_own {s : State} {n : Fin 24} {g : CanFrame} (f : CanFrame) (age : Nat) (due : (s.canOf n).selfDue = some g)
    (room : (s.canOf n).rx.length < 8) : Completes (.canFrameValid n true f age) s fun t =>
      (∃ j, (t.canOf n).rx = (s.canOf n).rx ++ [j] ∧ j.frame = g ∧ j.self = true) ∧ (t.canOf n).selfDue = none
      ∧ s.sameRegs t [] ∧ s.sameTables t ∧ s.sameBytes t := by
  have ran := exec_canFrameValid_own f age due
  rw [State.rxHandOff_room true g age (by rw [State.canOf_setCan_same]; exact room)] at ran
  have frame := ((State.confined.refl s (· ∈ [])).setCan n { s.canOf n with selfDue := none }).setCan n
  refine .of_exec ran ⟨?_, ?_, (frame _).sameRegs, (frame _).tables, (frame _).bytes⟩
  · simp only [State.canOf_setCan_same]
    exact ⟨_, rfl, rfl, rfl⟩
  · simp only [State.canOf_setCan_same]

end Sys2Proof.Machine
end

section
/-! PROOFS. Transmission (R101, R108-R113, R120, R129, R130): the selection of the head, and the end of an attempt with and without
success. -/
namespace Sys2Proof.Machine

/-! Selection (R101, R110-R112). -/

theorem State.selectTx_head {s : State} {n : Nat} {p : Nat × CanTx} (k : Nat)
    (head : headTx ((s.canOf n).bufs.filter (fun q => s.accepts n q.2.copy.frame)) = some p) (fresh : s.overdue p.2.copy = false) :
    s.selectTx n (k + 1) = (s, some p) := by
  simp only [State.selectTx, head, fresh, Bool.false_eq_true, if_false]

/-- No delay is measured, or it is measured within 255 clocks and recorded. -/
theorem State.tdcMeasure_ok {s : State} {n : Nat} (f : CanFrame) {rxDom : Nat}
    (seen : bitOf (s.canOf n).tdc 0 = false ∨ max rxDom (fld (s.canOf n).tdc 23 16) ≤ 255) :
    s.tdcMeasure n f rxDom = (s, false) ∨ ∃ w, s.tdcMeasure n f rxDom = (s.wr (Reg.CANC_TDCSTAT n) w, false) := by
  unfold State.tdcMeasure
  dsimp only
  split_ifs with off late
  · exact .inl rfl
  · rcases seen with unused | soon
    · simp [unused] at off
    · omega
  · exact .inr ⟨_, rfl⟩

/-- Controller n starts the frame of buffer p; in LOOP_INT nothing leaves the block (R95). -/
def State.txStarted (s : State) (n : Nat) (p : Nat × CanTx) : State :=
  let u := s.setCan n { s.canOf n with txNow := some p.1, flag := none }
  if s.canOp n = 4 then u else u.emit (.canStart n (s.asSent n p.2.copy.frame))

theorem State.canOf_txStarted (s : State) (n : Nat) (p : Nat × CanTx) :
    (s.txStarted n p).canOf n = { s.canOf n with txNow := some p.1, flag := none } := by
  unfold State.txStarted
  dsimp only
  split <;> exact State.canOf_setCan_same _ _ _

theorem State.outbox_txStarted (s : State) (n : Nat) (p : Nat × CanTx) : (s.txStarted n p).outbox
    = if s.canOp n = 4 then s.outbox else s.outbox ++ [.canStart n (s.asSent n p.2.copy.frame)] := by
  unfold State.txStarted
  dsimp only
  split <;> rfl

theorem exec_transmitSelection_head {s : State} {n : Fin 24} {p : Nat × CanTx} {rxDom : Nat} (may : s.maySend1 n = true)
    (head : headTx ((s.canOf n).bufs.filter (fun q => s.accepts n q.2.copy.frame)) = some p) (fresh : s.overdue p.2.copy = false)
    (seen : bitOf (s.canOf n).tdc 0 = false ∨ max rxDom (fld (s.canOf n).tdc 23 16) ≤ 255) :
    ∃ t, exec (.transmitSelection n rxDom) s = .next t
      ∧ (t = s.txStarted n p ∨ ∃ w, t = (s.txStarted n p).wr (Reg.CANC_TDCSTAT n) w) := by
  have measured := (s.txStarted n p).tdcMeasure_ok (n := n) (s.asSent n p.2.copy.frame) (rxDom := rxDom)
    (by rw [State.canOf_txStarted]; exact seen)
  have op := s.canOp_setCan n (c := { s.canOf n with txNow := some p.1, flag := none }) rfl
  unfold State.txStarted at measured ⊢
  change ∃ t, execTransmitSelection n rxDom s = _ ∧ _
  simp only [execTransmitSelection, may, if_true, State.selectTx_head 63 head fresh, op]
  rcases measured with same | ⟨w, same⟩
  · exact ⟨_, by rw [same]; rfl, .inl rfl⟩
  · exact ⟨_, by rw [same]; rfl, .inr ⟨w, rfl⟩⟩

/-- R110-R112: the head is in transmission. -/
theorem transmitSelection_head {s : State} {n : Fin 24} {p : Nat × CanTx} {rxDom : Nat} (may : s.maySend1 n = true)
    (head : headTx ((s.canOf n).bufs.filter (fun q => s.accepts n q.2.copy.frame)) = some p) (fresh : s.overdue p.2.copy = false)
    (seen : bitOf (s.canOf n).tdc 0 = false ∨ max rxDom (fld (s.canOf n).tdc 23 16) ≤ 255) :
    Completes (.transmitSelection n rxDom) s fun t => (t.canOf n).txNow = some p.1 ∧ (t.canOf n).bufs = (s.canOf n).bufs
      ∧ t.outbox = (if s.canOp n = 4 then s.outbox else s.outbox ++ [.canStart n (s.asSent n p.2.copy.frame)])
      ∧ s.sameRegs t [Reg.CANC_TDCSTAT n] ∧ s.sameTables t ∧ s.sameBytes t := by
  obtain ⟨t, ran, result⟩ := exec_transmitSelection_head may head fresh seen
  have started : s.confined (s.txStarted n p) (· ∈ [Reg.CANC_TDCSTAT n]) :=
    ((State.confined.refl s _).setCan n _).ite (((State.confined.refl s _).setCan n _).emit _)
  refine .of_exec ran ?_
  rcases result with rfl | ⟨w, rfl⟩
  · rw [State.canOf_txStarted, State.outbox_txStarted]
    exact ⟨rfl, rfl, rfl, started.sameRegs, started.tables, started.bytes⟩
  · have recorded := started.wr w (List.mem_singleton_self _)
    rw [State.canOf_wr, State.canOf_txStarted, State.wr_outbox, State.outbox_txStarted]
    exact ⟨rfl, rfl, rfl, recorded.sameRegs, recorded.tables, recorded.bytes⟩

/-! Buffers (R108, R113). -/

@[simp] theorem State.headCheck_can (s : State) (n : Nat) (old : Option Nat) : (s.headCheck n old).can = s.can := by
  unfold State.headCheck
  split
  · rfl
  · exact State.istIf_can _ _ _ _

theorem State.canOf_freeBuf (s : State) (n i : Nat) :
    (s.freeBuf n i).canOf n = { s.canOf n with bufs := amDel (s.canOf n).bufs i } := by
  rw [State.freeBuf, State.canOf_congr (State.headCheck_can _ _ _), State.canOf_setCan_same]

/-- The frame of a cancel request was sent: RESULT 3, and the request has ended. -/
theorem State.cancelDecide_sent (s : State) (n i : Nat) : s.cancelDecide n i true = s
    ∨ s.cancelDecide n i true
      = ((s.setCan n { s.canOf n with cancel := none }).wf (Reg.CANC_TXCAN n) 31 30 3).ist (Reg.pgCANC n) 10 := by
  by_cases asked : (s.canOf n).cancel = some i
  · simp only [State.cancelDecide, asked, if_true, or_true]
  · simp only [State.cancelDecide, asked, if_false, true_or]

theorem State.cancelDecide_unasked {s : State} {n : Nat} (i : Nat) (sent : Bool) (unasked : (s.canOf n).cancel = none) :
    s.cancelDecide n i sent = s := if_neg (by rw [unasked]; exact (Option.some_ne_none i).symm)

/-! Success (R113, R116, R129). -/

/-- The frame of buffer i has left: no attempt is in progress, and its buffer is free. -/
def State.txEnded (s : State) (n i : Nat) (self : Option CanFrame) : State :=
  ((s.setCan n { s.canOf n with txNow := none, sentLast := true, selfDue := self }).cancelDecide n i true).freeBuf n i

theorem State.canOf_txEnded (s : State) (n i : Nat) (self : Option CanFrame) :
    ((s.txEnded n i self).canOf n).txNow = none ∧ ((s.txEnded n i self).canOf n).bufs = amDel (s.canOf n).bufs i := by
  rw [State.txEnded, State.canOf_freeBuf]
  rcases (s.setCan n { s.canOf n with txNow := none, sentLast := true, selfDue := self }).cancelDecide_sent n i with kept | decided
  · rw [kept, State.canOf_setCan_same]
    exact ⟨rfl, rfl⟩
  · rw [decided, State.canOf_ist, State.canOf_wf, State.canOf_setCan_same, State.canOf_setCan_same]
    exact ⟨rfl, rfl⟩

theorem State.confined_txEnded (s : State) (n i : Nat) (self : Option CanFrame) {may : Nat → Prop} (result : may (Reg.CANC_TXCAN n))
    (event : may (Reg.PG_IST (Reg.pgCANC n))) : s.confined (s.txEnded n i self) may := by
  have idle := (State.confined.refl s may).setCan n { s.canOf n with txNow := none, sentLast := true, selfDue := self }
  refine State.confined.freeBuf ?_ i event
  rcases (s.setCan n { s.canOf n with txNow := none, sentLast := true, selfDue := self }).cancelDecide_sent n i with kept | decided
  · rw [kept]
    exact idle
  · rw [decided]
    exact ((idle.setCan n _).wf 31 30 3 result).ist 10 event

/-- A success counts, lowers TEC, and ends ACKRUN and ALONE. -/
def State.txCounted (s : State) (n : Nat) : State :=
  let s := s.bump (Reg.CANC_TXOK n) 1 12
  let s := s.setTecRec n (s.tec n - 1) (s.canRec n)
  s.wr (Reg.CANC_ESTAT n) (setBit (setFld (s.rd (Reg.CANC_ESTAT n)) 20 16 0) 5 false)

/-- An error passive transmitter waits before its next frame (R120). -/
def State.suspendPassive (s : State) (n : Nat) : State :=
  if s.canState n = 3 then s.setCan n { s.canOf n with suspend := true } else s

theorem exec_transmissionSuccess {s : State} {n : Fin 24} {i : Nat} {x : CanTx} (age : Nat) (now : (s.canOf n).txNow = some i)
    (held : amGet (s.canOf n).bufs i = some x) : ∃ self f e, exec (.transmissionSuccess n age) s
      = .next ((((((s.txEnded n i self).txCounted n).confine n).suspendPassive n).traceCan 3 n f).endCopy x.copy e) := by
  change ∃ self f e, execTransmissionSuccess n age s = _
  simp only [execTransmissionSuccess, now, held]
  exact ⟨_, _, _, rfl⟩

/-! Lost arbitration (R110, R130). -/

theorem State.attemptFailed_unasked {s : State} {n i : Nat} (now : (s.canOf n).txNow = some i) (unasked : (s.canOf n).cancel = none) :
    s.attemptFailed n = s.setCan n { s.canOf n with txNow := none } := by
  simp only [State.attemptFailed, now]
  exact State.cancelDecide_unasked i false (by rw [State.canOf_setCan_same]; exact unasked)

/-- Lost arbitration is counted and leaves every buffer. -/
theorem arbitrationLost_unasked {s : State} {n : Fin 24} {i : Nat} (now : (s.canOf n).txNow = some i) (unasked : (s.canOf n).cancel = none) :
    Completes (.arbitrationLost n) s fun t =>
      (t.canOf n).txNow = none ∧ (t.canOf n).bufs = (s.canOf n).bufs ∧ t.rd (Reg.CANC_ARBLOST n) = s.rd (Reg.CANC_ARBLOST n) + 1
      ∧ s.sameRegs t [Reg.CANC_ARBLOST n, Reg.PG_IST (Reg.pgCANC n)] ∧ s.sameTables t ∧ s.sameBytes t := by
  have ran : exec (.arbitrationLost n) s = .next ((s.bump (Reg.CANC_ARBLOST n) 1 12).attemptFailed n) := if_pos (by rw [now]; rfl)
  rw [State.attemptFailed_unasked (i := i) (by rw [State.canOf_bump, now]) (by rw [State.canOf_bump, unasked]), State.canOf_bump] at ran
  have frame := ((State.confined.refl s (· ∈ [Reg.CANC_ARBLOST n, Reg.PG_IST (Reg.pgCANC n)])).bumpCan (n := n) (o := 0x148) 1 12 (by decide)
    (by simp) (by simp)).setCan n { s.canOf n with txNow := none }
  refine .of_exec ran ⟨?_, ?_, State.rd_bumpCan s n (o := 0x148) 12 (by decide) (by decide), frame.sameRegs, frame.tables, frame.bytes⟩ <;>
    rw [State.canOf_setCan_same]

end Sys2Proof.Machine
end

section
/-! PROOFS. A successful transmission (R113, R118-R120, R129): what it leaves of TEC, REC, ACKRUN and ALONE. -/
namespace Sys2Proof.Machine

/-! TEC and REC. -/

theorem capAt_le (cap n : Nat) : capAt cap n ≤ cap := by
  unfold capAt
  split_ifs <;> omega

theorem capAt_of_le {cap n : Nat} (h : n ≤ cap) : capAt cap n = n := if_neg (by omega)

theorem State.canRec_le (s : State) (n : Nat) : s.canRec n ≤ 255 :=
  Nat.le_of_lt_succ (Nat.mod_lt _ (by decide))

theorem State.tec_lt (s : State) (n : Nat) : s.tec n < 512 := Nat.mod_lt _ (by decide)

/-- The word of CANCn_ECNT. -/
theorem toNat_ecnt (x r : Nat) : (BitVec.ofNat 32 (capAt 255 r * 65536 + x % 512)).toNat = capAt 255 r * 65536 + x % 512 := by
  have := capAt_le 255 r
  rw [BitVec.toNat_ofNat, Nat.mod_eq_of_lt (by omega)]

theorem State.tec_setTecRec (s : State) (n x r : Nat) : (s.setTecRec n x r).tec n = x % 512 := by
  have split : (capAt 255 r * 65536 + x % 512) / 2 ^ 0 % 2 ^ 9 = x % 512 := by omega
  rw [State.tec, State.rf, State.setTecRec, State.rd_wr_same, fld, toNat_ecnt, nfld, Nat.shiftRight_eq_div_pow, split]

theorem State.canRec_setTecRec (s : State) (n x r : Nat) : (s.setTecRec n x r).canRec n = capAt 255 r := by
  have := capAt_le 255 r
  have split : (capAt 255 r * 65536 + x % 512) / 2 ^ 16 % 2 ^ 8 = capAt 255 r := by omega
  rw [State.canRec, State.rf, State.setTecRec, State.rd_wr_same, fld, toNat_ecnt, nfld, Nat.shiftRight_eq_div_pow, split]

theorem State.tec_congr {s t : State} {n : Nat} (h : t.rd (Reg.CANC_ECNT n) = s.rd (Reg.CANC_ECNT n)) : t.tec n = s.tec n := by
  rw [State.tec, State.rf, h, State.tec, State.rf]

theorem State.canRec_congr {s t : State} {n : Nat} (h : t.rd (Reg.CANC_ECNT n) = s.rd (Reg.CANC_ECNT n)) : t.canRec n = s.canRec n := by
  rw [State.canRec, State.rf, h, State.canRec, State.rf]

/-! Error confinement below BUS_OFF: TEC and REC stay, and ESTAT above EWARN. -/

/-- From s to t TEC and REC of controller n stay, and the bits of its CANCn_ESTAT above EWARN. -/
structure State.keepsCounts (s t : State) (n : Nat) : Prop where
  ecnt : t.rd (Reg.CANC_ECNT n) = s.rd (Reg.CANC_ECNT n)
  estat : ∀ i, 4 < i → i < 32 → (t.rd (Reg.CANC_ESTAT n)).toNat.testBit i = (s.rd (Reg.CANC_ESTAT n)).toNat.testBit i

theorem State.keepsCounts.refl (s : State) (n : Nat) : s.keepsCounts s n := ⟨rfl, fun _ _ _ => rfl⟩

theorem State.keepsCounts.ite {s t u : State} {n : Nat} {c : Prop} [Decidable c] (h : s.keepsCounts t n) (g : s.keepsCounts u n) :
    s.keepsCounts (if c then t else u) n := by
  split
  · exact h
  · exact g

section
variable {s t : State} {n : Nat} (h : s.keepsCounts t n)
include h

/-- A field of CANCn_ESTAT above EWARN. -/
theorem State.keepsCounts.rf {hi lo : Nat} (above : 4 < lo) (word : hi < 32) :
    t.rf (Reg.CANC_ESTAT n) hi lo = s.rf (Reg.CANC_ESTAT n) hi lo := by
  apply Nat.eq_of_testBit_eq
  intro j
  rw [State.rf, State.rf, fld_testBit, fld_testBit]
  by_cases inside : j < hi + 1 - lo
  · rw [h.estat (lo + j) (by omega) (by omega)]
  · simp [inside]

theorem State.keepsCounts.rb {i : Nat} (above : 4 < i) (word : i < 32) : t.rb (Reg.CANC_ESTAT n) i = s.rb (Reg.CANC_ESTAT n) i := by
  rw [State.rb, bitOf, nbit_testBit, h.estat i above word, ← nbit_testBit, ← bitOf, ← State.rb]

theorem State.keepsCounts.of_rd {u : State} (ecnt : u.rd (Reg.CANC_ECNT n) = t.rd (Reg.CANC_ECNT n))
    (estat : u.rd (Reg.CANC_ESTAT n) = t.rd (Reg.CANC_ESTAT n)) : s.keepsCounts u n :=
  ⟨ecnt.trans h.ecnt, fun i above word => by rw [estat, h.estat i above word]⟩

/-- A step that changes neither register. -/
theorem State.keepsCounts.confined {u : State} {may : Nat → Prop} (c : t.confined u may) (ecnt : ¬ may (Reg.CANC_ECNT n))
    (estat : ¬ may (Reg.CANC_ESTAT n)) : s.keepsCounts u n := h.of_rd (c.regs _ ecnt) (c.regs _ estat)

/-- STATE or EWARN is set. -/
theorem State.keepsCounts.wf {hi : Nat} (lo v : Nat) (low : hi ≤ 4) : s.keepsCounts (t.wf (Reg.CANC_ESTAT n) hi lo v) n :=
  ⟨(State.rd_wf_other _ _ _ _ (by dsimp only [Reg.CANC_ECNT, Reg.CANC_ESTAT]; omega)).trans h.ecnt, fun i above word => by
    rw [State.wf, State.rd_wr_same, setFld_testBit _ _ _ _ _ word, if_neg (by omega), h.estat i above word]⟩

theorem State.keepsCounts.ewarnCheck : s.keepsCounts (t.ewarnCheck n) n := by
  have warned := h.wf (hi := 4) 4 (decide (96 ≤ t.tec n) || decide (96 ≤ t.canRec n)).toNat (Nat.le_refl 4)
  exact warned.of_rd (State.rd_istIf_other _ _ _ _ _ (ist_ne_canc n (o := 0x128) (by decide)).symm)
    (State.rd_istIf_other _ _ _ _ _ (ist_ne_canc n (o := 0x124) (by decide)).symm)

/-- Confinement of a controller whose TEC is at most 255 does not enter BUS_OFF (R122). -/
theorem State.keepsCounts.confine (below : t.tec n ≤ 255) : s.keepsCounts (t.confine n) n := by
  have passive : s.keepsCounts (((t.setCanState n 3).bump (Reg.CANC_EPASSCNT n) 1 12).ist (Reg.pgCANC n) 1) n := by
    have event : Reg.PG_IST (Reg.pgCANC n) ≠ Reg.CANC_ECNT n ∧ Reg.PG_IST (Reg.pgCANC n) ≠ Reg.CANC_ESTAT n :=
      ⟨ist_ne_canc n (o := 0x128) (by decide), ist_ne_canc n (o := 0x124) (by decide)⟩
    have counted := ((State.confined.refl (t.setCanState n 3) (fun a => a ≠ Reg.CANC_ECNT n ∧ a ≠ Reg.CANC_ESTAT n)).bumpCan (n := n)
      (o := 0x164) 1 12 (by decide) (by simp) event).ist 1 event
    exact (h.wf (hi := 2) 0 3 (by decide)).confined counted (fun own => own.1 rfl) fun own => own.2 rfl
  unfold State.confine
  split_ifs
  · exact h.ewarnCheck
  · omega
  · exact h.ewarnCheck
  · exact passive.ewarnCheck
  · exact (h.wf (hi := 2) 0 2 (by decide)).ewarnCheck

theorem State.keepsCounts.suspendPassive : s.keepsCounts (t.suspendPassive n) n := State.keepsCounts.ite (h.of_rd rfl rfl) h

end

/-! The counted success. -/

theorem State.calmCan.suspendPassive {s t : State} {n : Nat} (h : s.calmCan t n) : s.calmCan (t.suspendPassive n) n :=
  State.calmCan.ite (h.setCan rfl) h

theorem State.confined.suspendPassive {s t : State} {may : Nat → Prop} (h : s.confined t may) (n : Nat) :
    s.confined (t.suspendPassive n) may := State.confined.ite (h.setCan n _) h

theorem State.confined.txCounted {s t : State} {may : Nat → Prop} (h : s.confined t may) {n : Nat} (ok : may (Reg.CANC_TXOK n))
    (hr : ∀ a ∈ confineRegs n, may a) : s.confined (t.txCounted n) may :=
  State.confined.wr (State.confined.setTecRec (h.bumpCan (o := 0x144) 1 12 (by decide) ok (hr _ (by simp [confineRegs]))) _ _ hr) _
    (hr _ (by simp [confineRegs]))

theorem State.calmCan.txCounted {s t : State} {n : Nat} (h : s.calmCan t n) : s.calmCan (t.txCounted n) n :=
  h.of_can (State.bump_can _ _ _ _)

/-- TEC is lowered by one, unless 0; REC, ACKRUN and ALONE. -/
theorem State.counts_txCounted (s : State) (n : Nat) : (s.txCounted n).tec n = s.tec n - 1 ∧ (s.txCounted n).canRec n = s.canRec n
    ∧ (s.txCounted n).rf (Reg.CANC_ESTAT n) 20 16 = 0 ∧ (s.txCounted n).rb (Reg.CANC_ESTAT n) 5 = false := by
  have ecnt : (s.bump (Reg.CANC_TXOK n) 1 12).rd (Reg.CANC_ECNT n) = s.rd (Reg.CANC_ECNT n) :=
    ((State.confined.refl s (· ≠ Reg.CANC_ECNT n)).bumpCan (n := n) (o := 0x144) 1 12 (by decide) (by simp)
      (ist_ne_canc n (o := 0x128) (by decide))).regs _ (not_not_intro rfl)
  have apart : ∀ (t : State) (w : Word), (t.wr (Reg.CANC_ESTAT n) w).rd (Reg.CANC_ECNT n) = t.rd (Reg.CANC_ECNT n) := fun t w =>
    t.rd_wr_other w (by simp)
  have range := s.tec_lt n
  refine ⟨?_, ?_, ?_, ?_⟩
  · rw [State.txCounted, State.tec_congr (apart _ _), State.tec_setTecRec, State.tec_congr ecnt, Nat.mod_eq_of_lt (by omega)]
  · rw [State.txCounted, State.canRec_congr (apart _ _), State.canRec_setTecRec, State.canRec_congr ecnt, capAt_of_le (s.canRec_le n)]
  · rw [State.txCounted, State.rf, State.rd_wr_same, fld_setBit_other _ _ _ _ _ (by decide) (by decide), fld_setFld_same _ _ _ _ (by decide)]
    rfl
  · rw [State.txCounted, State.rb, State.rd_wr_same, bitOf_setBit_same _ _ _ (by decide)]

theorem State.rd_txCounted_txok (s : State) (n : Nat) : (s.txCounted n).rd (Reg.CANC_TXOK n) = s.rd (Reg.CANC_TXOK n) + 1 := by
  rw [State.txCounted, State.rd_wr_other _ _ (by dsimp only [Reg.CANC_TXOK, Reg.CANC_ESTAT]; omega), State.setTecRec,
    State.rd_wr_other _ _ (by dsimp only [Reg.CANC_TXOK, Reg.CANC_ECNT]; omega)]
  exact State.rd_bumpCan s n (o := 0x144) 12 (by decide) (by decide)

/-- R113, R120, R129: the frame was acknowledged. -/
theorem transmissionSuccess_held {s : State} {n : Fin 24} {i : Nat} {x : CanTx} (age : Nat) (now : (s.canOf n).txNow = some i)
    (held : amGet (s.canOf n).bufs i = some x) (below : s.tec n ≤ 255) :
    Completes (.transmissionSuccess n age) s fun t => (t.canOf n).txNow = none ∧ amGet (t.canOf n).bufs i = none
      ∧ t.rd (Reg.CANC_TXOK n) = s.rd (Reg.CANC_TXOK n) + 1 ∧ t.tec n = s.tec n - 1 ∧ t.canRec n = s.canRec n
      ∧ t.rf (Reg.CANC_ESTAT n) 20 16 = 0 ∧ t.rb (Reg.CANC_ESTAT n) 5 = false ∧ s.sameTables t := by
  obtain ⟨self, f, e, ran⟩ := exec_transmissionSuccess age now held
  obtain ⟨idle, freed⟩ := s.canOf_txEnded n i self
  obtain ⟨tec, errors, run, alone⟩ := (s.txEnded n i self).counts_txCounted n
  have ended := fun {o : Nat} (ho : o ∉ [0x138, 0x10]) => (s.confined_txEnded n i self (may := (· ≠ 0x100000 + o + 0x1000 * n))
    (by simp at ho ⊢; omega) (ist_ne_canc n (by simp at ho; omega))).regs _ (not_not_intro rfl)
  have ecnt := ended (o := 0x128) (by decide)
  have judged : ((s.txEnded n i self).txCounted n).keepsCounts ((((s.txEnded n i self).txCounted n).confine n).suspendPassive n) n :=
    ((State.keepsCounts.refl _ n).confine (by rw [tec, State.tec_congr ecnt]; omega)).suspendPassive
  have counted := (((State.confined.refl ((s.txEnded n i self).txCounted n) (· ≠ Reg.CANC_TXOK n)).confine fun _ h =>
    ne_of_mem_confineRegs h (o := 0x144) (by decide)).suspendPassive n).regs _ (not_not_intro rfl)
  have calm := (State.calmCan.refl (s.txEnded n i self) n).txCounted.confine.suspendPassive
  have noted := ((State.besideCan.refl ((((s.txEnded n i self).txCounted n).confine n).suspendPassive n)).traceCan 3 n f).endCopy x.copy e
  have frame := (((((s.confined_txEnded n i self (may := fun _ => True) trivial trivial).txCounted (n := n) trivial
    fun _ _ => trivial).confine (n := n) fun _ _ => trivial).suspendPassive n).besideCan noted fun _ _ => trivial)
  have report := noted.rd n.isLt (o := 0x128) (by decide)
  have state := noted.rd n.isLt (o := 0x124) (by decide)
  refine .of_exec ran ⟨?_, ?_, ?_, ?_, ?_, ?_, ?_, frame.tables⟩
  · rw [State.canOf_congr noted.can, calm.txNow, idle]
  · rw [State.canOf_congr noted.can, calm.bufs, freed, amGet_del_same]
  · exact (noted.rd n.isLt (o := 0x144) (by decide)).trans (counted.trans ((State.rd_txCounted_txok _ n).trans
      (congrArg (fun w : Word => w + 1) (ended (o := 0x144) (by decide)))))
  · rw [State.tec_congr report, State.tec_congr judged.ecnt, tec, State.tec_congr ecnt]
  · rw [State.canRec_congr report, State.canRec_congr judged.ecnt, errors, State.canRec_congr ecnt]
  · exact (congrArg (fld · 20 16) state).trans ((judged.rf (by decide) (by decide)).trans run)
  · exact (congrArg (bitOf · 5) state).trans ((judged.rb (by decide) (by decide)).trans alone)

end Sys2Proof.Machine
end

section
/-! PROOFS. Configuration (R96-R99): the committed settings are taken into use, and what follows of the new mode changes none of them. -/
namespace Sys2Proof.Machine

/-! Event bits that stand. -/

theorem State.rb_istIf_mono {s : State} {c j : Nat} (x : Bool) (b i : Nat) (h : s.rb (Reg.PG_IST c) j = true) (hj : j < 32) :
    (s.istIf x b i).rb (Reg.PG_IST c) j = true := by
  cases x
  · exact h
  · exact State.rb_ist_mono b i h hj

/-- What a controller has in use of its settings. -/
def CanCtl.settings (c : CanCtl) : Word × Word × Word × Bool := (c.mode, c.btn, c.btd, c.cfgPend)

/-- From s to t the settings controller n has in use stay, and so does its BTERR. -/
structure State.keepsSettings (s t : State) (n : Nat) : Prop where
  own : (t.canOf n).settings = (s.canOf n).settings
  bterr : s.rb (Reg.PG_IST (Reg.pgCANC n)) 7 = true → t.rb (Reg.PG_IST (Reg.pgCANC n)) 7 = true

theorem State.keepsSettings.refl (s : State) (n : Nat) : s.keepsSettings s n := ⟨rfl, id⟩

theorem State.keepsSettings.ite {s t u : State} {n : Nat} {c : Prop} [Decidable c] (h : s.keepsSettings t n) (g : s.keepsSettings u n) :
    s.keepsSettings (if c then t else u) n := by
  split
  · exact h
  · exact g

theorem State.keepsSettings.foldl {β : Type} {f : State → β → State} {s : State} {n : Nat} (l : List β)
    (step : ∀ (t : State) (x : β), s.keepsSettings t n → s.keepsSettings (f t x) n) {t : State} (h : s.keepsSettings t n) :
    s.keepsSettings (l.foldl f t) n := by
  induction l generalizing t with
  | nil => exact h
  | cons x r ih => exact ih (step t x h)

section
variable {s t : State} {n : Nat} (h : s.keepsSettings t n)
include h

/-- Another register of the page. -/
theorem State.keepsSettings.wr {o : Nat} (w : Word) (ho : o ≠ 0x10) : s.keepsSettings (t.wr (0x100000 + o + 0x1000 * n) w) n :=
  ⟨h.own, fun set => by rw [State.rb, State.rd_wr_other _ _ (ist_ne_canc n ho), ← State.rb, h.bterr set]⟩

theorem State.keepsSettings.istIf (x : Bool) (i : Nat) : s.keepsSettings (t.istIf x (Reg.pgCANC n) i) n :=
  ⟨by rw [State.canOf_istIf, h.own], fun set => State.rb_istIf_mono x _ i (h.bterr set) (by decide)⟩

theorem State.keepsSettings.bump {o : Nat} (k i : Nat) (ho : o < 0x1000) (hi : o ≠ 0x10) :
    s.keepsSettings (t.bump (0x100000 + o + 0x1000 * n) k i) n := by
  rw [State.bump, pageBase_canc n ho]
  exact (h.wr _ hi).istIf _ i

theorem State.keepsSettings.setCan {c : CanCtl} (same : c.settings = (t.canOf n).settings) : s.keepsSettings (t.setCan n c) n :=
  ⟨by rw [State.canOf_setCan_same, same, h.own], h.bterr⟩

theorem State.keepsSettings.besideCan {u : State} (b : t.besideCan u) (hn : n < 24) : s.keepsSettings u n := by
  have event : u.rd (Reg.PG_IST (Reg.pgCANC n)) = t.rd (Reg.PG_IST (Reg.pgCANC n)) :=
    b.frame.regs _ (by dsimp only [offCan, Reg.PG_IST, Reg.pgCANC]; omega)
  exact ⟨by rw [State.canOf_congr b.can, h.own], fun set => by rw [State.rb, event, ← State.rb, h.bterr set]⟩

theorem State.keepsSettings.freeBuf (i : Nat) : s.keepsSettings (t.freeBuf n i) n := by
  have freed : s.keepsSettings (t.setCan n { t.canOf n with bufs := amDel (t.canOf n).bufs i }) n := h.setCan rfl
  unfold State.freeBuf State.headCheck
  dsimp only
  split
  · exact freed
  · exact freed.istIf _ 3

theorem State.keepsSettings.flushFmt (hn : n < 24) (all : Bool) : s.keepsSettings (t.flushFmt n all) n :=
  h.foldl _ fun _ _ hu => ((hu.freeBuf _).bump (o := 0x16C) 1 12 (by decide) (by decide)).besideCan ((State.besideCan.refl _).endCopy _ _) hn

theorem State.keepsSettings.ewarnCheck : s.keepsSettings (t.ewarnCheck n) n := (h.wr (o := 0x124) _ (by decide)).istIf _ 2

/-! The modes (R95-R98). -/

theorem State.keepsSettings.integrate : s.keepsSettings (t.integrate n) n :=
  State.keepsSettings.wr (h.setCan (c := { t.canOf n with suspend := false, flag := none }) rfl) (o := 0x124) _ (by decide)

theorem State.keepsSettings.enterDisabled (hn : n < 24) : s.keepsSettings (t.enterDisabled n) n := by
  have off := State.keepsSettings.wr (h.setCan (c := { t.canOf n with
    wasOff := decide (4 ≤ t.canState n), rx := [], suspend := false, flag := none, selfDue := none, openDue := false }) rfl) (o := 0x124)
    (setFld (setBit (setFld (t.rd (Reg.CANC_ESTAT n)) 20 16 0) 5 false) 2 0 0) (by decide)
  exact (off.flushFmt hn true).besideCan ((State.besideCan.refl _).dropHeld n) hn

theorem State.keepsSettings.leaveDisabled : s.keepsSettings (t.leaveDisabled n) n := by
  have left := State.keepsSettings.wr (h.setCan (c := { t.canOf n with fromDis := true }) rfl) (o := 0x12C) 0 (by decide)
  have counts := fun x r => State.keepsSettings.wr left (o := 0x128) (BitVec.ofNat 32 (capAt 255 r * 65536 + x % 512)) (by decide)
  unfold State.leaveDisabled
  dsimp only
  split
  · exact State.keepsSettings.ewarnCheck (State.keepsSettings.wr (State.keepsSettings.wr (counts _ _) (o := 0x124) _ (by decide))
      (o := 0x124) _ (by decide))
  · exact State.keepsSettings.ewarnCheck (State.keepsSettings.wr (counts _ _) (o := 0x124) _ (by decide))

end

/-! The change (R96, R99). -/

/-- The committed settings pass the rules of R99 and R106. -/
def State.committedOk (s : State) (n : Nat) : Bool :=
  timingOk n (s.rd (Reg.CANC_BTN n)) (s.rd (Reg.CANC_BTD n))
    && xlOk n (s.rd (Reg.CANC_BTD n)) (if n < 16 then (s.canOf n).xlctl else s.rd (Reg.CANC_XLCTL n))
      (if n < 16 then (s.canOf n).xlpwm else s.rd (Reg.CANC_XLPWM n))

/-- Controller n with the committed mode, and the committed timing where it passes. -/
def State.committedCan (s : State) (n : Nat) : CanCtl :=
  let c := { s.canOf n with mode := s.rd (Reg.CANC_MODE n), cfgPend := false }
  if s.committedOk n then
    { c with
      btn := s.rd (Reg.CANC_BTN n), btd := s.rd (Reg.CANC_BTD n), tdc := s.rd (Reg.CANC_TDC n)
      xlctl := if n < 16 then (s.canOf n).xlctl else s.rd (Reg.CANC_XLCTL n)
      xlpwm := if n < 16 then (s.canOf n).xlpwm else s.rd (Reg.CANC_XLPWM n) }
  else c

/-- The change itself, before the frames of formats no longer enabled are discarded and the new mode is entered. -/
def State.configTaken (s : State) (n : Nat) : State :=
  (s.setCan n (s.committedCan n)).istIf (!s.committedOk n || decide (6 ≤ fld (s.rd (Reg.CANC_MODE n)) 2 0)) (Reg.pgCANC n) 7

/-- The controller, which was in state st, follows the mode it has in use (R96-R98, R123). -/
def State.enterMode (s : State) (n st : Nat) : State :=
  if s.canOp n = 0 then (if st = 0 then s else s.enterDisabled n)
  else if st = 0 then s.leaveDisabled n
  else if st = 5 then (s.wf (Reg.CANC_ESTAT n) 31 24 0).setCan n { s.canOf n with recAt := s.now }
  else if st = 4 then s
  else s.integrate n

theorem State.takeConfig_eq (s : State) (n : Nat) :
    s.takeConfig n = ((s.configTaken n).flushFmt n false).enterMode n (s.canState n) := by
  unfold State.takeConfig State.enterMode State.configTaken State.committedCan State.committedOk
  rfl

theorem State.keepsSettings.enterMode {s t : State} {n : Nat} (h : s.keepsSettings t n) (hn : n < 24) (st : Nat) :
    s.keepsSettings (t.enterMode n st) n := by
  have restarted : s.keepsSettings ((t.wf (Reg.CANC_ESTAT n) 31 24 0).setCan n { t.canOf n with recAt := t.now }) n :=
    State.keepsSettings.setCan (h.wr (o := 0x124) _ (by decide)) (congrArg CanCtl.settings (State.canOf_wr t _ _ n).symm :)
  exact (h.ite (h.enterDisabled hn)).ite (h.leaveDisabled.ite (restarted.ite (h.ite h.integrate)))

theorem State.takeConfig_keeps (s : State) {n : Nat} (hn : n < 24) : (s.configTaken n).keepsSettings (s.takeConfig n) n := by
  rw [State.takeConfig_eq]
  exact ((State.keepsSettings.refl _ n).flushFmt hn false).enterMode hn _

theorem State.canOf_configTaken (s : State) (n : Nat) : (s.configTaken n).canOf n = s.committedCan n := by
  rw [State.configTaken, State.canOf_istIf, State.canOf_setCan_same]

theorem State.committedCan_mode (s : State) (n : Nat) : (s.committedCan n).mode = s.rd (Reg.CANC_MODE n) ∧ (s.committedCan n).cfgPend = false := by
  unfold State.committedCan
  dsimp only
  split <;> exact ⟨rfl, rfl⟩

theorem State.committedCan_passed {s : State} {n : Nat} (ok : s.committedOk n = true) :
    (s.committedCan n).btn = s.rd (Reg.CANC_BTN n) ∧ (s.committedCan n).btd = s.rd (Reg.CANC_BTD n) := by
  rw [State.committedCan, if_pos ok]
  exact ⟨rfl, rfl⟩

theorem State.committedCan_refused {s : State} {n : Nat} (bad : s.committedOk n = false) :
    (s.committedCan n).btn = (s.canOf n).btn ∧ (s.committedCan n).btd = (s.canOf n).btd := by
  rw [State.committedCan, if_neg (by rw [bad]; decide)]
  exact ⟨rfl, rfl⟩

/-- R96, R99: committed settings at a frame boundary. -/
theorem canConfigTakeEffect_pending {s : State} {n : Fin 24} (pend : (s.canOf n).cfgPend = true) (idle : (s.canOf n).txNow = none) :
    Completes (.canConfigTakeEffect n) s fun t => (t.canOf n).mode = s.rd (Reg.CANC_MODE n) ∧ (t.canOf n).cfgPend = false
      ∧ (timingOk n (s.rd (Reg.CANC_BTN n)) (s.rd (Reg.CANC_BTD n)) = true → (n : Nat) < 16 →
          (t.canOf n).btn = s.rd (Reg.CANC_BTN n) ∧ (t.canOf n).btd = s.rd (Reg.CANC_BTD n))
      ∧ (timingOk n (s.rd (Reg.CANC_BTN n)) (s.rd (Reg.CANC_BTD n)) = false →
          (t.canOf n).btn = (s.canOf n).btn ∧ (t.canOf n).btd = (s.canOf n).btd ∧ t.rb (Reg.PG_IST (Reg.pgCANC n)) 7 = true) := by
  have kept := s.takeConfig_keeps n.isLt
  have own := kept.own
  rw [State.canOf_configTaken] at own
  simp only [CanCtl.settings, Prod.mk.injEq] at own
  obtain ⟨mode, btn, btd, pending⟩ := own
  obtain ⟨committed, done⟩ := s.committedCan_mode n
  refine .of_exec (t := s.takeConfig n) (if_pos (by rw [pend, idle]; rfl)) ⟨mode.trans committed, pending.trans done, fun timing low => ?_,
    fun timing => ?_⟩
  · obtain ⟨nominal, data⟩ := State.committedCan_passed (s := s) (n := n) (by simp [State.committedOk, timing, xlOk, low])
    exact ⟨btn.trans nominal, btd.trans data⟩
  · have bad : s.committedOk n = false := by rw [State.committedOk, timing, Bool.false_and]
    obtain ⟨nominal, data⟩ := State.committedCan_refused bad
    refine ⟨btn.trans nominal, btd.trans data, kept.bterr ?_⟩
    rw [State.configTaken, bad]
    exact State.rb_ist_same _ _ _ (by decide)

end Sys2Proof.Machine
end

section
/-! PROOFS. Drops and cancels of pending frames (R111, R113), and the statement about the controllers' frames. -/
namespace Sys2Proof.Machine

/-! Overdue frames (R111). -/

/-- A drop frees its buffer and no other of the controller. -/
theorem State.bufs_txDrop (s : State) (n : Nat) (p : Nat × CanTx) : ((s.txDrop n p).canOf n).bufs = amDel (s.canOf n).bufs p.1 := by
  have ended := ((State.besideCan.refl ((s.freeBuf n p.1).bump (Reg.CANC_TXDEADL n) 1 12)).deadlineCount p.2.copy).endCopy p.2.copy .dropped
  rw [State.txDrop, State.canOf_congr ended.can, State.canOf_bump, State.canOf_freeBuf]

/-- What is pending after drops was pending before and is none of the dropped. -/
theorem State.mem_bufs_txDrops {n : Nat} (l : List (Nat × CanTx)) {s : State} {p : Nat × CanTx}
    (h : p ∈ ((l.foldl (fun t q => t.txDrop n q) s).canOf n).bufs) : p ∈ (s.canOf n).bufs ∧ ∀ q ∈ l, p.1 ≠ q.1 := by
  induction l generalizing s with
  | nil => exact ⟨h, fun _ h => nomatch h⟩
  | cons q l ih =>
    obtain ⟨stays, apart⟩ := ih h
    rw [State.bufs_txDrop, amDel, List.mem_filter] at stays
    obtain ⟨pending, other⟩ := stays
    exact ⟨pending, List.forall_mem_cons.mpr ⟨by simpa using other, apart⟩⟩

theorem txDeadlineDrop_overdue (s : State) (n : Fin 24) : Completes (.txDeadlineDrop n) s fun t =>
    ∀ p ∈ (t.canOf n).bufs, (s.canOf n).txNow ≠ some p.1 → s.overdue p.2.copy = false := by
  refine .of_exec rfl fun p stays waits => ?_
  obtain ⟨pending, apart⟩ := State.mem_bufs_txDrops _ stays
  by_contra late
  exact apart p (List.mem_filter.mpr ⟨pending, by simp [waits, late]⟩) rfl

/-! Cancels (R113). -/

/-- The row of CANCn_TXCAN. -/
def txcanRow : RegRow := ⟨0x138, 4, 1, 4, 1, .rw, 0x13F, 0, 0, false⟩

theorem rowAt_txcan : ∀ n < 24, rowAt (Reg.CANC_TXCAN n) = some txcanRow ∧ isHigh (Reg.CANC_TXCAN n) = false := by decide

theorem txcan_off (n : Nat) : Reg.CANC_TXCAN n % 0x1000 = 0x138 := by
  dsimp only [Reg.CANC_TXCAN]
  omega

/-- A write while a request is undecided is discarded. -/
theorem State.discards_txcan (s : State) (i : Initiator) {n : Nat} (v : Word) (hn : n < 24) :
    s.discards i (Reg.CANC_TXCAN n) v = (s.rf (Reg.CANC_TXCAN n) 31 30 == 1) := by
  interval_cases n <;> rfl

/-- INDEX and HEAD of a request are stored. -/
def State.txcanStored (s : State) (i : Initiator) (n : Nat) (v : Word) : State :=
  (s.setUnlock i (Reg.CANC_TXCAN n) false).wr (Reg.CANC_TXCAN n) (txcanRow.written (s.rd (Reg.CANC_TXCAN n)) v)

theorem exec_txCancel_decided {s : State} (i : Initiator) {n : Fin 24} (v : Word) (run : s.pwr.held = false)
    (decided : s.rf (Reg.CANC_TXCAN n) 31 30 ≠ 1) : exec (.txCancel i n v) s = .next (txcanWrite n v (s.txcanStored i n v)) := by
  obtain ⟨row, low⟩ := rowAt_txcan n n.isLt
  have off := txcan_off n
  have kept : (s.setUnlock i (Reg.CANC_TXCAN n) false).discards i (Reg.CANC_TXCAN n) v = false := by
    rw [State.discards_txcan _ i v n.isLt]
    exact beq_eq_false_iff_ne.mpr decided
  change Host.Outcome.next (s.cmdWrite i (Reg.CANC_TXCAN n) v (txcanWrite n v)) = _
  rw [State.cmdWrite_row run row (by omega) (fun g => nomatch g) (fun g => nomatch g) kept,
    State.store_direct _ _ _ (by omega) (.inl rfl) rfl low]
  rfl

theorem State.canOf_txcanStored (s : State) (i : Initiator) (n : Nat) (v : Word) (m : Nat) :
    (s.txcanStored i n v).canOf m = s.canOf m := rfl

theorem State.confined_txcanStored (s : State) (i : Initiator) (n : Nat) (v : Word) {may : Nat → Prop} (own : may (Reg.CANC_TXCAN n)) :
    s.confined (s.txcanStored i n v) may := ((State.confined.refl s may).setUnlock i _ false).wr _ own

/-- RESULT is not writable. -/
theorem State.rf_txcanStored (s : State) (i : Initiator) (n : Nat) (v : Word) :
    (s.txcanStored i n v).rf (Reg.CANC_TXCAN n) 31 30 = s.rf (Reg.CANC_TXCAN n) 31 30 := by
  have merged : (txcanRow.written (s.rd (Reg.CANC_TXCAN n)) v).toNat = nmerge (s.rd (Reg.CANC_TXCAN n)).toNat v.toNat 0x13F := by
    rw [RegRow.written_merge rfl, toNat_ofNat_nmerge]
    rfl
  apply Nat.eq_of_testBit_eq
  intro j
  rw [State.rf, State.rf, State.txcanStored, State.rd_wr_same, fld_testBit, fld_testBit, merged, nmerge_testBit]
  by_cases inside : j < 31 + 1 - 30
  · have bit : j = 0 ∨ j = 1 := by omega
    rcases bit with rfl | rfl <;> rfl
  · simp [inside]

/-- RESULT as it is set. -/
theorem State.rf_txcan (s : State) (n : Nat) {r : Nat} (h : r < 4) :
    (s.wf (Reg.CANC_TXCAN n) 31 30 r).rf (Reg.CANC_TXCAN n) 31 30 = r :=
  (s.rf_wf_same _ _ _ _ (by decide)).trans (Nat.mod_eq_of_lt h)

/-- A request that names a pending frame frees it. -/
def State.txCancelled (s : State) (n i : Nat) (x : CanTx) : State :=
  (((((s.wf (Reg.CANC_TXCAN n) 31 30 2).ist (Reg.pgCANC n) 10).freeBuf n i).bump (Reg.CANC_TXCANCEL n) 1 12).endCopy x.copy .dropped)

section
variable {s : State} {n : Nat} {v : Word} (decided : s.rf (Reg.CANC_TXCAN n) 31 30 ≠ 1) (named : bitOf v 8 = false)
include decided named

theorem txcanWrite_empty (empty : amGet (s.canOf n).bufs (fld v 5 0) = none) :
    txcanWrite n v s = (s.wf (Reg.CANC_TXCAN n) 31 30 3).ist (Reg.pgCANC n) 10 := by
  simp only [txcanWrite, if_neg decided, named, Bool.false_eq_true, if_false, empty]

theorem txcanWrite_sending {x : CanTx} (held : amGet (s.canOf n).bufs (fld v 5 0) = some x) (now : (s.canOf n).txNow = some (fld v 5 0)) :
    txcanWrite n v s = (s.setCan n { s.canOf n with cancel := some (fld v 5 0) }).wf (Reg.CANC_TXCAN n) 31 30 1 := by
  simp only [txcanWrite, if_neg decided, named, Bool.false_eq_true, if_false, held, if_pos now]

theorem txcanWrite_pending {x : CanTx} (held : amGet (s.canOf n).bufs (fld v 5 0) = some x) (waits : (s.canOf n).txNow ≠ some (fld v 5 0)) :
    txcanWrite n v s = s.txCancelled n (fld v 5 0) x := by
  simp only [txcanWrite, if_neg decided, named, Bool.false_eq_true, if_false, held, if_neg waits, State.txCancelled]

end

theorem State.confined_txCancelled (s : State) (n i : Nat) (x : CanTx) : s.confined (s.txCancelled n i x) fun _ => True :=
  (((((State.confined.refl s fun _ => True).wf 31 30 2 trivial).ist 10 trivial).freeBuf (n := n) i trivial).bump 1 12 trivial
    trivial).besideCan ((State.besideCan.refl _).endCopy x.copy .dropped) fun _ _ => trivial

theorem State.bufs_txCancelled (s : State) (n i : Nat) (x : CanTx) : ((s.txCancelled n i x).canOf n).bufs = amDel (s.canOf n).bufs i := by
  rw [State.txCancelled, State.canOf_congr ((State.besideCan.refl _).endCopy x.copy .dropped).can, State.canOf_bump, State.canOf_freeBuf,
    State.canOf_ist, State.canOf_wf]

/-- RESULT 2, and the cancel is counted. -/
theorem State.rd_txCancelled (s : State) {n : Nat} (hn : n < 24) (i : Nat) (x : CanTx) :
    (s.txCancelled n i x).rf (Reg.CANC_TXCAN n) 31 30 = 2
      ∧ (s.txCancelled n i x).rd (Reg.CANC_TXCANCEL n) = s.rd (Reg.CANC_TXCANCEL n) + 1 := by
  have ended := (State.besideCan.refl ((((s.wf (Reg.CANC_TXCAN n) 31 30 2).ist (Reg.pgCANC n) 10).freeBuf n i).bump (Reg.CANC_TXCANCEL n)
    1 12)).endCopy x.copy .dropped
  have result : State.confined (s.wf (Reg.CANC_TXCAN n) 31 30 2) (s.txCancelled n i x) (· ≠ Reg.CANC_TXCAN n) := by
    have event : Reg.PG_IST (Reg.pgCANC n) ≠ Reg.CANC_TXCAN n := ist_ne_canc n (o := 0x138) (by decide)
    exact ((((State.confined.refl _ _).ist 10 event).freeBuf i event).bumpCan (o := 0x168) 1 12 (by decide) (by simp) event).besideCan ended
      fun _ off => ne_canc_of_offCan off hn (o := 0x138) (by decide)
  have freed : s.confined (((s.wf (Reg.CANC_TXCAN n) 31 30 2).ist (Reg.pgCANC n) 10).freeBuf n i) (· ≠ Reg.CANC_TXCANCEL n) := by
    have event : Reg.PG_IST (Reg.pgCANC n) ≠ Reg.CANC_TXCANCEL n := ist_ne_canc n (o := 0x168) (by decide)
    exact (((State.confined.refl s _).wf 31 30 2 (by simp)).ist 10 event).freeBuf i event
  refine ⟨?_, (ended.rd hn (o := 0x168) (by decide)).trans ((State.rd_bumpCan _ n (o := 0x168) 12 (by decide) (by decide)).trans
    (congrArg (fun w : Word => w + 1) (freed.regs _ (not_not_intro rfl))))⟩
  rw [result.rf 31 30 (not_not_intro rfl), State.rf_txcan _ _ (by decide)]

/-- R113: a request that no undecided one keeps waiting. -/
theorem txCancel_decided {s : State} {init : Initiator} {n : Fin 24} {v : Word} (run : s.pwr.held = false)
    (decided : s.rf (Reg.CANC_TXCAN n) 31 30 ≠ 1) (named : bitOf v 8 = false) : Completes (.txCancel init n v) s fun t =>
      (∀ x, amGet (s.canOf n).bufs (fld v 5 0) = some x → (s.canOf n).txNow ≠ some (fld v 5 0) →
        t.rf (Reg.CANC_TXCAN n) 31 30 = 2 ∧ amGet (t.canOf n).bufs (fld v 5 0) = none
        ∧ t.rd (Reg.CANC_TXCANCEL n) = s.rd (Reg.CANC_TXCANCEL n) + 1)
      ∧ (∀ x, amGet (s.canOf n).bufs (fld v 5 0) = some x → (s.canOf n).txNow = some (fld v 5 0) →
        t.rf (Reg.CANC_TXCAN n) 31 30 = 1 ∧ (t.canOf n).cancel = some (fld v 5 0) ∧ (t.canOf n).bufs = (s.canOf n).bufs)
      ∧ (amGet (s.canOf n).bufs (fld v 5 0) = none → t.rf (Reg.CANC_TXCAN n) 31 30 = 3 ∧ (t.canOf n).bufs = (s.canOf n).bufs
        ∧ t.rb (Reg.PG_IST (Reg.pgCANC n)) 10 = true) ∧ s.sameTables t := by
  have ready : (s.txcanStored init n v).rf (Reg.CANC_TXCAN n) 31 30 ≠ 1 := by rwa [State.rf_txcanStored]
  have stored := s.confined_txcanStored init n v (may := fun _ => True) trivial
  have can := s.canOf_txcanStored init n v n
  refine .of_exec (exec_txCancel_decided init v run decided) ?_
  cases held : amGet (s.canOf n).bufs (fld v 5 0) with
  | none =>
    rw [txcanWrite_empty ready named (by rw [can, held])]
    refine ⟨fun _ h => (nomatch h), fun _ h => (nomatch h), fun _ => ⟨?_, ?_, State.rb_ist_same _ _ _ (by decide)⟩,
      ((stored.wf 31 30 3 trivial).ist 10 trivial).tables⟩
    · rw [State.rf, State.rd_ist_other _ _ _ _ (ist_ne_canc n (o := 0x138) (by decide)).symm, ← State.rf,
        State.rf_txcan _ _ (by decide)]
    · rw [State.canOf_ist, State.canOf_wf, can]
  | some x =>
    by_cases now : (s.canOf n).txNow = some (fld v 5 0)
    · rw [txcanWrite_sending ready named (by rw [can, held]) (by rw [can, now])]
      refine ⟨fun _ _ waits => absurd now waits, fun _ _ _ => ⟨State.rf_txcan _ _ (by decide), ?_, ?_⟩, fun h => (nomatch h),
        ((stored.setCan n _).wf 31 30 1 trivial).tables⟩
      · rw [State.canOf_wf, State.canOf_setCan_same]
      · rw [State.canOf_wf, State.canOf_setCan_same, can]
    · rw [txcanWrite_pending ready named (by rw [can, held]) (by rw [can]; exact now)]
      obtain ⟨result, count⟩ := (s.txcanStored init n v).rd_txCancelled n.isLt (fld v 5 0) x
      have before := (s.confined_txcanStored init n v (may := (· ≠ Reg.CANC_TXCANCEL n)) (by simp)).regs _ (not_not_intro rfl)
      refine ⟨fun _ _ _ => ⟨result, ?_, ?_⟩, fun _ _ sending => absurd sending now, fun h => (nomatch h),
        (stored.trans (State.confined_txCancelled _ n _ x)).tables⟩
      · rw [State.bufs_txCancelled, amGet_del_same]
      · rw [count, before]

/-- Settles O22, command by command. -/
theorem canControllersReceiveAndTransmit : Obligations.CanControllersReceiveAndTransmit := by
  intro s n f age rxDom init v
  exact ⟨canConfigTakeEffect_pending, canFrameValid_bus age, fun _ => canFrameValid_own f age, fun _ => transmitSelection_head,
    fun _ _ => transmissionSuccess_held age, fun _ => arbitrationLost_unasked, txDeadlineDrop_overdue s n, txCancel_decided⟩

end Sys2Proof.Machine
end

section
/-! PROOFS. Error confinement (R118-R122): the statement about it fails where TEC stands above 255 at a receive
error, which it asks of its other clauses of errors and not of that one. -/
namespace Sys2Proof.Machine

/-- CANC0 is in NORMAL and error active with TEC = 256, and it sends no frame. -/
def overflowedTec : State :=
  { State.base with
    regs := [(Reg.CANC_ESTAT 0, 2), (Reg.CANC_ECNT 0, 256)]
    can := [(0, { canReset with mode := 1 })] }

/-- A stuff error that it sees as a receiver takes it to BUS_OFF, where no flag is under way. -/
theorem overflowedTec_noFlag :
    ((overflowedTec.canError 0 .stuff false false false false).canOf 0).flag = none := by decide +kernel

/-- Refutes O23: a receive error judges TEC too (R122), so a controller whose TEC stands above 255 is in BUS_OFF after the error and
begins no error flag. -/
theorem not_canErrorConfinementAndRecovery : ¬ Obligations.CanErrorConfinementAndRecovery := by
  intro h
  obtain ⟨-, -, receive, -⟩ := h overflowedTec 0 .stuff false false false false false .host 0
  obtain ⟨t, ran, -, flagged, -⟩ := receive (by decide +kernel) (by decide +kernel) (by decide +kernel) (by decide +kernel)
    (by decide +kernel) rfl
  have erred : t = overflowedTec.canError 0 .stuff false false false false := by
    refine (Host.Outcome.next.inj ran).symm.trans (if_pos ?_)
    decide +kernel
  rw [erred] at flagged
  exact nomatch overflowedTec_noFlag.symm.trans flagged

end Sys2Proof.Machine
end

section
/-! PROOFS. Bramble (R155-R162): what sending an aggregate leaves of its stream and of the switch, what a received tunnel frame changes on
its way to Privet, and the statement about the two. -/
namespace Sys2Proof.Machine

/-- A wrapping counter above the common header goes up by one (R8). -/
theorem State.rd_bump_one (s : State) {a : Nat} (k : Nat) (h : 0x100 ≤ a % 0x1000) : (s.bump a 1 k).rd a = s.rd a + 1 := by
  rw [State.rd_bump_same _ _ _ _ (ne_hdr (pageBase_mod a) h (by decide))]
  apply BitVec.eq_of_toNat_eq
  simp

/-- The page of Bramble. -/
theorem pageBase_brm {a : Nat} (lo : 0x124000 ≤ a) (hi : a < 0x125000) : pageBase a = Reg.pgBRM := by
  dsimp only [pageBase, Reg.pgBRM]
  omega

theorem State.rd_bumpBrm (s : State) {a : Nat} (k : Nat) (lo : 0x124100 ≤ a) (hi : a < 0x125000) :
    (s.bump a 1 k).rd a = s.rd a + 1 :=
  s.rd_bump_one k (by omega)

section
variable {s t : State} {may : Nat → Prop} (h : s.confined t may)
include h

/-- An update of Privet's record that leaves its data store. -/
theorem State.confined.setPrv {p : Privet} (data : p.pdata = t.prv.pdata) : s.confined { t with prv := p } may :=
  ⟨h.regs, h.tables, fun a => by simpa [data] using h.bytes a, h.sent, h.tsy, h.mono⟩

theorem State.confined.setSwIn (l : List EthIn) : s.confined { t with swIn := l } may :=
  ⟨h.regs, h.tables, h.bytes, h.sent, h.tsy, h.mono⟩

/-- A counter of Bramble's page. -/
theorem State.confined.bumpBrm {a : Nat} (n k : Nat) (lo : 0x124000 ≤ a) (hi : a < 0x125000) (ha : may a)
    (event : may (Reg.PG_IST Reg.pgBRM)) : s.confined (t.bump a n k) may :=
  h.bump n k ha (by rw [pageBase_brm lo hi]; exact event)

end

/-! Aggregates (R156, R158). -/

@[simp] theorem State.txs_setTxs_same (s : State) (i : Nat) (x : TxStream) : (s.setTxs i x).txs i = x := amGetD_set_same _ _ _ _

theorem State.txs_congr {s t : State} (h : t.prv.tx = s.prv.tx) (i : Nat) : t.txs i = s.txs i := congrArg (amGetD txStreamReset · i) h

/-- A frame takes nothing of its stream but the sequence number. -/
theorem State.avtpFrame_setTxs (s : State) (i : Nat) {x : TxStream} (seq : x.seq = (s.txs i).seq) (msgs : List Byte) :
    (s.setTxs i x).avtpFrame i msgs = s.avtpFrame i msgs := by
  unfold State.avtpFrame
  rw [State.txs_setTxs_same, seq]
  rfl

/-- Sending takes a sequence number of the stream and leaves its aggregate. -/
theorem State.txs_bramSend (s : State) (i : Nat) (ms : List (List Byte)) :
    (s.bramSend i ms).txs i = { s.txs i with seq := ((s.txs i).seq + 1) % 256 } := by
  rw [State.bramSend, State.txs_congr (s := (s.setTxs i { s.txs i with seq := ((s.txs i).seq + 1) % 256 })), State.txs_setTxs_same]
  exact congrArg Privet.tx (State.bump_prv _ _ _ _)

theorem State.rd_bramSend_txfrm (s : State) {i : Nat} (hi : i < 64) (ms : List (List Byte)) :
    (s.bramSend i ms).rd (Reg.BRM_TXFRM i) = s.rd (Reg.BRM_TXFRM i) + 1 :=
  State.rd_bump_one _ 5 (by dsimp only [Reg.BRM_TXFRM]; omega)

/-- The frame enters the switch at PRIV. -/
theorem State.swIn_bramSend (s : State) (i : Nat) (ms : List (List Byte)) :
    ∃ x, (s.bramSend i ms).swIn = s.swIn ++ [x] ∧ x.port = 15 ∧ x.bytes = s.avtpFrame i ms.flatten :=
  ⟨_, congrArg (· ++ _) (State.bump_swIn _ _ _ _), rfl, rfl⟩

theorem State.confined.bramSend {s t : State} {may : Nat → Prop} (h : s.confined t may) {i : Nat} (hi : i < 64) (ms : List (List Byte))
    (frames : may (Reg.BRM_TXFRM i)) (event : may (Reg.PG_IST Reg.pgBRM)) : s.confined (t.bramSend i ms) may := by
  have numbered := h.setPrv (p := (t.setTxs i { t.txs i with seq := ((t.txs i).seq + 1) % 256 }).prv) rfl
  have counted := numbered.bumpBrm (a := Reg.BRM_TXFRM i) 1 5 (by dsimp only [Reg.BRM_TXFRM]; omega)
    (by dsimp only [Reg.BRM_TXFRM]; omega) frames event
  exact (counted.emit _).setSwIn _

theorem exec_aggregationTimerExpiry_due {s : State} {i : Fin 64} (holds : (s.txs i).agg ≠ [])
    (due : (s.txs i).since + s.rf (Reg.BRM_TXS_W3 i) 31 20 * 1000 ≤ s.now) : exec (.aggregationTimerExpiry i) s
      = .next ((s.setTxs i { s.txs i with agg := [], since := 0 }).bramSend i (s.txs i).agg) := by
  have full : (s.txs i).agg.isEmpty = false := List.isEmpty_eq_false_iff.mpr holds
  have sends : exec (.aggregationTimerExpiry i) s = .next (s.bramFlush i) := if_pos (by rw [full, decide_eq_true due]; rfl)
  simp only [sends, State.bramFlush, full, Bool.false_eq_true, if_false]

/-- R158: the aggregate of a stream at the end of its time. -/
theorem aggregationTimerExpiry_due {s : State} {i : Fin 64} (holds : (s.txs i).agg ≠ [])
    (due : (s.txs i).since + s.rf (Reg.BRM_TXS_W3 i) 31 20 * 1000 ≤ s.now) : Completes (.aggregationTimerExpiry i) s fun t =>
      (t.txs i).agg = [] ∧ (t.txs i).seq = ((s.txs i).seq + 1) % 256 ∧ t.rd (Reg.BRM_TXFRM i) = s.rd (Reg.BRM_TXFRM i) + 1
      ∧ (∃ x, t.swIn = s.swIn ++ [x] ∧ x.port = 15 ∧ x.bytes = s.avtpFrame i (s.txs i).agg.flatten)
      ∧ s.sameRegs t [Reg.BRM_TXFRM i, Reg.PG_IST Reg.pgBRM] ∧ s.sameTables t ∧ s.sameBytes t := by
  have frame := ((State.confined.refl s (· ∈ [Reg.BRM_TXFRM i, Reg.PG_IST Reg.pgBRM])).setPrv
    (p := (s.setTxs i { s.txs i with agg := [], since := 0 }).prv) rfl).bramSend i.isLt (s.txs i).agg (by simp) (by simp)
  refine .of_exec (exec_aggregationTimerExpiry_due holds due) ⟨?agg, ?seq, State.rd_bramSend_txfrm _ i.isLt _, ?frame, frame.sameRegs,
    frame.tables, frame.bytes⟩
  case agg => rw [State.txs_bramSend, State.txs_setTxs_same]
  case seq => rw [State.txs_bramSend, State.txs_setTxs_same]
  case frame =>
    rw [← s.avtpFrame_setTxs i (x := { s.txs i with agg := [], since := 0 }) rfl]
    exact State.swIn_bramSend _ _ _

/-! Received frames (R159-R161). -/

/-- The registers of a sequence check. -/
def seqRegs (k : Nat) : List Nat := [Reg.BRM_RXS_W3 k, Reg.BRM_RXLOST k, Reg.BRM_RXSEQOLD k, Reg.PG_IST Reg.pgBRM]

/-- The registers of the messages of a frame. -/
def acfRegs : List Nat := [Reg.BRM_ACFERR, Reg.BRM_ACFSKIP, Reg.PG_IST Reg.pgBRM]

theorem State.seqCheck_frame (s : State) {k : Nat} (hk : k < 64) (q : Nat) :
    s.confined (s.seqCheck k q).1 (· ∈ seqRegs k) ∧ (s.seqCheck k q).1.prv = s.prv := by
  have start := State.confined.refl s (· ∈ seqRegs k)
  have event : Reg.PG_IST Reg.pgBRM ∈ seqRegs k := by simp [seqRegs]
  have counted : ∀ n {a : Nat}, a = Reg.BRM_RXLOST k ∨ a = Reg.BRM_RXSEQOLD k → s.confined (s.bump a n 5) (· ∈ seqRegs k) := by
    intro n a named
    refine start.bumpBrm n 5 ?_ ?_ ?_ event
    · rcases named with rfl | rfl <;> dsimp only [Reg.BRM_RXLOST, Reg.BRM_RXSEQOLD] <;> omega
    · rcases named with rfl | rfl <;> dsimp only [Reg.BRM_RXLOST, Reg.BRM_RXSEQOLD] <;> omega
    · rcases named with rfl | rfl <;> simp [seqRegs]
  rw [State.seqCheck]
  dsimp only
  split_ifs with unchecked unsynced next ahead
  · exact ⟨start, rfl⟩
  · exact ⟨start.wb 31 true (by simp [seqRegs]), State.wb_prv _ _ _ _⟩
  · exact ⟨start, rfl⟩
  · exact ⟨(counted _ (.inl rfl)).ist 2 event, by simp only [State.ist_prv, State.bump_prv]⟩
  · exact ⟨counted _ (.inr rfl), by simp only [State.bump_prv]⟩

/-- What the check accepts: any number unless it is asked for and in step, and then those up to 127 ahead. -/
theorem State.seqCheck_accepts (s : State) (k q : Nat) : (s.seqCheck k q).2
    = (!s.rb (Reg.BRM_RXS_W2 k) 30 || !s.rb (Reg.BRM_RXS_W3 k) 31
      || decide ((q + 512 - (s.rf (Reg.BRM_RXS_W3 k) 23 16 + 1)) % 256 ≤ 127)) := by
  rw [State.seqCheck]
  dsimp only
  split_ifs with unchecked unsynced next ahead
  · rw [unchecked, Bool.true_or, Bool.true_or]
  · rw [unsynced, Bool.or_true, Bool.true_or]
  · rw [next, decide_eq_true (Nat.zero_le _), Bool.or_true]
  · rw [decide_eq_true ahead, Bool.or_true]
  · rw [decide_eq_false ahead, Bool.eq_false_of_not_eq_true unchecked, Bool.eq_false_of_not_eq_true unsynced]
    rfl

theorem State.seqCheck_congr {s t : State} (regs : t.regs = s.regs) (k q : Nat) : (t.seqCheck k q).2 = (s.seqCheck k q).2 := by
  have same : t.rd = s.rd := funext (State.rd_congr regs)
  rw [State.seqCheck_accepts, State.seqCheck_accepts, State.rb, State.rb, State.rf, same]
  rfl

theorem State.rxStream_congr {s t : State} (regs : t.regs = s.regs) (sid : Nat) : t.rxStream sid = s.rxStream sid := by
  simp only [State.rxStream, State.rb, State.rd_congr regs]

theorem State.rxStream_lt {s : State} {sid k : Nat} (h : s.rxStream sid = some k) : k < 64 :=
  List.mem_range.mp (List.mem_of_find?_eq_some h)

/-- Reading the messages of a frame adds jobs and counts, and nothing else. -/
theorem State.acfMessages_frame (i k : Nat) (t : State) (l : List Byte) :
    t.confined (t.acfMessages i k l) (· ∈ acfRegs) ∧ ∃ w, (t.acfMessages i k l).prv = { t.prv with wait := w } := by
  have event : Reg.PG_IST Reg.pgBRM ∈ acfRegs := by simp [acfRegs]
  have bad : ∀ u : State, u.confined ((u.bump Reg.BRM_ACFERR 1 5).ist Reg.pgBRM 1) (· ∈ acfRegs)
      ∧ ∃ w, ((u.bump Reg.BRM_ACFERR 1 5).ist Reg.pgBRM 1).prv = { u.prv with wait := w } := fun u =>
    ⟨((State.confined.refl u _).bumpBrm 1 5 (by decide) (by decide) (by simp [acfRegs]) event).ist 1 event,
      u.prv.wait, (State.ist_prv _ _ _).trans (State.bump_prv _ _ _ _)⟩
  induction k generalizing t l with
  | zero => exact ⟨.refl t _, t.prv.wait, rfl⟩
  | succ k ih =>
    rw [State.acfMessages]
    dsimp only
    split_ifs with ended malformed can
    · exact ⟨.refl t _, t.prv.wait, rfl⟩
    · exact bad t
    · split
      · exact bad t
      case h_2 j _ =>
        obtain ⟨frame, w, prv⟩ := ih (t.waitJob j) (l.drop (4 * (beAt l 0 2 % 512)))
        have waits : t.confined (t.waitJob j) (· ∈ acfRegs) := (State.confined.refl t _).setPrv rfl
        exact ⟨waits.trans frame, w, prv⟩
    · obtain ⟨frame, w, prv⟩ := ih (t.bump Reg.BRM_ACFSKIP 1 5) (l.drop (4 * (beAt l 0 2 % 512)))
      exact ⟨((State.confined.refl t _).bumpBrm 1 5 (by decide) (by decide) (by simp [acfRegs]) event).trans frame, w,
        prv.trans (by rw [State.bump_prv])⟩

/-- The oldest received frame leaves its queue. -/
def State.ethTaken (s : State) (rest : List (List Byte)) : State := { s with prv := { s.prv with ethIn := rest } }

/-- The counts of a frame with sequence number q that stream k accepts. -/
def State.frameCounted (s : State) (k q : Nat) : State :=
  ((s.seqCheck k q).1.bump (Reg.BRM_RXFRM k) 1 5).wf (Reg.BRM_RXS_W3 k) 23 16 q

/-- The silence time of stream k starts anew. -/
def State.heardNow (s : State) (k : Nat) : State := { s with prv := { s.prv with rxAt := amPut s.prv.rxAt k s.now } }

@[simp] theorem State.ethTaken_prv (s : State) (rest : List (List Byte)) : (s.ethTaken rest).prv = { s.prv with ethIn := rest } := rfl

@[simp] theorem State.heardNow_prv (s : State) (k : Nat) : (s.heardNow k).prv = { s.prv with rxAt := amPut s.prv.rxAt k s.now } := rfl

@[simp] theorem State.rd_ethTaken (s : State) (rest : List (List Byte)) (a : Nat) : (s.ethTaken rest).rd a = s.rd a := rfl

@[simp] theorem State.rd_heardNow (s : State) (k a : Nat) : (s.heardNow k).rd a = s.rd a := rfl

/-- No job of an earlier frame waits. -/
theorem tunnelFree {l : List Job} (free : ∀ j ∈ l, j.src < 0x80 ∨ 0xBF < j.src) :
    l.any (fun j => decide (0x80 ≤ j.src) && decide (j.src ≤ 0xBF)) = false := by
  simpa using fun j hj lo => (free j hj).resolve_left (by omega)

section
variable {s : State} {b : List Byte} {rest : List (List Byte)} (first : s.prv.ethIn = b :: rest)
  (free : ∀ j ∈ s.prv.wait, j.src < 0x80 ∨ 0xBF < j.src)
include first free

theorem exec_tunnelFrameReceive_off (off : s.rb Reg.BRM_CTL 1 = false) :
    exec .tunnelFrameReceive s = .next ((s.ethTaken rest).bump Reg.BRM_BADHDR 1 5) := by
  have still : (s.ethTaken rest).rb Reg.BRM_CTL 1 = false := off
  change execTunnelFrameReceive s = _
  simp only [execTunnelFrameReceive, first, tunnelFree free, Bool.false_eq_true, if_false]
  rw [← State.ethTaken, still]
  rfl

theorem exec_tunnelFrameReceive_accepted {sid q k : Nat} {msgs : List Byte} (on : s.rb Reg.BRM_CTL 1 = true)
    (formed : avtpParse b = some (sid, q, msgs)) (stream : s.rxStream sid = some k) (fits : (s.seqCheck k q).2 = true) :
    exec .tunnelFrameReceive s = .next ((((s.ethTaken rest).frameCounted k q).heardNow k).acfMessages k msgs.length msgs) := by
  have still : (s.ethTaken rest).rb Reg.BRM_CTL 1 = true := on
  change execTunnelFrameReceive s = _
  simp only [execTunnelFrameReceive, first, tunnelFree free, Bool.false_eq_true, if_false]
  rw [← State.ethTaken, still]
  simp only [Bool.not_true, Bool.false_eq_true, if_false, formed, State.rxStream_congr (s := s) (t := s.ethTaken rest) rfl, stream,
    State.seqCheck_congr (s := s) (t := s.ethTaken rest) rfl, fits, if_true]
  rfl

end

/-- R159: with receiving off a frame counts in BADHDR. -/
theorem tunnelFrameReceive_off {s : State} {b : List Byte} {rest : List (List Byte)} (first : s.prv.ethIn = b :: rest)
    (free : ∀ j ∈ s.prv.wait, j.src < 0x80 ∨ 0xBF < j.src) (off : s.rb Reg.BRM_CTL 1 = false) :
    Completes .tunnelFrameReceive s fun t => t.prv.ethIn = rest ∧ t.rd Reg.BRM_BADHDR = s.rd Reg.BRM_BADHDR + 1
      ∧ s.sameRegs t [Reg.BRM_BADHDR, Reg.PG_IST Reg.pgBRM] ∧ s.sameTables t ∧ s.sameBytes t := by
  have taken : s.confined (s.ethTaken rest) (· ∈ [Reg.BRM_BADHDR, Reg.PG_IST Reg.pgBRM]) := (State.confined.refl s _).setPrv rfl
  have frame := taken.bumpBrm (a := Reg.BRM_BADHDR) 1 5 (by decide) (by decide) (by simp) (by simp)
  exact .of_exec (exec_tunnelFrameReceive_off first free off) ⟨congrArg Privet.ethIn (State.bump_prv _ _ _ _),
    State.rd_bump_one _ 5 (by decide), frame.sameRegs, frame.tables, frame.bytes⟩

section
variable (s : State) {k : Nat} (hk : k < 64) (q : Nat)
include hk

theorem State.rd_frameCounted_rxfrm : (s.frameCounted k q).rd (Reg.BRM_RXFRM k) = s.rd (Reg.BRM_RXFRM k) + 1 := by
  have unchecked : ¬ Reg.BRM_RXFRM k ∈ seqRegs k := by
    simp only [seqRegs, List.mem_cons, List.not_mem_nil, or_false]
    dsimp only [Reg.BRM_RXFRM, Reg.BRM_RXS_W3, Reg.BRM_RXLOST, Reg.BRM_RXSEQOLD, Reg.PG_IST, Reg.pgBRM]
    omega
  have apart : Reg.BRM_RXFRM k ≠ Reg.BRM_RXS_W3 k := by
    dsimp only [Reg.BRM_RXFRM, Reg.BRM_RXS_W3, ne_eq]
    omega
  rw [State.frameCounted, State.rd_wf_other _ _ _ _ apart, State.rd_bumpBrm _ _ (by dsimp only [Reg.BRM_RXFRM]; omega)
    (by dsimp only [Reg.BRM_RXFRM]; omega), (s.seqCheck_frame hk q).1.regs _ unchecked]

theorem State.confined_frameCounted : s.confined (s.frameCounted k q) fun _ => True := by
  have checked := (s.seqCheck_frame hk q).1.weaken (might := fun _ => True) fun _ _ => trivial
  exact (checked.bump 1 5 trivial trivial).wf 23 16 q trivial

theorem State.prv_frameCounted : (s.frameCounted k q).prv = s.prv := by
  rw [State.frameCounted, State.wf_prv, State.bump_prv, (s.seqCheck_frame hk q).2]

end

/-- The sequence number is kept. -/
theorem State.rf_frameCounted_seq (s : State) (k q : Nat) : (s.frameCounted k q).rf (Reg.BRM_RXS_W3 k) 23 16 = q % 256 := by
  exact (State.rf_wf_same _ _ _ _ _ (by decide)).trans rfl

/-- R160: a frame that is well formed, of an enabled stream and in sequence. -/
theorem tunnelFrameReceive_accepted {s : State} {b : List Byte} {rest : List (List Byte)} (first : s.prv.ethIn = b :: rest)
    (free : ∀ j ∈ s.prv.wait, j.src < 0x80 ∨ 0xBF < j.src) {sid q k : Nat} {msgs : List Byte} (on : s.rb Reg.BRM_CTL 1 = true)
    (formed : avtpParse b = some (sid, q, msgs)) (stream : s.rxStream sid = some k) (fits : (s.seqCheck k q).2 = true) :
    Completes .tunnelFrameReceive s fun t => t.prv.ethIn = rest ∧ t.rd (Reg.BRM_RXFRM k) = s.rd (Reg.BRM_RXFRM k) + 1
      ∧ t.rf (Reg.BRM_RXS_W3 k) 23 16 = q % 256 ∧ amGet t.prv.rxAt k = some s.now ∧ s.sameTables t ∧ s.sameBytes t := by
  have hk := State.rxStream_lt stream
  obtain ⟨read, w, jobs⟩ := State.acfMessages_frame k msgs.length (((s.ethTaken rest).frameCounted k q).heardNow k) msgs
  have unread : Reg.BRM_RXFRM k ∉ acfRegs ∧ Reg.BRM_RXS_W3 k ∉ acfRegs := by
    simp only [acfRegs, List.mem_cons, List.not_mem_nil, or_false]
    dsimp only [Reg.BRM_RXFRM, Reg.BRM_RXS_W3, Reg.BRM_ACFERR, Reg.BRM_ACFSKIP, Reg.PG_IST, Reg.pgBRM]
    omega
  have taken : s.confined (s.ethTaken rest) fun _ => True := (State.confined.refl s _).setPrv (p := (s.ethTaken rest).prv) rfl
  have counted := taken.trans ((s.ethTaken rest).confined_frameCounted hk q)
  have heard := counted.setPrv (p := (((s.ethTaken rest).frameCounted k q).heardNow k).prv) rfl
  have frame := heard.trans (read.weaken fun _ _ => trivial)
  refine .of_exec (exec_tunnelFrameReceive_accepted first free on formed stream fits) ⟨?queue, ?frames, ?seq, ?silence, frame.tables,
    frame.bytes⟩
  case queue => rw [jobs, State.heardNow_prv, State.prv_frameCounted _ hk, State.ethTaken_prv]
  case frames => rw [read.regs _ unread.1, State.rd_heardNow, State.rd_frameCounted_rxfrm _ hk q, State.rd_ethTaken]
  case seq => rw [read.rf 23 16 unread.2, State.rf, State.rd_heardNow, ← State.rf, State.rf_frameCounted_seq]
  case silence =>
    rw [jobs, State.heardNow_prv, counted.now]
    exact amGet_put_same _ _ _

/-! Silence (R162). -/

/-- Stream i is lost, and reported. -/
def State.streamLost (s : State) (i : Nat) : State :=
  ((({ s with prv := { s.prv with rxAt := amDel s.prv.rxAt i } } : State).wb (Reg.BRM_RXS_W3 i) 31 false).wr Reg.BRM_LASTTO
    (BitVec.ofNat 32 (2 ^ 31 + i))).ist Reg.pgBRM 3

theorem State.confined_streamLost (s : State) (i : Nat) :
    s.confined (s.streamLost i) (· ∈ [Reg.BRM_RXS_W3 i, Reg.BRM_LASTTO, Reg.PG_IST Reg.pgBRM]) := by
  have silent := (State.confined.refl s (· ∈ [Reg.BRM_RXS_W3 i, Reg.BRM_LASTTO, Reg.PG_IST Reg.pgBRM])).setPrv
    (p := { s.prv with rxAt := amDel s.prv.rxAt i }) rfl
  exact ((silent.wb 31 false (by simp)).wr _ (by simp)).ist 3 (by simp)

/-- R162: a stream that has been silent for its limit. -/
theorem streamSilenceTimeout_due {s : State} {i : Fin 64} {at0 : Nat} (last : amGet s.prv.rxAt i = some at0)
    (limit : s.rf (Reg.BRM_RXS_W2 i) 15 0 ≠ 0) (due : at0 + s.rf (Reg.BRM_RXS_W2 i) 15 0 * 1000000 ≤ s.now) :
    Completes (.streamSilenceTimeout i) s fun t =>
      t.rb (Reg.BRM_RXS_W3 i) 31 = false ∧ t.rd Reg.BRM_LASTTO = BitVec.ofNat 32 (2 ^ 31 + i)
      ∧ t.rb (Reg.PG_IST Reg.pgBRM) 3 = true ∧ amGet t.prv.rxAt i = none
      ∧ s.sameRegs t [Reg.BRM_RXS_W3 i, Reg.BRM_LASTTO, Reg.PG_IST Reg.pgBRM] ∧ s.sameTables t ∧ s.sameBytes t := by
  have ran : exec (.streamSilenceTimeout i) s = .next (s.streamLost i) := by
    change execStreamSilenceTimeout i s = _
    simp only [execStreamSilenceTimeout, last]
    exact if_pos ⟨limit, due⟩
  have frame := s.confined_streamLost i
  have apart : Reg.BRM_RXS_W3 i ≠ Reg.BRM_LASTTO ∧ Reg.BRM_RXS_W3 i ≠ Reg.PG_IST Reg.pgBRM := by
    dsimp only [Reg.BRM_RXS_W3, Reg.BRM_LASTTO, Reg.PG_IST, Reg.pgBRM]
    omega
  refine .of_exec ran ⟨?_, ?_, State.rb_ist_same _ _ _ (by decide), ?_, frame.sameRegs, frame.tables, frame.bytes⟩
  · rw [State.streamLost, State.rb, State.rd_ist_other _ _ _ _ apart.2, State.rd_wr_other _ _ apart.1]
    exact State.rb_wb_same _ _ _ _ (by decide)
  · rw [State.streamLost, State.rd_ist_other _ _ _ _ (by decide), State.rd_wr_same]
  · rw [State.streamLost, State.ist_prv]
    exact amGet_del_same _ _

/-- Settles O25, command by command. -/
theorem brambleAggregatesAndReceivesTunnelFrames : Obligations.BrambleAggregatesAndReceivesTunnelFrames := by
  intro s i
  exact ⟨aggregationTimerExpiry_due, fun _ _ first free => ⟨tunnelFrameReceive_off first free,
    fun _ _ _ _ => tunnelFrameReceive_accepted first free⟩, fun _ => streamSilenceTimeout_due⟩

end Sys2Proof.Machine
end

section
/-! PROOFS. Privet's acceptance (R138-R140, R144, R153, R356): how a controller's job takes its slot, and what the search of its window
makes of it. -/
namespace Sys2Proof.Machine

/-! Fields of a route word. -/

/-- Every bit of a field that reads 0 is 0. -/
theorem bitOf_of_fld_zero {w : Word} {hi lo i : Nat} (zero : fld w hi lo = 0) (low : lo ≤ i) (high : i ≤ hi) : bitOf w i = false := by
  have bit := fld_testBit w hi lo (i - lo)
  rw [zero, Nat.zero_testBit, decide_eq_true (by omega), Bool.true_and, Nat.add_sub_cancel' low] at bit
  rw [bitOf, nbit_testBit, ← bit]

/-- The bits by which an entry uses the claim ledger (R201). -/
theorem fld_ledger_zero {w : Word} (above : fld w 30 27 = 0) (xlate : bitOf w 26 = false) : fld w 28 26 = 0 := by
  apply Nat.eq_of_testBit_eq
  intro j
  have off : ∀ i, 26 ≤ i → i ≤ 28 → w.toNat.testBit i = false := fun i lo hi => by
    rw [← nbit_testBit, ← bitOf]
    rcases Nat.eq_or_lt_of_le lo with rfl | lo
    · exact xlate
    · exact bitOf_of_fld_zero above lo (by omega)
  rw [fld_testBit, Nat.zero_testBit]
  by_cases inside : j < 28 + 1 - 26
  · rw [off (26 + j) (by omega) (by omega), Bool.and_false]
  · rw [decide_eq_false inside, Bool.false_and]

/-! The search of a window reads tables alone. -/

theorem State.rte_congr {s t : State} (tables : s.sameTables t) : t.rte = s.rte := funext₂ fun _ _ => tables _

theorem State.searchWin_congr {s t : State} (tables : s.sameTables t) (plan : Nat) (j : Job) (k r : Nat) (acc : List Nat) :
    t.searchWin plan j k r acc = s.searchWin plan j k r acc := by
  induction k generalizing r acc with
  | zero => rfl
  | succ k ih =>
    have same : t.rteMatch r plan j = s.rteMatch r plan j := by
      unfold State.rteMatch State.rteOn
      rw [State.rte_congr tables]
    rw [State.searchWin, State.searchWin, same, State.rte_congr tables, ih, ih]

/-! Jobs that take a slot (R144). -/

/-- Job j of CANCn has left its receive FIFO and is tagged in the next slot. -/
def State.jobTaken (s : State) (n : Nat) (j : Job) (rest : List Job) (res : Bool) (ph : SlotPhase) : State :=
  let t := s.setCan n { s.canOf n with rx := rest }
  let t := { t with prv := { t.prv with
    nextJob := t.prv.nextJob + 1
    slots := amPut t.prv.slots t.prv.nextJob ⟨j, t.epoch, ph, [], res, false⟩ } }
  t.wf Reg.PRV_CTL_JOBS 24 16 (max (t.rf Reg.PRV_CTL_JOBS 24 16) t.inflight)

section
variable (s : State) (n : Nat) (j : Job) (rest : List Job) (res : Bool) (ph : SlotPhase)

theorem State.jobTaken_prv : (s.jobTaken n j rest res ph).prv = { s.prv with
    nextJob := s.prv.nextJob + 1, slots := amPut s.prv.slots s.prv.nextJob ⟨j, s.epoch, ph, [], res, false⟩ } := rfl

theorem State.slot_jobTaken :
    amGet (s.jobTaken n j rest res ph).prv.slots s.prv.nextJob = some ⟨j, s.epoch, ph, [], res, false⟩ := amGet_put_same _ _ _

theorem State.rx_jobTaken : ((s.jobTaken n j rest res ph).canOf n).rx = rest := by
  rw [State.jobTaken, State.canOf_wf]
  exact congrArg CanCtl.rx (s.canOf_setCan_same n _)

theorem State.confined_jobTaken : s.confined (s.jobTaken n j rest res ph) (· = Reg.PRV_CTL_JOBS) :=
  (((State.confined.refl s _).setCan n { s.canOf n with rx := rest }).setPrv (p := (s.jobTaken n j rest res ph).prv) rfl).wf 24 16 _ rfl

end

/-- A setting in force is the setting of a job of the present epoch (R19, R21). -/
theorem State.cfg_of_confined {s t : State} {may : Nat → Prop} (h : s.confined t may) {a : Nat} (seq : ¬ may Reg.CMT_SEQ) (out : ¬ may a) :
    t.cfg s.epoch a = s.rd a := by
  rw [State.cfg, if_pos (by rw [State.epoch, State.epoch, h.regs _ seq]), h.regs _ out]

/-- The association that verifies job j of CANCn before it is routed (R356). -/
def State.verifier (s : State) (n : Nat) (j : Job) : Option Nat :=
  if !j.self then s.assocFor (s.rd Reg.CAUTH_CTL) false n j.frame else none

/-- The phase in which a job is tagged: it waits for its verification with the association as it stands, or is routed. -/
def State.tagPhase (s : State) : Option Nat → SlotPhase
  | some a => .waitVerify a (s.rd Reg.CAUTH_CTL :: amGetD [0, 0, 0, 0] s.cauth a)
  | none => .routed

/-- A job of controller n that waits for Privet and that Privet may take. -/
structure State.mayAccept (s : State) (n : Fin 24) (j : Job) (rest : List Job) (res : Bool) : Prop where
  on : s.rb Reg.PRV_CTL_EN 0 = true
  noClaim : s.prv.clmQ = []
  noTransport : s.prv.tpeQ = []
  slot : s.slotFor n = some res
  rx : (s.canOf n).rx = j :: rest
  src : j.src = n
  undirected : j.direct = none
  unhosted : j.hq = none

section
variable {s : State} {n : Fin 24} {j : Job} {rest : List Job} {res : Bool} (h : s.mayAccept n j rest res)
include h

theorem State.mayAccept.takeJob : s.takeJob n none = some (j, s.setCan n { s.canOf n with rx := rest }) := by
  rw [State.takeJob, if_pos n.isLt, h.rx]

theorem exec_privetJobAccept_can {ver : Option Nat} (named : s.verifier n j = ver) : exec (.privetJobAccept n none) s
    = .next (if ver.isSome then s.jobTaken n j rest res (s.tagPhase ver)
        else (s.jobTaken n j rest res (s.tagPhase ver)).routeOrdered s.prv.nextJob) := by
  have found : (if decide ((n : Nat) < 24) && !j.self then (s.setCan n { s.canOf n with rx := rest }).assocFor
      ((s.setCan n { s.canOf n with rx := rest }).rd Reg.CAUTH_CTL) false n j.frame else none) = ver := by
    rw [decide_eq_true n.isLt, Bool.true_and]
    exact named
  change execPrivetJobAccept n none s = _
  simp only [execPrivetJobAccept, h.on, h.noClaim, h.noTransport, h.slot, h.takeJob, h.unhosted, found, List.isEmpty_nil, Bool.true_or,
    Bool.and_self, Bool.not_true, Bool.and_false, Bool.or_self, Bool.false_eq_true, if_false]
  cases ver <;> rfl

/-- R144: a job that no verify association names is routed. -/
theorem exec_privetJobAccept_routed (free : j.self = true ∨ s.assocFor (s.rd Reg.CAUTH_CTL) false n j.frame = none) :
    exec (.privetJobAccept n none) s = .next ((s.jobTaken n j rest res .routed).routeOrdered s.prv.nextJob) := by
  refine exec_privetJobAccept_can h (ver := none) ?_
  rcases free with self | unnamed
  · rw [State.verifier, self, Bool.not_true, if_neg Bool.false_ne_true]
  · rw [State.verifier, unnamed, ite_self]

/-- R356: a job that a verify association names waits. -/
theorem exec_privetJobAccept_verified {a : Nat} (own : j.self = false)
    (named : s.assocFor (s.rd Reg.CAUTH_CTL) false n j.frame = some a) :
    exec (.privetJobAccept n none) s = .next (s.jobTaken n j rest res (s.tagPhase (some a))) :=
  exec_privetJobAccept_can h (ver := some a) (by rw [State.verifier, own, Bool.not_false, if_pos rfl, named])

theorem privetJobAccept_verified {a : Nat} (own : j.self = false)
    (named : s.assocFor (s.rd Reg.CAUTH_CTL) false n j.frame = some a) : Completes (.privetJobAccept n none) s fun t =>
      (t.canOf n).rx = rest ∧ (∃ sl ws, amGet t.prv.slots s.prv.nextJob = some sl ∧ sl.job = j ∧ sl.epoch = s.epoch ∧ sl.copies = []
        ∧ sl.phase = .waitVerify a ws) ∧ s.sameTables t ∧ s.sameBytes t := by
  have frame := s.confined_jobTaken n j rest res (s.tagPhase (some a))
  exact .of_exec (exec_privetJobAccept_verified h own named)
    ⟨State.rx_jobTaken _ _ _ _ _ _, ⟨_, _, State.slot_jobTaken _ _ _ _ _ _, rfl, rfl, rfl, rfl⟩, frame.tables, frame.bytes⟩

end

/-! Routing (R138-R140, R201). -/

/-- A job waits for no other where no entry that acts on it uses the claim ledger. -/
theorem State.mayRoute_of_unused {s : State} {id e : Nat} {j : Job} (unused : s.usesLedger j e = false) : s.mayRoute id j e = true := by
  rw [State.mayRoute, unused]
  rfl

/-- A job that uses the ledger waits for none where no claim, no transport frame and no other job has still to be applied. -/
theorem State.mayRoute_of_routed {s : State} {id e : Nat} {j : Job} (noClaim : s.prv.clmQ = []) (noTransport : s.prv.tpeQ = [])
    (routed : ∀ p ∈ s.prv.slots, p.2.phase = .routed) : s.mayRoute id j e = true := by
  have others : s.prv.slots.any (fun p => decide (p.1 < id) && p.2.phase != .routed && s.usesLedger p.2.job s.epoch) = false := by
    rw [List.any_eq_false]
    intro p hp
    rw [routed p hp]
    simp
  rw [State.mayRoute, noClaim, noTransport, others]
  simp

/-- The slot holds the copies that were made of its job, or is freed where there are none. -/
def State.slotFilled (s : State) (id : Nat) (sl : Slot) (cs : List Copy) : State :=
  if cs.isEmpty then { s with prv := { s.prv with slots := amDel s.prv.slots id } }
  else { s with prv := { s.prv with
    slots := amPut s.prv.slots id { sl with phase := .routed, copies := cs }
    cells := amPut s.prv.cells id ⟨cellsOf sl.job.frame.data.length, false, cs.length⟩ } }

theorem State.confined.slotFilled {s t : State} {may : Nat → Prop} (h : s.confined t may) (id : Nat) (sl : Slot) (cs : List Copy) :
    s.confined (t.slotFilled id sl cs) may :=
  (h.setPrv (p := { t.prv with slots := amDel t.prv.slots id }) rfl).ite (h.setPrv (p := { t.prv with
    slots := amPut t.prv.slots id { sl with phase := .routed, copies := cs }
    cells := amPut t.prv.cells id ⟨cellsOf sl.job.frame.data.length, false, cs.length⟩ }) rfl)

@[simp] theorem State.slotFilled_can (s : State) (id : Nat) (sl : Slot) (cs : List Copy) : (s.slotFilled id sl cs).can = s.can := by
  unfold State.slotFilled
  split <;> rfl

@[simp] theorem State.rd_slotFilled (s : State) (id : Nat) (sl : Slot) (cs : List Copy) (a : Nat) :
    (s.slotFilled id sl cs).rd a = s.rd a := by
  unfold State.slotFilled
  split <;> rfl

theorem State.slot_slotFilled_nil (s : State) (id : Nat) (sl : Slot) : amGet (s.slotFilled id sl []).prv.slots id = none :=
  amGet_del_same _ _

theorem State.slot_slotFilled_cons (s : State) (id : Nat) (sl : Slot) (c : Copy) (cs : List Copy) :
    amGet (s.slotFilled id sl (c :: cs)).prv.slots id = some { sl with phase := .routed, copies := c :: cs } := amGet_put_same _ _ _

section
variable {s : State} {id : Nat} {sl : Slot} (held : amGet s.prv.slots id = some sl) (undirected : sl.job.direct = none)
include held

theorem State.routeOrdered_may (may : s.mayRoute id sl.job sl.epoch = true) : s.routeOrdered id = s.routeJob id := by
  simp only [State.routeOrdered, held, may, if_true]

include undirected

/-- R139: no entry of the window matches. -/
theorem State.routeJob_noMatch (noHit : s.searchWin (s.cf sl.epoch Reg.CHIP_PLAN 1 0) sl.job
      (fld (s.cfg sl.epoch (Reg.PRV_RTE_WIN sl.job.src)) 28 16) (fld (s.cfg sl.epoch (Reg.PRV_RTE_WIN sl.job.src)) 14 0) [] = ([], false)) :
    s.routeJob id = (s.noMatch id sl.epoch sl.job).1.slotFilled id sl (s.noMatch id sl.epoch sl.job).2 := by
  simp only [State.routeJob, held, undirected, noHit, Bool.false_eq_true, if_false, List.isEmpty_nil, if_true]
  rfl

/-- One entry of the window acts, and isolation of the ingress segment leaves none of its actions out (R140, R213). -/
theorem State.routeJob_single {r : Nat} (one : s.searchWin (s.cf sl.epoch Reg.CHIP_PLAN 1 0) sl.job
      (fld (s.cfg sl.epoch (Reg.PRV_RTE_WIN sl.job.src)) 28 16) (fld (s.cfg sl.epoch (Reg.PRV_RTE_WIN sl.job.src)) 14 0) [] = ([r], false))
    {t : State} {cs : List Copy}
    (acts : s.actEntry id sl.epoch r sl.job (decide (sl.job.src < 24) && s.isolated sl.job.src) [] = (t, cs, false)) :
    s.routeJob id = t.slotFilled id sl cs := by
  simp only [State.routeJob, held, undirected, one, Bool.false_eq_true, if_false, List.isEmpty_cons, State.actAll, acts, Bool.or_self]
  rfl

end

/-- A search that met a match beyond its acting entries has eight of them (R138). -/
theorem State.searchWin_overflow {s : State} {plan : Nat} {j : Job} {k r : Nat} {acc : List Nat}
    (beyond : (s.searchWin plan j k r acc).2 = true) : (s.searchWin plan j k r acc).1.length = 8 := by
  induction k generalizing r acc with
  | zero => exact nomatch beyond
  | succ k ih =>
    rw [State.searchWin] at beyond ⊢
    split_ifs at beyond ⊢ with hit full last
    · exact full
    · exact ih beyond
    · exact ih beyond

/-! No match (R139). -/

/-- A job of CANCn that no entry matched is counted. -/
def State.unmatched (s : State) (n : Nat) : State := (s.bump (Reg.PRV_CTL_NOMATCH n) 1 6).ist Reg.pgPRV_CTL 4

theorem State.noMatch_can (s : State) (id e : Nat) {j : Job} (can : j.src < 24) : (s.noMatch id e j).1 = s.unmatched j.src := by
  unfold State.noMatch State.unmatched
  simp only [can, if_true]
  split <;> rfl

/-- With DEFACT off no copy is made. -/
theorem State.noMatch_copies {s : State} {id e : Nat} {j : Job} (can : j.src < 24)
    (off : bitOf ((s.unmatched j.src).cfg e Reg.PRV_CTL_DEFACT) 31 = false) : (s.noMatch id e j).2 = [] := by
  unfold State.unmatched at off
  unfold State.noMatch
  simp only [can, if_true, off, Bool.false_eq_true, if_false]

theorem pageBase_nomatch {n : Nat} (hn : n < 24) : pageBase (Reg.PRV_CTL_NOMATCH n) = Reg.pgPRV_CTL := by
  dsimp only [pageBase, Reg.PRV_CTL_NOMATCH, Reg.pgPRV_CTL]
  omega

theorem State.confined.unmatched {s t : State} {may : Nat → Prop} (h : s.confined t may) {n : Nat} (hn : n < 24)
    (count : may (Reg.PRV_CTL_NOMATCH n)) (event : may (Reg.PG_IST Reg.pgPRV_CTL)) : s.confined (t.unmatched n) may :=
  (h.bump 1 6 count (by rw [pageBase_nomatch hn]; exact event)).ist 4 event

theorem State.rd_unmatched (s : State) {n : Nat} (hn : n < 24) :
    (s.unmatched n).rd (Reg.PRV_CTL_NOMATCH n) = s.rd (Reg.PRV_CTL_NOMATCH n) + 1 := by
  have header : Reg.PRV_CTL_NOMATCH n ≠ Reg.PG_IST Reg.pgPRV_CTL := by
    dsimp only [Reg.PRV_CTL_NOMATCH, Reg.PG_IST, Reg.pgPRV_CTL, ne_eq]
    omega
  rw [State.unmatched, State.rd_ist_other _ _ _ _ header,
    State.rd_bump_one _ _ (by dsimp only [Reg.PRV_CTL_NOMATCH]; omega)]

/-! Supervision (R153). -/

/-- The state with other supervision windows. -/
def State.setCyc (s : State) (l : List (Nat × CycWin)) : State := { s with prv := { s.prv with cyc := l } }

@[simp] theorem State.rd_setCyc (s : State) (l : List (Nat × CycWin)) (a : Nat) : (s.setCyc l).rd a = s.rd a := rfl

@[simp] theorem State.setCyc_prv (s : State) (l : List (Nat × CycWin)) : (s.setCyc l).prv = { s.prv with cyc := l } := rfl

/-- The windows that have passed are counted, where there are any, and the route's window is set. -/
theorem State.cycJob_eq (s : State) (r : Nat) : ∃ k l, s.cycJob r = (if k = 0 then s else s.cycMiss r k).setCyc l := ⟨_, _, rfl⟩

/-- Misses are counted in CCYCMISS alone. -/
theorem State.cycMiss_prv (s : State) (r k : Nat) : (s.cycMiss r k).prv
    = { s.prv with rcnt := amSet 0 s.prv.rcnt (4 * r + 2) ((amGetD 0 s.prv.rcnt (4 * r + 2) + k) % 2 ^ 32) } := by
  rw [State.cycMiss, State.ist_prv]
  rfl

theorem State.rcnt_cycJob (s : State) (r : Nat) {a : Nat} (other : a ≠ 4 * r + 2) :
    amGetD 0 (s.cycJob r).prv.rcnt a = amGetD 0 s.prv.rcnt a := by
  obtain ⟨k, l, job⟩ := s.cycJob_eq r
  rw [job, State.setCyc_prv]
  split
  · rfl
  · rw [State.cycMiss_prv]
    exact amGetD_set_other _ _ _ _ other

@[simp] theorem State.cycJob_can (s : State) (r : Nat) : (s.cycJob r).can = s.can := by
  obtain ⟨k, l, job⟩ := s.cycJob_eq r
  rw [job]
  change (if k = 0 then s else s.cycMiss r k).can = _
  split
  · rfl
  · exact State.ist_can _ _ _

section
variable {s t : State} {may : Nat → Prop} (h : s.confined t may) (last : may Reg.PRV_RTE_LASTCYC) (event : may (Reg.PG_IST Reg.pgPRV_RTE))
include h

theorem State.confined.setCyc (l : List (Nat × CycWin)) : s.confined (t.setCyc l) may := h.setPrv (p := { t.prv with cyc := l }) rfl

theorem State.confined.routeCount (r k : Nat) : s.confined (t.routeCount r k) may := h.setPrv (p := (t.routeCount r k).prv) rfl

include last event

theorem State.confined.cycMiss (r k : Nat) : s.confined (t.cycMiss r k) may :=
  ((h.setPrv (p := { t.prv with rcnt := amSet 0 t.prv.rcnt (4 * r + 2) ((amGetD 0 t.prv.rcnt (4 * r + 2) + k) % 2 ^ 32) }) rfl).wr
    (a := Reg.PRV_RTE_LASTCYC) _ last).ist 1 event

theorem State.confined.cycJob (r : Nat) : s.confined (t.cycJob r) may := by
  obtain ⟨k, l, job⟩ := t.cycJob_eq r
  rw [job]
  exact (h.ite (h.cycMiss last event r k)).setCyc l

end

/-! The acting entry (R140, R154). -/

/-- A matching job counts in CMATCH of its route. -/
theorem State.routeCount_prv (s : State) (r k : Nat) : (s.routeCount r k).prv
    = { s.prv with rcnt := amSet 0 s.prv.rcnt (4 * r + k) ((amGetD 0 s.prv.rcnt (4 * r + k) + 1) % 2 ^ 32) } := rfl

/-- An entry that names a host queue and nothing else makes one copy (R140). -/
theorem State.actEntry_host {s : State} {r : Nat} (off : fld (s.rte r 3) 30 27 = 0) (noCtl : fld (s.rte r 3) 23 0 = 0)
    (host : bitOf (s.rte r 3) 31 = true) (id e : Nat) (j : Job) (iso : Bool) :
    s.actEntry id e r j iso [] = ((s.routeCount r 0).cycJob r,
      [((s.routeCount r 0).cycJob r).makeOther id e r 1 j (.host (fld (s.rte r 4) 31 26))], false) := by
  have bit : ∀ i, 27 ≤ i → i ≤ 30 → bitOf (s.rte r 3) i = false := fun _ lo hi => bitOf_of_fld_zero off lo hi
  have noBits : setBits 0 24 = [] := rfl
  simp only [State.actEntry, noCtl, noBits, ite_self, host, bit 30 (by omega) (by omega), bit 29 (by omega) (by omega),
    bit 28 (by omega) (by omega), bit 27 (by omega) (by omega), State.makeCans, Bool.false_and, Bool.false_eq_true, if_false, if_true,
    List.nil_append, bne_self_eq_false, Bool.or_self, Bool.and_false]
  rfl

/-! A job that is routed as it is accepted. -/

section
variable {s : State} {n : Fin 24} {j : Job} {rest : List Job} {res : Bool} (h : s.mayAccept n j rest res)
include h

/-- The tagged job is searched for with the settings in force. -/
theorem State.mayAccept.searched {t : State} (accepted : t = s.jobTaken n j rest res .routed) {acts : List Nat × Bool}
    (found : s.searchWin (s.rf Reg.CHIP_PLAN 1 0) j (fld (s.rd (Reg.PRV_RTE_WIN n)) 28 16) (fld (s.rd (Reg.PRV_RTE_WIN n)) 14 0) []
      = acts) :
    t.searchWin (t.cf s.epoch Reg.CHIP_PLAN 1 0) j (fld (t.cfg s.epoch (Reg.PRV_RTE_WIN j.src)) 28 16)
      (fld (t.cfg s.epoch (Reg.PRV_RTE_WIN j.src)) 14 0) [] = acts := by
  have frame := s.confined_jobTaken n j rest res .routed
  have window : Reg.PRV_RTE_WIN n ≠ Reg.PRV_CTL_JOBS := by
    dsimp only [Reg.PRV_RTE_WIN, Reg.PRV_CTL_JOBS, ne_eq]
    omega
  rw [accepted, State.cf, h.src, State.cfg_of_confined frame (by decide) (by decide), State.cfg_of_confined frame (by decide) window,
    State.searchWin_congr frame.tables, ← State.rf, found]

/-- It is routed at once where it does not use the claim ledger, or no other job is left to use it. -/
theorem State.mayAccept.routed {t : State} (accepted : t = s.jobTaken n j rest res .routed) {acts : List Nat × Bool}
    (found : s.searchWin (s.rf Reg.CHIP_PLAN 1 0) j (fld (s.rd (Reg.PRV_RTE_WIN n)) 28 16) (fld (s.rd (Reg.PRV_RTE_WIN n)) 14 0) []
      = acts) (turn : (acts.1.any fun r => fld (s.rte r 3) 28 26 != 0) = false ∨ ∀ p ∈ s.prv.slots, p.2.phase = .routed) :
    t.mayRoute s.prv.nextJob j s.epoch = true := by
  rcases turn with unused | others
  · refine State.mayRoute_of_unused ?_
    rw [State.usesLedger, h.searched accepted found, State.rte_congr (accepted ▸ (s.confined_jobTaken n j rest res .routed).tables), unused,
      Bool.and_false]
  · subst accepted
    refine State.mayRoute_of_routed h.noClaim h.noTransport fun p hp => ?_
    rcases amPut_mem hp with rfl | old
    · rfl
    · exact others p old

/-- R139: a job whose window is empty counts in NOMATCH, and with DEFACT off it leaves no slot. -/
theorem privetJobAccept_noMatch (free : j.self = true ∨ s.assocFor (s.rd Reg.CAUTH_CTL) false n j.frame = none)
    (empty : fld (s.rd (Reg.PRV_RTE_WIN n)) 28 16 = 0) : Completes (.privetJobAccept n none) s fun t =>
      (t.canOf n).rx = rest ∧ t.rd (Reg.PRV_CTL_NOMATCH n) = s.rd (Reg.PRV_CTL_NOMATCH n) + 1
      ∧ t.rb (Reg.PG_IST Reg.pgPRV_CTL) 4 = true
      ∧ (s.rb Reg.PRV_CTL_DEFACT 31 = false → amGet t.prv.slots s.prv.nextJob = none) ∧ s.sameTables t ∧ s.sameBytes t := by
  generalize taken : s.jobTaken n j rest res .routed = u
  have found : s.searchWin (s.rf Reg.CHIP_PLAN 1 0) j (fld (s.rd (Reg.PRV_RTE_WIN n)) 28 16) (fld (s.rd (Reg.PRV_RTE_WIN n)) 14 0) []
      = ([], false) := by
    rw [empty]
    rfl
  have slot := s.slot_jobTaken n j rest res .routed
  have ran := exec_privetJobAccept_routed h free
  rw [taken] at slot ran
  rw [State.routeOrdered_may slot (h.routed taken.symm found (.inl rfl)), State.routeJob_noMatch slot h.undirected
    (h.searched taken.symm found)] at ran
  have can : j.src < 24 := h.src ▸ n.isLt
  rw [State.noMatch_can _ _ _ can, h.src] at ran
  have tagged := s.confined_jobTaken n j rest res .routed
  rw [taken] at tagged
  have untagged : Reg.PRV_CTL_NOMATCH n ≠ Reg.PRV_CTL_JOBS := by
    dsimp only [Reg.PRV_CTL_NOMATCH, Reg.PRV_CTL_JOBS, ne_eq]
    omega
  have counted := (tagged.weaken (might := (· ∈ [Reg.PRV_CTL_JOBS, Reg.PRV_CTL_NOMATCH n, Reg.PG_IST Reg.pgPRV_CTL]))
    (fun _ e => by simp [e])).unmatched n.isLt (by simp) (by simp)
  have frame := counted.slotFilled s.prv.nextJob ⟨j, s.epoch, .routed, [], res, false⟩ (u.noMatch s.prv.nextJob s.epoch j).2
  refine .of_exec ran ⟨?rx, ?count, ?event, fun off => ?slot, frame.tables, frame.bytes⟩
  case rx =>
    have kept : (u.unmatched n).can = u.can := (State.ist_can _ _ _).trans (State.bump_can _ _ _ _)
    rw [State.canOf_congr (State.slotFilled_can _ _ _ _), State.canOf_congr kept, ← taken, State.rx_jobTaken]
  case count => rw [State.rd_slotFilled, State.rd_unmatched _ n.isLt, tagged.regs _ untagged]
  case event =>
    rw [State.rb, State.rd_slotFilled]
    exact State.rb_ist_same _ _ _ (by decide)
  case slot =>
    have unset : ¬ Reg.PRV_CTL_DEFACT ∈ [Reg.PRV_CTL_JOBS, Reg.PRV_CTL_NOMATCH n, Reg.PG_IST Reg.pgPRV_CTL] := by
      simp only [List.mem_cons, List.not_mem_nil, or_false]
      dsimp only [Reg.PRV_CTL_DEFACT, Reg.PRV_CTL_JOBS, Reg.PRV_CTL_NOMATCH, Reg.PG_IST, Reg.pgPRV_CTL]
      omega
    have seq : ¬ Reg.CMT_SEQ ∈ [Reg.PRV_CTL_JOBS, Reg.PRV_CTL_NOMATCH n, Reg.PG_IST Reg.pgPRV_CTL] := by
      simp only [List.mem_cons, List.not_mem_nil, or_false]
      dsimp only [Reg.CMT_SEQ, Reg.PRV_CTL_JOBS, Reg.PRV_CTL_NOMATCH, Reg.PG_IST, Reg.pgPRV_CTL]
      omega
    rw [State.noMatch_copies can (by rw [h.src, State.cfg_of_confined counted seq unset]; exact off)]
    exact State.slot_slotFilled_nil _ _ _

/-- R138, R140, R154: one entry acts, and it names a host queue alone. -/
theorem privetJobAccept_host (free : j.self = true ∨ s.assocFor (s.rd Reg.CAUTH_CTL) false n j.frame = none) {r : Nat} {ovf : Bool}
    (found : s.searchWin (s.rf Reg.CHIP_PLAN 1 0) j (fld (s.rd (Reg.PRV_RTE_WIN n)) 28 16) (fld (s.rd (Reg.PRV_RTE_WIN n)) 14 0) []
      = ([r], ovf)) (off : fld (s.rte r 3) 30 27 = 0) (noCtl : fld (s.rte r 3) 23 0 = 0) (host : bitOf (s.rte r 3) 31 = true)
    (turn : bitOf (s.rte r 3) 26 = false ∨ ∀ p ∈ s.prv.slots, p.2.phase = .routed) : Completes (.privetJobAccept n none) s fun t =>
      (t.canOf n).rx = rest
      ∧ (∃ sl c, amGet t.prv.slots s.prv.nextJob = some sl ∧ sl.copies = [c] ∧ sl.epoch = s.epoch
        ∧ c.eg = .host (fld (s.rte r 4) 31 26) ∧ c.origin = .route r ∧ c.epoch = s.epoch)
      ∧ amGetD 0 t.prv.rcnt (4 * r) = (amGetD 0 s.prv.rcnt (4 * r) + 1) % 2 ^ 32 ∧ s.sameTables t ∧ s.sameBytes t := by
  obtain rfl : ovf = false := by
    by_contra beyond
    have eight := State.searchWin_overflow (by rw [found]; exact Bool.eq_true_of_not_eq_false beyond)
    rw [found] at eight
    exact nomatch eight
  generalize taken : s.jobTaken n j rest res .routed = u
  have slot := s.slot_jobTaken n j rest res .routed
  have tagged := (s.confined_jobTaken n j rest res .routed).weaken (might := fun _ => True) fun _ _ => trivial
  have ran := exec_privetJobAccept_routed h free
  have rte := State.rte_congr tagged.tables
  rw [taken] at slot ran tagged rte
  have acts := State.actEntry_host (s := u) (r := r) (by rw [rte, off]) (by rw [rte, noCtl]) (by rw [rte, host]) s.prv.nextJob s.epoch j
    (decide (j.src < 24) && u.isolated j.src)
  have unused := turn.imp_left fun plain => show ([r].any fun q => fld (s.rte q 3) 28 26 != 0) = false by
    rw [List.any_cons, fld_ledger_zero off plain]
    rfl
  rw [State.routeOrdered_may slot (h.routed taken.symm found unused), State.routeJob_single slot h.undirected
    (h.searched taken.symm found) acts] at ran
  have frame := ((tagged.routeCount r 0).cycJob trivial trivial r).slotFilled s.prv.nextJob ⟨j, s.epoch, .routed, [], res, false⟩
    [((u.routeCount r 0).cycJob r).makeOther s.prv.nextJob s.epoch r 1 j (.host (fld (u.rte r 4) 31 26))]
  refine .of_exec ran ⟨?rx, ⟨_, _, State.slot_slotFilled_cons _ _ _ _ _, rfl, rfl, ?egress, rfl, rfl⟩, ?count, frame.tables, frame.bytes⟩
  case rx =>
    rw [State.canOf_congr (State.slotFilled_can _ _ _ _), State.canOf_congr (State.cycJob_can _ _)]
    exact (congrArg (fun t => (t.canOf n).rx) taken).symm.trans (s.rx_jobTaken n j rest res .routed)
  case egress =>
    rw [← rte]
    rfl
  case count =>
    change amGetD 0 ((u.routeCount r 0).cycJob r).prv.rcnt (4 * r) = _
    rw [State.rcnt_cycJob _ _ (by omega), State.routeCount_prv]
    refine (amGetD_set_same _ _ _ _).trans ?_
    rw [← taken]
    rfl

end

end Sys2Proof.Machine
end

section
/-! PROOFS. Copies on their way out of Privet (R146-R152): a copy that is placed at its controller, held copies that are placed or dropped,
and what the drop of a copy leaves of the hold queues and of the DEADLINE counters. -/
namespace Sys2Proof.Machine

/-! Copies that leave their slot (R144). -/

/-- The state with other slots. -/
def State.setSlots (s : State) (l : List (Nat × Slot)) : State := { s with prv := { s.prv with slots := l } }

/-- The slot without copy k is freed with its last copy. -/
theorem State.leaveSlot_eq {s : State} {id k : Nat} {sl : Slot} (held : amGet s.prv.slots id = some sl) : s.leaveSlot id k
    = s.setSlots (if (sl.copies.eraseIdx k).isEmpty then amDel s.prv.slots id
        else amPut s.prv.slots id { sl with copies := sl.copies.eraseIdx k }) := by
  simp only [State.leaveSlot, held, State.setSlots]

theorem amGet_leftSlot (m : List (Nat × Slot)) (id : Nat) (last : Bool) (sl : Slot) :
    amGet (if last then amDel m id else amPut m id sl) id = if last then none else some sl := by
  cases last
  · exact amGet_put_same _ _ _
  · exact amGet_del_same _ _

theorem State.besideCan.leaveSlot {s t : State} (h : s.besideCan t) (id k : Nat) : s.besideCan (t.leaveSlot id k) := by
  unfold State.leaveSlot
  split
  · exact h
  · exact h.setPrv rfl

theorem exec_copyEnqueue_ctl {s : State} {id k n : Nat} {sl : Slot} {c : Copy} (held : amGet s.prv.slots id = some sl)
    (copy : sl.copies[k]? = some c) (ready : s.ready id k c = true) (eg : c.eg = .ctl n) :
    exec (.copyEnqueue id k) s = .next (((s.leaveSlot id k).enqueueAt n c).traceRoute id c) := by
  change execCopyEnqueue id k s = _
  simp only [execCopyEnqueue, held, copy, ready, if_true, eg]

/-- The record of a route is no part of Privet (R521). -/
@[simp] theorem State.traceRoute_prv (s : State) (id : Nat) (c : Copy) : (s.traceRoute id c).prv = s.prv := by
  unfold State.traceRoute
  split
  · dsimp only
    rw [apply_ite State.prv, State.trace_prv, ite_self]
  · rfl

theorem State.besideCan.traceRoute {s t : State} (h : s.besideCan t) (id : Nat) (c : Copy) : s.besideCan (t.traceRoute id c) := by
  unfold State.traceRoute
  split
  · exact h.ite (h.trace _ _ _)
  · exact h

theorem State.confined.traceRoute {s t : State} {may : Nat → Prop} (h : s.confined t may) (id : Nat) (c : Copy) (lost : may Reg.OBS_LOST)
    (event : may (Reg.PG_IST Reg.pgOBS)) : s.confined (t.traceRoute id c) may := by
  unfold State.traceRoute
  split
  · exact h.ite (h.trace _ _ _ lost event)
  · exact h

/-! Placement (R108, R148, R516). -/

theorem State.besideCan.digestCan {s t : State} (h : s.besideCan t) (n : Nat) (c : Copy) : s.besideCan (t.digestCan n c) := by
  unfold State.digestCan State.digest
  refine State.besideCan.ite (h.ite ?_) h
  exact ⟨⟨h.frame.regs, h.frame.tables, h.frame.bytes, h.frame.sent, h.frame.tsy, h.frame.mono⟩, h.can⟩

@[simp] theorem State.digestCan_prv (s : State) (n : Nat) (c : Copy) : (s.digestCan n c).prv = s.prv := by
  unfold State.digestCan State.digest
  split_ifs <;> rfl

theorem State.besideCan.latency {s t : State} (h : s.besideCan t) (c : Copy) : s.besideCan (t.latency c) :=
  ((h.wr (a := Reg.PRV_CTL_LATMAX) _ (.inr (by decide))).ite h).ite h

@[simp] theorem State.latency_prv (s : State) (c : Copy) : (s.latency c).prv = s.prv := by
  unfold State.latency
  dsimp only
  split_ifs <;> rfl

/-- At its enqueue a copy tells nothing but its host queue. -/
@[simp] theorem State.endCopy_enqueued_prv (s : State) (c : Copy) : (s.endCopy c .enqueued).prv = s.prv := by
  cases origin : c.origin with
  | route r => simp only [State.endCopy, origin]
  | layout l => simp only [State.endCopy, origin]
  | ledger e claim => cases claim <;> simp only [State.endCopy, origin]
  | tpe i p final => cases final <;> simp only [State.endCopy, origin]
  | hostq q d ts =>
    simp only [State.endCopy, origin]
    split <;> rfl
  | other => simp only [State.endCopy, origin]

theorem State.freeCell_prv (s : State) (j : Nat) : ∃ l, (s.freeCell j).prv = { s.prv with cells := l } := by
  unfold State.freeCell
  split
  · exact ⟨s.prv.cells, rfl⟩
  · exact ⟨_, rfl⟩

@[simp] theorem State.headCheck_prv (s : State) (n : Nat) (old : Option Nat) : (s.headCheck n old).prv = s.prv := by
  unfold State.headCheck
  split
  · rfl
  · exact State.istIf_prv _ _ _ _

/-- The lowest free buffer of controller n takes the copy. -/
theorem State.placeCan_free {s : State} {n i : Nat} (c : Copy)
    (free : (List.range 64).find? (fun b => (amGet (s.canOf n).bufs b).isNone) = some i) : s.placeCan n c
      = (s.setCan n { s.canOf n with bufs := amPut (s.canOf n).bufs i ⟨c, (s.canOf n).seq⟩, seq := (s.canOf n).seq + 1 }).headCheck n
        (s.headOrder n) := by
  simp only [State.placeCan, free]

theorem State.bufs_placeCan {s : State} {n i : Nat} (c : Copy)
    (free : (List.range 64).find? (fun b => (amGet (s.canOf n).bufs b).isNone) = some i) :
    amGet ((s.placeCan n c).canOf n).bufs i = some ⟨c, (s.canOf n).seq⟩ := by
  rw [State.placeCan_free c free, State.canOf_congr (State.headCheck_can _ _ _), State.canOf_setCan_same]
  exact amGet_put_same _ _ _

@[simp] theorem State.placeCan_prv (s : State) (n : Nat) (c : Copy) : (s.placeCan n c).prv = s.prv := by
  unfold State.placeCan
  dsimp only
  split
  · rfl
  · exact State.headCheck_prv _ _ _

theorem State.confined.placeCan {s t : State} (h : s.confined t fun _ => True) (n : Nat) (c : Copy) :
    s.confined (t.placeCan n c) fun _ => True := by
  unfold State.placeCan
  dsimp only
  split
  · exact h
  · exact (h.setCan n _).headCheck (n := n) _ trivial

/-- What follows the placement of a copy leaves the controllers. -/
theorem State.besideCan_enqueueCan (s : State) (n : Nat) (c : Copy) : ((s.digestCan n c).placeCan n c).besideCan (s.enqueueCan n c) :=
  (((State.besideCan.refl _).freeCell c.job).latency c).endCopy c .enqueued

theorem State.confined_enqueueCan (s : State) (n : Nat) (c : Copy) : s.confined (s.enqueueCan n c) fun _ => True :=
  (((State.confined.refl s _).besideCan ((State.besideCan.refl s).digestCan n c) fun _ _ => trivial).placeCan n c).besideCan
    (s.besideCan_enqueueCan n c) fun _ _ => trivial

theorem State.bufs_enqueueCan {s : State} {n i : Nat} (c : Copy)
    (free : (List.range 64).find? (fun b => (amGet (s.canOf n).bufs b).isNone) = some i) :
    amGet ((s.enqueueCan n c).canOf n).bufs i = some ⟨c, (s.canOf n).seq⟩ := by
  have same := State.canOf_congr ((State.besideCan.refl s).digestCan n c).can n
  rw [State.canOf_congr (s.besideCan_enqueueCan n c).can, State.bufs_placeCan c (by rw [same]; exact free), same]

/-- Of Privet an enqueue touches the cells. -/
theorem State.enqueueCan_prv (s : State) (n : Nat) (c : Copy) : ∃ l, (s.enqueueCan n c).prv = { s.prv with cells := l } := by
  obtain ⟨l, cells⟩ := ((s.digestCan n c).placeCan n c).freeCell_prv c.job
  exact ⟨l, by rw [State.enqueueCan, State.endCopy_enqueued_prv, State.latency_prv, cells, State.placeCan_prv, State.digestCan_prv]⟩

/-- A copy goes to its controller at once where none is held for it and its credits stand (R148). -/
theorem State.enqueueAt_credit {s : State} {n : Nat} {c : Copy} (enabled : s.canState n ≠ 0) (active : s.standby = false)
    (noneHeld : s.heldOf n = []) (credit : (s.canOf n).credit n c.frame = true) (soon : s.overdue c = false) :
    s.enqueueAt n c = s.enqueueCan n c := by
  simp only [State.enqueueAt, if_neg enabled, active, noneHeld, credit, soon, List.isEmpty_nil, Bool.not_true, Bool.or_self,
    Bool.false_and, Bool.false_eq_true, if_false]

theorem copyEnqueue_placed {s : State} {id k n : Nat} {sl : Slot} {c : Copy} {i : Nat} (held : amGet s.prv.slots id = some sl)
    (copy : sl.copies[k]? = some c) (ready : s.ready id k c = true) (eg : c.eg = .ctl n) (enabled : s.canState n ≠ 0)
    (active : s.standby = false) (noneHeld : s.heldOf n = []) (credit : (s.canOf n).credit n c.frame = true) (soon : s.overdue c = false)
    (free : (List.range 64).find? (fun b => (amGet (s.canOf n).bufs b).isNone) = some i) : Completes (.copyEnqueue id k) s fun t =>
      amGet (t.canOf n).bufs i = some ⟨c, (s.canOf n).seq⟩
      ∧ amGet t.prv.slots id = (if (sl.copies.eraseIdx k).isEmpty then none else some { sl with copies := sl.copies.eraseIdx k })
      ∧ s.sameTables t := by
  have ran := exec_copyEnqueue_ctl held copy ready eg
  rw [State.leaveSlot_eq held] at ran
  generalize left : (if (sl.copies.eraseIdx k).isEmpty then amDel s.prv.slots id
    else amPut s.prv.slots id { sl with copies := sl.copies.eraseIdx k }) = l at ran
  rw [State.enqueueAt_credit (s := s.setSlots l) enabled active noneHeld credit soon] at ran
  have noted := (State.besideCan.refl ((s.setSlots l).enqueueCan n c)).traceRoute id c
  have away : s.confined (s.setSlots l) fun _ => True := (State.confined.refl s _).setPrv (p := (s.setSlots l).prv) rfl
  have frame := (away.trans ((s.setSlots l).confined_enqueueCan n c)).besideCan noted fun _ _ => trivial
  obtain ⟨cells, prv⟩ := (s.setSlots l).enqueueCan_prv n c
  refine .of_exec ran ⟨?_, ?_, frame.tables⟩
  · rw [State.canOf_congr noted.can]
    exact State.bufs_enqueueCan (s := s.setSlots l) c free
  · rw [State.traceRoute_prv, prv]
    exact left ▸ amGet_leftSlot _ _ _ _

/-- R148: the held copy of highest priority is placed when its credits return. -/
theorem heldCopyPlacement_credit {s : State} {n : Fin 24} {c : Copy} {i : Nat} (best : bestHeld (s.heldOf n) = some c)
    (soon : s.overdue c = false) (credit : (s.canOf n).credit n c.frame = true)
    (free : (List.range 64).find? (fun b => (amGet (s.canOf n).bufs b).isNone) = some i) : Completes (.heldCopyPlacement n) s fun t =>
      amGet (t.canOf n).bufs i = some ⟨c, (s.canOf n).seq⟩ ∧ t.heldOf n = (s.heldOf n).erase c ∧ s.sameTables t := by
  have ran : exec (.heldCopyPlacement n) s = .next ((s.setHeld n ((s.heldOf n).erase c)).enqueueCan n c) := by
    change execHeldCopyPlacement n s = _
    simp only [execHeldCopyPlacement, best, soon, credit, Bool.false_eq_true, if_false, if_true]
  have taken : s.confined (s.setHeld n ((s.heldOf n).erase c)) fun _ => True :=
    (State.confined.refl s _).setPrv (p := (s.setHeld n ((s.heldOf n).erase c)).prv) rfl
  obtain ⟨cells, prv⟩ := (s.setHeld n ((s.heldOf n).erase c)).enqueueCan_prv n c
  refine .of_exec ran ⟨State.bufs_enqueueCan (s := s.setHeld n _) c free, ?_, (taken.trans (State.confined_enqueueCan _ n c)).tables⟩
  rw [State.heldOf, prv]
  exact amGetD_set_same _ _ _ _

/-! Drops to a disabled controller (R150, R151). -/

section
variable {s t : State} {may : Nat → Prop} (h : s.confined t may)
include h

theorem State.confined.setHq (q : Nat) (x : HQueue) : s.confined (t.setHq q x) may :=
  ⟨h.regs, h.tables, h.bytes, h.sent, h.tsy, h.mono⟩

theorem State.confined.setClm (x : Ledger) : s.confined { t with clm := x } may :=
  ⟨h.regs, h.tables, h.bytes, h.sent, h.tsy, h.mono⟩

/-- The end of a copy of no transport session is told to its ledger entry or its host queue, and changes no register. -/
theorem State.confined.endCopy_plain {c : Copy} (plain : ∀ a p b, c.origin ≠ .tpe a p b) (e : CopyEnd) :
    s.confined (t.endCopy c e) may := by
  unfold State.endCopy
  split
  · exact h.setPrv rfl
  · exact (h.setClm _).ite h
  · exact absurd ‹_› (plain _ _ _)
  · exact absurd ‹_› (plain _ _ _)
  · exact h.ite (h.setHq _ _)
  · exact h.setHq _ _
  · exact h.setHq _ _
  · exact h

theorem State.confined.freeCell (j : Nat) : s.confined (t.freeCell j) may := by
  unfold State.freeCell
  split
  · exact h
  · exact h.setPrv rfl

end

/-- A counter of the page PRV_CTL goes up by one. -/
theorem State.rd_bumpPrv (s : State) {a : Nat} (k : Nat) (lo : 0x120100 ≤ a) (hi : a < 0x121000) : (s.bump a 1 k).rd a = s.rd a + 1 :=
  s.rd_bump_one k (by omega)

/-- A DISABLED drop of a copy of no transport session counts once. -/
theorem State.rd_dropCopy_disabled (s : State) {n : Nat} (hn : n < 24) {c : Copy} (plain : ∀ a p b, c.origin ≠ .tpe a p b) :
    (s.dropCopy n c .disabled).rd (Reg.PRV_CTL_EDROP_DISABLED n) = s.rd (Reg.PRV_CTL_EDROP_DISABLED n) + 1 := by
  have apart : Reg.PG_IST Reg.pgPRV_CTL ≠ Reg.PRV_CTL_EDROP_DISABLED n ∧ Reg.OBS_LOST ≠ Reg.PRV_CTL_EDROP_DISABLED n
      ∧ Reg.PG_IST Reg.pgOBS ≠ Reg.PRV_CTL_EDROP_DISABLED n := by
    dsimp only [Reg.PG_IST, Reg.pgPRV_CTL, Reg.PRV_CTL_EDROP_DISABLED, Reg.OBS_LOST, Reg.pgOBS, ne_eq]
    omega
  obtain ⟨event, lost, port⟩ := apart
  have noted := (((State.confined.refl (s.bump (Reg.PRV_CTL_EDROP_DISABLED n) 1 6) (· ≠ Reg.PRV_CTL_EDROP_DISABLED n)).ist 3 event).draw).trace
    7 n ([BitVec.ofNat 8 1, BitVec.ofNat 8 (((s.bump (Reg.PRV_CTL_EDROP_DISABLED n) 1 6).ist Reg.pgPRV_CTL 3).draw.1.toNat % 256)]
      ++ beBytes 2 c.dropIx) lost port
  have dropped := (noted.freeCell c.job).endCopy_plain plain .dropped
  exact (dropped.regs _ (not_not_intro rfl)).trans (s.rd_bumpPrv 6 (by dsimp only [Reg.PRV_CTL_EDROP_DISABLED]; omega)
    (by dsimp only [Reg.PRV_CTL_EDROP_DISABLED]; omega))

/-- R150: a copy that finds its controller disabled is dropped. -/
theorem copyEnqueue_disabled {s : State} {id k : Nat} {n : Fin 24} {sl : Slot} {c : Copy} (held : amGet s.prv.slots id = some sl)
    (copy : sl.copies[k]? = some c) (ready : s.ready id k c = true) (eg : c.eg = .ctl n) (disabled : s.canState n = 0) :
    Completes (.copyEnqueue id k) s fun t => (t.canOf n).bufs = (s.canOf n).bufs
      ∧ ((∀ a p b, c.origin ≠ .tpe a p b) → t.rd (Reg.PRV_CTL_EDROP_DISABLED n) = s.rd (Reg.PRV_CTL_EDROP_DISABLED n) + 1) := by
  have ran := exec_copyEnqueue_ctl held copy ready eg
  have left : (s.leaveSlot id k).enqueueAt n c = (s.leaveSlot id k).dropCopy n c .disabled := by
    rw [State.leaveSlot_eq held]
    exact if_pos disabled
  rw [left] at ran
  have away := (State.besideCan.refl s).leaveSlot id k
  have noted := (away.dropCopy n c .disabled).traceRoute id c
  refine .of_exec ran ⟨by rw [State.canOf_congr noted.can], fun plain => ?_⟩
  have apart : Reg.OBS_LOST ≠ Reg.PRV_CTL_EDROP_DISABLED n ∧ Reg.PG_IST Reg.pgOBS ≠ Reg.PRV_CTL_EDROP_DISABLED n := by
    dsimp only [Reg.PG_IST, Reg.PRV_CTL_EDROP_DISABLED, Reg.OBS_LOST, Reg.pgOBS, ne_eq]
    omega
  have record := (State.confined.refl ((s.leaveSlot id k).dropCopy n c .disabled) (· ≠ Reg.PRV_CTL_EDROP_DISABLED n)).traceRoute id c
    apart.1 apart.2
  rw [record.regs _ (not_not_intro rfl), State.rd_dropCopy_disabled _ n.isLt plain, State.leaveSlot_eq held]
  rfl

/-! Drops of held copies (R151, R152). -/

/-- An address that is no EDROPn_DEADLINE. -/
def offDeadline (a : Nat) : Prop := a < 0x120400 ∨ 0x120580 ≤ a ∨ a % 16 ≠ 0

/-- PG_IST of a page is no EDROPn_DEADLINE. -/
theorem offDeadline_ist (a : Nat) : offDeadline (Reg.PG_IST (pageBase a)) := by
  dsimp only [offDeadline, Reg.PG_IST, pageBase]
  omega

/-- The hold queues, the DEADLINE counters, tables and memories stay. -/
structure State.besideHeld (s t : State) : Prop where
  frame : s.confined t offDeadline
  hold : t.prv.hold = s.prv.hold

theorem State.besideHeld.refl (s : State) : s.besideHeld s := ⟨.refl s _, rfl⟩

theorem State.besideHeld.ite {s t u : State} {p : Prop} [Decidable p] (h : s.besideHeld t) (g : s.besideHeld u) :
    s.besideHeld (if p then t else u) := by
  split
  · exact h
  · exact g

section
variable {s t : State} (h : s.besideHeld t)
include h

theorem State.besideHeld.wr {a : Nat} (w : Word) (ha : offDeadline a) : s.besideHeld (t.wr a w) := ⟨h.frame.wr w ha, h.hold⟩

theorem State.besideHeld.ist {b : Nat} (i : Nat) (hb : offDeadline (Reg.PG_IST b)) : s.besideHeld (t.ist b i) :=
  ⟨h.frame.ist i hb, (congrArg Privet.hold (State.ist_prv _ _ _)).trans h.hold⟩

theorem State.besideHeld.bump {a : Nat} (n k : Nat) (ha : offDeadline a) : s.besideHeld (t.bump a n k) :=
  ⟨h.frame.bump n k ha (offDeadline_ist a), (congrArg Privet.hold (State.bump_prv _ _ _ _)).trans h.hold⟩

theorem State.besideHeld.trace (typ src : Nat) (body : List Byte) : s.besideHeld (t.trace typ src body) :=
  ⟨h.frame.trace typ src body (.inl (by decide)) (.inl (by decide)), (congrArg Privet.hold (State.trace_prv _ _ _ _)).trans h.hold⟩

/-- An update of Privet's record that leaves its data store and the hold queues. -/
theorem State.besideHeld.setPrv {p : Privet} (data : p.pdata = t.prv.pdata) (hold : p.hold = t.prv.hold) :
    s.besideHeld { t with prv := p } := ⟨h.frame.setPrv data, hold.trans h.hold⟩

theorem State.besideHeld.draw : s.besideHeld t.draw.2 := ⟨h.frame.draw, h.hold⟩

theorem State.besideHeld.setHq (q : Nat) (x : HQueue) : s.besideHeld (t.setHq q x) := ⟨h.frame.setHq q x, h.hold⟩

theorem State.besideHeld.setClm (x : Ledger) : s.besideHeld { t with clm := x } := ⟨h.frame.setClm x, h.hold⟩

theorem State.besideHeld.setXpl (x : Xpl) : s.besideHeld (t.setXpl x) := ⟨h.frame.setXpl x, h.hold⟩

theorem State.besideHeld.setWkn (x : Wkn) : s.besideHeld { t with wkn := x } := ⟨h.frame.setWkn x, h.hold⟩

theorem State.besideHeld.setTpe (x : Tpe) : s.besideHeld { t with tpe := x } :=
  ⟨⟨h.frame.regs, h.frame.tables, h.frame.bytes, h.frame.sent, h.frame.tsy, h.frame.mono⟩, h.hold⟩

theorem State.besideHeld.freeCell (j : Nat) : s.besideHeld (t.freeCell j) := by
  unfold State.freeCell
  split
  · exact h
  · exact h.setPrv rfl rfl

/-- A DEADLINE drop counts at its route or layout. -/
theorem State.besideHeld.deadlineCount (c : Copy) : s.besideHeld (t.deadlineCount c) := by
  refine State.besideHeld.ist ?_ 0 (.inl (by decide))
  split
  · exact h.setPrv rfl rfl
  · exact h.setPrv rfl rfl
  · exact h

/-- A drop of any other cause counts elsewhere. -/
theorem State.besideHeld.dropCount (n : Nat) (c : Copy) {k : Cause} (other : k ≠ .deadline) : s.besideHeld (t.dropCount n c k) := by
  refine State.besideHeld.trace (State.besideHeld.draw ?_) _ _ _
  have privet : ∀ {a : Nat} (i : Nat), offDeadline a → s.besideHeld ((t.bump a 1 6).ist Reg.pgPRV_CTL i) := fun i ha =>
    (h.bump 1 6 ha).ist i (.inl (by decide))
  have ledger : ∀ {a : Nat} (i : Nat), 0x120580 ≤ a → s.besideHeld ((t.bump a 1 7).ist Reg.pgCLM i) := fun i ha =>
    (h.bump 1 7 (.inr (.inl ha))).ist i (.inr (.inl (by decide)))
  cases k with
  | isolated => exact ledger 6 (Nat.le_add_right_of_le (by decide))
  | disabled => exact privet 3 (.inr (.inr (by dsimp only [Reg.PRV_CTL_EDROP_DISABLED]; omega)))
  | format => exact privet 1 (.inr (.inr (by dsimp only [Reg.PRV_CTL_EDROP_FORMAT]; omega)))
  | xlate => exact ledger 5 (Nat.le_add_right_of_le (by decide))
  | auth => exact h
  | holdfull => exact privet 2 (.inr (.inr (by dsimp only [Reg.PRV_CTL_EDROP_HOLDFULL]; omega)))
  | deadline => exact absurd rfl other

/-! The Abort of a failed delivery part (R223, R225). -/

theorem State.besideHeld.agreeSync : s.besideHeld t.agreeSync :=
  h.ite (((h.setWkn _).ist (b := Reg.pgWKN) 0 (.inr (.inl (by decide)))).setXpl _)

theorem State.besideHeld.demand (n : Nat) : s.besideHeld (t.demand n) := by
  have asked := (((h.setPrv (p := { t.prv with demand := amPut t.prv.demand n t.now }) rfl rfl).setXpl
    { t.xpl with evY := { t.xpl.evY with q := t.xpl.evY.q ++ [(t.xpl.evY.seq, 9, n)], seq := (t.xpl.evY.seq + 1) % 8 } }).agreeSync)
  unfold State.demand
  split
  · exact h.ite asked
  · exact asked

omit h in
/-- No deadline is judged when a copy is made (R548). -/
theorem State.judge_ne_deadline {s : State} {c : Copy} {n : Nat} {ok : Bool} {k : Cause} (judged : s.judge c n ok = some k) :
    k ≠ .deadline := by
  rintro rfl
  unfold State.judge at judged
  split_ifs at judged <;> cases judged

theorem State.besideHeld.formCopy (n pc : Nat) (f : CanFrame) (o : Origin) (dl : Option Nat) (dig : Bool) :
    s.besideHeld (t.formCopy n pc f o dl dig).1 := by
  unfold State.formCopy
  dsimp only
  split
  · exact h.dropCount _ _ (State.judge_ne_deadline ‹_›)
  · refine State.besideHeld.demand ?_ n
    exact h.setPrv rfl rfl

theorem State.besideHeld.tpeAbort (etp : Bool) (n sa da pgn reason : Nat) : s.besideHeld (t.tpeAbort etp n sa da pgn reason) :=
  (((h.formCopy n _ _ _ _ _).bump (a := Reg.TPE_ABTX) 1 6 (.inr (.inl (by decide)))).ist (b := Reg.pgTPE) 2
    (.inr (.inl (by decide)))).wr _ (.inr (.inl (by decide)))

theorem State.besideHeld.partEnd (i p : Nat) (ok : Bool) : s.besideHeld (t.partEnd i p ok) := by
  unfold State.partEnd
  split
  · exact h
  · have noted := fun x => h.setTpe { t.tpe with ses := amPut t.tpe.ses i x }
    refine State.besideHeld.ite (State.besideHeld.setTpe (State.besideHeld.ite ?_ ?_) _) ?_
    · exact noted _
    · exact (noted _).bump 1 6 (.inr (.inl (by decide)))
    · exact noted _

theorem State.besideHeld.partFail (i p : Nat) : s.besideHeld (t.partFail i p) := by
  have counted := (h.bump (a := Reg.TPE_EGFAIL) 1 6 (.inr (.inl (by decide)))).ist (b := Reg.pgTPE) 4 (.inr (.inl (by decide)))
  unfold State.partFail
  split
  · exact h
  · dsimp only
    split
    · exact (counted.tpeAbort _ _ _ _ _ _).partEnd _ _ _
    · exact counted.partEnd _ _ _

theorem State.besideHeld.endDropped (c : Copy) : s.besideHeld (t.endCopy c .dropped) := by
  unfold State.endCopy
  split
  · exact h.setPrv rfl rfl
  · exact (h.setClm _).ite h
  · exact nomatch ‹CopyEnd.dropped = .sent _›
  · exact h.partFail _ _
  · exact h.ite (h.setHq _ _)
  · exact h.setHq _ _
  · exact h.setHq _ _
  · exact h

end

/-- An overdue held copy counts once as a DEADLINE drop, and the hold queues stay. -/
theorem State.dropCopy_deadline (s : State) {n : Nat} (hn : n < 24) (c : Copy) :
    (s.dropCopy n c .deadline).rd (Reg.PRV_CTL_EDROP_DEADLINE n) = s.rd (Reg.PRV_CTL_EDROP_DEADLINE n) + 1
      ∧ (s.dropCopy n c .deadline).heldOf n = s.heldOf n ∧ s.sameTables (s.dropCopy n c .deadline) := by
  have counted := State.besideHeld.refl (s.bump (Reg.PRV_CTL_EDROP_DEADLINE n) 1 6)
  have dropped : (s.bump (Reg.PRV_CTL_EDROP_DEADLINE n) 1 6).besideHeld (s.dropCopy n c .deadline) :=
    ((((counted.deadlineCount c).draw).trace _ _ _).freeCell c.job).endDropped c
  have on : ¬ offDeadline (Reg.PRV_CTL_EDROP_DEADLINE n) := by
    dsimp only [offDeadline, Reg.PRV_CTL_EDROP_DEADLINE]
    omega
  refine ⟨?_, ?_, (State.sameTables_of_tab (State.bump_tab _ _ _ _)).trans dropped.frame.tables⟩
  · rw [dropped.frame.regs _ on, s.rd_bumpPrv 6 (by dsimp only [Reg.PRV_CTL_EDROP_DEADLINE]; omega)
      (by dsimp only [Reg.PRV_CTL_EDROP_DEADLINE]; omega)]
  · rw [State.heldOf, dropped.hold, State.bump_prv, State.heldOf]

/-- Every copy of a list is dropped and counted. -/
theorem State.dropCopies_deadline {n : Nat} (hn : n < 24) (l : List Copy) (s : State) :
    (l.foldl (fun t c => t.dropCopy n c .deadline) s).rd (Reg.PRV_CTL_EDROP_DEADLINE n)
        = s.rd (Reg.PRV_CTL_EDROP_DEADLINE n) + BitVec.ofNat 32 l.length
      ∧ (l.foldl (fun t c => t.dropCopy n c .deadline) s).heldOf n = s.heldOf n
      ∧ s.sameTables (l.foldl (fun t c => t.dropCopy n c .deadline) s) := by
  induction l generalizing s with
  | nil => exact ⟨(BitVec.add_zero _).symm, rfl, fun _ => rfl⟩
  | cons c l ih =>
    obtain ⟨count, held, tables⟩ := s.dropCopy_deadline hn c
    obtain ⟨counts, helds, tabless⟩ := ih (s.dropCopy n c .deadline)
    refine ⟨?_, helds.trans held, tables.trans tabless⟩
    rw [List.foldl_cons, counts, count, List.length_cons, BitVec.ofNat_add, BitVec.add_assoc, BitVec.add_comm 1]
    rfl

/-- R152: every overdue held copy is dropped. -/
theorem heldCopyDeadlineDrop_overdue (s : State) (n : Fin 24) : Completes (.heldCopyDeadlineDrop n) s fun t =>
    t.heldOf n = (s.heldOf n).filter (fun c => !s.overdue c)
      ∧ t.rd (Reg.PRV_CTL_EDROP_DEADLINE n)
        = s.rd (Reg.PRV_CTL_EDROP_DEADLINE n) + BitVec.ofNat 32 ((s.heldOf n).filter s.overdue).length ∧ s.sameTables t := by
  obtain ⟨counts, helds, tables⟩ := State.dropCopies_deadline n.isLt ((s.heldOf n).filter s.overdue)
    (s.setHeld n ((s.heldOf n).filter fun c => !s.overdue c))
  exact .of_exec rfl ⟨helds.trans (amGetD_set_same _ _ _ _), counts, tables⟩

end Sys2Proof.Machine
end

section
/-! PROOFS. Supervision windows and route counters (R153, R154, R165), and the statement about frames on their way through Privet. -/
namespace Sys2Proof.Machine

/-! Windows (R153). -/

theorem exec_cycleWindowExpiry_due {s : State} {r : Nat} {w : CycWin} (window : amGet s.prv.cyc r = some w) (due : w.start + w.len ≤ s.now) :
    ∃ l, exec (.cycleWindowExpiry r) s = .next ((s.cycMiss r 1).setCyc l) := by
  change ∃ l, execCycleWindowExpiry r s = _
  simp only [execCycleWindowExpiry, window, if_pos due]
  exact ⟨_, rfl⟩

/-- R153: a window that ends without a job is a miss. -/
theorem cycleWindowExpiry_due {s : State} {r : Nat} {w : CycWin} (window : amGet s.prv.cyc r = some w) (due : w.start + w.len ≤ s.now) :
    Completes (.cycleWindowExpiry r) s fun t => amGetD 0 t.prv.rcnt (4 * r + 2) = (amGetD 0 s.prv.rcnt (4 * r + 2) + 1) % 2 ^ 32
      ∧ t.rd Reg.PRV_RTE_LASTCYC = BitVec.ofNat 32 (2 ^ 31 + r) ∧ t.rb (Reg.PG_IST Reg.pgPRV_RTE) 1 = true
      ∧ s.sameRegs t [Reg.PRV_RTE_LASTCYC, Reg.PG_IST Reg.pgPRV_RTE] ∧ s.sameTables t ∧ s.sameBytes t := by
  obtain ⟨l, ran⟩ := exec_cycleWindowExpiry_due window due
  have frame := ((State.confined.refl s (· ∈ [Reg.PRV_RTE_LASTCYC, Reg.PG_IST Reg.pgPRV_RTE])).cycMiss (by simp) (by simp) r 1).setCyc l
  refine .of_exec ran ⟨?count, ?last, ?event, frame.sameRegs, frame.tables, frame.bytes⟩
  case count =>
    rw [State.setCyc_prv, State.cycMiss_prv]
    exact amGetD_set_same _ _ _ _
  case last => rw [State.rd_setCyc, State.cycMiss, State.rd_ist_other _ _ _ _ (by decide), State.rd_wr_same]
  case event => rw [State.rb, State.rd_setCyc, ← State.rb, State.cycMiss, State.rb_ist_same _ _ _ (by decide)]

/-! Counters of a route (R165). -/

/-- The row of PRV_RTE_CIDX. -/
def cidxRow : RegRow := ⟨0x100, 4, 1, 4, 1, .rw, 0x7FFF, 0, 0, false⟩

/-- INDEX of CIDX is stored. -/
def State.cidxStored (s : State) (i : Initiator) (v : Word) : State :=
  (s.setUnlock i Reg.PRV_RTE_CIDX false).wr Reg.PRV_RTE_CIDX (cidxRow.written (s.rd Reg.PRV_RTE_CIDX) v)

theorem State.confined_cidxStored (s : State) (i : Initiator) (v : Word) : s.confined (s.cidxStored i v) fun _ => True :=
  ((State.confined.refl s _).setUnlock i _ false).wr _ trivial

theorem State.confined.cidxWrite {s t : State} (h : s.confined t fun _ => True) (v : Word) : s.confined (cidxWrite v t) fun _ => True :=
  ((h.wr _ trivial).wr _ trivial).wr _ trivial

theorem exec_routeCounterLatch_run {s : State} (i : Initiator) (v : Word) (run : s.pwr.held = false) :
    exec (.routeCounterLatch i v) s = .next (cidxWrite v (s.cidxStored i v)) := by
  change Host.Outcome.next (s.cmdWrite i Reg.PRV_RTE_CIDX v (cidxWrite v)) = _
  rw [State.cmdWrite_row (r := cidxRow) run (by decide) (by decide) (fun g => nomatch g) (fun g => nomatch g) rfl,
    State.store_direct _ _ _ (by decide) (.inl rfl) rfl (by decide)]
  rfl

/-- R165: a write of CIDX latches the counters of the named route. -/
theorem routeCounterLatch_run {s : State} {init : Initiator} {v : Word} (run : s.pwr.held = false) :
    Completes (.routeCounterLatch init v) s fun t =>
      t.rd Reg.PRV_RTE_CMATCH = BitVec.ofNat 32 (amGetD 0 s.prv.rcnt (4 * fld v 14 0))
      ∧ t.rd Reg.PRV_RTE_CDLDROP = BitVec.ofNat 32 (amGetD 0 s.prv.rcnt (4 * fld v 14 0 + 1))
      ∧ t.rd Reg.PRV_RTE_CCYCMISS = BitVec.ofNat 32 (amGetD 0 s.prv.rcnt (4 * fld v 14 0 + 2))
      ∧ t.prv = s.prv ∧ s.sameTables t ∧ s.sameBytes t := by
  have frame := (s.confined_cidxStored init v).cidxWrite v
  refine .of_exec (exec_routeCounterLatch_run init v run) ⟨?_, ?_, ?_, rfl, frame.tables, frame.bytes⟩
  · rw [cidxWrite, State.rd_wr_other _ _ (by decide), State.rd_wr_other _ _ (by decide), State.rd_wr_same]
    rfl
  · rw [cidxWrite, State.rd_wr_other _ _ (by decide), State.rd_wr_same]
    rfl
  · rw [cidxWrite, State.rd_wr_same]
    rfl

theorem exec_routeCounterClear_run {s : State} (i : Initiator) (v : Word) (run : s.pwr.held = false) :
    exec (.routeCounterClear i v) s = .next (cclrWrite v (s.setUnlock i Reg.PRV_RTE_CCLR false)) := by
  change Host.Outcome.next (s.cmdWrite i Reg.PRV_RTE_CCLR v (cclrWrite v)) = _
  rw [State.cmdWrite_row (r := ⟨0x110, 4, 1, 4, 1, .wo, 0x0, 0x0, 0x0, false⟩) run (by decide) (by decide) (fun g => nomatch g)
    (fun g => nomatch g) rfl]
  rfl

/-- The counters of all routes are cleared. -/
theorem cclrWrite_all {s : State} {v : Word} (all : bitOf v 31 = true) :
    cclrWrite v s = ({ s with prv := { s.prv with rcnt := [] } } : State).wr Reg.PRV_RTE_LASTCYC 0 := if_pos all

/-- The counters of the named route are cleared. -/
theorem cclrWrite_one {s : State} {v : Word} (one : bitOf v 31 = false) : cclrWrite v s
    = { s with prv := { s.prv with rcnt := amDelRange s.prv.rcnt (4 * fld v 14 0) (4 * fld v 14 0 + 3) } } :=
  if_neg (Bool.eq_false_iff.mp one)

theorem State.confined_cclrWrite (s : State) (v : Word) : s.confined (cclrWrite v s) (· ∈ [Reg.PRV_RTE_LASTCYC]) :=
  State.confined.ite (((State.confined.refl s _).setPrv (p := { s.prv with rcnt := [] }) rfl).wr _ (by simp))
    ((State.confined.refl s _).setPrv
      (p := { s.prv with rcnt := amDelRange s.prv.rcnt (4 * fld v 14 0) (4 * fld v 14 0 + 3) }) rfl)

/-- R165: a write of CCLR clears the counters of one route, or of all. -/
theorem routeCounterClear_run {s : State} {init : Initiator} {v : Word} (run : s.pwr.held = false) :
    Completes (.routeCounterClear init v) s fun t => (bitOf v 31 = true → t.prv.rcnt = [] ∧ t.rd Reg.PRV_RTE_LASTCYC = 0)
      ∧ (bitOf v 31 = false → (∀ k, k < 3 → amGetD 0 t.prv.rcnt (4 * fld v 14 0 + k) = 0)
        ∧ ∀ a, a < 4 * fld v 14 0 ∨ 4 * fld v 14 0 + 3 ≤ a → amGetD 0 t.prv.rcnt a = amGetD 0 s.prv.rcnt a)
      ∧ s.sameRegs t [Reg.PRV_RTE_LASTCYC] ∧ s.sameTables t ∧ s.sameBytes t := by
  have frame := ((State.confined.refl s _).setUnlock init Reg.PRV_RTE_CCLR false).trans
    ((s.setUnlock init Reg.PRV_RTE_CCLR false).confined_cclrWrite v)
  refine .of_exec (exec_routeCounterClear_run init v run) ⟨fun all => ?_, fun one => ⟨fun k hk => ?_, fun a out => ?_⟩, frame.sameRegs,
    frame.tables, frame.bytes⟩
  · rw [cclrWrite_all all]
    exact ⟨rfl, State.rd_wr_same _ _ _⟩
  · rw [cclrWrite_one one, amGetD, amGet_delRange, if_pos (by omega), Option.getD_none]
  · rw [cclrWrite_one one, amGetD, amGet_delRange, if_neg (by omega)]
    rfl

/-- Settles O24, command by command. -/
theorem privetAcceptsRoutesAndPlacesFrames : Obligations.PrivetAcceptsRoutesAndPlacesFrames := by
  intro s n j rest res init v
  refine ⟨fun on noClaim noTransport slot rx src undirected unhosted => ?accept, fun id k sl c i held copy ready eg =>
    ⟨copyEnqueue_disabled held copy ready eg, fun enabled active noneHeld credit soon free =>
      copyEnqueue_placed held copy ready eg enabled active noneHeld credit soon free⟩,
    fun _ _ => heldCopyPlacement_credit, heldCopyDeadlineDrop_overdue s n, fun _ _ => cycleWindowExpiry_due, routeCounterLatch_run,
    routeCounterClear_run⟩
  case accept =>
    have may : s.mayAccept n j rest res := ⟨on, noClaim, noTransport, slot, rx, src, undirected, unhosted⟩
    exact ⟨privetJobAccept_noMatch may, fun _ _ free => privetJobAccept_host may free, fun _ => privetJobAccept_verified may⟩

end Sys2Proof.Machine
end

section
/-! PROOFS. The value store and the layouts of the signal engine (R169-R172, R184-R194): what a slot and a layout's record read after a
write, and what triggers, buffer writes and sinks leave of the slots and of the tables. -/
namespace Sys2Proof.Machine

theorem fld_lt (w : Word) (hi lo : Nat) : fld w hi lo < 2 ^ (hi + 1 - lo) := Nat.mod_lt _ (Nat.two_pow_pos _)

/-! Slots and layouts. -/

@[simp] theorem State.slotOf_setSig_same (s : State) (i : Nat) (x : SigSlot) : (s.setSig i x).slotOf i = x := by
  simp only [State.slotOf, State.setSig_prv, amGet_put_same]

theorem State.slotOf_congr {s t : State} (h : t.prv = s.prv) (i : Nat) : t.slotOf i = s.slotOf i := by
  simp only [State.slotOf, h]

@[simp] theorem State.pduSt_setPdu_same (s : State) (l : Nat) (x : PduSt) : (s.setPdu l x).pduSt l = x := amGetD_set_same _ _ _ _

theorem State.layErr_tab (s : State) (cause ix : Nat) : (s.layErr cause ix).tab = s.tab := by
  rw [State.layErr, State.ist_tab, State.wr_tab, State.bump_tab]

theorem State.layErr_prv (s : State) (cause ix : Nat) : (s.layErr cause ix).prv = s.prv := by
  rw [State.layErr, State.ist_prv, State.wr_prv, State.bump_prv]

/-! Slots and tables under a step. -/

/-- From s to t neither a table word nor the engine's queue changes. -/
structure State.keepsQueue (s t : State) : Prop where
  tables : s.sameTables t
  queue : t.prv.sigQ = s.prv.sigQ

theorem State.keepsQueue.refl (s : State) : s.keepsQueue s := ⟨fun _ => rfl, rfl⟩

theorem State.keepsQueue.trans {s t u : State} (h : s.keepsQueue t) (g : t.keepsQueue u) : s.keepsQueue u :=
  ⟨h.tables.trans g.tables, g.queue.trans h.queue⟩

/-- From s to t no slot of the value store changes either. -/
structure State.keepsSlots (s t : State) : Prop where
  beside : s.keepsQueue t
  slots : ∀ i, t.slotOf i = s.slotOf i

theorem State.keepsSlots.refl (s : State) : s.keepsSlots s := ⟨.refl s, fun _ => rfl⟩

theorem State.keepsSlots.trans {s t u : State} (h : s.keepsSlots t) (g : t.keepsSlots u) : s.keepsSlots u :=
  ⟨h.beside.trans g.beside, fun i => (g.slots i).trans (h.slots i)⟩

/-- A step on the registers. -/
theorem State.keepsSlots.of_eq {s t : State} (tab : t.tab = s.tab) (prv : t.prv = s.prv) : s.keepsSlots t :=
  ⟨⟨State.sameTables_of_tab tab, congrArg Privet.sigQ prv⟩, State.slotOf_congr prv⟩

theorem State.keepsSlots.ite {s t u : State} {c : Prop} [Decidable c] (h : s.keepsSlots t) (g : s.keepsSlots u) :
    s.keepsSlots (if c then t else u) := by
  split
  · exact h
  · exact g

section
variable {s t : State} (h : s.keepsSlots t)
include h

/-- An update of Privet's record beside the slots and the queue. -/
theorem State.keepsSlots.setPrv {p : Privet} (slotv : p.slotv = t.prv.slotv) (reset : p.resetAt = t.prv.resetAt)
    (queue : p.sigQ = t.prv.sigQ) : s.keepsSlots { t with prv := p } :=
  h.trans ⟨⟨fun _ => rfl, queue⟩, fun i => by simp only [State.slotOf, slotv, reset]⟩

theorem State.keepsSlots.layErr (cause ix : Nat) : s.keepsSlots (t.layErr cause ix) :=
  h.trans (.of_eq (t.layErr_tab cause ix) (t.layErr_prv cause ix))

theorem State.keepsSlots.setPdu (l : Nat) (x : PduSt) : s.keepsSlots (t.setPdu l x) := h.setPrv rfl rfl rfl

theorem State.keepsSlots.vcountAdd (l : Nat) (up : Bool) : s.keepsSlots (t.vcountAdd l up) := h.setPdu l _

theorem State.keepsSlots.pduCount (l k : Nat) : s.keepsSlots (t.pduCount l k) := h.setPrv rfl rfl rfl

theorem State.keepsSlots.queueTrig (at_ l : Nat) (event : Bool) : s.keepsSlots (t.queueTrig at_ l event) := h.setPrv rfl rfl rfl

theorem State.keepsSlots.trigger (at_ l : Nat) (event : Bool) : s.keepsSlots (t.trigger at_ l event) := by
  refine h.ite (State.keepsSlots.ite ((h.layErr 7 l).ite (h.pduCount l 2)) ((h.queueTrig at_ l event).ite ?_))
  dsimp only
  split
  · exact (h.setPdu l _).pduCount l 1
  · split
    · exact h.queueTrig at_ l event
    · exact ((h.setPdu l _).pduCount l 1).ite (h.queueTrig at_ l event)

theorem State.keepsSlots.eventTrigger (l : Nat) (changed : Bool) : s.keepsSlots (t.eventTrigger l changed) :=
  (h.trigger _ l true).ite h

theorem State.keepsSlots.pdataBit (base p : Nat) (v : Bool) : s.keepsSlots (t.pdataBit base p v) := h.ite (h.setPrv rfl rfl rfl)

theorem State.keepsSlots.pdataField (base : Nat) (ps : List Nat) (raw : Nat) : s.keepsSlots (t.pdataField base ps raw) := by
  induction ps generalizing t raw with
  | nil => exact h
  | cons p r ih => exact ih (h.pdataBit base p _) _

theorem State.keepsSlots.pdataFields (l : Nat) (ws : List SinkWrite) :
    s.keepsSlots (ws.foldl (fun t w => t.pdataField (t.pduBase l) w.pos w.raw) t) := by
  induction ws generalizing t with
  | nil => exact h
  | cons w r ih => exact ih (h.pdataField _ _ _)

theorem State.keepsSlots.applyWrites (k : Nat) (ws : List SinkWrite) : s.keepsSlots (t.applyWrites k ws) := by
  induction k generalizing t ws with
  | zero => exact h
  | succ k ih =>
    cases ws with
    | nil => exact h
    | cons w r => exact ih ((h.pdataFields _ _).eventTrigger _ _) _

end

end Sys2Proof.Machine
end

section
/-! PROOFS. Unpacking, ageing and stale marks (R172-R187): a hand-off to one source, a source past its limit, and a mark that reaches the
sink of its source. -/
namespace Sys2Proof.Machine

/-- An item has left the engine's queue. -/
def State.sigTaken (s : State) (x : SigItem) : State := { s with prv := { s.prv with sigQ := s.prv.sigQ.erase x } }

theorem State.confined_sigTaken (s : State) (x : SigItem) (may : Nat → Prop) : s.confined (s.sigTaken x) may :=
  (State.confined.refl s may).setPrv rfl

section
variable {s t : State} {may : Nat → Prop} (h : s.confined t may)
include h

theorem State.confined.setSig (i : Nat) (x : SigSlot) : s.confined (t.setSig i x) may := h.setPrv rfl

theorem State.confined.setPdu (l : Nat) (x : PduSt) : s.confined (t.setPdu l x) may := h.setPrv rfl

theorem State.confined.pduCount (l k : Nat) : s.confined (t.pduCount l k) may := h.setPrv (p := (t.pduCount l k).prv) rfl

theorem State.confined.queueTrig (at_ l : Nat) (event : Bool) : s.confined (t.queueTrig at_ l event) may := h.setPrv rfl

end

/-! Hand-offs (R174). -/

theorem exec_signalHandoff_next {s : State} {h : Handoff} (next : sigNext s.prv.sigQ = some (.job h)) :
    exec .signalHandoff s = .next ((s.sigTaken (.job h)).sigJob h) := by
  change execSignalHandoff s = _
  simp only [execSignalHandoff, next]
  rfl

/-- A range of one descriptor does not leave the table. -/
theorem oneDescriptor (w : Word) {most : Nat} (room : 1 ≤ most) : min (min 1 most) (65536 - fld w 15 0) = 1 := by
  have := fld_lt w 15 0
  omega

/-- The hand-off h finds the engine on and a valid layout whose one source i is valid, has no sinks and a field at the bits ps of the
frame (R172, R174). -/
structure State.unpacks (s : State) (h : Handoff) (i : Nat) (ps : List Nat) : Prop where
  on : bitOf (s.cfg h.epoch Reg.PRV_SIG_CTL) 0 = true
  plan : s.pduOn h.ix (s.cf h.epoch Reg.CHIP_PLAN 1 0) = true
  receives : bitOf (s.pduw h.ix 1) 31 = false
  one : fld (s.pduw h.ix 6) 21 16 = 1
  named : i = fld (s.pduw h.ix 6) 15 0
  valid : s.sigOn i (s.cf h.epoch Reg.CHIP_PLAN 1 0) = true
  isSource : fld (s.sigw i 3) 30 29 = 0
  wide : 1 ≤ fld (s.sigw i 0) 19 14
  fits : fld (s.sigw i 0) 19 14 ≤ 36
  inside : posInside (fieldPos (bitOf (s.sigw i 0) 20) (fld (s.sigw i 0) 19 14) (fld (s.sigw i 0) 13 0)) h.job.frame.data.length = some ps
  noSinks : fld (s.sigw i 1) 19 16 = 0

theorem State.unpacks.sigTaken {s : State} {h : Handoff} {i : Nat} {ps : List Nat} (u : s.unpacks h i ps) (x : SigItem) :
    (s.sigTaken x).unpacks h i ps :=
  ⟨u.on, u.plan, u.receives, u.one, u.named, u.valid, u.isSource, u.wide, u.fits, u.inside, u.noSinks⟩

/-- A word of a descriptor reads from the tables alone. -/
theorem State.sigw_congr {s t : State} (tables : s.sameTables t) : t.sigw = s.sigw := funext₂ fun _ _ => tables _

/-- What source i reads from the bits ps of job j: the raw field, sign-extended to 36 bits for a signed source (R172, R174). -/
def State.fieldOf (s : State) (i : Nat) (j : Job) (ps : List Nat) : Nat :=
  if bitOf (s.sigw i 0) 21 then unsigned 36 (signed (fld (s.sigw i 0) 19 14) (rawField j.frame.data ps)) else rawField j.frame.data ps

theorem State.fieldOf_congr {s t : State} (tables : s.sameTables t) (i : Nat) (j : Job) (ps : List Nat) :
    t.fieldOf i j ps = s.fieldOf i j ps := by
  simp only [State.fieldOf, State.sigw_congr tables]

/-- The qualifier of that field: under the J1939 ranges where the source names them, else VALID (R176). -/
def State.fieldQual (s : State) (i : Nat) (j : Job) (ps : List Nat) : Nat :=
  if bitOf (s.sigw i 0) 22 && !bitOf (s.sigw i 0) 21 then
    rngQual (fld (s.sigw i 0) 19 14) (rawField j.frame.data ps) (bitOf (s.sigw i 0) 23)
  else 0

/-- The slot of source i after its update from job j (R169, R174). -/
def State.updatedSlot (s : State) (i : Nat) (j : Job) (ps : List Nat) : SigSlot :=
  { s.slotOf i with
    val := s.fieldOf i j ps, qual := s.fieldQual i j ps, upAt := j.valid, upd := true, gen := (s.slotOf i).gen + 1 }

theorem State.fanOut_noSinks {s : State} {i : Nat} (plan : Nat) (acc : List SinkWrite) (noSinks : fld (s.sigw i 1) 19 16 = 0) :
    s.fanOut i plan acc = (s, acc) := by
  simp [State.fanOut, noSinks, State.sinks]

/-- The state in which source i has written its slot and counted. -/
def State.unpacked (s : State) (i : Nat) (j : Job) (ps : List Nat) : State :=
  (s.setSig i (s.updatedSlot i j ps)).bump Reg.PRV_SIG_EXTR 1 5

theorem State.confined_unpacked (s : State) (i : Nat) (j : Job) (ps : List Nat) :
    s.confined (s.unpacked i j ps) (· ∈ [Reg.PRV_SIG_EXTR, Reg.PG_IST Reg.pgPRV_SIG]) :=
  ((State.confined.refl s _).setSig i _).bump 1 5 (by simp) (List.mem_cons_of_mem _ (List.mem_singleton.mpr rfl))

theorem State.unpacked_prv (s : State) (i : Nat) (j : Job) (ps : List Nat) :
    (s.unpacked i j ps).prv = { s.prv with slotv := amPut s.prv.slotv i (s.updatedSlot i j ps) } := by
  rw [State.unpacked, State.bump_prv, State.setSig_prv]

theorem State.slotOf_unpacked (s : State) (i : Nat) (j : Job) (ps : List Nat) : (s.unpacked i j ps).slotOf i = s.updatedSlot i j ps := by
  simp only [State.slotOf, State.unpacked_prv, amGet_put_same]

theorem State.rd_setSig (s : State) (i : Nat) (x : SigSlot) (a : Nat) : (s.setSig i x).rd a = s.rd a := rfl

theorem State.rd_sigTaken (s : State) (x : SigItem) (a : Nat) : (s.sigTaken x).rd a = s.rd a := rfl

theorem State.rd_unpacked_extr (s : State) (i : Nat) (j : Job) (ps : List Nat) :
    (s.unpacked i j ps).rd Reg.PRV_SIG_EXTR = s.rd Reg.PRV_SIG_EXTR + 1 := by
  rw [State.unpacked, State.rd_bump_one _ _ (by decide), State.rd_setSig]

/-- The source writes its slot, and no field of a layout. -/
theorem State.unpacks.source {s : State} {h : Handoff} {i : Nat} {ps : List Nat} (u : s.unpacks h i ps) (acc : List SinkWrite) :
    s.source i (s.cf h.epoch Reg.CHIP_PLAN 1 0) h.job acc = (s.unpacked i h.job ps, acc) := by
  have sane : ¬ (fld (s.sigw i 3) 30 29 ≠ 0 ∨ fld (s.sigw i 0) 19 14 = 0 ∨ 36 < fld (s.sigw i 0) 19 14) := by
    have := u.isSource
    have := u.wide
    have := u.fits
    omega
  have noSinks : fld ((s.unpacked i h.job ps).sigw i 1) 19 16 = 0 := by
    rw [State.sigw_congr (s.confined_unpacked i h.job ps).tables, u.noSinks]
  simp only [State.source, u.valid, Bool.not_true, Bool.false_eq_true, if_false, if_neg sane, u.inside]
  exact State.fanOut_noSinks _ acc noSinks

/-- The hand-off changes what its one source changes. -/
theorem State.unpacks.sigJob {s : State} {h : Handoff} {i : Nat} {ps : List Nat} (u : s.unpacks h i ps) :
    s.sigJob h = s.unpacked i h.job ps := by
  have source := u.source []
  rw [u.named] at source ⊢
  simp only [State.sigJob, u.on, u.plan, u.receives, u.one, oneDescriptor _ (show 1 ≤ 32 by decide), Bool.not_true, Bool.or_self,
    Bool.false_eq_true, if_false, Nat.lt_irrefl, State.sources, source, List.length_nil, State.applyWrites]

/-- R174: the engine's next hand-off updates its one source. -/
theorem signalHandoff_oneSource {s : State} {h : Handoff} {i : Nat} {ps : List Nat} (next : sigNext s.prv.sigQ = some (.job h))
    (u : s.unpacks h i ps) : Completes .signalHandoff s fun t => (t.slotOf i).val = s.fieldOf i h.job ps ∧ (t.slotOf i).upd = true
      ∧ (t.slotOf i).upAt = h.job.valid ∧ t.prv.sigQ = s.prv.sigQ.erase (.job h) ∧ t.rd Reg.PRV_SIG_EXTR = s.rd Reg.PRV_SIG_EXTR + 1
      ∧ s.sameRegs t [Reg.PRV_SIG_EXTR, Reg.PG_IST Reg.pgPRV_SIG] ∧ s.sameTables t ∧ s.sameBytes t := by
  have ran := exec_signalHandoff_next next
  rw [(u.sigTaken _).sigJob] at ran
  have frame := (s.confined_sigTaken (.job h) _).trans ((s.sigTaken (.job h)).confined_unpacked i h.job ps)
  refine .of_exec ran ⟨?value, ?updated, ?since, ?queue, ?count, frame.sameRegs, frame.tables, frame.bytes⟩
  case value => rw [State.slotOf_unpacked, State.updatedSlot, State.fieldOf_congr (s.confined_sigTaken _ fun _ => True).tables]
  case updated => rw [State.slotOf_unpacked, State.updatedSlot]
  case since => rw [State.slotOf_unpacked, State.updatedSlot]
  case queue => rw [State.unpacked_prv, State.sigTaken]
  case count => rw [State.rd_unpacked_extr, State.rd_sigTaken]

/-! Ageing (R185, R186). -/

/-- The slot of a source that turns stale (R186). -/
def State.staleSlot (s : State) (i : Nat) : SigSlot := { s.slotOf i with qual := 3, gen := (s.slotOf i).gen + 1 }

/-- A stale source is counted and named, with its event (R186). -/
def State.staleCounted (s : State) (i : Nat) : State :=
  (((s.setSig i (s.staleSlot i)).bump Reg.PRV_SIG_STALE 1 5).wr Reg.PRV_SIG_LASTSTALE (BitVec.ofNat 32 (2 ^ 31 + i))).ist Reg.pgPRV_SIG 0

theorem State.staleCounted_prv (s : State) (i : Nat) :
    (s.staleCounted i).prv = { s.prv with slotv := amPut s.prv.slotv i (s.staleSlot i) } := by
  rw [State.staleCounted, State.ist_prv, State.wr_prv, State.bump_prv, State.setSig_prv]

/-- The mark of source i is queued (R187). -/
def State.markQueued (s : State) (i gen : Nat) : State := { s with prv := { s.prv with sigQ := s.prv.sigQ ++ [.mark i gen] } }

theorem State.confined.markQueued {s t : State} {may : Nat → Prop} (h : s.confined t may) (i gen : Nat) :
    s.confined (t.markQueued i gen) may := h.setPrv rfl

theorem State.rd_markQueued (s : State) (i gen a : Nat) : (s.markQueued i gen).rd a = s.rd a := rfl

theorem exec_staleMark_due {s : State} {i : Fin 65536} (due : s.staleDue i = true) :
    exec (.staleMark i) s = .next ((s.staleCounted i).markQueued i ((s.slotOf i).gen + 1)) := by
  change execStaleMark i s = _
  simp only [execStaleMark, if_pos due, State.markQueued, State.staleCounted, State.staleSlot]

/-- R186: a source past its limit turns stale, is counted and queues its mark. -/
theorem staleMark_due {s : State} {i : Fin 65536} (due : s.staleDue i = true) : Completes (.staleMark i) s fun t =>
    (t.slotOf i).qual = 3 ∧ (t.slotOf i).val = (s.slotOf i).val ∧ t.prv.sigQ = s.prv.sigQ ++ [.mark i ((s.slotOf i).gen + 1)]
      ∧ t.rd Reg.PRV_SIG_STALE = s.rd Reg.PRV_SIG_STALE + 1 ∧ t.rd Reg.PRV_SIG_LASTSTALE = BitVec.ofNat 32 (2 ^ 31 + i)
      ∧ t.rb (Reg.PG_IST Reg.pgPRV_SIG) 0 = true
      ∧ s.sameRegs t [Reg.PRV_SIG_STALE, Reg.PRV_SIG_LASTSTALE, Reg.PG_IST Reg.pgPRV_SIG] ∧ s.sameTables t ∧ s.sameBytes t := by
  have counted : s.confined (s.staleCounted i) (· ∈ [Reg.PRV_SIG_STALE, Reg.PRV_SIG_LASTSTALE, Reg.PG_IST Reg.pgPRV_SIG]) :=
    ((((State.confined.refl s _).setSig i _).bump 1 5 (by simp) (by decide)).wr _ (by simp)).ist 0 (by simp)
  have frame := counted.markQueued i ((s.slotOf i).gen + 1)
  have slot : ((s.staleCounted i).markQueued i ((s.slotOf i).gen + 1)).slotOf i = s.staleSlot i := by
    simp only [State.slotOf, State.markQueued, State.staleCounted_prv, amGet_put_same]
  refine .of_exec (exec_staleMark_due due) ⟨?qualifier, ?value, ?queue, ?count, ?last, ?event, frame.sameRegs, frame.tables, frame.bytes⟩
  case qualifier => rw [slot, State.staleSlot]
  case value => rw [slot, State.staleSlot]
  case queue => rw [State.markQueued, State.staleCounted_prv]
  case count =>
    rw [State.rd_markQueued, State.staleCounted, State.rd_ist_other _ _ _ _ (by decide), State.rd_wr_other _ _ (by decide),
      State.rd_bump_one _ _ (by decide), State.rd_setSig]
  case last =>
    rw [State.rd_markQueued, State.staleCounted, State.rd_ist_other _ _ _ _ (by decide), State.rd_wr_same]
  case event => rw [State.rb, State.rd_markQueued, ← State.rb, State.staleCounted, State.rb_ist_same _ _ _ (by decide)]

/-! Sinks (R177-R183). -/

/-- A saturated result of sink i is counted and named, with its event (R178). -/
def State.satMarked (s : State) (i : Nat) : State :=
  ((s.bump Reg.PRV_SIG_SAT 1 5).wr Reg.PRV_SIG_LASTSAT (BitVec.ofNat 32 (2 ^ 31 + i))).ist Reg.pgPRV_SIG 1

theorem State.keepsSlots_satMarked (s : State) (i : Nat) : s.keepsSlots (s.satMarked i) :=
  .of_eq (by rw [State.satMarked, State.ist_tab, State.wr_tab, State.bump_tab])
    (by rw [State.satMarked, State.ist_prv, State.wr_prv, State.bump_prv])

/-- What sink i of layout lay leaves of its slot: the source's qualifier, updated (R182). -/
theorem State.sinkSlot_leaves (s : State) (i lay w : Nat) (sgn : Bool) (raw : Option Nat) (qual : Nat) :
    s.keepsQueue (s.sinkSlot i lay w sgn raw qual) ∧ ((s.sinkSlot i lay w sgn raw qual).slotOf i).qual = qual
      ∧ ((s.sinkSlot i lay w sgn raw qual).slotOf i).upd = true := by
  have written := fun x : SigSlot => State.keepsSlots.refl (s.setSig i x)
  have leaves : ∀ (x : SigSlot) (t : State), (s.setSig i x).keepsSlots t → s.keepsQueue t ∧ t.slotOf i = x := fun x t kept =>
    ⟨⟨kept.beside.tables, kept.beside.queue⟩, (kept.slots i).trans (s.slotOf_setSig_same i x)⟩
  obtain ⟨beside, slot⟩ := leaves _ (s.sinkSlot i lay w sgn raw qual)
    (((written _).vcountAdd lay true).ite (((written _).vcountAdd lay false).ite (written _)))
  exact ⟨beside, by rw [slot], by rw [slot]⟩

theorem State.keepsQueue_sink (s : State) (i plan swidth : Nat) (ssgn : Bool) (val qual : Nat) :
    s.keepsQueue (s.sink i plan swidth ssgn val qual).1 := by
  have kept := State.keepsSlots.refl s
  unfold State.sink
  dsimp only
  split
  · exact kept.beside
  · split
    · exact (kept.layErr 5 i).beside
    · split
      · exact (kept.layErr 6 i).beside
      · refine State.keepsQueue.trans ?_ (State.sinkSlot_leaves _ _ _ _ _ _ _).1
        split
        · exact (s.keepsSlots_satMarked i).beside
        · exact .refl s

theorem State.keepsQueue_sinks (plan swidth : Nat) (ssgn : Bool) (val qual k i : Nat) (acc : List SinkWrite) (s : State) :
    s.keepsQueue (s.sinks plan swidth ssgn val qual k i acc).1 := by
  induction k generalizing s i acc with
  | zero => exact .refl s
  | succ k ih =>
    have one := s.keepsQueue_sink i plan swidth ssgn val qual
    unfold State.sinks
    split <;> (rename_i sunk; rw [sunk] at one; exact State.keepsQueue.trans one (ih _ _ _))

theorem State.keepsQueue_fanOut (s : State) (i plan : Nat) (acc : List SinkWrite) : s.keepsQueue (s.fanOut i plan acc).1 := by
  unfold State.fanOut
  dsimp only
  split
  · exact ((State.keepsSlots.refl s).layErr 4 i).beside.trans (State.keepsQueue_sinks _ _ _ _ _ _ _ _ _)
  · exact State.keepsQueue_sinks _ _ _ _ _ _ _ _ s

/-- The source i of an update or mark has one sink, k, which is valid and whose field lies inside its layout, at the bits ps
(R177, R182). -/
structure State.feedsOne (s : State) (i k plan : Nat) (ps : List Nat) : Prop where
  one : fld (s.sigw i 1) 19 16 = 1
  named : k = fld (s.sigw i 1) 15 0
  narrow : fld (s.sigw i 0) 19 14 ≤ 18
  valid : s.sigOn k plan = true
  isSink : fld (s.sigw k 3) 30 29 = 1
  wide : 1 ≤ fld (s.sigw k 0) 19 14
  fits : fld (s.sigw k 0) 19 14 ≤ 36
  layout : s.pduOn (fld (s.sigw k 1) 31 18) plan = true
  transmits : bitOf (s.pduw (fld (s.sigw k 1) 31 18) 1) 31 = true
  inside : posInside (fieldPos (bitOf (s.sigw k 0) 20) (fld (s.sigw k 0) 19 14) (fld (s.sigw k 0) 13 0))
    (fld (s.pduw (fld (s.sigw k 1) 31 18) 1) 11 0) = some ps

theorem State.feedsOne.sigTaken {s : State} {i k plan : Nat} {ps : List Nat} (f : s.feedsOne i k plan ps) (x : SigItem) :
    (s.sigTaken x).feedsOne i k plan ps :=
  ⟨f.one, f.named, f.narrow, f.valid, f.isSink, f.wide, f.fits, f.layout, f.transmits, f.inside⟩

/-- The sink takes the source's qualifier. -/
theorem State.feedsOne.sink {s : State} {i k plan : Nat} {ps : List Nat} (f : s.feedsOne i k plan ps) (ssgn : Bool) (val qual : Nat) :
    ((s.sink k plan (fld (s.sigw i 0) 19 14) ssgn val qual).1.slotOf k).qual = qual
      ∧ ((s.sink k plan (fld (s.sigw i 0) 19 14) ssgn val qual).1.slotOf k).upd = true := by
  have sane : ¬ (fld (s.sigw k 3) 30 29 ≠ 1 ∨ fld (s.sigw k 0) 19 14 = 0 ∨ 36 < fld (s.sigw k 0) 19 14
      ∨ (!s.pduOn (fld (s.sigw k 1) 31 18) plan) = true ∨ (!bitOf (s.pduw (fld (s.sigw k 1) 31 18) 1) 31) = true
      ∨ (18 < fld (s.sigw i 0) 19 14 ∧ fld (s.sigw k 0) 19 14 < 19 ∧ (bitOf (s.sigw k 0) 22 && !bitOf (s.sigw k 0) 21) = true)) := by
    obtain ⟨-, -, narrow, -, isSink, wide, fits, layout, transmits, -⟩ := f
    rw [layout, transmits]
    simp only [Bool.not_true, Bool.false_eq_true, false_or]
    omega
  simp only [State.sink, f.valid, Bool.not_true, Bool.false_eq_true, if_false, if_neg sane, f.inside]
  exact (State.sinkSlot_leaves _ _ _ _ _ _ _).2

theorem State.sinks_one (s : State) (plan swidth : Nat) (ssgn : Bool) (val qual i : Nat) (acc : List SinkWrite) :
    (s.sinks plan swidth ssgn val qual 1 i acc).1 = (s.sink i plan swidth ssgn val qual).1 := by
  unfold State.sinks
  split <;> (rename_i sunk; rw [sunk]; rfl)

/-- A source with one sink hands its word to that sink. -/
theorem State.feedsOne.fanOut {s : State} {i k plan : Nat} {ps : List Nat} (f : s.feedsOne i k plan ps) (acc : List SinkWrite) :
    ((s.fanOut i plan acc).1.slotOf k).qual = (s.slotOf i).qual ∧ ((s.fanOut i plan acc).1.slotOf k).upd = true := by
  have handed : (s.fanOut i plan acc).1
      = (s.sink k plan (fld (s.sigw i 0) 19 14) (bitOf (s.sigw i 0) 21) (s.slotOf i).val (s.slotOf i).qual).1 := by
    simp only [State.fanOut, f.one, oneDescriptor _ (show 1 ≤ 8 by decide), Nat.lt_irrefl, if_false, State.sinks_one, f.named]
  rw [handed]
  exact f.sink _ _ _

/-! Stale marks (R187). -/

theorem exec_staleMarkPass_next {s : State} {i g : Nat} (next : sigNext s.prv.sigQ = some (.mark i g)) :
    exec .staleMarkPass s = .next ((s.sigTaken (.mark i g)).sigMark i g) := by
  change execStaleMarkPass s = _
  simp only [execStaleMarkPass, next]
  rfl

/-- A mark that an update replaced changes nothing. -/
theorem State.sigMark_replaced {s : State} {i g : Nat} (newer : (s.slotOf i).gen ≠ g) : s.sigMark i g = s :=
  if_neg fun stands => newer stands.1

/-- A mark that stands goes to the sinks of its source. -/
theorem State.sigMark_stands {s : State} {i g : Nat} (stands : (s.slotOf i).gen = g) (valid : bitOf (s.sigw i 3) 31 = true)
    (isSource : fld (s.sigw i 3) 30 29 = 0) : (s.fanOut i (s.rf Reg.CHIP_PLAN 1 0) []).1.keepsSlots (s.sigMark i g) := by
  rw [State.sigMark, if_pos ⟨stands, valid, isSource⟩]
  exact (State.keepsSlots.refl _).applyWrites _ _

/-- No mark changes a table or the queue. -/
theorem State.keepsQueue_sigMark (s : State) (i g : Nat) : s.keepsQueue (s.sigMark i g) := by
  unfold State.sigMark
  split
  · exact (s.keepsQueue_fanOut i _ []).trans ((State.keepsSlots.refl _).applyWrites _ _).beside
  · exact .refl s

/-- R187: the engine's next mark is taken; it gives its one sink the source's qualifier unless an update replaced it. -/
theorem staleMarkPass_next {s : State} {i g : Nat} (next : sigNext s.prv.sigQ = some (.mark i g)) :
    Completes .staleMarkPass s fun t => t.prv.sigQ = s.prv.sigQ.erase (.mark i g) ∧ s.sameTables t
      ∧ ((s.slotOf i).gen ≠ g → s.sameRegs t [] ∧ s.sameBytes t)
      ∧ ∀ k ps, (s.slotOf i).gen = g → bitOf (s.sigw i 3) 31 = true → fld (s.sigw i 3) 30 29 = 0 →
        s.feedsOne i k (s.rf Reg.CHIP_PLAN 1 0) ps → (t.slotOf k).qual = (s.slotOf i).qual ∧ (t.slotOf k).upd = true := by
  have taken := s.confined_sigTaken (.mark i g) (· ∈ [])
  have beside := (s.sigTaken (.mark i g)).keepsQueue_sigMark i g
  refine .of_exec (exec_staleMarkPass_next next) ⟨beside.queue, taken.tables.trans beside.tables, fun newer => ?replaced,
    fun k ps stands valid isSource feeds => ?sink⟩
  case replaced =>
    rw [State.sigMark_replaced (s := s.sigTaken (.mark i g)) newer]
    exact ⟨taken.sameRegs, taken.bytes⟩
  case sink =>
    rw [(State.sigMark_stands (s := s.sigTaken (.mark i g)) stands valid isSource).slots k]
    exact (feeds.sigTaken (.mark i g)).fanOut []

end Sys2Proof.Machine
end

section
/-! PROOFS. Triggers and formation (R189-R194): an instant of a periodic layout, a deferred send that is due, and the frame of a triggered
layout. -/
namespace Sys2Proof.Machine

/-! Instants (R189, R194). -/

/-- The instant that full time stands in is one of the periodic layout l, no step has passed over it, and it has not fired (R189). -/
structure State.fires (s : State) (l : Nat) : Prop where
  valid : bitOf (s.pduw l 15) 31 = true
  transmits : bitOf (s.pduw l 1) 31 = true
  periodic : fld (s.pduw l 4) 14 12 = 1 ∨ fld (s.pduw l 4) 14 12 = 4 ∨ fld (s.pduw l 4) 14 12 = 5
  period : fld (s.pduw l 3) 15 0 ≠ 0
  phase : s.tsy.full / 100000 % fld (s.pduw l 3) 15 0 = fld (s.pduw l 5) 31 16 % fld (s.pduw l 3) 15 0
  fresh : (s.pduSt l).tick ≠ some (s.tsy.full / 100000, s.rf Reg.TSY_STAT 15 8)
  reached : s.tsy.stepTo ≤ s.tsy.full / 100000 * 100000

/-- The instant is noted in the layout's record. -/
def State.ticked (s : State) (l : Nat) : State :=
  s.setPdu l { s.pduSt l with tick := some (s.tsy.full / 100000, s.rf Reg.TSY_STAT 15 8) }

theorem exec_periodicScheduleInstant_fires {s : State} {l : Fin 16384} (f : s.fires l) :
    exec (.periodicScheduleInstant l) s = .next ((s.ticked l).trigger (s.now - s.tsy.full % 100000) l false) := by
  change execPeriodicScheduleInstant l s = _
  obtain ⟨valid, transmits, periodic, period, phase, fresh, reached⟩ := f
  have kind : (fld (s.pduw l 4) 14 12 == 1 || fld (s.pduw l 4) 14 12 == 4 || fld (s.pduw l 4) 14 12 == 5) = true := by
    simpa [or_assoc] using periodic
  simp only [execPeriodicScheduleInstant, valid, transmits, kind, bne_iff_ne.mpr period, beq_iff_eq.mpr phase, bne_iff_ne.mpr fresh,
    decide_eq_true reached, Bool.and_self, if_true, State.ticked]

/-- A trigger of a sound layout that sends and is not held back is queued (R190, R194). -/
theorem State.trigger_queued {s : State} {l : Nat} (at_ : Nat) (event : Bool) (on : s.pduOn l (s.rf Reg.CHIP_PLAN 1 0) = true)
    (enabled : s.rb Reg.PRV_PDU_CTL 0 = true) (sound : s.pduBad l = false) (free : (s.pduSt l).defer = none)
    (first : (s.pduSt l).last = none) : s.trigger at_ l event = s.queueTrig at_ l event := by
  simp only [State.trigger, on, enabled, sound, free, first, Bool.not_true, Bool.and_false, Bool.false_eq_true, if_false]

/-- R189, R193: the instant queues one trigger of its own local time. -/
theorem periodicScheduleInstant_fires {s : State} {l : Fin 16384} (f : s.fires l) (enabled : s.rb Reg.PRV_PDU_CTL 0 = true)
    (on : s.pduOn l (s.rf Reg.CHIP_PLAN 1 0) = true) (sound : s.pduBad l = false) (free : (s.pduSt l).defer = none)
    (first : (s.pduSt l).last = none) : Completes (.periodicScheduleInstant l) s fun t =>
      t.prv.trigQ = placeTrig (s.now - s.tsy.full % 100000, (l : Nat), false) s.prv.trigQ
      ∧ (t.pduSt l).tick = some (s.tsy.full / 100000, s.rf Reg.TSY_STAT 15 8) ∧ s.sameRegs t [] ∧ s.sameTables t ∧ s.sameBytes t := by
  have noted : (s.ticked l).pduSt l = { s.pduSt l with tick := some (s.tsy.full / 100000, s.rf Reg.TSY_STAT 15 8) } :=
    s.pduSt_setPdu_same l _
  have ran := exec_periodicScheduleInstant_fires f
  rw [State.trigger_queued (s := s.ticked l) _ false on enabled sound (by rw [noted]; exact free) (by rw [noted]; exact first)] at ran
  have frame := ((State.confined.refl s (· ∈ [])).setPdu l
    { s.pduSt l with tick := some (s.tsy.full / 100000, s.rf Reg.TSY_STAT 15 8) }).queueTrig (s.now - s.tsy.full % 100000) l false
  exact .of_exec ran ⟨rfl, congrArg PduSt.tick noted, frame.sameRegs, frame.tables, frame.bytes⟩

/-! Deferred sends (R190). -/

theorem exec_minivDeferredSend_due {s : State} {l : Fin 16384} {due : Nat} {ev : Bool} (deferred : (s.pduSt l).defer = some (due, ev))
    (reached : due ≤ s.now) :
    exec (.minivDeferredSend l) s = .next ((s.setPdu l { s.pduSt l with defer := none }).queueTrig due l ev) := by
  change execMinivDeferredSend l s = _
  simp only [execMinivDeferredSend, deferred, if_pos reached]

/-- R190, R193: a deferred send queues the trigger of the instant it was due. -/
theorem minivDeferredSend_due {s : State} {l : Fin 16384} {due : Nat} {ev : Bool} (deferred : (s.pduSt l).defer = some (due, ev))
    (reached : due ≤ s.now) : Completes (.minivDeferredSend l) s fun t =>
      t.prv.trigQ = placeTrig (due, (l : Nat), ev) s.prv.trigQ ∧ (t.pduSt l).defer = none
      ∧ s.sameRegs t [] ∧ s.sameTables t ∧ s.sameBytes t := by
  have frame := ((State.confined.refl s (· ∈ [])).setPdu l { s.pduSt l with defer := none }).queueTrig due l ev
  exact .of_exec (exec_minivDeferredSend_due deferred reached) ⟨rfl, congrArg PduSt.defer (s.pduSt_setPdu_same l _), frame.sameRegs,
    frame.tables, frame.bytes⟩

/-! Copies of a formed frame (R143, R192). -/

/-- From s to t the counters, records and triggers of the layouts stay, and every table and memory. -/
structure State.besideLayouts (s t : State) : Prop where
  frame : s.confined t fun _ => True
  counts : t.prv.pcnt = s.prv.pcnt
  records : t.prv.pdu = s.prv.pdu
  triggers : t.prv.trigQ = s.prv.trigQ

theorem State.besideLayouts.refl (s : State) : s.besideLayouts s := ⟨.refl s _, rfl, rfl, rfl⟩

/-- A step that changes the time of a segment's last demand, if anything, of Privet's record. -/
theorem State.besideLayouts.demanded {s t u : State} (h : s.besideLayouts t) {d : List (Nat × Nat)} (beside : t.besideCan u)
    (prv : u.prv = { t.prv with demand := d }) : s.besideLayouts u :=
  ⟨h.frame.besideCan beside fun _ _ => trivial, (congrArg Privet.pcnt prv).trans h.counts, (congrArg Privet.pdu prv).trans h.records,
    (congrArg Privet.trigQ prv).trans h.triggers⟩

/-- A drop for a cause that is judged when a copy is made counts at no layout. -/
theorem State.dropCount_prv (s : State) (n : Nat) (c : Copy) {k : Cause} (other : k ≠ .deadline) : (s.dropCount n c k).prv = s.prv := by
  simp only [State.dropCount, State.traceDrop, State.draw, State.trace_prv]
  cases k with
  | auth => rfl
  | deadline => exact absurd rfl other
  | isolated | disabled | format | xlate | holdfull => simp only [State.ist_prv, State.bump_prv]

theorem State.agreeSync_prv (s : State) : s.agreeSync.prv = s.prv := by
  unfold State.agreeSync
  dsimp only
  split
  · rfl
  · exact State.ist_prv _ _ _

theorem State.demand_prv (s : State) (n : Nat) : ∃ d, (s.demand n).prv = { s.prv with demand := d } := by
  unfold State.demand
  split
  · split
    · exact ⟨s.prv.demand, rfl⟩
    · exact ⟨_, State.agreeSync_prv _⟩
  · exact ⟨_, State.agreeSync_prv _⟩

section
variable {s t : State} (h : s.besideLayouts t)
include h

theorem State.besideLayouts.dropCount (n : Nat) (c : Copy) {k : Cause} (other : k ≠ .deadline) : s.besideLayouts (t.dropCount n c k) :=
  h.demanded (d := t.prv.demand) ((State.besideCan.refl t).dropCount n c k) (t.dropCount_prv n c other)

theorem State.besideLayouts.demand (n : Nat) : s.besideLayouts (t.demand n) := by
  obtain ⟨d, asked⟩ := t.demand_prv n
  exact h.demanded ((State.besideCan.refl t).demand n) asked

theorem State.besideLayouts.pduCopies (l id : Nat) (f : CanFrame) (ns : List Nat) (acc : List Copy) :
    s.besideLayouts (t.pduCopies l id f ns acc).1 := by
  induction ns generalizing t acc with
  | nil => exact h
  | cons n rest ih =>
    unfold State.pduCopies
    dsimp only
    split
    · exact ih (h.dropCount _ _ (State.judge_ne_deadline ‹_›)) _
    · exact ih (h.demand n) _

/-- An update of the jobs and cells of Privet. -/
theorem State.besideLayouts.setJobs (id : Nat) (slots : List (Nat × Slot)) (cells : List (Nat × Cells)) :
    s.besideLayouts { t with prv := { t.prv with nextJob := id, slots := slots, cells := cells } } :=
  ⟨h.frame.setPrv rfl, h.counts, h.records, h.triggers⟩

theorem State.besideLayouts.ite {u : State} {p : Prop} [Decidable p] (g : s.besideLayouts u) : s.besideLayouts (if p then t else u) := by
  split
  · exact h
  · exact g

end

/-! Formation (R192, R193). -/

/-- The layout has sent now, and its frame is counted. -/
def State.sentNow (s : State) (l : Nat) : State := (s.setPdu l { s.pduSt l with last := some s.now }).pduCount l 0

theorem State.confined_sentNow (s : State) (l : Nat) (may : Nat → Prop) : s.confined (s.sentNow l) may :=
  ((State.confined.refl s may).setPdu l _).pduCount l 0

theorem State.pduSt_sentNow (s : State) (l : Nat) : (s.sentNow l).pduSt l = { s.pduSt l with last := some s.now } :=
  s.pduSt_setPdu_same l _

theorem State.pcnt_sentNow (s : State) (l : Nat) :
    amGetD 0 (s.sentNow l).prv.pcnt (4 * l) = (amGetD 0 s.prv.pcnt (4 * l) + 1) % 2 ^ 32 := amGetD_set_same _ _ _ _

/-- Formation changes the record and the counters of the layout as sending does. -/
theorem State.besideLayouts_pduForm (s : State) (l : Nat) : (s.sentNow l).besideLayouts (s.pduForm l) := by
  have copied := (State.besideLayouts.refl (s.sentNow l)).pduCopies l s.prv.nextJob (s.pduFrame l) (setBits (fld (s.pduw l 2) 23 0) 24) []
  exact (copied.setJobs _ _ _).ite (copied.setJobs _ _ _)

/-- A layout that sends to no controller sends to its host queue (R192). -/
theorem State.slot_pduForm_host {s : State} {l : Nat} (alone : fld (s.pduw l 2) 23 0 = 0) (host : bitOf (s.pduw l 1) 29 = true) :
    ∃ sl c, amGet (s.pduForm l).prv.slots s.prv.nextJob = some sl ∧ sl.copies = [c] ∧ c.frame = s.pduFrame l
      ∧ c.eg = .host (fld (s.pduw l 1) 28 23) := by
  have noCan : setBits (fld ((s.sentNow l).pduw l 2) 23 0) 24 = [] := by
    rw [show (s.sentNow l).pduw l 2 = s.pduw l 2 from rfl, alone]
    decide
  have toHost : bitOf ((s.sentNow l).pduw l 1) 29 = true := host
  rw [State.sentNow] at noCan toHost
  simp only [State.pduForm, noCan, State.pduCopies, toHost, if_true, List.nil_append, List.isEmpty_cons, Bool.false_eq_true, if_false,
    amGet_put_same]
  exact ⟨_, _, rfl, rfl, rfl, rfl⟩

/-- The oldest trigger has left the queue. -/
def State.trigTaken (s : State) (rest : List (Nat × Nat × Bool)) : State := { s with prv := { s.prv with trigQ := rest } }

theorem exec_pduFrameFormation_event {s : State} {at_ l : Nat} {rest : List (Nat × Nat × Bool)}
    (oldest : s.prv.trigQ = (at_, l, true) :: rest) (on : s.pduOn l (s.rf Reg.CHIP_PLAN 1 0) = true)
    (transmits : bitOf (s.pduw l 1) 31 = true) (sound : s.pduBad l = false) :
    exec .pduFrameFormation s = .next ((s.trigTaken rest).pduForm l) := by
  change execPduFrameFormation s = _
  have stays : (!(s.trigTaken rest).pduOn l ((s.trigTaken rest).rf Reg.CHIP_PLAN 1 0) || !bitOf ((s.trigTaken rest).pduw l 1) 31) = false :=
    Bool.or_eq_false_iff.mpr ⟨congrArg not on, congrArg not transmits⟩
  have forms : (s.trigTaken rest).pduBad l = false := sound
  rw [State.trigTaken] at stays forms
  simp only [execPduFrameFormation, oldest, stays, forms, Bool.not_true, Bool.false_and, Bool.false_eq_true, if_false, State.trigTaken]

/-- R192, R193: formation for the oldest trigger counts at its layout and, to a host queue alone, makes one copy. -/
theorem pduFrameFormation_event {s : State} {at_ l : Nat} {rest : List (Nat × Nat × Bool)}
    (oldest : s.prv.trigQ = (at_, l, true) :: rest) (on : s.pduOn l (s.rf Reg.CHIP_PLAN 1 0) = true)
    (transmits : bitOf (s.pduw l 1) 31 = true) (sound : s.pduBad l = false) : Completes .pduFrameFormation s fun t =>
      t.prv.trigQ = rest ∧ amGetD 0 t.prv.pcnt (4 * l) = (amGetD 0 s.prv.pcnt (4 * l) + 1) % 2 ^ 32
      ∧ (t.pduSt l).last = some s.now ∧ s.sameTables t ∧ s.sameBytes t
      ∧ (fld (s.pduw l 2) 23 0 = 0 → bitOf (s.pduw l 1) 29 = true → ∃ sl c, amGet t.prv.slots s.prv.nextJob = some sl
        ∧ sl.copies = [c] ∧ c.frame = s.pduFrame l ∧ c.eg = .host (fld (s.pduw l 1) 28 23)) := by
  have formed := (s.trigTaken rest).besideLayouts_pduForm l
  have frame := (((State.confined.refl s _).setPrv (p := (s.trigTaken rest).prv) rfl).trans ((s.trigTaken rest).confined_sentNow l _)).trans
    formed.frame
  refine .of_exec (exec_pduFrameFormation_event oldest on transmits sound) ⟨formed.triggers, ?count, ?last, frame.tables, frame.bytes,
    fun alone host => ?copy⟩
  case count => rw [formed.counts, State.pcnt_sentNow]; rfl
  case last => rw [State.pduSt, formed.records, ← State.pduSt, State.pduSt_sentNow]; rfl
  case copy => exact State.slot_pduForm_host (s := s.trigTaken rest) alone host

end Sys2Proof.Machine
end

section
/-! PROOFS. The latches and the clear of the signal engine and the formation unit (R197, R198), and the statement about signals. -/
namespace Sys2Proof.Machine

/-! Writes of an index. -/

/-- The index of a latch is stored. -/
def State.indexStored (s : State) (i : Initiator) (a : Nat) (r : RegRow) (v : Word) : State :=
  (s.setUnlock i a false).wr a (r.written (s.rd a) v)

theorem State.confined_indexStored (s : State) (i : Initiator) (a : Nat) (r : RegRow) (v : Word) :
    s.confined (s.indexStored i a r v) fun _ => True :=
  ((State.confined.refl s _).setUnlock i a false).wr _ trivial

theorem State.indexStored_prv (s : State) (i : Initiator) (a : Nat) (r : RegRow) (v : Word) : (s.indexStored i a r v).prv = s.prv := by
  rw [State.indexStored, State.wr_prv, State.setUnlock_prv]

theorem State.slotOf_indexStored (s : State) (i : Initiator) (a : Nat) (r : RegRow) (v : Word) (k : Nat) :
    (s.indexStored i a r v).slotOf k = s.slotOf k := State.slotOf_congr (s.indexStored_prv i a r v) k

/-- A write of a plain register stores it and has its effect. -/
theorem State.cmdWrite_index {s : State} (i : Initiator) {a : Nat} {r : RegRow} (v : Word) {f : State → State} (run : s.pwr.held = false)
    (row : rowAt a = some r) (o : 0x100 ≤ a % 0x1000) (acc : r.acc = .rw) (one : r.w64 = false) (low : isHigh a = false)
    (keep : (s.setUnlock i a false).discards i a v = false) : s.cmdWrite i a v f = f (s.indexStored i a r v) := by
  rw [State.cmdWrite_row run row o (fun g => nomatch acc.symm.trans g) (fun g => nomatch acc.symm.trans g) keep,
    State.store_direct _ _ _ (by omega) (.inl acc) one low, State.rd_setUnlock, State.indexStored]

/-! The slot latch (R197). -/

/-- The row of PRV_SIG_RIDX. -/
def ridxRow : RegRow := ⟨0x104, 4, 1, 4, 1, .rw, 0xFFFF, 0, 0, false⟩

theorem State.confined.ridxWrite {s t : State} (h : s.confined t fun _ => True) (v : Word) : s.confined (ridxWrite v t) fun _ => True :=
  ((h.wr _ trivial).wr _ trivial).wr _ trivial

theorem State.ridxWrite_prv (s : State) (v : Word) : (ridxWrite v s).prv = s.prv := by
  rw [ridxWrite, State.wr_prv, State.wr_prv, State.wr_prv]

/-- The low word of a slot as it is latched: UPD, CNTD, the qualifier and the value's low 18 bits (R197). -/
def SigSlot.lowWord (x : SigSlot) : Word :=
  BitVec.ofNat 32 (x.upd.toNat * 2 ^ 31 + x.cntd.toNat * 2 ^ 30 + x.qual * 2 ^ 18 + x.val % 2 ^ 18)

theorem State.rd_ridxWrite_rlo (s : State) (v : Word) : (ridxWrite v s).rd Reg.PRV_SIG_RLO = (s.slotOf (fld v 15 0)).lowWord := by
  rw [ridxWrite, State.rd_wr_other _ _ (by decide), State.rd_wr_other _ _ (by decide), State.rd_wr_same, SigSlot.lowWord]

theorem exec_signalSlotLatch_run {s : State} (i : Initiator) (v : Word) (run : s.pwr.held = false) :
    exec (.signalSlotLatch i v) s = .next (ridxWrite v (s.indexStored i Reg.PRV_SIG_RIDX ridxRow v)) :=
  congrArg Host.Outcome.next (State.cmdWrite_index i v run (by decide) (by decide) rfl rfl (by decide) rfl)

/-- R197: a write of RIDX latches the named slot. -/
theorem signalSlotLatch_run {s : State} {init : Initiator} {v : Word} (run : s.pwr.held = false) :
    Completes (.signalSlotLatch init v) s fun t =>
      t.rd Reg.PRV_SIG_RLO = (s.slotOf (fld v 15 0)).lowWord
      ∧ t.prv = s.prv ∧ s.sameTables t ∧ s.sameBytes t := by
  have frame := (s.confined_indexStored init Reg.PRV_SIG_RIDX ridxRow v).ridxWrite v
  refine .of_exec (exec_signalSlotLatch_run init v run) ⟨?low, ?prv, frame.tables, frame.bytes⟩
  case low => rw [State.rd_ridxWrite_rlo, State.slotOf_indexStored]
  case prv => rw [State.ridxWrite_prv, State.indexStored_prv]

/-! The counters of a layout (R198). -/

/-- The row of PRV_PDU_CIDX. -/
def pduCidxRow : RegRow := ⟨0x104, 4, 1, 4, 1, .rw, 0x3FFF, 0, 0, false⟩

theorem exec_pduCounterLatch_run {s : State} (i : Initiator) (v : Word) (run : s.pwr.held = false) :
    exec (.pduCounterLatch i v) s = .next (pduCidxWrite v (s.indexStored i Reg.PRV_PDU_CIDX pduCidxRow v)) :=
  congrArg Host.Outcome.next (State.cmdWrite_index i v run (by decide) (by decide) rfl rfl (by decide) rfl)

theorem State.confined.pduCidxWrite {s t : State} (h : s.confined t fun _ => True) (v : Word) :
    s.confined (pduCidxWrite v t) fun _ => True :=
  ((((h.wr _ trivial).wr _ trivial).wr _ trivial).wr _ trivial).wr _ trivial

theorem State.pduCidxWrite_prv (s : State) (v : Word) : (pduCidxWrite v s).prv = s.prv := by
  rw [pduCidxWrite, State.wr_prv, State.wr_prv, State.wr_prv, State.wr_prv, State.wr_prv]

/-- R198: a write of CIDX latches the counters and VCOUNT of the named layout. -/
theorem pduCounterLatch_run {s : State} {init : Initiator} {v : Word} (run : s.pwr.held = false) :
    Completes (.pduCounterLatch init v) s fun t =>
      t.rd Reg.PRV_PDU_CSENT = BitVec.ofNat 32 (amGetD 0 s.prv.pcnt (4 * fld v 13 0))
      ∧ t.rd Reg.PRV_PDU_CDLDROP = BitVec.ofNat 32 (amGetD 0 s.prv.pcnt (4 * fld v 13 0 + 3))
      ∧ t.rd Reg.PRV_PDU_VSTAT = BitVec.ofNat 32 (s.pduSt (fld v 13 0)).vcount ∧ t.prv = s.prv ∧ s.sameTables t ∧ s.sameBytes t := by
  have frame := (s.confined_indexStored init Reg.PRV_PDU_CIDX pduCidxRow v).pduCidxWrite v
  refine .of_exec (exec_pduCounterLatch_run init v run) ⟨?sent, ?dropped, ?valid, ?prv, frame.tables, frame.bytes⟩
  case sent =>
    rw [pduCidxWrite, State.rd_wr_other _ _ (by decide), State.rd_wr_other _ _ (by decide), State.rd_wr_other _ _ (by decide),
      State.rd_wr_other _ _ (by decide), State.rd_wr_same, State.indexStored_prv]
    rfl
  case dropped => rw [pduCidxWrite, State.rd_wr_other _ _ (by decide), State.rd_wr_same, State.indexStored_prv]
  case valid =>
    rw [pduCidxWrite, State.rd_wr_same]
    simp only [State.pduSt, State.wr_prv, State.indexStored_prv]
  case prv => rw [State.pduCidxWrite_prv, State.indexStored_prv]

theorem exec_pduCounterClear_run {s : State} (i : Initiator) (v : Word) (run : s.pwr.held = false) :
    exec (.pduCounterClear i v) s = .next (pduCclrWrite v (s.setUnlock i Reg.PRV_PDU_CCLR false)) := by
  change Host.Outcome.next (s.cmdWrite i Reg.PRV_PDU_CCLR v (pduCclrWrite v)) = _
  rw [State.cmdWrite_row (r := ⟨0x118, 4, 1, 4, 1, .wo, 0x0, 0x0, 0x0, false⟩) run (by decide) (by decide) (fun g => nomatch g)
    (fun g => nomatch g) rfl]
  rfl

/-- The counters of all layouts are cleared. -/
theorem pduCclrWrite_all {s : State} {v : Word} (all : bitOf v 31 = true) :
    pduCclrWrite v s = { s with prv := { s.prv with pcnt := [] } } := if_pos all

/-- The counters of the named layout are cleared. -/
theorem pduCclrWrite_one {s : State} {v : Word} (one : bitOf v 31 = false) : pduCclrWrite v s
    = { s with prv := { s.prv with pcnt := amDelRange s.prv.pcnt (4 * fld v 13 0) (4 * fld v 13 0 + 4) } } :=
  if_neg (Bool.eq_false_iff.mp one)

theorem State.confined.pduCclrWrite {s t : State} {may : Nat → Prop} (h : s.confined t may) (v : Word) :
    s.confined (pduCclrWrite v t) may :=
  State.confined.ite (h.setPrv (p := { t.prv with pcnt := [] }) rfl)
    (h.setPrv (p := { t.prv with pcnt := amDelRange t.prv.pcnt (4 * fld v 13 0) (4 * fld v 13 0 + 4) }) rfl)

/-- R198: a write of CCLR clears the counters of one layout, or of all. -/
theorem pduCounterClear_run {s : State} {init : Initiator} {v : Word} (run : s.pwr.held = false) :
    Completes (.pduCounterClear init v) s fun t => (bitOf v 31 = true → t.prv.pcnt = [])
      ∧ (bitOf v 31 = false → (∀ k, k < 4 → amGetD 0 t.prv.pcnt (4 * fld v 13 0 + k) = 0)
        ∧ ∀ a, a < 4 * fld v 13 0 ∨ 4 * fld v 13 0 + 4 ≤ a → amGetD 0 t.prv.pcnt a = amGetD 0 s.prv.pcnt a)
      ∧ s.sameRegs t [] ∧ s.sameTables t ∧ s.sameBytes t := by
  have frame := ((State.confined.refl s (· ∈ [])).setUnlock init Reg.PRV_PDU_CCLR false).pduCclrWrite v
  refine .of_exec (exec_pduCounterClear_run init v run) ⟨fun all => ?_, fun one => ⟨fun k hk => ?_, fun a out => ?_⟩, frame.sameRegs,
    frame.tables, frame.bytes⟩
  · rw [pduCclrWrite_all all]
  · rw [pduCclrWrite_one one, amGetD, amGet_delRange, if_pos (by omega), Option.getD_none]
  · rw [pduCclrWrite_one one, amGetD, amGet_delRange, if_neg (by omega)]
    rfl

/-- Settles O26, command by command. -/
theorem signalsAreUnpackedAgedAndFormed : Obligations.SignalsAreUnpackedAgedAndFormed := by
  intro s init v
  refine ⟨?unpack, fun _ => staleMark_due, ?mark, ?periodic, fun _ _ _ => minivDeferredSend_due, fun _ _ _ => pduFrameFormation_event,
    signalSlotLatch_run, pduCounterLatch_run, pduCounterClear_run⟩
  case unpack =>
    rintro h i _ ps next on plan receives one named valid isSource rfl wide fits inside noSinks
    exact signalHandoff_oneSource next ⟨on, plan, receives, one, named, valid, isSource, wide, fits, inside, noSinks⟩
  case mark =>
    intro i g next
    obtain ⟨t, ran, queue, tables, replaced, sunk⟩ := staleMarkPass_next next
    refine ⟨t, ran, queue, tables, replaced, ?_⟩
    intro k ps stands live isSource one named narrow valid isSink wide fits layout transmits inside
    exact sunk k ps stands live isSource ⟨one, named, narrow, valid, isSink, wide, fits, layout, transmits, inside⟩
  case periodic =>
    intro l valid transmits periodic period phase fresh enabled reached on sound free first
    exact periodicScheduleInstant_fires ⟨valid, transmits, periodic, period, phase, fresh, reached⟩ enabled on sound free first

end Sys2Proof.Machine
end

section
/-! PROOFS. The claim ledger's frames (R143, R207, R210, R213): what forming one leaves of the state, and where it enters Privet. -/
namespace Sys2Proof.Machine

/-- A register that counts or reports a frame the device forms: of Privet, of the observation port or of the wake sequencer. -/
abbrev formRegs (a : Nat) : Prop := pageBase a ∈ [Reg.pgPRV_CTL, Reg.pgOBS, Reg.pgWKN]

/-- No register of the ledger's own page counts or reports a formed frame. -/
theorem clmPage_not_formRegs {a : Nat} (lo : 0x125000 ≤ a) (hi : a < 0x126000) : ¬ formRegs a := by
  simp only [formRegs, List.mem_cons, List.not_mem_nil, or_false, pageBase, Reg.pgPRV_CTL, Reg.pgOBS, Reg.pgWKN]
  omega

/-! Turns at the ledger (R201). -/

/-- With no job waiting for its turn at the ledger, none is routed. -/
theorem State.routeWaiting_idle {s : State} (idle : s.noneWaits) : s.routeWaiting = s := by
  refine List.foldl_fixed' (fun id => ?_) _
  split
  · next sl held => exact if_neg (by simpa using idle _ (mem_of_amGet held))
  · rfl

theorem State.noneWaits_congr {s t : State} (slots : t.prv.slots = s.prv.slots) (idle : s.noneWaits) : t.noneWaits := by
  rw [State.noneWaits, slots]
  exact idle

/-! Route demands (R444). -/

theorem State.agreeSync_clm (s : State) : s.agreeSync.clm = s.clm := by
  unfold State.agreeSync
  dsimp only
  split
  · rfl
  · exact State.ist_clm _ _ _

theorem State.demand_clm (s : State) (n : Nat) : (s.demand n).clm = s.clm := by
  unfold State.demand
  split
  · split
    · rfl
    · exact State.agreeSync_clm _
  · exact State.agreeSync_clm _

theorem State.confined.agreeSync {s t : State} {may : Nat → Prop} (h : s.confined t may) (ha : may (Reg.PG_IST Reg.pgWKN)) :
    s.confined t.agreeSync may :=
  h.ite (((h.setWkn _).ist (b := Reg.pgWKN) 0 ha).setXpl _)

theorem State.confined.demand {s t : State} {may : Nat → Prop} (h : s.confined t may) (n : Nat) (ha : may (Reg.PG_IST Reg.pgWKN)) :
    s.confined (t.demand n) may := by
  have asked := (((h.setPrv (p := { t.prv with demand := amPut t.prv.demand n t.now }) rfl).setXpl
    { t.xpl with evY := { t.xpl.evY with q := t.xpl.evY.q ++ [(t.xpl.evY.seq, 9, n)], seq := (t.xpl.evY.seq + 1) % 8 } }).agreeSync ha)
  unfold State.demand
  split
  · exact h.ite asked
  · exact asked

/-! Frames of the ledger. -/

/-- What forming a ledger frame leaves: the registers beside those of its counts and reports, tables, memories, clocks, the controllers,
the ledger's record, the jobs handed to it, and the turns of Privet's jobs. -/
structure State.besideForm (s t : State) : Prop where
  frame : s.confined t formRegs
  can : t.can = s.can
  clm : t.clm = s.clm
  handed : t.prv.clmQ = s.prv.clmQ
  turns : s.noneWaits → t.noneWaits

theorem State.besideForm.refl (s : State) : s.besideForm s := ⟨.refl s _, rfl, rfl, rfl, id⟩

/-- A frame that finds its controller DISABLED is dropped and counted. -/
theorem State.besideForm_disabled (s : State) {g : Nat} (hg : g ≤ 23) (c : Copy) : s.besideForm (s.dropCount g c .disabled) := by
  have count : pageBase (Reg.PRV_CTL_EDROP_DISABLED g) = Reg.pgPRV_CTL := by
    simp only [pageBase, Reg.PRV_CTL_EDROP_DISABLED, Reg.pgPRV_CTL]
    omega
  have prv := s.dropCount_prv g c (k := .disabled) (fun h => nomatch h)
  have counted := ((State.confined.refl s formRegs).bump (a := Reg.PRV_CTL_EDROP_DISABLED g) 1 6 (by simp [formRegs, count])
    (by rw [count]; decide)).ist (b := Reg.pgPRV_CTL) 3 (by decide)
  exact ⟨counted.draw.trace _ _ _ (by decide) (by decide), ((State.besideCan.refl s).dropCount g c .disabled).can,
    by simp [State.dropCount, State.traceDrop, State.draw], congrArg Privet.clmQ prv, State.noneWaits_congr (congrArg Privet.slots prv)⟩

/-- Frame f of copy c enters Privet as a routed job of one copy. -/
def State.formed (s : State) (f : CanFrame) (c : Copy) : State :=
  { s with prv := { s.prv with
    nextJob := s.prv.nextJob + 1
    slots := amPut s.prv.slots s.prv.nextJob
      ⟨⟨srcFormed, false, f, 0, s.tsy.full, s.now, s.tsy.full, none, none⟩, s.epoch, .routed, [c], false, true⟩
    cells := amPut s.prv.cells s.prv.nextJob ⟨cellsOf f.data.length, false, 1⟩ } }

theorem State.besideForm_formed (s : State) (g : Nat) (f : CanFrame) (c : Copy) : s.besideForm ((s.formed f c).demand g) := by
  obtain ⟨d, prv⟩ := (s.formed f c).demand_prv g
  have enters := State.confined.demand (t := s.formed f c) ((State.confined.refl s formRegs).setPrv rfl) g (by decide)
  refine ⟨enters, ((State.besideCan.refl (s.formed f c)).demand g).can, State.demand_clm _ _, by rw [prv]; rfl, fun idle => ?_⟩
  refine State.noneWaits_congr (s := s.formed f c) (by rw [prv]) fun p hp => ?_
  rcases amPut_mem hp with rfl | old
  · exact fun h => nomatch h
  · exact idle p old

theorem State.slot_formed (s : State) (g : Nat) (f : CanFrame) (c : Copy) :
    ∃ sl, amGet ((s.formed f c).demand g).prv.slots s.prv.nextJob = some sl ∧ sl.copies = [c] := by
  obtain ⟨d, prv⟩ := (s.formed f c).demand_prv g
  exact ⟨_, by rw [prv]; exact amGet_put_same _ _ _, rfl⟩

/-- A ledger frame passes an isolated segment and is in the format of every controller, so only a DISABLED one refuses it (R213). -/
theorem State.judge_ledger (s : State) (g pc : Nat) (ident : Nat) (data : List Byte) (i : Nat) (k : Option Nat) (dl : Option Nat) (dig : Bool) :
    s.judge (s.mkFormed g pc (ccFrame ident data) (.ledger i k) dl dig) g true = if s.canState g = 0 then some .disabled else none := by
  simp [State.judge, State.mkFormed, Copy.isoExempt, State.fmtOk, ccFrame]

section
variable {s : State} {g : Nat} (ident : Nat) (data : List Byte) (i : Nat) (k : Option Nat)

/-- The copy of a ledger frame to segment g (R207). -/
def State.clmCopy (s : State) (g ident : Nat) (data : List Byte) (i : Nat) (k : Option Nat) : Copy :=
  s.mkFormed g (s.rf Reg.CLM_CTL 5 4) (ccFrame ident data) (.ledger i k) (s.deadlineOf s.epoch s.now 0) false

theorem State.clmSend_off (off : ¬ (s.clmForms = true ∧ g ≤ 23)) : s.clmSend g ident data (.ledger i k) = (s, true) := if_neg off

theorem State.clmSend_on (forms : s.clmForms = true) (hg : g ≤ 23) (enabled : s.canState g ≠ 0) : s.clmSend g ident data (.ledger i k)
    = ((s.formed (ccFrame ident data) (s.clmCopy g ident data i k)).demand g, true) := by
  rw [State.clmSend, if_pos ⟨forms, hg⟩, State.formCopy, s.judge_ledger, if_neg enabled]
  rfl

theorem State.clmSend_disabled (forms : s.clmForms = true) (hg : g ≤ 23) (disabled : s.canState g = 0) :
    s.clmSend g ident data (.ledger i k) = (s.dropCount g (s.clmCopy g ident data i k) .disabled, false) := by
  rw [State.clmSend, if_pos ⟨forms, hg⟩, State.formCopy, s.judge_ledger, if_pos disabled]
  rfl

theorem State.besideForm_clmSend (s : State) (g : Nat) : s.besideForm (s.clmSend g ident data (.ledger i k)).1 := by
  by_cases on : s.clmForms = true ∧ g ≤ 23
  · by_cases disabled : s.canState g = 0
    · rw [State.clmSend_disabled ident data i k on.1 on.2 disabled]
      exact s.besideForm_disabled on.2 _
    · rw [State.clmSend_on ident data i k on.1 on.2 disabled]
      exact s.besideForm_formed _ _ _
  · rw [State.clmSend_off ident data i k on]
    exact .refl s

/-- R207: the frame is the next job of Privet. -/
theorem State.formedCopy_clmSend (forms : s.clmForms = true) (hg : g ≤ 23) (enabled : s.canState g ≠ 0) :
    s.formedCopy (s.clmSend g ident data (.ledger i k)).1 g (ccFrame ident data) := by
  rw [State.clmSend_on ident data i k forms hg enabled]
  obtain ⟨sl, held, copies⟩ := s.slot_formed g (ccFrame ident data) (s.clmCopy g ident data i k)
  exact ⟨sl, _, held, copies, rfl, rfl⟩

end

end Sys2Proof.Machine
end

section
/-! PROOFS. Entries of the claim ledger (R199-R206, R211): what a new claim and a change of STATE leave of the words of each
entry. -/
namespace Sys2Proof.Machine

/-! Words of entries. -/

theorem clmA_inj {i j w x : Nat} (hw : w < 4) (hx : x < 4) (h : clmA i w = clmA j x) : i = j ∧ w = x := by
  unfold clmA at h
  omega

theorem State.tw_setTw (s : State) (a : Nat) (w : Word) (b : Nat) : (s.setTw a w).tw b = if b = a then w else s.tw b := by
  split
  · next same => rw [same, State.tw_setTw_same]
  · next other => exact s.tw_setTw_other w other

/-- A word of another entry, or another word of the same one. -/
theorem State.tw_setTw_clmA (s : State) {i j w x : Nat} (v : Word) (hw : w < 4) (hx : x < 4) (apart : j ≠ i ∨ x ≠ w) :
    (s.setTw (clmA i w) v).tw (clmA j x) = s.tw (clmA j x) :=
  s.tw_setTw_other v fun h => apart.elim (fun g => g (clmA_inj hx hw h).1) fun g => g (clmA_inj hx hw h).2

/-- A word that no entry holds, or one of another entry. -/
theorem State.tw_setTw_outside (s : State) {i w a : Nat} (v : Word) (hw : w < 4) (out : a < clmA i 0 ∨ clmA i 3 < a) :
    (s.setTw (clmA i w) v).tw a = s.tw a := by
  refine s.tw_setTw_other v ?_
  unfold clmA at out ⊢
  omega

theorem leNat_lt (l : List Byte) : leNat l < 2 ^ (8 * l.length) := by
  induction l with
  | nil => decide
  | cons b r ih =>
    have hb := b.isLt
    rw [leNat, List.length_cons, Nat.mul_succ, Nat.pow_add]
    omega

/-- The two words of a NAME. -/
theorem toNat_nameWords {name : Nat} (h : name < 2 ^ 64) :
    (BitVec.ofNat 32 name).toNat + (BitVec.ofNat 32 (name / 2 ^ 32)).toNat * 2 ^ 32 = name := by
  rw [BitVec.toNat_ofNat, BitVec.toNat_ofNat]
  omega

/-! Changes of STATE (R199). -/

theorem State.ltime_setTw (s : State) (a : Nat) (w : Word) : (s.setTw a w).ltime = s.ltime := rfl

theorem State.tw_clmSetState_state (s : State) (i st : Nat) :
    (s.clmSetState i st).tw (clmA i 2) = setFld (s.tw (clmA i 2)) 19 17 st := by
  rw [State.clmSetState, State.tw_setTw_clmA _ _ (by decide) (by decide) (.inr (by decide)), State.tw_setTw_same]

theorem State.tw_clmSetState_time (s : State) (i st : Nat) :
    (s.clmSetState i st).tw (clmA i 3) = setFld (s.tw (clmA i 3)) 23 0 s.ltime := by
  rw [State.clmSetState, State.tw_setTw_same, State.tw_setTw_clmA _ _ (by decide) (by decide) (.inr (by decide)),
    State.ltime_setTw]

theorem State.tw_clmSetState_name (s : State) {i w : Nat} (st : Nat) (hw : w < 2) :
    (s.clmSetState i st).tw (clmA i w) = s.tw (clmA i w) := by
  rw [State.clmSetState, State.tw_setTw_clmA _ _ (by decide) (by omega) (.inr (by omega)),
    State.tw_setTw_clmA _ _ (by decide) (by omega) (.inr (by omega))]

theorem State.tw_clmSetState_outside (s : State) {i a : Nat} (st : Nat) (out : a < clmA i 0 ∨ clmA i 3 < a) :
    (s.clmSetState i st).tw a = s.tw a := by
  rw [State.clmSetState, State.tw_setTw_outside _ _ (by decide) out, State.tw_setTw_outside _ _ (by decide) out]

theorem State.tabOnly_clmSetState (s : State) (i st : Nat) : s.tabOnly (s.clmSetState i st) :=
  (s.tabOnly_setTw _ _).trans (State.tabOnly_setTw _ _ _)

theorem State.clmState_clmSetState (s : State) (i : Nat) {st : Nat} (h : st < 8) : (s.clmSetState i st).clmState i = st := by
  rw [State.clmState, State.tw_clmSetState_state, fld_setFld_same _ _ _ _ (by decide)]
  exact Nat.mod_eq_of_lt h

theorem State.clmSa_clmSetState (s : State) (i st : Nat) : (s.clmSetState i st).clmSa i = s.clmSa i := by
  rw [State.clmSa, State.tw_clmSetState_state, fld_setFld_other _ _ _ _ _ _ (.inl (by decide)) (by decide), State.clmSa]

/-! New entries (R203, R205). -/

/-- Entry i is a valid NATIVE entry of the NAME on segment g, CLAIMED at address x. -/
structure State.clmClaimed (s : State) (i g name x : Nat) : Prop where
  valid : s.clmValid i = true
  name : s.clmName i = name
  seg : s.clmSeg i = g
  sa : s.clmSa i = x
  state : s.clmState i = 0
  type : s.clmType i = 0

theorem State.clmClaimed.congr {s t : State} {i g name x : Nat} (h : s.clmClaimed i g name x)
    (words : ∀ w, w < 3 → t.tw (clmA i w) = s.tw (clmA i w)) (valid : t.clmValid i = s.clmValid i) : t.clmClaimed i g name x := by
  obtain ⟨isValid, hasName, onSeg, atSa, claimed, native⟩ := h
  refine ⟨valid.trans isValid, ?_, ?_, ?_, ?_, ?_⟩
  · rwa [State.clmName, words 0 (by decide), words 1 (by decide)]
  · rwa [State.clmSeg, words 2 (by decide)]
  · rwa [State.clmSa, words 2 (by decide)]
  · rwa [State.clmState, words 2 (by decide)]
  · rwa [State.clmType, words 2 (by decide)]

/-- The words of a new entry i of the NAME on segment g. -/
def State.clmFresh (s : State) (i g name : Nat) : State :=
  (((s.setTw (clmA i 0) (BitVec.ofNat 32 name)).setTw (clmA i 1) (BitVec.ofNat 32 (name / 2 ^ 32))).setTw (clmA i 2)
    (BitVec.ofNat 32 (g * 2 ^ 20))).setTw (clmA i 3) (BitVec.ofNat 32 (2 ^ 31))

theorem State.clmCreate_room {s : State} {e k : Nat} (g name : Nat)
    (room : (List.range (2048 - s.cf e Reg.CLM_CTL 31 21)).find? (fun b => !s.clmValid (s.cf e Reg.CLM_CTL 31 21 + b)) = some k) :
    s.clmCreate e g name = ((s.clmFresh (s.cf e Reg.CLM_CTL 31 21 + k) g name).clmPeak, some (s.cf e Reg.CLM_CTL 31 21 + k)) := by
  simp only [State.clmCreate, room, State.clmFresh]

theorem State.tabOnly_clmFresh (s : State) (i g name : Nat) : s.tabOnly (s.clmFresh i g name) :=
  (((s.tabOnly_setTw _ _).trans (State.tabOnly_setTw _ _ _)).trans (State.tabOnly_setTw _ _ _)).trans (State.tabOnly_setTw _ _ _)

/-- The new entry i, counted as learned, takes address x (R205). -/
def State.clmEntered (s : State) (i g name x : Nat) : State := (((s.clmFresh i g name).clmPeak.bump Reg.CLM_LEARNED 1 7).clmSetE i 0 x)

theorem State.tw_congr {s t : State} (h : t.tab = s.tab) (a : Nat) : t.tw a = s.tw a := congrArg (amGetD 0 · a) h

theorem State.tab_clmCounted (s : State) : (s.clmPeak.bump Reg.CLM_LEARNED 1 7).tab = s.tab := by
  rw [State.bump_tab, State.clmPeak, State.wf_tab]

theorem State.tw_clmEntered_outside (s : State) {i a : Nat} (g name x : Nat) (out : a < clmA i 0 ∨ clmA i 3 < a) :
    (s.clmEntered i g name x).tw a = s.tw a := by
  rw [State.clmEntered, State.clmSetE, State.tw_clmSetState_outside _ _ out, State.tw_setTw_outside _ _ (by decide) out,
    State.tw_congr (State.tab_clmCounted _)]
  simp only [State.clmFresh]
  rw [State.tw_setTw_outside _ _ (by decide) out, State.tw_setTw_outside _ _ (by decide) out,
    State.tw_setTw_outside _ _ (by decide) out, State.tw_setTw_outside _ _ (by decide) out]

/-- The words of a fresh entry. -/
theorem State.tw_clmFresh (s : State) (i g name : Nat) :
    (s.clmFresh i g name).tw (clmA i 0) = BitVec.ofNat 32 name ∧ (s.clmFresh i g name).tw (clmA i 1) = BitVec.ofNat 32 (name / 2 ^ 32)
      ∧ (s.clmFresh i g name).tw (clmA i 2) = BitVec.ofNat 32 (g * 2 ^ 20)
      ∧ (s.clmFresh i g name).tw (clmA i 3) = BitVec.ofNat 32 (2 ^ 31) := by
  simp [State.clmFresh, State.tw_setTw, clmA]

theorem State.tw_clmEntered_name (s : State) {i w : Nat} (g name x : Nat) (hw : w < 2) :
    (s.clmEntered i g name x).tw (clmA i w) = (s.clmFresh i g name).tw (clmA i w) := by
  rw [State.clmEntered, State.clmSetE, State.tw_clmSetState_name _ _ hw,
    State.tw_setTw_clmA _ _ (by decide) (by omega) (.inr (by omega)), State.tw_congr (State.tab_clmCounted _)]

/-- A word that names a segment alone is of TYPE NATIVE. -/
theorem fld_segWord {g : Nat} (hg : g < 24) : fld (BitVec.ofNat 32 (g * 2 ^ 20)) 31 30 = 0 ∧ fld (BitVec.ofNat 32 (g * 2 ^ 20)) 24 20 = g := by
  simp only [fld, nfld, BitVec.toNat_ofNat, Nat.shiftRight_eq_div_pow]
  omega

/-- The fields that a claim of address x sets in the second word of a fresh entry on segment g. -/
theorem State.tw_clmEntered_fields (s : State) (i : Nat) {g : Nat} (name : Nat) {x : Nat} (hg : g < 24) (hx : x < 256) :
    fld ((s.clmEntered i g name x).tw (clmA i 2)) 31 30 = 0 ∧ fld ((s.clmEntered i g name x).tw (clmA i 2)) 24 20 = g
      ∧ fld ((s.clmEntered i g name x).tw (clmA i 2)) 19 17 = 0 ∧ fld ((s.clmEntered i g name x).tw (clmA i 2)) 15 8 = x := by
  have word : (s.clmEntered i g name x).tw (clmA i 2) = setFld (setFld (setFld (BitVec.ofNat 32 (g * 2 ^ 20)) 15 8 x) 7 0
      (capAt 255 (fld (BitVec.ofNat 32 (g * 2 ^ 20)) 7 0 + 1))) 19 17 0 := by
    rw [State.clmEntered, State.clmSetE, State.tw_clmSetState_state, State.tw_setTw_same, State.tw_congr (State.tab_clmCounted _),
      (s.tw_clmFresh i g name).2.2.1]
  have kept : ∀ hi lo, 19 < lo → hi < 32 → fld ((s.clmEntered i g name x).tw (clmA i 2)) hi lo = fld (BitVec.ofNat 32 (g * 2 ^ 20)) hi lo :=
    fun hi lo above word32 => by
      rw [word, fld_setFld_other _ _ _ _ _ _ (.inr above) word32, fld_setFld_other _ _ _ _ _ _ (.inr (by omega)) word32,
        fld_setFld_other _ _ _ _ _ _ (.inr (by omega)) word32]
  refine ⟨?_, ?_, ?_, ?_⟩
  · rw [kept 31 30 (by decide) (by decide), (fld_segWord hg).1]
  · rw [kept 24 20 (by decide) (by decide), (fld_segWord hg).2]
  · rw [word, fld_setFld_same _ _ _ _ (by decide), Nat.zero_mod]
  · rw [word, fld_setFld_other _ _ _ _ _ _ (.inl (by decide)) (by decide), fld_setFld_other _ _ _ _ _ _ (.inr (by decide)) (by decide),
      fld_setFld_same _ _ _ _ (by decide)]
    exact Nat.mod_eq_of_lt hx

theorem State.clmValid_clmEntered (s : State) (i g name x : Nat) : (s.clmEntered i g name x).clmValid i = true := by
  rw [State.clmValid, State.clmEntered, State.clmSetE, State.tw_clmSetState_time, bitOf_setFld_other _ _ _ _ _ (.inr (by decide)) (by decide),
    State.tw_setTw_clmA _ _ (by decide) (by decide) (.inr (by decide)), State.tw_congr (State.tab_clmCounted _),
    (s.tw_clmFresh i g name).2.2.2]
  decide

/-- R203, R205: the new entry is CLAIMED. -/
theorem State.clmClaimed_clmEntered (s : State) (i : Nat) {g name x : Nat} (hg : g < 24) (hn : name < 2 ^ 64) (hx : x < 256) :
    (s.clmEntered i g name x).clmClaimed i g name x := by
  obtain ⟨low, high, -⟩ := s.tw_clmFresh i g name
  obtain ⟨type, seg, state, sa⟩ := s.tw_clmEntered_fields i name hg hx
  refine ⟨s.clmValid_clmEntered i g name x, ?_, seg, sa, state, type⟩
  rw [State.clmName, s.tw_clmEntered_name g name x (by decide), s.tw_clmEntered_name g name x (by decide), low, high,
    toNat_nameWords hn]

/-! A claim of an unknown NAME (R203, R205, R206). -/

theorem State.clmRogueEvent_tab (s : State) (i g : Nat) :
    (s.clmRogueEvent (some i) g).tab = (s.setTw (clmA i 3) (setBit (s.tw (clmA i 3)) 30 true)).tab := by
  rw [State.clmRogueEvent, State.clmLast, State.wr_tab, State.ist_tab, State.bump_tab]

/-- A claim event of R206 sets ROGUE of its entry, and no other word. -/
theorem State.clmClaimed.rogue {s : State} {i g name x : Nat} (h : s.clmClaimed i g name x) (m : Nat) :
    (s.clmRogueEvent (some i) m).clmClaimed i g name x := by
  have words := State.tw_congr (s.clmRogueEvent_tab i m)
  refine h.congr (fun w hw => ?_) ?_
  · rw [words, State.tw_setTw_clmA _ _ (by decide) (by omega) (.inr (by omega))]
  · rw [State.clmValid, words, State.tw_setTw_same, bitOf_setBit_other _ _ _ _ (by decide) (by decide), State.clmValid]

/-- The ledger learns a NAME that it does not know at a free address: a new entry from LBASE on takes the address. -/
theorem State.clmLearn_new {s : State} {ep g name x k : Nat} (unknown : s.clmFind g name = none) (hx : x < 0xFE)
    (free : ∀ o ∈ s.clmOn g, s.clmHolds o = false ∨ s.clmSa o ≠ x ∨ s.clmShadowed o = true)
    (room : (List.range (2048 - s.cf ep Reg.CLM_CTL 31 21)).find? (fun b => !s.clmValid (s.cf ep Reg.CLM_CTL 31 21 + b)) = some k) :
    ∃ c : Ledger, ∃ r : Bool, s.clmLearn ep g name x
      = if r then ((s.setClm c).clmEntered (s.cf ep Reg.CLM_CTL 31 21 + k) g name x).clmRogueEvent (some (s.cf ep Reg.CLM_CTL 31 21 + k)) g
        else (s.setClm c).clmEntered (s.cf ep Reg.CLM_CTL 31 21 + k) g name x := by
  have noHolder : (s.clmOn g).filter (fun i => s.clmHolds i && s.clmSa i == x && some i != none && !s.clmShadowed i) = [] := by
    refine List.filter_eq_nil_iff.mpr fun o ho held => ?_
    simp only [Bool.and_eq_true, beq_iff_eq, Bool.not_eq_true'] at held
    obtain ⟨⟨⟨holds, sa⟩, -⟩, lowest⟩ := held
    rcases free o ho with h | h | h
    · exact nomatch h.symm.trans holds
    · exact h sa
    · exact nomatch h.symm.trans lowest
  have named : x ≠ 0xFE := by omega
  have created : ∀ c : Ledger, (s.setClm c).clmCreate ep g name = _ := fun c => State.clmCreate_room (s := s.setClm c) g name room
  simp only [State.clmLearn, unknown, State.clmStorm, if_neg named, noHolder, created, State.clmRows, List.isEmpty_nil, if_true,
    Bool.false_eq_true, false_and, if_false, List.all_nil, List.foldl_nil, Bool.false_or]
  exact ⟨_, _, rfl⟩

end Sys2Proof.Machine
end

section
/-! PROOFS. Beside the tables: what a step of the ledger that changes entries leaves of the registers, the memories, the clocks and the CAN
controllers. -/
namespace Sys2Proof.Machine

/-- From s to t no register but those of may changes, no byte of memory, no time and no controller; table words may. -/
structure State.besideTables (s t : State) (may : Nat → Prop) : Prop where
  regs : ∀ a, ¬ may a → t.rd a = s.rd a
  bytes : s.sameBytes t
  tsy : t.tsy = s.tsy
  can : t.can = s.can

theorem State.besideTables.refl (s : State) (may : Nat → Prop) : s.besideTables s may :=
  ⟨fun _ _ => rfl, fun _ => ⟨rfl, rfl, rfl, rfl, rfl, rfl⟩, rfl, rfl⟩

theorem State.besideTables.trans {s t u : State} {may : Nat → Prop} (h : s.besideTables t may) (g : t.besideTables u may) :
    s.besideTables u may :=
  ⟨fun a out => (g.regs a out).trans (h.regs a out), h.bytes.trans g.bytes, g.tsy.trans h.tsy, g.can.trans h.can⟩

theorem State.besideTables.weaken {s t : State} {may might : Nat → Prop} (h : s.besideTables t may) (w : ∀ a, may a → might a) :
    s.besideTables t might := ⟨fun a out => h.regs a fun m => out (w a m), h.bytes, h.tsy, h.can⟩

theorem State.besideTables.ite {s t u : State} {may : Nat → Prop} {c : Prop} [Decidable c] (h : s.besideTables t may)
    (g : s.besideTables u may) : s.besideTables (if c then t else u) may := by
  split
  · exact h
  · exact g

theorem State.besideTables.foldl {β : Type} {f : State → β → State} {s : State} {may : Nat → Prop} (l : List β)
    (step : ∀ (t : State) (x : β), s.besideTables t may → s.besideTables (f t x) may) {t : State} (h : s.besideTables t may) :
    s.besideTables (l.foldl f t) may := by
  induction l generalizing t with
  | nil => exact h
  | cons x r ih => exact ih (step t x h)

theorem State.besideTables.rb {s t : State} {may : Nat → Prop} (h : s.besideTables t may) {a : Nat} (i : Nat) (out : ¬ may a) :
    t.rb a i = s.rb a i := by rw [State.rb, h.regs a out, State.rb]

theorem State.besideTables.rf {s t : State} {may : Nat → Prop} (h : s.besideTables t may) {a : Nat} (hi lo : Nat) (out : ¬ may a) :
    t.rf a hi lo = s.rf a hi lo := by rw [State.rf, h.regs a out, State.rf]

theorem State.besideTables.now {s t : State} {may : Nat → Prop} (h : s.besideTables t may) : t.now = s.now := by
  rw [State.now, h.tsy, State.now]

section
variable {s t : State} {may : Nat → Prop} (h : s.besideTables t may)
include h

/-- A confined step that leaves the controllers. -/
theorem State.besideTables.confined {u : State} (c : t.confined u may) (can : u.can = t.can) : s.besideTables u may :=
  h.trans ⟨c.regs, c.bytes, c.tsy, can⟩

theorem State.besideTables.wr {a : Nat} (w : Word) (ha : may a) : s.besideTables (t.wr a w) may :=
  h.confined ((State.confined.refl t may).wr w ha) rfl

theorem State.besideTables.ist {b : Nat} (i : Nat) (hb : may (Reg.PG_IST b)) : s.besideTables (t.ist b i) may :=
  h.confined ((State.confined.refl t may).ist i hb) (State.ist_can _ _ _)

theorem State.besideTables.bump {a : Nat} (n k : Nat) (ha : may a) (hb : may (Reg.PG_IST (pageBase a))) :
    s.besideTables (t.bump a n k) may :=
  h.confined ((State.confined.refl t may).bump n k ha hb) (State.bump_can _ _ _ _)

theorem State.besideTables.tabOnly {u : State} (g : t.tabOnly u) : s.besideTables u may :=
  h.trans ⟨fun a _ => g.sameRegs a List.not_mem_nil, g.sameBytes, by rw [g], by rw [g]⟩

theorem State.besideTables.setTw (a : Nat) (w : Word) : s.besideTables (t.setTw a w) may := h.tabOnly (t.tabOnly_setTw a w)

theorem State.besideTables.setClm (c : Ledger) : s.besideTables (t.setClm c) may :=
  h.confined ((State.confined.refl t may).setClm c) rfl

/-! Operations of the ledger. -/

theorem State.besideTables.clmCancel (i : Nat) : s.besideTables (t.clmCancel i) may := h.setClm _

theorem State.besideTables.clmSetState (i st : Nat) : s.besideTables (t.clmSetState i st) may := h.tabOnly (t.tabOnly_clmSetState i st)

theorem State.besideTables.clmPeak (ha : may Reg.CLM_OCC) : s.besideTables t.clmPeak may := h.wr (a := Reg.CLM_OCC) _ ha

theorem State.besideTables.clmEntered (i g name x : Nat) (occ : may Reg.CLM_OCC) (count : may Reg.CLM_LEARNED)
    (event : may (Reg.PG_IST Reg.pgCLM)) : s.besideTables (t.clmEntered i g name x) may :=
  ((((h.tabOnly (t.tabOnly_clmFresh i g name)).clmPeak occ).bump 1 7 count event).setTw _ _).clmSetState i 0

theorem State.besideTables.clmRogueEvent (i g : Nat) (count : may Reg.CLM_ROGUE) (last : may Reg.CLM_LAST)
    (event : may (Reg.PG_IST Reg.pgCLM)) : s.besideTables (t.clmRogueEvent (some i) g) may :=
  (((h.setTw _ _).bump 1 7 count event).ist 2 event).wr _ last

theorem State.besideTables.clmSend (ident : Nat) (data : List Byte) (i : Nat) (k : Option Nat) (g : Nat) (hm : ∀ a, formRegs a → may a) :
    s.besideTables (t.clmSend g ident data (.ledger i k)).1 may :=
  h.confined ((t.besideForm_clmSend ident data i k g).frame.weaken hm) (t.besideForm_clmSend ident data i k g).can

theorem State.besideTables.clmClaimFrame (i : Nat) (hm : ∀ a, formRegs a → may a) : s.besideTables (t.clmClaimFrame i) may := by
  have sent := h.clmSend (0x18EEFF00 + t.clmSa i) (leBytes 8 (t.clmName i)) i (some ((amGet t.clm.claim i).getD 0)) (t.clmSeg i) hm
  exact sent.ite (sent.setClm _)

theorem State.besideTables.clmStart (i : Nat) (hm : ∀ a, formRegs a → may a) : s.besideTables (t.clmStart i) may := by
  have asked := ((h.clmCancel i).clmSetState i 3).setClm { ((t.clmCancel i).clmSetState i 3).clm with
    claim := amPut ((t.clmCancel i).clmSetState i 3).clm.claim i ((t.clmCancel i).clmSetState i 3).clm.nextClaim
    nextClaim := ((t.clmCancel i).clmSetState i 3).clm.nextClaim + 1
    lost := amDel ((t.clmCancel i).clmSetState i 3).clm.lost i }
  exact (asked.clmClaimFrame i hm).ite h

theorem State.besideTables.clmFlushSeg (g : Nat) : s.besideTables (t.clmFlushSeg g) may :=
  .foldl _ (fun _ i hu => (hu.clmCancel i).setTw _ _) h

end

end Sys2Proof.Machine
end

section
/-! PROOFS. Flushes and claim windows (R211, R212): the entries of a segment that a flush invalidates, and the isolation a window begins. -/
namespace Sys2Proof.Machine

/-! Flushes (R211). -/

theorem State.tw_clmCancel (s : State) (i a : Nat) : (s.clmCancel i).tw a = s.tw a := rfl

/-- Entry i is no longer valid, and its claim has ended. -/
def State.clmInvalid (s : State) (i : Nat) : State := (s.clmCancel i).setTw (clmA i 3) (setBit (s.tw (clmA i 3)) 31 false)

theorem State.clmFlushSeg_eq (s : State) (g : Nat) : s.clmFlushSeg g
    = (s.clmListed.filter (fun i => s.clmValid i && s.clmType i == 0 && s.clmSeg i == g)).foldl State.clmInvalid s := rfl

/-- A valid entry is listed. -/
theorem State.mem_clmListed {s : State} {e : Nat} (he : e < 2048) (valid : s.clmValid e = true) : e ∈ s.clmListed := by
  obtain ⟨w, held⟩ : ∃ w, amGet s.tab (clmA e 3) = some w := by
    refine Option.ne_none_iff_exists'.mp fun none => ?_
    rw [State.clmValid, State.tw, amGetD, none] at valid
    exact nomatch valid
  have place : 0x420000 ≤ clmA e 3 ∧ clmA e 3 < 0x428000 ∧ clmA e 3 % 16 = 12 ∧ (clmA e 3 - 0x420000) / 16 = e := by
    unfold clmA
    omega
  obtain ⟨lo, hi, word, index⟩ := place
  exact List.mem_map.mpr ⟨(clmA e 3, w), List.mem_filter.mpr ⟨mem_of_amGet held, by simp [lo, hi, word]⟩, index⟩

theorem State.clmValid_clmInvalid (s : State) (i e : Nat) : (s.clmInvalid i).clmValid e = (s.clmValid e && decide (e ≠ i)) := by
  by_cases same : e = i
  · rw [same, State.clmInvalid, State.clmValid, State.tw_setTw_same, bitOf_setBit_same _ _ _ (by decide)]
    simp
  · rw [State.clmInvalid, State.clmValid, State.tw_setTw_clmA _ _ (by decide) (by decide) (.inl same)]
    rw [State.tw_clmCancel, decide_eq_true same, Bool.and_true, State.clmValid]

theorem State.clmValid_clmInvalids (l : List Nat) {e : Nat} (s : State) (h : e ∈ l ∨ s.clmValid e = false) :
    (l.foldl State.clmInvalid s).clmValid e = false := by
  induction l generalizing s with
  | nil => exact h.resolve_left List.not_mem_nil
  | cons i r ih =>
    rw [List.foldl_cons]
    refine ih _ ?_
    rw [State.clmValid_clmInvalid]
    rcases h with listed | invalid
    · rcases List.mem_cons.mp listed with rfl | later
      · simp
      · exact .inl later
    · simp [invalid]

/-- Entries that are not flushed keep their words. -/
theorem State.tw_clmInvalids (l : List Nat) {e w : Nat} (hw : w < 4) (s : State) (h : e ∉ l) :
    (l.foldl State.clmInvalid s).tw (clmA e w) = s.tw (clmA e w) := by
  induction l generalizing s with
  | nil => rfl
  | cons i r ih =>
    obtain ⟨other, later⟩ := not_or.mp (List.mem_cons.not.mp h)
    rw [List.foldl_cons, ih _ later, State.clmInvalid, State.tw_setTw_clmA _ _ (by decide) hw (.inl other), State.tw_clmCancel]

/-- R211: the valid NATIVE entries of the segment are invalid after its flush. -/
theorem State.clmValid_clmFlushSeg {s : State} {e g : Nat} (he : e < 2048) (valid : s.clmValid e = true) (native : s.clmType e = 0)
    (seg : s.clmSeg e = g) : (s.clmFlushSeg g).clmValid e = false := by
  rw [State.clmFlushSeg_eq]
  exact State.clmValid_clmInvalids _ s (.inl (List.mem_filter.mpr ⟨State.mem_clmListed he valid, by simp [valid, native, seg]⟩))

/-- R211: every other entry keeps its words. -/
theorem State.tw_clmFlushSeg {s : State} {e g w : Nat} (hw : w < 4) (other : s.clmType e ≠ 0 ∨ s.clmSeg e ≠ g) :
    (s.clmFlushSeg g).tw (clmA e w) = s.tw (clmA e w) := by
  rw [State.clmFlushSeg_eq]
  refine State.tw_clmInvalids _ hw s fun listed => ?_
  have flushed := (List.mem_filter.mp listed).2
  simp only [Bool.and_eq_true, beq_iff_eq] at flushed
  exact other.elim (fun h => h flushed.1.2) fun h => h flushed.2

/-! Claim windows (R212). -/

/-- What a window of segment n does before it isolates the segment: the flush, the claims of the device's entries, the request. -/
def State.clmAsked (s : State) (n : Nat) : State :=
  let t := if s.rb (Reg.CLM_ISO n) 8 then s.clmFlushSeg n else s
  (((t.clmOn n).filter (fun i => t.clmOwn i && !t.clmShadowed i && t.clmState i != 2 && !t.clmSilent i)).foldl State.clmStart t).clmRequest n

theorem State.besideTables_clmAsked (s : State) (n : Nat) : s.besideTables (s.clmAsked n) formRegs := by
  have flushed := ((State.besideTables.refl s formRegs).clmFlushSeg n).ite (c := s.rb (Reg.CLM_ISO n) 8 = true) (.refl s _)
  exact (State.besideTables.foldl _ (fun _ i hu => hu.clmStart i fun _ => id) flushed).clmSend 0x18EAFFFE [0x00, 0xEE, 0x00] 2048 none n
    fun _ => id

/-- The end of the window of segment n that opens after t, or none with WIN = 0. -/
def State.clmWindow (t : State) (n win : Nat) : Ledger :=
  { t.clm with win := if win = 0 then amDel t.clm.win n else amPut t.clm.win n (t.now + win * 10000000) }

theorem State.clmOpen_eq (s : State) (n : Nat) : s.clmOpen n = ((s.clmAsked n).setClm ((s.clmAsked n).clmWindow n
    ((s.clmAsked n).rf (Reg.CLM_ISO n) 7 0))).wb Reg.CLM_ISOSTAT n ((s.clmAsked n).rf (Reg.CLM_ISO n) 7 0 != 0) := by
  have opened : s.clmOpen n = if (s.clmAsked n).rf (Reg.CLM_ISO n) 7 0 = 0
      then ((s.clmAsked n).setClm { (s.clmAsked n).clm with win := amDel (s.clmAsked n).clm.win n }).wb Reg.CLM_ISOSTAT n false
      else ((s.clmAsked n).setClm { (s.clmAsked n).clm with
        win := amPut (s.clmAsked n).clm.win n ((s.clmAsked n).now + (s.clmAsked n).rf (Reg.CLM_ISO n) 7 0 * 10000000)
        }).wb Reg.CLM_ISOSTAT n true := rfl
  rw [opened, State.clmWindow]
  split
  · next none => rw [none, bne_self_eq_false]
  · next some => rw [bne_iff_ne.mpr some]

/-- The registers that opening windows may change. -/
abbrev windowRegs (a : Nat) : Prop := formRegs a ∨ a = Reg.CLM_ISOSTAT

theorem State.besideTables.clmOpen {s t : State} (h : s.besideTables t windowRegs) (n : Nat) : s.besideTables (t.clmOpen n) windowRegs := by
  rw [State.clmOpen_eq]
  exact ((h.trans ((t.besideTables_clmAsked n).weaken fun _ => .inl)).setClm _).wr (a := Reg.CLM_ISOSTAT) _ (.inr rfl)

theorem not_windowRegs_iso (n : Fin 24) : ¬ windowRegs (Reg.CLM_ISO n) := by
  have := n.isLt
  refine not_or.mpr ⟨clmPage_not_formRegs (Nat.le_add_right_of_le (by decide)) ?_, ?_⟩
  · dsimp only [Reg.CLM_ISO]
    omega
  · dsimp only [Reg.CLM_ISO, Reg.CLM_ISOSTAT]
    omega

/-- R212: the segment is isolated, not at all with WIN = 0. -/
theorem State.rb_clmOpen_same (s : State) (n : Fin 24) :
    (s.clmOpen n).rb Reg.CLM_ISOSTAT n = (s.rf (Reg.CLM_ISO n) 7 0 != 0) := by
  rw [State.clmOpen_eq, State.rb_wb_same _ _ _ _ (by omega)]
  rw [(s.besideTables_clmAsked n).rf 7 0 fun h => not_windowRegs_iso n (.inl h)]

/-- The isolation of other segments stays. -/
theorem State.rb_clmOpen_other (s : State) {m : Nat} (n : Fin 24) (h : n.val ≠ m) :
    (s.clmOpen m).rb Reg.CLM_ISOSTAT n = s.rb Reg.CLM_ISOSTAT n := by
  have kept := fun c => ((s.besideTables_clmAsked m).setClm c).rb (a := Reg.CLM_ISOSTAT) n (by decide)
  rw [State.clmOpen_eq, State.rb_wb_apart _ _ _ _ _ h (by omega)]
  exact kept _

/-- Windows that open one after the other: those of other segments leave what the window of segment n began. -/
theorem State.rb_clmOpens (n : Fin 24) (win : Nat) (l : List Nat) (s : State) (set : s.rf (Reg.CLM_ISO n) 7 0 = win)
    (h : n.val ∈ l ∨ s.rb Reg.CLM_ISOSTAT n = (win != 0)) : (l.foldl State.clmOpen s).rb Reg.CLM_ISOSTAT n = (win != 0) := by
  induction l generalizing s with
  | nil => exact h.resolve_left List.not_mem_nil
  | cons m r ih =>
    have kept : (s.clmOpen m).rf (Reg.CLM_ISO n) 7 0 = win :=
      (((State.besideTables.refl s windowRegs).clmOpen m).rf 7 0 (not_windowRegs_iso n)).trans set
    rw [List.foldl_cons]
    refine ih _ kept ?_
    by_cases same : n.val = m
    · exact .inr (by rw [← same, s.rb_clmOpen_same, set])
    · rw [s.rb_clmOpen_other n same]
      exact h.imp_left fun listed => (List.mem_cons.mp listed).resolve_left same

end Sys2Proof.Machine
end

section
/-! PROOFS. The commands of the claim ledger (R203-R213), and the statement about it. -/
namespace Sys2Proof.Machine

/-! Jobs handed to the ledger (R203-R206, R210). -/

/-- The oldest job of the ledger is taken. -/
def State.clmTaken (s : State) (rest : List Handoff) : State := { s with prv := { s.prv with clmQ := rest } }

theorem State.confined_clmTaken (s : State) (rest : List Handoff) (may : Nat → Prop) : s.confined (s.clmTaken rest) may :=
  (State.confined.refl s may).setPrv rfl

/-- A counter of the ledger's page goes up by one. -/
theorem State.rd_bumpClm (s : State) {a : Nat} (k : Nat) (lo : 0x125100 ≤ a) (hi : a < 0x126000) : (s.bump a 1 k).rd a = s.rd a + 1 :=
  s.rd_bump_one k (by omega)

/-- The claim is malformed, and counted. -/
def State.clmBad (s : State) (rest : List Handoff) : State := ((s.clmTaken rest).bump Reg.CLM_BADCLM 1 7).ist Reg.pgCLM 4

theorem State.clmBad_prv (s : State) (rest : List Handoff) : (s.clmBad rest).prv = (s.clmTaken rest).prv := by
  rw [State.clmBad, State.ist_prv, State.bump_prv]

section
variable {s : State} {h : Handoff} {rest : List Handoff} (oldest : s.prv.clmQ = h :: rest)
include oldest

theorem exec_addressClaimed_bad (claim : nfld h.job.frame.ident 23 16 = 0xEE) (bad : h.job.frame.data.length ≠ 8) :
    exec .addressClaimed s = .next (s.clmBad rest).routeWaiting := by
  change execAddressClaimed s = _
  simp only [execAddressClaimed, oldest, claim, ne_eq, not_true_eq_false, if_false, bad, not_false_eq_true, true_or, if_true]
  rfl

theorem exec_addressClaimed_learns (claim : nfld h.job.frame.ident 23 16 = 0xEE) (whole : h.job.frame.data.length = 8)
    (single : nfld h.job.frame.ident 7 0 < 0xFE) (unknown : s.clmFind h.job.src (leNat h.job.frame.data) = none) :
    exec .addressClaimed s = .next ((s.clmTaken rest).clmLearn h.epoch h.job.src (leNat h.job.frame.data)
      (nfld h.job.frame.ident 7 0)).routeWaiting := by
  have named : ¬ (h.job.frame.data.length ≠ 8 ∨ nfld h.job.frame.ident 7 0 = 0xFF) := by omega
  have alien : (s.clmTaken rest).clmFind h.job.src (leNat h.job.frame.data) = none := unknown
  rw [State.clmTaken] at alien
  change execAddressClaimed s = _
  simp only [execAddressClaimed, oldest, claim, ne_eq, not_true_eq_false, if_false, named, alien, Bool.and_false, Bool.false_eq_true]
  rfl

theorem exec_requestForAddressClaim_answers (request : nfld h.job.frame.ident 23 16 ≠ 0xEE)
    (answers : bitOf (s.cfg h.epoch Reg.CLM_CTL) 2 = true) : exec .requestForAddressClaim s
      = .next ((s.clmTaken rest).clmAnswers h.job.src (nfld h.job.frame.ident 15 8)).routeWaiting := by
  have on : bitOf ((s.clmTaken rest).cfg h.epoch Reg.CLM_CTL) 2 = true := answers
  rw [State.clmTaken] at on
  change execRequestForAddressClaim s = _
  simp only [execRequestForAddressClaim, oldest, if_neg request, on, if_true]
  rfl

/-- R203: a malformed claim is counted in BADCLM. -/
theorem addressClaimed_bad (idle : s.noneWaits) (claim : nfld h.job.frame.ident 23 16 = 0xEE) (bad : h.job.frame.data.length ≠ 8) :
    Completes .addressClaimed s fun t => t.prv.clmQ = rest
      ∧ t.rd Reg.CLM_BADCLM = s.rd Reg.CLM_BADCLM + 1 ∧ t.rb (Reg.PG_IST Reg.pgCLM) 4 = true
      ∧ s.sameRegs t [Reg.CLM_BADCLM, Reg.PG_IST Reg.pgCLM] ∧ s.sameTables t ∧ s.sameBytes t := by
  have frame := ((s.confined_clmTaken rest (· ∈ [Reg.CLM_BADCLM, Reg.PG_IST Reg.pgCLM])).bump (a := Reg.CLM_BADCLM) 1 7 (by decide)
    (by decide)).ist (b := Reg.pgCLM) 4 (by decide)
  have ran := exec_addressClaimed_bad oldest claim bad
  rw [State.routeWaiting_idle (State.noneWaits_congr (by rw [State.clmBad_prv]; rfl) idle)] at ran
  refine .of_exec ran ⟨by rw [State.clmBad_prv]; rfl, ?_, State.rb_ist_same _ _ _ (by decide), frame.sameRegs, frame.tables, frame.bytes⟩
  rw [State.clmBad, State.rd_ist_other _ _ _ _ (by decide), State.rd_bumpClm _ _ (by decide) (by decide)]
  rfl

end

/-! Answers (R210). -/

theorem State.clmSeg_clmTaken (s : State) (rest : List Handoff) (e : Nat) : (s.clmTaken rest).clmSeg e = s.clmSeg e := rfl

theorem State.besideForm_clmAnswerClaim (s : State) (e : Nat) : s.besideForm (s.clmAnswerClaim e) := s.besideForm_clmSend _ _ e none _

theorem State.clmAnswers_one {s : State} {g da e : Nat} (one : (s.clmOn g).filter (fun o => s.clmOwn o && !s.clmShadowed o) = [e])
    (holds : s.clmHolds e = true) (asked : da = 0xFF ∨ s.clmSa e = da) : s.clmAnswers g da = s.clmAnswerClaim e := by
  rw [State.clmAnswers, one, List.foldl_cons, List.foldl_nil, if_pos holds, if_pos asked]

/-! What learning leaves of Privet and of the counters. -/

theorem State.clmEntered_prv (s : State) (i g name x : Nat) : (s.clmEntered i g name x).prv = s.prv := by
  rw [State.clmEntered, State.clmSetE, State.tabOnly_clmSetState, State.setTw_prv, State.bump_prv, State.clmPeak, State.wf_prv,
    State.tabOnly_clmFresh]

theorem State.clmRogueEvent_prv (s : State) (i g : Nat) : (s.clmRogueEvent (some i) g).prv = s.prv := by
  rw [State.clmRogueEvent, State.clmLast, State.wr_prv, State.ist_prv, State.bump_prv, State.setTw_prv]

theorem State.rd_clmEntered_learned (s : State) (i g name x : Nat) :
    (s.clmEntered i g name x).rd Reg.CLM_LEARNED = s.rd Reg.CLM_LEARNED + 1 := by
  have entry : ∀ t u : State, t.tabOnly u → u.rd Reg.CLM_LEARNED = t.rd Reg.CLM_LEARNED := fun t u only =>
    only.sameRegs _ List.not_mem_nil
  rw [State.clmEntered, State.clmSetE, entry _ _ (State.tabOnly_clmSetState _ _ _), entry _ _ (State.tabOnly_setTw _ _ _),
    State.rd_bumpClm _ _ (by decide) (by decide), State.clmPeak, State.rd_wf_other _ _ _ _ (by decide),
    entry _ _ (s.tabOnly_clmFresh i g name)]

/-- The registers that learning a claim may change. -/
def learnRegs : List Nat := [Reg.CLM_OCC, Reg.CLM_LEARNED, Reg.CLM_ROGUE, Reg.CLM_LAST, Reg.PG_IST Reg.pgCLM]

/-- What the ledger holds of a NAME it has learned at address x with entry i. -/
structure State.clmLearned (s t : State) (i g name x : Nat) : Prop where
  entry : t.clmClaimed i g name x
  others : ∀ a, a < clmA i 0 ∨ clmA i 3 < a → t.tw a = s.tw a
  count : t.rd Reg.CLM_LEARNED = s.rd Reg.CLM_LEARNED + 1
  prv : t.prv = s.prv
  frame : s.besideTables t (· ∈ learnRegs)

theorem State.clmLearned_clmEntered (s : State) (c : Ledger) (i : Nat) {g name x : Nat} (hg : g < 24) (hn : name < 2 ^ 64) (hx : x < 256) :
    s.clmLearned ((s.setClm c).clmEntered i g name x) i g name x :=
  ⟨State.clmClaimed_clmEntered _ i hg hn hx, fun _ out => (State.tw_clmEntered_outside _ g name x out),
    State.rd_clmEntered_learned _ i g name x, State.clmEntered_prv _ i g name x,
    ((State.besideTables.refl s _).setClm c).clmEntered i g name x (by decide) (by decide) (by decide)⟩

theorem State.clmLearned.rogue {s t : State} {i g name x : Nat} (h : s.clmLearned t i g name x) (m : Nat) :
    s.clmLearned (t.clmRogueEvent (some i) m) i g name x := by
  obtain ⟨entry, others, count, prv, frame⟩ := h
  refine ⟨entry.rogue m, fun a out => ?_, ?_, (t.clmRogueEvent_prv i m).trans prv, frame.clmRogueEvent i m (by decide) (by decide) (by decide)⟩
  · rw [State.tw_congr (State.clmRogueEvent_tab t i m), State.tw_setTw_outside _ _ (by decide) out, others a out]
  · have kept := (State.besideTables.refl t (· ∈ [Reg.CLM_ROGUE, Reg.CLM_LAST, Reg.PG_IST Reg.pgCLM])).clmRogueEvent i m (by decide)
      (by decide) (by decide)
    rw [kept.regs _ (by decide), count]

section
variable {s : State} {h : Handoff} {rest : List Handoff} (oldest : s.prv.clmQ = h :: rest) (idle : s.noneWaits)
include oldest idle

/-- R203, R205: a claim of an unknown NAME for a free address makes a CLAIMED entry at the lowest free index. -/
theorem addressClaimed_new {n : Fin 24} {k i x name : Nat} (claim : nfld h.job.frame.ident 23 16 = 0xEE) (src : h.job.src = n)
    (whole : h.job.frame.data.length = 8) (sa : x = nfld h.job.frame.ident 7 0) (single : x < 0xFE) (named : name = leNat h.job.frame.data)
    (unknown : s.clmFind n name = none) (free : ∀ o ∈ s.clmOn n, s.clmHolds o = false ∨ s.clmSa o ≠ x ∨ s.clmShadowed o = true)
    (room : (List.range (2048 - s.cf h.epoch Reg.CLM_CTL 31 21)).find? (fun b => !s.clmValid (s.cf h.epoch Reg.CLM_CTL 31 21 + b)) = some k)
    (index : i = s.cf h.epoch Reg.CLM_CTL 31 21 + k) : Completes .addressClaimed s fun t => t.prv.clmQ = rest
      ∧ t.clmValid i = true ∧ t.clmName i = name ∧ t.clmSeg i = n ∧ t.clmSa i = x ∧ t.clmState i = 0 ∧ t.clmType i = 0
      ∧ t.rd Reg.CLM_LEARNED = s.rd Reg.CLM_LEARNED + 1 ∧ (∀ a, a < clmA i 0 ∨ clmA i 3 < a → t.tw a = s.tw a) ∧ s.sameBytes t := by
  subst sa named index
  have ran := exec_addressClaimed_learns oldest claim whole single (by rw [src]; exact unknown)
  rw [src] at ran
  have fits : leNat h.job.frame.data < 2 ^ 64 := by
    have := leNat_lt h.job.frame.data
    rwa [whole] at this
  have learned : (s.clmTaken rest).clmLearned ((s.clmTaken rest).clmLearn h.epoch n (leNat h.job.frame.data) (nfld h.job.frame.ident 7 0))
      (s.cf h.epoch Reg.CLM_CTL 31 21 + k) n (leNat h.job.frame.data) (nfld h.job.frame.ident 7 0) := by
    obtain ⟨c, r, learns⟩ := State.clmLearn_new (s := s.clmTaken rest) (ep := h.epoch) unknown single free room
    have entered := (s.clmTaken rest).clmLearned_clmEntered c (s.cf h.epoch Reg.CLM_CTL 31 21 + k) n.isLt fits
      (x := nfld h.job.frame.ident 7 0) (by omega)
    rw [learns]
    cases r
    · exact entered
    · exact entered.rogue n
  obtain ⟨⟨valid, name, seg, sa, state, type⟩, others, count, prv, frame⟩ := learned
  rw [State.routeWaiting_idle (State.noneWaits_congr (congrArg Privet.slots prv) (s := s.clmTaken rest) idle)] at ran
  exact .of_exec ran ⟨congrArg Privet.clmQ prv, valid, name, seg, sa, state, type, count, others,
    (s.confined_clmTaken rest (fun _ => True)).bytes.trans frame.bytes⟩

/-- R210: the one own entry that is asked answers with its claim. -/
theorem requestForAddressClaim_one {n : Fin 24} {e : Nat} (request : nfld h.job.frame.ident 23 16 ≠ 0xEE) (src : h.job.src = n)
    (one : (s.clmOn n).filter (fun o => s.clmOwn o && !s.clmShadowed o) = [e]) (holds : s.clmHolds e = true)
    (asked : nfld h.job.frame.ident 15 8 = 0xFF ∨ s.clmSa e = nfld h.job.frame.ident 15 8)
    (answers : bitOf (s.cfg h.epoch Reg.CLM_CTL) 2 = true) (forms : s.clmForms = true) (enabled : s.canState n ≠ 0) :
    Completes .requestForAddressClaim s fun t => t.prv.clmQ = rest
      ∧ s.formedCopy t n (ccFrame (0x18EEFF00 + s.clmSa e) (leBytes 8 (s.clmName e))) ∧ s.sameTables t ∧ s.sameBytes t := by
  have seg : s.clmSeg e = n := by
    have listed : e ∈ s.clmOn n := (List.mem_filter.mp (one ▸ List.mem_singleton_self e)).1
    exact of_decide_eq_true (Bool.and_eq_true_iff.mp (List.mem_filter.mp listed).2).2
  have ran := exec_requestForAddressClaim_answers oldest request answers
  rw [src, State.clmAnswers_one (s := s.clmTaken rest) one holds asked] at ran
  have left := (s.clmTaken rest).besideForm_clmAnswerClaim e
  rw [State.routeWaiting_idle (left.turns idle)] at ran
  have frame := (s.confined_clmTaken rest formRegs).trans left.frame
  refine .of_exec ran ⟨left.handed, ?_, frame.tables, frame.bytes⟩
  rw [← seg] at enabled ⊢
  exact State.formedCopy_clmSend (s := s.clmTaken rest) _ _ e none forms (by rw [State.clmSeg_clmTaken, seg]; omega) enabled

end

/-! Claims of the device's own entries (R207, R208). -/

theorem exec_claimFrameSent_counts {s : State} {e : Fin 2048} {k : Nat} {rest : List (Nat × Nat)}
    (oldest : s.prv.reports = ((e : Nat), k) :: rest) (pending : s.clmPending e = true) (newest : amGet s.clm.claim e = some k) :
    exec .claimFrameSent s = .next (({ s with prv := { s.prv with reports := rest } } : State).setClm
      { s.clm with wait := amPut s.clm.wait e (s.now + 250000000) }) := by
  have counts : (({ s with prv := { s.prv with reports := rest } } : State).clmPending e && amGet s.clm.claim e == some k) = true :=
    Bool.and_eq_true_iff.mpr ⟨pending, beq_iff_eq.mpr newest⟩
  change execClaimFrameSent s = _
  simp only [execClaimFrameSent, oldest, counts, if_true]
  rfl

/-- R207: the report of a claim that was not replaced starts its wait. -/
theorem claimFrameSent_newest {s : State} {e : Fin 2048} {k : Nat} {rest : List (Nat × Nat)}
    (oldest : s.prv.reports = ((e : Nat), k) :: rest) (pending : s.clmPending e = true) (newest : amGet s.clm.claim e = some k) :
    Completes .claimFrameSent s fun t => t.prv.reports = rest ∧ amGet t.clm.wait e = some (s.now + 250000000)
      ∧ s.sameRegs t [] ∧ s.sameTables t ∧ s.sameBytes t := by
  have frame := ((State.confined.refl s (· ∈ [])).setPrv (p := { s.prv with reports := rest }) rfl).setClm
    { s.clm with wait := amPut s.clm.wait e (s.now + 250000000) }
  exact .of_exec (exec_claimFrameSent_counts oldest pending newest) ⟨rfl, amGet_put_same _ _ _, frame.sameRegs, frame.tables, frame.bytes⟩

/-- The wait of entry e has ended. -/
def State.clmWaited (s : State) (e : Nat) : State := s.setClm { s.clm with wait := amDel s.clm.wait e }

theorem exec_claimWaitExpiry_pending {s : State} {e : Fin 2048} (due : timerDue s.clm.wait e s.now = true)
    (pending : s.clmPending e = true) : exec (.claimWaitExpiry e) s = .next ((s.clmWaited e).clmSetState e 0) := by
  have stands : (s.clmWaited e).clmPending e = true := pending
  change execClaimWaitExpiry e s = _
  rw [execClaimWaitExpiry, if_pos due]
  exact if_pos stands

/-- R207: after the wait the entry is CLAIMED. -/
theorem claimWaitExpiry_pending {s : State} {e : Fin 2048} (due : timerDue s.clm.wait e s.now = true) (pending : s.clmPending e = true) :
    Completes (.claimWaitExpiry e) s fun t => t.clmState e = 0 ∧ amGet t.clm.wait e = none ∧ t.clmSa e = s.clmSa e
      ∧ s.sameRegs t [] ∧ s.sameBytes t := by
  have frame := ((State.besideTables.refl s (· ∈ [])).setClm { s.clm with wait := amDel s.clm.wait e }).clmSetState e 0
  refine .of_exec (exec_claimWaitExpiry_pending due pending) ⟨State.clmState_clmSetState _ _ (by decide), amGet_del_same _ _, ?_,
    frame.regs, frame.bytes⟩
  exact State.clmSa_clmSetState _ _ _

/-- The dropped claim of entry e is due again. -/
def State.clmRetried (s : State) (e : Nat) : State := s.setClm { s.clm with retry := amDel s.clm.retry e }

theorem exec_claimRetry_pending {s : State} {e : Fin 2048} (due : timerDue s.clm.retry e s.now = true)
    (pending : s.clmPending e = true) : exec (.claimRetry e) s = .next ((s.clmRetried e).clmClaimFrame e) := by
  have stands : (s.clmRetried e).clmPending e = true := pending
  change execClaimRetry e s = _
  rw [execClaimRetry, if_pos due]
  exact if_pos stands

/-- An entry with a claim under way is on one of the 24 segments (R200). -/
theorem State.seg_of_clmPending {s : State} {e : Nat} (pending : s.clmPending e = true) : s.clmSeg e ≤ 23 := by
  simp only [State.clmPending, State.clmUse, Bool.and_eq_true, decide_eq_true_eq] at pending
  obtain ⟨⟨⟨⟨⟨-, seg⟩, -⟩, -⟩, -⟩, -⟩ := pending
  exact seg

/-- A claim that enters Privet is not tried again. -/
theorem State.clmClaimFrame_on {s : State} {e : Nat} (forms : s.clmForms = true) (seg : s.clmSeg e ≤ 23)
    (enabled : s.canState (s.clmSeg e) ≠ 0) : s.clmClaimFrame e = (s.clmSend (s.clmSeg e) (0x18EEFF00 + s.clmSa e)
      (leBytes 8 (s.clmName e)) (.ledger e (some ((amGet s.clm.claim e).getD 0)))).1 := by
  simp only [State.clmClaimFrame, State.clmSend_on _ _ _ _ forms seg enabled, if_true]

/-- R207: a dropped claim is formed again. -/
theorem claimRetry_pending {s : State} {e : Fin 2048} (due : timerDue s.clm.retry e s.now = true) (pending : s.clmPending e = true)
    (forms : s.clmForms = true) (enabled : s.canState (s.clmSeg e) ≠ 0) : Completes (.claimRetry e) s fun t => amGet t.clm.retry e = none
      ∧ s.formedCopy t (s.clmSeg e) (ccFrame (0x18EEFF00 + s.clmSa e) (leBytes 8 (s.clmName e))) ∧ s.sameTables t ∧ s.sameBytes t := by
  have seg := State.seg_of_clmPending pending
  have ran := exec_claimRetry_pending due pending
  rw [State.clmClaimFrame_on (s := s.clmRetried e) forms seg enabled] at ran
  have left := (s.clmRetried e).besideForm_clmSend (0x18EEFF00 + s.clmSa e) (leBytes 8 (s.clmName e)) e
    (some ((amGet s.clm.claim e).getD 0)) (s.clmSeg e)
  have frame := ((State.confined.refl s formRegs).setClm { s.clm with retry := amDel s.clm.retry e }).trans left.frame
  refine .of_exec ran ⟨(congrArg (fun c : Ledger => amGet c.retry e) left.clm).trans (amGet_del_same _ _), ?_, frame.tables, frame.bytes⟩
  exact State.formedCopy_clmSend (s := s.clmRetried e) _ _ _ _ forms seg enabled

/-- The delay of entry e's cannot-claim has ended. -/
def State.clmLosing (s : State) (e : Nat) : State := s.setClm { s.clm with cannot := amDel s.clm.cannot e }

/-- The loss of entry e's address is counted and reported. -/
def State.clmLostReport (t : State) (e : Nat) : State := ((t.bump Reg.CLM_PXLOST 1 7).ist Reg.pgCLM 3).clmLast 3 (t.clmSeg e) e

theorem State.clmSeg_congr {s t : State} (h : s.sameTables t) (e : Nat) : t.clmSeg e = s.clmSeg e := by
  rw [State.clmSeg, h, State.clmSeg]

theorem State.clmLostReport_prv (t : State) (e : Nat) : (t.clmLostReport e).prv = t.prv := by
  rw [State.clmLostReport, State.clmLast, State.wr_prv, State.ist_prv, State.bump_prv]

theorem State.clmLostReport_clm (t : State) (e : Nat) : (t.clmLostReport e).clm = t.clm := by
  rw [State.clmLostReport, State.clmLast, State.wr_clm, State.ist_clm, State.bump_clm]

theorem State.confined_clmLostReport (t : State) (e : Nat) : t.confined (t.clmLostReport e) fun _ => True :=
  (((State.confined.refl t _).bump 1 7 trivial trivial).ist 3 trivial).wr _ trivial

theorem State.rd_clmLostReport_count (t : State) (e : Nat) : (t.clmLostReport e).rd Reg.CLM_PXLOST = t.rd Reg.CLM_PXLOST + 1 := by
  rw [State.clmLostReport, State.clmLast, State.rd_wr_other _ _ (by decide), State.rd_ist_other _ _ _ _ (by decide),
    State.rd_bumpClm _ _ (by decide) (by decide)]

theorem State.rb_clmLostReport_event (t : State) (e : Nat) : (t.clmLostReport e).rb (Reg.PG_IST Reg.pgCLM) 3 = true := by
  rw [State.clmLostReport, State.clmLast, State.rb, State.rd_wr_other _ _ (by decide)]
  exact State.rb_ist_same _ _ _ (by decide)

/-- A copy is looked for in Privet alone. -/
theorem State.formedCopy.congr {s t u : State} {g : Nat} {f : CanFrame} (h : s.formedCopy t g f) (prv : u.prv = t.prv) :
    s.formedCopy u g f := by
  rw [State.formedCopy, prv]
  exact h

theorem exec_cannotClaimSend_due {s : State} {e : Fin 2048} (due : timerDue s.clm.cannot e s.now = true) :
    exec (.cannotClaimSend e) s = .next (((s.clmLosing e).clmCannot e).clmLostReport e) := by
  change execCannotClaimSend e s = _
  rw [execCannotClaimSend, if_pos due, State.clmLostReport, State.clmLosing]

/-- R208: a displaced own entry sends its cannot-claim and is reported. -/
theorem cannotClaimSend_due {s : State} {e : Fin 2048} (due : timerDue s.clm.cannot e s.now = true) :
    Completes (.cannotClaimSend e) s fun t => amGet t.clm.cannot e = none
      ∧ t.rd Reg.CLM_PXLOST = s.rd Reg.CLM_PXLOST + 1 ∧ t.rb (Reg.PG_IST Reg.pgCLM) 3 = true
      ∧ t.rd Reg.CLM_LAST = BitVec.ofNat 32 (2 ^ 31 + 3 * 2 ^ 29 + s.clmSeg e * 2 ^ 24 + e)
      ∧ (s.clmForms = true → s.clmSeg e ≤ 23 → s.canState (s.clmSeg e) ≠ 0 →
        s.formedCopy t (s.clmSeg e) (ccFrame 0x18EEFFFE (leBytes 8 (s.clmName e)))) ∧ s.sameTables t ∧ s.sameBytes t := by
  have left := (s.clmLosing e).besideForm_clmSend 0x18EEFFFE (leBytes 8 (s.clmName e)) e none (s.clmSeg e)
  have frame := ((((State.confined.refl s fun _ => True).setClm { s.clm with cannot := amDel s.clm.cannot e }).trans
    (left.frame.weaken fun _ _ => trivial)).trans (State.confined_clmLostReport _ e))
  have seg : ((s.clmLosing e).clmCannot e).clmSeg e = s.clmSeg e := State.clmSeg_congr (s := s.clmLosing e) left.frame.tables e
  refine .of_exec (exec_cannotClaimSend_due due) ⟨?ended, ?count, State.rb_clmLostReport_event _ _, ?last, fun forms here enabled => ?formed,
    frame.tables, frame.bytes⟩
  case ended =>
    rw [State.clmLostReport_clm]
    exact (congrArg (fun c : Ledger => amGet c.cannot e) left.clm).trans (amGet_del_same _ _)
  case count =>
    rw [State.rd_clmLostReport_count]
    exact congrArg (· + 1) (left.frame.regs Reg.CLM_PXLOST (by decide))
  case last => rw [State.clmLostReport, seg, State.clmLast, State.rd_wr_same]
  case formed =>
    exact (State.formedCopy_clmSend (s := s.clmLosing e) 0x18EEFFFE _ _ _ forms here enabled).congr (State.clmLostReport_prv _ _)

/-! Commands of the bus (R210-R212). -/

/-- A write of a command register that stores nothing acts on the state as it is, its unlock ended. -/
theorem State.cmdWrite_command {s : State} (i : Initiator) {a : Nat} {r : RegRow} (v : Word) (f : State → State) (run : s.pwr.held = false)
    (row : rowAt a = some r) (o : 0x100 ≤ a % 0x1000) (acc : r.acc = .wo) (keep : (s.setUnlock i a false).discards i a v = false) :
    s.cmdWrite i a v f = f (s.setUnlock i a false) := by
  rw [State.cmdWrite_row run row o (fun g => nomatch acc.symm.trans g) (fun g => nomatch acc.symm.trans g) keep,
    State.store_none _ _ _ (by omega) (.inr (.inr acc))]

theorem clmReqWrite_go {s : State} {v : Word} (go : bitOf v 31 = true) (seg : fld v 4 0 ≤ 23) :
    clmReqWrite v s = s.clmRequest (fld v 4 0) := if_pos ⟨go, seg⟩

theorem clmFlushWrite_go {s : State} {v : Word} (go : bitOf v 31 = true) (seg : fld v 4 0 ≤ 23) :
    clmFlushWrite v s = s.clmFlushSeg (fld v 4 0) := if_pos ⟨go, seg⟩

section
variable {s : State} {init : Initiator} {v : Word} (run : s.pwr.held = false)
include run

theorem exec_clmReq_run : exec (.clmReq init v) s = .next (clmReqWrite v (s.setUnlock init Reg.CLM_REQ false)) :=
  congrArg Host.Outcome.next (State.cmdWrite_command (r := ⟨0x110, 4, 1, 4, 1, .wo, 0x0, 0x0, 0x0, false⟩) init v _ run (by decide)
    (by decide) rfl rfl)

theorem exec_ledgerFlush_run : exec (.ledgerFlush init v) s = .next (clmFlushWrite v (s.setUnlock init Reg.CLM_FLUSH false)) :=
  congrArg Host.Outcome.next (State.cmdWrite_command (r := ⟨0x10C, 4, 1, 4, 1, .wo, 0x0, 0x0, 0x0, false⟩) init v _ run (by decide)
    (by decide) rfl rfl)

theorem exec_claimWindowOpen_run (n : Fin 24) : exec (.claimWindowOpen n (some (init, v))) s
    = .next (isoStartWrite v (s.setUnlock init Reg.CLM_ISOSTART false)) :=
  congrArg Host.Outcome.next (State.cmdWrite_command (r := ⟨0x300, 4, 1, 4, 1, .wo, 0x0, 0x0, 0x0, false⟩) init v _ run (by decide)
    (by decide) rfl rfl)

/-- R210: CLM_REQ sends a Request for Address Claim. -/
theorem clmReq_run (go : bitOf v 31 = true) (seg : fld v 4 0 ≤ 23) (forms : s.clmForms = true) (enabled : s.canState (fld v 4 0) ≠ 0) :
    Completes (.clmReq init v) s fun t =>
      s.formedCopy t (fld v 4 0) (ccFrame 0x18EAFFFE [0x00, 0xEE, 0x00]) ∧ s.sameTables t ∧ s.sameBytes t := by
  have ran := exec_clmReq_run (init := init) (v := v) run
  rw [clmReqWrite_go go seg] at ran
  have frame := ((State.confined.refl s formRegs).setUnlock init Reg.CLM_REQ false).trans
    ((s.setUnlock init Reg.CLM_REQ false).besideForm_clmSend 0x18EAFFFE [0x00, 0xEE, 0x00] 2048 none (fld v 4 0)).frame
  refine .of_exec ran ⟨?_, frame.tables, frame.bytes⟩
  exact State.formedCopy_clmSend (s := s.setUnlock init Reg.CLM_REQ false) _ _ _ _ forms seg enabled

/-- R211: CLM_FLUSH invalidates the NATIVE entries of its segment. -/
theorem ledgerFlush_run (e : Fin 2048) (go : bitOf v 31 = true) (seg : fld v 4 0 ≤ 23) : Completes (.ledgerFlush init v) s fun t =>
    (s.clmValid e = true → s.clmType e = 0 → s.clmSeg e = fld v 4 0 → t.clmValid e = false)
      ∧ (s.clmType e ≠ 0 ∨ s.clmSeg e ≠ fld v 4 0 → ∀ w, w < 4 → t.tw (clmA e w) = s.tw (clmA e w))
      ∧ s.sameRegs t [] ∧ s.sameBytes t := by
  have ran := exec_ledgerFlush_run (init := init) (v := v) run
  rw [clmFlushWrite_go go seg] at ran
  have unlocked := (State.besideTables.refl s (· ∈ [])).confined ((State.confined.refl s (· ∈ [])).setUnlock init Reg.CLM_FLUSH false) rfl
  have frame := unlocked.clmFlushSeg (fld v 4 0)
  exact .of_exec ran ⟨
    fun valid native onSeg => State.clmValid_clmFlushSeg (s := s.setUnlock init Reg.CLM_FLUSH false) e.isLt valid native onSeg,
    fun other w hw => State.tw_clmFlushSeg (s := s.setUnlock init Reg.CLM_FLUSH false) hw other, frame.regs, frame.bytes⟩

/-- R212: CLM_ISOSTART opens the window of each segment it names. -/
theorem claimWindowOpen_command (n : Fin 24) (named : nbit (fld v 23 0) n = true) :
    Completes (.claimWindowOpen n (some (init, v))) s fun t =>
      t.rb Reg.CLM_ISOSTAT n = (s.rf (Reg.CLM_ISO n) 7 0 != 0) ∧ s.sameBytes t := by
  have unlocked := (State.besideTables.refl s windowRegs).confined ((State.confined.refl s windowRegs).setUnlock init Reg.CLM_ISOSTART false) rfl
  have frame : s.besideTables (isoStartWrite v (s.setUnlock init Reg.CLM_ISOSTART false)) windowRegs :=
    .foldl _ (fun _ m hu => hu.clmOpen m) unlocked
  exact .of_exec (exec_claimWindowOpen_run run n) ⟨State.rb_clmOpens n _ _ (s.setUnlock init Reg.CLM_ISOSTART false) rfl
    (.inl (List.mem_filter.mpr ⟨List.mem_range.mpr n.isLt, named⟩)), frame.bytes⟩

end

/-! Windows that open and end by themselves (R212). -/

/-- The controller of segment n no longer waits for its window. -/
def State.clmOpening (s : State) (n : Nat) : State := s.setCan n { s.canOf n with openDue := false }

theorem exec_claimWindowOpen_due {s : State} {n : Fin 24} (due : (s.canOf n).openDue = true) :
    exec (.claimWindowOpen n none) s = .next ((s.clmOpening n).clmOpen n) := if_pos due

/-- R212: the window ends WIN x 10 ms after it opened. -/
theorem State.win_clmOpen {s : State} {n : Fin 24} (win : s.rf (Reg.CLM_ISO n) 7 0 ≠ 0) :
    amGet (s.clmOpen n).clm.win n = some (s.now + s.rf (Reg.CLM_ISO n) 7 0 * 10000000) := by
  have kept := s.besideTables_clmAsked n
  rw [State.clmOpen_eq, State.wb, State.wr_clm, kept.rf 7 0 fun h => not_windowRegs_iso n (.inl h), State.clmWindow, if_neg win, kept.now]
  exact amGet_put_same _ _ _

/-- R212: a controller's first error-active state opens the window of its segment. -/
theorem claimWindowOpen_due {s : State} {n : Fin 24} (due : (s.canOf n).openDue = true) : Completes (.claimWindowOpen n none) s fun t =>
    t.rb Reg.CLM_ISOSTAT n = (s.rf (Reg.CLM_ISO n) 7 0 != 0) ∧ (t.canOf n).openDue = false
      ∧ (s.rf (Reg.CLM_ISO n) 7 0 ≠ 0 → amGet t.clm.win n = some (s.now + s.rf (Reg.CLM_ISO n) 7 0 * 10000000)) ∧ s.sameBytes t := by
  have frame := (State.besideTables.refl (s.clmOpening n) windowRegs).clmOpen n
  refine .of_exec (exec_claimWindowOpen_due due) ⟨State.rb_clmOpen_same _ n, ?_, fun win => State.win_clmOpen (s := s.clmOpening n) win,
    frame.bytes⟩
  rw [State.canOf_congr frame.can, State.clmOpening, State.canOf_setCan_same]

theorem exec_claimWindowEnd_due {s : State} {n : Fin 24} (due : timerDue s.clm.win n s.now = true) : exec (.claimWindowEnd n) s
    = .next ((s.setClm { s.clm with win := amDel s.clm.win n }).wb Reg.CLM_ISOSTAT n false) := if_pos due

/-- R212: the end of a window ends the isolation of its segment. -/
theorem claimWindowEnd_due {s : State} {n : Fin 24} (due : timerDue s.clm.win n s.now = true) : Completes (.claimWindowEnd n) s fun t =>
    t.rb Reg.CLM_ISOSTAT n = false ∧ amGet t.clm.win n = none ∧ s.sameRegs t [Reg.CLM_ISOSTAT] ∧ s.sameTables t ∧ s.sameBytes t := by
  have frame := ((State.confined.refl s (· ∈ [Reg.CLM_ISOSTAT])).setClm { s.clm with win := amDel s.clm.win n }).wb (a := Reg.CLM_ISOSTAT)
    n false (by decide)
  exact .of_exec (exec_claimWindowEnd_due due) ⟨State.rb_wb_same _ _ _ _ (by omega), amGet_del_same _ _, frame.sameRegs, frame.tables,
    frame.bytes⟩

/-- Settles O27, command by command. -/
theorem claimLedgerLearnsAnswersAndClaims : Obligations.ClaimLedgerLearnsAnswersAndClaims := by
  intro s init v n e
  refine ⟨?learns, ?answers, fun _ _ => claimFrameSent_newest, claimWaitExpiry_pending, claimRetry_pending, cannotClaimSend_due, clmReq_run,
    fun run => ledgerFlush_run run e, claimWindowOpen_due, fun run => claimWindowOpen_command run n,
    claimWindowEnd_due⟩
  case learns => exact fun h rest k i x name oldest idle claim => ⟨addressClaimed_bad oldest idle claim,
    fun src whole sa single named unknown free room index => addressClaimed_new oldest idle claim src whole sa single named unknown free room index⟩
  case answers => exact fun h rest oldest idle => requestForAddressClaim_one oldest idle

end Sys2Proof.Machine
end

section
/-! PROOFS. Transport sessions (R217-R228): the statement about them fails for a session whose segment is not one of the 24, which it asks
of its clauses of relays and of packets and not of those of the session's own timers. -/
namespace Sys2Proof.Machine

/-- A session to the host from segment 1490, the segment whose count of copies to a DISABLED controller would stand at TPE_ABTX; its
last packet came at time 0. -/
def strayedSession : TpeSession :=
  { kind := 0, hostd := true, seg := 1490, sa := 0, da := 0, pgn := 0, size := 9, stamp := 0, pages := [0], got := 1, winStart := 1,
    winEnd := 2, dpo := none, ctsM := 0, any := true, since := 0, delivering := false, failed := false, parts := [] }

/-- Session 0 has waited 750 ms for a packet. -/
def strayedWaits : State :=
  { State.base with
    tsy := { State.base.tsy with loc := 750000000 }
    tpe := { State.base.tpe with ses := [(0, strayedSession)] } }

/-- The Abort at T1 is a copy to a controller that is DISABLED and counts there too: the counter at TPE_ABTX goes up by two. -/
theorem strayedWaits_countsTwice : (strayedWaits.tpeTmo.tpeAbortIn 0 strayedSession 3).rd Reg.TPE_ABTX = 2 := by decide +kernel

theorem exec_t1Timeout_strayed :
    exec (.t1Timeout 0) strayedWaits = .next (strayedWaits.tpeTmo.tpeAbortIn 0 strayedSession 3) := by
  have held : strayedWaits.ses (0 : Fin 128) = some strayedSession := rfl
  have due : (!strayedSession.delivering && strayedSession.any && decide (strayedSession.since + 750000000 ≤ strayedWaits.now)) = true := by
    decide
  have toHost : strayedSession.kind ≠ 1 := by decide
  change execT1Timeout 0 strayedWaits = _
  simp only [execT1Timeout, held, due, if_true, if_neg toHost]
  rfl

/-- Refutes O28: at T1 a session from segment 1490 counts its Abort at TPE_ABTX twice, as an Abort and as the copy dropped at that
segment. -/
theorem not_transportSessionsOpenFlowAndEnd : ¬ Obligations.TransportSessionsOpenFlowAndEnd := by
  intro h
  obtain ⟨-, timers, -⟩ := h strayedWaits ⟨⟨0, false, ccFrame 0 [], 0, 0, 0, 0, none, none⟩, 0, 0⟩ [] 0 strayedSession
    ⟨0, .host 0, 0, 0, .window, 0⟩ .host 0
  obtain ⟨t1, -⟩ := timers rfl rfl
  obtain ⟨t, ran, -, -, -, -, aborted, -⟩ := t1 rfl (by decide)
  have ended : t = strayedWaits.tpeTmo.tpeAbortIn 0 strayedSession 3 :=
    (Host.Outcome.next.inj (exec_t1Timeout_strayed.symm.trans ran)).symm
  have once : t.rd Reg.TPE_ABTX = 1 := aborted (by decide)
  rw [ended, strayedWaits_countsTwice] at once
  exact absurd once (by decide)

end Sys2Proof.Machine
end

section
/-! PROOFS. The record and the registers of an Ethernet port (R229-R253): what a port reads as after an update, and what the shared
operations on ports and on the switch may change. -/
namespace Sys2Proof.Machine

/-! Records. -/

@[simp] theorem State.emacOf_setEmac_same (s : State) (p : Nat) (e : Emac) : (s.setEmac p e).emacOf p = e := amGetD_set_same _ _ _ _

theorem State.emacOf_setEmac_other (s : State) {p q : Nat} (e : Emac) (h : q ≠ p) : (s.setEmac p e).emacOf q = s.emacOf q :=
  amGetD_set_other _ _ _ _ h

theorem State.emacOf_congr {s t : State} (h : t.emac = s.emac) (p : Nat) : t.emacOf p = s.emacOf p := by
  rw [State.emacOf, h, State.emacOf]

@[simp] theorem State.rd_setEmac (s : State) (p : Nat) (e : Emac) (a : Nat) : (s.setEmac p e).rd a = s.rd a := rfl

/-- An update of one record, read at any port. -/
theorem State.emacOf_setEmac (s : State) (p q : Nat) (e : Emac) :
    (s.setEmac p e).emacOf q = if q = p then e else s.emacOf q := by
  split
  case isTrue same => rw [same, State.emacOf_setEmac_same]
  case isFalse other => exact s.emacOf_setEmac_other e other

/-- The watchdogs change their own times alone (R246). -/
theorem State.emacOf_wdSync (s : State) (p q : Nat) : ∃ w, (s.wdSync p).emacOf q = { s.emacOf q with wd := w } := by
  unfold State.wdSync
  split
  · exact ⟨_, rfl⟩
  · dsimp only
    rw [State.emacOf_setEmac]
    split
    case isTrue same => exact ⟨_, by rw [same]⟩
    case isFalse => exact ⟨_, rfl⟩

/-! Registers of a port's page. -/

theorem pageBase_emac (n : Nat) {o : Nat} (h : o < 0x1000) : pageBase (0x200000 + o + 0x1000 * n) = Reg.pgEMAC n := by
  dsimp only [pageBase, Reg.pgEMAC]
  omega

/-- The registers of port p's page at the offsets of os. -/
def portRegs (p : Nat) (os : List Nat) (a : Nat) : Prop := ∃ o ∈ os, a = 0x200000 + o + 0x1000 * p

theorem portRegs_at {p o : Nat} {os : List Nat} (h : o ∈ os) : portRegs p os (0x200000 + o + 0x1000 * p) := ⟨o, h, rfl⟩

theorem portRegs_event {p : Nat} {os : List Nat} (h : 0x10 ∈ os) : portRegs p os (Reg.PG_IST (Reg.pgEMAC p)) :=
  ⟨0x10, h, by dsimp only [Reg.PG_IST, Reg.pgEMAC]; omega⟩

theorem not_portRegs_at {p o : Nat} {os : List Nat} (h : o ∉ os) : ¬ portRegs p os (0x200000 + o + 0x1000 * p) := by
  rintro ⟨x, listed, same⟩
  exact h ((show x = o by omega) ▸ listed)

/-- An address outside the pages of the ports. -/
theorem not_portRegs_off {p a : Nat} {os : List Nat} (port : p < 14) (offsets : ∀ o ∈ os, o < 0x1000) (off : a < 0x200000 ∨ 0x20E000 ≤ a) :
    ¬ portRegs p os a := by
  rintro ⟨x, listed, same⟩
  have := offsets x listed
  omega

theorem pageBase_t1sp (n : Nat) {o : Nat} (h : o < 0x1000) : pageBase (0x820000 + o + 0x1000 * n) = Reg.pgT1SP n := by
  dsimp only [pageBase, Reg.pgT1SP]
  omega

section
variable {s t : State} {may : Nat → Prop} (h : s.confined t may)
include h

theorem State.confined.setEmac (p : Nat) (e : Emac) : s.confined (t.setEmac p e) may :=
  ⟨h.regs, h.tables, h.bytes, h.sent, h.tsy, h.mono⟩

theorem State.confined.wdSync (p : Nat) : s.confined (t.wdSync p) may := h.ite (h.setEmac _ _)

/-- A counter of a port's page. -/
theorem State.confined.bumpEmac {n o : Nat} (k i : Nat) (ho : o < 0x1000) (ha : may (0x200000 + o + 0x1000 * n))
    (hb : may (Reg.PG_IST (Reg.pgEMAC n))) : s.confined (t.bump (0x200000 + o + 0x1000 * n) k i) may :=
  h.bump k i ha (by rw [pageBase_emac n ho]; exact hb)

theorem State.confined.standby (out : ¬ may Reg.PAIR_STAT) : t.standby = s.standby := by
  rw [State.standby, h.rf 1 0 out, State.standby]

theorem State.confined.ethRate {p : Nat} (out : ¬ may (Reg.EMAC_STAT p)) : t.ethRate p = s.ethRate p := by
  rw [State.ethRate, h.rf 7 4 out, State.ethRate]

theorem State.confined.quantaNs {p : Nat} (q : Nat) (out : ¬ may (Reg.EMAC_STAT p)) : t.quantaNs p q = s.quantaNs p q := by
  rw [State.quantaNs, h.ethRate out, State.quantaNs]

end

/-- The frame of the statements. -/
theorem State.confined.portRegs_sameRegs {s t : State} {p : Nat} {os l : List Nat} (h : s.confined t (portRegs p os))
    (event : Reg.PG_IST (Reg.pgEMAC p) ∈ l) (sub : ∀ o ∈ os, o = 0x10 ∨ 0x200000 + o + 0x1000 * p ∈ l) : s.sameRegs t l := fun a out =>
  h.regs a fun ⟨o, listed, same⟩ => (sub o listed).elim
    (fun is => out (by rwa [show a = Reg.PG_IST (Reg.pgEMAC p) by rw [same, is]; dsimp only [Reg.PG_IST, Reg.pgEMAC]; omega]))
    (fun own => out (same ▸ own))

/-- A counter of a port's page goes up by one. -/
theorem State.rd_bumpEmac (s : State) (p : Nat) {o : Nat} (k : Nat) (above : 0x100 ≤ o % 0x1000) :
    (s.bump (0x200000 + o + 0x1000 * p) 1 k).rd (0x200000 + o + 0x1000 * p) = s.rd (0x200000 + o + 0x1000 * p) + 1 :=
  s.rd_bump_one k (by omega)

end Sys2Proof.Machine
end

section
/-! PROOFS. Received pauses and their watchdog (R239, R244, R246): the classes that PAUSE and PFC stop, the end of a pause, and the class
that is released and ignored. -/
namespace Sys2Proof.Machine

/-! Pauses that are set (R239, R244). -/

theorem State.pause_wdSync (s : State) (p q : Nat) : ((s.wdSync p).emacOf q).pause = (s.emacOf q).pause := by
  obtain ⟨w, eq⟩ := s.emacOf_wdSync p q
  rw [eq]

theorem State.pauseIgn_congr {s t : State} (emac : t.emac = s.emac) (now : t.now = s.now) (p c : Nat) : t.pauseIgn p c = s.pauseIgn p c := by
  rw [State.pauseIgn, State.emacOf_congr emac, now, State.pauseIgn]

theorem State.confined.pauseSet {s t : State} {may : Nat → Prop} (h : s.confined t may) (p c q : Nat) : s.confined (t.pauseSet p c q) may :=
  ((h.wdSync p).setEmac p _).wdSync p

theorem State.confined.pauseSets {s t : State} {may : Nat → Prop} (h : s.confined t may) (p : Nat) (cs : List Nat) (q : Nat → Nat) :
    s.confined (cs.foldl (fun u c => u.pauseSet p c (q c)) t) may :=
  h.foldl cs fun _ c _ hu => hu.pauseSet p c (q c)

/-- Where class k of port p stands after it was paused for q quanta. -/
def State.pauseEnd (s : State) (p q : Nat) : Option Nat := if q = 0 then none else some (s.now + s.quantaNs p q)

theorem State.pauseEnd_paused {s : State} {p q : Nat} (some_ : q ≠ 0) (rate : s.ethRate p ≠ 0) :
    s.pauseEnd p q = some (s.now + q * 512 * 1000 / s.ethRate p) := by
  rw [State.pauseEnd, if_neg some_, State.quantaNs, if_neg rate]

theorem State.pause_pauseSet (s : State) (p c q k : Nat) : amGet ((s.pauseSet p c q).emacOf p).pause k
    = if k = c then s.pauseEnd p q else amGet (s.emacOf p).pause k := by
  have frame := (State.confined.refl s (· ∈ [])).wdSync p
  unfold State.pauseSet
  dsimp only
  rw [State.pause_wdSync, State.emacOf_setEmac_same, State.pause_wdSync, frame.now, frame.quantaNs q List.not_mem_nil, State.pauseEnd]
  by_cases same : k = c
  · subst same
    rw [if_pos rfl]
    split
    · exact amGet_del_same _ _
    · exact amGet_put_same _ _ _
  · rw [if_neg same]
    split
    · exact amGet_del_other _ same
    · exact amGet_put_other _ _ same

/-- Pauses of several classes: each holds its own, and the others stay. -/
theorem State.pause_pauseSets (p k : Nat) (q : Nat → Nat) (cs : List Nat) (s : State) :
    amGet ((cs.foldl (fun t c => t.pauseSet p c (q c)) s).emacOf p).pause k
      = if k ∈ cs then s.pauseEnd p (q k) else amGet (s.emacOf p).pause k := by
  induction cs generalizing s with
  | nil => rfl
  | cons c cs ih =>
    have frame := (State.confined.refl s (· ∈ [])).pauseSet p c (q c)
    have later : (s.pauseSet p c (q c)).pauseEnd p (q k) = s.pauseEnd p (q k) := by
      rw [State.pauseEnd, frame.now, frame.quantaNs _ List.not_mem_nil, State.pauseEnd]
    rw [List.foldl_cons, ih, later, State.pause_pauseSet]
    by_cases rest : k ∈ cs
    · rw [if_pos rest, if_pos (List.mem_cons_of_mem c rest)]
    · rw [if_neg rest]
      by_cases first : k = c
      · rw [if_pos first, if_pos (List.mem_cons.mpr (.inl first)), first]
      · rw [if_neg first, if_neg (fun member => (List.mem_cons.mp member).elim first rest)]

/-! Received frames (R239). -/

/-- A received pause frame, counted at offset o of the page. -/
theorem State.confined_pauseCounted (s : State) (p : Nat) {o : Nat} (ho : o < 0x1000) :
    s.confined (s.bump (0x200000 + o + 0x1000 * p) 1 7) (portRegs p [o, 0x10]) :=
  (State.confined.refl s _).bumpEmac 1 7 ho (portRegs_at (by simp)) (portRegs_event (by simp))

/-- The classes on which port p acts in a PFC of class vector vec (R239). -/
def State.pfcActed (s : State) (p vec : Nat) : List Nat :=
  (setBits (vec &&& s.rf (Reg.EMAC_FC p) 15 8) 8).filter (fun c => !s.pauseIgn p c)

theorem State.mem_pfcActed {s : State} {p vec k : Nat} : k ∈ s.pfcActed p vec
    ↔ k < 8 ∧ nbit vec k = true ∧ nbit (s.rf (Reg.EMAC_FC p) 15 8) k = true ∧ s.pauseIgn p k = false := by
  simp only [State.pfcActed, setBits, List.mem_filter, List.mem_range, nbit_testBit, Nat.testBit_and, Bool.and_eq_true, Bool.not_eq_true',
    and_assoc]

/-- The quanta that a PFC names for class c. -/
def quantaOf (qs : List (Fin 65536)) (c : Nat) : Nat := match qs[c]? with | some q => q.val | none => 0

section
variable {s : State} {p : Fin 14} (link : s.ethLink p = true) (active : s.standby = false)
include link active

theorem exec_pauseReceive_acts (q : Fin 65536) (mode : s.rf (Reg.EMAC_FC p) 1 0 = 1) (heeds : s.pauseIgn p 8 = false) :
    exec (.pauseReceive p q) s = .next ((s.bump (Reg.EMAC_RXPAUSE p) 1 7).pauseSet p 8 q) := by
  have counted := s.confined_pauseCounted p (o := 0x22C) (by decide)
  have mode' := (counted.rf (a := Reg.EMAC_FC p) 1 0 (not_portRegs_at (o := 0x108) (by decide))).trans mode
  have active' := (counted.standby (not_portRegs_off p.isLt (by decide) (.inl (by decide)))).trans active
  have heeds' := (State.pauseIgn_congr (State.bump_emac s (Reg.EMAC_RXPAUSE p) 1 7) counted.now p 8).trans heeds
  change Host.Outcome.next (if s.ethLink p then s.pauseRx p q else s) = _
  rw [if_pos link, State.pauseRx]
  exact congrArg _ (if_pos ⟨mode', by simp [active'], by simp [heeds']⟩)

/-- R239: a PAUSE stops the whole port. -/
theorem pauseReceive_acts (q : Fin 65536) (mode : s.rf (Reg.EMAC_FC p) 1 0 = 1) (heeds : s.pauseIgn p 8 = false) (stops : q.val ≠ 0)
    (rate : s.ethRate p ≠ 0) : Completes (.pauseReceive p q) s fun t =>
      amGet (t.emacOf p).pause 8 = some (s.now + q * 512 * 1000 / s.ethRate p)
      ∧ t.rd (Reg.EMAC_RXPAUSE p) = s.rd (Reg.EMAC_RXPAUSE p) + 1
      ∧ s.sameRegs t [Reg.EMAC_RXPAUSE p, Reg.PG_IST (Reg.pgEMAC p)] ∧ s.sameTables t ∧ s.sameBytes t := by
  have counted := s.confined_pauseCounted p (o := 0x22C) (by decide)
  have stat := counted.ethRate (p := p) (not_portRegs_at (o := 0x120) (by decide))
  have frame := counted.pauseSet p 8 q
  refine .of_exec (exec_pauseReceive_acts link active q mode heeds) ⟨?pause, ?count, frame.portRegs_sameRegs (by simp) (by simp), frame.tables, frame.bytes⟩
  case pause => rw [State.pause_pauseSet, if_pos rfl, State.pauseEnd_paused stops (by rwa [stat]), counted.now, stat]
  case count =>
    have quiet := (State.confined.refl (s.bump (Reg.EMAC_RXPAUSE p) 1 7) (· ∈ [])).pauseSet p 8 q
    rw [quiet.regs _ List.not_mem_nil]
    exact s.rd_bumpEmac p (o := 0x22C) 7 (by decide)

theorem exec_pfcReceive_mode (vec : Fin 256) (qs : List (Fin 65536)) (mode : s.rf (Reg.EMAC_FC p) 1 0 = 2) :
    exec (.pfcReceive p vec qs) s = .next (if s.pfcActed p vec = [] then (s.bump (Reg.EMAC_RXPFC p) 1 7).bump (Reg.EMAC_RXCTLIGN p) 1 7
      else (s.pfcActed p vec).foldl (fun t c => t.pauseSet p c (quantaOf qs c)) (s.bump (Reg.EMAC_RXPFC p) 1 7)) := by
  have counted := s.confined_pauseCounted p (o := 0x230) (by decide)
  have mode' := (counted.rf (a := Reg.EMAC_FC p) 1 0 (not_portRegs_at (o := 0x108) (by decide))).trans mode
  have active' := (counted.standby (not_portRegs_off p.isLt (by decide) (.inl (by decide)))).trans active
  have acted : (s.bump (Reg.EMAC_RXPFC p) 1 7).pfcActed p vec = s.pfcActed p vec := by
    have ign := fun c => State.pauseIgn_congr (State.bump_emac s (Reg.EMAC_RXPFC p) 1 7) counted.now p c
    simp only [State.pfcActed, ign]
    rw [counted.rf (a := Reg.EMAC_FC p) 15 8 (not_portRegs_at (o := 0x108) (by decide))]
  change Host.Outcome.next (if s.ethLink p then s.pfcRx p vec (quantaOf qs) else s) = _
  rw [if_pos link, State.pfcRx]
  rw [← State.pfcActed, acted, mode', active']
  by_cases none : s.pfcActed p vec = []
  · rw [if_pos none, if_neg (fun acts => acts.2.2 none)]
  · rw [if_neg none, if_pos ⟨rfl, by simp, none⟩]

/-- R239: a PFC stops the classes on which the port acts and leaves the pauses of the others. -/
theorem pfcReceive_mode (vec : Fin 256) (qs : List (Fin 65536)) (mode : s.rf (Reg.EMAC_FC p) 1 0 = 2) (rate : s.ethRate p ≠ 0) :
    Completes (.pfcReceive p vec qs) s fun t =>
      (∀ (k : Nat) (x : Fin 65536), k < 8 → nbit vec k = true → nbit (s.rf (Reg.EMAC_FC p) 15 8) k = true →
        s.pauseIgn p k = false → qs[k]? = some x → x.val ≠ 0 →
        amGet (t.emacOf p).pause k = some (s.now + x * 512 * 1000 / s.ethRate p))
      ∧ (∀ k, k < 8 → (nbit vec k = false ∨ nbit (s.rf (Reg.EMAC_FC p) 15 8) k = false ∨ s.pauseIgn p k = true) →
        amGet (t.emacOf p).pause k = amGet (s.emacOf p).pause k)
      ∧ t.rd (Reg.EMAC_RXPFC p) = s.rd (Reg.EMAC_RXPFC p) + 1 ∧ s.sameTables t ∧ s.sameBytes t := by
  have counted := s.confined_pauseCounted p (o := 0x230) (by decide)
  have count := s.rd_bumpEmac p (o := 0x230) 7 (by decide)
  have before := State.emacOf_congr (State.bump_emac s (Reg.EMAC_RXPFC p) 1 7) p
  have stat := counted.ethRate (p := p) (not_portRegs_at (o := 0x120) (by decide))
  have passive : ∀ k, nbit vec k = false ∨ nbit (s.rf (Reg.EMAC_FC p) 15 8) k = false ∨ s.pauseIgn p k = true → k ∉ s.pfcActed p vec := by
    intro k off acts
    obtain ⟨-, named, enabled, heeded⟩ := State.mem_pfcActed.mp acts
    rcases off with off | off | off
    · exact absurd (off.symm.trans named) (by decide)
    · exact absurd (off.symm.trans enabled) (by decide)
    · exact absurd (off.symm.trans heeded) (by decide)
  refine .of_exec (exec_pfcReceive_mode link active vec qs mode) ?_
  split
  case isTrue idle =>
    have ignored := (s.bump (Reg.EMAC_RXPFC p) 1 7).confined_pauseCounted p (o := 0x234) (by decide)
    have after := State.emacOf_congr (State.bump_emac (s.bump (Reg.EMAC_RXPFC p) 1 7) (Reg.EMAC_RXCTLIGN p) 1 7) p
    refine ⟨fun k x word named enabled heeded => ?_, fun k _ _ => by rw [after, before],
      (ignored.regs _ (not_portRegs_at (o := 0x230) (by decide))).trans count, counted.tables.trans ignored.tables,
      counted.bytes.trans ignored.bytes⟩
    have acts : k ∈ s.pfcActed p vec := State.mem_pfcActed.mpr ⟨word, named, enabled, heeded⟩
    rw [idle] at acts
    exact absurd acts List.not_mem_nil
  case isFalse =>
    have quiet := (State.confined.refl (s.bump (Reg.EMAC_RXPFC p) 1 7) (· ∈ [])).pauseSets p (s.pfcActed p vec) (quantaOf qs)
    refine ⟨fun k x word named enabled heeded at_ stops => ?_, fun k _ off => ?_, (quiet.regs _ List.not_mem_nil).trans count,
      counted.tables.trans quiet.tables, counted.bytes.trans quiet.bytes⟩
    · have quanta : quantaOf qs k = x := by rw [quantaOf, at_]
      rw [State.pause_pauseSets, if_pos (State.mem_pfcActed.mpr ⟨word, named, enabled, heeded⟩), quanta,
        State.pauseEnd_paused stops (by rwa [stat]), counted.now, stat]
    · rw [State.pause_pauseSets, if_neg (passive k off), before]

end

/-! Ends (R244, R246). -/

/-- R244: a pause ends at its time. -/
theorem pauseExpiry_due {s : State} {p : Fin 14} {c : Fin 9} {e : Nat} (paused : amGet (s.emacOf p).pause c = some e) (due : e ≤ s.now) :
    Completes (.pauseExpiry p c) s fun t => amGet (t.emacOf p).pause c = none ∧ s.sameRegs t [] ∧ s.sameTables t ∧ s.sameBytes t := by
  have ran : exec (.pauseExpiry p c) s
      = .next ((s.setEmac p { s.emacOf p with pause := amDel (s.emacOf p).pause c }).wdSync p) := by
    change execPauseExpiry p c s = _
    simp only [execPauseExpiry, paused, if_pos due]
  have frame := ((State.confined.refl s (· ∈ [])).setEmac p { s.emacOf p with pause := amDel (s.emacOf p).pause c }).wdSync p
  refine .of_exec ran ⟨?_, frame.sameRegs, frame.tables, frame.bytes⟩
  rw [State.pause_wdSync, State.emacOf_setEmac_same]
  exact amGet_del_same _ _

/-- R246: an ignore period ends at its time. -/
theorem pauseIgnoreEnd_due {s : State} {p : Fin 14} {c : Fin 9} {e : Nat} (ignored : amGet (s.emacOf p).ign c = some e) (due : e ≤ s.now) :
    Completes (.pauseIgnoreEnd p c) s fun t => amGet (t.emacOf p).ign c = none ∧ (t.emacOf p).pause = (s.emacOf p).pause
      ∧ s.sameRegs t [] ∧ s.sameTables t ∧ s.sameBytes t := by
  have ran : exec (.pauseIgnoreEnd p c) s = .next (s.setEmac p { s.emacOf p with ign := amDel (s.emacOf p).ign c }) := by
    change execPauseIgnoreEnd p c s = _
    simp only [execPauseIgnoreEnd, ignored, if_pos due]
  have frame := (State.confined.refl s (· ∈ [])).setEmac p { s.emacOf p with ign := amDel (s.emacOf p).ign c }
  refine .of_exec ran ⟨?_, ?_, frame.sameRegs, frame.tables, frame.bytes⟩ <;> rw [State.emacOf_setEmac_same]
  exact amGet_del_same _ _

/-! The watchdog (R246). -/

/-- A key that a list of chosen keys binds. -/
theorem amGet_filterMap {β : Type} {chosen : Nat → Bool} {g : Nat → β} {ks : List Nat} {k : Nat} (listed : k ∈ ks) (choice : chosen k = true) :
    amGet (ks.filterMap fun j => if chosen j then some (j, g j) else none) k = some (g k) := by
  induction ks with
  | nil => exact absurd listed List.not_mem_nil
  | cons j ks ih =>
    by_cases first : j = k
    · subst first
      simp only [List.filterMap_cons, choice, if_true, amGet]
    · have rest := ih ((List.mem_cons.mp listed).resolve_left (Ne.symm first))
      cases other : chosen j with
      | false => simpa only [List.filterMap_cons, other, Bool.false_eq_true, if_false] using rest
      | true => simpa only [List.filterMap_cons, other, if_true, amGet, if_neg first] using rest

section
variable {s : State} {p : Fin 14} {c : Fin 9} {e : Nat} (runs : amGet (s.emacOf p).wd c = some e)
  (paused : s.pausedNow p c = true) (waits : s.waiting p c = true)
include runs paused waits

/-- The watchdog of a class that is paused with a frame waiting runs on. -/
theorem State.wd_wdSync : amGet ((s.wdSync p).emacOf p).wd c = some e := by
  have port : ¬ 13 < p.val := by omega
  have choice : (s.pausedNow p c && s.waiting p c) = true := by rw [paused, waits, Bool.and_self]
  rw [State.wdSync, if_neg port]
  dsimp only
  rw [State.emacOf_setEmac_same]
  refine (amGet_filterMap (chosen := fun k => s.pausedNow p k && s.waiting p k) (g := fun k => (amGet (s.emacOf p).wd k).getD s.now)
    (List.mem_range.mpr c.isLt) choice).trans ?_
  rw [runs, Option.getD_some]

/-- The record of port p when class c is released and its pauses ignored for the watchdog's limit. -/
def State.wdTripped (s : State) (p c : Nat) : State :=
  s.setEmac p { s.emacOf p with
    pause := amDel (s.emacOf p).pause c, wd := amDel (s.emacOf p).wd c, ign := amPut (s.emacOf p).ign c (s.now + s.pwdNs p) }

theorem exec_pauseWatchdogTrip_due (due : e + clampN 1 1000 (s.rf (Reg.EMAC_FC p) 25 16) * 1000000 ≤ s.now) :
    exec (.pauseWatchdogTrip p c) s
      = .next ((((s.wdSync p).wdTripped p c).bump (Reg.EMAC_PWDTRIP p) 1 7).ist (Reg.pgEMAC p) 3) := by
  have frame := (State.confined.refl s (· ∈ [])).wdSync p
  have limit : (s.wdSync p).pwdNs p = s.pwdNs p := by rw [State.pwdNs, frame.rf 25 16 List.not_mem_nil, State.pwdNs]
  have due' : e + (s.wdSync p).pwdNs p ≤ (s.wdSync p).now := by rwa [limit, frame.now]
  change execPauseWatchdogTrip p c s = _
  simp only [execPauseWatchdogTrip, State.wd_wdSync runs paused waits, if_pos due']
  rfl

/-- R246: a class paused with a frame waiting for the watchdog's limit is released, ignored and reported. -/
theorem pauseWatchdogTrip_due (due : e + clampN 1 1000 (s.rf (Reg.EMAC_FC p) 25 16) * 1000000 ≤ s.now) :
    Completes (.pauseWatchdogTrip p c) s fun t =>
      amGet (t.emacOf p).pause c = none
      ∧ amGet (t.emacOf p).ign c = some (s.now + clampN 1 1000 (s.rf (Reg.EMAC_FC p) 25 16) * 1000000)
      ∧ t.rd (Reg.EMAC_PWDTRIP p) = s.rd (Reg.EMAC_PWDTRIP p) + 1 ∧ t.rb (Reg.PG_IST (Reg.pgEMAC p)) 3 = true
      ∧ s.sameRegs t [Reg.EMAC_PWDTRIP p, Reg.PG_IST (Reg.pgEMAC p)] ∧ s.sameTables t ∧ s.sameBytes t := by
  have synced := (State.confined.refl s (· ∈ [])).wdSync p
  have limit : (s.wdSync p).pwdNs p = clampN 1 1000 (s.rf (Reg.EMAC_FC p) 25 16) * 1000000 := by
    rw [State.pwdNs, synced.rf 25 16 List.not_mem_nil]
  have tripped : s.confined ((s.wdSync p).wdTripped p c) (· ∈ []) := synced.setEmac p _
  have frame := ((tripped.weaken (might := portRegs p [0x28C, 0x10]) fun _ none => nomatch none).bumpEmac (o := 0x28C) 1 7 (by decide)
    (portRegs_at (by simp)) (portRegs_event (by simp))).ist 3 (portRegs_event (by simp))
  have record : ((((s.wdSync p).wdTripped p c).bump (Reg.EMAC_PWDTRIP p) 1 7).ist (Reg.pgEMAC p) 3).emacOf p
      = ((s.wdSync p).wdTripped p c).emacOf p := State.emacOf_congr (by rw [State.ist_emac, State.bump_emac]) p
  have counter : Reg.EMAC_PWDTRIP p ≠ Reg.PG_IST (Reg.pgEMAC p) := by
    dsimp only [Reg.EMAC_PWDTRIP, Reg.PG_IST, Reg.pgEMAC]
    omega
  refine .of_exec (exec_pauseWatchdogTrip_due runs paused waits due) ⟨?pause, ?ign, ?count, State.rb_ist_same _ _ _ (by decide),
    frame.portRegs_sameRegs (by simp) (by simp), frame.tables, frame.bytes⟩
  case pause =>
    rw [record, State.wdTripped, State.emacOf_setEmac_same]
    exact amGet_del_same _ _
  case ign =>
    rw [record, State.wdTripped, State.emacOf_setEmac_same, limit, synced.now]
    exact amGet_put_same _ _ _
  case count =>
    rw [State.rd_ist_other _ _ _ _ counter]
    exact (State.rd_bumpEmac _ p (o := 0x28C) 7 (by decide)).trans (by rw [tripped.regs _ List.not_mem_nil])

end

end Sys2Proof.Machine
end

section
/-! PROOFS. Pause requests (R245): what a port tells its partner and when, and the statement about pauses. -/
namespace Sys2Proof.Machine

/-! The frame (R239, R245). -/

theorem beBytes_length (k n : Nat) : (beBytes k n).length = k := by rw [beBytes, List.length_reverse, leBytes_length]

/-- A pause frame begins with its group address, the port's own address and the type of MAC control. -/
theorem State.take_pauseFrame (s : State) (p : Nat) (ask ended : List Nat) : (s.pauseFrame p ask ended).take 14
    = [0x01, 0x80, 0xC2, 0x00, 0x00, 0x01] ++ beBytes 2 (s.rf (Reg.EMAC_SMAC_HI p) 15 0)
      ++ beBytes 4 (s.rd (Reg.EMAC_SMAC_LO p)).toNat ++ [0x88, 0x08] := by
  unfold State.pauseFrame
  dsimp only
  rw [padFrame, List.append_assoc (_ ++ _ ++ _ ++ _)]
  exact List.take_left' (by simp [beBytes_length])

/-! What is told. -/

theorem State.confined.txStats {s t : State} (h : s.confined t fun _ => True) (p : Nat) (b : List Byte) :
    s.confined (t.txStats p b) fun _ => True := by
  have counted := (h.bump (a := Reg.EMAC_TXOK p) 1 7 trivial trivial).bump (a := Reg.EMAC_TXOCT p) (b.length + 4) 7 trivial trivial
  exact (counted.bump 1 7 trivial trivial).ite ((counted.bump 1 7 trivial trivial).ite counted)

/-- The classes told under the other mode (R245). -/
def State.toldOther (s : State) (p : Nat) : List Nat :=
  (s.emacOf p).told.filter (fun c => (c == 8) != (s.rf (Reg.EMAC_FC p) 1 0 == 1))

/-- The classes that the next pause frame of port p names as asking: none while requests of the other mode stand. -/
def State.asksNext (s : State) (p : Nat) : List Nat := if s.toldOther p = [] then (s.emacOf p).ask else []

theorem State.asksNext_sameMode {s : State} {p : Nat} (same : ∀ k ∈ (s.emacOf p).told, k = 8 ↔ s.rf (Reg.EMAC_FC p) 1 0 = 1) :
    s.asksNext p = (s.emacOf p).ask := by
  refine if_pos (List.filter_eq_nil_iff.mpr fun k told => ?_)
  simp [same k told]

theorem State.asksNext_otherMode {s : State} {p : Nat} (other : ∃ k ∈ (s.emacOf p).told, ¬ (k = 8 ↔ s.rf (Reg.EMAC_FC p) 1 0 = 1)) :
    s.asksNext p = [] := by
  obtain ⟨k, told, differs⟩ := other
  refine if_neg (List.ne_nil_of_mem (List.mem_filter.mpr ⟨told, ?_⟩))
  rw [bne_iff_ne, ne_eq, Bool.eq_iff_iff, beq_iff_eq, beq_iff_eq]
  exact differs

/-- The classes whose requests the next pause frame of port p ends. -/
def State.askEnded (s : State) (p : Nat) : List Nat := (s.emacOf p).told.filter fun c => !(s.asksNext p).contains c

/-- The frame of the next pause request of port p. -/
def State.pauseTold (s : State) (p : Nat) : List Byte :=
  s.pauseFrame p (s.asksNext p) (s.askEnded p)

/-- The next pause frame of port p has left, and its statistics are counted. -/
def State.pauseSent (s : State) (p : Nat) : State :=
  ((s.emit (.eth p (s.pauseTold p) true)).txStats p (s.pauseTold p)).bump
    (if (s.asksNext p).contains 8 || (s.askEnded p).contains 8 then Reg.EMAC_TXPAUSE p else Reg.EMAC_TXPFC p) 1 7

theorem State.confined_pauseSent (s : State) (p : Nat) : (s.emit (.eth p (s.pauseTold p) true)).confined (s.pauseSent p) fun _ => True :=
  ((State.confined.refl _ _).txStats p _).bump 1 7 trivial trivial

theorem State.pauseTell_eq (s : State) (p : Nat) : s.pauseTell p
    = (s.pauseSent p).setEmac p { s.emacOf p with told := s.asksNext p, toldAt := s.now } := by
  rw [← show (s.pauseSent p).now = s.now from (s.confined_pauseSent p).now]
  rfl

/-! When it is told. -/

section
variable {s : State} {p : Fin 14} (link : s.ethLink p = true) (idle : (s.emacOf p).tx = none) (active : s.standby = false) (port : p.val ≤ 11)
include link idle active port

theorem State.pauseMay_of_idle : s.pauseMay p = true := by
  rw [State.pauseMay, link, idle, active, decide_eq_true port]
  rfl

theorem exec_pauseRequestSend_changed (changed : (s.emacOf p).ask ≠ (s.emacOf p).told) :
    exec (.pauseRequestSend p) s = .next (s.pauseTell p) := by
  refine congrArg Host.Outcome.next (if_pos ?_)
  rw [State.pauseNew, State.pauseMay_of_idle link idle active port, decide_eq_true changed, Bool.and_self]

theorem exec_pauseRepeat_due (asks : (s.emacOf p).ask ≠ []) (stands : (s.emacOf p).ask = (s.emacOf p).told)
    (due : (s.emacOf p).toldAt + s.quantaNs p (max 1 (s.rf (Reg.EMAC_PQ p) 15 0)) / 2 ≤ s.now) :
    exec (.pauseRepeat p) s = .next (s.pauseTell p) := by
  refine congrArg Host.Outcome.next (if_pos ?_)
  rw [State.pauseAgain, State.pauseMay_of_idle link idle active port, decide_eq_true asks, decide_eq_true stands, decide_eq_true due]
  rfl

end

/-- R245: what a pause frame of port p leaves, whatever event sends it. -/
theorem completes_pauseTell {s : State} {p : Fin 14} {i : Instr} (ran : exec i s = .next (s.pauseTell p)) : Completes i s fun t =>
    (∃ b r, t.outbox = s.outbox ++ .eth p b true :: r ∧ b.take 14 = [0x01, 0x80, 0xC2, 0x00, 0x00, 0x01]
      ++ beBytes 2 (s.rf (Reg.EMAC_SMAC_HI p) 15 0) ++ beBytes 4 (s.rd (Reg.EMAC_SMAC_LO p)).toNat ++ [0x88, 0x08])
    ∧ ((∀ k ∈ (s.emacOf p).told, k = 8 ↔ s.rf (Reg.EMAC_FC p) 1 0 = 1) → (t.emacOf p).told = (s.emacOf p).ask)
    ∧ ((∃ k ∈ (s.emacOf p).told, ¬(k = 8 ↔ s.rf (Reg.EMAC_FC p) 1 0 = 1)) → (t.emacOf p).told = [])
    ∧ (t.emacOf p).toldAt = s.now ∧ s.sameTables t ∧ s.sameBytes t := by
  have frame := (State.confined.refl s fun _ => True).emit (.eth p (s.pauseTold p) true) |>.trans (s.confined_pauseSent p)
  obtain ⟨r, sent⟩ := (s.confined_pauseSent p).sent
  have record : (s.pauseTell p).emacOf p = { s.emacOf p with told := s.asksNext p, toldAt := s.now } := by
    rw [State.pauseTell_eq, State.emacOf_setEmac_same]
  have whole : s.confined (s.pauseTell p) fun _ => True := by
    rw [State.pauseTell_eq]
    exact frame.setEmac p _
  refine .of_exec ran ⟨⟨s.pauseTold p, r, ?sent, s.take_pauseFrame p _ _⟩, fun same => ?same, fun other => ?other, ?at_, whole.tables, whole.bytes⟩
  case sent =>
    rw [State.pauseTell_eq, State.setEmac_outbox, ← sent, State.emit_outbox, List.append_assoc, List.singleton_append]
  case same => rw [record, State.asksNext_sameMode same]
  case other => rw [record, State.asksNext_otherMode other]
  case at_ => rw [record]

/-- Settles O29, command by command. -/
theorem pauseFramesPauseAndAreAsked : Obligations.PauseFramesPauseAndAreAsked := by
  intro s p c q vec qs
  refine ⟨fun link mode active heeds stops rate => pauseReceive_acts link active q mode heeds stops rate,
    fun link mode active rate => pfcReceive_mode link active vec qs mode rate, fun _ => pauseExpiry_due, ?frame, ?change, ?again,
    fun _ runs paused waits => pauseWatchdogTrip_due runs paused waits, fun _ => pauseIgnoreEnd_due⟩
  case frame =>
    intro i link idle active port event
    rcases event with ⟨rfl, changed⟩ | ⟨rfl, asks, stands, due⟩
    · exact completes_pauseTell (exec_pauseRequestSend_changed link idle active port changed)
    · exact completes_pauseTell (exec_pauseRepeat_due link idle active port asks stands due)
  case change =>
    intro link idle active port changed
    obtain ⟨t, ran, -, -, -, told, -⟩ := completes_pauseTell (exec_pauseRequestSend_changed link idle active port changed)
    exact .of_exec ran told
  case again =>
    intro link idle active port asks stands due
    obtain ⟨t, ran, -, -, -, told, -⟩ := completes_pauseTell (exec_pauseRepeat_due link idle active port asks stands due)
    exact .of_exec ran told

end Sys2Proof.Machine
end

section
/-! PROOFS. Inside the switch (R254-R268, R302): the steps of a frame that enters, of a copy that is dropped and of a port that goes DOWN
put no frame on a line and form none, and change few registers. One lemma per operation, in the order in which they are built. -/
namespace Sys2Proof.Machine

/-- From s to t no register but those of may changes; the frames in transmission and the formed frames that wait stay. -/
structure State.inSwitch (s t : State) (may : Nat → Prop) : Prop where
  regs : ∀ a, ¬ may a → t.rd a = s.rd a
  tx : ∀ p, (t.emacOf p).tx = (s.emacOf p).tx
  swIn : t.swIn = s.swIn

theorem State.inSwitch.refl (s : State) (may : Nat → Prop) : s.inSwitch s may := ⟨fun _ _ => rfl, fun _ => rfl, rfl⟩

theorem State.inSwitch.trans {s t u : State} {may : Nat → Prop} (h : s.inSwitch t may) (g : t.inSwitch u may) : s.inSwitch u may :=
  ⟨fun a out => (g.regs a out).trans (h.regs a out), fun p => (g.tx p).trans (h.tx p), g.swIn.trans h.swIn⟩

theorem State.inSwitch.weaken {s t : State} {may might : Nat → Prop} (h : s.inSwitch t may) (w : ∀ a, may a → might a) : s.inSwitch t might :=
  ⟨fun a out => h.regs a fun m => out (w a m), h.tx, h.swIn⟩

theorem State.inSwitch.rb {s t : State} {may : Nat → Prop} (h : s.inSwitch t may) {a : Nat} (i : Nat) (out : ¬ may a) : t.rb a i = s.rb a i := by
  rw [State.rb, h.regs a out, State.rb]

theorem State.inSwitch.rf {s t : State} {may : Nat → Prop} (h : s.inSwitch t may) {a : Nat} (hi lo : Nat) (out : ¬ may a) :
    t.rf a hi lo = s.rf a hi lo := by rw [State.rf, h.regs a out, State.rf]

theorem State.inSwitch.ite {s t u : State} {may : Nat → Prop} {c : Prop} [Decidable c] (h : s.inSwitch t may) (g : s.inSwitch u may) :
    s.inSwitch (if c then t else u) may := by
  split
  · exact h
  · exact g

/-- The same of a step that answers a value as well. -/
theorem State.inSwitch.fst_ite {β : Type} {s : State} {x y : State × β} {may : Nat → Prop} {c : Prop} [Decidable c] (h : s.inSwitch x.1 may)
    (g : s.inSwitch y.1 may) : s.inSwitch (if c then x else y).1 may := by
  split
  · exact h
  · exact g

/-- A step whose answer is known. -/
theorem State.inSwitch.of_fst {β : Type} {s u : State} {x : State × β} {b : β} {may : Nat → Prop} (h : s.inSwitch x.1 may)
    (answer : x = (u, b)) : s.inSwitch u may := by
  rwa [answer] at h

theorem State.inSwitch.foldl {β : Type} {f : State → β → State} {s : State} {may : Nat → Prop} (l : List β)
    (step : ∀ (t : State) (x : β), s.inSwitch t may → s.inSwitch (f t x) may) {t : State} (h : s.inSwitch t may) :
    s.inSwitch (l.foldl f t) may := by
  induction l generalizing t with
  | nil => exact h
  | cons x r ih => exact ih (step t x h)

section
variable {s t : State} {may : Nat → Prop} (h : s.inSwitch t may)
include h

/-- An update of another part of the state. -/
theorem State.inSwitch.step {u : State} (regs : u.regs = t.regs) (emac : u.emac = t.emac) (swIn : u.swIn = t.swIn) : s.inSwitch u may :=
  ⟨fun a out => (State.rd_congr regs a).trans (h.regs a out), fun p => by rw [State.emacOf_congr emac, h.tx], swIn.trans h.swIn⟩

theorem State.inSwitch.setSw (w : Switch) : s.inSwitch (t.setSw w) may := h.step rfl rfl rfl

/-! Registers, event bits, counters, records. -/

theorem State.inSwitch.wr {a : Nat} (w : Word) (ha : may a) : s.inSwitch (t.wr a w) may :=
  ⟨fun b out => (t.rd_wr_other w (show b ≠ a from fun same => out (same ▸ ha))).trans (h.regs b out), h.tx, h.swIn⟩

theorem State.inSwitch.wf {a : Nat} (hi lo v : Nat) (ha : may a) : s.inSwitch (t.wf a hi lo v) may := h.wr _ ha

theorem State.inSwitch.wb {a : Nat} (i : Nat) (b : Bool) (ha : may a) : s.inSwitch (t.wb a i b) may := h.wr _ ha

theorem State.inSwitch.ist {b : Nat} (i : Nat) (hb : may (Reg.PG_IST b)) : s.inSwitch (t.ist b i) may :=
  (h.wb i true hb).step (State.syncPage_regs _ _) (State.syncPage_emac _ _) (State.syncPage_swIn _ _)

theorem State.inSwitch.istIf (c : Bool) {b : Nat} (i : Nat) (hb : may (Reg.PG_IST b)) : s.inSwitch (t.istIf c b i) may := (h.ist i hb).ite h

theorem State.inSwitch.bump {a : Nat} (n k : Nat) (ha : may a) (hb : may (Reg.PG_IST (pageBase a))) : s.inSwitch (t.bump a n k) may :=
  (h.wr _ ha).istIf _ k hb

theorem State.inSwitch.obsPush (r : List Byte) (lost : may Reg.OBS_LOST) (ist : may (Reg.PG_IST Reg.pgOBS)) :
    s.inSwitch (t.obsPush r) may := by
  have noted := fun x => h.step (u := t.setObs x) rfl rfl rfl
  exact State.inSwitch.ite (noted _) (State.inSwitch.ist (((noted _).wr _ lost).istIf _ 2 ist) 1 ist)

theorem State.inSwitch.trace (typ src : Nat) (body : List Byte) (lost : may Reg.OBS_LOST) (ist : may (Reg.PG_IST Reg.pgOBS)) :
    s.inSwitch (t.trace typ src body) may := (h.obsPush _ lost ist).ite h

theorem State.inSwitch.draw : s.inSwitch t.draw.2 may := h.step rfl rfl rfl

/-! Records of ports. -/

theorem State.inSwitch.setEmac {p : Nat} {e : Emac} (same : e.tx = (t.emacOf p).tx) : s.inSwitch (t.setEmac p e) may := by
  refine ⟨h.regs, fun q => ?_, h.swIn⟩
  rw [State.emacOf_setEmac]
  split
  case isTrue own => rw [same, own, h.tx]
  case isFalse => exact h.tx q

theorem State.inSwitch.pauseAsk (p : Nat) : s.inSwitch (t.pauseAsk p) may := h.ite (h.setEmac rfl)

theorem State.inSwitch.wdSync (p : Nat) : s.inSwitch (t.wdSync p) may := h.ite (h.setEmac rfl)

theorem State.inSwitch.cbsSync (p c : Nat) : s.inSwitch (t.cbsSync p c) may := h.ite (h.setEmac rfl)

/-! Copies that end (R264, R398). -/

theorem State.inSwitch.ethResult (f : SwFrame) (code : Nat) (stamp : Option Nat) : s.inSwitch (t.ethResult f code stamp) may := by
  unfold State.ethResult
  split
  · exact h.step rfl rfl rfl
  · exact h

theorem State.inSwitch.freeCopy (i k : Nat) : s.inSwitch (t.freeCopy i k) may := by
  unfold State.freeCopy
  split
  · exact h
  · exact State.inSwitch.pauseAsk ((h.setSw _).ite (h.setSw _)) _

theorem State.inSwitch.dropQueued (k : Nat) (c : SwCopy) : s.inSwitch (t.dropQueued k c) may := by
  unfold State.dropQueued
  dsimp only
  refine State.inSwitch.wdSync (State.inSwitch.freeCopy (State.inSwitch.setSw ?_ _) c.fid k) (k / 8)
  split
  · exact (h.ethResult _ _ _).ite h
  · exact h

end

/-! Frames that enter (R254-R268). -/

/-- The registers that a frame on its way through the switch may change: none of a port's page but LDDROP and PG_IST. -/
def switchRegs (a : Nat) : Prop := a < 0x200000 ∨ 0x20E000 ≤ a ∨ a % 0x1000 = 0x288 ∨ a % 0x1000 = 0x10

theorem switchRegs_event (a : Nat) : switchRegs (Reg.PG_IST (pageBase a)) := by
  have := pageBase_mod a
  dsimp only [switchRegs, Reg.PG_IST]
  omega

section
variable {s t : State} (h : s.inSwitch t switchRegs)
include h

theorem State.inSwitch.count {a : Nat} (n k : Nat) (ha : switchRegs a) : s.inSwitch (t.bump a n k) switchRegs := h.bump n k ha (switchRegs_event a)

theorem State.inSwitch.traceDrop (src b cause ix : Nat) : s.inSwitch (t.traceDrop src b cause ix) switchRegs :=
  h.trace _ _ _ (.inl (by decide)) (.inl (by decide))

theorem State.inSwitch.swIngCount (p k : Nat) : s.inSwitch (t.swIngCount p k) switchRegs :=
  (h.setSw _).istIf _ (b := Reg.pgSWC) 1 (.inr (.inl (by decide)))

theorem State.inSwitch.swDrop (p k n : Nat) : s.inSwitch (t.swDrop p k n) switchRegs :=
  (((h.setSw _).istIf _ (b := Reg.pgQMG) 7 (.inr (.inl (by decide)))).draw).traceDrop _ _ _ _

theorem State.inSwitch.police (i : Nat) (f : SwFrame) : s.inSwitch (t.police i f).1 switchRegs :=
  h.fst_ite (State.inSwitch.istIf (h.setSw _) _ (b := Reg.pgPOL) 0 (.inr (.inl (by decide))))

theorem State.inSwitch.filterStep (f : SwFrame) : s.inSwitch (t.filterStep f).1 switchRegs := by
  refine h.fst_ite ?_
  split
  · exact h
  case h_2 i ws _ =>
    have counted := State.inSwitch.istIf (h.setSw { t.sw with fmatch := amSet 0 t.sw.fmatch i ((amGetD 0 t.sw.fmatch i + 1) % 2 ^ 32) })
      (decide (amGetD 0 t.sw.fmatch i + 1 = 2 ^ 31)) (b := Reg.pgPOL) 0 (.inr (.inl (by decide)))
    exact (counted.swIngCount _ _).fst_ite
      (State.inSwitch.fst_ite (State.inSwitch.fst_ite ((counted.police _ _).swIngCount _ _) (counted.police _ _)) counted)

/-! Lookup (R291, R296, R305-R308). -/

theorem State.inSwitch.fwdSet (f : SwFrame) (mask : Nat) (bridged : Bool) : s.inSwitch (t.fwdSet f mask bridged).1 switchRegs :=
  .fst_ite (h.count (a := Reg.MACT_NODEST) 1 5 (.inr (.inl (by decide)))) h

theorem State.inSwitch.fwdExc (f : SwFrame) : s.inSwitch (t.fwdExc f).1 switchRegs := h.fwdSet _ _ _

theorem State.inSwitch.route (f : SwFrame) : s.inSwitch (t.route f).1 switchRegs := by
  have exception := State.inSwitch.fwdExc (h.count (a := Reg.LPM_EXC) 1 4 (.inr (.inl (by decide)))) f
  have missed := h.count (a := Reg.LPM_MISS) 1 4 (.inr (.inl (by decide)))
  have noHop := State.inSwitch.fwdExc (h.count (a := Reg.LPM_NHMISS) 1 4 (.inr (.inl (by decide)))) f
  refine exception.fst_ite (exception.fst_ite (exception.fst_ite ?_))
  extract_lets ctl plan hit
  clear_value hit
  cases hit with
  | none => exact (missed.fwdExc f).fst_ite missed
  | some row =>
    dsimp only
    split
    · split
      · refine .fst_ite (h.count (a := Reg.MACT_NODEST) 1 5 (.inr (.inl (by decide)))) (noHop.fst_ite ?_)
        split
        · exact State.inSwitch.count (h.fwdSet _ _ _) (a := Reg.LPM_ROUTED) 1 4 (.inr (.inl (by decide)))
        · exact h.fwdSet _ _ _
      · exact noHop
    · exact h.fwdExc f
    · exact h

theorem State.inSwitch.lookup (f : SwFrame) : s.inSwitch (t.lookup f).1 switchRegs := by
  have none := h.count (a := Reg.MACT_NODEST) 1 5 (.inr (.inl (by decide)))
  have unknown := h.count (a := Reg.MACT_UNKFLOOD) 1 5 (.inr (.inl (by decide)))
  refine (h.fwdSet _ _ _).fst_ite ((h.route f).fst_ite ?_)
  split
  · exact none.fst_ite ((h.fwdSet _ _ _).fst_ite (h.fwdSet _ _ _))
  · exact State.inSwitch.fwdSet (h.ite unknown) _ _ _

/-! Admission and enqueue (R263, R266). -/

theorem State.inSwitch.wred (f : SwFrame) (k : Nat) : s.inSwitch (t.wred f k).1 switchRegs :=
  (h.setSw _).fst_ite ((h.setSw _).fst_ite (State.inSwitch.draw (h.setSw _)))

theorem State.inSwitch.digestEth (f : SwFrame) (p : Nat) (b : List Byte) : s.inSwitch (t.digestEth f p b) switchRegs :=
  .ite (h.ite (h.step rfl rfl rfl)) h

theorem State.inSwitch.occPeak : s.inSwitch t.occPeak switchRegs := h.wf (a := Reg.QMG_OCC) 31 16 _ (.inr (.inl (by decide)))

theorem State.inSwitch.enqueueEth (i k : Nat) (o : Pool) (ct : Bool) : s.inSwitch (t.enqueueEth i k o ct) switchRegs := by
  unfold State.enqueueEth
  split
  · exact h
  · exact State.inSwitch.occPeak (State.inSwitch.wdSync (((h.cbsSync _ _).setSw _).setSw _) _)

theorem State.inSwitch.copyEth (i p : Nat) : s.inSwitch (t.copyEth i p).1 switchRegs := by
  have down := h.count (a := Reg.EMAC_LDDROP p) 1 7 (by dsimp only [switchRegs, Reg.EMAC_LDDROP]; omega)
  unfold State.copyEth
  split
  · exact h
  case h_2 f _ =>
    extract_lets k b
    clear_value k b
    refine down.fst_ite (.fst_ite (h.count (a := Reg.MACT_EGLEN) 1 5 (.inr (.inl (by decide)))) ?_)
    split
    next u drop answer =>
    have judged := (h.wred f k).of_fst answer
    have refused : ∀ n, s.inSwitch ((u.swDrop p n 1).ist Reg.pgQMG n, false).1 switchRegs := fun n => by
      dsimp only
      exact (judged.swDrop p n 1).ist n (.inr (.inl (by decide)))
    split
    · exact refused 1
    split
    · exact refused 0
    next o _ =>
      extract_lets v
      have digested : s.inSwitch v switchRegs := judged.digestEth _ _ _
      clear_value v
      split
      · exact digested
      · dsimp only
        exact digested.enqueueEth _ _ _ _

theorem State.inSwitch.copiesEth (i : Nat) (ps : List Nat) (a : Bool) : s.inSwitch (t.copiesEth i ps a).1 switchRegs := by
  induction ps generalizing t a with
  | nil => exact h
  | cons p ps ih => exact ih (h.copyEth i p) _

/-! Ingress (R254, R258, R259, R297). -/

theorem State.inSwitch.learnFrame (f : SwFrame) : s.inSwitch (t.learnFrame f) switchRegs :=
  .ite (.ite (h.setSw _) (.ite (h.setSw _) (h.count (a := Reg.MACT_LRNDROP) 1 5 (.inr (.inl (by decide)))))) h

theorem State.inSwitch.classify (f : SwFrame) : s.inSwitch (t.classify f).1 switchRegs := by
  unfold State.classify
  dsimp only
  split_ifs
  · exact h
  · exact h
  · exact h.draw

theorem State.inSwitch.storeEth (f : SwFrame) : s.inSwitch (t.storeEth f).1 switchRegs := h.step rfl rfl rfl

theorem State.inSwitch.forwardEth (i : Nat) (learn : Bool) : s.inSwitch (t.forwardEth i learn) switchRegs := by
  unfold State.forwardEth
  split
  · exact h
  case h_2 f0 _ =>
    extract_lets drop
    have dropped : ∀ u, s.inSwitch u switchRegs → s.inSwitch ((drop u).pauseAsk f0.port) switchRegs := fun u g =>
      State.inSwitch.pauseAsk (State.inSwitch.ethResult (g.setSw _) f0 0x21 none) f0.port
    clear_value drop
    split
    next u f1 answer =>
    have classified := (h.classify f0).of_fst answer
    split
    next v none =>
      exact dropped v ((classified.filterStep f1).of_fst none)
    next v f kept =>
      have filtered := (classified.filterStep f1).of_fst kept
      extract_lets vok w
      have checked : s.inSwitch w switchRegs := filtered.ite (filtered.count (a := Reg.MACT_VDROP) 1 5 (.inr (.inl (by decide))))
      clear_value w vok
      split
      next x r answer =>
      have found : s.inSwitch x switchRegs := by
        refine State.inSwitch.of_fst ?_ answer
        split
        · exact checked
        · exact (checked.lookup f).fst_ite checked
      extract_lets y
      have learned : s.inSwitch y switchRegs := (found.learnFrame f).ite found
      clear_value y
      split
      · exact dropped y learned
      · extract_lets g z
        have stored : s.inSwitch z switchRegs := learned.setSw _
        split
        next a admitted answer =>
        have spread := (stored.copiesEth i _ false).of_fst answer
        extract_lets sw b c ct
        have kept : s.inSwitch b switchRegs := spread.ite (spread.setSw _)
        have told : s.inSwitch c switchRegs := kept.ite (kept.ethResult _ _ _)
        exact State.inSwitch.pauseAsk ((told.swIngCount _ _).ite told) _

theorem State.inSwitch.gateEth (f : SwFrame) : s.inSwitch (t.gateEth f) switchRegs := by
  unfold State.gateEth
  extract_lets map d g k
  clear_value g k
  split
  next u i answer =>
  have stored := (h.storeEth g).of_fst answer
  split
  next v drop answer =>
  have judged := (stored.wred g k).of_fst answer
  have dropped : ∀ n m, s.inSwitch ((((v.setSw { v.sw with frames := amDel v.sw.frames i }).swDrop 17 n 1)).ist Reg.pgQMG m) switchRegs :=
    fun n m => (((judged.setSw _).swDrop 17 n 1)).ist m (.inr (.inl (by decide)))
  refine .ite (dropped 1 1) ?_
  split
  · exact dropped 0 0
  · exact State.inSwitch.pauseAsk (State.inSwitch.setSw ((judged.enqueueEth _ _ _ _).swIngCount _ _) _) _

/-- A frame that enters the switch (R258). -/
theorem State.inSwitch.enterEth (f : SwFrame) : s.inSwitch (t.enterEth f) switchRegs := by
  unfold State.enterEth
  extract_lets u
  have traced : s.inSwitch u switchRegs := (h.trace _ _ _ (.inl (by decide)) (.inl (by decide))).ite h
  clear_value u
  refine .ite (traced.ethResult _ _ _) (.ite (traced.gateEth f) ?_)
  exact (traced.storeEth f).forwardEth _ true

end

end Sys2Proof.Machine
end

section
/-! PROOFS. Reception at the Ethernet ports (R234, R236, R239, R251, R258): a frame that passes its checks is counted and enters the switch, a
short one is counted and dropped, and formed frames enter from their queue. -/
namespace Sys2Proof.Machine

/-! Transmit opportunities (R234). -/

/-- A new opportunity is all that changes of a port's record. -/
theorem State.emacOf_setSlot (s : State) (p q x y : Nat) : ∃ x' y', (s.setEmac p { s.emacOf p with toEnd := x, toLeft := y }).emacOf q
    = { s.emacOf q with toEnd := x', toLeft := y' } := by
  rw [State.emacOf_setEmac]
  split
  case isTrue same => exact ⟨x, y, by rw [same]⟩
  case isFalse => exact ⟨_, _, rfl⟩

theorem State.emacOf_plcaSync (s : State) (m t q : Nat) :
    ∃ x y, (s.plcaSync m t).emacOf q = { s.emacOf q with toEnd := x, toLeft := y } := by
  unfold State.plcaSync
  dsimp only
  split
  · exact ⟨_, _, rfl⟩
  · exact s.emacOf_setSlot (12 + m) q _ _

theorem State.emacOf_plcaNext (s : State) (m q : Nat) : ∃ x y, (s.plcaNext m).emacOf q = { s.emacOf q with toEnd := x, toLeft := y } := by
  unfold State.plcaNext
  dsimp only
  split
  · exact ⟨_, _, rfl⟩
  · exact s.emacOf_setSlot (12 + m) q _ _

theorem State.fifo_plcaHeard (s : State) (p age q : Nat) : ((s.plcaHeard p age).emacOf q).fifo = (s.emacOf q).fifo := by
  unfold State.plcaHeard
  split
  · rfl
  · obtain ⟨_, _, next⟩ := (s.plcaSync (p - 12) (s.mono - age)).emacOf_plcaNext (p - 12) q
    obtain ⟨_, _, sync⟩ := s.emacOf_plcaSync (p - 12) (s.mono - age) q
    rw [next, sync]

section
variable {s t : State} {may : Nat → Prop} (h : s.confined t may)
include h

theorem State.confined.plcaSync {m : Nat} (x : Nat) (stat : may (Reg.T1SP_STAT m)) : s.confined (t.plcaSync m x) may :=
  h.ite ((h.wf 7 0 _ stat).setEmac _ _)

theorem State.confined.plcaNext {m : Nat} (stat : may (Reg.T1SP_STAT m)) : s.confined (t.plcaNext m) may :=
  h.ite ((h.wf 7 0 _ stat).setEmac _ _)

theorem State.confined.plcaHeard {p : Nat} (age : Nat) (stat : may (Reg.T1SP_STAT (p - 12))) : s.confined (t.plcaHeard p age) may :=
  h.ite ((h.plcaSync _ stat).plcaNext stat)

theorem State.confined.setT1sErr (m : Nat) : s.confined (t.setT1sErr m) may := h.setXpl _

theorem State.confined.fifoFill (p n age : Nat) : s.confined (t.fifoFill p n age) may := h.setEmac _ _

theorem State.confined.traceDrop (src b cause ix : Nat) (lost : may Reg.OBS_LOST) (ist : may (Reg.PG_IST Reg.pgOBS)) :
    s.confined (t.traceDrop src b cause ix) may := h.trace _ _ _ lost ist

end

/-! The end of a frame at an external port. -/

/-- The opportunity of the frame that port p has received is over, and a fault of its PHY is taken. -/
def State.heard (s : State) (p age : Nat) : State := (if p < 12 then s else s.setT1sErr (p - 12)).plcaHeard p age

theorem State.confined_heard (s : State) (p age : Nat) : s.confined (s.heard p age) (· = Reg.T1SP_STAT (p - 12)) :=
  State.confined.plcaHeard ((State.confined.refl s _).ite ((State.confined.refl s _).setT1sErr _)) age rfl

theorem State.fifoHeld_heard (s : State) (p age t : Nat) : (s.heard p age).fifoHeld p t = s.fifoHeld p t := by
  have fifo : ((s.heard p age).emacOf p).fifo = (s.emacOf p).fifo := by
    rw [State.heard, State.fifo_plcaHeard]
    split <;> rfl
  rw [State.fifoHeld, fifo, State.fifoHeld]

theorem exec_ethernetFrameReceive_external {s : State} {q : Fin 18} {p : Fin 14} (same : q.val = p) (link : s.ethLink p = true)
    (mode : s.rf (Reg.EMAC_CFG p) 2 0 ≠ 0) (whole : p.val < 12 ∨ s.xpl.t1sErr[p.val - 12]?.getD false = false) (b : List Byte)
    (age : Nat) (cls : Fin 8) : exec (.ethernetFrameReceive q b true false ⟨age, cls⟩) s = .next ((s.heard p age).rxEth p b true false age) := by
  have port : q.val < 14 := by omega
  have intact : (decide (12 ≤ p.val) && s.xpl.t1sErr[p.val - 12]?.getD false) = false := by
    rcases whole with below | fine
    · rw [decide_eq_false (by omega), Bool.false_and]
    · rw [fine, Bool.and_false]
  have runs : ∀ t : State, t.ethLink p = s.ethLink p → t.rf (Reg.EMAC_CFG p) 2 0 = s.rf (Reg.EMAC_CFG p) 2 0 →
      (t.ethLink p && t.rf (Reg.EMAC_CFG p) 2 0 != 0) = true := fun t up set => by rw [up, link, set, Bool.true_and, bne_iff_ne]; exact mode
  have up := runs (if p.val < 12 then s else s.setT1sErr (p.val - 12)) (by split <;> rfl) (by split <;> rfl)
  change execEthernetFrameReceive q b true false ⟨age, cls⟩ s = _
  simp only [execEthernetFrameReceive, same, p.isLt, if_true, intact, Bool.or_false, up, State.heard]

/-! Receive checks (R236). -/

section
variable {p len maxlen held : Nat} (room : held + maxlen + 32 ≤ fifoSize p)
include room

/-- A frame that meets every check. -/
theorem rxRow_good (long : 64 ≤ len) (short : len ≤ maxlen) : rxRow p len maxlen held true false = none := by
  simp only [rxRow, if_neg (not_lt.mpr room), Bool.false_eq_true, if_false, if_neg (not_lt.mpr long), if_neg (not_lt.mpr short), if_true]

/-- A short frame with a good FCS. -/
theorem rxRow_runt (short : len < 64) : rxRow p len maxlen held true false = some (Reg.EMAC_RXRUNT p) := by
  simp only [rxRow, if_neg (not_lt.mpr room), Bool.false_eq_true, if_false, if_pos short, if_true]

end

/-! Statistics (R251). -/

/-- A counter above the common header holds its sum (R8). -/
theorem State.rd_bump_sum (s : State) {a : Nat} (n k : Nat) (h : 0x100 ≤ a % 0x1000) :
    (s.bump a n k).rd a = s.rd a + BitVec.ofNat 32 n := by
  rw [State.rd_bump_same _ _ _ _ (ne_hdr (pageBase_mod a) h (by decide))]
  apply BitVec.eq_of_toNat_eq
  simp

/-- The offsets of the size counters. -/
def sizeOffsets : List Nat := [0x238, 0x23C, 0x240, 0x244, 0x248, 0x294, 0x24C]

theorem sizeReg_listed (p len : Nat) : ∃ o ∈ sizeOffsets, sizeReg p len = 0x200000 + o + 0x1000 * p := by
  unfold sizeReg
  split_ifs
  · exact ⟨0x238, by decide, rfl⟩
  · exact ⟨0x23C, by decide, rfl⟩
  · exact ⟨0x240, by decide, rfl⟩
  · exact ⟨0x244, by decide, rfl⟩
  · exact ⟨0x248, by decide, rfl⟩
  · exact ⟨0x294, by decide, rfl⟩
  · exact ⟨0x24C, by decide, rfl⟩

/-- The registers of the further statistics of a received frame. -/
def rxKinds : List Nat := 0x208 :: 0x20C :: 0x10 :: sizeOffsets

/-- The frame and its octets are counted, and by its size and address. -/
theorem State.confined_rxStats (s : State) (p : Nat) (b : List Byte) :
    ((s.bump (Reg.EMAC_RXOK p) 1 7).bump (Reg.EMAC_RXOCT p) (b.length + 4) 7).confined (s.rxStats p b) (portRegs p rxKinds) := by
  obtain ⟨o, listed, named⟩ := sizeReg_listed p (b.length + 4)
  have event : portRegs p rxKinds (Reg.PG_IST (Reg.pgEMAC p)) := portRegs_event (by decide)
  have small : ∀ o ∈ sizeOffsets, o < 0x1000 ∧ o ∈ rxKinds := by decide
  obtain ⟨word, kind⟩ := small o listed
  have sized := (State.confined.refl ((s.bump (Reg.EMAC_RXOK p) 1 7).bump (Reg.EMAC_RXOCT p) (b.length + 4) 7) (portRegs p rxKinds)).bumpEmac
    1 7 word (portRegs_at kind) event
  rw [← named] at sized
  exact (sized.bumpEmac (o := 0x208) 1 7 (by decide) (portRegs_at (by decide)) event).ite
    ((sized.bumpEmac (o := 0x20C) 1 7 (by decide) (portRegs_at (by decide)) event).ite sized)

theorem State.rd_rxStats_rxok (s : State) (p : Nat) (b : List Byte) : (s.rxStats p b).rd (Reg.EMAC_RXOK p) = s.rd (Reg.EMAC_RXOK p) + 1 := by
  have octets := (State.confined.refl (s.bump (Reg.EMAC_RXOK p) 1 7) (portRegs p [0x204, 0x10])).bumpEmac (o := 0x204) (b.length + 4) 7
    (by decide) (portRegs_at (by decide)) (portRegs_event (by decide))
  rw [(s.confined_rxStats p b).regs _ (not_portRegs_at (o := 0x200) (by decide)), octets.regs _ (not_portRegs_at (o := 0x200) (by decide))]
  exact s.rd_bumpEmac p (o := 0x200) 7 (by decide)

theorem State.rd_rxStats_rxoct (s : State) (p : Nat) (b : List Byte) :
    (s.rxStats p b).rd (Reg.EMAC_RXOCT p) = s.rd (Reg.EMAC_RXOCT p) + BitVec.ofNat 32 (b.length + 4) := by
  have frames := (State.confined.refl s (portRegs p [0x200, 0x10])).bumpEmac (o := 0x200) 1 7 (by decide) (portRegs_at (by decide))
    (portRegs_event (by decide))
  rw [(s.confined_rxStats p b).regs _ (not_portRegs_at (o := 0x204) (by decide)),
    State.rd_bump_sum _ _ _ (by dsimp only [Reg.EMAC_RXOCT]; omega), frames.regs _ (not_portRegs_at (o := 0x204) (by decide))]

/-! Frames that are passed on (R258, R513). -/

theorem State.inSwitch.mirror {s t : State} (h : s.inSwitch t switchRegs) (p stamp : Nat) (b : List Byte) :
    s.inSwitch (t.mirror p stamp b) switchRegs := by
  have lost := (h.count (a := Reg.PAIR_MIRDROP) 1 8 (.inl (by decide))).ist (b := Reg.pgPAIR) 4 (.inl (by decide))
  exact .ite (.ite (h.step rfl rfl rfl) lost) h

/-- A frame of less than 128 bytes was not cut through. -/
theorem State.badFrame_short (s : State) {f : SwFrame} (short : f.bytes.length < 128) : s.badFrame f = s := by
  unfold State.badFrame
  rw [if_neg]
  rw [decide_eq_false (not_le.mpr short), Bool.and_false, Bool.false_and]
  exact Bool.false_ne_true

section
variable {u : State} {p : Nat} {b : List Byte} {age : Nat} (notPair : (p == 3 && u.pairOn) = false)
  (room : u.fifoHeld p (u.now - age) + u.rf (Reg.EMAC_MAXFRM p) 13 0 + 32 ≤ fifoSize p)
include notPair room

/-- A frame that passes the checks and is no MAC control frame. -/
theorem State.rxEth_good (long : 60 ≤ b.length) (short : b.length + 4 ≤ u.rf (Reg.EMAC_MAXFRM p) 13 0) (kind : beAt b 12 2 ≠ 0x8808)
    (active : u.standby = false) : ∃ n st f, u.rxEth p b true false age = (((u.fifoFill p n age).rxStats p b).mirror p st b).enterEth f := by
  have row := rxRow_good room (len := b.length + 4) (by omega) short
  have runs : ∀ n, ¬ ((u.fifoFill p n age).standby = true ∧ p ≠ 3) := fun n both => by
    rw [show (u.fifoFill p n age).standby = u.standby from rfl, active] at both
    exact absurd both.1 (by decide)
  unfold State.rxEth
  simp only [notPair, Bool.false_eq_true, if_false, row, reduceCtorEq, if_neg kind, if_neg (runs _)]
  exact ⟨_, _, _, rfl⟩

/-- A short frame is counted, traced and dropped. -/
theorem State.rxEth_runt (short : b.length < 60) : ∃ n, u.rxEth p b true false age = (u.fifoFill p n age).emacDrop p (Reg.EMAC_RXRUNT p) := by
  have row := rxRow_runt room (len := b.length + 4) (by omega)
  have other : Reg.EMAC_RXRUNT p ≠ Reg.EMAC_RXOVF p := by dsimp only [Reg.EMAC_RXRUNT, Reg.EMAC_RXOVF]; omega
  have uncut : ∀ (v : State) (n st : Nat), v.badFrame (v.portFrame p (b.take n) st age) = v := fun v n st =>
    v.badFrame_short (by
      have := List.length_take_le' n b
      have same : (v.portFrame p (b.take n) st age).bytes = b.take n := rfl
      rw [same]
      omega)
  unfold State.rxEth
  simp only [notPair, Bool.false_eq_true, if_false, row, Option.some.injEq, if_neg other, beq_eq_false_iff_ne.mpr other, State.istIf, uncut, ite_self]
  exact ⟨_, rfl⟩

end

end Sys2Proof.Machine
end

section
/-! PROOFS. What a received frame leaves (R236, R251, R258), by the port it came in at. -/
namespace Sys2Proof.Machine

/-- The registers of a port that a frame in the switch keeps. -/
theorem not_switchRegs {p o : Nat} (port : p < 14) (off : o < 0x1000 ∧ o ≠ 0x288 ∧ o ≠ 0x10) : ¬ switchRegs (0x200000 + o + 0x1000 * p) := by
  dsimp only [switchRegs]
  omega

/-- A PHY's status lies in no page of a port and not in the pair's. -/
theorem t1spStat_apart {a : Nat} (m : Nat) (low : a < 0x820000) : ¬ a = Reg.T1SP_STAT m := by
  dsimp only [Reg.T1SP_STAT]
  omega

/-- The registers of the port are as they were when the frame has filled the FIFO. -/
theorem State.rd_fifoFill_heard (s : State) (p : Fin 14) (age n : Nat) {o : Nat} (off : o < 0x1000) :
    ((s.heard p age).fifoFill p n age).rd (0x200000 + o + 0x1000 * p) = s.rd (0x200000 + o + 0x1000 * p) :=
  ((s.confined_heard p age).fifoFill p n age).regs _ (t1spStat_apart _ (by omega))

section
variable {s : State} {q : Fin 18} {p : Fin 14} {age : Nat} (same : q.val = p) (link : s.ethLink p = true)
  (whole : p.val < 12 ∨ s.xpl.t1sErr[p.val - 12]?.getD false = false) (mode : s.rf (Reg.EMAC_CFG p) 2 0 ≠ 0)
  (notPair : s.pairOn = false ∨ p.val ≠ 3)
  (room : s.fifoHeld p (s.now - age) + s.rf (Reg.EMAC_MAXFRM p) 13 0 + 32 ≤ fifoSize p)

include room in
theorem State.heard_room : (s.heard p age).fifoHeld p ((s.heard p age).now - age) + (s.heard p age).rf (Reg.EMAC_MAXFRM p) 13 0 + 32
    ≤ fifoSize p := by
  rw [s.fifoHeld_heard, (s.confined_heard p age).now,
    (s.confined_heard p age).rf 13 0 (t1spStat_apart _ (by dsimp only [Reg.EMAC_MAXFRM]; omega))]
  exact room

include notPair

/-- A port that does not carry the pair link carries none after the frame's opportunity. -/
theorem State.heard_notPair : (p.val == 3 && (s.heard p age).pairOn) = false := by
  have pair : (s.heard p age).pairOn = s.pairOn := by
    rw [State.pairOn, (s.confined_heard p age).rb 0 (t1spStat_apart _ (by decide)),
      (s.confined_heard p age).rf 2 0 (t1spStat_apart _ (by decide)), State.pairOn]
  rcases notPair with off | other
  · rw [pair, off, Bool.and_false]
  · rw [beq_eq_false_iff_ne.mpr other, Bool.false_and]

include same link whole mode room

/-- R236, R251: a frame that meets every check. -/
theorem ethernetFrameReceive_good {b : List Byte} (cls : Fin 8) (long : 60 ≤ b.length) (short : b.length + 4 ≤ s.rf (Reg.EMAC_MAXFRM p) 13 0)
    (kind : beAt b 12 2 ≠ 0x8808) (active : s.standby = false) :
    Completes (.ethernetFrameReceive q b true false ⟨age, cls⟩) s fun t =>
      t.rd (Reg.EMAC_RXOK p) = s.rd (Reg.EMAC_RXOK p) + 1
      ∧ t.rd (Reg.EMAC_RXOCT p) = s.rd (Reg.EMAC_RXOCT p) + BitVec.ofNat 32 (b.length + 4) := by
  have frame := s.confined_heard p age
  have short' : b.length + 4 ≤ (s.heard p age).rf (Reg.EMAC_MAXFRM p) 13 0 := by
    rw [frame.rf 13 0 (t1spStat_apart _ (by dsimp only [Reg.EMAC_MAXFRM]; omega))]
    exact short
  have active' := (frame.standby (t1spStat_apart _ (by decide))).trans active
  obtain ⟨n, st, f, enters⟩ := State.rxEth_good (State.heard_notPair notPair) (State.heard_room room) long short' kind active'
  refine .of_exec (exec_ethernetFrameReceive_external same link mode whole b age cls) ?_
  rw [enters]
  have inside := ((State.inSwitch.refl (((s.heard p age).fifoFill p n age).rxStats p b) switchRegs).mirror p st b).enterEth f
  refine ⟨?ok, ?octets⟩
  case ok =>
    rw [inside.regs _ (not_switchRegs (o := 0x200) p.isLt (by decide)), State.rd_rxStats_rxok]
    exact congrArg (· + 1) (s.rd_fifoFill_heard p age n (o := 0x200) (by decide))
  case octets =>
    rw [inside.regs _ (not_switchRegs (o := 0x204) p.isLt (by decide)), State.rd_rxStats_rxoct]
    exact congrArg (· + _) (s.rd_fifoFill_heard p age n (o := 0x204) (by decide))

/-- R236: a short frame with a good FCS. -/
theorem ethernetFrameReceive_runt {b : List Byte} (cls : Fin 8) (short : b.length < 60) :
    Completes (.ethernetFrameReceive q b true false ⟨age, cls⟩) s fun t =>
      t.rd (Reg.EMAC_RXRUNT p) = s.rd (Reg.EMAC_RXRUNT p) + 1 ∧ t.rd (Reg.EMAC_RXOK p) = s.rd (Reg.EMAC_RXOK p)
      ∧ s.sameTables t ∧ s.sameBytes t := by
  obtain ⟨n, dropped⟩ := State.rxEth_runt (State.heard_notPair notPair) (State.heard_room room) short
  refine .of_exec (exec_ethernetFrameReceive_external same link mode whole b age cls) ?_
  rw [dropped]
  have filled := (s.confined_heard p age).fifoFill p n age
  generalize before : (s.heard p age).fifoFill p n age = u at filled
  have traced : (u.bump (Reg.EMAC_RXRUNT p) 1 7).confined (u.emacDrop p (Reg.EMAC_RXRUNT p)) fun a => a = Reg.OBS_LOST ∨ a = Reg.PG_IST Reg.pgOBS :=
    (State.confined.refl _ _).draw.traceDrop _ _ _ _ (.inl rfl) (.inr rfl)
  have apart : ∀ o, o < 0x1000 → ¬ (0x200000 + o + 0x1000 * p.val = Reg.OBS_LOST ∨ 0x200000 + o + 0x1000 * p.val = Reg.PG_IST Reg.pgOBS) := by
    intro o off
    dsimp only [Reg.OBS_LOST, Reg.PG_IST, Reg.pgOBS]
    omega
  have counted : u.confined (u.bump (Reg.EMAC_RXRUNT p) 1 7) (portRegs p [0x214, 0x10]) :=
    (State.confined.refl u _).bumpEmac (o := 0x214) 1 7 (by decide) (portRegs_at (by decide)) (portRegs_event (by decide))
  refine ⟨?runts, ?frames, filled.tables.trans (counted.tables.trans traced.tables), filled.bytes.trans (counted.bytes.trans traced.bytes)⟩
  case runts =>
    rw [traced.regs _ (apart 0x214 (by decide))]
    exact (u.rd_bumpEmac p (o := 0x214) 7 (by decide)).trans
      (congrArg (· + 1) (before ▸ s.rd_fifoFill_heard p age n (o := 0x214) (by decide)))
  case frames =>
    rw [traced.regs _ (apart 0x200 (by decide)), counted.regs _ (not_portRegs_at (o := 0x200) (by decide)), ← before]
    exact s.rd_fifoFill_heard p age n (o := 0x200) (by decide)

end

/-- R258: the oldest frame formed for an internal port enters the switch. -/
theorem ethernetFrameReceive_formed {s : State} {q : Fin 18} {e : EthIn} (b : List Byte) (age : Nat) (cls : Fin 8) (high : 14 ≤ q.val)
    (internal : q.val ≠ 16) (oldest : s.swIn.find? (fun x => x.port == q.val) = some e) :
    Completes (.ethernetFrameReceive q b true false ⟨age, cls⟩) s fun t => t.swIn = s.swIn.erase e := by
  have enters : exec (.ethernetFrameReceive q b true false ⟨age, cls⟩) s = .next (State.swEnter { s with swIn := s.swIn.erase e } e) := by
    change execEthernetFrameReceive q b true false ⟨age, cls⟩ s = _
    simp only [execEthernetFrameReceive, if_neg (not_lt.mpr high), if_neg internal, oldest]
  exact .of_exec enters ((State.inSwitch.refl _ _).enterEth _).swIn

end Sys2Proof.Machine
end

section
/-! PROOFS. A transmission that ends before its end on the line (R235, R248): the line is free, the copy is freed, and beside the counters
little changes. One lemma per operation, in the order in which they are built. -/
namespace Sys2Proof.Machine

section
variable {s t : State} {may : Nat → Prop} (h : s.confined t may)
include h

theorem State.confined.setSw (w : Switch) : s.confined (t.setSw w) may := ⟨h.regs, h.tables, h.bytes, h.sent, h.tsy, h.mono⟩

theorem State.confined.setCry (x : Cry) : s.confined { t with cry := x } may := ⟨h.regs, h.tables, h.bytes, h.sent, h.tsy, h.mono⟩

theorem State.confined.setPair (x : Pair) : s.confined { t with pair := x } may := ⟨h.regs, h.tables, h.bytes, h.sent, h.tsy, h.mono⟩

theorem State.confined.pauseAsk (p : Nat) : s.confined (t.pauseAsk p) may := h.ite (h.setEmac _ _)

theorem State.confined.freeCopy (i k : Nat) : s.confined (t.freeCopy i k) may := by
  unfold State.freeCopy
  split
  · exact h
  · exact State.confined.pauseAsk ((h.setSw _).ite (h.setSw _)) _

/-! Marks (R359, R514). -/

theorem State.confined.pairSend (typ port : Nat) (data : List Byte) : s.confined (t.pairSend typ port data) may :=
  State.confined.ite (State.confined.setPair (h.emit _) _) h

theorem State.confined.postMark (i v : Nat) : s.confined (t.postMark i v) may :=
  State.confined.ite ((h.setCry _).pairSend _ _ _) (h.setCry _)

theorem State.confined.markCross (i rsv old new : Nat) : s.confined (t.markCross i rsv old new) may := (h.postMark _ _).ite h

end

/-! Associations (R346-R351). -/

section
variable {s t : State} {may : Nat → Prop} (warn : may Reg.MSEC_LASTWARN) (event : may (Reg.PG_IST Reg.pgMSEC)) (h : s.confined t may)
include warn event h

theorem State.confined.pnWarn (i : Nat) : s.confined (t.pnWarn i) may := (((h.setCry _).ist 0 event).wr _ warn).ite h

theorem State.confined.saApply (i : Nat) (w : List Nat) : s.confined (t.saApply i w) may := by
  have low : ∀ (c : Bool) (a : Sa), s.confined ((t.setSa i a).istIf c Reg.pgMSEC 2) may := fun c a => (h.setCry _).istIf c 2 event
  unfold State.saApply
  dsimp only
  refine .ite (.pnWarn warn event ?_ i) ?_ <;>
    exact ((low _ _).postMark _ _).ite (((low _ _).markCross _ _ _ _).ite (low _ _))

theorem State.confined.saSettle (i : Nat) : s.confined (t.saSettle i) may :=
  h.ite (.foldl _ (fun _ p _ hu => hu.saApply warn event i p.2) (h.setCry _))

theorem State.confined.endTxJob (x : TxNow) : s.confined (t.endTxJob x) may := by
  unfold State.endTxJob
  split
  · split
    · exact (h.setCry _).saSettle warn event _
    · exact h
  · exact h

end

/-! The line of a port. -/

theorem State.confined.plcaSent {s t : State} {may : Nat → Prop} (h : s.confined t may) {p : Nat} (stat : may (Reg.T1SP_STAT (p - 12))) :
    s.confined (t.plcaSent p) may := h.ite ((h.plcaNext stat).ite (h.setEmac _ _))

/-- The end of an opportunity moves CURID alone: the PLCA status stays (R253). -/
theorem State.plcaOk_plcaSent (s : State) (p m : Nat) : (s.plcaSent p).rb (Reg.T1SP_STAT m) 31 = s.rb (Reg.T1SP_STAT m) 31 := by
  have cur : ∀ n v, (s.wf (Reg.T1SP_STAT n) 7 0 v).rb (Reg.T1SP_STAT m) 31 = s.rb (Reg.T1SP_STAT m) 31 := fun n v => by
    by_cases own : n = m
    · rw [own, State.rb_wf_apart _ _ _ _ _ _ (.inr (by decide)) (by decide)]
    · rw [State.rb, s.rd_wf_other 7 0 v (show Reg.T1SP_STAT m ≠ Reg.T1SP_STAT n by dsimp only [Reg.T1SP_STAT]; omega), State.rb]
  have next : ∀ n, (s.plcaNext n).rb (Reg.T1SP_STAT m) 31 = s.rb (Reg.T1SP_STAT m) 31 := fun n => by
    unfold State.plcaNext
    dsimp only
    split
    · rfl
    · exact cur _ _
  unfold State.plcaSent
  dsimp only
  split
  · rfl
  · split
    · exact next _
    · rfl

theorem State.tx_plcaSent (s : State) (p q : Nat) : ((s.plcaSent p).emacOf q).tx = (s.emacOf q).tx := by
  unfold State.plcaSent
  dsimp only
  split
  · rfl
  · split
    · obtain ⟨_, _, next⟩ := s.emacOf_plcaNext (p - 12) q
      rw [next]
    · obtain ⟨_, _, slot⟩ := s.emacOf_setSlot p q (s.mono + fld (s.emacOf p).ptime 15 8 * 100) ((s.emacOf p).toLeft - 1)
      rw [slot]

/-- Transmission x of port p is over, record e stands, and the copy is freed unless segments of it follow. -/
def State.txGone (s : State) (p : Nat) (x : TxNow) (e : Emac) : State :=
  let t := ((s.endTxJob x).setEmac p e).plcaSent p
  if x.last then t.freeCopy x.fid x.key else t

/-- The registers that the end of a transmission of port p may change. -/
def txGoneRegs (p a : Nat) : Prop := a = Reg.T1SP_STAT (p - 12) ∨ a = Reg.MSEC_LASTWARN ∨ a = Reg.PG_IST Reg.pgMSEC

theorem not_txGoneRegs {p a : Nat} (page : a < 0x400000) : ¬ txGoneRegs p a := by
  dsimp only [txGoneRegs, Reg.T1SP_STAT, Reg.MSEC_LASTWARN, Reg.PG_IST, Reg.pgMSEC]
  omega

section
variable {s t : State} {may : Nat → Prop}

theorem State.confined.txGone (h : s.confined t may) {p : Nat} (regs : ∀ a, txGoneRegs p a → may a) (x : TxNow) (e : Emac) :
    s.confined (t.txGone p x e) may := by
  have job := State.confined.endTxJob (regs _ (.inr (.inl rfl))) (regs _ (.inr (.inr rfl))) h x
  have ended := (job.setEmac p e).plcaSent (p := p) (regs _ (.inl rfl))
  exact (ended.freeCopy _ _).ite ended

end

theorem State.inSwitch_txGone (s : State) (p : Nat) (x : TxNow) (e : Emac) :
    (((s.endTxJob x).setEmac p e).plcaSent p).inSwitch (s.txGone p x e) fun _ => False :=
  ((State.inSwitch.refl _ _).freeCopy _ _).ite (.refl _ _)

theorem State.tx_txGone (s : State) (p : Nat) (x : TxNow) (e : Emac) : ((s.txGone p x e).emacOf p).tx = e.tx := by
  rw [(s.inSwitch_txGone p x e).tx, State.tx_plcaSent, State.emacOf_setEmac_same]

theorem State.plcaOk_txGone (s : State) (p m : Nat) (x : TxNow) (e : Emac) :
    (s.txGone p x e).rb (Reg.T1SP_STAT m) 31 = s.rb (Reg.T1SP_STAT m) 31 := by
  have job := (State.confined.refl s fun a => a = Reg.MSEC_LASTWARN ∨ a = Reg.PG_IST Reg.pgMSEC).endTxJob (.inl rfl) (.inr rfl) x
  rw [(s.inSwitch_txGone p x e).rb _ not_false, State.plcaOk_plcaSent]
  refine job.rb 31 ?_
  dsimp only [Reg.T1SP_STAT, Reg.MSEC_LASTWARN, Reg.PG_IST, Reg.pgMSEC]
  omega

/-! A frame that its port ends (R247, R248). -/

theorem State.abortTx_none {s : State} {p : Nat} (idle : (s.emacOf p).tx = none) : s.abortTx p = s := by
  unfold State.abortTx
  rw [idle]

theorem State.abortTx_some {s : State} {p : Nat} {x : TxNow} (line : (s.emacOf p).tx = some x) : s.abortTx p
    = (s.bump (Reg.EMAC_TXABORT p) 1 7).txGone p x { s.emacOf p with tx := none, tries := 0, backoff := false } := by
  unfold State.abortTx State.txGone
  rw [line]

/-- The registers that a frame ended by its port may change. -/
def abortRegs (p a : Nat) : Prop := portRegs p [0x26C, 0x10] a ∨ txGoneRegs p a

theorem State.confined_abortTx (s : State) (p : Nat) : s.confined (s.abortTx p) (abortRegs p) := by
  rcases line : (s.emacOf p).tx with _ | x
  case none => rw [State.abortTx_none line]; exact .refl _ _
  case some =>
    rw [State.abortTx_some line]
    exact ((State.confined.refl s (abortRegs p)).bumpEmac (o := 0x26C) 1 7 (by decide) (.inl (portRegs_at (by decide)))
      (.inl (portRegs_event (by decide)))).txGone (fun _ listed => .inr listed) _ _

theorem State.tx_abortTx (s : State) (p : Nat) : ((s.abortTx p).emacOf p).tx = none := by
  rcases line : (s.emacOf p).tx with _ | x
  case none => rw [State.abortTx_none line, line]
  case some => rw [State.abortTx_some line, State.tx_txGone]

theorem State.plcaOk_abortTx (s : State) {p : Nat} (port : p < 14) (m : Nat) :
    (s.abortTx p).rb (Reg.T1SP_STAT m) 31 = s.rb (Reg.T1SP_STAT m) 31 := by
  rcases line : (s.emacOf p).tx with _ | x
  case none => rw [State.abortTx_none line]
  case some =>
    have counted := (State.confined.refl s (portRegs p [0x26C, 0x10])).bumpEmac (o := 0x26C) 1 7 (by decide) (portRegs_at (by decide))
      (portRegs_event (by decide))
    rw [State.abortTx_some line, State.plcaOk_txGone]
    exact counted.rb 31 (not_portRegs_off port (by decide) (.inr (by dsimp only [Reg.T1SP_STAT]; omega)))

end Sys2Proof.Machine
end

section
/-! PROOFS. A port that goes DOWN (R248, R249, R302): its queues are empty, its state is DOWN, and the event is reported. -/
namespace Sys2Proof.Machine

/-! Queues (R256). -/

theorem State.queueOf_congr {s t : State} (h : t.sw.queues = s.sw.queues) (k : Nat) : t.queueOf k = s.queueOf k :=
  congrArg (amGetD [] · k) h

theorem State.pauseAsk_sw (s : State) (p : Nat) : (s.pauseAsk p).sw = s.sw := by
  unfold State.pauseAsk
  dsimp only
  split <;> rfl

theorem State.wdSync_sw (s : State) (p : Nat) : (s.wdSync p).sw = s.sw := by
  unfold State.wdSync
  split <;> rfl

theorem State.queues_freeCopy (s : State) (i k : Nat) : (s.freeCopy i k).sw.queues = s.sw.queues := by
  unfold State.freeCopy
  split
  · rfl
  · rw [State.pauseAsk_sw]
    split <;> rfl

theorem State.queues_dropQueued (s : State) (k : Nat) (c : SwCopy) :
    (s.dropQueued k c).sw.queues = amSet [] s.sw.queues k ((s.queueOf k).filter fun d => d.fid != c.fid) := by
  have told : ∀ f, (s.ethResult f 0x21 none).sw = s.sw := fun f => by
    unfold State.ethResult
    split <;> rfl
  have noted : (match s.frameOf c.fid with
      | some f => if f.tsreq then s.ethResult f 0x21 none else s
      | none => s).sw = s.sw := by
    split
    · split
      · exact told _
      · rfl
    · rfl
  unfold State.dropQueued
  dsimp only
  rw [State.wdSync_sw, State.queues_freeCopy]
  unfold State.setQueue State.queueOf
  exact congrArg (fun w : Switch => amSet [] w.queues k ((amGetD [] w.queues k).filter fun d => d.fid != c.fid)) noted

/-- A copy that is dropped leaves its queue. -/
theorem State.queueOf_dropQueued_same (s : State) (k : Nat) (c : SwCopy) :
    (s.dropQueued k c).queueOf k = (s.queueOf k).filter fun d => d.fid != c.fid := by
  rw [State.queueOf, State.queues_dropQueued, amGetD_set_same]

theorem State.queueOf_dropQueued_other (s : State) {k j : Nat} (c : SwCopy) (other : j ≠ k) : (s.dropQueued k c).queueOf j = s.queueOf j := by
  rw [State.queueOf, State.queues_dropQueued, amGetD_set_other _ _ _ _ other, State.queueOf]

/-! Flushes (R248). -/

/-- A queued copy of port p is dropped as the port goes DOWN. -/
def State.downDrop (s : State) (p c : Nat) (d : SwCopy) : State := (s.dropQueued (8 * p + c) d).bump (Reg.EMAC_LDFLUSH p) 1 7

/-- Every copy of class c of port p is dropped. -/
def State.flushDown (s : State) (p c : Nat) : State := (s.queueOf (8 * p + c)).foldl (fun u d => u.downDrop p c d) s

theorem State.flushQueues_down (s : State) {p : Nat} (external : p ≠ 17) (cs : List Nat) :
    s.flushQueues p cs (fun t => t.bump (Reg.EMAC_LDFLUSH p) 1 7) = cs.foldl (fun t c => t.flushDown p c) s := by
  unfold State.flushQueues State.flushDown State.downDrop
  simp only [if_neg external]

theorem State.queueOf_downDrop_same (s : State) (p c : Nat) (d : SwCopy) :
    (s.downDrop p c d).queueOf (8 * p + c) = (s.queueOf (8 * p + c)).filter fun x => x.fid != d.fid := by
  rw [State.downDrop, State.queueOf_congr (congrArg Switch.queues (State.bump_sw _ _ _ _)), State.queueOf_dropQueued_same]

theorem State.queueOf_downDrop_other (s : State) (p c : Nat) (d : SwCopy) {j : Nat} (other : j ≠ 8 * p + c) :
    (s.downDrop p c d).queueOf j = s.queueOf j := by
  rw [State.downDrop, State.queueOf_congr (congrArg Switch.queues (State.bump_sw _ _ _ _)), State.queueOf_dropQueued_other _ _ other]

/-- A queue whose copies are all among those dropped is empty in the end. -/
theorem State.queueOf_downDrops_nil (p c : Nat) (l : List SwCopy) (s : State) (all : ∀ x ∈ s.queueOf (8 * p + c), x ∈ l) :
    (l.foldl (fun u d => u.downDrop p c d) s).queueOf (8 * p + c) = [] := by
  induction l generalizing s with
  | nil => exact List.eq_nil_iff_forall_not_mem.mpr fun x held => absurd (all x held) List.not_mem_nil
  | cons d r ih =>
    refine ih _ fun x held => ?_
    rw [State.queueOf_downDrop_same, List.mem_filter, bne_iff_ne] at held
    exact (List.mem_cons.mp (all x held.1)).resolve_left fun same => held.2 (congrArg SwCopy.fid same)

theorem State.queueOf_flushDown_same (s : State) (p c : Nat) : (s.flushDown p c).queueOf (8 * p + c) = [] :=
  State.queueOf_downDrops_nil p c _ s fun _ held => held

theorem State.queueOf_flushDown_other (s : State) (p c : Nat) {j : Nat} (other : j ≠ 8 * p + c) : (s.flushDown p c).queueOf j = s.queueOf j := by
  unfold State.flushDown
  generalize s.queueOf (8 * p + c) = l
  induction l generalizing s with
  | nil => rfl
  | cons d r ih => rw [List.foldl_cons, ih, s.queueOf_downDrop_other p c d other]

/-- An empty queue stays empty as other classes are flushed. -/
theorem State.queueOf_flushDown_nil {s : State} {p j : Nat} (c : Nat) (empty : s.queueOf j = []) : (s.flushDown p c).queueOf j = [] := by
  by_cases own : j = 8 * p + c
  · rw [own, State.queueOf_flushDown_same]
  · rw [s.queueOf_flushDown_other p c own, empty]

theorem State.queueOf_flushDowns (p : Nat) (cs : List Nat) (s : State) {c : Nat} (named : c ∈ cs ∨ s.queueOf (8 * p + c) = []) :
    (cs.foldl (fun t c => t.flushDown p c) s).queueOf (8 * p + c) = [] := by
  induction cs generalizing s with
  | nil => exact named.resolve_left List.not_mem_nil
  | cons x r ih =>
    refine ih _ ?_
    rcases named with listed | empty
    · rcases List.mem_cons.mp listed with rfl | later
      · exact .inr (s.queueOf_flushDown_same p c)
      · exact .inl later
    · exact .inr (State.queueOf_flushDown_nil x empty)

theorem State.inSwitch_flushDowns (s : State) (p : Nat) (cs : List Nat) :
    s.inSwitch (cs.foldl (fun t c => t.flushDown p c) s) (portRegs p [0x284, 0x10]) := by
  refine .foldl cs (fun t c ht => .foldl _ (fun u d hu => ?_) ht) (.refl _ _)
  have event : portRegs p [0x284, 0x10] (Reg.PG_IST (pageBase (Reg.EMAC_LDFLUSH p))) := by
    rw [show Reg.EMAC_LDFLUSH p = 0x200000 + 0x284 + 0x1000 * p from rfl, pageBase_emac p (by decide)]
    exact portRegs_event (by decide)
  exact (hu.dropQueued _ d).bump 1 7 (portRegs_at (o := 0x284) (by decide)) event

/-! The MAC table (R302). -/

theorem State.inSwitch.setMtw {s t : State} {may : Nat → Prop} (h : s.inSwitch t may) (i w : Nat) (x : Word) : s.inSwitch (t.setMtw i w x) may :=
  .ite (h.step rfl rfl rfl) (h.setSw _)

theorem State.inSwitch.macClear {s t : State} {may : Nat → Prop} (h : s.inSwitch t may) (v : Word) : s.inSwitch (t.macClear v) may :=
  .foldl _ (fun _ _ hu => .ite (hu.setMtw _ _ _) hu) h

theorem State.inSwitch_macDown (s : State) (p : Nat) : s.inSwitch (s.macDown p) (· = Reg.MACT_FLSTAT) := by
  have same := State.inSwitch.refl s (· = Reg.MACT_FLSTAT)
  exact .ite (.ite (same.setSw _) (.ite ((same.macClear _).wb 31 true rfl) same)) same

theorem State.queues_macClear (s : State) (v : Word) : (s.macClear v).sw.queues = s.sw.queues := by
  unfold State.macClear
  generalize s.mtListed = l
  have cleared : ∀ (t : State) (i : Nat), (t.setMtw i 3 0).sw.queues = t.sw.queues := fun t i => by
    unfold State.setMtw
    split <;> rfl
  induction l generalizing s with
  | nil => rfl
  | cons i r ih =>
    rw [List.foldl_cons, ih]
    split
    · exact cleared s i
    · rfl

theorem State.queueOf_macDown (s : State) (p k : Nat) : (s.macDown p).queueOf k = s.queueOf k := by
  refine State.queueOf_congr ?_ k
  unfold State.macDown macFlushWrite
  split
  · split
    · rfl
    · split
      · rw [State.wb_sw, State.queues_macClear]
      · rfl
  · rfl

/-! DOWN (R249). -/

/-- The registers that a port going DOWN may change. -/
def downRegs (p a : Nat) : Prop := portRegs p [0x284, 0x10, 0x120] a ∨ a = Reg.MACT_FLSTAT

theorem portRegs_sub {p a : Nat} {os ps : List Nat} (sub : os ⊆ ps) (h : portRegs p os a) : portRegs p ps a := by
  obtain ⟨o, listed, named⟩ := h
  exact ⟨o, sub listed, named⟩

theorem State.goDown_eq (s : State) {p : Nat} (external : p ≠ 17) : s.goDown p
    = ((((List.range 8).foldl (fun t c => t.flushDown p c) s).ist (Reg.pgEMAC p) 2).wf (Reg.EMAC_STAT p) 30 29 2).macDown p := by
  rw [State.goDown, State.flushQueues_down s external]

section
variable (s : State) {p : Nat} (port : p < 14)
include port

theorem not_flstat {o : Nat} (word : o < 0x1000) : ¬ 0x200000 + o + 0x1000 * p = Reg.MACT_FLSTAT := by
  dsimp only [Reg.MACT_FLSTAT]
  omega

theorem not_downRegs {o : Nat} (word : o < 0x1000) (out : o ∉ [0x284, 0x10, 0x120]) : ¬ downRegs p (0x200000 + o + 0x1000 * p) := fun listed =>
  listed.elim (not_portRegs_at out) (not_flstat port word)

theorem State.inSwitch_goDown : s.inSwitch (s.goDown p) (downRegs p) := by
  rw [s.goDown_eq (by omega)]
  have flushed := (s.inSwitch_flushDowns p (List.range 8)).weaken (might := downRegs p) fun _ listed => .inl (portRegs_sub (by decide) listed)
  exact ((flushed.ist (b := Reg.pgEMAC p) 2 (.inl (portRegs_event (by decide)))).wf 30 29 2
    (.inl (portRegs_at (o := 0x120) (by decide)))).trans ((State.inSwitch_macDown _ p).weaken fun _ listed => .inr listed)

/-- The port's status word: DOWN, else as it was. -/
theorem State.stat_goDown : (s.goDown p).rd (Reg.EMAC_STAT p) = (s.wf (Reg.EMAC_STAT p) 30 29 2).rd (Reg.EMAC_STAT p) := by
  have flushed := (s.inSwitch_flushDowns p (List.range 8)).regs _ (not_portRegs_at (o := 0x120) (by decide))
  rw [s.goDown_eq (by omega), (State.inSwitch_macDown _ p).regs _ (not_flstat port (o := 0x120) (by decide)), State.wf, State.rd_wr_same,
    State.rd_ist_other _ _ _ _ (by dsimp only [Reg.EMAC_STAT, Reg.PG_IST, Reg.pgEMAC]; omega), State.wf, State.rd_wr_same]
  exact congrArg (setFld · 30 29 2) flushed

theorem State.ethLink_goDown : (s.goDown p).ethLink p = s.ethLink p := by
  rw [State.ethLink, State.rb, s.stat_goDown port, ← State.rb, State.rb_wf_apart _ _ _ _ _ _ (.inr (by decide)) (by decide), State.ethLink]

theorem State.ethHold_goDown : (s.goDown p).ethHold p = false := by
  rw [State.ethHold, State.rf, s.stat_goDown port, ← State.rf, State.rf_wf_same _ _ _ _ _ (by decide)]
  exact Bool.and_false _

/-- A port without link is DOWN then. -/
theorem State.ethDown_goDown (link : s.ethLink p = false) : (s.goDown p).ethDown p = true := by
  rw [State.ethDown, s.ethLink_goDown port, s.ethHold_goDown port, link]
  rfl

theorem State.queueOf_goDown {c : Nat} (cls : c < 8) : (s.goDown p).queueOf (8 * p + c) = [] := by
  rw [s.goDown_eq (by omega), State.queueOf_macDown]
  have kept : ∀ t : State, ((t.ist (Reg.pgEMAC p) 2).wf (Reg.EMAC_STAT p) 30 29 2).sw = t.sw := fun t => by rw [State.wf_sw, State.ist_sw]
  rw [State.queueOf_congr (congrArg Switch.queues (kept _))]
  exact State.queueOf_flushDowns p _ s (.inl (List.mem_range.mpr cls))

end

/-! Its events. -/

theorem State.rb_bump_event {s : State} (a n k : Nat) {b i : Nat} (apart : Reg.PG_IST b ≠ a) (h : s.rb (Reg.PG_IST b) i = true) (hi : i < 32) :
    (s.bump a n k).rb (Reg.PG_IST b) i = true :=
  State.rb_istIf_mono _ _ _ (by rw [State.rb, s.rd_wr_other _ apart]; exact h) hi

theorem State.rb_downDrop_event {s : State} (p c : Nat) (d : SwCopy) {b i : Nat} (apart : Reg.PG_IST b ≠ Reg.EMAC_LDFLUSH p)
    (h : s.rb (Reg.PG_IST b) i = true) (hi : i < 32) : (s.downDrop p c d).rb (Reg.PG_IST b) i = true :=
  State.rb_bump_event _ _ _ apart ((((State.inSwitch.refl s fun _ => False).dropQueued _ d).rb i not_false).trans h) hi

theorem State.rb_flushDowns_event {s : State} (p : Nat) (cs : List Nat) {b i : Nat} (apart : Reg.PG_IST b ≠ Reg.EMAC_LDFLUSH p)
    (h : s.rb (Reg.PG_IST b) i = true) (hi : i < 32) : (cs.foldl (fun t c => t.flushDown p c) s).rb (Reg.PG_IST b) i = true := by
  have one : ∀ (c : Nat) (l : List SwCopy) (t : State), t.rb (Reg.PG_IST b) i = true →
      (l.foldl (fun u d => u.downDrop p c d) t).rb (Reg.PG_IST b) i = true := fun c l => by
    induction l with
    | nil => exact fun _ held => held
    | cons d r ih => exact fun t held => ih _ (State.rb_downDrop_event p c d apart held hi)
  induction cs generalizing s with
  | nil => exact h
  | cons c r ih => exact ih (one c _ s h)

section
variable (s : State) {p : Nat} (port : p < 14)
include port

/-- The events of the port that goes DOWN are those of its flushed queues and its own. -/
theorem State.rb_goDown_own (i : Nat) : (s.goDown p).rb (Reg.PG_IST (Reg.pgEMAC p)) i
    = (((List.range 8).foldl (fun t c => t.flushDown p c) s).ist (Reg.pgEMAC p) 2).rb (Reg.PG_IST (Reg.pgEMAC p)) i := by
  have stat : Reg.PG_IST (Reg.pgEMAC p) ≠ Reg.EMAC_STAT p := by dsimp only [Reg.PG_IST, Reg.pgEMAC, Reg.EMAC_STAT]; omega
  have flush : ¬ Reg.PG_IST (Reg.pgEMAC p) = Reg.MACT_FLSTAT := by dsimp only [Reg.PG_IST, Reg.pgEMAC, Reg.MACT_FLSTAT]; omega
  rw [s.goDown_eq (by omega), (State.inSwitch_macDown _ p).rb i flush, State.rb, State.rd_wf_other _ _ _ _ stat, State.rb]

/-- A flag of the port stays as it goes DOWN. -/
theorem State.rb_goDown_event {i : Nat} (h : s.rb (Reg.PG_IST (Reg.pgEMAC p)) i = true) (hi : i < 32) :
    (s.goDown p).rb (Reg.PG_IST (Reg.pgEMAC p)) i = true := by
  rw [s.rb_goDown_own port]
  exact State.rb_ist_mono _ _ (State.rb_flushDowns_event p _ (by dsimp only [Reg.PG_IST, Reg.pgEMAC, Reg.EMAC_LDFLUSH]; omega) h hi) hi

/-- The port's going DOWN is reported. -/
theorem State.rb_goDown_down : (s.goDown p).rb (Reg.PG_IST (Reg.pgEMAC p)) 2 = true := by
  rw [s.rb_goDown_own port]
  exact State.rb_ist_same _ _ _ (by decide)

end

end Sys2Proof.Machine
end

section
/-! PROOFS. Links that go down, hold, expire and come up (R231, R232, R247-R250). -/
namespace Sys2Proof.Machine

/-! A loss of link (R248). -/

/-- The loss of the link of port p is counted, reported and shown; its frame has ended. -/
def State.lossShown (s : State) (p : Nat) : State :=
  ((((s.abortTx p).bump (Reg.EMAC_LINKDN p) 1 7).ist (Reg.pgEMAC p) 1).wf (Reg.EMAC_STAT p) 31 29 1).wf (Reg.EMAC_STAT p) 7 4 0

/-- The link of port p has gone, and the port holds its queues from now on. -/
def State.portLost (s : State) (p : Nat) : State :=
  (s.lossShown p).setEmac p { (s.lossShown p).emacOf p with pause := [], wd := [], ign := [], holdAt := (s.lossShown p).now }

theorem State.linkLoss_eq {s : State} {p : Nat} (link : s.ethLink p = true) :
    s.linkLoss p = if (s.portLost p).linkHoldNs p = 0 then (s.portLost p).goDown p else s.portLost p := by
  unfold State.linkLoss State.portLost State.lossShown
  simp only [link, Bool.not_true, Bool.false_eq_true, if_false]

theorem State.linkLoss_off {s : State} {p : Nat} (link : s.ethLink p = false) : s.linkLoss p = s := by
  rw [State.linkLoss, link]
  rfl

/-- The registers that a loss of link of port p may change. -/
def lossRegs (p a : Nat) : Prop := portRegs p [0x26C, 0x10, 0x290, 0x120] a ∨ txGoneRegs p a

theorem lossRegs_of_abort {p a : Nat} (h : abortRegs p a) : lossRegs p a := h.imp_left (portRegs_sub (by decide))

theorem not_lossRegs {p o : Nat} (port : p < 14) (word : o < 0x1000) (out : o ∉ [0x26C, 0x10, 0x290, 0x120]) :
    ¬ lossRegs p (0x200000 + o + 0x1000 * p) := fun listed =>
  listed.elim (not_portRegs_at out) (not_txGoneRegs (by omega))

section
variable (s : State) (p : Nat)

theorem State.confined_lossCounted : s.confined ((s.abortTx p).bump (Reg.EMAC_LINKDN p) 1 7) (lossRegs p) :=
  ((s.confined_abortTx p).weaken fun _ => lossRegs_of_abort).bumpEmac (o := 0x290) 1 7 (by decide) (.inl (portRegs_at (by decide)))
    (.inl (portRegs_event (by decide)))

theorem State.confined_lossShown : s.confined (s.lossShown p) (lossRegs p) :=
  have stat : lossRegs p (Reg.EMAC_STAT p) := .inl (portRegs_at (o := 0x120) (by decide))
  (((s.confined_lossCounted p).ist 1 (.inl (portRegs_event (by decide)))).wf 31 29 1 stat).wf 7 4 0 stat

theorem State.confined_portLost : s.confined (s.portLost p) (lossRegs p) := (s.confined_lossShown p).setEmac _ _

theorem State.emacOf_portLost : (s.portLost p).emacOf p
    = { (s.abortTx p).emacOf p with pause := [], wd := [], ign := [], holdAt := s.now } := by
  have record : (s.lossShown p).emacOf p = (s.abortTx p).emacOf p :=
    State.emacOf_congr (by rw [State.lossShown, State.wf_emac, State.wf_emac, State.ist_emac, State.bump_emac]) p
  rw [State.portLost, State.emacOf_setEmac_same, record, (s.confined_lossShown p).now]

theorem State.tx_portLost : ((s.portLost p).emacOf p).tx = none := by
  rw [State.emacOf_portLost]
  exact s.tx_abortTx p

theorem State.holdAt_portLost : ((s.portLost p).emacOf p).holdAt = s.now := by rw [State.emacOf_portLost]

/-- No link stands in the status word, and the port is in HOLD. -/
theorem State.ethLink_portLost : (s.portLost p).ethLink p = false := by
  rw [State.ethLink, State.portLost, State.rb, State.rd_setEmac, State.lossShown, ← State.rb, State.rb_wf_apart _ _ _ _ _ _ (.inr (by decide)) (by decide),
    State.rb_wf_inside _ _ _ _ _ (by decide) (by decide) (by decide)]
  rfl

/-- The low bits of a field. -/
theorem fld_state (w : Word) : fld w 30 29 = fld w 31 29 % 4 := by
  simp only [fld, nfld]
  omega

theorem State.ethHold_portLost : (s.portLost p).ethHold p = true := by
  have held : (s.portLost p).rf (Reg.EMAC_STAT p) 31 29 = 1 := by
    rw [State.portLost, State.rf, State.rd_setEmac, State.lossShown, ← State.rf, State.rf_wf_apart _ _ _ _ _ _ _ (.inr (by decide)) (by decide),
      State.rf_wf_same _ _ _ _ _ (by decide)]
    rfl
  rw [State.ethHold, s.ethLink_portLost p, State.rf, fld_state, ← State.rf, held]
  rfl

/-- After the count, the loss changes the port's status word and its event. -/
theorem State.confined_portLost_counted :
    ((s.abortTx p).bump (Reg.EMAC_LINKDN p) 1 7).confined (s.portLost p) (portRegs p [0x10, 0x120]) :=
  have stat : portRegs p [0x10, 0x120] (Reg.EMAC_STAT p) := portRegs_at (o := 0x120) (by decide)
  ((((State.confined.refl _ _).ist 1 (portRegs_event (by decide))).wf 31 29 1 stat).wf 7 4 0 stat).setEmac _ _

theorem State.rd_portLost_linkdn (port : p < 14) : (s.portLost p).rd (Reg.EMAC_LINKDN p) = s.rd (Reg.EMAC_LINKDN p) + 1 := by
  have ended : (s.abortTx p).rd (Reg.EMAC_LINKDN p) = s.rd (Reg.EMAC_LINKDN p) := (s.confined_abortTx p).regs _ fun listed =>
    listed.elim (not_portRegs_at (o := 0x290) (by decide)) (not_txGoneRegs (by dsimp only [Reg.EMAC_LINKDN]; omega))
  rw [(s.confined_portLost_counted p).regs _ (not_portRegs_at (o := 0x290) (by decide)), ← ended]
  exact (s.abortTx p).rd_bumpEmac p (o := 0x290) 7 (by decide)

theorem State.rb_portLost_event : (s.portLost p).rb (Reg.PG_IST (Reg.pgEMAC p)) 1 = true := by
  have apart : Reg.PG_IST (Reg.pgEMAC p) ≠ Reg.EMAC_STAT p := by dsimp only [Reg.PG_IST, Reg.pgEMAC, Reg.EMAC_STAT]; omega
  rw [State.portLost, State.rb, State.rd_setEmac, State.lossShown, State.rd_wf_other _ _ _ _ apart, State.rd_wf_other _ _ _ _ apart, ← State.rb]
  exact State.rb_ist_same _ _ _ (by decide)

theorem State.linkHoldNs_portLost (port : p < 14) : (s.portLost p).linkHoldNs p = s.linkHoldNs p := by
  rw [State.linkHoldNs, (s.confined_portLost p).rf 23 16 (not_lossRegs (o := 0x100) port (by decide) (by decide)), State.linkHoldNs]

end

/-- R248: a link is lost. -/
theorem lossOfLink_completes {s : State} {p : Fin 14} (link : s.ethLink p = true) : Completes (.lossOfLink p) s fun t =>
    t.ethLink p = false ∧ t.rd (Reg.EMAC_LINKDN p) = s.rd (Reg.EMAC_LINKDN p) + 1
    ∧ t.rb (Reg.PG_IST (Reg.pgEMAC p)) 1 = true ∧ (t.emacOf p).tx = none
    ∧ (s.rf (Reg.EMAC_CFG p) 23 16 ≠ 0 → t.ethHold p = true ∧ (t.emacOf p).holdAt = s.now ∧ s.sameTables t)
    ∧ (s.rf (Reg.EMAC_CFG p) 23 16 = 0 → t.ethDown p = true ∧ ∀ c, c < 8 → t.queueOf (8 * p + c) = []) := by
  refine .of_exec (congrArg Host.Outcome.next (State.linkLoss_eq link)) ?_
  rw [s.linkHoldNs_portLost p p.isLt, State.linkHoldNs]
  split
  case isTrue none =>
    have down := (s.portLost p).inSwitch_goDown p.isLt
    refine ⟨?_, ?_, State.rb_goDown_event _ p.isLt (s.rb_portLost_event p) (by decide), (down.tx p).trans (s.tx_portLost p), fun some => ?_,
      fun _ => ⟨State.ethDown_goDown _ p.isLt (s.ethLink_portLost p), fun c cls => State.queueOf_goDown _ p.isLt cls⟩⟩
    · rw [State.ethLink_goDown _ p.isLt, s.ethLink_portLost]
    · rw [down.regs _ (not_downRegs p.isLt (o := 0x290) (by decide) (by decide)), s.rd_portLost_linkdn p p.isLt]
    · omega
  case isFalse some =>
    exact ⟨s.ethLink_portLost p, s.rd_portLost_linkdn p p.isLt, s.rb_portLost_event p, s.tx_portLost p,
      fun _ => ⟨s.ethHold_portLost p, s.holdAt_portLost p, (s.confined_portLost p).tables⟩, fun none => absurd (by rw [none]) some⟩

/-- R248, R250: a hold ends. -/
theorem linkHoldExpiry_completes {s : State} {p : Fin 14} (hold : s.ethHold p = true)
    (due : (s.emacOf p).holdAt + s.rf (Reg.EMAC_CFG p) 23 16 * 1000000 ≤ s.now) : Completes (.linkHoldExpiry p) s fun t =>
    t.ethDown p = true ∧ t.rb (Reg.PG_IST (Reg.pgEMAC p)) 2 = true ∧ ∀ c, c < 8 → t.queueOf (8 * p + c) = [] := by
  have ends : (s.ethHold p && decide ((s.emacOf p).holdAt + s.linkHoldNs p ≤ s.now)) = true := by
    rw [hold, State.linkHoldNs, decide_eq_true due, Bool.and_self]
  have link : s.ethLink p = false := by
    rw [State.ethHold, Bool.and_eq_true, Bool.not_eq_true'] at hold
    exact hold.1
  exact .of_exec (congrArg Host.Outcome.next (if_pos ends)) ⟨s.ethDown_goDown p.isLt link, s.rb_goDown_down p.isLt,
    fun c cls => s.queueOf_goDown p.isLt cls⟩

/-! A link that comes up (R231, R233). -/

/-- The speed code fits its field. -/
theorem State.speedCode_lt (s : State) (p : Nat) {neg : Nat} (fits : neg < 16) : s.speedCode p neg < 16 := by
  have set := fld_lt (s.rd (Reg.EMAC_CFG p)) 11 8
  unfold State.speedCode
  split
  · decide
  · decide
  · decide
  · decide
  · dsimp only
    split
    · exact fits
    · exact set

/-- The status word and the event of a port whose link comes up. -/
def State.linkShown (s : State) (p code : Nat) : State :=
  (((s.wf (Reg.EMAC_STAT p) 31 29 4).wf (Reg.EMAC_STAT p) 7 4 code).ist (Reg.pgEMAC p) 0).wdSync p

theorem State.inSwitch.linkShown {s t : State} {p : Nat} (h : s.inSwitch t (downRegs p)) (code : Nat) :
    s.inSwitch (t.linkShown p code) (downRegs p) :=
  have stat : downRegs p (Reg.EMAC_STAT p) := .inl (portRegs_at (o := 0x120) (by decide))
  (((h.wf 31 29 4 stat).wf 7 4 code stat).ist 0 (.inl (portRegs_event (by decide)))).wdSync _

theorem State.wdSync_regs (s : State) (p : Nat) : (s.wdSync p).regs = s.regs := by
  unfold State.wdSync
  split <;> rfl

theorem State.stat_linkShown (s : State) (p code : Nat) : (s.linkShown p code).rd (Reg.EMAC_STAT p)
    = ((s.wf (Reg.EMAC_STAT p) 31 29 4).wf (Reg.EMAC_STAT p) 7 4 code).rd (Reg.EMAC_STAT p) := by
  rw [State.linkShown, State.rd_congr (State.wdSync_regs _ _),
    State.rd_ist_other _ _ _ _ (by dsimp only [Reg.PG_IST, Reg.pgEMAC, Reg.EMAC_STAT]; omega)]

theorem State.ethLink_linkShown (s : State) (p code : Nat) : (s.linkShown p code).ethLink p = true := by
  rw [State.ethLink, State.rb, State.stat_linkShown, ← State.rb, State.rb_wf_apart _ _ _ _ _ _ (.inr (by decide)) (by decide),
    State.rb_wf_inside _ _ _ _ _ (by decide) (by decide) (by decide)]
  rfl

theorem State.speed_linkShown (s : State) (p : Nat) {code : Nat} (fits : code < 16) : (s.linkShown p code).rf (Reg.EMAC_STAT p) 7 4 = code := by
  rw [State.rf, State.stat_linkShown, ← State.rf, State.rf_wf_same _ _ _ _ _ (by decide)]
  exact Nat.mod_eq_of_lt fits

theorem State.rb_linkShown_event (s : State) (p code : Nat) : (s.linkShown p code).rb (Reg.PG_IST (Reg.pgEMAC p)) 0 = true := by
  rw [State.linkShown, State.rb, State.rd_congr (State.wdSync_regs _ _), ← State.rb]
  exact State.rb_ist_same _ _ _ (by decide)

/-- A link that was down comes up, after the hold where that is over. -/
theorem State.ethLinkUp_eq {s : State} {p : Nat} (port : p < 14) (link : s.ethLink p = false) (code : Nat) :
    ∃ t, (t = s ∨ t = s.goDown p) ∧ s.ethLinkUp p code = t.linkShown p code := by
  unfold State.ethLinkUp
  extract_lets t
  have settled : t = s ∨ t = s.goDown p := (ite_eq_or_eq _ _ _).symm
  refine ⟨t, settled, ?_⟩
  rw [if_neg]
  · rfl
  · rcases settled with same | down
    · rw [same, link]; exact Bool.false_ne_true
    · rw [down, State.ethLink_goDown _ port, link]; exact Bool.false_ne_true

theorem State.inSwitch_ethLinkUp {s : State} {p : Nat} (port : p < 14) (link : s.ethLink p = false) (code : Nat) :
    s.inSwitch (s.ethLinkUp p code) (downRegs p) := by
  obtain ⟨t, rfl | rfl, up⟩ := State.ethLinkUp_eq port link code
  · rw [up]; exact (State.inSwitch.refl _ _).linkShown code
  · rw [up]; exact (s.inSwitch_goDown port).linkShown code

/-- R231, R233: a link comes up with its speed code. -/
theorem linkUp_completes {s : State} {p : Fin 14} (sp : Fin 7) (link : s.ethLink p = false) (mode : s.rf (Reg.EMAC_CFG p) 2 0 ≠ 0)
    (t1 : s.rf (Reg.EMAC_CFG p) 2 0 = 6 → s.t1Up (p - 12) = true) (awake : 12 ≤ p.val ∨ s.inSave = false) :
    Completes (.linkUp p sp false) s fun t =>
      t.ethLink p = true ∧ t.rf (Reg.EMAC_STAT p) 7 4 = s.speedCode p sp ∧ t.rb (Reg.PG_IST (Reg.pgEMAC p)) 0 = true := by
  have runs : ¬ (s.rf (Reg.EMAC_CFG p) 2 0 = 0 ∨ s.ethLink p = true ∨ (p.val < 12 ∧ s.inSave = true)) := by
    rw [link]
    rintro (off | up | ⟨serdes, save⟩)
    · exact mode off
    · exact Bool.false_ne_true up
    · rcases awake with t1s | on
      · omega
      · exact Bool.false_ne_true (on.symm.trans save)
  have beacon : ¬ (s.rf (Reg.EMAC_CFG p) 2 0 = 6 ∧ (!s.t1Up (p - 12)) = true) := fun ⟨six, down⟩ => by
    rw [t1 six] at down
    exact Bool.false_ne_true down
  have up : exec (.linkUp p sp false) s = .next (s.ethLinkUp p (s.speedCode p sp)) := by
    change execLinkUp p sp false s = _
    simp only [execLinkUp, if_neg runs, if_neg beacon, Bool.false_eq_true, false_and, if_false]
  obtain ⟨t, -, shown⟩ := State.ethLinkUp_eq p.isLt link (s.speedCode p sp)
  rw [shown] at up
  exact .of_exec up ⟨t.ethLink_linkShown _ _, t.speed_linkShown _ (s.speedCode_lt _ (by omega)), t.rb_linkShown_event _ _⟩

end Sys2Proof.Machine
end

section
/-! PROOFS. Auto-negotiation and the 10BASE-T1S ports (R232-R235, R253), and the statement about reception and links. -/
namespace Sys2Proof.Machine

/-! Auto-negotiation (R233). -/

/-- R233: the partner's pause bits are reported. -/
theorem autoNegotiationComplete_completes {s : State} {p : Fin 14} (lp : Fin 4) (enabled : s.rb (Reg.EMAC_ANCTL p) 0 = true)
    (mode : s.rf (Reg.EMAC_CFG p) 2 0 = 2 ∨ s.rf (Reg.EMAC_CFG p) 2 0 = 4 ∨ s.rf (Reg.EMAC_CFG p) 2 0 = 5) :
    Completes (.autoNegotiationComplete p lp) s fun t => t.rb (Reg.EMAC_STAT p) 28 = true ∧ t.rf (Reg.EMAC_STAT p) 27 26 = lp
      ∧ s.sameRegs t [Reg.EMAC_STAT p] ∧ s.sameTables t ∧ s.sameBytes t := by
  have runs : s.anOn p = true := by
    rw [State.anOn, enabled]
    rcases mode with m | m | m <;> rw [m] <;> rfl
  have frame := (State.confined.refl s (· ∈ [Reg.EMAC_STAT p])).wf 28 26 (4 + lp) (List.mem_singleton.mpr rfl)
  have low : ∀ w, fld w 27 26 = fld w 28 26 % 4 := fun w => by
    simp only [fld, nfld]
    omega
  have pause : ((4 + lp.val) % 2 ^ (28 + 1 - 26)) % 4 = lp := by omega
  refine .of_exec (congrArg Host.Outcome.next (if_pos runs)) ⟨?_, ?_, frame.sameRegs, frame.tables, frame.bytes⟩
  · rw [State.rb_wf_inside _ _ _ _ _ (by decide) (by decide) (by decide)]
    have set : ∀ l : Fin 4, (4 + l.val).testBit 2 = true := by decide
    exact set lp
  · rw [State.rf, low, ← State.rf, State.rf_wf_same _ _ _ _ _ (by decide), pause]

/-- The row of EMACn_ANCTL. -/
def anctlRow : RegRow := ⟨0x11C, 4, 1, 4, 1, .rw, 0x31, 0, 0x31, false⟩

theorem rowAt_anctl : ∀ p < 14, rowAt (Reg.EMAC_ANCTL p) = some anctlRow ∧ isHigh (Reg.EMAC_ANCTL p) = false := by decide

/-- No write of the register is discarded. -/
theorem State.discards_anctl (s : State) (i : Initiator) {p : Nat} (v : Word) (port : p < 14) : s.discards i (Reg.EMAC_ANCTL p) v = false := by
  interval_cases p <;> rfl

/-- R233: RESTART ends the completed state. -/
theorem autoNegotiationRestart_completes {s : State} {p : Fin 14} (i : Initiator) {v : Word} (run : s.pwr.held = false)
    (restart : bitOf v 8 = true) : Completes (.autoNegotiationRestart i p v) s fun t =>
      t.rb (Reg.EMAC_STAT p) 28 = false ∧ s.sameRegs t [Reg.EMAC_STAT p, Reg.EMAC_ANCTL p] ∧ s.sameTables t ∧ s.sameBytes t := by
  obtain ⟨row, low⟩ := rowAt_anctl p p.isLt
  have written : exec (.autoNegotiationRestart i p v) s = .next ((s.indexStored i (Reg.EMAC_ANCTL p) anctlRow v).wb (Reg.EMAC_STAT p) 28 false) := by
    change Host.Outcome.next (s.cmdWrite i (Reg.EMAC_ANCTL p) v (anctlWrite p v)) = _
    rw [State.cmdWrite_index i v run row (by dsimp only [Reg.EMAC_ANCTL]; omega) rfl rfl low (State.discards_anctl _ i v p.isLt), anctlWrite,
      if_pos restart]
  have frame := (((State.confined.refl s (· ∈ [Reg.EMAC_STAT p, Reg.EMAC_ANCTL p])).setUnlock i (Reg.EMAC_ANCTL p) false).wr
    (anctlRow.written (s.rd (Reg.EMAC_ANCTL p)) v) (List.mem_cons_of_mem _ (List.mem_singleton.mpr rfl))).wb (a := Reg.EMAC_STAT p) 28 false
      List.mem_cons_self
  exact .of_exec written ⟨State.rb_wb_same _ _ _ _ (by decide), frame.sameRegs, frame.tables, frame.bytes⟩

/-! Collisions (R235). -/

/-- The registers in which PHY m and its port count a collision. -/
def collisionRegs (m a : Nat) : Prop :=
  a = Reg.T1SP_COLL m ∨ a = Reg.PG_IST (Reg.pgT1SP m) ∨ portRegs (12 + m) [0x27C, 0x280, 0x10] a ∨ txGoneRegs (12 + m) a

/-- A collision at PHY m, seen by the PHY. -/
def State.collisionSeen (s : State) (m : Nat) : State :=
  (s.bump (Reg.T1SP_COLL m) 1 3).istIf (s.rb (Reg.T1SP_CTL m) 1) (Reg.pgT1SP m) 2

/-- It is counted by the port as well. -/
def State.collisionMet (s : State) (m : Nat) : State := (s.collisionSeen m).bump (Reg.EMAC_TXCOLL (12 + m)) 1 7

section
variable {s : State} {m : Fin 2} {x : TxNow} (line : (s.emacOf (12 + m)).tx = some x) (sending : (s.emacOf (12 + m)).backoff = false)

theorem State.emac_collisionSeen (s : State) (m : Nat) : (s.collisionSeen m).emac = s.emac := by
  rw [State.collisionSeen, State.istIf_emac, State.bump_emac]

theorem State.confined_collisionMet (s : State) (m : Nat) : s.confined (s.collisionMet m) (collisionRegs m) := by
  have seen := ((State.confined.refl s (collisionRegs m)).bump (a := Reg.T1SP_COLL m) 1 3 (.inl rfl)
    (.inr (.inl (congrArg Reg.PG_IST (pageBase_t1sp m (o := 0x110) (by decide)))))).istIf (s.rb (Reg.T1SP_CTL m) 1) (b := Reg.pgT1SP m) 2
      (.inr (.inl rfl))
  exact seen.bumpEmac (o := 0x27C) 1 7 (by decide) (.inr (.inr (.inl (portRegs_at (by decide)))))
    (.inr (.inr (.inl (portRegs_event (by decide)))))

/-- The count of the PHY. -/
theorem State.rd_collisionMet_coll (s : State) (m : Fin 2) : (s.collisionMet m).rd (Reg.T1SP_COLL m) = s.rd (Reg.T1SP_COLL m) + 1 := by
  have port := (State.confined.refl (s.collisionSeen m) (portRegs (12 + m) [0x27C, 0x10])).bumpEmac (o := 0x27C) 1 7 (by decide)
    (portRegs_at (by decide)) (portRegs_event (by decide))
  have apart : ¬ portRegs (12 + m.val) [0x27C, 0x10] (Reg.T1SP_COLL m) :=
    not_portRegs_off (by omega) (by decide) (.inr (by dsimp only [Reg.T1SP_COLL]; omega))
  rw [State.collisionMet, port.regs _ apart, State.collisionSeen,
    State.rd_istIf_other _ _ _ _ _ (by dsimp only [Reg.T1SP_COLL, Reg.PG_IST, Reg.pgT1SP]; omega)]
  exact State.rd_bump_sum _ 1 3 (by dsimp only [Reg.T1SP_COLL]; omega)

/-- What the PHY has seen changes no register of a port. -/
theorem State.rd_collisionSeen_port (s : State) (m : Nat) {a : Nat} (port : a < 0x820000) : (s.collisionSeen m).rd a = s.rd a := by
  have page : Reg.PG_IST (pageBase (Reg.T1SP_COLL m)) = Reg.PG_IST (Reg.pgT1SP m) := congrArg Reg.PG_IST (pageBase_t1sp m (o := 0x110) (by decide))
  have event : a ≠ Reg.PG_IST (Reg.pgT1SP m) := by dsimp only [Reg.PG_IST, Reg.pgT1SP]; omega
  rw [State.collisionSeen, State.rd_istIf_other _ _ _ _ _ event, State.rd_bump_other _ _ _ _ _ (by dsimp only [Reg.T1SP_COLL]; omega)
    (by rw [page]; exact event)]

/-- The count of the port. -/
theorem State.rd_collisionMet_txcoll (s : State) (m : Fin 2) :
    (s.collisionMet m).rd (Reg.EMAC_TXCOLL (12 + m)) = s.rd (Reg.EMAC_TXCOLL (12 + m)) + 1 := by
  rw [State.collisionMet, ← s.rd_collisionSeen_port m (a := Reg.EMAC_TXCOLL (12 + m)) (by dsimp only [Reg.EMAC_TXCOLL]; omega)]
  exact (s.collisionSeen m).rd_bumpEmac (12 + m) (o := 0x27C) 7 (by decide)

/-- A frame given up is not yet counted. -/
theorem State.rd_collisionMet_texcoll (s : State) (m : Fin 2) :
    (s.collisionMet m).rd (Reg.EMAC_TXEXCOLL (12 + m)) = s.rd (Reg.EMAC_TXEXCOLL (12 + m)) := by
  have port := (State.confined.refl (s.collisionSeen m) (portRegs (12 + m) [0x27C, 0x10])).bumpEmac (o := 0x27C) 1 7 (by decide)
    (portRegs_at (by decide)) (portRegs_event (by decide))
  rw [State.collisionMet, port.regs _ (not_portRegs_at (o := 0x280) (by decide)),
    s.rd_collisionSeen_port m (a := Reg.EMAC_TXEXCOLL (12 + m)) (by dsimp only [Reg.EMAC_TXEXCOLL]; omega)]

/-- The registers that a frame given up after its count of a collision may change. -/
def givenUpRegs (p a : Nat) : Prop := portRegs p [0x280, 0x10] a ∨ txGoneRegs p a

theorem coll_not_givenUpRegs (m : Fin 2) : ¬ givenUpRegs (12 + m) (Reg.T1SP_COLL m) := by
  rintro (port | gone)
  · exact not_portRegs_off (a := Reg.T1SP_COLL m) (by omega) (by decide) (.inr (by dsimp only [Reg.T1SP_COLL]; omega)) port
  · dsimp only [txGoneRegs, Reg.T1SP_COLL, Reg.T1SP_STAT, Reg.MSEC_LASTWARN, Reg.PG_IST, Reg.pgMSEC] at gone
    omega

theorem txcoll_not_givenUpRegs (m : Fin 2) : ¬ givenUpRegs (12 + m) (Reg.EMAC_TXCOLL (12 + m)) := fun listed =>
  listed.elim (not_portRegs_at (o := 0x27C) (by decide)) (not_txGoneRegs (by dsimp only [Reg.EMAC_TXCOLL]; omega))

include line sending

theorem State.collision_eq : s.collision m = if 16 ≤ (s.emacOf (12 + m)).tries + 1 then
      ((s.collisionMet m).bump (Reg.EMAC_TXEXCOLL (12 + m)) 1 7).txGone (12 + m) x
        { s.emacOf (12 + m) with tx := none, tries := 0, backoff := false }
    else (s.collisionMet m).setEmac (12 + m) { s.emacOf (12 + m) with tx := some x, tries := (s.emacOf (12 + m)).tries + 1, backoff := true } := by
  have record : (s.collisionSeen m).emacOf (12 + m) = s.emacOf (12 + m) := State.emacOf_congr (s.emac_collisionSeen m) _
  unfold State.collision State.txGone State.collisionMet
  extract_lets p seen e
  have known : e = s.emacOf (12 + m) := record
  simp only [known, line, sending, Bool.false_eq_true, if_false]
  rfl

end

/-- R235: a frame that meets a collision backs off, or is given up. -/
theorem physicalCollision_completes {s : State} {m : Fin 2} {x : TxNow} (line : (s.emacOf (12 + m)).tx = some x)
    (sending : (s.emacOf (12 + m)).backoff = false) : Completes (.physicalCollision m) s fun t =>
      t.rd (Reg.T1SP_COLL m) = s.rd (Reg.T1SP_COLL m) + 1 ∧ t.rd (Reg.EMAC_TXCOLL (12 + m)) = s.rd (Reg.EMAC_TXCOLL (12 + m)) + 1
      ∧ ((s.emacOf (12 + m)).tries + 1 < 16 → (t.emacOf (12 + m)).tx = some x ∧ (t.emacOf (12 + m)).backoff = true
        ∧ (t.emacOf (12 + m)).tries = (s.emacOf (12 + m)).tries + 1)
      ∧ (16 ≤ (s.emacOf (12 + m)).tries + 1 → (t.emacOf (12 + m)).tx = none
        ∧ t.rd (Reg.EMAC_TXEXCOLL (12 + m)) = s.rd (Reg.EMAC_TXEXCOLL (12 + m)) + 1)
      ∧ s.sameTables t ∧ s.sameBytes t := by
  have met := s.confined_collisionMet m
  refine .of_exec (congrArg Host.Outcome.next (State.collision_eq line sending)) ?_
  split
  case isTrue last =>
    have ended := ((State.confined.refl (s.collisionMet m) (givenUpRegs (12 + m))).bumpEmac (o := 0x280) 1 7 (by decide)
      (.inl (portRegs_at (by decide))) (.inl (portRegs_event (by decide)))).txGone (p := 12 + m) (fun _ listed => .inr listed) x
        { s.emacOf (12 + m) with tx := none, tries := 0, backoff := false }
    have given := ((State.confined.refl ((s.collisionMet m).bump (Reg.EMAC_TXEXCOLL (12 + m)) 1 7) (txGoneRegs (12 + m))).txGone
      (p := 12 + m) (fun _ listed => listed) x { s.emacOf (12 + m) with tx := none, tries := 0, backoff := false })
    refine ⟨?_, ?_, fun more => by omega, fun _ => ⟨State.tx_txGone _ _ _ _, ?_⟩, met.tables.trans ended.tables, met.bytes.trans ended.bytes⟩
    · rw [ended.regs _ (coll_not_givenUpRegs m), s.rd_collisionMet_coll m]
    · rw [ended.regs _ (txcoll_not_givenUpRegs m), s.rd_collisionMet_txcoll m]
    · rw [given.regs _ (not_txGoneRegs (by dsimp only [Reg.EMAC_TXEXCOLL]; omega)), ← s.rd_collisionMet_texcoll m]
      exact (s.collisionMet m).rd_bumpEmac (12 + m) (o := 0x280) 7 (by decide)
  case isFalse again =>
    have frame := met.setEmac (12 + m) { s.emacOf (12 + m) with tx := some x, tries := (s.emacOf (12 + m)).tries + 1, backoff := true }
    have record := State.emacOf_setEmac_same (s.collisionMet m) (12 + m)
      { s.emacOf (12 + m) with tx := some x, tries := (s.emacOf (12 + m)).tries + 1, backoff := true }
    rw [State.rd_setEmac, State.rd_setEmac, record]
    exact ⟨s.rd_collisionMet_coll m, s.rd_collisionMet_txcoll m, fun _ => ⟨rfl, rfl, rfl⟩, fun last => absurd last again, frame.tables, frame.bytes⟩

/-- R235: the frame is sent again. -/
theorem backoffExpiry_completes (s : State) (m : Fin 2) : Completes (.backoffExpiry m) s fun t =>
    (t.emacOf (12 + m)).backoff = false ∧ (t.emacOf (12 + m)).tx = (s.emacOf (12 + m)).tx ∧ s.sameRegs t [] ∧ s.sameTables t ∧ s.sameBytes t := by
  have frame := (State.confined.refl s (· ∈ [])).setEmac (12 + m) { s.emacOf (12 + m) with backoff := false }
  refine .of_exec rfl ⟨?_, ?_, frame.sameRegs, frame.tables, frame.bytes⟩ <;> rw [State.emacOf_setEmac_same]

/-! Beacons and the PLCA status (R234, R253). -/

theorem beacon_completes {s : State} {m : Fin 2} (due : s.beaconDue m = true) : Completes (.beacon m) s fun t =>
    (t.emacOf (12 + m)).plca = s.rd (Reg.T1SP_PLCA m) ∧ (t.emacOf (12 + m)).ptime = s.rd (Reg.T1SP_PTIME m)
    ∧ t.rf (Reg.T1SP_STAT m) 7 0 = 0 ∧ s.sameRegs t [Reg.T1SP_STAT m] ∧ s.sameTables t ∧ s.sameBytes t := by
  have frame := fun e => ((State.confined.refl s (· ∈ [Reg.T1SP_STAT m])).wf 7 0 0 (List.mem_singleton.mpr rfl)).setEmac (12 + m) e
  refine .of_exec (congrArg Host.Outcome.next (if_pos due)) ⟨?_, ?_, ?_, (frame _).sameRegs, (frame _).tables, (frame _).bytes⟩
  · rw [State.emacOf_setEmac_same]
  · rw [State.emacOf_setEmac_same]
  · rw [State.rf, State.rd_setEmac, ← State.rf, State.rf_wf_same _ _ _ _ _ (by decide)]
    rfl

/-- The PLCA status of PHY m is shown and reported. -/
def State.plcaShown (s : State) (m : Nat) (ok : Bool) : State :=
  let t := s.wb (Reg.T1SP_STAT m) 31 ok
  if ok then t.ist (Reg.pgT1SP m) 0 else (t.bump (Reg.T1SP_BCNLOSS m) 1 3).ist (Reg.pgT1SP m) 1

theorem State.plcaStatus_eq {s : State} {m : Nat} {ok : Bool} (on : s.plcaOn m = true) (change : s.rb (Reg.T1SP_STAT m) 31 ≠ ok) :
    s.plcaStatus m ok = (s.plcaShown m ok).t1Sync m := by
  unfold State.plcaStatus State.plcaShown
  simp only [on, Bool.and_true, beq_eq_false_iff_ne.mpr change, Bool.false_eq_true, if_false]

section
variable (s : State) (m : Fin 2) (ok : Bool)

theorem State.plcaOk_plcaShown : (s.plcaShown m ok).rb (Reg.T1SP_STAT m) 31 = ok := by
  have event : Reg.T1SP_STAT m ≠ Reg.PG_IST (Reg.pgT1SP m) := by dsimp only [Reg.T1SP_STAT, Reg.PG_IST, Reg.pgT1SP]; omega
  have page : Reg.T1SP_STAT m ≠ Reg.PG_IST (pageBase (Reg.T1SP_BCNLOSS m)) := by
    rw [show pageBase (Reg.T1SP_BCNLOSS m) = Reg.pgT1SP m from pageBase_t1sp m (o := 0x114) (by decide)]
    exact event
  have count : Reg.T1SP_STAT m ≠ Reg.T1SP_BCNLOSS m := by dsimp only [Reg.T1SP_STAT, Reg.T1SP_BCNLOSS]; omega
  cases ok
  case false =>
    rw [State.plcaShown, if_neg Bool.false_ne_true, State.rb, State.rd_ist_other _ _ _ _ event, State.rd_bump_other _ _ _ _ _ count page, ← State.rb]
    exact State.rb_wb_same _ _ _ _ (by decide)
  case true =>
    rw [State.plcaShown, if_pos rfl, State.rb, State.rd_ist_other _ _ _ _ event, ← State.rb]
    exact State.rb_wb_same _ _ _ _ (by decide)

theorem State.rb_plcaShown_event : (s.plcaShown m ok).rb (Reg.PG_IST (Reg.pgT1SP m)) (if ok then 0 else 1) = true := by
  cases ok
  case false =>
    rw [State.plcaShown, if_neg Bool.false_ne_true]
    exact State.rb_ist_same _ _ _ (by decide)
  case true =>
    rw [State.plcaShown, if_pos rfl]
    exact State.rb_ist_same _ _ _ (by decide)

theorem State.rd_plcaShown_loss : (s.plcaShown m false).rd (Reg.T1SP_BCNLOSS m) = s.rd (Reg.T1SP_BCNLOSS m) + 1 := by
  have event : Reg.T1SP_BCNLOSS m ≠ Reg.PG_IST (Reg.pgT1SP m) := by dsimp only [Reg.T1SP_BCNLOSS, Reg.PG_IST, Reg.pgT1SP]; omega
  have stat : Reg.T1SP_BCNLOSS m ≠ Reg.T1SP_STAT m := by dsimp only [Reg.T1SP_STAT, Reg.T1SP_BCNLOSS]; omega
  rw [State.plcaShown, if_neg Bool.false_ne_true, State.rd_ist_other _ _ _ _ event, ← s.rd_wb_other 31 false stat]
  exact State.rd_bump_sum _ 1 3 (by dsimp only [Reg.T1SP_BCNLOSS]; omega)

/-! The link of PHY m follows (R232). -/

theorem not_downRegs_t1sp {a : Nat} (page : 0x820000 ≤ a) : ¬ downRegs (12 + m) a := by
  rintro (port | table)
  · exact not_portRegs_off (by omega) (by decide) (.inr (by omega)) port
  · dsimp only [Reg.MACT_FLSTAT] at table
    omega

/-- Of the PHY's page a loss of link changes CURID alone. -/
theorem State.rd_linkLoss_page {a : Nat} (page : 0x820000 ≤ a) (out : a ≠ Reg.T1SP_STAT m) : (s.linkLoss (12 + m)).rd a = s.rd a := by
  have own : ¬ lossRegs (12 + m) a := by
    rintro (port | gone)
    · exact not_portRegs_off (by omega) (by decide) (.inr (by omega)) port
    · dsimp only [txGoneRegs, Reg.T1SP_STAT, Reg.MSEC_LASTWARN, Reg.PG_IST, Reg.pgMSEC] at gone out
      omega
  rcases Bool.eq_false_or_eq_true (s.ethLink (12 + m)) with link | link
  · rw [State.linkLoss_eq link]
    split
    · rw [(State.inSwitch_goDown _ (by omega)).regs _ (not_downRegs_t1sp m page), (s.confined_portLost _).regs _ own]
    · exact (s.confined_portLost _).regs _ own
  · rw [State.linkLoss_off link]

theorem State.plcaOk_portLost : (s.portLost (12 + m)).rb (Reg.T1SP_STAT m) 31 = s.rb (Reg.T1SP_STAT m) 31 := by
  have count := (State.confined.refl (s.abortTx (12 + m)) (portRegs (12 + m) [0x290, 0x10])).bumpEmac (o := 0x290) 1 7 (by decide)
    (portRegs_at (by decide)) (portRegs_event (by decide))
  have off : ∀ os : List Nat, (∀ o ∈ os, o < 0x1000) → ¬ portRegs (12 + m.val) os (Reg.T1SP_STAT m) := fun os small =>
    not_portRegs_off (by omega) small (.inr (by dsimp only [Reg.T1SP_STAT]; omega))
  rw [(s.confined_portLost_counted _).rb 31 (off _ (by decide)), count.rb 31 (off _ (by decide)), s.plcaOk_abortTx (by omega)]

theorem State.plcaOk_linkLoss : (s.linkLoss (12 + m)).rb (Reg.T1SP_STAT m) 31 = s.rb (Reg.T1SP_STAT m) 31 := by
  have down := not_downRegs_t1sp m (a := Reg.T1SP_STAT m) (by dsimp only [Reg.T1SP_STAT]; omega)
  rcases Bool.eq_false_or_eq_true (s.ethLink (12 + m)) with link | link
  · rw [State.linkLoss_eq link]
    split
    · rw [(State.inSwitch_goDown _ (by omega)).rb 31 down, s.plcaOk_portLost]
    · exact s.plcaOk_portLost m
  · rw [State.linkLoss_off link]

/-- Of the PHY's page the link that follows changes CURID alone. -/
theorem State.rd_t1Sync_page {a : Nat} (page : 0x820000 ≤ a) (out : a ≠ Reg.T1SP_STAT m) : (s.t1Sync m).rd a = s.rd a := by
  unfold State.t1Sync
  dsimp only
  split
  · rfl
  · split
    · split
      · rfl
      · next link =>
        exact (State.inSwitch_ethLinkUp (by omega) (Bool.not_eq_true _ ▸ link) 1).regs a (not_downRegs_t1sp m page)
    · exact s.rd_linkLoss_page m page out

theorem State.plcaOk_t1Sync : (s.t1Sync m).rb (Reg.T1SP_STAT m) 31 = s.rb (Reg.T1SP_STAT m) 31 := by
  unfold State.t1Sync
  dsimp only
  split
  · rfl
  · split
    · split
      · rfl
      · next link =>
        exact (State.inSwitch_ethLinkUp (by omega) (Bool.not_eq_true _ ▸ link) 1).rb 31
          (not_downRegs_t1sp m (by dsimp only [Reg.T1SP_STAT]; omega))
    · exact s.plcaOk_linkLoss m

end

/-- R253: a change of the PLCA status is shown and reported. -/
theorem plcaStatusChange_completes {s : State} {m : Fin 2} {ok : Bool} (on : s.plcaOn m = true) (change : s.rb (Reg.T1SP_STAT m) 31 ≠ ok) :
    Completes (.plcaStatusChange m ok) s fun t =>
      t.rb (Reg.T1SP_STAT m) 31 = ok ∧ t.rb (Reg.PG_IST (Reg.pgT1SP m)) (if ok then 0 else 1) = true
      ∧ (ok = false → t.rd (Reg.T1SP_BCNLOSS m) = s.rd (Reg.T1SP_BCNLOSS m) + 1) := by
  refine .of_exec (congrArg Host.Outcome.next (State.plcaStatus_eq on change)) ⟨?shown, ?event, ?loss⟩
  case shown => rw [State.plcaOk_t1Sync, State.plcaOk_plcaShown]
  case event =>
    rw [State.rb, State.rd_t1Sync_page _ _ (by dsimp only [Reg.PG_IST, Reg.pgT1SP]; omega)
      (by dsimp only [Reg.PG_IST, Reg.pgT1SP, Reg.T1SP_STAT]; omega), ← State.rb]
    exact s.rb_plcaShown_event m ok
  case loss =>
    rintro rfl
    rw [State.rd_t1Sync_page _ _ (by dsimp only [Reg.T1SP_BCNLOSS]; omega) (by dsimp only [Reg.T1SP_BCNLOSS, Reg.T1SP_STAT]; omega)]
    exact s.rd_plcaShown_loss m

/-- Settles O30, command by command. -/
theorem ethernetPortsReceiveAndFollowTheirLinks : Obligations.EthernetPortsReceiveAndFollowTheirLinks := by
  intro s p m init v
  refine ⟨?received, fun q e b age cls high internal oldest => ethernetFrameReceive_formed b age cls high internal oldest,
    fun b age cls => .of_exec rfl rfl, lossOfLink_completes, fun sp link mode t1 awake => linkUp_completes sp link mode t1 awake,
    linkHoldExpiry_completes, fun lp enabled mode => autoNegotiationComplete_completes lp enabled mode,
    fun run restart => autoNegotiationRestart_completes init run restart, fun x line sending => physicalCollision_completes line sending,
    backoffExpiry_completes s m, ?plca⟩
  case received =>
    intro q b age cls same link whole mode notPair room
    exact ⟨fun long short kind active => ethernetFrameReceive_good same link whole mode notPair room cls long short kind active,
      fun short => ethernetFrameReceive_runt same link whole mode notPair room cls short⟩
  case plca =>
    intro phy plca
    have on : s.plcaOn m = true := by rw [State.plcaOn, phy, plca, Bool.and_self]
    exact ⟨beacon_completes, fun ok change => plcaStatusChange_completes on change⟩

end Sys2Proof.Machine
end

section
/-! PROOFS. Copies that leave their queues (R256, R264, R281, R286, R398): what queues and stored frames read as after an update, and what the
drop of a copy and its count may change. One lemma per operation, in the order in which they are built. -/
namespace Sys2Proof.Machine

/-! Queues and stored frames. -/

theorem State.queueOf_setQueue_same (s : State) (k : Nat) (l : List SwCopy) : (s.setQueue k l).queueOf k = l := amGetD_set_same _ _ _ _

theorem State.frameOf_congr {s t : State} (h : t.sw.frames = s.sw.frames) (i : Nat) : t.frameOf i = s.frameOf i := congrArg (amGet · i) h

theorem State.frameOf_setFrame_same (s : State) (i : Nat) (f : SwFrame) : (s.setFrame i f).frameOf i = some f := amGet_put_same _ _ _

/-- A record that replaces that of its frame in a queue. -/
theorem State.queueOf_setCopy_same (s : State) (k : Nat) (c : SwCopy) :
    (s.setCopy k c).queueOf k = (s.queueOf k).map fun x => if x.fid = c.fid then c else x := s.queueOf_setQueue_same _ _

/-! What the shared operations leave of the switch's record. -/

theorem State.ethResult_sw (s : State) (f : SwFrame) (code : Nat) (stamp : Option Nat) : (s.ethResult f code stamp).sw = s.sw := by
  unfold State.ethResult
  split <;> rfl

theorem State.plcaSync_sw (s : State) (m x : Nat) : (s.plcaSync m x).sw = s.sw := by
  unfold State.plcaSync
  dsimp only
  split <;> rfl

theorem State.emacOf_cbsSync (s : State) (p c : Nat) : ∃ cr, (s.cbsSync p c).emacOf p = { s.emacOf p with credit := cr } := by
  unfold State.cbsSync
  split
  · exact ⟨_, rfl⟩
  · exact ⟨_, State.emacOf_setEmac_same _ _ _⟩

/-- A drop counter is no queue (R286). -/
theorem State.queues_swDrop (s : State) (p k n : Nat) : (s.swDrop p k n).sw.queues = s.sw.queues := by
  have drawn : ∀ t : State, t.draw.2.sw = t.sw := fun _ => rfl
  simp only [State.swDrop, State.traceDrop, State.trace_sw, drawn, State.istIf_sw, State.setSw_sw]

/-! What they may change beside it. -/

/-- The registers that the count of a dropped copy may change (R286, R523, R524). -/
def dropRegs : List Nat := [Reg.PG_IST Reg.pgQMG, Reg.OBS_LOST, Reg.PG_IST Reg.pgOBS]

section
variable {s t : State} {may : Nat → Prop} (h : s.confined t may)
include h

theorem State.confined.cbsSync (p c : Nat) : s.confined (t.cbsSync p c) may := h.ite (h.setEmac _ _)

theorem State.confined.ethResult (f : SwFrame) (code : Nat) (stamp : Option Nat) : s.confined (t.ethResult f code stamp) may := by
  unfold State.ethResult
  split
  · exact h.setHq _ _
  · exact h

theorem State.confined.setQueue (k : Nat) (l : List SwCopy) : s.confined (t.setQueue k l) may := h.setSw _

theorem State.confined.setCopy (k : Nat) (c : SwCopy) : s.confined (t.setCopy k c) may := h.setQueue _ _

theorem State.confined.setFrame (i : Nat) (f : SwFrame) : s.confined (t.setFrame i f) may := h.setSw _

theorem State.confined.dropQueued (k : Nat) (c : SwCopy) : s.confined (t.dropQueued k c) may := by
  unfold State.dropQueued
  dsimp only
  refine State.confined.wdSync (State.confined.freeCopy (State.confined.setQueue ?_ _ _) c.fid k) (k / 8)
  split
  · exact (h.ethResult _ _ _).ite h
  · exact h

theorem State.confined.swDrop (p k n : Nat) (regs : ∀ a ∈ dropRegs, may a) : s.confined (t.swDrop p k n) may :=
  (((h.setSw _).istIf _ 7 (regs _ (by decide))).draw).traceDrop _ _ _ _ (regs _ (by decide)) (regs _ (by decide))

end

/-- A copy that is dropped and counted is in no place of its queue. -/
theorem State.fid_ne_of_dropCounted (s : State) (k : Nat) (d : SwCopy) (p j n : Nat) :
    ∀ x ∈ ((s.dropQueued k d).swDrop p j n).queueOf k, x.fid ≠ d.fid := fun x held => by
  rw [State.queueOf_congr (State.queues_swDrop _ _ _ _), State.queueOf_dropQueued_same, List.mem_filter, bne_iff_ne] at held
  exact held.2

end Sys2Proof.Machine
end

section
/-! PROOFS. Selection at an external port (R256, R274, R323): the head of the highest ready class leaves its queue and is in transmission. -/
namespace Sys2Proof.Machine

/-! Stages that have nothing to do with a plain frame. -/

/-- A class that is not shaped has no credit to follow (R276). -/
theorem State.cbsSync_unshaped {s : State} {p c : Nat} (off : s.cbsOn p c = false) : s.cbsSync p c = s := if_pos (by rw [off]; rfl)

theorem State.cbsSyncs_unshaped {s : State} {p : Nat} (l : List Nat) (off : ∀ c ∈ l, s.cbsOn p c = false) :
    l.foldl (fun t c => t.cbsSync p c) s = s := by
  induction l with
  | nil => rfl
  | cons c r ih =>
    rw [List.foldl_cons, State.cbsSync_unshaped (off c List.mem_cons_self)]
    exact ih fun x later => off x (List.mem_cons_of_mem c later)

theorem State.offload_plain (s : State) {f : SwFrame} (p k : Nat) (lso : f.lso = none) (csum : f.csum = false) :
    s.offload f p k = (s, some (egressBytes f p, true)) := by
  simp only [State.offload, lso, csum, Bool.false_eq_true, if_false]

theorem State.correct_off {s : State} (i : Nat) (f : SwFrame) (p : Nat) (b : List Byte) (off : s.rb Reg.TSY_CTL 0 = false) :
    s.correct i f p b = (s, b) := if_pos (by rw [off]; rfl)

theorem State.protect_off {s : State} {p : Nat} (b : List Byte) (agree : Bool) (off : s.msecOn p = false) :
    s.protect p b agree = (s, .send b false none) := if_pos (by rw [off]; rfl)

/-! The start of a frame. -/

/-- The stamp of copy c is taken, and the opportunities of port p that have ended are counted (R234, R323). -/
def State.txTimed (s : State) (p : Nat) (c : SwCopy) (f : SwFrame) : State :=
  let t := if c.seg = 0 then s.ethStamp f p else s
  if p < 12 then t else t.plcaSync (p - 12) t.mono

/-- What port p sends of frame f, whose bytes are b. -/
def wholeTx (k : Nat) (c : SwCopy) (f : SwFrame) (b : List Byte) : TxNow :=
  { fid := c.fid, key := k, bytes := b, last := true, bad := false, job := none, seg := f.lso.isSome,
    buf := if c.th == .back then f.bytes.length + 4 else 0 }

theorem State.startTx_whole (s : State) (p k : Nat) (c : SwCopy) (f : SwFrame) (b : List Byte) : s.startTx p k c f b true false none
    = ((s.txTimed p c f).popHead k).setEmac p
      { ((s.txTimed p c f).popHead k).emacOf p with tx := some (wholeTx k c f b), tries := 0, backoff := false } := rfl

theorem State.sw_txTimed (s : State) (p : Nat) (c : SwCopy) (f : SwFrame) : (s.txTimed p c f).sw = s.sw := by
  have stamped : (if c.seg = 0 then s.ethStamp f p else s).sw = s.sw := by
    simp only [State.ethStamp, apply_ite State.sw, State.ethResult_sw, ite_self]
  unfold State.txTimed
  dsimp only
  split
  · exact stamped
  · rw [State.plcaSync_sw, stamped]

theorem State.queueOf_popHead (s : State) (k : Nat) : (s.popHead k).queueOf k = (s.queueOf k).drop 1 := by
  unfold State.popHead
  rw [State.queueOf_congr (congrArg Switch.queues (State.wdSync_sw _ _)), State.queueOf_setQueue_same]

theorem State.frames_popHead (s : State) (k : Nat) : (s.popHead k).sw.frames = s.sw.frames := by
  unfold State.popHead
  dsimp only
  rw [State.wdSync_sw, State.setQueue, State.setSw_sw]
  split
  · split <;> rfl
  · rfl

section
variable {s t : State} {may : Nat → Prop} (h : s.confined t may)
include h

theorem State.confined.popHead (k : Nat) : s.confined (t.popHead k) may := by
  unfold State.popHead
  dsimp only
  refine State.confined.wdSync (State.confined.setQueue ?_ _ _) _
  split
  · exact h.ite (h.setObs _)
  · exact h

theorem State.confined.txTimed (p : Nat) (c : SwCopy) (f : SwFrame) (stat : may (Reg.T1SP_STAT (p - 12))) :
    s.confined (t.txTimed p c f) may := by
  have stamped : s.confined (if c.seg = 0 then t.ethStamp f p else t) may := ((h.ethResult _ _ _).ite h).ite h
  exact stamped.ite (stamped.plcaSync _ stat)

theorem State.confined.startTx_whole (p k : Nat) (c : SwCopy) (f : SwFrame) (b : List Byte) (stat : may (Reg.T1SP_STAT (p - 12))) :
    s.confined (t.startTx p k c f b true false none) may := ((h.txTimed p c f stat).popHead k).setEmac _ _

end

/-! The command. -/

section
variable {s : State} {q : Fin 18} {p cl : Nat} {agree : Bool} {c : SwCopy} {rest : List SwCopy} {f : SwFrame} (same : q.val = p) (port : p < 14)
  (may : s.portMay p = true) (unshaped : ∀ k, k < 8 → s.cbsOn p k = false) (pick : s.pickClass p = some cl)
  (queue : s.queueOf (8 * p + cl) = c :: rest) (stored : s.frameOf c.fid = some f) (inTime : s.ethLate (8 * p + cl) c f = false)
  (lso : f.lso = none) (csum : f.csum = false) (uncorrected : s.rb Reg.TSY_CTL 0 = false) (unprotected : s.msecOn p = false)
include pick queue stored inTime lso csum uncorrected unprotected

/-- The first selection starts the head of the picked class. -/
theorem State.ethSelect_plain (n : Nat) : State.ethSelect p agree (n + 1) s
    = s.startTx p (8 * p + cl) c f (padFrame (egressBytes f p)) true false none := by
  simp only [State.ethSelect, pick, queue, stored, inTime, Bool.false_eq_true, if_false, s.offload_plain p c.seg lso csum,
    State.correct_off c.fid f p (egressBytes f p) uncorrected, State.protect_off (egressBytes f p) agree unprotected]

include same port may unshaped

theorem exec_egressSelection_plain : exec (.egressSelection q agree) s
    = .next (s.startTx p (8 * p + cl) c f (padFrame (egressBytes f p)) true false none) := by
  have noCredit := State.cbsSyncs_unshaped (s := s) (p := p) (List.range 8) fun k listed => unshaped k (List.mem_range.mp listed)
  change execEgressSelection q agree s = _
  simp only [execEgressSelection, same, if_neg (show ¬ p = 17 by omega), if_neg (show ¬ 14 ≤ p by omega), noCredit, may, if_true,
    State.ethSelect_plain pick queue stored inTime lso csum uncorrected unprotected]

/-- R274: the head of the picked class leaves its queue and is in transmission. -/
theorem egressSelection_plain : Completes (.egressSelection q agree) s fun t => t.queueOf (8 * p + cl) = rest
    ∧ (t.emacOf p).tx = some (⟨c.fid, 8 * p + cl, padFrame (egressBytes f p), true, false, none, false,
        if c.th = .back then f.bytes.length + 4 else 0⟩ : TxNow)
    ∧ t.frameOf c.fid = some f ∧ s.sameTables t ∧ s.sameBytes t := by
  have frame := (State.confined.refl s fun _ => True).startTx_whole p (8 * p + cl) c f (padFrame (egressBytes f p)) trivial
  refine .of_exec (exec_egressSelection_plain same port may unshaped pick queue stored inTime lso csum uncorrected unprotected)
    ⟨?queue, ?line, ?stored, frame.tables, frame.bytes⟩
  case queue =>
    rw [State.startTx_whole]
    change ((s.txTimed p c f).popHead (8 * p + cl)).queueOf (8 * p + cl) = rest
    rw [State.queueOf_popHead, State.queueOf_congr (congrArg Switch.queues (s.sw_txTimed p c f)), queue, List.drop_one, List.tail_cons]
  case line =>
    rw [State.startTx_whole, State.emacOf_setEmac_same, wholeTx, lso]
    simp only [Option.isSome_none, beq_iff_eq]
  case stored =>
    rw [State.startTx_whole]
    change ((s.txTimed p c f).popHead (8 * p + cl)).frameOf c.fid = some f
    rw [State.frameOf_congr (State.frames_popHead _ _), State.frameOf_congr (congrArg Switch.frames (s.sw_txTimed p c f)), stored]

end

end Sys2Proof.Machine
end

section
/-! PROOFS. The end of a good transmission (R251, R256): the frame is out, counted, and its port is free. -/
namespace Sys2Proof.Machine

/-- The registers in which a sent frame is counted by its kind. -/
def txKinds : List Nat := [0x258, 0x25C, 0x274, 0x10]

/-- Frame x of port p is out, and its statistics are counted. -/
def State.sentCounted (s : State) (p : Nat) (x : TxNow) : State :=
  let t := (s.emit (.eth p x.bytes true)).txStats p x.bytes
  if x.seg then t.bump (Reg.EMAC_TXLSOSEG p) 1 7 else t

/-- The frame and its octets are counted, and by its kind. -/
theorem State.confined_sentCounted (s : State) (p : Nat) (x : TxNow) :
    (((s.emit (.eth p x.bytes true)).bump (Reg.EMAC_TXOK p) 1 7).bump (Reg.EMAC_TXOCT p) (x.bytes.length + 4) 7).confined (s.sentCounted p x)
      (portRegs p txKinds) := by
  have event : portRegs p txKinds (Reg.PG_IST (Reg.pgEMAC p)) := portRegs_event (by decide)
  have octets := State.confined.refl (((s.emit (.eth p x.bytes true)).bump (Reg.EMAC_TXOK p) 1 7).bump (Reg.EMAC_TXOCT p) (x.bytes.length + 4) 7)
    (portRegs p txKinds)
  have counted := (octets.bumpEmac (o := 0x258) 1 7 (by decide) (portRegs_at (by decide)) event).ite
    (c := beAt x.bytes 0 6 = 2 ^ 48 - 1) ((octets.bumpEmac (o := 0x25C) 1 7 (by decide) (portRegs_at (by decide)) event).ite
      (c := nbit (beAt x.bytes 0 6) 40 = true) octets)
  exact (counted.bumpEmac (o := 0x274) 1 7 (by decide) (portRegs_at (by decide)) event).ite counted

theorem State.rd_sentCounted_txok (s : State) (p : Nat) (x : TxNow) :
    (s.sentCounted p x).rd (Reg.EMAC_TXOK p) = s.rd (Reg.EMAC_TXOK p) + 1 := by
  have octets := (State.confined.refl ((s.emit (.eth p x.bytes true)).bump (Reg.EMAC_TXOK p) 1 7) (portRegs p [0x254, 0x10])).bumpEmac
    (o := 0x254) (x.bytes.length + 4) 7 (by decide) (portRegs_at (by decide)) (portRegs_event (by decide))
  rw [(s.confined_sentCounted p x).regs _ (not_portRegs_at (o := 0x250) (by decide)), octets.regs _ (not_portRegs_at (o := 0x250) (by decide))]
  exact (s.emit _).rd_bumpEmac p (o := 0x250) 7 (by decide)

theorem State.rd_sentCounted_txoct (s : State) (p : Nat) (x : TxNow) :
    (s.sentCounted p x).rd (Reg.EMAC_TXOCT p) = s.rd (Reg.EMAC_TXOCT p) + BitVec.ofNat 32 (x.bytes.length + 4) := by
  have frames := (State.confined.refl (s.emit (.eth p x.bytes true)) (portRegs p [0x250, 0x10])).bumpEmac (o := 0x250) 1 7 (by decide)
    (portRegs_at (by decide)) (portRegs_event (by decide))
  rw [(s.confined_sentCounted p x).regs _ (not_portRegs_at (o := 0x254) (by decide)),
    State.rd_bump_sum _ _ _ (by dsimp only [Reg.EMAC_TXOCT]; omega), frames.regs _ (not_portRegs_at (o := 0x254) (by decide)), State.rd_emit]

/-- What the end of transmission x at port p leaves. -/
def State.sentGone (s : State) (p : Nat) (x : TxNow) : State := (s.sentCounted p x).txGone p x 
  { s.emacOf p with tx := none, tries := 0, backoff := false }

theorem State.confined_sentGone (s : State) (p : Nat) (x : TxNow) : (s.emit (.eth p x.bytes true)).confined (s.sentGone p x) fun _ => True :=
  State.confined.txGone ((((State.confined.refl _ _).bump 1 7 trivial trivial).bump (x.bytes.length + 4) 7 trivial trivial).trans
    ((s.confined_sentCounted p x).weaken fun _ _ => trivial)) (fun _ _ => trivial) _ _

/-- Beside the associations and the status of the PHY no register changes after the count. -/
theorem State.rd_sentGone (s : State) {p : Nat} (x : TxNow) {a : Nat} (page : a < 0x400000) :
    (s.sentGone p x).rd a = (s.sentCounted p x).rd a :=
  ((State.confined.refl (s.sentCounted p x) (txGoneRegs p)).txGone (fun _ listed => listed) _ _).regs a (not_txGoneRegs page)

section
variable {s : State} {q : Fin 14} {x : TxNow} (line : (s.emacOf q).tx = some x) (sending : (s.emacOf q).backoff = false) (job : x.job = none)
  (good : x.bad = false)
include line sending job good

theorem exec_frameTransmitted_good : exec (.frameTransmitted q) s = .next ((s.cbsSync q (x.key % 8)).sentGone q x) := by
  obtain ⟨cr, credit⟩ := s.emacOf_cbsSync q (x.key % 8)
  have line' : ((s.cbsSync q (x.key % 8)).emacOf q).tx = some x := by rw [credit, line]
  have sending' : ((s.cbsSync q (x.key % 8)).emacOf q).backoff = false := by rw [credit, sending]
  change execFrameTransmitted q s = _
  simp only [execFrameTransmitted, line, line', sending', job, good, Bool.false_eq_true, Bool.false_and, Bool.or_self, Bool.not_false, if_false]
  rfl

/-- R256: the frame is out with a good FCS and counted; the port is free. -/
theorem frameTransmitted_good : Completes (.frameTransmitted q) s fun t =>
    (∃ r, t.outbox = s.outbox ++ .eth q x.bytes true :: r) ∧ (t.emacOf q).tx = none
    ∧ t.rd (Reg.EMAC_TXOK q) = s.rd (Reg.EMAC_TXOK q) + 1
    ∧ t.rd (Reg.EMAC_TXOCT q) = s.rd (Reg.EMAC_TXOCT q) + BitVec.ofNat 32 (x.bytes.length + 4)
    ∧ s.sameTables t ∧ s.sameBytes t := by
  have credited := (State.confined.refl s fun _ => False).cbsSync q (x.key % 8)
  have sent : (s.cbsSync q (x.key % 8)).outbox = s.outbox := by
    unfold State.cbsSync
    split <;> rfl
  have frame := (((State.confined.refl s fun _ => True).cbsSync q (x.key % 8)).emit _).trans (State.confined_sentGone _ q x)
  refine .of_exec (exec_frameTransmitted_good line sending job good) ⟨?out, ?free, ?frames, ?octets, frame.tables, frame.bytes⟩
  case out =>
    obtain ⟨r, later⟩ := (State.confined_sentGone (s.cbsSync q (x.key % 8)) q x).sent
    exact ⟨r, by rw [← later, State.emit_outbox, sent, List.append_assoc, List.singleton_append]⟩
  case free => exact State.tx_txGone _ _ _ _
  case frames => rw [State.rd_sentGone _ _ (by dsimp only [Reg.EMAC_TXOK]; omega), State.rd_sentCounted_txok, credited.regs _ not_false]
  case octets => rw [State.rd_sentGone _ _ (by dsimp only [Reg.EMAC_TXOCT]; omega), State.rd_sentCounted_txoct, credited.regs _ not_false]

end

end Sys2Proof.Machine
end

section
/-! PROOFS. Heads that stall and queues that are flushed (R281, R282). -/
namespace Sys2Proof.Machine

/-! The stall limit of an internal port (R281). -/

section
variable {s : State} {q : Fin 18} {c : Fin 8} {d : SwCopy} {rest : List SwCopy} {e : Nat} (internal : 14 ≤ q.val) (other : q.val ≠ 17)
  (queue : s.queueOf (8 * q + c) = d :: rest) (head : amGet s.sw.headAt (8 * q + c) = some e)
  (due : e + clampN 1 1000 (s.rf Reg.QMG_ISTALL 9 0) * 1000000 ≤ s.now)
include internal other queue head due

theorem exec_internalStallDrop_due : exec (.internalStallDrop q c) s
    = .next (((s.dropQueued (8 * q + c) d).swDrop q 3 1).ist Reg.pgQMG 3) := by
  change execInternalStallDrop q c s = _
  simp only [execInternalStallDrop, if_neg (show ¬ q.val < 14 by omega), queue, head, if_pos due, if_neg other]

/-- R281: a head that stood for the stall limit is dropped and reported. -/
theorem internalStallDrop_due : Completes (.internalStallDrop q c) s fun t => (∀ x ∈ t.queueOf (8 * q + c), x.fid ≠ d.fid)
    ∧ t.rb (Reg.PG_IST Reg.pgQMG) 3 = true ∧ s.sameTables t ∧ s.sameBytes t := by
  have frame := (((State.confined.refl s fun _ => True).dropQueued (8 * q + c) d).swDrop q 3 1 fun _ _ => trivial).ist (b := Reg.pgQMG) 3 trivial
  refine .of_exec (exec_internalStallDrop_due internal other queue head due) ⟨?_, State.rb_ist_same _ _ _ (by decide), frame.tables, frame.bytes⟩
  rw [State.queueOf_congr (congrArg Switch.queues (State.ist_sw _ _ _))]
  exact s.fid_ne_of_dropCounted _ d q 3 1

end

/-! Flushes of classes (R282). -/

/-- Every copy of queue k is dropped, and each is counted. -/
def State.flushQueue (s : State) (k : Nat) (cnt : State → State) : State := (s.queueOf k).foldl (fun u d => cnt (u.dropQueued k d)) s

theorem State.flushQueues_eq (s : State) {p : Nat} (other : p ≠ 17) (cs : List Nat) (cnt : State → State) :
    s.flushQueues p cs cnt = cs.foldl (fun t c => t.flushQueue (8 * p + c) cnt) s := by
  unfold State.flushQueues State.flushQueue
  simp only [if_neg other]

section
variable {cnt : State → State} (keeps : ∀ t, (cnt t).sw.queues = t.sw.queues)
include keeps

/-- Copies dropped one by one leave those whose frames are none of theirs. -/
theorem State.queueOf_drops (k : Nat) (l : List SwCopy) (s : State) :
    (l.foldl (fun u d => cnt (u.dropQueued k d)) s).queueOf k = (s.queueOf k).filter fun x => l.all fun d => x.fid != d.fid := by
  induction l generalizing s with
  | nil => simp
  | cons d r ih =>
    rw [List.foldl_cons, ih, State.queueOf_congr (keeps _), State.queueOf_dropQueued_same, List.filter_filter]
    exact List.filter_congr fun x _ => by rw [List.all_cons, Bool.and_comm]

theorem State.queueOf_drops_other {k j : Nat} (other : j ≠ k) (l : List SwCopy) (s : State) :
    (l.foldl (fun u d => cnt (u.dropQueued k d)) s).queueOf j = s.queueOf j := by
  induction l generalizing s with
  | nil => rfl
  | cons d r ih => rw [List.foldl_cons, ih, State.queueOf_congr (keeps _), State.queueOf_dropQueued_other _ _ other]

/-- A queue after the flush of one. -/
theorem State.queueOf_flushQueue (s : State) (k j : Nat) : (s.flushQueue k cnt).queueOf j = if j = k then [] else s.queueOf j := by
  split
  case isTrue same =>
    rw [same, State.flushQueue, State.queueOf_drops keeps, List.filter_eq_nil_iff]
    exact fun x held kept => bne_iff_ne.mp (List.all_eq_true.mp kept x held) rfl
  case isFalse other => exact State.queueOf_drops_other keeps other _ s

/-- A queue after the flush of the named classes of a port. -/
theorem State.queueOf_flushQueues {p : Nat} (other : p ≠ 17) (cs : List Nat) (s : State) (j : Nat) :
    (s.flushQueues p cs cnt).queueOf j = if ∃ c ∈ cs, j = 8 * p + c then [] else s.queueOf j := by
  rw [s.flushQueues_eq other]
  induction cs generalizing s with
  | nil => simp
  | cons c r ih =>
    rw [List.foldl_cons, ih, State.queueOf_flushQueue keeps, ← ite_or]
    exact if_congr (by rw [List.exists_mem_cons_iff, or_comm]) rfl rfl

end

/-! The command of the flush unit (R282). -/

/-- The classes a write of QMG_FLUSH names, flushed, while the unit shows BUSY. -/
def State.qmgFlushed (s : State) (v : Word) : State :=
  (s.wb Reg.QMG_FLSTAT 31 true).flushQueues (fld v 20 16) (setBits (fld v 7 0) 8) fun t => t.swDrop (fld v 20 16) 2 1

theorem qmgFlushWrite_free {s : State} {v : Word} (go : bitOf v 31 = true) (free : s.rb Reg.QMG_FLSTAT 31 = false) (port : fld v 20 16 < 17) :
    qmgFlushWrite v s = s.qmgFlushed v := by
  simp only [qmgFlushWrite, go, free, Bool.not_true, Bool.false_eq_true, if_false, if_neg (show ¬ 17 < fld v 20 16 by omega),
    if_neg (show ¬ fld v 20 16 = 17 by omega), State.qmgFlushed]

theorem State.confined_qmgFlushed (s : State) {v : Word} (port : fld v 20 16 < 17) :
    (s.wb Reg.QMG_FLSTAT 31 true).confined (s.qmgFlushed v) (· ∈ dropRegs) := by
  rw [State.qmgFlushed, State.flushQueues_eq _ (by omega)]
  exact .foldl _ (fun _ _ _ cls => .foldl _ (fun _ d _ copy => (copy.dropQueued _ d).swDrop _ 2 1 fun _ listed => listed) cls)
    (.refl _ _)

theorem mem_setBits {n k c : Nat} : c ∈ setBits n k ↔ c < k ∧ nbit n c = true := by
  rw [setBits, List.mem_filter, List.mem_range]

section
variable {s : State} {init : Initiator} {v : Word} (run : s.pwr.held = false) (go : bitOf v 31 = true)
  (free : s.rb Reg.QMG_FLSTAT 31 = false) (port : fld v 20 16 < 17)
include run go free port

theorem exec_queueFlush_free : exec (.queueFlush init v) s = .next ((s.setUnlock init Reg.QMG_FLUSH false).qmgFlushed v) :=
  congrArg Host.Outcome.next ((State.cmdWrite_command (r := ⟨0x114, 4, 1, 4, 1, .wo, 0x0, 0x0, 0x0, false⟩) init v _ run (by decide)
    (by decide) rfl rfl).trans (qmgFlushWrite_free (s := s.setUnlock init Reg.QMG_FLUSH false) go free port))

/-- R282: the named classes are empty and the unit shows BUSY. -/
theorem queueFlush_free : Completes (.queueFlush init v) s fun t => t.rb Reg.QMG_FLSTAT 31 = true
    ∧ (∀ c, c < 8 → nbit (fld v 7 0) c = true → t.queueOf (8 * fld v 20 16 + c) = [])
    ∧ (∀ k, (∀ c, c < 8 → nbit (fld v 7 0) c = true → k ≠ 8 * fld v 20 16 + c) → t.queueOf k = s.queueOf k)
    ∧ s.sameTables t ∧ s.sameBytes t := by
  have flushed := (s.setUnlock init Reg.QMG_FLUSH false).confined_qmgFlushed port
  have frame := (((State.confined.refl s fun _ => True).setUnlock init Reg.QMG_FLUSH false).wb (a := Reg.QMG_FLSTAT) 31 true trivial).trans
    (flushed.weaken fun _ _ => trivial)
  have queues := State.queueOf_flushQueues (cnt := fun t => t.swDrop (fld v 20 16) 2 1) (fun t => t.queues_swDrop _ 2 1)
    (show fld v 20 16 ≠ 17 by omega) (setBits (fld v 7 0) 8) ((s.setUnlock init Reg.QMG_FLUSH false).wb Reg.QMG_FLSTAT 31 true)
  refine .of_exec (exec_queueFlush_free run go free port) ⟨?busy, ?named, ?others, frame.tables, frame.bytes⟩
  case busy => rw [flushed.rb 31 (by decide), State.rb_wb_same _ _ _ _ (by decide)]
  case named =>
    intro c cls named
    rw [State.qmgFlushed, queues, if_pos ⟨c, mem_setBits.mpr ⟨cls, named⟩, rfl⟩]
  case others =>
    intro k apart
    rw [State.qmgFlushed, queues, if_neg]
    · exact State.queueOf_congr (by rw [State.wb_sw, State.setUnlock_sw]) k
    · rintro ⟨c, listed, same⟩
      obtain ⟨cls, named⟩ := mem_setBits.mp listed
      exact apart c cls named same

end

/-- R282: the end of a flush is reported. -/
theorem queueFlushDone_busy {s : State} (busy : s.rb Reg.QMG_FLSTAT 31 = true) : Completes .queueFlushDone s fun t =>
    t.rb Reg.QMG_FLSTAT 31 = false ∧ t.rb (Reg.PG_IST Reg.pgQMG) 4 = true
    ∧ s.sameRegs t [Reg.QMG_FLSTAT, Reg.PG_IST Reg.pgQMG] ∧ s.sameTables t ∧ s.sameBytes t := by
  have frame := ((State.confined.refl s (· ∈ [Reg.QMG_FLSTAT, Reg.PG_IST Reg.pgQMG])).wb (a := Reg.QMG_FLSTAT) 31 false (by decide)).ist
    (b := Reg.pgQMG) 4 (by decide)
  refine .of_exec (congrArg Host.Outcome.next (if_pos busy)) ⟨?_, State.rb_ist_same _ _ _ (by decide), frame.sameRegs, frame.tables, frame.bytes⟩
  rw [State.rb, State.rd_ist_other _ _ _ _ (by decide), ← State.rb, State.rb_wb_same _ _ _ _ (by decide)]

end Sys2Proof.Machine
end

section
/-! PROOFS. Latched counters (R285, R286): words loaded into a run of registers, the writes of an index, and the statement about frames that
leave their queues. -/
namespace Sys2Proof.Machine

/-! Words loaded into registers. -/

theorem State.rd_loadWords_other (ws : List Word) (s : State) (a : Nat) {b : Nat} (out : ∀ i, i < ws.length → b ≠ a + 4 * i) :
    (s.loadWords a ws).rd b = s.rd b := by
  induction ws generalizing s a with
  | nil => rfl
  | cons w r ih =>
    have later : ∀ i, i < r.length → b ≠ a + 4 + 4 * i := fun i inside => by
      have apart := out (i + 1) (Nat.succ_lt_succ inside)
      omega
    rw [State.loadWords, ih _ _ later, s.rd_wr_other w (show b ≠ a from out 0 (Nat.succ_pos _))]

theorem State.rd_loadWords (ws : List Word) (s : State) (a : Nat) {k : Nat} (inside : k < ws.length) : (s.loadWords a ws).rd (a + 4 * k) = ws[k] := by
  induction ws generalizing s a k with
  | nil => exact absurd inside (Nat.not_lt_zero _)
  | cons w r ih =>
    rw [State.loadWords]
    cases k with
    | zero => rw [State.rd_loadWords_other _ _ _ fun i _ => by omega]; exact s.rd_wr_same a w
    | succ k => rw [show a + 4 * (k + 1) = a + 4 + 4 * k by omega]; exact ih _ _ _

theorem State.loadWords_sw (ws : List Word) (s : State) (a : Nat) : (s.loadWords a ws).sw = s.sw := by
  induction ws generalizing s a with
  | nil => rfl
  | cons w r ih => rw [State.loadWords, ih, State.wr_sw]

theorem State.confined.loadWords {s t : State} (h : s.confined t fun _ => True) (a : Nat) (ws : List Word) :
    s.confined (t.loadWords a ws) fun _ => True := by
  induction ws generalizing t a with
  | nil => exact h
  | cons w r ih => exact ih (h.wr w trivial) _

/-! The index that is written. -/

/-- A field all of whose bits are writable holds what was written. -/
theorem RegRow.fld_written {r : RegRow} {hi lo : Nat} (plain : r.w1 = 0) (mask : ∀ j, lo ≤ j → j ≤ hi → r.wm.testBit j = true)
    (old v : Word) : fld (r.written old v) hi lo = fld v hi lo := by
  apply Nat.eq_of_testBit_eq
  intro j
  rw [fld_testBit, fld_testBit, RegRow.written_merge plain, toNat_ofNat_nmerge, nmerge_testBit]
  by_cases inside : j < hi + 1 - lo
  · rw [if_pos (mask _ (by omega) (by omega))]
  · rw [decide_eq_false inside, Bool.false_and, Bool.false_and]

theorem State.indexStored_sw (s : State) (i : Initiator) (a : Nat) (r : RegRow) (v : Word) : (s.indexStored i a r v).sw = s.sw := rfl

/-- The index of a row with five writable bits. -/
theorem State.index_indexStored (s : State) (i : Initiator) (a : Nat) {r : RegRow} (v : Word) (plain : r.w1 = 0) (mask : r.wm = 0x1F) :
    (s.indexStored i a r v).rf a 4 0 = fld v 4 0 := by
  rw [State.rf, State.indexStored, State.rd_wr_same]
  refine RegRow.fld_written plain (fun j _ top => ?_) _ _
  rw [mask]
  interval_cases j <;> rfl

/-! Ingress counters (R285). -/

/-- The row of SWC_IIDX. -/
def iidxRow : RegRow := ⟨0x108, 4, 1, 4, 1, .rw, 0x1F, 0, 0, false⟩

/-- Ingress counter k of port p as it is latched. -/
def State.ingressWord (s : State) (p k : Nat) : Word := BitVec.ofNat 32 (if p ≤ 17 then amGetD 0 s.sw.icnt (4 * p + k) else 0)

theorem iidxWrite_eq (s : State) : iidxWrite s = s.loadWords Reg.SWC_ISDU ((List.range 4).map (s.ingressWord (s.rf Reg.SWC_IIDX 4 0))) := rfl

theorem exec_ingressCounterLatch_run {s : State} (i : Initiator) (v : Word) (run : s.pwr.held = false) :
    exec (.ingressCounterLatch i v) s = .next (iidxWrite (s.indexStored i Reg.SWC_IIDX iidxRow v)) :=
  congrArg Host.Outcome.next (State.cmdWrite_index i v run (by decide) (by decide) rfl rfl (by decide) rfl)

/-- R285: a write of the index latches a port's ingress counters. -/
theorem ingressCounterLatch_run {s : State} {init : Initiator} {v : Word} (run : s.pwr.held = false) :
    Completes (.ingressCounterLatch init v) s fun t =>
      (∀ k, k < 4 → t.rd (Reg.SWC_ISDU + 4 * k)
        = BitVec.ofNat 32 (if fld v 4 0 ≤ 17 then amGetD 0 s.sw.icnt (4 * fld v 4 0 + k) else 0))
      ∧ t.sw = s.sw ∧ s.sameTables t ∧ s.sameBytes t := by
  have frame : s.confined (iidxWrite (s.indexStored init Reg.SWC_IIDX iidxRow v)) fun _ => True :=
    (s.confined_indexStored init Reg.SWC_IIDX iidxRow v).loadWords _ _
  refine .of_exec (exec_ingressCounterLatch_run init v run) ⟨fun k hk => ?_, ?_, frame.tables, frame.bytes⟩
  · rw [iidxWrite_eq, State.rd_loadWords _ _ _ (by simpa using hk), List.getElem_map, List.getElem_range,
      s.index_indexStored init _ v rfl rfl, State.ingressWord, State.indexStored_sw]
  · rw [iidxWrite_eq, State.loadWords_sw, State.indexStored_sw]

/-! Drop counters (R286). -/

/-- The row of QMG_DIDX. -/
def didxRow : RegRow := ⟨0x11C, 4, 1, 4, 1, .rw, 0x1F, 0, 0, false⟩

/-- Drop counter k of port p as it is latched. -/
def State.dropWord (s : State) (p k : Nat) : Word := BitVec.ofNat 32 (if p ≤ 17 then amGetD 0 s.sw.dcnt (16 * p + k) else 0)

theorem didxWrite_eq (s : State) : didxWrite s = (s.loadWords Reg.QMG_DADMIT ((List.range 5).map (s.dropWord (s.rf Reg.QMG_DIDX 4 0)))).loadWords
    (Reg.QMG_DDL 0) ((List.range 8).map fun c => s.dropWord (s.rf Reg.QMG_DIDX 4 0) (8 + c)) := rfl

theorem exec_dropCounterLatch_run {s : State} (i : Initiator) (v : Word) (run : s.pwr.held = false) :
    exec (.dropCounterLatch i v) s = .next (didxWrite (s.indexStored i Reg.QMG_DIDX didxRow v)) :=
  congrArg Host.Outcome.next (State.cmdWrite_index i v run (by decide) (by decide) rfl rfl (by decide) rfl)

/-- R286: a write of the index latches a port's drop counters. -/
theorem dropCounterLatch_run {s : State} {init : Initiator} {v : Word} (run : s.pwr.held = false) :
    Completes (.dropCounterLatch init v) s fun t =>
      (∀ k, k < 5 → t.rd (Reg.QMG_DADMIT + 4 * k)
        = BitVec.ofNat 32 (if fld v 4 0 ≤ 17 then amGetD 0 s.sw.dcnt (16 * fld v 4 0 + k) else 0))
      ∧ (∀ c, c < 8 → t.rd (Reg.QMG_DDL c)
        = BitVec.ofNat 32 (if fld v 4 0 ≤ 17 then amGetD 0 s.sw.dcnt (16 * fld v 4 0 + 8 + c) else 0))
      ∧ t.sw = s.sw ∧ s.sameTables t ∧ s.sameBytes t := by
  have stored := s.confined_indexStored init Reg.QMG_DIDX didxRow v
  have index := s.index_indexStored init Reg.QMG_DIDX (r := didxRow) v rfl rfl
  have frame : s.confined (didxWrite (s.indexStored init Reg.QMG_DIDX didxRow v)) fun _ => True := (stored.loadWords _ _).loadWords _ _
  refine .of_exec (exec_dropCounterLatch_run init v run) ⟨fun k hk => ?_, fun c hc => ?_, ?_, frame.tables, frame.bytes⟩
  · have apart : ∀ i, i < ((List.range 8).map fun c => (s.indexStored init Reg.QMG_DIDX didxRow v).dropWord (fld v 4 0) (8 + c)).length →
        Reg.QMG_DADMIT + 4 * k ≠ Reg.QMG_DDL 0 + 4 * i := fun i _ => by dsimp only [Reg.QMG_DADMIT, Reg.QMG_DDL]; omega
    rw [didxWrite_eq, index, State.rd_loadWords_other _ _ _ apart, State.rd_loadWords _ _ _ (by simpa using hk), List.getElem_map,
      List.getElem_range, State.dropWord, State.indexStored_sw]
  · rw [didxWrite_eq, index, show Reg.QMG_DDL c = Reg.QMG_DDL 0 + 4 * c from rfl,
      State.rd_loadWords _ _ _ (by simpa using hc), List.getElem_map, List.getElem_range, State.dropWord, State.indexStored_sw, Nat.add_assoc]
  · rw [didxWrite_eq, State.loadWords_sw, State.loadWords_sw, State.indexStored_sw]

/-- Settles O31, command by command. -/
theorem framesLeaveTheirQueues : Obligations.FramesLeaveTheirQueues := by
  intro s init v
  refine ⟨?selection, fun _ _ => frameTransmitted_good, fun _ _ _ _ _ => internalStallDrop_due, queueFlush_free, queueFlushDone_busy,
    ingressCounterLatch_run, dropCounterLatch_run⟩
  case selection =>
    intro q p agree cl c rest f same port may unshaped pick queue stored inTime lso csum uncorrected unprotected
    exact egressSelection_plain same port may unshaped pick queue stored inTime lso csum uncorrected unprotected

end Sys2Proof.Machine
end

section
/-! PROOFS. Thicket (R269, R271, R273): a copy that is spilled to units of DRAM, its way back, and a committed region. -/
namespace Sys2Proof.Machine

/-! Units of DRAM (R269). -/

/-- The units that frame f takes, each with the bytes it holds. -/
def State.spillUnits (s : State) (f : SwFrame) : List (Nat × List Byte) :=
  (s.freeUnits f.cells).zip (cellBytes (f.bytes ++ leBytes 4 (crc32 f.bytes)) f.cells)

/-- The units us are written. -/
def State.unitsWritten (s : State) (us : List (Nat × List Byte)) : State :=
  us.foldl (fun t u => { t with dram := memWrN t.dram (t.unitAt u.1) u.2 }) s

/-- The record of a spilled frame whose units are us. -/
def SwFrame.spilledTo (f : SwFrame) (us : List (Nat × List Byte)) : SwFrame :=
  { f with spilled := true, units := us.map fun u => (u.1, crc32 u.2) }

theorem State.spillFrame_eq (s : State) (i : Nat) (f : SwFrame) :
    s.spillFrame i f = (s.unitsWritten (s.spillUnits f)).setFrame i (f.spilledTo (s.spillUnits f)) := rfl

/-- A unit holds 128 bytes at most. -/
theorem length_cellBytes (n : Nat) (b : List Byte) : ∀ x ∈ cellBytes b n, x.length ≤ 128 := by
  induction n generalizing b with
  | zero => exact fun x none => absurd none List.not_mem_nil
  | succ n ih =>
    intro x listed
    rcases List.mem_cons.mp listed with rfl | later
    · exact List.length_take_le _ _
    · exact ih _ x later

theorem State.length_spillUnits (s : State) (f : SwFrame) : ∀ u ∈ s.spillUnits f, u.2.length ≤ 128 := fun _ listed =>
  length_cellBytes _ _ _ (List.of_mem_zip listed).2

/-- DRAM holds m. -/
def State.withDram (s : State) (m : List Host.Cell) : State := { s with dram := m }

/-- Nothing but DRAM is written. -/
theorem State.unitsWritten_eq (us : List (Nat × List Byte)) (s : State) : ∃ m, s.unitsWritten us = s.withDram m := by
  induction us generalizing s with
  | nil => exact ⟨s.dram, rfl⟩
  | cons u r ih => exact ih (s.withDram (memWrN s.dram (s.unitAt u.1) u.2))

/-- A byte outside the units stays. -/
theorem State.memRd_unitsWritten (us : List (Nat × List Byte)) (s : State) {a : Nat} (small : ∀ u ∈ us, u.2.length ≤ 128)
    (out : ∀ u ∈ us, a < s.unitAt u.1 ∨ s.unitAt u.1 + 128 ≤ a) : memRd (s.unitsWritten us).dram a = memRd s.dram a := by
  induction us generalizing s with
  | nil => rfl
  | cons u r ih =>
    have short := small u List.mem_cons_self
    have apart := out u List.mem_cons_self
    refine (ih (s.withDram (memWrN s.dram (s.unitAt u.1) u.2)) (fun x later => small x (List.mem_cons_of_mem u later))
      fun x later => out x (List.mem_cons_of_mem u later)).trans ?_
    exact memRd_wrN_other _ _ _ _ (by omega)

/-! The spill of a copy (R269). -/

/-- Copy d of queue k is marked as spilled. -/
def State.spillMarked (s : State) (k : Nat) (d : SwCopy) : State := s.setCopy k { d with th := .dram }

/-- Frame f of copy d is spilled and counted. -/
def State.spillCounted (s : State) (k : Nat) (d : SwCopy) (f : SwFrame) : State :=
  let t := ((s.spillMarked k d).spillFrame d.fid f).bump Reg.TKT_SPILLED 1 3
  (t.wr Reg.TKT_PEAK (BitVec.ofNat 32 (max (t.rd Reg.TKT_PEAK).toNat t.tktUsed))).pauseAsk f.port

/-- The registers of a spill. -/
def spillRegs : List Nat := [Reg.TKT_SPILLED, Reg.PG_IST Reg.pgTKT, Reg.TKT_PEAK]

/-- Beyond the units in DRAM a spill is confined to its registers. -/
theorem State.confined_spillCounted (s : State) (k : Nat) (d : SwCopy) (f : SwFrame) :
    ((s.spillMarked k d).unitsWritten ((s.spillMarked k d).spillUnits f)).confined (s.spillCounted k d f) (· ∈ spillRegs) :=
  ((((State.confined.refl _ _).setFrame _ _).bump (a := Reg.TKT_SPILLED) 1 3 (by decide) (by decide)).wr (a := Reg.TKT_PEAK) _
    (by decide)).pauseAsk _

/-- The switch's record after a spill: the copy marked, its frame in the units. -/
theorem State.sw_spillCounted (s : State) (k : Nat) (d : SwCopy) (f : SwFrame) : (s.spillCounted k d f).sw
    = ((s.spillMarked k d).setFrame d.fid (f.spilledTo ((s.spillMarked k d).spillUnits f))).sw := by
  obtain ⟨m, written⟩ := State.unitsWritten_eq ((s.spillMarked k d).spillUnits f) (s.spillMarked k d)
  rw [State.spillCounted, State.pauseAsk_sw, State.wr_sw, State.bump_sw, State.spillFrame_eq, written]
  rfl

theorem State.frameOf_spillCounted (s : State) (k : Nat) (d : SwCopy) (f : SwFrame) :
    (s.spillCounted k d f).frameOf d.fid = some (f.spilledTo ((s.spillMarked k d).spillUnits f)) := by
  rw [State.frameOf_congr (congrArg Switch.frames (s.sw_spillCounted k d f)), State.frameOf_setFrame_same]

theorem State.queueOf_spillCounted (s : State) (k : Nat) (d : SwCopy) (f : SwFrame) :
    (s.spillCounted k d f).queueOf k = (s.queueOf k).map fun x => if x.fid = d.fid then { d with th := .dram } else x := by
  rw [State.queueOf_congr (congrArg Switch.queues (s.sw_spillCounted k d f))]
  exact s.queueOf_setCopy_same k { d with th := .dram }

theorem State.rd_spillCounted (s : State) (k : Nat) (d : SwCopy) (f : SwFrame) :
    (s.spillCounted k d f).rd Reg.TKT_SPILLED = s.rd Reg.TKT_SPILLED + 1 := by
  obtain ⟨m, written⟩ := State.unitsWritten_eq ((s.spillMarked k d).spillUnits f) (s.spillMarked k d)
  rw [State.spillCounted, ((State.confined.refl _ fun _ => False).pauseAsk f.port).regs _ not_false, State.rd_wr_other _ _ (by decide),
    State.rd_bump_one _ _ (by decide), State.spillFrame_eq, written]
  rfl

/-- DRAM outside the units of the spilled frame stays. -/
theorem State.memRd_spillCounted (s : State) (k : Nat) (d : SwCopy) (f : SwFrame) {a : Nat}
    (out : ∀ u ∈ (f.spilledTo ((s.spillMarked k d).spillUnits f)).units, a < s.unitAt u.1 ∨ s.unitAt u.1 + 128 ≤ a) :
    memRd (s.spillCounted k d f).dram a = memRd s.dram a := by
  obtain ⟨dram, -⟩ := (s.confined_spillCounted k d f).bytes a
  exact dram.trans (State.memRd_unitsWritten _ (s.spillMarked k d) ((s.spillMarked k d).length_spillUnits f) fun u listed =>
    out (u.1, crc32 u.2) (List.mem_map.mpr ⟨u, listed, rfl⟩))

section
variable {s : State} {q : Fin 18} {c : Fin 8} {d : SwCopy} {f : SwFrame} (awake : s.inSave = false)
include awake

section
variable (pick : s.spillPick (8 * q + c) = some d) (stored : s.frameOf d.fid = some f) (fits : s.tktFits (8 * q + c) f = true)
include pick stored fits

theorem exec_thicketSpill_fits : exec (.thicketSpill q c) s = .next (s.spillCounted (8 * q + c) d f) := by
  change execThicketSpill q c s = _
  simp only [execThicketSpill, awake, Bool.false_eq_true, if_false, pick, stored, fits, if_true]
  rfl

/-- R269: the frame of the picked copy is in units of DRAM, and nothing else is written there. -/
theorem thicketSpill_fits : Completes (.thicketSpill q c) s fun t => (∃ us, t.frameOf d.fid = some { f with spilled := true, units := us }
      ∧ ∀ a, (∀ u ∈ us, a < s.unitAt u.1 ∨ s.unitAt u.1 + 128 ≤ a) → memRd t.dram a = memRd s.dram a)
    ∧ t.queueOf (8 * q + c) = (s.queueOf (8 * q + c)).map (fun x => if x.fid = d.fid then { d with th := .dram } else x)
    ∧ t.rd Reg.TKT_SPILLED = s.rd Reg.TKT_SPILLED + 1 ∧ s.sameTables t
    ∧ ∀ a, memRd t.mram a = memRd s.mram a ∧ memRd t.lsram a = memRd s.lsram a ∧ memRd t.hmem a = memRd s.hmem a := by
  have frame := s.confined_spillCounted (8 * q + c) d f
  obtain ⟨m, written⟩ := State.unitsWritten_eq ((s.spillMarked (8 * q + c) d).spillUnits f) (s.spillMarked (8 * q + c) d)
  rw [written] at frame
  refine .of_exec (exec_thicketSpill_fits awake pick stored fits) ⟨⟨_, s.frameOf_spillCounted _ d f, fun a => s.memRd_spillCounted _ d f⟩,
    s.queueOf_spillCounted _ d f, s.rd_spillCounted _ d f, frame.tables, fun a => ?_⟩
  obtain ⟨-, mram, lsram, hmem, -⟩ := frame.bytes a
  exact ⟨mram, lsram, hmem⟩

end

/-! The way back (R271). -/

section
variable (pick : ((s.queueOf (8 * q + c)).take 2).find? (fun x => x.th == .dram) = some d) (stored : s.frameOf d.fid = some f)
  (room : s.bufUsed q + (f.bytes.length + 4) ≤ s.bufSize q)
include pick stored room

theorem exec_thicketReadBack_room : exec (.thicketReadBack q c) s = .next (s.setCopy (8 * q + c) { d with th := .reading }) := by
  change execThicketReadBack q c s = _
  simp only [execThicketReadBack, awake, Bool.not_false, Bool.and_true, pick, stored, if_pos room]

/-- R271: a spilled copy that is first or second in its queue is read back. -/
theorem thicketReadBack_room : Completes (.thicketReadBack q c) s fun t =>
    t.queueOf (8 * q + c) = (s.queueOf (8 * q + c)).map (fun x => if x.fid = d.fid then { d with th := .reading } else x)
    ∧ s.sameRegs t [] ∧ s.sameTables t ∧ s.sameBytes t := by
  have frame := (State.confined.refl s (· ∈ [])).setCopy (8 * q + c) { d with th := .reading }
  exact .of_exec (exec_thicketReadBack_room awake pick stored room) ⟨s.queueOf_setCopy_same _ _, frame.sameRegs, frame.tables, frame.bytes⟩

end

section
variable (pick : (s.queueOf (8 * q + c)).find? (fun x => x.th == .reading) = some d) (stored : s.frameOf d.fid = some f)
include pick stored

theorem exec_readBackComplete_good {b : List Byte} (read : s.unitsRead f = some b) : exec (.readBackComplete q c true) s
    = .next ((s.setCopy (8 * q + c) { d with th := .back }).setFrame d.fid
      { f with bytes := b.take f.bytes.length, spilled := false, cells := 0, units := [] }) := by
  change execReadBackComplete q c true s = _
  simp only [execReadBackComplete, awake, Bool.not_false, Bool.and_true, pick, stored, if_true, read]

/-- R271: a frame whose units read good is in its port's transmit buffer. -/
theorem readBackComplete_good {b : List Byte} (read : s.unitsRead f = some b) : Completes (.readBackComplete q c true) s fun t =>
    t.queueOf (8 * q + c) = (s.queueOf (8 * q + c)).map (fun x => if x.fid = d.fid then { d with th := .back } else x)
    ∧ t.frameOf d.fid = some { f with bytes := b.take f.bytes.length, spilled := false, cells := 0, units := [] }
    ∧ s.sameRegs t [] ∧ s.sameTables t ∧ s.sameBytes t := by
  have frame := ((State.confined.refl s (· ∈ [])).setCopy (8 * q + c) { d with th := .back }).setFrame d.fid
    { f with bytes := b.take f.bytes.length, spilled := false, cells := 0, units := [] }
  exact .of_exec (exec_readBackComplete_good awake pick stored read) ⟨s.queueOf_setCopy_same _ _, State.frameOf_setFrame_same _ _ _,
    frame.sameRegs, frame.tables, frame.bytes⟩

/-- Copy d of queue k is dropped as a unit of its frame fails. -/
def State.crcDropped (s : State) (k p : Nat) (d : SwCopy) : State :=
  (((s.dropQueued k d).swDrop p 4 1).bump Reg.TKT_CRCERR 1 3).ist Reg.pgTKT 0

theorem exec_readBackComplete_bad {ok : Bool} (bad : ok = false ∨ s.unitsRead f = none) :
    exec (.readBackComplete q c ok) s = .next (s.crcDropped (8 * q + c) q d) := by
  have none : (if ok = true then s.unitsRead f else none) = none := by
    rcases bad with rfl | failed
    · rfl
    · rw [failed, ite_self]
  change execReadBackComplete q c ok s = _
  simp only [execReadBackComplete, awake, Bool.not_false, Bool.and_true, pick, stored, none]
  rfl

/-- R271: a frame with a failing unit leaves its queue, counted and reported. -/
theorem readBackComplete_bad {ok : Bool} (bad : ok = false ∨ s.unitsRead f = none) : Completes (.readBackComplete q c ok) s fun t =>
    (∀ x ∈ t.queueOf (8 * q + c), x.fid ≠ d.fid)
    ∧ t.rd Reg.TKT_CRCERR = s.rd Reg.TKT_CRCERR + 1 ∧ t.rb (Reg.PG_IST Reg.pgTKT) 0 = true ∧ s.sameTables t ∧ s.sameBytes t := by
  have dropped := ((State.confined.refl s (· ∈ dropRegs)).dropQueued (8 * q + c) d).swDrop q 4 1 fun _ listed => listed
  have frame := ((dropped.weaken fun _ _ => trivial).bump (a := Reg.TKT_CRCERR) 1 3 trivial trivial).ist (b := Reg.pgTKT) 0 trivial
  refine .of_exec (exec_readBackComplete_bad awake pick stored bad) ⟨?gone, ?counted, State.rb_ist_same _ _ _ (by decide), frame.tables,
    frame.bytes⟩
  case gone =>
    rw [State.crcDropped, State.queueOf_congr (congrArg Switch.queues (State.ist_sw _ _ _)),
      State.queueOf_congr (congrArg Switch.queues (State.bump_sw _ _ _ _))]
    exact s.fid_ne_of_dropCounted _ d q 4 1
  case counted =>
    rw [State.crcDropped, State.rd_ist_other _ _ _ _ (by decide), State.rd_bump_one _ _ (by decide), dropped.regs _ (by decide)]

end

end

/-- R273: a committed region takes effect when Thicket is empty. -/
theorem thicketRegionEffect_empty {s : State} {w : Word} (next : s.sw.nextRegion = some w) (empty : s.tktUsed = 0) :
    Completes .thicketRegionEffect s fun t => t.sw.region = w ∧ t.sw.nextRegion = none ∧ t.sw.frames = s.sw.frames
      ∧ t.sw.queues = s.sw.queues ∧ s.sameRegs t [] ∧ s.sameTables t ∧ s.sameBytes t := by
  have ran : exec .thicketRegionEffect s = .next (s.setSw { s.sw with region := w, nextRegion := none }) := by
    change execThicketRegionEffect s = _
    simp only [execThicketRegionEffect, State.regionSync, next, if_pos empty]
  have frame := (State.confined.refl s (· ∈ [])).setSw { s.sw with region := w, nextRegion := none }
  exact .of_exec ran ⟨rfl, rfl, rfl, rfl, frame.sameRegs, frame.tables, frame.bytes⟩

end Sys2Proof.Machine
end

section
/-! PROOFS. Policers and filters behind their staging registers (R262, R288), and the statement about them and Thicket. -/
namespace Sys2Proof.Machine

/-! Records. -/

@[simp] theorem State.polOf_setPol_same (s : State) (i : Nat) (p : Policer) : (s.setPol i p).polOf i = p := amGetD_set_same _ _ _ _

theorem State.polOf_setPol_other (s : State) {i j : Nat} (p : Policer) (other : j ≠ i) : (s.setPol i p).polOf j = s.polOf j :=
  amGetD_set_other _ _ _ _ other

/-- Filter i is replaced by the words ws. -/
def State.setFilt (s : State) (i : Nat) (ws : List Word) : State := s.setSw { s.sw with filt := amSet [0, 0, 0, 0] s.sw.filt i ws }

theorem State.filtOf_setFilt_same (s : State) (i : Nat) (ws : List Word) : (s.setFilt i ws).filtOf i = ws := amGetD_set_same _ _ _ _

theorem State.filtOf_setFilt_other (s : State) {i j : Nat} (ws : List Word) (other : j ≠ i) : (s.setFilt i ws).filtOf j = s.filtOf j :=
  amGetD_set_other _ _ _ _ other

/-! Policers. -/

/-- The policer that the staging registers hold, its buckets full, with the counters cnt. -/
def State.stagedPolicer (s : State) (cnt : List Nat) : Policer :=
  { cir := s.rf Reg.POL_PCIR 23 0, pir := s.rf Reg.POL_PPIR 23 0, cbs := s.rf Reg.POL_PCBS 23 0, pbs := s.rf Reg.POL_PPBS 23 0
    red := s.rb Reg.POL_PMODE 0, tc := s.rf Reg.POL_PCBS 23 0 * 8000000, tp := s.rf Reg.POL_PPBS 23 0 * 8000000, at_ := s.now, cnt := cnt }

/-- What a policer shows of its settings. -/
def Policer.setWords (p : Policer) : List Word :=
  [BitVec.ofNat 32 p.cir, BitVec.ofNat 32 p.pir, BitVec.ofNat 32 p.cbs, BitVec.ofNat 32 p.pbs, BitVec.ofNat 32 p.red.toNat]

/-- Policer p is shown with its counters. -/
def State.policerShown (s : State) (p : Policer) : State :=
  (s.loadWords Reg.POL_PCIR p.setWords).loadWords Reg.POL_CGREEN (p.cnt.map (BitVec.ofNat 32))

theorem pcmdWrite_wr {s : State} {v : Word} (wr : bitOf v 0 = true) (rd : bitOf v 1 = false) :
    pcmdWrite v s = s.setPol (s.rf Reg.POL_PIDX 9 0) (s.stagedPolicer (s.polOf (s.rf Reg.POL_PIDX 9 0)).cnt) := by
  simp only [pcmdWrite, wr, rd, if_true, Bool.false_eq_true, if_false]
  rfl

theorem pcmdWrite_rd {s : State} {v : Word} (wr : bitOf v 0 = false) (rd : bitOf v 1 = true) :
    pcmdWrite v s = s.policerShown (s.polOf (s.rf Reg.POL_PIDX 9 0)) := by
  simp only [pcmdWrite, wr, rd, if_true, Bool.false_eq_true, if_false]
  rfl

/-- The words of the settings stand in the staging registers; the counters that follow them lie behind. -/
theorem State.rd_policerShown (s : State) (p : Policer) {k : Nat} (word : k < 5) :
    (s.policerShown p).rd (Reg.POL_PCIR + 4 * k) = p.setWords[k] := by
  rw [State.policerShown, State.rd_loadWords_other _ _ _ fun i _ => by dsimp only [Reg.POL_PCIR, Reg.POL_CGREEN]; omega,
    State.rd_loadWords _ _ _ word]

theorem State.rd_policerShown_cnt (s : State) (p : Policer) {k : Nat} (counter : k < p.cnt.length) :
    (s.policerShown p).rd (Reg.POL_CGREEN + 4 * k) = BitVec.ofNat 32 p.cnt[k] := by
  rw [State.policerShown, State.rd_loadWords _ _ _ (by simpa using counter), List.getElem_map]

section
variable {s : State} {init : Initiator} {v : Word} {i : Nat} (run : s.pwr.held = false)
include run

theorem exec_policerWrite_run : exec (.policerWrite init v) s = .next (pcmdWrite v (s.setUnlock init Reg.POL_PCMD false)) :=
  congrArg Host.Outcome.next (State.cmdWrite_command (r := ⟨0x128, 4, 1, 4, 1, .wo, 0x0, 0x0, 0x0, false⟩) init v _ run (by decide)
    (by decide) rfl rfl)

/-- R262: WR gives the indexed policer what is staged, with full buckets and its counters. -/
theorem policerWrite_wr (wr : bitOf v 0 = true) (rd : bitOf v 1 = false) (index : i = s.rf Reg.POL_PIDX 9 0) :
    Completes (.policerWrite init v) s fun t => (t.polOf i).cir = s.rf Reg.POL_PCIR 23 0 ∧ (t.polOf i).pir = s.rf Reg.POL_PPIR 23 0
      ∧ (t.polOf i).cbs = s.rf Reg.POL_PCBS 23 0 ∧ (t.polOf i).pbs = s.rf Reg.POL_PPBS 23 0
      ∧ (t.polOf i).tc = s.rf Reg.POL_PCBS 23 0 * 8000000 ∧ (t.polOf i).tp = s.rf Reg.POL_PPBS 23 0 * 8000000
      ∧ (t.polOf i).cnt = (s.polOf i).cnt ∧ (∀ j, j ≠ i → t.polOf j = s.polOf j)
      ∧ s.sameRegs t [] ∧ s.sameTables t ∧ s.sameBytes t := by
  have ran : exec (.policerWrite init v) s
      = .next ((s.setUnlock init Reg.POL_PCMD false).setPol i (s.stagedPolicer (s.polOf i).cnt)) := by
    rw [exec_policerWrite_run run, pcmdWrite_wr wr rd, index]
    rfl
  have frame : s.confined ((s.setUnlock init Reg.POL_PCMD false).setPol i (s.stagedPolicer (s.polOf i).cnt)) (· ∈ []) :=
    ((State.confined.refl s _).setUnlock init Reg.POL_PCMD false).setSw _
  refine .of_exec ran ?_
  simp only [State.polOf_setPol_same]
  exact ⟨rfl, rfl, rfl, rfl, rfl, rfl, rfl, fun j other => State.polOf_setPol_other _ _ other, frame.sameRegs, frame.tables, frame.bytes⟩

/-- R262: RD shows the indexed policer with its counters. -/
theorem policerRead_rd {g y r : Nat} (wr : bitOf v 0 = false) (rd : bitOf v 1 = true) (index : i = s.rf Reg.POL_PIDX 9 0)
    (counters : (s.polOf i).cnt = [g, y, r]) :
    Completes (.policerRead init v) s fun t => t.rd Reg.POL_PCIR = BitVec.ofNat 32 (s.polOf i).cir
      ∧ t.rd Reg.POL_PPIR = BitVec.ofNat 32 (s.polOf i).pir ∧ t.rd Reg.POL_PCBS = BitVec.ofNat 32 (s.polOf i).cbs
      ∧ t.rd Reg.POL_PPBS = BitVec.ofNat 32 (s.polOf i).pbs ∧ t.rd Reg.POL_CGREEN = BitVec.ofNat 32 g
      ∧ t.rd Reg.POL_CYELLOW = BitVec.ofNat 32 y ∧ t.rd Reg.POL_CRED = BitVec.ofNat 32 r ∧ t.sw = s.sw
      ∧ s.sameTables t ∧ s.sameBytes t := by
  have ran : exec (.policerRead init v) s = .next ((s.setUnlock init Reg.POL_PCMD false).policerShown (s.polOf i)) := by
    rw [show exec (.policerRead init v) s = _ from exec_policerWrite_run run, pcmdWrite_rd wr rd, index]
    rfl
  have frame : s.confined ((s.setUnlock init Reg.POL_PCMD false).policerShown (s.polOf i)) fun _ => True :=
    (((State.confined.refl s _).setUnlock init Reg.POL_PCMD false).loadWords _ _).loadWords _ _
  have shown := fun k word => (s.setUnlock init Reg.POL_PCMD false).rd_policerShown (s.polOf i) (k := k) word
  have counted : ∀ k (listed : k < 3), ((s.setUnlock init Reg.POL_PCMD false).policerShown (s.polOf i)).rd (Reg.POL_CGREEN + 4 * k)
      = BitVec.ofNat 32 ([g, y, r][k]'listed) := fun k listed => by
    rw [State.rd_policerShown_cnt _ _ (by rw [counters]; exact listed)]
    simp only [counters]
  refine .of_exec ran ⟨shown 0 (by decide), shown 1 (by decide), shown 2 (by decide), shown 3 (by decide), counted 0 (by decide),
    counted 1 (by decide), counted 2 (by decide), ?_, frame.tables, frame.bytes⟩
  rw [State.policerShown, State.loadWords_sw, State.loadWords_sw]
  rfl

end

/-! Filters. -/

/-- The filter words that the staging registers hold, their reserved bits 0. -/
def State.stagedFilter (s : State) : List Word :=
  [s.rd (Reg.POL_FW 0), s.rd (Reg.POL_FW 1) &&& 0x0FFFFFFF, s.rd (Reg.POL_FW 2) &&& 0xEFF3FFFF, s.rd (Reg.POL_FW 3) &&& 0xFFFFE3FF]

/-- Filter words ws are shown with n matches. -/
def State.filterShown (s : State) (ws : List Word) (n : Nat) : State := (s.loadWords (Reg.POL_FW 0) ws).wr Reg.POL_FMATCH (BitVec.ofNat 32 n)

theorem fcmdWrite_wr {s : State} {v : Word} (wr : bitOf v 0 = true) (rd : bitOf v 1 = false) :
    fcmdWrite v s = s.setFilt (s.rf Reg.POL_FIDX 9 0) s.stagedFilter := by
  simp only [fcmdWrite, wr, rd, if_true, Bool.false_eq_true, if_false]
  rfl

theorem fcmdWrite_rd {s : State} {v : Word} (wr : bitOf v 0 = false) (rd : bitOf v 1 = true) :
    fcmdWrite v s = s.filterShown (s.filtOf (s.rf Reg.POL_FIDX 9 0)) (amGetD 0 s.sw.fmatch (s.rf Reg.POL_FIDX 9 0)) := by
  simp only [fcmdWrite, wr, rd, if_true, Bool.false_eq_true, if_false]
  rfl

theorem State.rd_filterShown (s : State) (a b c d : Word) (n : Nat) {k : Nat} (word : k < 4) :
    (s.filterShown [a, b, c, d] n).rd (Reg.POL_FW k) = [a, b, c, d][k]'word := by
  rw [State.filterShown, State.rd_wr_other _ _ (by dsimp only [Reg.POL_FW, Reg.POL_FMATCH]; omega)]
  exact State.rd_loadWords [a, b, c, d] s (Reg.POL_FW 0) word

section
variable {s : State} {init : Initiator} {v : Word} {i : Nat} (run : s.pwr.held = false)
include run

theorem exec_filterWrite_run : exec (.filterWrite init v) s = .next (fcmdWrite v (s.setUnlock init Reg.POL_FCMD false)) :=
  congrArg Host.Outcome.next (State.cmdWrite_command (r := ⟨0x154, 4, 1, 4, 1, .wo, 0x0, 0x0, 0x0, false⟩) init v _ run (by decide)
    (by decide) rfl rfl)

/-- R288: WR stores the staged words in the indexed filter. -/
theorem filterWrite_wr (wr : bitOf v 0 = true) (rd : bitOf v 1 = false) (index : i = s.rf Reg.POL_FIDX 9 0) :
    Completes (.filterWrite init v) s fun t =>
      t.filtOf i = [s.rd (Reg.POL_FW 0), s.rd (Reg.POL_FW 1) &&& 0x0FFFFFFF, s.rd (Reg.POL_FW 2) &&& 0xEFF3FFFF,
        s.rd (Reg.POL_FW 3) &&& 0xFFFFE3FF] ∧ (∀ j, j ≠ i → t.filtOf j = s.filtOf j)
      ∧ s.sameRegs t [] ∧ s.sameTables t ∧ s.sameBytes t := by
  have ran : exec (.filterWrite init v) s = .next ((s.setUnlock init Reg.POL_FCMD false).setFilt i s.stagedFilter) := by
    rw [exec_filterWrite_run run, fcmdWrite_wr wr rd, index]
    rfl
  have frame : s.confined ((s.setUnlock init Reg.POL_FCMD false).setFilt i s.stagedFilter) (· ∈ []) :=
    ((State.confined.refl s _).setUnlock init Reg.POL_FCMD false).setSw _
  exact .of_exec ran ⟨State.filtOf_setFilt_same _ _ _, fun j other => State.filtOf_setFilt_other _ _ other, frame.sameRegs, frame.tables,
    frame.bytes⟩

/-- R288: RD shows the indexed filter with its matches. -/
theorem filterRead_rd {a b c d : Word} (wr : bitOf v 0 = false) (rd : bitOf v 1 = true) (index : i = s.rf Reg.POL_FIDX 9 0)
    (words : s.filtOf i = [a, b, c, d]) :
    Completes (.filterRead init v) s fun t => t.rd (Reg.POL_FW 0) = a ∧ t.rd (Reg.POL_FW 1) = b ∧ t.rd (Reg.POL_FW 2) = c
      ∧ t.rd (Reg.POL_FW 3) = d ∧ t.rd Reg.POL_FMATCH = BitVec.ofNat 32 (amGetD 0 s.sw.fmatch i) ∧ t.sw = s.sw
      ∧ s.sameTables t ∧ s.sameBytes t := by
  have ran : exec (.filterRead init v) s
      = .next ((s.setUnlock init Reg.POL_FCMD false).filterShown [a, b, c, d] (amGetD 0 s.sw.fmatch i)) := by
    rw [show exec (.filterRead init v) s = _ from exec_filterWrite_run run, fcmdWrite_rd wr rd, ← words, index]
    rfl
  have frame : s.confined ((s.setUnlock init Reg.POL_FCMD false).filterShown [a, b, c, d] (amGetD 0 s.sw.fmatch i)) fun _ => True :=
    (((State.confined.refl s _).setUnlock init Reg.POL_FCMD false).loadWords _ _).wr _ trivial
  have shown := fun k word => (s.setUnlock init Reg.POL_FCMD false).rd_filterShown a b c d (amGetD 0 s.sw.fmatch i) (k := k) word
  refine .of_exec ran ⟨shown 0 (by decide), shown 1 (by decide), shown 2 (by decide), shown 3 (by decide), State.rd_wr_same _ _ _, ?_,
    frame.tables, frame.bytes⟩
  rw [State.filterShown, State.wr_sw, State.loadWords_sw]
  rfl

end

/-- Settles O32, command by command. -/
theorem thicketPolicersAndFilters : Obligations.ThicketPolicersAndFilters := by
  intro s init v q c i
  refine ⟨fun _ _ => thicketSpill_fits, fun _ _ => thicketReadBack_room, ?readBack, fun _ => thicketRegionEffect_empty, policerWrite_wr,
    fun _ _ _ run => policerRead_rd run, filterWrite_wr, fun _ _ _ _ run => filterRead_rd run⟩
  case readBack =>
    intro d f awake pick stored
    exact ⟨fun _ => readBackComplete_good awake pick stored, fun _ => readBackComplete_bad awake pick stored⟩

end Sys2Proof.Machine
end

section
/-! PROOFS. Lists of steps: what a step reaches and the others keep holds at the end. -/
namespace Sys2Proof.Machine
variable {α β : Type}

/-- The step of a listed x brings about Q, which every step keeps, as it keeps P. -/
theorem foldl_reaches {f : α → β → α} {P Q : α → Prop} {l : List β} {x : β} (listed : x ∈ l)
    (stays : ∀ t, ∀ y ∈ l, P t → P (f t y)) (brings : ∀ t, P t → Q (f t x)) (keeps : ∀ t, ∀ y ∈ l, P t → Q t → Q (f t y))
    {s : α} (h : P s) : Q (l.foldl f s) := by
  obtain ⟨before, after, rfl⟩ := List.append_of_mem listed
  rw [List.foldl_append, List.foldl_cons]
  have early : P (before.foldl f s) := List.foldlRecOn before f h fun t g y hy => stays t y (List.mem_append_left _ hy) g
  have late : ∀ y ∈ after, y ∈ before ++ x :: after := fun y hy => List.mem_append_right _ (List.mem_cons_of_mem x hy)
  refine (List.foldlRecOn (motive := fun t => P t ∧ Q t) after f ⟨stays _ x listed early, brings _ early⟩ fun t both y hy => ?_).2
  obtain ⟨p, q⟩ := both
  exact ⟨stays t y (late y hy) p, keeps t y (late y hy) p q⟩

end Sys2Proof.Machine
end

section
/-! PROOFS. Beside the tables, continued: a written bit, an ended unlock, the record of the switch and the words of a MAC entry leave the other
registers, the memories, the clocks and the CAN controllers. -/
namespace Sys2Proof.Machine
variable {s t : State} {may : Nat → Prop} (h : s.besideTables t may)
include h

theorem State.besideTables.wb {a : Nat} (i : Nat) (b : Bool) (ha : may a) : s.besideTables (t.wb a i b) may := h.wr _ ha

theorem State.besideTables.setUnlock (i : Initiator) (a : Nat) (u : Bool) : s.besideTables (t.setUnlock i a u) may :=
  h.confined ((State.confined.refl t may).setUnlock i a u) rfl

theorem State.besideTables.setSw (w : Switch) : s.besideTables (t.setSw w) may := h.confined ((State.confined.refl t may).setSw w) rfl

/-- The words of an entry of the MAC table or of the overflow store (R294). -/
theorem State.besideTables.setMtw (i w : Nat) (x : Word) : s.besideTables (t.setMtw i w x) may := .ite (h.setTw _ x) (h.setSw _)

theorem State.besideTables.setMt (i : Nat) (a b c d : Word) : s.besideTables (t.setMt i a b c d) may :=
  (((h.setMtw i 0 a).setMtw i 1 b).setMtw i 2 c).setMtw i 3 d

end Sys2Proof.Machine
end

section
/-! PROOFS. Rows of the LPM table (R304, R309): what a copied and a cleared row leave of the words of each row, and what a move of one row
or of a group leaves of the table. -/
namespace Sys2Proof.Machine

/-! One row. -/

theorem State.lpw_setTw_same (s : State) (r w : Nat) (v : Word) : (s.setTw (0x400000 + 32 * r + 4 * w) v).lpw r w = v :=
  s.tw_setTw_same _ v

theorem State.lpw_setTw_other (s : State) {r w q x : Nat} (v : Word) (hw : w < 8) (hx : x < 8) (apart : q ≠ r ∨ x ≠ w) :
    (s.setTw (0x400000 + 32 * r + 4 * w) v).lpw q x = s.lpw q x := s.tw_setTw_other v (by omega)

theorem State.sameTables.lpw {s t : State} (h : s.sameTables t) (r w : Nat) : t.lpw r w = s.lpw r w := h _

theorem State.sameTables.lpValid {s t : State} (h : s.sameTables t) (r : Nat) : t.lpValid r = s.lpValid r := by
  rw [State.lpValid, h.lpw, State.lpValid]

/-- A copied row holds the words of its source. -/
theorem State.lpw_lpCopy_same (s : State) {a b w : Nat} (apart : a ≠ b) (hw : w < 8) : (s.lpCopy a b).lpw b w = s.lpw a w := by
  have short : ∀ x ∈ List.range 8, x < 8 := fun x => List.mem_range.mp
  refine foldl_reaches (P := fun t : State => t.lpw a w = s.lpw a w) (Q := fun t => t.lpw b w = s.lpw a w) (List.mem_range.mpr hw)
    (fun t x hx source => ?_) (fun t source => ?_) (fun t x hx source done => ?_) rfl
  · rw [State.lpw_setTw_other _ _ (short x hx) hw (.inl apart), source]
  · rw [State.lpw_setTw_same, source]
  · by_cases same : w = x
    · rw [same, State.lpw_setTw_same, ← same, source]
    · rw [State.lpw_setTw_other _ _ (short x hx) hw (.inr same), done]

/-- A word outside the row that is written. -/
theorem State.tw_lpCopy_outside (s : State) (a : Nat) {b x : Nat} (out : x < 0x400000 + 32 * b ∨ 0x400000 + 32 * b + 32 ≤ x) :
    (s.lpCopy a b).tw x = s.tw x := by
  refine List.foldlRecOn (motive := fun t : State => t.tw x = s.tw x) _ _ rfl fun t kept w hw => ?_
  have word := List.mem_range.mp hw
  rw [State.tw_setTw_other _ _ (by omega), kept]

theorem State.lpw_lpCopy_other (s : State) (a : Nat) {b r w : Nat} (other : r ≠ b) (hw : w < 8) : (s.lpCopy a b).lpw r w = s.lpw r w :=
  s.tw_lpCopy_outside a (by omega)

theorem State.lpValid_lpClear_same (s : State) (a : Nat) : (s.lpClear a).lpValid a = false := by
  rw [State.lpValid, State.lpClear, State.lpw, State.tw_setTw_same]
  rfl

theorem State.lpw_lpClear_other (s : State) {a r w : Nat} (other : r ≠ a) (hw : w < 8) : (s.lpClear a).lpw r w = s.lpw r w :=
  State.tw_setTw_other _ _ (by omega)

/-! A move (R309). -/

/-- The k rows from src on are copied to dst. -/
def State.lpCopied (s : State) (src dst k : Nat) : State := (List.range k).reverse.foldl (fun t i => t.lpCopy (src + i) (dst + i)) s

/-- The k rows from src on are copied to dst and cleared. -/
def State.lpMoved (s : State) (src dst k : Nat) : State := (List.range k).foldl (fun t i => t.lpClear (src + i)) (s.lpCopied src dst k)

/-- The rows of a move: four in the IPv6 region. -/
def State.lpRows (s : State) (src : Nat) : Nat := if s.rf Reg.LPM_CTL 27 16 ≤ src then 4 else 1

/-- A move that is not refused goes from valid rows to rows that are not valid. -/
theorem State.valid_of_accepted {s : State} {src dst : Nat} (accepted : s.lpRefused src dst = false) :
    ∀ i, i < s.lpRows src → s.lpValid (src + i) = true ∧ s.lpValid (dst + i) = false := by
  simp only [State.lpRefused, decide_eq_true_eq, Bool.or_eq_false_iff, Bool.not_eq_false', List.all_eq_true, List.any_eq_false, List.mem_range,
    Bool.not_eq_true] at accepted
  obtain ⟨⟨-, valid⟩, free⟩ := accepted
  exact fun i inside => ⟨valid i inside, free i inside⟩

theorem State.apart_of_accepted {s : State} {src dst : Nat} (accepted : s.lpRefused src dst = false) :
    ∀ i j, i < s.lpRows src → j < s.lpRows src → src + i ≠ dst + j := fun i j hi hj same => by
  have valid := (State.valid_of_accepted accepted i hi).1
  rw [same, (State.valid_of_accepted accepted j hj).2] at valid
  exact Bool.false_ne_true valid

section
variable {src dst k : Nat} (s : State)

theorem State.tw_lpCopied_outside {a : Nat} (out : ∀ i, i < k → a < 0x400000 + 32 * (dst + i) ∨ 0x400000 + 32 * (dst + i) + 32 ≤ a) :
    (s.lpCopied src dst k).tw a = s.tw a := by
  refine List.foldlRecOn (motive := fun t : State => t.tw a = s.tw a) _ _ rfl fun t kept i hi => ?_
  rw [t.tw_lpCopy_outside _ (out i (by simpa using hi)), kept]

/-- A word outside the rows that are written, and no VALID word that is cleared. -/
theorem State.tw_lpMoved_outside {a : Nat} (out : ∀ i, i < k → (a < 0x400000 + 32 * (dst + i) ∨ 0x400000 + 32 * (dst + i) + 32 ≤ a)
    ∧ a ≠ 0x400000 + 32 * (src + i) + 28) : (s.lpMoved src dst k).tw a = s.tw a := by
  refine List.foldlRecOn (motive := fun t : State => t.tw a = s.tw a) _ _ (s.tw_lpCopied_outside fun i hi => (out i hi).1)
    fun t kept i hi => ?_
  rw [State.lpClear, t.tw_setTw_other _ (out i (List.mem_range.mp hi)).2, kept]

/-- The rows that are moved are not valid any more. -/
theorem State.lpValid_lpMoved {i : Nat} (inside : i < k) : (s.lpMoved src dst k).lpValid (src + i) = false := by
  refine foldl_reaches (P := fun _ : State => True) (Q := fun t => t.lpValid (src + i) = false) (List.mem_range.mpr inside)
    (fun _ _ _ _ => trivial) (fun t _ => ?_) (fun t j _ _ cleared => ?_) trivial
  · exact t.lpValid_lpClear_same (src + i)
  by_cases same : i = j
  · rw [same]
    exact t.lpValid_lpClear_same (src + j)
  · rw [State.lpValid, t.lpw_lpClear_other (by omega) (by decide)]
    exact cleared

variable (apart : ∀ i j, i < k → j < k → src + i ≠ dst + j)
include apart

/-- A copied row holds what its source held before the move. -/
theorem State.lpw_lpCopied {i w : Nat} (inside : i < k) (hw : w < 8) : (s.lpCopied src dst k).lpw (dst + i) w = s.lpw (src + i) w := by
  refine foldl_reaches (P := fun t : State => t.lpw (src + i) w = s.lpw (src + i) w) (Q := fun t => t.lpw (dst + i) w = s.lpw (src + i) w)
    (x := i) (by simpa using inside) (fun t j hj source => ?_) (fun t source => ?_) (fun t j hj source done => ?_) rfl
  · rw [t.lpw_lpCopy_other _ (apart i j inside (by simpa using hj)) hw, source]
  · rw [t.lpw_lpCopy_same (apart i i inside inside) hw, source]
  · by_cases same : i = j
    · rw [← same, t.lpw_lpCopy_same (apart i i inside inside) hw, source]
    · rw [t.lpw_lpCopy_other _ (by omega) hw, done]

theorem State.lpw_lpMoved {i w : Nat} (inside : i < k) (hw : w < 8) : (s.lpMoved src dst k).lpw (dst + i) w = s.lpw (src + i) w := by
  refine List.foldlRecOn (motive := fun t : State => t.lpw (dst + i) w = s.lpw (src + i) w) _ _ (s.lpw_lpCopied apart inside hw)
    fun t kept j hj => ?_
  rw [t.lpw_lpClear_other (apart j i (List.mem_range.mp hj) inside).symm hw, kept]

end

/-- A move changes table words alone. -/
theorem State.tabOnly_lpMoved (s : State) (src dst k : Nat) : s.tabOnly (s.lpMoved src dst k) :=
  (State.tabOnly_foldl _ (fun t _ => State.tabOnly_foldl _ (fun u _ => u.tabOnly_setTw _ _) _ t) _ s).trans
    (State.tabOnly_foldl _ (fun t _ => t.tabOnly_setTw _ _) _ _)

end Sys2Proof.Machine
end

section
/-! PROOFS. Moves and checks of the LPM table (R307-R310): the commands at their registers, the scan of an empty region and of two rows in
the wrong order, and the statement about them. -/
namespace Sys2Proof.Machine

/-! The scan (R307). -/

theorem State.lpCheck_empty {s : State} (none : s.lpListed = []) : s.lpCheck = 0 := by
  rw [State.lpCheck, none]
  rfl

/-- The unlock of a page is no row. -/
theorem State.lpScan_setUnlock (s : State) (i : Initiator) (a : Nat) (u six : Bool) (rows : List Nat) (prev : Option Nat) :
    (s.setUnlock i a u).lpScan six rows prev = s.lpScan six rows prev := by
  induction rows generalizing prev with
  | nil => rfl
  | cons r rest ih =>
    simp only [State.lpScan, ih]
    rfl

theorem State.lpCheck_setUnlock (s : State) (i : Initiator) (a : Nat) (u : Bool) : (s.setUnlock i a u).lpCheck = s.lpCheck := by
  simp only [State.lpCheck, State.lpScan_setUnlock]
  rfl

/-- A row of the IPv4 region that breaks nothing gives its length to the next. -/
theorem State.lpScan_sound {s : State} {r : Nat} (rest : List Nat) (valid : s.lpValid r = true) (kind : s.lpKind r = 0) (len : s.lpLen r ≤ 32) :
    s.lpScan false (r :: rest) none = s.lpScan false rest (some (s.lpLen r)) := by
  simp [State.lpScan, valid, kind, Nat.not_lt.mpr len]

/-- A row of the IPv4 region that is longer than the one before it breaks the order. -/
theorem State.lpScan_order {s : State} {r l : Nat} (rest : List Nat) (valid : s.lpValid r = true) (kind : s.lpKind r = 0) (len : s.lpLen r ≤ 32)
    (longer : l < s.lpLen r) : s.lpScan false (r :: rest) (some l) = some (0, r) := by
  simp [State.lpScan, valid, kind, Nat.not_lt.mpr len, longer]

/-- Two IPv4 rows with the shorter prefix first: the second breaks the order. -/
theorem State.lpCheck_order {s : State} {a b : Nat} (rows : s.lpListed = [a, b]) (a4 : a < s.rf Reg.LPM_CTL 27 16)
    (b4 : b < s.rf Reg.LPM_CTL 27 16) (validA : s.lpValid a = true) (validB : s.lpValid b = true) (kindA : s.lpKind a = 0)
    (kindB : s.lpKind b = 0) (longer : s.lpLen a < s.lpLen b) (len : s.lpLen b ≤ 32) : s.lpCheck = BitVec.ofNat 32 (2 ^ 30 + b) := by
  have both : [a, b].filter (fun r => decide (r < s.rf Reg.LPM_CTL 27 16)) = [a, b] := by simp [a4, b4]
  have scan : s.lpScan false [a, b] none = some (0, b) :=
    (State.lpScan_sound [b] validA kindA (by omega)).trans (State.lpScan_order [] validB kindB len longer)
  simp only [State.lpCheck, rows, both, scan]
  rfl

/-! Commands at their registers. -/

theorem lpmMoveWrite_accepted {s : State} {v : Word} (go : bitOf v 31 = true) (accepted : s.lpRefused (fld v 11 0) (fld v 27 16) = false) :
    lpmMoveWrite v s = (s.lpMoved (fld v 11 0) (fld v 27 16) (s.lpRows (fld v 11 0))).wb Reg.LPM_MVSTAT 31 true := by
  simp only [lpmMoveWrite, go, accepted, Bool.not_true, Bool.false_eq_true, if_false]
  rfl

theorem lpmMoveWrite_refused {s : State} {v : Word} (go : bitOf v 31 = true) (refused : s.lpRefused (fld v 11 0) (fld v 27 16) = true) :
    lpmMoveWrite v s = s.ist Reg.pgLPM 1 := by
  simp only [lpmMoveWrite, go, refused, Bool.not_true, Bool.false_eq_true, if_false, if_true]

section
variable {s : State} {init : Initiator} {v : Word} (run : s.pwr.held = false)
include run

theorem exec_lpmMove_run : exec (.lpmMove init v) s = .next (lpmMoveWrite v (s.setUnlock init Reg.LPM_MOVE false)) :=
  congrArg Host.Outcome.next (State.cmdWrite_command (r := ⟨0x10C, 4, 1, 4, 1, .wo, 0x0, 0x0, 0x0, false⟩) init v _ run (by decide)
    (by decide) rfl rfl)

theorem exec_lpmCheck_run : exec (.lpmCheck init v) s = .next (lpmCheckWrite v (s.setUnlock init Reg.LPM_CHECK false)) :=
  congrArg Host.Outcome.next (State.cmdWrite_command (r := ⟨0x114, 4, 1, 4, 1, .wo, 0x0, 0x0, 0x0, false⟩) init v _ run (by decide)
    (by decide) rfl rfl)

/-- R309: an accepted move copies its rows, clears their source and shows BUSY. -/
theorem lpmMove_accepted {k : Nat} (rows : k = s.lpRows (fld v 11 0)) (go : bitOf v 31 = true)
    (accepted : s.lpRefused (fld v 11 0) (fld v 27 16) = false) :
    Completes (.lpmMove init v) s fun t =>
      t.rb Reg.LPM_MVSTAT 31 = true
      ∧ (∀ i w, i < k → w < 8 → t.lpw (fld v 27 16 + i) w = s.lpw (fld v 11 0 + i) w)
      ∧ (∀ i, i < k → t.lpValid (fld v 11 0 + i) = false)
      ∧ (∀ a, (∀ i, i < k → (a < 0x400000 + 32 * (fld v 27 16 + i) ∨ 0x400000 + 32 * (fld v 27 16 + i) + 32 ≤ a)
          ∧ a ≠ 0x400000 + 32 * (fld v 11 0 + i) + 28) → t.tw a = s.tw a)
      ∧ s.sameRegs t [Reg.LPM_MVSTAT] ∧ s.sameBytes t := by
  have apart := State.apart_of_accepted accepted
  rw [← rows] at apart
  have ran := exec_lpmMove_run (init := init) (v := v) run
  rw [lpmMoveWrite_accepted (s := s.setUnlock init Reg.LPM_MOVE false) go accepted,
    show (s.setUnlock init Reg.LPM_MOVE false).lpRows (fld v 11 0) = k from rows.symm] at ran
  have frame := (((State.besideTables.refl s (· ∈ [Reg.LPM_MVSTAT])).setUnlock init Reg.LPM_MOVE false).tabOnly
    (State.tabOnly_lpMoved _ (fld v 11 0) (fld v 27 16) k)).wb (a := Reg.LPM_MVSTAT) 31 true (by decide)
  have before : s.sameTables (s.setUnlock init Reg.LPM_MOVE false) := fun _ => rfl
  have after := State.sameTables_wb ((s.setUnlock init Reg.LPM_MOVE false).lpMoved (fld v 11 0) (fld v 27 16) k) Reg.LPM_MVSTAT 31 true
  refine .of_exec ran ⟨State.rb_wb_same _ _ _ _ (by decide), fun i w inside word => ?copied, fun i inside => ?cleared, fun a out => ?others,
    frame.regs, frame.bytes⟩
  case copied => rw [after.lpw, State.lpw_lpMoved _ apart inside word, before.lpw]
  case cleared => rw [after.lpValid, State.lpValid_lpMoved _ inside]
  case others => rw [after, State.tw_lpMoved_outside _ out, before]

/-- R309: a refused move is reported and changes nothing else. -/
theorem lpmMove_refused (go : bitOf v 31 = true) (refused : s.lpRefused (fld v 11 0) (fld v 27 16) = true) :
    Completes (.lpmMove init v) s fun t =>
      t.rb (Reg.PG_IST Reg.pgLPM) 1 = true ∧ s.sameRegs t [Reg.PG_IST Reg.pgLPM] ∧ s.sameTables t ∧ s.sameBytes t := by
  have ran := exec_lpmMove_run (init := init) (v := v) run
  rw [lpmMoveWrite_refused (s := s.setUnlock init Reg.LPM_MOVE false) go refused] at ran
  have frame := ((State.confined.refl s (· ∈ [Reg.PG_IST Reg.pgLPM])).setUnlock init Reg.LPM_MOVE false).ist (b := Reg.pgLPM) 1 (by decide)
  exact .of_exec ran ⟨State.rb_ist_same _ _ _ (by decide), frame.sameRegs, frame.tables, frame.bytes⟩

/-- R307: a check holds the result of its scan and shows BUSY. -/
theorem lpmCheck_go (go : bitOf v 0 = true) :
    Completes (.lpmCheck init v) s fun t =>
      t.rb Reg.LPM_CHKSTAT 31 = true ∧ t.sw.lpmChk = some s.lpCheck ∧ s.sameRegs t [Reg.LPM_CHKSTAT] ∧ s.sameTables t ∧ s.sameBytes t := by
  have ran := (exec_lpmCheck_run (init := init) run).trans (congrArg Host.Outcome.next (if_pos go))
  have frame := (((State.confined.refl s (· ∈ [Reg.LPM_CHKSTAT])).setUnlock init Reg.LPM_CHECK false).setSw
    { s.sw with lpmChk := some s.lpCheck }).wb (a := Reg.LPM_CHKSTAT) 31 true (by decide)
  exact .of_exec ran ⟨State.rb_wb_same _ _ _ _ (by decide), congrArg some (s.lpCheck_setUnlock init _ false), frame.sameRegs,
    frame.tables, frame.bytes⟩

end

/-- R309: the end of a move is reported. -/
theorem lpmMoveDone_busy {s : State} (busy : s.rb Reg.LPM_MVSTAT 31 = true) : Completes .lpmMoveDone s fun t =>
    t.rb Reg.LPM_MVSTAT 31 = false ∧ t.rb (Reg.PG_IST Reg.pgLPM) 0 = true
    ∧ s.sameRegs t [Reg.LPM_MVSTAT, Reg.PG_IST Reg.pgLPM] ∧ s.sameTables t ∧ s.sameBytes t := by
  have frame := ((State.confined.refl s (· ∈ [Reg.LPM_MVSTAT, Reg.PG_IST Reg.pgLPM])).wb (a := Reg.LPM_MVSTAT) 31 false (by decide)).ist
    (b := Reg.pgLPM) 0 (by decide)
  refine .of_exec (congrArg Host.Outcome.next (if_pos busy)) ⟨?_, State.rb_ist_same _ _ _ (by decide), frame.sameRegs, frame.tables, frame.bytes⟩
  rw [State.rb, State.rd_ist_other _ _ _ _ (by decide), ← State.rb, State.rb_wb_same _ _ _ _ (by decide)]

/-- R307: the end of a check shows its result and is reported. -/
theorem lpmCheckDone_held {s : State} {w : Word} (held : s.sw.lpmChk = some w) : Completes .lpmCheckDone s fun t =>
    t.rd Reg.LPM_CHKSTAT = w ∧ t.rb (Reg.PG_IST Reg.pgLPM) 2 = true ∧ t.sw.lpmChk = none
    ∧ s.sameRegs t [Reg.LPM_CHKSTAT, Reg.PG_IST Reg.pgLPM] ∧ s.sameTables t ∧ s.sameBytes t := by
  have ran : exec .lpmCheckDone s = .next (((s.setSw { s.sw with lpmChk := none }).wr Reg.LPM_CHKSTAT w).ist Reg.pgLPM 2) := by
    change execLpmCheckDone s = _
    rw [execLpmCheckDone, held]
  have frame := (((State.confined.refl s (· ∈ [Reg.LPM_CHKSTAT, Reg.PG_IST Reg.pgLPM])).setSw { s.sw with lpmChk := none }).wr
    (a := Reg.LPM_CHKSTAT) w (by decide)).ist (b := Reg.pgLPM) 2 (by decide)
  refine .of_exec ran ⟨?_, State.rb_ist_same _ _ _ (by decide), ?_, frame.sameRegs, frame.tables, frame.bytes⟩
  · rw [State.rd_ist_other _ _ _ _ (by decide), State.rd_wr_same]
  · rw [State.ist_sw, State.wr_sw]
    rfl

/-- Settles O34, command by command. -/
theorem lpmRowsAreMovedAndChecked : Obligations.LpmRowsAreMovedAndChecked := by
  intro s init v k rows
  refine ⟨fun run go => ⟨lpmMove_accepted run rows go, lpmMove_refused run go⟩, lpmMoveDone_busy, fun run go => ?check,
    fun w => lpmCheckDone_held⟩
  case check =>
    obtain ⟨t, ran, busy, held, frame⟩ := lpmCheck_go (init := init) run go
    exact ⟨t, ran, busy, held, fun empty => held.trans (congrArg some (State.lpCheck_empty empty)),
      fun a b listed a4 b4 validA validB kindA kindB longer len =>
        held.trans (congrArg some (State.lpCheck_order listed a4 b4 validA validB kindA kindB longer len)), frame⟩

end Sys2Proof.Machine
end

section
/-! PROOFS. Entries of the MAC table and of the overflow store (R293, R294): what a written word leaves of the words of each entry. -/
namespace Sys2Proof.Machine

/-! One word. -/

theorem State.setMtw_store (s : State) {i : Nat} (w : Nat) (x : Word) (store : 65536 ≤ i) :
    s.setMtw i w x = s.setSw { s.sw with ovf := amSet 0 s.sw.ovf (4 * (i - 65536) + w) x } := if_neg (Nat.not_lt.mpr store)

theorem State.mtw_setMtw_same (s : State) (i w : Nat) (x : Word) : (s.setMtw i w x).mtw i w = x := by
  unfold State.setMtw State.mtw
  split
  · exact s.tw_setTw_same _ x
  · exact amGetD_set_same _ _ _ _

/-- A word of another entry, or another word of the same one. -/
theorem State.mtw_setMtw_other (s : State) {i w j y : Nat} (x : Word) (hw : w < 4) (hy : y < 4) (apart : j ≠ i ∨ y ≠ w) :
    (s.setMtw i w x).mtw j y = s.mtw j y := by
  unfold State.setMtw State.mtw
  split <;> split
  · exact s.tw_setTw_other x (by omega)
  · rfl
  · rfl
  · exact amGetD_set_other _ _ _ _ (by omega)

/-- A word outside the entry that is written. -/
theorem State.tw_setMtw_outside (s : State) {i w a : Nat} (x : Word) (hw : w < 4)
    (out : a < 0x300000 + 16 * i ∨ 0x300000 + 16 * i + 16 ≤ a) : (s.setMtw i w x).tw a = s.tw a := by
  unfold State.setMtw
  split
  · exact s.tw_setTw_other x (by omega)
  · rfl

/-- An entry reads from the tables and the overflow store alone. -/
theorem State.mtw_congr {s t : State} (tables : s.sameTables t) (ovf : t.sw.ovf = s.sw.ovf) (i w : Nat) : t.mtw i w = s.mtw i w := by
  rw [State.mtw, tables, ovf, State.mtw]

theorem State.mtw_bump (s : State) (a n k i w : Nat) : (s.bump a n k).mtw i w = s.mtw i w :=
  State.mtw_congr (State.sameTables_of_tab (s.bump_tab a n k)) (by rw [State.bump_sw]) i w

theorem State.mtw_wb (s : State) (a n : Nat) (b : Bool) (i w : Nat) : (s.wb a n b).mtw i w = s.mtw i w :=
  State.mtw_congr (s.sameTables_wb a n b) (by rw [State.wb_sw]) i w

/-! A whole entry. -/

theorem State.mtw_setMtw_later (s : State) {i w y : Nat} (x : Word) (hw : w < 4) (hy : y < w) : (s.setMtw i w x).mtw i y = s.mtw i y :=
  s.mtw_setMtw_other x hw (by omega) (.inr (by omega))

section
variable (s : State) (i : Nat) (a b c d : Word)

theorem State.mtw_setMt_low : (s.setMt i a b c d).mtw i 0 = a := by
  rw [State.setMt, State.mtw_setMtw_later _ _ (by decide) (by decide), State.mtw_setMtw_later _ _ (by decide) (by decide),
    State.mtw_setMtw_later _ _ (by decide) (by decide), State.mtw_setMtw_same]

theorem State.mtw_setMt_high : (s.setMt i a b c d).mtw i 1 = b := by
  rw [State.setMt, State.mtw_setMtw_later _ _ (by decide) (by decide), State.mtw_setMtw_later _ _ (by decide) (by decide),
    State.mtw_setMtw_same]

theorem State.mtw_setMt_dest : (s.setMt i a b c d).mtw i 2 = c := by
  rw [State.setMt, State.mtw_setMtw_later _ _ (by decide) (by decide), State.mtw_setMtw_same]

theorem State.mtw_setMt_valid : (s.setMt i a b c d).mtw i 3 = d := State.mtw_setMtw_same _ _ _ _

end

theorem State.mtw_setMt_other (s : State) {i j y : Nat} (a b c d : Word) (hy : y < 4) (other : j ≠ i) :
    (s.setMt i a b c d).mtw j y = s.mtw j y := by
  rw [State.setMt, State.mtw_setMtw_other _ _ (by decide) hy (.inl other), State.mtw_setMtw_other _ _ (by decide) hy (.inl other),
    State.mtw_setMtw_other _ _ (by decide) hy (.inl other), State.mtw_setMtw_other _ _ (by decide) hy (.inl other)]

theorem State.tw_setMt_outside (s : State) {i x : Nat} (a b c d : Word) (out : x < 0x300000 + 16 * i ∨ 0x300000 + 16 * i + 16 ≤ x) :
    (s.setMt i a b c d).tw x = s.tw x := by
  rw [State.setMt, State.tw_setMtw_outside _ _ (by decide) out, State.tw_setMtw_outside _ _ (by decide) out,
    State.tw_setMtw_outside _ _ (by decide) out, State.tw_setMtw_outside _ _ (by decide) out]

/-- An entry of the overflow store is no register, table word or byte. -/
theorem State.confined.setMt_store {s t : State} {may : Nat → Prop} (h : s.confined t may) {i : Nat} (a b c d : Word) (store : 65536 ≤ i) :
    s.confined (t.setMt i a b c d) may := by
  rw [State.setMt, State.setMtw_store _ _ _ store, State.setMtw_store _ _ _ store, State.setMtw_store _ _ _ store,
    State.setMtw_store _ _ _ store]
  exact (((h.setSw _).setSw _).setSw _).setSw _

end Sys2Proof.Machine
end

section
/-! PROOFS. Learning (R293, R295, R297, R298): an address that is learned in the lowest free way is a hit of its key. -/
namespace Sys2Proof.Machine

/-! Candidates (R293). -/

theorem mtCand_lt (key : Nat) {w : Nat} (hw : w < 4) : mtCand key w < 65536 := by
  unfold mtCand
  omega

theorem mtCand_inj {key v w : Nat} (h : mtCand key v = mtCand key w) : v = w := by
  unfold mtCand at h
  omega

/-- The candidate of key in way w is valid and holds the key. -/
def State.mtHits (s : State) (key w : Nat) : Bool := s.mtValid (mtCand key w) && s.mtKey (mtCand key w) == key

theorem State.mtHits_of_mtFind_none {s : State} {key : Nat} (unknown : s.mtFind key = none) : ∀ w, w < 4 → s.mtHits key w = false := by
  unfold State.mtFind at unknown
  split at unknown
  next => exact absurd unknown (by simp)
  next none =>
    intro w hw
    exact Bool.eq_false_of_not_eq_true (List.find?_eq_none.mp none w (List.mem_range.mpr hw))

/-- The lowest way that hits is found. -/
theorem State.mtFind_way {s : State} {key w : Nat} (hw : w < 4) (hits : s.mtHits key w = true) (first : ∀ v, v < w → s.mtHits key v = false) :
    s.mtFind key = some (mtCand key w) := by
  have found : (List.range 4).find? (s.mtHits key) = some w :=
    List.find?_range_eq_some.mpr ⟨hits, List.mem_range.mpr hw, fun v below => by rw [first v below]; rfl⟩
  unfold State.mtFind
  rw [show (fun w => s.mtValid (mtCand key w) && s.mtKey (mtCand key w) == key) = s.mtHits key from rfl, found]

theorem State.mtHits_congr {s t : State} {key w : Nat} (same : ∀ x, x < 4 → t.mtw (mtCand key w) x = s.mtw (mtCand key w) x) :
    t.mtHits key w = s.mtHits key w := by
  simp only [State.mtHits, State.mtValid, State.mtKey, same 0 (by decide), same 1 (by decide), same 3 (by decide)]

/-! A learned entry (R298). -/

section
variable (s : State) {key p i : Nat}

theorem State.mtValid_mtLearn : (s.mtLearn i key p).mtValid i = true := by
  rw [State.mtValid, State.mtLearn, State.mtw_setMt_valid]
  rfl

/-- A key has 60 bits: FID and MAC address. -/
theorem State.mtKey_mtLearn (short : key < 2 ^ 60) : (s.mtLearn i key p).mtKey i = key := by
  rw [State.mtKey, State.mtLearn, State.mtw_setMt_low, State.mtw_setMt_high]
  simp only [fld, nfld, BitVec.toNat_ofNat, Nat.shiftRight_eq_div_pow]
  omega

theorem State.mtDest_mtLearn (port : p < 18) : (s.mtLearn i key p).mtDest i = p := by
  rw [State.mtDest, State.mtLearn, State.mtw_setMt_dest]
  simp only [fld, nfld, BitVec.toNat_ofNat, Nat.shiftRight_eq_div_pow]
  omega

end

/-- The address of key is learned in way w toward port p, and counted. -/
def State.learned (s : State) (key w p : Nat) : State := (s.mtLearn (mtCand key w) key p).bump Reg.MACT_LEARNED 1 5

section
variable (s : State) {key w p : Nat}

theorem State.mtw_learned (i x : Nat) : (s.learned key w p).mtw i x = (s.mtLearn (mtCand key w) key p).mtw i x :=
  State.mtw_bump _ _ _ _ _ _

theorem State.mtw_learned_other {i x : Nat} (hx : x < 4) (other : i ≠ mtCand key w) : (s.learned key w p).mtw i x = s.mtw i x :=
  (s.mtw_learned i x).trans (s.mtw_setMt_other _ _ _ _ hx other)

theorem State.mtHits_learned (short : key < 2 ^ 60) : (s.learned key w p).mtHits key w = true := by
  rw [State.mtHits_congr fun x _ => s.mtw_learned _ x, State.mtHits, State.mtValid_mtLearn, State.mtKey_mtLearn s short, beq_self_eq_true]
  rfl

theorem State.mtDest_learned (port : p < 18) : (s.learned key w p).mtDest (mtCand key w) = p := by
  rw [State.mtDest, State.mtw_learned]
  exact s.mtDest_mtLearn port

theorem State.tw_learned_outside {a : Nat} (out : a < 0x300000 + 16 * mtCand key w ∨ 0x300000 + 16 * mtCand key w + 16 ≤ a) :
    (s.learned key w p).tw a = s.tw a := by
  rw [State.learned, State.tw_congr (State.bump_tab _ _ _ _), State.mtLearn, State.tw_setMt_outside _ _ _ _ _ out]

theorem State.sw_learned (way : w < 4) : (s.learned key w p).sw = s.sw := by
  have table := mtCand_lt key way
  simp only [State.learned, State.bump_sw, State.mtLearn, State.setMt, State.setMtw, if_pos table, State.setTw_sw]

theorem State.rd_learned : (s.learned key w p).rd Reg.MACT_LEARNED = s.rd Reg.MACT_LEARNED + 1 := by
  rw [State.learned, State.rd_bump_one _ _ (by decide)]
  exact congrArg (· + 1) (((State.besideTables.refl s fun _ => False).setMt (mtCand key w) _ _ _ _).regs _ not_false)

theorem State.besideTables_learned : s.besideTables (s.learned key w p) (· ∈ [Reg.MACT_LEARNED, Reg.PG_IST Reg.pgMACT]) :=
  ((State.besideTables.refl s _).setMt (mtCand key w) _ _ _ _).bump 1 5 (by decide) (by decide)

end

/-- The learned entry is what its key finds, as no way held the key before. -/
theorem State.mtFind_learned {s : State} {key w : Nat} (p : Nat) (short : key < 2 ^ 60) (unknown : s.mtFind key = none) (way : w < 4) :
    (s.learned key w p).mtFind key = some (mtCand key w) := by
  refine State.mtFind_way way (s.mtHits_learned short) fun v below => ?_
  have apart : mtCand key v ≠ mtCand key w := fun same => absurd (mtCand_inj same) (by omega)
  rw [State.mtHits_congr fun x hx => s.mtw_learned_other hx apart]
  exact State.mtHits_of_mtFind_none unknown v (by omega)

/-! A request (R297-R299). -/

/-- A learning request, by its key instead of FID and address: evaluating the product inside the key is out of the kernel's reach. -/
def State.learnKey (s : State) (p key : Nat) : State :=
  match s.mtFind key with
  | none => if s.lrnLimit p then s.lrnRefuse else s.mtInsert key p
  | some i =>
    if s.mtStatic i then
      if s.mtMc i || s.mtIs i p then s else (s.bump Reg.MACT_SAVIOL 1 5).ist Reg.pgMACT 2
    else if s.mtIs i p then s.setMtw i 2 (setFld (s.mtw i 2) 27 25 0)
    else if s.lrnLimit p then s.lrnRefuse
    else
      let w := setFld (setFld (s.mtw i 2) 17 0 p) 27 25 0
      ((s.setMtw i 2 w).bump Reg.MACT_MOVES 1 5).ist Reg.pgMACT 1

theorem State.learnOne_eq (s : State) (p fid mac : Nat) : ∃ key, s.learnOne p fid mac = s.learnKey p key ∧ fid * 2 ^ 48 + mac = key :=
  ⟨_, rfl, rfl⟩

theorem State.learnKey_free {s : State} {p key w : Nat} (unknown : s.mtFind key = none) (below : s.lrnLimit p = false)
    (free : (List.range 4).find? (fun x => !s.mtValid (mtCand key x)) = some w) : s.learnKey p key = s.learned key w p := by
  rw [State.learnKey, unknown]
  dsimp only
  rw [below, if_neg Bool.false_ne_true, State.mtInsert, free]
  rfl

theorem exec_learningRequest_oldest {s : State} {p fid mac : Nat} {rest : List (Nat × Nat × Nat)} (oldest : s.sw.lrn = (p, fid, mac) :: rest) :
    exec .learningRequest s = .next ((s.setSw { s.sw with lrn := rest }).learnOne p fid mac) := by
  change execLearningRequest s = _
  rw [execLearningRequest, oldest]

/-- R298: the oldest request is stored in the lowest free way and counted. -/
theorem learningRequest_free {s : State} {p fid mac key w : Nat} {rest : List (Nat × Nat × Nat)} (oldest : s.sw.lrn = (p, fid, mac) :: rest)
    (port : p < 18) (hf : fid < 4096) (hm : mac < 2 ^ 48) (named : key = fid * 2 ^ 48 + mac) (unknown : s.mtFind key = none)
    (below : s.lrnLimit p = false) (free : (List.range 4).find? (fun x => !s.mtValid (mtCand key x)) = some w) :
    Completes .learningRequest s fun t => t.sw.lrn = rest ∧ t.mtFind key = some (mtCand key w) ∧ t.mtDest (mtCand key w) = p
      ∧ t.rd Reg.MACT_LEARNED = s.rd Reg.MACT_LEARNED + 1
      ∧ (∀ a, (a < 0x300000 + 16 * mtCand key w ∨ 0x300000 + 16 * mtCand key w + 16 ≤ a) → t.tw a = s.tw a)
      ∧ s.sameRegs t [Reg.MACT_LEARNED, Reg.PG_IST Reg.pgMACT] ∧ s.sameBytes t := by
  have way : w < 4 := List.mem_range.mp (List.mem_of_find?_eq_some free)
  have short : key < 2 ^ 60 := by omega
  have taken : exec .learningRequest s = .next ((s.setSw { s.sw with lrn := rest }).learned key w p) := by
    obtain ⟨_, learns, same⟩ := (s.setSw { s.sw with lrn := rest }).learnOne_eq p fid mac
    rw [exec_learningRequest_oldest oldest, learns, ← named.trans same,
      State.learnKey_free (s := s.setSw { s.sw with lrn := rest }) unknown below free]
  have frame := ((State.besideTables.refl s _).setSw { s.sw with lrn := rest }).trans
    (State.besideTables_learned (s.setSw { s.sw with lrn := rest }) (key := key) (w := w) (p := p))
  exact .of_exec taken ⟨congrArg Switch.lrn (State.sw_learned _ way), State.mtFind_learned p short unknown way, State.mtDest_learned _ port,
    State.rd_learned _, fun _ => State.tw_learned_outside _, frame.regs, frame.bytes⟩

end Sys2Proof.Machine
end

section
/-! PROOFS. Ageing sweeps (R301): a sweep ages each entry that it meets by itself. -/
namespace Sys2Proof.Machine

/-! One entry. -/

theorem State.ageOne_static {s : State} {i : Nat} (fixed : s.mtStatic i = true) : s.ageOne i = s := if_pos fixed

theorem State.ageOne_young {s : State} {i : Nat} (dynamic : s.mtStatic i = false) (young : fld (s.mtw i 2) 27 25 < 7) :
    s.ageOne i = s.setMtw i 2 (setFld (s.mtw i 2) 27 25 (fld (s.mtw i 2) 27 25 + 1)) := by
  rw [State.ageOne, dynamic, if_neg Bool.false_ne_true]
  exact if_pos young

theorem State.ageOne_old {s : State} {i : Nat} (dynamic : s.mtStatic i = false) (old : fld (s.mtw i 2) 27 25 = 7) :
    s.ageOne i = (s.setMtw i 3 0).bump Reg.MACT_AGED 1 5 := by
  rw [State.ageOne, dynamic, if_neg Bool.false_ne_true]
  exact if_neg (by omega)

/-- A field of three bits is below 7 or 7. -/
theorem age_cases (w : Word) : fld w 27 25 < 7 ∨ fld w 27 25 = 7 := by
  have bound : fld w 27 25 < 2 ^ 3 := Nat.mod_lt _ (by decide)
  omega

theorem State.mtw_ageOne_other (s : State) {i j x : Nat} (hx : x < 4) (other : j ≠ i) : (s.ageOne i).mtw j x = s.mtw j x := by
  cases fixed : s.mtStatic i with
  | true => rw [State.ageOne_static fixed]
  | false =>
    rcases age_cases (s.mtw i 2) with young | old
    · rw [State.ageOne_young fixed young, State.mtw_setMtw_other _ _ (by decide) hx (.inl other)]
    · rw [State.ageOne_old fixed old, State.mtw_bump, State.mtw_setMtw_other _ _ (by decide) hx (.inl other)]

/-- An entry whose age has reached 7 is cleared, its other words kept. -/
theorem State.mtw_ageOne_old {s : State} {i : Nat} (dynamic : s.mtStatic i = false) (old : fld (s.mtw i 2) 27 25 = 7) :
    (s.ageOne i).mtw i 2 = s.mtw i 2 ∧ (s.ageOne i).mtValid i = false := by
  rw [State.ageOne_old dynamic old, State.mtValid, State.mtw_bump, State.mtw_bump, State.mtw_setMtw_same,
    State.mtw_setMtw_other _ _ (by decide) (by decide) (.inr (by decide))]
  exact ⟨rfl, rfl⟩

theorem State.besideTables.ageOne {s t : State} (h : s.besideTables t fun _ => True) (i : Nat) : s.besideTables (t.ageOne i) fun _ => True :=
  .ite h (.ite (h.setMtw i 2 _) ((h.setMtw i 3 0).bump 1 5 trivial trivial))

theorem State.setMtw_ageAt (s : State) (i w : Nat) (x : Word) : (s.setMtw i w x).sw.ageAt = s.sw.ageAt := by
  unfold State.setMtw
  split <;> rfl

theorem State.ageOne_ageAt (s : State) (i : Nat) : (s.ageOne i).sw.ageAt = s.sw.ageAt := by
  cases fixed : s.mtStatic i with
  | true => rw [State.ageOne_static fixed]
  | false =>
    rcases age_cases (s.mtw i 2) with young | old
    · rw [State.ageOne_young fixed young, State.setMtw_ageAt]
    · rw [State.ageOne_old fixed old, State.bump_sw, State.setMtw_ageAt]

/-! A sweep over a list of entries. -/

/-- The entries of l are aged in turn. -/
def State.swept (s : State) (l : List Nat) : State := l.foldl State.ageOne s

theorem State.mtw_swept_unlisted (s : State) {l : List Nat} {k x : Nat} (hx : x < 4) (out : k ∉ l) : (s.swept l).mtw k x = s.mtw k x := by
  refine List.foldlRecOn (motive := fun t : State => t.mtw k x = s.mtw k x) l _ rfl fun t kept i listed => ?_
  rw [t.mtw_ageOne_other hx (ne_of_mem_of_not_mem listed out).symm, kept]

/-- A static entry stays. -/
theorem State.mtw_swept_static {s : State} (l : List Nat) {k : Nat} (fixed : s.mtStatic k = true) :
    ∀ x, x < 4 → (s.swept l).mtw k x = s.mtw k x := by
  refine List.foldlRecOn (motive := fun t : State => ∀ x, x < 4 → t.mtw k x = s.mtw k x) l _ (fun _ _ => rfl) fun t kept i _ x hx => ?_
  by_cases same : k = i
  · have still : t.mtStatic i = true := by rw [State.mtStatic, ← same, kept 2 (by decide)]; exact fixed
    rw [State.ageOne_static still, kept x hx]
  · rw [t.mtw_ageOne_other hx same, kept x hx]

/-- A dynamic entry of age 7 is cleared. -/
theorem State.mtValid_swept_old {s : State} {l : List Nat} {k : Nat} (listed : k ∈ l) (dynamic : s.mtStatic k = false)
    (old : fld (s.mtw k 2) 27 25 = 7) : (s.swept l).mtValid k = false := by
  have aged : ∀ t : State, t.mtw k 2 = s.mtw k 2 → (t.ageOne k).mtw k 2 = s.mtw k 2 ∧ (t.ageOne k).mtValid k = false := fun t kept => by
    rw [← kept]
    exact State.mtw_ageOne_old (by rw [State.mtStatic, kept]; exact dynamic) (kept ▸ old)
  refine foldl_reaches (P := fun t : State => t.mtw k 2 = s.mtw k 2) (Q := fun t => t.mtValid k = false) listed (fun t i _ kept => ?_)
    (fun t kept => (aged t kept).2) (fun t i _ kept cleared => ?_) rfl
  · by_cases same : k = i
    · exact same ▸ (aged t kept).1
    · rw [t.mtw_ageOne_other (by decide) same, kept]
  · by_cases same : k = i
    · exact same ▸ (aged t kept).2
    · rw [State.mtValid, t.mtw_ageOne_other (by decide) same]
      exact cleared

/-- A younger dynamic entry that is listed once ages by one. -/
theorem State.swept_young {s : State} {l : List Nat} {k : Nat} (once : l.count k = 1) (dynamic : s.mtStatic k = false)
    (young : fld (s.mtw k 2) 27 25 < 7) :
    fld ((s.swept l).mtw k 2) 27 25 = fld (s.mtw k 2) 27 25 + 1 ∧ (s.swept l).mtw k 3 = s.mtw k 3 := by
  obtain ⟨before, after, rfl⟩ := List.append_of_mem (List.count_pos_iff.mp (by omega : 0 < l.count k))
  rw [List.count_append, List.count_cons_self] at once
  have early : k ∉ before := List.count_eq_zero.mp (by omega)
  have late : k ∉ after := List.count_eq_zero.mp (by omega)
  have met : ∀ x, x < 4 → (s.swept before).mtw k x = s.mtw k x := fun x hx => s.mtw_swept_unlisted hx early
  have aged : (s.swept before).ageOne k = (s.swept before).setMtw k 2 (setFld (s.mtw k 2) 27 25 (fld (s.mtw k 2) 27 25 + 1)) := by
    rw [State.ageOne_young (by rw [State.mtStatic, met 2 (by decide)]; exact dynamic) (by rw [met 2 (by decide)]; exact young),
      met 2 (by decide)]
  rw [State.swept, List.foldl_append, List.foldl_cons, ← State.swept, ← State.swept, State.mtw_swept_unlisted _ (by decide) late,
    State.mtw_swept_unlisted _ (by decide) late, aged, State.mtw_setMtw_same, fld_setFld_same _ _ _ _ (by decide),
    State.mtw_setMtw_other _ _ (by decide) (by decide) (.inr (by decide)), met 3 (by decide)]
  exact ⟨Nat.mod_eq_of_lt (by omega), rfl⟩

/-! The sweep (R301). -/

theorem exec_ageingSweep_due {s : State} (on : s.rf Reg.MACT_AGE 7 0 ≠ 0) (due : s.sw.ageAt + s.rf Reg.MACT_AGE 7 0 * 1000000000 ≤ s.now) :
    exec .ageingSweep s = .next ((s.setSw { s.sw with ageAt := s.now }).swept s.mtListed) := if_pos ⟨on, due⟩

/-- R301: a due sweep ages the dynamic entries and clears the oldest. -/
theorem ageingSweep_due {s : State} (on : s.rf Reg.MACT_AGE 7 0 ≠ 0) (due : s.sw.ageAt + s.rf Reg.MACT_AGE 7 0 * 1000000000 ≤ s.now) :
    Completes .ageingSweep s fun t => t.sw.ageAt = s.now
      ∧ (∀ k, s.mtListed.count k = 1 → s.mtStatic k = false → fld (s.mtw k 2) 27 25 < 7 →
        fld (t.mtw k 2) 27 25 = fld (s.mtw k 2) 27 25 + 1 ∧ t.mtw k 3 = s.mtw k 3)
      ∧ (∀ k, k ∈ s.mtListed → s.mtStatic k = false → fld (s.mtw k 2) 27 25 = 7 → t.mtValid k = false)
      ∧ (∀ k, (s.mtStatic k = true ∨ k ∉ s.mtListed) → ∀ w, w < 4 → t.mtw k w = s.mtw k w) ∧ s.sameBytes t := by
  have begun : ∀ k w, (s.setSw { s.sw with ageAt := s.now }).mtw k w = s.mtw k w := State.mtw_congr (fun _ => rfl) rfl
  refine .of_exec (exec_ageingSweep_due on due) ⟨?time, fun k once dynamic young => ?young, fun k listed dynamic old => ?old,
    fun k stays w hw => ?others, ?bytes⟩
  case time =>
    exact List.foldlRecOn (motive := fun t : State => t.sw.ageAt = s.now) _ _ rfl fun t kept i _ => (t.ageOne_ageAt i).trans kept
  case young =>
    rw [← begun k 2, ← begun k 3]
    exact State.swept_young once (by rw [State.mtStatic, begun]; exact dynamic) (by rw [begun]; exact young)
  case old => exact State.mtValid_swept_old listed (by rw [State.mtStatic, begun]; exact dynamic) (by rw [begun]; exact old)
  case others =>
    rw [← begun k w]
    rcases stays with fixed | out
    · exact State.mtw_swept_static _ (by rw [State.mtStatic, begun]; exact fixed) w hw
    · exact State.mtw_swept_unlisted _ hw out
  case bytes =>
    exact (State.besideTables.foldl _ (fun _ i h => h.ageOne i) ((State.besideTables.refl s fun _ => True).setSw _)).bytes

end Sys2Proof.Machine
end

section
/-! PROOFS. Flushes of the MAC table (R302): a flush clears the VALID word of the entries that its word names, and nothing else. -/
namespace Sys2Proof.Machine

/-! The entries that a flush names. -/

/-- The flush word v names entry i. -/
def State.flushNames (s : State) (v : Word) (i : Nat) : Bool :=
  (!s.mtStatic i || bitOf v 30) && (!bitOf v 29 || (!s.mtMc i && s.mtIs i (fld v 20 16)))
    && (!bitOf v 28 || fld (s.mtw i 1) 27 16 == fld v 11 0)

/-- One entry of a flush. -/
def State.flushOne (v : Word) (s : State) (i : Nat) : State := if s.flushNames v i then s.setMtw i 3 0 else s

theorem State.macClear_eq (s : State) (v : Word) : s.macClear v = s.mtListed.foldl (State.flushOne v) s := rfl

theorem State.flushNames_iff (s : State) (v : Word) (i : Nat) : s.flushNames v i = true ↔ (s.mtStatic i = false ∨ bitOf v 30 = true)
    ∧ (bitOf v 29 = false ∨ (s.mtMc i = false ∧ s.mtDest i % 32 = fld v 20 16))
    ∧ (bitOf v 28 = false ∨ fld (s.mtw i 1) 27 16 = fld v 11 0) := by
  unfold State.flushNames State.mtIs
  cases s.mtMc i <;> simp [and_assoc]

/-- What a flush names reads from words 1 and 2 of the entry alone. -/
theorem State.flushNames_congr {s t : State} {i : Nat} (v : Word) (key : t.mtw i 1 = s.mtw i 1) (dest : t.mtw i 2 = s.mtw i 2) :
    t.flushNames v i = s.flushNames v i := by
  have fixed : t.mtStatic i = s.mtStatic i := congrArg (bitOf · 31) dest
  have many : t.mtMc i = s.mtMc i := congrArg (bitOf · 30) dest
  have port : t.mtDest i = s.mtDest i := congrArg (fld · 17 0) dest
  simp only [State.flushNames, State.mtIs, fixed, many, port, key]

/-- No word but the VALID words changes. -/
theorem State.mtw_flushOne_low (s : State) (v : Word) {i k w : Nat} (hw : w < 3) : (s.flushOne v i).mtw k w = s.mtw k w := by
  unfold State.flushOne
  split
  · exact s.mtw_setMtw_other 0 (by decide) (by omega) (.inr (by omega))
  · rfl

theorem State.flushOne_named {s : State} {v : Word} {i : Nat} (named : s.flushNames v i = true) : (s.flushOne v i).mtValid i = false := by
  rw [State.flushOne, if_pos named, State.mtValid, State.mtw_setMtw_same]
  rfl

/-- An entry that is not named keeps its VALID word, as do all when another entry is met. -/
theorem State.mtw_flushOne_kept {s : State} {v : Word} {i k : Nat} (kept : s.flushNames v k = false ∨ k ≠ i) :
    (s.flushOne v i).mtw k 3 = s.mtw k 3 := by
  unfold State.flushOne
  split
  next named =>
    have other : k ≠ i := kept.elim (fun spared same => Bool.false_ne_true (spared.symm.trans (same ▸ named))) id
    exact s.mtw_setMtw_other 0 (by decide) (by decide) (.inl other)
  next => rfl

/-- An entry that fails one of the conditions of the flush word is not named. -/
theorem State.flushNames_spared {s : State} {v : Word} {i : Nat} (spared : (s.mtStatic i = true ∧ bitOf v 30 = false)
    ∨ (bitOf v 29 = true ∧ (s.mtMc i = true ∨ s.mtDest i % 32 ≠ fld v 20 16))
    ∨ (bitOf v 28 = true ∧ fld (s.mtw i 1) 27 16 ≠ fld v 11 0)) :
    s.flushNames v i = false := by
  refine Bool.eq_false_of_not_eq_true fun named => ?_
  obtain ⟨dynamic, port, fid⟩ := (s.flushNames_iff v i).mp named
  rcases spared with ⟨fixed, dynamicOnly⟩ | ⟨byPort, otherPort⟩ | ⟨byFid, otherFid⟩
  · exact dynamic.elim (ne_false_of_eq_true fixed) (ne_true_of_eq_false dynamicOnly)
  · obtain ⟨single, here⟩ := port.resolve_left (ne_false_of_eq_true byPort)
    exact otherPort.elim (ne_true_of_eq_false single) fun other => other here
  · exact otherFid (fid.resolve_left (ne_false_of_eq_true byFid))

/-! A flush. -/

theorem State.mtw_macClear_low (s : State) (v : Word) {k w : Nat} (hw : w < 3) : (s.macClear v).mtw k w = s.mtw k w :=
  List.foldlRecOn (motive := fun t : State => t.mtw k w = s.mtw k w) _ (State.flushOne v) rfl fun t kept _ _ =>
    (t.mtw_flushOne_low v hw).trans kept

/-- A named entry is not valid any more. -/
theorem State.mtValid_macClear {s : State} {v : Word} {k : Nat} (listed : k ∈ s.mtListed) (named : s.flushNames v k = true) :
    (s.macClear v).mtValid k = false := by
  rw [State.macClear_eq]
  refine foldl_reaches (P := fun t : State => t.flushNames v k = true) (Q := fun t => t.mtValid k = false) listed (fun t i _ still => ?_)
    (fun t still => State.flushOne_named still) (fun t i _ still cleared => ?_) named
  · rw [State.flushNames_congr v (t.mtw_flushOne_low v (by decide)) (t.mtw_flushOne_low v (by decide)), still]
  · by_cases same : k = i
    · exact same ▸ State.flushOne_named still
    · rw [State.mtValid, State.mtw_flushOne_kept (.inr same)]
      exact cleared

/-- An entry that is not named keeps its VALID word. -/
theorem State.mtw_macClear_spared {s : State} {v : Word} {k : Nat} (spared : s.flushNames v k = false) :
    (s.macClear v).mtw k 3 = s.mtw k 3 := by
  refine (List.foldlRecOn (motive := fun t : State => t.flushNames v k = false ∧ t.mtw k 3 = s.mtw k 3) _ (State.flushOne v) ⟨spared, rfl⟩
    fun t both i _ => ?_).2
  obtain ⟨still, kept⟩ := both
  exact ⟨(State.flushNames_congr v (t.mtw_flushOne_low v (by decide)) (t.mtw_flushOne_low v (by decide))).trans still,
    (State.mtw_flushOne_kept (.inl still)).trans kept⟩

theorem State.besideTables_macClear (s : State) (v : Word) (may : Nat → Prop) : s.besideTables (s.macClear v) may :=
  .foldl _ (fun _ i h => .ite (h.setMtw i 3 0) h) (.refl s may)

/-! The commands (R302). -/

theorem macFlushWrite_free {s : State} {v : Word} (go : bitOf v 31 = true) (free : s.rb Reg.MACT_FLSTAT 31 = false) :
    macFlushWrite v s = (s.macClear v).wb Reg.MACT_FLSTAT 31 true := by
  rw [macFlushWrite, State.macBusy, go, free]
  rfl

section
variable {s : State} {init : Initiator} {v : Word} (run : s.pwr.held = false)
include run

theorem exec_macFlush_run : exec (.macFlush init v) s = .next (macFlushWrite v (s.setUnlock init Reg.MACT_FLUSH false)) :=
  congrArg Host.Outcome.next (State.cmdWrite_command (r := ⟨0x138, 4, 1, 4, 1, .wo, 0x0, 0x0, 0x0, false⟩) init v _ run (by decide)
    (by decide) rfl rfl)

/-- R302: a flush clears the entries that it names and shows BUSY. -/
theorem macFlush_free (go : bitOf v 31 = true) (free : s.rb Reg.MACT_FLSTAT 31 = false) :
    Completes (.macFlush init v) s fun t => t.rb Reg.MACT_FLSTAT 31 = true
      ∧ (∀ k, k ∈ s.mtListed → s.flushNames v k = true → t.mtValid k = false)
      ∧ (∀ k w, w < 3 → t.mtw k w = s.mtw k w) ∧ (∀ k, s.flushNames v k = false → t.mtw k 3 = s.mtw k 3) ∧ s.sameBytes t := by
  have ran := exec_macFlush_run (init := init) (v := v) run
  rw [macFlushWrite_free (s := s.setUnlock init Reg.MACT_FLUSH false) go free] at ran
  have before : ∀ k w, (s.setUnlock init Reg.MACT_FLUSH false).mtw k w = s.mtw k w := State.mtw_congr (fun _ => rfl) rfl
  have after := ((s.setUnlock init Reg.MACT_FLUSH false).macClear v).mtw_wb Reg.MACT_FLSTAT 31 true
  have names : ∀ k, (s.setUnlock init Reg.MACT_FLUSH false).flushNames v k = s.flushNames v k := fun k =>
    State.flushNames_congr v (before k 1) (before k 2)
  have frame := (((State.besideTables.refl s fun _ => True).setUnlock init Reg.MACT_FLUSH false).trans
    (State.besideTables_macClear _ v _)).wb (a := Reg.MACT_FLSTAT) 31 true trivial
  refine .of_exec ran ⟨State.rb_wb_same _ _ _ _ (by decide), fun k listed named => ?cleared, fun k w hw => ?low, fun k spared => ?spared,
    frame.bytes⟩
  case cleared =>
    rw [State.mtValid, after, ← State.mtValid]
    exact State.mtValid_macClear listed ((names k).trans named)
  case low => rw [after, State.mtw_macClear_low _ _ hw, before]
  case spared => rw [after, State.mtw_macClear_spared ((names k).trans spared), before]

end

/-- R302: the end of a flush is reported. -/
theorem macFlushDone_idle {s : State} (busy : s.rb Reg.MACT_FLSTAT 31 = true) (idle : s.sw.mfl = []) : Completes .macFlushDone s fun t =>
    t.rb Reg.MACT_FLSTAT 31 = false ∧ t.rb (Reg.PG_IST Reg.pgMACT) 4 = true
    ∧ s.sameRegs t [Reg.MACT_FLSTAT, Reg.PG_IST Reg.pgMACT] ∧ s.sameTables t ∧ s.sameBytes t := by
  have ended : exec .macFlushDone s = .next ((s.wb Reg.MACT_FLSTAT 31 false).ist Reg.pgMACT 4) := by
    change execMacFlushDone s = _
    rw [execMacFlushDone, if_pos (show s.macBusy = true from busy)]
    dsimp only
    rw [State.ist_sw, State.wb_sw, idle]
  have frame := ((State.confined.refl s (· ∈ [Reg.MACT_FLSTAT, Reg.PG_IST Reg.pgMACT])).wb (a := Reg.MACT_FLSTAT) 31 false (by decide)).ist
    (b := Reg.pgMACT) 4 (by decide)
  refine .of_exec ended ⟨?_, State.rb_ist_same _ _ _ (by decide), frame.sameRegs, frame.tables, frame.bytes⟩
  rw [State.rb, State.rd_ist_other _ _ _ _ (by decide), ← State.rb, State.rb_wb_same _ _ _ _ (by decide)]

end Sys2Proof.Machine
end

section
/-! PROOFS. VLAN and overflow entries behind their staging registers (R290, R303), and the statement about the MAC table. -/
namespace Sys2Proof.Machine

/-- The VLAN entry that the staging registers hold. -/
def State.stagedVlan (s : State) : Vlan := ⟨s.rf Reg.MACT_VMEM 17 0, s.rf Reg.MACT_VUNTAG 17 0, s.rd Reg.MACT_VCFG &&& 0x80003FFF⟩

/-- VLAN entry i is replaced by e. -/
def State.setVlan (s : State) (i : Nat) (e : Vlan) : State := s.setSw { s.sw with vlan := amSet (vlanReset i) s.sw.vlan i e }

theorem State.vlanOf_setVlan_same (s : State) (i : Nat) (e : Vlan) : (s.setVlan i e).vlanOf i = e := amGetD_set_same _ _ _ _

theorem State.vlanOf_setVlan_other (s : State) {i j : Nat} (e : Vlan) (other : j ≠ i) : (s.setVlan i e).vlanOf j = s.vlanOf j :=
  amGetD_set_other _ _ _ _ other

theorem vcmdWrite_wr {s : State} {v : Word} (wr : bitOf v 0 = true) (rd : bitOf v 1 = false) :
    vcmdWrite v s = s.setVlan (s.rf Reg.MACT_VIDX 11 0) s.stagedVlan := by
  simp only [vcmdWrite, wr, rd, if_true, Bool.false_eq_true, if_false]
  rfl

/-- VLAN entry e is shown. -/
def State.vlanShown (s : State) (e : Vlan) : State :=
  ((s.wr Reg.MACT_VMEM (BitVec.ofNat 32 e.member)).wr Reg.MACT_VUNTAG (BitVec.ofNat 32 e.untag)).wr Reg.MACT_VCFG e.cfg

theorem vcmdWrite_rd {s : State} {v : Word} (wr : bitOf v 0 = false) (rd : bitOf v 1 = true) :
    vcmdWrite v s = s.vlanShown (s.vlanOf (s.rf Reg.MACT_VIDX 11 0)) := by
  simp only [vcmdWrite, wr, rd, if_true, Bool.false_eq_true, if_false]
  rfl

/-- Overflow entry i takes the staged words. -/
def State.overflowStored (s : State) (i : Nat) : State :=
  s.setMt i (s.rd (Reg.MACT_OW 0)) (s.rd (Reg.MACT_OW 1) &&& 0x0FFFFFFF) (s.rd (Reg.MACT_OW 2) &&& 0xEE03FFFF)
    (s.rd (Reg.MACT_OW 3) &&& 0x80000000)

theorem ocmdWrite_wr {s : State} {v : Word} (wr : bitOf v 0 = true) (rd : bitOf v 1 = false) :
    ocmdWrite v s = s.overflowStored (65536 + s.rf Reg.MACT_OIDX 7 0) := by
  simp only [ocmdWrite, wr, rd, if_true, Bool.false_eq_true, if_false]
  rfl

theorem ocmdWrite_rd {s : State} {v : Word} (wr : bitOf v 0 = false) (rd : bitOf v 1 = true) :
    ocmdWrite v s = s.loadWords (Reg.MACT_OW 0) ((List.range 4).map (s.mtw (65536 + s.rf Reg.MACT_OIDX 7 0))) := by
  simp only [ocmdWrite, wr, rd, if_true, Bool.false_eq_true, if_false]

section
variable {s : State} {init : Initiator} {v : Word} {i : Nat} (run : s.pwr.held = false)
include run

theorem cmdWrite_vcmd : s.cmdWrite init Reg.MACT_VCMD v (vcmdWrite v) = vcmdWrite v (s.setUnlock init Reg.MACT_VCMD false) :=
  State.cmdWrite_command (r := ⟨0x150, 4, 1, 4, 1, .wo, 0x0, 0x0, 0x0, false⟩) init v _ run (by decide) (by decide) rfl rfl

theorem cmdWrite_ocmd : s.cmdWrite init Reg.MACT_OCMD v (ocmdWrite v) = ocmdWrite v (s.setUnlock init Reg.MACT_OCMD false) :=
  State.cmdWrite_command (r := ⟨0x134, 4, 1, 4, 1, .wo, 0x0, 0x0, 0x0, false⟩) init v _ run (by decide) (by decide) rfl rfl

/-- R290: WR stores the staged VLAN entry. -/
theorem vlanWrite_wr (wr : bitOf v 0 = true) (rd : bitOf v 1 = false) (index : i = s.rf Reg.MACT_VIDX 11 0) :
    Completes (.vlanWrite init v) s fun t =>
      t.vlanOf i = ⟨s.rf Reg.MACT_VMEM 17 0, s.rf Reg.MACT_VUNTAG 17 0, s.rd Reg.MACT_VCFG &&& 0x80003FFF⟩
      ∧ (∀ j, j ≠ i → t.vlanOf j = s.vlanOf j) ∧ s.sameRegs t [] ∧ s.sameTables t ∧ s.sameBytes t := by
  have ran : exec (.vlanWrite init v) s = .next ((s.setUnlock init Reg.MACT_VCMD false).setVlan i s.stagedVlan) := by
    change Host.Outcome.next (s.cmdWrite init Reg.MACT_VCMD v (vcmdWrite v)) = _
    rw [cmdWrite_vcmd run, vcmdWrite_wr wr rd, index]
    rfl
  have frame : s.confined ((s.setUnlock init Reg.MACT_VCMD false).setVlan i s.stagedVlan) (· ∈ []) :=
    ((State.confined.refl s _).setUnlock init Reg.MACT_VCMD false).setSw _
  exact .of_exec ran ⟨State.vlanOf_setVlan_same _ _ _, fun _ other => State.vlanOf_setVlan_other _ _ other, frame.sameRegs, frame.tables,
    frame.bytes⟩

/-- R290: RD shows the VLAN entry. -/
theorem vlanRead_rd (wr : bitOf v 0 = false) (rd : bitOf v 1 = true) (index : i = s.rf Reg.MACT_VIDX 11 0) :
    Completes (.vlanRead init v) s fun t => t.rd Reg.MACT_VMEM = BitVec.ofNat 32 (s.vlanOf i).member
      ∧ t.rd Reg.MACT_VUNTAG = BitVec.ofNat 32 (s.vlanOf i).untag ∧ t.rd Reg.MACT_VCFG = (s.vlanOf i).cfg ∧ t.sw = s.sw
      ∧ s.sameRegs t [Reg.MACT_VMEM, Reg.MACT_VUNTAG, Reg.MACT_VCFG] ∧ s.sameTables t ∧ s.sameBytes t := by
  have ran : exec (.vlanRead init v) s = .next ((s.setUnlock init Reg.MACT_VCMD false).vlanShown (s.vlanOf i)) := by
    change Host.Outcome.next (s.cmdWrite init Reg.MACT_VCMD v (vcmdWrite v)) = _
    rw [cmdWrite_vcmd run, vcmdWrite_rd wr rd, index]
    rfl
  have frame : s.confined ((s.setUnlock init Reg.MACT_VCMD false).vlanShown (s.vlanOf i))
      (· ∈ [Reg.MACT_VMEM, Reg.MACT_VUNTAG, Reg.MACT_VCFG]) :=
    ((((State.confined.refl s _).setUnlock init Reg.MACT_VCMD false).wr _ (by decide)).wr _ (by decide)).wr _ (by decide)
  refine .of_exec ran ⟨?member, ?untag, State.rd_wr_same _ _ _, rfl, frame.sameRegs, frame.tables, frame.bytes⟩
  case member => rw [State.vlanShown, State.rd_wr_other _ _ (by decide), State.rd_wr_other _ _ (by decide), State.rd_wr_same]
  case untag => rw [State.vlanShown, State.rd_wr_other _ _ (by decide), State.rd_wr_same]

/-- R303: WR stores the staged overflow entry. -/
theorem overflowWrite_wr (wr : bitOf v 0 = true) (rd : bitOf v 1 = false) (index : i = 65536 + s.rf Reg.MACT_OIDX 7 0) :
    Completes (.overflowWrite init v) s fun t => t.mtw i 0 = s.rd (Reg.MACT_OW 0) ∧ t.mtw i 1 = s.rd (Reg.MACT_OW 1) &&& 0x0FFFFFFF
      ∧ t.mtw i 2 = s.rd (Reg.MACT_OW 2) &&& 0xEE03FFFF ∧ t.mtw i 3 = s.rd (Reg.MACT_OW 3) &&& 0x80000000
      ∧ s.sameRegs t [] ∧ s.sameTables t ∧ s.sameBytes t := by
  have ran : exec (.overflowWrite init v) s = .next ((s.setUnlock init Reg.MACT_OCMD false).overflowStored i) := by
    change Host.Outcome.next (s.cmdWrite init Reg.MACT_OCMD v (ocmdWrite v)) = _
    rw [cmdWrite_ocmd run, ocmdWrite_wr wr rd, index]
    rfl
  have frame : s.confined ((s.setUnlock init Reg.MACT_OCMD false).overflowStored i) (· ∈ []) :=
    ((State.confined.refl s _).setUnlock init Reg.MACT_OCMD false).setMt_store _ _ _ _ (by omega)
  exact .of_exec ran ⟨State.mtw_setMt_low _ _ _ _ _ _, State.mtw_setMt_high _ _ _ _ _ _, State.mtw_setMt_dest _ _ _ _ _ _,
    State.mtw_setMt_valid _ _ _ _ _ _, frame.sameRegs, frame.tables, frame.bytes⟩

/-- R303: RD shows the overflow entry. -/
theorem overflowRead_rd (wr : bitOf v 0 = false) (rd : bitOf v 1 = true) (index : i = 65536 + s.rf Reg.MACT_OIDX 7 0) :
    Completes (.overflowRead init v) s fun t => (∀ k, k < 4 → t.rd (Reg.MACT_OW k) = s.mtw i k) ∧ t.sw = s.sw
      ∧ s.sameTables t ∧ s.sameBytes t := by
  have ran : exec (.overflowRead init v) s
      = .next ((s.setUnlock init Reg.MACT_OCMD false).loadWords (Reg.MACT_OW 0) ((List.range 4).map (s.mtw i))) := by
    change Host.Outcome.next (s.cmdWrite init Reg.MACT_OCMD v (ocmdWrite v)) = _
    rw [cmdWrite_ocmd run, ocmdWrite_rd wr rd, index]
    rfl
  have frame := ((State.confined.refl s fun _ => True).setUnlock init Reg.MACT_OCMD false).loadWords (Reg.MACT_OW 0)
    ((List.range 4).map (s.mtw i))
  refine .of_exec ran ⟨fun k hk => ?shown, State.loadWords_sw _ _ _, frame.tables, frame.bytes⟩
  case shown =>
    rw [show Reg.MACT_OW k = Reg.MACT_OW 0 + 4 * k by rfl, State.rd_loadWords _ _ _ (by simpa using hk), List.getElem_map, List.getElem_range]

end

/-- Settles O33, command by command. -/
theorem macTableLearnsAgesAndFlushes : Obligations.MacTableLearnsAgesAndFlushes := by
  intro s init v i
  refine ⟨fun _ _ _ _ _ _ => learningRequest_free, ageingSweep_due, fun run go free => ?flush, macFlushDone_idle, vlanWrite_wr, vlanRead_rd,
    overflowWrite_wr, overflowRead_rd⟩
  case flush =>
    obtain ⟨t, ran, busy, cleared, low, kept, bytes⟩ := macFlush_free (init := init) run go free
    exact ⟨t, ran, busy, fun k listed dynamic port fid => cleared k listed ((s.flushNames_iff v k).mpr ⟨dynamic, port, fid⟩), low,
      fun k spared => kept k (State.flushNames_spared spared), bytes⟩

end Sys2Proof.Machine
end
